-- ==== Sys2Proof/Word.lean ====
section
/-! DEFINITION. The word types of the node and their plainest arithmetic: bytes, halfwords, words, and the saturating
counters of the register tables. -/
namespace Sys2Proof

abbrev Byte := BitVec 8
abbrev Half := BitVec 16
abbrev Word := BitVec 32
abbrev Dword := BitVec 64

/-- A counter that stops at its greatest value ("saturating" in the register tables). -/
def satSucc {w : Nat} (x : BitVec w) : BitVec w := if x = BitVec.allOnes w then x else x + 1

/-- One step down, stopping at 0. -/
def satPred {w : Nat} (x : BitVec w) : BitVec w := if x = 0 then 0 else x - 1

/-- A Boolean as one bit. -/
def bit (b : Bool) : BitVec 1 := if b then 1 else 0

/-- The low part of a 64-bit count. -/
def lo32 (t : Dword) : Word := t.setWidth 32

/-- The high part of a 64-bit count. -/
def hi32 (t : Dword) : Word := (t >>> 32).setWidth 32

end Sys2Proof
end

