-- ==== Sys2Proof/Syntax.lean ====
section
/-! DEFINITION. The commands of the node, one constructor per row of spec/opcode_table.json, and the types of their
operands. A command is a whole and indivisible step of the part (spec/95); what happens outside the node at that instant
(levels, received bytes, measured voltages) is in its operands. -/
namespace Sys2Proof

/-- The requesters of accesses (15 Table 15.6; control and steward core in M mode, U-mode code of the control core, the
debug module of 16 R446). -/
inductive Master where
  | control | controlU | steward | causeway | service | debug
  | dma (n : Fin 32)
  deriving DecidableEq, Repr

/-- The levels of the strap pins at a sampling (03 Table 3.4). -/
structure Straps where
  unit : Bool
  pref : Bool
  bank : Bool
  walkEn : Bool
  vrange : BitVec 2
  deriving DecidableEq, Repr

/-- A frame received on a line port (04 R104 to R107): the port, the local time of its first sample at the pins, the four
frame-control bytes, the body, the CRC-32 received, its level (-lvl / 2 dBFS, R130), the impulses in it (R127: sample number
from the first sample of the frame on, and by how many 0.5 dB steps the sample exceeds the running RMS of the previous
symbol), whether a buffer parity error met it, and per carrier (13 to 192) the SNR of its payload symbols in 0.5 dB units
(R117). -/
structure RxFrame where
  port : Fin 4
  ts : Dword
  fc : List Byte
  body : List Byte
  crc : Word
  lvl : Byte
  peaks : List (Nat × Nat)
  parity : Bool
  snr : List Byte
  deriving DecidableEq, Repr

/-- A foreign preamble at a port in the listening interval (07 R209): when its first P begins, in ns from the node's own
first P, the combs it leaves silent in its two P symbols (none in a Traverse or Survey frame), and its correlation with P on
the carriers it sends, in dB above the noise floor. -/
structure ForeignP where
  atNs : Int
  combs : Option (Fin 4 × Fin 4)
  db : Int
  deriving DecidableEq, Repr

/-- A frame received on an E port (07 R227): the bytes from destination address to the end of the data, whether the FCS
was right, whether the port buffer had room, and whether a port-buffer parity error met it. -/
structure EthRx where
  bytes : List Byte
  fcsOk : Bool
  room : Bool
  parity : Bool
  deriving DecidableEq, Repr

/-- A frame received on the Lane (11 R306): the bytes of header and slots, the CRC-32, and whether it came in on L2_RXD. -/
structure LaneRx where
  onL2 : Bool
  bytes : List Byte
  crc : Word
  bad : List Nat
  deriving DecidableEq, Repr

/-- Operands of one itinerary entry (10 Table 10.2) but for its TYPE, which the command names, and its index in the
table. -/
structure Entry where
  index : Nat
  en : BitVec 2
  skip : Byte
  enref : Half
  in0 : Half
  in1 : Half
  in2 : Half
  out0 : Half
  out1 : Half
  inst : BitVec 15
  deriving DecidableEq, Repr

/-- A host bus access at the address phase (14 Table 14.1): A[15:0], BHE_N, and the parity pins (HPAR1, HPAR0). -/
structure HostAddr where
  a : Half
  bheN : Bool
  par : BitVec 2
  deriving DecidableEq, Repr

/-- A source of a RUN request (09 R260). -/
inductive RunSource where
  | spMode | runctl | autorun
  deriving DecidableEq, Repr

/-- A core (09 R265 mhartid: 0 control core, 1 steward core). -/
inductive Hart where
  | control | steward
  deriving DecidableEq, Repr

/-- What a debugger does with the program buffer of a hart beside an abstract command (16 R446). -/
inductive BufOp where
  | keep | write (a b : Word) | read | run
  deriving DecidableEq, Repr

/-- What fires a DMA trigger (13 R364): an event or an internal strobe of Table 13.3. -/
inductive TrigSource where
  | event (n : Byte) | strobe (n : Byte)
  deriving DecidableEq, Repr

/-- An access of another master that is served during a logic pass, before the entry of an index runs: a write of a value, or a
read (10 R290). -/
structure Served where
  before : BitVec 12
  m : Master
  addr : Word
  lanes : BitVec 4
  w : Option Word
  deriving DecidableEq, Repr

/-- The size of an access in bytes (02 Table 2.4, SP_DCTL.SIZE). -/
inductive Size where
  | byte | half | word
  deriving DecidableEq, Repr

/-- The commands. -/
inductive Instr where
  -- service port (02)
  | registerWrite (m : Master) (addr : Word) (lanes : BitVec 4) (v : Word)
  | serviceImageCapture (apin : Bool)
  | normalRead (a : BitVec 6)
  | peek (a : BitVec 6)
  | serviceWrite (a : BitVec 6) (v : Half)
  | commandRefused (a : BitVec 6)
  | key (v : Half)
  | keyWindowClose
  | wrst (v : Half)
  | deepRead (v : Half)
  | deepWrite (v : Half)
  | deepAccessDone
  | deepAccessTimeout
  | autoIncrement (wr : Option Half)
  | walkEntry (v : Half)
  | walkEntryComplete
  | step (v : Half)
  | walkStepEnd (clocks : Nat) (met : Bool)
  | walkExit (v : Half)
  | fbStart
  | fbNewest
  | fbDataRead
  | gaugeConversion
  -- power, reset, clocks and the vehicle supply (03)
  | powerOn (lowestMv : Nat)
  | powerUpComplete (straps : Straps)
  | pinReset (lowNs : Nat)
  | pinResetRelease (straps : Straps)
  | testHigh
  | brownOut
  | coreLow
  | warmResetRelease
  | clockFault
  | clockRecovery (straps : Straps)
  | refClkLoss
  | cabActChange (level : Bool)
  | cabdbChange
  | vehSample (senseMv vsupMv vcoreMv : Nat) (vioMv : Vector Half 4) (temp : Half)
  | classTimeExpiry
  | vsupPowerFail
  | saveDone
  | holdResume
  | vsupLowWarning (vsupMv : Nat)
  | tempWarning (halfDegrees : Half)
  -- Traverse reception and line ports (04, 06)
  | traverseReceive (f : RxFrame) (beside : Option (List Byte))
  | portCarrier (p : Fin 4) (rxlvl : Byte)
  | portLockLost (p : Fin 4)
  | portSilent (p : Fin 4) (rxlvl : Byte)
  | portJam (p : Fin 4)
  | portDead (p : Fin 4)
  | portClear (p : Fin 4)
  | notchPlace (p : Fin 4) (freq : BitVec 24)
  | notchRelease (p : Fin 4) (n : Fin 8)
  | timestampRead (m : Master) (addr : Word)
  | portDisable (p : Fin 4)
  | snrEvaluation (p : Fin 4)
  | snrReportPeriodic (p : Fin 4)
  | snrReport (f : RxFrame)
  | segmentAnnounce (f : RxFrame)
  | tonemapAcknowledge (f : RxFrame)
  | segmentActivate (f : RxFrame)
  | segmentMapActivation (p : Fin 4)
  | segmentMapAbandon (p : Fin 4)
  | segmentSummary (f : RxFrame)
  | ringAnnounce (f : RxFrame)
  | ringMapActivation
  | ringMapAbandon
  -- ring and survey (01, 05)
  | throughUnitChange (partnerRuns : Bool)
  | turnout
  | beaconTimer (p : Fin 4)
  | beacon (f : RxFrame)
  | request (f : RxFrame)
  | settleExpiry
  | seek (f : RxFrame)
  | token (f : RxFrame)
  | report (f : RxFrame)
  | pass (f : RxFrame)
  | reportSlotEnd (carrierA carrierB : Bool)
  | dupBypassWait
  | tally (f : RxFrame)
  | svyPublish
  | hostDeadline
  | result (f : RxFrame)
  | surveyDeferredSend
  | confirm (f : RxFrame)
  | confirmDeadline
  | surveyAbort (f : RxFrame)
  | surveyCut (elsewhere : Bool) (beside : Option (List Byte))
  | surveyTimeout
  | svyStart
  | svyFull
  | svyAbort
  | join (f : RxFrame)
  | here (f : RxFrame)
  | latecomerCheck
  | latecomerNoAnswer
  -- Traverse and time (06)
  | t0 (beside : Option (List Byte))
  | localT0
  | returnPassComplete
  | latchInstant
  | syncHoldExpiry
  | missedTraverse
  | takeover (beside : Option (List Byte))
  | coverStart
  | resume (f : RxFrame)
  | commit
  | tableRequest (f : RxFrame)
  | tableRequestRepeat
  | table (f : RxFrame)
  | claim (f : RxFrame)
  | claimRetry
  | tableEdit (v : Word)
  | claimPop (m : Master)
  | traverseDisable
  -- Open Road (07)
  | roadWindowOpen
  | roadFrameStart (p : Fin 4) (slots : List (List (Option Nat))) (foreign : Option ForeignP)
  | acknowledge (f : RxFrame)
  | ackTimeout (p : Fin 4)
  | roadTransit (f : RxFrame)
  | userMessage (f : RxFrame)
  | ethernetTunnel (f : RxFrame)
  | pause (f : RxFrame)
  | pauseExpiry (p : Fin 4) (nid : BitVec 6) (prio : Fin 8)
  | pauseRepeat (p : Fin 4) (prio : Fin 8)
  | helloTimer
  | hello (f : RxFrame)
  | neighbourAgeExpiry (p : Fin 4) (nid : BitVec 6)
  | ping (dst : BitVec 6)
  | echo (f : RxFrame)
  | reply (f : RxFrame)
  | transmitRecord (m : Master) (wp : Word)
  | wayleave (f : RxFrame)
  | wayleaveRepeat
  -- Ethernet (07)
  | ethFrameReceive (e : Fin 2) (f : EthRx)
  | phyPoll (e : Fin 2) (r0 r1 r4 r5 : Half)
  | mdioAccess (e : Fin 2) (v : Word)
  | mdioDone (e : Fin 2) (data : Half)
  | addressAgeExpiry (i : Fin 256)
  | ethPause (e : Fin 2) (quanta : Half)
  | pfc (e : Fin 2) (classes : Byte) (quanta : List Half)
  | pfcExpiry (e : Fin 2) (cls : Fin 8)
  | learnqPop (m : Master)
  | ethDisable (e : Fin 2) (v : Word)
  -- counters, events, Field Book (08)
  | cairnRequest (v : Word)
  | cairn (p : Fin 8)
  | evtSoft (v : Word)
  | eventClaim (m : Master) (h : Hart)
  | fbRecordWrite (failed : Option (List Byte))
  | fbRepeatExpiry (ev : Byte)
  | fbHealthTimer
  | fbkUsergo (v : Word)
  | fbkWipe (v : Word)
  | fbkRawPop (m : Master)
  -- control cycle and runtime services (09)
  | runRequest (src : RunSource)
  | stopRequest
  | loadComplete
  | initReturn (a0 : Word)
  | initTimeout
  | inputImageRelease (served : List Served)
  | cycleReturn (a0 : Word) (us : Nat) (served : List Served)
  | outputDeadline
  | cycleWatchdog
  | programFault (mcause : BitVec 4) (mepc : Word)
  | timeNow
  | fbUser (a0 a1 : Word)
  | roadSend (a0 a1 : Word)
  | roadRecv (a0 a1 a2 : Word)
  | gateTry (a0 : Word)
  | gateRelease (a0 : Word)
  | queuePush (a0 a1 : Word)
  | queuePop (a0 : Word)
  | reqStop
  | fault (a0 : Word)
  -- itinerary entries (10 Table 10.5)
  | entrySkip (e : Entry)
  | blkNop (e : Entry)
  | blkAnd (e : Entry)
  | blkOr (e : Entry)
  | blkXor (e : Entry)
  | blkNot (e : Entry)
  | blkSr (e : Entry)
  | blkRs (e : Entry)
  | blkRtrig (e : Entry)
  | blkFtrig (e : Entry)
  | blkBitget (e : Entry)
  | blkBitput (e : Entry)
  | blkBand (e : Entry)
  | blkBor (e : Entry)
  | blkBxor (e : Entry)
  | blkShl (e : Entry)
  | blkShr (e : Entry)
  | blkAdd (e : Entry)
  | blkSub (e : Entry)
  | blkMul (e : Entry)
  | blkDiv (e : Entry)
  | blkMod (e : Entry)
  | blkAbs (e : Entry)
  | blkNeg (e : Entry)
  | blkMin (e : Entry)
  | blkMax (e : Entry)
  | blkLimit (e : Entry)
  | blkEq (e : Entry)
  | blkNe (e : Entry)
  | blkGt (e : Entry)
  | blkGe (e : Entry)
  | blkLt (e : Entry)
  | blkLe (e : Entry)
  | blkMove (e : Entry)
  | blkSel (e : Entry)
  | blkPack16 (e : Entry)
  | blkUnpack16 (e : Entry)
  | blkBswap (e : Entry)
  | blkI2q (e : Entry)
  | blkQ2i (e : Entry)
  | blkScale (e : Entry)
  | blkQmul (e : Entry)
  | blkQdiv (e : Entry)
  | blkQsqrt (e : Entry)
  | blkQmac (e : Entry)
  | blkTon (e : Entry)
  | blkTof (e : Entry)
  | blkTp (e : Entry)
  | blkCtu (e : Entry)
  | blkCtd (e : Entry)
  | blkPid (e : Entry)
  | blkLag (e : Entry)
  | blkRamp (e : Entry)
  | blkInteg (e : Entry)
  | blkDeriv (e : Entry)
  | blkDband (e : Entry)
  | blkHyst (e : Entry)
  | blkLin (e : Entry)
  | blkAvg (e : Entry)
  | blkWmok (e : Entry)
  | blkLaneok (e : Entry)
  | blkFresh (e : Entry)
  | blkInrange (e : Entry)
  | blkLoadx (e : Entry)
  | blkStorex (e : Entry)
  -- Lane (11)
  | applyMark (rest : Vector Nat 2)
  | collectPass
  | deliverPass
  | lanePassReturn (f : LaneRx)
  | lanePassLate
  | heardPass (f : LaneRx)
  | laneSubdone (served : List Served)
  | laneCommit
  | laneEnable
  | laneDisable
  | forcestart
  | identPass
  | rangePass (station : Fin 32) (fromL2 : Bool) (rtt : Option Nat)
  | configPass
  | startTimeout
  -- wayleave and interlock (12)
  | heartbeat
  | peerHbPulse (widthNs : Nat)
  | peerHbLost
  | wlvBcommit
  | wayleaveDeadline
  | wlvReqqPop (m : Master)
  | collisionCheck
  | peerOwnChange (level : Bool)
  | interlockStuck
  | drill
  | drillCheckEnd
  | drillRefused
  | revertReady
  | tclr
  -- DMA (13)
  | dmaGo (n : Fin 32) (v : Word)
  | dmaDisable (n : Option (Fin 32))
  | dmaFetchDone (n : Fin 32)
  | dmaGateAcquire (n : Fin 32)
  | dmaTrigger (t : TrigSource)
  | dmaBeat
  | dmaWriteResponse (n : Fin 32)
  | dmaStopDone (n : Fin 32)
  -- Causeway (14)
  | hostRead (h : HostAddr)
  | hostWrite (h : HostAddr) (data : Half) (par : BitVec 2)
  | hostWaitTimeout
  | localWriteResponse
  | frameBuild (w : Fin 16)
  | causewayWrite (f : Option RxFrame)
  | causewayDone (f : RxFrame)
  | doneTimeout (w : Fin 16)
  | cwyLogPop (m : Master)
  | testlog
  -- memory, gates and queues (15)
  | scrub
  | flashProgram (m : Master) (addr : Word) (be : BitVec 4) (v : Word)
  | flashProgramDone (bankB : Bool)
  | flashErase (m : Master) (v : Word)
  | flashEraseDone (bankB : Bool) (stuck : List (Nat × Byte))
  | memElogPop (m : Master)
  | injection (m : Master) (v : Word)
  | gateTryg (m : Master) (g : Fin 32)
  | gateRelg (m : Master) (g : Fin 32)
  | gateForceg (m : Master) (g : Fin 32)
  | gateLeaseExpiry (g : Fin 32)
  | gateQpush (m : Master) (q : Fin 16) (v : Word)
  | gateQpop (m : Master) (q : Fin 16)
  | gateQclr (m : Master) (q : Fin 16) (v : Word)
  -- boot, partitions, JTAG and debug (16)
  | bootVerify (v : Word)
  | bootVerifyDone
  | bootKick
  | stewardWatchdog
  | quiesce (m : Master) (p : Fin 8)
  | partitionReset (m : Master) (p : Fin 8) (bankB : Bool)
  | rejoin (m : Master) (p : Fin 8)
  | quiesceComplete (p : Fin 6)
  | partitionResetDone (p : Fin 6)
  | rejoinComplete (p : Fin 6)
  | keyProgram (slot : Fin 4)
  | keyRevoke (slot : Fin 4)
  | tapReset
  | extest (pins : BitVec 225) (cells : BitVec 225)
  | samplePreload (pins : BitVec 225) (cells : BitVec 225)
  | idcode
  | bypass (tdi : Bool)
  | dtmcs (v : Word)
  | debugHalt (h : Hart)
  | debugResume (h : Hart)
  | singleStep (h : Hart) (nextPc : Word)
  | abstractCommand (h : Hart) (write : Bool) (regno : Half) (v : Word) (buf : BufOp)
  | systemBusRead (addr : Word) (size : Size)
  | systemBusWrite (addr : Word) (size : Size) (v : Word)
  -- rows added at the end of the table
  | crcOrFramingError (edges : Nat) (sdi : Word)
  | refClkReturn
  | closureFail
  | lastSymbolSent (p : Fin 4)
  | ethPauseExpiry (e : Fin 2)
  | ethFrameSent (e : Fin 2) (collisions : List Bool)
  deriving DecidableEq, Repr

end Sys2Proof
end

