-- ==== Sys2Proof/Decode.lean ====
section
/-! DEFINITION. Decoding. The rows of spec/opcode_table.json are commands of a block and give no bits, so no word spells one:
commands come to the node as they are, in its queue. -/
namespace Sys2Proof

/-- The command that a word of the table's bits spells: none, since no row of the table gives bits. -/
def decodeTableWord (_nbits _w : Nat) : Option Instr := none

end Sys2Proof
end

