-- ==== Sys2Proof/Config.lean ====
section
/-! DEFINITION. What the manual leaves open: values that no proof can see. A statement of this model holds for all of them. -/
namespace Sys2Proof

/-- The n-th open value a step takes: random back-off and comb draws (07 R209, R211), outcomes the manual leaves free
(03 R79, R81; 13 R373). Log 1. -/
opaque Config.freeNat : Nat → Nat

/-- Which of the check columns of weight 3 not given yet the next data bit of the SECDED code has: open (15 R400). Log 15. -/
opaque Config.secdedPick : Nat → Nat

end Sys2Proof
end

