-- ==== Sys2Proof/Machine/Crc.lean ====
section
/-! DEFINITION. The cyclic checks of the manual over byte strings, and big- and little-endian byte strings of numbers. -/
namespace Sys2Proof.Machine

/-- The bits of a byte, most significant first. -/
def bitsMsb (b : Byte) : List Bool := [7, 6, 5, 4, 3, 2, 1, 0].map b.getLsbD

/-- The bits of a byte in transmission order, least significant first (00 R5). -/
def bitsLsb (b : Byte) : List Bool := [0, 1, 2, 3, 4, 5, 6, 7].map b.getLsbD

/-- One bit of an unreflected check. -/
def crcStep {w : Nat} (poly c : BitVec w) (b : Bool) : BitVec w :=
  let sh := c <<< 1
  if c.msb == b then sh else sh ^^^ poly

/-- CRC-8 of the service port and of frame control (02 R37, 04 R105). -/
def crc8 (bs : List Byte) : Byte := (bs.flatMap bitsMsb).foldl (crcStep 0x07) 0

/-- CRC-16 of header, milestone, waymark, Lane slot and Field Book record (06 R172). -/
def crc16 (bs : List Byte) : Half := (bs.flatMap bitsMsb).foldl (crcStep 0x1021) 0xFFFF

/-- One bit of the reflected IEEE 802.3 check. -/
def crc32Step (c : Word) (b : Bool) : Word :=
  let sh := c >>> 1
  if c.getLsbD 0 == b then sh else sh ^^^ 0xEDB88320

/-- CRC-32, the IEEE 802.3 frame check sequence (04 R114). -/
def crc32 (bs : List Byte) : Word := ~~~ ((bs.flatMap bitsLsb).foldl crc32Step 0xFFFFFFFF)

/-- n bytes of a number, least significant first. -/
def leBytes : (n : Nat) → Nat → List Byte
  | 0, _ => []
  | n + 1, v => BitVec.ofNat 8 v :: leBytes n (v / 256)

/-- n bytes of a number in line order, most significant first (00 R5). -/
def beBytes (n v : Nat) : List Byte := (leBytes n v).reverse

/-- The number a byte string holds, least significant byte first. -/
def ofLe : List Byte → Nat
  | [] => 0
  | b :: t => b.toNat + 256 * ofLe t

/-- The number a byte string in line order holds. -/
def ofBe (bs : List Byte) : Nat := ofLe bs.reverse

/-- n bytes from offset i, zero beyond the end. -/
def slice (bs : List Byte) (i n : Nat) : List Byte :=
  let t := (bs.drop i).take n
  t ++ List.replicate (n - t.length) 0

/-- The number in line order at n bytes from offset i. -/
def beAt (bs : List Byte) (i n : Nat) : Nat := ofBe (slice bs i n)

/-- Byte i, zero beyond the end. -/
def byteAt (bs : List Byte) (i : Nat) : Byte := bs.getD i 0

end Sys2Proof.Machine
end

