-- ==== Sys2Proof/Machine/RegMap.lean ====
section
/-! DEFINITION. The map of the deep registers: addresses by name, and for every register its access code, its reset value
and the bits that hold what is written (the register tables of spec/02 to spec/16; access codes 00 R7). -/
namespace Sys2Proof.Machine

/-- Access codes of 00 Table 0.2. -/
inductive Acc where
  | rw | ro | wo | w1c | rc
  deriving DecidableEq, Repr

/-- One register or array of registers: base, stride and count, a second stride and count for registers repeated per
port, access code, reset value of the stored bits, and which bits are stored. -/
structure RegRow where
  base : Nat
  stride : Nat
  count : Nat
  stride2 : Nat
  count2 : Nat
  acc : Acc
  reset : Word
  mask : Word
  deriving DecidableEq, Repr

/-! ### Addresses -/

/-- SYS_PINS (03 R71,R73). -/
abbrev Reg.SYS_PINS : Nat := 0x40000000
/-- SYS_RSTCAUSE (03 R80,R81). -/
abbrev Reg.SYS_RSTCAUSE : Nat := 0x40000004
/-- SYS_CLKSTAT (03 R85). -/
abbrev Reg.SYS_CLKSTAT : Nat := 0x40000008
/-- SYS_ROLE (01 R26). -/
abbrev Reg.SYS_ROLE : Nat := 0x40000010
/-- SYS_SPLIT (01 R28). -/
abbrev Reg.SYS_SPLIT : Nat := 0x40000020
/-- SYS_SPLIT_ACT (01 R28). -/
abbrev Reg.SYS_SPLIT_ACT : Nat := 0x40000024
/-- SYS_VEH_CFG (03 R88 (NOM of reset from VRANGE)). -/
abbrev Reg.SYS_VEH_CFG : Nat := 0x40000030
/-- SYS_VEH_RATIO (03 R87 (reset per Table 3.11)). -/
abbrev Reg.SYS_VEH_RATIO : Nat := 0x40000034
/-- SYS_VEH_STAT (03 R87,R89). -/
abbrev Reg.SYS_VEH_STAT : Nat := 0x40000038
/-- SYS_SUPPLY (03 Registers). -/
abbrev Reg.SYS_SUPPLY : Nat := 0x4000003C
/-- SYS_PARTCTL (16 R437). -/
abbrev Reg.SYS_PARTCTL : Nat := 0x40000040
/-- SYS_PARTSTAT (16 R437). -/
abbrev Reg.SYS_PARTSTAT : Nat := 0x40000044
/-- EVT_RAW (08 R242). -/
abbrev Reg.EVT_RAW : Nat := 0x40010000
/-- EVT_MULTI (08 R242). -/
abbrev Reg.EVT_MULTI : Nat := 0x40010020
/-- EVT_ENC (08 R242). -/
abbrev Reg.EVT_ENC : Nat := 0x40010040
/-- EVT_ENS (08 R242). -/
abbrev Reg.EVT_ENS : Nat := 0x40010060
/-- EVT_ALE (08 R242,R245). -/
abbrev Reg.EVT_ALE : Nat := 0x40010080
/-- EVT_LOG (08 R242,R245). -/
abbrev Reg.EVT_LOG : Nat := 0x400100A0
/-- EVT_PENDC (08 R242). -/
abbrev Reg.EVT_PENDC : Nat := 0x400100C0
/-- EVT_PENDS (08 R242). -/
abbrev Reg.EVT_PENDS : Nat := 0x400100E0
/-- EVT_PRI (08 R243). -/
abbrev Reg.EVT_PRI : Nat := 0x40010100
/-- EVT_CLAIMC (08 R243). -/
abbrev Reg.EVT_CLAIMC : Nat := 0x40010200
/-- EVT_CLAIMS (08 R243). -/
abbrev Reg.EVT_CLAIMS : Nat := 0x40010204
/-- EVT_THRC (08 R243). -/
abbrev Reg.EVT_THRC : Nat := 0x40010208
/-- EVT_THRS (08 R243). -/
abbrev Reg.EVT_THRS : Nat := 0x4001020C
/-- EVT_LAST (08 R244). -/
abbrev Reg.EVT_LAST : Nat := 0x40010210
/-- EVT_SOFT (08 R475). -/
abbrev Reg.EVT_SOFT : Nat := 0x40010214
/-- EVT_CTL (08 R244). -/
abbrev Reg.EVT_CTL : Nat := 0x40010218
/-- LIU_CTL (04 R118,R121,R135). -/
abbrev Reg.LIU_CTL : Nat := 0x40020000
/-- LIU_RING (04 R121). -/
abbrev Reg.LIU_RING : Nat := 0x40020004
/-- LIU_MASK (04 R102 (MASK5 [31:20] reserved)). -/
abbrev Reg.LIU_MASK : Nat := 0x40020010
/-- LIU_RTM (04 R121 (RTM8-11, 24 words each)). -/
abbrev Reg.LIU_RTM : Nat := 0x40020200
/-- LIU_PCFG (04 R99,R127-R130). -/
abbrev Reg.LIU_PCFG : Nat := 0x40021000
/-- LIU_PSTAT (04 R130). -/
abbrev Reg.LIU_PSTAT : Nat := 0x40021004
/-- LIU_JAM (04 R130). -/
abbrev Reg.LIU_JAM : Nat := 0x40021008
/-- LIU_BLANK (04 R127). -/
abbrev Reg.LIU_BLANK : Nat := 0x4002100C
/-- LIU_NCFG (04 R128). -/
abbrev Reg.LIU_NCFG : Nat := 0x40021010
/-- LIU_TMSEG (04 R120). -/
abbrev Reg.LIU_TMSEG : Nat := 0x40021014
/-- LIU_TSRX_L (04 R133,R134). -/
abbrev Reg.LIU_TSRX_L : Nat := 0x40021020
/-- LIU_TSRX_H (04 R133,R134). -/
abbrev Reg.LIU_TSRX_H : Nat := 0x40021024
/-- LIU_TSTX_L (04 R133,R134). -/
abbrev Reg.LIU_TSTX_L : Nat := 0x40021028
/-- LIU_TSTX_H (04 R133,R134). -/
abbrev Reg.LIU_TSTX_H : Nat := 0x4002102C
/-- LIU_NOTCH (04 R128 (port A1; +0x1000 per port)). -/
abbrev Reg.LIU_NOTCH : Nat := 0x40021040
/-- LIU_TMEST (04 R117,R118 (port A1; +0x1000 per port)). -/
abbrev Reg.LIU_TMEST : Nat := 0x40021100
/-- LIU_TM (04 R120,R136 (port A1; +0x1000 per port)). -/
abbrev Reg.LIU_TM : Nat := 0x40021200
/-- SVY_CTL (05 R140,R143,R153,R157,R165). -/
abbrev Reg.SVY_CTL : Nat := 0x40030000
/-- SVY_CFG (05 R167). -/
abbrev Reg.SVY_CFG : Nat := 0x40030004
/-- SVY_TIM (05 R167). -/
abbrev Reg.SVY_TIM : Nat := 0x40030008
/-- SVY_STAT (05 R166). -/
abbrev Reg.SVY_STAT : Nat := 0x4003000C
/-- SVY_NODE (05 R158). -/
abbrev Reg.SVY_NODE : Nat := 0x40030010
/-- SVY_UID (05 Registers). -/
abbrev Reg.SVY_UID : Nat := 0x40030014
/-- SVY_HEALTH (05 R153). -/
abbrev Reg.SVY_HEALTH : Nat := 0x40030018
/-- SVY_CUT (05 R156). -/
abbrev Reg.SVY_CUT : Nat := 0x4003001C
/-- SVY_CHAINTAB (05 R165). -/
abbrev Reg.SVY_CHAINTAB : Nat := 0x40030100
/-- SVY_NIDTAB (05 R165). -/
abbrev Reg.SVY_NIDTAB : Nat := 0x40030200
/-- SVY_TALLY (05 R150). -/
abbrev Reg.SVY_TALLY : Nat := 0x40030400
/-- TRE_CTL (06 R191,R200,R202). -/
abbrev Reg.TRE_CTL : Nat := 0x40040000
/-- TRE_PERIOD (06 R168,R170). -/
abbrev Reg.TRE_PERIOD : Nat := 0x40040004
/-- TRE_LATCH (06 R170,R197). -/
abbrev Reg.TRE_LATCH : Nat := 0x40040008
/-- TRE_ROAD (06 R171). -/
abbrev Reg.TRE_ROAD : Nat := 0x4004000C
/-- TRE_SYNCCFG (06 R194,R195,R200). -/
abbrev Reg.TRE_SYNCCFG : Nat := 0x40040010
/-- TRE_SYNC (06 R195,R196). -/
abbrev Reg.TRE_SYNC : Nat := 0x40040014
/-- TRE_OFFSET (06 R194). -/
abbrev Reg.TRE_OFFSET : Nat := 0x40040018
/-- TRE_COUNT (06 R169). -/
abbrev Reg.TRE_COUNT : Nat := 0x4004001C
/-- TRE_TIME_L (06 R134). -/
abbrev Reg.TRE_TIME_L : Nat := 0x40040020
/-- TRE_TIME_H (06 R134). -/
abbrev Reg.TRE_TIME_H : Nat := 0x40040024
/-- TRE_HOPDLY (06 R147). -/
abbrev Reg.TRE_HOPDLY : Nat := 0x40040028
/-- TRE_RDLY (06 R199). -/
abbrev Reg.TRE_RDLY : Nat := 0x4004002C
/-- TRE_CLOSE (06 R199). -/
abbrev Reg.TRE_CLOSE : Nat := 0x40040030
/-- TRE_COMMIT (06 R183). -/
abbrev Reg.TRE_COMMIT : Nat := 0x40040034
/-- TRE_TAB (06 R189). -/
abbrev Reg.TRE_TAB : Nat := 0x40040038
/-- TRE_EDIT (06 R192). -/
abbrev Reg.TRE_EDIT : Nat := 0x4004003C
/-- TRE_EDITENT (06 R192). -/
abbrev Reg.TRE_EDITENT : Nat := 0x40040040
/-- TRE_CLAIM (06 R191). -/
abbrev Reg.TRE_CLAIM : Nat := 0x40040044
/-- TRE_RXOK (06 R184). -/
abbrev Reg.TRE_RXOK : Nat := 0x40040080
/-- TRE_FRZOK (06 R184). -/
abbrev Reg.TRE_FRZOK : Nat := 0x400400A0
/-- TRE_WMTAB (06 R186). -/
abbrev Reg.TRE_WMTAB : Nat := 0x40040400
/-- TRE_WMOFS (06 R175,R182). -/
abbrev Reg.TRE_WMOFS : Nat := 0x40040800
/-- ROAD_CTL (07 R234). -/
abbrev Reg.ROAD_CTL : Nat := 0x40050000
/-- ROAD_MAC (07 R211,R213). -/
abbrev Reg.ROAD_MAC : Nat := 0x40050004
/-- ROAD_PCFG (07 R224,R234). -/
abbrev Reg.ROAD_PCFG : Nat := 0x40050010
/-- ROAD_PAUSE (07 R220). -/
abbrev Reg.ROAD_PAUSE : Nat := 0x40050020
/-- ROAD_NBAGE (07 R219). -/
abbrev Reg.ROAD_NBAGE : Nat := 0x40050024
/-- ROAD_STAT (07 Registers). -/
abbrev Reg.ROAD_STAT : Nat := 0x40050028
/-- ROAD_PAUSED (07 R221). -/
abbrev Reg.ROAD_PAUSED : Nat := 0x4005002C
/-- ROAD_PING (07 R213). -/
abbrev Reg.ROAD_PING : Nat := 0x40050030
/-- ROAD_TXBASE (07 R222). -/
abbrev Reg.ROAD_TXBASE : Nat := 0x40050040
/-- ROAD_TXSIZE (07 R222). -/
abbrev Reg.ROAD_TXSIZE : Nat := 0x40050044
/-- ROAD_TXWP (07 R222). -/
abbrev Reg.ROAD_TXWP : Nat := 0x40050048
/-- ROAD_TXRP (07 R222). -/
abbrev Reg.ROAD_TXRP : Nat := 0x4005004C
/-- ROAD_RXBASE (07 R223). -/
abbrev Reg.ROAD_RXBASE : Nat := 0x40050100
/-- ROAD_RXSIZE (07 R223). -/
abbrev Reg.ROAD_RXSIZE : Nat := 0x40050104
/-- ROAD_RXWP (07 R223). -/
abbrev Reg.ROAD_RXWP : Nat := 0x40050108
/-- ROAD_RXRP (07 R223). -/
abbrev Reg.ROAD_RXRP : Nat := 0x4005010C
/-- ROAD_NBR (07 R219). -/
abbrev Reg.ROAD_NBR : Nat := 0x40050200
/-- ETH0_CTL (07 R227-R234). -/
abbrev Reg.ETH0_CTL : Nat := 0x40060000
/-- ETH0_STAT (07 R228). -/
abbrev Reg.ETH0_STAT : Nat := 0x40060004
/-- ETH0_PHY (07 R228). -/
abbrev Reg.ETH0_PHY : Nat := 0x40060008
/-- ETH0_MDIO (07 R228). -/
abbrev Reg.ETH0_MDIO : Nat := 0x4006000C
/-- ETH0_PCPMAP (07 R229). -/
abbrev Reg.ETH0_PCPMAP : Nat := 0x40060010
/-- ETH0_PFC (07 R230). -/
abbrev Reg.ETH0_PFC : Nat := 0x40060014
/-- ETH_AGE (07 R232). -/
abbrev Reg.ETH_AGE : Nat := 0x40060018
/-- ETH_LEARNQ_H (07 R233). -/
abbrev Reg.ETH_LEARNQ_H : Nat := 0x40060020
/-- ETH_LEARNQ_L (07 R233). -/
abbrev Reg.ETH_LEARNQ_L : Nat := 0x40060024
/-- ETH_ATAB (07 R232). -/
abbrev Reg.ETH_ATAB : Nat := 0x40061000
/-- ETH1_CTL (07 R227-R234). -/
abbrev Reg.ETH1_CTL : Nat := 0x40070000
/-- ETH1_STAT (07 R228). -/
abbrev Reg.ETH1_STAT : Nat := 0x40070004
/-- ETH1_PHY (07 R228). -/
abbrev Reg.ETH1_PHY : Nat := 0x40070008
/-- ETH1_MDIO (07 R228). -/
abbrev Reg.ETH1_MDIO : Nat := 0x4007000C
/-- ETH1_PCPMAP (07 R229). -/
abbrev Reg.ETH1_PCPMAP : Nat := 0x40070010
/-- ETH1_PFC (07 R230). -/
abbrev Reg.ETH1_PFC : Nat := 0x40070014
/-- CNT_COUNTER (08 R235 (port 0; +0x100 per port)). -/
abbrev Reg.CNT_COUNTER : Nat := 0x40080000
/-- CNT_HPEND_L (08 R238). -/
abbrev Reg.CNT_HPEND_L : Nat := 0x400800C0
/-- CNT_HPEND_H (08 R238). -/
abbrev Reg.CNT_HPEND_H : Nat := 0x400800C4
/-- CNT_HOVR_L (08 R238). -/
abbrev Reg.CNT_HOVR_L : Nat := 0x400800C8
/-- CNT_HOVR_H (08 R238). -/
abbrev Reg.CNT_HOVR_H : Nat := 0x400800CC
/-- CNT_CBANK (08 R239,R241 (port 0; +0x100 per port)). -/
abbrev Reg.CNT_CBANK : Nat := 0x40081000
/-- CNT_CAIRN (08 R240). -/
abbrev Reg.CNT_CAIRN : Nat := 0x40082000
/-- CNT_AUTO (08 R240). -/
abbrev Reg.CNT_AUTO : Nat := 0x40082004
/-- CNT_HSUM (08 Registers). -/
abbrev Reg.CNT_HSUM : Nat := 0x40082008
/-- FBK_CTL (08 R251). -/
abbrev Reg.FBK_CTL : Nat := 0x40090000
/-- FBK_STAT (08 R251). -/
abbrev Reg.FBK_STAT : Nat := 0x40090004
/-- FBK_OLDEST (08 Registers). -/
abbrev Reg.FBK_OLDEST : Nat := 0x40090008
/-- FBK_SECT (08 R247,R248). -/
abbrev Reg.FBK_SECT : Nat := 0x4009000C
/-- FBK_USER (08 R251). -/
abbrev Reg.FBK_USER : Nat := 0x40090010
/-- FBK_USERGO (08 R251). -/
abbrev Reg.FBK_USERGO : Nat := 0x40090018
/-- FBK_WIPE (08 R253). -/
abbrev Reg.FBK_WIPE : Nat := 0x4009001C
/-- FBK_RAW (08 R252). -/
abbrev Reg.FBK_RAW : Nat := 0x40090020
/-- ITN_CTL (10 R294). -/
abbrev Reg.ITN_CTL : Nat := 0x400A0000
/-- ITN_SEQ (10 R301). -/
abbrev Reg.ITN_SEQ : Nat := 0x400A0004
/-- ITN_INFO (10 Registers). -/
abbrev Reg.ITN_INFO : Nat := 0x400A0008
/-- ITN_WCYC (10 R298). -/
abbrev Reg.ITN_WCYC : Nat := 0x400A000C
/-- ITN_PASSCYC (10 R298). -/
abbrev Reg.ITN_PASSCYC : Nat := 0x400A0010
/-- ITN_PASSCNT (10 Registers). -/
abbrev Reg.ITN_PASSCNT : Nat := 0x400A0014
/-- ITN_SAT (10 R294). -/
abbrev Reg.ITN_SAT : Nat := 0x400A0018
/-- ITN_PREVTC (10 R295). -/
abbrev Reg.ITN_PREVTC : Nat := 0x400A001C
/-- ITN_RUNCTL (09 R260,R262,R263). -/
abbrev Reg.ITN_RUNCTL : Nat := 0x400A8000
/-- ITN_PSTAT (09 R259,R281). -/
abbrev Reg.ITN_PSTAT : Nat := 0x400A8004
/-- ITN_CYCCFG (09 R280). -/
abbrev Reg.ITN_CYCCFG : Nat := 0x400A8008
/-- ITN_CYCNT (09 Registers). -/
abbrev Reg.ITN_CYCNT : Nat := 0x400A800C
/-- ITN_OVR (09 R276,R277). -/
abbrev Reg.ITN_OVR : Nat := 0x400A8010
/-- ITN_CYCTIME (09 Registers). -/
abbrev Reg.ITN_CYCTIME : Nat := 0x400A8014
/-- ITN_LTIME_L (09 R255). -/
abbrev Reg.ITN_LTIME_L : Nat := 0x400A8018
/-- ITN_LTIME_H (09 R255). -/
abbrev Reg.ITN_LTIME_H : Nat := 0x400A801C
/-- ITN_ERRCAUSE (09 R275). -/
abbrev Reg.ITN_ERRCAUSE : Nat := 0x400A8020
/-- ITN_FAULT (09 R260,R279). -/
abbrev Reg.ITN_FAULT : Nat := 0x400A8024
/-- ITN_FAULTARG (09 R279). -/
abbrev Reg.ITN_FAULTARG : Nat := 0x400A8028
/-- ITN_WMWATCH (09 R275). -/
abbrev Reg.ITN_WMWATCH : Nat := 0x400A8040
/-- LANE_CTL (11 R322,R324,R325). -/
abbrev Reg.LANE_CTL : Nat := 0x400B0000
/-- LANE_CFG (11 Registers (while EN=0)). -/
abbrev Reg.LANE_CFG : Nat := 0x400B0004
/-- LANE_TIM (11 Registers). -/
abbrev Reg.LANE_TIM : Nat := 0x400B0008
/-- LANE_STAT (11 R322). -/
abbrev Reg.LANE_STAT : Nat := 0x400B000C
/-- LANE_MISS (11 R316). -/
abbrev Reg.LANE_MISS : Nat := 0x400B0010
/-- LANE_DROP (11 R317). -/
abbrev Reg.LANE_DROP : Nat := 0x400B0014
/-- LANE_COMMIT (11 R319). -/
abbrev Reg.LANE_COMMIT : Nat := 0x400B0018
/-- LANE_SUBDONE (11 R318). -/
abbrev Reg.LANE_SUBDONE : Nat := 0x400B001C
/-- LANE_ST (11 Registers (while EN=0)). -/
abbrev Reg.LANE_ST : Nat := 0x400B0100
/-- LANE_PID (11 R323 (while EN=0)). -/
abbrev Reg.LANE_PID : Nat := 0x400B0180
/-- LANE_RNG (11 R323). -/
abbrev Reg.LANE_RNG : Nat := 0x400B0200
/-- LANE_ID (11 R323). -/
abbrev Reg.LANE_ID : Nat := 0x400B0280
/-- WLV_CTL (12 R342,R344,R347). -/
abbrev Reg.WLV_CTL : Nat := 0x400C0000
/-- WLV_CFG (12 R351). -/
abbrev Reg.WLV_CFG : Nat := 0x400C0004
/-- WLV_STAT (12 R350). -/
abbrev Reg.WLV_STAT : Nat := 0x400C0008
/-- WLV_REV (12 R345). -/
abbrev Reg.WLV_REV : Nat := 0x400C000C
/-- WLV_TRKCNT (12 R342). -/
abbrev Reg.WLV_TRKCNT : Nat := 0x400C0010
/-- WLV_TRKDIFF (12 R342). -/
abbrev Reg.WLV_TRKDIFF : Nat := 0x400C0014
/-- WLV_DRILL (12 R344). -/
abbrev Reg.WLV_DRILL : Nat := 0x400C0018
/-- WLV_SWITCH (12 Registers). -/
abbrev Reg.WLV_SWITCH : Nat := 0x400C001C
/-- WLV_BCOMMIT (12 R334). -/
abbrev Reg.WLV_BCOMMIT : Nat := 0x400C0020
/-- WLV_REQQ (12 R334). -/
abbrev Reg.WLV_REQQ : Nat := 0x400C0024
/-- WLV_BFIELD (12 R333). -/
abbrev Reg.WLV_BFIELD : Nat := 0x400C0100
/-- WLV_BNEXT (12 R334). -/
abbrev Reg.WLV_BNEXT : Nat := 0x400C0200
/-- DMA_CTL (13 R373). -/
abbrev Reg.DMA_CTL : Nat := 0x400D0000
/-- DMA_ALLOC (13 R354 (control core M mode only)). -/
abbrev Reg.DMA_ALLOC : Nat := 0x400D0004
/-- DMA_ACTIVE (13 R374). -/
abbrev Reg.DMA_ACTIVE : Nat := 0x400D0008
/-- DMA_ERRSUM (13 R372). -/
abbrev Reg.DMA_ERRSUM : Nat := 0x400D000C
/-- DMA_CHCTL (13 R362,R364,R373). -/
abbrev Reg.DMA_CHCTL : Nat := 0x400D0100
/-- DMA_CHHEAD (13 R362). -/
abbrev Reg.DMA_CHHEAD : Nat := 0x400D0104
/-- DMA_CHCUR (13 R362). -/
abbrev Reg.DMA_CHCUR : Nat := 0x400D0108
/-- DMA_CHSTAT (13 R374). -/
abbrev Reg.DMA_CHSTAT : Nat := 0x400D010C
/-- DMA_CHCNT (13 R367). -/
abbrev Reg.DMA_CHCNT : Nat := 0x400D0110
/-- DMA_CHSRC (13 R367). -/
abbrev Reg.DMA_CHSRC : Nat := 0x400D0114
/-- DMA_CHDST (13 R367). -/
abbrev Reg.DMA_CHDST : Nat := 0x400D0118
/-- DMA_CHERRADDR (13 R372). -/
abbrev Reg.DMA_CHERRADDR : Nat := 0x400D011C
/-- CWY_CTL (14 R381,R394,R396). -/
abbrev Reg.CWY_CTL : Nat := 0x400E0000
/-- CWY_CFG (14 R377,R390). -/
abbrev Reg.CWY_CFG : Nat := 0x400E0004
/-- CWY_STAT (14 R381,R396). -/
abbrev Reg.CWY_STAT : Nat := 0x400E0008
/-- CWY_HINT (14 R397). -/
abbrev Reg.CWY_HINT : Nat := 0x400E000C
/-- CWY_LOG0 (14 R396). -/
abbrev Reg.CWY_LOG0 : Nat := 0x400E0010
/-- CWY_LOG1 (14 R396). -/
abbrev Reg.CWY_LOG1 : Nat := 0x400E0014
/-- CWY_LOG2 (14 R396). -/
abbrev Reg.CWY_LOG2 : Nat := 0x400E0018
/-- CWY_LOG3 (14 R396). -/
abbrev Reg.CWY_LOG3 : Nat := 0x400E001C
/-- CWY_FLIGHT (14 R387). -/
abbrev Reg.CWY_FLIGHT : Nat := 0x400E0020
/-- CWY_FARSTAT (14 R389). -/
abbrev Reg.CWY_FARSTAT : Nat := 0x400E0024
/-- CWY_WCTL (14 R378-R383). -/
abbrev Reg.CWY_WCTL : Nat := 0x400E0100
/-- CWY_WBASE (14 R378). -/
abbrev Reg.CWY_WBASE : Nat := 0x400E0104
/-- GATE_TRY (15 R417). -/
abbrev Reg.GATE_TRY : Nat := 0x400F0000
/-- GATE_REL (15 R418). -/
abbrev Reg.GATE_REL : Nat := 0x400F0080
/-- GATE_FORCE (15 R421). -/
abbrev Reg.GATE_FORCE : Nat := 0x400F0100
/-- GATE_LEASE (15 R420). -/
abbrev Reg.GATE_LEASE : Nat := 0x400F0180
/-- GATE_HELD (15 R416). -/
abbrev Reg.GATE_HELD : Nat := 0x400F0200
/-- GATE_BROKEN (15 R416). -/
abbrev Reg.GATE_BROKEN : Nat := 0x400F0204
/-- GATE_QPUSH (15 R423). -/
abbrev Reg.GATE_QPUSH : Nat := 0x400F8000
/-- GATE_QPOP (15 R423). -/
abbrev Reg.GATE_QPOP : Nat := 0x400F8004
/-- GATE_QSTAT (15 R424). -/
abbrev Reg.GATE_QSTAT : Nat := 0x400F8008
/-- GATE_QCLR (15 Registers). -/
abbrev Reg.GATE_QCLR : Nat := 0x400F800C
/-- GATE_QMYSTAT (15 R423). -/
abbrev Reg.GATE_QMYSTAT : Nat := 0x400F8100
/-- MEM_CTL (15 R407,R411). -/
abbrev Reg.MEM_CTL : Nat := 0x40100000
/-- MEM_SCRUB (15 R407). -/
abbrev Reg.MEM_SCRUB : Nat := 0x40100004
/-- MEM_SCRUBPOS (15 R407). -/
abbrev Reg.MEM_SCRUBPOS : Nat := 0x40100008
/-- MEM_SCRUBPASS (15 R407). -/
abbrev Reg.MEM_SCRUBPASS : Nat := 0x4010000C
/-- MEM_SCRUBRNG (15 R408). -/
abbrev Reg.MEM_SCRUBRNG : Nat := 0x40100010
/-- MEM_ECNT (15 R401,R409). -/
abbrev Reg.MEM_ECNT : Nat := 0x40100030
/-- MEM_ELOG0 (15 R409). -/
abbrev Reg.MEM_ELOG0 : Nat := 0x40100040
/-- MEM_ELOG1 (15 R409). -/
abbrev Reg.MEM_ELOG1 : Nat := 0x40100044
/-- MEM_ELOG2 (15 R409). -/
abbrev Reg.MEM_ELOG2 : Nat := 0x40100048
/-- MEM_ELOG3 (15 R409). -/
abbrev Reg.MEM_ELOG3 : Nat := 0x4010004C
/-- MEM_ESTAT (15 R409). -/
abbrev Reg.MEM_ESTAT : Nat := 0x40100050
/-- MEM_INJECT (15 Registers). -/
abbrev Reg.MEM_INJECT : Nat := 0x40100060
/-- MEM_INJADDR (15 Registers). -/
abbrev Reg.MEM_INJADDR : Nat := 0x40100064
/-- MEM_FSTAT (15 R412). -/
abbrev Reg.MEM_FSTAT : Nat := 0x40100080
/-- MEM_FERASE (15 R412). -/
abbrev Reg.MEM_FERASE : Nat := 0x40100084
/-- MEM_FRESULT (15 R411). -/
abbrev Reg.MEM_FRESULT : Nat := 0x40100088
/-- MEM_FRESULT2 (15 R411). -/
abbrev Reg.MEM_FRESULT2 : Nat := 0x4010008C
/-- MEM_WEAR (15 R413). -/
abbrev Reg.MEM_WEAR : Nat := 0x40101000
/-- BOOT_STAT (16 R433). -/
abbrev Reg.BOOT_STAT : Nat := 0x40110000
/-- BOOT_HS (16 R430,R431). -/
abbrev Reg.BOOT_HS : Nat := 0x40110004
/-- BOOT_HWIF (16 R430). -/
abbrev Reg.BOOT_HWIF : Nat := 0x40110008
/-- BOOT_IFST (16 R433). -/
abbrev Reg.BOOT_IFST : Nat := 0x4011000C
/-- BOOT_IFRT (16 R433). -/
abbrev Reg.BOOT_IFRT : Nat := 0x40110010
/-- BOOT_RTVER (16 R432). -/
abbrev Reg.BOOT_RTVER : Nat := 0x40110014
/-- BOOT_PSLOT (16 R435). -/
abbrev Reg.BOOT_PSLOT : Nat := 0x40110018
/-- BOOT_VERIFY (16 R435). -/
abbrev Reg.BOOT_VERIFY : Nat := 0x4011001C
/-- BOOT_CTL (16 R446). -/
abbrev Reg.BOOT_CTL : Nat := 0x40110020
/-- BOOT_SWDT (16 R442). -/
abbrev Reg.BOOT_SWDT : Nat := 0x40110024
/-- BOOT_KICK (16 R442). -/
abbrev Reg.BOOT_KICK : Nat := 0x40110028
/-- BOOT_SWDCNT (16 R442). -/
abbrev Reg.BOOT_SWDCNT : Nat := 0x4011002C
/-- BOOT_KEYSTAT (16 R429). -/
abbrev Reg.BOOT_KEYSTAT : Nat := 0x40110030
/-- BOOT_KEYBUF (16 R429). -/
abbrev Reg.BOOT_KEYBUF : Nat := 0x40110040
/-- BOOT_KEYCMD (16 R429). -/
abbrev Reg.BOOT_KEYCMD : Nat := 0x40110060
/-- GAUGE_SEL0 (02 R64). -/
abbrev Reg.GAUGE_SEL0 : Nat := 0x40120000
/-- GAUGE_SEL1 (02 R64). -/
abbrev Reg.GAUGE_SEL1 : Nat := 0x40120004

/-- Word i of an array of registers. -/
def Reg.at (base i : Nat) : Nat := base + 4 * i

def regsSys : List RegRow := [
  ⟨0x40000000, 4, 1, 0, 1, .ro, 0x0, 0x0⟩,
  ⟨0x40000004, 4, 1, 0, 1, .w1c, 0x0, 0x0⟩,
  ⟨0x40000008, 4, 1, 0, 1, .ro, 0x0, 0x0⟩,
  ⟨0x40000010, 4, 1, 0, 1, .ro, 0x0, 0x0⟩,
  ⟨0x40000020, 4, 1, 0, 1, .rw, 0x0, 0x3FF⟩,
  ⟨0x40000024, 4, 1, 0, 1, .ro, 0x0, 0x0⟩,
  ⟨0x40000030, 4, 1, 0, 1, .rw, 0x8C463C04, 0xFFFFFF0F⟩,
  ⟨0x40000034, 4, 1, 0, 1, .rw, 0x1E00, 0xFFFF⟩,
  ⟨0x40000038, 4, 1, 0, 1, .ro, 0x0, 0x0⟩,
  ⟨0x4000003C, 4, 1, 0, 1, .ro, 0x0, 0x0⟩,
  ⟨0x40000040, 4, 1, 0, 1, .wo, 0x0, 0x0⟩,
  ⟨0x40000044, 4, 1, 0, 1, .ro, 0x0, 0x0⟩]

def regsEvt : List RegRow := [
  ⟨0x40010000, 4, 8, 0, 1, .w1c, 0x0, 0x0⟩,
  ⟨0x40010020, 4, 8, 0, 1, .w1c, 0x0, 0x0⟩,
  ⟨0x40010040, 4, 8, 0, 1, .rw, 0x0, 0xFFFFFFFF⟩,
  ⟨0x40010060, 4, 8, 0, 1, .rw, 0x0, 0xFFFFFFFF⟩,
  ⟨0x40010080, 4, 1, 0, 1, .rw, 0x7B6B, 0xFFFFFFFF⟩,
  ⟨0x40010084, 4, 1, 0, 1, .rw, 0x12000F0, 0xFFFFFFFF⟩,
  ⟨0x40010088, 4, 1, 0, 1, .rw, 0xB8104800, 0xFFFFFFFF⟩,
  ⟨0x4001008C, 4, 1, 0, 1, .rw, 0x4, 0xFFFFFFFF⟩,
  ⟨0x40010090, 4, 1, 0, 1, .rw, 0x3FF0442, 0xFFFFFFFF⟩,
  ⟨0x40010094, 4, 1, 0, 1, .rw, 0x0, 0xFFFFFFFF⟩,
  ⟨0x40010098, 4, 1, 0, 1, .rw, 0xFBD23C3A, 0xFFFFFFFF⟩,
  ⟨0x4001009C, 4, 1, 0, 1, .rw, 0xBEDC7E76, 0xFFFFFFFF⟩,
  ⟨0x400100A0, 4, 1, 0, 1, .rw, 0x7B6B, 0xFFFFFFFF⟩,
  ⟨0x400100A4, 4, 1, 0, 1, .rw, 0x12000F0, 0xFFFFFFFF⟩,
  ⟨0x400100A8, 4, 1, 0, 1, .rw, 0xB8104800, 0xFFFFFFFF⟩,
  ⟨0x400100AC, 4, 1, 0, 1, .rw, 0x4, 0xFFFFFFFF⟩,
  ⟨0x400100B0, 4, 1, 0, 1, .rw, 0x3FF0442, 0xFFFFFFFF⟩,
  ⟨0x400100B4, 4, 1, 0, 1, .rw, 0x0, 0xFFFFFFFF⟩,
  ⟨0x400100B8, 4, 1, 0, 1, .rw, 0xFBD23C3A, 0xFFFFFFFF⟩,
  ⟨0x400100BC, 4, 1, 0, 1, .rw, 0xBEDC7E76, 0xFFFFFFFF⟩,
  ⟨0x400100C0, 4, 8, 0, 1, .w1c, 0x0, 0x0⟩,
  ⟨0x400100E0, 4, 8, 0, 1, .w1c, 0x0, 0x0⟩,
  ⟨0x40010100, 4, 16, 0, 1, .rw, 0x0, 0xFFFFFFFF⟩,
  ⟨0x40010200, 4, 1, 0, 1, .rc, 0x0, 0x0⟩,
  ⟨0x40010204, 4, 1, 0, 1, .rc, 0x0, 0x0⟩,
  ⟨0x40010208, 4, 1, 0, 1, .rw, 0x0, 0x3⟩,
  ⟨0x4001020C, 4, 1, 0, 1, .rw, 0x0, 0x3⟩,
  ⟨0x40010210, 4, 1, 0, 1, .ro, 0x0, 0x0⟩,
  ⟨0x40010214, 4, 1, 0, 1, .wo, 0x0, 0x0⟩,
  ⟨0x40010218, 4, 1, 0, 1, .rw, 0x0, 0x1⟩]

def regsLiu : List RegRow := [
  ⟨0x40020000, 4, 1, 0, 1, .rw, 0x300F, 0xF10F⟩,
  ⟨0x40020004, 4, 1, 0, 1, .ro, 0x0, 0x0⟩,
  ⟨0x40020010, 4, 5, 0, 1, .rw, 0x0, 0xFFFFFFFF⟩,
  ⟨0x40020024, 4, 1, 0, 1, .rw, 0x0, 0xFFFFF⟩,
  ⟨0x40020200, 4, 96, 0, 1, .ro, 0x0, 0x0⟩,
  ⟨0x40021000, 4096, 4, 0, 1, .rw, 0x7000, 0xFFFF7F00⟩,
  ⟨0x40021004, 4096, 4, 0, 1, .ro, 0x0, 0x0⟩,
  ⟨0x40021008, 4096, 4, 0, 1, .rw, 0x64041404, 0xFFFFFFFF⟩,
  ⟨0x4002100C, 4096, 4, 0, 1, .rw, 0x321018, 0xFFFFFF⟩,
  ⟨0x40021010, 4096, 4, 0, 1, .rw, 0xA0A14, 0xFFFFFF⟩,
  ⟨0x40021014, 4096, 4, 0, 1, .ro, 0x0, 0x0⟩,
  ⟨0x40021020, 4096, 4, 0, 1, .ro, 0x0, 0x0⟩,
  ⟨0x40021024, 4096, 4, 0, 1, .ro, 0x0, 0x0⟩,
  ⟨0x40021028, 4096, 4, 0, 1, .ro, 0x0, 0x0⟩,
  ⟨0x4002102C, 4096, 4, 0, 1, .ro, 0x0, 0x0⟩,
  ⟨0x40021040, 4, 8, 4096, 4, .ro, 0x0, 0x0⟩,
  ⟨0x40021100, 4, 24, 4096, 4, .ro, 0x0, 0x0⟩,
  ⟨0x40021200, 4, 192, 4096, 4, .rw, 0x0, 0x0⟩]

def regsSvy : List RegRow := [
  ⟨0x40030000, 4, 1, 0, 1, .rw, 0x0, 0x1⟩,
  ⟨0x40030004, 4, 1, 0, 1, .rw, 0x3441014, 0x3FFFFFF⟩,
  ⟨0x40030008, 4, 1, 0, 1, .rw, 0x80640564, 0xFFFFFFFF⟩,
  ⟨0x4003000C, 4, 1, 0, 1, .ro, 0x0, 0x0⟩,
  ⟨0x40030010, 4, 1, 0, 1, .ro, 0x0, 0x0⟩,
  ⟨0x40030014, 4, 1, 0, 1, .ro, 0x0, 0x0⟩,
  ⟨0x40030018, 4, 1, 0, 1, .ro, 0x0, 0x0⟩,
  ⟨0x4003001C, 4, 1, 0, 1, .ro, 0x0, 0x0⟩,
  ⟨0x40030100, 4, 32, 0, 1, .ro, 0x0, 0x0⟩,
  ⟨0x40030200, 4, 64, 0, 1, .ro, 0x0, 0x0⟩,
  ⟨0x40030400, 4, 128, 0, 1, .ro, 0x0, 0x0⟩]

def regsTre : List RegRow := [
  ⟨0x40040000, 4, 1, 0, 1, .rw, 0x5, 0x7⟩,
  ⟨0x40040004, 4, 1, 0, 1, .rw, 0x40, 0xFFF⟩,
  ⟨0x40040008, 4, 1, 0, 1, .rw, 0x0, 0xC03FFFFF⟩,
  ⟨0x4004000C, 4, 1, 0, 1, .rw, 0xC, 0xFFF⟩,
  ⟨0x40040010, 4, 1, 0, 1, .rw, 0x32030A04, 0xFF0FFF0F⟩,
  ⟨0x40040014, 4, 1, 0, 1, .ro, 0x0, 0x0⟩,
  ⟨0x40040018, 4, 1, 0, 1, .ro, 0x0, 0x0⟩,
  ⟨0x4004001C, 4, 1, 0, 1, .ro, 0x0, 0x0⟩,
  ⟨0x40040020, 4, 1, 0, 1, .ro, 0x0, 0x0⟩,
  ⟨0x40040024, 4, 1, 0, 1, .ro, 0x0, 0x0⟩,
  ⟨0x40040028, 4, 1, 0, 1, .ro, 0x0, 0x0⟩,
  ⟨0x4004002C, 4, 1, 0, 1, .ro, 0x0, 0x0⟩,
  ⟨0x40040030, 4, 1, 0, 1, .ro, 0x0, 0x0⟩,
  ⟨0x40040034, 4, 1, 0, 1, .rw, 0x0, 0x0⟩,
  ⟨0x40040038, 4, 1, 0, 1, .ro, 0x0, 0x0⟩,
  ⟨0x4004003C, 4, 1, 0, 1, .wo, 0x0, 0x0⟩,
  ⟨0x40040040, 4, 1, 0, 1, .rw, 0x0, 0xE03F1FFF⟩,
  ⟨0x40040044, 4, 1, 0, 1, .rc, 0x0, 0x0⟩,
  ⟨0x40040080, 4, 8, 0, 1, .ro, 0x0, 0x0⟩,
  ⟨0x400400A0, 4, 8, 0, 1, .ro, 0x0, 0x0⟩,
  ⟨0x40040400, 4, 256, 0, 1, .rw, 0x0, 0x0⟩,
  ⟨0x40040800, 4, 256, 0, 1, .ro, 0x0, 0x0⟩]

def regsRoad : List RegRow := [
  ⟨0x40050000, 4, 1, 0, 1, .rw, 0x3, 0x3⟩,
  ⟨0x40050004, 4, 1, 0, 1, .rw, 0x20100082, 0xFF1F00FF⟩,
  ⟨0x40050010, 4, 4, 0, 1, .rw, 0x0, 0x3⟩,
  ⟨0x40050020, 4, 1, 0, 1, .rw, 0xA2010, 0xFFFFFFFF⟩,
  ⟨0x40050024, 4, 1, 0, 1, .rw, 0x14, 0xFF⟩,
  ⟨0x40050028, 4, 1, 0, 1, .ro, 0x0, 0x0⟩,
  ⟨0x4005002C, 4, 1, 0, 1, .ro, 0x0, 0x0⟩,
  ⟨0x40050030, 4, 1, 0, 1, .rw, 0x0, 0x3F0000⟩,
  ⟨0x40050040, 4, 1, 0, 1, .rw, 0x0, 0xFFFFFFFF⟩,
  ⟨0x40050044, 4, 1, 0, 1, .rw, 0x0, 0xFFFFFFFF⟩,
  ⟨0x40050048, 4, 1, 0, 1, .rw, 0x0, 0xFFFFFFFF⟩,
  ⟨0x4005004C, 4, 1, 0, 1, .ro, 0x0, 0x0⟩,
  ⟨0x40050100, 16, 16, 0, 1, .rw, 0x0, 0xFFFFFFFF⟩,
  ⟨0x40050104, 16, 16, 0, 1, .rw, 0x0, 0xFFFFFFFF⟩,
  ⟨0x40050108, 16, 16, 0, 1, .ro, 0x0, 0x0⟩,
  ⟨0x4005010C, 16, 16, 0, 1, .rw, 0x0, 0xFFFFFFFF⟩,
  ⟨0x40050200, 4, 16, 0, 1, .ro, 0x0, 0x0⟩]

def regsEth0 : List RegRow := [
  ⟨0x40060000, 4, 1, 0, 1, .rw, 0x0, 0xFB⟩,
  ⟨0x40060004, 4, 1, 0, 1, .ro, 0x0, 0x0⟩,
  ⟨0x40060008, 4, 1, 0, 1, .rw, 0x0, 0x1F30⟩,
  ⟨0x4006000C, 4, 1, 0, 1, .rw, 0x0, 0x43FFFFFF⟩,
  ⟨0x40060010, 4, 1, 0, 1, .rw, 0xDAC688, 0x7FFFFFF⟩,
  ⟨0x40060014, 4, 1, 0, 1, .rw, 0xFFFF2010, 0xFFFFFFFF⟩,
  ⟨0x40060018, 4, 1, 0, 1, .rw, 0x12C, 0xFFF⟩,
  ⟨0x40060020, 4, 1, 0, 1, .rc, 0x0, 0x0⟩,
  ⟨0x40060024, 4, 1, 0, 1, .rc, 0x0, 0x0⟩,
  ⟨0x40061000, 4, 512, 0, 1, .rw, 0x0, 0x0⟩]

def regsEth1 : List RegRow := [
  ⟨0x40070000, 4, 1, 0, 1, .rw, 0x0, 0xFB⟩,
  ⟨0x40070004, 4, 1, 0, 1, .ro, 0x0, 0x0⟩,
  ⟨0x40070008, 4, 1, 0, 1, .rw, 0x0, 0x1F30⟩,
  ⟨0x4007000C, 4, 1, 0, 1, .rw, 0x0, 0x43FFFFFF⟩,
  ⟨0x40070010, 4, 1, 0, 1, .rw, 0xDAC688, 0x7FFFFFF⟩,
  ⟨0x40070014, 4, 1, 0, 1, .rw, 0xFFFF2010, 0xFFFFFFFF⟩]

def regsCnt : List RegRow := [
  ⟨0x40080000, 4, 48, 256, 8, .ro, 0x0, 0x0⟩,
  ⟨0x400800C0, 256, 8, 0, 1, .w1c, 0x0, 0x0⟩,
  ⟨0x400800C4, 256, 8, 0, 1, .w1c, 0x0, 0x0⟩,
  ⟨0x400800C8, 256, 8, 0, 1, .w1c, 0x0, 0x0⟩,
  ⟨0x400800CC, 256, 8, 0, 1, .w1c, 0x0, 0x0⟩,
  ⟨0x40081000, 4, 52, 256, 8, .ro, 0x0, 0x0⟩,
  ⟨0x40082000, 4, 1, 0, 1, .rw, 0x0, 0x40000007⟩,
  ⟨0x40082004, 4, 1, 0, 1, .rw, 0x0, 0xFF01FF⟩,
  ⟨0x40082008, 4, 1, 0, 1, .ro, 0x0, 0x0⟩]

def regsFbk : List RegRow := [
  ⟨0x40090000, 4, 1, 0, 1, .rw, 0x3C0A01, 0xFFFFF01⟩,
  ⟨0x40090004, 4, 1, 0, 1, .ro, 0x0, 0x0⟩,
  ⟨0x40090008, 4, 1, 0, 1, .ro, 0x0, 0x0⟩,
  ⟨0x4009000C, 4, 1, 0, 1, .ro, 0x0, 0x0⟩,
  ⟨0x40090010, 4, 2, 0, 1, .rw, 0x0, 0xFFFFFFFF⟩,
  ⟨0x40090018, 4, 1, 0, 1, .wo, 0x0, 0x0⟩,
  ⟨0x4009001C, 4, 1, 0, 1, .wo, 0x0, 0x0⟩,
  ⟨0x40090020, 4, 8, 0, 1, .rc, 0x0, 0x0⟩]

def regsItn : List RegRow := [
  ⟨0x400A0000, 4, 1, 0, 1, .rw, 0x0, 0x1⟩,
  ⟨0x400A0004, 4, 1, 0, 1, .ro, 0x0, 0x0⟩,
  ⟨0x400A0008, 4, 1, 0, 1, .ro, 0x0, 0x0⟩,
  ⟨0x400A000C, 4, 1, 0, 1, .ro, 0x0, 0x0⟩,
  ⟨0x400A0010, 4, 1, 0, 1, .ro, 0x0, 0x0⟩,
  ⟨0x400A0014, 4, 1, 0, 1, .ro, 0x0, 0x0⟩,
  ⟨0x400A0018, 4, 1, 0, 1, .w1c, 0x0, 0x0⟩,
  ⟨0x400A001C, 4, 1, 0, 1, .ro, 0x0, 0x0⟩,
  ⟨0x400A8000, 4, 1, 0, 1, .rw, 0x0, 0x1⟩,
  ⟨0x400A8004, 4, 1, 0, 1, .ro, 0x0, 0x0⟩,
  ⟨0x400A8008, 4, 1, 0, 1, .rw, 0x4141400, 0xFFFFF01⟩,
  ⟨0x400A800C, 4, 1, 0, 1, .ro, 0x0, 0x0⟩,
  ⟨0x400A8010, 4, 1, 0, 1, .ro, 0x0, 0x0⟩,
  ⟨0x400A8014, 4, 1, 0, 1, .ro, 0x0, 0x0⟩,
  ⟨0x400A8018, 4, 1, 0, 1, .ro, 0x0, 0x0⟩,
  ⟨0x400A801C, 4, 1, 0, 1, .ro, 0x0, 0x0⟩,
  ⟨0x400A8020, 4, 1, 0, 1, .ro, 0x0, 0x0⟩,
  ⟨0x400A8024, 4, 1, 0, 1, .ro, 0x0, 0x0⟩,
  ⟨0x400A8028, 4, 1, 0, 1, .ro, 0x0, 0x0⟩,
  ⟨0x400A8040, 4, 8, 0, 1, .rw, 0x0, 0xFFFFFFFF⟩]

def regsLane : List RegRow := [
  ⟨0x400B0000, 4, 1, 0, 1, .rw, 0x0, 0x11⟩,
  ⟨0x400B0004, 4, 1, 0, 1, .rw, 0x14190A, 0x3FFFFFFF⟩,
  ⟨0x400B0008, 4, 1, 0, 1, .rw, 0xA, 0xFF⟩,
  ⟨0x400B000C, 4, 1, 0, 1, .ro, 0x0, 0x0⟩,
  ⟨0x400B0010, 4, 1, 0, 1, .ro, 0x0, 0x0⟩,
  ⟨0x400B0014, 4, 1, 0, 1, .rc, 0x0, 0x0⟩,
  ⟨0x400B0018, 4, 1, 0, 1, .rw, 0x0, 0x0⟩,
  ⟨0x400B001C, 4, 1, 0, 1, .wo, 0x0, 0x0⟩,
  ⟨0x400B0100, 4, 32, 0, 1, .rw, 0x0, 0x403F3F00⟩,
  ⟨0x400B0180, 4, 32, 0, 1, .rw, 0x0, 0xFFFFFFFF⟩,
  ⟨0x400B0200, 4, 32, 0, 1, .ro, 0x0, 0x0⟩,
  ⟨0x400B0280, 4, 32, 0, 1, .ro, 0x0, 0x0⟩]

def regsWlv : List RegRow := [
  ⟨0x400C0000, 4, 1, 0, 1, .rw, 0x10, 0x110⟩,
  ⟨0x400C0004, 4, 1, 0, 1, .rw, 0x3C40303, 0xFFFF0F0F⟩,
  ⟨0x400C0008, 4, 1, 0, 1, .ro, 0x0, 0x0⟩,
  ⟨0x400C000C, 4, 1, 0, 1, .ro, 0x0, 0x0⟩,
  ⟨0x400C0010, 4, 1, 0, 1, .ro, 0x0, 0x0⟩,
  ⟨0x400C0014, 4, 1, 0, 1, .w1c, 0x0, 0x0⟩,
  ⟨0x400C0018, 4, 1, 0, 1, .ro, 0x0, 0x0⟩,
  ⟨0x400C001C, 4, 1, 0, 1, .ro, 0x0, 0x0⟩,
  ⟨0x400C0020, 4, 1, 0, 1, .wo, 0x0, 0x0⟩,
  ⟨0x400C0024, 4, 1, 0, 1, .rc, 0x0, 0x0⟩,
  ⟨0x400C0100, 4, 32, 0, 1, .ro, 0x0, 0x0⟩,
  ⟨0x400C0200, 4, 32, 0, 1, .rw, 0x0, 0xFF⟩]

def regsDma : List RegRow := [
  ⟨0x400D0000, 4, 1, 0, 1, .rw, 0x1, 0x1⟩,
  ⟨0x400D0004, 4, 1, 0, 1, .rw, 0xFFFF, 0xFFFFFFFF⟩,
  ⟨0x400D0008, 4, 1, 0, 1, .ro, 0x0, 0x0⟩,
  ⟨0x400D000C, 4, 1, 0, 1, .w1c, 0x0, 0x0⟩,
  ⟨0x400D0100, 32, 32, 0, 1, .rw, 0x0, 0x2FF31⟩,
  ⟨0x400D0104, 32, 32, 0, 1, .rw, 0x0, 0xFFFFFFFF⟩,
  ⟨0x400D0108, 32, 32, 0, 1, .ro, 0x0, 0x0⟩,
  ⟨0x400D010C, 32, 32, 0, 1, .w1c, 0x0, 0x0⟩,
  ⟨0x400D0110, 32, 32, 0, 1, .ro, 0x0, 0x0⟩,
  ⟨0x400D0114, 32, 32, 0, 1, .ro, 0x0, 0x0⟩,
  ⟨0x400D0118, 32, 32, 0, 1, .ro, 0x0, 0x0⟩,
  ⟨0x400D011C, 32, 32, 0, 1, .ro, 0x0, 0x0⟩]

def regsCwy : List RegRow := [
  ⟨0x400E0000, 4, 1, 0, 1, .rw, 0x0, 0x13⟩,
  ⟨0x400E0004, 4, 1, 0, 1, .rw, 0x320010, 0xFF00FF⟩,
  ⟨0x400E0008, 4, 1, 0, 1, .ro, 0x0, 0x0⟩,
  ⟨0x400E000C, 4, 1, 0, 1, .rw, 0x0, 0x1⟩,
  ⟨0x400E0010, 4, 1, 0, 1, .rc, 0x0, 0x0⟩,
  ⟨0x400E0014, 4, 1, 0, 1, .ro, 0x0, 0x0⟩,
  ⟨0x400E0018, 4, 1, 0, 1, .ro, 0x0, 0x0⟩,
  ⟨0x400E001C, 4, 1, 0, 1, .ro, 0x0, 0x0⟩,
  ⟨0x400E0020, 4, 1, 0, 1, .ro, 0x0, 0x0⟩,
  ⟨0x400E0024, 4, 1, 0, 1, .ro, 0x0, 0x0⟩,
  ⟨0x400E0100, 8, 16, 0, 1, .rw, 0x0, 0xFC70003F⟩,
  ⟨0x400E0104, 8, 16, 0, 1, .rw, 0x0, 0xFFFFFFFC⟩]

def regsGate : List RegRow := [
  ⟨0x400F0000, 4, 32, 0, 1, .rc, 0x0, 0x0⟩,
  ⟨0x400F0080, 4, 32, 0, 1, .wo, 0x0, 0x0⟩,
  ⟨0x400F0100, 4, 32, 0, 1, .wo, 0x0, 0x0⟩,
  ⟨0x400F0180, 4, 32, 0, 1, .rw, 0x0, 0xFFFF⟩,
  ⟨0x400F0200, 4, 1, 0, 1, .ro, 0x0, 0x0⟩,
  ⟨0x400F0204, 4, 1, 0, 1, .ro, 0x0, 0x0⟩,
  ⟨0x400F8000, 16, 16, 0, 1, .wo, 0x0, 0x0⟩,
  ⟨0x400F8004, 16, 16, 0, 1, .rc, 0x0, 0x0⟩,
  ⟨0x400F8008, 16, 16, 0, 1, .ro, 0x0, 0x0⟩,
  ⟨0x400F800C, 16, 16, 0, 1, .wo, 0x0, 0x0⟩,
  ⟨0x400F8100, 4, 1, 0, 1, .ro, 0x0, 0x0⟩]

def regsMem : List RegRow := [
  ⟨0x40100000, 4, 1, 0, 1, .rw, 0x1, 0x301⟩,
  ⟨0x40100004, 4, 1, 0, 1, .rw, 0x20, 0xFF⟩,
  ⟨0x40100008, 4, 1, 0, 1, .ro, 0x0, 0x0⟩,
  ⟨0x4010000C, 4, 1, 0, 1, .ro, 0x0, 0x0⟩,
  ⟨0x40100010, 4, 8, 0, 1, .rw, 0x0, 0xFFFFFFFF⟩,
  ⟨0x40100030, 4, 1, 0, 1, .ro, 0x0, 0x0⟩,
  ⟨0x40100040, 4, 1, 0, 1, .rc, 0x0, 0x0⟩,
  ⟨0x40100044, 4, 1, 0, 1, .ro, 0x0, 0x0⟩,
  ⟨0x40100048, 4, 1, 0, 1, .ro, 0x0, 0x0⟩,
  ⟨0x4010004C, 4, 1, 0, 1, .ro, 0x0, 0x0⟩,
  ⟨0x40100050, 4, 1, 0, 1, .ro, 0x0, 0x0⟩,
  ⟨0x40100060, 4, 1, 0, 1, .rw, 0x0, 0xC000001F⟩,
  ⟨0x40100064, 4, 1, 0, 1, .rw, 0x0, 0xFFFFFFFF⟩,
  ⟨0x40100080, 4, 1, 0, 1, .ro, 0x0, 0x0⟩,
  ⟨0x40100084, 4, 1, 0, 1, .wo, 0x0, 0x0⟩,
  ⟨0x40100088, 4, 1, 0, 1, .ro, 0x0, 0x0⟩,
  ⟨0x4010008C, 4, 1, 0, 1, .ro, 0x0, 0x0⟩,
  ⟨0x40101000, 4, 1024, 0, 1, .ro, 0x0, 0x0⟩]

def regsBoot : List RegRow := [
  ⟨0x40110000, 4, 1, 0, 1, .ro, 0x0, 0x0⟩,
  ⟨0x40110004, 4, 1, 0, 1, .ro, 0x0, 0x0⟩,
  ⟨0x40110008, 4, 1, 0, 1, .ro, 0x0, 0x0⟩,
  ⟨0x4011000C, 4, 1, 0, 1, .ro, 0x0, 0x0⟩,
  ⟨0x40110010, 4, 1, 0, 1, .ro, 0x0, 0x0⟩,
  ⟨0x40110014, 4, 1, 0, 1, .ro, 0x0, 0x0⟩,
  ⟨0x40110018, 4, 1, 0, 1, .ro, 0x0, 0x0⟩,
  ⟨0x4011001C, 4, 1, 0, 1, .rw, 0x700, 0x3⟩,
  ⟨0x40110020, 4, 1, 0, 1, .rw, 0x0, 0x100⟩,
  ⟨0x40110024, 4, 1, 0, 1, .rw, 0xA, 0xFF⟩,
  ⟨0x40110028, 4, 1, 0, 1, .wo, 0x0, 0x0⟩,
  ⟨0x4011002C, 4, 1, 0, 1, .ro, 0x0, 0x0⟩,
  ⟨0x40110030, 4, 1, 0, 1, .ro, 0x0, 0x0⟩,
  ⟨0x40110040, 4, 8, 0, 1, .rw, 0x0, 0xFFFFFFFF⟩,
  ⟨0x40110060, 4, 1, 0, 1, .wo, 0x0, 0x0⟩]

def regsGauge : List RegRow := [
  ⟨0x40120000, 4, 1, 0, 1, .rw, 0x800, 0xFF0F⟩,
  ⟨0x40120004, 4, 1, 0, 1, .rw, 0xA00, 0xFF0F⟩]

/-- The registers of the peripheral block that holds an address (00 Table 0.3). -/
def regBlock (a : Nat) : List RegRow :=
  match a / 0x10000 with
  | 0x4000 => regsSys
  | 0x4001 => regsEvt
  | 0x4002 => regsLiu
  | 0x4003 => regsSvy
  | 0x4004 => regsTre
  | 0x4005 => regsRoad
  | 0x4006 => regsEth0
  | 0x4007 => regsEth1
  | 0x4008 => regsCnt
  | 0x4009 => regsFbk
  | 0x400A => regsItn
  | 0x400B => regsLane
  | 0x400C => regsWlv
  | 0x400D => regsDma
  | 0x400E => regsCwy
  | 0x400F => regsGate
  | 0x4010 => regsMem
  | 0x4011 => regsBoot
  | 0x4012 => regsGauge
  | _ => []

/-- The row holds a register at address a. -/
def RegRow.covers (r : RegRow) (a : Nat) : Bool :=
  let o := a - r.base
  let o2 := if r.count2 ≤ 1 then o else o % r.stride2
  decide (r.base ≤ a) && decide (o2 % r.stride = 0) && decide (o2 / r.stride < r.count) &&
    (decide (r.count2 ≤ 1) || decide (o / r.stride2 < r.count2))

/-- The register at a word address, none at an unassigned offset (00 R12). -/
def regRow? (a : Nat) : Option RegRow := (regBlock a).find? (·.covers a)

/-- Reset value of the stored bits at a register address. -/
def regReset (a : Nat) : Word := ((regRow? a).map (·.reset)).getD 0

/-- The bits of a register that hold what is written to them. -/
def regMask (a : Nat) : Word := ((regRow? a).map (·.mask)).getD 0

end Sys2Proof.Machine
end

