-- ==== Sys2Proof/Machine/State.lean ====
section
/-! DEFINITION. The state of the node: every register, buffer, queue, counter, mode and pin the manual gives it, as plain
data, and the state right after reset. A register that only holds what was written to it lies in `regs`, under its
deep-map address; a register that reports what the node does is computed from the fields below when it is read.
Each field's comment gives its width, the file and rule of spec/ that names it, and its reset value. -/
namespace Sys2Proof.Machine

/-- No command of this block stops the machine with a fault: what the manual calls a fault is a response or a state
change. The one reason is never raised. -/
inductive Fault where
  /-- Raised by no command; safe. -/
  | none
  deriving DecidableEq, Repr

/-- Why a command has no meaning. -/
inductive Refusal where
  /-- Raised by an arm of `exec` that has no meaning yet; safe. -/
  | notModelled (mnemonic : String)
  deriving DecidableEq, Repr

/-! ### Enumerated states of the manual -/

/-- Where the node is between a reset and its release (03 R78 to R84). -/
inductive ResetPhase where
  | running | powerUp | pinHeld | warmHeld | clockLost
  deriving DecidableEq, Repr

/-- How far the boot ROM has come (16 R433; state codes 0, 1 and 2 of 02 Table 2.10). -/
inductive BootPhase where
  | rom | imageCheck | limp | done
  deriving DecidableEq, Repr

/-- 03 Table 3.12. -/
inductive VehState where
  | normal | ride | save | hold | high
  deriving DecidableEq, Repr

/-- 04 Table 4.10. -/
inductive PortState where
  | silent | carrier | locked | dead
  deriving DecidableEq, Repr

/-- 05 Table 5.7. -/
inductive SvyState where
  | idle | settle | seek | walk | wait | tally | decide | cutwait
  deriving DecidableEq, Repr

/-- 06 Table 6.7. -/
inductive SyncState where
  | free | acq | locked | muted
  deriving DecidableEq, Repr

/-- 01 Table 1.2, network roles (SYS_ROLE.NETROLE). -/
inductive NetRole where
  | isolated | member | backup | benchmark
  deriving DecidableEq, Repr

/-- 07 Table 7.4. -/
inductive TxState where
  | idle | count | hold | pre | send | ackwait | backoff
  deriving DecidableEq, Repr

/-- 09 Table 9.2. -/
inductive ProgState where
  | none | stop | load | init | run | faultstop
  deriving DecidableEq, Repr

/-- 10 Table 10.6. -/
inductive SeqState where
  | idle | errseq | main | hook | halt
  deriving DecidableEq, Repr

/-- 11 Table 11.4. -/
inductive LaneState where
  | off | listen | start | run | turned | fail
  deriving DecidableEq, Repr

/-- 12 Table 12.3. -/
inductive WlvState where
  | idle | standby | active | handoff | ilStandby | ilActive | blocked
  deriving DecidableEq, Repr

/-- 13 Table 13.5. -/
inductive DmaState where
  | idle | fetch | gatewait | trigwait | run | wresp | error | stopping
  deriving DecidableEq, Repr

/-- 16 Table 16.6. -/
inductive PartState where
  | inService | quiescing | quiesced | resetting | rejoining | failed
  deriving DecidableEq, Repr

/-- The error held by a SECDED word (15 R400, R402): one data bit, one check bit, two data bits, or the poison syndrome. -/
inductive WordErr where
  | single (b : Fin 32) | check (c : Fin 7) | double (a b : Fin 32) | poison
  deriving DecidableEq, Repr

/-! ### What the node sends -/

/-- A frame as it leaves a line port (04 R104 to R113): the local time of its first sample, frame control, body, whether
the CRC-32 is inverted (R125), the masked carriers (bit i for carrier 13 + i), the tone map of the payload (none in robust
mode), the combs left silent in the two P symbols of an Open Road frame (07 R209), and the payload symbols sent (none for
all of them; the two units of a car each leave the other's groups silent, 01 R20, 06 R177), and whether P, P and FC are sent,
which the other unit leaves to the through unit. -/
structure LineTx where
  start : Dword
  fc : List Byte
  body : List Byte
  bad : Bool
  mask : BitVec 180
  map : Option (List Byte)
  combs : Option (Fin 4 × Fin 4)
  only : Option (List Nat)
  head : Bool
  deriving DecidableEq, Repr

/-- One thing the node put on a pin, line or bus: the model's own record of its outputs. -/
inductive Output where
  | sdo (bytes : List Byte)
  | sdoBits (bits : List Bool)
  | line (port : Fin 4) (x : LineTx)
  | lineStop (port : Fin 4) (start : Dword) (combs : Fin 4 × Fin 4)
  | eth (e : Fin 2) (bytes : List Byte)
  | ethJam (e : Fin 2) (late : Bool) (slots : Nat)
  | ethPfc (e : Fin 2) (cls : Fin 8) (quanta : Half)
  | mdio (e : Fin 2) (wr : Bool) (phyad reg : BitVec 5) (data : Half)
  | laneMark (dir : Bool) (bytes : List Byte)
  | lane (onL2 : Bool) (bytes : List Byte) (crc : Word)
  | hostData (v : Half) (par : Option (BitVec 2))
  | heartbeat (us : Nat)
  | answer (m : Master) (v : Word)
  | accessFault (m : Master) (addr : Word)
  | tdo (bits : Nat) (v : Nat)
  deriving DecidableEq, Repr

/-! ### 03: pins, resets, clocks, supplies -/

structure Sys where
  /-- SYS_PINS [17:12], sampled straps (6 bits; 03 R71); reset: DESIGN CHOICE all low, see log 6. -/
  straps : Straps
  /-- RESET_N level (1 bit; 03 R79); reset: DESIGN CHOICE high, see log 6. -/
  resetN : Bool
  /-- TEST level (1 bit; 03 R69); reset: tied low by R69. -/
  test : Bool
  /-- SYS_PINS.CAB_ACT, live level (1 bit; 03 R73); reset: DESIGN CHOICE low, see log 6. -/
  cabAct : Bool
  /-- SYS_PINS.CABDB (1 bit; 03 R73); reset: the level of CAB_ACT at the release. -/
  cabdb : Bool
  /-- PEER_OWN_N level, high is deasserted (1 bit; 12 R326); reset: DESIGN CHOICE high (the pull-up), see log 6. -/
  peerOwnN : Bool
  /-- OWN_OUT_N level, high is released (1 bit; 03 Table 3.3); reset high. -/
  ownOutN : Bool
  /-- PEER_HB level (1 bit; 03 Table 3.5); reset: DESIGN CHOICE low (the pull-down), see log 6. -/
  peerHb : Bool
  /-- SYS_RSTCAUSE [7:0] (8 bits; 03 R80, R81); reset 0x01 (POR: the state right after a power-on reset). -/
  rstcause : Byte
  /-- A brown-out or core-low cause held through the power-up sequence: SYS_RSTCAUSE bit 2 or 3 (2 bits; 03 R81); reset 0. -/
  heldCause : BitVec 2
  /-- Where the node is between a reset and its release (03 R78 to R84); reset: released. -/
  phase : ResetPhase
  /-- SYS_CLKSTAT.XOK (1 bit; 03 R85); reset 0. -/
  xok : Bool
  /-- SYS_CLKSTAT.PLLOK (1 bit; 03 R85); reset 0. -/
  pllok : Bool
  /-- SYS_CLKSTAT.REFOK (1 bit; 03 R85); reset 0. -/
  refok : Bool
  /-- A clock fault is in force (1 bit; 03 R84); reset 0. -/
  clkFault : Bool
  /-- A CLK reset waits for the end of HOLD (1 bit; 03 R84, R473); reset 0. -/
  clkWaiting : Bool
  /-- A pin or warm reset waits for the end of SAVE: 0 none, 1 pin, 2 warm (2 bits; 03 Corner cases); reset 0. -/
  resetWaiting : BitVec 2
  /-- VEH_SENSE at the last sample in mV, at most 1200 (16 bits; 03 R86, R87); reset: DESIGN CHOICE 800, see log 7. -/
  senseMv : Half
  /-- SYS_SUPPLY [15:0], VSUP in mV (16 bits; 03 Registers); reset: DESIGN CHOICE 3300, see log 7. -/
  vsupMv : Half
  /-- SYS_SUPPLY [31:16], VCORE in mV (16 bits; 03 Registers); reset: DESIGN CHOICE 1000, see log 7. -/
  vcoreMv : Half
  /-- VIO0 to VIO3 in mV (4 x 16 bits; 02 Table 2.9 quantity 0x03); reset: DESIGN CHOICE 3300 each, see log 7. -/
  vioMv : Vector Half 4
  /-- SP_TEMP, die temperature in 0.5 degrees C (16 bits; 02 Table 2.4); reset: DESIGN CHOICE 50 (25 degrees), see log 7. -/
  temp : Half
  /-- NOM = 0b11 as the last sample read it, or the release where there was none since (1 bit; 03 R88); reset 0. -/
  vehOff : Bool
  /-- SYS_VEH_STAT.VEH at the last sample, 0.1 V (16 bits; 03 R87); reset 0. -/
  veh : Half
  /-- SYS_VEH_STAT.STATE (3 bits; 03 R89); reset NORMAL. -/
  vehState : VehState
  /-- SYS_VEH_STAT.RIDES (8 bits; 03 Table 3.12); reset 0. -/
  rides : Byte
  /-- Consecutive samples below LOWPCT, up to 4 (3 bits; 03 R89); reset 0. -/
  nLow : Nat
  /-- Consecutive samples above HIGHPCT, up to 4 (3 bits; 03 R89); reset 0. -/
  nHigh : Nat
  /-- Consecutive samples at or below HIGHPCT, up to 4 (3 bits; 03 R89); reset 0. -/
  nNotHigh : Nat
  /-- Consecutive samples at or above RESUMEPCT, up to 4 (3 bits; 03 R89); reset 0. -/
  nResume : Nat
  /-- Consecutive samples below RESUMEPCT, up to 4 (3 bits; 03 R89, R473); reset 0. -/
  nNotResume : Nat
  /-- VEH is at or above RESUMEPCT, filtered (1 bit; 03 R89, R473); reset 0. -/
  resumed : Bool
  /-- SYS_SPLIT_ACT (10 bits; 01 R28); reset 0. -/
  splitAct : BitVec 10
  /-- The difference of SYS_SPLIT and SYS_SPLIT_ACT at the last T0 (10 bits; 01 R31); reset 0. -/
  splitDiff : BitVec 10
  /-- SYS_PARTSTAT, state of partitions P0 to P5 (6 x 3 bits; 16 R437); reset IN. -/
  parts : Vector PartState 6
  /-- SYS_PARTSTAT.CMDREF (1 bit; 16 R437); reset 0. -/
  cmdref : Bool
  /-- SP_FAULT (16 bits; 02 Table 2.4); reset 0. -/
  spFault : Half
  /-- SYS_ROLE [15:0] as it reads, latched at a T0 (16 bits; 01 R26); reset 0x0000. -/
  roleShown : Half
  /-- SP_FAULT as it stood before the last reset, for its record (16 bits; 02 Table 2.4, 08 Table 8.4); reset 0. -/
  faultBefore : Half
  /-- Network role (2 bits; 01 Table 1.2, Table 1.3 NETROLE); reset isolated. -/
  netrole : NetRole
  /-- Backup rank (6 bits; 01 Table 1.3 RANK); reset 0. -/
  rank : BitVec 6
  /-- This unit is its car's through unit (1 bit; 01 R19, Table 1.3 THRU); reset 0. -/
  thru : Bool
  /-- The through unit of the car changes to this unit at the next T0 (1 bit; 01 R21); reset 0. -/
  thruNext : Bool
  /-- This unit gives the through role back at the next T0 (1 bit; 01 R19, R21); reset 0. -/
  thruGive : Bool
  /-- The car's through unit turns out (1 bit; 01 R23, R24); reset 0. -/
  turned : Bool
  /-- The car's through unit turns out at the next T0 (1 bit; 01 R24); reset 0. -/
  turnNext : Bool
  deriving DecidableEq, Repr

/-! ### 02: service port -/

structure Sp where
  /-- The service image of 64 registers (64 x 16 bits; 02 R40); reset: 64 zero words, DESIGN CHOICE, see log 8. -/
  image : List Half
  /-- A transaction is in progress: the image was captured, and SSEL_N has not risen since (1 bit; 02 R40); reset 0. -/
  open_ : Bool
  /-- The transaction in progress is lost: a reset fell into it, or SSEL_N fell in one (1 bit; 02 Corner cases); reset 0. -/
  lost : Bool
  /-- Status byte of the transaction in progress (8 bits; 02 R43); reset 0x07 (LAST 0b111, R80). -/
  status : Byte
  /-- LAST, result of the previous transaction (3 bits; 02 R44); reset 0b111 (R80). -/
  last : BitVec 3
  /-- SP_ALERT (16 bits; 02 Table 2.4); reset 0x1000. -/
  alert : Half
  /-- SP_ALERT_MASK (16 bits; 02 Table 2.4); reset 0x0000. -/
  alertMask : Half
  /-- SP_CTL [2:0]: GEN, GHOLD, FALERT (3 bits; 02 Table 2.4); reset 0b100. -/
  ctl : BitVec 3
  /-- SP_DADDR (32 bits; 02 Table 2.4); reset 0. -/
  daddr : Word
  /-- SP_DDATA (32 bits; 02 Table 2.4); reset 0. -/
  ddata : Word
  /-- SP_DCTL [14:10]: DIR, SIZE, AINC, DPEEK (5 bits; 02 Table 2.4); reset 0x2400. -/
  dctl : Half
  /-- SP_DSTAT.BUSY (1 bit; 02 R53); reset 0. -/
  busy : Bool
  /-- SP_DSTAT.DONE (1 bit; 02 R53); reset 0. -/
  done : Bool
  /-- SP_DSTAT.ERR (2 bits; 02 Table 2.4); reset 0. -/
  err : BitVec 2
  /-- SP_DSTAT.COUNT (8 bits; 02 R56); reset 0. -/
  count : Byte
  /-- SP_WALK.WALK, Walk mode in effect (1 bit; 02 R60); reset 0. -/
  walk : Bool
  /-- Walk entry is running (1 bit; 02 R60); reset 0. -/
  walkEntering : Bool
  /-- SP_WALK.PEND (1 bit; 02 R61); reset 0. -/
  pend : Bool
  /-- SP_WALK.UNTIL (3 bits; 02 Table 2.8); reset 0. -/
  until_ : BitVec 3
  /-- The UNTIL condition of the walk step in progress is met, which ends it (1 bit; 02 R61); reset 0. -/
  met : Bool
  /-- SP_WALK_STEPS (16 bits; 02 Table 2.4); reset 0x0001. -/
  walkSteps : Half
  /-- SP_TRACE7, walk steps completed since entry (16 bits; 02 Table 2.4); reset 0. -/
  trace7 : Half
  /-- SP_KEY: the first key word was the last transaction that took effect (1 bit; 02 R47); reset 0. -/
  keyFirst : Bool
  /-- SP_KEY.OPEN: the key window has been opened and not closed (1 bit; 02 R47, R48); reset 0. -/
  keyOpen : Bool
  /-- SP_KEY.LEFT, transactions left in the key window (8 bits; 02 R48); the window is in force while it is not 0; reset 0. -/
  keyLeft : Byte
  /-- SP_FB_SEQ (16 bits; 02 Table 2.4); reset 0. -/
  fbSeq : Half
  /-- Read-out pointer: the record being read, if one is loaded (16 bits; 08 R254); reset none. -/
  fbPtr : Option Half
  /-- Word of that record to be read next (4 bits; 08 R254); reset 0. -/
  fbWord : BitVec 4
  /-- SP_FB_STAT.END (1 bit; 08 R254); reset 0. -/
  fbEnd : Bool
  /-- SP_FB_STAT.GAP (1 bit; 08 R254); reset 0. -/
  fbGap : Bool
  /-- SP_SCRATCH (16 bits; 02 Table 2.4); reset 0. -/
  scratch : Half
  /-- GAUGE0 and GAUGE1: last value converted from the core domain, in uV (02 R65); reset 0 V (03 Table 3.3). -/
  gaugeConv : Vector Nat 2
  /-- GAUGE0 and GAUGE1: value held under GHOLD, in uV (02 R64); reset 0 V. -/
  gaugeHeld : Vector Nat 2
  deriving DecidableEq, Repr

/-! ### 08: events, counters, Field Book -/

structure Evt where
  /-- EVT_RAW (256 bits; 08 R242); reset 0. -/
  raw : BitVec 256
  /-- EVT_MULTI (256 bits; 08 R242); reset 0. -/
  multi : BitVec 256
  /-- EVT_PENDC (256 bits; 08 R242); reset 0. -/
  pendC : BitVec 256
  /-- EVT_PENDS (256 bits; 08 R242); reset 0. -/
  pendS : BitVec 256
  /-- EVT_LAST, SP_EVT_LAST (1 + 8 bits; 08 R244); reset none. -/
  last : Option Byte
  /-- The last event raised of any kind, shown with EVT_CTL.LASTANY = 1 (1 + 8 bits; 08 R244); reset none. -/
  lastAny : Option Byte
  deriving DecidableEq, Repr

/-- A cairn bank (08 R241). -/
structure CairnBank where
  /-- Words 0 to 47 (48 x 32 bits; 08 R239); reset 0. -/
  vals : Vector Word 48
  /-- TIME_L and TIME_H (64 bits; 08 R241); reset 0. -/
  time : Dword
  /-- TCOUNT (32 bits; 08 R241); reset 0. -/
  tcount : Word
  /-- CSEQ (16 bits; 08 R241); reset 0. -/
  cseq : Half
  /-- CLR used (1 bit; 08 Registers); reset 0. -/
  clr : Bool
  deriving DecidableEq, Repr

/-- The counters of one port (08 R235). -/
structure CntPort where
  /-- Counters 0 to 47 (48 x 32 bits; 08 R235); reset 0. -/
  ctr : Vector Word 48
  /-- CNT_HPEND (48 bits; 08 R238); reset 0. -/
  hpend : BitVec 48
  /-- CNT_HOVR (48 bits; 08 R238); reset 0. -/
  hovr : BitVec 48
  /-- Cairn bank (52 words; 08 R241); reset 0. -/
  bank : CairnBank
  /-- The port's cairn is BUSY, with the CLR of its request (1 + 1 bits; 08 R240); reset none. -/
  busy : Option Bool
  /-- Local time of the core cycle of the request that made it BUSY (64 bits; 08 R240); reset 0. -/
  busyAt : Dword
  /-- A held request, with the OR of its CLR (1 + 1 bits; 08 R240); reset none. -/
  held : Option Bool
  deriving DecidableEq, Repr

/-- A Field Book record that waits in the queue (08 Table 8.3; SEQ, CRC and COMMIT are made when it is written). -/
structure FbRec where
  type : Byte
  flags : Byte
  time : Dword
  tcount : Word
  epoch : Byte
  nid : Byte
  source : Byte
  repeat_ : Byte
  /-- bytes 20 to 27, byte 20 in bits [7:0]. -/
  data : Dword
  deriving DecidableEq, Repr

structure Fbk where
  /-- The record queue (32 x 32 bytes; 08 R251); reset empty. -/
  queue : List FbRec
  /-- Records dropped since the last loss record (32 bits; 08 R251); reset 0. -/
  dropped : Nat
  /-- FBK_STAT.LOST (8 bits; 08 Registers); reset 0. -/
  lost : Byte
  /-- Events inside their RATE interval, the raises folded since, and DATA at the last of them (per event 8 + 64 bits; 08
  Table 8.4, R251); reset none. -/
  folds : List (Byte × Byte × Dword)
  /-- Ring sectors whose erase waits for their bank (08 R247, 15 R412), in order; reset none. -/
  eraseWait : List (BitVec 6)
  /-- A wipe is under way: GEN of the sector it opens at its end (1 + 32 bits; 08 R253); reset none. -/
  wipe : Option Word
  /-- Records of a restored save still to be appended (up to 33 x 32 bytes; 15 R415); reset empty. -/
  restored : List FbRec
  /-- Sectors retired (64 bits, bit i for sector i; 08 R248); reset 0. -/
  retired : BitVec 64
  /-- FBK_STAT.FULL (1 bit; 08 R248); reset 0. -/
  full : Bool
  /-- FBK_RAW1 to FBK_RAW7 as latched (7 x 32 bits; 08 R252); reset 0. -/
  raw : Vector Word 8
  deriving DecidableEq, Repr

/-! ### 04: line ports -/

/-- A tone map being agreed by the keeper of a segment or by the benchmark (04 R120, R121). -/
structure PendingMap where
  /-- The slot, TMI 0 to 7 or 8 to 11. -/
  tmi : BitVec 4
  /-- NIDs that have acknowledged (64 bits). -/
  acks : BitVec 64
  /-- Announces sent, up to 8. -/
  sent : Nat
  /-- ACT, once the activate has been sent. -/
  act : Option Word
  deriving DecidableEq, Repr

structure Port where
  /-- LIU_PSTAT.STATE (2 bits; 04 R130); reset silent. -/
  state : PortState
  /-- LIU_PSTAT.JAM (1 bit; 04 R130); reset 0. -/
  jam : Bool
  /-- LIU_PSTAT.RXLVL where no level was heard within the held-level window: the last level heard, or that of the silence (8
  bits; 04 R130); reset 0 (LIU_PSTAT reads 0x0000_0000). -/
  rxlvl : Byte
  /-- Levels heard in the held-level window: local time and -level in 0.5 dB steps (64 + 8 bits each; 04 R130); reset
  none. -/
  levels : List (Dword × Byte)
  /-- Local time of the end of the last frame or carrier heard (1 + 64 bits; 05 R137); reset none. -/
  busyTo : Option Dword
  /-- LIU_PSTAT.ERPS (8 bits; 04 Registers); reset 0. -/
  erps : Byte
  /-- Symbols erased in the running second of local time, and that second (04 Registers, ERPS); reset 0. -/
  erNow : Nat
  erSec : Nat
  /-- An Open Road frame is being sent: part of LIU_PSTAT.TXACT (1 bit; 04 Registers); reset 0. -/
  txact : Bool
  /-- The end of the Traverse, Survey or acknowledge frame being sent, in local time: the other part of LIU_PSTAT.TXACT (64
  bits; 04 R100, R104); reset none. -/
  txEnd : Option Dword
  /-- Local time of the first sample of the last transmission begun or queued (64 bits; 04 R100); reset none. -/
  txFrom : Option Dword
  /-- The port is enabled: LIU_CTL.PEN as in effect (1 bit; 04 R135); reset 1 (PEN resets to 0xF). -/
  enabled : Bool
  /-- The port has received a Traverse of an epoch (1 bit; 04 R130); reset 0. -/
  heard : Bool
  /-- Sums behind the SNR estimate of carriers 13 to 192 (180 entries; 04 R117); reset all 0. -/
  snrSum : List Nat
  /-- Symbols in the estimate, up to 256 (9 bits; 04 R117); reset 0. -/
  snrCount : Nat
  /-- LIU_TSRX (64 bits; 04 R133); reset 0. -/
  tsrx : Dword
  /-- LIU_TSTX (64 bits; 04 R133); reset 0. -/
  tstx : Dword
  /-- Shadow of LIU_TSRX_H (32 bits; 04 R134); reset none held. -/
  tsrxSh : Option Word
  /-- Shadow of LIU_TSTX_H (32 bits; 04 R134); reset none held. -/
  tstxSh : Option Word
  /-- LIU_NOTCH0 to 7, with the local time FREQ was last set (8 x 1 + 24 + 64 bits; 04 R128); reset none. -/
  notches : Vector (Option (BitVec 24 × Dword)) 8
  /-- LIU_TM0 to LIU_TM7 (8 x 96 bytes; 04 R115); reset all 0. -/
  slots : Vector (List Byte) 8
  /-- LIU_TMSEG.STMI (4 bits; 04 R120); reset 15. -/
  stmi : BitVec 4
  /-- The port has stayed locked since the survey began (1 bit; 04 R123); reset 0. -/
  kept : Bool
  /-- The map to take over at a coming T0: TMI and ACT (4 + 32 bits; 04 R120); reset none. -/
  nextMap : Option (BitVec 4 × Word)
  /-- A map announced to this port: TMI and SEQ (4 + 8 bits; 04 R120); reset none. -/
  announced : Option (BitVec 4 × Byte)
  /-- The keeper's map in agreement (04 R120); reset none. -/
  pending : Option PendingMap
  /-- The keeper's latest reports: NID, local time and 180 SNR bytes (04 R120); reset none. -/
  reports : List (BitVec 6 × Dword × List Byte)
  /-- Local time of the last triggered report (64 bits; 04 R119); reset none. -/
  lastReport : Option Dword
  deriving DecidableEq, Repr

structure Liu where
  /-- Ports A1, A2, B1, B2 (04); reset each as its own fields. -/
  ports : Vector Port 4
  /-- LIU_RTM8 to LIU_RTM11 (4 x 96 bytes; 04 R121); reset all 0. -/
  rtm : Vector (List Byte) 4
  /-- LIU_RING.RTMI (4 bits; 04 R121); reset 15. -/
  rtmi : BitVec 4
  /-- The benchmark's ring map in agreement (04 R121); reset none. -/
  pending : Option PendingMap
  /-- The benchmark's segment summaries, newest first: NID of the keeper, epoch, 180 SNR bytes (04 R121); reset none. -/
  summaries : List (BitVec 6 × Byte × List Byte)
  /-- A keeper owes a summary in its first window of the epoch (1 bit; 04 R121); reset 0. -/
  sumDue : Bool
  deriving DecidableEq, Repr

/-! ### 05: survey -/

/-- One unit's REPORT as the receiving units know it (05 Table 5.2 KIND 0x04). -/
structure Report where
  uid : Word
  flags : Byte
  health : Byte
  oldchain : Byte
  oldep : Byte
  turn : Word
  deriving DecidableEq, Repr

/-- A RESULT as stored (05 Table 5.2 KIND 0x07), with this node's place in it and the local time of the cut. -/
structure SvyResult where
  newep : Byte
  full : Bool
  cutcnt : Word
  cutAt : Dword
  cars : Nat
  bench : BitVec 6
  chain : List Word
  ranks : List Byte
  nid : BitVec 6
  deriving DecidableEq, Repr

/-- What the holder of a TOKEN or a SEEK keeps of its exchange (05 R146 to R148): the port, whether it is a SEEK, the time
the frame left, the valid REPORTs of the two slots with their round-trip times, how often the frame was sent, and whether
the holder waits for a bypass to close; and whether the frame is this unit's own, not one it overhears from its car's other
unit. -/
structure SvyHold where
  port : Fin 4
  seek : Bool
  t1 : Option Dword
  repA : Option (Report × Word)
  repB : Option (Report × Word)
  sent : Nat
  bypass : Bool
  own : Bool
  deriving DecidableEq, Repr

/-- What a receiving unit keeps of an exchange (05 R147, R148): the port, whether it is a SEEK, the end E of the frame, its
own TURN, the records carried, and the partner's REPORT. -/
structure SvyRecv where
  port : Fin 4
  seek : Bool
  e : Dword
  turn : Word
  recs : List (List Byte)
  peer : Option Report
  deriving DecidableEq, Repr

/-- This node's place in the walk (05 R147): walk index, the port toward the head and the port away from it on line A, own
hop delay, through unit, and tail. -/
structure SvyWalk where
  idx : Nat
  inn : Fin 4
  out : Fin 4
  hop : Nat
  thru : Bool
  tail : Bool
  deriving DecidableEq, Repr

structure Svy where
  /-- SVY_STAT.STATE (4 bits; 05 R166); reset IDLE. -/
  state : SvyState
  /-- SVY_STAT.CAUSE (4 bits; 05 R140); reset 0. -/
  cause : BitVec 4
  /-- SVY_STAT.ATTEMPT (2 bits; 05 R161); reset 0. -/
  attempt : BitVec 2
  /-- SVY_STAT.SURVEYOR (1 bit; 05 R145); reset 0. -/
  surveyor : Bool
  /-- SVY_STAT.DUPUNIT (1 bit; 05 R148); reset 0. -/
  dupunit : Bool
  /-- SVY_STAT.HOSTWAIT (1 bit; 05 R165); reset 0. -/
  hostwait : Bool
  /-- SVY_STAT.SURVEYS (8 bits; 05 Registers); reset 0. -/
  surveys : Byte
  /-- SVY_STAT.PREVEP (8 bits; 05 Registers); reset 0. -/
  prevep : Byte
  /-- SVY_NODE.EPOCH (8 bits; 05 R158); reset 0. -/
  epoch : Byte
  /-- SVY_NODE.NID with NIDV (1 + 6 bits; 05 R158); reset none. -/
  nid : Option (BitVec 6)
  /-- SVY_NODE CHAIN (6 bits; 02 Table 2.4 SP_CHAIN); reset 0. -/
  chain : BitVec 6
  /-- SVY_NODE CARS (6 bits; 02 Table 2.4 SP_CHAIN); reset 0. -/
  cars : BitVec 6
  /-- SVY_NODE ORIENT, 0 End 1 toward the leading end (1 bit; 02 Table 2.4 SP_CHAIN); reset 0. -/
  orient : Bool
  /-- SVY_UID (32 bits; 05 Registers: from OTP, never 0); reset: DESIGN CHOICE 1, see log 9. -/
  uid : Word
  /-- SVY_HEALTH score and rows (8 + 6 bits; 05 R153); reset: DESIGN CHOICE 0, see log 9. -/
  health : Byte
  healthRows : BitVec 6
  /-- SVY_CHAINTAB0 to 31 (32 x 32 bits; 05 R165); reset 0. -/
  chaintab : Vector Word 32
  /-- SVY_NIDTAB0 to 63 (64 x 32 bits; 05 R165); reset 0. -/
  nidtab : Vector Word 64
  /-- SVY_TALLY (512 bytes; 05 R150); reset: DESIGN CHOICE 0 (none), see log 9. -/
  tally : List Byte
  /-- The survey the node is in: PREC and SID (2 + 32 bits; 05 R149); reset none. -/
  current : Option (BitVec 2 × Word)
  /-- The survey in progress renumbers fully (1 bit; 05 R143); reset 0. -/
  full : Bool
  /-- SVY_CTL.FULL was written: the next survey started here renumbers fully (1 bit; 05 R143); reset 0. -/
  fullNext : Bool
  /-- This node initiated the survey it is in (1 bit; 05 R142); reset 0. -/
  initiator : Bool
  /-- A trigger in force until the node returns to IDLE (4 bits; 05 R142); reset none. -/
  trigger : Option (BitVec 4)
  /-- The car records carried (32 x 16 bytes; 05 R146); reset none. -/
  records : List (List Byte)
  /-- The exchange this node holds (05 R146 to R148); reset none. -/
  hold : Option SvyHold
  /-- The exchange this node takes part in (05 R147); reset none. -/
  recv : Option SvyRecv
  /-- This node's place in the walk (05 R147); reset none. -/
  walk : Option SvyWalk
  /-- COLL = 1 received for the own slot (2 bits; 05 R148); reset 0. -/
  colls : Nat
  /-- The partner as its last REPORT gave it (05 R147); reset none. -/
  peer : Option Report
  /-- The stored RESULT (05 R157); reset none. -/
  result : Option SvyResult
  /-- The CONFIRM as the surveyor holds it (64 bits, bit n for NID n; 05 R157); reset 0. -/
  confirm : Dword
  /-- SYS_SPLIT_ACT bits 0 and 1 at the start of the survey (2 bits; 01 R32, 05 R165); reset 0. -/
  split : BitVec 2
  /-- SVY_CFG and SVY_TIM in force, those of the start of the last survey (32 + 32 bits; 05 R167); reset as the registers. -/
  cfg : Word
  tim : Word
  /-- SVY_CHAINTAB and SVY_NIDTAB in DECIDE (32 and 64 words; 05 R165); reset 0. -/
  decChain : Vector Word 32
  decNid : Vector Word 64
  /-- Frames that wait for the next survey window: port and body (05 R138); reset none. -/
  deferred : List (Fin 4 × List Byte)
  /-- The window of the initiator's ring as its frames give it: local time of its end, WIN and TPER (05 R139); reset none. -/
  window : Option (Dword × Byte × Half)
  /-- The port on line A toward the leading end of a survey this unit is the surveyor of (1 + 2 bits; 05 R145, R161); reset
  none. -/
  lead : Option (Fin 4)
  /-- Local time of the end of the last survey exchange seen: no Open Road frame starts before it (64 bits; 05 R138); reset
  0. -/
  until_ : Dword
  /-- UID of the initiator of the survey of the epoch (32 bits; 05 Table 5.1 SID); reset 0. -/
  epochSid : Word
  /-- The numbers came from HERE, without tables (1 bit; 05 R163); reset 0. -/
  joined : Bool
  /-- HERE answers heard: port, chainage and epoch (05 R163); reset none. -/
  heres : List (Fin 4 × Byte × Byte)
  /-- Open Road windows in which JOIN was sent without both answers (2 bits; 05 R164); reset 0. -/
  joins : Nat
  /-- A late-comer watches its entries: return passes seen, and the last STAT and SEQ per entry (05 R164); reset none. -/
  watch : Option (Nat × List (Nat × Byte × Byte))
  /-- TCOUNT of the last return pass watched (32 bits; 05 R164); reset 0. -/
  watchAt : Word
  /-- Another unit with the same NID is live (1 bit; 05 R164); reset 0. -/
  watchLive : Bool
  /-- Entries are taken after a late-comer's join (1 bit; 05 R164); reset 0. -/
  taken : Bool
  deriving DecidableEq, Repr

/-! ### 06: Traverse and time -/

structure Tre where
  /-- Local time, TRE_TIME (64 bits, ns; 06 Registers, 04 R133); reset 0. -/
  time : Dword
  /-- Rate correction in force, in ppb (06 R194); reset 0. -/
  rate : Int
  /-- Core clocks for which the correction stays (06 R194); reset 0. -/
  slewLeft : Nat
  /-- Fraction of a ns gained under the correction, in 1e-9 ns (06 R194); reset 0. -/
  frac : Int
  /-- Shadow of TRE_TIME_H (32 bits; 06 Registers); reset none held. -/
  timeSh : Option Word
  /-- TRE_COUNT, TCOUNT of the last T0 (32 bits; 06 R169); reset 0. -/
  tcount : Word
  /-- MTIME of the last T0, received or own (64 bits; 06 Table 6.3); reset 0. -/
  mtime : Dword
  /-- Period in force in 250 us units (12 bits; 06 R170); reset 0x40 (TRE_PERIOD). -/
  per : BitVec 12
  /-- Cycle ratio in force, 0b00 x1 to 0b11 x8 (2 bits; 06 R170); reset 0 (TRE_LATCH). -/
  cratio : BitVec 2
  /-- Latch offset in force in us (22 bits; 06 R170); reset 0 (TRE_LATCH). -/
  latofs : BitVec 22
  /-- TRE_PERIOD and TRE_LATCH as this benchmark last put them into effect (12 + 32 bits; 06 R198); reset none. -/
  latUsed : Option (BitVec 12 × Word)
  /-- Open Road offset of the ring in force (12 bits; 06 R170); reset 0xC (TRE_ROAD). -/
  roadofs : BitVec 12
  /-- TRE_ROAD.EFF (12 bits; 06 R171); reset 0. -/
  eff : BitVec 12
  /-- TRE_SYNC.STATE (2 bits; 06 R195); reset FREE. -/
  sync : SyncState
  /-- Consecutive milestones within 125 ns (4 bits; 06 Table 6.7); reset 0. -/
  good : Nat
  /-- Consecutive milestones beyond 125 ns (2 bits; 06 Table 6.7); reset 0. -/
  bad : Nat
  /-- SP_SYNC.MUTES (8 bits; 06 R196); reset 0. -/
  mutes : Byte
  /-- TRE_OFFSET (32 bits, signed ns; 06 R194); reset 0. -/
  offset : Word
  /-- TRE_HOPDLY (16 bits; 06 Registers); reset 0. -/
  hopdly : Half
  /-- TRE_RDLY (32 bits; 06 R199); reset 0. -/
  rdly : Word
  /-- TRE_CLOSE.FAIL and GOOD (16 + 16 bits; 06 R199); reset 0. -/
  closeFail : Half
  closeGood : Half
  /-- A returned frame has passed the closure check since the previous cycle Traverse (1 bit; 12 R333); reset 0. -/
  closed : Bool
  /-- TRE_COMMIT.COMMIT (1 bit; 06 R183); reset 0. -/
  commit : Bool
  /-- TRE_COMMIT.SEQ (8 bits; 06 R183); reset 0. -/
  seq : Byte
  /-- TRE_TAB.TABSEQ (8 bits; 06 R188); reset 0. -/
  tabseq : Byte
  /-- TRE_TAB.TABOK (1 bit; 06 R189); reset 0. -/
  tabok : Bool
  /-- TRE_WMTAB, entries 0 to ENTRIES - 1 (up to 256 x 32 bits; 06 R186); reset none. -/
  table : List Word
  /-- A table to adopt at the next T0: TABSEQ and entries (06 R189); reset none. -/
  tableNext : Option (Byte × List Word)
  /-- An Open Road request for the TABLE is pending at the benchmark (1 bit; 06 R189); reset 0. -/
  tableReq : Bool
  /-- TRE_RXOK0 to 7 (256 bits; 06 R184); reset 0. -/
  rxok : BitVec 256
  /-- TRE_FRZOK0 to 7 (256 bits; 06 R184); reset 0. -/
  frzok : BitVec 256
  /-- Slots of the live bank that passed R174 in the return pass in progress (256 bits; 06 R184); reset 0. -/
  liveok : BitVec 256
  /-- Slots of the return pass in progress that carry COVER (256 bits; 06 R181); reset 0. -/
  livecover : BitVec 256
  /-- Slots of the return pass in progress that read MUTED (256 bits; 06 R180); reset 0. -/
  livemute : BitVec 256
  /-- The partner's slots have read MUTED, and not DATA since (1 bit; 01 R19); reset 0. -/
  muteSeen : Bool
  /-- TRE_CLAIM queue (16 entries; 06 Registers): NID, LEN8, USER; reset empty. -/
  claims : List Word
  /-- This node's declarations of the design table: LEN8, USER (up to 16; 06 R187); reset none. -/
  decls : List Half
  /-- The design table of the configuration area (06 R187); reset none. -/
  design : Option (List Word)
  /-- CLAIM attempts made, 0 to 8 (4 bits; 06 R190); reset 0. -/
  claimTries : Nat
  /-- Table edits waiting for a Traverse: index and entry (06 R192); reset none. -/
  edits : List (Byte × Word)
  /-- EIDX, ESEQ, EENT of the last edit, and the TCOUNT at which it was placed (06 R192); reset none. -/
  lastEdit : Option (Byte × Byte × Word × Word)
  /-- Edits received and not yet applied: the ESEQ, EIDX and EENT and the TCOUNT to apply at (06 R192); reset none. -/
  editNext : Option (Byte × Byte × Word × Word)
  /-- TRE_SYNC.COVER (1 bit; 06 R181); reset 0. -/
  cover : Bool
  /-- TRE_SYNC.COVERED (1 bit; 06 Registers): this node's slots read COVER; reset 0. -/
  covered : Bool
  /-- Cover starts, or stops, at the next T0 (06 R181); reset none. -/
  coverNext : Option Bool
  /-- TRE_SYNC.LEADIN (1 bit; 06 R185); reset 0. -/
  leadin : Bool
  /-- TRE_SYNC.TAKE (1 bit; 06 R200): the ring runs under a benchmark that took over; reset 0. -/
  take : Bool
  /-- Predicted T0s in a row without a Traverse (5 bits; 06 R200); reset 0. -/
  missed : Nat
  /-- A Traverse of the epoch was received since the last predicted T0 (1 bit; 06 R200); reset 0. -/
  got : Bool
  /-- BENCH of the ring in force (6 bits; 06 Table 6.2); reset 0. -/
  bench : BitVec 6
  /-- Stand down from the next T0 (1 bit; 06 R201); reset 0. -/
  standDown : Bool
  /-- TRE_CTL.EN as in effect since the last T0 (1 bit; 06 R202); reset 1 (TRE_CTL resets to 5). -/
  enabled : Bool
  /-- A return pass is being read and is not complete (1 bit; 06 R184); reset 0. -/
  passOpen : Bool
  /-- The TABLE frame of this Open Road window has been sent (1 bit; 06 R189); reset 0. -/
  tableSent : Bool
  /-- The last returned frame of this Traverse: whether it is sound, and its first-sample time (06 R199); reset none. -/
  lastRet : Option (Bool × Dword)
  /-- The closure of this Traverse has been judged (1 bit; 06 R199); reset 0. -/
  closeSeen : Bool
  /-- The previous good ring delay, ns (06 R199); reset none. -/
  ringDelay : Option Nat
  /-- EFF stands above ROADOFS at this benchmark (1 bit; 06 R171); reset 0. -/
  effRaised : Bool
  /-- TMI, LEN of the last Traverse, for the offsets of TRE_WMOFS (4 bits; 06 R175); reset 15. -/
  tmi : BitVec 4
  /-- Latch instant already taken for this TCOUNT (33 bits; 06 R197); reset none. -/
  lastLatch : Option Word
  /-- Local T0s counted since RUN was entered without a milestone (32 bits; 09 R258); reset 0. -/
  localT0s : Word
  /-- A milestone has been received, or sent as benchmark, since reset (1 bit; 09 R258); reset 0. -/
  heardMil : Bool
  deriving DecidableEq, Repr

/-! ### 07: Open Road and Ethernet -/

/-- A frame waiting in a transmit queue: its header and payload bytes, and what it came from. -/
structure QFrame where
  /-- header (12 bytes) and payload. -/
  body : List Byte
  /-- failed attempts n (07 R211). -/
  n : Nat
  /-- attempts in a row without an acknowledgement and without a collision (07 R208). -/
  silent : Nat
  /-- SRAM address of the transmit record it came from, if any (07 R222). -/
  src : Option Word
  /-- window of the Causeway frame it carries, if any (14 R387). -/
  cwy : Option (Fin 16)
  /-- what it is for: 0 nothing of note, 1 a HELLO, 2 the ECHO of a PING. -/
  tag : BitVec 2
  /-- port it was received on, for a transit frame (07 R220). -/
  from_ : Option (Fin 4)
  /-- cells of the cell buffer that hold a transit frame (07 R217, R220). -/
  cells : List Nat
  /-- E port it was received on and its priority there, for a tunnel frame: it waits in that port's buffer (07 R230). -/
  eth : Option (Fin 2 × Fin 8)
  /-- a transit frame's reception (08 R236): 0 counted, 1 counted when the frame leaves, 2 counted under an error counter. -/
  acct : BitVec 2
  deriving DecidableEq, Repr

structure RoadPort where
  /-- Transmit state (3 bits; 07 Table 7.4); reset IDLE. -/
  st : TxState
  /-- Frames queued on this port, in order of arrival (07 R211); reset empty. -/
  queue : List QFrame
  /-- The frame being counted or sent (07 R211); reset none. -/
  cur : Option QFrame
  /-- Contention count (8 bits; 07 R211); reset 0. -/
  count : Nat
  /-- Local time at which the last symbol of the frame in ACKWAIT ended (64 bits; 07 R212); reset 0. -/
  endAt : Dword
  /-- Neighbour table: NID and local time of the last refresh, freshest first, at most 4 (07 R219); reset empty. -/
  nbrs : List (BitVec 6 × Dword)
  /-- Priorities paused by the named neighbour (8 bits each; 07 R221); reset none. -/
  paused : List (BitVec 6 × Byte)
  /-- Priorities for which this node has sent a pause (8 bits; 07 R220); reset 0. -/
  pausing : Byte
  /-- The head frame whose port was chosen when it reached the head of the queue, attempts left out (07 R214); reset none. -/
  head : Option QFrame
  /-- The combs drawn for the frame in PRE (2 + 2 bits; 07 R209); reset 0. -/
  combs : Fin 4 × Fin 4
  deriving DecidableEq, Repr

/-- The duplicate window of one source (07 R225). -/
structure DupWin where
  seen : Bool
  high : Half
  win : Word
  deriving DecidableEq, Repr

structure Road where
  /-- The Open Road window is open (1 bit; 07 R203); reset 0. -/
  open_ : Bool
  /-- O, the local time of its opening (64 bits; 07 R203); reset 0. -/
  o : Dword
  /-- Ports A1 to B2 (07); reset each as its own fields. -/
  ports : Vector RoadPort 4
  /-- Duplicate windows of the 64 sources (64 x 49 bits; 07 R225); reset none seen. -/
  wins : Vector DupWin 64
  /-- Own SEQ (16 bits; 07 R225); reset 0. -/
  seq : Half
  /-- ROAD_TXRP (32 bits; 07 R222); reset 0. -/
  txrp : Word
  /-- Transmit records posted and not completed: address and result once known (ROAD_STAT.TXPEND; 07 R222); reset none. -/
  txpend : List (Word × Option (BitVec 2))
  /-- ROAD_RXWPn (16 x 32 bits; 07 R223); reset 0. -/
  rxwp : Vector Word 16
  /-- ROAD_PING.DONE, FAIL, RTT (1 + 1 + 16 bits; 07 Registers); reset 0. -/
  pingDone : Bool
  pingFail : Bool
  pingRtt : Half
  /-- The time the ECHO was queued (64 bits; 07 Registers); reset none. -/
  pingAt : Option Dword
  deriving DecidableEq, Repr

/-- An entry of ETH_ATAB (07 R232). -/
structure Atab where
  valid : Bool
  static : Bool
  kind : BitVec 2
  nid : BitVec 6
  mac : BitVec 48
  /-- local time of the last source hit, or of the write that made the entry (64 bits; 07 R232). -/
  hit : Dword
  deriving DecidableEq, Repr

/-- A frame waiting in the buffer of an E port: its priority, where it came from (0x40 E0, 0x41 E1, 0 to 63 a NID), its bytes,
and the places of those whose stored parity is wrong (15 R406). -/
structure EthQ where
  prio : Fin 8
  src : BitVec 7
  bytes : List Byte
  bad : List Nat
  deriving DecidableEq, Repr

structure EthPort where
  /-- ETH_STAT: UP, FD, S100, ANDONE (4 bits; 07 R228); reset 0. -/
  up : Bool
  fd : Bool
  s100 : Bool
  andone : Bool
  /-- ETH_MDIO.BUSY and the access in hand (07 R228); reset none. -/
  mdio : Option Word
  /-- Frames queued for transmission with their priority (16 KiB; 07 R229); reset empty. -/
  queue : List EthQ
  /-- The frame in transmission (07 R229); reset none. -/
  sending : Option EthQ
  /-- Received frames held for a paused tunnel (07 R230); reset empty. -/
  held : List EthQ
  /-- Transmission is stopped by a MAC Control PAUSE (1 bit; 07 R227); reset 0. -/
  macPaused : Bool
  /-- Classes stopped by PFC (8 bits; 07 R230); reset 0. -/
  pfcPaused : Byte
  /-- Classes for which this port has sent PFC (8 bits; 07 R230); reset 0. -/
  pfcSent : Byte
  /-- The quanta of the last PFC or PAUSE received, per class (8 x 16 bits; 07 R230); reset 0. -/
  quanta : Vector Half 8
  deriving DecidableEq, Repr

structure Eth where
  /-- E0 and E1 (07); reset each as its own fields. -/
  ports : Vector EthPort 2
  /-- ETH_ATAB0 to 255 (256 x 64 bits; 07 R232); reset 0. -/
  atab : Vector Atab 256
  /-- ETH_LEARNQ (16 entries; 07 R233): source code and MAC; reset empty. -/
  learnq : List (BitVec 7 × BitVec 48)
  /-- Shadow of ETH_LEARNQ_L (32 bits; 07 Registers); reset 0. -/
  learnSh : Word
  /-- Learn-queue posts dropped (07 R233); reset 0. -/
  learnLost : Nat
  deriving DecidableEq, Repr

/-! ### 09, 10: control -/

/-- A hart as the debug module sees it (16 R446, 09 R265). -/
structure HartState where
  /-- Held in reset (1 bit; 16 R436); reset 1. -/
  inReset : Bool
  /-- Halted by the debug module (1 bit; 16 R446); reset 0. -/
  halted : Bool
  /-- The hart runs in U mode, else in M mode (1 bit; 09 R265, R271); reset 0: M mode, PRESUMED, see log 10. -/
  user : Bool
  /-- Program counter, SP_TRACE0 to 3 (32 bits; 02 Table 2.4); reset 0. -/
  pc : Word
  /-- x0 to x31 (32 x 32 bits; 09 R265); reset: DESIGN CHOICE 0, see log 10. -/
  x : Vector Word 32
  /-- mepc (32 bits; 09 Table 9.3); reset: DESIGN CHOICE 0, see log 10. -/
  mepc : Word
  /-- mtval (32 bits; 09 Table 9.3); reset: DESIGN CHOICE 0, see log 10. -/
  mtval : Word
  /-- The other control and status registers written, by number (09 Table 9.3); reset none written: they read as csrReset says. -/
  csrs : List (Nat × Word)
  deriving DecidableEq, Repr

structure Ctl where
  /-- ITN_PSTAT.STATE (3 bits; 09 R259); reset NONE. -/
  pstate : ProgState
  /-- ITN_PSTAT.INITRSN (2 bits; 09 R281); reset 0. -/
  initrsn : BitVec 2
  /-- ITN_PSTAT.SLOTRUN (1 bit; 09 Registers); reset 0. -/
  slotrun : Bool
  /-- A STOP request waits for the next latch instant (1 bit; 09 R262); reset 0. -/
  stopReq : Bool
  /-- LOAD was entered from STOP or FAULTSTOP with a program loaded since the reset (1 bit; 09 R281); reset 0. -/
  warmLoad : Bool
  /-- RETSIG, RETBASE and RETSIZE of the program last loaded since the reset (3 x 32 bits; 09 R281); reset none. -/
  retained : Option (Word × Word × Word)
  /-- A cycle is running (1 bit; 09 R256); reset 0. -/
  running : Bool
  /-- The logic pass of this cycle has not started yet (1 bit; 09 R256); reset 0. -/
  waiting : Bool
  /-- Latch instants since the running cycle's own (4 bits; 09 R278); reset 0. -/
  sinceOwn : Nat
  /-- The running cycle is past its output deadline (1 bit; 09 R276); reset 0. -/
  overran : Bool
  /-- The previous cycle overran (1 bit; 09 R272 FLAGS.OVR); reset 0. -/
  prevOver : Bool
  /-- The next cycle is the first of this RUN (1 bit; 09 R272 FLAGS.FIRST); reset 0. -/
  first : Bool
  /-- ITN_CYCNT (32 bits; 09 Registers); reset 0. -/
  cycnt : Word
  /-- ITN_OVR.SKIPPED and OVERRUNS (16 + 16 bits; 09 Registers); reset 0. -/
  skipped : Half
  overruns : Half
  /-- ITN_CYCTIME.MAXUS and LASTUS (16 + 16 bits; 09 Registers); reset 0. -/
  maxus : Half
  lastus : Half
  /-- ITN_LTIME (64 bits; 09 R255); reset 0. -/
  ltime : Dword
  /-- Shadow of ITN_LTIME_H (32 bits; 09 Registers); reset none held. -/
  ltimeSh : Option Word
  /-- ITN_ERRCAUSE (6 bits; 09 R275); reset 0. -/
  errcause : BitVec 6
  /-- Pending error causes (6 bits; 09 R275); reset 0. -/
  pendcause : BitVec 6
  /-- The epoch at the previous cycle (8 bits; 09 Table 9.9 bit 5); reset 0. -/
  prevEpoch : Byte
  /-- The latch was free-running at the previous cycle (1 bit; 09 Table 9.9 bit 4); reset 0. -/
  prevFree : Bool
  /-- ITN_FAULT (16 bits; 09 R279); reset 0. -/
  fault : Half
  /-- ITN_FAULTARG (32 bits; 09 R279); reset 0. -/
  faultarg : Word
  /-- FORM of the program loaded: NATIVE and ITIN (2 bits; 09 Table 9.5); reset 0. -/
  native : Bool
  itin : Bool
  /-- INIT, CYCLE and ERROR entries, GPVAL and STACKTOP of the program loaded (09 Table 9.5); reset 0. -/
  entryInit : Word
  entryCycle : Word
  entryError : Word
  gpval : Word
  stacktop : Word
  /-- The ERROR entry runs next, before the logic pass continues (1 bit; 09 R275); reset 0. -/
  inError : Bool
  /-- CYCLE's return asked for the previous output image (1 bit; 09 Table 9.7); reset 0. -/
  keepOut : Bool
  /-- A commit of the output image was taken for the coming latch instant (1 bit; 12 R342); reset 0. -/
  committed : Bool
  /-- The program's previous cycle returned (1 bit; 12 R338); reset 0. -/
  returned : Bool
  /-- ITN_CYCCFG in force since the last latch instant (28 bits; 09 Registers); reset 0x0414_1400. -/
  cyccfg : Word
  /-- PMP entries 0 to 7: base, size and access [0] R, [1] W, [2] X (8 x 67 bits; 09 Table 9.6); reset none. -/
  pmp : List (Word × Word × BitVec 3)
  /-- The two harts (16 R446). -/
  hartC : HartState
  hartS : HartState
  deriving DecidableEq, Repr

structure Itn where
  /-- The itinerary table loaded, each entry with its TYPE (up to 4096 x 16 bytes; 10 R282); reset none. -/
  table : List (BitVec 6 × Entry)
  /-- ITN_INFO.ERRIDX (13 bits; 10 Registers); reset 0. -/
  erridx : Nat
  /-- ITN_SEQ.STATE (3 bits; 10 R301); reset IDLE. -/
  seq : SeqState
  /-- ITN_SEQ.IDX (12 bits; 10 Registers); reset 0. -/
  idx : BitVec 12
  /-- A pass in progress that a walk step has ended in, and the entry it goes on at (13 bits; 10 R301); reset none. -/
  at_ : Option Nat
  /-- ITN_WCYC (32 bits; 10 R298); reset 0. -/
  wcyc : Word
  /-- ITN_PASSCYC (32 bits; 10 Registers); reset 0. -/
  passcyc : Word
  /-- ITN_PASSCNT: skipped and run (16 + 16 bits; 10 Registers); reset 0. -/
  skipped : Half
  ran : Half
  /-- ITN_SAT: SAT, DIVZ, FIRST, COUNT (1 + 1 + 12 + 16 bits; 10 R294); reset 0. -/
  sat : Bool
  divz : Bool
  first : BitVec 12
  count : Half
  /-- This pass has saturated (1 bit; 10 R294); reset 0. -/
  passSat : Bool
  /-- ITN_CTL.SATFAULT as in force since the pass started (1 bit; 10 Registers); reset 0. -/
  satfault : Bool
  /-- ITN_PREVTC (32 bits; 10 R295); reset 0. -/
  prevtc : Word
  /-- The pass is the first after LOAD (1 bit; 10 R295); reset 1. -/
  firstPass : Bool
  /-- The LOADX and STOREX sizes kept from the initial instance image: INST and N (10 R296); reset none. -/
  sizes : List (Nat × Nat)
  deriving DecidableEq, Repr

/-! ### 11: Lane -/

/-- A pass in progress (11 R310). -/
structure LanePass where
  deliver : Bool
  tog : Bool
  cnt : Byte
  /-- frame type of 11 Table 11.1: 1 DATA, 2 IDENT, 3 RANGE, 4 CONFIG. -/
  type : BitVec 4
  /-- copies sent: two in TURNED; 0 for a pass that is heard. -/
  copies : Nat
  /-- copies returned: on L1_RXD and on L2_RXD, with the DIR of each. -/
  back : List (Bool × Bool)
  /-- stations accepted in it (bit s - 1): with CFG = 1 in a collect or CONFIG pass, with OUTOK = 1 in a deliver pass. -/
  accepted : Word
  deriving DecidableEq, Repr

structure Lane where
  /-- LANE_STAT.STATE (3 bits; 11 R322); reset OFF. -/
  state : LaneState
  /-- The Lane is enabled: LANE_CTL.EN as in effect (1 bit; 11 R325); reset 0. -/
  enabled : Bool
  /-- The Lane stops after the closing mark (1 bit; 11 R325); reset 0. -/
  stopping : Bool
  /-- The mark that closes the cycle has gone out, its latch instant is still to come (1 bit; 11 R325); reset 0. -/
  marked : Bool
  /-- SYS_SPLIT_ACT bit 6 as the collect pass in hand found it (1 bit; 11 R318, 16 Table 16.8); reset 0. -/
  subHand : Bool
  /-- Drive permission (1 bit; 11 R303, 12 R335); reset 0. -/
  perm : Bool
  /-- Pass count CNT (8 bits; 11 Table 11.1); reset 0. -/
  cnt : Byte
  /-- Latch instants since reset (32 bits; 11 R310: TOG is bit 0); reset 0. -/
  latches : Word
  /-- TURNED is entered, or left, with the next pass (11 R314, R315); reset none. -/
  turnNext : Option Bool
  /-- The pass in progress (11 R310); reset none. -/
  pass : Option LanePass
  /-- The input image of this latch instant is released (1 bit; 11 R316); reset 0. -/
  released : Bool
  /-- Stations accepted in this cycle's collect pass (32 bits; 11 R311); reset 0. -/
  accepted : Word
  /-- Inputs of the slots accepted in this cycle's collect pass, by station index from 0 (32 x 32 bytes; 11 R316); reset none. -/
  inputs : List (Nat × List Byte)
  /-- LANE_MISS (32 bits; 11 R316); reset 0. -/
  miss : Word
  /-- Stations present for the previous latch instant (32 bits; 11 R317); reset 0. -/
  present : Word
  /-- LANE_DROP (32 bits; 11 R317); reset 0. -/
  drop : Word
  /-- LANE_COMMIT.GO (1 bit; 11 R319); reset 0. -/
  go : Bool
  /-- The steward is to write the substitutes (1 bit; 11 R318); reset 0. -/
  subWait : Bool
  /-- Regions the steward has written (32 bits; 11 R318); reset 0. -/
  subWritten : Word
  /-- Stations configured (32 bits; 11 R322); reset 0. -/
  configured : Word
  /-- LANE_RNG1 to 32 (32 x 32 bits; 11 R323); reset 0xFFFF_FFFF. -/
  rng : Vector Word 32
  /-- LANE_ID1 to 32 (32 x 32 bits; 11 R323); reset 0. -/
  id : Vector Word 32
  /-- RTT1 and RTT2 of each station in ns, as ranged (11 R323); reset none. -/
  rtt1 : Vector (Option Nat) 32
  rtt2 : Vector (Option Nat) 32
  /-- FLAT of each station (16 bits each; 11 R308); reset 0. -/
  flat : Vector Half 32
  /-- The step START has come to: 0 IDENT, 1 RANGE, 2 CONFIG sent, 3 CONFIG accepted (11 R323); reset 0. -/
  step : Nat
  /-- Heard collect passes in a row in which every station in use reported CFG = 1, up to 4 (11 R322); reset 0. -/
  heardCfg : Nat
  /-- Stations whose outputs the last heard deliver pass carried with a valid OCRC (32 bits; 12 R342); reset 0. -/
  heardOut : Word
  /-- The deliver pass of the cycle in progress has returned or is late (1 bit; 12 Table 12.2); reset 0. -/
  delivered : Bool
  /-- Loss of signal at the receivers of L1 and L2 (2 bits; 11 R305); reset 1: DEDUCED from SP_LINKS, whose reset is 0, see log
  110. -/
  loss : Vector Bool 2
  /-- SP_TRACE5: station slot and frame phase (5 + 2 bits; 02 Table 2.4); reset 0. -/
  traceSlot : BitVec 5
  tracePhase : BitVec 2
  deriving DecidableEq, Repr

/-! ### 12: wayleave -/

structure Wlv where
  /-- WLV_STAT.STATE (4 bits; 12 R350); reset IDLE. -/
  state : WlvState
  /-- WLV_STAT.IL (1 bit; 12 R338); reset 0. -/
  il : Bool
  /-- WLV_STAT.HBOK (1 bit; 12 R327); reset 0. -/
  hbok : Bool
  /-- Consecutive valid pulses while lost, up to 3 (2 bits; 12 R327); reset 0. -/
  hbRun : Nat
  /-- SP_WLV PEER_HB count (8 bits; 12 R327); reset 0. -/
  pulses : Byte
  /-- The peer's PREF as its pulses show it (1 bit; 12 R327); reset 0. -/
  peerPref : Bool
  /-- HB_OUT runs (1 bit; 12 R327); reset 0. -/
  hbRuns : Bool
  /-- WLV_STAT.MLOST (4 bits; 12 R330); reset 0. -/
  mlost : BitVec 4
  /-- WLV_STAT.LEFT (4 bits; 12 R329); reset 0. -/
  left : BitVec 4
  /-- WLV_STAT.HELD (1 bit; 12 R329): LEFT > 0 by a grant; reset 0. -/
  held : Bool
  /-- A byte naming this unit was taken since the previous latch instant (1 bit; 12 R330); reset 0. -/
  renewed : Bool
  /-- A valid milestone was taken since the previous latch instant (1 bit; 12 R330); reset 0. -/
  seen : Bool
  /-- The TCOUNT whose byte has been taken (32 bits; 12 R329: once per Traverse); reset none. -/
  takenAt : Option Word
  /-- The unit's own byte as last taken (8 bits; 12 R329); reset 0x00, open. -/
  byte : Byte
  /-- OWN_OUT_N has passed the collision check (1 bit; 12 R336); reset 0. -/
  claimed : Bool
  /-- PEER_OWN_N has been deasserted for 5 us (1 bit; 12 R336); reset: as the pin stands (log 27). -/
  peerClear : Bool
  /-- Latch instants in a row at which PEER_OWN_N was deasserted (4 bits; 12 R339); reset 0. -/
  clearRun : Nat
  /-- WLV_TRKCNT.MISM and CMP (16 + 16 bits; 12 R342); reset 0. -/
  mism : Half
  cmp : Half
  /-- Consecutive mismatching cycles (4 bits; 12 R342); reset 0. -/
  mismRun : Nat
  /-- WLV_TRKDIFF (32 bits; 12 R342); reset 0. -/
  trkdiff : Word
  /-- WLV_DRILL: result and count (2 + 16 bits; 12 R344); reset 0. -/
  drillRes : BitVec 2
  drills : Half
  /-- A drill request waits for its handover: cycles waited (4 bits; 12 R344); reset none. -/
  drillWait : Option Nat
  /-- The drill check runs: cycles done, and every check has passed (12 R344); reset none. -/
  drillCheck : Option (Nat × Bool)
  /-- WLV_REV, clean health seconds (12 bits; 12 R345); reset 0. -/
  rev : BitVec 12
  /-- Part of a second counted toward WLV_REV, in ns (12 R345); reset 0. -/
  revNs : Nat
  /-- WLV_STAT.REVRDY (1 bit; 12 R345); reset 0. -/
  revrdy : Bool
  /-- WLV_STAT.OVR (1 bit; 12 R347); reset 0. -/
  ovr : Bool
  /-- WLV_SWITCH: takeovers, and latch instants since the peer's last heard mark (16 + 8 bits; 12 Registers); reset 0. -/
  takeovers : Half
  switchLen : Byte
  sinceMark : Byte
  /-- The last state request sent: 0 none, 1 ASK, 2 HOLDING, 3 RELEASE (2 bits; 12 R332); reset 0. -/
  asked : BitVec 2
  /-- The unit state in which that request was sent (3 bits; 12 R332); reset IDLE. -/
  askState : WlvState
  /-- Control cycles since that request (7 bits; 12 R332); reset 0. -/
  askedAgo : Nat
  /-- One-shot requests in hand: REQ, times sent, cycles since (12 R332); reset none. -/
  shots : List (Byte × Nat × Nat)
  /-- EV208 was raised for the wayleave now held (1 bit; 12 Table 12.5); reset 0. -/
  told : Bool
  /-- The benchmark's byte of each chainage, WLV_BFIELDc [7:0] (32 x 8 bits; 12 R333); reset 0. -/
  bytes : Vector Byte 32
  /-- BLEFT of each chainage (32 x 4 bits; 12 R333); reset 0. -/
  bleft : Vector (BitVec 4) 32
  /-- Last state request of each unit by NID, WLV_BFIELDc [23:16] (64 x 4 bits; 12 R333); reset 0. -/
  lastReq : Vector (BitVec 4) 64
  /-- EPREF of each unit as its last request gave it (64 bits; 12 Table 12.1); reset 0. -/
  reqPref : BitVec 64
  /-- One-shot requests to act on at the next cycle Traverse: NID and REQ (12 R332); reset none. -/
  oneshots : List (BitVec 6 × Byte)
  /-- SEQ recorded at each unit's last evaluation (64 x 1 + 8 bits; 12 R331); reset none. -/
  seqRec : Vector (Option Byte) 64
  /-- STAT = DATA and SEQ of each unit's standing waymark on a returned frame since the last cycle Traverse (12 R331);
  reset none. -/
  standing : Vector (Option Byte) 64
  /-- WLV_BFIELDc FITA, FITB by NID (64 bits; 12 R331); reset 0. -/
  fit : BitVec 64
  /-- WLV_REQQ (16 entries; 12 R334): NID and REQ; reset empty. -/
  reqq : List (BitVec 6 × Byte)
  /-- WLV_BCOMMIT.GO was written for the next cycle Traverse (1 bit; 12 R334); reset 0. -/
  bcommit : Bool
  /-- R333 was applied for the coming T0 because GO was not set (1 bit; 12 R334); reset 0. -/
  late : Bool
  /-- A collision was lost: no claim before the next latch instant (1 bit; 12 R336); reset 0. -/
  backoff : Bool
  /-- An IL_STANDBY unit claims (1 bit; 12 R339); reset 0. -/
  ilClaim : Bool
  /-- The byte last taken names this unit with LEASE of 1 or more, and the peer (2 bits; 12 R329, R346); reset 0. -/
  byteMe : Bool
  bytePeer : Bool
  /-- The grant last taken came over from a live peer: the drill checks follow its first mark (1 bit; 12 R344); reset 0. -/
  handover : Bool
  /-- LEFT was carried over a cut and the unit sends HOLDING (1 bit; 12 R349); reset 0. -/
  holding : Bool
  /-- PEERLOST's cause holds (1 bit; 12 Table 12.1); reset 0. -/
  peerLost : Bool
  /-- Chainages whose byte opens at the next evaluation (32 bits; 12 R333 steps 1 and 3); reset 0. -/
  openNext : BitVec 32
  /-- A returned frame since the last evaluation held a SEQ that counts for FIT (64 bits; 12 R331); reset 0. -/
  fitSeen : BitVec 64
  /-- The wayleave bytes of the last valid milestone received (32 x 8 bits; 12 R333); reset 0. -/
  heardBytes : Vector Byte 32
  deriving DecidableEq, Repr

/-! ### 13: DMA -/

/-- How far one side of a transfer has come (13 R358, R359). -/
structure DmaSide where
  /-- address of the next byte. -/
  addr : Word
  /-- bytes left in the current line or list pair. -/
  left : Nat
  /-- lines left after the current one. -/
  lines : Nat
  /-- start of the current line. -/
  base : Word
  /-- address of the next list pair, for a side with a list. -/
  list : Word
  /-- the current pair has END set. -/
  ended : Bool
  /-- word 0 of a list pair whose word 1 is still to be read. -/
  word0 : Option Word
  deriving DecidableEq, Repr

/-- A write beat issued and not answered: address, bytes written, whether it was refused, and the bytes a drop may bring
back, where its target is a memory (13 R366, R373). -/
structure DmaWr where
  addr : Word
  bytes : List Byte
  failed : Bool
  old : Option (List Byte)
  deriving DecidableEq, Repr

structure DmaCh where
  /-- DMA_CHSTAT.STATE (4 bits; 13 R374); reset IDLE. -/
  state : DmaState
  /-- DMA_CHSTAT.ERR (3 bits; 13 R372); reset 0. -/
  err : BitVec 3
  /-- DMA_CHSTAT.BROKEN (1 bit; 13 R363); reset 0. -/
  broken : Bool
  /-- DMA_CHSTAT.TRIGOVR (1 bit; 13 R364); reset 0. -/
  trigovr : Bool
  /-- DMA_CHSTAT.TRIGPEND (1 bit; 13 R364); reset 0. -/
  trigpend : Bool
  /-- DMA_CHSTAT.GOIGN (1 bit; 13 R362); reset 0. -/
  goign : Bool
  /-- DMA_CHSTAT.DESCS (16 bits; 13 R366); reset 0. -/
  descs : Half
  /-- DMA_CHCUR (32 bits; 13 Registers); reset 0. -/
  cur : Word
  /-- DMA_CHCNT (32 bits; 13 R367); reset 0. -/
  cnt : Word
  /-- DMA_CHSRC (32 bits; 13 R367); reset 0. -/
  src : Word
  /-- DMA_CHDST (32 bits; 13 R367); reset 0. -/
  dst : Word
  /-- DMA_CHERRADDR (32 bits; 13 R372); reset 0. -/
  erraddr : Word
  /-- The channel's copy of its descriptor (8 x 32 bits; 13 R356); reset 0. -/
  desc : Vector Word 8
  /-- Descriptor words fetched so far (4 bits; 13 R363); reset 0. -/
  fetched : Nat
  /-- Source and destination positions (13 R365); reset 0. -/
  s : DmaSide
  d : DmaSide
  /-- Bytes of the descriptor not read yet (24 bits; 13 R365); reset 0. -/
  toRead : Nat
  /-- Bytes of the current chunk not read yet (7 bits; 13 R365); reset 0. -/
  chunk : Nat
  /-- Holding buffer, bytes read and not written (64 bytes; 13 R365); reset empty. -/
  buf : List Byte
  /-- Holding buffer as it reads, the last chunk in stream order (64 bytes; 13 Registers); reset: DESIGN CHOICE 0, log 11. -/
  shown : List Byte
  /-- Write beats issued and not answered, oldest first (13 R366); reset none. -/
  outst : List DmaWr
  deriving DecidableEq, Repr

structure Dma where
  /-- Channels 0 to 31 (13); reset each as its own fields. -/
  ch : Vector DmaCh 32
  /-- DMA_ERRSUM (32 bits; 13 Registers); reset 0. -/
  errsum : Word
  /-- The channel last granted at each priority, and whether it has issued the last write beat of its chunk (4 x 6 bits;
  13 R370); reset none. -/
  grant : Vector (Option (Fin 32 × Bool)) 4
  /-- The channel of the last beat, SP_TRACE6 (1 + 5 bits; 02 Table 2.4); reset none. -/
  last : Option (Fin 32)
  deriving DecidableEq, Repr

/-! ### 14: Causeway -/

/-- An entry of the posted-write buffer (14 R384). -/
structure CwyEntry where
  win : Fin 16
  remote : Bool
  nid : BitVec 6
  /-- word-aligned deep address. -/
  addr : Word
  be : BitVec 4
  data : Word
  /-- part of a frame in flight. -/
  inFrame : Bool
  deriving DecidableEq, Repr

/-- A host access with CWY_WCTLw and CWY_WBASEw as they stood when its ALE fell, which settle its target (14 R378,
Registers). -/
structure HostAcc where
  h : HostAddr
  ctl : Word
  base : Word
  deriving DecidableEq, Repr

/-- One window's own state (14 R382, R387). -/
structure CwyWin where
  /-- Held low half: its access and its value (14 R382); reset none. -/
  held : Option (HostAcc × Half)
  /-- Shadow of the high half and the word it belongs to (14 R382); reset none. -/
  shadow : Option (Word × Half)
  /-- Records of the frame in flight, and whether its transmit result 0b00 has come (14 R387, R390); reset none. -/
  flight : Option (List CwyEntry × Bool)
  /-- FSEQ of the next frame (16 bits; 14 R387); reset 0. -/
  fseq : Half
  deriving DecidableEq, Repr

/-- An entry of the Causeway log (14 Registers, CWY_LOG0 to 3). -/
structure CwyLog where
  w0 : Word
  w1 : Word
  w2 : Word
  w3 : Word
  deriving DecidableEq, Repr

structure Cwy where
  /-- Posted-write buffer (32 entries; 14 R384); reset empty. -/
  buf : List CwyEntry
  /-- Windows 0 to 15 (14); reset each as its own fields. -/
  wins : Vector CwyWin 16
  /-- Error log (16 entries; 14 R396); reset empty. -/
  log : List CwyLog
  /-- CWY_LOG1 to 3 as latched (3 x 32 bits; 14 R396); reset 0. -/
  latched : CwyLog
  /-- CWY_STAT.LOST and DISC (8 + 8 bits; 14 Registers); reset 0. -/
  lost : Byte
  disc : Byte
  /-- WAIT_N is asserted, for this access (14 R375): a read or a write with its data; reset none. -/
  waiting : Option (HostAcc × Option (Half × BitVec 2))
  /-- WRITE frames received and not worked off, oldest first, each its header and payload (4 frames; 14 R389); reset empty. -/
  farq : List (List Byte)
  /-- CWY_FARSTAT (16 + 16 bits; 14 Registers); reset 0. -/
  farFrames : Half
  farErrs : Half
  deriving DecidableEq, Repr

/-! ### 15: memory, gates, queues -/

/-- A gate (15 R416): its owner's code, 0x00 when FREE, and BROKEN. -/
structure Gate where
  owner : Byte
  broken : Bool
  deriving DecidableEq, Repr

/-- A hardware queue (15 R423). -/
structure HwQueue where
  items : List Word
  refused : Half
  deriving DecidableEq, Repr

/-- An entry of the memory error log (15 Table 15.2). -/
structure MemLog where
  w0 : Word
  w1 : Word
  w2 : Word
  w3 : Word
  deriving DecidableEq, Repr

structure MemBlk where
  /-- Every byte of the deep map's memories that differs from what an unlisted address reads as (00 R11): flash banks,
  SRAM, instance memory, waymark banks, cell buffer, Lane buffers, track mask; reset none listed. -/
  cells : List Host.Cell
  /-- SECDED words whose check bits do not fit their data (7 check bits a word; 15 R400, R402), by word address; reset none. -/
  errs : List (Nat × WordErr)
  /-- Parity-buffer bytes whose parity is wrong (1 bit a byte; 15 R406), by address; reset none. -/
  badpar : List Nat
  /-- MEM_ECNT.CE and UE (16 + 16 bits; 15 R401); reset 0. -/
  ce : Half
  ue : Half
  /-- Error log (16 entries; 15 R409); reset empty. -/
  log : List MemLog
  /-- MEM_ELOG1 to 3 as latched (3 x 32 bits; 15 R409); reset 0. -/
  latched : MemLog
  /-- MEM_ESTAT.LOST (8 bits; 15 R409); reset 0. -/
  lost : Byte
  /-- MEM_SCRUBPOS (32 bits; 15 R407); reset 0x1000_0000. -/
  scrubPos : Word
  /-- The range of MEM_SCRUBRNG being walked in host-assisted mode (2 bits; 15 R408); reset 0. -/
  scrubRng : BitVec 2
  /-- MEM_SCRUBPASS (32 bits; 15 R407); reset 0. -/
  scrubPass : Word
  /-- Flash operation in progress in bank A and bank B: none, a program, or the erase of a sector (15 R411, R412); reset none. -/
  busyA : Option (Option (BitVec 10))
  busyB : Option (Option (BitVec 10))
  /-- MEM_FRESULT and MEM_FRESULT2 (32 + 4 bits; 15 R411); reset 0. -/
  fresult : Word
  fresult2 : BitVec 4
  /-- MEM_WEARs of the sectors erased so far (16 bits each; 15 R413); reset: DESIGN CHOICE 0, see log 12. -/
  wear : List (Nat × Nat)
  /-- Sectors with the record of an abandoned erase (1024 bits; 15 R413); reset none. -/
  abandoned : List Nat
  /-- Gates 0 to 31 (15 R416); reset FREE, BROKEN clear. -/
  gates : Vector Gate 32
  /-- Queues 0 to 15 (16 x 16 x 32 bits; 15 R423); reset empty. -/
  queues : Vector HwQueue 16
  /-- GATE_QMYSTAT, one copy a requester, by code (32 bits each; 15 R423); reset 0. -/
  mystat : List (Nat × Word)
  /-- Saves found at boot: SSEQ and slot of the newest (15 R415); reset none. -/
  newestSave : Option (Word × Bool)
  /-- Sectors of save slots still to be erased in the background (up to 4; 15 R415); reset none. -/
  saveErase : List Nat
  /-- A save is in hand: the slot it writes, if one was erased at detection (15 R415); reset none. -/
  saving : Option (Option Bool)
  deriving DecidableEq, Repr

/-! ### 16: boot, JTAG -/

/-- An OTP key slot (16 R429). -/
structure OtpKey where
  programmed : Bool
  revoked : Bool
  hash : BitVec 256
  deriving DecidableEq, Repr

structure Boot where
  /-- How far the boot ROM has come (16 R433); reset: boot ROM. -/
  phase : BootPhase
  /-- BOOT_STAT: FALLBACK, SBANK, CBANK, CVALID (4 bits; 16 Registers); reset 0. -/
  fallback : Bool
  sbank : Bool
  cbank : Bool
  cvalid : Bool
  /-- BOOT_STAT: VERDA, VERDB, CVERDA, CVERDB (4 x 4 bits; 16 Registers); reset 7 each. -/
  verdA : BitVec 4
  verdB : BitVec 4
  cverdA : BitVec 4
  cverdB : BitVec 4
  /-- BOOT_STAT.SKIPPED (8 bits; 16 R434); reset 0. -/
  skipped : Byte
  /-- BOOT_HS.HSST and HSRT (2 bits; 16 R430, R431); reset 0. -/
  hsst : Bool
  hsrt : Bool
  /-- BOOT_IFST (24 bits; 16 R433); reset 0. -/
  ifst : Word
  /-- BOOT_IFRT (24 bits; 16 R433); reset 0. -/
  ifrt : Word
  /-- BOOT_RTVER (32 bits; 16 R432); reset 0. -/
  rtver : Word
  /-- BOOT_PSLOT: VERDA, VERDB (8 bits; 16 R435); reset 7 each. -/
  pverdA : BitVec 4
  pverdB : BitVec 4
  /-- BOOT_PSLOT: VALIDA, VALIDB (2 bits; 16 R435); reset 0. -/
  validA : Bool
  validB : Bool
  /-- BOOT_VERIFY.BUSY with its TARGET (1 + 2 bits; 16 R435); reset none. -/
  verifying : Option (BitVec 2)
  /-- BOOT_VERIFY.RESULT (4 bits; 16 Registers); reset 7. -/
  vresult : BitVec 4
  /-- The bank the running steward executes from, if one runs (1 + 1 bits; 16 R427); reset none. -/
  steward : Option Bool
  /-- The OTP slot that verified the running steward (2 bits; 16 R429); reset none. -/
  stewardKey : Option (Fin 4)
  /-- The bank a P4 reset checks (1 bit; 16 Table 16.7); reset 0. -/
  reloadBank : Bool
  /-- BOOT_SWDCNT (32 bits; 16 R442); reset 0. -/
  swdcnt : Word
  /-- Steward watchdog expiries, their local times (16 R442); reset none. -/
  swdTimes : List Nat
  /-- The automatic RESET and REJOIN of P4 follow its quiesce: 0 none, 1 both, 2 none of them (16 R442); reset 0. -/
  autoP4 : BitVec 2
  /-- Local time at which the steward watchdog last started (64 bits; 16 R442); reset 0. -/
  swdStart : Dword
  /-- OTP key slots (4 x 258 bits; 16 R429); reset: DEDUCED unprogrammed (18 R468), see log 13. -/
  keys : Vector OtpKey 4
  /-- JTAG instruction register (5 bits; 16 Table 16.9); reset IDCODE. -/
  ir : BitVec 5
  /-- Boundary register, shift stage and update latch (2 x 225 bits; 16 Table 16.9); reset: DESIGN CHOICE 0, see log 14. -/
  bsr : BitVec 225
  bsrUpd : BitVec 225
  /-- Bypass register (1 bit; 16 R444); reset 0. -/
  byp : Bool
  /-- EXTEST drives the pins (1 bit; 16 R445); reset 0. -/
  extest : Bool
  /-- Sticky DMI error of DTMCS (2 bits; 16 R446); reset 0. -/
  dmistat : BitVec 2
  /-- The last DMI operation answered status 2 (1 bit; 16 R446); reset 0. -/
  opFailed : Bool
  /-- Program buffer of each hart (2 x 2 x 32 bits; 16 R446); reset: DESIGN CHOICE 0, see log 14. -/
  progbuf : Vector Word 4
  deriving DecidableEq, Repr

/-! ### The whole state -/

structure State where
  /-- Registers that hold what was written to them, by deep-map address (242 register rows of the manual; the list is
  canonical: addresses rising, no entry equal to the register's reset value); reset none listed. -/
  regs : List (Nat × Word)
  /-- 03, 01, 16: pins, resets, clocks, supplies, roles, partitions. -/
  sys : Sys
  /-- 02: service port. -/
  sp : Sp
  /-- 08: event controller. -/
  evt : Evt
  /-- 08: counters and cairns of ports 0 to 7 (A1, A2, B1, B2, Open Road, E0, E1, Lane). -/
  cnt : Vector CntPort 8
  /-- 08: Field Book. -/
  fbk : Fbk
  /-- 04: line ports and tone maps. -/
  liu : Liu
  /-- 05: survey. -/
  svy : Svy
  /-- 06: Traverse, table and time. -/
  tre : Tre
  /-- 07: Open Road. -/
  road : Road
  /-- 07: Ethernet. -/
  eth : Eth
  /-- 09: control cycle. -/
  ctl : Ctl
  /-- 10: itinerary sequencer. -/
  itn : Itn
  /-- 11: Lane. -/
  lane : Lane
  /-- 12: wayleave and interlock. -/
  wlv : Wlv
  /-- 13: DMA engine. -/
  dma : Dma
  /-- 14: Causeway. -/
  cwy : Cwy
  /-- 15: memories, gates, queues. -/
  mem : MemBlk
  /-- 16: boot, images, JTAG. -/
  boot : Boot
  /-- The model's own: counter of free values taken, which no statement may rest on; reset 0, DESIGN CHOICE, see log 1. -/
  free : Nat
  /-- The model's own: what the node has sent, in order; reset empty, DESIGN CHOICE, see log 2. -/
  out : List Output
  /-- The model's own: commands waiting, first in first out; reset empty. -/
  pending : List Instr
  deriving DecidableEq, Repr

/-! ### Reset -/

def Port.reset : Port where
  state := .silent
  jam := false
  rxlvl := 0
  levels := []
  busyTo := none
  erps := 0
  erNow := 0
  erSec := 0
  txact := false
  txEnd := none
  txFrom := none
  enabled := true
  heard := false
  snrSum := []
  snrCount := 0
  tsrx := 0
  tstx := 0
  tsrxSh := none
  tstxSh := none
  notches := Vector.replicate 8 none
  slots := Vector.replicate 8 []
  stmi := 15
  kept := false
  nextMap := none
  announced := none
  pending := none
  reports := []
  lastReport := none

def CntPort.reset : CntPort where
  ctr := Vector.replicate 48 0
  hpend := 0
  hovr := 0
  bank := ⟨Vector.replicate 48 0, 0, 0, 0, false⟩
  busy := none
  busyAt := 0
  held := none

def RoadPort.reset : RoadPort := ⟨.idle, [], none, 0, 0, [], [], 0, none, (0, 0)⟩

def EthPort.reset : EthPort where
  up := false
  fd := false
  s100 := false
  andone := false
  mdio := none
  queue := []
  sending := none
  held := []
  macPaused := false
  pfcPaused := 0
  pfcSent := 0
  quanta := Vector.replicate 8 0

def DmaCh.reset : DmaCh where
  state := .idle
  err := 0
  broken := false
  trigovr := false
  trigpend := false
  goign := false
  descs := 0
  cur := 0
  cnt := 0
  src := 0
  dst := 0
  erraddr := 0
  desc := Vector.replicate 8 0
  fetched := 0
  s := ⟨0, 0, 0, 0, 0, false, none⟩
  d := ⟨0, 0, 0, 0, 0, false, none⟩
  toRead := 0
  chunk := 0
  buf := []
  shown := []
  outst := []

def HartState.reset : HartState := ⟨true, false, false, 0, Vector.replicate 32 0, 0, 0, []⟩

def Sys.reset : Sys where
  straps := ⟨false, false, false, false, 0⟩
  resetN := true
  test := false
  cabAct := false
  cabdb := false
  peerOwnN := true
  ownOutN := true
  peerHb := false
  rstcause := 1
  heldCause := 0
  phase := .running
  xok := false
  pllok := false
  refok := false
  clkFault := false
  clkWaiting := false
  resetWaiting := 0
  senseMv := 800
  vsupMv := 3300
  vcoreMv := 1000
  vioMv := Vector.replicate 4 3300
  temp := 50
  vehOff := false
  veh := 0
  vehState := .normal
  rides := 0
  nLow := 0
  nHigh := 0
  nNotHigh := 0
  nResume := 0
  nNotResume := 0
  resumed := false
  splitAct := 0
  splitDiff := 0
  parts := Vector.replicate 6 .inService
  cmdref := false
  spFault := 0
  roleShown := 0
  faultBefore := 0
  netrole := .isolated
  rank := 0
  thru := false
  thruNext := false
  turned := false
  turnNext := false
  thruGive := false

def Sp.reset : Sp where
  image := List.replicate 64 0
  open_ := false
  lost := false
  status := 7
  last := 7
  alert := 0x1000
  alertMask := 0
  ctl := 4
  daddr := 0
  ddata := 0
  dctl := 0x2400
  busy := false
  done := false
  err := 0
  count := 0
  walk := false
  walkEntering := false
  pend := false
  until_ := 0
  met := false
  walkSteps := 1
  trace7 := 0
  keyFirst := false
  keyOpen := false
  keyLeft := 0
  fbSeq := 0
  fbPtr := none
  fbWord := 0
  fbEnd := false
  fbGap := false
  scratch := 0
  gaugeConv := Vector.replicate 2 0
  gaugeHeld := Vector.replicate 2 0

def Fbk.reset : Fbk where
  queue := []
  dropped := 0
  lost := 0
  folds := []
  eraseWait := []
  wipe := none
  restored := []
  retired := 0
  full := false
  raw := Vector.replicate 8 0

def Liu.reset : Liu := ⟨Vector.replicate 4 Port.reset, Vector.replicate 4 [], 15, none, [], false⟩

def Svy.reset : Svy where
  state := .idle
  cause := 0
  attempt := 0
  surveyor := false
  dupunit := false
  hostwait := false
  surveys := 0
  prevep := 0
  epoch := 0
  nid := none
  chain := 0
  cars := 0
  orient := false
  uid := 1
  health := 0
  healthRows := 0
  chaintab := Vector.replicate 32 0
  nidtab := Vector.replicate 64 0
  tally := []
  current := none
  full := false
  fullNext := false
  initiator := false
  trigger := none
  records := []
  hold := none
  recv := none
  walk := none
  colls := 0
  peer := none
  result := none
  confirm := 0
  split := 0
  cfg := 0x03441014
  tim := 0x80640564
  decChain := Vector.replicate 32 0
  decNid := Vector.replicate 64 0
  deferred := []
  window := none
  lead := none
  until_ := 0
  epochSid := 0
  joined := false
  heres := []
  joins := 0
  watch := none
  watchAt := 0
  watchLive := false
  taken := false

def Tre.reset : Tre where
  time := 0
  rate := 0
  slewLeft := 0
  frac := 0
  timeSh := none
  tcount := 0
  mtime := 0
  per := 0x40
  cratio := 0
  latofs := 0
  latUsed := none
  roadofs := 0xC
  eff := 0
  sync := .free
  good := 0
  bad := 0
  mutes := 0
  offset := 0
  hopdly := 0
  rdly := 0
  closeFail := 0
  closeGood := 0
  closed := false
  commit := false
  seq := 0
  tabseq := 0
  tabok := false
  table := []
  tableNext := none
  tableReq := false
  rxok := 0
  frzok := 0
  liveok := 0
  livecover := 0
  livemute := 0
  muteSeen := false
  claims := []
  decls := []
  design := none
  claimTries := 0
  edits := []
  lastEdit := none
  editNext := none
  cover := false
  covered := false
  coverNext := none
  leadin := false
  take := false
  missed := 0
  got := false
  bench := 0
  standDown := false
  enabled := true
  passOpen := false
  tableSent := false
  lastRet := none
  closeSeen := false
  ringDelay := none
  effRaised := false
  tmi := 15
  lastLatch := none
  localT0s := 0
  heardMil := false

def Road.reset : Road where
  open_ := false
  o := 0
  ports := Vector.replicate 4 RoadPort.reset
  wins := Vector.replicate 64 ⟨false, 0, 0⟩
  seq := 0
  txrp := 0
  txpend := []
  rxwp := Vector.replicate 16 0
  pingDone := false
  pingFail := false
  pingRtt := 0
  pingAt := none

def Eth.reset : Eth :=
  ⟨Vector.replicate 2 EthPort.reset, Vector.replicate 256 ⟨false, false, 0, 0, 0, 0⟩, [], 0, 0⟩

def Ctl.reset : Ctl where
  pstate := .none
  initrsn := 0
  slotrun := false
  stopReq := false
  warmLoad := false
  retained := none
  running := false
  waiting := false
  sinceOwn := 0
  overran := false
  prevOver := false
  first := false
  cycnt := 0
  skipped := 0
  overruns := 0
  maxus := 0
  lastus := 0
  ltime := 0
  ltimeSh := none
  errcause := 0
  pendcause := 0
  prevEpoch := 0
  prevFree := false
  fault := 0
  faultarg := 0
  native := false
  itin := false
  entryInit := 0
  entryCycle := 0
  entryError := 0
  gpval := 0
  stacktop := 0
  inError := false
  keepOut := false
  committed := false
  returned := false
  cyccfg := 0x04141400
  pmp := []
  hartC := HartState.reset
  hartS := HartState.reset

def Itn.reset : Itn where
  table := []
  erridx := 0
  seq := .idle
  idx := 0
  at_ := none
  wcyc := 0
  passcyc := 0
  skipped := 0
  ran := 0
  sat := false
  divz := false
  first := 0
  count := 0
  passSat := false
  satfault := false
  prevtc := 0
  firstPass := true
  sizes := []

def Lane.reset : Lane where
  state := .off
  enabled := false
  stopping := false
  marked := false
  subHand := false
  perm := false
  cnt := 0
  latches := 0
  turnNext := none
  pass := none
  released := false
  accepted := 0
  inputs := []
  miss := 0
  present := 0
  drop := 0
  go := false
  subWait := false
  subWritten := 0
  configured := 0
  rng := Vector.replicate 32 0xFFFFFFFF
  id := Vector.replicate 32 0
  rtt1 := Vector.replicate 32 none
  rtt2 := Vector.replicate 32 none
  flat := Vector.replicate 32 0
  step := 0
  heardCfg := 0
  heardOut := 0
  delivered := false
  loss := Vector.replicate 2 true
  traceSlot := 0
  tracePhase := 0

def Wlv.reset : Wlv where
  state := .idle
  il := false
  hbok := false
  hbRun := 0
  pulses := 0
  peerPref := false
  hbRuns := false
  mlost := 0
  left := 0
  held := false
  renewed := false
  seen := false
  takenAt := none
  byte := 0
  claimed := false
  peerClear := true
  clearRun := 0
  mism := 0
  cmp := 0
  mismRun := 0
  trkdiff := 0
  drillRes := 0
  drills := 0
  drillWait := none
  drillCheck := none
  rev := 0
  revNs := 0
  revrdy := false
  ovr := false
  takeovers := 0
  switchLen := 0
  sinceMark := 0
  asked := 0
  askState := .idle
  askedAgo := 0
  shots := []
  told := false
  bytes := Vector.replicate 32 0
  bleft := Vector.replicate 32 0
  lastReq := Vector.replicate 64 0
  reqPref := 0
  oneshots := []
  seqRec := Vector.replicate 64 none
  standing := Vector.replicate 64 none
  fit := 0
  reqq := []
  bcommit := false
  late := false
  backoff := false
  ilClaim := false
  byteMe := false
  bytePeer := false
  handover := false
  holding := false
  peerLost := false
  openNext := 0
  fitSeen := 0
  heardBytes := Vector.replicate 32 0

def Dma.reset : Dma := ⟨Vector.replicate 32 DmaCh.reset, 0, Vector.replicate 4 none, none⟩

def Cwy.reset : Cwy where
  buf := []
  wins := Vector.replicate 16 ⟨none, none, none, 0⟩
  log := []
  latched := ⟨0, 0, 0, 0⟩
  lost := 0
  disc := 0
  waiting := none
  farq := []
  farFrames := 0
  farErrs := 0

def MemBlk.reset : MemBlk where
  cells := []
  errs := []
  badpar := []
  ce := 0
  ue := 0
  log := []
  latched := ⟨0, 0, 0, 0⟩
  lost := 0
  scrubPos := 0x10000000
  scrubRng := 0
  scrubPass := 0
  busyA := none
  busyB := none
  fresult := 0
  fresult2 := 0
  wear := []
  abandoned := []
  gates := Vector.replicate 32 ⟨0, false⟩
  queues := Vector.replicate 16 ⟨[], 0⟩
  mystat := []
  newestSave := none
  saveErase := []
  saving := none

def Boot.reset : Boot where
  phase := .rom
  fallback := false
  sbank := false
  cbank := false
  cvalid := false
  verdA := 7
  verdB := 7
  cverdA := 7
  cverdB := 7
  skipped := 0
  hsst := false
  hsrt := false
  ifst := 0
  ifrt := 0
  rtver := 0
  pverdA := 7
  pverdB := 7
  validA := false
  validB := false
  verifying := none
  vresult := 7
  steward := none
  stewardKey := none
  reloadBank := false
  swdcnt := 0
  swdTimes := []
  autoP4 := 0
  swdStart := 0
  keys := Vector.replicate 4 ⟨false, false, 0⟩
  ir := 2
  bsr := 0
  bsrUpd := 0
  byp := false
  extest := false
  dmistat := 0
  opFailed := false
  progbuf := Vector.replicate 4 0

/-- The node right after a power-on reset: every register at its reset value, the internal reset released and the boot
ROM at its start (03 R78, R80). -/
def State.reset : State where
  regs := []
  sys := Sys.reset
  sp := Sp.reset
  evt := ⟨0, 0, 0, 0, none, none⟩
  cnt := Vector.replicate 8 CntPort.reset
  fbk := Fbk.reset
  liu := Liu.reset
  svy := Svy.reset
  tre := Tre.reset
  road := Road.reset
  eth := Eth.reset
  ctl := Ctl.reset
  itn := Itn.reset
  lane := Lane.reset
  wlv := Wlv.reset
  dma := Dma.reset
  cwy := Cwy.reset
  mem := MemBlk.reset
  boot := Boot.reset
  free := 0
  out := []
  pending := []

end Sys2Proof.Machine
end

