-- ==== Sys2Proof/Machine/Ops.lean ====
section
/-! DEFINITION. The named operations on the state's plain parts: lists keyed by rising numbers, bit fields, the stored
registers, the bytes of the memories, outputs and free values. -/
namespace Sys2Proof.Machine

/-- What a meaning answers. -/
abbrev Result := Host.Outcome State Fault Refusal

/-! ### Lists keyed by rising numbers, with a default that is never listed -/

/-- The value at a key. -/
def sget {α : Type} (d : Nat → α) : List (Nat × α) → Nat → α
  | [], k => d k
  | (a, v) :: t, k => if a = k then v else sget d t k

/-- Put an entry in its place by its key. -/
def sins {α : Type} (k : Nat) (v : α) : List (Nat × α) → List (Nat × α)
  | [] => [(k, v)]
  | (a, w) :: t => if k < a then (k, v) :: (a, w) :: t else (a, w) :: sins k v t

/-- Set the value at a key. -/
def sput {α : Type} [DecidableEq α] (d : Nat → α) (l : List (Nat × α)) (k : Nat) (v : α) : List (Nat × α) :=
  let rest := l.filter fun c => decide (c.1 ≠ k)
  if v = d k then rest else sins k v rest

/-- Keys are at least n and strictly rising, and no entry equals the default. -/
def swf {α : Type} [DecidableEq α] (d : Nat → α) (n : Nat) : List (Nat × α) → Bool
  | [] => true
  | (a, v) :: t => decide (n ≤ a) && decide (v ≠ d a) && swf d (a + 1) t

/-! ### Bit fields (00 R2) -/

/-- The field of n bits whose lowest bit is lo. -/
def fld {w : Nat} (x : BitVec w) (lo n : Nat) : Nat := x.toNat / 2 ^ lo % 2 ^ n

/-- A word put together from fields: lowest bit and value of each. -/
def packW (fs : List (Nat × Nat)) : Word := BitVec.ofNat 32 (fs.foldl (fun a f => a + f.2 * 2 ^ f.1) 0)

/-- A halfword put together from fields. -/
def packH (fs : List (Nat × Nat)) : Half := BitVec.ofNat 16 (fs.foldl (fun a f => a + f.2 * 2 ^ f.1) 0)

/-- x with bit i set. -/
def setBit {w : Nat} (x : BitVec w) (i : Nat) : BitVec w := x ||| BitVec.ofNat w (2 ^ i)

/-- x with bit i clear. -/
def clrBit {w : Nat} (x : BitVec w) (i : Nat) : BitVec w := x &&& ~~~ BitVec.ofNat w (2 ^ i)

/-- x with bit i equal to b. -/
def putBit {w : Nat} (x : BitVec w) (i : Nat) (b : Bool) : BitVec w := if b then setBit x i else clrBit x i

/-- The bits set in x, lowest first. -/
def bitsOf {w : Nat} (x : BitVec w) : List Nat := (List.range w).filter x.getLsbD

/-- A saturating count as n bits hold it. -/
def sat (n v : Nat) : Nat := min v (2 ^ n - 1)

/-- Byte lanes of a word as a bit mask (00 R471, R472). -/
def laneMask (be : BitVec 4) : Word :=
  [0, 1, 2, 3].foldl (fun m i => if be.getLsbD i then m ||| (0xFF#32 <<< (8 * i)) else m) 0#32

/-- A number brought into a range: a field outside it acts as the nearest end (07 Table 7.8). -/
def clampN (lo hi v : Nat) : Nat := max lo (min hi v)

/-! ### Local time (04 R133) -/

/-- A local time is still to come. -/
def State.before (s : State) (t : Dword) : Bool := decide (t ≠ s.tre.time) && !(t - s.tre.time).msb

/-- A local time has come. -/
def State.reached (s : State) (t : Dword) : Bool := !(s.tre.time - t).msb

/-- Nanoseconds since a local time. -/
def State.since (s : State) (t : Dword) : Nat := (s.tre.time - t).toNat

/-- The Traverse period of the ring in force, in ns (06 R168, R170). -/
def State.periodNs (s : State) : Nat := 250000 * clampN 8 2048 s.tre.per.toNat

/-- The next predicted T0 in local time (06 R197). -/
def State.nextT0 (s : State) : Dword := s.tre.mtime + BitVec.ofNat 64 s.periodNs

/-! ### Steps under a condition -/

/-- f where b holds. -/
def State.when (s : State) (b : Bool) (f : State → State) : State := if b then f s else s

/-- f over a list, in order. -/
def State.each {α : Type} (s : State) (l : List α) (f : α → State → State) : State := l.foldl (fun t x => f x t) s

/-- The numbers below n as Fin. -/
def fins (n : Nat) : List (Fin n) := (List.range n).filterMap fun i => if h : i < n then some ⟨i, h⟩ else none

/-- Change one element of a vector. -/
def upd {α : Type} {n : Nat} (v : Vector α n) (i : Fin n) (f : α → α) : Vector α n := v.set i (f (v.get i))

/-- The i-th element of a vector of n, the last where i is too great. -/
def vget {α : Type} [Inhabited α] {n : Nat} (v : Vector α n) (i : Nat) : α := v.getD i default

/-- Set the i-th element of a vector; nothing where there is none. -/
def vset {α : Type} {n : Nat} (v : Vector α n) (i : Nat) (x : α) : Vector α n :=
  if h : i < n then v.set i x h else v

/-- The vector whose i-th element is f i. -/
def vmk {α : Type} {n : Nat} (d : α) (f : Fin n → α) : Vector α n :=
  (fins n).foldl (fun v i => v.set i.val (f i) i.isLt) (Vector.replicate n d)

/-! ### Stored registers -/

/-- What a register that holds what was written to it holds. -/
def State.reg (s : State) (a : Nat) : Word := sget regReset s.regs a

/-- Set the stored bits of a register. -/
def State.setReg (a : Nat) (v : Word) (s : State) : State := { s with regs := sput regReset s.regs a (v &&& regMask a) }

/-- A bit of a stored register. -/
def State.regBit (s : State) (a i : Nat) : Bool := (s.reg a).getLsbD i

/-- A field of a stored register. -/
def State.regFld (s : State) (a lo n : Nat) : Nat := fld (s.reg a) lo n

/-- An array of 32-bit registers as one bit string, one bit of it. -/
def State.regArrBit (s : State) (base n : Nat) : Bool := s.regBit (Reg.at base (n / 32)) (n % 32)

/-! ### Bytes of the memories -/

/-- What a byte of memory that is not listed reads as: an erased byte of flash, and 0 elsewhere (15 R405, R412). Log 3. -/
def Memory.unlisted (a : Nat) : Byte := if a < 0x00400000 then 0xFF else 0

/-- The memory is in its canonical form. -/
def Memory.wf (m : List Host.Cell) : Bool := swf Memory.unlisted 0 m

/-- A byte of memory as stored. -/
def State.byte (s : State) (a : Nat) : Byte := sget Memory.unlisted s.mem.cells a

/-- Store a byte of memory. -/
def State.setByte (a : Nat) (v : Byte) (s : State) : State :=
  { s with mem.cells := sput Memory.unlisted s.mem.cells a v }

/-- Store bytes from an address up. -/
def State.setBytes (a : Nat) : List Byte → State → State
  | [], s => s
  | b :: t, s => (s.setByte a b).setBytes (a + 1) t

/-- n bytes from an address up, as stored. -/
def State.bytesAt (s : State) (a n : Nat) : List Byte := (List.range n).map fun i => s.byte (a + i)

/-- A word of memory as stored, little-endian (00 R4). -/
def State.wordAt (s : State) (a : Nat) : Word := BitVec.ofNat 32 (ofLe (s.bytesAt a 4))

/-! ### Outputs and free values -/

/-- Append to the record of what the node sends. -/
def State.emit (o : Output) (s : State) : State := { s with out := s.out ++ [o] }

/-- The next free value; `took` moves past it. -/
def State.draw (s : State) : Nat := Config.freeNat s.free

/-- One free value has been taken. -/
def State.took (s : State) : State := { s with free := s.free + 1 }

/-- The next free value as a Boolean. -/
def State.drawBool (s : State) : Bool := decide (s.draw % 2 = 1)

end Sys2Proof.Machine
end

