-- ==== Sys2Proof/Machine/Views.lean ====
section
/-! DEFINITION. What the node reports of itself: roles, state code, links, and the pin levels that follow from its state. -/
namespace Sys2Proof.Machine

/-- Car role (12 Table 12.3, last column; R347 under ARB_OVERRIDE). -/
def State.carRole (s : State) : Nat :=
  match s.wlv.state with
  | .active | .handoff => 1
  | .ilActive => 2
  | .blocked => if s.wlv.ovr then 1 else 3
  | _ => 0

/-- The unit is in a state in which it drives (12 Table 12.3, R347). -/
def State.driving (s : State) : Bool := decide (s.carRole = 1) || decide (s.carRole = 2)

/-- Tracking mode: the program runs and its outputs do not drive the Lane (12 R335, 09 R264). -/
def State.track (s : State) : Bool := decide (s.ctl.pstate = .run) && !s.driving

/-- The network role as its code (01 Table 1.3). -/
def NetRole.code : NetRole → Nat
  | .isolated => 0 | .member => 1 | .backup => 2 | .benchmark => 3

/-- The roles as they stand; SYS_ROLE shows them from the next T0 on (01 R26, Table 1.3). -/
def State.roleNow (s : State) : Half :=
  packH [(13, (decide (s.boot.phase = .limp)).toNat), (12, s.track.toNat), (10, s.carRole), (8, s.sys.netrole.code),
    (7, s.sys.thru.toNat), (0, if s.sys.netrole = .backup then s.sys.rank.toNat else 0)]

/-- Port state code (04 Table 4.10). -/
def PortState.code : PortState → Nat
  | .silent => 0 | .carrier => 1 | .locked => 2 | .dead => 3

/-- Synchronisation state code (06 Table 6.7). -/
def SyncState.code : SyncState → Nat
  | .free => 0 | .acq => 1 | .locked => 2 | .muted => 3

/-- The node has an epoch (00 R14: the epoch is never 0 when there is one, 05 R158). -/
def State.hasEpoch (s : State) : Bool := decide (s.svy.epoch ≠ 0)

/-- The latch free-runs: FREE or MUTED while the node has an epoch (06 R196). -/
def State.latchFree (s : State) : Bool :=
  s.hasEpoch && (decide (s.tre.sync = .free) || decide (s.tre.sync = .muted))

/-- The core domain has its clock: outside Walk mode always, in Walk mode while a step is armed that its UNTIL condition has not
ended (02 R61, R62). The commands that stand for what the core domain does by itself act only then (log 188). -/
def State.coreRuns (s : State) : Bool := !s.sp.walk || (s.sp.pend && !s.sp.met)

/-- A master can make an access: the cores and the DMA engine are clocked with the core domain; the Causeway, the service port
and the debug module act from outside it (02 R61, R62; log 188). -/
def State.masterRuns (s : State) : Master → Bool
  | .control | .controlU | .steward | .dma _ => s.coreRuns
  | .causeway | .service | .debug => true

/-- Every pin stands as in reset: before the boot ROM starts, and in a clock fault (03 R70, Table 3.3, R84). -/
def State.pinsReset (s : State) : Bool := decide (s.sys.phase ≠ .running) || s.sys.clkFault

/-- An I/O bank has its supply: at least 1.7 V, the least the spec gives one (03 R74; log 183). -/
def State.bankOn (s : State) (b : Fin 4) : Bool := decide (1700 ≤ (s.sys.vioMv.get b).toNat)

/-- A line's trap is held in circuit (01 R18; none with DUPUNIT, 05 R148, in Walk mode, 02 R60, and in a clock fault, 03
R84). -/
def State.trapHold (s : State) (lineB : Bool) : Bool :=
  let d (p : Fin 4) := decide ((s.liu.ports.get p).state = .dead)
  let p0 := s.sys.parts.get 0
  !s.pinsReset && !s.sp.walk && !s.sp.walkEntering && decide (p0 ≠ .quiesced) && decide (p0 ≠ .resetting) && decide (p0 ≠ .failed) &&
    !s.svy.dupunit && !(if lineB then d 2 && d 3 else d 0 && d 1)

/-- The level of PFAIL_N is low from SAVE until the next reset (03 R91, R94). -/
def State.pfail (s : State) : Bool := decide (s.sys.vehState = .save) || decide (s.sys.vehState = .hold)

/-- A port has a transmission in hand: one it makes, or one whose first sample is still to come (04 R135). -/
def State.txBusy (s : State) (p : Fin 4) : Bool :=
  let c := s.liu.ports.get p
  c.enabled && decide (c.state ≠ .dead) && (c.txact || c.txEnd.any s.before)

/-- A port's TXEN: high from 2 us before the first sample of its transmission to the last, low on a port that is disabled or
dead (04 R100, R132, R135). -/
def State.txen (s : State) (p : Fin 4) : Bool :=
  s.txBusy p && ((s.liu.ports.get p).txact || (s.liu.ports.get p).txFrom.all fun b => s.reached (b - 2000))

/-- The code of a port's 12-bit DAC while TXEN is low: mid-scale; while it is high the DAC follows the frame sent (04
R100). -/
def State.dacCode (s : State) (p : Fin 4) : Option Nat := if s.txen p then none else some 2048

/-- The interlock line of the partner is asserted (12 R326, active low). -/
def State.peerOwn (s : State) : Bool := !s.sys.peerOwnN

/-- SP_LINKS (02 Table 2.4). L1OK and L2OK: the Lane is on, and the port's receiver sees a signal (11 R305; log 110). -/
def State.links (s : State) : Half :=
  let p (i : Fin 4) := (s.liu.ports.get i).state.code
  packH [(15, (s.trapHold true).toNat), (14, (s.trapHold false).toNat),
    (13, (decide (s.lane.state ≠ .off) && !s.lane.loss.get 1).toNat),
    (12, (decide (s.lane.state ≠ .off) && !s.lane.loss.get 0).toNat),
    (11, (s.eth.ports.get 1).up.toNat), (10, (s.eth.ports.get 0).up.toNat),
    (6, p 3), (4, p 2), (2, p 1), (0, p 0)]

/-- A service partition is out of service (02 Table 2.10, code 12). -/
def State.partOut (s : State) : Bool := s.sys.parts.toList.any (· ≠ .inService)

/-- State code (02 Table 2.10, R66). Codes that overlap are taken in this order (log 111); a locked node whose program neither
runs nor stops shows 6 (log 206), an isolated one that hears a carrier 3 (log 207). -/
def State.stateCode (s : State) : Nat :=
  if s.pfail then 14
  else if s.sp.walk then 13
  else if s.partOut then 12
  else match s.boot.phase with
    | .rom => 0
    | .imageCheck => 1
    | .limp => 2
    | .done =>
      if s.tre.sync = .muted then 11
      else if s.wlv.state = .blocked ∧ ¬ s.wlv.ovr then 10
      else if s.carRole = 2 then 9
      else if s.tre.sync = .locked then
        if s.ctl.pstate = .run then (if s.carRole = 1 then 8 else 7) else 6
      else if s.sys.netrole ≠ .isolated then 5
      else if s.svy.state ≠ .idle then 4
      else 3

/-- Byte of epoch and the byte of NID with its valid bit (05 R158, 08 Table 8.3). -/
def State.nidByte (s : State) : Byte :=
  match s.svy.nid with
  | some n => 0x80#8 ||| n.setWidth 8
  | none => 0

/-- The NID as a number, 0 when the node has none. -/
def State.nidN (s : State) : Nat := (s.svy.nid.map BitVec.toNat).getD 0

/-- A unit's strap: unit B (03 Table 3.4). -/
def State.unitB (s : State) : Bool := s.sys.straps.unit

end Sys2Proof.Machine
end

