-- ==== Sys2Proof/Machine/LaneCode.lean ====
section
/-! DEFINITION. The line code of the Lane links: Manchester halves, J and K, delimiters, bit order, plain idle and loss of
signal (11 R304, R305, R309; 00 R5). -/
namespace Sys2Proof.Machine

/-- What a link carries in one bit time of 100 ns (11 R304). -/
inductive LaneSym where
  | d0 | d1 | j | k
  deriving DecidableEq, Repr

/-- The level of TXD in the first and in the second half of the bit time: true is high (11 R304). -/
def LaneSym.halves : LaneSym → List Bool
  | .d1 => [false, true]
  | .d0 => [true, false]
  | .j => [true, true]
  | .k => [false, false]

/-- SD starts a frame, ED ends it, AD starts an APPLY mark (11 R304). -/
def laneSd : List LaneSym := [.j, .k, .d1, .d0, .j, .k, .d0, .d0]
def laneEd : List LaneSym := [.j, .k, .d1, .d1, .j, .k, .d1, .d1]
def laneAd : List LaneSym := [.j, .j, .k, .k, .j, .j, .k, .k]

/-- A byte, least significant bit first (00 R5, 11 R304). -/
def laneByte (b : Byte) : List LaneSym := (List.range 8).map fun i => if b.getLsbD i then .d1 else .d0

/-- Bytes in order. -/
def laneBytes (l : List Byte) : List LaneSym := l.flatMap laneByte

/-- A frame on a link: SD, the bytes, the CRC-32 in line order, ED (11 The summation frame). -/
def laneFrameSyms (bytes : List Byte) (crc : Word) : List LaneSym :=
  laneSd ++ laneBytes (bytes ++ beBytes 4 crc.toNat) ++ laneEd

/-- An APPLY mark on a link: AD, then FLAGS, REM and the CRC-8 (11 R309). -/
def laneMarkSyms (bytes : List Byte) : List LaneSym := laneAd ++ laneBytes bytes

/-- TXD in half bit times of 50 ns while an output of the node goes out on a link. -/
def Output.laneLevels : Output → List Bool
  | .lane _ bytes crc => (laneFrameSyms bytes crc).flatMap LaneSym.halves
  | .laneMark _ bytes => (laneMarkSyms bytes).flatMap LaneSym.halves
  | _ => []

/-- TXD over one bit time between frames and marks: plain idle, continuous data bits 1; low in reset (11 R305, 03 Table
3.3). -/
def State.laneIdle (s : State) : List Bool := if s.pinsReset then [false, false] else LaneSym.d1.halves

/-- A receiver declares loss of signal: its input has shown no transition for 1.6 us, at either level (11 R305). -/
def signalLost (restNs : Nat) : Bool := decide (1600 ≤ restNs)

end Sys2Proof.Machine
end

