-- ==== Sys2Proof/Machine/Flags.lean ====
section
/-! DEFINITION. Events, alerts, counters, fault codes and the Field Book queue: what any block does when it reports
something (08 R235 to R252; 02 SP_FAULT). -/
namespace Sys2Proof.Machine

/-! ### DMA triggers (13 R364) -/

/-- A channel's control word. -/
def State.chctl (s : State) (n : Fin 32) : Word := s.reg (Reg.DMA_CHCTL + 0x20 * n.val)

/-- The channel latches this trigger: EN = 1 and the source is the one selected. -/
def trigSelects (w : Word) (t : TrigSource) : Bool :=
  w.getLsbD 0 && match t with
    | .event n => !w.getLsbD 17 && decide (fld w 8 8 = n.toNat)
    | .strobe n => w.getLsbD 17 && decide (fld w 8 8 = n.toNat) && decide (n.toNat ≤ 4)

/-- A trigger fires at a channel: TRIGWAIT consumes it, otherwise it is latched, or lost where one is latched already. -/
def DmaCh.trigger (c : DmaCh) : DmaCh :=
  if c.state = .trigwait then { c with state := .run }
  else if c.trigpend then { c with trigovr := true }
  else { c with trigpend := true }

/-- A source fires: every channel that selects it latches the trigger. -/
def State.dmaFire (t : TrigSource) (s : State) : State :=
  let hit (v : Vector DmaCh 32) (n : Fin 32) := if trigSelects (s.chctl n) t then upd v n DmaCh.trigger else v
  { s with dma.ch := (fins 32).foldl hit s.dma.ch }

/-! ### Field Book queue (08 R250, R251) -/

/-- A record of the present moment. -/
def State.fbRec (s : State) (type source : Byte) (data : Dword) : FbRec where
  type := type
  flags := if s.sp.walk then 4 else 0
  time := s.tre.time
  tcount := if s.hasEpoch then s.tre.tcount else 0
  epoch := s.svy.epoch
  nid := s.nidByte
  source := source
  repeat_ := 0
  data := data

/-- Queue a record; dropped and counted when the queue of 32 is full; nothing with FBK_CTL.EN = 0. -/
def State.fbQueue (r : FbRec) (s : State) : State :=
  if !s.regBit Reg.FBK_CTL 0 then s
  else if s.fbk.queue.length < 32 then { s with fbk.queue := s.fbk.queue ++ [r] }
  else { s with fbk.dropped := s.fbk.dropped + 1, fbk.lost := satSucc s.fbk.lost }

/-- DATA of an event record (08 Table 8.4). -/
def State.eventData (s : State) (n : Nat) : Dword :=
  let raw := s.evt.raw.toNat / 2 ^ (32 * (n / 32)) % 2 ^ 32
  BitVec.ofNat 64 (raw + s.sys.roleShown.toNat * 2 ^ 32 + s.tre.sync.code * 2 ^ 48 + (s.links.toNat % 256) * 2 ^ 56)

/-- Pass an event to the Field Book: a raise within RATE of the source's previous record is folded, and DATA kept as it is at
this raise (08 R251, Table 8.4; log 112). -/
def State.fbEvent (n : Nat) (s : State) : State :=
  let src := BitVec.ofNat 8 n
  if s.fbk.folds.any (fun f => f.1 == src) then
    { s with fbk.folds := s.fbk.folds.map fun f => if f.1 = src then (f.1, satSucc f.2.1, s.eventData n) else f }
  else if !s.regBit Reg.FBK_CTL 0 then s
  else
    let t := s.fbQueue (s.fbRec 1 src (s.eventData n))
    { t with fbk.folds := t.fbk.folds ++ [(src, 0, 0)] }

/-! ### Events (08 R242 to R245) -/

/-- Row of Table 0.4 that holds an event. -/
def alertRow (n : Nat) : Nat :=
  if n < 32 then 0 else if n < 64 then 1 else if n < 80 then 2 else if n < 112 then 3 else if n < 144 then 4
  else if n < 160 then 5 else if n < 192 then 6 else if n < 208 then 7 else if n < 224 then 8 else if n < 240 then 9
  else 10

/-- Raise event n: EVT_RAW and EVT_MULTI, the cores' pending bits, SP_ALERT, the last event, the Field Book, and any DMA
trigger by the event (08 R242, R244; 13 R364). -/
def State.raise (n : Nat) (s : State) : State :=
  let e := s.evt
  let ale := s.regArrBit Reg.EVT_ALE n
  let log := s.regArrBit Reg.EVT_LOG n
  let s1 : State := { s with
    evt.raw := setBit e.raw n
    evt.multi := if e.raw.getLsbD n then setBit e.multi n else e.multi
    evt.pendC := if s.regArrBit Reg.EVT_ENC n then setBit e.pendC n else e.pendC
    evt.pendS := if s.regArrBit Reg.EVT_ENS n then setBit e.pendS n else e.pendS
    evt.last := if ale || log then some (BitVec.ofNat 8 n) else e.last
    evt.lastAny := some (BitVec.ofNat 8 n)
    sp.alert := if ale then setBit s.sp.alert (alertRow n) else s.sp.alert }
  ((s1.when log (State.fbEvent n))).dmaFire (.event (BitVec.ofNat 8 n))

/-- Raise an event where b holds. -/
def State.raiseIf (b : Bool) (n : Nat) (s : State) : State := s.when b (State.raise n)

/-- Priority of an event (08 R243). -/
def State.evtPri (s : State) (n : Nat) : Nat := s.regFld (Reg.at Reg.EVT_PRI (n / 16)) (2 * (n % 16)) 2

/-- The pending event with the highest priority, the lowest number among equals (08 R243). -/
def State.bestEvent (s : State) (pend : BitVec 256) : Option Nat :=
  (bitsOf pend).foldl (fun b n => match b with
    | none => some n
    | some m => if s.evtPri m < s.evtPri n then some n else some m) none

/-- A core's machine external interrupt (08 R243). -/
def State.extIrq (s : State) (h : Hart) : Bool :=
  let (p, thr) := match h with
    | .control => (s.evt.pendC, s.regFld Reg.EVT_THRC 0 2)
    | .steward => (s.evt.pendS, s.regFld Reg.EVT_THRS 0 2)
  (bitsOf p).any fun n => decide (thr ≤ s.evtPri n)

/-! ### Fault codes (02 Table 2.4 SP_FAULT; 08 Table 8.4 type 0x08) -/

/-- Take a fault code: the first since the reset stays, and a fault record is queued. -/
def State.spFaultCode (code : Half) (s : State) : State :=
  let t : State := if s.sys.spFault = 0 then { s with sys.spFault := code } else s
  t.fbQueue (t.fbRec 8 0 (t.sys.spFault.setWidth 64))

/-! ### Counters (08 R235 to R238) -/

/-- Add k to counter i of port p; bit 31 rising sets its half-range flag and raises EV144 + p, and EV153 where the flag
was still set. -/
def State.count (p i k : Nat) (s : State) : State :=
  if h : p < 8 then
    let c := s.cnt[p]
    let old := c.ctr.getD i 0
    let new := old + BitVec.ofNat 32 k
    let cross := !old.getLsbD 31 && new.getLsbD 31
    let overrun := cross && c.hpend.getLsbD i
    let c' : CntPort := { c with
      ctr := vset c.ctr i new
      hpend := if cross then setBit c.hpend i else c.hpend
      hovr := if overrun then setBit c.hovr i else c.hovr }
    (({ s with cnt := s.cnt.set p c' }).raiseIf cross (144 + p)).raiseIf overrun 153
  else s

/-- Add 1 to a counter. -/
def State.count1 (p i : Nat) (s : State) : State := s.count p i 1

/-- Counters of a class of lengths: the first bound the length does not exceed (08 Table 8.1, SZ0 to SZ5). -/
def sizeClass (bounds : List Nat) (len : Nat) : Nat := (bounds.takeWhile (· < len)).length

end Sys2Proof.Machine
end

