-- ==== Sys2Proof/Machine/Hart.lean ====
section
/-! DEFINITION. The two harts: control and status registers, physical memory protection, traps and interrupts (09 R265, Table
9.3). What the spec takes from the RISC-V privileged specification without saying it is PRESUMED from that text (log 10). -/
namespace Sys2Proof.Machine

/-- A control and status register of a hart: what was written, 0 where nothing was. -/
def HartState.csr (h : HartState) (n : Nat) : Word :=
  if n = 0x341 then h.mepc else if n = 0x343 then h.mtval else sget (fun _ => 0) h.csrs n

/-- Store one, whatever a write from software may store. -/
def HartState.put (n : Nat) (v : Word) (h : HartState) : HartState :=
  if n = 0x341 then { h with mepc := v }
  else if n = 0x343 then { h with mtval := v }
  else { h with csrs := sput (fun _ => 0) h.csrs n v }

def State.hart (s : State) : Hart → HartState
  | .control => s.ctl.hartC
  | .steward => s.ctl.hartS

def State.setHart (h : Hart) (x : HartState) (s : State) : State :=
  match h with
  | .control => { s with ctl.hartC := x }
  | .steward => { s with ctl.hartS := x }

/-! ### Physical memory protection -/

/-- Configuration byte and address register of PMP entry i: [7] lock, [4:3] mode, [2:0] X, W, R. -/
def HartState.pmpCfg (x : HartState) (i : Nat) : Byte := ((x.csr (0x3A0 + i / 4)) >>> (8 * (i % 4))).setWidth 8
def HartState.pmpAddr (x : HartState) (i : Nat) : Nat := (x.csr (0x3B0 + i)).toNat

/-- The entry's address register is locked: by its own lock, or by that of a TOR entry above it. -/
def HartState.pmpAddrLocked (x : HartState) (i : Nat) : Bool :=
  (x.pmpCfg i).getLsbD 7 || (decide (i < 7) && (x.pmpCfg (i + 1)).getLsbD 7 && decide (fld (x.pmpCfg (i + 1)) 3 2 = 1))

/-- Trailing ones of an address register, which size a NAPOT range. -/
def trailOnes : Nat → Nat → Nat
  | 0, _ => 0
  | k + 1, a => if a % 2 = 1 then 1 + trailOnes k (a / 2) else 0

/-- The range entry i covers, and its R, W and X: OFF, TOR, NA4 or NAPOT. -/
def HartState.pmpRange (x : HartState) (i : Nat) : Word × Word × BitVec 3 :=
  let a := x.pmpAddr i
  let c := x.pmpCfg i
  let w (n : Nat) : Word := BitVec.ofNat 32 (min 0xFFFFFFFF n)
  let k := 2 ^ (trailOnes 32 a + 1)
  let r : Nat × Nat := match fld c 3 2 with
    | 0 => (0, 0)
    | 1 => let lo := if i = 0 then 0 else x.pmpAddr (i - 1)
      (4 * lo, 4 * (a - lo))
    | 2 => (4 * a, 4)
    | _ => (4 * (a / k * k), 4 * k)
  (w r.1, w r.2, c.setWidth 3)

/-- The ranges of the eight entries. -/
def HartState.pmpRanges (x : HartState) : List (Word × Word × BitVec 3) := (List.range 8).map x.pmpRange

/-- The entry that decides an access of a word: the lowest-numbered one that covers any of it. -/
def pmpEntry (l : List (Word × Word × BitVec 3)) (a : Nat) : Option ((Word × Word × BitVec 3) × Nat) :=
  l.zipIdx.find? fun e => decide (e.1.1.toNat < a + 4) && decide (a < e.1.1.toNat + e.1.2.1.toNat)

/-- An entry gives the access: it covers all of the word, with the right. -/
def pmpGives (e : Word × Word × BitVec 3) (write : Bool) (a : Nat) : Bool :=
  decide (e.1.toNat ≤ a) && decide (a + 4 ≤ e.1.toNat + e.2.1.toNat) && e.2.2.getLsbD (if write then 1 else 0)

/-- U-mode code reaches only what an entry gives it (09 R270, Table 9.6). -/
def pmpUser (l : List (Word × Word × BitVec 3)) (write : Bool) (a : Nat) : Bool :=
  (pmpEntry l a).any fun e => pmpGives e.1 write a

/-- M mode reaches everything, but where the entry that decides is locked (09 Table 9.3). -/
def HartState.machineMay (x : HartState) (l : List (Word × Word × BitVec 3)) (write : Bool) (a : Nat) : Bool :=
  match pmpEntry l a with
  | some e => !(x.pmpCfg e.2).getLsbD 7 || pmpGives e.1 write a
  | none => true

/-- What a hart may reach in the mode it is in. -/
def HartState.may (x : HartState) (l : List (Word × Word × BitVec 3)) (write : Bool) (a : Nat) : Bool :=
  if x.user then pmpUser l write a else x.machineMay l write a

/-- What U-mode code of the control core may reach. -/
def State.pmpAllows (s : State) (write : Bool) (a : Nat) : Bool := pmpUser s.ctl.pmp write a

/-! ### Traps (09 Table 9.3) -/

/-- Where a trap goes: the base of mtvec, or in vectored mode, for an interrupt, the vector of its cause. -/
def HartState.trapPc (x : HartState) (cause : Word) : Word :=
  let base := x.csr 0x305 &&& 0xFFFFFFFC
  if (x.csr 0x305).getLsbD 0 && cause.getLsbD 31 then base + 4 * (cause &&& 0x7FFFFFFF) else base

/-- A trap is taken to M mode: mepc, mcause and mtval; mstatus holds the mode in MPP and MIE in MPIE, and MIE is clear. -/
def HartState.trap (cause epc tval : Word) (x : HartState) : HartState :=
  let st := x.csr 0x300
  let st' := packW [(3, 0), (7, (st.getLsbD 3).toNat), (11, if x.user then 0 else 3)]
  { (((x.put 0x341 epc).put 0x342 cause).put 0x343 tval).put 0x300 st' with pc := x.trapPc cause, user := false }

/-- MRET: to mepc, in the mode of MPP, with MIE from MPIE; MPIE is set and MPP is U. -/
def HartState.back (x : HartState) : HartState :=
  let st := x.csr 0x300
  { x.put 0x300 (packW [(3, (st.getLsbD 7).toNat), (7, 1), (11, 0)]) with
    pc := x.csr 0x341, user := decide (fld st 11 2 = 0) }

/-- A hart goes to U mode at an address, which only MRET can do. -/
def HartState.enterUser (pc : Word) (x : HartState) : HartState :=
  ((x.put 0x341 pc).put 0x300 (x.csr 0x300 &&& 0xFFFFE7FF)).back

/-! ### Triggers (16 R446) -/

/-- Key under which a control and status register is held: the triggers' registers follow tselect. -/
def HartState.csrKey (x : HartState) (n : Nat) : Nat :=
  if n = 0x7A1 ∨ n = 0x7A2 then n + 0x1000 * (1 + (x.csr 0x7A0).toNat % 4) else n

/-- Bits of tdata1 that hold what is written: dmode, hit, [12] action, m, u, execute, store, load (PRESUMED, log 10). -/
def trigMask : Word := 0x0810104F

/-- The first of the four triggers that names an access of the hart in its mode: kind 0 load, 1 store, 2 execute. -/
def HartState.trigger (x : HartState) (kind a : Nat) : Option Nat :=
  (List.range 4).find? fun i =>
    let c := x.csr (0x17A1 + 0x1000 * i)
    c.getLsbD kind && c.getLsbD (if x.user then 3 else 6) && decide ((x.csr (0x17A2 + 0x1000 * i)).toNat = a)

/-- A trigger fires ahead of the access: the hart halts into debug mode, or takes a breakpoint exception (16 R446; log 10). -/
def HartState.fire (x : HartState) (i a : Nat) (epc : Word) : HartState :=
  let n := 0x17A1 + 0x1000 * i
  let y := x.put n (setBit (x.csr n) 20)
  if (x.csr n).getLsbD 12 then { y.put 0x7B0 ((y.csr 0x7B0 &&& 0xFFFFFE3F) ||| 0x80) with halted := true }
  else y.trap 3 epc (BitVec.ofNat 32 a)

/-- The machine external interrupt is taken: pending, enabled in mie, and M mode's own enable set, or U mode (09 Table 9.3; 08
R243). The hart must run. -/
def State.irqTakes (s : State) (h : Hart) : Bool :=
  let x := s.hart h
  !x.inReset && !x.halted && s.extIrq h && (x.csr 0x304).getLsbD 11 && (x.user || (x.csr 0x300).getLsbD 3)

/-- A hart takes its interrupt, between two instructions (log 223). -/
def State.irqTake (h : Hart) (s : State) : State :=
  if s.irqTakes h then s.setHart h ((s.hart h).trap 0x8000000B (s.hart h).pc 0) else s

end Sys2Proof.Machine
end

