-- ==== Sys2Proof/Machine/Mem.lean ====
section
/-! DEFINITION. The memories: the deep map's memory regions, SECDED words, parity buffers, the memory error log, flash
programming and erasing (15 R400 to R413). -/
namespace Sys2Proof.Machine

/-- The memory regions of the deep map; for a log entry, REGION of 15 Table 15.2. -/
inductive MRegion where
  | flash | sram | inst | waymark | lane | cell | track | holding
  deriving DecidableEq, Repr

/-- REGION code (15 Table 15.2). The Ethernet buffers (5) have no deep address. -/
def MRegion.code : MRegion → Nat
  | .sram => 0 | .inst => 1 | .waymark => 2 | .lane => 3 | .cell => 4 | .track => 6 | .flash => 7 | .holding => 7

/-- Base, size and kind of each memory, and whether a deep write lands (00 Table 0.3, 06 Table 6.8, 07 cell buffer, 11
Table 11.6, 12 track mask, 13 holding buffers). -/
def memMap : List (Nat × Nat × MRegion × Bool) := [
  (0x00000000, 0x400000, .flash, true), (0x10000000, 0x100000, .sram, true), (0x20000000, 0x20000, .inst, true),
  (0x40048000, 0x800, .waymark, true), (0x40048800, 0x3800, .waymark, false), (0x40058000, 0x8000, .cell, false),
  (0x400B8000, 0x400, .lane, true), (0x400B8400, 0x400, .lane, false), (0x400B8800, 0x400, .lane, true),
  (0x400B8C00, 0x800, .lane, false), (0x400B9400, 0x480, .lane, true), (0x400B9C00, 0x400, .lane, false),
  (0x400C8000, 0x80, .track, true), (0x400D8000, 0x800, .holding, false)]

/-- The memory that holds an address. -/
def memRow? (a : Nat) : Option (Nat × Nat × MRegion × Bool) :=
  memMap.find? fun r => decide (r.1 ≤ a) && decide (a < r.1 + r.2.1)

def memRegion? (a : Nat) : Option MRegion := (memRow? a).map (·.2.2.1)

/-- Why an access fails (02 R54, 15 Table 15.1, R406, R411, R418; 13 R354). -/
inductive AccErr where
  | unmapped | misaligned | refused | uncorrectable | parity
  deriving DecidableEq, Repr

/-- Requester code (15 Table 15.6); the debug module has none there and takes the service port's (log 16). -/
def masterCode : Master → Byte
  | .control => 1 | .controlU => 1 | .steward => 2 | .causeway => 3 | .service => 4 | .debug => 4
  | .dma n => BitVec.ofNat 8 (0x20 + n.val)

/-! ### The error log (15 R409) -/

/-- Log an entry, or count it lost and raise EV236. -/
def State.memLog (kind region : Nat) (src : Byte) (synd addr : Nat) (s : State) : State :=
  let e : MemLog := ⟨packW [(31, 1), (28, kind), (24, region), (16, src.toNat), (0, synd)], BitVec.ofNat 32 addr,
    lo32 s.tre.time, s.tre.tcount⟩
  if s.mem.log.length < 16 then { s with mem.log := s.mem.log ++ [e] }
  else State.raise 236 { s with mem.lost := satSucc s.mem.lost }

/-! ### SECDED words (15 R400 to R404) -/

/-- The error a SECDED word holds. -/
def State.wordErr (s : State) (a : Nat) : Option WordErr := (s.mem.errs.find? (·.1 == a)).map (·.2)

/-- Give a word an error, or clean check bits. -/
def State.setErr (a : Nat) (e : Option WordErr) (s : State) : State :=
  let rest := s.mem.errs.filter (·.1 != a)
  { s with mem.errs := match e with | some x => rest ++ [(a, x)] | none => rest }

/-- The check columns of weight 3 (15 R400). -/
def weight3 : List (BitVec 7) :=
  ((List.range 128).map (BitVec.ofNat 7)).filter fun c => ((List.range 7).filter c.getLsbD).length = 3

/-- n columns in turn, each one of those left. -/
def pickColumns : Nat → List (BitVec 7) → List (BitVec 7)
  | 0, _ => []
  | n + 1, l =>
    let i := Config.secdedPick n % l.length
    l.getD i 0 :: pickColumns n (l.eraseIdx i)

/-- Check column of a data bit: weight 3, each another one, otherwise open (15 R400; log 15). -/
def secdedColumn (b : Fin 32) : BitVec 7 := (pickColumns 32 weight3).getD b.val 0

/-- Syndrome of an error (15 R400, R402). -/
def WordErr.syndrome : WordErr → BitVec 7
  | .single b => secdedColumn b
  | .check c => BitVec.ofNat 7 (2 ^ c.val)
  | .double a b => secdedColumn a ^^^ secdedColumn b
  | .poison => 0x7F

/-- The word that stored data w with this error is corrected to: none where it is uncorrectable (15 R400). -/
def WordErr.corrected (w : Word) : WordErr → Option Word
  | .single b => some (w ^^^ BitVec.ofNat 32 (2 ^ b.val))
  | .check _ => some w
  | .double .. | .poison => none

/-- A SECDED word as the decoder gives it: none where it is uncorrectable. -/
def State.eccWord (s : State) (a : Nat) : Option Word :=
  match s.wordErr a with
  | none => some (s.wordAt a)
  | some e => e.corrected (s.wordAt a)

/-- Store a whole word as it is. -/
def State.putWord (a : Nat) (v : Word) (s : State) : State := s.setBytes a (leBytes 4 v.toNat)

/-- Count and log a correctable error met by a normal access, and raise EV232. -/
def State.eccCe (kind : Nat) (src : Byte) (a : Nat) (e : WordErr) (s : State) : State :=
  let t : State := { s with mem.ce := satSucc s.mem.ce }
  (t.memLog kind (if a < 0x20000000 then 0 else 1) src e.syndrome.toNat a).raise 232

/-- Count and log an uncorrectable error, and raise EV233. -/
def State.eccUe (kind : Nat) (src : Byte) (a : Nat) (e : WordErr) (s : State) : State :=
  let t : State := { s with mem.ue := satSucc s.mem.ue }
  (t.memLog kind (if a < 0x20000000 then 0 else 1) src e.syndrome.toNat a).raise 233

/-- What a normal read of a SECDED word does besides answering (15 R401). -/
def State.eccReadFx (src : Byte) (a : Nat) (s : State) : State :=
  match s.wordErr a with
  | none => s
  | some e =>
    match e.corrected (s.wordAt a) with
    | some w => ((s.putWord a w).setErr a none).eccCe 0 src a e
    | none => s.eccUe 2 src a e

/-- The written lanes of v over w. -/
def mergeLanes (w : Word) (be : BitVec 4) (v : Word) : Word := (w &&& ~~~ laneMask be) ||| (v &&& laneMask be)

/-- The armed injection names this address (15 Registers, MEM_INJECT). -/
def State.injects (s : State) (a : Nat) : Bool :=
  s.regBit Reg.MEM_INJECT 31 && decide ((s.reg Reg.MEM_INJADDR).toNat / 4 * 4 = a)

/-- A full write stores clean check bits, or those of the injection, which then disarms. -/
def State.eccFullWrite (a : Nat) (v : Word) (s : State) : State :=
  if s.injects a then
    let b : Fin 32 := ⟨s.regFld Reg.MEM_INJECT 0 5 % 32, Nat.mod_lt _ (by decide)⟩
    let c : Fin 32 := b + 1
    let m := 2 ^ b.val + if s.regBit Reg.MEM_INJECT 30 then 2 ^ c.val else 0
    let e := if s.regBit Reg.MEM_INJECT 30 then WordErr.double b c else .single b
    (((s.putWord a (v ^^^ BitVec.ofNat 32 m)).setErr a (some e))).setReg Reg.MEM_INJECT
      (clrBit (s.reg Reg.MEM_INJECT) 31)
  else (s.putWord a v).setErr a none

/-- A write of some lanes of a SECDED word (15 R403). -/
def State.eccWrite (src : Byte) (a : Nat) (be : BitVec 4) (v : Word) (s : State) : State :=
  if be = 0xF then s.eccFullWrite a v
  else match s.wordErr a with
    | none => s.putWord a (mergeLanes (s.wordAt a) be v)
    | some e =>
      match e.corrected (s.wordAt a) with
      | some w => ((s.putWord a (mergeLanes w be v)).setErr a none).eccCe 0 src a e
      | none => (((s.putWord a (mergeLanes (s.wordAt a) be v)).setErr a (some .poison)).eccUe 4 src a e).raise 234

/-! ### Parity buffers (15 R406) -/

/-- Lanes of a word whose stored parity is wrong. -/
def State.badLanes (s : State) (a : Nat) (be : BitVec 4) : List Nat :=
  [0, 1, 2, 3].filter fun i => be.getLsbD i && s.mem.badpar.contains (a + i)

/-- A byte read with a parity error is logged and raises EV235; in a Lane buffer it counts under EPAR and raises EV205 (11
Table 11.6). -/
def State.parityFound (src : Byte) (r : MRegion) (a : Nat) (s : State) : State :=
  let t := (s.memLog 5 r.code src (a % 4) a).raise 235
  if r = .lane then (t.count1 7 39).raise 205 else t

/-- A read of lanes of a word of a parity buffer; a is word-aligned. -/
def State.parityFx (src : Byte) (r : MRegion) (a : Nat) (be : BitVec 4) (s : State) : State :=
  match s.badLanes a be with
  | [] => s
  | i :: _ => s.parityFound src r (a + i)

/-- Store fresh bytes with fresh parity. -/
def State.bufWrite (a : Nat) (bs : List Byte) (s : State) : State :=
  let t := s.setBytes a bs
  { t with mem.badpar := t.mem.badpar.filter fun x => !(decide (a ≤ x) && decide (x < a + bs.length)) }

/-- Store the written lanes of a word of a parity buffer. -/
def State.bufWriteLanes (a : Nat) (be : BitVec 4) (v : Word) (s : State) : State :=
  s.each [0, 1, 2, 3] fun i t => t.when (be.getLsbD i) (State.bufWrite (a + i) [(v >>> (8 * i)).setWidth 8])

/-! ### Flash (15 R410 to R413, Table 15.3; 16 R427) -/

/-- The flash operation in progress in the bank that holds a sector. -/
def State.flashBusy (s : State) (sector : Nat) : Option (Option (BitVec 10)) :=
  if sector < 512 then s.mem.busyA else s.mem.busyB

/-- Record the operation in progress in a bank. -/
def State.setFlashBusy (bankB : Bool) (o : Option (Option (BitVec 10))) (s : State) : State :=
  if bankB then { s with mem.busyB := o } else { s with mem.busyA := o }

/-- The write enable of the bank that holds a sector. -/
def State.flashWen (s : State) (sector : Nat) : Bool := s.regBit Reg.MEM_CTL (if sector < 512 then 8 else 9)

/-- The program is in LOAD, INIT or RUN (09 R263). -/
def State.progBusy (s : State) : Bool :=
  decide (s.ctl.pstate = .load) || decide (s.ctl.pstate = .init) || decide (s.ctl.pstate = .run)

/-- MEM_FRESULT code of a write by a master to a sector: 0 where Table 15.3 and 16 R427 permit it. A program slot in LOAD, INIT
or RUN is refused whatever its write enable says (09 R263). -/
def State.flashRefusal (s : State) (m : Master) (sector : Nat) : Nat :=
  let k := sector % 512
  let p4 := s.sys.parts.get 4
  if 256 ≤ k ∧ k < 480 ∧ s.progBusy = true then 1
  else if !s.flashWen sector then 3
  else if k < 224 then
    if decide (s.boot.steward = some (decide (512 ≤ sector))) && decide (p4 ≠ .quiesced) && decide (p4 ≠ .failed) then 3 else 0
  else if k < 252 then 0
  else if k < 256 then 3
  else if k < 480 then 0
  else if m = .steward ∧ s.sys.splitAct.getLsbD 9 then 0 else 3

/-- Record the outcome of a flash operation (15 R411, R413): a refusal or failure logs an entry and raises EV237, and
EV247 where a program slot was protected (09 R263). -/
def State.flashResult (src : Byte) (a code : Nat) (s : State) : State :=
  let t : State := { s with mem.fresult := BitVec.ofNat 32 a, mem.fresult2 := BitVec.ofNat 4 code }
  if code = 0 then t
  else ((t.memLog 6 7 src code a).raise 237).raiseIf (decide (code = 1)) 247

/-- Program a word: the written bytes are ANDed in (15 R411). -/
def State.flashAnd (a : Nat) (be : BitVec 4) (v : Word) (s : State) : State :=
  s.each [0, 1, 2, 3] fun i t =>
    t.when (be.getLsbD i) fun u => u.setByte (a + i) (u.byte (a + i) &&& (v >>> (8 * i)).setWidth 8)

/-- Program bytes from an address up, by a writer of the hardware. -/
def State.flashAndBytes (a : Nat) : List Byte → State → State
  | [], s => s
  | b :: t, s => (s.setByte a (s.byte a &&& b)).flashAndBytes (a + 1) t

/-- Code a write beat to flash ends with: 4 while the bank is erasing (15 R411). -/
def State.flashWriteCode (s : State) (m : Master) (a : Nat) : Nat :=
  let r := s.flashRefusal m (a / 4096)
  if r ≠ 0 then r
  else match s.flashBusy (a / 4096) with
    | some (some _) => 4
    | _ => 0

/-- BOOT_PSLOT.VALID of the program slot that holds a sector is cleared by any operation on it (16 R435). -/
def State.slotTouched (sector : Nat) (s : State) : State :=
  let k := sector % 512
  if k < 256 ∨ 480 ≤ k then s
  else if sector < 512 then { s with boot.validA := false } else { s with boot.validB := false }

/-- A write beat to a flash address (15 R411). -/
def State.flashProgram (m : Master) (a : Nat) (be : BitVec 4) (v : Word) (s : State) : State :=
  let c := s.flashWriteCode m a
  if c ≠ 0 then s.flashResult (masterCode m) a c
  else (((s.flashAnd (a / 4 * 4) be v).flashResult (masterCode m) a 0).setFlashBusy (decide (2097152 ≤ a)) (some none)).slotTouched
    (a / 4096)

/-- Wear counter of a sector (15 R413). -/
def State.wear (s : State) (sector : Nat) : Nat := sget (fun _ => 0) s.mem.wear sector

/-- Start an erase: the controller adds 1 to the wear counter first (15 R412, R413). -/
def State.flashStartErase (sector : Nat) (s : State) : State :=
  let t : State := { s with mem.wear := sput (fun _ => 0) s.mem.wear sector (s.wear sector + 1) }
  (t.setFlashBusy (decide (512 ≤ sector)) (some (some (BitVec.ofNat 10 sector)))).slotTouched sector

/-- Code an erase request ends with: refusals of Table 15.3, a busy bank, the wear limit. -/
def State.flashEraseCode (s : State) (m : Master) (sector : Nat) : Nat :=
  let r := s.flashRefusal m sector
  if r ≠ 0 then r
  else if (s.flashBusy sector).isSome then 4
  else if 20000 ≤ s.wear sector then 2
  else 0

/-- A write of MEM_FERASE (15 R412). -/
def State.flashErase (m : Master) (v : Word) (s : State) : State :=
  let sector := fld v 0 10
  if !v.getLsbD 31 then s
  else
    let c := s.flashEraseCode m sector
    if c ≠ 0 then s.flashResult (masterCode m) (4096 * sector) c else s.flashStartErase sector

/-- Erase bytes: every byte of the range reads 0xFF. -/
def State.eraseRange (a n : Nat) (s : State) : State :=
  { s with mem.cells := s.mem.cells.filter fun c => decide (c.1 < a) || decide (a + n ≤ c.1) }

/-- Nothing in the range of flash is programmed: an erased byte is not listed. -/
def State.erased (s : State) (a n : Nat) : Bool :=
  s.mem.cells.all fun c => decide (c.1 < a) || decide (a + n ≤ c.1)

/-- A sector's erase has ended: what did not erase stays programmed, and each word that is not all ones fails the verify, in
ascending order, with code 5 (15 R412, R413). -/
def State.flashEraseEnd (sector : Nat) (stuck : List (Nat × Byte)) (s : State) : State :=
  let bad := stuck.filter fun c => decide (c.1 < 4096) && decide (c.2 ≠ 0xFF)
  let t := (s.eraseRange (4096 * sector) 4096).setFlashBusy (decide (512 ≤ sector)) none
  match bad with
  | [] =>
    { t with mem.abandoned := t.mem.abandoned.filter (· != sector) }.flashResult 7 (4096 * sector) 0
  | _ =>
    let words := (List.range 1024).filter fun k => bad.any fun c => decide (c.1 / 4 = k)
    (t.each bad fun c u => u.setByte (4096 * sector + c.1) c.2).each words fun k u =>
      u.flashResult 7 (4096 * sector + 4 * k) 5

/-- Power-fail abandons the erases in progress, with code 6 (15 R413, 03 Corner cases). -/
def State.flashAbandonOne (bankB : Bool) (s : State) : State :=
  match (if bankB then s.mem.busyB else s.mem.busyA) with
  | some (some sec) =>
    let t : State := { s with mem.abandoned := s.mem.abandoned.filter (· != sec.toNat) ++ [sec.toNat] }
    (t.setFlashBusy bankB none).flashResult 7 (4096 * sec.toNat) 6
  | _ => s

def State.flashAbandon (s : State) : State := (s.flashAbandonOne false).flashAbandonOne true

/-! ### Any memory word -/

/-- What a read of the lanes of a memory word answers. -/
def State.memRead (s : State) (a : Nat) (be : BitVec 4) : Except AccErr Word :=
  match memRegion? a with
  | none => .error .unmapped
  | some .flash => .ok (s.wordAt a &&& laneMask be)
  | some .sram | some .inst =>
    match s.eccWord a with
    | some w => .ok (w &&& laneMask be)
    | none => .error .uncorrectable
  | some .holding =>
    let c := s.dma.ch.getD ((a - 0x400D8000) / 0x40) DmaCh.reset
    .ok (BitVec.ofNat 32 (ofLe (slice c.shown (a % 0x40) 4)) &&& laneMask be)
  | some _ => if (s.badLanes a be).isEmpty then .ok (s.wordAt a &&& laneMask be) else .error .parity

/-- What a normal read of a memory word does besides answering. -/
def State.memReadFx (src : Byte) (a : Nat) (be : BitVec 4) (s : State) : State :=
  match memRegion? a with
  | some .sram | some .inst => s.eccReadFx src a
  | some .waymark => s.parityFx src .waymark a be
  | some .lane => s.parityFx src .lane a be
  | some .cell => s.parityFx src .cell a be
  | some .track => s.parityFx src .track a be
  | _ => s

/-- The words that n bytes of memory lie in. -/
def wordsOf (a n : Nat) : List Nat := (List.range ((a % 4 + n + 3) / 4)).map fun i => a / 4 * 4 + 4 * i

/-- A word holds an error, of its check bits or of a byte's parity. -/
def State.wordBad (s : State) (w : Nat) : Bool :=
  s.mem.errs.any (fun e => e.1 == w) || s.mem.badpar.any fun x => decide (x / 4 * 4 = w)

/-- A block of the hardware reads n bytes of memory: every word of them is a normal read (15 R401, R406); one that holds no error
does nothing besides answering. -/
def State.wordReads (a n : Nat) (s : State) : State :=
  s.each ((wordsOf a n).filter s.wordBad) fun w t => t.memReadFx 7 w 0xF

/-- The same; what it takes for a word that cannot be read is a free value, which is used up (log 225). -/
def State.blockReadFx (a n : Nat) (s : State) : State :=
  let bad := (wordsOf a n).any fun w => !(s.memRead w 0xF).toBool
  (s.wordReads a n).when bad State.took

/-- The steward may write the input image while it is to write substitutes (11 R318). -/
def State.memWritable (s : State) (m : Master) (a : Nat) : Bool :=
  match memRow? a with
  | some (b, _, _, rw) => rw && (decide (b ≠ 0x400B8800) || (decide (m = .steward) && s.lane.subWait))
  | none => false

/-- How a write to a memory word answers: a buffer that is read-only ignores it (00 R7). -/
def State.memWriteErr (s : State) (m : Master) (a : Nat) : Option AccErr :=
  match memRegion? a with
  | none => some .unmapped
  | some .flash => if s.flashWriteCode m a = 0 then none else some .refused
  | some _ => none

/-- A write of lanes of a memory word. -/
def State.memWrite (m : Master) (a : Nat) (be : BitVec 4) (v : Word) (s : State) : State :=
  match memRegion? a with
  | none => s
  | some .flash => s.flashProgram m a be v
  | some .sram | some .inst => s.eccWrite (masterCode m) a be v
  | some .lane =>
    if s.memWritable m a then
      let t := s.bufWriteLanes a be v
      if decide (0x400B8800 ≤ a) && decide (a < 0x400B8C00) then
        { t with lane.subWritten := setBit t.lane.subWritten ((a - 0x400B8800) / 32) }
      else t
    else s
  | some _ => if s.memWritable m a then s.bufWriteLanes a be v else s

/-- A memory word as a hardware block sees it: where it cannot be read a free value, whose bits are those of the draw that
stand at the word's address (log 225). -/
def State.peekWord (s : State) (a : Nat) : Word :=
  match s.memRead a 0xF with
  | .ok v => v
  | .error _ => BitVec.ofNat 32 (s.draw / 2 ^ (8 * a))

/-- Write a whole word of SRAM or instance memory, by a block of the hardware. -/
def State.pokeWord (src : Byte) (a : Nat) (v : Word) (s : State) : State := s.eccWrite src a 0xF v

/-- A byte of memory as a peek sees it. -/
def State.peekByte (s : State) (a : Nat) : Byte := ((s.peekWord (a / 4 * 4)) >>> (8 * (a % 4))).setWidth 8

/-- n bytes of memory as a peek sees them. -/
def State.peekBytes (s : State) (a n : Nat) : List Byte := (List.range n).map fun i => s.peekByte (a + i)

/-- Write bytes to SRAM or instance memory, lane by lane. -/
def State.pokeBytes (src : Byte) (a : Nat) : List Byte → State → State
  | [], s => s
  | b :: t, s =>
    let be : BitVec 4 := BitVec.ofNat 4 (2 ^ (a % 4))
    (s.eccWrite src (a / 4 * 4) be ((b.setWidth 32) <<< (8 * (a % 4)))).pokeBytes src (a + 1) t

/-! ### What a master may reach (09 R267, R270; 13 R354, R355) -/

/-- Control-side channel (13 R354). -/
def State.dmaCtlSide (s : State) (n : Fin 32) : Bool := s.regBit Reg.DMA_ALLOC n.val

/-- A master's own limits: its PMP, the steward's (09 R267), a steward-side channel's (13 R355). -/
def State.masterAllows (s : State) (m : Master) (write : Bool) (a : Nat) : Bool :=
  let ctlSram := decide (0x10000000 ≤ a) && decide (a < 0x10080000)
  let inst := decide (0x20000000 ≤ a) && decide (a < 0x20020000)
  match m with
  | .controlU => s.pmpAllows write a
  | .control => s.ctl.hartC.machineMay s.ctl.pmp write a
  | .steward => !ctlSram && s.ctl.hartS.may s.ctl.hartS.pmpRanges write a
  | .dma n => s.dmaCtlSide n || !(ctlSram || inst)
  | _ => true

end Sys2Proof.Machine
end

