-- ==== Sys2Proof/Machine/Gates.lean ====
section
/-! DEFINITION. The 32 gates, the 16 hardware queues and the scrubber (15 R407, R408, R416 to R424). -/
namespace Sys2Proof.Machine

/-! ### Gates -/

def State.gate (s : State) (g : Fin 32) : Gate := s.mem.gates.get g

def State.setGate (g : Fin 32) (x : Gate) (s : State) : State := { s with mem.gates := s.mem.gates.set g x }

/-- Gate 31 accepts only the control core and the steward (15 R416). -/
def gateAccepts (code : Byte) (g : Fin 32) : Bool := decide (g.val ≠ 31) || decide (code = 1) || decide (code = 2)

/-- The requester's attempt takes the gate (15 R417). -/
def State.gateTakes (s : State) (code : Byte) (g : Fin 32) : Bool :=
  decide ((s.gate g).owner = 0) && gateAccepts code g

/-- What a normal read of GATE_TRYg answers (15 R417, Registers). LEASED: the gate has a lease (log 17). -/
def State.gateTryVal (s : State) (code : Byte) (g : Fin 32) : Word :=
  let x := s.gate g
  let takes := s.gateTakes code g
  let self := decide (x.owner = code)
  packW [(31, (takes || self).toNat), (30, x.broken.toNat), (29, self.toNat),
    (28, (decide (s.regFld (Reg.at Reg.GATE_LEASE g) 0 16 ≠ 0)).toNat), (0, (if takes then code else x.owner).toNat)]

/-- A peek of GATE_TRYg: the gate as it stands (15 R417, log 17). -/
def State.gatePeekVal (s : State) (code : Byte) (g : Fin 32) : Word :=
  let x := s.gate g
  let self := decide (x.owner = code)
  packW [(31, self.toNat), (30, x.broken.toNat), (29, self.toNat),
    (28, (decide (s.regFld (Reg.at Reg.GATE_LEASE g) 0 16 ≠ 0)).toNat), (0, x.owner.toNat)]

/-- The acquisition clears BROKEN (15 R417). -/
def State.gateTryFx (code : Byte) (g : Fin 32) (s : State) : State :=
  if s.gateTakes code g then s.setGate g ⟨code, false⟩ else s

/-- Release by the owner leaves BROKEN clear; from any other requester nothing changes (15 R418). -/
def State.gateRelFx (code : Byte) (g : Fin 32) (s : State) : State :=
  if (s.gate g).owner = code then s.setGate g ⟨0, false⟩ else s

/-- A release from one that is not the owner is refused (15 R418). -/
def State.gateRelRefused (s : State) (code : Byte) (g : Fin 32) : Bool := decide ((s.gate g).owner ≠ code)

/-- A gate is freed with BROKEN set, and EV238 is raised (15 R419 to R421). -/
def State.gateBreak (g : Fin 32) (s : State) : State := (s.setGate g ⟨0, true⟩).raise 238

/-- The steward and the service port may force a gate (15 R421). -/
def forceAllowed (code : Byte) : Bool := decide (code = 2) || decide (code = 4)

def State.gateForceFx (code : Byte) (g : Fin 32) (s : State) : State :=
  if forceAllowed code then s.gateBreak g else s

/-- An owner's reset frees its gates with BROKEN set (15 R419). -/
def State.gateOwnerReset (code : Byte) (s : State) : State :=
  let held := (fins 32).filter fun g => decide ((s.gate g).owner = code)
  let t := s.each held fun g u => u.setGate g ⟨0, true⟩
  t.raiseIf (!held.isEmpty) 238

/-- GATE_HELD and GATE_BROKEN (15 R416). -/
def State.gateHeld (s : State) : Word :=
  BitVec.ofNat 32 ((fins 32).foldl (fun a g => a + (decide ((s.gate g).owner ≠ 0)).toNat * 2 ^ g.val) 0)

def State.gateBroken (s : State) : Word :=
  BitVec.ofNat 32 ((fins 32).foldl (fun a g => a + (s.gate g).broken.toNat * 2 ^ g.val) 0)

/-! ### Queues -/

def State.queue (s : State) (q : Fin 16) : HwQueue := s.mem.queues.get q

def State.setQueue (q : Fin 16) (x : HwQueue) (s : State) : State := { s with mem.queues := s.mem.queues.set q x }

/-- A requester's own copy of GATE_QMYSTAT (15 R423). -/
def State.mystat (s : State) (code : Byte) : Word := sget (fun _ => 0) s.mem.mystat code.toNat

def State.setMystat (code : Byte) (v : Word) (s : State) : State :=
  { s with mem.mystat := sput (fun _ => 0) s.mem.mystat code.toNat v }

/-- Push: lands below 16 entries, otherwise refused, counted and EV239 (15 R423, R424, Table 15.7). -/
def State.queuePush (code : Byte) (q : Fin 16) (v : Word) (s : State) : State :=
  let x := s.queue q
  let full := decide (16 ≤ x.items.length)
  let x' : HwQueue := if full then { x with refused := satSucc x.refused } else { x with items := x.items ++ [v] }
  let w := packW [(31, full.toNat), (30, ((s.mystat code).getLsbD 30).toNat), (16, q.val), (0, x'.items.length)]
  ((s.setQueue q x').setMystat code w).raiseIf full 239

/-- The head of a queue, 0 when it is empty (15 R423). -/
def State.queueHead (s : State) (q : Fin 16) : Word := (s.queue q).items.headD 0

/-- Pop the head (15 R423). -/
def State.queuePopFx (code : Byte) (q : Fin 16) (s : State) : State :=
  let x := s.queue q
  let x' : HwQueue := { x with items := x.items.drop 1 }
  let w := packW [(31, ((s.mystat code).getLsbD 31).toNat), (30, x.items.isEmpty.toNat), (16, q.val),
    (0, x'.items.length)]
  (s.setQueue q x').setMystat code w

/-- Bit 0 of QCLR empties the queue and keeps REFUSED (15 Registers). -/
def State.queueClear (q : Fin 16) (v : Word) (s : State) : State :=
  if v.getLsbD 0 then s.setQueue q { s.queue q with items := [] } else s

/-- GATE_QSTAT (15 Registers). -/
def State.queueStat (s : State) (q : Fin 16) : Word :=
  packW [(16, (s.queue q).refused.toNat), (0, (s.queue q).items.length)]

/-! ### Scrubber -/

/-- What the scrubber does with a word (15 R407): sources 0x05, kinds 1 and 3. -/
def State.scrubWord (a : Nat) (s : State) : State :=
  match s.wordErr a with
  | none => s
  | some e =>
    match e.corrected (s.wordAt a) with
    | some w => ((s.putWord a w).setErr a none).eccCe 1 5 a e
    | none => (s.setErr a (some .poison)).eccUe 3 5 a e

/-- The scrubber's next address over SRAM and instance memory, and whether the pass ends (15 R407). -/
def scrubNext (a : Nat) : Nat × Bool :=
  if a + 4 = 0x10100000 then (0x20000000, false)
  else if a + 4 = 0x20020000 then (0x10000000, true)
  else (a + 4, false)

/-- Range i of MEM_SCRUBRNG as word addresses, where it is not empty and lies in SRAM or instance memory (15 R408). -/
def State.scrubRange (s : State) (i : Nat) : Option (Nat × Nat) :=
  let b := (s.reg (Reg.MEM_SCRUBRNG + 8 * i)).toNat / 4 * 4
  let n := (s.reg (Reg.MEM_SCRUBRNG + 8 * i + 4)).toNat
  let inside := (decide (0x10000000 ≤ b) && decide (b + n ≤ 0x10100000)) ||
    (decide (0x20000000 ≤ b) && decide (b + n ≤ 0x20020000))
  if n = 0 ∨ inside = false then none else some (b, n)

/-- The first range at or after i, in cyclic order. -/
def State.scrubFind (s : State) (i : Nat) : Option (Nat × Nat × Nat) :=
  ([0, 1, 2, 3].map fun k => (i + k) % 4).findSome? fun j => (s.scrubRange j).map fun r => (j, r.1, r.2)

/-- One scrub read (15 R407, R408). -/
def State.scrub (s : State) : State :=
  if !s.regBit Reg.MEM_CTL 0 then s
  else if !s.sys.splitAct.getLsbD 8 then
    let a := s.mem.scrubPos.toNat
    let n := scrubNext a
    let t := s.scrubWord a
    { t with mem.scrubPos := BitVec.ofNat 32 n.1, mem.scrubPass := if n.2 then t.mem.scrubPass + 1 else t.mem.scrubPass }
  else
    match s.scrubFind s.mem.scrubRng.toNat with
    | none => s
    | some (i, b, n) =>
      let p := s.mem.scrubPos.toNat
      let a := if i = s.mem.scrubRng.toNat ∧ b ≤ p ∧ p < b + n then p else b
      let t := s.scrubWord a
      if a + 4 < b + n then { t with mem.scrubRng := BitVec.ofNat 2 i, mem.scrubPos := BitVec.ofNat 32 (a + 4) }
      else match t.scrubFind (i + 1) with
        | none => t
        | some (j, c, _) =>
          { t with
            mem.scrubRng := BitVec.ofNat 2 j
            mem.scrubPos := BitVec.ofNat 32 c
            mem.scrubPass := if j ≤ i then t.mem.scrubPass + 1 else t.mem.scrubPass }

end Sys2Proof.Machine
end

