-- ==== Sys2Proof/Machine/FieldBook.lean ====
section
/-! DEFINITION. The Field Book in flash: sectors, records, the hardware writer, retirement, and reading (08 R246 to R254). -/
namespace Sys2Proof.Machine

/-- Deep address of ring sector i (08 R246). -/
def fbBase (i : Nat) : Nat := if i < 32 then 0x1E0000 + 4096 * i else 0x3E0000 + 4096 * (i - 32)

/-- Flash sector number of ring sector i (15 Flash). -/
def fbSector (i : Nat) : Nat := fbBase i / 4096

/-- Ring sector of a flash sector. -/
def fbRing (sector : Nat) : Option Nat :=
  if 480 ≤ sector ∧ sector < 512 then some (sector - 480)
  else if 992 ≤ sector ∧ sector < 1024 then some (sector - 960) else none

/-- Word 7 of a record or header: its CRC-16 over bytes 0 to 27, COMMIT and 0xFF (08 Table 8.3). -/
def fbSeal (body : List Byte) : List Byte := body ++ leBytes 2 (crc16 body).toNat ++ [0x00, 0xFF]

/-- The 32 bytes are committed and their CRC-16 holds (08 R250). -/
def fbValid (bs : List Byte) : Bool :=
  decide (byteAt bs 30 = 0) && decide (ofLe (slice bs 28 2) = (crc16 (bs.take 28)).toNat)

/-- The bytes of a record but for its SEQ (08 Table 8.3). -/
def FbRec.body (r : FbRec) (seq : Half) : List Byte :=
  [r.type, r.flags] ++ leBytes 2 seq.toNat ++ leBytes 8 r.time.toNat ++ leBytes 4 r.tcount.toNat ++
    [r.epoch, r.nid, r.source, r.repeat_] ++ leBytes 8 r.data.toNat

/-- A sector's header (08 R247). -/
def fbHeader (gen : Nat) (fseq : Half) : List Byte :=
  fbSeal ([0x46, 0x42, 0x4B, 0x31] ++ leBytes 4 gen ++ leBytes 2 fseq.toNat ++ List.replicate 18 0xFF)

/-- A sector's header is committed. -/
def State.fbHdrOk (s : State) (i : Nat) : Bool :=
  decide (s.byte (fbBase i + 30) = 0) && decide (s.bytesAt (fbBase i) 4 = [0x46, 0x42, 0x4B, 0x31]) &&
    fbValid (s.bytesAt (fbBase i) 32)

def State.fbGen (s : State) (i : Nat) : Nat := ofLe (s.bytesAt (fbBase i + 4) 4)

/-- The sector is in service (08 R248). -/
def State.fbInService (s : State) (i : Nat) : Bool := !s.fbk.retired.getLsbD i

/-- The sector of the highest GEN whose header is committed (08 R249), retired or not. -/
def State.fbTop (s : State) : Option Nat :=
  ((List.range 64).filter s.fbHdrOk).foldl (fun b i => match b with
    | none => some i
    | some j => if s.fbGen j < s.fbGen i then some i else some j) none

/-- The current sector: that sector, while it is in service (08 R248, R249). -/
def State.fbCur (s : State) : Option Nat := s.fbTop.filter s.fbInService

/-- The next sector in service after i, going round. -/
def State.fbNext (s : State) (i : Nat) : Nat :=
  (((List.range 64).map fun k => (i + 1 + k) % 64).find? s.fbInService).getD i

/-- Address of record slot k of ring sector i. -/
def fbSlot (i k : Nat) : Nat := fbBase i + 32 * (k + 1)

/-- Slots of a sector used so far: up to the last that is not erased. -/
def State.fbFill (s : State) (i : Nat) : Nat :=
  (List.range 127).foldl (fun n k => if s.erased (fbSlot i k) 32 then n else k + 1) 0

/-- Committed records of a sector, in order: SEQ and address (08 R250). -/
def State.fbSectorRecs (s : State) (i : Nat) : List (Half × Nat) :=
  if !s.fbHdrOk i then []
  else ((List.range 127).filter fun k => decide (s.byte (fbSlot i k + 30) = 0) && fbValid (s.bytesAt (fbSlot i k) 32)).map
    fun k => (BitVec.ofNat 16 (ofLe (s.bytesAt (fbSlot i k + 2) 2)), fbSlot i k)

/-- Every committed record held, oldest first: the sectors in the order of their GEN, up to 63 behind the highest. The
records of a retired sector count as long as that, and no longer (log 169). -/
def State.fbRecs (s : State) : List (Half × Nat) :=
  match s.fbTop with
  | none => []
  | some c =>
    let g := s.fbGen c
    let hs := ((List.range 64).filter s.fbHdrOk).map fun i => (s.fbGen i, i)
    (List.range 64).flatMap fun k => ((hs.filter fun h => h.1 + (63 - k) == g).map (·.2)).flatMap s.fbSectorRecs

/-- SEQ of the next record (08 R249). -/
def State.fbNextSeq (s : State) : Half :=
  match s.fbTop with
  | none => 0
  | some c => match (s.fbSectorRecs c).getLast? with
    | some r => r.1 + 1
    | none => BitVec.ofNat 16 (ofLe (s.bytesAt (fbBase c + 8) 2))

/-! ### Retirement and erasing -/

/-- Retire a sector: it is skipped from then on, a retire record is queued, EV013 is raised, and with fewer than 8 sectors
in service the writer stops (08 R248). -/
def State.fbRetire (i : Nat) (s : State) : State :=
  let r := setBit s.fbk.retired i
  let t : State := { s with fbk.retired := r, fbk.full := s.fbk.full || decide (64 - (bitsOf r).length < 8) }
  (t.fbQueue (t.fbRec 9 0 (BitVec.ofNat 64 (i + s.wear (fbSector i) * 2 ^ 32)))).raise 13

/-- Start the erase of a ring sector, once its bank is free. -/
def State.fbErase (i : Nat) (s : State) : State :=
  match s.flashBusy (fbSector i) with
  | some (some _) => { s with fbk.eraseWait := s.fbk.eraseWait ++ [BitVec.ofNat 6 i] }
  | _ => s.flashStartErase (fbSector i)

/-- A ring sector is erased already: nothing is programmed in it, its erase neither waits nor was abandoned, and is not under
way. -/
def State.fbErased (s : State) (i : Nat) : Bool :=
  s.erased (fbBase i) 4096 && !s.mem.abandoned.contains (fbSector i) && !s.fbk.eraseWait.contains (BitVec.ofNat 6 i) &&
    decide (s.flashBusy (fbSector i) ≠ some (some (BitVec.ofNat 10 (fbSector i))))

/-- Keep the sector after i erased: one that is erased stays as it is; one at the wear limit is retired and the next is taken
(08 R247, R248). -/
def State.fbEraseAfter : Nat → Nat → State → State
  | 0, _, s => s
  | k + 1, i, s =>
    let j := s.fbNext i
    if s.fbk.full || s.fbErased j then s
    else if 20000 ≤ s.wear (fbSector j) then State.fbEraseAfter k j (s.fbRetire j)
    else s.fbErase j

/-- Open sector i with a generation and its first record's SEQ, and erase the one after it. -/
def State.fbOpen (i gen : Nat) (fseq : Half) (s : State) : State :=
  ((s.flashAndBytes (fbBase i) (fbHeader gen fseq))).fbEraseAfter 64 i

/-- The current sector has a free record slot. -/
def State.fbRoom (s : State) : Bool := s.fbCur.any fun c => decide (s.fbFill c < 127)

/-- The sector to open next: the one after the current, or the first of the ring. -/
def State.fbTarget (s : State) : Nat := s.fbNext (if s.fbk.wipe.isSome then 63 else s.fbTop.getD 63)

/-- GEN of the sector to open: GEN + 1 (08 R247), 0 for the first (log 18), or what a wipe goes on with (log 170). -/
def State.fbOpenGen (s : State) : Nat :=
  match s.fbk.wipe, s.fbTop with
  | some g, _ => g.toNat
  | none, some c => s.fbGen c + 1
  | none, none => 0

/-- FSEQ of the sector to open: a wipe begins again at SEQ 0 (08 R253). -/
def State.fbOpenSeq (s : State) : Half := if s.fbk.wipe.isSome then 0 else s.fbNextSeq

/-- The bank of a ring sector is erasing. -/
def State.fbErasing (s : State) (i : Nat) : Bool :=
  match s.flashBusy (fbSector i) with
  | some (some _) => true
  | _ => false

/-- A ring sector is erased, and its bank is not erasing: it may be opened (08 R247). -/
def State.fbClean (s : State) (i : Nat) : Bool := s.fbErased i && !s.fbErasing i

/-- Erases of a wipe are still under way (08 R253). -/
def State.fbWiping (s : State) : Bool :=
  s.fbk.wipe.isSome && (!s.fbk.eraseWait.isEmpty || s.fbErasing 0 || s.fbErasing 32)

/-- The writer waits: for a wipe, for the bank of the current sector, or for the next sector's erase (08 R247, log 19). -/
def State.fbBlocked (s : State) : Bool :=
  s.fbWiping || (if s.fbRoom then s.fbErasing (s.fbCur.getD 0) else !s.fbClean s.fbTarget)

/-- The current sector is full, or there is none: the writer opens the next one (08 R247). -/
def State.fbReady (s : State) : State :=
  if s.fbRoom || !s.fbClean s.fbTarget then s else s.fbOpen s.fbTarget s.fbOpenGen s.fbOpenSeq

/-- Write 32 bytes into the next slot of the current sector (08 R247). -/
def State.fbPut (bs : List Byte) (s : State) : State :=
  match s.fbCur with
  | none => s
  | some c => s.flashAndBytes (fbSlot c (s.fbFill c)) bs

/-- Write a record with the next SEQ; where no slot is to be had it waits in the queue. -/
def State.fbWrite (r : FbRec) (s : State) : State :=
  let t := s.fbReady
  if t.fbRoom then t.fbPut (fbSeal (r.body t.fbNextSeq)) else t.fbQueue r

/-- A program verify failed on a record or on a header: the bytes the cells now hold stay, the sector is retired, EV013 and
EV014; what was to be written is still to be written (08 R248). -/
def State.fbProgramFail (bs : List Byte) (s : State) : State :=
  if s.fbRoom then
    let c := s.fbCur.getD 0
    (((s.setBytes (fbSlot c (s.fbFill c)) (slice bs 0 32)).fbRetire c).raise 14).fbEraseAfter 64 c
  else
    let i := s.fbTarget
    (((s.setBytes (fbBase i) (slice bs 0 32)).fbRetire i).raise 14).fbEraseAfter 64 i

/-- The record to be written next: of a wipe, of a loss (08 R251), of a restored save (15 R415), of the queue. -/
def State.fbHead (s : State) : Option FbRec :=
  if s.fbk.wipe.isSome then some (s.fbRec 7 0 0)
  else if s.fbk.dropped ≠ 0 then some (s.fbRec 6 0 (BitVec.ofNat 64 (sat 32 s.fbk.dropped)))
  else match s.fbk.restored with
    | r :: _ => some r
    | [] => s.fbk.queue.head?

/-- That record leaves the place where it waited. -/
def State.fbTake (s : State) : State :=
  if s.fbk.wipe.isSome then { s with fbk.wipe := none }
  else if s.fbk.dropped ≠ 0 then { s with fbk.dropped := 0 }
  else match s.fbk.restored with
    | _ :: l => { s with fbk.restored := l }
    | [] => { s with fbk.queue := s.fbk.queue.drop 1 }

/-- EV012 where that record reports a loss (08 R251). -/
def State.fbLoss (s : State) : Bool := s.fbk.wipe.isNone && decide (s.fbk.dropped ≠ 0)

/-- One turn of the writer: the next sector is opened where it must be, and one record is written once its bank is free. A
program that fails its verify ends the turn (08 R248, R251). -/
def State.fbStep (failed : Option (List Byte)) (s : State) : State :=
  if s.fbk.full || s.sys.splitAct.getLsbD 9 || s.fbBlocked then s
  else match failed with
    | some bs => if s.fbRoom && s.fbHead.isNone then s else s.fbProgramFail bs
    | none =>
      let t := s.fbReady
      if t.fbBlocked || !t.fbRoom then t
      else match t.fbHead with
        | none => t
        | some r => (t.fbTake.fbPut (fbSeal (r.body t.fbNextSeq))).raiseIf t.fbLoss 12

/-- A ring sector's erase has ended: a verify failure retires it with EV013 and EV014, and the sector after it is erased in
its place (08 R248); during a wipe every sector has its own erase. -/
def State.fbEraseEnd (i : Nat) (ok : Bool) (s : State) : State :=
  s.when (!ok) fun t =>
    let u := (t.fbRetire i).raise 14
    u.when u.fbk.wipe.isNone (State.fbEraseAfter 64 i)

/-- Start an erase that waited for this bank. -/
def State.fbEraseNext (bankB : Bool) (s : State) : State :=
  match s.fbk.eraseWait.find? fun i => decide (32 ≤ i.toNat) == bankB with
  | none => s
  | some i =>
    let t : State := { s with fbk.eraseWait := s.fbk.eraseWait.erase i }
    t.flashStartErase (fbSector i.toNat)

/-- SP_MODE.CUR is STOP or Limp: NONE, STOP, LOAD and FAULTSTOP read as STOP (02 Table 2.4; 09 R259, 16 R436). -/
def State.stopOrLimp (s : State) : Bool :=
  decide (s.boot.phase = .limp) ||
    (decide (s.boot.phase = .done) && !decide (s.ctl.pstate = .init) && !decide (s.ctl.pstate = .run))

/-- Erase every sector in service, one at its wear limit retired instead (08 R248), and then write a wipe record with SEQ 0
(08 R253). GEN goes on 64 above the highest, so that no record of a sector retired earlier counts any more (log 170). -/
def State.fbWipe (v : Word) (s : State) : State :=
  if v = 0xF1B0 ∧ s.stopOrLimp then
    let gen := match s.fbTop with | some c => s.fbGen c + 64 | none => 0
    State.each { s with fbk.wipe := some (BitVec.ofNat 32 gen), fbk.eraseWait := [] }
      ((List.range 64).filter s.fbInService) fun i u =>
        if 20000 ≤ u.wear (fbSector i) then u.fbRetire i else u.fbErase i
  else s

/-- At boot: a next sector that is not erased, or whose erase was abandoned, is erased before use (08 R247, R248, Corner
cases). -/
def State.fbBoot (s : State) : State := s.fbEraseAfter 64 (s.fbTop.getD 63)

/-! ### Read-out (08 R254) -/

/-- Load the read-out pointer with a SEQ; the oldest record, with GAP, where it is overwritten. -/
def State.fbStart (s : State) : State :=
  let l := s.fbRecs
  if l.any (·.1 == s.sp.fbSeq) then
    { s with sp.fbPtr := some s.sp.fbSeq, sp.fbWord := 0, sp.fbEnd := false, sp.fbGap := false }
  else { s with sp.fbPtr := l.head?.map (·.1), sp.fbWord := 0, sp.fbEnd := false, sp.fbGap := true }

/-- Load it with the newest committed record. -/
def State.fbNewest (s : State) : State :=
  { s with sp.fbPtr := s.fbRecs.getLast?.map (·.1), sp.fbWord := 0, sp.fbEnd := false, sp.fbGap := false }

/-- Address of the record the stream stands at. -/
def State.fbAt (s : State) : Option Nat := s.sp.fbPtr.bind fun q => (s.fbRecs.find? (·.1 == q)).map (·.2)

/-- The word waiting in SP_FB_DATA, 0 when none is. -/
def State.fbData (s : State) : Half :=
  match s.fbAt with
  | some a => BitVec.ofNat 16 (ofLe (s.bytesAt (a + 2 * s.sp.fbWord.toNat) 2))
  | none => 0

/-- A normal read advances the stream; END sets once the newest record is passed. -/
def State.fbAdvance (s : State) : State :=
  match s.sp.fbPtr, s.fbAt with
  | some q, some _ =>
    if s.sp.fbWord ≠ 15 then { s with sp.fbWord := s.sp.fbWord + 1 }
    else
      let rest := (s.fbRecs.dropWhile (·.1 != q)).drop 1
      match rest with
      | r :: _ => { s with sp.fbPtr := some r.1, sp.fbWord := 0 }
      | [] => { s with sp.fbPtr := some (q + 1), sp.fbWord := 0, sp.fbEnd := true }
  | _, _ => s

/-- SP_FB_STAT (02 Table 2.4). -/
def State.fbStat (s : State) : Half :=
  let av := s.fbAt.isSome
  packH [(15, av.toNat), (14, s.sp.fbEnd.toNat), (13, s.sp.fbGap.toNat), (0, if av then 16 - s.sp.fbWord.toNat else 0)]

/-! ### FBK_RAW (08 R252) -/

/-- The head record as the steward reads it: SEQ and CRC are the steward's to fill in (log 20). -/
def FbRec.rawWords (r : FbRec) : List Word :=
  let bs := r.body 0 ++ [0, 0, 0xFF, 0xFF]
  (List.range 8).map fun i => BitVec.ofNat 32 (ofLe (slice bs (4 * i) 4))

/-- FBK_RAW0: the head record is offered while the steward writes the Field Book. -/
def State.fbRaw0 (s : State) : Word :=
  if s.sys.splitAct.getLsbD 9 then ((s.fbHead.map fun r => r.rawWords.headD 0)).getD 0 else 0

/-- A normal read of FBK_RAW0 pops the head after RAW1 to RAW7 are latched; a loss record that it takes raises EV012. -/
def State.fbRawPop (s : State) : State :=
  match s.sys.splitAct.getLsbD 9, s.fbHead with
  | true, some r =>
    let w := r.rawWords
    let t := s.fbTake
    State.raiseIf s.fbLoss 12 { t with fbk.raw := (fins 8).foldl (fun v i => upd v i fun _ => w.getD i.val 0) t.fbk.raw }
  | _, _ => s

end Sys2Proof.Machine
end

