-- ==== Sys2Proof/Machine/Records.lean ====
section
/-! DEFINITION. The commands of chapter 08: cairns, the event controller, the Field Book. -/
namespace Sys2Proof.Machine

/-! ### Cairns (08 R239 to R241) -/

/-- A request for a port's cairn at an instant: held and merged while the port is BUSY, but one of the core cycle that made
it BUSY is part of that same cairn (08 R240). -/
def CntPort.request (now : Dword) (clr : Bool) (c : CntPort) : CntPort :=
  match c.busy with
  | none => { c with busy := some clr, busyAt := now }
  | some b =>
    if c.busyAt = now then { c with busy := some (b || clr) } else { c with held := some ((c.held.getD false) || clr) }

def State.cairnRequest (p : Fin 8) (clr : Bool) (s : State) : State :=
  { s with cnt := upd s.cnt p (CntPort.request s.tre.time clr) }

/-- A write of CNT_CAIRN (08 R240). -/
def State.cairnWrite (v : Word) (s : State) : State :=
  let p : Fin 8 := ⟨fld v 0 3, Nat.mod_lt _ (by decide)⟩
  let t := s.setReg Reg.CNT_CAIRN v
  t.when (v.getLsbD 31) (State.cairnRequest p (v.getLsbD 30))

/-- The copy at the end of cycle C (08 R239, R241). -/
def State.cairnCopy (p : Fin 8) (s : State) : State :=
  let c := s.cnt.get p
  match c.busy with
  | none => s
  | some clr =>
    let b : CairnBank := ⟨c.ctr, s.tre.time, s.tre.tcount, c.bank.cseq + 2, clr⟩
    let c' : CntPort := { c with
      bank := b
      ctr := if clr then Vector.replicate 48 0 else c.ctr
      busy := c.held
      held := none }
    State.raise 152 { s with cnt := upd s.cnt p fun _ => c' }

/-- CNT_AUTO at a T0 whose TCOUNT is a multiple of NTRAV (08 R240). -/
def State.cairnAuto (tcount : Word) (s : State) : State :=
  let n := s.regFld Reg.CNT_AUTO 16 8
  if n ≠ 0 ∧ tcount.toNat % n = 0 then
    s.each ((fins 8).filter fun p => s.regBit Reg.CNT_AUTO p.val) fun p t => t.cairnRequest p (s.regBit Reg.CNT_AUTO 8)
  else s

def execCairnRequest (v : Word) (s : State) : Result := .next (s.cairnWrite v)

def execCairn (p : Fin 8) (s : State) : Result := .next (s.when s.coreRuns fun s => s.cairnCopy p)

/-! ### Events (08 R242 to R245, R475) -/

/-- What a normal read of a claim register answers (08 R243). -/
def State.claimVal (s : State) (h : Hart) : Word :=
  match s.bestEvent (match h with | .control => s.evt.pendC | .steward => s.evt.pendS) with
  | some n => packW [(31, 1), (0, n)]
  | none => 0

/-- It clears the pending bit of the event it returns. -/
def State.claimFx (h : Hart) (s : State) : State :=
  match h with
  | .control => match s.bestEvent s.evt.pendC with
    | some n => { s with evt.pendC := clrBit s.evt.pendC n }
    | none => s
  | .steward => match s.bestEvent s.evt.pendS with
    | some n => { s with evt.pendS := clrBit s.evt.pendS n }
    | none => s

/-- A write of EVT_SOFT raises the event in the event controller only (08 R475). -/
def execEvtSoft (v : Word) (s : State) : Result := .next (s.raise (fld v 0 8))

/-! ### Field Book (08 R246 to R253) -/

def execFbRecordWrite (failed : Option (List Byte)) (s : State) : Result :=
  .next (s.when s.coreRuns (State.fbStep failed))

/-- The RATE interval of a source ends: its folded raises become one record, with DATA of the last (08 R251, Table 8.4). -/
def State.fbFoldEnd (ev : Byte) (s : State) : State :=
  match s.fbk.folds.find? (·.1 == ev) with
  | none => s
  | some (_, n, data) =>
    let rest := s.fbk.folds.filter (·.1 != ev)
    if n = 0 then { s with fbk.folds := rest }
    else
      let t : State := { s with fbk.folds := rest ++ [(ev, 0, 0)] }
      t.fbQueue { t.fbRec 1 ev data with repeat_ := n }

def execFbRepeatExpiry (ev : Byte) (s : State) : Result := .next (s.when s.coreRuns fun s => s.fbFoldEnd ev)

/-- DATA of a health record (08 Table 8.4). -/
def State.healthData (s : State) : Dword :=
  let temp : Byte := (s.sys.temp.sshiftRight 1).setWidth 8
  BitVec.ofNat 64 (s.sys.veh.toNat + temp.toNat * 2 ^ 16 + s.stateCode * 2 ^ 24 + (s.links.toNat % 256) * 2 ^ 32 +
    s.tre.mutes.toNat * 2 ^ 40 + sat 8 s.ctl.overruns.toNat * 2 ^ 48 + s.svy.health.toNat * 2 ^ 56)

/-- The health interval ends (08 Table 8.4, FBK_CTL.HEALTH; 0 is off). -/
def execFbHealthTimer (s : State) : Result := .next (s.when s.coreRuns fun s =>
    if s.regFld Reg.FBK_CTL 16 12 = 0 then s else s.fbQueue (s.fbRec 2 0 s.healthData))

/-- A user record (08 Table 8.4, type 0x10). -/
def State.fbUser (w0 w1 : Word) (s : State) : State :=
  s.fbQueue (s.fbRec 0x10 0 (BitVec.ofNat 64 (w0.toNat + w1.toNat * 2 ^ 32)))

def State.fbUserGo (v : Word) (s : State) : State :=
  s.when (v.getLsbD 0) (State.fbUser (s.reg Reg.FBK_USER) (s.reg (Reg.FBK_USER + 4)))

def execFbkUsergo (v : Word) (s : State) : Result := .next (s.fbUserGo v)

def execFbkWipe (v : Word) (s : State) : Result := .next (s.fbWipe v)

end Sys2Proof.Machine
end

