-- ==== Sys2Proof/Machine/Signal.lean ====
section
/-! DEFINITION. The line signal as arithmetic on bits: frame control, tone maps, coding and mapping (04 R101 to R118). -/
namespace Sys2Proof.Machine

/-! ### Frame control (04 R105, R106, Table 4.3) -/

/-- Frame types. -/
inductive FType where
  | traverse | road | survey | reserved
  deriving DecidableEq, Repr

def FType.code : FType → Nat
  | .traverse => 0 | .road => 1 | .survey => 2 | .reserved => 3

/-- The four bytes of frame control. -/
def fcBytes (t : FType) (tmi : Nat) (pass : Bool) (len : Nat) : List Byte :=
  let b := [BitVec.ofNat 8 (t.code * 64 + tmi * 4 + pass.toNat * 2)] ++ beBytes 2 len
  b ++ [crc8 b]

def fcOk (fc : List Byte) : Bool := decide (crc8 (slice fc 0 3) = byteAt fc 3)

def fcType (fc : List Byte) : FType :=
  match fld (byteAt fc 0) 6 2 with
  | 0 => .traverse | 1 => .road | 2 => .survey | _ => .reserved

def fcTmi (fc : List Byte) : Nat := fld (byteAt fc 0) 2 4

def fcPass (fc : List Byte) : Bool := (byteAt fc 0).getLsbD 1

def fcLen (fc : List Byte) : Nat := beAt fc 1 2 % 8192

/-- A receiver discards the frame: FCCRC, TYPE, TMI (04 R106). -/
def fcDiscards (fc : List Byte) : Bool :=
  !fcOk fc || decide (fcType fc = .reserved) || (decide (12 ≤ fcTmi fc) && decide (fcTmi fc ≤ 14)) ||
    (decide (fcType fc = .survey) && decide (fcTmi fc ≠ 15))

/-! ### Tone map records (04 R115, R116, Table 4.7) -/

/-- Bits a loading carries: off, BPSK, QPSK, 16-QAM, 64-QAM. -/
def loadBits : Nat → Nat
  | 1 => 1 | 2 => 2 | 3 => 4 | 4 => 6 | _ => 0

/-- A record as a slot holds it: its reserved bits read 0 (00 R9; 04 Table 4.7). -/
def tmClean (r : List Byte) : List Byte :=
  r.zipIdx.map fun x => if x.2 = 0 then x.1 &&& 0xFC else if x.2 = 4 ∨ x.2 = 5 then 0 else x.1

/-- Loading of usable carrier i, carrier 13 + i. -/
def tmLoad (r : List Byte) (i : Nat) : Nat := fld (byteAt r (6 + i / 2)) (4 * (i % 2)) 4

def tmLoads (r : List Byte) : List Nat := (List.range 180).map (tmLoad r)

def tmTmi (r : List Byte) : Nat := fld (byteAt r 0) 4 4

def tmRate (r : List Byte) : Nat := fld (byteAt r 0) 2 2

def tmSeq (r : List Byte) : Byte := byteAt r 1

def tmNbits (r : List Byte) : Nat := beAt r 2 2

/-- Numerator and denominator of a rate code. -/
def rateFrac : Nat → Nat × Nat
  | 0 => (1, 2) | 1 => (2, 3) | _ => (3, 4)

/-- Data bits per symbol of a map (04 R116). -/
def tmNdbps (r : List Byte) : Nat := tmNbits r * (rateFrac (tmRate r)).1 / (rateFrac (tmRate r)).2

/-- A record put together: TMI, rate, SEQ, loadings. -/
def tmRecord (tmi rate : Nat) (seq : Byte) (loads : List Nat) : List Byte :=
  [BitVec.ofNat 8 (tmi * 16 + rate * 4), seq] ++ beBytes 2 ((loads.map loadBits).foldl (· + ·) 0) ++ [0, 0] ++
    (List.range 90).map fun j => BitVec.ofNat 8 (loads.getD (2 * j) 0 + 16 * loads.getD (2 * j + 1) 0)

/-- A record is valid (04 R116); `masked i` says that carrier 13 + i is masked. -/
def tmValid (masked : Nat → Bool) (r : List Byte) : Bool :=
  let l := tmLoads r
  decide (tmNbits r = (l.map loadBits).foldl (· + ·) 0) && decide (tmNbits r ≠ 0) && decide (tmNbits r % 12 = 0) &&
    l.all (· ≤ 4) && (List.range 180).all (fun i => !masked i || decide (l.getD i 0 = 0)) && decide (tmRate r ≠ 3) &&
    !(decide (tmRate r = 2) && l.contains 4)

/-- Two maps are equal in every loading and in their rate (04 R120). -/
def tmSame (a b : List Byte) : Bool := decide (tmRate a = tmRate b) && decide (tmLoads a = tmLoads b)

/-! ### Building a map from SNR (04 R118, Table 4.8) -/

/-- Threshold in 0.5 dB units; none where the loading is not allowed at the rate. -/
def snrThr (rate load : Nat) : Option Nat :=
  match rate, load with
  | 0, 1 => some 6 | 0, 2 => some 12 | 0, 3 => some 24 | 0, 4 => some 36
  | 1, 1 => some 8 | 1, 2 => some 16 | 1, 3 => some 28 | 1, 4 => some 40
  | 2, 1 => some 10 | 2, 2 => some 18 | 2, 3 => some 30
  | _, _ => none

/-- The loading an SNR reaches; a loading above that in force needs 2 dB more (in 0.5 dB units: 4). -/
def loadFor (rate margin : Nat) (inForce : Option Nat) (snr : Nat) : Nat :=
  (([4, 3, 2, 1].find? fun l => match snrThr rate l with
    | none => false
    | some t =>
      let need := t + 2 * margin + (match inForce with | some c => if c < l then 4 else 0 | none => 0)
      decide (need ≤ snr))).getD 0

def loadsFor (masked : Nat → Bool) (rate margin : Nat) (inForce : Option (List Nat)) (snr : List Nat) : List Nat :=
  (List.range 180).map fun i =>
    if masked i then 0 else loadFor rate margin (inForce.map fun l => l.getD i 0) (snr.getD i 0)

/-- Lower by one step the loaded carrier with the least surplus over its threshold, the lowest index among equals. -/
def lowerOne (rate : Nat) (snr loads : List Nat) : List Nat :=
  let cand := (List.range 180).filter fun i => decide (loads.getD i 0 ≠ 0)
  let surplus i : Int := Int.ofNat (snr.getD i 0) - Int.ofNat ((snrThr rate (loads.getD i 0)).getD 0)
  match cand.foldl (fun b i => match b with
      | none => some i
      | some j => if surplus i < surplus j then some i else some j) none with
  | none => loads
  | some i => loads.set i (loads.getD i 0 - 1)

/-- Lower loadings until NBITS is a multiple of 12. -/
def trimLoads (rate : Nat) (snr : List Nat) : Nat → List Nat → List Nat
  | 0, l => l
  | k + 1, l => if (l.map loadBits).foldl (· + ·) 0 % 12 = 0 then l else trimLoads rate snr k (lowerOne rate snr l)

/-- Rate and loadings built from an SNR vector. -/
def buildMap (masked : Nat → Bool) (margin : Nat) (inForce : Option (List Nat)) (snr : List Nat) : Nat × List Nat :=
  let n r := ((loadsFor masked r margin inForce snr).map loadBits).foldl (· + ·) 0
  let r := if n 2 * 9 > n 0 * 6 ∧ n 2 * 9 > n 1 * 8 then 2 else if n 1 * 8 > n 0 * 6 then 1 else 0
  (r, trimLoads r snr 1080 (loadsFor masked r margin inForce snr))

/-! ### Payload coding (04 R107 to R113) -/

/-- Payload symbols of a body of LEN bytes (04 R107). -/
def nsym (ndbps len : Nat) : Nat := (8 * (len + 4) + ndbps - 1) / ndbps

/-- Frame length in symbols (04 R104). -/
def frameSymbols (road : Bool) (ndbps len : Nat) : Nat := (if road then 4 else 3) + nsym ndbps len

/-- The CRC-32 a frame is sent with; the regenerator of a frame that failed inverts it (04 R125). -/
def sentCrc (bad : Bool) (body : List Byte) : Word := if bad then ~~~ (crc32 body) else crc32 body

/-- The bit stream of the payload: body then CRC-32 as IEEE 802.3 sends it, first bit least significant (04 R107, R114). -/
def payloadBits (bad : Bool) (body : List Byte) : List Bool :=
  (body ++ leBytes 4 (sentCrc bad body).toNat).flatMap bitsLsb

/-- The blocks of N_dbps bits, the last padded with zeros. -/
def blocks (ndbps : Nat) : Nat → List Bool → List (List Bool)
  | 0, _ => []
  | k + 1, bs =>
    let b := bs.take ndbps
    (b ++ List.replicate (ndbps - b.length) false) :: blocks ndbps k (bs.drop ndbps)

/-- Parity of the taps of a generator over a window of seven bits, the current input bit first. -/
def tap (g : Nat) (win : List Bool) : Bool :=
  (List.range 7).foldl (fun p i => p != (Nat.testBit g (6 - i) && win.getD i false)) false

/-- Outputs A and B of each input bit, the register preloaded with the last six bits (04 R108). -/
def convPairs (b : List Bool) : List (Bool × Bool) :=
  let n := b.length
  (List.range n).map fun i =>
    let win := (List.range 7).map fun k => b.getD ((i + n * 7 - k) % n) false
    (tap 0o133 win, tap 0o171 win)

/-- Puncturing, restarting at each block (04 R109, Table 4.4). -/
def puncture (rate : Nat) (ps : List (Bool × Bool)) : List Bool :=
  (List.range ps.length).flatMap fun i =>
    let p := ps.getD i (false, false)
    match rate, i % (match rate with | 0 => 1 | 1 => 2 | _ => 3) with
    | 0, _ => [p.1, p.2]
    | 1, 0 => [p.1, p.2]
    | 1, _ => [p.1]
    | _, 0 => [p.1, p.2]
    | _, 1 => [p.1]
    | _, _ => [p.2]

/-- The interleaver: written by rows of 16, read by columns (04 R110). -/
def interleave (bs : List Bool) : List Bool :=
  (List.range 16).flatMap fun c =>
    ((List.range ((bs.length + 15) / 16)).filter fun r => decide (r * 16 + c < bs.length)).map
      fun r => bs.getD (r * 16 + c) false

/-- One carrier of a symbol: carrier number, and its complex amplitude (i + j q) / sqrt norm, turned by deg degrees (04
R103, R112). -/
structure Carrier where
  k : Nat
  i : Int
  q : Int
  norm : Nat
  deg : Nat
  deriving DecidableEq, Repr

/-- A symbol as its carriers; every carrier that is not listed is at zero amplitude, and the empty list is silence. -/
abbrev Symbol := List Carrier

/-- The square of the scaling of Table 4.5: BPSK 1, QPSK 2, 16-QAM 10, 64-QAM 42 (04 R112). -/
def loadNorm : Nat → Nat
  | 2 => 2 | 3 => 10 | 4 => 42 | _ => 1

/-- Level of one axis from its bits, first bit first (04 Table 4.5). -/
def axisLevel : List Bool → Int
  | [false] => 1 | [true] => -1
  | [false, false] => 3 | [false, true] => 1 | [true, true] => -1 | [true, false] => -3
  | [false, false, false] => 7 | [false, false, true] => 5 | [false, true, true] => 3 | [false, true, false] => 1
  | [true, true, false] => -1 | [true, true, true] => -3 | [true, false, true] => -5 | [true, false, false] => -7
  | _ => 0

/-- The carriers of one symbol under a map (04 R111, R112). -/
def mapSymbol (loads : List Nat) : Nat → List Bool → Symbol
  | 0, _ => []
  | m + 1, bs =>
    let i := 180 - (m + 1)
    let l := loads.getD i 0
    let n := loadBits l
    if n = 0 then mapSymbol loads m bs
    else
      let b := bs.take n
      let iq := if n = 1 then (axisLevel b, 0) else (axisLevel (b.take (n / 2)), axisLevel (b.drop (n / 2)))
      ⟨13 + i, iq.1, iq.2, loadNorm l, 0⟩ :: mapSymbol loads m (bs.drop n)

/-- The carriers of one robust symbol (04 R113). -/
def mapRobust (masked : Nat → Bool) (bs : List Bool) : Symbol :=
  let u := (List.range 180).filter fun i => !masked i
  let m := u.length
  (List.range m).map fun i =>
    let j := if i < 90 then i else i - (m - 90)
    ⟨13 + u.getD i 0, axisLevel [bs.getD j false], 0, 1, 0⟩

/-- A robust symbol of 45 data bits. -/
def robustSymbol (masked : Nat → Bool) (b : List Bool) : Symbol := mapRobust masked (interleave (puncture 0 (convPairs b)))

/-- Every payload symbol of a frame: under a map's record, or robust (04 R107 to R113). -/
def payloadSymbols (masked : Nat → Bool) (record : Option (List Byte)) (bad : Bool) (body : List Byte) : List Symbol :=
  match record with
  | some r =>
    (blocks (tmNdbps r) (nsym (tmNdbps r) body.length) (payloadBits bad body)).map fun b =>
      mapSymbol (tmLoads r) 180 (interleave (puncture (tmRate r) (convPairs b)))
  | none => (blocks 45 (nsym 45 body.length) (payloadBits bad body)).map (robustSymbol masked)

/-! ### The symbols of a frame (04 R101 to R105; 07 R209) -/

/-- The preamble symbol P: carrier k at exp(j pi (k - 13)^2 / 180), which is (k - 13)^2 degrees, unless it is masked or on
the comb left silent (04 R103, 07 R209). -/
def preamble (masked : Nat → Bool) (comb : Option (Fin 4)) : Symbol :=
  ((List.range 180).filter fun i => !masked i && decide (comb.map Fin.val ≠ some ((13 + i) % 4))).map fun i =>
    ⟨13 + i, 1, 0, 1, i * i % 360⟩

/-- The 45 data bits of the FC symbol: the four bytes, then 13 zeros (04 R105). -/
def fcBits (fc : List Byte) : List Bool := (slice fc 0 4).flatMap bitsLsb ++ List.replicate 13 false

/-- The FC symbol, always robust (04 R105). -/
def fcSymbol (masked : Nat → Bool) (fc : List Byte) : Symbol := robustSymbol masked (fcBits fc)

/-- Carrier 13 + i is masked in a frame as sent. -/
def LineTx.masked (x : LineTx) (i : Nat) : Bool := x.mask.getLsbD i

/-- The symbols of a frame in the order sent: P, P, the silent listen symbol of an Open Road frame, FC, payload (04 R104).
A symbol that this unit leaves to the other unit of its car is silence here (01 R20; 06 R177). -/
def LineTx.symbols (x : LineTx) : List Symbol :=
  let pay := payloadSymbols x.masked x.map x.bad x.body
  let send (y : Symbol) : Symbol := if x.head then y else []
  [send (preamble x.masked (x.combs.map (·.1))), send (preamble x.masked (x.combs.map (·.2)))] ++
    (if fcType x.fc = .road then [[]] else []) ++ [send (fcSymbol x.masked x.fc)] ++
    match x.only with
    | some js => (List.range pay.length).map fun j => if js.contains j then pay.getD j [] else []
    | none => pay

/-- Sample rate in samples a second, FFT size, guard and symbol length in samples (04 Table 4.2). -/
def sampleRate : Nat := 80000000
def fftSize : Nat := 512
def guardSamples : Nat := 128
def symbolSamples : Nat := guardSamples + fftSize

/-- Symbol time in ns: 8.0 us (04 Table 4.2). -/
def symbolNs : Nat := symbolSamples * 1000000000 / sampleRate

/-- Sample n of a symbol is this sample of its useful part: the guard is a copy of the last 128 (04 Table 4.2). -/
def usefulSample (n : Nat) : Nat := (n + fftSize - guardSamples) % fftSize

/-- Sample n of a symbol: each carrier with the part of a turn, in 512ths, by which it has turned there; the sample is the
real part of their sum (04 Table 4.2: carrier k turns k times in the useful part). -/
def symbolSample (y : Symbol) (n : Nat) : List (Carrier × Nat) := y.map fun c => (c, c.k * usefulSample n % fftSize)

/-! ### Impulse blanking (04 R127) -/

/-- Sample n of a frame is zeroed: within BLEXT of a sample that exceeds the running RMS by more than BLTHR. -/
def zeroed (thr ext : Nat) (peaks : List (Nat × Nat)) (n : Nat) : Bool :=
  peaks.any fun x => decide (thr < x.2) && decide (n ≤ x.1 + ext) && decide (x.1 ≤ n + ext)

/-- Symbol j of a frame is erased: more than 25 % of its useful samples are zeroed. -/
def symbolErased (thr ext : Nat) (peaks : List (Nat × Nat)) (j : Nat) : Bool :=
  !peaks.isEmpty && decide (fftSize < 4 * ((List.range fftSize).filter fun n =>
    zeroed thr ext peaks (symbolSamples * j + guardSamples + n)).length)

end Sys2Proof.Machine
end

