-- ==== Sys2Proof/Machine/Line.lean ====
section
/-! DEFINITION. The line ports: roles, maps held, what every received frame does, what every sent frame does, port states
and timestamps (04 R104 to R136; 01 R22; 08 Table 8.1). -/
namespace Sys2Proof.Machine

/-! ### Roles of the ports (01 R22, Table 1.1) -/

/-- Ports are A1 = 0, A2 = 1, B1 = 2, B2 = 3. -/
def State.outIn (s : State) : Fin 4 := if s.svy.orient then 1 else 0
def State.outOut (s : State) : Fin 4 := if s.svy.orient then 0 else 1
def State.retIn (s : State) : Fin 4 := if s.svy.orient then 2 else 3
def State.retOut (s : State) : Fin 4 := if s.svy.orient then 3 else 2

/-- The ports toward the tail and toward the head, first choice first (07 R214). -/
def State.tailPorts (s : State) : List (Fin 4) := [s.outOut, s.retIn]
def State.headPorts (s : State) : List (Fin 4) := [s.retOut, s.outIn]

def State.isTailPort (s : State) (p : Fin 4) : Bool := s.tailPorts.contains p

/-! ### Ports -/

def State.port (s : State) (p : Fin 4) : Port := s.liu.ports.get p

def State.modPort (p : Fin 4) (f : Port → Port) (s : State) : State :=
  { s with liu.ports := upd s.liu.ports p f }

/-- LIU_PCFG of a port. -/
def State.pcfg (s : State) (p : Fin 4) : Word := s.reg (Reg.LIU_PCFG + 0x1000 * p.val)

/-- Carrier 13 + i is masked (04 R102). -/
def State.masked (s : State) (i : Nat) : Bool := s.regArrBit Reg.LIU_MASK i

/-- The mask as one bit string. -/
def State.maskBits (s : State) : BitVec 180 :=
  BitVec.ofNat 180 (((List.range 6).map fun i => (s.reg (Reg.at Reg.LIU_MASK i)).toNat * 2 ^ (32 * i)).foldl (· + ·) 0)

/-- Masked carriers of a mask of six words. -/
def maskCount (w : List Word) : Nat := (w.map fun x => (bitsOf x).length).foldl (· + ·) 0

/-- The line domain works: the node is out of reset, its clock runs, P0 is in service and the node is not in Walk mode
(02 R61, 16 P0). -/
def State.lineUp (s : State) : Bool :=
  decide (s.sys.phase = .running) && !s.sys.clkFault && decide (s.sys.parts.get 0 ≠ .quiesced) &&
    decide (s.sys.parts.get 0 ≠ .resetting) && decide (s.sys.parts.get 0 ≠ .failed) && !s.sp.walk && !s.sp.walkEntering

/-- A port works: enabled, and the line domain runs. -/
def State.portUp (s : State) (p : Fin 4) : Bool := s.lineUp && (s.port p).enabled

/-- A port is usable for sending: up, and not dead (04 R132). -/
def State.canSend (s : State) (p : Fin 4) : Bool := s.portUp p && decide ((s.port p).state ≠ .dead)

/-! ### Maps held (04 R106, R122, R136) -/

/-- The record of a TMI on a port, if the port holds a valid one. -/
def State.heldMap (s : State) (p : Fin 4) (tmi : Nat) : Option (List Byte) :=
  let r := if tmi < 8 then (s.port p).slots.getD tmi [] else if tmi < 12 then s.liu.rtm.getD (tmi - 8) [] else []
  if tmValid s.masked r then some r else none

def State.holdsTmi (s : State) (p : Fin 4) (tmi : Nat) : Bool := decide (tmi = 15) || (s.heldMap p tmi).isSome

/-- Data bits per symbol under a TMI on a port; 45 in robust mode. -/
def State.ndbps (s : State) (p : Fin 4) (tmi : Nat) : Nat := ((s.heldMap p tmi).map tmNdbps).getD 45

/-- Data bits per symbol of the ring map. -/
def State.ringNdbps (s : State) (tmi : Nat) : Nat := s.ndbps 0 tmi

/-! ### SNR estimate (04 R117) -/

/-- The impulse blanking of a port erases symbol j of a received frame (04 R127). -/
def State.erasedAt (s : State) (f : RxFrame) (j : Nat) : Bool :=
  let b := s.reg (Reg.LIU_PCFG + 0x1000 * f.port.val + 0xC)
  (s.pcfg f.port).getLsbD 14 && symbolErased (fld b 0 8) (fld b 8 8) f.peaks j

/-- Symbols before the payload: P, P, the listen symbol of an Open Road frame, and FC (04 R104). -/
def headSymbols (fc : List Byte) : Nat := if fcType fc = .road then 4 else 3

/-- Payload symbols of a received frame. -/
def State.rxNsym (s : State) (f : RxFrame) : Nat := nsym (s.ndbps f.port (fcTmi f.fc)) f.body.length

/-- Payload symbols of a received frame that are erased. -/
def State.erasedPay (s : State) (f : RxFrame) : List Nat :=
  (List.range (s.rxNsym f)).filter fun j => s.erasedAt f (headSymbols f.fc + j)

/-- One decoded symbol enters the sums: a plain mean over 256 symbols, then an exponential average. -/
def Port.snrStep (snr : List Byte) (c : Port) : Port :=
  let old := if c.snrSum.isEmpty then List.replicate 180 0 else c.snrSum
  let add i := (byteAt snr i).toNat
  if c.snrCount < 256 then
    { c with snrSum := (List.range 180).map fun i => old.getD i 0 + add i, snrCount := c.snrCount + 1 }
  else { c with snrSum := (List.range 180).map fun i => old.getD i 0 - old.getD i 0 / 256 + add i }

def Port.snrSteps (snr : List Byte) : Nat → Port → Port
  | 0, c => c
  | k + 1, c => (c.snrStep snr).snrSteps snr k

/-- The estimate per carrier in 0.5 dB units; 0 before the first symbol and for masked carriers. -/
def State.snrOf (s : State) (p : Fin 4) : List Nat :=
  let c := s.port p
  (List.range 180).map fun i => if c.snrCount = 0 ∨ s.masked i then 0 else min 255 (c.snrSum.getD i 0 / c.snrCount)

/-- LIU_CTL.MARGIN. -/
def State.margin (s : State) : Nat := s.regFld Reg.LIU_CTL 12 4

/-- The segment map in use on a port (04 R120). -/
def State.segMap (s : State) (p : Fin 4) : Option (List Byte) := s.heldMap p (s.port p).stmi.toNat

/-- The ring map in use. -/
def State.ringMap (s : State) : Option (List Byte) := s.heldMap 0 s.liu.rtmi.toNat

/-- The map built from the port's own estimate, LIU_TMEST (04 R118). -/
def State.ownMap (s : State) (p : Fin 4) : Nat × List Nat :=
  buildMap s.masked s.margin ((s.segMap p).map tmLoads) (s.snrOf p)

/-- Mean SNR over the loaded carriers in dB; over every unmasked carrier in robust mode (04 LIU_PSTAT.SNR). -/
def State.meanSnr (s : State) (p : Fin 4) : Nat :=
  let used i := match s.segMap p with
    | some r => decide (tmLoad r i ≠ 0)
    | none => !s.masked i
  let l := (List.range 180).filter used
  let snr := s.snrOf p
  if l.isEmpty then 0 else min 63 ((l.map fun i => snr.getD i 0).foldl (· + ·) 0 / l.length / 2)

/-! ### Port states (04 R130) -/

/-- A transition of the state code raises EV032 + p; silent and disabled ports hold no JAM, and a port that is not locked
does not keep its segment map over a survey (04 R123). -/
def State.portTo (p : Fin 4) (st : PortState) (s : State) : State :=
  if (s.port p).state = st then s
  else (s.modPort p fun c => { c with
    state := st, jam := if st = .silent then false else c.jam, kept := c.kept && decide (st = .locked) }).raise (32 + p.val)

/-- Jam, silence and SNR evaluation of a port is suspended while it transmits (04 R131). -/
def State.suspended (s : State) (p : Fin 4) : Bool := s.txen p

/-- The window of the held level: the last Traverse period, or 16 ms where no Traverse of an epoch was received (04 R130). -/
def State.heldNs (s : State) (p : Fin 4) : Nat := if (s.port p).heard then s.periodNs else 16000000

/-- Levels heard on a port within its window. -/
def State.heldLevels (s : State) (p : Fin 4) : List (Dword × Byte) :=
  (s.port p).levels.filter fun x => decide ((s.tre.time - x.1).toNat ≤ s.heldNs p)

/-- The held level, as RXLVL reports it: the highest level in the window, which is the least figure (04 R130). -/
def State.heldLvl (s : State) (p : Fin 4) : Byte :=
  match s.heldLevels p with
  | [] => (s.port p).rxlvl
  | x :: t => t.foldl (fun m y => if y.2 < m then y.2 else m) x.2

/-- A level heard at a local time enters the window; it stays the level of the port until another is heard, since a carrier or
a jam that goes on stays at it, or until PORT_SILENT (04 R130; log 203). -/
def State.levelHeard (p : Fin 4) (at_ : Dword) (lvl : Byte) (s : State) : State :=
  s.modPort p fun c => { c with levels := (at_, lvl) :: s.heldLevels p, rxlvl := lvl }

/-- The running second of local time, for ERPS. -/
def State.second (s : State) : Nat := s.tre.time.toNat / 1000000000

/-- Seconds that have ended: ERPS is the count of the last full one (04 Registers, ERPS). -/
def Port.erRoll (sec : Nat) (c : Port) : Port :=
  if sec = c.erSec then c
  else { c with erps := if sec = c.erSec + 1 then BitVec.ofNat 8 (sat 8 c.erNow) else 0, erNow := 0, erSec := sec }

/-- ERPS follows local time; reaching ERMAX raises EV044 + p (04 LIU_BLANK, Table 4.11). -/
def State.erRoll (p : Fin 4) (s : State) : State :=
  let old := (s.port p).erps.toNat
  let m := fld (s.reg (Reg.LIU_PCFG + 0x1000 * p.val + 0xC)) 16 8
  let t := s.modPort p (Port.erRoll s.second)
  t.raiseIf (decide (old < m) && decide (m ≤ (t.port p).erps.toNat)) (44 + p.val)

/-- Symbols erased are counted in the running second. -/
def State.erAdd (p : Fin 4) (k : Nat) (s : State) : State :=
  if k = 0 then s else (s.erRoll p).modPort p fun c => { c with erNow := c.erNow + k }

/-! ### Receiving (04 R105, R106, R130, R133; 08 Table 8.1) -/

/-- The received CRC-32 holds for the body decoded (04 R114). -/
def State.crcOk (_s : State) (f : RxFrame) : Bool := decide (crc32 f.body = f.crc) && decide (fcLen f.fc = f.body.length)

/-- What becomes of a received frame before its body is looked at: nothing on a port that does not work or where a P symbol
is erased (04 Corner cases). -/
inductive RxClass where
  | nothing | header | noMap | erased | badCrc | good
  deriving DecidableEq, Repr

def State.rxClass (s : State) (f : RxFrame) : RxClass :=
  if !s.portUp f.port || s.erasedAt f 0 || s.erasedAt f 1 then .nothing
  else if s.erasedAt f (headSymbols f.fc - 1) || fcDiscards f.fc then .header
  else if !s.holdsTmi f.port (fcTmi f.fc) then .noMap
  else if !(s.erasedPay f).isEmpty then .erased
  else if s.crcOk f then .good
  else .badCrc

/-- A valid FCCRC: the timestamp is latched, JAM clears, and a port in carrier locks. -/
def State.rxFc (f : RxFrame) (s : State) : State :=
  let cpl := s.regFld (Reg.LIU_PCFG + 0x1000 * f.port.val) 24 8
  let t := s.modPort f.port fun c => { c with tsrx := f.ts - BitVec.ofNat 64 cpl, jam := false }
  if (t.port f.port).state = .carrier then t.portTo f.port .locked else t

/-- The time of the first sample at the line terminals (04 R133). -/
def State.tsrxOf (s : State) (f : RxFrame) : Nat :=
  (f.ts - BitVec.ofNat 64 (s.regFld (Reg.LIU_PCFG + 0x1000 * f.port.val) 24 8)).toNat

/-- Counters of a good frame on a line port (08 Table 8.1). -/
def State.rxCount (f : RxFrame) (s : State) : State :=
  let p := f.port.val
  let len := f.body.length
  let a := ((s.count1 p 0).count p 1 (len + 4)).count1 p (4 + sizeClass [64, 255, 511, 1023, 2047] len)
  match fcType f.fc with
  | .traverse => a.count1 p 14
  | .survey => a.count1 p 15
  | _ =>
    let prio := fld (byteAt f.body 0) 5 3
    let b := (a.count1 p (if (byteAt f.body 0).getLsbD 4 then 11 else 10)).count1 p (18 + prio)
    let c := if byteAt f.body 1 = 5 then b.count1 p 16 else b
    let d := if byteAt f.body 1 = 3 then c.count1 p 46 else c
    if fcTmi f.fc = 15 then d.count1 p 17 else d

/-- The payload symbols decoded enter the SNR estimate: not those erased, and none while the port transmits (04 R117,
R131). -/
def State.rxSnr (f : RxFrame) (s : State) : State :=
  if f.snr.isEmpty || s.suspended f.port then s
  else s.modPort f.port (Port.snrSteps f.snr (s.rxNsym f - (s.erasedPay f).length))

/-- Symbols of a received frame that are erased. -/
def State.erasedAll (s : State) (f : RxFrame) : Nat :=
  ((List.range (headSymbols f.fc + s.rxNsym f)).filter (s.erasedAt f)).length

/-- What a port that works takes from the signal of any frame: its level, and its erased symbols (04 R127, R130). -/
def State.rxLevel (f : RxFrame) (s : State) : State :=
  if !s.portUp f.port then s
  else
    let stop := f.ts + BitVec.ofNat 64 (symbolNs * (headSymbols f.fc + s.rxNsym f))
    ((s.levelHeard f.port f.ts f.lvl).modPort f.port fun c => { c with busyTo := some stop }).erAdd f.port (s.erasedAll f)

/-- What reception does whatever the frame says. -/
def State.rxFx (f : RxFrame) (s : State) : State :=
  let p := f.port.val
  let t := s.rxLevel f
  match s.rxClass f with
  | .nothing => t
  | .header => if fcOk f.fc && !s.erasedAt f (headSymbols f.fc - 1) then (t.rxFc f).count1 p 35 else t.count1 p 35
  | .noMap => ((t.rxFc f).count1 p 38).raise 54
  | .erased => (((t.rxFc f).rxSnr f)).count1 p 36
  | .badCrc => ((t.rxFc f).rxSnr f).count1 p 34
  | .good => ((t.rxFc f).rxSnr f).rxCount f

/-! ### Sending (04 R104, R133; 08 Table 8.1) -/

/-- Counters of a frame whose last symbol was sent. -/
def State.txCount (p : Fin 4) (t : FType) (body : List Byte) (s : State) : State :=
  let a := (s.count1 p.val 2).count p.val 3 (body.length + 4)
  if t = .road then
    let b := (a.count1 p.val (if (byteAt body 0).getLsbD 4 then 13 else 12)).count1 p.val (26 + fld (byteAt body 0) 5 3)
    if byteAt body 1 = 3 then b.count1 p.val 47 else b
  else a

/-- Duration of a frame on a port in ns (04 R104). -/
def State.frameNs (s : State) (p : Fin 4) (road : Bool) (tmi len : Nat) : Nat :=
  symbolNs * frameSymbols road (s.ndbps p tmi) len

/-- LIU_TSTX of a transmission that starts at a local time (04 R133). -/
def State.txStamp (p : Fin 4) (start : Dword) (s : State) : State :=
  s.modPort p fun c => { c with tstx := start + BitVec.ofNat 64 (fld (s.pcfg p) 16 8) }

/-- The frame leaves the port at a local time: LIU_TSTX, and the record of outputs; nothing on a port that may not send. -/
def State.txStart (p : Fin 4) (start : Dword) (t : FType) (tmi : Nat) (pass bad : Bool) (combs : Option (Fin 4 × Fin 4))
    (only : Option (List Nat)) (body : List Byte) (s : State) : State :=
  if !s.canSend p then s
  else (s.txStamp p start).emit
    (.line p ⟨start, fcBytes t tmi pass body.length, body, bad, s.maskBits, s.heldMap p tmi, combs, only, true⟩)

/-- A whole frame that starts at a local time, counted; the port transmits until its end (04 R100, R104). -/
def State.txFrameAt (p : Fin 4) (start : Dword) (t : FType) (tmi : Nat) (pass bad : Bool) (only : Option (List Nat))
    (body : List Byte) (s : State) : State :=
  let stop := start + BitVec.ofNat 64 (s.frameNs p (decide (t = .road)) tmi body.length)
  (s.txStart p start t tmi pass bad none only body).when (s.canSend p) fun u =>
    (u.modPort p fun c => { c with txFrom := some start, txEnd := some stop }).txCount p t body

/-- A whole frame, sent at once. -/
def State.txFrame (p : Fin 4) (t : FType) (tmi : Nat) (pass bad : Bool) (body : List Byte) (s : State) : State :=
  s.txFrameAt p s.tre.time t tmi pass bad none body

/-! ### Timestamps (04 R134; 06 TRE_TIME; 09 ITN_LTIME) -/

/-- A normal read of a _L word copies its _H word into the shadow. -/
def State.tsShadow (a : Nat) (s : State) : State :=
  if a = Reg.TRE_TIME_L then { s with tre.timeSh := some (hi32 s.tre.time) }
  else if a = Reg.ITN_LTIME_L then { s with ctl.ltimeSh := some (hi32 s.ctl.ltime) }
  else
    let p : Fin 4 := ⟨(a - Reg.LIU_TSRX_L) / 0x1000 % 4, Nat.mod_lt _ (by decide)⟩
    if a = Reg.LIU_TSRX_L + 0x1000 * p.val then s.modPort p fun c => { c with tsrxSh := some (hi32 c.tsrx) }
    else if a = Reg.LIU_TSTX_L + 0x1000 * p.val then s.modPort p fun c => { c with tstxSh := some (hi32 c.tstx) }
    else s

/-- The _L word read. -/
def State.tsLow (s : State) (a : Nat) : Word :=
  if a = Reg.TRE_TIME_L then lo32 s.tre.time
  else if a = Reg.ITN_LTIME_L then lo32 s.ctl.ltime
  else
    let p : Fin 4 := ⟨(a - Reg.LIU_TSRX_L) / 0x1000 % 4, Nat.mod_lt _ (by decide)⟩
    if a = Reg.LIU_TSRX_L + 0x1000 * p.val then lo32 (s.port p).tsrx
    else if a = Reg.LIU_TSTX_L + 0x1000 * p.val then lo32 (s.port p).tstx
    else 0

/-- The address of a _L word. -/
def tsWord (a : Nat) : Bool :=
  decide (a = Reg.TRE_TIME_L) || decide (a = Reg.ITN_LTIME_L) ||
    (fins 4).any fun p => decide (a = Reg.LIU_TSRX_L + 0x1000 * p.val) || decide (a = Reg.LIU_TSTX_L + 0x1000 * p.val)

/-! ### The commands of the port states (04 R130, R128, R135) -/

/-- A silent port has held -54 dBFS for 1 ms; the level it is heard at enters the held level. -/
def execPortCarrier (p : Fin 4) (rxlvl : Byte) (s : State) : Result :=
  .next (if s.portUp p && !s.suspended p && decide ((s.port p).state = .silent) then
    ((s.levelHeard p s.tre.time rxlvl).modPort p fun c => { c with busyTo := some s.tre.time }).portTo p .carrier else s)

/-- No valid FCCRC for three Traverse periods. -/
def execPortLockLost (p : Fin 4) (s : State) : Result :=
  .next (if s.portUp p && decide ((s.port p).state = .locked) then s.portTo p .carrier else s)

/-- No symbol interval of the held-level window was at -60 dBFS or above (04 R130). -/
def State.heldLow (s : State) (p : Fin 4) : Bool := (s.heldLevels p).all fun x => decide (120 < x.2.toNat)

/-- The held level has stayed below -60 dBFS for SILT. -/
def execPortSilent (p : Fin 4) (rxlvl : Byte) (s : State) : Result :=
  let st := (s.port p).state
  .next (if s.portUp p && !s.suspended p && s.heldLow p && (decide (st = .carrier) || decide (st = .locked)) then
    (s.modPort p fun c => { c with rxlvl := rxlvl, levels := [] }).portTo p .silent else s)

/-- A high level with no valid FCCRC for JAMT sets JAM and raises EV044 + p. -/
def execPortJam (p : Fin 4) (s : State) : Result :=
  let c := s.port p
  .next (if s.portUp p && !s.suspended p && (s.pcfg p).getLsbD 12 && !c.jam &&
      (decide (c.state = .carrier) || decide (c.state = .locked)) then
    (s.modPort p fun d => { d with jam := true }).raise (44 + p.val) else s)

/-- JAM held for DEADT in carrier. -/
def execPortDead (p : Fin 4) (s : State) : Result :=
  let c := s.port p
  .next (if s.portUp p && !s.suspended p && c.jam && decide (c.state = .carrier) then
    ((s.modPort p fun d => { d with txEnd := none }).portTo p .dead).raise (36 + p.val) else s)

/-- The jam condition has been absent for CLEART. -/
def execPortClear (p : Fin 4) (s : State) : Result :=
  .next (if s.portUp p && decide ((s.port p).state = .dead) then s.portTo p .silent else s)

/-- Frequencies are in 80 MHz / 2^24, so the carrier spacing is 2^15 and 2 kHz is 419 units. An interferer within 2 kHz of a
carrier gets no notch (04 R128, R129). -/
def nearCarrier (f : BitVec 24) : Bool :=
  let r := f.toNat % 32768
  decide (r ≤ 419) || decide (32768 - 419 ≤ r)

/-- An interferer lies between carriers: above carrier 13 and below carrier 192 (04 R101, R128). -/
def betweenCarriers (f : BitVec 24) : Bool := decide (13 * 32768 < f.toNat) && decide (f.toNat < 192 * 32768)

/-- An interferer now at f is the one that stood at g dt ns ago: it has drifted by 50 kHz a second or less, over no more than
the release time (04 R128; log 158). -/
def drifted (f g : BitVec 24) (dt : Nat) : Bool :=
  let d := if f < g then (g - f).toNat else (f - g).toNat
  decide (d * 80000000 * 1000000000 ≤ 50000 * dt * 2 ^ 24)

def firstFree (v : Vector (Option (BitVec 24 × Dword)) 8) : Option (Fin 8) := (fins 8).find? fun i => (v.get i).isNone

/-- NREL of a port in ns (04 LIU_NCFG). -/
def State.notchRel (s : State) (p : Fin 4) : Nat := 100000000 * fld (s.reg (Reg.LIU_PCFG + 0x1000 * p.val + 0x10)) 16 8

/-- How far the interferer a notch tracks stands from a frequency, where drift explains it: it was last placed at most NREL
ago, or counts as that old. -/
def State.notchGap (s : State) (p : Fin 4) (freq : BitVec 24) (i : Fin 8) : Option Nat :=
  match (s.port p).notches.get i with
  | some (g, t) =>
    if drifted freq g (min (s.since t) (s.notchRel p)) then some (max freq.toNat g.toNat - min freq.toNat g.toNat) else none
  | none => none

/-- The active notch that tracks an interferer, if one does: the nearest. -/
def State.notchOf (s : State) (p : Fin 4) (freq : BitVec 24) : Option (Fin 8) :=
  (fins 8).foldl (fun b i => match b, s.notchGap p freq i with
    | some j, some d => if (s.notchGap p freq j).any fun e => decide (e ≤ d) then some j else some i
    | none, some _ => some i
    | b, none => b) none

/-- An interferer persists: the notch that tracks it follows its drift, or a free notch is placed on it; with none free
EV048 + p (04 R128). -/
def execNotchPlace (p : Fin 4) (freq : BitVec 24) (s : State) : Result :=
  let put (i : Fin 8) := s.modPort p fun c => { c with notches := c.notches.set i (some (freq, s.tre.time)) }
  .next (if !s.portUp p || !(s.pcfg p).getLsbD 13 || nearCarrier freq || !betweenCarriers freq then s
    else match s.notchOf p freq, firstFree (s.port p).notches with
      | some i, _ => put i
      | none, some i => put i
      | none, none => s.raise (48 + p.val))

def execNotchRelease (p : Fin 4) (n : Fin 8) (s : State) : Result :=
  .next (s.modPort p fun c => { c with notches := c.notches.set n none })

/-- A port's estimate starts afresh, and its held values go, when it is enabled or disabled (04 R117, R130). Its notches stay
as they are: the manual lets only the absence of the interferer release one (log 159). -/
def Port.fresh (en : Bool) (c : Port) : Port :=
  { c with enabled := en, jam := false, snrSum := [], snrCount := 0, txact := false, txEnd := none }

/-- A frame in reception on a port, one heard whose end is still to come, is discarded and counted aborted (04 R135, 07 Table
7.7; log 21). -/
def State.abortRx (p : Fin 4) (s : State) : State :=
  if (s.port p).busyTo.any s.before then (s.modPort p fun c => { c with busyTo := some s.tre.time }).count1 p.val 37 else s

/-- PEN of a port takes effect: a disabled port discards a frame in reception and reads silent (04 R130, R135). -/
def State.portEnable (p : Fin 4) (en : Bool) (s : State) : State :=
  if (s.port p).enabled = en then s
  else if en then s.modPort p (Port.fresh en)
  else ((s.abortRx p).modPort p (Port.fresh en)).portTo p .silent

/-- The port's transmission, if any, has ended, so a cleared PEN bit takes effect. -/
def execPortDisable (p : Fin 4) (s : State) : Result :=
  .next (if s.regBit Reg.LIU_CTL p.val || s.txBusy p then s else s.portEnable p false)

end Sys2Proof.Machine
end

