-- ==== Sys2Proof/Machine/CwyLog.lean ====
section
/-! DEFINITION. The Causeway's error log, its byte lanes, the acceptance of a host write and the end of a remote frame (14
R382 to R384, R390, R393, R396, Table 14.5). -/
namespace Sys2Proof.Machine

/-- Log an entry: EV224 below cause 0x20, EV225 otherwise; a full log drops it, with LOST and EV226 alone (14 R396, Table
14.6). -/
def State.cwyLogAdd (remote : Bool) (w nid cause notapp : Nat) (addr data : Word) (fseq : Nat) (s : State) : State :=
  let e : CwyLog := ⟨packW [(31, 1), (30, remote.toNat), (26, w), (20, nid), (8, cause), (0, notapp)], addr, data,
    packW [(16, fseq), (0, s.tre.tcount.toNat % 65536)]⟩
  if s.cwy.log.length < 16 then State.raise (if cause < 0x20 then 224 else 225) { s with cwy.log := s.cwy.log ++ [e] }
  else State.raise 226 { s with cwy.lost := satSucc s.cwy.lost }

def State.cwyWin (s : State) (w : Fin 16) : CwyWin := s.cwy.wins.get w

def State.modWin (w : Fin 16) (f : CwyWin → CwyWin) (s : State) : State :=
  { s with cwy.wins := upd s.cwy.wins w f }

/-! ### Host addresses, byte lanes and entries (14 R376, R378, R382 to R384) -/

def hostWin (h : HostAddr) : Fin 16 := ⟨fld h.a 12 4, Nat.mod_lt _ (by decide)⟩
def hostOfs (h : HostAddr) : Nat := fld h.a 0 12
/-- A halfword access on both lanes. -/
def hostHalf (h : HostAddr) : Bool := !h.bheN && !h.a.getLsbD 0
/-- No lane is selected. -/
def hostNone (h : HostAddr) : Bool := h.bheN && h.a.getLsbD 0
/-- The high half of a word. -/
def hostHigh (h : HostAddr) : Bool := h.a.getLsbD 1

def Reg.wctl (w : Fin 16) : Nat := Reg.CWY_WCTL + 8 * w.val
def Reg.wbase (w : Fin 16) : Nat := Reg.CWY_WBASE + 8 * w.val

/-- EN, CUTOFF and PRIO of CWY_WCTLw. -/
def State.wEn (s : State) (w : Fin 16) : Bool := s.regBit (Reg.wctl w) 31
def State.wCutoff (s : State) (w : Fin 16) : Bool := s.regBit (Reg.wctl w) 29
def State.wPrio (s : State) (w : Fin 16) : Nat := s.regFld (Reg.wctl w) 20 3

/-- ALE falls: the window registers settle the access's target; a later change affects only later accesses (14 R378). -/
def State.hostAcc (s : State) (h : HostAddr) : HostAcc :=
  ⟨h, s.reg (Reg.wctl (hostWin h)), s.reg (Reg.wbase (hostWin h))⟩

/-- REMOTE, PEEK, PAIR, LANE and NID of an access's window. -/
def HostAcc.win (x : HostAcc) : Fin 16 := hostWin x.h
def HostAcc.remote (x : HostAcc) : Bool := x.ctl.getLsbD 30
def HostAcc.peek (x : HostAcc) : Bool := x.ctl.getLsbD 28
def HostAcc.pair (x : HostAcc) : Bool := x.ctl.getLsbD 27
def HostAcc.lane (x : HostAcc) : Bool := x.ctl.getLsbD 26
def HostAcc.nid (x : HostAcc) : BitVec 6 := BitVec.ofNat 6 (fld x.ctl 0 6)

/-- The deep address of an access (14 R378). -/
def HostAcc.deep (x : HostAcc) : Nat := (x.base.toNat + hostOfs x.h) % 2 ^ 32

/-- The deep word that holds it. -/
def HostAcc.word (x : HostAcc) : Nat := x.deep / 4 * 4

/-- Where the even and the odd lane of an access go in their word (14 R383, Table 14.3): the byte at a position within the
access unit keeps it, or is reversed in a data-invariant window. -/
def lanePos (lane pair : Bool) (pos : Nat) : Nat :=
  if !lane then pos else if pair then 3 - pos else pos / 2 * 2 + (1 - pos % 2)

/-- The lanes of a host access: their positions in the deep word, and whether each is the odd one. -/
def HostAcc.lanes (x : HostAcc) : List (Nat × Bool) :=
  let k := hostOfs x.h % 4
  let f (pos : Nat) := lanePos x.lane x.pair pos
  if hostNone x.h then [] else if hostHalf x.h then [(f k, false), (f (k + 1), true)] else [(f k, decide (k % 2 = 1))]

/-- The lanes of the low and of the high half of a word in a paired window (14 Table 14.3). -/
def pairLanes (lane high : Bool) : List (Nat × Bool) :=
  let k := 2 * high.toNat
  [(lanePos lane true k, false), (lanePos lane true (k + 1), true)]

/-- Byte enables of lanes. -/
def lanesBe (l : List (Nat × Bool)) : BitVec 4 := l.foldl (fun b x => setBit b x.1) 0

/-- A host value on lanes, as a word in deep order. -/
def lanesWord (l : List (Nat × Bool)) (v : Half) : Word :=
  BitVec.ofNat 32 ((l.map fun x => fld v (if x.2 then 8 else 0) 8 * 2 ^ (8 * x.1)).foldl (· + ·) 0)

/-- The host value that lanes of a deep word give; a lane not selected is 0. -/
def lanesHalf (l : List (Nat × Bool)) (w : Word) : Half :=
  packH (l.map fun x => ((if x.2 then 8 else 0), fld w (8 * x.1) 8))

/-- A host access is logged: its window, target and, for a write, its data in deep order. -/
def State.hostLog (cause : Nat) (x : HostAcc) (v : Half) (s : State) : State :=
  s.cwyLogAdd x.remote x.win.val x.nid.toNat cause 0 (BitVec.ofNat 32 x.word) (lanesWord x.lanes v) 0

/-- A held low half is discarded, with cause 0x07 (14 R382). -/
def State.heldDrop (w : Fin 16) (s : State) : State :=
  match (s.cwyWin w).held with
  | none => s
  | some (x, v) => (s.modWin w fun c => { c with held := none }).hostLog 7 x v

/-- An access takes an entry (14 R384). -/
def State.cwyPost (x : HostAcc) (be : BitVec 4) (v : Word) (s : State) : State :=
  { s with cwy.buf := s.cwy.buf ++ [⟨x.win, x.remote, x.nid, BitVec.ofNat 32 x.word, be, v, false⟩] }

/-- A write that only fills the pair register (14 R382). -/
def HostAcc.pairLow (x : HostAcc) : Bool := x.pair && hostHalf x.h && !hostHigh x.h

/-- The low half that a write of a high half completes (14 R382). -/
def State.pairDone (s : State) (x : HostAcc) : Option Half :=
  match (s.cwyWin x.win).held with
  | some (y, v) => if x.pair && hostHalf x.h && hostHigh x.h && decide (y.word = x.word) then some v else none
  | none => none

/-- Write data parity: odd over each selected lane (14 R394). -/
def oddParity (b par : Nat) : Bool := decide (((List.range 8).filter fun i => b / 2 ^ i % 2 = 1).length % 2 ≠ par)
def parityOk (l : List (Nat × Bool)) (v : Half) (par : BitVec 2) : Bool :=
  l.all fun x => oddParity (fld v (if x.2 then 8 else 0) 8) (fld par (if x.2 then 1 else 0) 1)

/-- A write whose data has been latched (14 R382, R384, R395). -/
def State.hostAccept (x : HostAcc) (v : Half) (par : BitVec 2) (s : State) : State :=
  let w := x.win
  let drop := s.heldDrop w
  if s.regBit Reg.CWY_CTL 1 && !parityOk x.lanes v par then (drop.hostLog 5 x v).raise 228
  else if x.pairLow then drop.modWin w fun c => { c with held := some (x, v) }
  else match s.pairDone x with
    | some lo =>
      (s.modWin w fun c => { c with held := none }).cwyPost x 0xF (lanesWord (pairLanes x.lane false) lo ||| lanesWord x.lanes v)
    | none => drop.cwyPost x (lanesBe x.lanes) (lanesWord x.lanes v)

/-- An entry has been freed: a write that waits on WAIT_N is accepted (14 R375, R384). -/
def State.hostResume (s : State) : State :=
  match s.cwy.waiting with
  | some (x, some (v, par)) =>
    if s.cwy.buf.length < 32 then { s with cwy.waiting := none }.hostAccept x v par else s
  | _ => s

/-! ### The end of a remote frame (14 R390) -/

/-- The frame of a window carries nothing of it any more. -/
def State.cwyUntag (w : Fin 16) (s : State) : State :=
  let f (q : QFrame) : QFrame := if q.cwy = some w then { q with cwy := none } else q
  { s with road.ports := s.road.ports.map fun r => { r with queue := r.queue.map f, cur := r.cur.map f } }

/-- The frame in flight of a window ends: its entries are freed, and the records not written are logged as one entry
that names the first (14 R390). -/
def State.cwyFlightEnd (w : Fin 16) (cause idx : Nat) (s : State) : State :=
  match (s.cwyWin w).flight with
  | none => s
  | some (recs, _) =>
    let t0 := (s.cwyUntag w).modWin w fun c => { c with flight := none }
    let t : State := { t0 with cwy.buf := t0.cwy.buf.filter fun e => !(e.inFrame && decide (e.win = w)) }
    let u := if cause = 0 then t
      else match recs[idx]? with
        | none => t
        | some r => t.cwyLogAdd true w.val r.nid.toNat cause (recs.length - idx - 1) r.addr r.data
            (((s.cwyWin w).fseq - 1).toNat)
    u.hostResume

/-- The transmit result of a window's frame (14 R390): 0b00 delivered, otherwise the frame ends. -/
def State.cwyTxResult (w : Fin 16) (result : Nat) (s : State) : State :=
  match result with
  | 0 => s.modWin w fun c => { c with flight := c.flight.map fun f => (f.1, true) }
  | 1 => s.cwyFlightEnd w 0x21 0
  | 2 => s.cwyFlightEnd w 0x20 0
  | _ => s.cwyFlightEnd w (if ((s.cwyWin w).flight.map (·.2)).getD false then 0x23 else 0x22) 0

/-- A window is disabled: a held low half goes (14 R382). -/
def State.wctlWrite (w : Fin 16) (v : Word) (s : State) : State :=
  (s.when (!v.getLsbD 31) (State.heldDrop w)).setReg (Reg.wctl w) v

/-- At a cut a window with CUTOFF is disabled, and its entries not yet sent are discarded, each logged (14 R393). -/
def State.cwyCutoff (w : Fin 16) (s : State) : State :=
  if !s.wCutoff w then s
  else
    let gone (e : CwyEntry) : Bool := e.remote && !e.inFrame && decide (e.win = w)
    let t := (s.wctlWrite w (clrBit (s.reg (Reg.wctl w)) 31)).raiseIf (s.wEn w) 229
    let u : State := { t with cwy.buf := t.cwy.buf.filter fun e => !gone e }
    (u.each (t.cwy.buf.filter gone) fun e x => x.cwyLogAdd true w.val e.nid.toNat 0x22 0 e.addr e.data 0).hostResume

/-- A cut: a frame that awaits DONE ends with its outcome unknown, then CUTOFF (14 R390, R393). WRITE frames of the old epoch
that the far side holds go, as their DONE would (07 R226; log 192). -/
def State.cwyCut (s : State) : State :=
  let t : State := { s with cwy.farq := [] }
  (t.each (fins 16) fun w t => t.cwyFlightEnd w 0x23 0).each (fins 16) State.cwyCutoff

/-- What a normal read of CWY_LOG0 answers. -/
def State.cwyLog0 (s : State) : Word := (s.cwy.log.head?.map (·.w0)).getD 0

/-- It removes the oldest entry and latches its other words (14 R396). -/
def State.cwyLogPop (s : State) : State :=
  match s.cwy.log with
  | [] => s
  | e :: t => { s with cwy.log := t, cwy.latched := e }

/-- HINT_N is asserted (14 R397). -/
def State.hint (s : State) : Bool :=
  decide (s.sys.parts.get 5 ≠ .inService) ||
    (if s.sys.splitAct.getLsbD 7 then s.regBit Reg.CWY_HINT 0 else !s.cwy.log.isEmpty)

end Sys2Proof.Machine
end

