-- ==== Sys2Proof/Machine/EthBuf.lean ====
section
/-! DEFINITION. The E ports' registers, their receive buffers and the PFC frames their filling sends (07 R220, R230; 08 Table
8.1). -/
namespace Sys2Proof.Machine

/-! ### Registers and views -/

def ethBase (e : Fin 2) : Nat := 0x40060000 + 0x10000 * e.val

def State.ethCtl (s : State) (e : Fin 2) (i : Nat) : Bool := s.regBit (ethBase e) i

def State.ethPort (s : State) (e : Fin 2) : EthPort := s.eth.ports.get e

def State.modEth (e : Fin 2) (f : EthPort → EthPort) (s : State) : State := { s with eth.ports := upd s.eth.ports e f }

/-- Counter port of an E port (08 Table 8.1). -/
def ethCnt (e : Fin 2) : Nat := 5 + e.val

/-- The E ports work: out of reset, P1 not out of service, not in Walk mode. -/
def State.ethUp (s : State) : Bool :=
  decide (s.sys.phase = .running) && !s.sys.clkFault && !s.sp.walk &&
    (decide (s.sys.parts.get 1 = .inService) || decide (s.sys.parts.get 1 = .quiescing))

/-- The E ports transmit and receive: without REF_CLK both are down (03 R85). -/
def State.ethRun (s : State) : Bool := s.ethUp && s.sys.refok

/-- The E ports start and take frames: they do not while P1 quiesces (16 Table 16.7, 07 Table 7.7). -/
def State.ethTakes (s : State) : Bool := s.ethRun && decide (s.sys.parts.get 1 = .inService)

/-- Full duplex: from the PHY by polling, or by ETH_PHY.SETFD (07 R227, ETH_PHY). -/
def State.ethFd (s : State) (e : Fin 2) : Bool :=
  if s.ethCtl e 3 then (s.ethPort e).fd else s.regBit (ethBase e + 8) 5

def State.ethS100 (s : State) (e : Fin 2) : Bool :=
  if s.ethCtl e 3 then (s.ethPort e).s100 else s.regBit (ethBase e + 8) 4

/-- The other E port. -/
def otherE (e : Fin 2) : Fin 2 := if e = 0 then 1 else 0

/-- Source code of an E port (07 ETH_LEARNQ_H). -/
def srcE (e : Fin 2) : BitVec 7 := if e = 0 then 0x40 else 0x41

/-! ### Counters of MAC Control frames (08 Table 8.1) -/

/-- Priority of an untagged frame (07 R229). -/
def State.ethUntagged (s : State) (e : Fin 2) : Nat :=
  let m := s.reg (ethBase e + 0x10)
  fld m (3 * fld m 24 3) 3

/-- Counters of a good frame of len bytes with its FCS. -/
def State.ethRxCount (e : Fin 2) (len : Nat) (group tagged : Bool) (prio : Nat) (s : State) : State :=
  let n := ethCnt e
  let a := ((s.count1 n 0).count n 1 len).count1 n (4 + sizeClass [64, 127, 255, 511, 1023] len)
  ((a.count1 n (if group then 11 else 10)).when tagged fun t => t.count1 n 14).count1 n (18 + prio)

/-- A PFC frame sent: 64 bytes to a group address, untagged, and counter 47. -/
def State.pfcCount (e : Fin 2) (s : State) : State :=
  let n := ethCnt e
  (((((s.count1 n 2).count n 3 64).count1 n 13).count1 n (26 + s.ethUntagged e)).count1 n 47)

/-! ### The port buffer and PFC (07 R230) -/

/-- XOFF and XON of a pause; an XON that is not lower acts as XOFF / 2 (07 R220). -/
def xoffXon (xoff xon : Nat) : Nat × Nat := (xoff, if xon < xoff then xon else xoff / 2)

/-- Tunnel frames received on a port at a priority that Open Road has not sent yet: each once, whatever ports it waits on. -/
def State.ethTunnels (s : State) (e : Fin 2) (p : Fin 8) : List (List Byte) :=
  let all := s.road.ports.toList.flatMap fun r => r.queue ++ r.cur.toList
  ((all.filter fun q => decide (q.eth = some (e, p))).map (·.body)).eraseDups

/-- Bytes received on a port at a priority and still held: for the tunnel, or for the other port. -/
def State.ethOcc (s : State) (e : Fin 2) (p : Fin 8) : Nat :=
  let o := s.ethPort (otherE e)
  let q := (o.queue ++ o.sending.toList).filter fun x => decide (x.src = srcE e) && decide (x.prio = p)
  let h := (s.ethPort e).held.filter fun x => decide (x.prio = p)
  ((q ++ h).map fun x => x.bytes.length).foldl (· + ·) 0 +
    ((s.ethTunnels e p).map fun b => b.length - 12).foldl (· + ·) 0

/-- XOFF and XON of ETH_PFC, in 256-byte units (07 R220). -/
def State.ethX (s : State) (e : Fin 2) : Nat × Nat :=
  let m := s.reg (ethBase e + 0x14)
  xoffXon (fld m 8 8) (fld m 0 8)

/-- A PFC frame is sent above XOFF, and one with quanta 0 at XON. -/
def State.pfcCheck (e : Fin 2) (p : Fin 8) (s : State) : State :=
  let x := s.ethX e
  let occ := s.ethOcc e p
  let sent := (s.ethPort e).pfcSent.getLsbD p.val
  if !(s.ethTakes && s.ethCtl e 5 && s.ethFd e) then s
  else if !sent && decide (256 * x.1 < occ) then
    ((s.modEth e fun c => { c with pfcSent := setBit c.pfcSent p.val }).emit
      (.ethPfc e p (BitVec.ofNat 16 (fld (s.reg (ethBase e + 0x14)) 16 16)))).pfcCount e
  else if sent && decide (occ ≤ 256 * x.2) then
    ((s.modEth e fun c => { c with pfcSent := clrBit c.pfcSent p.val }).emit (.ethPfc e p 0)).pfcCount e
  else s

/-- Every class of a port is looked at again. -/
def State.pfcAll (e : Fin 2) (s : State) : State := s.each (fins 8) fun p t => t.pfcCheck e p

/-- A write of ETH_PFC: the buffer is held against the new limits (07 R220, R230). -/
def State.ethPfcWrite (e : Fin 2) (v : Word) (s : State) : State := (s.setReg (ethBase e + 0x14) v).pfcAll e

/-- A byte of a port buffer is read with a parity error: log, EV235 and counter 39 of the port whose buffer it is (15 R406; 08
Table 8.1; log 167). -/
def State.ethParity (e : Fin 2) (s : State) : State := ((s.memLog 5 5 7 0 0).raise 235).count1 (ethCnt e) 39

end Sys2Proof.Machine
end

