-- ==== Sys2Proof/Machine/Road.lean ====
section
/-! DEFINITION. Open Road: headers, queues and contention, forwarding, acknowledgement, the duplicate window, pause, the
rings in SRAM, and the reception of any Open Road frame (07 R203 to R226). -/
namespace Sys2Proof.Machine

/-! ### Header (07 Table 7.1) -/

structure RHdr where
  prio : Nat
  bcast : Bool
  loc : Bool
  srcv : Bool
  cls : Nat
  src : BitVec 6
  dst : BitVec 6
  epoch : Byte
  hops : Nat
  seq : Half
  plen : Nat
  chan : Nat
  deriving DecidableEq, Repr

def RHdr.parse (b : List Byte) : RHdr where
  prio := fld (byteAt b 0) 5 3
  bcast := (byteAt b 0).getLsbD 4
  loc := (byteAt b 0).getLsbD 3
  srcv := (byteAt b 0).getLsbD 2
  cls := (byteAt b 1).toNat
  src := (byteAt b 2).setWidth 6
  dst := (byteAt b 3).setWidth 6
  epoch := byteAt b 4
  hops := (byteAt b 5).toNat
  seq := BitVec.ofNat 16 (beAt b 6 2)
  plen := beAt b 8 2
  chan := (byteAt b 10).toNat

def RHdr.bytes (h : RHdr) : List Byte :=
  [BitVec.ofNat 8 (h.prio * 32 + h.bcast.toNat * 16 + h.loc.toNat * 8 + h.srcv.toNat * 4), BitVec.ofNat 8 h.cls,
    h.src.setWidth 8, h.dst.setWidth 8, h.epoch, BitVec.ofNat 8 h.hops] ++ beBytes 2 h.seq.toNat ++
    beBytes 2 h.plen ++ [BitVec.ofNat 8 h.chan, 0]

/-- Payload of a body. -/
def roadPayload (b : List Byte) : List Byte := b.drop 12

/-! ### Timers out of range act as the nearest end (07 Table 7.8) -/

def State.minExp (s : State) : Nat := clampN 1 8 (s.regFld Reg.ROAD_MAC 0 4)
def State.maxExp (s : State) : Nat := clampN s.minExp 10 (s.regFld Reg.ROAD_MAC 4 4)
def State.attempts (s : State) : Nat := clampN 1 31 (s.regFld Reg.ROAD_MAC 16 5)
def State.hopLim (s : State) : Nat := clampN 1 63 (s.regFld Reg.ROAD_MAC 24 8)

/-! ### Cars and ports -/

/-- Car of a NID (07 R214). -/
def carOf (nid : BitVec 6) : Nat := nid.toNat / 2 + 1

/-- A NID is PRESENT in the epoch (05 SVY_NIDTAB); a late-comer holds no table and takes any NID as present (log 28). -/
def State.present (s : State) (nid : BitVec 6) : Bool := (s.svy.nidtab.getD nid.toNat 0).getLsbD 31 || s.svy.joined

/-- Through unit of a car: this node's own knowledge for its own car, otherwise the THRU bit of SVY_CHAINTAB (07 R219). -/
def State.thruNid (s : State) (car : Nat) : BitVec 6 :=
  let b := if car = s.svy.chain.toNat then s.sys.thru == s.unitB else (s.svy.chaintab.getD (car - 1) 0).getLsbD 27
  BitVec.ofNat 6 (2 * (car - 1) + b.toNat)

/-- This node's car. -/
def State.car (s : State) : Nat := s.svy.chain.toNat

/-- A neighbour car lies on the tail side, on the head side. -/
def State.hasTail (s : State) : Bool := decide (s.car < s.svy.cars.toNat) || s.svy.joined
def State.hasHead (s : State) : Bool := decide (1 < s.car)

def State.roadPort (s : State) (p : Fin 4) : RoadPort := s.road.ports.get p

def State.modRoad (p : Fin 4) (f : RoadPort → RoadPort) (s : State) : State :=
  { s with road.ports := upd s.road.ports p f }

/-- Open Road starts and takes frames: enabled, P1 in service, and not in Walk mode. While P1 quiesces it does neither (16 Table
16.7, 07 Table 7.7). -/
def State.roadUp (s : State) : Bool := s.regBit Reg.ROAD_CTL 0 && decide (s.sys.parts.get 1 = .inService) && s.lineUp

/-- A port is usable for a frame (07 R214). -/
def State.usable (s : State) (p : Fin 4) : Bool :=
  s.portUp p && decide ((s.port p).state = .locked) && !s.regBit (Reg.at Reg.ROAD_PCFG p.val) 1

/-- The neighbour is in the table of a port. -/
def State.hearsOn (s : State) (p : Fin 4) (nid : BitVec 6) : Bool := (s.roadPort p).nbrs.any (·.1 == nid)

/-- The unit of a neighbour car that is the next hop: the one named by THRU, or where the tables hold only the other one,
that one, since the through unit of the car may have changed under 01 R21 (07 R219; log 160). -/
def State.hopOf (s : State) (car : Nat) : BitVec 6 :=
  let n := s.thruNid car
  let heard (x : BitVec 6) : Bool := (fins 4).any fun p => s.hearsOn p x
  if !heard n && heard (n ^^^ 1) then n ^^^ 1 else n

/-- The next hop toward a NID (07 R219): it, where it sits on the segment, else the through unit of the next car. -/
def State.nextHop (s : State) (dst : BitVec 6) : BitVec 6 :=
  let c := carOf dst
  if c + 1 < s.car then s.hopOf (s.car - 1) else if s.car + 1 < c then s.hopOf (s.car + 1) else dst

/-- The two ports of the side a unicast leaves by; a frame for the partner uses the tail side first (07 R214). -/
def State.sideFor (s : State) (dst : BitVec 6) : List (Fin 4) :=
  let c := carOf dst
  if c > s.car then s.tailPorts else if c < s.car then s.headPorts
  else if s.tailPorts.any s.usable then s.tailPorts else s.headPorts

/-- The port for a unicast: the first usable one of its side, or the other line's where only its table holds the next hop
(07 R214, R219). -/
def State.portFor (s : State) (dst : BitVec 6) : Option (Fin 4) :=
  let ok := (s.sideFor dst).filter s.usable
  match ok with
  | [] => none
  | p :: rest =>
    if s.hearsOn p (s.nextHop dst) then some p
    else some ((rest.find? fun q => s.hearsOn q (s.nextHop dst)).getD p)

/-- The ports a broadcast of this node leaves by (07 R216). -/
def State.bcastPorts (s : State) : List (Fin 4) :=
  let side (l : List (Fin 4)) := (l.filter s.usable).take 1
  if !s.hasTail && !s.hasHead then ((fins 4).filter s.usable).take 1
  else (if s.hasTail then side s.tailPorts else []) ++ (if s.hasHead then side s.headPorts else [])

/-- The port a frame at the head of a queue leaves by: that of R214 for a unicast; a broadcast or segment-local frame keeps
its port while it is usable, and else takes the other port of its side (07 R214; log 161). -/
def State.portNow (s : State) (p : Fin 4) (q : QFrame) : Option (Fin 4) :=
  let h := RHdr.parse q.body
  if h.bcast || h.loc then
    (if s.usable p then some p else ((if s.isTailPort p then s.tailPorts else s.headPorts).filter s.usable).head?)
  else s.portFor h.dst

/-! ### Contention (07 R205 to R213, Table 7.4) -/

/-- The head frame of the highest-priority queue that is not paused (07 R211, R221). A broadcast has many next hops: it stops
where any neighbour of the port has paused its priority (log 213). -/
def State.roadHead (s : State) (p : Fin 4) : Option QFrame :=
  let rp := s.roadPort p
  let stopped (q : QFrame) : Bool :=
    let h := RHdr.parse q.body
    decide (h.prio ≠ 7) && rp.paused.any fun e =>
      e.2.getLsbD h.prio && (h.bcast || decide (s.nextHop h.dst = e.1))
  rp.queue.foldl (fun b q =>
    if stopped q then b
    else match b with
      | none => some q
      | some r => if (RHdr.parse r.body).prio < (RHdr.parse q.body).prio then some q else some r) none

/-- Draw the contention count of a frame: (7 - PRIO) + BO (07 R211). -/
def State.drawCount (s : State) (q : QFrame) : Nat :=
  (7 - (RHdr.parse q.body).prio) + s.draw % 2 ^ min (s.minExp + q.n) s.maxExp

/-- A port with an eligible frame contends: IDLE goes to COUNT, or HOLD outside the window, with a count drawn. -/
def State.roadDraw (p : Fin 4) (s : State) : State :=
  let rp := s.roadPort p
  match rp.st, s.roadHead p with
  | .idle, some q =>
    let c := s.drawCount q
    (s.modRoad p fun r => { r with st := if s.road.open_ then .count else .hold, count := c }).took
  | _, _ => s

/-- The head may have changed: a new head draws a new count, and a port with no eligible head is IDLE (07 R211). -/
def State.roadAgain (p : Fin 4) (before : Option QFrame) (s : State) : State :=
  let rp := s.roadPort p
  if rp.st = .count ∨ rp.st = .hold then
    match s.roadHead p with
    | none => s.modRoad p fun r => { r with st := .idle }
    | some q => if before = some q then s else (s.modRoad p fun r => { r with count := s.drawCount q }).took
  else s.roadDraw p

/-- A frame joins the queue of a port. -/
def State.roadPut (p : Fin 4) (q : QFrame) (s : State) : State :=
  let before := s.roadHead p
  (s.modRoad p fun r => { r with queue := r.queue ++ [q] }).roadAgain p before

/-- A frame leaves the queue of a port. -/
def State.roadTake (p : Fin 4) (q : QFrame) (s : State) : State := s.modRoad p fun r => { r with queue := r.queue.erase q }

/-! ### The medium and the slot grid (07 R204, R205) -/

/-- Slot n of a window is idle: no instant of it is busy, where busy is a level of -54 dBFS or above or a P, and the 24 us
after the last such instant (07 R205). Each slot is given by the last such instant in it, in ns from its start. -/
def slotIdle (slots : List (Option Nat)) (n : Nat) : Bool :=
  let last (k : Nat) : Option Nat := if k ≤ n then (slots.getD (n - k) none) else none
  (last 0).isNone && (last 1).isNone && (last 2).all fun t => decide (t = 0)

/-- Idle slots of the windows over which a frame has waited (07 R211). -/
def idleSlots (slots : List (List (Option Nat))) : Nat :=
  (slots.map fun w => ((List.range w.length).filter (slotIdle w)).length).foldl (· + ·) 0

/-- The three slots before the start are idle (07 R205). -/
def threeIdle (slots : List (List (Option Nat))) : Bool :=
  let w := slots.getLastD []
  decide (3 ≤ w.length) && [1, 2, 3].all fun k => slotIdle w (w.length - k)

/-- A slot boundary is now: O + 12 us x n, in the core clock it falls in (07 R204; log 162). -/
def State.onGrid (s : State) : Bool := decide ((s.since s.road.o) % 12000 ≤ 5)

/-- A frame of this length started now would end at least 92 us before the next predicted T0 (07 R204). -/
def State.roadRoom (s : State) (p : Fin 4) (tmi len : Nat) : Bool :=
  s.before (s.nextT0 - BitVec.ofNat 64 (s.frameNs p true tmi len + 92000 - 1))

/-- A foreign preamble is detected: its two P symbols overlap the listening interval, two P symbols and the listen symbol, by
a useful part, and where they overlap the node listens on a carrier they send, on its silent comb in its own P symbols and
on every carrier in the listen symbol, with a correlation 10 dB above the noise floor (07 R209). -/
def foreignHeard (c : Fin 4 × Fin 4) (x : ForeignP) : Bool :=
  let sym : Int := symbolNs
  let shared (a b : Int) (len : Int) : Int := min (a + sym) (b + len) - max a b
  let mine : List (Int × Option (Fin 4)) := [(0, some c.1), (sym, some c.2), (2 * sym, none)]
  let theirs : List (Int × Option (Fin 4)) := [(x.atNs, x.combs.map (·.1)), (x.atNs + sym, x.combs.map (·.2))]
  let hears := mine.any fun m => theirs.any fun t => decide (0 < shared m.1 t.1 sym) && (m.2.isNone || decide (m.2 ≠ t.2))
  let total := min (3 * sym) (x.atNs + 2 * sym) - max 0 x.atNs
  decide (6400 ≤ total) && hears && decide (10 ≤ x.db)

/-! ### Transmit records (07 R222) -/

/-- The ring position after a record: padded to 8 bytes, back to the base at the end. -/
def ringStep (base size pos len : Nat) : Nat :=
  let n := pos + (len + 7) / 8 * 8
  if base + size ≤ n then base else n

/-- Completed records at the front move ROAD_TXRP on. -/
def txAdvance (base size : Nat) : Nat → List (Word × Option (BitVec 2)) → Word → (Word → Nat) →
    List (Word × Option (BitVec 2)) × Word
  | 0, l, rp, _ => (l, rp)
  | k + 1, (a, some _) :: t, _, len => txAdvance base size k t (BitVec.ofNat 32 (ringStep base size a.toNat (len a))) len
  | _, l, rp, _ => (l, rp)

/-- A record completes: DONE and RESULT in its control word, which is read and written, TXRP, EV128 (07 R222; 15 R401). -/
def State.txDone (a : Word) (result : Nat) (s : State) : State :=
  if !s.road.txpend.any (fun r => r.1 == a && r.2.isNone) then s
  else
    let w := s.peekWord a.toNat
    let t := (s.blockReadFx a.toNat 4).pokeWord 7 a.toNat ((w &&& 0x8FFFFFFF) ||| packW [(30, 1), (28, result)])
    let pend := t.road.txpend.map fun r => if r.1 = a then (r.1, some (BitVec.ofNat 2 result)) else r
    let base := (t.reg Reg.ROAD_TXBASE).toNat
    let size := (t.reg Reg.ROAD_TXSIZE).toNat
    let adv := txAdvance base size pend.length pend t.road.txrp fun x => (t.peekWord x.toNat).toNat % 65536
    (({ t with road.txpend := adv.1, road.txrp := adv.2 }).raise 128).when (decide (result = 3)) fun u => u.count1 4 45

/-- Another copy of the same frame of this node still waits or is on the line: a broadcast leaves by two ports (07 R216). -/
def State.frameShared (s : State) (q : QFrame) : Bool :=
  let same (x : QFrame) : Bool := x.from_.isNone && x.src == q.src && x.body == q.body
  q.from_.isNone && s.road.ports.toList.any fun r => r.queue.any same || (r.cur.map same).getD false

/-- Counters of an Open Road frame received and accepted (08 Table 8.1). -/
def State.roadRxCount (h : RHdr) (s : State) : State :=
  (((s.count1 4 0).count 4 1 h.plen).count1 4 (4 + sizeClass [63, 127, 255, 511, 1023] h.plen)).count1 4 (18 + h.prio)

/-- Counters of a transit frame that ends: forwarded, or given up on its port; its reception is counted with it, unless an
error counter has it (08 Table 8.1, R236). -/
def State.transitCount (q : QFrame) (result : Nat) (s : State) : State :=
  let h := RHdr.parse q.body
  let fwd (t : State) : State := t.when (decide (result = 0)) fun u => u.count1 4 (if h.bcast then 13 else 12)
  if q.acct = 2 ∨ 3 ≤ result ∨ (result = 2 ∧ h.bcast = false) then s
  else fwd (s.when (decide (q.acct = 1)) (State.roadRxCount h))

/-- Counters of a frame that ends: an own frame delivered or given up, or a transit frame (08 Table 8.1, R236). -/
def State.frameCount (q : QFrame) (result : Nat) (s : State) : State :=
  let h := RHdr.parse q.body
  if q.from_.isSome then s.transitCount q result
  else match result with
    | 0 => ((s.count1 4 2).count 4 3 h.plen).count1 4 (26 + h.prio)
    | 1 => s.count1 4 42
    | _ => s

/-- A frame ends: its counters, its record, its Causeway window, its PING, once for all its copies (07 R213, R222; 14
R390). -/
def State.frameEnd (q : QFrame) (result : Nat) (s : State) : State :=
  if s.frameShared q then s
  else
    let b := s.frameCount q result
    let c := match q.src with
      | some r => b.txDone r result
      | none => b
    let d := match q.cwy with
      | some w => c.cwyTxResult w result
      | none => c
    if q.tag = 2 ∧ result ≠ 0 then { d with road.pingFail := true, road.pingAt := none } else d

/-! ### Originating (07 R207, R216, R218, R222) -/

/-- The header this node fills in. -/
def State.roadHdr (s : State) (prio cls : Nat) (bcast loc : Bool) (dst : BitVec 6) (plen chan : Nat) : RHdr where
  prio := if prio = 7 ∧ cls ≠ 0 ∧ cls ≠ 3 ∧ cls ≠ 5 then 6 else prio
  bcast := bcast
  loc := loc
  srcv := s.svy.nid.isSome
  cls := cls
  src := (s.svy.nid).getD 0
  dst := dst
  epoch := s.svy.epoch
  hops := s.hopLim
  seq := s.road.seq
  plen := plen
  chan := chan

def State.bumpSeq (s : State) : State := { s with road.seq := s.road.seq + 1 }

def mkQ (body : List Byte) (src : Option Word) (cwy : Option (Fin 16)) (tag : BitVec 2) : QFrame :=
  ⟨body, 0, 0, src, cwy, tag, none, [], none, 0⟩

/-! ### The cells, pause, and frames that leave (07 R217, R220) -/

/-- Cells held by frames received on a port at a priority (07 R220). -/
def State.cellsHeld (s : State) (p : Fin 4) (prio : Nat) : Nat :=
  let c (q : QFrame) := if q.from_ = some p ∧ (RHdr.parse q.body).prio = prio then q.cells.length else 0
  (s.road.ports.toList.map fun r => (r.queue.map c).foldl (· + ·) 0 + ((r.cur.map c).getD 0)).foldl (· + ·) 0

/-- Cells in use. -/
def State.cellsUsed (s : State) : List Nat :=
  s.road.ports.toList.flatMap fun r => r.queue.flatMap (·.cells) ++ ((r.cur.map (·.cells)).getD [])

def State.roadX (s : State) : Nat × Nat := xoffXon (s.regFld Reg.ROAD_PAUSE 8 8) (s.regFld Reg.ROAD_PAUSE 0 8)

/-- A pause frame: LOCAL, broadcast on the segment (07 Table 7.2, R220; log 22). -/
def State.sendPause (p : Fin 4) (prio ptime : Nat) (s : State) : State :=
  let h := s.roadHdr 7 3 true true 0 3 0
  ((s.bumpSeq).roadPut p (mkQ (h.bytes ++ [BitVec.ofNat 8 (2 ^ prio)] ++ beBytes 2 ptime) none none 0)).when
    (decide (ptime ≠ 0)) (State.raise 133)

/-- Above XOFF a pause is sent; at XON or below it is taken back (07 R220). -/
def State.pauseCheck (p : Fin 4) (prio : Nat) (s : State) : State :=
  let held := s.cellsHeld p prio
  let on := (s.roadPort p).pausing.getLsbD prio
  if prio = 7 then s
  else if !on && decide (s.roadX.1 < held) then
    (s.modRoad p fun r => { r with pausing := setBit r.pausing prio }).sendPause p prio
      (clampN 1 65535 (s.regFld Reg.ROAD_PAUSE 16 16))
  else if on && decide (held ≤ s.roadX.2) then
    (s.modRoad p fun r => { r with pausing := clrBit r.pausing prio }).sendPause p prio 0
  else s

/-- A frame leaves this node for good: its cells, or its place in the buffer of an E port, are free (07 R220, R230). -/
def State.frameLeft (q : QFrame) (s : State) : State :=
  let t := match q.from_ with
    | some p => s.pauseCheck p (RHdr.parse q.body).prio
    | none => s
  match q.eth with
  | some (e, k) => t.pfcCheck e k
  | none => t

/-- A unicast whose source answers it with code 3 (07 R218). -/
def State.undeliverable (q : QFrame) (s : State) : State := (((s.count1 4 36).raise 130)).frameEnd q 2

/-- A frame that finds no usable port ends at once: undeliverable (07 R214, R216, R218). -/
def State.frameLost (q : QFrame) (s : State) : State :=
  (if (RHdr.parse q.body).bcast || (RHdr.parse q.body).loc then s.frameEnd q 2 else s.undeliverable q).frameLeft q

/-! ### Choosing the port of a head frame (07 R214) -/

/-- A frame, whatever attempts it has made. -/
def QFrame.fresh (q : QFrame) : QFrame := { q with n := 0, silent := 0 }

/-- The port of a frame is chosen when it reaches the head of a queue: one that leaves by another port moves there, one that
has none ends, and one whose port was chosen stays (07 R214, R218). -/
def State.roadSort (p : Fin 4) : Nat → State → State
  | 0, s => s
  | k + 1, s => match s.roadHead p with
    | none => s.modRoad p fun x => { x with head := none }
    | some q =>
      if (s.roadPort p).head = some q.fresh then s
      else match s.portNow p q with
        | some r =>
          if r = p then s.modRoad p fun x => { x with head := some q.fresh }
          else State.roadSort p k ((s.roadTake p q).roadPut r q)
        | none => State.roadSort p k ((s.roadTake p q).frameLost q)

/-- Frames a port may have to look at: those queued, and the pauses their end takes back. -/
def State.roadLen (s : State) (p : Fin 4) : Nat := (s.roadPort p).queue.length + 8

/-- A port takes up its head frame. -/
def State.roadKick (p : Fin 4) (s : State) : State := (s.roadSort p (s.roadLen p)).roadDraw p

/-- The eligible frames of a port may have changed. -/
def State.roadRehead (p : Fin 4) (before : Option QFrame) (s : State) : State :=
  (s.roadSort p (s.roadLen p)).roadAgain p before

/-- Queue a frame on a port. -/
def State.roadEnqueue (p : Fin 4) (q : QFrame) (s : State) : State :=
  let before := s.roadHead p
  (s.modRoad p fun r => { r with queue := r.queue ++ [q] }).roadRehead p before

/-! ### Sending -/

/-- A LOCAL line-management frame on one port. -/
def State.sendLocal (p : Fin 4) (bcast : Bool) (dst : BitVec 6) (tag : BitVec 2) (payload : List Byte) (s : State) : State :=
  let h := s.roadHdr 7 0 bcast true dst payload.length 0
  (s.bumpSeq).roadEnqueue p (mkQ (h.bytes ++ payload) none none tag)

/-- A unicast of this node to another: queued on its port, or undeliverable at once (07 R214, R218). One to this node's own
NID never goes on the line; its caller has had its effect. -/
def State.sendUnicast (dst : BitVec 6) (q : QFrame) (s : State) : State :=
  if s.svy.nid = some dst then s.frameEnd q 0
  else match s.present dst, s.portFor dst with
    | true, some p => s.roadEnqueue p q
    | _, _ => s.undeliverable q

/-- A broadcast of this node (07 R216). -/
def State.sendBcast (q : QFrame) (s : State) : State :=
  match s.bcastPorts with
  | [] => s.frameEnd q 2
  | l => s.each l fun p t => t.roadEnqueue p q

/-- A line-management unicast to another node. -/
def State.sendMgmt (dst : BitVec 6) (tag : BitVec 2) (payload : List Byte) (s : State) : State :=
  let h := s.roadHdr 7 0 false false dst payload.length 0
  (s.bumpSeq).sendUnicast dst (mkQ (h.bytes ++ payload) none none tag)

/-- A line-management broadcast. -/
def State.sendMgmtAll (payload : List Byte) (s : State) : State :=
  let h := s.roadHdr 7 0 true false 0 payload.length 0
  (s.bumpSeq).sendBcast (mkQ (h.bytes ++ payload) none none 0)

/-! ### Starting, ending and failing an attempt -/

/-- Map of a frame on a port (07 R208). -/
def State.roadTmi (s : State) (p : Fin 4) (q : QFrame) : Nat :=
  let c := (RHdr.parse q.body).cls
  if c = 0 ∨ c = 3 ∨ c = 5 ∨ 2 ≤ q.silent then 15
  else if (s.segMap p).isSome then (s.port p).stmi.toNat else 15

/-- The frame in hand of a port is over, with a result; the port is IDLE and contends again. -/
def State.attemptEnd (p : Fin 4) (q : QFrame) (result : Nat) (s : State) : State :=
  (((s.modRoad p fun r => { r with st := .idle, cur := none, count := 0 }).frameEnd q result).frameLeft q).roadKick p

/-- An attempt fails: back-off, or given up after ATTEMPTS (07 R213); a frame of an old epoch is dropped (07 R226). Two
attempts in a row without an acknowledgement and without a collision stay counted: the remaining ones use TMI 15 (R208). -/
def State.attemptFail (p : Fin 4) (q : QFrame) (answered : Bool) (s : State) : State :=
  if (RHdr.parse q.body).epoch ≠ s.svy.epoch then s.attemptEnd p { q with src := none, cwy := none, tag := 0 } 3
  else if s.attempts ≤ q.n + 1 then ((s.count1 p.val 42).raise 129).attemptEnd p q 1
  else
    let q' := { q with n := q.n + 1, silent := if 2 ≤ q.silent then q.silent else if answered then 0 else q.silent + 1 }
    (s.modRoad p fun r => { r with st := .idle, cur := none, queue := q' :: r.queue }).roadKick p

/-- Bytes of a stored frame, in its cells, whose parity is wrong (07 R217). -/
def State.cellsBad (s : State) (q : QFrame) : List Nat :=
  (List.range q.cells.length).flatMap fun i =>
    let c := 0x40058000 + 256 * q.cells.getD i 0
    s.mem.badpar.filter fun a => decide (c ≤ a) && decide (a < c + min 256 (q.body.length - 256 * i))

/-- The frame as it is read for transmission: a transit frame comes from its cells (07 R217). -/
def State.frameRead (s : State) (q : QFrame) : List Byte :=
  if q.cells.isEmpty then q.body
  else (q.cells.flatMap fun c => s.bytesAt (0x40058000 + 256 * c) 256).take q.body.length

/-- A stored frame with a parity error is dropped as it is read: EV134, and the memory's own log (07 R217; 15 R406). -/
def State.parityDrop (p : Fin 4) (q : QFrame) (s : State) : State :=
  let a := (s.cellsBad q).headD 0 / 4 * 4
  let t := (((s.parityFx 7 .cell a 0xF).count1 4 39).count1 4 38).raise 134
  (t.frameLeft q).roadKick p

/-- The two preamble symbols and the listen symbol are sent, in PRE; a foreign preamble stops the frame before FC (07 R209,
R210, Table 7.4). -/
def State.roadBegin (p : Fin 4) (q : QFrame) (foreign : Option ForeignP) (s : State) : State :=
  let draw4 (x : State) : Fin 4 := ⟨x.draw % 4, Nat.mod_lt _ (by decide)⟩
  let c : Fin 4 × Fin 4 := (draw4 s, draw4 s.took)
  let t := s.took.took
  if foreign.any (foreignHeard c) then
    ((((t.txStamp p s.tre.time).modPort p fun x =>
        { x with txFrom := some s.tre.time, txEnd := some (s.tre.time + 2 * BitVec.ofNat 64 symbolNs) }).emit
      (.lineStop p s.tre.time c)).count1 p.val 40).attemptFail p q true
  else
    ((t.modRoad p fun r => { r with st := .pre, cur := some q, combs := c }).txStart p s.tre.time .road (s.roadTmi p q) false false
      (some c) none (s.frameRead q)).modPort p fun x => { x with txact := true }

/-- A slot boundary, in the window and after any survey exchange that lengthens it (05 R138): the count falls by the idle slots
the frame has waited for, and at 0 the frame starts if its end falls early enough before the next T0 (07 R203 to R205, R211,
R214). -/
def State.roadStart (p : Fin 4) (slots : List (List (Option Nat))) (foreign : Option ForeignP) (s : State) : State :=
  match (s.roadPort p).st, s.roadHead p with
  | .count, some q =>
    if !s.road.open_ || s.before s.svy.until_ || decide (s.tre.sync = .free) || !s.roadUp || !s.onGrid then s
    else
      let left := (s.roadPort p).count - idleSlots slots
      if decide (left ≠ 0) || (decide (s.tre.sync = .muted) && !threeIdle slots) ||
          !s.roadRoom p (s.roadTmi p q) q.body.length then
        s.modRoad p fun r => { r with count := left }
      else
        let t := (s.roadTake p q).modRoad p fun r => { r with st := .idle, count := 0 }
        if !s.usable p then
          match s.portNow p q with
          | none => (t.frameLost q).roadKick p
          | some r => (t.roadPut r q).roadKick p
        else if !(s.cellsBad q).isEmpty then t.parityDrop p q
        else t.roadBegin p q foreign
  | _, _ => s

/-- Transmit state of a port: PRE ends with the listen symbol, 24 us after the start (07 R209, Table 7.4). -/
def State.txState (s : State) (p : Fin 4) : TxState :=
  if (s.roadPort p).st = .pre ∧ (s.port p).txFrom.all fun b => s.reached (b + 3 * BitVec.ofNat 64 symbolNs) then .send
  else (s.roadPort p).st

/-- The last symbol has left the port: a broadcast is over, a unicast awaits its acknowledgement (07 Table 7.4). -/
def State.roadSent (p : Fin 4) (s : State) : State :=
  let rp := s.roadPort p
  match decide (rp.st = .pre) || decide (rp.st = .send), rp.cur with
  | true, some q =>
    let t := (s.modPort p fun c => { c with txact := false }).txCount p .road q.body
    if (RHdr.parse q.body).bcast then t.attemptEnd p q 0
    else t.modRoad p fun r => { r with st := .ackwait, endAt := s.tre.time }
  | _, _ => s

/-! ### The rings in SRAM (07 R223, R224) -/

def State.rxBase (s : State) (ch : Nat) : Nat := (s.reg (Reg.ROAD_RXBASE + 0x10 * ch)).toNat
def State.rxSize (s : State) (ch : Nat) : Nat := (s.reg (Reg.ROAD_RXSIZE + 0x10 * ch)).toNat

/-- Write pointer of a channel: the ring's base until the node has written to the ring. -/
def State.rxPos (s : State) (ch : Nat) : Nat :=
  let b := s.rxBase ch
  let w := (s.road.rxwp.getD ch 0).toNat
  if b ≤ w ∧ w < b + s.rxSize ch then w else b

/-- Where a record of n bytes goes: its place, and whether the ring wraps before it; none when there is no room. -/
def State.rxPlace (s : State) (ch n : Nat) : Option (Nat × Bool) :=
  let b := s.rxBase ch
  let e := b + s.rxSize ch
  let w := s.rxPos ch
  let r0 := (s.reg (Reg.ROAD_RXRP + 0x10 * ch)).toNat
  let r := if b ≤ r0 ∧ r0 < e then r0 else b
  if r ≤ w then
    if w + n < e ∨ (w + n = e ∧ r ≠ b) then some (w, false)
    else if b + n < r then some (b, true) else none
  else if w + n < r then some (w, false) else none

/-- Write a record: the control word, then header and payload in line order; EV112 + n (07 R223). LEN counts the control
word too (log 23). -/
def State.chanWrite (ch flags : Nat) (p : Fin 4) (body : List Byte) (s : State) : State :=
  let len := 4 + body.length
  let n := (len + 7) / 8 * 8
  match s.rxPlace ch n with
  | none => s
  | some (a, wrap) =>
    let t := s.when wrap fun u => u.pokeWord 7 (u.rxPos ch) 0
    let ctrl := flags * 2 ^ 27 + p.val * 2 ^ 24 + len
    let v := t.pokeBytes 7 a (leBytes 4 ctrl ++ body)
    let wp := if a + n = v.rxBase ch + v.rxSize ch then v.rxBase ch else a + n
    State.raise (112 + ch) { v with road.rxwp := vset v.road.rxwp ch (BitVec.ofNat 32 wp) }

/-- Code of a delivery to a channel: 3 without a ring, 1 without room (07 R223). -/
def State.chanCode (s : State) (ch len : Nat) : Nat :=
  if s.rxSize ch = 0 then 3 else if (s.rxPlace ch ((4 + len + 7) / 8 * 8)).isNone then 1 else 0

/-- Flags of a bad frame, all that hold: [31] BAD, [30] CRC, [29] erased, [28] parity, [27] short, for a body that does not
hold its header and PLEN bytes (07 R223, R224; log 163). -/
def State.badFlags (s : State) (f : RxFrame) : Nat :=
  16 + (!s.crcOk f).toNat * 8 + (!(s.erasedPay f).isEmpty).toNat * 4 + f.parity.toNat * 2 +
    (decide (f.body.length < 12 + (RHdr.parse f.body).plen)).toNat

/-- A frame was read back from the cell buffer with a parity error: in which byte is free (15 R406; log 229). -/
def State.cellParity (s : State) : State :=
  (((s.parityFound 7 .cell (0x40058000 + s.draw % 0x8000)).took).count1 4 39).raise 134

/-- A bad frame goes to channel 15 with its flags, or is dropped and counted (07 R224). -/
def State.badFrame (f : RxFrame) (s : State) : State :=
  let t := s.when f.parity State.cellParity
  if t.regBit (Reg.at Reg.ROAD_PCFG f.port.val) 0 ∧ t.chanCode 15 f.body.length = 0 then
    (t.chanWrite 15 (t.badFlags f) f.port f.body).count1 4 34
  else t.count1 4 38

/-! ### The duplicate window (07 R225) -/

inductive Dup where
  | accept (w : DupWin) | duplicate | stale
  deriving DecidableEq, Repr

def DupWin.test (w : DupWin) (seq : Half) : Dup :=
  let d := seq - w.high
  let back := (w.high - seq).toNat
  if !w.seen then .accept ⟨true, seq, 1⟩
  else if d ≠ 0 ∧ d.toNat < 32768 then .accept ⟨true, seq, (w.win <<< d.toNat) ||| 1⟩
  else if back < 32 ∧ w.win.getLsbD back = false then .accept { w with win := setBit w.win back }
  else if back < 32 then .duplicate
  else .stale

def State.dupTest (s : State) (h : RHdr) : Dup := (s.road.wins.getD h.src.toNat ⟨false, 0, 0⟩).test h.seq

/-- The window moves for a frame that is accepted (07 R225). -/
def State.dupMark (h : RHdr) (s : State) : State :=
  match s.dupTest h with
  | .accept w => { s with road.wins := vset s.road.wins h.src.toNat w }
  | _ => s

/-- The window moves for a frame that is accepted and handled here, and the frame is counted (08 Table 8.1, R236). -/
def State.dupAccept (h : RHdr) (s : State) : State :=
  match s.dupTest h with
  | .accept _ => (s.dupMark h).roadRxCount h
  | _ => s

/-! ### Neighbours (07 R219) -/

/-- A valid frame refreshes or creates the entry for its source; a node is no neighbour of its own. -/
def State.nbrHeard (p : Fin 4) (src : BitVec 6) (s : State) : State :=
  if s.svy.nid = some src then s
  else
  let old := (s.roadPort p).nbrs
  let known := old.any (·.1 == src)
  let t := s.modRoad p fun r => { r with nbrs := ((src, s.tre.time) :: old.filter (·.1 != src)).take 4 }
  t.raiseIf (!known) 135

/-! ### Receiving (07 R212, R215 to R218, R226) -/

/-- The cars of a port's segment. -/
def State.onSegment (s : State) (p : Fin 4) (car : Nat) : Bool :=
  decide (car = s.car) || decide (if s.isTailPort p then car = s.car + 1 else car + 1 = s.car)

/-- This node is the destination of a unicast. -/
def State.isDest (s : State) (h : RHdr) : Bool := !h.bcast && s.svy.nid == some h.dst

/-- This node is the through unit that acknowledges and forwards a unicast not addressed to it (07 R215). -/
def State.isRelay (s : State) (p : Fin 4) (h : RHdr) : Bool :=
  let c := carOf h.dst
  !h.bcast && !h.loc && s.sys.thru && s.svy.nid.isSome && !s.onSegment p c &&
    (if s.isTailPort p then decide (c < s.car) else decide (s.car < c))

/-- The frame belongs to this node's epoch, or to the exceptions of R226. -/
def State.epochOk (s : State) (h : RHdr) (kind : Nat) : Bool :=
  decide (h.epoch = s.svy.epoch) || (h.loc && decide (h.cls = 0) && !s.hasEpoch) ||
    (h.loc && decide (h.cls = 0) && decide (kind = 0x10) && decide (h.epoch = 0))

/-- The end of the last symbol of a received Open Road frame, in local time (04 R104). -/
def State.rxEnd (s : State) (f : RxFrame) : Dword :=
  f.ts + BitVec.ofNat 64 (s.frameNs f.port true (fcTmi f.fc) f.body.length)

/-- Send an acknowledge frame, 12 us after the end of the frame, in robust mode (07 R208, R212, Table 7.5); a port that may
not send sends none (04 R132). -/
def State.sendAck (f : RxFrame) (h : RHdr) (code : Nat) (s : State) : State :=
  let a : RHdr := ⟨7, false, false, true, 5, h.src, (s.svy.nid).getD 0, s.svy.epoch, 0, h.seq, 0, code⟩
  (s.txFrameAt f.port (s.rxEnd f + 12000) .road 15 false false none a.bytes).when (decide (code = 3) && s.canSend f.port)
    fun u => u.count1 4 36

/-- Cells a body of n bytes takes. -/
def cellsFor (n : Nat) : Nat := (n + 255) / 256

/-- Cells for a body are free. -/
def State.cellsFree (s : State) (n : Nat) : Bool := decide (s.cellsUsed.length + cellsFor n ≤ 128)

/-- This node has paused a priority on a port (07 R220). -/
def State.pausedHere (s : State) (p : Fin 4) (prio : Nat) : Bool :=
  decide (prio ≠ 7) && (s.roadPort p).pausing.getLsbD prio

/-- Code a transit frame is answered with (07 R217, R218, Table 7.5). -/
def State.transitCode (s : State) (p : Fin 4) (h : RHdr) : Nat :=
  if !s.present h.dst || decide (h.hops = 0) || (s.portFor h.dst).isNone then 3
  else if s.pausedHere p h.prio then 1
  else if s.sys.splitAct.getLsbD 3 then s.chanCode 14 (12 + h.plen)
  else if s.cellsFree (12 + h.plen) then 0 else 1

/-- Store a body in the lowest free cells (07 R217; log 24). -/
def State.cellStore (body : List Byte) (s : State) : State × List Nat :=
  let used := s.cellsUsed
  let free := ((List.range 128).filter fun i => !used.contains i).take (cellsFor body.length)
  (s.each (List.range free.length) fun k t =>
    t.bufWrite (0x40058000 + 256 * free.getD k 0) ((body.drop (256 * k)).take 256), free)

/-- The body with HOPS one lower. -/
def hopDown (body : List Byte) : List Byte := body.set 5 (byteAt body 5 - 1)

/-- Store a frame with HOPS decremented and queue it on a port, with what is due of the count of its reception; a priority whose
cells rise above XOFF is paused (07 R215 to R217, R220). -/
def State.storeForward (f : RxFrame) (h : RHdr) (p : Fin 4) (acct : BitVec 2) (s : State) : State :=
  let r := s.cellStore (hopDown f.body)
  (r.1.roadEnqueue p ⟨hopDown f.body, 0, 0, none, none, 0, some f.port, r.2, none, acct⟩).pauseCheck f.port h.prio

/-- Store and forward an accepted transit frame, counted when it leaves, or hand it to the steward on channel 14 (07 R215,
R217, R218; 08 R236). -/
def State.transit (f : RxFrame) (h : RHdr) (s : State) : State :=
  if s.sys.splitAct.getLsbD 3 then (s.dupAccept h).chanWrite 14 0 f.port f.body
  else match s.portFor h.dst with
    | none => s
    | some p => (s.dupMark h).storeForward f h p 1

/-- A broadcast is to be forwarded (07 R216). -/
def State.bcastOnward (s : State) (f : RxFrame) (h : RHdr) : Bool :=
  s.sys.thru && !h.loc && decide (h.hops ≠ 0) && (if s.isTailPort f.port then s.hasHead else s.hasTail)

/-- The port a broadcast is forwarded by, away from the side it arrived on, where a port is usable and cells are free (07
R216, R217). -/
def State.bcastPort (s : State) (f : RxFrame) (h : RHdr) : Option (Fin 4) :=
  let side := if s.isTailPort f.port then s.headPorts else s.tailPorts
  if s.bcastOnward f h && s.cellsFree f.body.length then (side.filter s.usable).head? else none

/-- Forward a broadcast, where it can go on. -/
def State.bcastForward (f : RxFrame) (h : RHdr) (acct : BitVec 2) (s : State) : State :=
  match s.bcastPort f h with
  | some p => s.storeForward f h p acct
  | none => s

/-- What a class or kind does when a frame is delivered here: whether the frame is one of the command's, the code a unicast
is answered with, and the effect. -/
structure Deliver where
  fits : State → RHdr → List Byte → Bool
  code : State → RHdr → List Byte → Nat
  act : RxFrame → RHdr → State → State

/-- Line management: always accepted, counted, then its kind's effect on the payload (08 TY0). -/
def mgmt (kind : Nat) (act : RxFrame → RHdr → List Byte → State → State) : Deliver where
  fits := fun _ h body => decide (h.cls = 0) && decide ((byteAt body 12).toNat = kind)
  code := fun _ _ _ => 0
  act := fun f h s => act f h (roadPayload f.body) (s.count1 4 14)

/-- A broadcast heard: the duplicate test, delivery by its class, and the copy onward, in hardware whatever SYS_SPLIT_ACT says
(07 R216, R218; log 214); the window moves where the frame is delivered or stored (R225). It is counted once: as delivered,
else as dropped, for want of room in the ring or of a cell, else when its copy has left (08 R236; log 220). -/
def State.roadBcast (f : RxFrame) (d : Deliver) (h : RHdr) (t : State) : State :=
  match t.dupTest h with
  | .duplicate => t.count1 4 43
  | .stale => t.count1 4 44
  | .accept _ =>
    let c := d.code t h f.body
    if c = 0 then (d.act f h (t.dupAccept h)).bcastForward f h 0
    else
      let full := decide (c = 1) || (t.bcastOnward f h && !t.cellsFree f.body.length)
      ((t.when (t.bcastPort f h).isSome (State.dupMark h)).when full fun x => x.count1 4 38).bcastForward f h
        (if full then 2 else 1)

/-- An accepted unicast at its destination: delivery and the acknowledgement. -/
def State.roadHere (f : RxFrame) (d : Deliver) (h : RHdr) (t : State) : State :=
  let c := if t.pausedHere f.port h.prio then 1 else d.code t h f.body
  if c = 0 then (d.act f h (t.dupAccept h)).sendAck f h 0 else t.sendAck f h c

/-- An accepted unicast on its way: the relay and the acknowledgement. -/
def State.roadOn (f : RxFrame) (h : RHdr) (t : State) : State :=
  let c := t.transitCode f.port h
  if c = 0 then (t.transit f h).sendAck f h 0
  else (t.raiseIf (decide (c = 1) && t.sys.splitAct.getLsbD 3 && !t.pausedHere f.port h.prio) 141).sendAck f h c

/-- A unicast heard by its destination or its relay. -/
def State.roadUnicast (f : RxFrame) (d : Deliver) (h : RHdr) (t : State) : State :=
  match t.dupTest h with
  | .duplicate => (t.count1 4 43).sendAck f h 2
  | .stale => (t.count1 4 44).sendAck f h 4
  | .accept _ => if t.isDest h then t.roadHere f d h else t.roadOn f h

/-- The acknowledger of a frame treats it as not received while its port transmits, and in FREE (07 R212). -/
def State.deaf (s : State) (p : Fin 4) : Bool := s.txen p || decide (s.tre.sync = .free)

/-- A good Open Road frame whose port receives Open Road (07 R206, R214 to R226). -/
def State.roadGood (f : RxFrame) (d : Deliver) (s : State) : State :=
  let h := RHdr.parse f.body
  let kind := (byteAt f.body 12).toNat
  let mine := s.isDest h || s.isRelay f.port h
  if 6 ≤ h.cls then s.count1 4 35
  else if h.cls = 5 ∨ f.body.length ≠ 12 + h.plen ∨ 2036 < h.plen then s
  else if !h.srcv then
    if h.loc && decide (h.cls = 0) && (h.bcast || s.isDest h) && s.epochOk h kind then d.act f h s else s
  else if !s.epochOk h kind then s.count1 4 45
  else if mine && s.deaf f.port then s
  else
    let t := s.nbrHeard f.port h.src
    if h.bcast then t.roadBcast f d h else if mine then t.roadUnicast f d h else t

/-- The node takes Open Road frames on the port of a reception (07 Table 7.7). -/
def State.roadListens (s : State) (f : RxFrame) : Bool :=
  s.roadUp && !s.regBit (Reg.at Reg.ROAD_PCFG f.port.val) 1 && decide (fcType f.fc = .road)

/-- Any Open Road frame received: what every reception does, bad frames, then R214 to R226. A good frame that is not the
command's changes nothing (log 4). -/
def State.roadRx (f : RxFrame) (d : Deliver) (s : State) : State :=
  let t := s.rxFx f
  let c := s.rxClass f
  if c = .good ∧ (fcType f.fc ≠ .road ∨ d.fits s (RHdr.parse f.body) f.body = false) then s
  else if !t.roadListens f then t
  else match c with
    | .good => if f.parity then t.badFrame f else t.roadGood f d
    | .badCrc | .erased => t.badFrame f
    | _ => t

/-! ### Disabling work in flight (07 R220, R234) -/

/-- The cells held are looked at again on every port and priority: ROAD_PAUSE has changed (07 R220). -/
def State.pauseAll (s : State) : State :=
  s.each (fins 4) fun p t => t.each (List.range 7) fun k u => u.pauseCheck p k

/-- Frames in reception on the line ports are discarded and counted aborted (07 Table 7.7). -/
def State.roadAbort (s : State) : State := s.each ((fins 4).filter s.portUp) fun p u => u.abortRx p

/-- ROAD_CTL: EN cleared discards a frame in reception (07 Table 7.7). -/
def State.roadCtlWrite (v : Word) (s : State) : State :=
  (s.setReg Reg.ROAD_CTL v).when (s.regBit Reg.ROAD_CTL 0 && !v.getLsbD 0) State.roadAbort

/-- ROAD_PCFG: NOOR set discards a frame in reception on its port (07 Table 7.7). -/
def State.roadPcfgWrite (p : Fin 4) (v : Word) (s : State) : State :=
  (s.setReg (Reg.at Reg.ROAD_PCFG p.val) v).when
    (!s.regBit (Reg.at Reg.ROAD_PCFG p.val) 1 && v.getLsbD 1 && s.portUp p) (State.abortRx p)

end Sys2Proof.Machine
end

