-- ==== Sys2Proof/Machine/Tone.lean ====
section
/-! DEFINITION. Agreeing the segment maps and the ring map (04 R119 to R123). -/
namespace Sys2Proof.Machine

/-- This node keeps the segment map of a port: through unit of the car nearer the leading end (04 Agreeing a segment map). -/
def State.keeper (s : State) (p : Fin 4) : Bool :=
  s.sys.thru && s.svy.nid.isSome && s.isTailPort p && s.hasTail

/-- The keeper of a port's segment. -/
def State.keeperNid (s : State) (p : Fin 4) : BitVec 6 :=
  if s.isTailPort p then s.thruNid s.car else s.thruNid (s.car - 1)

/-- The other couplers present on a port's segment. -/
def State.couplers (s : State) (p : Fin 4) : List (BitVec 6) :=
  let cars := if s.isTailPort p then [s.car, s.car + 1] else [s.car - 1, s.car]
  (cars.flatMap fun c => [BitVec.ofNat 6 (2 * (c - 1)), BitVec.ofNat 6 (2 * (c - 1) + 1)]).filter fun n =>
    s.present n && s.svy.nid != some n

/-- Bytes of an SNR vector. -/
def snrBytes (l : List Nat) : List Byte := (List.range 180).map fun i => BitVec.ofNat 8 (min 255 (l.getD i 0))

/-- A tone-map message payload (04 Table 4.9). -/
def toneMsg (kind port : Nat) (act : Word) (rest : List Byte) : List Byte :=
  [BitVec.ofNat 8 kind, BitVec.ofNat 8 port] ++ beBytes 4 act.toNat ++ rest

/-- Own estimate and the reports of the last 30 s, the minimum per carrier (04 R120). -/
def State.combined (s : State) (p : Fin 4) : List Nat :=
  let live := (s.port p).reports.filter fun r => decide ((s.tre.time - r.2.1).toNat ≤ 30000000000)
  live.foldl (fun v r => (List.range 180).map fun i => min (v.getD i 0) (byteAt r.2.2 i).toNat) (s.snrOf p)

/-- The ring's benchmark is this node. -/
def State.isBench (s : State) : Bool := decide (s.sys.netrole = .benchmark)

/-! ### The ring map at the benchmark (04 R121) -/

/-- The summaries held of a keeper, one for each of its two segments. -/
def State.summariesOf (s : State) (nid : BitVec 6) : List (BitVec 6 × Byte × List Byte) :=
  s.liu.summaries.filter fun r => r.1 == nid && r.2.1 == s.svy.epoch

/-- The keepers of the ring: the through unit of every car but the last, on both lines. -/
def State.keeperNids (s : State) : List (BitVec 6) :=
  (List.range (s.svy.cars.toNat - 1)).map fun c => s.thruNid (c + 1)

/-- Per-carrier minimum of the latest summary of every segment on both lines, once there is one of each (04 R121; logs 25,
204). -/
def State.ringVector (s : State) : Option (List Nat) :=
  let l := s.keeperNids.flatMap s.summariesOf
  if l.isEmpty || !(s.keeperNids.all fun n => decide (2 ≤ (s.summariesOf n).length)) then none
  else some (l.foldl (fun v r => (List.range 180).map fun i => min (v.getD i 255) (byteAt r.2.2 i).toNat)
    (List.replicate 180 255))

/-- Body lengths of an announce and of a summary (04 Table 4.9; 07 Table 7.1). -/
def announceLen : Nat := 12 + 6 + 96
def summaryLen : Nat := 12 + 6 + 180

/-- The Open Road window that is open leaves room for a robust frame of this length on these ports (04 R120, 07 R204). -/
def State.windowRoom (s : State) (ps : List (Fin 4)) (len : Nat) : Bool :=
  s.road.open_ && ps.all fun p => s.roadRoom p 15 len

/-- Send the ring announce once more, in an open window that has room (04 R120, R121). -/
def State.ringAnnounceAgain (s : State) : State :=
  match s.liu.pending with
  | some m =>
    if s.windowRoom s.bcastPorts announceLen && decide (m.sent < 8) && m.act.isNone then
      let r := s.liu.rtm.getD (m.tmi.toNat - 8) []
      ({ s with liu.pending := some { m with sent := m.sent + 1 } }).sendMgmtAll (toneMsg 3 0 0 r)
    else s
  | none => s

/-- Build the ring map; announce it when it differs from that in use (04 R121). With RROB = 1 the benchmark keeps the
Traverse in robust mode, and the manual does not say whether it still builds ring maps: this one builds none (log 164). The
new map's SEQ is one above that of the ring map in use, or in robust mode above that of the slot it overwrites (log 165). -/
def State.ringBuild (s : State) : State :=
  if !s.isBench || s.liu.pending.isSome || s.regBit Reg.LIU_CTL 8 then s
  else match s.ringVector with
    | none => s
    | some v =>
      let (rate, loads) := buildMap s.masked s.margin (s.ringMap.map tmLoads) v
      let cur := s.liu.rtmi.toNat
      let slot := if cur < 12 then 8 + (cur - 8 + 1) % 4 else 8
      let seq := (s.ringMap.map tmSeq).getD (tmSeq (s.liu.rtm.getD (slot - 8) [])) + 1
      let r := tmRecord slot rate seq loads
      let same := (s.ringMap.map (tmSame r)).getD false
      if same || !tmValid s.masked r then s
      else
        let t : State := { s with
          liu.rtm := vset s.liu.rtm (slot - 8) r
          liu.pending := some ⟨BitVec.ofNat 4 slot, 0, 0, none⟩ }
        t.ringAnnounceAgain

/-- A segment summary reaches the benchmark. A keeper's first two of an epoch are of its two segments; which of the two a later
one renews the message does not say: a free value (log 25). -/
def State.summaryRx (src : BitVec 6) (epoch : Byte) (snr : List Byte) (s : State) : State :=
  if !s.isBench then s
  else
    let mine := s.summariesOf src
    let keep := if mine.length < 2 then mine else if s.drawBool then mine.take 1 else mine.drop 1
    let rest := s.liu.summaries.filter (·.1 != src)
    (State.took { s with liu.summaries := (src, epoch, slice snr 0 180) :: keep ++ rest }).ringBuild

/-- A keeper sends its combined vector to the benchmark (04 R120). -/
def State.sendSummary (p : Fin 4) (s : State) : State :=
  let v := snrBytes (s.combined p)
  if s.isBench then s.summaryRx ((s.svy.nid).getD 0) s.svy.epoch v
  else s.sendMgmt s.tre.bench 0 (toneMsg 5 0 0 v)

/-! ### The segment map at the keeper (04 R120) -/

/-- Send the announce once more, in an open window that has room (04 R120). -/
def State.announceAgain (p : Fin 4) (s : State) : State :=
  match (s.port p).pending with
  | some m =>
    if s.windowRoom [p] announceLen && decide (m.sent < 8) && m.act.isNone then
      let r := (s.port p).slots.getD m.tmi.toNat []
      (s.modPort p fun c => { c with pending := some { m with sent := m.sent + 1 } }).sendLocal p true 0 0
        (toneMsg 2 p.val 0 r)
    else s
  | none => s

/-- Build the segment map; announce it when it differs from that in use. Its SEQ is one above that of the map in use, or in
robust mode above that of the slot it overwrites, so an abandoned map's SEQ comes again (log 165). -/
def State.segBuild (p : Fin 4) (s : State) : State :=
  if !s.keeper p || (s.port p).pending.isSome then s
  else
    let (rate, loads) := buildMap s.masked s.margin ((s.segMap p).map tmLoads) (s.combined p)
    let cur := (s.port p).stmi.toNat
    let slot := if cur < 8 then (cur + 1) % 8 else 0
    let seq := ((s.segMap p).map tmSeq).getD (tmSeq ((s.port p).slots.getD slot [])) + 1
    let r := tmRecord slot rate seq loads
    let same := ((s.segMap p).map (tmSame r)).getD false
    if same || !tmValid s.masked r then s
    else (s.modPort p fun c => { c with
      slots := vset c.slots slot r
      pending := some ⟨BitVec.ofNat 4 slot, 0, 0, none⟩ }).announceAgain p

/-- Every coupler has acknowledged: the activate, with ACT two T0s ahead. -/
def State.segAllAcked (p : Fin 4) (s : State) : State :=
  match (s.port p).pending with
  | some m =>
    if m.act.isNone && (s.couplers p).all fun n => m.acks.getLsbD n.toNat then
      let act := s.tre.tcount + 2
      let seq := tmSeq ((s.port p).slots.getD m.tmi.toNat [])
      (s.modPort p fun c => { c with pending := some { m with act := some act }, nextMap := some (m.tmi, act) }).sendLocal
        p true 0 0 (toneMsg 6 p.val act [m.tmi.setWidth 8, seq])
    else s
  | none => s

/-! ### Reports (04 R119) -/

/-- The map of the own estimate differs in N_dbps by 5 % or more, or a carrier in use is below its threshold. -/
def State.reportDue (s : State) (p : Fin 4) : Bool :=
  let own := s.ownMap p
  let a := tmNdbps (tmRecord 0 own.1 0 own.2)
  let b := s.ndbps p (s.port p).stmi.toNat
  let diff := if a < b then b - a else a - b
  let snr := s.snrOf p
  decide (b ≤ 20 * diff) || match s.segMap p with
    | some r => (List.range 180).any fun i =>
        decide (tmLoad r i ≠ 0) && decide (snr.getD i 0 < (snrThr (tmRate r) (tmLoad r i)).getD 0)
    | none => (List.range 180).any fun i => !s.masked i && decide (snr.getD i 0 < 6)

/-- Send the report to the keeper; the keeper itself combines its own estimate. -/
def State.sendReport (p : Fin 4) (s : State) : State :=
  if s.keeper p then s.segBuild p
  else s.sendLocal p false (s.keeperNid p) 0 (toneMsg 1 p.val 0 (snrBytes (s.snrOf p)))

/-- A coupler of a ring on an enabled port. -/
def State.isCoupler (s : State) (p : Fin 4) : Bool :=
  s.portUp p && s.svy.nid.isSome && (if s.isTailPort p then s.hasTail else s.hasHead)

def execSnrEvaluation (p : Fin 4) (s : State) : Result :=
  let due := match (s.port p).lastReport with
    | some t => decide (100000000 ≤ (s.tre.time - t).toNat)
    | none => true
  .next (if s.isCoupler p && !s.suspended p && due && s.reportDue p then
    (s.modPort p fun c => { c with lastReport := some s.tre.time }).sendReport p else s)

def execSnrReportPeriodic (p : Fin 4) (s : State) : Result :=
  .next (if s.isCoupler p then s.sendReport p else s)

/-! ### Received tone-map messages -/

def onSnrReport (f : RxFrame) (h : RHdr) (b : List Byte) (s : State) : State :=
  if !s.keeper f.port then s
  else (s.modPort f.port fun c => { c with
    reports := (h.src, s.tre.time, slice b 6 180) :: c.reports.filter (·.1 != h.src) }).segBuild f.port

def execSnrReport (f : RxFrame) (s : State) : Result := .next (s.roadRx f (mgmt 0x01 onSnrReport))

/-- Another coupler stores the map and acknowledges. -/
def onSegmentAnnounce (f : RxFrame) (h : RHdr) (b : List Byte) (s : State) : State :=
  let r := slice b 6 96
  let tmi := tmTmi r
  if 8 ≤ tmi ∨ tmValid s.masked r = false then s
  else (s.modPort f.port fun c => { c with
      slots := vset c.slots tmi r
      announced := some (BitVec.ofNat 4 tmi, tmSeq r) }).sendLocal f.port false h.src 0
    (toneMsg 4 f.port.val 0 [BitVec.ofNat 8 tmi, tmSeq r])

def execSegmentAnnounce (f : RxFrame) (s : State) : Result := .next (s.roadRx f (mgmt 0x02 onSegmentAnnounce))

/-- An acknowledge for a map in agreement at the keeper or at the benchmark. -/
def onToneAck (f : RxFrame) (h : RHdr) (b : List Byte) (s : State) : State :=
  let tmi := (byteAt b 6).toNat
  let seq := byteAt b 7
  if h.loc then
    match (s.port f.port).pending with
    | some m =>
      if m.tmi.toNat = tmi ∧ tmSeq ((s.port f.port).slots.getD tmi []) = seq then
        (s.modPort f.port fun c => { c with
          pending := some { m with acks := setBit m.acks h.src.toNat } }).segAllAcked f.port
      else s
    | none => s
  else
    match s.liu.pending with
    | some m =>
      if m.tmi.toNat = tmi ∧ tmSeq (s.liu.rtm.getD (tmi - 8) []) = seq then
        { s with liu.pending := some { m with acks := setBit m.acks h.src.toNat } }
      else s
    | none => s

def execTonemapAcknowledge (f : RxFrame) (s : State) : Result := .next (s.roadRx f (mgmt 0x04 onToneAck))

/-- A segment activate: the map applies from the T0 with count ACT. -/
def onSegmentActivate (f : RxFrame) (_h : RHdr) (b : List Byte) (s : State) : State :=
  let tmi := byteAt b 6
  let act := BitVec.ofNat 32 (beAt b 2 4)
  if tmi.toNat < 8 ∧ tmSeq ((s.port f.port).slots.getD tmi.toNat []) = byteAt b 7 then
    s.modPort f.port fun c => { c with nextMap := some (tmi.setWidth 4, act), announced := none }
  else s

def execSegmentActivate (f : RxFrame) (s : State) : Result := .next (s.roadRx f (mgmt 0x06 onSegmentActivate))

/-- At the ACT T0 the map is in use; the keeper then sends its summary and may build again (04 R120, EV040 + p). -/
def State.segActivate (p : Fin 4) (s : State) : State :=
  match (s.port p).nextMap with
  | some (tmi, act) =>
    if (s.tre.tcount - act).toNat < 0x80000000 then
      let t := (s.modPort p fun c => { c with stmi := tmi, nextMap := none, pending := none }).raise (40 + p.val)
      if t.keeper p then (t.sendSummary p).segBuild p else t
    else s
  | none => s

def execSegmentMapActivation (p : Fin 4) (s : State) : Result := .next (s.segActivate p)

/-- After the window of the eighth announce the keeper abandons the map (04 R120). -/
def execSegmentMapAbandon (p : Fin 4) (s : State) : Result :=
  .next (match (s.port p).pending with
    | some m =>
      if m.act.isNone && decide (8 ≤ m.sent) then
        ((s.modPort p fun c => { c with pending := none }).raise 56).segBuild p
      else s
    | none => s)

def onSegmentSummary (_f : RxFrame) (h : RHdr) (b : List Byte) (s : State) : State :=
  s.summaryRx h.src h.epoch (b.drop 6)

def execSegmentSummary (f : RxFrame) (s : State) : Result := .next (s.roadRx f (mgmt 0x05 onSegmentSummary))

/-- Every node stores the ring map and acknowledges. -/
def onRingAnnounce (_f : RxFrame) (h : RHdr) (b : List Byte) (s : State) : State :=
  let r := slice b 6 96
  let tmi := tmTmi r
  if tmi < 8 ∨ 12 ≤ tmi ∨ tmValid s.masked r = false then s
  else ({ s with liu.rtm := vset s.liu.rtm (tmi - 8) r }).sendMgmt h.src 0
    (toneMsg 4 0 0 [BitVec.ofNat 8 tmi, tmSeq r])

def execRingAnnounce (f : RxFrame) (s : State) : Result := .next (s.roadRx f (mgmt 0x03 onRingAnnounce))

/-- The benchmark holds the acknowledgement of every node of the epoch. -/
def State.ringAllAcked (s : State) (m : PendingMap) : Bool :=
  (List.range 64).all fun n => m.acks.getLsbD n || !s.present (BitVec.ofNat 6 n) || decide (s.nidN = n)

/-- The ring map is in use; what came in meanwhile may call for another (04 R121). -/
def execRingMapActivation (s : State) : Result :=
  .next (match s.liu.pending with
    | some m =>
      if s.isBench && s.ringAllAcked m then
        (State.raise 52 { s with liu.rtmi := m.tmi, liu.pending := none }).ringBuild
      else s
    | none => s)

def execRingMapAbandon (s : State) : Result :=
  .next (match s.liu.pending with
    | some m =>
      if s.isBench && decide (8 ≤ m.sent) && !s.ringAllAcked m then
        (State.raise 53 { s with liu.pending := none }).ringBuild
      else s
    | none => s)

/-- What an Open Road window that opens lets the keepers and the benchmark send: a summary in the first window of the epoch
that has room for it (04 R120, R121). -/
def State.toneWindow (s : State) : State :=
  let a := s.each (fins 4) fun p t => t.announceAgain p
  let b := a.ringAnnounceAgain
  if b.liu.sumDue && b.windowRoom ((fins 4).filter b.keeper) summaryLen then
    ({ b with liu.sumDue := false }).each ((fins 4).filter b.keeper) fun p t => t.sendSummary p
  else b

/-- At the cut (04 R121, R123): the ring reverts to robust mode, pending maps and old summaries go, ports that did not stay
locked through the survey lose their segment map. -/
def State.toneCut (s : State) : State :=
  let t := s.each (fins 4) fun p u => u.modPort p fun c => { c with
    stmi := if c.kept then c.stmi else 15
    nextMap := none, announced := none, pending := none }
  { t with liu.rtmi := 15, liu.pending := none, liu.summaries := [], liu.sumDue := true }

/-- A survey begins: ports locked now keep their segment map over it while they stay locked (04 R123). -/
def State.keepBegin (s : State) : State :=
  s.each (fins 4) fun p t => t.modPort p fun c => { c with kept := decide (c.state = .locked) }

end Sys2Proof.Machine
end

