-- ==== Sys2Proof/Machine/Ether.lean ====
section
/-! DEFINITION. The E ports: switching, tunnels, address table, priorities, PAUSE and PFC, the PHYs (07 R227 to R234). -/
namespace Sys2Proof.Machine

/-! ### Frames -/

def ethMac (b : List Byte) (i : Nat) : BitVec 48 := BitVec.ofNat 48 (beAt b i 6)

def ethGroup (b : List Byte) : Bool := (byteAt b 0).getLsbD 0

def ethTagged (b : List Byte) : Bool := decide (beAt b 12 2 = 0x8100)

/-- Priority of a frame on a port (07 R229). -/
def State.ethPrio (s : State) (e : Fin 2) (b : List Byte) : Fin 8 :=
  let m := s.reg (ethBase e + 0x10)
  let i := if ethTagged b then fld (byteAt b 14) 5 3 else fld m 24 3
  ⟨fld m (3 * i) 3, Nat.mod_lt _ (by decide)⟩

/-! ### Address table (07 R232, R233) -/

def State.atabHit (s : State) (mac : BitVec 48) : Option (Fin 256) :=
  (fins 256).find? fun i => (s.eth.atab.get i).valid && (s.eth.atab.get i).mac == mac

/-- Where an address lies: the source code of its entry. -/
def State.ethLookup (s : State) (mac : BitVec 48) : Option (BitVec 7) :=
  (s.atabHit mac).map fun i =>
    let a := s.eth.atab.get i
    if a.kind = 0 then 0x40 else if a.kind = 1 then 0x41 else a.nid.setWidth 7

/-- KIND and NID of a source. -/
def atabAt (src : BitVec 7) (a : Atab) : Atab :=
  if src = 0x40 then { a with kind := 0 } else if src = 0x41 then { a with kind := 1 }
  else { a with kind := 2, nid := src.setWidth 6 }

/-- Learn a source address, or post it to the steward; a hit starts the entry's age anew (07 R231 to R233). -/
def State.ethLearn (mac : BitVec 48) (src : BitVec 7) (s : State) : State :=
  let put (i : Fin 256) (a : Atab) : State := { s with eth.atab := s.eth.atab.set i a }
  match s.sys.splitAct.getLsbD 4, s.atabHit mac with
  | false, some i => put i { atabAt src (s.eth.atab.get i) with hit := s.tre.time }
  | false, none =>
    match (fins 256).find? fun i => !(s.eth.atab.get i).valid with
    | some i => put i (atabAt src ⟨true, false, 0, 0, mac, s.tre.time⟩)
    | none => s.raise 138
  | true, some _ => s
  | true, none =>
    if s.eth.learnq.length < 16 then { s with eth.learnq := s.eth.learnq ++ [(src, mac)] }
    else State.raise 142 { s with eth.learnLost := s.eth.learnLost + 1 }

/-! ### Transmission (07 R229, R234) -/

/-- The next frame an E port may send: strictly by priority, none while a MAC PAUSE holds, no stopped class. -/
def State.ethHead (s : State) (e : Fin 2) : Option EthQ :=
  let c := s.ethPort e
  if c.macPaused then none
  else c.queue.foldl (fun b x =>
    if c.pfcPaused.getLsbD x.prio.val then b
    else match b with
      | none => some x
      | some y => if y.prio < x.prio then some x else some y) none

/-- The frame is gone from the buffer of the port it was received on (07 R230). -/
def State.ethFreed (x : EthQ) (s : State) : State :=
  s.each ((fins 2).filter fun e => decide (x.src = srcE e)) fun e t => t.pfcCheck e x.prio

/-- The E port in whose buffer a frame waits for port e: the one it was received on, else e itself. -/
def EthQ.buffer (x : EthQ) (e : Fin 2) : Fin 2 := if x.src = srcE (otherE e) then otherE e else e

/-- Start the next frame; one that is read with a parity error is dropped, and the next taken (15 R406). -/
def State.ethNextOf (e : Fin 2) : Nat → State → State
  | 0, s => s
  | k + 1, s => match s.ethHead e with
    | none => s
    | some x =>
      let t := s.modEth e fun c => { c with queue := c.queue.erase x }
      if x.bad.isEmpty then t.modEth e fun c => { c with sending := some x }
      else State.ethNextOf e k ((t.ethParity (x.buffer e)).ethFreed x)

/-- An E port that is free takes up the next frame. -/
def State.ethKick (e : Fin 2) (s : State) : State :=
  s.when (s.ethTakes && s.ethCtl e 0 && (s.ethPort e).sending.isNone) (State.ethNextOf e (s.ethPort e).queue.length)

/-- The frames in transmission are cut off and lost, without REF_CLK or with the pins as in reset (03 R84, R85). -/
def State.ethCutOff (s : State) : State :=
  { s with eth.ports := s.eth.ports.map fun c => { c with sending := none } }

/-- Queue a frame on an E port. -/
def State.ethSend (e : Fin 2) (x : EthQ) (s : State) : State :=
  let t := (s.modEth e fun c => { c with queue := c.queue ++ [x] }).ethKick e
  if x.src = srcE (otherE e) then t.pfcCheck (otherE e) x.prio else t

/-- Padding to 64 bytes with the FCS (07 Table 7.6). -/
def ethPad (b : List Byte) : List Byte := b ++ List.replicate (60 - b.length) 0

/-- Attempt k of a frame in half duplex has collided: a jam, and a back-off of a free number of slot times below
2^min(k, 10); a late collision raises EV143 (07 R227; IEEE 802.3 clause 4; log 118). -/
def State.ethCollision (e : Fin 2) (k : Nat) (late : Bool) (s : State) : State :=
  let t := ((s.took).emit (.ethJam e late (s.draw % 2 ^ min k 10))).count1 (ethCnt e) 40
  t.when late fun u => (u.count1 (ethCnt e) 41).raise 143

/-- The collisions of a frame, attempt by attempt. -/
def State.ethCollisions (e : Fin 2) : Nat → List Bool → State → State
  | _, [], s => s
  | k, l :: t, s => (s.ethCollision e k l).ethCollisions e (k + 1) t

/-- The frame in hand leaves the port's buffer, and the next one starts. -/
def State.ethNext (e : Fin 2) (x : EthQ) (s : State) : State :=
  ((s.modEth e fun c => { c with sending := none }).ethFreed x).ethKick e

/-- The transmission of a frame ends. In half duplex it may have collided, late or not, at each attempt: after 16 it is
dropped (07 Table 7.6). Otherwise it has left, and is counted. The node restores the FCS (07 R231). A port that is down sends
nothing (03 R85). -/
def State.ethSent (e : Fin 2) (collisions : List Bool) (s : State) : State :=
  match s.ethRun, (s.ethPort e).sending with
  | false, _ | _, none => s
  | true, some x =>
    let n := ethCnt e
    let c := if s.ethFd e then [] else collisions.take 16
    let t := s.ethCollisions e 1 c
    if c.length = 16 then ((t.count1 n 42).raise 143).ethNext e x
    else
      let b := ethPad x.bytes
      let u := t.emit (.eth e (b ++ leBytes 4 (crc32 b).toNat))
      let v := ((u.count1 n 2).count n 3 (b.length + 4)).count1 n (if ethGroup b then 13 else 12)
      ((v.count1 n (26 + x.prio.val)).when (decide (x.src.toNat < 0x40)) fun w => w.count1 n 16).ethNext e x

/-! ### Tunnels (07 R230, R231) -/

/-- Open Road holds frames of this priority toward this destination, or toward every side (07 R221). -/
def State.tunnelPaused (s : State) (prio : Nat) (dst : Option (BitVec 6)) : Bool :=
  let k := min prio 6
  let on (p : Fin 4) (hop : Option (BitVec 6)) := (s.roadPort p).paused.any fun e =>
    e.2.getLsbD k && (match hop with | some h => decide (e.1 = h) | none => true)
  match dst with
  | some d => match s.portFor d with
    | some p => on p (some (s.nextHop d))
    | none => false
  | none => s.bcastPorts.any fun p => on p none

def State.anyTunen (s : State) : Bool := (fins 2).any fun e => s.ethCtl e 6

/-- A tunnel frame to this node itself: with a tunnel port its source is learned and, its destination lying where it came from,
it goes no further; without one it is written to channel 13, on a port that is a free value (07 R214, R223, R231). -/
def State.tunnelHere (body : List Byte) (s : State) : State :=
  let h := RHdr.parse body
  let p : Fin 4 := ⟨s.draw % 4, Nat.mod_lt _ (by decide)⟩
  if s.anyTunen then (s.count1 4 16).ethLearn (ethMac (roadPayload body) 6) (h.src.setWidth 7)
  else if s.chanCode 13 body.length = 0 then (((s.took).count1 4 16).count1 4 10).chanWrite 13 0 p body
  else s

/-- Send a frame received on an E port into the tunnel, or hold it while its priority is paused; a node without a NID sends
no tunnel frame (07 R218). Until Open Road has sent it, it stays in the port's buffer (R230). -/
def State.tunnelSend (e : Fin 2) (dst : Option (BitVec 6)) (x : EthQ) (s : State) : State :=
  if s.svy.nid.isNone then s
  else if s.tunnelPaused x.prio.val dst then
    (s.modEth e fun c => { c with held := c.held ++ [x] }).pfcCheck e x.prio
  else if !x.bad.isEmpty then s.ethParity e
  else
    let h := s.roadHdr x.prio.val 2 dst.isNone false (dst.getD 0) x.bytes.length 0
    let q := { mkQ (h.bytes ++ x.bytes) none none 0 with eth := some (e, x.prio) }
    let t := (s.count1 (ethCnt e) 15).bumpSeq
    match dst with
    | some d => if s.svy.nid = some d then t.tunnelHere q.body else (t.sendUnicast d q).pfcCheck e x.prio
    | none => (t.sendBcast q).pfcCheck e x.prio

/-- Tunnel destination of a held frame, looked up again: none for a group or unknown address. -/
def State.tunnelDst (s : State) (b : List Byte) : Option (Option (BitVec 6)) :=
  if ethGroup b then some none
  else match s.ethLookup (ethMac b 0) with
    | none => some none
    | some d => if d.toNat < 0x40 then some (some (d.setWidth 6)) else none

/-- Frames held for a paused tunnel go once their priority may start again. -/
def State.tunnelRelease (e : Fin 2) (s : State) : State :=
  let held := (s.ethPort e).held
  (s.modEth e fun c => { c with held := [] }).each held fun x u => (match u.tunnelDst x.bytes with
    | some d => u.tunnelSend e d x
    | none => u).pfcCheck e x.prio

/-! ### Switching (07 R231) -/

/-- E ports a flooded frame goes out on: not the source, TXEN = 1; for a tunnel TUNEN = 1 as well. -/
def State.floodPorts (s : State) (src : BitVec 7) : List (Fin 2) :=
  (fins 2).filter fun e => decide (srcE e ≠ src) && s.ethCtl e 0 && (decide (0x40 ≤ src.toNat) || s.ethCtl e 6)

/-- Switch a frame from an E port (e) or from the tunnel of a NID. -/
def State.ethSwitch (src : BitVec 7) (e? : Option (Fin 2)) (prio : Fin 8) (b : List Byte) (s : State) : State :=
  let t := s.ethLearn (ethMac b 6) src
  let d := if ethGroup b then none else t.ethLookup (ethMac b 0)
  match d with
  | none =>
    let u := t.each (t.floodPorts src) fun e v => v.ethSend e ⟨prio, src, b, []⟩
    match e? with
    | some e =>
      let v := u.count1 (ethCnt e) 17
      if s.ethCtl e 7 then v.tunnelSend e none ⟨prio, src, b, []⟩ else v
    | none => u
  | some d =>
    if d = src then (match e? with | some e => t.count1 (ethCnt e) 43 | none => t)
    else if 0x40 ≤ d.toNat then
      let o : Fin 2 := if d = 0x40 then 0 else 1
      if e?.isSome || s.ethCtl o 6 then t.ethSend o ⟨prio, src, b, []⟩ else t
    else match e? with
      | some e => t.tunnelSend e (some (d.setWidth 6)) ⟨prio, src, b, []⟩
      | none => t

/-! ### Reception (07 R227) -/

/-- A MAC Control PAUSE: honoured with PAUSEEN = 1. -/
def State.ethPauseRx (e : Fin 2) (quanta : Half) (s : State) : State :=
  let t := s.count1 (ethCnt e) 46
  if !s.ethCtl e 4 then t
  else (t.modEth e fun c => { c with macPaused := decide (quanta ≠ 0), quanta := vset c.quanta 0 quanta }).ethKick e

/-- A PFC frame: classes enabled with their quanta; with PFCEN = 1 in full duplex (07 R230). -/
def State.ethPfcRx (e : Fin 2) (classes : Byte) (quanta : List Half) (s : State) : State :=
  let t := s.count1 (ethCnt e) 46
  if !(s.ethCtl e 5 && s.ethFd e) then t
  else
    let one (p : Fin 8) (c : EthPort) : EthPort :=
      let q := quanta.getD p.val 0
      if classes.getLsbD p.val then
        { c with pfcPaused := putBit c.pfcPaused p.val (decide (q ≠ 0)), quanta := c.quanta.set p q }
      else c
    ((t.modEth e fun c => (fins 8).foldl (fun d p => one p d) c).raise 139).ethKick e

/-- A frame received on an E port. One that a port-buffer parity error meets is logged, counted and dropped (15 R406; 08
Table 8.1; log 167). -/
def State.ethRx (e : Fin 2) (f : EthRx) (s : State) : State :=
  let n := ethCnt e
  let b := f.bytes
  let len := b.length + 4
  if !s.ethTakes || !s.ethCtl e 1 then s
  else if len < 64 then s.count1 n 35
  else if (if ethTagged b then 1522 else 1518) < len then (s.count1 n 36).raise 140
  else if !f.fcsOk then (s.count1 n 34).raise 140
  else if !f.room then (s.count1 n 38).raise 140
  else if f.parity then s.ethParity e
  else
    let prio := s.ethPrio e b
    let t := s.ethRxCount e len (ethGroup b) (ethTagged b) prio.val
    if beAt b 12 2 = 0x8808 then
      if beAt b 14 2 = 1 then t.ethPauseRx e (BitVec.ofNat 16 (beAt b 16 2))
      else if beAt b 14 2 = 0x0101 then
        t.ethPfcRx e (byteAt b 17) ((List.range 8).map fun i => BitVec.ofNat 16 (beAt b (18 + 2 * i) 2))
      else t
    else t.ethSwitch (srcE e) (some e) prio b

def execEthFrameReceive (e : Fin 2) (f : EthRx) (s : State) : Result := .next (s.ethRx e f)

/-- Counters of a MAC Control frame: 64 bytes, group address, untagged. -/
def State.ethMacCtl (e : Fin 2) (s : State) : State :=
  s.ethRxCount e 64 true false (s.ethUntagged e)

def execEthPause (e : Fin 2) (quanta : Half) (s : State) : Result :=
  .next (if s.ethTakes && s.ethCtl e 1 then (s.ethMacCtl e).ethPauseRx e quanta else s)

def execPfc (e : Fin 2) (classes : Byte) (quanta : List Half) (s : State) : Result :=
  .next (if s.ethTakes && s.ethCtl e 1 then (s.ethMacCtl e).ethPfcRx e classes quanta else s)

/-- The pause time of the port runs out. -/
def execEthPauseExpiry (e : Fin 2) (s : State) : Result :=
  .next (s.when s.coreRuns fun s => (s.modEth e fun c => { c with macPaused := false }).ethKick e)

def execPfcExpiry (e : Fin 2) (cls : Fin 8) (s : State) : Result := .next (s.when s.coreRuns fun s =>
    (s.modEth e fun c => { c with pfcPaused := clrBit c.pfcPaused cls.val }).ethKick e)

def execEthFrameSent (e : Fin 2) (collisions : List Bool) (s : State) : Result := .next (s.ethSent e collisions)

/-! ### Tunnel frames received (07 R223, R231) -/

/-- A tunnel frame is switched onto the E ports, or written to channel 13. Its priority on them is the frame's own. -/
def State.tunnelIn (f : RxFrame) (h : RHdr) (s : State) : State :=
  let t := s.count1 4 16
  if s.anyTunen then
    let b := roadPayload f.body
    t.ethSwitch (h.src.setWidth 7) none ⟨h.prio % 8, Nat.mod_lt _ (by decide)⟩ b
  else (t.count1 4 (if h.bcast then 11 else 10)).chanWrite 13 0 f.port f.body

def deliverTunnel : Deliver where
  fits := fun _ h _ => decide (h.cls = 2)
  code := fun s _ body => if s.anyTunen then 0 else s.chanCode 13 body.length
  act := State.tunnelIn

def execEthernetTunnel (f : RxFrame) (s : State) : Result := .next (s.roadRx f deliverTunnel)

/-! ### The address table's commands (07 R232, R233) -/

/-- AGE has passed since the last hit: the entry goes, but for one hit in this very core cycle (07 R232; log 217). -/
def State.addressAged (i : Fin 256) (s : State) : State :=
  let a := s.eth.atab.get i
  if a.valid && !a.static && decide (a.hit ≠ s.tre.time) then { s with eth.atab := s.eth.atab.set i ⟨false, false, 0, 0, 0, 0⟩ } else s

def execAddressAgeExpiry (i : Fin 256) (s : State) : Result := .next (s.when s.coreRuns (State.addressAged i))

/-- At a cut every learned entry of kind NID is removed. -/
def State.ethCut (s : State) : State :=
  { s with eth.atab := s.eth.atab.map fun a =>
      if a.valid && !a.static && decide (a.kind = 2) then ⟨false, false, 0, 0, 0, 0⟩ else a }

/-- ETH_LEARNQ_H as it reads. -/
def State.learnqH (s : State) : Word :=
  match s.eth.learnq with
  | [] => 0
  | (src, mac) :: _ => packW [(31, 1), (24, src.toNat), (0, fld mac 32 16)]

/-- A normal read of ETH_LEARNQ_H pops the entry and shadows its _L word. -/
def State.learnqPop (s : State) : State :=
  match s.eth.learnq with
  | [] => s
  | (_, mac) :: t => { s with eth.learnq := t, eth.learnSh := mac.setWidth 32 }

/-! ### The PHYs (07 R228) -/

/-- Speed and duplex after a poll: the highest ability common to registers 4 and 5, otherwise register 0. -/
def phyMode (r0 r1 r4 r5 : Half) : Bool × Bool :=
  if r1.getLsbD 5 then
    let c := r4 &&& r5
    if c.getLsbD 8 then (true, true) else if c.getLsbD 7 then (true, false)
    else if c.getLsbD 6 then (false, true) else (false, false)
  else (r0.getLsbD 13, r0.getLsbD 8)

def State.phyPoll (e : Fin 2) (r0 r1 r4 r5 : Half) (s : State) : State :=
  if !s.ethUp || !s.ethCtl e 3 then s
  else
    let phyad : BitVec 5 := BitVec.ofNat 5 (s.regFld (ethBase e + 8) 8 5)
    let t := s.each [0, 1, 4, 5] fun r u => u.emit (.mdio e false phyad r 0)
    let m := phyMode r0 r1 r4 r5
    let up := r1.getLsbD 2 && s.sys.refok
    (t.modEth e fun c => { c with up := up, andone := r1.getLsbD 5, s100 := m.1, fd := m.2 }).raiseIf
      (up != (s.ethPort e).up) (136 + e.val)

def execPhyPoll (e : Fin 2) (r0 r1 r4 r5 : Half) (s : State) : Result := .next (s.phyPoll e r0 r1 r4 r5)

/-- A write of ETH_MDIO: GO starts an access, while none is in hand; nothing is driven while the pins stand as in reset (03
R84). -/
def State.mdioWrite (e : Fin 2) (v : Word) (s : State) : State :=
  if (s.ethPort e).mdio.isSome then s
  else
    let t := s.setReg (ethBase e + 0xC) v
    if !v.getLsbD 31 then t
    else (t.modEth e fun c => { c with mdio := some v }).when (!s.pinsReset) (State.emit
      (.mdio e (v.getLsbD 30) (BitVec.ofNat 5 (fld v 21 5)) (BitVec.ofNat 5 (fld v 16 5))
        (if v.getLsbD 30 then v.setWidth 16 else 0)))

def execMdioAccess (e : Fin 2) (v : Word) (s : State) : Result := .next (s.mdioWrite e v)

/-- The access ends: BUSY clears and a read's data is in DATA. -/
def execMdioDone (e : Fin 2) (data : Half) (s : State) : Result :=
  .next (match (s.ethPort e).mdio with
    | none => s
    | some v =>
      let t := s.modEth e fun c => { c with mdio := none }
      if v.getLsbD 30 then t
      else t.setReg (ethBase e + 0xC) ((t.reg (ethBase e + 0xC) &&& 0xFFFF0000) ||| data.setWidth 32))

/-- A frame in reception on an E port is discarded and counted aborted; whether there is one is free (07 Table 7.7; log 21). -/
def State.ethAbort (e : Fin 2) (s : State) : State := (s.took).when s.drawBool fun u => u.count1 (ethCnt e) 37

/-- A write of ETH_CTL: a cleared TXEN lets the frame in hand finish and keeps the queue; set, it starts. A cleared RXEN
discards a frame in reception, if there is one (a free value, log 21), and counts it (07 R234). -/
def State.ethCtlWrite (e : Fin 2) (v : Word) (s : State) : State :=
  ((s.setReg (ethBase e) v).ethKick e).when (s.ethTakes && s.ethCtl e 1 && !v.getLsbD 1) (State.ethAbort e)

def execEthDisable (e : Fin 2) (v : Word) (s : State) : Result := .next (s.ethCtlWrite e v)

end Sys2Proof.Machine
end

