-- ==== Sys2Proof/Machine/RoadCmds.lean ====
section
/-! DEFINITION. The commands of Open Road that need no other chapter: the window, attempts, user messages, pause,
neighbours, PING, and what the cut does (07 R203 to R226). -/
namespace Sys2Proof.Machine

/-! ### The window and the attempts -/

/-- O: the window opens and held counts resume (07 R203, Table 7.4). -/
def State.roadOpen (s : State) : State :=
  let t : State := { s with
    road.open_ := true
    road.o := s.tre.time
    road.ports := s.road.ports.map fun r => if r.st = .hold then { r with st := .count } else r }
  t.each (fins 4) fun p u => u.roadRehead p (s.roadHead p)

/-- The window closes at the next T0; counts are kept (07 R203, Table 7.4). -/
def State.roadClose (s : State) : State :=
  { s with
    road.open_ := false
    road.ports := s.road.ports.map fun r => if r.st = .count then { r with st := .hold } else r }

def execRoadFrameStart (p : Fin 4) (slots : List (List (Option Nat))) (foreign : Option ForeignP) (s : State) : Result :=
  .next (s.roadStart p slots foreign)

def execLastSymbolSent (p : Fin 4) (s : State) : Result := .next (s.roadSent p)

/-- An acknowledgement's first P arrives 12 us after the end of the frame, within 4 us (07 R212). -/
def ackInTime (endAt ts : Dword) : Bool :=
  let d := ts - (endAt + 8000)
  decide (d.toNat ≤ 8000)

/-- A valid acknowledgement of the frame in ACKWAIT (07 R212, R213, Table 7.5). -/
def State.roadAck (p : Fin 4) (ts : Dword) (a : RHdr) (s : State) : State :=
  let rp := s.roadPort p
  match rp.st, rp.cur with
  | .ackwait, some q =>
    let h := RHdr.parse q.body
    if ackInTime rp.endAt ts = false ∨ a.src ≠ h.src ∨ a.seq ≠ h.seq ∨ a.epoch ≠ s.svy.epoch ∨ h.epoch ≠ s.svy.epoch then s
    else match a.chan with
      | 0 | 2 => s.attemptEnd p q 0
      | 1 => s.attemptFail p q true
      | 3 => (((s.count1 4 36).count1 p.val 42).raise 130).attemptEnd p q 2
      | 4 => ((s.count1 p.val 42).raise 130).attemptEnd p q 1
      | _ => s
  | _, _ => s

/-- An acknowledge frame is heard: its entry among the neighbours, while Open Road works on the port, and the attempt that
awaits it, which a disable leaves standing (07 R219, Table 7.7; log 218). -/
def State.ackGood (f : RxFrame) (a : RHdr) (s : State) : State :=
  let valid := s.roadListens f && a.srcv && decide (a.epoch = s.svy.epoch) && decide (a.chan ≤ 4)
  (s.when valid (State.nbrHeard f.port a.src)).when (s.portUp f.port) (State.roadAck f.port f.ts a)

/-- Any acknowledge frame received; a damaged one goes the way of every bad frame, whatever its header says (07 R224). -/
def State.ackRx (f : RxFrame) (s : State) : State :=
  let a := RHdr.parse f.body
  let t := s.rxFx f
  match s.rxClass f with
  | .good =>
    if fcType f.fc ≠ .road ∨ a.cls ≠ 5 then s
    else if f.parity then t.when (t.roadListens f) (State.badFrame f)
    else t.ackGood f a
  | .badCrc | .erased => t.when (t.roadListens f) (State.badFrame f)
  | _ => t

def execAcknowledge (f : RxFrame) (s : State) : Result := .next (s.ackRx f)

/-- No valid acknowledgement arrived in its window. -/
def State.ackLost (p : Fin 4) (s : State) : State :=
  let rp := s.roadPort p
  match rp.st, rp.cur with
  | .ackwait, some q => (s.count1 p.val 41).attemptFail p q false
  | _, _ => s

def execAckTimeout (p : Fin 4) (s : State) : Result := .next (s.when s.coreRuns fun s => s.ackLost p)

/-! ### User messages (07 R223) -/

/-- Write a user message to its channel. -/
def State.userIn (f : RxFrame) (h : RHdr) (s : State) : State :=
  ((s.count1 4 (if h.bcast then 11 else 10)).count1 4 15).chanWrite h.chan 0 f.port f.body

def deliverUser : Deliver where
  fits := fun _ h _ => decide (h.cls = 1)
  code := fun s h body => if 13 ≤ h.chan then 3 else s.chanCode h.chan body.length
  act := State.userIn

def execUserMessage (f : RxFrame) (s : State) : Result := .next (s.roadRx f deliverUser)

/-! ### Pause (07 R220, R221) -/

/-- After what stops or starts a neighbour's priorities, each port looks at its head again and held tunnels go on. -/
def State.pauseChanged (p : Fin 4) (before : Option QFrame) (s : State) : State :=
  (s.roadRehead p before).each (fins 2) fun e t => t.tunnelRelease e

/-- Stop, or with PTIME 0 start, the masked priorities toward a neighbour; bit 7 is ignored. -/
def State.pauseRx (p : Fin 4) (nid : BitVec 6) (mask : Byte) (ptime : Nat) (s : State) : State :=
  let old := (((s.roadPort p).paused.find? (·.1 == nid)).map (·.2)).getD 0
  let m := mask &&& 0x7F
  let new := if ptime = 0 then old &&& ~~~ m else old ||| m
  let rest := (s.roadPort p).paused.filter (·.1 != nid)
  let t := s.modRoad p fun r => { r with paused := if new = 0 then rest else rest ++ [(nid, new)] }
  (t.pauseChanged p (s.roadHead p)).raise 132

def deliverPause : Deliver where
  fits := fun _ h _ => decide (h.cls = 3)
  code := fun _ _ _ => 0
  act := fun f h s => s.pauseRx f.port h.src (byteAt (roadPayload f.body) 0) (beAt (roadPayload f.body) 1 2)

def execPause (f : RxFrame) (s : State) : Result := .next (s.roadRx f deliverPause)

/-- PTIME after the pause of a priority by a neighbour has ended; a later pause of another priority keeps its own time. -/
def State.pauseEnd (p : Fin 4) (nid : BitVec 6) (prio : Fin 8) (s : State) : State :=
  let off (e : BitVec 6 × Byte) : BitVec 6 × Byte := if e.1 = nid then (e.1, clrBit e.2 prio.val) else e
  let t := s.modRoad p fun r => { r with paused := (r.paused.map off).filter fun e => decide (e.2 ≠ 0) }
  t.pauseChanged p (s.roadHead p)

def execPauseExpiry (p : Fin 4) (nid : BitVec 6) (prio : Fin 8) (s : State) : Result :=
  .next (s.when s.coreRuns (State.pauseEnd p nid prio))

/-- PTIME / 2 after the last pause, while the cells held stay above XON. -/
def execPauseRepeat (p : Fin 4) (prio : Fin 8) (s : State) : Result := .next (s.when s.coreRuns fun s =>
    if (s.roadPort p).pausing.getLsbD prio.val && decide (s.roadX.2 < s.cellsHeld p prio.val) then
      s.sendPause p prio.val (clampN 1 65535 (s.regFld Reg.ROAD_PAUSE 16 16)) else s)

/-! ### Neighbours (07 R219) -/

/-- A HELLO waits on the port. -/
def State.helloWaits (s : State) (p : Fin 4) : Bool :=
  (s.roadPort p).queue.any fun q => decide (q.tag = 1)

/-- NBAGE / 4 has passed: a HELLO on every locked port, where none waits. -/
def execHelloTimer (s : State) : Result := .next (s.when s.coreRuns fun s =>
    if !s.regBit Reg.ROAD_CTL 1 || !s.roadUp then s
      else s.each ((fins 4).filter fun p => s.usable p && !s.helloWaits p) fun p t => t.sendLocal p true 0 1 [0x13])

/-- A HELLO says no more than that its source is heard. -/
def onHello (_f : RxFrame) (_h : RHdr) (_b : List Byte) (s : State) : State := s

def execHello (f : RxFrame) (s : State) : Result := .next (s.roadRx f (mgmt 0x13 onHello))

/-- NBAGE has passed since the last refresh: the entry goes, but for one refreshed in this very core cycle (07 R219; log 217). -/
def State.nbrAged (p : Fin 4) (nid : BitVec 6) (s : State) : State :=
  if (s.roadPort p).nbrs.any fun x => decide (x.1 = nid) && decide (x.2 ≠ s.tre.time) then
    (s.modRoad p fun r => { r with nbrs := r.nbrs.filter (·.1 != nid) }).raise 135 else s

def execNeighbourAgeExpiry (p : Fin 4) (nid : BitVec 6) (s : State) : Result :=
  .next (s.when s.coreRuns (State.nbrAged p nid))

/-! ### PING (07 ROAD_PING, kinds 0x14 and 0x15) -/

/-- The REPLY: DONE and the round-trip time in us. -/
def State.pingReply (s : State) : State :=
  match s.road.pingAt with
  | none => s
  | some t =>
    { s with road.pingDone := true, road.pingAt := none,
             road.pingRtt := BitVec.ofNat 16 (sat 16 ((s.tre.time - t).toNat / 1000)) }

/-- ROAD_PING.GO: an ECHO at priority 7, its tag a free value. -/
def State.ping (dst : BitVec 6) (s : State) : State :=
  let t : State := { s with road.pingDone := false, road.pingFail := false, road.pingRtt := 0, road.pingAt := some s.tre.time }
  if s.svy.nid = some dst then t.pingReply
  else (t.took).sendMgmt dst 2 (0x14#8 :: beBytes 4 (s.draw % 2 ^ 32))

def execPing (dst : BitVec 6) (s : State) : Result :=
  .next ((s.setReg Reg.ROAD_PING (packW [(16, dst.toNat)])).ping dst)

/-- The target returns the body in a REPLY. -/
def onEcho (_f : RxFrame) (h : RHdr) (b : List Byte) (s : State) : State :=
  if s.svy.nid = some h.src then s.pingReply else s.sendMgmt h.src 0 (0x15#8 :: b.drop 1)

def execEcho (f : RxFrame) (s : State) : Result := .next (s.roadRx f (mgmt 0x14 onEcho))

def onReply (_f : RxFrame) (_h : RHdr) (_b : List Byte) (s : State) : State := s.pingReply

def execReply (f : RxFrame) (s : State) : Result := .next (s.roadRx f (mgmt 0x15 onReply))

/-! ### The cut (07 R226) -/

/-- A frame of the old epoch is discarded: its record is marked 0b11, its Causeway window told, its PING failed. -/
def State.frameDropped (q : QFrame) (s : State) : State :=
  let t := match q.src with
    | some a => s.txDone a 3
    | none => s.count1 4 45
  let u := match q.cwy with
    | some w => t.cwyTxResult w 3
    | none => t
  if q.tag = 2 then { u with road.pingFail := true, road.pingAt := none } else u

/-- The frame in PRE on a port stops before FC: two P symbols were sent, the listen symbol stays silent (07 R210, R226). -/
def State.preStop (p : Fin 4) (s : State) : State :=
  let start := (s.port p).txFrom.getD s.tre.time
  ((s.modRoad p fun r => { r with st := .idle, cur := none }).modPort p fun c =>
      { c with txEnd := some (start + 2 * BitVec.ofNat 64 symbolNs), txact := false }).emit
    (.lineStop p start (s.roadPort p).combs)

/-- At a cut every queued frame and cell goes, EV131 is raised, windows clear and SEQ starts again. A frame in PRE stops; one in
SEND or ACKWAIT finishes on the line with nothing left of it to complete. -/
def State.roadCut (s : State) : State :=
  let all := s.road.ports.toList.flatMap fun r => r.queue ++ r.cur.toList
  let strip (q : QFrame) : QFrame := { q with src := none, cwy := none, tag := 0, cells := [], eth := none }
  let a := s.each ((fins 4).filter fun p => decide (s.txState p = .pre)) State.preStop
  let ports := a.road.ports.map fun r => { r with
    queue := [], cur := r.cur.map strip, count := 0, paused := [], pausing := 0, head := none
    st := if r.st = .pre ∨ r.st = .send ∨ r.st = .ackwait then r.st else .idle }
  let t : State := { a with road.ports := ports }
  let u := ((t.each all State.frameDropped).cwyCut).each (fins 2) State.pfcAll
  State.raise 131 { u with road.wins := Vector.replicate 64 ⟨false, 0, 0⟩, road.seq := 0 }

end Sys2Proof.Machine
end

