-- ==== Sys2Proof/Machine/Drive.lean ====
section
/-! DEFINITION. Which unit drives: preference, requests, the wayleave byte, leases, drive permission and OWN_OUT_N, and
the benchmark's evaluation (12 R326 to R351; 11 R303, R322). -/
namespace Sys2Proof.Machine

/-! ### Timers and levels (12 Table 12.4, R328) -/

def State.lease (s : State) : Nat := clampN 2 15 (s.regFld Reg.WLV_CFG 0 4)
def State.mismN (s : State) : Nat := clampN 1 15 (s.regFld Reg.WLV_CFG 8 4)
def State.drillT (s : State) : Nat := clampN 2 15 (s.regFld Reg.WLV_CFG 16 4)
def State.revHold (s : State) : Nat := clampN 10 3600 (s.regFld Reg.WLV_CFG 20 12)

/-- Effective preference (12 R328). -/
def State.epref (s : State) : Bool :=
  let own := s.sys.straps.pref
  if s.wlv.hbok then (if own = s.wlv.peerPref then !s.unitB else own) else own

def State.dupPref (s : State) : Bool := s.wlv.hbok && s.sys.straps.pref && s.wlv.peerPref
def State.noPref (s : State) : Bool := s.wlv.hbok && !s.sys.straps.pref && !s.wlv.peerPref

/-- EV222 and the fault code where both units, or neither, prefer (12 R328). -/
def State.prefCheck (before : Bool × Bool) (s : State) : State :=
  if (s.dupPref, s.noPref) = before then s
  else if s.dupPref then (s.raise 222).spFaultCode 0x0C01
  else if s.noPref then (s.raise 222).spFaultCode 0x0C02
  else s

/-- The program may drive: RUN, no Walk mode, no power-fail save (12 R335, first condition). -/
def State.able (s : State) : Bool :=
  decide (s.ctl.pstate = .run) && !s.sp.walk && !s.sp.walkEntering && !s.pfail && decide (s.sys.phase = .running) &&
    !s.sys.clkFault

/-! ### The Lane's side of permission (11 R303, Table 11.4) -/

/-- A change of Lane state raises EV192. -/
def State.laneTo (st : LaneState) (s : State) : State :=
  if s.lane.state = st then s else State.raise 192 { s with lane.state := st }

/-- L1_DE and L2_DE are high: permission, and a state in which the Lane drives (11 R303, R325). -/
def State.laneDe (s : State) : Bool :=
  s.lane.perm && s.lane.enabled && !s.regBit Reg.LANE_CTL 4 &&
    (decide (s.lane.state = .start) || decide (s.lane.state = .run) || decide (s.lane.state = .turned))

/-- The Lane stops driving: any pass in progress is cut off, and the unit listens. -/
def State.laneOffDrive (s : State) : State :=
  let t : State := { s with lane.pass := none, lane.turnNext := none }
  if s.lane.state = .start ∨ s.lane.state = .run ∨ s.lane.state = .turned then t.laneTo .listen else t

/-! ### Requests (12 R332, Table 12.1) -/

/-- A WAYLEAVE payload. -/
def State.wlvPayload (s : State) (req : Nat) : List Byte :=
  [0x30, BitVec.ofNat 8 req, BitVec.ofNat 8 (s.unitB.toNat * 128 + s.epref.toNat * 64 + s.svy.chain.toNat), 0] ++
    beBytes 4 s.tre.tcount.toNat

/-- The benchmark keeps a request: the last state request of a unit, or a one-shot for the next cycle Traverse. -/
def State.wlvReqRx (nid : BitVec 6) (req flags : Byte) (s : State) : State :=
  let n := req.toNat
  if !s.isBench || n < 1 || 7 < n then s
  else
    let q := if s.sys.splitAct.getLsbD 5 ∧ s.wlv.reqq.length < 16 then s.wlv.reqq ++ [(nid, req)] else s.wlv.reqq
    let t : State := { s with wlv.reqq := q, wlv.reqPref := putBit s.wlv.reqPref nid.toNat (flags.getLsbD 6) }
    if n ≤ 3 then { t with wlv.lastReq := vset t.wlv.lastReq nid.toNat (BitVec.ofNat 4 n) }
    else { t with wlv.oneshots := t.wlv.oneshots ++ [(nid, req)] }

/-- Send a request; the benchmark's own needs no line. -/
def State.wlvSend (req : Nat) (s : State) : State :=
  let p := s.wlvPayload req
  match s.svy.nid with
  | none => s
  | some n => if s.isBench then s.wlvReqRx n (byteAt p 1) (byteAt p 2) else s.sendMgmt s.tre.bench 0 p

/-- A one-shot request, repeated until the byte answers it. -/
def State.wlvShot (req : Nat) (s : State) : State :=
  let rest := s.wlv.shots.filter (·.1 != BitVec.ofNat 8 req)
  ({ s with wlv.shots := rest ++ [(BitVec.ofNat 8 req, 1, 0)] }).wlvSend req

/-- The state request that fits: 1 ASK, 2 HOLDING, 3 RELEASE. -/
def State.wlvWant (s : State) : Nat :=
  if s.wlv.state = .idle then 3
  else if s.wlv.state = .ilActive ∨ s.wlv.holding = true then 2 else 1

/-- A state request is sent. -/
def State.wlvAskNow (req : Nat) (s : State) : State :=
  ({ s with wlv.asked := BitVec.ofNat 2 req, wlv.askState := s.wlv.state, wlv.askedAgo := 0 }).wlvSend req

/-- The state request has gone out for the state as it stands; a RELEASE that ended drive stands while the state does (12 R332,
R338). -/
def State.wlvAsked (s : State) : Bool :=
  decide (s.wlv.asked ≠ 0) && decide (s.wlv.askState = s.wlv.state) &&
    (decide (s.wlv.asked.toNat = s.wlvWant) || decide (s.wlv.asked = 3))

/-- The state request is sent whenever the unit's state changes, on a ring (12 R332). -/
def State.wlvAsk (s : State) : State :=
  if s.wlvAsked || !s.hasEpoch || s.svy.nid.isNone then s else s.wlvAskNow s.wlvWant

/-! ### Permission and OWN_OUT_N (12 R335 to R337) -/

/-- OWN_OUT_N is released. -/
def State.ownRelease (s : State) : State := { s with sys.ownOutN := true, wlv.claimed := false }

/-- A drill's check ends: result, count, EV220; FAIL sends FAILBACK (12 R344). -/
def State.drillEnd (ok : Bool) (s : State) : State :=
  let t : State := { s with
    wlv.drillCheck := none
    wlv.drillRes := if ok then 1 else 2
    wlv.drills := s.wlv.drills + 1 }
  (t.raise 220).when (!ok) (State.wlvShot 6)

/-- Permission and OWN_OUT_N end (12 Table 12.2). -/
def State.driveEnd (s : State) : State :=
  let t := if s.lane.perm then
      let u := State.raise 211 { s with lane.perm := false, wlv.ovr := false }
      (u.when u.wlv.drillCheck.isSome (State.drillEnd false)).laneOffDrive
    else { s with wlv.ovr := false }
  t.ownRelease

/-- ARB_OVERRIDE lets a BLOCKED unit drive (12 R347). -/
def State.overrideOk (s : State) : Bool := s.regBit Reg.WLV_CTL 8 && s.wlv.byteMe && !s.wlv.il

/-- APPLY marks come: the Lane is enabled and not stopping. Permission begins only with one (12 R335; log 194). -/
def State.laneMarks (s : State) : Bool := s.lane.enabled && !s.lane.stopping && decide (s.lane.state ≠ .off)

/-- The unit is to assert OWN_OUT_N: it drives, or with a mark to come it is HELD, or it claims in interlock-only mode (12 R336,
R339). -/
def State.ownWant (s : State) : Bool :=
  match s.wlv.state with
  | .active | .handoff | .ilActive => true
  | .standby => s.laneMarks && s.wlv.held && !s.wlv.backoff
  | .ilStandby => s.laneMarks && s.wlv.ilClaim && !s.wlv.backoff
  | .blocked => s.laneMarks && s.overrideOk
  | .idle => false

/-- Interlock-only mode is called for (12 R338). -/
def State.ilCond (s : State) : Bool :=
  !s.hasEpoch || decide (s.lease ≤ s.wlv.mlost.toNat) ||
    (decide (1 ≤ s.wlv.mlost.toNat) && !s.wlv.hbok && !s.peerOwn)

/-- State without drive. -/
def State.standbyState (s : State) : WlvState := if s.wlv.il then .ilStandby else .standby

/-- Interlock-only mode is entered with EV212 and left with EV213 as its conditions come and cease, whatever the program does (12
R338, R340, Table 12.5). -/
def State.ilCheck (s : State) : State :=
  if s.ilCond then (if s.wlv.il then s else State.raise 212 { s with wlv.il := true })
  else if s.wlv.il then State.raise 213 { s with wlv.il := false } else s

/-- The conditions of clean health time that hold at any moment (12 R345). -/
def State.revHolds (s : State) : Bool :=
  s.epref && s.regBit Reg.WLV_CTL 4 && s.track && decide (s.tre.sync = .locked) && s.wlv.hbok && !s.partOut

/-- A break in them restarts the count at once (12 R345). -/
def State.revCheck (s : State) : State :=
  if s.revHolds then s else { s with wlv.rev := 0, wlv.revNs := 0, wlv.revrdy := false }

/-- Unit state by Table 12.3 where the program may not drive: IDLE, all drive ended at once. -/
def State.wlvIdle (s : State) : State :=
  let t := if s.lane.perm || !s.sys.ownOutN then s.driveEnd else s
  { t with wlv.state := .idle, wlv.ilClaim := false }

/-- Unit state by Table 12.3 where it may: standby as the mode is, lost overrides, a peer that asserts while driving. A unit whose
override ends is BLOCKED again only while PEER_OWN_N is asserted (12 R346). -/
def State.wlvRun (s : State) : State :=
  let b : State := if s.wlv.state = .idle ∨ s.wlv.state = .standby ∨ s.wlv.state = .ilStandby then
    { s with wlv.state := s.standbyState } else s
  let c : State := if b.wlv.ovr && !b.overrideOk then
      let u := b.driveEnd
      { u with wlv.state := if u.peerOwn then .blocked else u.standbyState }
    else b
  if c.lane.perm && c.peerOwn && !c.wlv.ovr && c.wlv.claimed then
    let u := (c.raise 215).driveEnd
    { u with wlv.state := u.standbyState }
  else c

/-- OWN_OUT_N is asserted once it may be, and released where nothing asks for it (12 R336). -/
def State.ownUpdate (s : State) : State :=
  if s.ownWant then
    if !s.sys.ownOutN then s
    else if s.wlv.state = .blocked then { s with sys.ownOutN := false, wlv.claimed := true }
    else if !s.peerOwn && s.wlv.peerClear then { s with sys.ownOutN := false, wlv.claimed := false }
    else s
  else if !s.sys.ownOutN && !s.lane.perm then s.ownRelease else s

/-- PEERLOST is sent when its cause arises on a ring: the peer heartbeat lost and PEER_OWN_N deasserted (12 R332, Table 12.1). -/
def State.peerLostCheck (s : State) : State :=
  let now := !s.wlv.hbok && !s.peerOwn && s.hasEpoch
  let t : State := { s with wlv.peerLost := now }
  t.when (now && !s.wlv.peerLost) (State.wlvShot 7)

/-- Bring unit state, OWN_OUT_N and requests up to date after anything that bears on them. -/
def State.wlvSync (s : State) : State :=
  if s.sys.phase ≠ .running then s
  else
    let a := (s.revCheck).ilCheck
    (((if a.able then a.wlvRun.ownUpdate else a.wlvIdle)).peerLostCheck).wlvAsk

/-- A handover is over: drive ends and the unit waits (12 Table 12.2). -/
def State.handoffEnd (s : State) : State :=
  let t := s.driveEnd
  ({ t with wlv.state := t.standbyState }).wlvSync

/-- Revocation while driving: permission stays until the deliver pass of the cycle has returned or is late. With no Lane
driven, and in START, there is none (12 Table 12.2, 11 R323; log 26). -/
def State.handoffStart (s : State) : State :=
  let t : State := { s with wlv.state := .handoff }
  if s.lane.delivered || !s.laneDe || decide (s.lane.state = .start) then t.handoffEnd else t

/-- Permission begins, at the start of an APPLY mark (12 R335). -/
def State.driveStart (s : State) : State :=
  let ok := s.able && !s.lane.perm && !s.sys.ownOutN && s.wlv.claimed && s.laneMarks
  let start (st : WlvState) (ovr : Bool) (u : State) : State :=
    let v := State.raise 210 { u with
      lane.perm := true
      wlv.ovr := ovr
      wlv.state := st
      wlv.takeovers := satSucc u.wlv.takeovers
      wlv.switchLen := u.wlv.sinceMark
      wlv.drillWait := none
      wlv.handover := false
      wlv.drillCheck := if u.wlv.handover then some (0, true) else none }
    v.raiseIf ovr 217
  if !ok then s
  else match s.wlv.state with
    | .standby => if s.wlv.held && !s.peerOwn then start .active false s else s
    | .ilStandby =>
      if s.wlv.ilClaim && !s.peerOwn then
        start .ilActive false { s with wlv.left := BitVec.ofNat 4 s.lease, wlv.held := false }
      else s
    | .blocked => if s.overrideOk then start .active true s else s
    | _ => s

/-! ### The byte (12 R329, R340, R345, R346) -/

/-- One-shot requests answered by a byte that names this unit, or the peer. REVERT and PEERLOST ask for this unit,
FAILBACK for the peer, DRILL for a change of holder. -/
def State.shotsAnswered (me changed : Bool) (s : State) : State :=
  let gone (r : Byte) : Bool :=
    if r = 5 ∨ r = 7 then me else if r = 6 then !me else changed
  let revert := me && s.wlv.shots.any (·.1 == 5)
  let t : State := { s with
    wlv.shots := s.wlv.shots.filter fun x => !gone x.1
    wlv.drillWait := if changed then none else s.wlv.drillWait }
  if revert then State.raise 221 { t with wlv.revrdy := false, wlv.rev := 0, wlv.revNs := 0 } else t

/-- The byte names this unit with LEASE of 1 or more. -/
def State.byteGrant (lease : Nat) (s : State) : State :=
  let fresh := !s.wlv.held
  let a := s.raiseIf fresh 208
  let b : State := { a with
    wlv.handover := if fresh then a.wlv.bytePeer && a.wlv.hbok && !a.wlv.shots.any (·.1 == 5) else a.wlv.handover
    wlv.left := BitVec.ofNat 4 lease
    wlv.held := true
    wlv.holding := false
    wlv.renewed := true
    wlv.state := if a.wlv.state = .ilActive then .active
      else if a.wlv.state = .ilStandby ∧ a.wlv.il = false then .standby else a.wlv.state }
  b.shotsAnswered true (!a.wlv.byteMe)

/-- The byte revokes: it names this unit with LEASE 0, or the peer. -/
def State.byteRevoke (peer : Bool) (s : State) : State :=
  let had := s.wlv.held || decide (s.wlv.left ≠ 0)
  let a := s.raiseIf had 209
  let b : State := { a with wlv.left := 0, wlv.held := false, wlv.holding := false, wlv.handover := false }
  let c := if peer then b.shotsAnswered false s.wlv.byteMe else b
  if s.wlv.state = .active ∨ s.wlv.state = .ilActive then c.handoffStart
  else if s.wlv.state = .ilStandby ∧ s.wlv.il = false then { c with wlv.state := .standby }
  else c

/-- A byte that names this unit, names its peer or names no one: the grant, the revocation or the end of standby. -/
def State.byteApply (x : Byte) (s : State) : State :=
  let names := x.getLsbD 7 && (x.getLsbD 6 == s.unitB)
  let peer := x.getLsbD 7 && !names
  let lease := fld x 0 4
  let me := names && decide (1 ≤ lease)
  let c := if me then s.byteGrant lease
    else if names || peer then s.byteRevoke peer
    else if s.wlv.state = .ilStandby ∧ s.wlv.il = false then { s with wlv.state := .standby } else s
  { c with wlv.byteMe := me, wlv.bytePeer := peer, wlv.byte := x }

/-- A byte that names the peer or opens ends BLOCKED, and one that grants this unit nothing ends its override (12 R346, R347). -/
def State.byteUngrant (s : State) : State :=
  let other := s.wlv.bytePeer || !s.wlv.byte.getLsbD 7
  if s.wlv.byteMe then s
  else if s.wlv.state = .blocked then (if other then { s with wlv.state := s.standbyState } else s)
  else if s.wlv.ovr then
    let u := s.driveEnd
    { u with wlv.state := if u.peerOwn && !other then .blocked else u.standbyState }
  else s

/-- The bytes of a milestone are in hand; interlock-only mode may end with EV213, and the state request is sent anew (12 R340). -/
def State.byteHeard (tcount : Word) (bytes : List Byte) (s : State) : State :=
  let a : State := { s with
    wlv.takenAt := some tcount
    wlv.heardBytes := vmk 0 fun i => byteAt bytes i.val
    wlv.mlost := 0
    wlv.seen := true }
  if a.wlv.il && !a.ilCond then State.raise 213 { a with wlv.il := false, wlv.asked := 0 } else a

/-- A unit takes its chainage's byte once per Traverse, from a valid milestone of its epoch (12 R329, R340). -/
def State.byteTake (tcount : Word) (bytes : List Byte) (s : State) : State :=
  if s.wlv.takenAt = some tcount then s
  else
    let b := s.byteHeard tcount bytes
    if s.svy.chain = 0 then b.wlvSync
    else ((b.byteApply (byteAt bytes (s.svy.chain.toNat - 1))).byteUngrant).wlvSync

/-- IL_ACTIVE renews its own lease when the previous cycle returned; at 0 drive ends as for FAULTSTOP: at once, and RELEASE is sent
where the node is able (12 R338, Table 12.2). -/
def State.ilRenew (s : State) : State :=
  let left := if s.ctl.returned then BitVec.ofNat 4 s.lease else satPred s.wlv.left
  let t : State := { s with wlv.left := left, wlv.held := false }
  if left ≠ 0 then t
  else
    let u := t.driveEnd
    ({ u with wlv.state := u.standbyState, wlv.ilClaim := false }).wlvAskNow 3

/-- LEFT and MLOST count (12 R330); a unit whose lease runs out while ACTIVE goes on in IL_ACTIVE (12 R338). -/
def State.leaseCount (s : State) : State :=
  let a : State := { s with
    wlv.mlost := if s.wlv.seen then s.wlv.mlost else satSucc s.wlv.mlost
    wlv.seen := false
    wlv.renewed := false }
  if s.wlv.state = .ilActive then a.ilRenew
  else if s.wlv.renewed || decide (s.wlv.left = 0) then a
  else
    let left := satPred s.wlv.left
    let b : State := { a with wlv.left := left }
    if left ≠ 0 then b
    else
      let c := (b.raiseIf s.wlv.held 209)
      let d : State := { c with wlv.held := false, wlv.holding := false }
      if s.wlv.state = .active ∧ s.wlv.ovr = false then
        ({ d with wlv.state := .ilActive }).ilRenew
      else d

/-- K latch instants with PEER_OWN_N deasserted let an IL_STANDBY unit claim (12 R339). -/
def State.ilCount (s : State) : State :=
  let k := if s.epref || !s.wlv.hbok then 1 else s.lease
  let n := if s.peerOwn then 0 else min 15 (s.wlv.clearRun + 1)
  { s with
    wlv.clearRun := n
    wlv.ilClaim := decide (s.wlv.state = .ilStandby) && s.able && (s.wlv.ilClaim || decide (k ≤ n))
    wlv.backoff := false }

/-! ### Benchmark (12 R331, R333) -/

/-- The unit's standing waymark: the lowest entry its NID owns. -/
def State.standingEntry (s : State) (nid : BitVec 6) : Option Nat :=
  (List.range s.tre.table.length).find? fun i =>
    let e := s.tre.table.getD i 0
    e.getLsbD 29 && decide (fld e 16 6 = nid.toNat)

/-- A valid DATA slot of a unit's standing waymark on a returned frame. -/
def State.standingSeen (nid : BitVec 6) (seq : Byte) (s : State) : State :=
  let counts := match s.wlv.seqRec.getD nid.toNat none with
    | none => true
    | some r => decide (r ≠ seq)
  { s with
    wlv.standing := vset s.wlv.standing nid.toNat (some seq)
    wlv.fitSeen := if counts then setBit s.wlv.fitSeen nid.toNat else s.wlv.fitSeen }

/-- Units judged FIT, and their SEQ recorded. -/
def State.judgeFit (s : State) : State :=
  { s with
    wlv.fit := s.wlv.fitSeen
    wlv.fitSeen := 0
    wlv.seqRec := vmk none fun n => s.wlv.standing.get n <|> s.wlv.seqRec.get n
    wlv.standing := Vector.replicate 64 none }

/-- What one chainage is judged by. -/
structure WlvCar where
  byte : Byte
  bleft : Nat
  openNext : Bool
  deriving DecidableEq, Repr

/-- A byte that names a unit. -/
def wlvByte (unitB : Bool) (lease : Nat) : Byte := BitVec.ofNat 8 (128 + unitB.toNat * 64 + min lease 15)

/-- The evaluation of one chainage (12 R333). A request of step 1 that is refused leaves steps 2 and 3 as they are (log 190). -/
def State.wlvEval (s : State) (c : Nat) (x : WlvCar) : WlvCar :=
  let nid (u : Bool) : BitVec 6 := BitVec.ofNat 6 (2 * c + u.toNat)
  let b : Byte := if x.openNext then 0 else x.byte
  let fit (u : Bool) := s.wlv.fit.getLsbD (nid u).toNat
  let req (u : Bool) := s.wlv.lastReq.getD (nid u).toNat 0
  let pref (u : Bool) := s.wlv.reqPref.getLsbD (nid u).toNat
  let cand (u : Bool) := fit u && (req u == 1 || req u == 2)
  let shot (u : Bool) (r : Byte) := s.wlv.oneshots.contains (nid u, r)
  let grant (u : Bool) : WlvCar := ⟨wlvByte u s.lease, s.lease, false⟩
  let closing (u : Bool) : WlvCar := ⟨wlvByte u 0, 0, true⟩
  let h := b.getLsbD 6
  let p := !h
  if b.getLsbD 7 then
    let release := req h == 3
    let lost := s.tre.closed && shot p 7 && !fit h
    let other := shot h 6 || shot h 4 || shot p 4 || (shot p 5 && pref p)
    if (release || lost || other) && cand p then grant p
    else if release || lost then closing h
    else if !s.tre.closed then ⟨b, x.bleft, false⟩
    else if fit h then grant h
    else
      let n := x.bleft - 1
      if n ≠ 0 then ⟨wlvByte h n, n, false⟩ else if cand p then grant p else closing h
  else
    let order := [false, true]
    match order.find? (fun u => cand u && req u == 2) <|> order.find? (fun u => cand u && pref u) <|> order.find? cand with
    | some u => grant u
    | none => ⟨0, 0, false⟩

/-- The benchmark evaluates every chainage (12 R333), and one-shots are used up (12 R332). -/
def State.wlvEvaluate (s : State) : State :=
  let car (i : Fin 32) : WlvCar :=
    s.wlvEval i.val ⟨s.wlv.bytes.get i, (s.wlv.bleft.get i).toNat, s.wlv.openNext.getLsbD i.val⟩
  { s with
    wlv.bytes := vmk 0 fun i => (car i).byte
    wlv.bleft := vmk 0 fun i => BitVec.ofNat 4 (car i).bleft
    wlv.openNext := (fins 32).foldl (fun v (i : Fin 32) => putBit v i.val (car i).openNext) s.wlv.openNext
    wlv.oneshots := []
    tre.closed := false }

/-- The steward's bytes for this cycle Traverse (12 R334); BLEFT follows the LEASE each carries. -/
def State.wlvSteward (s : State) : State :=
  let b (i : Fin 32) : Byte := (s.reg (Reg.at Reg.WLV_BNEXT i.val)).setWidth 8
  { s with
    wlv.bytes := vmk 0 b
    wlv.bleft := vmk 0 fun i => if (b i).getLsbD 7 then (b i).setWidth 4 else 0
    wlv.openNext := 0
    wlv.oneshots := []
    wlv.bcommit := false
    tre.closed := false }

/-- At each cycle Traverse the benchmark judges FIT and settles the bytes (12 R331, R333, R334). A GO that missed its deadline
stands for the cycle Traverse after it (log 191). -/
def State.wlvCycle (s : State) : State :=
  let a : State := { s.judgeFit with wlv.late := false }
  if !a.sys.splitAct.getLsbD 5 || s.wlv.late then a.wlvEvaluate
  else if a.wlv.bcommit then a.wlvSteward
  else a.wlvEvaluate.raise 223

/-- A backup that takes over continues from the bytes last received, with no SEQ recorded; one that names a holder with LEASE 0 is
open from the next cycle Traverse (12 R333). -/
def State.wlvAdopt (s : State) : State :=
  { s with
    wlv.bytes := s.wlv.heardBytes
    wlv.bleft := s.wlv.heardBytes.map fun b => if b.getLsbD 7 then b.setWidth 4 else 0
    wlv.openNext := (fins 32).foldl (fun v (i : Fin 32) =>
      let b := s.wlv.heardBytes.get i
      putBit v i.val (b.getLsbD 7 && decide (fld b 0 4 = 0))) s.wlv.openNext
    wlv.seqRec := Vector.replicate 64 none
    wlv.standing := Vector.replicate 64 none
    wlv.fitSeen := 0
    wlv.oneshots := [] }

/-- The epoch cut (12 R349): every byte open, no SEQ recorded, a lease in hand carried. -/
def State.wlvCut (s : State) : State :=
  let t : State := { s with
    wlv.left := if s.wlv.left = 0 then 0 else BitVec.ofNat 4 s.lease
    wlv.holding := decide (s.wlv.left ≠ 0)
    wlv.bytes := Vector.replicate 32 0
    wlv.bleft := Vector.replicate 32 0
    wlv.heardBytes := Vector.replicate 32 0
    wlv.lastReq := Vector.replicate 64 0
    wlv.reqPref := 0
    wlv.oneshots := []
    wlv.seqRec := Vector.replicate 64 none
    wlv.standing := Vector.replicate 64 none
    wlv.fitSeen := 0
    wlv.fit := 0
    wlv.openNext := 0
    wlv.byteMe := false
    wlv.bytePeer := false
    wlv.asked := 0 }
  t.wlvSync

/-! ### The drill and revert counts at the latch instant (12 R344, R345) -/

/-- One more cycle of a drill check: OWN_OUT_N must read low. -/
def State.drillCount (s : State) : State :=
  { s with
    wlv.drillCheck := s.wlv.drillCheck.map fun d => (d.1 + 1, d.2 && !s.sys.ownOutN)
    wlv.drillWait := s.wlv.drillWait.map (· + 1) }

/-- A check of a drill has failed. -/
def State.drillFail (s : State) : State := { s with wlv.drillCheck := s.wlv.drillCheck.map fun d => (d.1, false) }

/-- Clean health time goes on, or starts again (12 R345); WLV_REV saturates at REVHOLD. -/
def State.revCount (cycleNs : Nat) (missing : Bool) (s : State) : State :=
  let ok := s.revHolds && s.ctl.committed && !missing
  if !ok then { s with wlv.rev := 0, wlv.revNs := 0, wlv.revrdy := false }
  else
    let n := s.wlv.revNs + cycleNs
    { s with
      wlv.revNs := n % 1000000000
      wlv.rev := BitVec.ofNat 12 (min s.revHold (s.wlv.rev.toNat + n / 1000000000)) }

/-- Request timers count control cycles (12 R332). -/
def State.askCount (s : State) : State :=
  { s with
    wlv.askedAgo := min 127 (s.wlv.askedAgo + 1)
    wlv.shots := s.wlv.shots.map fun x => (x.1, x.2.1, x.2.2 + 1) }

/-! ### The commands of chapter 12 -/

/-- A WAYLEAVE request at the benchmark. -/
def onWayleave (_f : RxFrame) (h : RHdr) (b : List Byte) (s : State) : State := s.wlvReqRx h.src (byteAt b 1) (byteAt b 2)

def execWayleave (f : RxFrame) (s : State) : Result := .next (s.roadRx f (mgmt 0x30 onWayleave))

/-- A state request is repeated every 64 control cycles, a one-shot every 8, up to 4 times in all. -/
def State.wlvRepeat (s : State) : State :=
  let a := if 64 ≤ s.wlv.askedAgo ∧ s.wlv.asked ≠ 0 then
    ({ s with wlv.askedAgo := 0 }).wlvSend s.wlv.asked.toNat else s
  let due := a.wlv.shots.filter fun x => decide (8 ≤ x.2.2) && decide (x.2.1 < 4)
  let live := a.wlv.shots.filter fun x => !(decide (8 ≤ x.2.2) && decide (4 ≤ x.2.1))
  let b : State := { a with wlv.shots := live.map fun x => if 8 ≤ x.2.2 then (x.1, x.2.1 + 1, 0) else x }
  b.each due fun x t => t.wlvSend x.1.toNat

def execWayleaveRepeat (s : State) : Result := .next (s.when s.coreRuns fun s => s.wlvRepeat)

/-- One pulse on HB_OUT: 10 us with PREF low, 20 us with PREF high, while the heartbeat runs (12 R327); the pin is low in
reset, and fail-safe without VIO3 (03 R70, Table 3.3). -/
def execHeartbeat (s : State) : Result := .next (s.when s.coreRuns fun s =>
    if s.wlv.hbRuns && s.bankOn 3 && !s.pinsReset then s.emit (.heartbeat (if s.sys.straps.pref then 20 else 10)) else s)

/-- A pulse at PEER_HB: valid from 7 to 13 us or from 16 to 24 us; three in a row regain the heartbeat, and one that is not valid
starts that count again (12 R327). -/
def State.hbPulse (widthNs : Nat) (s : State) : State :=
  let low := decide (7000 ≤ widthNs) && decide (widthNs ≤ 13000)
  let high := decide (16000 ≤ widthNs) && decide (widthNs ≤ 24000)
  if s.sys.phase ≠ .running then s
  else if !(low || high) then { s with wlv.hbRun := 0 }
  else
    let before := (s.dupPref, s.noPref)
    let run := s.wlv.hbRun + 1
    let back := !s.wlv.hbok && decide (3 ≤ run)
    let t : State := { s with
      wlv.pulses := s.wlv.pulses + 1
      wlv.peerPref := high
      wlv.hbRun := if s.wlv.hbok || back then 0 else run
      wlv.hbok := s.wlv.hbok || back }
    ((t.raiseIf back 214).prefCheck before).wlvSync

def execPeerHbPulse (widthNs : Nat) (s : State) : Result := .next (s.hbPulse widthNs)

/-- 3 ms without a valid pulse. -/
def execPeerHbLost (s : State) : Result := .next (s.when s.coreRuns fun s =>
    if s.wlv.hbok then (State.raise 214 { s with wlv.hbok := false, wlv.hbRun := 0 }).wlvSync
      else { s with wlv.hbRun := 0 })

/-- GO: the steward's bytes are for the next cycle Traverse (12 R334). -/
def State.bcommitWrite (v : Word) (s : State) : State := if v.getLsbD 0 then { s with wlv.bcommit := true } else s

def execWlvBcommit (s : State) : Result := .next (s.bcommitWrite 1)

/-- 200 us before the T0 of a cycle Traverse without GO: R333 for that Traverse, and EV223 (12 R334). -/
def execWayleaveDeadline (s : State) : Result := .next (s.when s.coreRuns fun s =>
    if s.isBench && s.sys.splitAct.getLsbD 5 && !s.wlv.bcommit && !s.wlv.late then
      State.raise 223 { s with wlv.late := true } else s)

/-- WLV_REQQ as it reads. -/
def State.reqqWord (s : State) : Word :=
  match s.wlv.reqq with
  | [] => 0
  | (n, r) :: _ => packW [(31, 1), (24, n.toNat), (16, r.toNat)]

def State.reqqPop (s : State) : State := { s with wlv.reqq := s.wlv.reqq.drop 1 }

/-- 5 us after OWN_OUT_N was asserted (12 R336). -/
def State.collisionCheck (s : State) : State :=
  if s.sys.ownOutN || s.wlv.claimed then s
  else if !s.peerOwn then { s with wlv.claimed := true }
  else
    let t := s.raise 215
    let loses := if t.wlv.hbok then !t.epref else t.unitB
    if loses then ({ t.ownRelease with wlv.backoff := true, wlv.ilClaim := false })
    else { t with wlv.claimed := true }

def execCollisionCheck (s : State) : Result := .next (s.when s.coreRuns fun s => s.collisionCheck)

/-- The level of PEER_OWN_N; a rise counts as the 5 us of R336 passed (log 27). -/
def State.peerOwnSet (level : Bool) (s : State) : State :=
  if s.sys.peerOwnN = level then s
  else
    let t : State := { s with sys.peerOwnN := level, wlv.peerClear := level }
    if s.sys.phase ≠ .running then t
    else (if t.wlv.state = .blocked ∧ level = true then
        (let u := t.driveEnd; ({ u with wlv.state := u.standbyState } : State)) else t).wlvSync

def execPeerOwnChange (level : Bool) (s : State) : Result := .next (s.peerOwnSet level)

/-- PEER_OWN_N has been asserted for 3 s (12 R346). -/
def State.interlockStuck (s : State) : State :=
  if !s.peerOwn || !s.wlv.byteMe then s
  else if s.wlv.hbok then s.raise 215
  else if s.wlv.state = .standby then
    (((({ s with wlv.state := .blocked }).raise 216).spFaultCode 0x0C03)).wlvSync
  else s

def execInterlockStuck (s : State) : Result := .next (s.when s.coreRuns fun s => s.interlockStuck)

/-- WLV_CTL.DRILL (12 R344). -/
def State.drill (s : State) : State := ({ s with wlv.drillWait := some 0 }).wlvShot 4

def execDrill (s : State) : Result := .next s.drill

/-- After DRILLT cycles the taking unit records the result. -/
def State.drillDue (s : State) : State :=
  match s.wlv.drillCheck with
  | some (n, ok) => if s.drillT ≤ n then (s.drillEnd ok).wlvSync else s
  | none => s

def execDrillCheckEnd (s : State) : Result := .next (s.when s.coreRuns fun s => s.drillDue)

/-- No handover within 8 cycles. -/
def execDrillRefused (s : State) : Result :=
  .next (match s.wlv.drillWait with
    | some n =>
      if 8 ≤ n then
        State.raise 220 { s with wlv.drillWait := none, wlv.drillRes := 3, wlv.drills := s.wlv.drills + 1 }
      else s
    | none => s)

/-- The clean health count has reached REVHOLD (12 R345). -/
def execRevertReady (s : State) : Result := .next (s.when s.coreRuns fun s =>
    if decide (s.revHold ≤ s.wlv.rev.toNat) && !s.wlv.revrdy then
      ({ s with wlv.revrdy := true }).wlvShot 5 else s)

/-- WLV_CTL.TCLR (12 R342). -/
def State.trackClear (s : State) : State := { s with wlv.mism := 0, wlv.cmp := 0, wlv.trkdiff := 0 }

def execTclr (s : State) : Result := .next s.trackClear

/-- A write of WLV_CTL: TCLR, DRILL, and ARB_OVERRIDE as it now stands. -/
def State.wlvCtlWrite (v : Word) (s : State) : State :=
  (((s.setReg Reg.WLV_CTL v).when (v.getLsbD 2) State.trackClear).when (v.getLsbD 0) State.drill).wlvSync

end Sys2Proof.Machine
end

