-- ==== Sys2Proof/Machine/Survey.lean ====
section
/-! DEFINITION. The survey: frames and windows, triggers, the walk, numbering and election, publishing, and late-comers
(05 R137 to R167). -/
namespace Sys2Proof.Machine

/-! ### Survey frames (05 Tables 5.1 to 5.3) -/

structure SHdr where
  kind : Nat
  prec : BitVec 2
  coll : Bool
  full : Bool
  sid : Word
  oldep : Byte
  newep : Byte
  count : Nat
  win : Byte
  winrem : Nat
  tper : Half
  deriving DecidableEq, Repr

def SHdr.parse (b : List Byte) : SHdr where
  kind := (byteAt b 0).toNat
  prec := ((byteAt b 1) >>> 6).setWidth 2
  coll := (byteAt b 1).getLsbD 5
  full := (byteAt b 1).getLsbD 4
  sid := BitVec.ofNat 32 (beAt b 2 4)
  oldep := byteAt b 6
  newep := byteAt b 7
  count := (byteAt b 8).toNat
  win := byteAt b 9
  winrem := beAt b 10 2
  tper := BitVec.ofNat 16 (beAt b 12 2)

def SHdr.bytes (h : SHdr) : List Byte :=
  [BitVec.ofNat 8 h.kind, BitVec.ofNat 8 (h.prec.toNat * 64 + h.coll.toNat * 32 + h.full.toNat * 16)] ++
    beBytes 4 h.sid.toNat ++ [h.oldep, h.newep, BitVec.ofNat 8 h.count, h.win] ++ beBytes 2 h.winrem ++
    beBytes 2 h.tper.toNat ++ [0, 0]

/-- The car records of a TOKEN or TALLY. -/
def svyRecs (b : List Byte) (n : Nat) : List (List Byte) := (List.range (min n 32)).map fun i => slice b (16 + 16 * i) 16

def recOrient (r : List Byte) : Bool := (byteAt r 0).getLsbD 7
def recPresent (r : List Byte) (unitB : Bool) : Bool := (byteAt r 0).getLsbD (if unitB then 5 else 6)
def recCab (r : List Byte) : Bool := (byteAt r 0).getLsbD 4
def recThru (r : List Byte) : Bool := (byteAt r 0).getLsbD 2
def recOldchain (r : List Byte) : Nat := (byteAt r 1).toNat
def recOldep (r : List Byte) : Nat := (byteAt r 2).toNat
def recHealth (r : List Byte) (unitB : Bool) : Byte := byteAt r (if unitB then 4 else 3)
def recHop (r : List Byte) : Nat := beAt r 6 2
def recUid (r : List Byte) (unitB : Bool) : Word := BitVec.ofNat 32 (beAt r (if unitB then 12 else 8) 4)

/-- A car record put together (05 Table 5.3). -/
def svyRecord (orient cab thruB : Bool) (oldchain : Nat) (oldep : Byte) (hop : Nat) (a b : Option Report) : List Byte :=
  let h (r : Option Report) : Byte := (r.map (·.health)).getD 0
  let u (r : Option Report) : Nat := (r.map fun x => x.uid.toNat).getD 0
  [BitVec.ofNat 8 (orient.toNat * 128 + a.isSome.toNat * 64 + b.isSome.toNat * 32 + cab.toNat * 16 + thruB.toNat * 4),
    BitVec.ofNat 8 oldchain, oldep, h a, h b, 0] ++ beBytes 2 (sat 16 hop) ++ beBytes 4 (u a) ++ beBytes 4 (u b)

/-- Airtime of a survey frame of some body length, in ns (04 R104, R107: robust mode, 8 us a symbol). -/
def svyDur (len : Nat) : Nat := 8000 * frameSymbols false 45 len

/-! ### Configuration in force (05 R167) -/

def State.svyCabEnd (s : State) : Bool := s.svy.cfg.getLsbD 23
def State.cutLead (s : State) : Nat := clampN 3 7 (fld s.svy.cfg 20 3)
def State.svyAttempts (s : State) : Nat := clampN 1 3 (fld s.svy.cfg 24 2)
def State.minHealth (s : State) : Nat := fld s.svy.tim 24 8

/-- Values written to SVY_CFG and SVY_TIM take effect at the start of a survey. -/
def State.svySnap (s : State) : State :=
  { s with svy.cfg := s.reg Reg.SVY_CFG, svy.tim := s.reg Reg.SVY_TIM, svy.split := s.sys.splitAct.setWidth 2 }

/-! ### Windows (05 R137, R138) -/

/-- The survey window: start, length and period in ns. -/
structure SvyWin where
  start : Nat
  len : Nat
  period : Nat
  deriving DecidableEq, Repr

/-- TAKEN: predicted T0s in a row without a Traverse after which a backup of rank 1 takes over (06 R200). -/
def State.takeN (s : State) : Nat := clampN 2 15 (s.regFld Reg.TRE_SYNCCFG 16 4)

/-- The node's piece carries a Traverse. It carries none where the node has lost it (FREE), or is MUTED and has received none
at TAKEN predicted T0s in a row, the count of 06 R200 (05 R137, R142; log 216). -/
def State.carriesTrv (s : State) : Bool :=
  decide (s.tre.sync ≠ .free) && (decide (s.tre.sync ≠ .muted) || decide (s.tre.missed < s.takeN))

/-- The window of the ring whose Traverse the node receives; none where there is no Traverse (05 R137). -/
def State.ownWindow (s : State) : Option SvyWin :=
  if !s.carriesTrv then none
  else
    let left := s.periodNs - 250000 * s.tre.eff.toNat
    let len := 500000 * (if s.svy.state = .idle then clampN 1 15 (fld s.svy.cfg 16 4) else clampN 1 255 (fld s.svy.cfg 8 8))
    some ⟨s.tre.mtime.toNat + 250000 * s.tre.eff.toNat, if left < 250000 then 0 else min len left, s.periodNs⟩

/-- A node in a survey it did not start places the windows as the initiator's frames say (05 R139). -/
def State.svyWindow (s : State) : Option SvyWin :=
  match s.svy.window with
  | some (e, w, tper) =>
    if s.svy.initiator then s.ownWindow
    else some ⟨e.toNat - 500000 * w.toNat, 500000 * w.toNat, 250000 * max 1 tper.toNat⟩
  | none => s.ownWindow

/-- Start of the window, of those one period apart, that t falls in or after. -/
def SvyWin.at (w : SvyWin) (t : Nat) : Nat := w.start + (t - w.start) / w.period * w.period

/-- What is left from t to the next T0 the node predicts; none without a Traverse. -/
def State.toT0 (s : State) (t : Nat) : Option Nat :=
  if !s.carriesTrv then none
  else
    let m := s.tre.mtime.toNat
    some (m + ((t - m) / s.periodNs + 1) * s.periodNs - t)

/-- The port has been silent for 64 us at t: nothing was heard on it, nor sent (05 R137). -/
def State.quiet (s : State) (p : Fin 4) (t : Nat) : Bool :=
  let past (x : Option Dword) := x.all fun e => decide (e.toNat + 64000 ≤ t)
  past (s.port p).busyTo && past (s.port p).txEnd

/-- When a survey frame may go out. -/
inductive SvyWhen where
  | now | wait | never
  deriving DecidableEq, Repr

/-- Whether a frame of `need` ns, its exchange slots included, is sent at t, waits for the next window, or is not sent
(05 R137, R138). -/
def State.svyWhen (s : State) (p : Fin 4) (t need : Nat) : SvyWhen :=
  match s.svyWindow with
  | none => if s.quiet p t then .now else .wait
  | some w =>
    let ws := w.at t
    if w.len < need then
      if (s.toT0 (if t ≤ ws then ws else ws + w.period)).any fun d => decide (d < need + 92000) then .never
      else if t = ws then .now else .wait
    else if t < w.start then .wait
    else if t + need ≤ ws + w.len then .now else .wait

/-- WIN, WINREM and TPER of a frame sent at t, and the sender's epoch of a BEACON (05 Table 5.1). -/
def State.svyStamp (s : State) (t : Nat) (body : List Byte) : List Byte :=
  let h := SHdr.parse body
  let h' := match s.svyWindow with
    | none => { h with win := 0, winrem := 0, tper := BitVec.ofNat 16 (s.periodNs / 250000) }
    | some w =>
      let e := w.at t + w.len
      { h with win := BitVec.ofNat 8 (w.len / 500000), winrem := sat 16 ((e - t) / 1000),
               tper := BitVec.ofNat 16 (w.period / 250000) }
  { h' with oldep := s.svy.epoch }.bytes ++ body.drop 16

/-- A header of this node. -/
def State.svyHdr (s : State) (kind : Nat) (coll : Bool) (count : Nat) : SHdr :=
  let c := s.svy.current
  { kind := kind, prec := (c.map (·.1)).getD 0, coll := coll, full := c.isSome && s.svy.full
    sid := (c.map (·.2)).getD (if s.hasEpoch && decide (kind ≠ 1) then s.svy.epochSid else s.svy.uid)
    oldep := s.svy.epoch, newep := 0, count := count, win := 0, winrem := 0, tper := 0 }

/-- The line B port at the same end, the other end of the same line. -/
def sideB (p : Fin 4) : Fin 4 := if p.val < 2 then p + 2 else p
def farEnd (p : Fin 4) : Fin 4 := if p.val % 2 = 0 then p + 1 else p - 1

/-- The instant at the line terminals of a frame that leaves the pins now. -/
def State.svyNow (s : State) (p : Fin 4) : Nat := s.tre.time.toNat + fld (s.pcfg p) 16 8

/-- A survey frame that is at the line terminals at t. -/
def State.txSurveyAt (p : Fin 4) (t : Nat) (body : List Byte) (s : State) : State :=
  s.txFrameAt p (BitVec.ofNat 64 (t - fld (s.pcfg p) 16 8)) .survey 15 false false none (s.svyStamp t body)

/-! ### RESULT (05 R156, R157) -/

/-- Bits of the own car's units that stored the RESULT (05 R157). How a through unit learns that its partner stored it the
manual does not say: that bit is a free Boolean, where the RESULT names the partner at all (log 171). -/
def svyCarBits (r : SvyResult) (partner : Bool) : Dword :=
  let b := setBit (0 : Dword) r.nid.toNat
  let o := r.nid ^^^ 1
  if (r.ranks.getD o.toNat 0).getLsbD 7 && partner then setBit b o.toNat else b

/-- The RESULT is stored: EV071, CUTWAIT. -/
def State.svyStored (r : SvyResult) (s : State) : State :=
  State.raise 71 { s with svy.result := some r, svy.state := .cutwait, svy.recv := none, svy.hold := none }

/-- The cut that a RESULT first sent at t brings: its local time and Traverse count (05 R156). A surveyor whose piece carries
no Traverse has no T0 to count from: its cut falls CUTLEAD periods after t (log 172). -/
def State.svyCutOf (s : State) (t : Nat) : Nat × Word :=
  if s.ownWindow.isSome then
    let k := (t - s.tre.mtime.toNat) / s.periodNs + s.cutLead
    (s.tre.mtime.toNat + k * s.periodNs, s.tre.tcount + BitVec.ofNat 32 k)
  else (t + s.cutLead * s.periodNs, s.tre.tcount + BitVec.ofNat 32 s.cutLead)

/-- CUTIN and CUTCNT in a RESULT's body. -/
def svyCutBytes (body : List Byte) (cutin : Nat) (cutcnt : Word) : List Byte :=
  body.take 16 ++ beBytes 4 cutin ++ beBytes 4 cutcnt.toNat ++ body.drop 24

/-- A RESULT or ABORT passed on carries the walk index of the unit that sends it (05 Table 5.1 COUNT). -/
def svyPassOn (w : SvyWalk) (body : List Byte) : List Byte :=
  { SHdr.parse body with count := w.idx }.bytes ++ body.drop 16

/-- A survey frame leaves at t: TOKEN and SEEK start their exchange, a TOKEN sent is TALLY at the surveyor and WAIT elsewhere,
a TALLY sent is WAIT (05 Table 5.7), a RESULT settles or passes on the cut. -/
def State.svyOut (p : Fin 4) (t : Nat) (body : List Byte) (s : State) : State :=
  match (byteAt body 0).toNat, s.svy.result with
  | 7, some r =>
    if s.svy.surveyor then
      let c := s.svyCutOf t
      let u := s.txSurveyAt p t (svyCutBytes body ((c.1 - t) / 1000) c.2)
      let r' := { r with cutAt := BitVec.ofNat 64 c.1, cutcnt := c.2 }
      State.took (State.svyStored r' { u with svy.confirm := svyCarBits r' s.drawBool })
    else s.txSurveyAt p t (svyCutBytes body ((r.cutAt.toNat - t) / 1000) r.cutcnt)
  | k, _ =>
    let u := s.txSurveyAt p t body
    if k = 2 ∨ k = 3 then
      { u with
        svy.state := if k = 2 then u.svy.state else if u.svy.surveyor then .tally else .wait
        svy.hold := u.svy.hold.map fun x =>
          { x with t1 := some (BitVec.ofNat 64 t), repA := none, repB := none, sent := x.sent + 1 } }
    else if k = 6 then { u with svy.state := .wait }
    else u

/-- The exchange slots after a frame: 384 us after a TOKEN or a SEEK (05 Table 5.5). -/
def svySlots (body : List Byte) : Nat := if byteAt body 0 = 2 ∨ byteAt body 0 = 3 then 384000 else 0

/-- A frame and its slots, from t: no Open Road frame starts until they end, nor before those of an earlier frame do
(05 R138). -/
def State.svyReserve (t need : Nat) (s : State) : State :=
  { s with svy.until_ := BitVec.ofNat 64 (max s.svy.until_.toNat (t + need)) }

/-- Send a survey frame at t or later, with the slots that follow it (05 R138). -/
def State.svySend (p : Fin 4) (t : Nat) (body : List Byte) (s : State) : State :=
  let at_ := max t (s.svyNow p)
  let need := svyDur body.length + svySlots body
  match s.svyWhen p at_ need with
  | .now => (s.svyReserve at_ need).svyOut p at_ body
  | .wait => { s with svy.deferred := s.svy.deferred ++ [(p, body)] }
  | .never => s

/-! ### Health (05 R153, Table 5.6) -/

/-- Rows of Table 5.6 that hold, lowest bit first. -/
def State.healthRowsNow (s : State) : BitVec 6 :=
  let in_ (p : Fin 6) := decide (s.sys.parts.get p = .inService)
  putBit (putBit (putBit (putBit (putBit (putBit 0 0 (in_ 0 && in_ 1)) 1 (in_ 4 && s.boot.hsst)) 2
    (decide (s.tre.sync = .locked))) 3 ((fins 4).any fun p => decide ((s.port p).state = .locked))) 4
    (decide (s.mem.ue = 0))) 5 s.sys.straps.pref

/-- The health score. -/
def State.healthNow (s : State) : Nat :=
  let r := s.healthRowsNow
  let locked := ((fins 4).filter fun p => decide ((s.port p).state = .locked)).length
  if s.boot.phase = .limp || s.sp.walk || s.svy.dupunit || s.regBit Reg.SVY_CTL 0 then 0
  else 64 * (r.getLsbD 0).toNat + 64 * (r.getLsbD 1).toNat + 32 * (r.getLsbD 2).toNat + 8 * locked +
    32 * (r.getLsbD 4).toNat + 16 * (r.getLsbD 5).toNat

def State.eligible (s : State) (h : Byte) : Bool := decide (h ≠ 0) && decide (s.minHealth ≤ h.toNat)

/-- What a node settles when a survey starts for it: timers, health. -/
def State.svyBegin (s : State) : State :=
  let t := s.svySnap
  { t with svy.health := BitVec.ofNat 8 t.healthNow, svy.healthRows := t.healthRowsNow }

/-- This unit as a REPORT gives it (05 Table 5.2). -/
def State.svySelf (s : State) (port : Fin 4) (turn : Nat) : Report where
  uid := s.svy.uid
  flags := BitVec.ofNat 8 (s.unitB.toNat * 128 + s.sys.straps.pref.toNat * 64 + s.sys.cabdb.toNat * 32 +
    (s.eligible s.svy.health).toNat * 16 + port.val)
  health := s.svy.health
  oldchain := s.svy.chain.setWidth 8
  oldep := s.svy.epoch
  turn := BitVec.ofNat 32 turn

def Report.bytes (r : Report) : List Byte :=
  beBytes 4 r.uid.toNat ++ [r.flags, r.health, r.oldchain, r.oldep] ++ beBytes 4 r.turn.toNat

def Report.parse (b : List Byte) : Report where
  uid := BitVec.ofNat 32 (beAt b 16 4)
  flags := byteAt b 20
  health := byteAt b 21
  oldchain := byteAt b 22
  oldep := byteAt b 23
  turn := BitVec.ofNat 32 (beAt b 24 4)

/-! ### Triggers (05 R140, R142) -/

/-- Without an epoch the through unit is unit A, or the only unit heard of (01 R19; log 29). -/
def State.svyThru (s : State) : Bool := if s.hasEpoch then s.sys.thru else !s.unitB || !s.wlv.hbok

/-- CABDB is high in this car, as far as this unit knows. -/
def State.carCab (s : State) : Bool := s.sys.cabdb || (s.svy.peer.map fun r => r.flags.getLsbD 5).getD false

/-- PREC of a survey started here (05 R143). -/
def State.svyPrec (s : State) : BitVec 2 :=
  if s.svy.trigger = some 4 then 2
  else if s.carCab || (s.hasEpoch && (s.svy.chaintab.get 0).getLsbD 26) then 1 else 0

/-- All of a survey's own state goes; REQUESTs, ABORTs and BEACONs that wait stay. -/
def State.svyClear (s : State) : State :=
  { s with
    svy.current := none, svy.full := false, svy.initiator := false, svy.surveyor := false, svy.hostwait := false
    svy.records := [], svy.hold := none, svy.recv := none, svy.walk := none, svy.colls := 0, svy.result := none
    svy.confirm := 0, svy.window := none, svy.lead := none
    svy.deferred := s.svy.deferred.filter fun d => [1, 9, 10].contains (byteAt d.2 0) }

/-- A survey is dropped or aborted: EV066. -/
def State.svyDrop (s : State) : State :=
  let t := s.svyClear
  State.raise 66 { t with svy.state := .idle }

/-- Start the settle timer; a survey begins (04 R123). -/
def State.svySettle (cause : Option (BitVec 4)) (s : State) : State :=
  let t := ((s.svyClear).svySnap).keepBegin
  { t with svy.state := .settle, svy.trigger := cause, svy.attempt := 0 }

/-- The port on the return line toward the benchmark of the ring: of the last Traverse received, at a higher chainage toward
the tail (05 R142). -/
def State.towardBench (s : State) : Fin 4 := if s.car < s.tre.bench.toNat / 2 + 1 then s.retIn else s.retOut

/-- Send a REQUEST on the return line toward the benchmark; without numbers, on both B ports (05 R142, R164; log 30). -/
def State.svyRequest (cause : BitVec 4) (s : State) : State :=
  let body := (s.svyHdr 1 false 0).bytes ++ [cause.setWidth 8, 0, 0, 0]
  s.each (if s.hasEpoch then [s.towardBench] else [2, 3]) fun p t => t.svySend p 0 body

/-- A cause kept until it can act; cause 4 is not displaced. -/
def keepCause (old : Option (BitVec 4)) (c : BitVec 4) : Option (BitVec 4) := if old = some 4 then old else some c

/-- A trigger is detected (05 R140, R142). A node without a benchmark, as one whose piece carries no Traverse, starts its own
settle timer (log 216). -/
def State.svyTrigger (cause : BitVec 4) (s : State) : State :=
  let t : State := State.raise 64 { s with svy.cause := cause }
  if t.svy.dupunit || (decide (cause = 4) && !t.svyThru) then t
  else if t.svy.state = .settle then { t with svy.trigger := keepCause t.svy.trigger cause }
  else if t.svy.state = .idle then
    if cause = 4 then t.svySettle (some 4)
    else if cause = 5 then t.svyRequest 5
    else if t.isBench || !t.hasEpoch || decide (t.sys.netrole = .isolated) || !t.carriesTrv then t.svySettle (some cause)
    else t.svyRequest cause
  else if cause = 4 then (t.svyDrop).svySettle (some 4)
  else { t with svy.trigger := keepCause t.svy.trigger cause }

/-- Back to IDLE; a trigger that arose meanwhile acts now (05 R142). -/
def State.svyIdle (s : State) : State :=
  let t := s.svyClear
  let u : State := { t with svy.state := .idle, svy.trigger := none }
  match s.svy.trigger with
  | some c => u.svyTrigger c
  | none => u

/-- Outward-facing ports of an end car; without an epoch the car is a piece of its own (05 R140, R141; log 31). -/
def State.outward (s : State) : List (Fin 4) :=
  if !s.hasEpoch then [0, 1, 2, 3]
  else (if s.car = 1 then s.headPorts else []) ++ (if s.car = s.svy.cars.toNat then s.tailPorts else [])

/-- A SID or epoch that is not this ring's; a late-comer does not know its ring's SID. -/
def State.svyForeign (s : State) (h : SHdr) : Bool :=
  decide (h.oldep ≠ s.svy.epoch) ||
    (!s.svy.joined && decide (h.sid ≠ (if s.hasEpoch then s.svy.epochSid else s.svy.uid)))

/-! ### Precedence (05 R149) -/

def svyOutranks (a b : BitVec 2 × Word) : Bool := decide (b.1 < a.1) || (decide (a.1 = b.1) && decide (a.2 < b.2))

/-- The survey the node is in, or the one it is about to start. -/
def State.svyMine (s : State) : Option (BitVec 2 × Word) :=
  match s.svy.current with
  | some c => some c
  | none => if s.svy.state = .settle then some (s.svyPrec, s.svy.uid) else none

def SHdr.key (h : SHdr) : BitVec 2 × Word := (h.prec, h.sid)

/-- The frame's survey is the node's, or outranks it. -/
def State.svyAccepts (s : State) (h : SHdr) : Bool :=
  match s.svyMine with
  | none => true
  | some c => decide (c = h.key) || svyOutranks h.key c

/-- The frame is of the survey the node is in. -/
def State.svyIs (s : State) (h : SHdr) : Bool := decide (s.svy.current = some h.key)

/-- A frame of the survey the node is in says where the windows of the initiator's ring lie (05 R139). -/
def State.svyPlace (f : RxFrame) (h : SHdr) (s : State) : State :=
  if s.svyIs h && decide (h.win ≠ 0) && decide (h.winrem ≠ 0) then
    { s with svy.window := some (BitVec.ofNat 64 (s.tsrxOf f + 1000 * h.winrem), h.win, h.tper) }
  else s

/-- Join the frame's survey, EV065, dropping the one the node is in, EV066. A settle time of its own ends with its trigger;
a trigger that arose in a survey past SETTLE stays in force (05 R142, R149; log 173). -/
def State.svyJoin (f : RxFrame) (h : SHdr) (s : State) : State :=
  if s.svy.current = some h.key then s
  else
    let a := if s.svy.current.isSome then s.svyDrop else
      { s.svyClear with svy.trigger := if s.svy.state = .settle then none else s.svy.trigger }
    let t := a.when (decide (s.svy.state = .idle)) State.keepBegin
    State.raise 65 (State.svyPlace f h { t.svyBegin with
      svy.current := some h.key, svy.full := h.full, svy.state := .walk, svy.attempt := 0 })

/-! ### Receiving -/

/-- A survey frame received: what every reception does, the initiator's windows, then the kind's effect. A good frame that
is not the command's changes nothing (log 4). -/
def State.svyRx (f : RxFrame) (kind : Nat) (act : SHdr → State → State) (s : State) : State :=
  let h := SHdr.parse f.body
  if s.rxClass f = .good then
    if fcType f.fc ≠ .survey ∨ h.kind ≠ kind ∨ f.body.length < 16 then s
    else
      let t := s.rxFx f
      if t.svy.dupunit then t
      else
        act h (t.svyPlace f h)
  else s.rxFx f

/-! ### The walk (05 R145 to R148) -/

/-- Send the frame of the exchange this node holds, a TOKEN or a SEEK, with its slots of 384 us (05 Table 5.5). -/
def State.svyHoldSend (t : Nat) (s : State) : State :=
  match s.svy.hold with
  | none => s
  | some x =>
    let idx := (s.svy.walk.map (·.idx)).getD 0
    let body := if x.seek then (s.svyHdr 2 false idx).bytes
      else (s.svyHdr 3 false s.svy.records.length).bytes ++ s.svy.records.flatten
    s.svySend x.port t body

/-- Hold a new exchange on a port. -/
def State.svyHold (port : Fin 4) (seek : Bool) (t : Nat) (s : State) : State :=
  ({ s with svy.hold := some ⟨port, seek, none, none, none, 0, false, true⟩ }).svyHoldSend t

/-- The partner as this unit knows it at the start of its own walk: the last REPORT, otherwise, where its heartbeat is
seen, a unit whose UID and health are free values (log 32). -/
def State.svyPartner (s : State) : Option Report :=
  match s.svy.peer with
  | some r => some r
  | none =>
    if s.wlv.hbok then some ⟨BitVec.ofNat 32 (Config.freeNat s.free), BitVec.ofNat 8 (128 * (!s.unitB).toNat),
      BitVec.ofNat 8 (Config.freeNat (s.free + 1)), s.svy.chain.setWidth 8, s.svy.epoch, 0⟩ else none

/-- Own car's record, this unit the through unit. -/
def State.svyOwnRecord (s : State) (orient : Bool) (hop : Nat) (partner : Option Report) : List Byte :=
  let me := s.svySelf 0 0
  let cab := s.sys.cabdb || (partner.map fun r => r.flags.getLsbD 5).getD false
  if s.unitB then svyRecord orient cab true s.car s.svy.epoch hop partner (some me)
  else svyRecord orient cab false s.car s.svy.epoch hop (some me) partner

/-- This through unit surveys: the head's TOKEN out of the End that faces away from the leading end (05 R145, R146). -/
def State.svySurveyor (lead : Fin 4) (s : State) : State :=
  let r := s.svyOwnRecord (decide (lead = 1)) 0 s.svyPartner
  let t : State := { s with
    svy.surveyor := true, svy.state := .walk, svy.recv := none, svy.records := [r], svy.lead := some lead
    svy.walk := some ⟨0, lead, farEnd lead, 0, true, false⟩ }
  ((t.took).took).svyHold (farEnd lead) false 0

/-- The port on line A toward the leading end (05 R144). How a cab car knows that it is an end car the manual does not say:
here it is one where one of its A ports is silent and the other is not, and its outward end is the silent one (log 174). -/
def State.leadPort (s : State) : Fin 4 :=
  let silent (p : Fin 4) := decide ((s.port p).state = .silent)
  if s.carCab then
    (if silent 0 && !silent 1 then 0 else if silent 1 && !silent 0 then 1 else if s.svyCabEnd then 1 else 0)
  else if s.hasEpoch && s.svy.orient then 1 else 0

/-- The initiator's car is at the leading end: nothing is heard there, and it is an end car by its numbers, or a cab car that
hears the train at its other end (05 R144, R145; log 174). -/
def State.atHead (s : State) (lead : Fin 4) : Bool :=
  decide ((s.port lead).state = .silent) &&
    ((s.hasEpoch && s.outward.contains lead) || (s.carCab && decide ((s.port (farEnd lead)).state ≠ .silent)))

/-- The lead port of the survey that a settle time is to repeat: a surveyor's next attempt; none where a new survey starts,
as it does for cause 4 (05 R142, R161). -/
def State.svyAgain (s : State) : Option (Fin 4) :=
  if s.svy.current.isSome && s.svy.trigger != some 4 then s.svy.lead else none

/-- The settle timer has expired: this node initiates, or the surveyor makes its next attempt with the values of the first
(05 R142 to R145, R161, R167). -/
def State.svyInitiate (s : State) : State :=
  if s.svy.state ≠ .settle then s
  else match s.svyAgain with
    | some lead => State.svySurveyor lead { s with svy.attempt := s.svy.attempt + 1, svy.colls := 0 }
    | none =>
      let full := s.svy.trigger == some 4 || s.svy.fullNext
      let t : State := State.raise 65 { (s.svyClear).svyBegin with
        svy.current := some (s.svyPrec, s.svy.uid), svy.full := full, svy.initiator := true, svy.trigger := none
        svy.fullNext := false, svy.attempt := 1, svy.colls := 0 }
      let lead := t.leadPort
      if t.atHead lead && t.svyThru then t.svySurveyor lead
      else ({ t with svy.state := .seek }).svyHold lead true 0

def execSettleExpiry (s : State) : Result := .next (s.when s.coreRuns fun s => s.svyInitiate)

/-- Numbering is full with FULL, or where the head's OLDCHAIN is not 1, which every unit of the walk has from the head's record
(05 R143, R152). -/
def State.svyFull (s : State) : Bool := s.svy.full || decide (recOldchain (s.svy.records.headD []) ≠ 1)

/-- A receiving unit takes part in an exchange: it joins, reports in its slot, and keeps what it learned (05 R147). -/
def State.svyExchange (f : RxFrame) (h : SHdr) (seek : Bool) (recs : List (List Byte)) (s : State) : State :=
  let t := s.svyJoin f h
  let dur := svyDur f.body.length
  let turn := dur + (if t.unitB then 192000 else 64000)
  let t2 := t.tsrxOf f
  let n := if seek then h.count + 1 else recs.length
  let body := (t.svyHdr 4 false n).bytes ++ (t.svySelf f.port turn).bytes
  let u := (t.svyReserve t2 (dur + 384000)).txSurveyAt f.port (t2 + turn) body
  { u with
    svy.state := .walk, svy.hold := none, svy.walk := none, svy.result := none
    svy.recv := some ⟨f.port, seek, BitVec.ofNat 64 (t2 + dur), BitVec.ofNat 32 turn, recs, none⟩ }

/-- The surveyor takes no part in the exchanges of its own survey. -/
def State.svyIgnores (s : State) (h : SHdr) : Bool := !s.svyAccepts h || (s.svy.surveyor && s.svyIs h)

/-- The SEEK, on this port, is that of this car's other unit, the initiator: the partner is known by the UID of its last
REPORT; where none was heard, a unit whose heartbeat is seen sends the initiator's SEEK on the port of line A toward the
leading end, on which no other car of the same epoch sends (05 R144, R145; log 175). -/
def State.seekOfPartner (s : State) (p : Fin 4) (h : SHdr) : Bool :=
  decide (h.count = 0) && match s.svy.peer with
    | some r => decide (r.uid = h.sid)
    | none => s.wlv.hbok && decide (h.oldep = s.svy.epoch) && decide (p = s.leadPort)

/-- A SEEK: an exchange; but where the car's other unit initiates and this is the through unit, it follows the slots, since
its car may be the head (05 R145; log 175). -/
def onSeek (f : RxFrame) (h : SHdr) (s : State) : State :=
  let relayed := s.svyIs h && (s.svy.walk.map fun w => decide (w.idx = h.count)).getD false
  if s.svyIgnores h || relayed || decide (h.sid = s.svy.uid) then s
  else if s.seekOfPartner f.port h then
    if s.svyThru then
      { s.svyJoin f h with
        svy.hold := some ⟨f.port, true, some (BitVec.ofNat 64 (s.tsrxOf f)), none, none, 1, false, false⟩ }
    else s
  else s.svyExchange f h true []

def execSeek (f : RxFrame) (s : State) : Result := .next (s.svyRx f 2 (onSeek f))

/-- A record carries this unit's own UID. -/
def State.recIsOwn (s : State) (r : List Byte) : Bool :=
  decide (recUid r false = s.svy.uid) || decide (recUid r true = s.svy.uid)

/-- A TOKEN: none that carries the own UID; trigger cause 1 where it is foreign on an outward port; an exchange (05 R140,
R147). -/
def onToken (f : RxFrame) (h : SHdr) (s : State) : State :=
  let recs := svyRecs f.body h.count
  if s.svyIgnores h || recs.any s.recIsOwn then s
  else
    let t := if s.outward.contains f.port && !s.svyIs h && s.svyForeign h then s.svyTrigger 1 else s
    t.svyExchange f h false recs

def execToken (f : RxFrame) (s : State) : Result := .next (s.svyRx f 3 (onToken f))

/-- A REPORT: in the holder's slot with its round-trip time, or the partner's in the same exchange (05 R147). -/
def onReport (f : RxFrame) (h : SHdr) (s : State) : State :=
  let r := Report.parse f.body
  let unitB := r.flags.getLsbD 7
  if !s.svyIs h then s
  else match s.svy.hold with
    | some x =>
      match x.t1, decide (x.port = f.port) with
      | some t1, true =>
        let rtt := BitVec.ofNat 32 (s.tsrxOf f - t1.toNat)
        { s with svy.hold := some (if unitB then { x with repB := some (r, rtt) } else { x with repA := some (r, rtt) }) }
      | _, _ => s
    | none => match s.svy.recv with
      | some x =>
        if x.port = f.port ∧ unitB ≠ s.unitB then
          { s with svy.recv := some { x with peer := some r }, svy.peer := some r }
        else s
      | none => s

def execReport (f : RxFrame) (s : State) : Result := .next (s.svyRx f 4 (onReport f))

/-- COLL for its own slot a third time: this unit's UNIT strap is a duplicate (05 R148). The rule takes its NID; the epoch,
the chainage and the car count that go with it, the network role, the through role and the synchronisation go with it at
once, where the manual is silent (log 176). -/
def State.svyDup (s : State) : State :=
  let t := s.svyClear
  let u : State := { t with
    svy.state := .idle, svy.dupunit := true, svy.nid := none, svy.chain := 0, svy.cars := 0, svy.epoch := 0
    svy.trigger := none, svy.joined := false, svy.watch := none
    sys.netrole := .isolated, sys.thru := false, sys.turned := false, tre.sync := .free }
  ((u.raise 75).spFaultCode 0x0501).wlvSync

/-- The partner's slots read MUTED in the last return pass (06 R180). -/
def State.partnerMuted (s : State) : Bool :=
  s.svy.nid.any fun n => (List.range s.tre.table.length).any fun i =>
    let e := s.tre.table.getD i 0
    e.getLsbD 29 && (e >>> 16).setWidth 6 == (n ^^^ 1) && s.tre.livemute.getLsbD i

/-- Unit A of the car is muted: unit A knows itself, unit B by what A's slots read, or last read before they read DATA again
(01 R19, 05 R147; 06 R180; log 177). -/
def State.unitAMuted (s : State) : Bool :=
  if s.unitB then s.partnerMuted || s.tre.muteSeen else decide (s.tre.sync = .muted)

/-- A PASS: the receiving unit learns its hop delay and who goes on; the through unit appends its car's record (05 R147). -/
def onPass (f : RxFrame) (h : SHdr) (s : State) : State :=
  match s.svy.recv, s.svyIs h with
  | some x, true =>
    if x.port ≠ f.port then s
    else
      let rttA := beAt f.body 16 4
      let rttB := beAt f.body 20 4
      let own := if s.unitB then rttB else rttA
      if h.coll then
        if own ≠ 0 then s
        else if 2 ≤ s.svy.colls then s.svyDup
        else { s with svy.colls := s.svy.colls + 1 }
      else
        let hop := if own = 0 then 0 else (own - x.turn.toNat + 1) / 2
        let thru := (decide (rttA ≠ 0) && !(s.unitAMuted && decide (rttB ≠ 0))) == !s.unitB
        let idx := if x.seek then h.count + 1 else x.recs.length
        let out := farEnd x.port
        let t : State := { s with svy.recv := none, svy.walk := some ⟨idx, x.port, out, hop, thru, false⟩ }
        let next := x.e.toNat + 448000
        if x.seek then (if thru then t.svyHold out true next else t)
        else if !thru then { t with svy.state := .wait, svy.records := x.recs }
        else
          let r := t.svyOwnRecord (decide (x.port = 1)) hop x.peer
          ({ t with svy.records := x.recs ++ [r] }).svyHold out false next
  | _, _ => s

def execPass (f : RxFrame) (s : State) : Result := .next (s.svyRx f 5 (onPass f))

/-! ### Numbering and election (05 R151 to R155, R165) -/

/-- A chain entry from a car record at its walk index (05 SVY_CHAINTAB). -/
def chainEntry (r : List Byte) (walk : Nat) : Word :=
  packW [(31, 1), (30, (recOrient r).toNat), (29, (recPresent r false).toNat), (28, (recPresent r true).toNat),
    (27, (recThru r).toNat), (26, (recCab r).toNat), (16, walk % 32), (0, recHop r)]

/-- Units of the numbered cars: NID and health, for each present unit, in NID order. -/
def svyUnits (cars : List (List Byte)) : List (Nat × Byte) :=
  (List.range cars.length).flatMap fun i =>
    let r := cars.getD i []
    [false, true].filterMap fun u => if recPresent r u then some (2 * i + u.toNat, recHealth r u) else none

/-- The benchmark: in the lowest chainage with an eligible unit, the one with the higher health, unit A on a tie (R154). -/
def State.svyBench (s : State) (units : List (Nat × Byte)) : Option Nat :=
  let e := units.filter fun u => s.eligible u.2
  match e with
  | [] => none
  | (n, h) :: rest =>
    match rest.find? fun u => decide (u.1 = n + 1) && decide (n % 2 = 0) with
    | some (m, k) => if h < k then some m else some n
    | none => some n

/-- SVY_NIDTAB of the numbered cars (05 R154): PRESENT, BENCH, RANK, HEALTH. -/
def State.svyElect (s : State) (cars : List (List Byte)) : Vector Word 64 :=
  let units := svyUnits cars
  let bench := s.svyBench units
  let backups := (units.filter fun u => s.eligible u.2 && bench != some u.1).map (·.1)
  vmk 0 fun (n : Fin 64) => match units.find? (·.1 == n.val) with
    | none => 0
    | some (_, h) => packW [(31, 1), (30, (bench == some n.val).toNat),
        (24, if backups.contains n.val then backups.idxOf n.val + 1 else 0), (16, h.toNat)]

/-- The hardware's tables: chainage is the position in walk order (05 R151). -/
def State.svyHardware (s : State) : Vector Word 32 × Vector Word 64 :=
  let l := s.svy.records
  (vmk 0 fun (i : Fin 32) => if i.val < l.length then chainEntry (l.getD i.val []) i.val else 0, s.svyElect l)

/-- The new epoch: the highest OLDEP plus 1, from 255 to 1, past every OLDEP in the TALLY (05 R155). -/
def svyNewep (recs : List (List Byte)) : Byte :=
  let olds := recs.map recOldep
  let m := olds.foldl max 0
  let cand := (List.range 255).map fun k => (m + k) % 255 + 1
  BitVec.ofNat 8 ((cand.find? fun e => !olds.contains e).getD 1)


/-- The car records in the order of a chain table; none where its WALK fields follow neither walk order nor its exact reverse
with every ORIENT inverted (05 R165). -/
def State.svyChainCars (s : State) (tab : Vector Word 32) : Option (List (List Byte)) :=
  let l := s.svy.records
  let n := l.length
  let walk (i : Nat) := fld (tab.getD i 0) 16 5
  let inverted (i : Nat) := (tab.getD i 0).getLsbD 30 != recOrient (l.getD (n - 1 - i) [])
  if (List.range n).all fun i => decide (walk i = i) then some l
  else if (List.range n).all fun i => decide (walk i = n - 1 - i) && inverted i then some l.reverse
  else none

/-- A NID table names exactly one benchmark among eligible units and gives distinct consecutive ranks (05 R165). -/
def State.svyNidOk (s : State) (cars : List (List Byte)) (tab : Vector Word 64) : Bool :=
  let units := svyUnits cars
  let elig (n : Nat) := (units.find? (·.1 == n)).any fun u => s.eligible u.2
  let benches := (List.range 64).filter fun n => (tab.getD n 0).getLsbD 30
  let others := (List.range 64).filter fun n => (tab.getD n 0).getLsbD 31 && !benches.contains n
  let ranks := (others.map fun n => fld (tab.getD n 0) 24 6).filter (· ≠ 0)
  decide (benches.length = 1) && benches.all elig && ((List.range ranks.length).all fun k => ranks.contains (k + 1))

/-- THRU and CAB of every chain entry come from the car records (05 R165). -/
def svyChainFix (cars : List (List Byte)) (tab : Vector Word 32) : Vector Word 32 :=
  vmk 0 fun (i : Fin 32) =>
    let r := cars.getD i.val []
    if i.val < cars.length then putBit (putBit (tab.get i) 27 (recThru r)) 26 (recCab r) else 0

/-- Publish tables: build the RESULT and send it out of the head car (05 R156). -/
def State.svyPublishTabs (chain : Vector Word 32) (nids : Vector Word 64) (s : State) : State :=
  let n := s.svy.records.length
  let list := (List.range n).map fun i => chain.getD i 0
  let ranks := (List.range 64).map fun i => ((nids.getD i 0) >>> 24).setWidth 8
  let bench := ((List.range 64).find? fun i => (nids.getD i 0).getLsbD 30).getD 0
  let own := ((List.range n).find? fun i => decide (fld (list.getD i 0) 16 5 = 0)).getD 0
  let r : SvyResult := ⟨svyNewep s.svy.records, s.svyFull, 0, 0, n, BitVec.ofNat 6 bench, list, ranks,
    BitVec.ofNat 6 (2 * own + s.unitB.toNat)⟩
  let t : State := { s with svy.result := some r, svy.hostwait := false, svy.decChain := chain, svy.decNid := nids }
  let h := { t.svyHdr 7 false 0 with newep := r.newep }
  let body := h.bytes ++ List.replicate 8 0 ++ [BitVec.ofNat 8 n, BitVec.ofNat 8 bench, 0, 0] ++
    list.flatMap (fun e => beBytes 4 e.toNat) ++ ranks
  t.svySend ((t.svy.walk.map (·.out)).getD 0) 0 body

/-- The hardware result is published. -/
def State.svyPublishHw (s : State) : State := s.svyPublishTabs s.svyHardware.1 s.svyHardware.2

/-- The complete TALLY is at the surveyor: SVY fills the tables it keeps, and those the steward writes stand as they were
(05 R150, R165). -/
def State.svyDecide (recs : List (List Byte)) (s : State) : State :=
  let tally := recs.flatten
  let t : State := State.raise 68 { s with
    svy.records := recs, svy.state := .decide, svy.hold := none
    svy.tally := tally ++ List.replicate (512 - tally.length) 0 }
  let hw := t.svyHardware
  let u : State := { t with
    svy.decChain := if t.svy.split.getLsbD 0 then t.svy.chaintab else hw.1
    svy.decNid := if t.svy.split.getLsbD 1 then t.svy.nidtab else hw.2 }
  if u.svy.split = 0 then u.svyPublishHw else State.raise 69 { u with svy.hostwait := true }

/-- The steward's tables are checked and published, otherwise the hardware result with EV070 (05 R165). -/
def State.svyPublish (s : State) : State :=
  if !s.svy.hostwait || decide (s.svy.state ≠ .decide) then s
  else
    let hw := s.svyHardware
    match s.svyChainCars (if s.svy.split.getLsbD 0 then s.svy.decChain else hw.1) with
    | none => (s.raise 70).svyPublishHw
    | some cars =>
      let chain := svyChainFix cars (if s.svy.split.getLsbD 0 then s.svy.decChain else hw.1)
      if s.svy.split.getLsbD 1 then
        if s.svyNidOk cars s.svy.decNid then s.svyPublishTabs chain s.svy.decNid else (s.raise 70).svyPublishHw
      else s.svyPublishTabs chain (s.svyElect cars)

def execSvyPublish (s : State) : Result := .next s.svyPublish

/-- HOSTT has passed without PUBLISH. -/
def execHostDeadline (s : State) : Result := .next (s.when s.coreRuns fun s =>
    if s.svy.hostwait && decide (s.svy.state = .decide) then (s.raise 70).svyPublishHw else s)

/-! ### The end of the slots (05 R148, Table 5.5) -/

/-- No carrier: the holder of a TOKEN is the tail; where a SEEK drew none its car is the head, whose through unit becomes the
surveyor (05 R145, R148). -/
def State.svyNoCarrier (x : SvyHold) (s : State) : State :=
  let t : State := { s with svy.hold := none }
  let thru := (t.svy.walk.map (·.thru)).getD t.svyThru
  if x.seek then
    (if thru then State.svySurveyor x.port { t with svy.attempt := if t.svy.initiator then t.svy.attempt else 1 }
      else { t with svy.state := .wait })
  else
    let u : State := State.raise 67 { t with svy.walk := t.svy.walk.map fun w => { w with tail := true } }
    if u.svy.surveyor then u.svyDecide u.svy.records
    else match u.svy.walk with
      | some w => u.svySend (sideB w.inn) (u.svyNow (sideB w.inn) + 64000)
          ((u.svyHdr 6 false u.svy.records.length).bytes ++ u.svy.records.flatten)
      | none => u

/-- At E + 320 us. -/
def State.svySlotEnd (carrierA carrierB : Bool) (s : State) : State :=
  match s.svy.hold with
  | none => s
  | some x =>
    if x.t1.isNone || x.bypass then s
    else if !(carrierA || carrierB || x.repA.isSome || x.repB.isSome) then s.svyNoCarrier x
    else if !x.own then { s with svy.hold := none }
    else
      let coll := (carrierA && x.repA.isNone) || (carrierB && x.repB.isNone)
      let rtt (r : Option (Report × Word)) : Nat := (r.map fun y => y.2.toNat).getD 0
      let idx := (s.svy.walk.map (·.idx)).getD 0
      let t := s.svyOut x.port (s.svyNow x.port) ((s.svyHdr 5 coll idx).bytes ++ beBytes 4 (rtt x.repA) ++ beBytes 4 (rtt x.repB))
      if coll then
        if x.sent < 3 then t.svyHoldSend (t.svyNow x.port + 128000)
        else { t with svy.hold := some { x with bypass := true } }
      else
        { t with svy.hold := none }

def execReportSlotEnd (carrierA carrierB : Bool) (s : State) : Result :=
  .next (s.when s.coreRuns (State.svySlotEnd carrierA carrierB))

/-- After 100 ms for the bypass, DUP in the own record and the frame again (05 R148). -/
def State.svyBypass (s : State) : State :=
  match s.svy.hold with
  | none => s
  | some x =>
    if !x.bypass then s
    else
      let l := s.svy.records
      let last := l.getD (l.length - 1) []
      let l' := if x.seek then l else l.take (l.length - 1) ++ [last.set 0 (setBit (byteAt last 0) 3)]
      ({ s with svy.records := l', svy.hold := some { x with bypass := false, sent := 0 } }).svyHoldSend 0

def execDupBypassWait (s : State) : Result := .next (s.when s.coreRuns fun s => s.svyBypass)

/-! ### TALLY, RESULT, CONFIRM, ABORT -/

/-- A frame of the walk in hand at a through unit: its place, where the frame came in on the port named. -/
def State.svyAt (s : State) (h : SHdr) (port : SvyWalk → Fin 4) (p : Fin 4) : Option SvyWalk :=
  match s.svy.walk, s.svyIs h with
  | some w, true => if port w = p then some w else none
  | _, _ => none

/-- A unit that its own car's TOKEN passed by takes its place in the walk from the car's record. The units of the head car hear
what their surveyor sends on the port it sends on (05 R147, R157; log 178). -/
def State.svyPassedBy (f : RxFrame) (h : SHdr) (i : Nat) (orient : Bool) (recs : List (List Byte)) (s : State) : State :=
  let lead : Fin 4 := if orient then 1 else 0
  let inn := if i = 0 then farEnd lead else lead
  { s.svyJoin f h with
    svy.state := .wait, svy.walk := some ⟨i, inn, farEnd lead, 0, false, false⟩, svy.records := recs }

def onTally (f : RxFrame) (h : SHdr) (s : State) : State :=
  let recs := svyRecs f.body h.count
  if !s.svyIs h then
    match s.svyAccepts h, recs.findIdx? s.recIsOwn with
    | true, some i => s.svyPassedBy f h i (recOrient (recs.getD i [])) recs
    | _, _ => s
  else match s.svyAt h (fun w => sideB w.out) f.port with
  | some w =>
    if s.svy.surveyor then (if s.svy.state = .tally then s.svyDecide (svyRecs f.body h.count) else s)
    else if w.thru && decide (s.svy.state = .wait) then
      s.svySend (sideB w.inn) (s.tsrxOf f + svyDur f.body.length + 64000) f.body
    else s
  | none => s

def execTally (f : RxFrame) (s : State) : Result := .next (s.svyRx f 6 (onTally f))

/-- The RESULT as this node stores it; none where it does not name the node (05 R157). -/
def State.svyResultOf (s : State) (f : RxFrame) (h : SHdr) (w : SvyWalk) : Option SvyResult :=
  let b := f.body
  let n := min 32 (byteAt b 24).toNat
  let list := (List.range n).map fun i => BitVec.ofNat 32 (beAt b (28 + 4 * i) 4)
  let ranks := slice b (28 + 4 * n) 64
  match (List.range n).find? fun i => decide (fld (list.getD i 0) 16 5 = w.idx) with
  | none => none
  | some i =>
    let nid := 2 * i + s.unitB.toNat
    if (ranks.getD nid 0).getLsbD 7 then
      some ⟨h.newep, s.svyFull, BitVec.ofNat 32 (beAt b 20 4), BitVec.ofNat 64 (s.tsrxOf f - w.hop + 1000 * beAt b 16 4), n,
        (byteAt b 25).setWidth 6, list, ranks, BitVec.ofNat 6 nid⟩
    else none

/-- The CONFIRM of this car, or the one received with this car's bits. -/
def State.svyConfirmSend (w : SvyWalk) (bits : Dword) (s : State) : State :=
  s.svySend (sideB w.inn) 0 ((s.svyHdr 8 false w.idx).bytes ++ beBytes 8 bits.toNat)

/-- The RESULT of a train of one car reaches the other unit of that car, which no TALLY told its place (log 178). -/
def State.svyLone (f : RxFrame) (h : SHdr) (s : State) : State :=
  if !s.svyIs h && s.svyAccepts h && decide (byteAt f.body 24 = 1) && decide (h.count = 0) then
    let orient := (BitVec.ofNat 32 (beAt f.body 28 4)).getLsbD 30
    s.svyPassedBy f h 0 orient [s.svyOwnRecord orient 0 none]
  else s

def onResult (f : RxFrame) (h : SHdr) (s0 : State) : State :=
  let s := s0.svyLone f h
  match s.svyAt h (·.inn) f.port with
  | some w =>
    if s.svy.surveyor || decide (s.svy.state = .cutwait) then s
    else match s.svyResultOf f h w with
      | none => s
      | some r =>
        let t := s.svyStored r
        if !w.thru then t
        else if w.tail then (t.svyConfirmSend w (svyCarBits r t.drawBool)).took
        else t.svySend w.out 0 (svyPassOn w f.body)
  | none => s

def execResult (f : RxFrame) (s : State) : Result := .next (s.svyRx f 7 (onResult f))

/-- Every NID of the RESULT is confirmed. -/
def State.svyConfirmed (s : State) : Bool :=
  match s.svy.result with
  | none => false
  | some r => (List.range 64).all fun n => !(r.ranks.getD n 0).getLsbD 7 || s.svy.confirm.getLsbD n

def onConfirm (f : RxFrame) (h : SHdr) (s : State) : State :=
  let bits := BitVec.ofNat 64 (beAt f.body 16 8)
  match s.svyAt h (fun w => sideB w.out) f.port with
  | some w =>
    if s.svy.surveyor then { s with svy.confirm := s.svy.confirm ||| bits }
    else match s.svy.result, w.thru with
      | some r, true => (s.svyConfirmSend w (bits ||| svyCarBits r s.drawBool)).took
      | _, _ => s
  | none => s

def execConfirm (f : RxFrame) (s : State) : Result := .next (s.svyRx f 8 (onConfirm f))

/-- The attempt has failed: one settle time and again, or EV078 (05 R161). -/
def State.svyRetry (s : State) : State :=
  if s.svyAttempts ≤ s.svy.attempt.toNat then (s.raise 78).svyIdle
  else
    let t := s.svyClear
    { t with
      svy.state := .settle, svy.current := s.svy.current, svy.full := s.svy.full, svy.lead := s.svy.lead
      svy.initiator := s.svy.initiator, svy.window := s.svy.window }

/-- The surveyor sends ABORT on line A (05 R157). -/
def State.svyAbortSend (s : State) : State :=
  let idx := (s.svy.walk.map (·.idx)).getD 0
  let t := s.svySend ((s.svy.walk.map (·.out)).getD 0) 0 (s.svyHdr 9 false idx).bytes
  (t.raise 66).svyRetry

def execConfirmDeadline (s : State) : Result := .next (s.when s.coreRuns fun s =>
    if s.svy.surveyor && decide (s.svy.state = .cutwait) && !s.svyConfirmed then s.svyAbortSend else s)

def onAbort (f : RxFrame) (h : SHdr) (s : State) : State :=
  match s.svyAt h (·.inn) f.port with
  | some w =>
    if s.svy.surveyor then s
    else
      let t := if w.thru && !w.tail then s.svySend w.out 0 (svyPassOn w f.body) else s
      (t.raise 66).svyIdle
  | none => s

def execSurveyAbort (f : RxFrame) (s : State) : Result := .next (s.svyRx f 9 (onAbort f))

/-- A CONFIRM has reached the surveyor: it confirms the units of some other car, or all (05 R157, R161). -/
def State.svyConfirmCame (s : State) : Bool :=
  s.svyConfirmed || s.svy.result.any fun r =>
    (List.range 64).any fun n => s.svy.confirm.getLsbD n && decide (n / 2 ≠ r.nid.toNat / 2)

/-- TMO (05 R161): the surveyor without a CONFIRM tries again, another node goes back to IDLE. -/
def State.surveyLate (s : State) : State :=
  if s.svy.surveyor then (if s.svyConfirmCame then s else s.svyRetry)
  else match s.svy.state with
    | .seek | .walk | .wait => s.svyIdle
    | _ => s

def execSurveyTimeout (s : State) : Result := .next (s.when s.coreRuns fun s => s.surveyLate)

/-- A frame that waited: the first on its port goes out now, the next after it where it still ends inside the window; none
that would not end 92 us before the next T0 is sent (05 R138). -/
def State.svyDeferredOne (d : Fin 4 × List Byte) (s : State) : State :=
  let now := s.svyNow d.1
  let need := svyDur d.2.length + svySlots d.2
  let at_ := match (s.port d.1).txEnd with
    | some e => max now (e.toNat + fld (s.pcfg d.1) 16 8)
    | none => now
  if at_ = now then
    if s.svyWindow.isNone && !s.quiet d.1 now then { s with svy.deferred := s.svy.deferred ++ [d] }
    else if (s.toT0 now).any fun x => decide (x < need + 92000) then s
    else (s.svyReserve now need).svyOut d.1 now d.2
  else s.svySend d.1 (max at_ (if svySlots d.2 = 0 then 0 else s.svy.until_.toNat)) d.2

/-- The next survey window starts, or a port without a Traverse is silent: the frames that waited go out. -/
def State.svyDeferred (s : State) : State :=
  State.each { s with svy.deferred := [] } s.svy.deferred State.svyDeferredOne

def execSurveyDeferredSend (s : State) : Result := .next (s.when s.coreRuns fun s => s.svyDeferred)

/-! ### Triggers as commands, BEACON and REQUEST -/

/-- An end car's through unit beacons on its outward ports; a unit without an epoch, which knows no through unit, sends none
(05 R141; log 209). -/
def execBeaconTimer (p : Fin 4) (s : State) : Result := .next (s.when s.coreRuns fun s =>
    if s.hasEpoch && s.sys.thru && !s.svy.dupunit && s.outward.contains p then
      s.svySend p 0 (s.svyHdr 10 false 0).bytes else s)

/-- A BEACON with a foreign SID or epoch on an outward port (05 R140); one that ranks below the survey in hand is ignored
(R149). -/
def onBeacon (f : RxFrame) (h : SHdr) (s : State) : State :=
  if s.svy.current.any fun c => svyOutranks c h.key then s
  else if s.outward.contains f.port && !s.svyIs h && s.svyForeign h then s.svyTrigger 1 else s

def execBeacon (f : RxFrame) (s : State) : Result := .next (s.svyRx f 10 (onBeacon f))

/-- A REQUEST of this epoch or with OLDEP 0: the benchmark settles, a through unit passes it on toward it (05 R142). -/
def onRequest (f : RxFrame) (h : SHdr) (s : State) : State :=
  let cause : BitVec 4 := (byteAt f.body 16).setWidth 4
  if !s.hasEpoch || !(decide (h.oldep = 0) || decide (h.oldep = s.svy.epoch)) then s
  else if s.isBench then
    match s.svy.state with
    | .idle => s.svySettle (some cause)
    | _ => { s with svy.trigger := keepCause s.svy.trigger cause }
  else if s.sys.thru && decide (s.tre.bench.toNat / 2 + 1 ≠ s.car) && decide (f.port = farEnd s.towardBench) then
    s.svySend s.towardBench 0 f.body
  else s

def execRequest (f : RxFrame) (s : State) : Result := .next (s.svyRx f 1 (onRequest f))

/-- SVY_CTL.START. -/
def execSvyStart (s : State) : Result := .next (s.svyTrigger 6)

/-- SVY_CTL.FULL. -/
def execSvyFull (s : State) : Result := .next { s with svy.fullNext := true }

/-- SVY_CTL.ABORT: ignored but at the surveyor. -/
def State.svyAbortCtl (s : State) : State := if s.svy.surveyor then s.svyAbortSend else s

def execSvyAbort (s : State) : Result := .next s.svyAbortCtl

/-- A write of SVY_CTL: FULL, PUBLISH, ABORT, START, then NOELECT as it now stands. -/
def State.svyCtlWrite (v : Word) (s : State) : State :=
  let t := s.setReg Reg.SVY_CTL v
  let a : State := if v.getLsbD 4 then { t with svy.fullNext := true } else t
  ((a.when (v.getLsbD 3) State.svyPublish).when (v.getLsbD 2) State.svyAbortCtl).when (v.getLsbD 1) (State.svyTrigger 6)

/-! ### The numbers at the cut (05 R158) -/

/-- Every node of the RESULT takes its new NID, epoch and role. -/
def State.svyTake (r : SvyResult) (s : State) : State :=
  let w := (s.svy.walk).getD ⟨0, 0, 1, 0, s.sys.thru, false⟩
  let c := r.nid.toNat / 2 + 1
  let rank := r.ranks.getD r.nid.toNat 0
  let role : NetRole := if rank.getLsbD 6 then .benchmark else if rank.setWidth 6 ≠ (0 : BitVec 6) then .backup else .member
  let orient := (r.chain.getD (c - 1) 0).getLsbD 30
  let t : State := { s with
    svy.prevep := s.svy.epoch
    svy.epoch := r.newep
    svy.epochSid := (s.svy.current.map (·.2)).getD 0
    svy.nid := some r.nid
    svy.chain := BitVec.ofNat 6 c
    svy.cars := BitVec.ofNat 6 r.cars
    svy.orient := orient
    svy.joined := false
    svy.heres := []
    svy.joins := 0
    svy.watch := none
    svy.taken := false
    svy.surveys := s.svy.surveys + 1
    svy.chaintab := vmk 0 fun i => r.chain.getD i.val 0
    svy.nidtab := if s.svy.surveyor then s.svy.decNid
      else vmk 0 fun i => (r.ranks.getD i.val 0).setWidth 32 <<< 24
    sys.netrole := role
    sys.rank := if role = .backup then rank.setWidth 6 else 0
    sys.thru := w.thru
    sys.thruNext := false
    sys.turnNext := false
    sys.thruGive := false
    sys.turned := decide (c = r.cars) }
  ((t.raise 72).raiseIf (s.svy.nid != some r.nid) 73).raiseIf (decide (s.sys.netrole ≠ role)) 74
    |>.raiseIf (s.hasEpoch && (s.svy.orient != orient)) 76

/-! ### Late-comers (05 R163, R164) -/

/-- A late-comer's JOIN out of A1 and A2, in an Open Road window. -/
def State.joinSend (s : State) : State :=
  let t : State := { s with svy.joins := s.svy.joins + 1 }
  t.each [0, 1] fun p u => u.sendLocal p true 0 0 (0x10#8 :: beBytes 4 u.svy.uid.toNat)

/-- A node that hears a Traverse and has no NID is a late-comer. -/
def State.lateComer (s : State) : Bool :=
  s.svy.nid.isNone && !s.svy.dupunit && (decide (s.tre.sync ≠ .free)) && decide (s.svy.state = .idle)

/-- A through unit that hears a JOIN answers on that port with HERE. -/
def onJoin (f : RxFrame) (_h : RHdr) (_b : List Byte) (s : State) : State :=
  if s.sys.thru && s.svy.nid.isSome then
    s.sendLocal f.port true 0 0 [0x11, s.svy.chain.setWidth 8, s.svy.epoch]
  else s

def execJoin (f : RxFrame) (s : State) : Result := .next (s.roadRx f (mgmt 0x10 onJoin))

/-- Three windows without HERE on both ports: a REQUEST with cause 5. -/
def execLatecomerNoAnswer (s : State) : Result := .next (s.when s.coreRuns fun s =>
    if s.lateComer && decide (3 ≤ s.svy.joins) then
      ({ s with svy.joins := 0, svy.heres := [] }).svyTrigger 5 else s)

end Sys2Proof.Machine
end

