-- ==== Sys2Proof/Machine/Table.lean ====
section
/-! DEFINITION. The waymark table: entries, layout in symbols, slots, the waymark buffers, edits and claims
(06 R172 to R176, R182 to R192). -/
namespace Sys2Proof.Machine

/-! ### Entries (06 Table 6.5) -/

def entLen (e : Word) : Nat := 8 * (fld e 8 5 + 1)
def entLayby (e : Word) : Bool := e.getLsbD 30
def entOwned (e : Word) : Bool := e.getLsbD 29
def entOwner (e : Word) : BitVec 6 := (e >>> 16).setWidth 6

/-- Owner byte of the slot prefix: the NID, 0xFF for a lay-by with no owner (06 R173). -/
def entPrefix (e : Word) : Byte := if entOwned e then (entOwner e).setWidth 8 else 0xFF

/-- The entry is owned by a NID. -/
def entBy (nid : BitVec 6) (e : Word) : Bool := entOwned e && entOwner e == nid

/-- An entry put together. -/
def mkEntry (layby : Bool) (owner : Option (BitVec 6)) (len8 user : Nat) : Word :=
  packW [(31, 1), (30, layby.toNat), (29, owner.isSome.toNat), (16, (owner.map BitVec.toNat).getD 0), (8, len8), (0, user)]

/-- An entry and the owner of the group before it start a new group: every lay-by is its own (06 Layout in symbols). -/
def newGroup (prev : Option (BitVec 6)) (e : Word) : Bool := entLayby e || prev != some (entOwner e)

def groupKey (e : Word) : Option (BitVec 6) := if entLayby e then none else some (entOwner e)

/-- Number of groups. -/
def tabGroups : Option (BitVec 6) → List Word → Nat
  | _, [] => 0
  | p, e :: t => (newGroup p e).toNat + tabGroups (groupKey e) t

/-- Bits rounded up to a symbol boundary. -/
def symUp (n bits : Nat) : Nat := (bits + n - 1) / n * n

/-- Body offset of every entry from position pos on, and the position after the last (06 R175). -/
def layOut (n : Nat) : Option (BitVec 6) → Nat → List Word → List Nat × Nat
  | _, pos, [] => ([], pos)
  | p, pos, e :: t =>
    let o := if newGroup p e then (symUp n (pos * 8) + 7) / 8 else pos
    let r := layOut n (groupKey e) (o + entLen e) t
    (o :: r.1, r.2)

/-- Body offsets of a table under N_dbps = n. -/
def tabOfs (n : Nat) (tab : List Word) : List Nat := (layOut n none 76 tab).1

/-- LEN_BODY of a table under N_dbps = n. -/
def tabBody (n : Nat) (tab : List Word) : Nat := (symUp n ((layOut n none 76 tab).2 * 8) + 7) / 8

def sumLen (tab : List Word) : Nat := (tab.map entLen).foldl (· + ·) 0

/-- Image offset of entry i (06 R182). -/
def imgOfs (tab : List Word) (i : Nat) : Nat := sumLen (tab.take i)

/-- A table is accepted (06 R176). -/
def tabOk (tab : List Word) : Bool :=
  decide (tab.length ≤ 256) && tab.all (·.getLsbD 31) && decide (sumLen tab ≤ 4096) &&
    ((List.range 64).all fun n => decide (sumLen (tab.filter (entBy (BitVec.ofNat 6 n))) ≤ 2048)) &&
    decide (76 + sumLen tab + 91 * (tabGroups none tab + 1) ≤ 8191)

/-- TABCRC (06 R172). -/
def tabCrc (tab : List Word) : Half := crc16 (tab.flatMap fun e => beBytes 4 e.toNat)

/-! ### Slots (06 R173, Table 6.4) -/

/-- CRC of a slot's bytes under its prefix. -/
def slotCrc (epoch owner : Byte) (tcount : Word) (bs : List Byte) : Half :=
  crc16 ([epoch, owner] ++ beBytes 2 (tcount.toNat % 65536) ++ bs)

/-- A slot of LEN bytes with a valid CRC. -/
def mkSlot (epoch owner : Byte) (tcount : Word) (stat seq : Byte) (data : List Byte) : List Byte :=
  let b := [stat, seq] ++ data
  b ++ beBytes 2 (slotCrc epoch owner tcount b).toNat

/-- A received slot's CRC is valid under the prefix. -/
def slotOk (epoch owner : Byte) (tcount : Word) (bs : List Byte) : Bool :=
  let n := bs.length
  decide ((slotCrc epoch owner tcount (bs.take (n - 2))).toNat = beAt bs (n - 2) 2)

/-- Bytes put over a string at an offset. -/
def patchAt (b : List Byte) (o : Nat) (x : List Byte) : List Byte := b.take o ++ x ++ b.drop (o + x.length)

/-! ### This node's slots -/

def State.nentries (s : State) : Nat := s.tre.table.length

/-- The entries with their indices. -/
def State.entries (s : State) : List (Nat × Word) := (List.range s.nentries).map fun i => (i, s.tre.table.getD i 0)

/-- This node owns the entry. -/
def State.owns (s : State) (e : Word) : Bool := s.svy.nid.any fun n => entBy n e

/-- The car's other unit owns the entry. -/
def State.partnerOwns (s : State) (e : Word) : Bool := s.svy.nid.any fun n => entBy (n ^^^ 1) e

def State.ownsAny (s : State) : Bool := s.tre.table.any s.owns

/-- Offset of entry i in the write and send banks: own slots packed in table order (06 R182). -/
def State.ownOfs (s : State) (i : Nat) : Nat := sumLen ((s.tre.table.take i).filter s.owns)

/-- This node writes its slots: it has them, its table is in force, and it is neither free-running from reset, covered nor
watching (05 R164; 06 R181, R189, R202). -/
def State.writes (s : State) : Bool :=
  s.tre.tabok && s.svy.nid.isSome && decide (s.tre.sync ≠ .free) && !s.tre.covered && s.svy.watch.isNone && s.tre.enabled

/-- Bytes of the send bank with wrong parity under entry i (15 R406). -/
def State.sendBad (s : State) (i : Nat) (e : Word) : List Nat :=
  let a := 0x40048800 + s.ownOfs i
  s.mem.badpar.filter fun x => decide (a ≤ x) && decide (x < a + entLen e)

/-- What this node puts in entry i of a Traverse: its own slot, its CRC inverted where the send bank has a parity error (15
R406), MUTED while muted, or COVER for its partner (06 R180, R181, R183). -/
def State.slotFor (s : State) (tcount : Word) (i : Nat) (e : Word) : Option (List Byte) :=
  let zeros := List.replicate (entLen e - 4) (0 : Byte)
  let mk := mkSlot s.svy.epoch (entPrefix e) tcount
  if s.owns e then
    if !s.writes then none
    else if s.tre.sync = .muted then some (mk 2 s.tre.seq zeros)
    else
      let sl := mk 1 s.tre.seq (s.bytesAt (0x40048800 + s.ownOfs i + 2) (entLen e - 4))
      if (s.sendBad i e).isEmpty then some sl else some (sl.take (entLen e - 2) ++ (sl.drop (entLen e - 2)).map (~~~ ·))
  else if s.partnerOwns e && s.tre.cover && s.tre.tabok && s.sys.thru then some (mk 3 0 zeros)
  else none

/-- A body with this node's slots written, and those of its partner as they were decoded from the outbound-out port (04
R126; 06 R177); with TABOK = 0 it is unchanged (06 R189). -/
def State.writeSlots (s : State) (tcount : Word) (ofs : List Nat) (beside : Option (List Byte)) (body : List Byte) :
    List Byte :=
  s.entries.foldl (fun b x => match s.slotFor tcount x.1 x.2, beside with
    | some sl, _ => patchAt b (ofs.getD x.1 0) sl
    | none, some bs => if s.tre.tabok && s.partnerOwns x.2 then patchAt b (ofs.getD x.1 0) (slice bs (ofs.getD x.1 0) (entLen x.2)) else b
    | none, none => b) body

/-- The payload symbols that hold bits of entry i of n-bit symbols (06 R175). -/
def entSymbols (n o len : Nat) : List Nat := ((List.range ((8 * (o + len) + n - 1) / n)).filter fun j => 8 * o < (j + 1) * n)

/-- The payload symbols of the entries that a condition picks. -/
def State.symbolsOf (s : State) (n : Nat) (ofs : List Nat) (p : Nat × Word → Bool) : List Nat :=
  (s.entries.filter p).flatMap fun x => entSymbols n (ofs.getD x.1 0) (entLen x.2)

/-- The payload symbols that hold this node's own groups, as it sends them by itself (06 R177). -/
def State.ownSymbols (s : State) (tcount : Word) (n : Nat) (ofs : List Nat) : List Nat :=
  s.symbolsOf n ofs fun x => s.owns x.2 && (s.slotFor tcount x.1 x.2).isSome

/-- The payload symbols a sender of the outbound pass sends: all but those of its partner's groups, unless it covers them (01
R20; 06 R181). -/
def State.passSymbols (s : State) (n : Nat) (ofs : List Nat) (body : List Byte) : List Nat :=
  let leave := if s.tre.tabok && !s.tre.cover then s.symbolsOf n ofs fun x => s.partnerOwns x.2 else []
  (List.range ((8 * body.length + 32 + n - 1) / n)).filter fun j => !leave.contains j

/-- The parity entries and EV235 of the send-bank bytes it reads as it writes its slots (15 R406). -/
def State.sendParity (s : State) : State :=
  if !s.writes || decide (s.tre.sync = .muted) then s
  else
    let bad := (s.entries.filter fun x => s.owns x.2).flatMap fun x => s.sendBad x.1 x.2
    s.each bad fun a t => t.parityFx 7 .waymark (a / 4 * 4) (BitVec.ofNat 4 (2 ^ (a % 4)))

/-! ### Commit (06 R183) -/

/-- At the local T0 a pending commit copies the write bank into the send bank. -/
def State.commitTake (s : State) : State :=
  if !s.tre.commit then s
  else
    let t := (s.wordReads 0x40048000 2048).bufWrite 0x40048800 (s.bytesAt 0x40048000 2048)
    State.raise 100 { t with tre.commit := false, tre.seq := t.tre.seq + 1 }

/-! ### Reading the return pass (06 R174, R179, R184) -/

/-- One slot of a return pass: the live bank, the bits of R184, and at the benchmark the standing waymarks (12 R331). -/
def State.readSlot (epoch : Byte) (tcount : Word) (body : List Byte) (ofs : Nat) (i : Nat) (e : Word) (s : State) : State :=
  let bs := slice body ofs (entLen e)
  let ok := slotOk epoch (entPrefix e) tcount bs
  let stat := byteAt bs 0
  let t := s.bufWrite (0x40049000 + imgOfs s.tre.table i) bs
  let u : State := { t with
    tre.liveok := putBit t.tre.liveok i (ok && decide (stat = 1))
    tre.livecover := putBit t.tre.livecover i (ok && decide (stat = 3))
    tre.livemute := putBit t.tre.livemute i (ok && decide (stat = 2)) }
  if s.isBench && ok && decide (stat = 1) && entOwned e && s.standingEntry (entOwner e) == some i then
    u.standingSeen (entOwner e) (byteAt bs 1)
  else u

/-- Every slot of a return pass; EV090 where one fails its CRC. -/
def State.readPass (tmi : Nat) (epoch : Byte) (tcount : Word) (body : List Byte) (s : State) : State :=
  if !s.tre.tabok then s
  else
    let ofs := tabOfs (s.ringNdbps tmi) s.tre.table
    let l := s.entries
    let bad := l.any fun x => !slotOk epoch (entPrefix x.2) tcount (slice body (ofs.getD x.1 0) (entLen x.2))
    let t : State := { s with tre.liveok := 0, tre.livecover := 0, tre.livemute := 0, tre.passOpen := true }
    (t.each l fun x u => u.readSlot epoch tcount body (ofs.getD x.1 0) x.1 x.2).raiseIf bad 90

/-- Sound slots go to the latest bank, and TRE_RXOK is set (06 R184). -/
def State.latestTake (s : State) : State :=
  let t := s.each (s.entries.filter fun x => s.tre.liveok.getLsbD x.1) fun x u =>
    let o := imgOfs s.tre.table x.1
    (u.wordReads (0x40049000 + o) (entLen x.2)).bufWrite (0x4004A000 + o) (u.bytesAt (0x40049000 + o) (entLen x.2))
  { t with tre.rxok := t.tre.liveok }

/-- The latest bank and TRE_RXOK are frozen at the latch instant (06 R184, R197). -/
def State.freeze (s : State) : State :=
  let t := (s.wordReads 0x4004A000 4096).bufWrite 0x4004B000 (s.bytesAt 0x4004A000 4096)
  { t with tre.frzok := t.tre.rxok }

/-! ### Claims (06 R190) -/

/-- Send CLAIM for each declared waymark: EV096. -/
def State.claimPayload (n : BitVec 6) (d : Half) : List Byte :=
  [0x20, n.setWidth 8, BitVec.ofNat 8 (fld d 8 5), d.setWidth 8]

/-- Claims allowed for by the edits placed and queued. -/
def State.tableAhead (s : State) : List Word :=
  let put (t : List Word) (x : Nat × Word) : List Word := if x.1 < t.length then t.set x.1 x.2 else t ++ [x.2]
  let base := match s.tre.lastEdit with
    | some (i, seq, e, _) => if seq = s.tre.tabseq + 1 then put s.tre.table (i.toNat, e) else s.tre.table
    | none => s.tre.table
  s.tre.edits.foldl (fun t x => put t (x.1.toNat, x.2)) base

/-- The benchmark grants a claim, a repeated one again (log 211), or queues it for the steward, where the queue has room (06
R191; log 212). -/
def State.claimRx (nid : BitVec 6) (len8 user : Nat) (s : State) : State :=
  if !s.isBench then s
  else if s.sys.splitAct.getLsbD 2 then
    (if s.tre.claims.length < 16 then
      { s with tre.claims := s.tre.claims ++ [packW [(31, 1), (16, nid.toNat), (8, len8), (0, user)]] } else s)
  else
    let tab := s.tableAhead
    let fits (e : Word) := entLayby e && !entOwned e && decide (len8 ≤ fld e 8 5)
    match (List.range tab.length).find? fun i => fits (tab.getD i 0) with
    | some i =>
      let e := mkEntry true (some nid) (fld (tab.getD i 0) 8 5) user
      { s with tre.edits := s.tre.edits ++ [(BitVec.ofNat 8 i, e)] }
    | none =>
      let e := mkEntry false (some nid) len8 user
      if s.regBit Reg.TRE_CTL 2 && tabOk (tab ++ [e]) then
        { s with tre.edits := s.tre.edits ++ [(BitVec.ofNat 8 tab.length, e)] }
      else s

/-- Send the claims of a node that has none of its declared waymarks. -/
def State.claimSend (s : State) : State :=
  match s.svy.nid with
  | none => s
  | some n =>
    let t := s.raise 96
    t.each t.tre.decls fun d u =>
      if u.isBench then u.claimRx n (fld d 8 5) (fld d 0 8) else u.sendMgmt u.tre.bench 0 (State.claimPayload n d)

/-- A node with a NID, TABOK, declarations and no entry claims (06 R190). -/
def State.claimDue (s : State) : Bool :=
  s.svy.nid.isSome && s.tre.tabok && !s.tre.decls.isEmpty && !s.ownsAny && s.svy.watch.isNone

/-- The first attempt. -/
def State.claimStart (s : State) : State :=
  if s.claimDue && decide (s.tre.claimTries = 0) then ({ s with tre.claimTries := 1 }).claimSend else s

/-- A late-comer whose NID owns entries watches them; otherwise the node claims (05 R163, R164). -/
def State.entriesStart (s : State) : State :=
  if s.svy.joined && !s.svy.taken && s.tre.tabok && s.ownsAny then
    (if s.svy.watch.isNone then { s with svy.watch := some (0, []), svy.watchLive := false } else s)
  else s.claimStart

/-! ### Changes of the table -/

/-- Entry i of the table becomes e. -/
def tabPut (tab : List Word) (i : Nat) (e : Word) : List Word := if i < tab.length then tab.set i e else tab ++ [e]

/-- An edit leaves a table that R176 accepts. -/
def State.editOk (s : State) (i : Byte) (e : Word) : Bool :=
  tabOk (tabPut s.tre.table i.toNat e) && decide (i.toNat ≤ s.nentries)

/-- The table has changed: a node that has entries has its grant, and would claim afresh; one that had entries and has none
claims at once (06 R190). -/
def State.claimFollow (had : Bool) (s : State) : State :=
  if s.ownsAny then { s with tre.claimTries := 0 }
  else if had then State.claimStart { s with tre.claimTries := 0 }
  else s

/-- An edit is applied: EV094, and EV097 where it grants this node's claim; one that breaks R176 is refused (06 R192). -/
def State.editApply (i : Byte) (seq : Byte) (e : Word) (s : State) : State :=
  if !s.editOk i e then s.raise 95
  else
    let mine := s.owns e && !s.owns (s.tre.table.getD i.toNat 0)
    let t : State := { s with tre.table := tabPut s.tre.table i.toNat e, tre.tabseq := seq, tre.editNext := none }
    ((t.raise 94).raiseIf mine 97).claimFollow s.ownsAny

/-- The TABLE request to the benchmark (06 R189). -/
def State.tableAsk (s : State) : State :=
  if s.svy.nid.isSome && !s.isBench then s.sendMgmt s.tre.bench 0 [0x21] else s

/-- TABOK as header and milestone show it; EV095 and a request where it clears. -/
def State.tabCheck (seq : Byte) (crc : Option Half) (s : State) : State :=
  let same := decide (seq = s.tre.tabseq) && (match crc with | some c => decide (c = tabCrc s.tre.table) | none => s.tre.tabok)
  if same = s.tre.tabok then s
  else if same then ({ s with tre.tabok := true }).entriesStart
  else (State.raise 95 { s with tre.tabok := false }).tableAsk

/-- At a cut without full renumbering: entries of NIDs that are not PRESENT become free lay-bys, TABSEQ + 1 (06 R188). -/
def State.tablePrune (s : State) : State :=
  { s with
    tre.table := s.tre.table.map fun e =>
      if entOwned e && !(s.svy.nidtab.getD (entOwner e).toNat 0).getLsbD 31 then
        mkEntry true none (fld e 8 5) (fld e 0 8) else e
    tre.tabseq := s.tre.tabseq + 1 }

/-- The benchmark loads its design table (06 R188); its claims start afresh (06 R190). -/
def State.designLoad (s : State) : State :=
  match s.tre.design with
  | some d => { s with tre.table := d, tre.tabseq := s.tre.tabseq + 1, tre.claimTries := 0 }
  | none => s

/-- TABLE frame: TABSEQ, ENTRIES, the entries and TABCRC (06 R189). -/
def State.tablePayload (s : State) : List Byte :=
  [0x22, s.tre.tabseq] ++ beBytes 2 s.nentries ++ s.tre.table.flatMap (fun e => beBytes 4 e.toNat) ++
    beBytes 2 (tabCrc s.tre.table).toNat

/-- In an open window with a request pending the benchmark broadcasts one TABLE frame. -/
def State.tableBroadcast (s : State) : State :=
  if s.isBench && s.tre.tableReq && s.road.open_ && !s.tre.tableSent then
    ({ s with tre.tableReq := false, tre.tableSent := true }).sendMgmtAll s.tablePayload
  else s

/-! ### The commands of the table -/

def execCommit (s : State) : Result := .next { s with tre.commit := true }

def onTableRequest (_f : RxFrame) (_h : RHdr) (_b : List Byte) (s : State) : State :=
  if s.isBench then ({ s with tre.tableReq := true }).tableBroadcast else s

def execTableRequest (f : RxFrame) (s : State) : Result := .next (s.roadRx f (mgmt 0x21 onTableRequest))

def execTableRequestRepeat (s : State) : Result :=
  .next (s.when s.coreRuns fun s => if !s.tre.tabok && s.hasEpoch then s.tableAsk else s)

/-- A TABLE frame: adopted from the next T0 where TABCRC matches and R176 holds, otherwise EV095. -/
def onTable (_f : RxFrame) (_h : RHdr) (b : List Byte) (s : State) : State :=
  let n := beAt b 2 2
  let tab := (List.range (min n 257)).map fun i => BitVec.ofNat 32 (beAt b (4 + 4 * i) 4)
  if s.isBench then s
  else if tabOk tab && decide (beAt b (4 + 4 * n) 2 = (tabCrc tab).toNat) then
    { s with tre.tableNext := some (byteAt b 1, tab) }
  else s.raise 95

def execTable (f : RxFrame) (s : State) : Result := .next (s.roadRx f (mgmt 0x22 onTable))

def onClaim (_f : RxFrame) (_h : RHdr) (b : List Byte) (s : State) : State :=
  s.claimRx ((byteAt b 1).setWidth 6) (fld (byteAt b 2) 0 5) (byteAt b 3).toNat

def execClaim (f : RxFrame) (s : State) : Result := .next (s.roadRx f (mgmt 0x20 onClaim))

/-- A claim is repeated up to 8 times, then given up with EV098. -/
def execClaimRetry (s : State) : Result := .next (s.when s.coreRuns fun s =>
    if !s.claimDue || decide (s.tre.claimTries = 0) || decide (9 ≤ s.tre.claimTries) then s
      else if s.tre.claimTries < 8 then ({ s with tre.claimTries := s.tre.claimTries + 1 }).claimSend
      else State.raise 98 { s with tre.claimTries := 9 })

/-- TRE_EDIT.GO at the benchmark queues TRE_EDITENT as an edit (06 R192). -/
def State.editWrite (v : Word) (s : State) : State :=
  if v.getLsbD 15 && s.isBench then
    { s with tre.edits := s.tre.edits ++ [(v.setWidth 8, s.reg Reg.TRE_EDITENT)] }
  else s

def execTableEdit (v : Word) (s : State) : Result := .next (s.editWrite v)

/-- TRE_CLAIM as it reads. -/
def State.claimWord (s : State) : Word := s.tre.claims.headD 0

def State.claimPop (s : State) : State := { s with tre.claims := s.tre.claims.drop 1 }

end Sys2Proof.Machine
end

