-- ==== Sys2Proof/Machine/Traverse.lean ====
section
/-! DEFINITION. The Traverse: header and milestone, passes, time transfer and synchronisation, closure, takeover, local
and ring T0, the Open Road window's opening, and the cut (06 R168 to R202; 01 R21 to R31; 05 R158, R163, R164). -/
namespace Sys2Proof.Machine

/-! ### Header and milestone (06 Tables 6.2 and 6.3) -/

structure THdr where
  leadin : Bool
  take : Bool
  epoch : Byte
  bench : BitVec 6
  tabseq : Byte
  tcount : Word
  accdly : Word
  tper : Half
  deriving DecidableEq, Repr

def THdr.parse (b : List Byte) : THdr where
  leadin := (byteAt b 0).getLsbD 3
  take := (byteAt b 0).getLsbD 2
  epoch := byteAt b 1
  bench := (byteAt b 2).setWidth 6
  tabseq := byteAt b 3
  tcount := BitVec.ofNat 32 (beAt b 4 4)
  accdly := BitVec.ofNat 32 (beAt b 8 4)
  tper := BitVec.ofNat 16 (beAt b 12 2)

/-- Bytes 0 to 13. -/
def THdr.body (h : THdr) : List Byte :=
  [BitVec.ofNat 8 (16 + h.leadin.toNat * 8 + h.take.toNat * 4), h.epoch, h.bench.setWidth 8, h.tabseq] ++
    beBytes 4 h.tcount.toNat ++ beBytes 4 h.accdly.toNat ++ beBytes 2 h.tper.toNat

/-- The 16 bytes of the header. -/
def THdr.bytes (h : THdr) : List Byte := h.body ++ beBytes 2 (crc16 h.body).toNat

def hcrcOk (b : List Byte) : Bool := decide ((crc16 (slice b 0 14)).toNat = beAt b 14 2)

/-- MCRC under its prefix EPOCH, BENCH, TCOUNT[15:0] (06 R172). -/
def mcrc (epoch : Byte) (bench : BitVec 6) (tcount : Word) (m : List Byte) : Half :=
  crc16 ([epoch, bench.setWidth 8] ++ beBytes 2 (tcount.toNat % 65536) ++ m)

/-! ### Time (06 R194 to R198) -/

def State.incar (s : State) : Nat := s.regFld Reg.TRE_SYNCCFG 24 8
def State.lockN (s : State) : Nat := clampN 1 15 (s.regFld Reg.TRE_SYNCCFG 0 4)

/-- One core clock, 5 ns, with the rate correction in force (06 R194; log 5). -/
def State.tick (s : State) : State :=
  let f := s.tre.frac + 5 * s.tre.rate
  let t : State := { s with
    tre.time := s.tre.time + 5 + BitVec.ofInt 64 (f / 1000000000)
    tre.frac := f % 1000000000
    tre.slewLeft := s.tre.slewLeft - 1 }
  if t.tre.slewLeft = 0 then { t with tre.rate := 0 } else t

/-- Control cycle length in us: CRATIO times the period. -/
def State.cycleUs (s : State) : Nat := 2 ^ s.tre.cratio.toNat * s.periodNs / 1000

/-- Another unit is present in the car. -/
def State.hasPartner (s : State) : Bool := s.svy.nid.any fun n => s.present (n ^^^ 1)

/-- MUTED is entered: EV084, MUTES, and the through role goes to the other unit; unit B keeps it while unit A is muted, and so
does a unit that is alone (06 R196; 01 R19). A change that comes at the next T0 stays (01 R21). -/
def State.mute (s : State) : State :=
  let keep := s.sys.thru && (!s.hasPartner || (s.unitB && s.unitAMuted))
  State.revCheck <| State.raise 84 { s with
    tre.sync := .muted, tre.good := 0, tre.bad := 0, tre.mutes := satSucc s.tre.mutes
    sys.thru := keep }

/-- MUTED is left: EV085; unit A is the through unit again from the next T0 (01 R19, R21). -/
def State.unmute (s : State) : State :=
  State.raise 85 { s with
    tre.sync := .locked, tre.good := 0, tre.bad := 0, sys.thruNext := s.sys.thruNext || (!s.unitB && !s.sys.thru) }

/-- Synchronisation state after a milestone with this offset (06 Table 6.7). -/
def State.syncStep (off : Int) (s : State) : State :=
  let near := decide (off.natAbs ≤ 125)
  let far := decide (2000 < off.natAbs)
  let locks := decide (s.lockN ≤ s.tre.good + 1)
  match s.tre.sync with
  | .free => { s with tre.sync := .acq, tre.good := 0, tre.bad := 0 }
  | .acq =>
    if far then s.mute
    else if near then
      (if locks then State.raise 82 { s with tre.sync := .locked, tre.good := 0, tre.bad := 0 }
        else { s with tre.good := s.tre.good + 1 })
    else { s with tre.good := 0 }
  | .locked =>
    if far then s.mute
    else if near then { s with tre.bad := 0 }
    else if 1 ≤ s.tre.bad then State.revCheck <| State.raise 83 { s with tre.sync := .acq, tre.good := 0, tre.bad := 0 }
    else { s with tre.bad := s.tre.bad + 1 }
  | .muted =>
    if near then
      (if locks then s.unmute
        else { s with tre.good := s.tre.good + 1 })
    else { s with tre.good := 0 }

/-- Slew over the next four periods by at most 100 ppm, or a step with EV103 in FREE and MUTED, which the end of the last
survey exchange follows (06 R194, 05 R138). -/
def State.timeTransfer (off : Int) (s : State) : State :=
  let t : State := { s with tre.offset := BitVec.ofInt 32 off }
  if s.tre.sync = .free ∨ s.tre.sync = .muted then
    State.raise 103 { t with
      tre.time := t.tre.time - BitVec.ofInt 64 off, tre.rate := 0, tre.slewLeft := 0
      svy.until_ := BitVec.ofNat 64 ((t.svy.until_.toNat : Int) - off).toNat }
  else
    let ppb : Int := (-off * 1000000000).tdiv (4 * (s.periodNs : Int))
    { t with tre.rate := max (-100000) (min 100000 ppb), tre.slewLeft := 4 * s.periodNs / 5 }

/-- LATOFS as a milestone or the benchmark's register gives it, within the control cycle: EV087 where it is reduced and the
check is made (06 R198). -/
def State.latSet (check : Bool) (latofs : Nat) (s : State) : State :=
  let late := decide (s.cycleUs ≤ latofs)
  let v := if late then latofs % s.cycleUs else latofs
  State.raiseIf (check && late) 87 { s with tre.latofs := BitVec.ofNat 22 v }

/-- TRE_PERIOD and TRE_LATCH as written. -/
def State.latWritten (s : State) : BitVec 12 × Word := ((s.reg Reg.TRE_PERIOD).setWidth 12, s.reg Reg.TRE_LATCH)

/-- The benchmark puts its LATOFS into effect; `check` says whether values new to the ring do (06 R170, R198). -/
def State.latTake (check : Bool) (s : State) : State :=
  State.latSet check (fld s.latWritten.2 0 22) { s with tre.latUsed := some s.latWritten }

/-! ### Taking a milestone -/

/-- The last edit of the ring, with the count at which it was first seen: a node that takes over repeats it (06 R192, R200). -/
def State.lastEditOf (s : State) (h : THdr) (mil : Option (List Byte)) : Option (Byte × Byte × Word × Word) :=
  match mil with
  | none => s.tre.lastEdit
  | some m =>
    let x : Byte × Byte × Word := (byteAt m 20, byteAt m 21, BitVec.ofNat 32 (beAt m 22 4))
    if s.tre.lastEdit.any fun y => (y.1, y.2.1, y.2.2.1) == x then s.tre.lastEdit else some (x.1, x.2.1, x.2.2, h.tcount)

/-- The header's TABSEQ and the milestone's edit against the table held (06 R189, R192). -/
def State.tabFollow (h : THdr) (mil : Option (List Byte)) (s : State) : State :=
  let seen : Option (Byte × Byte × Word × Word) := mil.bind fun m =>
    if byteAt m 21 = s.tre.tabseq + 1 then some (byteAt m 20, byteAt m 21, BitVec.ofNat 32 (beAt m 22 4), h.tcount) else none
  let next := match seen with | some x => some x | none => s.tre.editNext
  let t : State := { s with tre.editNext := next, tre.lastEdit := s.lastEditOf h mil }
  let u := match next with
    | some (i, q, e, _) => if q = s.tre.tabseq + 1 ∧ h.tabseq = q then t.editApply i q e else t
    | none => t
  u.tabCheck h.tabseq (mil.map fun m => BitVec.ofNat 16 (beAt m 14 2))

/-- A node follows the ring map the Traverse is sent with: EV052 where it is a map, not robust mode (04 R121). -/
def State.ringFollow (tmi : Nat) (s : State) : State :=
  if s.isBench || decide (s.liu.rtmi.toNat = tmi) then s
  else State.raiseIf (decide (tmi < 12)) 52 { s with liu.rtmi := BitVec.ofNat 4 tmi }

/-- The values every node takes from a valid header and milestone (06 R170, Table 6.3). -/
def State.ringValues (h : THdr) (m : List Byte) (s : State) : State :=
  let t : State := { s with
    tre.tcount := h.tcount
    tre.mtime := BitVec.ofNat 64 (beAt m 0 8)
    tre.per := h.tper.setWidth 12
    tre.cratio := (byteAt m 8 >>> 6).setWidth 2
    tre.eff := BitVec.ofNat 12 (beAt m 12 2)
    tre.rdly := BitVec.ofNat 32 (beAt m 16 4)
    tre.bench := h.bench
    tre.take := h.take
    tre.heardMil := true
    tre.latUsed := none }
  t.latSet true (beAt m 8 4 % 2 ^ 22)

/-- A valid milestone at its reference point: EV080, time, values, synchronisation, table and wayleave byte (06 R194, R195;
12 R329). -/
def State.milestone (h : THdr) (m : List Byte) (tmi tsrx hop : Nat) (s : State) : State :=
  let off : Int := (tsrx : Int) - ((beAt m 0 8 : Int) + (h.accdly.toNat : Int) + (hop : Int))
  let a := (s.ringValues h m).raise 80
  let b := ((a.timeTransfer off).syncStep off).ringFollow tmi
  (b.tabFollow h (some m)).byteTake h.tcount (slice m 26 32)

/-! ### Sending -/

/-- This car is the head of its piece: chainage 1, or nothing is heard on its leading side (01 R24, 06 R200; log 33). -/
def State.isHead (s : State) : Bool :=
  decide (s.car = 1) || (decide ((s.port s.outIn).state ≠ .carrier) && decide ((s.port s.outIn).state ≠ .locked))

/-- The header a regenerator sends: ACCDLY as given, HCRC valid, or inverted where it arrived invalid (06 Corner cases). -/
def regenHdr (b : List Byte) (hdrOk : Bool) (f : THdr → THdr) : List Byte :=
  if hdrOk then (f (THdr.parse b)).bytes
  else slice b 0 14 ++ beBytes 2 (~~~ (crc16 (slice b 0 14))).toNat

/-- ACCDLY of a pass this through unit sends on (06 R193). -/
def State.accNext (s : State) (rx tx : Fin 4) (h : THdr) : THdr :=
  { h with accdly := h.accdly + BitVec.ofNat 32 (s.tre.hopdly.toNat + fld (s.pcfg rx) 24 8 + 24000 + fld (s.pcfg tx) 16 8) }

/-- N_dbps under a TMI and the offsets of the table in force. -/
def State.ofsFor (s : State) (tmi : Nat) : List Nat := tabOfs (s.ringNdbps tmi) s.tre.table

/-- The other unit sends the symbols of its own groups by itself, on the segment of the outbound pass whose first P leaves
the sender's pins at a local time (06 R177, R178). -/
def State.sendOwn (p : Fin 4) (start : Dword) (tmi len : Nat) (pass : Bool) (tcount : Word) (s : State) : State :=
  let n := s.ringNdbps tmi
  let ofs := tabOfs n s.tre.table
  let only := s.ownSymbols tcount n ofs
  let body := s.writeSlots tcount ofs none (List.replicate len 0)
  let stop := start + BitVec.ofNat 64 (symbolNs * (4 + only.foldl max 0))
  if only.isEmpty || !s.canSend p then s
  else ((s.sendParity).modPort p fun c => { c with txFrom := some start, txEnd := some stop }).emit
    (.line p ⟨start, fcBytes .traverse tmi pass len, body, false, s.maskBits, s.heldMap p tmi, none, some only, false⟩)

/-- A Traverse this node sends whole but for the symbols of its partner's groups (01 R20; 04 R124, R126). -/
def State.sendPass (p : Fin 4) (start : Dword) (tmi : Nat) (pass bad writes : Bool) (body : List Byte) (s : State) : State :=
  let n := s.ringNdbps tmi
  let only := if writes then some (s.passSymbols n (tabOfs n s.tre.table) body) else none
  ((s.when writes State.sendParity).txFrameAt p start .traverse tmi pass bad only body).raiseIf (bad && s.canSend p) 55

/-- A returned frame at the benchmark (06 R199). -/
def State.returned (ok : Bool) (tsrx : Nat) (s : State) : State :=
  if s.isBench && s.tre.lastRet.isNone then { s with tre.lastRet := some (ok, BitVec.ofNat 64 tsrx) } else s

/-! ### T0 at the benchmark (06 R168 to R171, R192, R198) -/

/-- The map the Traverse is sent with: the ring map, or robust mode with RROB (04 R121, R122). -/
def State.sendTmi (s : State) : Nat :=
  if s.regBit Reg.LIU_CTL 8 || s.ringMap.isNone then 15 else s.liu.rtmi.toNat

/-- EFF: ROADOFS, or the least that clears the ring, with EV102 as it comes to be raised (06 R171). -/
def State.effSet (s : State) : State :=
  let n := s.ringNdbps s.sendTmi
  let d := symbolNs * frameSymbols false n (tabBody n s.tre.table)
  let least := (s.tre.rdly.toNat + d + 100000 + 249999) / 250000
  let e := max s.tre.roadofs.toNat least
  let up := decide (s.tre.roadofs.toNat < e)
  State.raiseIf (up && !s.tre.effRaised) 102 { s with tre.eff := BitVec.ofNat 12 (sat 12 e), tre.effRaised := up }

/-- Edits at a T0: one placed two T0s ago comes into force, and the next is placed. One that R176 refuses is dropped, with
EV095 (06 R192). -/
def State.editsStep (s : State) : State :=
  let flying := s.tre.lastEdit.any fun x => decide (x.2.1 = s.tre.tabseq + 1)
  let due := flying && s.tre.lastEdit.any fun x => decide (2 ≤ (s.tre.tcount - x.2.2.2).toNat)
  let t := match s.tre.lastEdit with
    | some (i, q, e, _) =>
      if due then (if s.editOk i e then s.editApply i q e else State.raise 95 { s with tre.lastEdit := none }) else s
    | none => s
  match t.tre.edits, flying && !due with
  | (i, e) :: rest, false =>
    if t.editOk i e then { t with tre.edits := rest, tre.lastEdit := some (i, t.tre.tabseq + 1, e, t.tre.tcount) }
    else State.raise 95 { t with tre.edits := rest }
  | _, _ => t

/-- The milestone this benchmark sends. -/
def State.milestoneOut (s : State) : List Byte :=
  let ed := s.tre.lastEdit.getD (0, 0, 0, 0)
  let m := beBytes 8 s.tre.mtime.toNat ++ beBytes 4 (s.tre.cratio.toNat * 2 ^ 30 + s.tre.latofs.toNat) ++
    beBytes 2 s.tre.eff.toNat ++ beBytes 2 (tabCrc s.tre.table).toNat ++ beBytes 4 s.tre.rdly.toNat ++
    [ed.1, ed.2.1] ++ beBytes 4 ed.2.2.1.toNat ++ s.wlv.bytes.toList
  m ++ beBytes 2 (mcrc s.svy.epoch (s.svy.nid.getD 0) s.tre.tcount m).toNat

/-- The body of a new Traverse: every slot VACANT (06 R174, R175). -/
def State.bodyOut (s : State) (leadin : Bool) (ofs : List Nat) (len : Nat) : List Byte :=
  let h : THdr := ⟨leadin, s.tre.take, s.svy.epoch, s.svy.nid.getD 0, s.tre.tabseq, s.tre.tcount, 0,
    BitVec.ofNat 16 (s.periodNs / 250000)⟩
  let head := h.bytes ++ s.milestoneOut
  s.entries.foldl (fun b x => patchAt b (ofs.getD x.1 0)
      (mkSlot s.svy.epoch (entPrefix x.2) s.tre.tcount 0 0 (List.replicate (entLen x.2 - 4) 0)))
    (head ++ List.replicate (len - 76) 0)

/-- When the first sample leaves a port's pins for it to reach the line terminals now (04 R133). -/
def State.pinsNow (s : State) (p : Fin 4) : Dword := s.tre.time - BitVec.ofNat 64 (fld (s.pcfg p) 16 8)

/-- The benchmark sends a Traverse, whose first sample is at the line terminals at T0 (06 R168); where its own car turns out,
that is the returned frame as well (01 R23; 06 R178). -/
def State.traverseSend (beside : Option (List Byte)) (s : State) : State :=
  let tmi := s.sendTmi
  let n := s.ringNdbps tmi
  let ofs := tabOfs n s.tre.table
  let blank := s.bodyOut (!s.isHead) ofs (tabBody n s.tre.table)
  if s.isHead then
    let body := s.writeSlots s.tre.tcount ofs beside blank
    let t := s.sendPass s.outOut (s.pinsNow s.outOut) tmi false false true body
    if s.sys.turned then
      (t.readPass tmi s.svy.epoch s.tre.tcount body).returned true (s.tre.mtime.toNat + 24000)
    else t
  else
    let t := s.sendPass s.retOut (s.pinsNow s.retOut) tmi true false false blank
    ({ t with tre.leadin := true }).raiseIf (!s.tre.leadin) 101

/-- What the benchmark settles before it sends, and its own milestone with offset 0. -/
def State.benchT0 (beside : Option (List Byte)) (s : State) : State :=
  let a : State := { s with
    tre.mtime := s.tre.time, tre.bench := s.svy.nid.getD 0, tre.tabok := true, tre.got := true, tre.missed := 0
    tre.lastRet := none, tre.closeSeen := false, tre.offset := 0, tre.heardMil := true }
  let b := (a.editsStep).effSet
  let c := if b.tre.tcount.toNat % 2 ^ b.tre.cratio.toNat = 0 then b.wlvCycle else b
  let d := ((c.raise 80).syncStep 0).byteTake c.tre.tcount c.wlv.bytes.toList
  d.traverseSend beside

/-- The benchmark sends Traverses: its role, the line domain, TRE_CTL.EN as in effect. -/
def State.benchRuns (s : State) : Bool := s.isBench && s.tre.enabled && s.lineUp && s.hasEpoch

def execT0 (beside : Option (List Byte)) (s : State) : Result := .next (s.when s.coreRuns fun s =>
    if s.benchRuns then State.benchT0 beside { s with tre.tcount := s.tre.tcount + 1 } else s)

/-! ### Local T0 (06 R183, R189, R202; 01 R21 to R31) -/

/-- Work in hand at a switch (16 R441): what is left in TRE_CLAIM is dropped when TRE grants again; the scrubber starts at
MEM_SCRUBRNG0 when the steward sets its ranges. -/
def State.splitHand (old : BitVec 10) (s : State) : State :=
  let a : State := if old.getLsbD 2 && !s.sys.splitAct.getLsbD 2 then { s with tre.claims := [] } else s
  if !old.getLsbD 8 && s.sys.splitAct.getLsbD 8 then { a with mem.scrubRng := 0 } else a

/-- SYS_SPLIT takes effect while P4 is in service, the handshake has passed, the node is not in Limp mode and the debug
module does not hold the steward halted; EV004 where the difference of the two changes (01 R29 to R31, 16 R443). -/
def State.splitTake (s : State) : State :=
  let req : BitVec 10 := (s.reg Reg.SYS_SPLIT).setWidth 10
  let ok := decide (s.sys.parts.get 4 = .inService) && s.boot.hsst && decide (s.boot.phase ≠ .limp) &&
    !s.ctl.hartS.halted
  let act : BitVec 10 := if ok then req else 0
  let diff := req ^^^ act
  (({ s with sys.splitAct := act, sys.splitDiff := diff }).splitHand s.sys.splitAct).raiseIf
    (decide (diff ≠ s.sys.splitDiff)) 4

/-- A table received is adopted (06 R189). -/
def State.tableAdopt (s : State) : State :=
  match s.tre.tableNext with
  | some (q, tab) =>
    (State.claimFollow s.ownsAny
      { s with tre.table := tab, tre.tabseq := q, tre.tableNext := none, tre.tabok := true, tre.editNext := none }).entriesStart
  | none => s

/-- The predicted count and time of a node that is not the benchmark (06 R197); a node that has had no milestone takes its
own local T0 (09 R258). -/
def State.predict (s : State) : State :=
  if s.isBench then s
  else if !s.tre.heardMil then { s with tre.mtime := s.tre.time, tre.got := false }
  else { s with tre.tcount := s.tre.tcount + 1, tre.mtime := s.tre.mtime + BitVec.ofNat 64 s.periodNs, tre.got := false }

/-- Roles that change at a T0 (01 R21, R24; 06 R201, R202). -/
def State.rolesTake (s : State) : State :=
  let a : State := { s with tre.enabled := s.regBit Reg.TRE_CTL 0 }
  let b : State := if a.tre.standDown then
    { a with tre.standDown := false, tre.take := false, sys.netrole := .backup,
             sys.rank := ((a.svy.nidtab.getD a.nidN 0) >>> 24).setWidth 6 } else a
  let c : State := if b.sys.thruNext then
    { b with sys.thruNext := false, sys.thru := true, sys.thruGive := false }
    else { b with sys.thruGive := false, sys.thru := b.sys.thru && !b.sys.thruGive }
  let d : State := if c.sys.turnNext then { c with sys.turnNext := false, sys.turned := true } else c
  match d.tre.coverNext with
  | some v => (({ d with tre.cover := v, tre.coverNext := none } : State)).raiseIf (v != d.tre.cover) 99
  | none => d

/-- The local T0. At the benchmark it comes just before the T0 (log 34). -/
def State.localT0 (s : State) : State :=
  let a := (s.roadClose).rolesTake
  let b := (((a.predict).tableAdopt).commitTake).splitTake
  let count := if b.isBench then b.tre.tcount + 1 else b.tre.tcount
  let c := (b.cairnAuto count).wlvSync
  ({ c with sys.roleShown := c.roleNow, tre.localT0s := c.tre.localT0s + 1 }).dmaFire (.strobe 2)

def execLocalT0 (s : State) : Result := .next (s.when s.coreRuns fun s => s.localT0)

/-! ### Receiving a Traverse -/

/-- How a received Traverse stands to this node. -/
inductive TrvPath where
  /-- on its way to the head of the ring -/
  | leadIn
  /-- outbound on the outbound-in port -/
  | outIn
  /-- outbound of the own car's transmitter -/
  | outOut
  /-- the return pass -/
  | ret
  | other
  deriving DecidableEq, Repr

/-- This unit takes the outbound pass from its outbound-out port: the other unit of the benchmark's car, and of the head car
of a ring with lead-in (06 R178, R194). -/
def State.besideSender (s : State) : Bool :=
  let mate := decide (s.tre.bench = s.svy.nid.getD 0 ^^^ 1)
  !s.isBench && ((s.isHead && (!s.sys.thru || mate)) || (!s.sys.thru && mate))

/-- The unit that is not the through unit of a car that turns out takes the return pass from its through unit's turnout
transmission (06 R179); one that joined late does not know that its car turns out, and finds no return pass before it. -/
def State.readsBeside (s : State) : Bool := !s.sys.thru && (s.sys.turned || (s.svy.joined && !s.tre.passOpen))

def State.trvPath (s : State) (p : Fin 4) (pass leadin : Bool) : TrvPath :=
  if pass && leadin then (if p = s.retIn then .leadIn else .other)
  else if pass then (if p = s.retIn || (decide (p = s.retOut) && s.readsBeside) then .ret else .other)
  else if p = s.outIn && !s.isHead && !s.besideSender then .outIn
  else if p = s.outOut && s.besideSender then .outOut
  else .other

/-- Rank of a NID: 0 for the benchmark of the epoch. -/
def State.rankOf (s : State) (n : BitVec 6) : Nat :=
  let e := s.svy.nidtab.getD n.toNat 0
  if e.getLsbD 30 then 0 else if fld e 24 6 = 0 then 64 else fld e 24 6

/-- A node that took over stands down for a better-ranked benchmark: EV093 (06 R201). -/
def State.standCheck (p : Fin 4) (h : THdr) (s : State) : State :=
  if s.isBench && s.tre.take && !s.tre.standDown && decide (h.bench ≠ s.svy.nid.getD 0) && decide (p = s.outIn) &&
      decide (s.rankOf h.bench < s.rankOf (s.svy.nid.getD 0)) then
    State.raise 93 { s with tre.standDown := true }
  else s

/-- What a node does with the pass itself: relay 24 us after its first P, write, read (04 R124; 06 R177 to R179). -/
def State.trvPass (f : RxFrame) (beside : Option (List Byte)) (path : TrvPath) (hdrOk bad : Bool) (tcount : Word)
    (s : State) : State :=
  let tmi := fcTmi f.fc
  let p := f.port
  let rest := f.body.drop 16
  let ofs := s.ofsFor tmi
  let out := f.ts + 24000
  let acc (tx : Fin 4) (lead : Bool) := regenHdr f.body hdrOk fun h => { s.accNext p tx h with leadin := lead }
  let plain := regenHdr f.body hdrOk id
  let wrote (b : List Byte) := s.writeSlots tcount ofs beside b
  match path with
  | .leadIn =>
    let s' := ({ s with tre.leadin := true }).raiseIf (!s.tre.leadin) 101
    if !s.sys.thru then s'
    else if s.isHead then s'.sendPass s.outOut out tmi false bad true (wrote (acc s.outOut false ++ rest))
    else s'.sendPass s.retOut out tmi true bad false (acc s.retOut true ++ rest)
  | .outIn =>
    if !s.sys.thru then
      s.sendOwn (if s.sys.turned then s.retOut else s.outOut) out tmi f.body.length s.sys.turned tcount
    else if s.sys.turned then
      let body := wrote (plain ++ rest)
      let t := s.sendPass s.retOut out tmi true bad true body
      (t.readPass tmi s.svy.epoch tcount body).returned (hdrOk && !bad && decide (tcount = s.tre.tcount))
        (s.tsrxOf f + 24000)
    else s.sendPass s.outOut out tmi false bad true (wrote (acc s.outOut false ++ rest))
  | .outOut =>
    let at_ := BitVec.ofNat 64 (s.tsrxOf f - s.incar - fld (s.pcfg p) 16 8)
    let t := s.sendOwn s.outOut at_ tmi f.body.length false tcount
    if s.sys.turned then t.readPass tmi s.svy.epoch tcount (s.writeSlots tcount ofs none f.body) else t
  | .ret =>
    let s' : State := if p = s.retOut then { s with sys.turned := true } else s
    let t := (s'.readPass tmi s.svy.epoch tcount f.body).returned (hdrOk && !bad && decide (tcount = s.tre.tcount)) (s.tsrxOf f)
    if s.sys.thru && !s.isHead then t.sendPass s.retOut out tmi true bad false (plain ++ rest) else t
  | .other => s

/-- A late-comer has no epoch: it takes the milestones of the ring it hears on line A (06 R195; 05 R163). -/
def State.trvFree (f : RxFrame) (h : THdr) (m : List Byte) (good : Bool) (s : State) : State :=
  if !good || fcPass f.fc || decide (2 ≤ f.port.val) || s.svy.dupunit then s
  else
    let t : State := { s with svy.orient := decide (f.port = 1) }
    t.milestone h m (fcTmi f.fc) (s.tsrxOf f) s.tre.hopdly.toNat

/-- A Traverse of this node's epoch. The wayleave byte comes with the milestone of the outbound pass, or with that of the return
pass where the outbound pass gave none (12 R329). In the head car of a ring with lead-in the through unit takes the time from the
lead-in pass (06 R194; log 210). -/
def State.trvOwn (f : RxFrame) (beside : Option (List Byte)) (h : THdr) (m : List Byte) (hdrOk milOk bad : Bool) (s : State) : State :=
  let path := s.trvPath f.port (fcPass f.fc) h.leadin
  let a : State := if hdrOk then { s with tre.got := true, tre.missed := 0 } else s
  let b := if hdrOk then a.standCheck f.port h else a
  let c := if hdrOk && b.sys.turned && b.sys.thru && b.isTailPort f.port then b.svyTrigger 3 else b
  let hop := if path = .outOut then c.incar else c.tre.hopdly.toNat
  let refers := decide (path = .outIn) || decide (path = .outOut) ||
    (decide (path = .leadIn) && c.isHead && c.sys.thru)
  let d := if refers && hdrOk && !c.isBench then
      (if milOk then c.milestone h m (fcTmi f.fc) (c.tsrxOf f) hop else c.tabFollow h none)
    else c
  let e := if decide (path = .ret) && hdrOk && milOk && !c.isBench then d.byteTake h.tcount (slice m 26 32) else d
  e.trvPass f beside path hdrOk bad (if hdrOk then h.tcount else e.tre.tcount)

/-- A Traverse received, whatever its CRC-32 says; each of HCRC and MCRC is judged on its own (06 R174, R194). -/
def State.trvRx (f : RxFrame) (beside : Option (List Byte)) (s : State) : State :=
  let cls := s.rxClass f
  let listens := decide (cls = .good) || decide (cls = .badCrc) || decide (cls = .erased)
  if cls = .good ∧ fcType f.fc ≠ .traverse then s
  else
    let t := s.rxFx f
    if !listens || decide (fcType f.fc ≠ .traverse) || !t.tre.enabled then t
    else
      let h := THdr.parse f.body
      let hdrOk := hcrcOk f.body
      let m := slice f.body 16 60
      let epoch := if hdrOk then h.epoch else t.svy.epoch
      let bench := if hdrOk then h.bench else t.tre.bench
      let tcount := if hdrOk then h.tcount else t.tre.tcount
      let milOk := decide ((mcrc epoch bench tcount (m.take 58)).toNat = beAt m 58 2)
      let u := (t.raiseIf (!hdrOk) 88).raiseIf (!milOk) 89
      let v := if hdrOk && decide (h.epoch ≠ 0) then u.modPort f.port fun c => { c with heard := true } else u
      if !v.hasEpoch then v.trvFree f h m (hdrOk && milOk)
      else if epoch = v.svy.epoch then v.trvOwn f beside h m hdrOk milOk (!s.crcOk f)
      else v

/-! ### The return pass is complete (06 R181, R184, R199; 05 R164) -/

/-- Closure check of the returned frame (06 R199). -/
def State.closure (s : State) : State :=
  match s.tre.lastRet with
  | none => s
  | some (ok, ts) =>
    if !s.isBench || s.tre.closeSeen then s
    else
      let d := (ts - s.tre.mtime).toNat
      let near := match s.tre.ringDelay with | some r => decide (d ≤ r + 200) && decide (r ≤ d + 200) | none => true
      if ok && near then
        { s with tre.closeSeen := true, tre.closeGood := s.tre.closeGood + 1, tre.rdly := BitVec.ofNat 32 d,
                 tre.ringDelay := some d, tre.closed := true }
      else State.raise 91 { s with tre.closeSeen := true, tre.closeFail := s.tre.closeFail + 1 }

/-- COVER in the own slots: the partner stops writing until a pass shows none (06 R181). -/
def State.coveredCheck (s : State) : State :=
  let own := s.entries.filter fun x => s.owns x.2
  if own.isEmpty || !s.tre.tabok then s
  else { s with tre.covered := own.any fun x => s.tre.livecover.getLsbD x.1 }

/-- One more return pass of a late-comer's watch; one that does not follow the pass before begins it again (05 R164). -/
def State.watchPass (s : State) : State :=
  match s.svy.watch with
  | none => s
  | some (n, old) =>
    let own := s.entries.filter fun x => s.owns x.2
    let now := own.filterMap fun x =>
      let bs := s.bytesAt (0x40049000 + imgOfs s.tre.table x.1) (entLen x.2)
      if slotOk s.svy.epoch (entPrefix x.2) s.tre.tcount bs then some (x.1, byteAt bs 0, byteAt bs 1) else none
    let live := now.any fun x => decide (x.2.1 = 2) ||
      (decide (x.2.1 = 1) && old.any fun o => decide (o.1 = x.1) && decide (o.2.2 ≠ x.2.2))
    let follows := decide (n = 0) || decide (s.tre.tcount = s.svy.watchAt + 1)
    { s with
      svy.watch := some (if follows then n + 1 else 1, now), svy.watchAt := s.tre.tcount
      svy.watchLive := s.svy.watchLive || (follows && live) }

/-- A slot of the car's other unit reads DATA in the return pass. -/
def State.partnerData (s : State) : Bool := s.entries.any fun x => s.partnerOwns x.2 && s.tre.liveok.getLsbD x.1

/-- Unit B, the through unit while unit A was muted, gives the role back as A's slots read DATA again (01 R19). -/
def State.giveBack (s : State) : State :=
  if s.unitB && s.sys.thru && s.tre.muteSeen && s.partnerData then { s with sys.thruGive := true } else s

/-- The partner's slots have read MUTED, and not DATA since (01 R19). -/
def State.muteMark (s : State) : State :=
  { s with tre.muteSeen := s.partnerMuted || (s.tre.muteSeen && !s.partnerData) }

def State.passComplete (s : State) : State :=
  if !s.tre.passOpen then s.closure
  else
    let t := (((({ s with tre.passOpen := false }).latestTake).dmaFire (.strobe 3)).coveredCheck).watchPass
    (t.giveBack.muteMark).closure

def execReturnPassComplete (s : State) : Result := .next s.passComplete

/-- T0 + EFF has come without a returned frame (06 R199). -/
def execClosureFail (s : State) : Result :=
  .next (if s.isBench && !s.tre.closeSeen then
    State.raise 91 { s with tre.closeSeen := true, tre.closeFail := s.tre.closeFail + 1 } else s)

/-- HOLDT without a valid milestone (06 Table 6.7). -/
def execSyncHoldExpiry (s : State) : Result :=
  .next (s.when s.coreRuns fun s => if s.tre.sync = .acq ∨ s.tre.sync = .locked then s.mute else s)

/-! ### Missed Traverses and takeover (06 R200) -/

def execMissedTraverse (s : State) : Result := .next (s.when s.coreRuns fun s =>
    if s.hasEpoch && !s.isBench && !s.tre.got then
      State.raise 86 { s with tre.missed := s.tre.missed + 1 } else s)

/-- A backup takes over at this predicted T0 with the period and table of the ring, its own TRE_LATCH and TRE_ROAD, and an
offset of 0, and its settle timer starts (06 R170, R188, R194, R198, R200). -/
def State.takeover (beside : Option (List Byte)) (s : State) : State :=
  let lat := s.reg Reg.TRE_LATCH
  let due := decide (s.takeN + s.sys.rank.toNat ≤ s.tre.missed + 1) && decide (s.sys.netrole = .backup)
  if !due || s.regBit Reg.TRE_CTL 1 || !s.tre.enabled || !s.lineUp || !s.hasEpoch then s
  else
    let a : State := { s with
      sys.netrole := .benchmark, tre.take := true, tre.missed := 0, tre.ringDelay := none, tre.lastRet := none
      tre.closeSeen := false, tre.bench := s.svy.nid.getD 0, tre.got := true, tre.tabok := true, tre.offset := 0
      tre.cratio := (lat >>> 30).setWidth 2, tre.roadofs := (s.reg Reg.TRE_ROAD).setWidth 12, tre.effRaised := false }
    let a' := a.when a.tre.table.isEmpty fun t => t.designLoad.claimStart
    let b := ((a'.raise 92).wlvAdopt).latTake true
    let c := if b.svy.state = .idle then b.svySettle none else b
    let d := (c.effSet).raise 80
    State.traverseSend beside { d with sys.roleShown := d.roleNow }

def execTakeover (beside : Option (List Byte)) (s : State) : Result := .next (s.when s.coreRuns fun s => s.takeover beside)

/-! ### Cover (06 R181) -/

/-- Two Traverses without the partner's carrier: COVER from the next T0. -/
def execCoverStart (s : State) : Result := .next (s.when s.coreRuns fun s =>
    if s.sys.thru && s.tre.tabok && s.tre.table.any s.partnerOwns && !s.tre.cover then
      { s with tre.coverNext := some true } else s)

/-- The partner's RESUME: covering stops at the next T0. -/
def onResume (_f : RxFrame) (h : RHdr) (_b : List Byte) (s : State) : State :=
  if s.sys.thru && s.svy.nid.any (fun n => n ^^^ 1 == h.src) && (s.tre.cover || s.tre.coverNext == some true) then
    { s with tre.coverNext := some false }
  else s

def execResume (f : RxFrame) (s : State) : Result := .next (s.roadRx f (mgmt 0x12 onResume))

/-! ### Roles (01 R21, R24) -/

/-- The car's through unit has stopped regenerating: this unit takes over at the next T0; a unit B that is the through unit
while unit A regenerates again gives the role back (01 R19, R21). -/
def execThroughUnitChange (partnerRuns : Bool) (s : State) : Result :=
  .next (if !s.hasEpoch then s
    else if !partnerRuns && !s.sys.thru then { s with sys.thruNext := true }
    else if partnerRuns && s.sys.thru && s.unitB then { s with sys.thruGive := true }
    else s)

/-- The Traverse no longer continues beyond the car: its through unit turns out at the next T0, with survey trigger 2 (01 R24;
05 R140). The car's other unit, which hears the same segments, sends and reads accordingly (06 R177, R179; log 179). -/
def execTurnout (s : State) : Result :=
  .next (if s.hasEpoch && !s.sys.turned && !s.sys.turnNext then
    State.when { s with sys.turnNext := true } s.sys.thru (State.svyTrigger 2) else s)

/-- Clearing TRE_CTL.EN takes effect at the next T0 (06 R202). -/
def execTraverseDisable (s : State) : Result :=
  .next (s.setReg Reg.TRE_CTL (clrBit (s.reg Reg.TRE_CTL) 0))

/-! ### The Open Road window (07 R203; 05 R163; 06 R181, R189) -/

/-- A partner whose slots read COVER asks for them back. -/
def State.resumeSend (s : State) : State :=
  if s.tre.covered && decide (s.tre.sync ≠ .free) && s.ownsAny && s.svy.watch.isNone then
    s.each (((s.tailPorts ++ s.headPorts).filter s.usable).take 1) fun p t => t.sendLocal p true 0 0 [0x12]
  else s

/-- The Open Road window of this Traverse is empty: T0 + EFF is not at least 250 us before the next T0 (06 R171). -/
def State.windowEmpty (s : State) : Bool := decide (s.periodNs < 250000 * s.tre.eff.toNat + 250000)

/-- The window opens, unless it is empty: road, tone maps, TABLE, RESUME and JOIN. -/
def State.windowOpen (s : State) : State :=
  if s.windowEmpty then s
  else
  let a := (({ s with tre.tableSent := false }).roadOpen).toneWindow
  let b := ((a.tableBroadcast).resumeSend)
  b.when b.lateComer State.joinSend

def execRoadWindowOpen (s : State) : Result := .next (s.when s.coreRuns fun s => s.windowOpen)

/-! ### Late-comers (05 R163, R164) -/

/-- HERE on both A1 and A2 from one car: the late-comer takes that chainage and its NID. Its network role and the number of
cars HERE does not give: it is a member, and CARS reads 0 until the next cut (log 180). -/
def onHere (f : RxFrame) (_h : RHdr) (b : List Byte) (s : State) : State :=
  let x : Fin 4 × Byte × Byte := (f.port, byteAt b 1, byteAt b 2)
  if !s.lateComer || decide (2 ≤ f.port.val) then s
  else
    let t : State := { s with svy.heres := x :: s.svy.heres.filter (· != x) }
    if t.svy.heres.contains (farEnd f.port, x.2.1, x.2.2) && decide (1 ≤ x.2.1.toNat) && decide (x.2.1.toNat ≤ 32) &&
        decide (x.2.2 ≠ 0) then
      let nid := 2 * (x.2.1.toNat - 1) + t.unitB.toNat
      let u : State := State.raise 77 { t with
        svy.epoch := x.2.2, svy.chain := x.2.1.setWidth 6, svy.nid := some (BitVec.ofNat 6 nid), svy.joined := true
        svy.heres := [], svy.joins := 0, svy.taken := false, sys.netrole := .member, sys.thru := false, sys.turned := false
        tre.claimTries := 0 }
      (u.entriesStart).wlvSync
    else t

def execHere (f : RxFrame) (s : State) : Result := .next (s.roadRx f (mgmt 0x11 onHere))

/-- Three return passes have been watched (05 R164). -/
def State.watchEnd (s : State) : State :=
  match s.svy.watch with
  | some (n, _) =>
    if n < 3 then s
    else if s.svy.watchLive then s.svyDup
    else { s with svy.watch := none, svy.taken := true }
  | none => s

def execLatecomerCheck (s : State) : Result := .next (s.when s.coreRuns fun s => s.watchEnd)

/-! ### The cut (05 R158; 06 R169, R170, R188, R198) -/

/-- The ring state of the new epoch. The milestone goes on repeating the last edit (06 R192; log 215); the benchmark checks
LATOFS where new values of TRE_PERIOD or TRE_LATCH take effect (06 R198). -/
def State.treCut (r : SvyResult) (hop : Nat) (s : State) : State :=
  let a : State := { s with
    tre.bench := r.bench, tre.take := false, tre.standDown := false, tre.leadin := false
    tre.hopdly := BitVec.ofNat 16 (sat 16 hop), tre.ringDelay := none, tre.lastRet := none, tre.closeSeen := true
    tre.closed := false, tre.missed := 0, tre.got := true, tre.cover := false, tre.covered := false, tre.coverNext := none
    tre.claimTries := 0, tre.edits := [], tre.editNext := none, tre.claims := []
    tre.tableReq := false, tre.tableNext := none, tre.liveok := 0, tre.passOpen := false }
  let b := if a.isBench && (r.full || a.tre.table.isEmpty) && a.tre.design.isSome then a.designLoad
    else if !r.full && (a.tre.tabok || a.isBench) && !a.tre.table.isEmpty then a.tablePrune else a
  if b.isBench then
    let lat := b.reg Reg.TRE_LATCH
    let c : State := { b with
      tre.per := BitVec.ofNat 12 (clampN 8 2048 (b.regFld Reg.TRE_PERIOD 0 12))
      tre.cratio := (lat >>> 30).setWidth 2
      tre.roadofs := (b.reg Reg.TRE_ROAD).setWidth 12
      tre.effRaised := false
      tre.offset := 0
      tre.tabok := true }
    c.latTake (decide (c.tre.latUsed ≠ some c.latWritten))
  else { b with tre.latUsed := none }

/-- Cars behind this node's car. -/
def State.behind (s : State) : Nat := s.svy.cars.toNat - s.car

/-- A turnout of the new ring changes at the cut: this car's; the old tail's, which opens where the train has grown behind this
car; or that of another car, as the command says (05 R158; log 35). -/
def State.turnoutMoves (elsewhere : Bool) (old new : State) : Bool :=
  decide (old.sys.turned ≠ new.sys.turned) || (old.hasEpoch && decide (old.behind < new.behind)) ||
    (elsewhere && decide (1 < new.svy.cars.toNat))

/-- The cut at a node that stores the RESULT. At the new benchmark it is the T0 too: the first Traverse of the new epoch
leaves, unless a turnout of the new ring changes. -/
def State.surveyCut (elsewhere : Bool) (beside : Option (List Byte)) (s : State) : State :=
  match s.svy.state, s.svy.result with
  | .cutwait, some r =>
    let was := s.isBench
    let hop := (s.svy.walk.map (·.hop)).getD 0
    let a := (((s.svyTake r).treCut r hop).toneCut).roadCut
    let b := ((a.ethCut).wlvCut).svyIdle
    let c : State := if was then { b with tre.tcount := b.tre.tcount + 1 } else b
    let e := ({ c with sys.roleShown := c.roleNow }).entriesStart
    if !e.benchRuns then e
    else if State.turnoutMoves elsewhere s c then { e with tre.mtime := e.tre.time }
    else e.benchT0 beside
  | _, _ => s

def execSurveyCut (elsewhere : Bool) (beside : Option (List Byte)) (s : State) : Result :=
  .next (s.when s.coreRuns fun s => s.surveyCut elsewhere beside)

end Sys2Proof.Machine
end

