-- ==== Sys2Proof/Machine/Operands.lean ====
section
/-! DEFINITION. The operands of itinerary entries: references and their spaces, words read and written by the sequencer,
and the numeric rules (10 R284, R285, R289, R291 to R293). -/
namespace Sys2Proof.Machine

/-! ### References (10 R284, Table 10.3) -/

/-- SPACE and INDEX of a reference. -/
def refSpace (r : Half) : Nat := fld r 12 4
def refIndex (r : Half) : Nat := fld r 0 12

/-- Base address and number of words of a space that lies in memory. -/
def spaceMem : Nat → Option (Nat × Nat)
  | 0 => some (0x20000000, 4096)
  | 1 => some (0x400B8800, 256)
  | 2 => some (0x400B8000, 256)
  | 3 => some (0x4004B000, 1024)
  | 4 => some (0x40048000, 512)
  | 5 => some (0x1007FF00, 64)
  | _ => none

/-- The reference may be an input: its space is not reserved and its INDEX lies in range. -/
def refInOk (r : Half) : Bool :=
  match spaceMem (refSpace r) with
  | some (_, n) => decide (refIndex r < n)
  | none => decide (refSpace r = 6) || decide (refSpace r = 15)

/-- The reference may be an output. -/
def refOutOk (r : Half) : Bool :=
  refInOk r && (decide (refSpace r = 0) || decide (refSpace r = 2) || decide (refSpace r = 4) || decide (refSpace r = 15))

/-- Address of the word a reference names. -/
def refAddr (r : Half) : Option Nat :=
  match spaceMem (refSpace r) with
  | some (b, n) => if refIndex r < n then some (b + 4 * refIndex r) else none
  | none => none

/-- Spaces 1 to 4 hold line order (10 R284). -/
def refBig (r : Half) : Bool := decide (1 ≤ refSpace r) && decide (refSpace r ≤ 4)

/-- The bytes of a word, reversed. -/
def swapWord (v : Word) : Word := BitVec.ofNat 32 (ofLe (beBytes 4 v.toNat))

/-- A word in the order of its space. -/
def refOrder (r : Half) (v : Word) : Word := if refBig r then swapWord v else v

/-- INDEX of an immediate, sign-extended; times 65 536 in a Q position. -/
def immValue (r : Half) (q : Bool) : Word :=
  let i : Word := BitVec.signExtend 32 (BitVec.ofNat 12 (refIndex r))
  if q then i <<< 16 else i

/-- A memory word as the sequencer reads it: none where a SECDED word is uncorrectable. A byte with a parity error is
used as stored (15 R406: the owning chapters name no consequence; log 37). -/
def State.seqWord (s : State) (a : Nat) : Option Word :=
  match memRegion? a with
  | some .sram | some .inst => s.eccWord a
  | some _ => some (s.wordAt a)
  | none => some 0

/-- What that read does besides: requester 0x06 (15 Table 15.2). -/
def State.seqReadFx (a : Nat) (s : State) : State := s.memReadFx 6 a 0xF

/-- The value of an input reference; `none_` is what a none input reads. -/
def State.refVal (s : State) (q : Bool) (none_ : Word) (r : Half) : Option Word :=
  match refAddr r with
  | some a => (s.seqWord a).map (refOrder r)
  | none => if refSpace r = 6 then some (immValue r q) else if refSpace r = 15 then some none_ else some 0

/-- What reading an input reference does besides. -/
def State.refFx (r : Half) (s : State) : State :=
  match refAddr r with
  | some a => s.seqReadFx a
  | none => s

/-- The sequencer writes a memory word. -/
def State.seqWrite (a : Nat) (v : Word) (s : State) : State :=
  match memRegion? a with
  | some .sram | some .inst => s.pokeWord 6 a v
  | some _ => s.bufWrite a (leBytes 4 v.toNat)
  | none => s

/-- Write an output reference; nothing for a none output. -/
def State.refWrite (r : Half) (v : Word) (s : State) : State :=
  if refOutOk r then
    match refAddr r with
    | some a => s.seqWrite a (refOrder r v)
    | none => s
  else s

/-- Address of a word of instance memory. -/
def instAddr (w : Nat) : Nat := 0x20000000 + 4 * w

/-! ### Numbers (10 R292, R293) -/

/-- A Boolean word: any non-zero word is true. -/
def isTrue (w : Word) : Bool := decide (w ≠ 0)

/-- The word of a Boolean output. -/
def boolWord (b : Bool) : Word := if b then 1 else 0

/-- Greatest and least of a 32-bit format. -/
def maxI : Int := 2147483647
def minI : Int := -2147483648

/-- A result and whether it saturated. -/
abbrev Sat := Int × Bool

/-- The nearer end of the range where a result lies outside it. -/
def satI (x : Int) : Sat := if maxI < x then (maxI, true) else if x < minI then (minI, true) else (x, false)

/-- n / d rounded half away from zero, for d above 0. -/
def roundDiv (n : Int) (d : Nat) : Int :=
  let m : Int := ((2 * n.natAbs + d) / (2 * d) : Nat)
  if n < 0 then -m else m

def satAdd (a b : Int) : Sat := satI (a + b)
def satSub (a b : Int) : Sat := satI (a - b)

/-- The Q product: exact, shifted right by 16, rounded half away from zero. -/
def qMul (a b : Int) : Sat := satI (roundDiv (a * b) 65536)

/-- What division by zero gives: 0 for a dividend of 0, else the saturated value of its sign. -/
def divZero (a : Int) : Int := if a = 0 then 0 else if a < 0 then minI else maxI

/-- The Q quotient, truncated toward zero. -/
def qDiv (a b : Int) : Sat := if b = 0 then (divZero a, false) else satI ((a * 65536).tdiv b)

/-- The integer square root, bit by bit from bit n - 1 down. -/
def isqrt (n x : Nat) : Nat :=
  (List.range n).reverse.foldl (fun r i => if (r + 2 ^ i) * (r + 2 ^ i) ≤ x then r + 2 ^ i else r) 0

/-- A word of a number. -/
def wordI (x : Int) : Word := BitVec.ofInt 32 x

end Sys2Proof.Machine
end

