-- ==== Sys2Proof/Machine/Control.lean ====
section
/-! DEFINITION. Program states, faults and the control timers (09 R259, R261, R262, R279, R280). -/
namespace Sys2Proof.Machine

/-! ### Timers in force (09 Table 9.12) -/

/-- INWAIT and OUTGUARD in us, WDOG in latch instants, OVRSTOP. -/
def State.inwaitUs (s : State) : Nat := 100 * clampN 1 255 (fld s.ctl.cyccfg 8 8)
def State.outguardUs (s : State) : Nat := 100 * clampN 1 255 (fld s.ctl.cyccfg 16 8)
def State.wdogN (s : State) : Nat := clampN 2 15 (fld s.ctl.cyccfg 24 4)
def State.ovrstop (s : State) : Bool := s.ctl.cyccfg.getLsbD 0

/-- Output deadline in us after L (09 R257). -/
def State.deadlineUs (s : State) : Nat := s.cycleUs - s.outguardUs

/-- The control cycle a program would run with: of the ring, or of TRE_PERIOD and TRE_LATCH at a node that has had no
milestone (09 R258, R260). -/
def State.runCycleUs (s : State) : Nat :=
  if s.tre.heardMil then s.cycleUs
  else 2 ^ s.regFld Reg.TRE_LATCH 30 2 * (250 * clampN 8 2048 (s.regFld Reg.TRE_PERIOD 0 12))

/-- What INWAIT, OUTGUARD and the work of a pass leave of the cycle (09 R260, 10 R298): times in ns. -/
def State.cycleFits (s : State) (workNs : Nat) : Bool :=
  decide (workNs + 1000 * (s.inwaitUs + s.outguardUs + 100) < 1000 * s.runCycleUs)

/-! ### States -/

/-- ITN_PSTAT.STATE code (09 Table 9.2). -/
def ProgState.code : ProgState → Nat
  | .none => 0 | .stop => 1 | .load => 2 | .init => 3 | .run => 4 | .faultstop => 5

/-- ITN_SEQ.STATE code (10 Table 10.6). -/
def SeqState.code : SeqState → Nat
  | .idle => 0 | .errseq => 1 | .main => 2 | .hook => 3 | .halt => 4

/-- Enter a program state: EV240 on RUN, EV241 on STOP and FAULTSTOP; drive and requests follow (09 Table 9.13). -/
def State.progTo (p : ProgState) (s : State) : State :=
  let t : State := { s with ctl.pstate := p }
  let u := (t.raiseIf (decide (p = .run)) 240).raiseIf (decide (p = .stop) || decide (p = .faultstop)) 241
  u.wlvSync

/-- A cycle in progress is gone, with any request to stop. -/
def State.cycleDrop (s : State) : State :=
  { s with
    ctl.running := false, ctl.waiting := false, ctl.inError := false, ctl.stopReq := false, ctl.overran := false
    itn.at_ := none }

/-- mepc of the control core (09 R279). -/
def State.mepc (s : State) : Word := s.ctl.hartC.csr 0x341

/-- A fault stops the program (09 R279): code, argument, SP_FAULT and the fault record, EV242. In HOOK the sequencer halts
(10 Table 10.6). -/
def State.faultStop (code : Half) (arg : Word) (s : State) : State :=
  let t : State := { s.cycleDrop with
    ctl.hartC.user := false
    ctl.fault := code
    ctl.faultarg := arg
    itn.seq := if s.itn.seq = .hook then .halt else s.itn.seq }
  ((t.spFaultCode code).raise 242).progTo .faultstop

/-- A fault met by the sequencer: it halts as well (10 Table 10.6). -/
def State.seqFault (code : Half) (arg : Word) (s : State) : State :=
  let t := s.faultStop code arg
  { t with itn.seq := .halt }

/-- A STOP request is taken; it takes effect at the next latch instant, or when INIT returns (09 R262). -/
def State.stopAsk (s : State) : State :=
  if s.progBusy then { s with ctl.stopReq := true } else s

/-- A cause of Table 9.9 arises (09 R275). -/
def State.cause (bit_ : Nat) (s : State) : State :=
  if s.ctl.pstate = .run then { s with ctl.pendcause := setBit s.ctl.pendcause bit_ } else s

end Sys2Proof.Machine
end

