-- ==== Sys2Proof/Machine/Blocks.lean ====
section
/-! DEFINITION. The function blocks of the itinerary, as functions of their inputs and instance records (10 R295 to R297,
Tables 10.4 and 10.5). -/
namespace Sys2Proof.Machine

/-- What a block computes from: IN0 to IN2, the words of its instance record it uses, dt, N and the index of a table
block, TRE_FRZOK, the missing stations, and a free value. -/
structure BlkIn where
  a : Word
  b : Word
  c : Word
  r : List Word
  dt : Nat
  n : Nat
  frzok : BitVec 256
  missing : Word
  free : Nat

/-- What it gives: OUT0 and OUT1 where the block has them, its record, whether it saturated, divided by zero, and took the
free value. -/
structure BlkOut where
  y : Option Word := none
  z : Option Word := none
  r : List Word := []
  sat : Bool := false
  divz : Bool := false
  drew : Bool := false

/-- Record word i. -/
def BlkIn.w (x : BlkIn) (i : Nat) : Word := x.r.getD i 0

/-- Record word i as a number. -/
def BlkIn.i (x : BlkIn) (i : Nat) : Int := (x.w i).toInt

/-- dt in Q seconds, rounded half away from zero (10 R295). -/
def BlkIn.dtq (x : BlkIn) : Int := roundDiv ((x.dt : Int) * 65536) 1000000

/-- A block whose result is one Boolean, one word, one number, and one that may saturate. -/
def outB (v : Bool) : BlkOut := { y := some (boolWord v) }
def outW (v : Word) : BlkOut := { y := some v }
def outI (v : Int) : BlkOut := { y := some (wordI v) }
def outS (v : Sat) : BlkOut := { y := some (wordI v.1), sat := v.2 }

/-- A type of block (10 Table 10.5). -/
structure Blk where
  code : Nat
  /-- words of the record. -/
  size : Nat := 0
  /-- step cost. -/
  cyc : Nat
  /-- inputs a, b, c in a Q position. -/
  qa : Bool := false
  qb : Bool := false
  qc : Bool := false
  /-- what a none input reads. -/
  none_ : Word := 0
  /-- time-based. -/
  timed : Bool := false
  /-- reads context word 11. -/
  lane : Bool := false
  /-- a table block: LOADX, or STOREX. -/
  loadx : Bool := false
  storex : Bool := false
  fn : BlkIn → BlkOut

/-! ### Boolean blocks -/

def bNop : Blk := { code := 0x00, cyc := 2, fn := fun _ => {} }
def bAnd : Blk := { code := 0x01, cyc := 4, none_ := 1, fn := fun x => outB (isTrue x.a && isTrue x.b && isTrue x.c) }
def bOr : Blk := { code := 0x02, cyc := 4, fn := fun x => outB (isTrue x.a || isTrue x.b || isTrue x.c) }
def bXor : Blk := { code := 0x03, cyc := 4, fn := fun x => outB (isTrue x.a != isTrue x.b) }
def bNot : Blk := { code := 0x04, cyc := 4, fn := fun x => outB (!isTrue x.a) }

def fnSr (x : BlkIn) : BlkOut :=
  let st := isTrue x.a || (isTrue (x.w 0) && !isTrue x.b)
  { outB st with r := [boolWord st] }
def bSr : Blk := { code := 0x05, size := 1, cyc := 4, fn := fnSr }

def fnRs (x : BlkIn) : BlkOut :=
  let st := !isTrue x.b && (isTrue x.a || isTrue (x.w 0))
  { outB st with r := [boolWord st] }
def bRs : Blk := { code := 0x06, size := 1, cyc := 4, fn := fnRs }

def fnRtrig (x : BlkIn) : BlkOut := { outB (isTrue x.a && !isTrue (x.w 0)) with r := [boolWord (isTrue x.a)] }
def bRtrig : Blk := { code := 0x07, size := 1, cyc := 4, fn := fnRtrig }

def fnFtrig (x : BlkIn) : BlkOut := { outB (!isTrue x.a && isTrue (x.w 0)) with r := [boolWord (isTrue x.a)] }
def bFtrig : Blk := { code := 0x08, size := 1, cyc := 4, fn := fnFtrig }

/-! ### Words -/

/-- b mod 32. -/
def BlkIn.sh (x : BlkIn) : Nat := fld x.b 0 5

def bBitget : Blk := { code := 0x09, cyc := 4, fn := fun x => outB (x.a.getLsbD x.sh) }
def bBitput : Blk := { code := 0x0A, cyc := 4, fn := fun x => outW (putBit x.a x.sh (isTrue x.c)) }
def bBand : Blk := { code := 0x0B, cyc := 4, none_ := 0xFFFFFFFF, fn := fun x => outW (x.a &&& x.b &&& x.c) }
def bBor : Blk := { code := 0x0C, cyc := 4, fn := fun x => outW (x.a ||| x.b ||| x.c) }
def bBxor : Blk := { code := 0x0D, cyc := 4, fn := fun x => outW (x.a ^^^ x.b) }
def bShl : Blk := { code := 0x0E, cyc := 4, fn := fun x => outW (x.a <<< x.sh) }
def bShr : Blk := { code := 0x0F, cyc := 4, fn := fun x => outW (x.a >>> x.sh) }

/-! ### Integers -/

def bAdd : Blk := { code := 0x10, cyc := 5, fn := fun x => outS (satI (x.a.toInt + x.b.toInt + x.c.toInt)) }
def bSub : Blk := { code := 0x11, cyc := 5, fn := fun x => outS (satSub x.a.toInt x.b.toInt) }
def bMul : Blk := { code := 0x12, cyc := 6, fn := fun x => outS (satI (x.a.toInt * x.b.toInt)) }

def fnDiv (x : BlkIn) : BlkOut :=
  if x.b = 0 then { outI (divZero x.a.toInt) with divz := true } else outS (satI (x.a.toInt.tdiv x.b.toInt))
def bDiv : Blk := { code := 0x13, cyc := 20, fn := fnDiv }

def fnMod (x : BlkIn) : BlkOut :=
  if x.b = 0 then { outI 0 with divz := true } else outI (x.a.toInt.tmod x.b.toInt)
def bMod : Blk := { code := 0x14, cyc := 20, fn := fnMod }

def bAbs : Blk := { code := 0x15, cyc := 4, fn := fun x => outS (satI (x.a.toInt.natAbs : Int)) }
def bNeg : Blk := { code := 0x16, cyc := 4, fn := fun x => outS (satI (-x.a.toInt)) }
def bMin : Blk := { code := 0x17, cyc := 5, fn := fun x => outI (min x.a.toInt x.b.toInt) }
def bMax : Blk := { code := 0x18, cyc := 5, fn := fun x => outI (max x.a.toInt x.b.toInt) }
def fnLimit (x : BlkIn) : BlkOut :=
  outI (if x.c.toInt < x.b.toInt then x.b.toInt else min (max x.a.toInt x.b.toInt) x.c.toInt)
def bLimit : Blk := { code := 0x19, cyc := 5, fn := fnLimit }
def bEq : Blk := { code := 0x1A, cyc := 4, fn := fun x => outB (decide (x.a = x.b)) }
def bNe : Blk := { code := 0x1B, cyc := 4, fn := fun x => outB (decide (x.a ≠ x.b)) }
def bGt : Blk := { code := 0x1C, cyc := 4, fn := fun x => outB (decide (x.b.toInt < x.a.toInt)) }
def bGe : Blk := { code := 0x1D, cyc := 4, fn := fun x => outB (decide (x.b.toInt ≤ x.a.toInt)) }
def bLt : Blk := { code := 0x1E, cyc := 4, fn := fun x => outB (decide (x.a.toInt < x.b.toInt)) }
def bLe : Blk := { code := 0x1F, cyc := 4, fn := fun x => outB (decide (x.a.toInt ≤ x.b.toInt)) }

/-! ### Moves and conversions -/

def bMove : Blk := { code := 0x20, cyc := 5, fn := fun x => { outW x.a with z := some x.b } }
def bSel : Blk := { code := 0x21, cyc := 4, fn := fun x => outW (if isTrue x.a then x.c else x.b) }
def bPack16 : Blk := { code := 0x22, cyc := 5, fn := fun x => outW ((x.a <<< 16) ||| (x.b &&& 0xFFFF)) }
def fnUnpack16 (x : BlkIn) : BlkOut :=
  { outW (x.a.sshiftRight 16) with z := some ((x.a <<< 16).sshiftRight 16) }
def bUnpack16 : Blk := { code := 0x23, cyc := 5, fn := fnUnpack16 }
def bBswap : Blk := { code := 0x24, cyc := 4, fn := fun x => outW (swapWord x.a) }
def bI2q : Blk := { code := 0x25, cyc := 4, fn := fun x => outS (satI (x.a.toInt * 65536)) }
def fnQ2i (x : BlkIn) : BlkOut := outI (roundDiv x.a.toInt 65536)
def bQ2i : Blk := { code := 0x26, cyc := 4, qa := true, qb := true, qc := true, fn := fnQ2i }

/-- a × K + OFS, exact until the end: a whole number times a Q number is a Q number. -/
def fnScale (x : BlkIn) : BlkOut :=
  { outS (satI (x.a.toInt * x.i 0 + x.i 1)) with r := x.r }
def bScale : Blk := { code := 0x27, size := 2, cyc := 8, fn := fnScale }

/-! ### Q arithmetic -/

def bQmul : Blk := { code := 0x28, cyc := 6, qa := true, qb := true, qc := true, fn := fun x => outS (qMul x.a.toInt x.b.toInt) }
def fnQdiv (x : BlkIn) : BlkOut := { outS (qDiv x.a.toInt x.b.toInt) with divz := decide (x.b = 0) }
def bQdiv : Blk := { code := 0x29, cyc := 24, qa := true, qb := true, qc := true, fn := fnQdiv }
def fnQsqrt (x : BlkIn) : BlkOut :=
  if x.a.toInt < 0 then { outI 0 with sat := true } else outI (isqrt 24 (x.a.toNat * 65536))
def bQsqrt : Blk := { code := 0x2A, cyc := 24, qa := true, qb := true, qc := true, fn := fnQsqrt }

def fnQmac (x : BlkIn) : BlkOut :=
  let p := qMul x.a.toInt x.b.toInt
  let y := satAdd p.1 x.c.toInt
  { outI y.1 with sat := p.2 || y.2 }
def bQmac : Blk := { code := 0x2B, cyc := 8, qa := true, qb := true, qc := true, fn := fnQmac }

/-! ### Timers and counters -/

def fnTon (x : BlkIn) : BlkOut :=
  let et : Int := if isTrue x.a then min (x.i 1 + x.dt) (x.i 0) else 0
  { outB (isTrue x.a && decide (x.i 0 ≤ et)) with z := some (wordI et), r := [x.w 0, wordI et, x.w 2] }
def bTon : Blk := { code := 0x2C, size := 3, cyc := 10, timed := true, fn := fnTon }

def fnTof (x : BlkIn) : BlkOut :=
  let et : Int := if isTrue x.a then 0 else min (x.i 1 + x.dt) (x.i 0)
  { outB (isTrue x.a || decide (et < x.i 0)) with z := some (wordI et), r := [x.w 0, wordI et, x.w 2] }
def bTof : Blk := { code := 0x2D, size := 3, cyc := 10, timed := true, fn := fnTof }

/-- The pulse: a rising edge sets bit 0 of FL, and while it is set ET grows, in that pass too (log 38). -/
def fnTp (x : BlkIn) : BlkOut :=
  let fl := x.w 2
  let start := isTrue x.a && !fl.getLsbD 1 && !fl.getLsbD 0
  let on := start || fl.getLsbD 0
  let et0 : Int := if start then 0 else x.i 1
  let et : Sat := if on then satAdd et0 x.dt else (et0, false)
  let run := on && decide (et.1 < x.i 0)
  let fl' := putBit (putBit fl 0 run) 1 (isTrue x.a)
  { outB run with z := some (wordI et.1), r := [x.w 0, wordI et.1, fl', x.w 3], sat := et.2 }
def bTp : Blk := { code := 0x2E, size := 4, cyc := 10, timed := true, fn := fnTp }

def fnCtu (x : BlkIn) : BlkOut :=
  let rise := isTrue x.a && !isTrue (x.w 2)
  let cv : Sat := if isTrue x.b then (0, false) else if rise then satAdd (x.i 1) 1 else (x.i 1, false)
  { outB (decide (x.i 0 ≤ cv.1)) with z := some (wordI cv.1), r := [x.w 0, wordI cv.1, boolWord (isTrue x.a)], sat := cv.2 }
def bCtu : Blk := { code := 0x2F, size := 3, cyc := 8, fn := fnCtu }

def fnCtd (x : BlkIn) : BlkOut :=
  let rise := isTrue x.a && !isTrue (x.w 2)
  let cv : Sat := if isTrue x.b then (x.i 0, false) else if rise then satSub (x.i 1) 1 else (x.i 1, false)
  { outB (decide (cv.1 ≤ 0)) with z := some (wordI cv.1), r := [x.w 0, wordI cv.1, boolWord (isTrue x.a)], sat := cv.2 }
def bCtd : Blk := { code := 0x30, size := 3, cyc := 8, fn := fnCtd }

/-! ### Control blocks -/

/-- p + in + d + c, saturating at each step. -/
def sum4 (p i d c : Int) : Sat :=
  let x := satAdd p i
  let y := satAdd x.1 d
  let z := satAdd y.1 c
  (z.1, x.2 || y.2 || z.2)

/-- PID (10 R297); record KP, KI, KD, LO, HI, I, EPREV, LASTTC. -/
def fnPid (x : BlkIn) : BlkOut :=
  let lo := x.i 3
  let hi := x.i 4
  let e := satSub x.a.toInt x.b.toInt
  let p := qMul (x.i 0) e.1
  let k := qMul (x.i 1) e.1
  let kd := qMul k.1 x.dtq
  let inn := satAdd (x.i 5) kd.1
  let de := satSub e.1 (x.i 6)
  let dk := qMul (x.i 2) de.1
  let dq := qDiv dk.1 x.dtq
  let d : Int := if x.dtq = 0 then 0 else dq.1
  let u := sum4 p.1 inn.1 d x.c.toInt
  let hold := (decide (hi < u.1) && decide (0 < e.1)) || (decide (u.1 < lo) && decide (e.1 < 0))
  let i' : Int := if hold then x.i 5 else inn.1
  let v := sum4 p.1 i' d x.c.toInt
  let y := if hi < lo then lo else min (max v.1 lo) hi
  let dsat := decide (x.dtq ≠ 0) && (de.2 || dk.2 || dq.2)
  { outI y with
    r := [x.w 0, x.w 1, x.w 2, x.w 3, x.w 4, wordI i', wordI e.1, x.w 7]
    sat := e.2 || p.2 || k.2 || kd.2 || inn.2 || dsat || u.2 || v.2 }
def bPid : Blk := { code := 0x31, size := 8, cyc := 30, qa := true, qb := true, qc := true, timed := true, fn := fnPid }

/-- First-order lag; record T, Y, LASTTC. -/
def fnLag (x : BlkIn) : BlkOut :=
  let a := x.a.toInt
  if x.i 0 ≤ 0 then { outI a with r := [x.w 0, wordI a, x.w 2] }
  else
    let diff := satSub a (x.i 1)
    let k := min 65536 (qDiv x.dtq (x.i 0)).1
    let step := qMul diff.1 k
    let y := satAdd (x.i 1) step.1
    { outI y.1 with r := [x.w 0, wordI y.1, x.w 2], sat := diff.2 || step.2 || y.2 }
def bLag : Blk := { code := 0x32, size := 3, cyc := 12, qa := true, qb := true, qc := true, timed := true, fn := fnLag }

/-- Ramp; record RUP, RDN, Y, LASTTC. A rate below 0 moves nothing (log 39). -/
def fnRamp (x : BlkIn) : BlkOut :=
  let a := x.a.toInt
  let up := qMul (max 0 (x.i 0)) x.dtq
  let dn := qMul (max 0 (x.i 1)) x.dtq
  let y := x.i 2
  let v : Sat := if y < a then
      (let t := satAdd y up.1; (min a t.1, up.2 || t.2))
    else if a < y then
      (let t := satSub y dn.1; (max a t.1, dn.2 || t.2))
    else (y, false)
  { outI v.1 with r := [x.w 0, x.w 1, wordI v.1, x.w 3], sat := v.2 }
def bRamp : Blk := { code := 0x33, size := 4, cyc := 12, qa := true, qb := true, qc := true, timed := true, fn := fnRamp }

/-- Integrator; record LO, HI, Y, a spare word, LASTTC. -/
def fnInteg (x : BlkIn) : BlkOut :=
  let p := qMul x.a.toInt x.dtq
  let t := satAdd (x.i 2) p.1
  let v : Sat := if isTrue x.b then (0, false) else (min (max t.1 (x.i 0)) (x.i 1), p.2 || t.2)
  { outI v.1 with r := [x.w 0, x.w 1, wordI v.1, x.w 3, x.w 4], sat := v.2 }
def bInteg : Blk := { code := 0x34, size := 5, cyc := 10, qa := true, timed := true, fn := fnInteg }

/-- Derivative; record XPREV, LASTTC. -/
def fnDeriv (x : BlkIn) : BlkOut :=
  let diff := satSub x.a.toInt (x.i 0)
  let q := qDiv diff.1 x.dtq
  let v : Sat := if x.dtq = 0 then (0, false) else (q.1, diff.2 || q.2)
  { outI v.1 with r := [x.a, x.w 1], sat := v.2 }
def bDeriv : Blk := { code := 0x35, size := 2, cyc := 24, qa := true, qb := true, qc := true, timed := true, fn := fnDeriv }

def fnDband (x : BlkIn) : BlkOut :=
  let a := x.a.toInt
  let db := x.i 0
  let v : Sat := if (a.natAbs : Int) ≤ db then (0, false)
    else if a = 0 then (0, false) else if a < 0 then satAdd a db else satSub a db
  { outI v.1 with r := x.r, sat := v.2 }
def bDband : Blk := { code := 0x36, size := 1, cyc := 5, qa := true, qb := true, qc := true, fn := fnDband }

def fnHyst (x : BlkIn) : BlkOut :=
  let s1 := if x.i 0 < x.a.toInt then true else isTrue (x.w 2)
  let st := if x.a.toInt < x.i 1 then false else s1
  { outB st with r := [x.w 0, x.w 1, boolWord st] }
def bHyst : Blk := { code := 0x37, size := 3, cyc := 6, qa := true, qb := true, qc := true, fn := fnHyst }

/-- Straight lines between points; record N, X0, Y0 to X7, Y7. -/
def fnLin (x : BlkIn) : BlkOut :=
  let n := if x.i 0 < 2 then 2 else if 8 < x.i 0 then 8 else (x.i 0).toNat
  let px (k : Nat) : Int := x.i (1 + 2 * k)
  let py (k : Nat) : Int := x.i (2 + 2 * k)
  let a := x.a.toInt
  let rising := (List.range (n - 1)).all fun k => decide (px k < px (k + 1))
  if !rising then { outI (py 0) with sat := true, r := x.r }
  else if a ≤ px 0 then { outI (py 0) with r := x.r }
  else if px (n - 1) ≤ a then { outI (py (n - 1)) with r := x.r }
  else
    let k := ((List.range (n - 1)).filter fun k => decide (px k ≤ a)).getLastD 0
    let dx := (px (k + 1) - px k).toNat
    { outI (roundDiv (py k * dx + (a - px k) * (py (k + 1) - py k)) dx) with r := x.r }
def bLin : Blk := { code := 0x38, size := 17, cyc := 28, qa := true, qb := true, qc := true, fn := fnLin }

/-- Moving average; record N, IDX, B0 to B15. Where IDX names no word of B, the word replaced is open (log 40). -/
def fnAvg (x : BlkIn) : BlkOut :=
  let n := if x.i 0 < 1 then 1 else if 16 < x.i 0 then 16 else (x.i 0).toNat
  let bad := decide (16 ≤ (x.w 1).toNat)
  let idx := if bad then x.free % 16 else (x.w 1).toNat
  let bs := (x.r.drop 2).set idx x.a
  let sum := (bs.take n).foldl (fun t w => t + w.toInt) 0
  { outI (roundDiv sum n) with r := [x.w 0, wordI (((idx : Int) + 1) % n)] ++ bs, drew := bad }
def bAvg : Blk := { code := 0x39, size := 18, cyc := 14, qa := true, qb := true, qc := true, fn := fnAvg }

/-! ### The rest -/

def bWmok : Blk := { code := 0x3A, cyc := 4, fn := fun x => outB (decide (x.a.toNat < 256) && x.frzok.getLsbD x.a.toNat) }
def fnLaneok (x : BlkIn) : BlkOut :=
  outB (decide (1 ≤ x.a.toNat) && decide (x.a.toNat ≤ 32) && !x.missing.getLsbD (x.a.toNat - 1))
def bLaneok : Blk := { code := 0x3B, cyc := 4, lane := true, fn := fnLaneok }

def fnFresh (x : BlkIn) : BlkOut :=
  let new := decide (x.a ≠ x.w 0)
  let cnt : Sat := if new then (0, false) else satAdd (x.i 1) 1
  { outB new with z := some (wordI cnt.1), r := [x.a, wordI cnt.1], sat := cnt.2 }
def bFresh : Blk := { code := 0x3C, size := 2, cyc := 6, fn := fnFresh }

def fnInrange (x : BlkIn) : BlkOut :=
  outB (decide (x.b.toInt ≤ x.a.toInt) && decide (x.a.toInt ≤ x.c.toInt))
def bInrange : Blk := { code := 0x3D, cyc := 5, fn := fnInrange }

/-- A table block reads, and may write, one word of its table: word 0 of r here. -/
def fnLoadx (x : BlkIn) : BlkOut :=
  { outW (x.w 0) with r := x.r, sat := decide (x.a.toInt < 0) || decide ((x.n : Int) ≤ x.a.toInt) }
def bLoadx : Blk := { code := 0x3E, size := 1, cyc := 6, loadx := true, fn := fnLoadx }

def fnStorex (x : BlkIn) : BlkOut :=
  let inside := decide (0 ≤ x.a.toInt) && decide (x.a.toInt < x.n)
  { outW (if inside then x.w 0 else 0) with r := if inside then [x.b] else [], sat := !inside }
def bStorex : Blk := { code := 0x3F, size := 1, cyc := 6, storex := true, fn := fnStorex }

/-- The library, in the order of the type codes. -/
def blkTable : List Blk := [
  bNop, bAnd, bOr, bXor, bNot, bSr, bRs, bRtrig, bFtrig, bBitget, bBitput, bBand, bBor, bBxor, bShl, bShr] ++ [
  bAdd, bSub, bMul, bDiv, bMod, bAbs, bNeg, bMin, bMax, bLimit, bEq, bNe, bGt, bGe, bLt, bLe] ++ [
  bMove, bSel, bPack16, bUnpack16, bBswap, bI2q, bQ2i, bScale, bQmul, bQdiv, bQsqrt, bQmac, bTon, bTof, bTp, bCtu] ++ [
  bCtd, bPid, bLag, bRamp, bInteg, bDeriv, bDband, bHyst, bLin, bAvg, bWmok, bLaneok, bFresh, bInrange, bLoadx, bStorex]

/-- The block of a type code. -/
def blkOf (type : BitVec 6) : Blk := blkTable.getD type.toNat bNop

end Sys2Proof.Machine
end

