-- ==== Sys2Proof/Machine/Dma.lean ====
section
/-! DEFINITION. The DMA channels (13): starting and dropping a channel, the descriptor, gates, triggers, the positions of a
transfer, arbitration, completion and errors. The beats are in Beats. -/
namespace Sys2Proof.Machine

def State.dch (s : State) (n : Fin 32) : DmaCh := s.dma.ch.get n

def State.setDch (n : Fin 32) (c : DmaCh) (s : State) : State := { s with dma.ch := s.dma.ch.set n c }

def Reg.chctl (n : Fin 32) : Nat := Reg.DMA_CHCTL + 0x20 * n.val

/-- Requester code of a channel (15 Table 15.6). -/
def dmaCode (n : Fin 32) : Byte := masterCode (.dma n)

def DmaState.code : DmaState → Nat
  | .idle => 0 | .fetch => 1 | .gatewait => 2 | .trigwait => 3 | .run => 4 | .wresp => 5 | .error => 6 | .stopping => 7

/-! ### Errors (13 R372) -/

/-- A channel in WRESP with an error pending, and its last response in, enters ERROR. -/
def State.dmaSettle (n : Fin 32) (s : State) : State :=
  let c := s.dch n
  if c.err ≠ 0 ∧ c.outst = [] then
    (({ s with dma.errsum := setBit s.dma.errsum n.val }).setDch n { c with state := .error }).raise (160 + n.val)
  else s.setDch n { c with state := .wresp }

/-- A channel stops with an error: it first waits for the responses of the beats already issued. -/
def State.dmaFail (n : Fin 32) (code : BitVec 3) (a : Word) (s : State) : State :=
  (s.setDch n { s.dch n with err := code, erraddr := a }).dmaSettle n

/-! ### Starting and fetching (13 R362, R363) -/

/-- Fetch the descriptor at an address; one that is not aligned fails with ERR 2. -/
def State.dmaFetch (n : Fin 32) (a : Word) (s : State) : State :=
  let t := s.setDch n { s.dch n with state := .fetch, cur := a, fetched := 0 }
  if a.toNat % 32 ≠ 0 then t.dmaFail n 2 a else t

/-- GO with EN (13 R362). -/
def State.dmaGo (n : Fin 32) (s : State) : State :=
  let c := s.dch n
  if c.state = .idle ∨ c.state = .error then
    (s.setDch n { c with err := 0, broken := false }).dmaFetch n (s.reg (Reg.chctl n + 4))
  else s.setDch n { c with goign := true }

/-! ### Dropping (13 R373) -/

/-- The write beats in flight may or may not land: a beat that does not leaves the bytes it would have written, unless
another access has changed them since. -/
def State.dmaUnland (w : DmaWr) (s : State) : State :=
  match w.old with
  | none => s
  | some o =>
    (if s.drawBool && decide (s.bytesAt w.addr.toNat w.bytes.length = w.bytes) then s.setBytes w.addr.toNat o else s).took

/-- Drop a channel: STOPPING, its gates released with BROKEN, and CHCUR, CHCNT, CHSRC and CHDST undefined. -/
def State.dmaDrop (n : Fin 32) (s : State) : State :=
  if (s.dch n).state = .stopping then s
  else
    let t := s.each (s.dch n).outst.reverse State.dmaUnland
    let v (k : Nat) : Word := BitVec.ofNat 32 (Config.freeNat (t.free + k))
    let c : DmaCh := { t.dch n with
      state := .stopping, trigpend := false, buf := [], chunk := 0, toRead := 0, cur := v 0, cnt := v 1, src := v 2
      dst := v 3 }
    (({ t with free := t.free + 4 }).setDch n c).gateOwnerReset (dmaCode n)

/-- Every channel is dropped: DMA_CTL.EN cleared, P5 quiesced, Walk entry. -/
def State.dmaDropAll (s : State) : State := s.each (fins 32) State.dmaDrop

/-- A write of DMA_CHCTL by a master that may write it (R354 is the register file's). -/
def State.dmaCtlWrite (n : Fin 32) (v : Word) (s : State) : State :=
  let was := (s.chctl n).getLsbD 0
  let t := s.setReg (Reg.chctl n) v
  if was && !v.getLsbD 0 then t.dmaDrop n
  else t.when (v.getLsbD 0 && v.getLsbD 1) (State.dmaGo n)

/-- A write of DMA_CTL. -/
def State.dmaEnWrite (v : Word) (s : State) : State :=
  let was := s.regBit Reg.DMA_CTL 0
  (s.setReg Reg.DMA_CTL v).when (was && !v.getLsbD 0) State.dmaDropAll

def execDmaGo (n : Fin 32) (v : Word) (s : State) : Result := .next (s.dmaCtlWrite n v)

/-- EN is cleared, of one channel or of the engine. -/
def State.dmaDisable (n : Option (Fin 32)) (s : State) : State :=
  match n with
  | some i => s.dmaCtlWrite i (clrBit (s.chctl i) 0)
  | none => s.dmaEnWrite 0

def execDmaDisable (n : Option (Fin 32)) (s : State) : Result := .next (s.dmaDisable n)

/-- A dropped channel has absorbed its responses. -/
def State.dmaStopDone (n : Fin 32) (s : State) : State :=
  let c := s.dch n
  if c.state = .stopping then s.setDch n { c with state := .idle, outst := [] } else s

def execDmaStopDone (n : Fin 32) (s : State) : Result := .next (s.when s.coreRuns fun s => s.dmaStopDone n)

/-! ### The descriptor (13 R356 to R361) -/

def DmaCh.word (c : DmaCh) (i : Nat) : Word := vget c.desc i
def DmaCh.type (c : DmaCh) : Nat := fld (c.word 0) 30 2
def DmaCh.gateNo (c : DmaCh) : Fin 32 := ⟨fld (c.word 0) 20 5, Nat.mod_lt _ (by decide)⟩

/-- CTRL bit. -/
def DmaCh.ctrl (c : DmaCh) (i : Nat) : Bool := (c.word 0).getLsbD i

/-- Forced beat size, 0 with automatic size. -/
def DmaCh.asize (c : DmaCh) : Nat := [0, 1, 2, 4].getD (fld (c.word 0) 18 2) 0

/-- Bytes the descriptor moves. -/
def DmaCh.total (c : DmaCh) : Nat :=
  if c.type = 1 then fld (c.word 3) 16 16 * fld (c.word 3) 0 16 else fld (c.word 3) 0 24

/-- Line starts, strides and lengths that a forced size must divide; a side of one line has no stride (13 R358). -/
def DmaCh.aligned (c : DmaCh) : Bool :=
  let stride (w n : Word) : List Nat := if fld n 16 16 = 1 then [] else [w.toNat]
  let lens := if c.type = 1 then [fld (c.word 3) 0 16, fld (c.word 5) 0 16] ++ stride (c.word 4) (c.word 3) ++
      stride (c.word 6) (c.word 5)
    else [fld (c.word 3) 0 24]
  decide (c.asize ≤ 1) || ([(c.word 1).toNat, (c.word 2).toNat] ++ lens).all fun x => decide (x % c.asize = 0)

/-- A descriptor is valid (13 R360); holds: the channel already holds GATE. -/
def DmaCh.valid (c : DmaCh) (holds : Bool) : Bool :=
  let w i := (c.word i).toNat
  let two := decide (c.type = 1)
  decide (c.type ≠ 3) && decide (w 0 % 65536 = 0) && (decide (c.type = 2) || decide (fld (c.word 0) 16 2 = 0)) &&
    (two || (decide (w 3 < 2 ^ 24) && decide (w 4 = 0) && decide (w 5 = 0) && decide (w 6 = 0))) &&
    decide (c.total ≠ 0) && (!two || decide (c.total = fld (c.word 5) 16 16 * fld (c.word 5) 0 16)) &&
    decide (c.gateNo.val ≠ 31) && (!(c.ctrl 26 || c.ctrl 25) || c.ctrl 27 || holds) && c.aligned

/-! ### From the fetch to RUN (13 R363) -/

/-- One side at its start. -/
def DmaSide.start (a : Word) (list : Bool) (len lines : Nat) : DmaSide :=
  if list then ⟨a, 0, 0, a, a, false, none⟩ else ⟨a, len, lines - 1, a, 0, false, none⟩

/-- The first beat is due. -/
def DmaCh.begin (c : DmaCh) : DmaCh := { c with state := .run }

/-- After the gate: wait for the trigger, which a pending one ends at once. -/
def DmaCh.afterGate (c : DmaCh) : DmaCh :=
  if !c.ctrl 29 then c.begin
  else if c.trigpend then { c.begin with trigpend := false }
  else { c with state := .trigwait }

/-- The side has a list of pairs. -/
def DmaCh.listed (c : DmaCh) (dest : Bool) : Bool := decide (c.type = 2) && c.ctrl (if dest then 16 else 17)

/-- The descriptor is in hand: positions and counts start. CHSRC and CHDST name the next byte; on a side with a list the first
pair has yet to name it, and until then they are free values (13 R367; log 228). -/
def DmaCh.loaded (c : DmaCh) (v : Nat → Word) : DmaCh :=
  let two := decide (c.type = 1)
  let sl := if two then fld (c.word 3) 0 16 else c.total
  let dl := if two then fld (c.word 5) 0 16 else c.total
  { c with
    s := DmaSide.start (c.word 1) (c.listed false) sl (if two then fld (c.word 3) 16 16 else 1)
    d := DmaSide.start (c.word 2) (c.listed true) dl (if two then fld (c.word 5) 16 16 else 1)
    toRead := c.total, chunk := 0, buf := [], cnt := 0
    src := if c.listed false then v 0 else c.word 1
    dst := if c.listed true then v 1 else c.word 2 }

/-- The eight words are in: check, then gate, trigger or RUN. -/
def State.dmaFetched (n : Fin 32) (s : State) : State :=
  let c := s.dch n
  if c.state ≠ .fetch ∨ c.fetched < 8 then s
  else if !c.valid (decide ((s.gate c.gateNo).owner = dmaCode n)) then s.dmaFail n 1 c.cur
  else
    let k := c.loaded fun i => BitVec.ofNat 32 (Config.freeNat (s.free + i))
    ({ s with free := s.free + 2 }).setDch n (if c.ctrl 27 then { k with state := .gatewait } else k.afterGate)

def execDmaFetchDone (n : Fin 32) (s : State) : Result := .next (s.when s.coreRuns fun s => s.dmaFetched n)

/-- A channel in GATEWAIT tries its gate (13 R363; 15 R417). -/
def State.dmaGateTry (n : Fin 32) (s : State) : State :=
  let c := s.dch n
  let g := c.gateNo
  if c.state ≠ .gatewait then s
  else if (s.gate g).owner = dmaCode n then s.setDch n c.afterGate
  else if !s.gateTakes (dmaCode n) g then s
  else
    let b := (s.gate g).broken
    let t := (s.gateTryFx (dmaCode n) g).setDch n { c with broken := c.broken || b }
    if b && c.ctrl 25 then t.dmaFail n 6 (BitVec.ofNat 32 (Reg.at Reg.GATE_TRY g))
    else t.setDch n { c with broken := c.broken || b }.afterGate

def execDmaGateAcquire (n : Fin 32) (s : State) : Result := .next (s.when s.coreRuns fun s => s.dmaGateTry n)

def execDmaTrigger (t : TrigSource) (s : State) : Result := .next (s.when s.coreRuns fun s => s.dmaFire t)

/-! ### Completion (13 R366) -/

/-- Every write beat has had its response. -/
def State.dmaComplete (n : Fin 32) (s : State) : State :=
  let c := s.dch n
  let next := c.word 7
  let c' : DmaCh := { c with cnt := BitVec.ofNat 32 c.total, descs := c.descs + 1, state := .idle }
  let t := ((s.when (c.ctrl 26) (State.gateRelFx (dmaCode n) c.gateNo)).setDch n c').raiseIf
    (c.ctrl 28 || decide (next = 0)) (160 + n.val)
  if next = 0 then t else t.dmaFetch n next

/-- A write response returns: CHCNT counts its bytes; an error response stops the channel with ERR 5. -/
def State.dmaResponse (n : Fin 32) (s : State) : State :=
  let c := s.dch n
  match c.outst with
  | [] => s
  | w :: rest =>
    if c.state = .stopping then s.setDch n { c with outst := rest }
    else if w.failed then
      let c' : DmaCh := { c with outst := rest }
      if c.err = 0 then (s.setDch n c').dmaFail n 5 w.addr else (s.setDch n c').dmaSettle n
    else
      let c' : DmaCh := { c with outst := rest, cnt := c.cnt + BitVec.ofNat 32 w.bytes.length }
      let t := s.setDch n c'
      if c.err ≠ 0 then t.dmaSettle n
      else if c.state = .wresp ∧ rest = [] then t.dmaComplete n
      else t

def execDmaWriteResponse (n : Fin 32) (s : State) : Result := .next (s.when s.coreRuns fun s => s.dmaResponse n)

/-! ### Arbitration (13 R369, R370) -/

/-- A channel has a beat ready. -/
def DmaCh.ready (c : DmaCh) : Bool :=
  (decide (c.state = .fetch) && decide (c.fetched < 8)) ||
    (decide (c.state = .run) && (decide (c.toRead ≠ 0) || decide (c.chunk ≠ 0) || decide (c.buf ≠ [])))

/-- The engine moves beats: enabled, and P5 in service or still quiescing, which drops the channels only at its end (16 Table
16.7). -/
def State.dmaOn (s : State) : Bool :=
  let p := s.sys.parts.get 5
  s.regBit Reg.DMA_CTL 0 && (decide (p = .inService) || decide (p = .quiescing))

def State.dmaPrio (s : State) (n : Fin 32) : Nat := fld (s.chctl n) 4 2

/-- The channel granted at a priority. -/
def State.dmaPick (s : State) (p : Nat) : Option (Fin 32) :=
  let l := (fins 32).filter fun n => (s.dch n).ready && decide (s.dmaPrio n = p)
  let after (n : Fin 32) := (l.find? fun m => decide (n.val < m.val)).orElse fun _ => l.head?
  match vget s.dma.grant p with
  | none => l.head?
  | some (n, passed) => if !passed && l.contains n then some n else after n

/-- The channel granted the next beat. -/
def State.dmaGrant (s : State) : Option (Nat × Fin 32) :=
  [3, 2, 1, 0].findSome? fun p => (s.dmaPick p).map fun n => (p, n)

/-! ### Registers -/

/-- DMA_ACTIVE (13 R374). -/
def State.dmaActive (s : State) : Word :=
  BitVec.ofNat 32 ((fins 32).foldl (fun a n =>
    let k := (s.dch n).state
    a + (decide (k ≠ .idle) && decide (k ≠ .error)).toNat * 2 ^ n.val) 0)

/-- DMA_CHSTAT. ERR shows once the channel is in ERROR. -/
def DmaCh.stat (c : DmaCh) : Word :=
  packW [(28, c.state.code), (24, if c.state = .wresp then 0 else c.err.toNat), (23, c.broken.toNat),
    (22, c.trigovr.toNat), (21, c.trigpend.toNat), (20, c.goign.toNat), (0, c.descs.toNat)]

/-- The W1C bits of DMA_CHSTAT. -/
def DmaCh.statClear (v : Word) (c : DmaCh) : DmaCh :=
  { c with trigovr := c.trigovr && !v.getLsbD 22, goign := c.goign && !v.getLsbD 20 }

/-- SP_TRACE6: [5] a beat was made, [4:0] its channel (02 Table 2.4, R50). VALID stands until a reset (log 208). -/
def State.trace6 (s : State) : Half :=
  match s.dma.last with
  | some n => packH [(5, 1), (0, n.val)]
  | none => 0

end Sys2Proof.Machine
end

