-- ==== Sys2Proof/Machine/Beats.lean ====
section
/-! DEFINITION. The beats of the DMA engine, over the bus they are made on, and the beats that the sequencer serves between
entries (13 R352, R358, R359, R361, R365, R367 to R372, R374; 10 R290). -/
namespace Sys2Proof.Machine

/-! ### The bus -/

/-- What a beat needs of the bus: why a read fails, what it answers and does besides; why a write fails, and the write. -/
structure Bus where
  readErr : State → Master → Nat → BitVec 4 → Option AccErr
  read : State → Master → Nat → BitVec 4 → Word
  readFx : Master → Nat → BitVec 4 → State → State
  writeFails : State → Master → Nat → BitVec 4 → Word → Option AccErr
  write : Master → Nat → BitVec 4 → Word → State → State

/-- Why a read of a memory word by a master fails. -/
def State.memReadFails (s : State) (m : Master) (a : Nat) (be : BitVec 4) : Option AccErr :=
  if !s.masterAllows m false a then some .refused
  else match s.memRead a be with
    | .error e => some e
    | .ok _ => none

/-- What a read of a memory word answers, 0 where it fails. -/
def State.memAnswer (s : State) (a : Nat) (be : BitVec 4) : Word := ((s.memRead a be).toOption).getD 0

/-- The bus as far as the memories: the accesses that the sequencer holds off are all to them. -/
def memBus : Bus where
  readErr := State.memReadFails
  read := fun s _ a be => s.memAnswer a be
  readFx := fun m a be s => s.when (s.masterAllows m false a) (State.memReadFx (masterCode m) a be)
  writeFails := fun s m a _ _ => if !s.masterAllows m true a then some .refused else s.memWriteErr m a
  write := fun m a be v s => s.when (s.masterAllows m true a) (State.memWrite m a be v)

/-! ### One beat -/

/-- The largest beat of 4, 2 and 1 bytes to which an address is aligned and which n bytes allow: those of the line or pair, and
of the chunk, which holds no more (log 227); a forced size as it is. -/
def beatSize (forced : Nat) (a : Word) (n : Nat) : Nat :=
  if forced ≠ 0 then forced
  else if a.toNat % 4 = 0 ∧ 4 ≤ n then 4
  else if a.toNat % 2 = 0 ∧ 2 ≤ n then 2
  else 1

/-- Byte enables of an aligned beat. -/
def beatBe (a : Word) (n : Nat) : BitVec 4 := BitVec.ofNat 4 ((2 ^ n - 1) * 2 ^ (a.toNat % 4))

/-- ERR of a failed read beat (13 Table 13.4). -/
def readBeatErr : AccErr → BitVec 3
  | .uncorrectable => 4 | .parity => 4 | _ => 3

/-- A side of a two-dimensional transfer moves to its next line (13 R358). -/
def DmaSide.nextLine (x : DmaSide) (stride : Word) (len : Nat) : DmaSide :=
  if x.left = 0 ∧ x.lines ≠ 0 then
    { x with base := x.base + stride, addr := x.base + stride, left := len, lines := x.lines - 1 }
  else x

/-- A side as it stands once its line is done: at the start of the next one (13 R358). -/
def DmaSide.settled (x : DmaSide) (c : DmaCh) (dest : Bool) : DmaSide :=
  if c.type = 1 then
    if dest then x.nextLine (c.word 6) (fld (c.word 5) 0 16) else x.nextLine (c.word 4) (fld (c.word 3) 0 16)
  else x

/-- What a list pair's second word makes of a side: none is a list fault (13 R359, R361). -/
def DmaSide.pair (x : DmaSide) (forced : Nat) (w0 w1 : Word) : Option DmaSide :=
  let len := fld w1 0 24
  let bad := decide (forced ≠ 0) && (decide (w0.toNat % forced ≠ 0) || decide (len % forced ≠ 0))
  if fld w1 24 7 ≠ 0 ∨ bad = true then none
  else some { x with addr := w0, left := len, ended := w1.getLsbD 31, list := x.list + 8, word0 := none }

/-- One beat of list reading for the source, or else the destination. -/
def State.dmaPairBeat (b : Bus) (n : Fin 32) (dest : Bool) (s : State) : State :=
  let c := s.dch n
  let x := if dest then c.d else c.s
  let put (y : DmaSide) (t : State) : State :=
    let k := t.dch n
    t.setDch n (if dest then { k with d := y, dst := if y.left = 0 then k.dst else y.addr }
      else { k with s := y, src := if y.left = 0 then k.src else y.addr })
  let a := if x.word0.isNone then x.list else x.list + 4
  if x.ended ∨ x.list.toNat % 8 ≠ 0 then s.dmaFail n 7 x.list
  else match b.readErr s (.dma n) a.toNat 0xF with
    | some e => (b.readFx (.dma n) a.toNat 0xF s).dmaFail n (readBeatErr e) a
    | none =>
      let v := b.read s (.dma n) a.toNat 0xF
      let t := b.readFx (.dma n) a.toNat 0xF s
      match x.word0 with
      | none => put { x with word0 := some v } t
      | some w0 =>
        match x.pair c.asize w0 v with
        | some y => put y t
        | none => t.dmaFail n 7 x.list

/-- The bytes of an aligned beat in the word that holds it. -/
def beatBytes (a : Word) (n : Nat) (v : Word) : List Byte := leBytes n ((v >>> (8 * (a.toNat % 4))).toNat)

/-- Put bytes into a list at a position. -/
def listPut (l : List Byte) (i : Nat) (bs : List Byte) : List Byte :=
  let l' := l ++ List.replicate (i + bs.length - l.length) 0
  l'.take i ++ bs ++ l'.drop (i + bs.length)

/-- A read beat of the chunk (13 R365). -/
def State.dmaReadBeat (b : Bus) (n : Fin 32) (s : State) : State :=
  let c := s.dch n
  let k := beatSize c.asize c.s.addr (min c.s.left c.chunk)
  let a := c.s.addr
  let w := a.toNat / 4 * 4
  let be := beatBe a k
  match b.readErr s (.dma n) w be with
  | some e => (b.readFx (.dma n) w be s).dmaFail n (readBeatErr e) a
  | none =>
    let bs := beatBytes a k (b.read s (.dma n) w be)
    let x : DmaSide := DmaSide.settled { c.s with addr := a + BitVec.ofNat 32 k, left := c.s.left - k } c false
    let c' : DmaCh := { c with
      s := x
      buf := c.buf ++ bs
      shown := listPut c.shown c.buf.length bs
      chunk := c.chunk - k
      toRead := c.toRead - k
      src := x.addr }
    b.readFx (.dma n) w be (s.setDch n c')

/-- A write beat of the chunk: it is issued, and its response comes with DMA_WRITE_RESPONSE. -/
def State.dmaWriteBeat (b : Bus) (n : Fin 32) (s : State) : State :=
  let c := s.dch n
  let a := c.d.addr
  let k := beatSize c.asize a (min c.d.left c.buf.length)
  let w := a.toNat / 4 * 4
  let bs := c.buf.take k
  let v : Word := (BitVec.ofNat 32 (ofLe bs)) <<< (8 * (a.toNat % 4))
  let wr : DmaWr := ⟨a, bs, (b.writeFails s (.dma n) w (beatBe a k) v).isSome,
    if (memRegion? w).isSome then some (s.bytesAt a.toNat k) else none⟩
  let rest := c.buf.drop k
  let x : DmaSide := DmaSide.settled { c.d with addr := a + BitVec.ofNat 32 k, left := c.d.left - k } c true
  let c' : DmaCh := { c with
    d := x
    buf := rest
    outst := c.outst ++ [wr]
    dst := x.addr
    state := if rest = [] ∧ c.toRead = 0 then .wresp else .run }
  b.write (.dma n) w (beatBe a k) v (s.setDch n c')

/-- The list side of a scatter-gather descriptor that needs its next pair. -/
def DmaCh.needsPair (c : DmaCh) (dest : Bool) : Bool :=
  c.listed dest && decide ((if dest then c.d else c.s).left = 0)

/-- Where the next beat of RUN stands: a new chunk. -/
def DmaCh.advance (c : DmaCh) : DmaCh :=
  if c.chunk = 0 ∧ c.buf = [] then { c with chunk := min 64 c.toRead } else c

/-- One beat of a channel. -/
def State.dmaChBeat (b : Bus) (n : Fin 32) (s : State) : State :=
  let c := s.dch n
  match c.state with
  | .fetch =>
    let a := c.cur.toNat + 4 * c.fetched
    match b.readErr s (.dma n) a 0xF with
    | some _ => (b.readFx (.dma n) a 0xF s).dmaFail n 2 (BitVec.ofNat 32 a)
    | none =>
      let v := b.read s (.dma n) a 0xF
      (b.readFx (.dma n) a 0xF s).setDch n { c with desc := vset c.desc c.fetched v, fetched := c.fetched + 1 }
  | .run =>
    let c1 := c.advance
    let t := s.setDch n c1
    if c1.chunk ≠ 0 then (if c1.needsPair false then t.dmaPairBeat b n false else t.dmaReadBeat b n)
    else if c1.needsPair true then t.dmaPairBeat b n true else t.dmaWriteBeat b n
  | _ => s

/-- UNTIL of a walk step names this condition (02 Table 2.8). -/
def State.until (s : State) (n : Nat) : Bool := s.sp.walk && decide (s.sp.until_.toNat = n)

/-- The beat is the last write beat of its chunk, with which the grant passes on (13 R370). -/
def DmaCh.lastBeat (c0 : DmaCh) : Bool :=
  let c := c0.advance
  decide (c.state = .run) && decide (c.chunk = 0) && !c.needsPair true &&
    decide (c.buf.length ≤ beatSize c.asize c.d.addr (min c.d.left c.buf.length))

/-- A channel makes a beat: SP_TRACE6 shows it, and under UNTIL 0b100 it ends the walk step (13 R374). -/
def State.dmaMakes (b : Bus) (n : Fin 32) (s : State) : State :=
  let t := s.dmaChBeat b n
  { t with dma.last := some n, sp.met := t.sp.met || s.until 4 }

/-! ### Gaps between entries (10 R290; 13 R371) -/

/-- What the sequencer holds while an entry runs: instance memory, the Lane images and the waymark banks. -/
def heldRegion (a : Nat) : Bool :=
  match memRegion? a with
  | some .inst | some .lane | some .waymark => true
  | _ => false

/-- Address of the next beat of a channel. -/
def DmaCh.nextAddr (c0 : DmaCh) : Nat :=
  let c := c0.advance
  let pair (x : DmaSide) : Nat := if x.word0.isNone then x.list.toNat else x.list.toNat + 4
  match c.state with
  | .fetch => c.cur.toNat + 4 * c.fetched
  | _ =>
    if c.chunk ≠ 0 then (if c.needsPair false then pair c.s else c.s.addr.toNat)
    else if c.needsPair true then pair c.d else c.d.addr.toNat

/-- The channel waits for a gap. -/
def State.dmaWaits (s : State) (n : Fin 32) : Bool :=
  s.dmaOn && (s.dch n).ready && heldRegion ((s.dch n).nextAddr / 4 * 4)

/-- A grant that another channel of the priority keeps stays its own; otherwise this channel takes it. -/
def State.dmaGapGrant (n : Fin 32) (s : State) : State :=
  let p := s.dmaPrio n
  let mine := match vget s.dma.grant p with
    | some (m, passed) => passed || decide (m = n)
    | none => true
  if mine then { s with dma.grant := vset s.dma.grant p (some (n, (s.dch n).lastBeat)) } else s

/-- One beat of a waiting channel, at 2 core cycles of the pass. -/
def State.dmaGapBeat (n : Fin 32) (s : State) : State :=
  if s.coreRuns && s.dmaWaits n then
    let t := (s.dmaGapGrant n).dmaMakes memBus n
    { t with itn.passcyc := t.itn.passcyc + 2 }
  else s

/-- The channels in the order a gap serves them: by priority, then by number (13 R369; log 226). -/
def State.dmaOrder (s : State) : List (Fin 32) :=
  [3, 2, 1, 0].flatMap fun p => (fins 32).filter fun n => decide (s.dmaPrio n = p)

/-- A gap: one beat of each waiting channel (13 R371). -/
def State.dmaGap (s : State) : State := s.each (s.dmaOrder.filter s.dmaWaits) State.dmaGapBeat

end Sys2Proof.Machine
end

