-- ==== Sys2Proof/Machine/Itinerary.lean ====
section
/-! DEFINITION. The itinerary sequencer: which entry runs, how one entry runs, a pass, and the command of every block type
(10 R288 to R301). -/
namespace Sys2Proof.Machine

/-! ### One entry -/

/-- ENREF decides: none where its word is uncorrectable (10 R288). -/
def State.enabled (s : State) (e : Entry) : Option Bool :=
  if e.en = 0 then some true
  else (s.refVal false 0 e.enref).map fun v => if e.en = 1 then isTrue v else !isTrue v

/-- An uncorrectable word: nothing is written, 0x0927, EV249, HALT (10 R291). -/
def State.entryFault (e : Entry) (s : State) : State := (s.raise 249).seqFault 0x0927 (BitVec.ofNat 32 e.index)

/-- The entry is passed over, with the entries its SKIP jumps: 2 core cycles for each of them (10 R288, R298). -/
def State.entryPass (e : Entry) (s : State) : State :=
  let n := 1 + e.skip.toNat
  { s with
    itn.idx := BitVec.ofNat 12 e.index
    itn.passcyc := s.itn.passcyc + BitVec.ofNat 32 (2 * n)
    itn.skipped := s.itn.skipped + BitVec.ofNat 16 n }

/-- N of a table block: the copy kept from LOAD, else as the record stands (10 R296; log 41). -/
def State.tableN (s : State) (e : Entry) : Nat :=
  match s.itn.sizes.find? (·.1 == e.inst.toNat) with
  | some x => x.2
  | none => clampN 1 1023 (s.peekWord (instAddr e.inst.toNat)).toNat

/-- The words of instance memory an entry reads: its record, or one word of its table. -/
def State.recWords (s : State) (b : Blk) (e : Entry) (a : Word) : List Nat :=
  let n := s.tableN e
  let i := a.toInt
  let k := if i < 0 then 0 else min i.toNat (n - 1)
  if b.loadx then [instAddr (e.inst.toNat + 1 + k)]
  else if b.storex then (if 0 ≤ i ∧ i < n then [instAddr (e.inst.toNat + 1 + k)] else [])
  else (List.range b.size).map fun j => instAddr (e.inst.toNat + j)

/-- Reads in order, up to and with the first that fails. -/
def State.seqReads : List Nat → State → State
  | [], s => s
  | a :: t, s => let u := s.seqReadFx a; if (s.seqWord a).isSome then u.seqReads t else u

/-- TC, and the missing stations, of the context block. -/
def ctxTc : Nat := 0x1007FF10
def ctxMissing : Nat := 0x1007FF2C

/-- dt in us of a time-based block (10 R295). -/
def State.dtUs (s : State) (lasttc tc : Word) : Nat :=
  if s.itn.firstPass || decide (lasttc ≠ s.itn.prevtc) then 0
  else min ((tc - lasttc).toNat * (s.periodNs / 1000)) 2147483647

/-- An entry saturates (10 R294): the first of a pass raises EV248, or faults with SATFAULT. -/
def State.satMark (e : Entry) (s : State) : State :=
  let first := !s.itn.passSat
  let t : State := { s with
    itn.sat := true
    itn.first := if s.itn.sat then s.itn.first else BitVec.ofNat 12 e.index
    itn.count := satSucc s.itn.count
    itn.passSat := true }
  if t.itn.satfault then t.seqFault 0x0928 t.mepc else t.raiseIf first 248

/-- Every word of memory an entry reads, in order: its inputs, TC or the missing stations, its record. -/
def State.entryAddrs (s : State) (b : Blk) (e : Entry) : List Nat :=
  [e.in0, e.in1, e.in2].filterMap refAddr ++ (if b.timed then [ctxTc] else []) ++ (if b.lane then [ctxMissing] else []) ++
    s.recWords b e ((s.refVal b.qa b.none_ e.in0).getD 0)

/-- Every word the entry reads is readable. -/
def State.entryReadable (s : State) (b : Blk) (e : Entry) : Bool := (s.entryAddrs b e).all fun a => (s.seqWord a).isSome

/-- What an entry computes from. -/
def State.entryIn (s : State) (b : Blk) (e : Entry) : BlkIn :=
  let a := (s.refVal b.qa b.none_ e.in0).getD 0
  let r := (s.recWords b e a).map fun x => (s.seqWord x).getD 0
  { a := a
    b := (s.refVal b.qb b.none_ e.in1).getD 0
    c := (s.refVal b.qc b.none_ e.in2).getD 0
    r := r
    dt := if b.timed then s.dtUs (r.getLastD 0) ((s.seqWord ctxTc).getD 0) else 0
    n := s.tableN e
    frzok := s.tre.frzok
    missing := (s.seqWord ctxMissing).getD 0
    free := s.draw }

/-- The reads are done and the entry is counted. -/
def State.entryBegin (b : Blk) (e : Entry) (s : State) : State :=
  let t : State := s.seqReads (s.entryAddrs b e)
  { t with
    itn.idx := BitVec.ofNat 12 e.index
    itn.passcyc := t.itn.passcyc + BitVec.ofNat 32 b.cyc
    itn.ran := t.itn.ran + 1 }

/-- The record is written (a time-based block's ends with TC), then OUT0 and OUT1; DIVZ, and saturation. -/
def State.entryEnd (b : Blk) (e : Entry) (words : List Nat) (tc : Word) (o : BlkOut) (s : State) : State :=
  let rec_ := if b.timed then o.r.dropLast ++ [tc] else o.r
  let v := s.each (words.zip rec_) fun x y => y.seqWrite x.1 x.2
  let w := match o.y with | some y => v.refWrite e.out0 y | none => v
  let x := match o.z with | some z => w.refWrite e.out1 z | none => w
  let y : State := if o.divz then { x with itn.divz := true } else x
  let z := if o.drew then y.took else y
  z.when o.sat (State.satMark e)

/-- A running entry (10 R289): inputs, record, computing, record, OUT0, OUT1. -/
def State.entryExec (b : Blk) (e : Entry) (s : State) : State :=
  if !s.entryReadable b e then (s.entryBegin b e).entryFault e
  else (s.entryBegin b e).entryEnd b e (s.recWords b e ((s.refVal b.qa b.none_ e.in0).getD 0)) ((s.seqWord ctxTc).getD 0)
    (b.fn (s.entryIn b e))

/-- The sequencer's step at an entry: its enable read, then run or passed over. Under UNTIL 0b010 it ends a walk step (10
R301). -/
def State.entryStep (b : Blk) (e : Entry) (s : State) : State :=
  let t := if e.en = 0 then s else s.refFx e.enref
  let u := match s.enabled e with
    | some true => t.entryExec b e
    | some false => t.entryPass e
    | none => t.entryFault e
  { u with sp.met := u.sp.met || s.until 2 }

/-! ### A pass (10 R288, R290, R299, R301) -/

/-- A walk step has ended inside the pass. -/
def State.paused (s : State) : Bool := s.sp.walk && s.sp.met

/-- Entries from i up to hi, with fuel for each. The accesses listed are served, by sv, before the entry they come at; between
two entries every waiting DMA channel makes a beat. Where a walk step ends, the pass stands at the next entry. -/
def State.seqLoop (sv : Served → State → State) : Nat → Nat → Nat → List Served → State → State
  | 0, _, _, l, s => s.each l sv
  | k + 1, i, hi, l, s =>
    if hi ≤ i ∨ s.itn.seq = .halt then s.each l sv
    else match s.itn.table[i]? with
      | none => s.each l sv
      | some (ty, e) =>
        let t := s.each (l.filter fun x => decide (x.before.toNat ≤ i)) sv
        let n := if t.enabled e = some false then i + 1 + e.skip.toNat else i + 1
        let u := (t.entryStep (blkOf ty) e).when (decide (n < hi)) State.dmaGap
        if u.paused && decide (u.itn.seq ≠ .halt) then { u with itn.at_ := some n }
        else u.seqLoop sv k n hi (l.filter fun x => decide (i < x.before.toNat))

/-- The error sequence, from an entry on. -/
def State.errorsFrom (sv : Served → State → State) (i : Nat) (l : List Served) (s : State) : State :=
  s.seqLoop sv s.itn.table.length i s.itn.table.length (l.filter fun x => decide (s.itn.erridx ≤ x.before.toNat))

/-- The error sequence. -/
def State.runErrors (sv : Served → State → State) (l : List Served) (s : State) : State :=
  if s.itn.erridx < s.itn.table.length then ({ s with itn.seq := .errseq }).errorsFrom sv s.itn.erridx l else s

/-- The end of the pass: PREVTC, then HOOK with NATIVE, else IDLE. -/
def State.mainEnd (s : State) : State :=
  if s.itn.seq = .halt ∨ s.itn.at_.isSome = true then s
  else { s with
    itn.prevtc := (s.seqWord ctxTc).getD 0
    itn.firstPass := false
    itn.seq := if s.ctl.native then .hook else .idle }

/-- The main sequence, from an entry on, and the end of the pass. -/
def State.mainFrom (sv : Served → State → State) (i : Nat) (l : List Served) (s : State) : State :=
  (s.seqLoop sv s.itn.erridx i s.itn.erridx (l.filter fun x => decide (x.before.toNat < s.itn.erridx))).mainEnd

/-- The main sequence; behind the error sequence it starts with a gap. -/
def State.runMain (sv : Served → State → State) (l : List Served) (s : State) : State :=
  if s.itn.seq = .halt then s
  else
    let t := s.when (decide (s.itn.seq = .errseq) && decide (0 < s.itn.erridx)) State.dmaGap
    ({ t with itn.seq := .main }).mainFrom sv 0 l

/-- A pass starts: its counts, and SATFAULT as it stands. -/
def State.passStart (s : State) : State :=
  { s with
    itn.passcyc := 0
    itn.skipped := 0
    itn.ran := 0
    itn.passSat := false
    itn.satfault := s.regBit Reg.ITN_CTL 0 }

/-! ### The commands: the sequencer comes to an entry of a type (log 36) -/

/-- An enabled entry runs. -/
def State.blkStep (b : Blk) (e : Entry) (s : State) : State :=
  if s.enabled e = some false ∨ s.coreRuns = false then s else s.entryStep b e

/-- An entry that is not enabled is passed over. -/
def execEntrySkip (e : Entry) (s : State) : Result :=
  .next (if s.enabled e = some true ∨ s.coreRuns = false then s else s.entryStep bNop e)

def execBlkNop (e : Entry) (s : State) : Result := .next (s.blkStep bNop e)

def execBlkAnd (e : Entry) (s : State) : Result := .next (s.blkStep bAnd e)

def execBlkOr (e : Entry) (s : State) : Result := .next (s.blkStep bOr e)

def execBlkXor (e : Entry) (s : State) : Result := .next (s.blkStep bXor e)

def execBlkNot (e : Entry) (s : State) : Result := .next (s.blkStep bNot e)

def execBlkSr (e : Entry) (s : State) : Result := .next (s.blkStep bSr e)

def execBlkRs (e : Entry) (s : State) : Result := .next (s.blkStep bRs e)

def execBlkRtrig (e : Entry) (s : State) : Result := .next (s.blkStep bRtrig e)

def execBlkFtrig (e : Entry) (s : State) : Result := .next (s.blkStep bFtrig e)

def execBlkBitget (e : Entry) (s : State) : Result := .next (s.blkStep bBitget e)

def execBlkBitput (e : Entry) (s : State) : Result := .next (s.blkStep bBitput e)

def execBlkBand (e : Entry) (s : State) : Result := .next (s.blkStep bBand e)

def execBlkBor (e : Entry) (s : State) : Result := .next (s.blkStep bBor e)

def execBlkBxor (e : Entry) (s : State) : Result := .next (s.blkStep bBxor e)

def execBlkShl (e : Entry) (s : State) : Result := .next (s.blkStep bShl e)

def execBlkShr (e : Entry) (s : State) : Result := .next (s.blkStep bShr e)

def execBlkAdd (e : Entry) (s : State) : Result := .next (s.blkStep bAdd e)

def execBlkSub (e : Entry) (s : State) : Result := .next (s.blkStep bSub e)

def execBlkMul (e : Entry) (s : State) : Result := .next (s.blkStep bMul e)

def execBlkDiv (e : Entry) (s : State) : Result := .next (s.blkStep bDiv e)

def execBlkMod (e : Entry) (s : State) : Result := .next (s.blkStep bMod e)

def execBlkAbs (e : Entry) (s : State) : Result := .next (s.blkStep bAbs e)

def execBlkNeg (e : Entry) (s : State) : Result := .next (s.blkStep bNeg e)

def execBlkMin (e : Entry) (s : State) : Result := .next (s.blkStep bMin e)

def execBlkMax (e : Entry) (s : State) : Result := .next (s.blkStep bMax e)

def execBlkLimit (e : Entry) (s : State) : Result := .next (s.blkStep bLimit e)

def execBlkEq (e : Entry) (s : State) : Result := .next (s.blkStep bEq e)

def execBlkNe (e : Entry) (s : State) : Result := .next (s.blkStep bNe e)

def execBlkGt (e : Entry) (s : State) : Result := .next (s.blkStep bGt e)

def execBlkGe (e : Entry) (s : State) : Result := .next (s.blkStep bGe e)

def execBlkLt (e : Entry) (s : State) : Result := .next (s.blkStep bLt e)

def execBlkLe (e : Entry) (s : State) : Result := .next (s.blkStep bLe e)

def execBlkMove (e : Entry) (s : State) : Result := .next (s.blkStep bMove e)

def execBlkSel (e : Entry) (s : State) : Result := .next (s.blkStep bSel e)

def execBlkPack16 (e : Entry) (s : State) : Result := .next (s.blkStep bPack16 e)

def execBlkUnpack16 (e : Entry) (s : State) : Result := .next (s.blkStep bUnpack16 e)

def execBlkBswap (e : Entry) (s : State) : Result := .next (s.blkStep bBswap e)

def execBlkI2q (e : Entry) (s : State) : Result := .next (s.blkStep bI2q e)

def execBlkQ2i (e : Entry) (s : State) : Result := .next (s.blkStep bQ2i e)

def execBlkScale (e : Entry) (s : State) : Result := .next (s.blkStep bScale e)

def execBlkQmul (e : Entry) (s : State) : Result := .next (s.blkStep bQmul e)

def execBlkQdiv (e : Entry) (s : State) : Result := .next (s.blkStep bQdiv e)

def execBlkQsqrt (e : Entry) (s : State) : Result := .next (s.blkStep bQsqrt e)

def execBlkQmac (e : Entry) (s : State) : Result := .next (s.blkStep bQmac e)

def execBlkTon (e : Entry) (s : State) : Result := .next (s.blkStep bTon e)

def execBlkTof (e : Entry) (s : State) : Result := .next (s.blkStep bTof e)

def execBlkTp (e : Entry) (s : State) : Result := .next (s.blkStep bTp e)

def execBlkCtu (e : Entry) (s : State) : Result := .next (s.blkStep bCtu e)

def execBlkCtd (e : Entry) (s : State) : Result := .next (s.blkStep bCtd e)

def execBlkPid (e : Entry) (s : State) : Result := .next (s.blkStep bPid e)

def execBlkLag (e : Entry) (s : State) : Result := .next (s.blkStep bLag e)

def execBlkRamp (e : Entry) (s : State) : Result := .next (s.blkStep bRamp e)

def execBlkInteg (e : Entry) (s : State) : Result := .next (s.blkStep bInteg e)

def execBlkDeriv (e : Entry) (s : State) : Result := .next (s.blkStep bDeriv e)

def execBlkDband (e : Entry) (s : State) : Result := .next (s.blkStep bDband e)

def execBlkHyst (e : Entry) (s : State) : Result := .next (s.blkStep bHyst e)

def execBlkLin (e : Entry) (s : State) : Result := .next (s.blkStep bLin e)

def execBlkAvg (e : Entry) (s : State) : Result := .next (s.blkStep bAvg e)

def execBlkWmok (e : Entry) (s : State) : Result := .next (s.blkStep bWmok e)

def execBlkLaneok (e : Entry) (s : State) : Result := .next (s.blkStep bLaneok e)

def execBlkFresh (e : Entry) (s : State) : Result := .next (s.blkStep bFresh e)

def execBlkInrange (e : Entry) (s : State) : Result := .next (s.blkStep bInrange e)

def execBlkLoadx (e : Entry) (s : State) : Result := .next (s.blkStep bLoadx e)

def execBlkStorex (e : Entry) (s : State) : Result := .next (s.blkStep bStorex e)

end Sys2Proof.Machine
end

