-- ==== Sys2Proof/Machine/Program.lean ====
section
/-! DEFINITION. The control program: requests, loading, INIT, the logic pass, the cycle's return and limits, and the
runtime services (09 R256 to R281; 10 R282 to R287). -/
namespace Sys2Proof.Machine

/-! ### Program slots (09 R266, 16 Table 16.2) -/

/-- Base of a program slot. -/
def slotBase (b : Bool) : Nat := if b then 0x300000 else 0x100000

/-- The slot ITN_RUNCTL.SLOT selects. -/
def State.slotSel (s : State) : Bool := s.regBit Reg.ITN_RUNCTL 0

/-- BOOT_PSLOT.VALID of a slot (16 R435). -/
def State.slotValid (s : State) (b : Bool) : Bool := if b then s.boot.validB else s.boot.validA

/-- n bytes of flash as a number. -/
def State.flashLe (s : State) (a n : Nat) : Nat := ofLe (s.bytesAt a n)

/-! ### The program descriptor (09 Table 9.5) -/

/-- A section. -/
structure Sect where
  ofs : Nat
  addr : Nat
  size : Nat
  flags : Nat

def Sect.x (t : Sect) : Bool := t.flags.testBit 0
def Sect.w (t : Sect) : Bool := t.flags.testBit 1
def Sect.zero (t : Sect) : Bool := t.flags.testBit 2

/-- The descriptor. -/
structure Desc where
  magic : List Byte
  form : Byte
  nsect : Nat
  init : Nat
  cycle : Nat
  error : Nat
  gp : Nat
  stackTop : Nat
  stackSize : Nat
  retBase : Nat
  retSize : Nat
  retSig : Nat
  itnOfs : Nat
  itnSize : Nat
  sects : List Sect

def State.sect (s : State) (a : Nat) : Sect := ⟨s.flashLe a 4, s.flashLe (a + 4) 4, s.flashLe (a + 8) 4, s.flashLe (a + 12) 4⟩

/-- The descriptor of the image at a base. -/
def State.desc (s : State) (base : Nat) : Desc where
  magic := s.bytesAt (base + 0x100) 4
  form := s.byte (base + 0x104)
  nsect := (s.byte (base + 0x105)).toNat
  init := s.flashLe (base + 0x108) 4
  cycle := s.flashLe (base + 0x10C) 4
  error := s.flashLe (base + 0x110) 4
  gp := s.flashLe (base + 0x114) 4
  stackTop := s.flashLe (base + 0x118) 4
  stackSize := s.flashLe (base + 0x11C) 4
  retBase := s.flashLe (base + 0x120) 4
  retSize := s.flashLe (base + 0x124) 4
  retSig := s.flashLe (base + 0x128) 4
  itnOfs := s.flashLe (base + 0x12C) 4
  itnSize := s.flashLe (base + 0x130) 4
  sects := (List.range (min 8 (s.byte (base + 0x105)).toNat)).map fun i => s.sect (base + 0x140 + 16 * i)

def Desc.native (d : Desc) : Bool := d.form.getLsbD 0
def Desc.itin (d : Desc) : Bool := d.form.getLsbD 1
def Desc.autorun (d : Desc) : Bool := d.form.getLsbD 7

/-- Sections in pairs, none overlapping. -/
def sectsApart : List Sect → Bool
  | [] => true
  | t :: l => (l.all fun u => decide (t.addr + t.size ≤ u.addr) || decide (u.addr + u.size ≤ t.addr)) && sectsApart l

/-- The range the sections of one kind span: base and size. -/
def sectSpan (l : List Sect) : Nat × Nat :=
  match l with
  | [] => (0, 0)
  | t :: r =>
    let lo := r.foldl (fun a u => min a u.addr) t.addr
    (lo, r.foldl (fun a u => max a (u.addr + u.size)) (t.addr + t.size) - lo)

def Desc.xSpan (d : Desc) : Nat × Nat := sectSpan (d.sects.filter Sect.x)
def Desc.wSpan (d : Desc) : Nat × Nat := sectSpan (d.sects.filter Sect.w)

/-- Sections without a gap between them. -/
def sectsWhole (l : List Sect) : Bool := decide ((l.map Sect.size).sum = (sectSpan l).2)

/-- n bytes from a lie inside a span. -/
def inSpan (r : Nat × Nat) (a n : Nat) : Bool := decide (n = 0) || (decide (r.1 ≤ a) && decide (a + n ≤ r.1 + r.2))

/-- The descriptor is not refused (09 R269); `size` is the image's SIZE. -/
def Desc.ok (d : Desc) (size : Nat) : Bool :=
  let x := d.sects.filter Sect.x
  let w := d.sects.filter Sect.w
  decide (d.magic = [0x50, 0x47, 0x4D, 0x31]) && (d.native || d.itin) &&
  decide (1 ≤ d.nsect) && decide (d.nsect ≤ 8) &&
  d.sects.all (fun t => decide (0x10010000 ≤ t.addr) && decide (t.addr + t.size ≤ 0x1007FF00)) && sectsApart d.sects &&
  d.sects.all (fun t => (t.x != t.w) && (!t.zero || t.w)) && sectsWhole x && sectsWhole w &&
  (!d.native || (inSpan d.xSpan d.init 1 && inSpan d.xSpan d.cycle 1 && (decide (d.error = 0) || inSpan d.xSpan d.error 1))) &&
  decide (d.stackSize ≤ d.stackTop) && inSpan d.wSpan (d.stackTop - d.stackSize) d.stackSize &&
  inSpan d.wSpan d.retBase d.retSize && (!d.itin || decide (d.itnOfs + d.itnSize ≤ size))

/-! ### The itinerary table (10 R282, R283, R287) -/

/-- A table as it lies in flash: ENTRIES, ERRIDX, the initial instance image, and the entries with their TYPE. -/
structure ItnTab where
  magic : List Byte
  entries : Nat
  erridx : Nat
  instOfs : Nat
  instSize : Nat
  reserved : List Byte
  list : List (BitVec 6 × Entry × Bool)

/-- Entry i of Table 10.2 from its four words, and whether its reserved bit is 0. -/
def entryOf (i : Nat) (w0 w1 w2 w3 : Word) : BitVec 6 × Entry × Bool :=
  ((w0 >>> 26).setWidth 6,
    ⟨i, (w0 >>> 24).setWidth 2, (w0 >>> 16).setWidth 8, w0.setWidth 16, w1.setWidth 16, (w1 >>> 16).setWidth 16,
      (w2 >>> 16).setWidth 16, w2.setWidth 16, w3.setWidth 16, (w3 >>> 17).setWidth 15⟩,
    !w3.getLsbD 16)

/-- The table at an address. -/
def State.itnTab (s : State) (a : Nat) : ItnTab :=
  let n := s.flashLe (a + 4) 2
  { magic := s.bytesAt a 4
    entries := n
    erridx := s.flashLe (a + 6) 2
    instOfs := s.flashLe (a + 8) 4
    instSize := s.flashLe (a + 12) 4
    reserved := s.bytesAt (a + 16) 16
    list := (List.range (min n 4096)).map fun i =>
      let e := a + 32 + 16 * i
      entryOf i (s.wordAt e) (s.wordAt (e + 4)) (s.wordAt (e + 8)) (s.wordAt (e + 12)) }

/-- N of a table block in the initial instance image at an address, the nearest end where it is out of range (log 41). -/
def State.initN (s : State) (img size : Nat) (inst : Nat) : Nat :=
  if 4 * inst + 4 ≤ size then clampN 1 1023 (s.flashLe (img + 4 * inst) 4) else 1

/-- Size of an entry's record. -/
def recSize (b : Blk) (n : Nat) : Nat := if b.loadx || b.storex then 1 + n else b.size

/-- Records of the entries before i, and i's own, overlap. -/
def recsClash (recs : List (Nat × Nat)) (i : Nat) : Bool :=
  let r := recs.getD i (0, 0)
  (recs.take i).any fun q => decide (0 < r.2) && decide (0 < q.2) && decide (q.1 < r.1 + r.2) && decide (r.1 < q.1 + q.2)

/-- The entry is not refused by itself: EN, references, SKIP, record, reserved bit. -/
def entryOk (entries erridx : Nat) (r : Nat × Nat) (x : BitVec 6 × Entry × Bool) : Bool :=
  let e := x.2.1
  let last := if e.index < erridx then erridx else entries
  x.2.2 && decide (e.en ≠ 3) && refInOk e.enref && refInOk e.in0 && refInOk e.in1 && refInOk e.in2 && refOutOk e.out0 &&
    refOutOk e.out1 && decide (e.index + 1 + e.skip.toNat ≤ last) &&
    (decide (r.2 = 0) || (decide (4096 ≤ r.1) && decide (r.1 + r.2 ≤ 32768)))

/-- W: the step cost of every entry (10 R298). -/
def ItnTab.wcyc (t : ItnTab) : Nat := (t.list.map fun x => (blkOf x.1).cyc).sum

/-- The header is not refused: the runtime can tell the entries, and computes W (10 R287, R298). -/
def ItnTab.headOk (t : ItnTab) : Bool :=
  decide (t.magic = [0x49, 0x54, 0x4E, 0x31]) && decide (1 ≤ t.entries) && decide (t.entries ≤ 4096) &&
    decide (t.erridx ≤ t.entries) && t.reserved.all (· = 0)

/-- Why a table is refused, as ITN_FAULTARG: 0xFFFF for the header and for a pass that does not fit (10 R287). -/
def State.itnRefusal (s : State) (t : ItnTab) (img : Nat) : Option Nat :=
  if !t.headOk then some 0xFFFF
  else
    let recs := t.list.map fun x => (x.2.1.inst.toNat, recSize (blkOf x.1) (s.initN img t.instSize x.2.1.inst.toNat))
    match (List.range t.entries).find? fun i =>
        recsClash recs i || !(t.list[i]?.any fun x => entryOk t.entries t.erridx (recs.getD i (0, 0)) x) with
    | some i => some i
    | none => if s.cycleFits (5 * t.wcyc) then none else some 0xFFFF

/-! ### Requests (09 R260 to R262) -/

/-- The handshake of both halves has passed (16 R430, R431). -/
def State.handshake (s : State) : Bool := s.boot.hsst && s.boot.hsrt

/-- The code a RUN request is refused with. -/
def State.runRefusal (s : State) : Option Half :=
  if s.sys.parts.get 2 ≠ .inService then some 0x092C
  else if !s.handshake then some 0x092A
  else if s.boot.phase = .limp then some 0x092D
  else if s.sp.walk then some 0x092E
  else if !s.cycleFits 0 then some 0x0925
  else if !s.slotValid s.slotSel then some 0x0929
  else if BitVec.ofNat 32 (s.flashLe (slotBase s.slotSel + 0x2C) 4) ≠ s.boot.rtver then some 0x092B
  else none

/-- The control core is reset and starts the runtime it holds (09 R261, 15 R419, 16 R433). -/
def State.coreReset (s : State) : State :=
  let t := s.gateOwnerReset 1
  { t with ctl.hartC := { HartState.reset with
      inReset := false
      pc := BitVec.ofNat 32 (t.flashLe (slotBase t.slotSel + 0x28) 4) } }

/-- A RUN request: LOAD, or refused with its code in ITN_FAULT; in LOAD, INIT and RUN it changes nothing (log 43). -/
def State.runAsk (src : RunSource) (s : State) : State :=
  if s.progBusy then s
  else match s.runRefusal with
    | some c =>
      let t : State := { s with ctl.fault := c }
      if src = .spMode then { t with sp.last := 3 } else t
    | none =>
      let warm := decide (s.ctl.pstate = .stop) || decide (s.ctl.pstate = .faultstop)
      let t := if s.ctl.pstate = .faultstop then s.coreReset else s
      let u : State := { t.cycleDrop with
        ctl.warmLoad := warm
        ctl.slotrun := t.slotSel
        ctl.skipped := 0
        ctl.overruns := 0
        ctl.maxus := 0
        itn.seq := .idle }
      u.progTo .load

def execRunRequest (src : RunSource) (s : State) : Result := .next (s.runAsk src)

def execStopRequest (s : State) : Result := .next s.stopAsk

/-! ### The context block (09 R272, Table 9.8) -/

def ctxBase : Nat := 0x1007FF00

/-- Write a word of the context block. -/
def State.ctxPut (ofs : Nat) (v : Word) (s : State) : State := s.pokeWord 7 (ctxBase + ofs) v

/-- FLAGS of a cycle. -/
def State.ctxFlags (s : State) : Word :=
  packW [(0, s.track.toNat), (1, s.ctl.first.toNat), (2, s.ctl.prevOver.toNat), (3, (!s.hasEpoch || s.latchFree).toNat),
    (4, (!s.hasEpoch).toNat), (5, s.driving.toNat)]

/-- Fill the context block. -/
def State.ctxFill (s : State) : State :=
  let id := packW [(0, s.svy.epoch.toNat), (8, s.nidByte.toNat), (16, s.svy.chain.toNat), (24, s.svy.cars.toNat)]
  let words : List Word := [s.ctl.cycnt, s.ctxFlags, lo32 s.ctl.ltime, hi32 s.ctl.ltime, s.tre.tcount, id,
    0x400B8800, 0x400B8000, 0x4004B000, 0x40048000, 0, s.lane.miss, BitVec.ofNat 32 s.cycleUs,
    BitVec.ofNat 32 s.deadlineUs, 0, 0]
  let frz : List Word := (List.range 8).map fun i => BitVec.ofNat 32 (s.tre.frzok.toNat / 2 ^ (32 * i))
  s.each (words ++ frz).zipIdx fun x t => t.ctxPut (4 * x.2) x.1

/-! ### LOAD (09 R270, R281; 10 R286) -/

/-- Write a run of bytes, whole words where they are whole (15 R403). -/
def State.pokeRun (src : Byte) (a : Nat) : List Byte → State → State
  | [], s => s
  | [b] , s => s.pokeBytes src a [b]
  | [b, c], s => s.pokeBytes src a [b, c]
  | [b, c, d], s => s.pokeBytes src a [b, c, d]
  | b :: c :: d :: e :: t, s =>
    if a % 4 = 0 then (s.pokeWord src a (BitVec.ofNat 32 (ofLe [b, c, d, e]))).pokeRun src (a + 4) t
    else (s.pokeBytes src a [b]).pokeRun src (a + 1) (c :: d :: e :: t)
  termination_by structural l => l

/-- Every word of a range is 0 with clean check bits. -/
def State.zeroRange (a n : Nat) (s : State) : State :=
  let inside (x : Nat) : Bool := decide (a ≤ x) && decide (x < a + n)
  { s with
    mem.cells := s.mem.cells.filter fun c => !inside c.1
    mem.errs := s.mem.errs.filter fun e => !inside e.1 }

/-- The words of a range stay as they were in `old`. -/
def State.keepRange (a n : Nat) (old s : State) : State :=
  let inside (x : Nat) : Bool := decide (a ≤ x) && decide (x < a + n)
  let t := (s.zeroRange a n).setBytes a (old.bytesAt a n)
  { t with mem.errs := t.mem.errs ++ old.mem.errs.filter fun e => inside e.1 }

/-- Copy or zero-fill one section. -/
def State.loadSect (base : Nat) (t : Sect) (s : State) : State :=
  if t.zero then s.pokeRun 1 t.addr (List.replicate t.size 0) else s.pokeRun 1 t.addr (s.bytesAt (base + t.ofs) t.size)

/-- Base of save slot 0 or 1 (15 R414). -/
def saveBase (b : Bool) : Nat := if b then 0xFE000 else 0xFC000

/-- A committed save that has not been restored, with its RETSIG and RETSIZE. -/
def State.saveOpen (s : State) : Option (Bool × Nat × Nat) :=
  match s.mem.newestSave with
  | some (_, slot) =>
    let a := saveBase slot
    if s.wordAt (a + 0x18) = 0xFFFFFFFF then some (slot, s.flashLe (a + 8) 4, s.flashLe (a + 12) 4) else none
  | none => none

/-- A record of 32 bytes as it was saved (08 Table 8.3). -/
def recOf (b : List Byte) : FbRec where
  type := byteAt b 0
  flags := byteAt b 1
  time := BitVec.ofNat 64 (ofLe (slice b 4 8))
  tcount := BitVec.ofNat 32 (ofLe (slice b 12 4))
  epoch := byteAt b 16
  nid := byteAt b 17
  source := byteAt b 18
  repeat_ := byteAt b 19
  data := BitVec.ofNat 64 (ofLe (slice b 20 8))

/-- Restoring a save: RESTORED is programmed, the saved records and a power-fail save record are appended to the Field Book,
before what waits in the queue (15 R415). -/
def State.saveRestored (slot : Bool) (retsize : Nat) (s : State) : State :=
  let a := saveBase slot
  let n := min 32 (s.flashLe (a + 16) 4)
  let t := s.flashAndBytes (a + 0x18) [0, 0, 0, 0]
  let rs := (List.range n).map fun i =>
    let r := recOf (t.bytesAt (a + 0x20 + retsize + 32 * i) 32)
    { r with flags := setBit r.flags 0 }
  { t with fbk.restored := rs ++ [t.fbRec 4 0 (BitVec.ofNat 64 n)] }

/-- The reason of R281 for a program with this RETSIG and RETSIZE. -/
def State.retReason (s : State) (d : Desc) : BitVec 2 :=
  let prev := if s.ctl.warmLoad then s.ctl.retained.map fun r => (r.1.toNat, r.2.2.toNat) else none
  match s.saveOpen, prev with
  | some (_, sig, size), p =>
    if sig = d.retSig ∧ size = d.retSize then 1 else if p = some (d.retSig, d.retSize) then 2 else 3
  | none, some p => if p = (d.retSig, d.retSize) then 2 else 3
  | none, none => 0

/-- Fill the retained region: restored, kept as it was before the sections were copied, or zeroed with EV246. -/
def State.retFill (d : Desc) (old s : State) : State :=
  let r := old.retReason d
  let t : State := { s with ctl.initrsn := r }
  if r = 1 then
    match t.saveOpen with
    | some (slot, _, size) => (t.pokeRun 1 d.retBase (t.bytesAt (saveBase slot + 0x20) size)).saveRestored slot size
    | none => t
  else if r = 2 then State.keepRange d.retBase d.retSize old t
  else (t.zeroRange d.retBase d.retSize).raise 246

/-- PMP entries of Table 9.6: [0] R, [1] W, [2] X. -/
def pmpOf (d : Desc) : List (Word × Word × BitVec 3) :=
  let w (x : Nat) : Word := BitVec.ofNat 32 x
  [(w d.xSpan.1, w d.xSpan.2, 5), (w d.wSpan.1, w d.wSpan.2, 3), (0x1007FF00, 0x100, 1), (0x400B8800, 0x400, 1),
    (0x400B8000, 0x400, 3), (0x4004B000, 0x1000, 1), (0x40048000, 0x800, 3), (0x20000000, if d.itin then 0x20000 else 0, 3)]

/-- The address register of a NAPOT entry for a range; none where no such entry covers exactly it. -/
def napotOf (r : Word × Word × BitVec 3) : Option Word :=
  let n := r.2.1.toNat
  if 8 ≤ n ∧ n = 2 ^ Nat.log2 n ∧ r.1.toNat % n = 0 then some (BitVec.ofNat 32 (r.1.toNat / 4 + (n / 8 - 1))) else none

/-- LOAD programs the PMP (09 R270, Table 9.6): the ranges, and pmpcfg and pmpaddr, each entry as NAPOT. The address register
of a range that no NAPOT entry covers is a free value (log 222). A locked entry stays. -/
def State.pmpLoad (d : Desc) (s : State) : State :=
  let h := s.ctl.hartC
  let rs := pmpOf d
  let locked (i : Nat) : Bool := (h.pmpCfg i).getLsbD 7
  let cfg (i : Nat) : Nat :=
    let r := rs.getD i (0, 0, 0)
    if locked i then (h.pmpCfg i).toNat else if r.2.1 = 0 then 0 else 0x18 + r.2.2.toNat
  let adr (i : Nat) : Word :=
    if h.pmpAddrLocked i then h.csr (0x3B0 + i)
    else (napotOf (rs.getD i (0, 0, 0))).getD (BitVec.ofNat 32 (Config.freeNat (s.free + i)))
  let word (k : Nat) : Word := packW ([0, 1, 2, 3].map fun i => (8 * i, cfg (4 * k + i)))
  let h' := (List.range 8).foldl (fun x i => x.put (0x3B0 + i) (adr i)) ((h.put 0x3A0 (word 0)).put 0x3A1 (word 1))
  { s with
    ctl.hartC := h'
    ctl.pmp := (List.range 8).map fun i => if locked i then s.ctl.pmp.getD i (0, 0, 0) else rs.getD i (0, 0, 0)
    free := s.free + 8 }

/-- Load the itinerary: table, cost, instance memory (10 R286, R298). -/
def State.loadItn (d : Desc) (base : Nat) (s : State) : State :=
  if !d.itin then { s with itn.table := [], itn.erridx := 0, itn.wcyc := 0, itn.sizes := [] }
  else
    let t := s.itnTab (base + d.itnOfs)
    let img := base + t.instOfs
    let u := (s.zeroRange 0x20000000 0x20000).pokeRun 1 0x20000000 (s.bytesAt img (min t.instSize 0x20000))
    let tabs := t.list.filter fun x => (blkOf x.1).loadx || (blkOf x.1).storex
    { u with
      itn.table := t.list.map fun x => (x.1, x.2.1)
      itn.erridx := t.erridx
      itn.wcyc := BitVec.ofNat 32 t.wcyc
      itn.sizes := tabs.map fun x => (x.2.1.inst.toNat, s.initN img t.instSize x.2.1.inst.toNat) }

/-- x0 to x31 as an entry of the program finds them: sp, gp, tp and the arguments; ra is the runtime's own address, which the
spec does not give, and no other register persists from an earlier call: free values (09 R271; log 186). -/
def State.entryRegs (s : State) (a0 a1 : Word) : Vector Word 32 :=
  vmk 0 fun i => match i.val with
    | 0 => 0 | 2 => s.ctl.stacktop | 3 => s.ctl.gpval | 4 => 0 | 10 => a0 | 11 => a1
    | k => BitVec.ofNat 32 (Config.freeNat (s.free + k))

/-- Call an entry of the program in U mode (09 R265, R271). A trigger at the entry halts the core there, or traps (16 R446). -/
def State.callEntry (pc a0 a1 : Word) (s : State) : State :=
  let x : HartState := { s.ctl.hartC.enterUser pc with x := s.entryRegs a0 a1 }
  { s with
    ctl.hartC := (match x.trigger 2 pc.toNat with | some i => x.fire i pc.toNat pc | none => x)
    free := s.free + 32 }

/-- A trap of the control core whose instruction no command names: mepc is a free value (log 224). -/
def State.trapFree (cause tval : Word) (s : State) : State :=
  State.took { s with ctl.hartC := s.ctl.hartC.trap cause (BitVec.ofNat 32 s.draw) tval }

/-- The program is back in the runtime, in M mode; the one trap of U-mode code that is no fault is ECALL (09 R265, R271,
Table 9.11; log 224). -/
def State.callBack (s : State) : State := s.when s.ctl.hartC.user (State.trapFree 8 0)

/-- LOAD finishes: the descriptor and the itinerary are judged, everything is copied, and INIT is called. -/
def State.loadDone (s : State) : State :=
  if s.ctl.pstate ≠ .load then s
  else
    let base := slotBase s.ctl.slotrun
    let d := s.desc base
    if !d.ok (s.flashLe (base + 0x10) 4) then s.faultStop 0x0923 s.mepc
    else
      let tab := s.itnTab (base + d.itnOfs)
      match if d.itin then s.itnRefusal tab (base + tab.instOfs) else none with
      | some i =>
        let t : State := if tab.headOk then { s with itn.wcyc := BitVec.ofNat 32 tab.wcyc } else s
        (t.raise 250).faultStop 0x0926 (BitVec.ofNat 32 i)
      | none =>
        let a := s.each d.sects fun t u => u.loadSect base t
        let b := State.retFill d s a
        let c := b.loadItn d base
        let w (x : Nat) : Word := BitVec.ofNat 32 x
        let e : State := { c with
          ctl.retained := some (w d.retSig, w d.retBase, w d.retSize)
          ctl.native := d.native
          ctl.itin := d.itin
          ctl.entryInit := w d.init
          ctl.entryCycle := w d.cycle
          ctl.entryError := w d.error
          ctl.gpval := w d.gp
          ctl.stacktop := w d.stackTop
          itn.seq := .idle
          itn.firstPass := true }
        let f := (e.pmpLoad d).ctxFill
        let g := if d.native then f.callEntry f.ctl.entryInit (f.ctl.initrsn.setWidth 32) (BitVec.ofNat 32 ctxBase) else f
        g.progTo .init

def execLoadComplete (s : State) : Result := .next (s.when s.coreRuns fun s => s.loadDone)

/-! ### INIT -/

/-- RUN is entered: cycles count from 0, and a node that has had no milestone takes its own period and latch (09 R258). -/
def State.runEnter (s : State) : State :=
  let t : State := { s with
    ctl.cycnt := 0
    ctl.first := true
    ctl.prevOver := false
    ctl.running := false
    ctl.waiting := false
    ctl.overran := false
    ctl.returned := false
    ctl.committed := false
    ctl.pendcause := 0
    ctl.prevEpoch := s.svy.epoch
    ctl.prevFree := !s.hasEpoch || s.latchFree
    tre.localT0s := 0 }
  let lat := t.reg Reg.TRE_LATCH
  let u := if t.tre.heardMil then t else
    ({ t with
      tre.per := BitVec.ofNat 12 (clampN 8 2048 (t.regFld Reg.TRE_PERIOD 0 12))
      tre.cratio := (lat >>> 30).setWidth 2
      tre.mtime := t.tre.time
      tre.lastLatch := some (0 - BitVec.ofNat 32 (2 ^ fld lat 30 2)) }).latSet true (fld lat 0 22)
  u.progTo .run

/-- INIT returns; an itinerary-only program has no INIT, and its runtime returns 0 (log 44). -/
def State.initDone (a0 : Word) (s : State) : State :=
  if s.ctl.pstate ≠ .init then s
  else
    let t := s.callBack
    if t.ctl.native ∧ a0 ≠ 0 then t.faultStop 0x0922 t.mepc
    else if t.ctl.stopReq then (t.cycleDrop).progTo .stop
    else t.runEnter

def execInitReturn (a0 : Word) (s : State) : Result := .next (s.when s.coreRuns fun s => s.initDone a0)

def execInitTimeout (s : State) : Result :=
  .next (s.when s.coreRuns fun s => if s.ctl.pstate = .init then s.faultStop 0x0924 s.mepc else s)

/-! ### The logic pass (09 R256, R275; 10 R299, R300) -/

/-- A program is in the hands of the runtime: INIT or a cycle is running. -/
def State.progActive (s : State) : Bool :=
  decide (s.ctl.pstate = .init) || decide (s.ctl.pstate = .run) || s.ctl.running

/-- FLAGS of this cycle, as the context block holds them since L (09 Table 9.7, Table 9.8). -/
def State.cycleFlags (s : State) : Word := s.wordAt (ctxBase + 4)

/-- The native CYCLE entry, once the pass is over (10 R300). -/
def State.passHook (s : State) : State :=
  s.when (decide (s.itn.seq = .hook)) fun t => t.callEntry t.ctl.entryCycle (BitVec.ofNat 32 ctxBase) t.cycleFlags

/-- The itinerary and the native CYCLE entry, after the error task. -/
def State.passBody (sv : Served → State → State) (l : List Served) (s : State) : State :=
  if s.itn.seq = .halt ∨ s.itn.at_.isSome = true then s
  else if s.ctl.itin || s.ctl.native then (s.runMain sv l).passHook else s.passHook

/-- A pass that a walk step ended in goes on (10 R301). -/
def State.passGo (sv : Served → State → State) (s : State) : State :=
  match s.itn.at_ with
  | none => s
  | some i =>
    let t : State := { s with itn.at_ := none }
    if t.itn.seq = .errseq then (t.errorsFrom sv i []).passBody sv []
    else if t.itn.seq = .main then (t.mainFrom sv i []).passHook
    else t

/-- The logic pass of the cycle in progress starts: the error task runs first where a cause is pending and the program has
one; the ERROR entry returns by CYCLE_RETURN (log 45). The operand holds the accesses served between entries, by sv. -/
def State.logicPass (sv : Served → State → State) (l : List Served) (s : State) : State :=
  if !s.ctl.running || !s.ctl.waiting then s
  else
    let a := ({ s with ctl.waiting := false }).passStart
    let c := s.ctl.pendcause
    let entry := a.ctl.native && decide (a.ctl.entryError ≠ 0)
    let seq := a.ctl.itin && decide (a.itn.erridx < a.itn.table.length)
    if c ≠ 0 ∧ (entry || seq) = true then
      let b := State.raise 245
        ((({ a with ctl.pendcause := 0, ctl.errcause := c }).ctxPut 0x28 (c.setWidth 32)).count1 7 16)
      if entry then ({ b with ctl.inError := true }).callEntry b.ctl.entryError (BitVec.ofNat 32 ctxBase) (c.setWidth 32)
      else (b.runErrors sv l).passBody sv l
    else a.passBody sv l

/-! ### The cycle ends (09 R257, R276; Table 9.7) -/

/-- The output image is committed: it is taken at the output deadline (11 R319). -/
def State.outCommit (s : State) : State := { s with lane.go := true }

/-- The cycle returns: times, commits, a request to stop. An overrun cycle's output image is discarded. -/
def State.cycleDone (a0 : Word) (us : Nat) (s : State) : State :=
  let a := if s.ctl.native then a0 else 0
  let t : State := { s with
    ctl.lastus := BitVec.ofNat 16 (sat 16 us)
    ctl.maxus := BitVec.ofNat 16 (max s.ctl.maxus.toNat (sat 16 us))
    ctl.running := false
    ctl.overran := false
    ctl.prevOver := s.ctl.overran
    ctl.returned := true
    ctl.keepOut := a.getLsbD 1
    itn.seq := if s.itn.seq = .hook then .idle else s.itn.seq }
  let u : State := if a.getLsbD 0 then t else { t with tre.commit := true }
  let v := if s.ctl.overran || a.getLsbD 1 then u else u.outCommit
  v.when (a.getLsbD 31) State.stopAsk

/-- A return of the ERROR entry, or of the cycle. -/
def State.cycleReturn (sv : Served → State → State) (a0 : Word) (us : Nat) (l : List Served) (s : State) : State :=
  if !s.ctl.running || s.ctl.waiting || s.itn.at_.isSome then s
  else if s.ctl.inError then
    let t : State := { s.callBack with ctl.inError := false }
    (t.when (decide (a0 = 1)) State.stopAsk).passBody sv l
  else s.callBack.cycleDone a0 us

/-- The output deadline comes with the cycle still running (09 R276). -/
def State.overrun (s : State) : State :=
  if !s.ctl.running || s.ctl.overran then s
  else
    let t := (({ s with ctl.overran := true, ctl.overruns := satSucc s.ctl.overruns }).raise 243).cause 2
    t.when t.ovrstop fun u => u.faultStop 0x0921 u.mepc

def execOutputDeadline (s : State) : Result := .next (s.when s.coreRuns fun s => s.overrun)

/-- WDOG latch instants have passed since the running cycle's own (09 R278). -/
def State.watchdog (s : State) : State :=
  if s.ctl.running && decide (s.wdogN ≤ s.ctl.sinceOwn) then (s.raise 244).faultStop 0x0920 s.mepc else s

def execCycleWatchdog (s : State) : Result := .next (s.when s.coreRuns fun s => s.watchdog)

/-- An ECALL whose service number in a7 is none of Table 9.10 returns -1 in a0, after the ECALL; a service of the table is its
own command (09 R273; log 187). -/
def State.ecall (mepc : Word) (s : State) : State :=
  let a7 := s.ctl.hartC.x.getD 17 0
  if 1 ≤ a7.toNat ∧ a7.toNat ≤ 10 then s
  else
    let h := s.ctl.hartC.trap 8 mepc 0
    { s with ctl.hartC := { (h.put 0x341 (mepc + 4)).back with x := vset h.x 10 0xFFFFFFFF } }

/-- A U-mode exception: ECALL asks for a service, any other faults the program, an illegal instruction among them; mtval is not
in the command, a free value (09 R265, Table 9.11; log 224). -/
def State.progFault (mcause : BitVec 4) (mepc : Word) (s : State) : State :=
  if !s.progActive then s
  else if mcause = 8 then s.ecall mepc
  else
    let t : State := { s with ctl.hartC := s.ctl.hartC.trap (mcause.setWidth 32) mepc (BitVec.ofNat 32 s.draw) }
    t.took.faultStop (0x0900 + mcause.setWidth 16) mepc

def execProgramFault (mcause : BitVec 4) (mepc : Word) (s : State) : Result :=
  .next (s.when s.coreRuns fun s => s.progFault mcause mepc)

/-- A core's access fails: an access fault, of a load or of a store, with the address in mtval. In M mode what follows is the
core's software; in U mode it is a program fault (09 R265, R279; 15 Table 15.1). -/
def State.coreFault (m : Master) (write : Bool) (a : Nat) (s : State) : State :=
  let cause : Half := if write then 7 else 5
  let tval := BitVec.ofNat 32 a
  match m with
  | .control => s.trapFree (cause.setWidth 32) tval
  | .controlU =>
    let t := s.trapFree (cause.setWidth 32) tval
    t.when t.progActive fun u => u.faultStop (0x0900 + cause) u.mepc
  | .steward => State.took { s with ctl.hartS := s.ctl.hartS.trap (cause.setWidth 32) (BitVec.ofNat 32 s.draw) tval }
  | _ => s

/-- The hart whose instructions make a master's accesses. -/
def masterHart : Master → Option Hart
  | .control | .controlU => some .control
  | .steward => some .steward
  | _ => none

/-- A trigger names this access of a master, which is then not made: what it does instead. No command names the instruction, so the
mepc of an exception is a free value; in U mode it is a program fault (16 R446, 09 R279; log 224). -/
def State.trigTake (m : Master) (kind a : Nat) (s : State) : Option State :=
  (masterHart m).bind fun h => ((s.hart h).trigger kind a).map fun i =>
    let t := State.took (s.setHart h ((s.hart h).fire i a (BitVec.ofNat 32 s.draw)))
    t.when (decide (m = .controlU) && !(t.hart h).halted && t.progActive) fun u => u.faultStop 0x0903 u.mepc

/-- An access is answered with an access fault, or an error response (00 R12; 15 R418, Table 15.1). -/
def State.accFault (m : Master) (write : Bool) (a : Nat) (s : State) : State :=
  (s.emit (.accessFault m (BitVec.ofNat 32 a))).coreFault m write a

/-- An access to a word of a master that no trigger names goes on. -/
def State.unlessTrig (m : Master) (write : Bool) (a : Nat) (f : State → State) (s : State) : State :=
  match s.trigTake m (if write then 1 else 0) a with
  | some t => t
  | none => f s

/-- An access by a master to a register, once it is clocked: what the access does, unless a trigger names it or the master may
not make it (00 R12; 02 R62; 09 R267; 16 R446). -/
def State.access (m : Master) (write : Bool) (a : Nat) (f : State → State) (s : State) : State :=
  s.when (s.masterRuns m) (State.unlessTrig m write a fun t => if t.masterAllows m write a then f t else t.accFault m write a)

/-! ### The latch instant's share (09 R255, R262, R277) -/

/-- Causes of Table 9.9 that are known at L. -/
def State.latchCauses (s : State) : State :=
  let free := !s.hasEpoch || s.latchFree
  let watched := (List.range s.tre.table.length).any fun i => s.regArrBit Reg.ITN_WMWATCH i && !s.tre.frzok.getLsbD i
  let a := s.when (free && !s.ctl.prevFree) (State.cause 4)
  let b := a.when (decide (s.svy.epoch ≠ s.ctl.prevEpoch)) (State.cause 5)
  let c := b.when watched (State.cause 1)
  { c with ctl.prevFree := free, ctl.prevEpoch := s.svy.epoch }

/-- A cycle starts. -/
def State.cycleStart (s : State) : State :=
  let t := s.ctxFill
  { t with
    ctl.running := true
    ctl.waiting := true
    ctl.sinceOwn := 0
    ctl.overran := false
    ctl.returned := false
    ctl.first := false
    ctl.cycnt := t.ctl.cycnt + 1 }

/-- What the program does at a latch instant: a cycle still running makes it skipped, whether or not a STOP takes effect or has
taken effect (09 R262, R277); a STOP takes effect; else a cycle starts. -/
def State.latchCycle (s : State) : State :=
  let a : State := if s.ctl.running then
      { s with ctl.sinceOwn := s.ctl.sinceOwn + 1, ctl.skipped := satSucc s.ctl.skipped }
    else s
  if a.ctl.pstate ≠ .run then a.ctxFill
  else
    let b := a.latchCauses
    if b.ctl.stopReq then (({ b with ctl.stopReq := false }).progTo .stop).ctxFill
    else if b.ctl.running then b.ctxFill
    else b.cycleStart

/-! ### Runtime services (09 R273, R274, Table 9.10) -/

/-- The runtime goes back to the code behind the ECALL, unless it took a trap of its own. -/
def State.svcBack (s : State) : State :=
  let h := s.ctl.hartC
  if h.csr 0x342 = 8 then { s with ctl.hartC := (h.put 0x341 (h.csr 0x341 + 4)).back } else s

/-- A service: the ECALL traps, the runtime answers and goes back (09 R265, R273; log 224). -/
def State.service (f : State → State) (s : State) : State :=
  s.when s.coreRuns fun t => (f (t.trapFree 8 0)).svcBack

/-- Results in a0 and a1. -/
def State.svcRet (a0 a1 : Word) (s : State) : State :=
  { s with ctl.hartC.x := vset (vset s.ctl.hartC.x 10 a0) 11 a1 }

/-- The result in a0 alone. -/
def State.svcRet0 (a0 : Word) (s : State) : State := { s with ctl.hartC.x := vset s.ctl.hartC.x 10 a0 }

/-- Error codes: -2 bad argument, -4 busy, -5 full or empty. -/
def errArg : Word := 0xFFFFFFFE
def errBusy : Word := 0xFFFFFFFC
def errFull : Word := 0xFFFFFFFB

def execTimeNow (s : State) : Result := .next (s.service fun s => s.svcRet (lo32 s.tre.time) (hi32 s.tre.time))

/-- A user record, with no effect in tracking mode; a full queue drops and counts it (08 R251). -/
def State.svcFbUser (a0 a1 : Word) (s : State) : State :=
  if s.track then s.svcRet0 0
  else (s.fbUser a0 a1).svcRet0 (if 32 ≤ s.fbk.queue.length then errFull else 0)

def execFbUser (a0 a1 : Word) (s : State) : Result := .next (s.service (State.svcFbUser a0 a1))

/-- A gate number below n. -/
def gateArg (a0 : Word) : Option (Fin 32) := if h : a0.toNat < 32 then some ⟨a0.toNat, h⟩ else none

def State.svcGateTry (a0 : Word) (s : State) : State :=
  match gateArg a0 with
  | some g =>
    if g.val = 31 then s.svcRet0 errArg
    else if (s.gateTryVal 1 g).getLsbD 31 then (s.gateTryFx 1 g).svcRet 0 (boolWord (s.gate g).broken)
    else s.svcRet0 errBusy
  | none => s.svcRet0 errArg

def execGateTry (a0 : Word) (s : State) : Result := .next (s.service (State.svcGateTry a0))

def State.svcGateRelease (a0 : Word) (s : State) : State :=
  match gateArg a0 with
  | some g => if g.val = 31 || s.gateRelRefused 1 g then s.svcRet0 errArg else (s.gateRelFx 1 g).svcRet0 0
  | none => s.svcRet0 errArg

def execGateRelease (a0 : Word) (s : State) : Result := .next (s.service (State.svcGateRelease a0))

/-- A queue number. -/
def queueArg (a0 : Word) : Option (Fin 16) := if h : a0.toNat < 16 then some ⟨a0.toNat, h⟩ else none

def State.svcQueuePush (a0 a1 : Word) (s : State) : State :=
  match queueArg a0 with
  | some q => (s.queuePush 1 q a1).svcRet0 (if 16 ≤ (s.queue q).items.length then errFull else 0)
  | none => s.svcRet0 errArg

def execQueuePush (a0 a1 : Word) (s : State) : Result := .next (s.service (State.svcQueuePush a0 a1))

def State.svcQueuePop (a0 : Word) (s : State) : State :=
  match queueArg a0 with
  | some q =>
    if (s.queue q).items.isEmpty then (s.queuePopFx 1 q).svcRet0 errFull else (s.queuePopFx 1 q).svcRet 0 (s.queueHead q)
  | none => s.svcRet0 errArg

def execQueuePop (a0 : Word) (s : State) : Result := .next (s.service (State.svcQueuePop a0))

def execReqStop (s : State) : Result := .next (s.service fun s => s.stopAsk.svcRet0 0)

/-- The fault service does not return (09 Table 9.10). -/
def execFault (a0 : Word) (s : State) : Result :=
  .next (s.when (s.coreRuns && s.progActive) fun s => (s.trapFree 8 0).faultStop 0x0922 a0)

end Sys2Proof.Machine
end

