-- ==== Sys2Proof/Machine/Lane.lean ====
section
/-! DEFINITION. The Lane: frames and slots, marks, passes, the images, drop-out and substitutes, start-up and ranging, and
the tracking comparison (11 R302 to R325; 12 R342). -/
namespace Sys2Proof.Machine

/-! ### Configuration (11 Registers) -/

/-- Stations in use, LEAD in us, HOLD and HEALT in 10 ms, OLEN and ILEN of a station (index from 0). -/
def State.nst (s : State) : Nat := min 32 (s.regFld Reg.LANE_CFG 24 6)
def State.leadUs (s : State) : Nat := clampN 5 255 (s.regFld Reg.LANE_CFG 16 8)
def State.holdTens (s : State) : Nat := clampN 1 255 (s.regFld Reg.LANE_CFG 8 8)
def State.healTens (s : State) : Nat := clampN 1 255 (s.regFld Reg.LANE_CFG 0 8)
def State.olen (s : State) (i : Nat) : Nat := min 32 (s.regFld (Reg.at Reg.LANE_ST i) 16 6)
def State.ilen (s : State) (i : Nat) : Nat := min 32 (s.regFld (Reg.at Reg.LANE_ST i) 8 6)

/-- The stations in use, as a mask and as indices. -/
def State.inUse (s : State) : Word := BitVec.ofNat 32 (2 ^ s.nst - 1)
def State.stations (s : State) : List Nat := List.range s.nst

/-- L1 transmit is looped to L2 receive, and the pins stay undriven (11 R325). -/
def State.laneLoop (s : State) : Bool := s.regBit Reg.LANE_CTL 4 || s.sp.walk

/-- The Lane sends DATA passes: in RUN or TURNED with permission, or into the loop. -/
def State.laneSends (s : State) : Bool :=
  s.lane.enabled && (s.laneLoop || (s.lane.perm && (decide (s.lane.state = .run) || decide (s.lane.state = .turned))))

/-- The Lane is in START with permission. -/
def State.laneStarts (s : State) : Bool := s.lane.enabled && s.lane.perm && decide (s.lane.state = .start)

/-! ### Frames and slots (11 R306 to R308, Tables 11.1 and 11.2) -/

/-- The header. -/
structure LHdr where
  type : Nat
  dir : Bool
  deliver : Bool
  cnt : Byte
  nslot : Nat
  target : Nat
  len : Nat
  hcrcOk : Bool
  deriving DecidableEq, Repr

def LHdr.parse (b : List Byte) : LHdr where
  type := fld (byteAt b 0) 4 4
  dir := (byteAt b 0).getLsbD 3
  deliver := (byteAt b 0).getLsbD 2
  cnt := byteAt b 1
  nslot := (byteAt b 2).toNat
  target := (byteAt b 3).toNat
  len := beAt b 4 2
  hcrcOk := decide (beAt b 6 2 = (crc16 (slice b 0 6)).toNat)

/-- A slot: CMD, TOG, station index, OUT, and I input bytes to come. -/
def laneSlot (cnt : Byte) (safe tog : Bool) (i : Nat) (out : List Byte) (ins : Nat) : List Byte :=
  let head : List Byte := [BitVec.ofNat 8 (safe.toNat * 128 + tog.toNat * 32 + i), BitVec.ofNat 8 (out.length + ins)] ++ out
  head ++ beBytes 2 (crc16 (cnt :: head)).toNat ++ List.replicate (ins + 3) 0

/-- A frame of given slots. -/
def laneFrame (type : Nat) (dir deliver : Bool) (cnt : Byte) (target : Nat) (slots : List (List Byte)) : List Byte :=
  let body := slots.flatten
  let h : List Byte := [BitVec.ofNat 8 (type * 16 + dir.toNat * 8 + deliver.toNat * 4), cnt, BitVec.ofNat 8 slots.length,
    BitVec.ofNat 8 target] ++ beBytes 2 (8 + body.length)
  h ++ beBytes 2 (crc16 h).toNat ++ body

/-- A slot as received: station index, TOG, OUT with OCRC valid, ISTAT, inputs, ICRC valid. -/
structure LSlot where
  pos : Nat
  tog : Bool
  out : List Byte
  ocrcOk : Bool
  istat : Byte
  ins : List Byte
  icrcOk : Bool
  /-- A byte of the slot was read with a parity error (11 Table 11.6). -/
  par : Bool
  deriving DecidableEq, Repr

/-- Read a slot whose station has O output bytes. -/
def LSlot.parse (cnt : Byte) (o : Nat) (b : List Byte) : LSlot :=
  let n := (byteAt b 1).toNat
  let i := n - o
  { pos := fld (byteAt b 0) 0 5
    tog := (byteAt b 0).getLsbD 5
    out := slice b 2 o
    ocrcOk := decide (o ≤ n) && decide (beAt b (o + 2) 2 = (crc16 (cnt :: slice b 0 (o + 2))).toNat)
    istat := byteAt b (o + 4)
    ins := slice b (o + 5) i
    icrcOk := decide (o ≤ n) && decide (beAt b (o + 5 + i) 2 = (crc16 (cnt :: slice b (o + 4) (i + 1))).toNat)
    par := false }

/-- The slots of a frame, each found by the SLEN of the one before (11 Table 11.3); `bad` are the places of bytes read with a
parity error, counted from where the next slot starts. -/
def laneSlots (olen : Nat → Nat) (cnt : Byte) : Nat → List Nat → List Byte → List LSlot
  | 0, _, _ => []
  | k + 1, bad, b =>
    let n := 7 + (byteAt b 1).toNat
    if b.length < n then []
    else
      { LSlot.parse cnt (olen (fld (byteAt b 0) 0 5)) (b.take n) with par := bad.any fun x => decide (x < n) } ::
        laneSlots olen cnt k ((bad.filter fun x => decide (n ≤ x)).map (· - n)) (b.drop n)

/-- The slots of a received frame; IDENT slots have O = 0 and CONFIG slots O = 9. -/
def State.rxSlots (s : State) (h : LHdr) (f : LaneRx) : List LSlot :=
  let o (i : Nat) : Nat := if h.type = 2 then 0 else if h.type = 4 then 9 else s.olen i
  laneSlots o h.cnt h.nslot ((f.bad.filter fun x => decide (8 ≤ x)).map (· - 8)) (f.bytes.drop 8)

/-! ### The check of the configuration (11 R324) -/

/-- LEN of a DATA pass, and the time of a frame in ns. -/
def State.laneLen (s : State) : Nat := 8 + (s.stations.map fun i => 7 + s.olen i + s.ilen i).sum
def laneNs (len : Nat) : Nat := 800 * (len + 6)

/-- The largest RTT1, 1 us per station where none is measured. -/
def State.rttMax (s : State) : Nat :=
  (s.stations.map fun i => ((s.lane.rtt1.getD i none).getD (1000 * (i + 1)))).foldl max 0

def State.laneFits (s : State) : Bool :=
  let ns := laneNs s.laneLen + s.rttMax
  decide ((s.lease + 1) * s.cycleUs < 10000 * s.holdTens) && decide (10000 + ns ≤ 1000 * s.inwaitUs) &&
    decide (ns + 1000 * s.leadUs + 4000 ≤ 1000 * s.outguardUs)

/-! ### States (11 R322) -/

/-- START begins, unless the configuration is refused with EV203 (11 R324). -/
def State.laneStart (s : State) : State :=
  if !s.laneFits then s.raise 203
  else
    let t : State := { s with
      lane.step := 0
      lane.configured := 0
      lane.accepted := 0
      lane.rtt1 := Vector.replicate 32 none
      lane.rtt2 := Vector.replicate 32 none
      lane.turnNext := none }
    t.laneTo .start

/-- Every station in use has reported CFG = 1, with its PRODUCT, in the last 4 heard collect passes (11 Table 11.4). -/
def State.allHeard (s : State) : Bool :=
  decide (0 < s.nst) && decide (4 ≤ s.lane.heardCfg) && s.stations.all fun i =>
    decide (s.reg (Reg.at Reg.LANE_PID i) = 0) || decide (s.reg (Reg.at Reg.LANE_PID i) = s.lane.id.getD i 0)

/-- Permission: START, or RUN at once where every station is known to be configured; FAIL is left only at a permission that has
just begun (11 Table 11.4). -/
def State.lanePermit (fresh : Bool) (s : State) : State :=
  if s.lane.state = .listen ∧ s.allHeard = true then ({ s with lane.configured := s.inUse }).laneTo .run
  else if s.lane.state = .listen ∨ (s.lane.state = .fail ∧ fresh = true) then s.laneStart
  else s

/-- The Lane is off. -/
def State.laneOff (s : State) : State :=
  ({ s with lane.enabled := false, lane.stopping := false, lane.pass := none, lane.turnNext := none,
            lane.heardCfg := 0 }).laneTo .off

/-- What R314 and R315 decided takes effect with the next pass or mark: EV195, EV196. -/
def State.laneTurn (s : State) : State :=
  match s.lane.turnNext, s.lane.state with
  | some true, .run => (({ s with lane.turnNext := none }).laneTo .turned).raise 195
  | some false, .turned => (({ s with lane.turnNext := none }).laneTo .run).raise 196
  | _, .run | _, .turned => { s with lane.turnNext := none }
  | _, _ => s

/-- Two copies go out: TURNED, or START on a broken ring (11 R314, Table 11.5); into the loop one goes. -/
def State.twoCopies (s : State) : Bool :=
  !s.laneLoop &&
    (decide (s.lane.state = .turned) || (decide (s.lane.state = .start) && decide (s.lane.turnNext = some true)))

/-! ### Sending -/

/-- One frame leaves; into the loop it stays inside the node. -/
def State.laneTx (onL2 : Bool) (b : List Byte) (s : State) : State :=
  let t := ((s.count1 7 2).count 7 3 (b.length + 4))
  if s.laneLoop then t else t.emit (.lane onL2 b (crc32 b))

/-- The slots of a DATA pass, from the sent output image (11 R320). -/
def State.dataSlots (s : State) (tog : Bool) : List (List Byte) :=
  s.stations.map fun i =>
    laneSlot s.lane.cnt (s.regBit (Reg.at Reg.LANE_ST i) 30) tog i (s.bytesAt (0x400B8400 + 32 * i) (s.olen i)) (s.ilen i)

/-- Words of the sent image whose parity is wrong are met as they are read. -/
def State.sentParity (s : State) : State :=
  s.each ((List.range (8 * s.nst)).filter fun w => decide (4 * (w % 8) < s.olen (w / 8))) fun w t =>
    t.parityFx 7 .lane (0x400B8400 + 4 * w) 0xF

/-- SP_TRACE5: the slot handled last; how the phase is coded is open (02 Table 2.4; log 49). -/
def State.laneTrace (slots : Nat) (s : State) : State :=
  ({ s with lane.traceSlot := BitVec.ofNat 5 (slots - 1), lane.tracePhase := BitVec.ofNat 2 s.draw }).took

/-- Send a pass: one copy on L1, or both, and CNT moves on. -/
def State.lanePass (type : Nat) (deliver tog : Bool) (slots : Bool → List (List Byte)) (s : State) : State :=
  let two := s.twoCopies
  let c := s.lane.cnt
  let a := s.laneTx false (laneFrame type false deliver c 0 (slots false))
  let b := if two then a.laneTx true (laneFrame type true deliver c 0 (slots true)) else a
  let p : LanePass := ⟨deliver, tog, c, BitVec.ofNat 4 type, if two then 2 else 1, [], 0⟩
  ({ b with lane.pass := some p, lane.cnt := c + 1 }).laneTrace (slots false).length

/-- TOG of this latch instant: bit 0 of the count of latch instants since reset (11 R310). -/
def State.laneTog (s : State) : Bool := s.lane.latches.getLsbD 0

/-! ### Receiving -/

/-- Counters of a frame received: good, or a bad CRC-32 with EV201, or a wrong length (08 Table 8.1). -/
def State.laneRxCount (f : LaneRx) (h : LHdr) (s : State) : State :=
  let len := f.bytes.length
  if h.hcrcOk && decide (h.len ≠ len) then s.count1 7 36
  else if f.crc ≠ crc32 f.bytes then (s.count1 7 34).raise 201
  else ((s.count1 7 0).count 7 1 (len + 4)).count1 7 (4 + sizeClass [64, 255, 511, 1023, 2047] (len + 4))

/-- A frame goes through the receive buffer: bytes that are read back with a parity error count and are logged (11 Table 11.6,
15 R406), and the port has a signal (11 R305). -/
def State.laneStore (f : LaneRx) (s : State) : State :=
  let t := s.bufWrite 0x400B8C00 (f.bytes.take 1024)
  let u := t.each (f.bad.filter fun k => decide (k < min 1024 f.bytes.length)) fun k x => x.parityFound 7 .lane (0x400B8C00 + k)
  { u with lane.loss := vset u.lane.loss f.onL2.toNat false }

/-- Why a slot is not accepted, or that it is (11 R311). -/
inductive LVerdict where
  | accepted | absent | badCrc | toggle
  deriving DecidableEq, Repr

def State.laneJudge (s : State) (h : LHdr) (tog : Bool) (x : LSlot) : LVerdict :=
  if !h.hcrcOk || x.par || !x.istat.getLsbD 7 || decide (s.nst ≤ x.pos) then .absent
  else if !x.icrcOk then .badCrc
  else if x.istat.getLsbD 6 != tog then .toggle
  else if s.lane.perm && h.type == 1 && !s.lane.configured.getLsbD x.pos then .absent
  else .accepted

/-- What judging a slot counts and raises: EHDR and EV200, TY3 and EV199, RXUC in collect passes. -/
def State.laneJudged (h : LHdr) (v : LVerdict) (s : State) : State :=
  match v with
  | .badCrc => (s.count1 7 35).raise 200
  | .toggle => (s.count1 7 17).raise 199
  | .accepted => if h.type = 1 ∧ h.deliver = false then s.count1 7 10 else s
  | .absent => s

/-- An accepted slot of a collect pass: its inputs, and EV204 where FAULT or SAFE is reported. -/
def State.collectSlot (x : LSlot) (s : State) : State :=
  let t : State := { s with
    lane.accepted := setBit s.lane.accepted x.pos
    lane.inputs := if s.lane.accepted.getLsbD x.pos then s.lane.inputs else s.lane.inputs ++ [(x.pos, x.ins)] }
  t.raiseIf (x.istat.getLsbD 5 || x.istat.getLsbD 4) 204

/-- Mark a station in the pass in progress. -/
def State.passMark (i : Nat) (s : State) : State :=
  { s with lane.pass := s.lane.pass.map fun p => { p with accepted := setBit p.accepted i } }

/-- A slot whose outputs have failed OCRC on their way: EHDR and EV200, once with a failed ICRC (11 Table 11.7; 08 Table 8.1;
log 195). -/
def State.ocrcCheck (h : LHdr) (v : LVerdict) (x : LSlot) (s : State) : State :=
  if h.hcrcOk && !x.ocrcOk && decide (v ≠ .badCrc) then (s.count1 7 35).raise 200 else s

/-- The slots of a DATA pass, own or heard. -/
def State.laneData (h : LHdr) (tog : LSlot → Bool) (slots : List LSlot) (s : State) : State :=
  s.each slots fun x t =>
    let v := t.laneJudge h (tog x) x
    let u := (t.laneJudged h v).ocrcCheck h v x
    if v ≠ .accepted then u
    else if h.deliver then
      let diff := u.lane.inputs.any fun y => decide (y.1 = x.pos) && decide (y.2 ≠ x.ins)
      let w := u.raiseIf diff 206
      if x.istat.getLsbD 3 then w.passMark x.pos else w.raise 198
    else
      let w := u.collectSlot x
      if x.istat.getLsbD 0 then w.passMark x.pos else w

/-- Copies that came back decide on turnout (11 R314, R315). -/
def State.laneWatch (dir onL2 : Bool) (s : State) : State :=
  match s.lane.pass with
  | none => s
  | some p =>
    let back := p.back ++ [(dir, onL2)]
    let next := if p.copies = 1 then (if !dir && !onL2 then some true else s.lane.turnNext)
      else if back.contains (false, true) && back.contains (true, false) then some false else s.lane.turnNext
    { s with lane.pass := some { p with back := back }, lane.turnNext := next }

/-! ### The end of passes -/

/-- Substitute, or last good value, of one input byte (11 R316). -/
def State.substByte (s : State) (k : Nat) : Byte :=
  if (s.byte (0x400B9800 + k / 8)).getLsbD (k % 8) then s.byte (0x400B9000 + k) else s.byte (0x400B9400 + k)

/-- The lanes of a word of a station's region that take the last good value, or the substitute. -/
def State.substLanes (s : State) (good : Bool) (i w : Nat) : BitVec 4 :=
  [0, 1, 2, 3].foldl (fun m l =>
    let k := 32 * i + 4 * w + l
    putBit m l (decide (4 * w + l < s.ilen i) && ((s.byte (0x400B9800 + k / 8)).getLsbD (k % 8) == good))) 0

/-- The region of a missing station; its SUBMODE word and the bytes chosen are read (15 R406). -/
def State.substRegion (i : Nat) (s : State) : State :=
  let bs := (List.range 32).map fun k => if k < s.ilen i then s.substByte (32 * i + k) else 0
  let read := (s.wordReads (0x400B9800 + 4 * i) 4).each (List.range ((s.ilen i + 3) / 4)) fun w t =>
    (t.memReadFx 7 (0x400B9000 + 32 * i + 4 * w) (s.substLanes true i w)).memReadFx 7 (0x400B9400 + 32 * i + 4 * w)
      (s.substLanes false i w)
  read.bufWrite (0x400B8800 + 32 * i) bs

/-- The region of an accepted station, and its last-good bytes. -/
def State.inputRegion (i : Nat) (ins : List Byte) (s : State) : State :=
  let bs := slice (ins.take (s.ilen i)) 0 32
  (s.bufWrite (0x400B8800 + 32 * i) bs).bufWrite (0x400B9000 + 32 * i) bs

/-- Write the regions of the stations accepted. -/
def State.inputsTake (s : State) : State :=
  s.each (s.lane.inputs.filter fun x => decide (x.1 < s.nst)) fun x t => t.inputRegion x.1 x.2

/-- Stations in use whose slot was not accepted in this cycle; START sends no DATA pass (11 R316, R323). -/
def State.missing (s : State) : Word := if s.lane.state = .start then s.inUse else s.inUse &&& ~~~ s.lane.accepted

/-- A collect pass is complete: it waits for the steward where a station is missing and bit 6 of SYS_SPLIT_ACT was set when the
pass began (11 R318, 16 Table 16.8). -/
def State.collectDone (s : State) : State :=
  if s.lane.subHand = true ∧ s.missing ≠ 0 ∧ s.lane.released = false then
    ({ s.inputsTake with lane.subWait := true, lane.subWritten := 0 }).raise 193
  else s

/-- A deliver pass has returned or is late: a drill check, and the end of a handover (12 R344, Table 12.2). -/
def State.deliverDone (ok : Bool) (s : State) : State :=
  let t : State := { s with lane.delivered := true, lane.pass := none }
  let u := t.when (!ok) State.drillFail
  if u.wlv.state = .handoff then u.handoffEnd else u

/-- START has an answer to IDENT: PRODUCT, FLAT, and the lengths must fit (11 R323). -/
def State.identSlot (x : LSlot) (s : State) : State :=
  if x.par || !x.istat.getLsbD 7 || !x.icrcOk || decide (s.nst ≤ x.pos) || decide (x.ins.length < 8) then s
  else
    let prod : Word := BitVec.ofNat 32 (beAt x.ins 0 4)
    let pid := s.reg (Reg.at Reg.LANE_PID x.pos)
    let ok := (decide (pid = 0) || decide (pid = prod)) && decide ((byteAt x.ins 4).toNat = s.olen x.pos) &&
      decide ((byteAt x.ins 5).toNat = s.ilen x.pos)
    let t : State := { s with
      lane.id := vset s.lane.id x.pos prod
      lane.flat := vset s.lane.flat x.pos (BitVec.ofNat 16 (beAt x.ins 6 2)) }
    if ok then { t with lane.accepted := setBit t.lane.accepted x.pos } else t.raise 202

/-- Every copy of a pass is back. -/
def State.passAllBack (p : LanePass) (s : State) : State :=
  match p.type.toNat with
  | 1 =>
    if p.deliver then
      let q := (s.lane.pass.map (·.accepted)).getD 0
      let all := decide (s.inUse &&& ~~~ q = 0)
      (s.raiseIf (decide (p.copies = 1) && p.back.contains (false, false) && !all) 198).deliverDone all
    else ({ s with lane.pass := none }).collectDone
  | 2 =>
    let t : State := { s with lane.pass := none }
    if s.lane.accepted = 0 ∨ (s.lane.turnNext = some true ∧ p.copies = 1) then t else { t with lane.step := 1 }
  | 4 =>
    let q := (s.lane.pass.map (·.accepted)).getD 0
    let c := s.lane.configured ||| (q &&& s.lane.accepted)
    { s with
      lane.pass := none
      lane.configured := c
      lane.step := if s.lane.accepted &&& ~~~ c = 0 then 3 else s.lane.step }
  | _ => { s with lane.pass := none }

/-- A frame comes back: it counts whatever its header says, and a pass in progress that it carries is judged (11 R311, R314; 08
Table 8.1). -/
def State.laneReturn (f : LaneRx) (s : State) : State :=
  let h := LHdr.parse f.bytes
  let r := if s.lane.enabled && (s.lane.perm || s.laneLoop) then (s.laneStore f).laneRxCount f h else s
  match s.lane.pass with
  | some p =>
    if p.copies = 0 ∨ h.cnt ≠ p.cnt ∨ h.type ≠ p.type.toNat then r
    else
      let a := r.laneTrace h.nslot
      let slots := a.rxSlots h f
      let b := match h.type with
        | 1 => a.laneData { h with deliver := p.deliver } (fun _ => p.tog) slots
        | 2 => if h.hcrcOk then a.each slots State.identSlot else a
        | _ => a.each slots fun x t =>
          if h.hcrcOk && !x.par && x.icrcOk && x.istat.getLsbD 7 && x.istat.getLsbD 0 then t.passMark x.pos else t
      let c := b.laneWatch h.dir f.onL2
      match c.lane.pass with
      | some q => if q.copies ≤ q.back.length then c.passAllBack q else c
      | none => c
  | none => r

def execLanePassReturn (f : LaneRx) (s : State) : Result := .next (s.when s.coreRuns fun s => s.laneReturn f)

/-- Into the loop a pass comes back on L2 as it was sent. -/
def State.loopBack (b : List Byte) (s : State) : State :=
  if s.laneLoop then s.laneReturn ⟨true, b, crc32 b, []⟩ else s

/-- A pass has not come back by its deadline (11 R312). -/
def State.laneLate (s : State) : State :=
  match s.lane.pass with
  | some p =>
    if p.copies = 0 then s
    else
      let a := s.count 7 38 (p.copies - p.back.length)
      let b : State := { a with lane.pass := none, lane.turnNext := if p.copies = 1 then some true else a.lane.turnNext }
      if p.type ≠ 1 then b
      else if p.deliver then (b.raise 198).deliverDone false
      else (b.raise 197).cause 3
  | none => s

def execLanePassLate (s : State) : Result := .next (s.when s.coreRuns fun s => s.laneLate)

/-! ### The tracking comparison (12 R342) -/

/-- The first output byte that differs: station index, byte, heard, own. Masked bytes are left out. -/
def State.trackFirst (s : State) : Option (Nat × Nat × Byte × Byte) :=
  let all := (s.stations.filter s.lane.heardOut.getLsbD).flatMap fun i => (List.range (s.olen i)).map fun k => (i, k)
  (all.find? fun x =>
    let k := 32 * x.1 + x.2
    !(s.byte (0x400C8000 + k / 8)).getLsbD (k % 8) && decide (s.byte (0x400B9C00 + k) ≠ s.byte (0x400B8400 + k))).map
    fun x => (x.1, x.2, s.byte (0x400B9C00 + 32 * x.1 + x.2), s.byte (0x400B8400 + 32 * x.1 + x.2))

/-- The comparison reads the mask, the heard bytes and the sent bytes of each station compared (15 R406). -/
def State.trackReads (s : State) : State :=
  s.each (s.stations.filter s.lane.heardOut.getLsbD) fun i t =>
    ((t.wordReads (0x400C8000 + 4 * i) 4).wordReads (0x400B9C00 + 32 * i) (s.olen i)).wordReads (0x400B8400 + 32 * i) (s.olen i)

/-- The tracking comparison of a cycle. -/
def State.trackCompare (s : State) : State :=
  if !s.track || !s.ctl.committed then s
  else
    let r := s.trackReads
    let a : State := { r with wlv.cmp := satSucc r.wlv.cmp }
    match s.trackFirst with
    | none => { a with wlv.mismRun := 0 }
    | some (i, k, h, o) =>
      let d := packW [(31, 1), (24, i), (16, k), (8, h.toNat), (0, o.toNat)]
      let b : State := { a with
        wlv.mism := satSucc a.wlv.mism
        wlv.trkdiff := if a.wlv.trkdiff.getLsbD 31 then a.wlv.trkdiff else d
        wlv.mismRun := min 16 (a.wlv.mismRun + 1)
        wlv.rev := 0
        wlv.revNs := 0
        wlv.revrdy := false }
      (b.raise 218).raiseIf (decide (b.wlv.mismRun = b.mismN)) 219

/-- The heard deliver pass of the cycle is complete. -/
def State.heardDelivered (s : State) : State :=
  ({ s with lane.delivered := true, lane.pass := none }).trackCompare

/-- A heard deliver pass of which one copy came is complete at its deadline, the next mark (11 R312, R321). -/
def State.heardLate (s : State) : State :=
  s.when (s.lane.pass.any fun p => decide (p.copies = 0) && p.deliver) State.heardDelivered

/-! ### Marks and passes (11 R309, R310) -/

/-- An APPLY mark: FLAGS, REM, CRC-8. -/
def applyBytes (tog dir : Bool) (leadUs : Nat) : List Byte :=
  let b : List Byte := [BitVec.ofNat 8 (tog.toNat + 2 * dir.toNat)] ++ beBytes 2 (100 * (leadUs - 4))
  b ++ [crc8 b]

/-- After the closing mark the Lane is OFF; permission and OWN_OUT_N end with it, and the unit stands by (11 R325; 12 Table
12.2). -/
def State.laneClose (s : State) : State :=
  let t := s.laneOff
  if !t.lane.perm then t
  else
    let u := t.driveEnd
    ({ u with wlv.state := u.standbyState }).wlvSync

/-- L - LEAD: the deadline of the deliver pass, which ends a handover that still waits for one; permission may begin, the Lane
begins to drive, and the mark goes out; a closing mark ends the Lane. -/
def State.applyMark (s : State) : State :=
  let z := (s.heardLate).when (decide (s.wlv.state = .handoff)) State.handoffEnd
  let d := z.driveStart
  let a : State := { d with lane.marked := true }
  if !a.lane.enabled then a
  else
    let b := if a.lane.perm && !a.lane.stopping then a.lanePermit (!z.lane.perm) else a
    let c := b.laneTurn
    let d := if !c.laneDe then c
      else
        let tog := !c.laneTog
        let u := (c.emit (.laneMark false (applyBytes tog false c.leadUs))).count1 7 13
        if c.twoCopies then (u.emit (.laneMark true (applyBytes tog true c.leadUs))).count1 7 13 else u
    if d.lane.stopping then d.laneClose else d

/-- Loss of signal as the receivers of L1 and L2 declare it, seen once a cycle: `rest` is how long in ns each input has shown no
transition (11 R305; log 189). -/
def State.laneSense (rest : Vector Nat 2) (s : State) : State := { s with lane.loss := rest.map signalLost }

def execApplyMark (rest : Vector Nat 2) (s : State) : Result :=
  .next (s.when s.coreRuns fun s => (s.laneSense rest).applyMark)

/-- L + 10 us: the collect pass. -/
def State.collectPass (s : State) : State :=
  if !s.laneSends then s
  else
    let a := ({ s with lane.subHand := s.sys.splitAct.getLsbD 6 }).laneTurn
    let b := if a.lane.state = .turned then a.count1 7 14 else a
    let slots := b.dataSlots b.laneTog
    let c := (((b.sentParity).lanePass 1 false b.laneTog fun _ => slots).count 7 12
      (if b.twoCopies then 2 * slots.length else slots.length))
    c.loopBack (laneFrame 1 false false b.lane.cnt 0 slots)

def execCollectPass (s : State) : Result := .next (s.when s.coreRuns fun s => s.collectPass)

/-- D: a pending commit goes into the sent image, also in tracking (12 R342). -/
def State.outTake (s : State) : State :=
  if s.lane.go then
    let t := (s.wordReads 0x400B8000 1024).bufWrite 0x400B8400 (s.bytesAt 0x400B8000 1024)
    { t with lane.go := false, ctl.committed := true }
  else { s with ctl.committed := false }

/-- The deliver pass. -/
def State.deliverPass (s : State) : State :=
  let a := s.outTake
  if !a.laneSends then a
  else
    let b := a.laneTurn
    let slots := b.dataSlots b.laneTog
    let c := (((b.sentParity).lanePass 1 true b.laneTog fun _ => slots).count 7 12
      (if b.twoCopies then 2 * slots.length else slots.length)).dmaFire (.strobe 1)
    c.loopBack (laneFrame 1 false true b.lane.cnt 0 slots)

def execDeliverPass (s : State) : Result := .next (s.when s.coreRuns fun s => s.deliverPass)

/-! ### The input image (11 R316 to R318) -/

/-- Stations that dropped out, and stations that returned. -/
def State.dropOut (s : State) : State :=
  let miss := s.missing
  let gone := miss &&& s.lane.present
  let back := s.inUse &&& ~~~ miss &&& s.lane.miss
  let a : State := { s with
    lane.miss := miss
    lane.present := s.inUse &&& ~~~ miss
    lane.drop := s.lane.drop ||| gone
    lane.released := true
    lane.subWait := false }
  let b := (a.count 7 15 (bitsOf gone).length).ctxPut 0x2C miss
  let c := if gone ≠ 0 then ((b.raise 193).cause 0).drillFail else b
  c.raiseIf (decide (back ≠ 0)) 194

/-- Release the image; `fill` are the missing stations that take substitutes. -/
def State.imageRelease (fill : Word) (s : State) : State :=
  let a := if s.lane.subWait then s else s.inputsTake
  let b := a.each (bitsOf (fill &&& a.inUse)) fun i t => t.substRegion i
  (b.dropOut).dmaFire (.strobe 0)

/-- The image is released: the collect pass is complete, or L + INWAIT has come; then the logic pass starts (09 R256). -/
def State.inputRelease (sv : Served → State → State) (l : List Served) (s : State) : State :=
  let miss := s.missing
  let a := if s.lane.state = .off || s.lane.released then s
    else s.imageRelease (if s.lane.subWait then miss &&& ~~~ s.lane.subWritten else miss)
  a.logicPass sv l

/-- LANE_SUBDONE: the image is released as the steward left it. -/
def State.subDone (sv : Served → State → State) (l : List Served) (s : State) : State :=
  if s.lane.subWait then (s.imageRelease 0).logicPass sv l else s

def execLaneCommit (s : State) : Result := .next { s with lane.go := true }

/-! ### Listening (11 R321) -/

/-- A heard collect pass is complete: which stations reported CFG = 1. -/
def State.heardDone (p : LanePass) (s : State) : State :=
  let all := decide (0 < s.nst) && decide (s.inUse &&& ~~~ p.accepted = 0)
  ({ s with
    lane.pass := none
    lane.configured := p.accepted
    lane.heardCfg := if all then min 4 (s.lane.heardCfg + 1) else 0 }).collectDone

/-- The outputs of a heard deliver pass. -/
def State.heardOuts (slots : List LSlot) (s : State) : State :=
  s.each (slots.filter fun x => decide (x.pos < s.nst)) fun x t =>
    if !x.ocrcOk then (t.count1 7 35).raise 200
    else if x.par then t
    else
      let u := t.bufWrite (0x400B9C00 + 32 * x.pos) x.out
      { u with lane.heardOut := setBit u.lane.heardOut x.pos }

/-- The heard pass that a copy belongs to: the one in hand, or a new one. -/
def State.heardPass (h : LHdr) (s : State) : LanePass :=
  let fresh : LanePass := ⟨h.deliver, false, h.cnt, 1, 0, [], 0⟩
  match s.lane.pass with
  | some p => if p.cnt = h.cnt ∧ p.deliver = h.deliver then p else fresh
  | none => fresh

/-- A heard pass is complete: its one copy has gone round the whole ring, or both copies have come (11 R314, R321). -/
def LanePass.heardWhole (q : LanePass) : Bool := q.back.contains (false, true) || decide (2 ≤ q.back.length)

/-- A pass heard by a unit that does not drive. -/
def State.heard (f : LaneRx) (s : State) : State :=
  let h := LHdr.parse f.bytes
  if !s.lane.enabled || s.lane.perm || s.laneLoop || decide (s.lane.state = .off) then s
  else
    let a := (((s.laneStore f).laneRxCount f h)).laneTrace h.nslot
    let slots := a.rxSlots h f
    match h.type, h.deliver with
    | 1, false =>
      let p := a.heardPass h
      let hand := if p.back = [] then a.sys.splitAct.getLsbD 6 else a.lane.subHand
      let b := ({ a with lane.pass := some p, lane.subHand := hand, wlv.sinceMark := 0 }).laneData h LSlot.tog slots
      let c := b.laneWatch h.dir f.onL2
      match c.lane.pass with
      | some q => if q.heardWhole then c.heardDone q else c
      | none => c
    | 1, true =>
      if !h.hcrcOk then a
      else if a.lane.delivered then a.heardOuts slots
      else
        let p := a.heardPass h
        let b := ({ a with lane.pass := some p, lane.heardOut := if p.back = [] then 0 else a.lane.heardOut }).heardOuts slots
        let c := b.laneWatch h.dir f.onL2
        if c.lane.pass.any LanePass.heardWhole then c.heardDelivered else c
    | 2, _ => a.each (slots.filter fun x => x.istat.getLsbD 7 && x.icrcOk && !x.par && decide (x.pos < 32) && decide (4 ≤ x.ins.length))
        fun x t => { t with lane.id := vset t.lane.id x.pos (BitVec.ofNat 32 (beAt x.ins 0 4)) }
    | _, _ => a

def execHeardPass (f : LaneRx) (s : State) : Result := .next (s.when s.coreRuns fun s => s.heard f)

/-! ### The latch instant's share -/

/-- START has ended: RUN. The count of latch instants, and a fresh cycle. -/
def State.laneLatch (s : State) : State :=
  let a := if s.lane.state = .start ∧ s.lane.step = 3 then s.laneTo .run else s
  { a with
    lane.latches := a.lane.latches + 1
    lane.released := false
    lane.accepted := if a.lane.state = .start then a.lane.accepted else 0
    lane.inputs := []
    lane.subWait := false
    lane.subWritten := 0
    lane.delivered := false
    lane.marked := false
    wlv.sinceMark := satSucc a.wlv.sinceMark }

/-! ### Enabling (11 R324, R325) -/

/-- EN takes effect: a Lane that is OFF listens (11 Table 11.4). -/
def State.laneOn (s : State) : State :=
  let u : State := { s with lane.enabled := true, lane.stopping := false }
  if u.lane.state = .off then ({ u with lane.present := 0, lane.miss := 0 }).laneTo .listen else u

/-- EN = 1; while P3 is out of service it waits for the REJOIN (16 R437). -/
def State.laneEnable (s : State) : State :=
  if s.lane.enabled && !s.lane.stopping then s
  else if !s.laneFits then (s.setReg Reg.LANE_CTL (clrBit (s.reg Reg.LANE_CTL) 0)).raise 203
  else
    let t := s.setReg Reg.LANE_CTL (setBit (s.reg Reg.LANE_CTL) 0)
    if t.sys.parts.get 3 ≠ .inService then t else t.laneOn

def execLaneEnable (s : State) : Result := .next s.laneEnable

/-- The Lane stops: a unit with permission finishes its cycle, at once where the closing mark has gone out; any other goes OFF
(11 R325; log 47). -/
def State.laneStop (s : State) : State :=
  if !s.lane.enabled then s
  else if !s.lane.perm then s.laneOff
  else if s.lane.marked then s.laneClose
  else { s with lane.stopping := true }

/-- EN = 0. -/
def State.laneDisable (s : State) : State :=
  (s.setReg Reg.LANE_CTL (clrBit (s.reg Reg.LANE_CTL) 0)).laneStop

def execLaneDisable (s : State) : Result := .next s.laneDisable

/-- FORCESTART leaves FAIL. -/
def State.forceStart (s : State) : State :=
  if s.lane.state = .fail ∧ s.lane.perm = true then s.laneStart else s

def execForcestart (s : State) : Result := .next s.forceStart

/-- A write of LANE_CTL. -/
def State.laneCtlWrite (v : Word) (s : State) : State :=
  let a := s.setReg Reg.LANE_CTL (putBit (s.reg Reg.LANE_CTL) 4 (v.getLsbD 4))
  let b := a.when (v.getLsbD 1) State.forceStart
  if v.getLsbD 0 then b.laneEnable else b.laneDisable

/-! ### START (11 R323, Table 11.5) -/

/-- The IDENT pass. -/
def State.identPass (s : State) : State :=
  if !s.laneStarts || s.lane.step ≠ 0 then s
  else
    let up := s.stations.map fun i => laneSlot s.lane.cnt false s.laneTog i [] 9
    s.lanePass 2 false s.laneTog fun l2 => if l2 then up.reverse else up

def execIdentPass (s : State) : Result := .next (s.when s.coreRuns fun s => s.identPass)

/-- Counters of a RANGE frame that has come back, or has not (11 R313; 08 Table 8.1). -/
def State.rangeCount (rtt : Option Nat) (f : List Byte) (s : State) : State :=
  if rtt.isSome then s.laneRxCount ⟨false, f, crc32 f, []⟩ (LHdr.parse f) else s.count1 7 38

/-- A RANGE pass to one station from one end, with the round-trip time it measured. -/
def State.rangePass (station : Fin 32) (fromL2 : Bool) (rtt : Option Nat) (s : State) : State :=
  if !s.laneStarts || s.lane.step ≠ 1 || decide (s.nst ≤ station.val) then s
  else
    let f := laneFrame 3 fromL2 false s.lane.cnt (station.val + 1) []
    let t := (s.laneTx fromL2 f).rangeCount rtt f
    let u : State := { t with lane.cnt := t.lane.cnt + 1 }
    if fromL2 then { u with lane.rtt2 := vset u.lane.rtt2 station.val rtt }
    else { u with lane.rtt1 := vset u.lane.rtt1 station.val rtt }

def execRangePass (station : Fin 32) (fromL2 : Bool) (rtt : Option Nat) (s : State) : Result :=
  .next (s.when s.coreRuns fun s => s.rangePass station fromL2 rtt)

/-- DLY from a round-trip time: half of what FLAT leaves, to the nearest ns; 0xFFFF without a return. -/
def dlyOf (rtt : Option Nat) (flat : Half) : Nat :=
  match rtt with
  | some r => min 0xFFFE ((r - flat.toNat + 1) / 2)
  | none => 0xFFFF

/-- LANE_RNG of a station. -/
def State.rngOf (s : State) (i : Nat) : Word :=
  let f := s.lane.flat.getD i 0
  packW [(16, dlyOf (s.lane.rtt2.getD i none) f), (0, dlyOf (s.lane.rtt1.getD i none) f)]

/-- The nine bytes of a CONFIG slot. -/
def State.configBytes (s : State) (i : Nat) : List Byte :=
  let r := s.lane.rng.getD i 0
  beBytes 2 (fld r 0 16) ++ beBytes 2 (fld r 16 16) ++ beBytes 2 (10 * s.holdTens) ++
    [BitVec.ofNat 8 s.healTens, BitVec.ofNat 8 ((decide (i = 0)).toNat + 2 * (decide (i + 1 = s.nst)).toNat), 0]

/-- The CONFIG pass: the delays of every station in use are computed, and sent to the stations that may be configured. -/
def State.configPass (s : State) : State :=
  if !s.laneStarts || s.lane.step = 0 then s
  else
    let ok := bitsOf (s.lane.accepted &&& s.inUse)
    let a := s.each s.stations fun i t => { t with lane.rng := vset t.lane.rng i (t.rngOf i) }
    let slots := ok.map fun i => laneSlot a.lane.cnt false a.laneTog i (a.configBytes i) 0
    let b := a.lanePass 4 false a.laneTog fun _ => slots
    { b with lane.step := if s.lane.step = 1 then 2 else s.lane.step }

def execConfigPass (s : State) : Result := .next (s.when s.coreRuns fun s => s.configPass)

/-- STARTT ends: FAIL with none configured; with some, RUN follows at the next latch instant (log 48). -/
def State.startTimeout (s : State) : State :=
  if !s.laneStarts || s.lane.step = 3 then s
  else if s.lane.configured = 0 then (({ s with lane.pass := none }).laneTo .fail).raise 202
  else { s with lane.step := 3 }

def execStartTimeout (s : State) : Result := .next (s.when s.coreRuns fun s => s.startTimeout)

end Sys2Proof.Machine
end

