-- ==== Sys2Proof/Machine/Latch.lean ====
section
/-! DEFINITION. The latch instant (06 R197; 09 R255, R258; 12 R330, R339, R344, R345). -/
namespace Sys2Proof.Machine

/-- The count of the last T0: TCOUNT, or the local T0s of a node that has had no milestone (09 R258). -/
def State.latchCount (s : State) : Word := if s.tre.heardMil then s.tre.tcount else s.tre.localT0s

/-- Counts since the last T0 with TCOUNT mod CRATIO = 0. -/
def State.latchBack (s : State) : Nat := s.latchCount.toNat % 2 ^ s.tre.cratio.toNat

/-- The Traverse whose latch instant came last: the latest n with TCOUNT(n) mod CRATIO = 0 and MTIME(n) + LATOFS reached,
MTIME(n) predicted from the last T0 and the period; LATOFS is less than the cycle, so it is one of two (06 R197). -/
def State.latchAt (s : State) : Option Word :=
  let cyc := 2 ^ s.tre.cratio.toNat
  let at_ (j : Nat) : Dword :=
    s.tre.mtime + BitVec.ofNat 64 (1000 * s.tre.latofs.toNat) - BitVec.ofNat 64 (j * s.periodNs)
  let n (j : Nat) : Word := s.latchCount - BitVec.ofNat 32 j
  let j := s.latchBack
  if s.reached (at_ j) then some (n j) else if s.reached (at_ (j + cyc)) then some (n (j + cyc)) else none

/-- A latch instant has come that was not taken; none is repeated where local time steps back to it or to the one before it
(06 R197). -/
def State.latchDue (s : State) : Bool :=
  match s.latchAt with
  | some n => s.tre.lastLatch.all fun l => decide (2 * 2 ^ s.tre.cratio.toNat < (l - n).toNat)
  | none => false

/-- What the node does at L. -/
def State.latch (s : State) : State :=
  let a : State := { s with
    tre.lastLatch := s.latchAt
    ctl.cyccfg := s.reg Reg.ITN_CYCCFG
    ctl.ltime := s.tre.time }
  let b := ((a.freeze).raise 81).dmaFire (.strobe 4)
  let c := ((((b.leaseCount).ilCount).drillCount).revCount (1000 * b.cycleUs) (decide (b.lane.miss ≠ 0))).askCount
  ((c.laneLatch).latchCycle).wlvSync

/-- A step of local time, from state `old` to s, past a latch instant takes that latch at once (06 R197). -/
def State.latchStep (old : State) (s : State) : State :=
  if s.tre.time ≠ old.tre.time ∧ old.latchDue = false ∧ s.latchDue = true then s.latch else s

/-- A Traverse received, `beside` being what a sender of the outbound pass decodes of its partner's symbols from its
outbound-out port (04 R126). -/
def execTraverseReceive (f : RxFrame) (beside : Option (List Byte)) (s : State) : Result :=
  .next (State.latchStep s (s.trvRx f beside))

def execLatchInstant (s : State) : Result := .next (s.when s.coreRuns fun s => if s.latchDue then s.latch else s)

end Sys2Proof.Machine
end

