-- ==== Sys2Proof/Machine/MemCmds.lean ====
section
/-! DEFINITION. Reads of timestamps and of queues, and the commands of chapter 15: scrubbing, flash, the memory error log,
injection, gates and queues. -/
namespace Sys2Proof.Machine

def execScrub (s : State) : Result := .next (s.when s.coreRuns fun s => s.scrub)

/-! ### Timestamps (04 R134) -/

/-- A normal read of a _L word by a master; at an address that is no _L word, and where the master may not read, an access
fault (00 R12; 09 R267). -/
def State.tsRead (m : Master) (a : Nat) (s : State) : State :=
  if tsWord a then (s.tsShadow a).emit (.answer m (s.tsLow a)) else s.accFault m false a

def execTimestampRead (m : Master) (addr : Word) (s : State) : Result :=
  .next (s.access m false addr.toNat (State.tsRead m addr.toNat))

/-! ### Reads that take the oldest entry (00 R8) -/

/-- The claim register of a core (08 R243). -/
def claimReg : Hart → Nat
  | .control => Reg.EVT_CLAIMC
  | .steward => Reg.EVT_CLAIMS

def execEventClaim (m : Master) (h : Hart) (s : State) : Result :=
  .next (s.access m false (claimReg h) fun s => (s.claimFx h).emit (.answer m (s.claimVal h)))

def execFbkRawPop (m : Master) (s : State) : Result :=
  .next (s.access m false Reg.FBK_RAW fun s => (s.fbRawPop).emit (.answer m s.fbRaw0))

def execClaimPop (m : Master) (s : State) : Result :=
  .next (s.access m false Reg.TRE_CLAIM fun s => (s.claimPop).emit (.answer m s.claimWord))

def execLearnqPop (m : Master) (s : State) : Result :=
  .next (s.access m false Reg.ETH_LEARNQ_H fun s => (s.learnqPop).emit (.answer m s.learnqH))

def execWlvReqqPop (m : Master) (s : State) : Result :=
  .next (s.access m false Reg.WLV_REQQ fun s => (s.reqqPop).emit (.answer m s.reqqWord))

/-! ### Flash (15 R411 to R413) -/

/-- A write beat to flash by a master; beyond flash the address is not the command's (00 R12). -/
def State.flashBeat (m : Master) (addr : Word) (be : BitVec 4) (v : Word) (s : State) : State :=
  let a := addr.toNat
  if 0x400000 ≤ a then s.accFault m true a
  else
    let t := s.flashProgram m a be v
    if s.flashWriteCode m a = 0 then t else t.accFault m true a

def execFlashProgram (m : Master) (addr : Word) (be : BitVec 4) (v : Word) (s : State) : Result :=
  .next (s.access m true addr.toNat (State.flashBeat m addr be v))

/-- A word program ends. -/
def State.programDone (bankB : Bool) (s : State) : State :=
  match (if bankB then s.mem.busyB else s.mem.busyA) with
  | some none => s.setFlashBusy bankB none
  | _ => s

def execFlashProgramDone (bankB : Bool) (s : State) : Result := .next (s.programDone bankB)

/-- A write of MEM_FERASE by a master: a refused erase is answered with an access fault or an error response (09 R263; log
185). -/
def State.eraseAsked (m : Master) (v : Word) (s : State) : State :=
  let t := s.flashErase m v
  if v.getLsbD 31 ∧ s.flashEraseCode m (fld v 0 10) ≠ 0 then t.accFault m true Reg.MEM_FERASE else t

def execFlashErase (m : Master) (v : Word) (s : State) : Result :=
  .next (s.access m true Reg.MEM_FERASE fun s => s.eraseAsked m v)

/-- The save writer erases the first of these sectors that is not at its wear limit; the others are refused with code 2 (15
R413, R415). -/
def State.saveEraseFrom : List Nat → State → State
  | [], s => { s with mem.saveErase := [] }
  | sec :: rest, s =>
    if 20000 ≤ s.wear sec then State.saveEraseFrom rest (s.flashResult 7 (4096 * sec) 2)
    else ({ s with mem.saveErase := rest }).flashStartErase sec

/-- The save writer's next erase, once bank A is free (15 R415). -/
def State.saveEraseNext (s : State) : State := s.when s.mem.busyA.isNone (State.saveEraseFrom s.mem.saveErase)

/-- An erase ends: verify, Field Book ring, and what waited for the bank. -/
def State.eraseDone (bankB : Bool) (stuck : List (Nat × Byte)) (s : State) : State :=
  match (if bankB then s.mem.busyB else s.mem.busyA) with
  | some (some sec) =>
    let ok := stuck.all fun c => decide (4096 ≤ c.1) || decide (c.2 = 0xFF)
    let t := s.flashEraseEnd sec.toNat stuck
    let u := match fbRing sec.toNat with | some i => t.fbEraseEnd i ok | none => t
    (match (if bankB then u.mem.busyB else u.mem.busyA) with
      | none => u.fbEraseNext bankB
      | _ => u).saveEraseNext
  | _ => s

def execFlashEraseDone (bankB : Bool) (stuck : List (Nat × Byte)) (s : State) : Result := .next (s.eraseDone bankB stuck)

/-! ### The memory error log (15 R409) -/

/-- MEM_ELOG0. -/
def State.elogWord (s : State) : Word := (s.mem.log.head?.map (·.w0)).getD 0

/-- The oldest entry is removed, and its other words latched. -/
def State.elogPop (s : State) : State :=
  match s.mem.log with
  | e :: rest => { s with mem.log := rest, mem.latched := e }
  | [] => s

def execMemElogPop (m : Master) (s : State) : Result :=
  .next (s.access m false Reg.MEM_ELOG0 fun s => (s.elogPop).emit (.answer m s.elogWord))

/-- The address of MEM_INJADDR. -/
def State.injAddr (s : State) : Nat := s.regFld Reg.MEM_INJADDR 2 30 * 4

/-- The armed injection meets a full write to its address (15 MEM_INJECT). -/
def State.inject (v : Word) (s : State) : State :=
  let a := s.injAddr
  match memRegion? a with
  | some .sram | some .inst => if s.regBit Reg.MEM_INJECT 31 then s.eccFullWrite a v else s
  | _ => s

def execInjection (m : Master) (v : Word) (s : State) : Result :=
  .next (s.access m true s.injAddr (State.inject v))

/-! ### Gates and queues (15 R416 to R424) -/

def execGateTryg (m : Master) (g : Fin 32) (s : State) : Result :=
  .next (s.access m false (Reg.at Reg.GATE_TRY g) fun s =>
    (s.gateTryFx (masterCode m) g).emit (.answer m (s.gateTryVal (masterCode m) g)))

/-- A write of GATE_RELg. -/
def State.gateRel (m : Master) (g : Fin 32) (s : State) : State :=
  if s.gateRelRefused (masterCode m) g then s.accFault m true (Reg.at Reg.GATE_REL g) else s.gateRelFx (masterCode m) g

def execGateRelg (m : Master) (g : Fin 32) (s : State) : Result :=
  .next (s.access m true (Reg.at Reg.GATE_REL g) fun s => s.gateRel m g)

/-- A write of GATE_FORCEg. -/
def State.gateForce (m : Master) (g : Fin 32) (s : State) : State :=
  if forceAllowed (masterCode m) then s.gateForceFx (masterCode m) g else s.accFault m true (Reg.at Reg.GATE_FORCE g)

def execGateForceg (m : Master) (g : Fin 32) (s : State) : Result :=
  .next (s.access m true (Reg.at Reg.GATE_FORCE g) fun s => s.gateForce m g)

/-- A gate has been held for its lease (15 R420). -/
def State.leaseExpiry (g : Fin 32) (s : State) : State :=
  if (s.gate g).owner = 0 ∨ s.regFld (Reg.at Reg.GATE_LEASE g) 0 16 = 0 then s else s.gateBreak g

def execGateLeaseExpiry (g : Fin 32) (s : State) : Result := .next (s.when s.coreRuns fun s => s.leaseExpiry g)

def execGateQpush (m : Master) (q : Fin 16) (v : Word) (s : State) : Result :=
  .next (s.access m true (Reg.GATE_QPUSH + 0x10 * q.val) fun s => s.queuePush (masterCode m) q v)

def execGateQpop (m : Master) (q : Fin 16) (s : State) : Result :=
  .next (s.access m false (Reg.GATE_QPOP + 0x10 * q.val) fun s =>
    (s.queuePopFx (masterCode m) q).emit (.answer m (s.queueHead q)))

def execGateQclr (m : Master) (q : Fin 16) (v : Word) (s : State) : Result :=
  .next (s.access m true (Reg.GATE_QCLR + 0x10 * q.val) (State.queueClear q v))

end Sys2Proof.Machine
end

