-- ==== Sys2Proof/Machine/Crypto.lean ====
section
/-! DEFINITION. The two checks an image signature rests on (16 R429): SHA-256 and ECDSA verification on curve P-256. The
manual names the standards and not their arithmetic; this is that of FIPS 180-4 and FIPS 186 (PRESUMED, log 50). -/
namespace Sys2Proof.Machine

/-! ### SHA-256 -/

/-- Round constants. -/
def shaK : List Word :=
  [0x428A2F98, 0x71374491, 0xB5C0FBCF, 0xE9B5DBA5, 0x3956C25B, 0x59F111F1, 0x923F82A4, 0xAB1C5ED5] ++
  [0xD807AA98, 0x12835B01, 0x243185BE, 0x550C7DC3, 0x72BE5D74, 0x80DEB1FE, 0x9BDC06A7, 0xC19BF174] ++
  [0xE49B69C1, 0xEFBE4786, 0x0FC19DC6, 0x240CA1CC, 0x2DE92C6F, 0x4A7484AA, 0x5CB0A9DC, 0x76F988DA] ++
  [0x983E5152, 0xA831C66D, 0xB00327C8, 0xBF597FC7, 0xC6E00BF3, 0xD5A79147, 0x06CA6351, 0x14292967] ++
  [0x27B70A85, 0x2E1B2138, 0x4D2C6DFC, 0x53380D13, 0x650A7354, 0x766A0ABB, 0x81C2C92E, 0x92722C85] ++
  [0xA2BFE8A1, 0xA81A664B, 0xC24B8B70, 0xC76C51A3, 0xD192E819, 0xD6990624, 0xF40E3585, 0x106AA070] ++
  [0x19A4C116, 0x1E376C08, 0x2748774C, 0x34B0BCB5, 0x391C0CB3, 0x4ED8AA4A, 0x5B9CCA4F, 0x682E6FF3] ++
  [0x748F82EE, 0x78A5636F, 0x84C87814, 0x8CC70208, 0x90BEFFFA, 0xA4506CEB, 0xBEF9A3F7, 0xC67178F2]

/-- Initial hash value. -/
def shaInit : List Word := [0x6A09E667, 0xBB67AE85, 0x3C6EF372, 0xA54FF53A, 0x510E527F, 0x9B05688C, 0x1F83D9AB, 0x5BE0CD19]

/-- Message padded to a multiple of 64 bytes. -/
def shaPad (m : List Byte) : List Byte :=
  m ++ [0x80] ++ List.replicate ((119 - m.length % 64) % 64) 0 ++ beBytes 8 (8 * m.length)

/-- The next schedule word from the last sixteen, oldest first. -/
def shaNext (w : List Word) : Word :=
  let a := w.getD 1 0
  let b := w.getD 14 0
  let s0 := a.rotateRight 7 ^^^ a.rotateRight 18 ^^^ (a >>> 3)
  let s1 := b.rotateRight 17 ^^^ b.rotateRight 19 ^^^ (b >>> 10)
  w.getD 0 0 + s0 + w.getD 9 0 + s1

/-- One round on the working variables a to h. -/
def shaRound (v : List Word) (k w : Word) : List Word :=
  let x i := v.getD i 0
  let s1 := (x 4).rotateRight 6 ^^^ (x 4).rotateRight 11 ^^^ (x 4).rotateRight 25
  let ch := (x 4 &&& x 5) ^^^ (~~~ x 4 &&& x 6)
  let t1 := x 7 + s1 + ch + k + w
  let s0 := (x 0).rotateRight 2 ^^^ (x 0).rotateRight 13 ^^^ (x 0).rotateRight 22
  let maj := (x 0 &&& x 1) ^^^ (x 0 &&& x 2) ^^^ (x 1 &&& x 2)
  [t1 + s0 + maj, x 0, x 1, x 2, x 3 + t1, x 4, x 5, x 6]

/-- The rounds over a sliding window of sixteen schedule words. -/
def shaRounds : List Word → List Word → List Word → List Word
  | [], _, v => v
  | k :: ks, w, v => shaRounds ks (w.drop 1 ++ [shaNext w]) (shaRound v k (w.getD 0 0))

/-- One block. -/
def shaBlock (h : List Word) (b : List Byte) : List Word :=
  let w := (List.range 16).map fun i => BitVec.ofNat 32 (beAt b (4 * i) 4)
  List.zipWith (· + ·) h (shaRounds shaK w h)

/-- n blocks in order. -/
def shaBlocks : Nat → List Byte → List Word → List Word
  | 0, _, h => h
  | n + 1, m, h => shaBlocks n (m.drop 64) (shaBlock h (m.take 64))

/-- The digest of a message, 32 bytes. -/
def sha256 (m : List Byte) : List Byte :=
  let p := shaPad m
  (shaBlocks (p.length / 64) p shaInit).flatMap fun w => beBytes 4 w.toNat

/-! ### Curve P-256 -/

def p256p : Nat := 2 ^ 256 - 2 ^ 224 + 2 ^ 192 + 2 ^ 96 - 1
def p256n : Nat := 0xFFFFFFFF00000000FFFFFFFFFFFFFFFFBCE6FAADA7179E84F3B9CAC2FC632551
def p256b : Nat := 0x5AC635D8AA3A93E7B3EBBD55769886BC651D06B0CC53B0F63BCE3C3E27D2604B
def p256G : Nat × Nat :=
  (0x6B17D1F2E12C4247F8BCE6E563A440F277037D812DEB33A0F4A13945D898C296,
    0x4FE342E2FE1A7F9B8EE7EB4A7C0F9E162BCE33576B315ECECBB6406837BF51F5)

/-- x to the power whose bits, highest first, are listed, modulo m. -/
def powBits (m x : Nat) : List Bool → Nat → Nat
  | [], a => a
  | b :: t, a => powBits m x t (if b then a * a % m * x % m else a * a % m)

/-- The 256 bits of a number, highest first. -/
def bits256 (k : Nat) : List Bool := (List.range 256).map fun i => k.testBit (255 - i)

/-- Inverse modulo a prime. -/
def modInv (m x : Nat) : Nat := powBits m (x % m) (bits256 (m - 2)) 1

/-- x - y modulo m, both below m. -/
def modSub (m x y : Nat) : Nat := (x + m - y) % m

/-- A point in Jacobian coordinates; z = 0 is the point at infinity. -/
structure JPoint where
  x : Nat
  y : Nat
  z : Nat

def JPoint.double (q : JPoint) : JPoint :=
  let p := p256p
  let d := q.z * q.z % p
  let g := q.y * q.y % p
  let b := q.x * g % p
  let a := 3 * (modSub p q.x d * ((q.x + d) % p) % p) % p
  let x := modSub p (a * a % p) (8 * b % p)
  let z := modSub p (modSub p ((q.y + q.z) % p * ((q.y + q.z) % p) % p) g) d
  ⟨x, modSub p (a * modSub p (4 * b % p) x % p) (8 * (g * g % p) % p), z⟩

def JPoint.add (q r : JPoint) : JPoint :=
  let p := p256p
  if q.z = 0 then r
  else if r.z = 0 then q
  else
    let zz1 := q.z * q.z % p
    let zz2 := r.z * r.z % p
    let u1 := q.x * zz2 % p
    let u2 := r.x * zz1 % p
    let s1 := q.y * (r.z * zz2 % p) % p
    let s2 := r.y * (q.z * zz1 % p) % p
    let h := modSub p u2 u1
    let rr := modSub p s2 s1
    if h = 0 then (if rr = 0 then q.double else ⟨1, 1, 0⟩)
    else
      let hh := h * h % p
      let hhh := h * hh % p
      let v := u1 * hh % p
      let x := modSub p (modSub p (rr * rr % p) hhh) (2 * v % p)
      ⟨x, modSub p (rr * modSub p v x % p) (s1 * hhh % p), q.z * r.z % p * h % p⟩

/-- Multiple of a point by the number whose bits are listed. -/
def JPoint.mulBits (q : JPoint) : List Bool → JPoint → JPoint
  | [], a => a
  | b :: t, a => q.mulBits t (if b then a.double.add q else a.double)

def JPoint.mul (q : JPoint) (k : Nat) : JPoint := q.mulBits (bits256 k) ⟨1, 1, 0⟩

/-- A public key is a point of the curve. -/
def onCurve (x y : Nat) : Bool :=
  decide (x < p256p) && decide (y < p256p) &&
    decide (y * y % p256p = (x * x % p256p * x + (p256p - 3) * x + p256b) % p256p)

/-- The signature r, s over the digest e verifies under the key (x, y). -/
def ecdsaOk (e r s x y : Nat) : Bool :=
  let n := p256n
  let w := modInv n s
  let q := (JPoint.mul ⟨p256G.1, p256G.2, 1⟩ (e * w % n)).add (JPoint.mul ⟨x, y, 1⟩ (r * w % n))
  let zi := modInv p256p q.z
  decide (0 < r) && decide (r < n) && decide (0 < s) && decide (s < n) && onCurve x y && decide (q.z ≠ 0) &&
    decide (q.x * (zi * zi % p256p) % p256p % n = r)

end Sys2Proof.Machine
end

