-- ==== Sys2Proof/Machine/Boot.lean ====
section
/-! DEFINITION. Image slots, headers, verdicts, the handshake, BOOT_VERIFY and the OTP keys (16 R426 to R432, R435). -/
namespace Sys2Proof.Machine

/-! ### Slots (16 Table 16.1) -/

/-- The three kinds of image slot of a bank. -/
inductive SlotKind where
  | steward | program | config
  deriving DecidableEq, Repr

/-- TYPE of the image a slot takes. -/
def SlotKind.type : SlotKind → Nat
  | .steward => 1 | .program => 2 | .config => 3

def SlotKind.size : SlotKind → Nat
  | .steward => 0xE0000 | .program => 0xE0000 | .config => 0x1C000

/-- Base of a slot. -/
def SlotKind.base (k : SlotKind) (bankB : Bool) : Nat :=
  (if bankB then 0x200000 else 0) + match k with | .steward => 0 | .program => 0x100000 | .config => 0xE0000

/-! ### The header (16 Table 16.2, Table 16.3) -/

/-- Every byte of a range is 0. -/
def State.zeros (s : State) (a n : Nat) : Bool := (s.bytesAt a n).all (· = 0)

/-- Two ranges have no byte in common. -/
def apart (a n b m : Nat) : Bool := decide (n = 0) || decide (m = 0) || decide (a + n ≤ b) || decide (b + m ≤ a)

/-- The type fields (16 Table 16.3). ENTRY is a deep address (log 51). -/
def State.typeFields (s : State) (k : SlotKind) (base size : Nat) : Bool :=
  match k with
  | .steward =>
    let e := s.flashLe (base + 0x20) 4
    s.zeros (base + 0x24) 28 && decide (e % 4 = 0) && decide (base ≤ e) && decide (e < base + size)
  | .program =>
    let ofs := s.flashLe (base + 0x20) 4
    let n := s.flashLe (base + 0x24) 4
    let e := s.flashLe (base + 0x28) 4
    let d := s.desc base
    s.zeros (base + 0x30) 16 && decide (ofs % 4 = 0) && decide (0x140 + 16 * d.nsect ≤ ofs) && decide (1 ≤ n) &&
      decide (n ≤ 0x10000) && decide (ofs + n ≤ size) && d.sects.all (fun t => t.zero || apart ofs n t.ofs t.size) &&
      (!d.itin || apart ofs n d.itnOfs d.itnSize) && decide (e % 4 = 0) && decide (0x10000000 ≤ e) &&
      decide (e < 0x10000000 + n)
  | .config => s.zeros (base + 0x20) 32

/-- The header is that of an image for the slot (verdict 2). -/
def State.headerOk (s : State) (k : SlotKind) (base : Nat) : Bool :=
  let size := s.flashLe (base + 0x10) 4
  decide ((s.byte (base + 4)).toNat = k.type) && decide (s.byte (base + 5) = 1) && decide (0x100 ≤ size) &&
    decide (size ≤ k.size) && decide (s.byte (base + 7) = 0) && decide (s.byte (base + 11) = 0) &&
    s.zeros (base + 0x14) 12 && s.zeros (base + 0xC0) 64 && s.typeFields k base size

/-- A programmed key slot that is not revoked and holds this hash. -/
def State.keySlot (s : State) (hash : List Byte) : Option (Fin 4) :=
  (fins 4).find? fun i =>
    let k := s.boot.keys.get i
    k.programmed && !k.revoked && decide (k.hash.toNat = ofLe hash)

/-- SIG verifies over the digest (16 R429). -/
def State.sigOk (s : State) (base : Nat) : Bool :=
  let size := s.flashLe (base + 0x10) 4
  let digest := sha256 (s.bytesAt base 0x40 ++ s.bytesAt (base + 0x100) (size - 0x100))
  let n (a : Nat) := ofBe (s.bytesAt (base + a) 32)
  ecdsaOk (ofBe digest) (n 0x40) (n 0x60) (n 0x80) (n 0xA0)

/-- Interface levels in the BOOT_HWIF layout: IFMAX, IFMIN, IFLEV. -/
def State.ifOf (s : State) (base : Nat) : Word :=
  packW [(16, (s.byte (base + 10)).toNat), (8, (s.byte (base + 9)).toNat), (0, (s.byte (base + 8)).toNat)]

/-- The levels of the silicon, BOOT_HWIF. -/
def hwIf : Word := 0x00030203

/-- Each side's level lies within what the other accepts. -/
def ifFits (a b : Word) : Bool :=
  let in_ (x y : Word) := decide (fld y 8 8 ≤ fld x 0 8) && decide (fld x 0 8 ≤ fld y 16 8)
  in_ a b && in_ b a

/-- The verdict of a slot: the first failed check of Table 16.4, or 0 (16 R430). -/
def State.verdict (s : State) (k : SlotKind) (bankB : Bool) : BitVec 4 :=
  let base := k.base bankB
  if s.bytesAt base 4 ≠ [0x54, 0x43, 0x48, 0x49] then 1
  else if !s.headerOk k base then 2
  else if 2 < (s.byte (base + 6)).toNat then 3
  else if (s.keySlot (sha256 (s.bytesAt (base + 0x80) 64))).isNone then 4
  else if !s.sigOk base then 5
  else if k = .steward ∧ ifFits (s.ifOf base) hwIf = false then 6
  else 0

/-! ### Handshake (16 R430, R431) -/

/-- BOOT_HS.HSRT is evaluated when a steward or a runtime starts; a failure raises EV253 and sets SP_FAULT to 0x1002 if it
is 0. -/
def State.hsEval (s : State) : State :=
  let ok := s.boot.steward.isSome && ifFits s.boot.ifst s.boot.ifrt
  let t : State := { s with boot.hsrt := ok }
  if ok then t
  else (if t.sys.spFault = 0 then t.spFaultCode 0x1002 else t).raise 253

/-- The runtime of a program slot is copied and its header read; the control core starts at RTENTRY if the handshake
passes (16 R431, R433, Table 16.7). -/
def State.runtimeLoad (b : Bool) (s : State) : State :=
  let base := slotBase b
  let t := s.pokeRun 1 0x10000000 (s.bytesAt (base + s.flashLe (base + 0x20) 4) (min 0x10000 (s.flashLe (base + 0x24) 4)))
  let u : State := { t with
    boot.ifrt := t.ifOf base
    boot.rtver := BitVec.ofNat 32 (t.flashLe (base + 0x2C) 4)
    ctl.hartC := HartState.reset }
  let v := u.hsEval
  if v.boot.hsrt then
    { v with ctl.hartC.inReset := false, ctl.hartC.pc := BitVec.ofNat 32 (v.flashLe (base + 0x28) 4) }
  else v

/-- A steward image starts at ENTRY (16 R433, Table 16.7). -/
def State.stewardStart (b : Bool) (s : State) : State :=
  let base := SlotKind.steward.base b
  { s with
    boot.steward := some b
    boot.stewardKey := s.keySlot (sha256 (s.bytesAt (base + 0x80) 64))
    boot.ifst := s.ifOf base
    boot.hsst := true
    boot.swdStart := s.tre.time
    ctl.hartS := { HartState.reset with inReset := false, pc := BitVec.ofNat 32 (s.flashLe (base + 0x20) 4) } }

/-! ### BOOT_VERIFY (16 R435) -/

def verifyTarget (t : BitVec 2) : SlotKind × Bool := (if t.getLsbD 1 then .steward else .program, t.getLsbD 0)

/-- A program slot becomes valid: a program that was NONE is STOP when the slot is the one selected (16 R435). -/
def State.slotAccept (b : Bool) (s : State) : State :=
  let t : State := if b then { s with boot.validB := true } else { s with boot.validA := true }
  if t.ctl.pstate = .none ∧ t.slotSel = b ∧ t.boot.phase = .done then t.progTo .stop else t

/-- A write of BOOT_VERIFY. -/
def State.verifyWrite (v : Word) (s : State) : State :=
  let t := s.setReg Reg.BOOT_VERIFY v
  if v.getLsbD 31 && s.boot.verifying.isNone then { t with boot.verifying := some (v.setWidth 2) } else t

def execBootVerify (v : Word) (s : State) : Result := .next (s.verifyWrite v)

/-- The check ends. -/
def State.verifyDone (s : State) : State :=
  match s.boot.verifying with
  | none => s
  | some tg =>
    let (k, b) := verifyTarget tg
    let c := s.verdict k b
    let t : State := { s with boot.verifying := none, boot.vresult := c }
    if k = .steward then t
    else
      let u : State := if b then { t with boot.pverdB := c } else { t with boot.pverdA := c }
      if c = 0 then u.slotAccept b else u

def execBootVerifyDone (s : State) : Result := .next (s.when s.coreRuns fun s => s.verifyDone)

/-! ### OTP keys (16 R429, Registers) -/

/-- The hash in BOOT_KEYBUF. -/
def State.keyBuf (s : State) : BitVec 256 :=
  (List.range 8).foldl (fun a i => a ||| ((s.reg (Reg.at Reg.BOOT_KEYBUF i)).setWidth 256 <<< (32 * i))) 0

/-- Program a key slot from BOOT_KEYBUF. -/
def State.keyProgram (i : Fin 4) (s : State) : State :=
  let none_ := s.boot.keys.toList.all fun k => !k.programmed
  let k := s.boot.keys.get i
  if (decide (s.boot.phase = .limp) || none_) && !k.programmed then
    { s with boot.keys := s.boot.keys.set i { k with programmed := true, hash := s.keyBuf } }
  else s

def execKeyProgram (slot : Fin 4) (s : State) : Result := .next (s.keyProgram slot)

/-- Revoke a key slot, but not that of the running steward. -/
def State.keyRevoke (i : Fin 4) (s : State) : State :=
  if s.boot.stewardKey = some i ∧ s.boot.steward.isSome = true then s
  else { s with boot.keys := upd s.boot.keys i fun k => { k with revoked := true } }

def execKeyRevoke (slot : Fin 4) (s : State) : Result := .next (s.keyRevoke slot)

/-- A write of BOOT_KEYCMD. -/
def State.keyCmd (v : Word) (s : State) : State :=
  let i : Fin 4 := ⟨fld v 0 2, Nat.mod_lt _ (by decide)⟩
  if !v.getLsbD 31 then s
  else match fld v 8 2 with
    | 1 => s.keyProgram i
    | 2 => s.keyRevoke i
    | _ => s

/-- BOOT_KEYSTAT. -/
def State.keyStat (s : State) : Word :=
  packW ((fins 4).flatMap fun i =>
    let k := s.boot.keys.get i
    [(4 + i.val, k.revoked.toNat), (i.val, k.programmed.toNat)])

end Sys2Proof.Machine
end

