-- ==== Sys2Proof/Machine/Parts.lean ====
section
/-! DEFINITION. The service partitions and the steward watchdog (16 R437 to R440, R442). -/
namespace Sys2Proof.Machine

def State.part (s : State) (p : Fin 6) : PartState := s.sys.parts.get p

/-- A partition changes its state, with EV254 (16 R437); out of service it breaks clean health time (12 R345). -/
def State.partTo (p : Fin 6) (x : PartState) (s : State) : State :=
  (State.raise 254 { s with sys.parts := s.sys.parts.set p x }).revCheck

/-- A partition command that is refused. -/
def State.partRefuse (s : State) : State := { s with sys.cmdref := true }

/-- Who may command a partition (16 R437). -/
def partMaster (m : Master) (p : Nat) : Bool :=
  match m with
  | .steward => decide (p ≠ 4)
  | .control => decide (p ≠ 2)
  | .service => true
  | _ => false

/-- A partition command: accepted in a state that takes it, otherwise CMDREF. -/
def State.partCmd (m : Master) (p : Fin 8) (ok : PartState → Bool) (f : Fin 6 → State → State) (s : State) : State :=
  if h : p.val < 6 then
    let q : Fin 6 := ⟨p.val, h⟩
    if partMaster m p.val && ok (s.part q) then f q { s with sys.cmdref := false } else s.partRefuse
  else s.partRefuse

/-! ### Quiesce -/

/-- P1 quiesces as with its enables cleared: frames in reception are discarded and counted aborted (16 Table 16.7, 07 Table
7.7). -/
def State.netAbort (s : State) : State :=
  (s.when (s.regBit Reg.ROAD_CTL 0) State.roadAbort).each ((fins 2).filter fun e => s.ethRun && s.ethCtl e 1) State.ethAbort

/-- Quiescing starts: P1 starts and takes no more frames, P2 takes a STOP request, P3 stops the Lane after its cycle (16 Table
16.7). -/
def State.quiesceStart (p : Fin 6) (s : State) : State :=
  let t := s.partTo p .quiescing
  match p with
  | 1 => t.netAbort
  | 2 => t.stopAsk
  | 3 => t.laneStop
  | _ => t

def State.quiesce (m : Master) (p : Fin 8) (s : State) : State :=
  s.partCmd m p (fun x => decide (x = .inService)) State.quiesceStart

def execQuiesce (m : Master) (p : Fin 8) (s : State) : Result :=
  .next (s.access m true Reg.SYS_PARTCTL (State.quiesce m p))

/-- A port sends, or waits for an acknowledgement. -/
def RoadPort.busy (r : RoadPort) : Bool := decide (r.st = .pre) || decide (r.st = .send) || decide (r.st = .ackwait)

/-- What completes a quiesce has come (16 Table 16.7): P0 and P4 complete at the next T0, which is when the command comes. -/
def State.quiesceDue (s : State) (p : Fin 6) : Bool :=
  match p with
  | 1 => s.road.ports.toList.all (fun r => !r.busy) && s.eth.ports.toList.all fun e => e.sending.isNone
  | 2 => !s.progBusy
  | 3 => decide (s.lane.state = .off)
  | 5 => s.cwy.buf.isEmpty && s.cwy.wins.toList.all fun w => w.flight.isNone
  | _ => true

/-- The latch free-runs: synchronisation is lost. -/
def State.syncLost (s : State) : State :=
  let t : State := { s with tre.sync := .free, tre.good := 0, tre.bad := 0 }
  (t.raiseIf (decide (s.tre.sync = .locked)) 83).revCheck

/-- ETH after a reset of P1: queues and learned addresses are gone, static entries and what the PHYs told stay (16 R439, Table
16.7). -/
def Eth.partReset (x : Eth) : Eth := { Eth.reset with
  learnLost := x.learnLost
  atab := x.atab.map fun e => if e.valid && e.static then e else ⟨false, false, 0, 0, 0, 0⟩
  ports := x.ports.map fun c => { EthPort.reset with up := c.up, fd := c.fd, s100 := c.s100, andone := c.andone } }

/-- RESET of a partition starts, that of P4 from a bank. It keeps configuration registers, counters and logs (16 R439). -/
def State.resetStart (bankB : Bool) (p : Fin 6) (s : State) : State :=
  let off (a i : Nat) (t : State) := t.setReg a (clrBit (t.reg a) i)
  let t := s.partTo p .resetting
  match p with
  | 0 =>
    let en (i : Fin 4) : Bool := s.regBit Reg.LIU_CTL i.val
    let liu : Liu := { Liu.reset with ports := vmk Port.reset fun i => { Port.reset with enabled := en i } }
    { t with
      liu := liu
      svy := { Svy.reset with uid := s.svy.uid, tally := s.svy.tally, surveys := s.svy.surveys }
      tre := { Tre.reset with
        time := s.tre.time, rate := s.tre.rate, slewLeft := s.tre.slewLeft, frac := s.tre.frac
        decls := s.tre.decls, design := s.tre.design
        mutes := s.tre.mutes, closeGood := s.tre.closeGood, closeFail := s.tre.closeFail }
      sys.netrole := .isolated, sys.rank := 0, sys.thru := false, sys.thruNext := false, sys.turned := false
      sys.thruGive := false, sys.turnNext := false }.wlvSync
  | 1 =>
    let open_ := s.road.txpend.filterMap fun r => if r.2.isNone then some r.1 else none
    let a : State := { t with
      road.ports := Vector.replicate 4 RoadPort.reset
      eth := s.eth.partReset }
    let own := s.road.ports.toList.flatMap fun r => (r.queue ++ r.cur.toList).filter (·.from_.isNone)
    let b := (a.each own fun q u => u.frameEnd q 1).each open_ fun w u => u.txDone w 1
    off Reg.ETH1_CTL 1 (off Reg.ETH1_CTL 0 (off Reg.ETH0_CTL 1 (off Reg.ETH0_CTL 0 (off Reg.ROAD_CTL 0 b))))
  | 2 => ({ t with ctl.hartC := HartState.reset } : State).gateOwnerReset 1
  | 3 => off Reg.LANE_CTL 0 { t.laneOff with
      lane := { Lane.reset with
        latches := s.lane.latches, perm := s.lane.perm, rng := s.lane.rng, id := s.lane.id, drop := s.lane.drop } }
  | 4 => ({ t with
      boot.reloadBank := bankB, boot.steward := none, boot.stewardKey := none, boot.hsst := false
      ctl.hartS := HartState.reset }).gateOwnerReset 2
  | _ =>
    let a := (t.gateOwnerReset 3).each (fins 32) fun n u =>
      (off (Reg.chctl n) 0 (u.gateOwnerReset (dmaCode n)))
    off Reg.CWY_CTL 0 (off Reg.DMA_CTL 0 { a with
      dma := Dma.reset
      cwy := { Cwy.reset with
        log := a.cwy.log, latched := a.cwy.latched, lost := a.cwy.lost, disc := a.cwy.disc
        farFrames := a.cwy.farFrames, farErrs := a.cwy.farErrs } })

/-- The REJOIN of P0 enables the ports at once (16 Table 16.7). -/
def State.rejoinStart (p : Fin 6) (s : State) : State := s.partTo p .rejoining

/-- A partition is QUIESCED: P0's latch free-runs, the steward core is halted, P5's channels are dropped (16 Table 16.7). The
automatic steps of the steward watchdog follow one another on P4 (16 R442). -/
def State.quiesceEnd (p : Fin 6) (s : State) : State :=
  let t := s.partTo p .quiesced
  match p with
  | 0 => t.syncLost
  | 4 =>
    let u : State := { t.splitTake with ctl.hartS.halted := true }
    if u.boot.autoP4 = 1 then u.resetStart u.boot.reloadBank 4 else { u with boot.autoP4 := 0 }
  | 5 => t.dmaDropAll
  | _ => t

/-- A quiesce completes. -/
def State.quiesceComplete (p : Fin 6) (s : State) : State :=
  if s.part p = .quiescing ∧ s.quiesceDue p = true then s.quiesceEnd p else s

def execQuiesceComplete (p : Fin 6) (s : State) : Result := .next (s.quiesceComplete p)

/-! ### Reset -/

def State.partReset (m : Master) (p : Fin 8) (bankB : Bool) (s : State) : State :=
  s.partCmd m p (fun x => decide (x = .quiesced) || decide (x = .failed)) (State.resetStart bankB)

def execPartitionReset (m : Master) (p : Fin 8) (bankB : Bool) (s : State) : Result :=
  .next (s.access m true Reg.SYS_PARTCTL (State.partReset m p bankB))

/-- A partition reset ends: P2 has its runtime copied from a valid slot, and HSRT is evaluated; P4 has its steward checked and
started, or refused (16 R440, Table 16.7). In Limp mode the steward core stays in reset (16 R436). -/
def State.resetEnd (p : Fin 6) (s : State) : State :=
  match p with
  | 2 => (if s.slotValid s.slotSel then s.runtimeLoad s.slotSel else s.hsEval).partTo 2 .quiesced
  | 4 =>
    let b := s.boot.reloadBank
    let c := s.verdict .steward b
    let t : State := if b then { s with boot.verdB := c } else { s with boot.verdA := c }
    if c ≠ 0 then (({ t with boot.autoP4 := 0 }).raise 251).partTo 4 .failed
    else
      let v := if t.boot.phase = .limp then t else (t.stewardStart b).hsEval
      let u := v.partTo 4 .quiesced
      if u.boot.autoP4 = 1 then u.rejoinStart 4 else u
  | _ => s.partTo p .quiesced

def State.partResetDone (p : Fin 6) (s : State) : State :=
  if s.part p = .resetting then s.resetEnd p else s

def execPartitionResetDone (p : Fin 6) (s : State) : Result := .next (s.partResetDone p)

/-! ### Rejoin -/

def State.rejoin (m : Master) (p : Fin 8) (s : State) : State :=
  s.partCmd m p (fun x => decide (x = .quiesced)) State.rejoinStart

def execRejoin (m : Master) (p : Fin 8) (s : State) : Result :=
  .next (s.access m true Reg.SYS_PARTCTL (State.rejoin m p))

/-- P0 comes back as a late-comer: without numbers, roles and synchronisation (05 R163; 16 Table 16.7). -/
def State.rejoinLate (s : State) : State :=
  let t := s.svyClear
  { t with
    svy.state := .idle, svy.trigger := none, svy.nid := none, svy.epoch := 0, svy.chain := 0, svy.cars := 0
    svy.joined := false, svy.heres := [], svy.joins := 0, svy.watch := none, svy.taken := false
    tre.sync := .free, sys.netrole := .isolated, sys.rank := 0, sys.thru := false, sys.thruNext := false
    sys.thruGive := false, sys.turned := false, sys.turnNext := false }.wlvSync

/-- A rejoining partition is IN; P0 joins as a late-comer; P2 leaves the program in STOP,
but for Limp mode, where it stays NONE (16 R436); P4 fails without both handshakes, and otherwise
SYS_SPLIT_ACT follows SYS_SPLIT (16 R440, Table 16.7). -/
def State.rejoinEnd (p : Fin 6) (s : State) : State :=
  match p with
  | 0 => (s.partTo 0 .inService).rejoinLate
  | 1 => ((s.partTo 1 .inService).ethKick 0).ethKick 1
  | 2 =>
    let t := s.partTo 2 .inService
    if t.slotValid t.slotSel ∧ t.ctl.pstate ≠ .stop ∧ t.boot.phase ≠ .limp then t.progTo .stop else t
  | 3 =>
    let t := s.partTo 3 .inService
    t.when (t.regBit Reg.LANE_CTL 0) State.laneOn
  | 4 =>
    let u : State := { s with boot.autoP4 := 0, ctl.hartS.halted := false }
    if u.handshake then (u.partTo 4 .inService).splitTake else (u.raise 253).partTo 4 .failed
  | _ => s.partTo p .inService

def State.rejoinComplete (p : Fin 6) (s : State) : State :=
  if s.part p = .rejoining then s.rejoinEnd p else s

def execRejoinComplete (p : Fin 6) (s : State) : Result := .next (s.rejoinComplete p)

/-- A write of SYS_PARTCTL. -/
def State.partCtl (m : Master) (v : Word) (s : State) : State :=
  let p : Fin 8 := ⟨fld v 0 3, Nat.mod_lt _ (by decide)⟩
  match fld v 16 3 with
  | 1 => s.quiesce m p
  | 2 => s.partReset m p (v.getLsbD 8)
  | 3 => s.rejoin m p
  | _ => s.partRefuse

/-- SYS_PARTSTAT codes. -/
def PartState.code : PartState → Nat
  | .inService => 0 | .quiescing => 1 | .quiesced => 2 | .resetting => 3 | .rejoining => 4 | .failed => 5

def State.partStat (s : State) : Word :=
  packW ((31, s.sys.cmdref.toNat) :: (fins 6).map fun p => (3 * p.val, (s.part p).code))

/-! ### The steward watchdog (16 R442) -/

/-- A write of BOOT_KICK restarts the watchdog. -/
def State.kick (s : State) : State := { s with boot.swdStart := s.tre.time }

def execBootKick (s : State) : Result := .next s.kick

/-- A missed kick: EV255, the count, a fault record, and QUIESCE of P4, followed by RESET and REJOIN unless it is the third
within 60 s. P4 that is out of service already keeps its state (log 193). -/
def State.swdExpire (s : State) : State :=
  match s.boot.steward with
  | none => s
  | some b =>
    if s.ctl.hartS.halted then s
    else
      let now := s.tre.time.toNat
      let times := (s.boot.swdTimes.filter fun t => decide (now - t < 60000000000)) ++ [now]
      let t : State := { s with
        boot.swdcnt := satSucc s.boot.swdcnt, boot.swdTimes := times, boot.swdStart := s.tre.time
        boot.autoP4 := if times.length < 3 then 1 else 2, boot.reloadBank := b }
      let u := (t.fbQueue (t.fbRec 8 0 (t.sys.spFault.setWidth 64))).raise 255
      if u.part 4 = .inService then u.quiesceStart 4
      else if u.part 4 = .quiescing then u
      else { u with boot.autoP4 := 0 }

def execStewardWatchdog (s : State) : Result := .next (s.when s.coreRuns fun s => s.swdExpire)

end Sys2Proof.Machine
end

