-- ==== Sys2Proof/Machine/Debug.lean ====
section
/-! DEFINITION. The JTAG port and the debug module, but for system bus accesses (16 R444 to R446). What the manual takes from
IEEE 1149.1 and the RISC-V debug specification is PRESUMED (log 14). -/
namespace Sys2Proof.Machine

/-- JTAG does not answer with VIO0 absent (17 Corner cases). -/
def State.jtag (f : State → State) (s : State) : State := s.when (s.bankOn 0) f

/-! ### The TAP (16 R444, R445) -/

/-- Load an instruction: undefined codes act as BYPASS, and EXTEST is loaded only while RESET_N is low. -/
def State.tapLoad (ir : BitVec 5) (s : State) : State :=
  let known := [0x00, 0x01, 0x02, 0x10, 0x11].contains ir.toNat
  let i : BitVec 5 := if !known || (decide (ir = 0) && s.sys.resetN) then 0x1F else ir
  { s with boot.ir := i, boot.extest := decide (i = 0) }

/-- A scan of the instruction register: it captures 0b00001, which is shifted out, and loads what is shifted in (16 Table 16.9;
log 230). -/
def State.tapScan (ir : BitVec 5) (s : State) : State := (s.tapLoad ir).emit (.tdo 5 1)

/-- Test-Logic-Reset: IDCODE. -/
def execTapReset (s : State) : Result := .next (s.jtag (State.tapLoad 2))

/-- EXTEST: the boundary register captures the pins, which are shifted out, and what is shifted in drives them; elsewhere BYPASS is
loaded (16 R444, R445). -/
def State.extestScan (pins cells : BitVec 225) (s : State) : State :=
  let t := s.tapScan 0
  if t.boot.extest then
    State.emit (.tdo 225 pins.toNat) { t with boot.bsr := cells, boot.bsrUpd := cells }
  else t

def execExtest (pins cells : BitVec 225) (s : State) : Result := .next (s.jtag (State.extestScan pins cells))

/-- SAMPLE/PRELOAD: the pins are captured and shifted out, the cells shifted in. -/
def State.sampleScan (pins cells : BitVec 225) (s : State) : State :=
  State.emit (.tdo 225 pins.toNat) { s.tapScan 1 with boot.bsr := cells, boot.bsrUpd := cells }

def execSamplePreload (pins : BitVec 225) (cells : BitVec 225) (s : State) : Result :=
  .next (s.jtag (State.sampleScan pins cells))

def State.idcodeScan (s : State) : State := (s.tapScan 2).emit (.tdo 32 0x1321656B)

def execIdcode (s : State) : Result := .next (s.jtag State.idcodeScan)

/-- BYPASS captures 0 and takes one bit from TDI. -/
def State.bypassScan (tdi : Bool) (s : State) : State := State.emit (.tdo 1 0) { s.tapScan 0x1F with boot.byp := tdi }

def execBypass (tdi : Bool) (s : State) : Result := .next (s.jtag (State.bypassScan tdi))

/-! ### DTMCS -/

/-- DTMCS: version 0.13, abits 7, dmistat. -/
def State.dtmcsWord (s : State) : Word := packW [(10, s.boot.dmistat.toNat), (4, 7), (0, 1)]

/-- A scan of DTMCS: dmireset and dmihardreset clear the error held. -/
def State.dtmcsScan (v : Word) (s : State) : State :=
  let t := (s.tapScan 0x10).emit (.tdo 32 s.dtmcsWord.toNat)
  if v.getLsbD 16 || v.getLsbD 17 then { t with boot.dmistat := 0, boot.opFailed := false } else t

def execDtmcs (v : Word) (s : State) : Result := .next (s.jtag (State.dtmcsScan v))

/-! ### DMI operations (16 R446) -/

/-- A DMI operation goes through the instruction DMI. With BOOT_CTL.DBGEN = 0 every one returns op status 2 and has no effect (16
R446). -/
def State.dmi (f : State → State) (s : State) : State :=
  if !s.bankOn 0 then s
  else
    let t := s.tapScan 0x11
    if s.regBit Reg.BOOT_CTL 8 then f { t with boot.opFailed := false }
    else { t with boot.opFailed := true, boot.dmistat := if s.boot.dmistat = 0 then 2 else s.boot.dmistat }

/-- Halt a hart that runs. -/
def State.debugHalt (h : Hart) (s : State) : State :=
  s.dmi fun t => if (t.hart h).inReset then t else t.setHart h { t.hart h with halted := true }

def execDebugHalt (h : Hart) (s : State) : Result := .next (s.debugHalt h)

def State.debugResume (h : Hart) (s : State) : State :=
  s.dmi fun t => t.setHart h { t.hart h with halted := false }

def execDebugResume (h : Hart) (s : State) : Result := .next (s.debugResume h)

/-- A halted hart executes one instruction and halts again; what the instruction does is the program's (log 10). -/
def State.singleStep (h : Hart) (nextPc : Word) (s : State) : State :=
  s.dmi fun t => if (t.hart h).halted then t.setHart h { t.hart h with pc := nextPc } else t

def execSingleStep (h : Hart) (nextPc : Word) (s : State) : Result := .next (s.singleStep h nextPc)

/-! ### Registers of a hart (09 Table 9.3) -/

/-- The control and status registers the cores have (09 R265, Table 9.3): M and U mode, eight PMP entries, the counters, the
debug module's; any other number is an illegal instruction (log 10). -/
def csrExists (n : Nat) : Bool :=
  [0x300, 0x301, 0x304, 0x305, 0x306, 0x340, 0x341, 0x342, 0x343, 0x344, 0x3A0, 0x3A1, 0x7A0, 0x7A1, 0x7A2, 0x7A3, 0x7B0, 0x7B1,
    0x7B2, 0xB00, 0xB02, 0xB80, 0xB82, 0xC00, 0xC01, 0xC02, 0xC80, 0xC81, 0xC82, 0xF11, 0xF12, 0xF13, 0xF14].contains n ||
    (decide (0x3B0 ≤ n) && decide (n < 0x3B8))

/-- Bits of a control and status register that a write stores: mstatus has MIE, MPIE and MPP, mie MEIE, mtvec a direct or
vectored mode, pmpcfg R, W, X, A and L of four entries, tdata1 what a trigger of type mcontrol here has (09 Table 9.3, 16 R446;
PRESUMED for the rest, log 10). -/
def csrMask (n : Nat) : Word :=
  if n = 0x300 then 0x1888 else if n = 0x304 then 0x800 else if n = 0x305 then 0xFFFFFFFD else if n = 0x306 then 7
  else if n = 0x341 then 0xFFFFFFFE else if n = 0x3A0 ∨ n = 0x3A1 then 0x9F9F9F9F else if n = 0x7A0 then 3 else if n = 0x7A1 then trigMask
  else if [0x301, 0x344, 0xF11, 0xF12, 0xF13, 0xF14, 0xC00, 0xC01, 0xC02, 0xC80, 0xC81, 0xC82].contains n
  then 0 else 0xFFFFFFFF

/-- Cycle and instruction counters: the model executes no instructions, so their values are free (log 10). -/
def csrCounts (n : Nat) : Bool := [0xB00, 0xB02, 0xB80, 0xB82, 0xC00, 0xC02, 0xC80, 0xC82].contains n

/-! #### Physical memory protection (09 Table 9.3) -/

/-- One configuration byte written: none where it is locked; write without read is not stored. -/
def HartState.pmpCfgByte (x : HartState) (i : Nat) (b : Byte) : Byte :=
  if (x.pmpCfg i).getLsbD 7 then x.pmpCfg i else if fld b 0 2 = 2 then b &&& 0xFC else b

/-- The value a write of a PMP register leaves. -/
def HartState.pmpValue (x : HartState) (n : Nat) (v : Word) : Word :=
  if n < 0x3B0 then
    let i := 4 * (n - 0x3A0)
    packW ([0, 1, 2, 3].map fun k => (8 * k, (x.pmpCfgByte (i + k) ((v >>> (8 * k)).setWidth 8 &&& 0x9F)).toNat))
  else if x.pmpAddrLocked (n - 0x3B0) then x.csr n else v

/-- A PMP register written from the debug module takes effect on the entries it bears on (09 Table 9.3; log 10). -/
def State.pmpFollow (n : Nat) (s : State) : State :=
  let h := s.ctl.hartC
  let hit (i : Nat) : Bool :=
    if n < 0x3B0 then decide (i / 4 = n - 0x3A0) else decide (i = n - 0x3B0) || decide (i = n - 0x3B0 + 1)
  { s with ctl.pmp := (List.range 8).map fun i => if hit i then h.pmpRange i else s.ctl.pmp.getD i (0, 0, 0) }

/-- A control and status register as it reads. -/
def State.csrRead (s : State) (h : Hart) (n : Nat) : Word :=
  let x := s.hart h
  if n = 0x301 then 0x40101104
  else if n = 0xF14 then (match h with | .control => 0 | .steward => 1)
  else if n = 0xC01 then lo32 s.tre.time
  else if n = 0xC81 then hi32 s.tre.time
  else if n = 0x344 then (if s.extIrq h then 0x800 else 0)
  else if n = 0x300 then x.csr 0x300 ||| 0x00200000
  else if n = 0x306 then x.csr 0x306 ^^^ 7
  else if n = 0x7A1 then x.csr (x.csrKey n) ||| 0x20000000
  else if n = 0x7B0 then (x.csr 0x7B0 &&& 0x0FFFFFFC) ||| 0x40000000 ||| (if x.user then 0 else 3)
  else if n = 0x7B1 then x.pc
  else if csrCounts n then BitVec.ofNat 32 s.draw
  else x.csr (x.csrKey n)

/-- Write one: mstatus.MPP holds M or U only, and dcsr sets the mode the hart resumes in (PRESUMED, log 10). -/
def HartState.csrWrite (x : HartState) (n : Nat) (v : Word) : HartState :=
  let u : Word :=
    if n = 0x306 then v ^^^ 7
    else if n = 0x300 ∧ fld v 11 2 ≠ 0 ∧ fld v 11 2 ≠ 3 then (v &&& 0xFFFFE7FF) ||| (x.csr 0x300 &&& 0x1800)
    else if (0x3A0 ≤ n ∧ n ≤ 0x3A1) ∨ (0x3B0 ≤ n ∧ n < 0x3B8) then x.pmpValue n v
    else v
  let y : HartState := if n = 0x7B0 then { x with user := decide (fld v 0 2 = 0) } else x
  if n = 0x7B1 then { x with pc := v }
  else y.put (x.csrKey n) (u &&& csrMask n)

/-- The register an abstract command names: 0x1000 + x for x0 to x31, below 0x1000 a control and status register the core
has. -/
def State.hartRead (s : State) (h : Hart) (regno : Nat) : Option Word :=
  if regno < 0x1000 then (if csrExists regno then some (s.csrRead h regno) else none)
  else if regno < 0x1020 then some (if regno = 0x1000 then 0 else (s.hart h).x.getD (regno - 0x1000) 0)
  else none

def HartState.regWrite (x : HartState) (regno : Nat) (v : Word) : HartState :=
  if regno < 0x1000 then x.csrWrite regno v
  else if regno = 0x1000 then x
  else { x with x := vset x.x (regno - 0x1000) v }

/-- A register of a hart is written; a PMP register of the control core takes effect. -/
def State.hartWrite (h : Hart) (regno : Nat) (v : Word) (s : State) : State :=
  let t := s.setHart h ((s.hart h).regWrite regno v)
  if h = .control ∧ ((0x3A0 ≤ regno ∧ regno ≤ 0x3A1) ∨ (0x3B0 ≤ regno ∧ regno < 0x3B8)) then t.pmpFollow regno else t

/-- Words of a hart's program buffer (16 R446). -/
def progIdx (h : Hart) : Fin 4 × Fin 4 := match h with | .control => (0, 1) | .steward => (2, 3)

/-- The program buffer of a halted hart is written, or read; run, it does what its two instructions do, which are commands of their
own, and the hart stays halted (16 R446; log 231). -/
def State.progBuf (h : Hart) (x : BufOp) (s : State) : State :=
  let i := progIdx h
  match x with
  | .keep | .run => s
  | .write a b => { s with boot.progbuf := (s.boot.progbuf.set i.1 a).set i.2 b }
  | .read => (s.emit (.answer .debug (s.boot.progbuf.get i.1))).emit (.answer .debug (s.boot.progbuf.get i.2))

/-- An abstract command accesses a register of a halted hart; what goes before it or after it is done with the program buffer. -/
def State.abstract (h : Hart) (write : Bool) (regno : Nat) (v : Word) (buf : BufOp) (s : State) : State :=
  s.dmi fun t =>
    if !(t.hart h).halted then t
    else
      let u := t.progBuf h buf
      match u.hartRead h regno with
      | none => u
      | some w =>
        if write then u.hartWrite h regno v
        else (u.when (csrCounts regno) State.took).emit (.answer .debug w)

def execAbstractCommand (h : Hart) (write : Bool) (regno : Half) (v : Word) (buf : BufOp) (s : State) : Result :=
  .next (s.abstract h write regno.toNat v buf)

end Sys2Proof.Machine
end

