-- ==== Sys2Proof/Machine/RegView.lean ====
section
/-! DEFINITION. What every deep register reads as, block by block: the bits a register computes from the state; bits that hold
what was written are `State.reg` (the register tables of spec/01 to spec/16). -/
namespace Sys2Proof.Machine

/-! ### State codes -/

def SvyState.code : SvyState → Nat
  | .idle => 0 | .settle => 1 | .seek => 2 | .walk => 3 | .wait => 4 | .tally => 5 | .decide => 6 | .cutwait => 7

def LaneState.code : LaneState → Nat
  | .off => 0 | .listen => 1 | .start => 2 | .run => 3 | .turned => 4 | .fail => 5

def WlvState.code : WlvState → Nat
  | .idle => 0 | .standby => 1 | .active => 2 | .handoff => 3 | .ilStandby => 4 | .ilActive => 5 | .blocked => 6

def VehState.code : VehState → Nat
  | .normal => 0 | .ride => 1 | .save => 2 | .hold => 3 | .high => 4

/-! ### Helpers -/

/-- Index of a register in an array. -/
def Reg.idx (a base : Nat) : Nat := (a - base) / 4

/-- The address lies in an array of n registers. -/
def Reg.within (a base n : Nat) : Bool := decide (base ≤ a) && decide (a < base + 4 * n)

/-- Word i of a long bit string. -/
def wordOf {w : Nat} (x : BitVec w) (i : Nat) : Word := BitVec.ofNat 32 (x.toNat / 2 ^ (32 * i))

/-- Word i of a run of bytes, the first byte lowest (00 R6). -/
def bytesWord (l : List Byte) (i : Nat) : Word := BitVec.ofNat 32 (ofLe (slice l (4 * i) 4))

def portOf (a base stride : Nat) : Fin 4 := ⟨(a - base) / stride % 4, Nat.mod_lt _ (by decide)⟩

/-! ### Reserved bits of the tables read as 0 (00 R9) -/

/-- Fields of SVY_CHAINTAB and of SVY_NIDTAB (05 Registers), and of a table entry (06 Table 6.5). -/
def chainMask : Word := 0xFC1FFFFF
def nidMask : Word := 0xFFFF0000
def entryMask : Word := 0xE03F1FFF

/-! ### SYS (01, 03, 16) -/

/-- SYS_PINS. HB_OUT shows whether the node's heartbeat runs (log 52). -/
def State.pins (s : State) : Word :=
  let x := s.sys
  packW [(20, x.cabdb.toNat), (19, x.peerHb.toNat), (18, s.wlv.hbRuns.toNat), (16, x.straps.vrange.toNat),
    (15, x.straps.unit.toNat), (14, x.straps.pref.toNat), (13, x.straps.bank.toNat), (12, x.straps.walkEn.toNat),
    (7, x.cabAct.toNat), (6, x.peerOwnN.toNat), (5, x.ownOutN.toNat)]

def State.viewSys (s : State) (a : Nat) : Word :=
  if a = Reg.SYS_PINS then s.pins
  else if a = Reg.SYS_RSTCAUSE then s.sys.rstcause.setWidth 32
  else if a = Reg.SYS_CLKSTAT then packW [(2, s.sys.refok.toNat), (1, s.sys.pllok.toNat), (0, s.sys.xok.toNat)]
  else if a = Reg.SYS_ROLE then s.sys.roleShown.setWidth 32
  else if a = Reg.SYS_SPLIT_ACT then s.sys.splitAct.setWidth 32
  else if a = Reg.SYS_VEH_STAT then packW [(24, s.sys.rides.toNat), (16, s.sys.vehState.code), (0, s.sys.veh.toNat)]
  else if a = Reg.SYS_SUPPLY then packW [(16, s.sys.vcoreMv.toNat), (0, s.sys.vsupMv.toNat)]
  else if a = Reg.SYS_PARTSTAT then s.partStat
  else 0

/-! ### EVT (08) -/

/-- EVT_LAST, SP_EVT_LAST: VALID in bit 15. -/
def State.lastEvent (s : State) : Half :=
  match (if s.regBit Reg.EVT_CTL 0 then s.evt.lastAny else s.evt.last) with
  | some n => packH [(15, 1), (0, n.toNat)]
  | none => 0

def State.viewEvt (s : State) (a : Nat) : Word :=
  if Reg.within a Reg.EVT_RAW 8 then wordOf s.evt.raw (Reg.idx a Reg.EVT_RAW)
  else if Reg.within a Reg.EVT_MULTI 8 then wordOf s.evt.multi (Reg.idx a Reg.EVT_MULTI)
  else if Reg.within a Reg.EVT_PENDC 8 then wordOf s.evt.pendC (Reg.idx a Reg.EVT_PENDC)
  else if Reg.within a Reg.EVT_PENDS 8 then wordOf s.evt.pendS (Reg.idx a Reg.EVT_PENDS)
  else if a = Reg.EVT_CLAIMC then s.claimVal .control
  else if a = Reg.EVT_CLAIMS then s.claimVal .steward
  else if a = Reg.EVT_LAST then s.lastEvent.setWidth 32
  else 0

/-! ### LIU (04) -/

/-- NBITS and SEQ of a map in use: robust mode has 180 bits. -/
def mapInfo (r : Option (List Byte)) : Nat × Nat := match r with | some x => (tmNbits x, (tmSeq x).toNat) | none => (180, 0)

def State.liuPstat (s : State) (p : Fin 4) : Word :=
  let c := s.port p
  packW [(24, (c.erRoll s.second).erps.toNat), (20, (c.notches.toList.filter Option.isSome).length),
    (17, (s.txen p).toNat), (16, c.jam.toNat), (14, c.state.code), (8, min 63 (s.meanSnr p)), (0, (s.heldLvl p).toNat)]

/-- A register of the port block at offset o. -/
def State.viewPort (s : State) (p : Fin 4) (o : Nat) : Word :=
  let c := s.port p
  if o = 0x004 then s.liuPstat p
  else if o = 0x014 then
    let m := mapInfo (s.segMap p)
    packW [(31, (s.keeper p).toNat), (16, m.1), (8, m.2), (0, c.stmi.toNat)]
  else if o = 0x020 then lo32 c.tsrx
  else if o = 0x024 then c.tsrxSh.getD (hi32 c.tsrx)
  else if o = 0x028 then lo32 c.tstx
  else if o = 0x02C then c.tstxSh.getD (hi32 c.tstx)
  else if Reg.within o 0x040 8 then
    match vget c.notches (Reg.idx o 0x040) with
    | some f => packW [(31, 1), (0, f.1.toNat)]
    | none => 0
  else if Reg.within o 0x100 24 then
    let m := s.ownMap p
    bytesWord (tmRecord 0 m.1 0 m.2) (Reg.idx o 0x100)
  else if Reg.within o 0x200 192 then
    let i := Reg.idx o 0x200
    bytesWord (tmClean (vget c.slots (i / 24))) (i % 24)
  else 0

def State.viewLiu (s : State) (a : Nat) : Word :=
  if a = Reg.LIU_RING then
    let m := mapInfo s.ringMap
    packW [(16, m.1), (8, m.2), (0, s.liu.rtmi.toNat)]
  else if Reg.within a Reg.LIU_RTM 96 then
    let i := Reg.idx a Reg.LIU_RTM
    bytesWord (tmClean (vget s.liu.rtm (i / 24))) (i % 24)
  else if Reg.LIU_PCFG ≤ a then s.viewPort (portOf a Reg.LIU_PCFG 0x1000) ((a - Reg.LIU_PCFG) % 0x1000)
  else 0

/-! ### SVY (05) -/

/-- SVY_NODE: SP_CHAIN over SP_NODE; NIDV and VALID are 0 while the epoch is 0. -/
def State.spNode (s : State) : Half :=
  packH [(15, (s.hasEpoch && s.svy.nid.isSome).toNat), (8, s.nidN), (0, s.svy.epoch.toNat)]

def State.spChain (s : State) : Half :=
  packH [(15, (s.hasEpoch && s.svy.nid.isSome).toNat), (14, s.svy.orient.toNat), (8, s.svy.cars.toNat),
    (0, s.svy.chain.toNat)]

def State.viewSvy (s : State) (a : Nat) : Word :=
  let v := s.svy
  let deciding := v.hostwait && decide (v.state = .decide)
  if a = Reg.SVY_STAT then
    packW [(24, v.surveys.toNat), (16, v.prevep.toNat), (12, v.hostwait.toNat), (11, v.dupunit.toNat),
      (10, v.surveyor.toNat), (8, v.attempt.toNat), (4, v.cause.toNat), (0, v.state.code)]
  else if a = Reg.SVY_NODE then packW [(16, s.spChain.toNat), (0, s.spNode.toNat)]
  else if a = Reg.SVY_UID then v.uid
  else if a = Reg.SVY_HEALTH then packW [(8, v.healthRows.toNat), (0, v.health.toNat)]
  else if a = Reg.SVY_CUT then ((v.result.map (·.cutcnt)).getD 0)
  else if Reg.within a Reg.SVY_CHAINTAB 32 then
    (if deciding then v.decChain else v.chaintab).getD (Reg.idx a Reg.SVY_CHAINTAB) 0 &&& chainMask
  else if Reg.within a Reg.SVY_NIDTAB 64 then
    (if deciding then v.decNid else v.nidtab).getD (Reg.idx a Reg.SVY_NIDTAB) 0 &&& nidMask
  else if Reg.within a Reg.SVY_TALLY 128 then bytesWord v.tally (Reg.idx a Reg.SVY_TALLY)
  else 0

/-! ### TRE (06) -/

/-- SP_SYNC, the low half of TRE_SYNC. -/
def State.spSync (s : State) : Half :=
  packH [(15, (decide (s.tre.sync = .locked)).toNat), (14, (decide (s.tre.sync = .muted)).toNat),
    (13, s.latchFree.toNat), (0, s.tre.mutes.toNat)]

def State.viewTre (s : State) (a : Nat) : Word :=
  let t := s.tre
  if a = Reg.TRE_ROAD then packW [(16, t.eff.toNat)]
  else if a = Reg.TRE_SYNC then
    packW [(21, t.take.toNat), (20, t.covered.toNat), (19, t.cover.toNat), (18, t.leadin.toNat), (16, t.sync.code),
      (0, s.spSync.toNat)]
  else if a = Reg.TRE_OFFSET then t.offset
  else if a = Reg.TRE_COUNT then t.tcount
  else if a = Reg.TRE_TIME_L then lo32 t.time
  else if a = Reg.TRE_TIME_H then t.timeSh.getD (hi32 t.time)
  else if a = Reg.TRE_HOPDLY then t.hopdly.setWidth 32
  else if a = Reg.TRE_RDLY then t.rdly
  else if a = Reg.TRE_CLOSE then packW [(16, t.closeFail.toNat), (0, t.closeGood.toNat)]
  else if a = Reg.TRE_COMMIT then packW [(24, t.seq.toNat), (0, t.commit.toNat)]
  else if a = Reg.TRE_TAB then packW [(24, t.tabseq.toNat), (15, t.tabok.toNat), (0, t.table.length)]
  else if a = Reg.TRE_CLAIM then s.claimWord
  else if Reg.within a Reg.TRE_RXOK 8 then wordOf t.rxok (Reg.idx a Reg.TRE_RXOK)
  else if Reg.within a Reg.TRE_FRZOK 8 then wordOf t.frzok (Reg.idx a Reg.TRE_FRZOK)
  else if Reg.within a Reg.TRE_WMTAB 256 then t.table.getD (Reg.idx a Reg.TRE_WMTAB) 0 &&& entryMask
  else if Reg.within a Reg.TRE_WMOFS 256 then
    let i := Reg.idx a Reg.TRE_WMOFS
    if i < t.table.length then packW [(16, (s.ofsFor t.tmi.toNat).getD i 0), (0, imgOfs t.table i)] else 0
  else 0

/-! ### ROAD and ETH (07) -/

def State.roadPausedByte (s : State) (p : Fin 4) : Nat :=
  ((s.roadPort p).paused.foldl (fun (a : Byte) (e : BitVec 6 × Byte) => a ||| e.2) 0).toNat

/-- ROAD_NBRp_i: age in 100 ms. -/
def State.roadNbr (s : State) (p : Fin 4) (i : Nat) : Word :=
  match (s.roadPort p).nbrs[i]? with
  | some (n, t) => packW [(31, 1), (24, n.toNat), (0, min 255 ((s.tre.time - t).toNat / 100000000))]
  | none => 0

def State.viewRoad (s : State) (a : Nat) : Word :=
  let r := s.road
  if a = Reg.ROAD_STAT then packW [(24, 128 - s.cellsUsed.length), (0, min 255 r.txpend.length)]
  else if a = Reg.ROAD_PAUSED then packW ((fins 4).map fun p => (8 * p.val, s.roadPausedByte p))
  else if a = Reg.ROAD_PING then packW [(30, r.pingDone.toNat), (29, r.pingFail.toNat), (0, r.pingRtt.toNat)]
  else if a = Reg.ROAD_TXRP then r.txrp
  else if decide (Reg.ROAD_RXBASE ≤ a) && decide (a < Reg.ROAD_RXBASE + 0x100) && decide (a % 0x10 = 8) then
    r.rxwp.getD ((a - Reg.ROAD_RXBASE) / 0x10) 0
  else if Reg.within a Reg.ROAD_NBR 16 then
    let i := Reg.idx a Reg.ROAD_NBR
    s.roadNbr ⟨i / 4 % 4, Nat.mod_lt _ (by decide)⟩ (i % 4)
  else 0

def Atab.word0 (x : Atab) : Word := x.mac.setWidth 32
def Atab.word1 (x : Atab) : Word :=
  packW [(31, x.valid.toNat), (30, x.static.toNat), (28, x.kind.toNat), (22, x.nid.toNat), (0, fld x.mac 32 16)]

def State.ethStat (s : State) (e : Fin 2) : Nat :=
  let c := s.ethPort e
  8 * c.up.toNat + 4 * c.fd.toNat + 2 * c.s100.toNat + c.andone.toNat

def State.viewEth (s : State) (a : Nat) : Word :=
  let e : Fin 2 := if a < 0x40070000 then 0 else 1
  if a = ethBase e + 4 then BitVec.ofNat 32 (s.ethStat e)
  else if a = ethBase e + 0xC then packW [(29, (s.ethPort e).mdio.isSome.toNat)]
  else if a = Reg.ETH_LEARNQ_H then s.learnqH
  else if a = Reg.ETH_LEARNQ_L then s.eth.learnSh
  else if Reg.within a Reg.ETH_ATAB 512 then
    let i := Reg.idx a Reg.ETH_ATAB
    let x := s.eth.atab.getD (i / 2) ⟨false, false, 0, 0, 0, 0⟩
    if i % 2 = 0 then x.word0 else x.word1
  else 0

/-! ### CNT and FBK (08) -/

def State.viewCnt (s : State) (a : Nat) : Word :=
  let p : Fin 8 := ⟨a / 0x100 % 8, Nat.mod_lt _ (by decide)⟩
  let c := s.cnt.get p
  let i := a % 0x100 / 4
  if a < 0x40080800 then
    if i < 48 then c.ctr.getD i 0
    else if i = 48 then c.hpend.setWidth 32
    else if i = 49 then (c.hpend >>> 32).setWidth 32
    else if i = 50 then c.hovr.setWidth 32
    else if i = 51 then (c.hovr >>> 32).setWidth 32
    else 0
  else if a < 0x40082000 then
    if i < 48 then c.bank.vals.getD i 0
    else if i = 48 then lo32 c.bank.time
    else if i = 49 then hi32 c.bank.time
    else if i = 50 then c.bank.tcount
    else if i = 51 then packW [(16, c.bank.cseq.toNat), (0, c.bank.clr.toNat)]
    else 0
  else if a = Reg.CNT_CAIRN then
    let q := s.cnt.get ⟨s.regFld Reg.CNT_CAIRN 0 3 % 8, Nat.mod_lt _ (by decide)⟩
    packW [(29, q.busy.isSome.toNat), (28, q.held.isSome.toNat)]
  else if a = Reg.CNT_HSUM then packW ((fins 8).map fun q => (q.val, (decide ((s.cnt.get q).hpend ≠ 0)).toNat))
  else 0

def State.viewFbk (s : State) (a : Nat) : Word :=
  if a = Reg.FBK_STAT then
    packW [(16, ((s.fbRecs.getLast?.map (·.1.toNat)).getD 0)), (15, s.fbk.full.toNat), (8, s.fbk.queue.length),
      (0, s.fbk.lost.toNat)]
  else if a = Reg.FBK_OLDEST then packW [(0, ((s.fbRecs.head?.map (·.1.toNat)).getD 0))]
  else if a = Reg.FBK_SECT then packW [(8, (bitsOf s.fbk.retired).length), (0, s.fbCur.getD 0)]
  else if a = Reg.FBK_RAW then s.fbRaw0
  else if Reg.within a Reg.FBK_RAW 8 then s.fbk.raw.getD (Reg.idx a Reg.FBK_RAW) 0
  else 0

/-! ### ITN (09, 10) -/

/-- SP_TRACE5: station slot and frame phase of the Lane (02 Table 2.4). -/
def State.trace5 (s : State) : Half := packH [(8, s.lane.traceSlot.toNat), (0, s.lane.tracePhase.toNat)]

def State.viewItn (s : State) (a : Nat) : Word :=
  let c := s.ctl
  let i := s.itn
  if a = Reg.ITN_SEQ then packW [(16, i.seq.code), (0, i.idx.toNat)]
  else if a = Reg.ITN_INFO then packW [(16, i.table.length), (0, i.erridx)]
  else if a = Reg.ITN_WCYC then i.wcyc
  else if a = Reg.ITN_PASSCYC then i.passcyc
  else if a = Reg.ITN_PASSCNT then packW [(16, i.skipped.toNat), (0, i.ran.toNat)]
  else if a = Reg.ITN_SAT then packW [(31, i.sat.toNat), (30, i.divz.toNat), (16, i.first.toNat), (0, i.count.toNat)]
  else if a = Reg.ITN_PREVTC then i.prevtc
  else if a = Reg.ITN_PSTAT then packW [(16, c.pstate.code), (8, c.initrsn.toNat), (0, c.slotrun.toNat)]
  else if a = Reg.ITN_CYCNT then c.cycnt
  else if a = Reg.ITN_OVR then packW [(16, c.skipped.toNat), (0, c.overruns.toNat)]
  else if a = Reg.ITN_CYCTIME then packW [(16, c.maxus.toNat), (0, c.lastus.toNat)]
  else if a = Reg.ITN_LTIME_L then lo32 c.ltime
  else if a = Reg.ITN_LTIME_H then c.ltimeSh.getD (hi32 c.ltime)
  else if a = Reg.ITN_ERRCAUSE then c.errcause.setWidth 32
  else if a = Reg.ITN_FAULT then c.fault.setWidth 32
  else if a = Reg.ITN_FAULTARG then c.faultarg
  else 0

/-! ### LANE (11) and WLV (12) -/

/-- SP_LANE, the low half of LANE_STAT. -/
def State.spLane (s : State) : Half :=
  let l := s.lane
  packH [(15, (decide (l.state = .run) || decide (l.state = .turned)).toNat), (14, (decide (l.state = .turned)).toNat),
    (8, (bitsOf l.configured).length), (0, (bitsOf l.miss).length)]

def State.viewLane (s : State) (a : Nat) : Word :=
  let l := s.lane
  if a = Reg.LANE_STAT then packW [(16, l.state.code), (0, s.spLane.toNat)]
  else if a = Reg.LANE_MISS then l.miss
  else if a = Reg.LANE_DROP then l.drop
  else if a = Reg.LANE_COMMIT then packW [(0, l.go.toNat)]
  else if Reg.within a Reg.LANE_RNG 32 then l.rng.getD (Reg.idx a Reg.LANE_RNG) 0
  else if Reg.within a Reg.LANE_ID 32 then l.id.getD (Reg.idx a Reg.LANE_ID) 0
  else 0

/-- SP_WLV, the low half of WLV_STAT. -/
def State.spWlv (s : State) : Half :=
  let w := s.wlv
  packH [(15, w.held.toNat), (14, s.peerOwn.toNat), (13, (!s.sys.ownOutN).toNat), (12, s.epref.toNat), (8, w.left.toNat),
    (0, w.pulses.toNat)]

/-- WLV_BFIELDc: meaningful at the benchmark, 0 elsewhere. -/
def State.bfield (s : State) (c : Nat) : Word :=
  let w := s.wlv
  let n (u : Nat) := 2 * c + u
  if s.isBench then
    packW [(20, (w.lastReq.getD (n 0) 0).toNat), (16, (w.lastReq.getD (n 1) 0).toNat), (9, (w.fit.getLsbD (n 1)).toNat),
      (8, (w.fit.getLsbD (n 0)).toNat), (0, (w.bytes.getD c 0).toNat)]
  else 0

def State.viewWlv (s : State) (a : Nat) : Word :=
  let w := s.wlv
  if a = Reg.WLV_STAT then
    packW [(28, w.state.code), (27, w.il.toNat), (26, w.hbok.toNat), (25, s.dupPref.toNat), (24, s.noPref.toNat),
      (23, w.revrdy.toNat), (22, w.ovr.toNat), (16, w.mlost.toNat), (0, s.spWlv.toNat)]
  else if a = Reg.WLV_REV then w.rev.setWidth 32
  else if a = Reg.WLV_TRKCNT then packW [(16, w.mism.toNat), (0, w.cmp.toNat)]
  else if a = Reg.WLV_TRKDIFF then w.trkdiff
  else if a = Reg.WLV_DRILL then packW [(30, w.drillRes.toNat), (0, w.drills.toNat)]
  else if a = Reg.WLV_SWITCH then packW [(16, w.takeovers.toNat), (0, w.switchLen.toNat)]
  else if a = Reg.WLV_REQQ then s.reqqWord
  else if Reg.within a Reg.WLV_BFIELD 32 then s.bfield (Reg.idx a Reg.WLV_BFIELD)
  else 0

/-! ### DMA (13) and CWY (14) -/

def State.viewDma (s : State) (a : Nat) : Word :=
  if a = Reg.DMA_ACTIVE then s.dmaActive
  else if a = Reg.DMA_ERRSUM then s.dma.errsum
  else if Reg.DMA_CHCTL ≤ a then
    let c := s.dch ⟨(a - Reg.DMA_CHCTL) / 0x20 % 32, Nat.mod_lt _ (by decide)⟩
    match a % 0x20 with
    | 0x08 => c.cur
    | 0x0C => c.stat
    | 0x10 => c.cnt
    | 0x14 => c.src
    | 0x18 => c.dst
    | 0x1C => c.erraddr
    | _ => 0
  else 0

def State.viewCwy (s : State) (a : Nat) : Word :=
  let c := s.cwy
  if a = Reg.CWY_STAT then
    packW [(24, c.buf.length), (16, c.log.length), (8, c.lost.toNat), (0, c.disc.toNat)]
  else if a = Reg.CWY_LOG0 then s.cwyLog0
  else if a = Reg.CWY_LOG1 then c.latched.w1
  else if a = Reg.CWY_LOG2 then c.latched.w2
  else if a = Reg.CWY_LOG3 then c.latched.w3
  else if a = Reg.CWY_FLIGHT then packW ((fins 16).map fun w => (w.val, (s.cwyWin w).flight.isSome.toNat))
  else if a = Reg.CWY_FARSTAT then packW [(16, c.farFrames.toNat), (0, c.farErrs.toNat)]
  else 0

/-! ### GATE and MEM (15), BOOT (16) -/

def fin32 (a base : Nat) : Fin 32 := ⟨Reg.idx a base % 32, Nat.mod_lt _ (by decide)⟩
def fin16 (a base stride : Nat) : Fin 16 := ⟨(a - base) / stride % 16, Nat.mod_lt _ (by decide)⟩

/-- Registers of the gates and queues, as a peek gives them: GATE_TRY shows the gate as it stands. -/
def State.viewGate (s : State) (m : Master) (a : Nat) : Word :=
  if Reg.within a Reg.GATE_TRY 32 then s.gatePeekVal (masterCode m) (fin32 a Reg.GATE_TRY)
  else if a = Reg.GATE_HELD then s.gateHeld
  else if a = Reg.GATE_BROKEN then s.gateBroken
  else if a = Reg.GATE_QMYSTAT then s.mystat (masterCode m)
  else if decide (Reg.GATE_QPUSH ≤ a) && decide (a < Reg.GATE_QMYSTAT) then
    let q := fin16 a Reg.GATE_QPUSH 0x10
    match a % 0x10 with
    | 4 => s.queueHead q
    | 8 => s.queueStat q
    | _ => 0
  else 0

def State.viewMem (s : State) (a : Nat) : Word :=
  let m := s.mem
  if a = Reg.MEM_SCRUBPOS then m.scrubPos
  else if a = Reg.MEM_SCRUBPASS then m.scrubPass
  else if a = Reg.MEM_ECNT then packW [(16, m.ue.toNat), (0, m.ce.toNat)]
  else if a = Reg.MEM_ELOG0 then s.elogWord
  else if a = Reg.MEM_ELOG1 then m.latched.w1
  else if a = Reg.MEM_ELOG2 then m.latched.w2
  else if a = Reg.MEM_ELOG3 then m.latched.w3
  else if a = Reg.MEM_ESTAT then packW [(16, m.log.length), (0, m.lost.toNat)]
  else if a = Reg.MEM_FSTAT then packW [(1, m.busyB.isSome.toNat), (0, m.busyA.isSome.toNat)]
  else if a = Reg.MEM_FRESULT then m.fresult
  else if a = Reg.MEM_FRESULT2 then m.fresult2.setWidth 32
  else if Reg.within a Reg.MEM_WEAR 1024 then packW [(0, min 65535 (s.wear (Reg.idx a Reg.MEM_WEAR)))]
  else 0

def State.viewBoot (s : State) (a : Nat) : Word :=
  let b := s.boot
  if a = Reg.BOOT_STAT then
    packW [(31, (decide (b.phase = .limp)).toNat), (30, b.fallback.toNat), (29, b.sbank.toNat), (28, b.cbank.toNat),
      (27, b.cvalid.toNat), (20, b.verdA.toNat), (16, b.verdB.toNat), (12, b.cverdA.toNat), (8, b.cverdB.toNat),
      (0, b.skipped.toNat)]
  else if a = Reg.BOOT_HS then packW [(1, b.hsrt.toNat), (0, b.hsst.toNat)]
  else if a = Reg.BOOT_HWIF then hwIf
  else if a = Reg.BOOT_IFST then b.ifst
  else if a = Reg.BOOT_IFRT then b.ifrt
  else if a = Reg.BOOT_RTVER then b.rtver
  else if a = Reg.BOOT_PSLOT then
    packW [(12, b.pverdB.toNat), (8, b.pverdA.toNat), (1, b.validB.toNat), (0, b.validA.toNat)]
  else if a = Reg.BOOT_VERIFY then packW [(30, b.verifying.isSome.toNat), (8, b.vresult.toNat)]
  else if a = Reg.BOOT_SWDCNT then b.swdcnt
  else if a = Reg.BOOT_KEYSTAT then s.keyStat
  else 0

/-! ### Any register -/

/-- The computed bits of a register. -/
def State.regView (s : State) (m : Master) (a : Nat) : Word :=
  match a / 0x10000 with
  | 0x4000 => s.viewSys a
  | 0x4001 => s.viewEvt a
  | 0x4002 => s.viewLiu a
  | 0x4003 => s.viewSvy a
  | 0x4004 => s.viewTre a
  | 0x4005 => s.viewRoad a
  | 0x4006 => s.viewEth a
  | 0x4007 => s.viewEth a
  | 0x4008 => s.viewCnt a
  | 0x4009 => s.viewFbk a
  | 0x400A => s.viewItn a
  | 0x400B => s.viewLane a
  | 0x400C => s.viewWlv a
  | 0x400D => s.viewDma a
  | 0x400E => s.viewCwy a
  | 0x400F => s.viewGate m a
  | 0x4010 => s.viewMem a
  | 0x4011 => s.viewBoot a
  | _ => 0

/-- What a register reads as: stored bits and computed bits. -/
def State.regPeek (s : State) (m : Master) (a : Nat) : Word := s.reg a ||| s.regView m a

/-- What a normal read of a whole register answers: a gate is tried by it. -/
def State.regRead (s : State) (m : Master) (a : Nat) : Word :=
  if Reg.within a Reg.GATE_TRY 32 then s.gateTryVal (masterCode m) (fin32 a Reg.GATE_TRY) else s.regPeek m a

end Sys2Proof.Machine
end

