-- ==== Sys2Proof/Machine/Gauge.lean ====
section
/-! DEFINITION. The Gauge outputs (02 R64, R65, Table 2.9). Voltages are in microvolts. -/
namespace Sys2Proof.Machine

/-- The select register of a Gauge pin. -/
def State.gaugeSel (s : State) (g : Fin 2) : Word := s.reg (Reg.GAUGE_SEL0 + 4 * g.val)

/-- QTY and ARG of a pin. -/
def State.gaugeQty (s : State) (g : Fin 2) : Nat := fld (s.gaugeSel g) 8 8
def State.gaugeArg (s : State) (g : Fin 2) : Nat := fld (s.gaugeSel g) 0 4

/-- A quantity that names no source under this ARG: an I/O bank or a port that does not exist. The voltage is a free value
(log 53). -/
def gaugeNone (qty arg : Nat) : Bool :=
  (decide (qty = 3) || decide (qty = 6) || decide (qty = 7)) && decide (3 < arg)

/-- A receive level: 1.20 V at 0 dBFS, 20 mV/dB; RXLVL counts half decibels down from 0 dBFS. -/
def levelUv (rxlvl : Byte) : Nat := 1200000 - 10000 * rxlvl.toNat

/-- Time offset: 0.60 V and 0.3 mV/ns, clamped to 2 us. -/
def offsetUv (ns : Int) : Nat := (600000 + 300 * max (-2000) (min 2000 ns)).toNat

/-- Wayleave ownership by car role. -/
def ownershipUv (role : Nat) : Nat := if role = 1 then 900000 else if role = 2 then 600000 else if role = 3 then 1200000 else 300000

/-- Heartbeat: high in the first half of each second of local time. -/
def heartbeatUv (t : Dword) : Nat := if t.toNat / 500000000 % 2 = 0 then 1200000 else 0

/-- Die temperature in half degrees: 0.60 V and 4 mV per degree. -/
def tempUv (t : Half) : Nat := (600000 + 2000 * t.toInt).toNat

/-- A quantity of Table 2.9 as its source stands. -/
def State.gaugeSource (s : State) (qty arg : Nat) : Nat :=
  let p : Fin 4 := ⟨arg % 4, Nat.mod_lt _ (by decide)⟩
  if gaugeNone qty arg then s.draw
  else match qty with
    | 0x01 => s.sys.vsupMv.toNat * 1000 / 3
    | 0x02 => s.sys.vcoreMv.toNat * 1000
    | 0x03 => (s.sys.vioMv.get p).toNat * 1000 / 3
    | 0x04 => min 1200 s.sys.senseMv.toNat * 1000
    | 0x05 => tempUv s.sys.temp
    | 0x06 => levelUv (s.heldLvl p)
    | 0x07 => 25000 * min 48 (s.meanSnr p)
    | 0x08 => (s.stateCode + 1) * 50000
    | 0x09 => ownershipUv s.carRole
    | 0x0A => heartbeatUv s.tre.time
    | 0x0B => offsetUv s.tre.offset.toInt
    | 0x0C => 80000 * arg
    | _ => 0

/-- Quantities 0x01 to 0x05 take an analogue path (02 R65). -/
def gaugeAnalogue (qty : Nat) : Bool := decide (1 ≤ qty) && decide (qty ≤ 5)

/-- The value a pin shows when neither held nor off: its source at once, or as last converted. -/
def State.gaugeNow (s : State) (g : Fin 2) : Nat :=
  let q := s.gaugeQty g
  if gaugeAnalogue q then s.gaugeSource q (s.gaugeArg g) else if 6 ≤ q ∧ q ≤ 0xC then s.sp.gaugeConv.get g else 0

/-- The voltage on a Gauge pin (02 R64; 0 V in reset and in a clock fault, 03 Table 3.3, R84). -/
def State.gaugeUv (s : State) (g : Fin 2) : Nat :=
  if s.pinsReset || !s.sp.ctl.getLsbD 2 then 0
  else if s.sp.ctl.getLsbD 1 then s.sp.gaugeHeld.get g
  else s.gaugeNow g

/-- Convert both pins' quantities from the core domain (02 R65). -/
def State.gaugeConvert (s : State) : State :=
  State.took { s with sp.gaugeConv := vmk 0 fun g => s.gaugeSource (s.gaugeQty g) (s.gaugeArg g) }

/-- A write of GHOLD holds the present values as it sets (02 R64). -/
def State.gaugeHold (v : Half) (s : State) : State :=
  let ctl : BitVec 3 := v.setWidth 3
  if ctl.getLsbD 1 && !s.sp.ctl.getLsbD 1 then
    { s with sp.ctl := ctl, sp.gaugeHeld := vmk 0 fun g => s.gaugeUv g }
  else { s with sp.ctl := ctl }

/-- A write of a select register; in Walk mode both pins convert (02 R65). -/
def State.gaugeSelWrite (a : Nat) (v : Word) (s : State) : State :=
  (s.setReg a v).when s.sp.walk State.gaugeConvert

/-- Every 1 ms, while the core domain runs on its own clock. -/
def execGaugeConversion (s : State) : Result := .next (s.when (!s.sp.walk) State.gaugeConvert)

end Sys2Proof.Machine
end

