-- ==== Sys2Proof/Machine/RegFile.lean ====
section
/-! DEFINITION. Accesses to the deep map: what a normal read does besides answering (00 R471), what a write does (00 R472),
and which accesses are refused (00 R12, 09 R267, 13 R354, R355, 15 R411, R418). -/
namespace Sys2Proof.Machine

/-! ### Normal reads (00 R471) -/

/-- The _H word of a shadowed pair gives its shadow up (04 R134). -/
def State.shadowTaken (a : Nat) (s : State) : State :=
  if a = Reg.TRE_TIME_H then { s with tre.timeSh := none }
  else if a = Reg.ITN_LTIME_H then { s with ctl.ltimeSh := none }
  else
    let p := portOf a Reg.LIU_PCFG 0x1000
    if a = Reg.LIU_TSRX_H + 0x1000 * p.val then s.modPort p fun c => { c with tsrxSh := none }
    else if a = Reg.LIU_TSTX_H + 0x1000 * p.val then s.modPort p fun c => { c with tstxSh := none }
    else s

/-- What a normal read of all 32 bits of a register does. -/
def State.wholeReadFx (m : Master) (a : Nat) (s : State) : State :=
  if a = Reg.EVT_CLAIMC then s.claimFx .control
  else if a = Reg.EVT_CLAIMS then s.claimFx .steward
  else if Reg.within a Reg.GATE_TRY 32 then s.gateTryFx (masterCode m) (fin32 a Reg.GATE_TRY)
  else if decide (Reg.GATE_QPUSH ≤ a) && decide (a < Reg.GATE_QMYSTAT) && decide (a % 0x10 = 4) then
    s.queuePopFx (masterCode m) (fin16 a Reg.GATE_QPUSH 0x10)
  else if a = Reg.TRE_CLAIM then s.claimPop
  else if a = Reg.WLV_REQQ then s.reqqPop
  else if a = Reg.ETH_LEARNQ_H then s.learnqPop
  else if a = Reg.CWY_LOG0 then s.cwyLogPop
  else if a = Reg.MEM_ELOG0 then s.elogPop
  else if a = Reg.FBK_RAW then s.fbRawPop
  else (s.tsShadow a).shadowTaken a

/-- RC bits of the returned lanes clear. -/
def State.rcReadFx (a : Nat) (be : BitVec 4) (s : State) : State :=
  if a = Reg.LANE_DROP then { s with lane.drop := s.lane.drop &&& ~~~ laneMask be }
  else if a = Reg.ETH_LEARNQ_L then { s with eth.learnSh := s.eth.learnSh &&& ~~~ laneMask be }
  else s

/-- What a normal read of lanes of a register does. -/
def State.regReadFx (m : Master) (a : Nat) (be : BitVec 4) (s : State) : State :=
  (s.when (decide (be = 0xF)) (State.wholeReadFx m a)).rcReadFx a be

/-! ### Writes, block by block (00 R472)

Each takes the register's address, the byte lanes written, and the register's stored bits with the written lanes replaced:
bits that are not stored, such as W1C bits and triggers, are 0 in it outside those lanes. -/

/-- The bits written of a word clear in a long bit string. -/
def clearAt {w : Nat} (x : BitVec w) (i : Nat) (v : Word) : BitVec w := x &&& ~~~ ((v.setWidth w) <<< (32 * i))

def State.writeSys (m : Master) (a : Nat) (be : BitVec 4) (v : Word) (s : State) : State :=
  if a = Reg.SYS_RSTCAUSE then { s with sys.rstcause := s.sys.rstcause &&& ~~~ v.setWidth 8 }
  else if a = Reg.SYS_PARTCTL then s.when (be.getLsbD 2) (State.partCtl m v)
  else s.setReg a v

def State.writeEvt (a : Nat) (be : BitVec 4) (v : Word) (s : State) : State :=
  if Reg.within a Reg.EVT_RAW 8 then { s with evt.raw := clearAt s.evt.raw (Reg.idx a Reg.EVT_RAW) v }
  else if Reg.within a Reg.EVT_MULTI 8 then { s with evt.multi := clearAt s.evt.multi (Reg.idx a Reg.EVT_MULTI) v }
  else if Reg.within a Reg.EVT_PENDC 8 then { s with evt.pendC := clearAt s.evt.pendC (Reg.idx a Reg.EVT_PENDC) v }
  else if Reg.within a Reg.EVT_PENDS 8 then { s with evt.pendS := clearAt s.evt.pendS (Reg.idx a Reg.EVT_PENDS) v }
  else if a = Reg.EVT_SOFT then s.when (be.getLsbD 0) (State.raise (fld v 0 8))
  else s.setReg a v

/-- LIU_CTL: a PEN bit set enables its port; cleared, the port is disabled once its transmission is over (04 R135). -/
def State.liuCtlWrite (v : Word) (s : State) : State :=
  (s.setReg Reg.LIU_CTL v).each (fins 4) fun p t =>
    if v.getLsbD p.val then t.portEnable p true
    else if t.txBusy p then t else t.portEnable p false

/-- LIU_PCFG: without JAMEN a port holds no JAM and is not dead (04 R130). Clearing NOTCHEN places no further notch and leaves
the active ones: the manual is silent on them (log 159). -/
def State.pcfgWrite (p : Fin 4) (a : Nat) (v : Word) (s : State) : State :=
  let t := s.setReg a v
  if v.getLsbD 12 then t
  else
    let u := t.modPort p fun c => { c with jam := false }
    if (u.port p).state = .dead then u.portTo p .silent else u

/-- LIU_MASK: only with all four ports disabled, PEN cleared and in effect, and never below 120 carriers (04 R102, R135). -/
def State.maskWrite (a : Nat) (v : Word) (s : State) : State :=
  let t := s.setReg a v
  if s.regFld Reg.LIU_CTL 0 4 = 0 ∧ (s.liu.ports.toList.all fun c => !c.enabled) = true ∧ maskCount ((List.range 6).map fun i => t.reg (Reg.at Reg.LIU_MASK i)) ≤ 60 then t else s

/-- Lanes of a word of a 96-byte slot; writes to reserved bits are ignored (00 R9). -/
def slotPut (l : List Byte) (i : Nat) (be : BitVec 4) (v : Word) : List Byte :=
  let full := (List.range 96).map (byteAt l)
  let new := tmClean (full.zipIdx.map fun x =>
    if x.2 / 4 = i ∧ be.getLsbD (x.2 % 4) = true then (v >>> (8 * (x.2 % 4))).setWidth 8 else x.1)
  if new.all (· == 0) then [] else new

/-- LIU_TM: segment slots, while the port is disabled (04 R136). -/
def State.slotWrite (p : Fin 4) (i : Nat) (be : BitVec 4) (v : Word) (s : State) : State :=
  if s.regBit Reg.LIU_CTL p.val || (s.port p).enabled then s
  else s.modPort p fun c => { c with slots := vset c.slots (i / 24) (slotPut (vget c.slots (i / 24)) (i % 24) be v) }

def State.writeLiu (a : Nat) (be : BitVec 4) (v : Word) (s : State) : State :=
  if a = Reg.LIU_CTL then s.liuCtlWrite v
  else if Reg.within a Reg.LIU_MASK 6 then s.maskWrite a v
  else if Reg.LIU_PCFG ≤ a then
    let p := portOf a Reg.LIU_PCFG 0x1000
    let o := (a - Reg.LIU_PCFG) % 0x1000
    if o = 0 then s.pcfgWrite p a v
    else if Reg.within o 0x200 192 then s.slotWrite p (Reg.idx o 0x200) be v
    else s.setReg a v
  else s.setReg a v

/-- The steward's table while SVY waits for it (05 R165). -/
def State.decideWrites (s : State) (m : Master) (bit : Nat) : Bool :=
  decide (m = .steward) && s.svy.hostwait && decide (s.svy.state = .decide) && s.svy.split.getLsbD bit

def State.writeSvy (m : Master) (a : Nat) (be : BitVec 4) (v : Word) (s : State) : State :=
  let i := Reg.idx a Reg.SVY_CHAINTAB
  let j := Reg.idx a Reg.SVY_NIDTAB
  if a = Reg.SVY_CTL then s.svyCtlWrite v
  else if Reg.within a Reg.SVY_CHAINTAB 32 then
    if s.decideWrites m 0 then
      { s with svy.decChain := vset s.svy.decChain i (mergeLanes (s.svy.decChain.getD i 0) be v &&& chainMask) }
    else s
  else if Reg.within a Reg.SVY_NIDTAB 64 then
    if s.decideWrites m 1 then { s with svy.decNid := vset s.svy.decNid j (mergeLanes (s.svy.decNid.getD j 0) be v &&& nidMask) }
    else s
  else s.setReg a v

/-- TRE_WMTAB, while EN is 0: an entry beyond the table extends it. -/
def State.wmtabWrite (i : Nat) (be : BitVec 4) (v : Word) (s : State) : State :=
  if s.regBit Reg.TRE_CTL 0 then s
  else
    let t := s.tre.table ++ List.replicate (i + 1 - s.tre.table.length) 0
    { s with tre.table := t.set i (mergeLanes (t.getD i 0) be v &&& entryMask) }

def State.writeTre (a : Nat) (be : BitVec 4) (v : Word) (s : State) : State :=
  if a = Reg.TRE_COMMIT then (if v.getLsbD 0 then { s with tre.commit := true } else s)
  else if a = Reg.TRE_EDIT then s.editWrite v
  else if Reg.within a Reg.TRE_WMTAB 256 then s.wmtabWrite (Reg.idx a Reg.TRE_WMTAB) be v
  else s.setReg a v

def State.writeRoad (a : Nat) (v : Word) (s : State) : State :=
  if a = Reg.ROAD_PING ∧ v.getLsbD 31 = true then (s.setReg a v).ping (BitVec.ofNat 6 (fld v 16 6))
  else if a = Reg.ROAD_CTL then s.roadCtlWrite v
  else if Reg.within a Reg.ROAD_PCFG 4 then s.roadPcfgWrite (portOf a Reg.ROAD_PCFG 4) v
  else if a = Reg.ROAD_PAUSE then (s.setReg a v).pauseAll
  else s.setReg a v

/-- Lanes of a word of ETH_ATAB; the age of an entry starts as it is written (07 R232; log 219). -/
def Atab.put (now : Dword) (x : Atab) (hi : Bool) (be : BitVec 4) (v : Word) : Atab :=
  let w0 := if hi then x.word0 else mergeLanes x.word0 be v
  let w1 := if hi then mergeLanes x.word1 be v else x.word1
  ⟨w1.getLsbD 31, w1.getLsbD 30, BitVec.ofNat 2 (fld w1 28 2), BitVec.ofNat 6 (fld w1 22 6),
    BitVec.ofNat 48 (w0.toNat + fld w1 0 16 * 2 ^ 32), now⟩

def State.writeEth (a : Nat) (be : BitVec 4) (v : Word) (s : State) : State :=
  let e : Fin 2 := if a < 0x40070000 then 0 else 1
  if a = ethBase e then s.ethCtlWrite e v
  else if a = ethBase e + 0xC then s.mdioWrite e v
  else if a = ethBase e + 0x14 then s.ethPfcWrite e v
  else if Reg.within a Reg.ETH_ATAB 512 then
    let i := Reg.idx a Reg.ETH_ATAB
    { s with eth.atab := vset s.eth.atab (i / 2) (Atab.put s.tre.time (s.eth.atab.getD (i / 2) ⟨false, false, 0, 0, 0, 0⟩)
      (decide (i % 2 = 1)) be v) }
  else s.setReg a v

def State.writeCnt (a : Nat) (v : Word) (s : State) : State :=
  let p : Fin 8 := ⟨a / 0x100 % 8, Nat.mod_lt _ (by decide)⟩
  if a = Reg.CNT_CAIRN then s.cairnWrite v
  else if a < 0x40080800 then
    { s with cnt := upd s.cnt p fun c =>
        match a % 0x100 with
        | 0xC0 => { c with hpend := clearAt c.hpend 0 v }
        | 0xC4 => { c with hpend := clearAt c.hpend 1 v }
        | 0xC8 => { c with hovr := clearAt c.hovr 0 v }
        | 0xCC => { c with hovr := clearAt c.hovr 1 v }
        | _ => c }
  else s.setReg a v

def State.writeFbk (a : Nat) (v : Word) (s : State) : State :=
  if a = Reg.FBK_USERGO then s.fbUserGo v
  else if a = Reg.FBK_WIPE then s.fbWipe v
  else s.setReg a v

/-- The selected slot is valid, and a program that was NONE is STOP (09 Table 9.2; 16 R435). -/
def State.slotChosen (s : State) : State :=
  if s.ctl.pstate = .none ∧ s.slotValid s.slotSel = true ∧ s.boot.phase = .done then s.progTo .stop else s

/-- ITN_RUNCTL: SLOT, in NONE, STOP and FAULTSTOP only (09 R263), then the requests. -/
def State.runctlWrite (v : Word) (s : State) : State :=
  (((s.when (!s.progBusy) fun t => (t.setReg Reg.ITN_RUNCTL v).slotChosen)).when (v.getLsbD 1)
    (State.runAsk .runctl)).when (v.getLsbD 2) State.stopAsk

def State.writeItn (a : Nat) (v : Word) (s : State) : State :=
  if a = Reg.ITN_SAT then
    if v.getLsbD 31 then { s with itn.sat := false, itn.divz := false, itn.first := 0, itn.count := 0 } else s
  else if a = Reg.ITN_RUNCTL then s.runctlWrite v
  else s.setReg a v

def State.writeLane (a : Nat) (v : Word) (s : State) : State :=
  if a = Reg.LANE_CTL then s.laneCtlWrite v
  else if a = Reg.LANE_COMMIT then (if v.getLsbD 0 then { s with lane.go := true } else s)
  else if a = Reg.LANE_SUBDONE then s.when (v.getLsbD 0) (State.subDone (fun _ t => t) [])
  else if (a = Reg.LANE_CFG ∨ Reg.within a Reg.LANE_ST 32 = true ∨ Reg.within a Reg.LANE_PID 32 = true) ∧
      s.regBit Reg.LANE_CTL 0 = true then s
  else s.setReg a v

def State.writeWlv (a : Nat) (v : Word) (s : State) : State :=
  if a = Reg.WLV_CTL then s.wlvCtlWrite v
  else if a = Reg.WLV_TRKDIFF then (if v.getLsbD 31 then { s with wlv.trkdiff := clrBit s.wlv.trkdiff 31 } else s)
  else if a = Reg.WLV_BCOMMIT then s.bcommitWrite v
  else s.setReg a v

/-- Who may write a channel's registers, and DMA_ALLOC (13 R354). -/
def State.dmaMayWrite (s : State) (m : Master) (a : Nat) : Bool :=
  let n : Fin 32 := ⟨(a - Reg.DMA_CHCTL) / 0x20 % 32, Nat.mod_lt _ (by decide)⟩
  decide (a < Reg.DMA_CHCTL) || !s.dmaCtlSide n || decide (m = .control) || decide (m = .service)

def State.writeDma (m : Master) (a : Nat) (v : Word) (s : State) : State :=
  let n : Fin 32 := ⟨(a - Reg.DMA_CHCTL) / 0x20 % 32, Nat.mod_lt _ (by decide)⟩
  if a = Reg.DMA_CTL then s.dmaEnWrite v
  else if a = Reg.DMA_ALLOC then (if m = .control then s.setReg a v else s)
  else if a = Reg.DMA_ERRSUM then { s with dma.errsum := s.dma.errsum &&& ~~~ v }
  else if Reg.DMA_CHCTL ≤ a then
    match a % 0x20 with
    | 0x00 => s.dmaCtlWrite n v
    | 0x0C => s.setDch n ((s.dch n).statClear v)
    | _ => s.setReg a v
  else s.setReg a v

/-- CWY_CTL.TESTLOG (14 Registers). -/
def State.testLog (s : State) : State := s.cwyLogAdd false 0 0 0xFF 0 0 0 0

def State.writeCwy (a : Nat) (v : Word) (s : State) : State :=
  if a = Reg.CWY_CTL then (s.setReg a v).when (v.getLsbD 8) State.testLog
  else if decide (Reg.CWY_WCTL ≤ a) && decide (a < Reg.CWY_WCTL + 0x80) && decide (a % 8 = 0) then
    s.wctlWrite (fin16 a Reg.CWY_WCTL 8) v
  else s.setReg a v

def State.writeGate (m : Master) (a : Nat) (be : BitVec 4) (v : Word) (s : State) : State :=
  let c := masterCode m
  if be = 0 then s
  else if Reg.within a Reg.GATE_REL 32 then s.gateRelFx c (fin32 a Reg.GATE_REL)
  else if Reg.within a Reg.GATE_FORCE 32 then s.gateForceFx c (fin32 a Reg.GATE_FORCE)
  else if decide (Reg.GATE_QPUSH ≤ a) && decide (a < Reg.GATE_QMYSTAT) then
    let q := fin16 a Reg.GATE_QPUSH 0x10
    match a % 0x10 with
    | 0 => s.queuePush c q v
    | 0xC => s.queueClear q v
    | _ => s
  else s.setReg a v

def State.writeBoot (m : Master) (a : Nat) (be : BitVec 4) (v : Word) (s : State) : State :=
  if a = Reg.BOOT_VERIFY then s.verifyWrite v
  else if a = Reg.BOOT_CTL then (if m = .service then s.setReg a v else s)
  else if a = Reg.BOOT_KICK then s.when (decide (be ≠ 0)) State.kick
  else if a = Reg.BOOT_KEYCMD then s.keyCmd v
  else s.setReg a v

/-- A write of lanes of a register. A narrow write of a command register that is write-only takes the operand lanes it does not
cover as 0, which is what such a register reads as (00 R472; log 205). -/
def State.regWrite (m : Master) (a : Nat) (be : BitVec 4) (w : Word) (s : State) : State :=
  let v := mergeLanes (s.reg a) be w
  match a / 0x10000 with
  | 0x4000 => s.writeSys m a be v
  | 0x4001 => s.writeEvt a be v
  | 0x4002 => s.writeLiu a be v
  | 0x4003 => s.writeSvy m a be v
  | 0x4004 => s.writeTre a be v
  | 0x4005 => s.writeRoad a v
  | 0x4006 => s.writeEth a be v
  | 0x4007 => s.writeEth a be v
  | 0x4008 => s.writeCnt a v
  | 0x4009 => s.writeFbk a v
  | 0x400A => s.writeItn a v
  | 0x400B => s.writeLane a v
  | 0x400C => s.writeWlv a v
  | 0x400D => s.writeDma m a v
  | 0x400E => s.writeCwy a v
  | 0x400F => s.writeGate m a be v
  | 0x4010 => if a = Reg.MEM_FERASE then s.flashErase m v else s.setReg a v
  | 0x4011 => s.writeBoot m a be v
  | 0x4012 => s.gaugeSelWrite a v
  | _ => s.setReg a v

/-! ### Any access -/

/-- Why a read of a word fails; a is word-aligned. -/
def State.readErr (s : State) (m : Master) (a : Nat) (be : BitVec 4) : Option AccErr :=
  if (memRegion? a).isNone && (regRow? a).isNone then some .unmapped
  else if !s.masterAllows m false a then some .refused
  else if (memRegion? a).isSome then
    match s.memRead a be with
    | .error e => some e
    | .ok _ => none
  else none

/-- What a peek of lanes of a word answers, 0 where it fails. -/
def State.busPeek (s : State) (m : Master) (a : Nat) (be : BitVec 4) : Word :=
  if (memRegion? a).isSome then ((s.memRead a be).toOption).getD 0 else s.regPeek m a &&& laneMask be

/-- What a normal read of lanes of a word answers. -/
def State.busRead (s : State) (m : Master) (a : Nat) (be : BitVec 4) : Word :=
  if (memRegion? a).isSome then ((s.memRead a be).toOption).getD 0
  else (if be = 0xF then s.regRead m a else s.regPeek m a) &&& laneMask be

/-- What a normal read of lanes of a word does besides answering. -/
def State.busReadFx (m : Master) (a : Nat) (be : BitVec 4) (s : State) : State :=
  if (memRegion? a).isSome then (if s.masterAllows m false a then s.memReadFx (masterCode m) a be else s)
  else if (regRow? a).isNone || !s.masterAllows m false a then s
  else s.regReadFx m a be

/-- Why a write of a word fails. -/
def State.writeErr (s : State) (m : Master) (a : Nat) : Option AccErr :=
  if (memRegion? a).isNone && (regRow? a).isNone then some .unmapped
  else if !s.masterAllows m true a then some .refused
  else if (memRegion? a).isSome then s.memWriteErr m a
  else if a / 0x10000 = 0x400D ∧ s.dmaMayWrite m a = false then some .refused
  else if Reg.within a Reg.GATE_REL 32 ∧ s.gateRelRefused (masterCode m) (fin32 a Reg.GATE_REL) = true then some .refused
  else if Reg.within a Reg.GATE_FORCE 32 ∧ forceAllowed (masterCode m) = false then some .refused
  else none

/-- Why a write of lanes of a word fails, a refused erase among them: 09 R263 has it answered as any refused flash operation
(15 R411; log 185). -/
def State.writeFails (s : State) (m : Master) (a : Nat) (be : BitVec 4) (v : Word) : Option AccErr :=
  let w := mergeLanes (s.reg a) be v
  match s.writeErr m a with
  | some e => some e
  | none =>
    if a = Reg.MEM_FERASE ∧ w.getLsbD 31 = true ∧ s.flashEraseCode m (fld w 0 10) ≠ 0 then some .refused else none

/-- A write of lanes of a word; a refused one does what its refusal does. -/
def State.busWrite (m : Master) (a : Nat) (be : BitVec 4) (v : Word) (s : State) : State :=
  if !s.masterAllows m true a then s
  else if (memRegion? a).isSome then s.memWrite m a be v
  else if (regRow? a).isNone || (s.writeErr m a).isSome then s
  else s.regWrite m a be v

end Sys2Proof.Machine
end

