-- ==== Sys2Proof/Machine/Causeway.lean ====
section
/-! DEFINITION. The commands of the Causeway: host accesses, local delivery, remote frames, the far side (14 R375 to R399). -/
namespace Sys2Proof.Machine

/-- P5 is out of service (14 R397, R398). -/
def State.p5Out (s : State) : Bool := decide (s.part 5 ≠ .inService)

/-! ### What the host sees -/

/-- HPAR1 and HPAR0 beside a host value: odd parity, or inverted; with PAREN = 0 they are high-impedance (14 R394, R395). -/
def State.hostPar (s : State) (v : Half) (inverted : Bool) : Option (BitVec 2) :=
  let bit (lo : Nat) : Nat := (oddParity (fld v lo 8) 1 != inverted).toNat
  if s.regBit Reg.CWY_CTL 1 then some (BitVec.ofNat 2 (bit 0 + 2 * bit 8)) else none

/-- The node answers a host read; while its pins stand as in reset AD is high-impedance (03 Table 3.3, R84). -/
def State.hostAnswer (v : Half) (inverted : Bool) (s : State) : State :=
  s.when (!s.pinsReset) (State.emit (.hostData v (s.hostPar v inverted)))

/-- Address parity over both lanes (14 R394). -/
def State.addrParityOk (s : State) (h : HostAddr) : Bool :=
  !s.regBit Reg.CWY_CTL 1 || parityOk [(0, false), (1, true)] h.a h.par

/-- How far an access gets before it reaches its window's rules. -/
inductive HostGate where
  | outOfService | disabled | badParity | windowOff | noLane | go
  deriving DecidableEq, Repr

def State.hostGate (s : State) (h : HostAddr) : HostGate :=
  if s.p5Out then .outOfService
  else if !s.regBit Reg.CWY_CTL 0 then .disabled
  else if !s.addrParityOk h then .badParity
  else if !s.wEn (hostWin h) then .windowOff
  else if hostNone h then .noLane
  else .go

/-- The window's shadow goes with every access to it but the read it serves (14 R382). -/
def State.shadowDrop (w : Fin 16) (s : State) : State := s.modWin w fun c => { c with shadow := none }

/-- An access counted while CWY_CTL.EN = 0 (14 R381); a held half and the shadow of its window go as with any other access
(14 R382). -/
def State.hostDisc (w : Fin 16) (s : State) : State :=
  let t := (s.heldDrop w).shadowDrop w
  { t with cwy.disc := satSucc t.cwy.disc }

/-! ### Reads -/

/-- One deep read for the host: the word, or 0xFFFF with a log entry. -/
def State.hostFetch (x : HostAcc) (be : BitVec 4) (s : State) : State × Option Word :=
  let fx := if x.peek then s else s.busReadFx .causeway x.word be
  match s.readErr .causeway x.word be with
  | none => (fx, some (if x.peek then s.busPeek .causeway x.word be else s.busRead .causeway x.word be))
  | some .uncorrectable => (fx.hostLog 0x11 x 0, none)
  | some _ => (fx.hostLog 0x10 x 0, none)

/-- The high half that a read finds in the window's shadow (14 R382). -/
def State.shadowFor (s : State) (x : HostAcc) : Option Half :=
  match (s.cwyWin x.win).shadow with
  | some (a, v) => if x.pair && hostHalf x.h && hostHigh x.h && decide (a.toNat = x.word) then some v else none
  | none => none

/-- A local read takes place (14 R380, R382, R383, R386). -/
def State.hostReadNow (x : HostAcc) (s : State) : State :=
  let t := s.shadowDrop x.win
  match s.shadowFor x with
  | some v => t.hostAnswer v false
  | none =>
    let paired := x.pair && hostHalf x.h
    let r := t.hostFetch x (if paired then 0xF else lanesBe x.lanes)
    match r.2 with
    | none => r.1.hostAnswer 0xFFFF false
    | some w =>
      let keep (u : State) : State :=
        u.modWin x.win fun c => { c with shadow := some (BitVec.ofNat 32 x.word, lanesHalf (pairLanes x.lane true) w) }
      (r.1.when (paired && !hostHigh x.h) keep).hostAnswer (lanesHalf x.lanes w) false

/-- Local writes accepted and not answered. -/
def State.localPending (s : State) : Bool := s.cwy.buf.any fun e => !e.remote

/-- A host read (14 R375, R376, R379 to R381, R386, R395, R398). -/
def State.hostRead (h : HostAddr) (s : State) : State :=
  let x := s.hostAcc h
  let bad (t : State) : State := t.hostAnswer 0xFFFF false
  if s.cwy.waiting.isSome then s
  else match s.hostGate h with
    | .outOfService => s.hostAnswer 0xFFFF true
    | .disabled => bad (s.hostDisc x.win)
    | .badParity => ((s.hostLog 4 x 0).raise 228).hostAnswer 0xFFFF true
    | .windowOff => bad ((s.shadowDrop x.win).hostLog 2 x 0)
    | .noLane => bad (((s.heldDrop x.win).shadowDrop x.win).hostLog 6 x 0)
    | .go =>
      let t := s.heldDrop x.win
      if x.remote then bad ((t.shadowDrop x.win).hostLog 1 x 0)
      else if t.localPending then { t with cwy.waiting := some (x, none) }
      else t.hostReadNow x

def execHostRead (h : HostAddr) (s : State) : Result := .next (s.hostRead h)

/-! ### Writes -/

/-- A host write (14 R375, R381, R382, R384, R394, R395, R398): on a full buffer it waits, with EV227. -/
def State.hostWrite (h : HostAddr) (v : Half) (par : BitVec 2) (s : State) : State :=
  let x := s.hostAcc h
  if s.cwy.waiting.isSome then s
  else match s.hostGate h with
    | .outOfService => s
    | .disabled => s.hostDisc x.win
    | .badParity => (s.hostLog 4 x v).raise 228
    | .windowOff => (s.shadowDrop x.win).hostLog 2 x v
    | .noLane => ((s.heldDrop x.win).shadowDrop x.win).hostLog 6 x v
    | .go =>
      let t := s.shadowDrop x.win
      if decide (32 ≤ t.cwy.buf.length) && !x.pairLow then
        State.raise 227 { t with cwy.waiting := some (x, some (v, par)) }
      else t.hostAccept x v par

def execHostWrite (h : HostAddr) (data : Half) (par : BitVec 2) (s : State) : Result := .next (s.hostWrite h data par)

/-- HTMO has passed: the access ends without effect (14 R377), and it was an access to its window: the shadow and a held half
go (14 R382). -/
def State.hostTimeout (s : State) : State :=
  match s.cwy.waiting with
  | none => s
  | some (x, none) => (({ s with cwy.waiting := none }.shadowDrop x.win).hostLog 3 x 0).hostAnswer 0xFFFF false
  | some (x, some (v, _)) => ({ s with cwy.waiting := none }.heldDrop x.win).hostLog 3 x v

def execHostWaitTimeout (s : State) : Result := .next (s.when s.coreRuns fun s => s.hostTimeout)

/-- The oldest local entry has its write response: it lands, or is logged with cause 0x10; then a waiting access goes on
(14 R385, R386). -/
def State.localResponse (s : State) : State :=
  match s.cwy.buf.find? fun e => !e.remote with
  | none => s
  | some e =>
    let t : State := { s with cwy.buf := s.cwy.buf.erase e }
    let u := t.busWrite .causeway e.addr.toNat e.be e.data
    let v := if (t.writeFails .causeway e.addr.toNat e.be e.data).isSome then
        u.cwyLogAdd false e.win.val 0 0x10 0 e.addr e.data 0 else u
    match v.cwy.waiting with
    | some (x, none) => if v.localPending then v else { v with cwy.waiting := none }.hostReadNow x
    | _ => v.hostResume

/-! ### The far side (14 R388, R389) -/

/-- BE of a record (14 R388). -/
def beOk (be : Nat) : Bool := [1, 2, 4, 8, 3, 0xC, 0xF].contains be

/-- Issue records from index i: how many are written, and the cause that stops them. -/
def State.farWrite (b : List Byte) : Nat → Nat → State → State × Nat × Nat
  | 0, i, s => (s, i, 0)
  | k + 1, i, s =>
    let o := 4 + 12 * i
    let a := beAt b o 4
    let be := fld (byteAt b (o + 4)) 0 4
    let v : Word := BitVec.ofNat 32 (ofLe (slice b (o + 8) 4))
    if !beOk be || decide (a % 4 ≠ 0) then (s, i, 0x26)
    else if (s.writeFails .causeway a (BitVec.ofNat 4 be) v).isSome then (s.busWrite .causeway a (BitVec.ofNat 4 be) v, i, 0x25)
    else (s.busWrite .causeway a (BitVec.ofNat 4 be) v).farWrite b k (i + 1)

/-- The payload of DONE. -/
def donePayload (b : List Byte) (applied cause : Nat) : List Byte :=
  [2, BitVec.ofNat 8 applied, byteAt b 2, byteAt b 3, BitVec.ofNat 8 cause, BitVec.ofNat 8 (if cause = 0 then 0 else applied),
    0, 0]

/-- A WRITE frame: its records, and the DONE it is answered with. -/
def State.farSide (b : List Byte) (s : State) : State × List Byte :=
  let r := if s.regBit Reg.CWY_CTL 4 then s.farWrite b (byteAt b 1).toNat 0 else (s, 0, 0x24)
  let t := r.1
  let n := r.2.1
  let c := r.2.2
  let u : State := { t with
    cwy.farFrames := t.cwy.farFrames + 1, cwy.farErrs := t.cwy.farErrs + if c = 0 then 0 else 1 }
  (u.raiseIf (decide (c ≠ 0)) 230, donePayload b n c)

/-- A class 0x04 frame of this node. -/
def State.cwyHdr (s : State) (prio : Nat) (dst : BitVec 6) (chan : Nat) (payload : List Byte) : List Byte :=
  (s.roadHdr prio 4 false false dst payload.length chan).bytes ++ payload

/-- The oldest WRITE frame held is worked off: its records, and DONE to its source (14 R389). -/
def State.farServe (s : State) : State :=
  match s.cwy.farq with
  | [] => s
  | body :: rest =>
    let h := RHdr.parse body
    let r := State.farSide (roadPayload body) { s with cwy.farq := rest }
    (r.1.bumpSeq).sendUnicast h.src (mkQ (r.1.cwyHdr h.prio h.src h.chan r.2) none none 0)

/-- DONE ends the window's frame (14 R390). -/
def State.doneRx (w : Fin 16) (b : List Byte) (s : State) : State :=
  let c := s.cwyWin w
  if c.flight.isSome ∧ beAt b 2 2 = (c.fseq - 1).toNat then
    s.cwyFlightEnd w (byteAt b 4).toNat (byteAt b 5).toNat
  else s

/-- A WRITE frame is held until it is worked off: up to 4, code 1 beyond them, code 3 with P5 out of service (14 R389). -/
def deliverCwyWrite : Deliver where
  fits := fun _ h body => decide (h.cls = 4) && !h.bcast && decide (byteAt body 12 = 1)
  code := fun s _ _ => if s.p5Out then 3 else if 4 ≤ s.cwy.farq.length then 1 else 0
  act := fun f _ s =>
    let t := s.count1 4 17
    { t with cwy.farq := t.cwy.farq ++ [f.body] }

/-- The node that a window's frame in flight goes to. -/
def State.flightTo (s : State) (w : Fin 16) : Option (BitVec 6) :=
  (s.cwyWin w).flight.bind fun f => f.1.head?.map (·.nid)

/-- DONE: also while P5 is quiescing, which waits for the frames in flight to end (16 Table 16.7; log 196). -/
def deliverCwyDone : Deliver where
  fits := fun _ h body => decide (h.cls = 4) && !h.bcast && decide (byteAt body 12 = 2)
  code := fun s _ _ => if s.p5Out && decide (s.part 5 ≠ .quiescing) then 3 else 0
  act := fun f h s =>
    let w : Fin 16 := ⟨h.chan % 16, Nat.mod_lt _ (by decide)⟩
    let t := s.count1 4 17
    if t.flightTo w = some h.src then t.doneRx w (roadPayload f.body) else t

def execCausewayDone (f : RxFrame) (s : State) : Result := .next (s.roadRx f deliverCwyDone)

/-! ### Building a frame (14 R387, R388, R392) -/

/-- The entries a window's next frame holds: the pending ones that name the node the first of them names. -/
def State.framePending (s : State) (w : Fin 16) : List CwyEntry :=
  let l := s.cwy.buf.filter fun e => e.remote && !e.inFrame && decide (e.win = w)
  match l with
  | [] => []
  | e :: _ => l.takeWhile fun x => decide (x.nid = e.nid)

/-- Record of an entry; DATA bytes outside BE are 0. -/
def CwyEntry.record (e : CwyEntry) : List Byte :=
  beBytes 4 e.addr.toNat ++ [e.be.setWidth 8, 0, 0, 0] ++ leBytes 4 (e.data &&& laneMask e.be).toNat

/-- Mark the first n pending entries of a window as in its frame. -/
def markFrame (w : Fin 16) : Nat → List CwyEntry → List CwyEntry
  | 0, l => l
  | _, [] => []
  | n + 1, e :: t =>
    if e.remote && !e.inFrame && decide (e.win = w) then { e with inFrame := true } :: markFrame w n t
    else e :: markFrame w (n + 1) t

/-- A window with pending entries and no frame in flight builds one in an open window; to this node itself it passes without
the line. -/
def State.frameBuild (w : Fin 16) (s : State) : State :=
  let recs := s.framePending w
  match recs, (s.cwyWin w).flight, s.road.open_ with
  | e :: _, none, true =>
    let fseq := (s.cwyWin w).fseq
    let payload := [1, BitVec.ofNat 8 recs.length] ++ beBytes 2 fseq.toNat ++ recs.flatMap CwyEntry.record
    let t : State := { s with cwy.buf := markFrame w recs.length s.cwy.buf }
    let u := t.modWin w fun c => { c with flight := some (recs, false), fseq := c.fseq + 1 }
    if s.svy.nid = some e.nid then
      let r := u.farSide payload
      r.1.doneRx w r.2
    else (u.bumpSeq).sendUnicast e.nid (mkQ (u.cwyHdr (min 6 (s.wPrio w)) e.nid w.val payload) none (some w) 0)
  | _, _, _ => s

/-- No DONE within CTMO of the transmit result (14 R390). -/
def State.doneLate (w : Fin 16) (s : State) : State :=
  match (s.cwyWin w).flight with
  | some (_, true) => s.cwyFlightEnd w 0x23 0
  | _ => s

def execDoneTimeout (w : Fin 16) (s : State) : Result := .next (s.when s.coreRuns fun s => s.doneLate w)

def execCwyLogPop (m : Master) (s : State) : Result :=
  .next (s.access m false Reg.CWY_LOG0 fun s => (s.cwyLogPop).emit (.answer m s.cwyLog0))

def execTestlog (s : State) : Result := .next s.testLog

end Sys2Proof.Machine
end

