-- ==== Sys2Proof/Machine/Transit.lean ====
section
/-! DEFINITION. Open Road commands that deliver frames of any class: transit, transmit records, the two runtime services, and
the Causeway commands whose writes may post a record (07 R207, R215 to R223; 09 R273, R274). -/
namespace Sys2Proof.Machine

/-! ### Any frame -/

/-- Every class and line-management kind that has an effect (07 Tables 7.2, 7.3). -/
def deliveries : List Deliver := [
  mgmt 0x01 onSnrReport, mgmt 0x02 onSegmentAnnounce, mgmt 0x03 onRingAnnounce, mgmt 0x04 onToneAck,
  mgmt 0x05 onSegmentSummary, mgmt 0x06 onSegmentActivate, mgmt 0x10 onJoin, mgmt 0x11 onHere, mgmt 0x12 onResume,
  mgmt 0x13 onHello, mgmt 0x14 onEcho, mgmt 0x15 onReply, mgmt 0x20 onClaim, mgmt 0x21 onTableRequest, mgmt 0x22 onTable,
  mgmt 0x30 onWayleave, deliverUser, deliverTunnel, deliverPause, deliverCwyWrite, deliverCwyDone]

/-- The delivery a frame belongs to. -/
def State.deliveryOf (s : State) (h : RHdr) (body : List Byte) : Option Deliver :=
  deliveries.find? fun d => d.fits s h body

/-- Deliver a frame by its own class and kind; one that has none is accepted without effect. -/
def deliverAny : Deliver where
  fits := fun s h _ => h.bcast || !s.isDest h
  code := fun s h body => match s.deliveryOf h body with | some d => d.code s h body | none => 0
  act := fun f h s => match s.deliveryOf h f.body with | some d => d.act f h s | none => s

def execRoadTransit (f : RxFrame) (s : State) : Result := .next (s.roadRx f deliverAny)

/-! ### Transmit records (07 R222) -/

/-- A unicast to this node itself is delivered inside it; the result its record completes with (07 R214). The port its receive
record names is a free value. -/
def State.selfDeliver (body : List Byte) (s : State) : State × Nat :=
  let h := RHdr.parse body
  let p : Fin 4 := ⟨s.draw % 4, Nat.mod_lt _ (by decide)⟩
  let f : RxFrame := ⟨p, s.tre.time, [], body, 0, 0, [], false, []⟩
  match deliverAny.code s h body with
  | 0 => (deliverAny.act f h s.took, 0)
  | 1 => (s, 1)
  | _ => (s, 2)

/-- The header as it is sent: filled in by the node, or as written under KEEP; R207 holds for both. -/
def State.recordHdr (s : State) (keep : Bool) (h : RHdr) : RHdr :=
  let x := s.roadHdr h.prio h.cls h.bcast h.loc h.dst h.plen h.chan
  if keep then { h with prio := x.prio } else x

/-- Send the record at a ring position, which is read from memory (15 R401). One whose PLEN exceeds 2036 cannot be sent: it
completes as undeliverable (07 R206; log 166). -/
def State.recordSend (keep : Bool) (a : Nat) (s : State) : State :=
  let h0 := RHdr.parse (s.peekBytes (a + 4) 12)
  let h := s.recordHdr keep h0
  let body := h.bytes ++ s.peekBytes (a + 16) h.plen
  let t : State := { s.blockReadFx (a + 4) (12 + h.plen) with road.txpend := s.road.txpend ++ [(BitVec.ofNat 32 a, none)] }
  let q := mkQ body (some (BitVec.ofNat 32 a)) none 0
  let u := if keep then t else t.bumpSeq
  if (s.svy.nid.isNone && !(h.loc && decide (h.cls = 0))) || decide (2036 < h.plen) then t.frameEnd q 2
  else if h.bcast then u.sendBcast q
  else if s.svy.nid = some h.dst then
    let r := u.selfDeliver body
    r.1.frameEnd q r.2
  else u.sendUnicast h.dst q

def State.txBase (s : State) : Nat := (s.reg Reg.ROAD_TXBASE).toNat
def State.txSize (s : State) : Nat := (s.reg Reg.ROAD_TXSIZE).toNat
def State.txWp (s : State) : Nat := (s.reg Reg.ROAD_TXWP).toNat

/-- A position outside the ring stands for its base. -/
def State.txIn (s : State) (a : Nat) : Nat := if s.txBase ≤ a ∧ a < s.txBase + s.txSize then a else s.txBase

/-- Length of the record at a ring position. -/
def State.recLen (s : State) (a : Nat) : Nat := fld (s.peekWord a) 0 16

/-- Where the first record not taken up yet starts. -/
def State.txNext (s : State) : Nat :=
  match s.road.txpend.getLast? with
  | some r => ringStep s.txBase s.txSize r.1.toNat (s.recLen r.1.toNat)
  | none => s.txIn s.road.txrp.toNat

/-- Take up the records posted, in order, up to ROAD_TXWP; LEN = 0 continues at the base of the ring. Every control word is
read from memory (15 R401). -/
def State.txTake (m : Master) : Nat → State → State
  | 0, s => s
  | k + 1, s =>
    let a0 := s.txNext
    if a0 = s.txIn s.txWp then s
    else
      let wrap := decide (s.recLen a0 = 0)
      let a := if wrap then s.txBase else a0
      let t := (s.blockReadFx a0 4).when (wrap && decide (a ≠ s.txIn s.txWp)) (State.blockReadFx a 4)
      if a = s.txIn s.txWp ∨ s.recLen a = 0 then t
      else (t.recordSend (decide (m = .steward) && (s.peekWord a).getLsbD 31) a).txTake m k

/-- A write may have advanced ROAD_TXWP: what it posted is taken up while P1 is in service. -/
def State.txPosted (m : Master) (s : State) : State :=
  if s.txSize = 0 ∨ s.part 1 ≠ .inService then s else s.txTake m (min s.txSize 0x100000 / 8 + 1)

/-- A normal write by any master, and what it posts. -/
def State.write (m : Master) (a : Nat) (be : BitVec 4) (v : Word) (s : State) : State :=
  (s.busWrite m a be v).txPosted m

def execTransmitRecord (m : Master) (wp : Word) (s : State) : Result :=
  .next (s.access m true Reg.ROAD_TXWP fun s => s.write m Reg.ROAD_TXWP 0xF wp)

/-! ### Causeway commands whose writes may post a record -/

def execLocalWriteResponse (s : State) : Result := .next (s.when s.coreRuns fun s => s.localResponse.txPosted .causeway)

/-- A WRITE frame arrives, or, with none, the far side works off the oldest one it holds (14 R389; log 192). -/
def execCausewayWrite (f : Option RxFrame) (s : State) : Result :=
  .next (match f with
    | some g => s.roadRx g deliverCwyWrite
    | none => s.when s.coreRuns fun s => (s.farServe).txPosted .causeway)

def execFrameBuild (w : Fin 16) (s : State) : Result :=
  .next (s.when s.coreRuns fun s => (s.frameBuild w).txPosted .causeway)

/-! ### road_send and road_recv (09 Table 9.10) -/

/-- Every word of a buffer is open to the U-mode code. -/
def State.userMay (s : State) (write : Bool) (a n : Nat) : Bool :=
  (List.range ((a % 4 + n + 3) / 4)).all fun i => s.pmpAllows write (a / 4 * 4 + 4 * i)

/-- The first word of a buffer that the runtime cannot read: it takes an access fault there (15 Table 15.1). -/
def State.coreBad (s : State) (a n : Nat) : Option Nat := (wordsOf a n).find? fun w => (s.readErr .control w 0xF).isSome

/-- The runtime reads a buffer: every word, up to and with the first that fails. -/
def State.coreReads : List Nat → State → State
  | [], s => s
  | w :: l, s =>
    let t := s.busReadFx .control w 0xF
    if (s.readErr .control w 0xF).isSome then t else t.coreReads l

/-- The runtime copies a buffer: where a word of it fails, the copy ends with that access fault (15 R401). -/
def State.coreCopy (a n : Nat) (f : State → State) (s : State) : State :=
  let t := s.coreReads (wordsOf a n)
  match s.coreBad a n with
  | some w => t.coreFault .control false w
  | none => f t

/-- Where a record of n bytes goes in the transmit ring, and whether the ring wraps before it; none when it is full. -/
def State.txPlace (s : State) (n : Nat) : Option (Nat × Bool) :=
  let b := s.txBase
  let e := b + s.txSize
  let w := s.txIn s.txWp
  let r := s.txIn s.road.txrp.toNat
  if r ≤ w then
    if w + n < e ∨ (w + n = e ∧ r ≠ b) then some (w, false)
    else if b + n < r then some (b, true) else none
  else if w + n < r then some (w, false) else none

/-- road_send: the record is copied into the transmit ring under gate 31. -/
def State.svcRoadSend (a0 a1 : Word) (s : State) : State :=
  let n := a1.toNat
  if s.track then s.svcRet0 0
  else if n = 0 ∨ 0xFFFF < n ∨ s.userMay false a0.toNat n = false then s.svcRet0 errArg
  else if !(s.gateTryVal 1 31).getLsbD 31 then s.svcRet0 errBusy
  else (s.gateTryFx 1 31).coreCopy a0.toNat n fun t =>
    let pad := (n + 7) / 8 * 8
    match t.txPlace pad with
    | none => (t.gateRelFx 1 31).svcRet0 errFull
    | some (a, wrap) =>
      let u := t.when wrap fun x => x.pokeWord 1 (x.txIn x.txWp) 0
      let v := u.pokeBytes 1 a (t.peekBytes a0.toNat n)
      let wp := if a + pad = t.txBase + t.txSize then t.txBase else a + pad
      ((v.write .control Reg.ROAD_TXWP 0xF (BitVec.ofNat 32 wp)).gateRelFx 1 31).svcRet0 0

def execRoadSend (a0 a1 : Word) (s : State) : Result := .next (s.service (State.svcRoadSend a0 a1))

/-- road_recv: the oldest record of a channel is copied to the buffer and taken from the ring. -/
def State.svcRoadRecv (a0 a1 a2 : Word) (s : State) : State :=
  let ch := a0.toNat
  if 12 < ch then s.svcRet0 errArg
  else
    let b := s.rxBase ch
    let e := b + s.rxSize ch
    let r0 := (s.reg (Reg.ROAD_RXRP + 0x10 * ch)).toNat
    let r1 := if b ≤ r0 ∧ r0 < e then r0 else b
    let w := s.rxPos ch
    let r := if r1 ≠ w ∧ s.recLen r1 = 0 then b else r1
    let n := s.recLen r
    if s.rxSize ch = 0 ∨ r = w ∨ n = 0 then s.svcRet0 0
    else if a2.toNat < n ∨ s.userMay true a1.toNat n = false then s.svcRet0 errArg
    else s.coreCopy r n fun t =>
      let u := t.pokeBytes 1 a1.toNat (t.peekBytes r n)
      let nx := ringStep b (s.rxSize ch) r n
      (u.write .control (Reg.ROAD_RXRP + 0x10 * ch) 0xF (BitVec.ofNat 32 nx)).svcRet0 (BitVec.ofNat 32 n)

def execRoadRecv (a0 a1 a2 : Word) (s : State) : Result := .next (s.service (State.svcRoadRecv a0 a1 a2))

end Sys2Proof.Machine
end

