-- ==== Sys2Proof/Machine/DmaCmds.lean ====
section
/-! DEFINITION. The DMA engine's grant, over the whole deep map (13 R353, R355, R369, R370). -/
namespace Sys2Proof.Machine

/-- The bus over the whole deep map. -/
def fullBus : Bus where
  readErr := State.readErr
  read := State.busRead
  readFx := State.busReadFx
  writeFails := State.writeFails
  write := State.write

/-- The next beat is granted: to a local access of the Causeway first, which ranks with priority 3 and before its channels;
else to a channel (13 R353, R369, R370). -/
def State.dmaBeat (s : State) : State :=
  if s.localPending then s.localResponse.txPosted .causeway
  else if !s.dmaOn then s
  else match s.dmaGrant with
    | none => s
    | some (p, n) =>
      ({ s with dma.grant := vset s.dma.grant p (some (n, (s.dch n).lastBeat)) }).dmaMakes fullBus n

def execDmaBeat (s : State) : Result := .next (s.when s.coreRuns fun s => s.dmaBeat)

end Sys2Proof.Machine
end

