-- ==== Sys2Proof/Machine/Reset.lean ====
section
/-! DEFINITION. What a reset does, the boot that follows its release (03 R78 to R81, R95; 15 R405, R415; 16 R433 to R436),
and what stops the line side of the node. -/
namespace Sys2Proof.Machine

/-! ### Resets (03 R80, R81, Table 3.9) -/

/-- The memories after a reset: flash keeps its content, its wear and its abandoned erases. With power lost everything else
reads 0, as the boot ROM leaves it (15 R405), and an erase in hand is abandoned; otherwise contents, check bits and a flash
operation in hand stay. -/
def State.memAfterReset (lost : Bool) (s : State) : MemBlk :=
  let k := s.mem
  if lost then
    let a := s.flashAbandon
    { MemBlk.reset with
      cells := k.cells.filter fun c => decide (c.1 < 0x400000), wear := k.wear, abandoned := a.mem.abandoned }
  else
    { MemBlk.reset with
      cells := k.cells, errs := k.errs, badpar := k.badpar, wear := k.wear, abandoned := k.abandoned
      busyA := k.busyA, busyB := k.busyB }

/-- The boot block after a reset: the OTP keys stay, and without loss of power the test access port. -/
def State.bootAfterReset (lost : Bool) (s : State) : Boot :=
  let b := s.boot
  let r : Boot := { Boot.reset with keys := b.keys }
  if lost then r
  else { r with
    ir := b.ir, bsr := b.bsr, bsrUpd := b.bsrUpd, byp := b.byp, extest := b.extest, dmistat := b.dmistat
    opFailed := b.opFailed }

/-- The Field Book after a reset: what flash holds of it stays; without loss of power so do the records that wait to be
written and the count of those lost (log 168). -/
def State.fbkAfterReset (lost : Bool) (s : State) : Fbk :=
  let r : Fbk := { Fbk.reset with retired := s.fbk.retired, full := s.fbk.full }
  if lost then r else { r with queue := s.fbk.queue, dropped := s.fbk.dropped, restored := s.fbk.restored }

/-- Levels and measured values come from outside the node, and the straps stay until they are sampled. A clock fault stays in
force over every reset but a power-up and its own (03 R84; log 182). -/
def State.sysAfterReset (lost keepFault : Bool) (cause : Byte) (ph : ResetPhase) (s : State) : Sys :=
  let y := s.sys
  { Sys.reset with
    straps := y.straps, resetN := y.resetN, test := y.test, cabAct := y.cabAct, cabdb := y.cabdb
    peerOwnN := y.peerOwnN, peerHb := y.peerHb, refok := y.refok
    senseMv := y.senseMv, vsupMv := y.vsupMv, vcoreMv := y.vcoreMv, vioMv := y.vioMv, temp := y.temp
    rstcause := if lost then (y.rstcause &&& 0xC0) ||| cause else y.rstcause ||| cause
    heldCause := y.heldCause
    phase := ph
    xok := !lost && y.xok, pllok := !lost && y.pllok
    clkFault := !lost && !keepFault && y.clkFault
    faultBefore := if lost then 0 else y.spFault
    spFault := if keepFault then y.spFault else 0 }

/-- A reset: every register at its reset value but for what survives (03 R80, R81; 02 Table 2.4 SP_FAULT, R48, R63). A
transaction in progress at the service port is lost (02 Corner cases). -/
def State.resetWith (lost keepFault : Bool) (cause : Byte) (ph : ResetPhase) (s : State) : State :=
  { State.reset with
    sys := s.sysAfterReset lost keepFault cause ph
    sp := { Sp.reset with lost := s.sp.open_ || s.sp.lost }
    svy := { Svy.reset with uid := s.svy.uid }
    wlv := { Wlv.reset with peerClear := s.sys.peerOwnN }
    fbk := s.fbkAfterReset lost
    mem := s.memAfterReset lost
    boot := s.bootAfterReset lost
    free := s.free
    out := s.out
    pending := s.pending }

/-- The CLK reset: the power-up sequence from the crystal-valid step onwards, SP_FAULT kept (03 R84). -/
def State.clkReset (s : State) : State := s.resetWith false true 0x20 .powerUp

/-- A warm reset: held for 10 us, without sampling the straps. A CLK reset that waits takes its place (03 R84). -/
def State.warmReset (s : State) : State :=
  if s.sys.clkWaiting then s.clkReset
  else
    let t := s.resetWith false false 0x10 .warmHeld
    if s.sys.clkFault then { t with sys.spFault := s.sys.spFault } else t

/-- A pin reset, held while RESET_N is low or TEST high. A CLK reset that waits is taken with it, and SP_FAULT is kept while
a clock fault is in force (03 R84; log 182). -/
def State.pinReset (s : State) : State :=
  if s.sys.clkWaiting then s.resetWith false true 0x22 .pinHeld
  else
    let t := s.resetWith false false 0x02 .pinHeld
    if s.sys.clkFault then { t with sys.spFault := s.sys.spFault } else t

/-- A reset asked for during SAVE waits until HOLD: 1 pin, 2 warm (03 Corner cases). -/
def State.resetOrWait (pin : Bool) (s : State) : State :=
  if s.sys.vehState = .save then
    { s with sys.resetWaiting := if pin then 1 else if s.sys.resetWaiting = 1 then 1 else 2 }
  else if pin then s.pinReset else s.warmReset

/-! ### The save area at boot (15 R415) -/

/-- A sector of the slot holds the record of an abandoned erase. -/
def State.saveAbandoned (s : State) (b : Bool) : Bool :=
  [0, 1].any fun i => s.mem.abandoned.contains (saveBase b / 4096 + i)

/-- Magic in place. -/
def State.saveMagic (s : State) (b : Bool) : Bool := decide (s.bytesAt (saveBase b) 4 = [0x53, 0x41, 0x56, 0x31])

/-- Bytes of the retained region and the records. -/
def State.saveLen (s : State) (b : Bool) : Nat := s.flashLe (saveBase b + 12) 4 + 32 * s.flashLe (saveBase b + 16) 4

/-- COMMIT is in place and the CRC-32 holds. -/
def State.saveCommitted (s : State) (b : Bool) : Bool :=
  decide (s.flashLe (saveBase b + 0x1FFC) 4 = 0) && decide (s.saveLen b ≤ 0x1FDC) &&
    decide (crc32 (s.bytesAt (saveBase b + 0x20) (s.saveLen b)) = s.wordAt (saveBase b + 0x14))

/-- The SSEQ of a slot that is a save. -/
def State.saveSseq (s : State) (b : Bool) : Option Word :=
  if !s.saveAbandoned b && s.saveMagic b && s.saveCommitted b then some (s.wordAt (saveBase b + 4)) else none

/-- The slot is an incomplete save. -/
def State.saveIncomplete (s : State) (b : Bool) : Bool := !s.saveAbandoned b && s.saveMagic b && !s.saveCommitted b

/-- The newest save: the higher SSEQ, modulo 2^32. -/
def State.saveNewest (s : State) : Option (Word × Bool) :=
  match s.saveSseq false, s.saveSseq true with
  | none, none => none
  | some a, none => some (a, false)
  | none, some b => some (b, true)
  | some a, some b => if (b - a).toNat < 2147483648 then some (b, true) else some (a, false)

/-- The slot is fully erased, and no erase of it was abandoned. -/
def State.saveErased (s : State) (b : Bool) : Bool := s.erased (saveBase b) 0x2000 && !s.saveAbandoned b

/-- What the boot ROM finds: the newest save, SAVEINC, and the slots to be erased in the background. -/
def State.saveScan (s : State) : State :=
  let new := s.saveNewest
  let inc := s.saveIncomplete false || s.saveIncomplete true
  let old := [false, true].filter fun b => decide (new.map (·.2) ≠ some b) && !s.saveErased b
  State.saveEraseNext { s with
    sys.rstcause := putBit s.sys.rstcause 7 (s.sys.rstcause.getLsbD 7 || inc)
    mem.newestSave := new
    mem.saveErase := old.flatMap fun b => [saveBase b / 4096, saveBase b / 4096 + 1] }

/-! ### The configuration image (16 R434; 06 R187) -/

/-- Items of the payload: type and data. -/
def cfgItems : Nat → List Byte → List (Byte × List Byte)
  | 0, _ => []
  | n + 1, l =>
    match l with
    | ty :: _ :: a :: b :: t =>
      let len := a.toNat + 256 * b.toNat
      if ty = 0xFF then [] else (ty, t.take len) :: cfgItems n (t.drop ((len + 3) / 4 * 4))
    | _ => []

/-- A pair of a preset list that is written: a peripheral block but for BOOT, GATE, DMA and CWY. -/
def presetOk (a : Nat) : Bool :=
  decide (0x40000000 ≤ a) && decide (a < 0x40130000) && !([0x400D, 0x400E, 0x400F, 0x4011].contains (a / 0x10000))

/-- A preset list, pair by pair. -/
def State.presets : List Byte → State → State
  | a :: b :: c :: d :: e :: f :: g :: h :: t, s =>
    let addr := ofLe [a, b, c, d]
    let u := if presetOk addr then
        (if addr % 4 = 0 then s.busWrite .control addr 0xF (BitVec.ofNat 32 (ofLe [e, f, g, h])) else s)
      else { s with boot.skipped := satSucc s.boot.skipped }
    u.presets t
  | _, s => s

/-- A design table file that holds: entries and declarations. -/
def designFile (d : List Byte) : Option (List Word × List Half) :=
  let n := ofLe (slice d 4 2)
  let k := (byteAt d 6).toNat
  let tab := (List.range n).map fun i => BitVec.ofNat 32 (ofLe (slice d (20 + 4 * i) 4))
  let decl := (List.range k).map fun i => BitVec.ofNat 16 (ofLe (slice d (20 + 4 * n + 2 * i) 2))
  if d.take 4 = [0x57, 0x4D, 0x54, 0x31] ∧ k ≤ 16 ∧ (slice d 7 9).all (· == 0) = true ∧ 20 + 4 * n + 2 * k ≤ d.length ∧
      (crc32 (d.drop 20)).toNat = ofLe (slice d 16 4) ∧ tabOk tab = true then some (tab, decl)
  else none

/-- A design table file is loaded, or refused with EV095. -/
def State.designItem (d : List Byte) (s : State) : State :=
  match designFile d with
  | some x => { s with tre.design := some x.1, tre.decls := x.2 }
  | none => s.raise 95

/-- One item; in Limp mode presets only. -/
def State.cfgItem (limp : Bool) (x : Byte × List Byte) (s : State) : State :=
  if x.1 = 2 then s.presets x.2
  else if x.1 = 1 ∧ limp = false then s.designItem x.2
  else s

/-- An image is refused at boot with EV251; verdict 1 says that the slot holds none (16 Table 16.4, Table 16.10; log 197). -/
def State.imageRefused (c : BitVec 4) (s : State) : State := s.raiseIf (decide (1 < c.toNat)) 251

/-- Check the configuration slot of a bank. -/
def State.cfgCheck (b : Bool) (s : State) : State :=
  let c := s.verdict .config b
  (if b then { s with boot.cverdB := c } else { s with boot.cverdA := c } : State).imageRefused c

/-- The configuration slot of the steward's bank, otherwise the other's; its items are applied. -/
def State.cfgBoot (limp b : Bool) (s : State) : State :=
  let apply (k : Bool) (t : State) : State :=
    let base := SlotKind.config.base k
    let pay := t.bytesAt (base + 0x100) (t.flashLe (base + 0x10) 4 - 0x100)
    State.each { t with boot.cvalid := true, boot.cbank := k } (cfgItems pay.length pay) (State.cfgItem limp)
  let t := s.cfgCheck b
  if s.verdict .config b = 0 then apply b t
  else
    let u := t.cfgCheck (!b)
    if s.verdict .config (!b) = 0 then apply (!b) u else u

/-! ### Boot (16 R433) -/

/-- The steward slot of a bank is checked: its verdict is written. -/
def State.stewardCheck (b : Bool) (s : State) : State :=
  let c := s.verdict .steward b
  if b then { s with boot.verdB := c } else { s with boot.verdA := c }

/-- Both program slots are checked, and ITN_RUNCTL.SLOT set. -/
def State.programCheck (b : Bool) (s : State) : State :=
  let ca := s.verdict .program false
  let cb := s.verdict .program true
  let t : State := { s with
    boot.pverdA := ca, boot.pverdB := cb, boot.validA := decide (ca = 0), boot.validB := decide (cb = 0) }
  let slot := if t.slotValid b then b else !b
  let u := (t.imageRefused ca).imageRefused cb
  if ca = 0 ∨ cb = 0 then u.setReg Reg.ITN_RUNCTL (putBit (u.reg Reg.ITN_RUNCTL) 0 slot) else u

/-- With a steward accepted from a bank. -/
def State.bootSteward (b : Bool) (s : State) : State :=
  let t := (State.programCheck b ((State.cfgBoot false b { s with boot.sbank := b })))
  let u := (t.stewardStart b)
  let ok := u.slotValid u.slotSel
  let v := if ok then u.runtimeLoad u.slotSel else u
  let w : State := { v with boot.phase := .done }
  if ok then
    let x := w.progTo .stop
    x.when (x.boot.hsrt && (x.desc (slotBase x.slotSel)).autorun) (State.runAsk .autorun)
  else w

/-- Limp mode (16 R436). -/
def State.bootLimp (b : Bool) (s : State) : State :=
  State.raise 252 (State.spFaultCode 0x1001 { State.cfgBoot true b s with boot.phase := .limp })

/-- The boot ROM, from its start to the release of the cores or to Limp mode. -/
def State.bootRom (s : State) : State :=
  let b := s.sys.straps.bank
  let t := (s.saveScan.fbBoot).stewardCheck b
  if s.verdict .steward b = 0 then t.bootSteward b
  else
    let u := (t.stewardCheck (!b)).raise 251
    if s.verdict .steward (!b) = 0 then State.bootSteward (!b) { u with boot.fallback := true } else u.bootLimp b

/-- Reset value of SYS_VEH_RATIO under VRANGE (03 Table 3.11). -/
def vehRatio (v : BitVec 2) : Word := if v = 0 then 0x1E00 else if v = 1 then 0x5A00 else if v = 2 then 0x8980 else 0

/-- Registers whose reset value follows a strap (03 Registers). -/
def State.strapRegs (s : State) : State :=
  let v := s.sys.straps.vrange
  (s.setReg Reg.SYS_VEH_CFG (0x8C463C04 ||| v.setWidth 32)).setReg Reg.SYS_VEH_RATIO (vehRatio v)

/-- A reset is released: CABDB takes the level of CAB_ACT (03 R73), the clocks are valid, the heartbeat runs (12 R327),
EV000 and the reset record (08 R245, Table 8.4), and the boot ROM starts. With the crystal still lost the node waits for it
in its clock fault instead (03 R84; log 182). -/
def State.release (s : State) : State :=
  if s.sys.clkFault then { s with sys.phase := .clockLost, sys.cabdb := s.sys.cabAct }
  else
  let t : State := { s with
    sys.phase := .running, sys.cabdb := s.sys.cabAct, sys.heldCause := 0, sys.xok := true, sys.pllok := true
    sys.vehOff := decide (s.sys.straps.vrange = 3)
    wlv.hbRuns := true }
  let u := (t.strapRegs).raise 0
  let d := BitVec.ofNat 64 (u.sys.rstcause.toNat + u.sys.faultBefore.toNat * 2 ^ 32)
  ((u.fbQueue (u.fbRec 3 0 d)).wlvSync).bootRom

/-- The straps are sampled; the reset is released if RESET_N is high and TEST low, otherwise held (03 R69, R78). -/
def State.releaseOrHold (x : Straps) (s : State) : State :=
  let t : State := { s with sys.straps := x }
  if t.sys.resetN && !t.sys.test then t.release else { t with sys.phase := .pinHeld }

/-! ### Line transmitters off (02 R60, 03 R84) -/

/-- The frame in hand goes back to the head of its queue: its attempt is lost. -/
def RoadPort.cutOff (r : RoadPort) : RoadPort :=
  if r.st = .pre ∨ r.st = .send ∨ r.st = .ackwait then { r with st := .idle, queue := r.cur.toList ++ r.queue, cur := none } else r

/-- Every port stops transmitting. -/
def State.linesOff (s : State) : State :=
  { s with
    liu.ports := vmk Port.reset fun p => { s.liu.ports.get p with txact := false, txEnd := none }
    road.ports := vmk RoadPort.reset fun p => (s.road.ports.get p).cutOff }

end Sys2Proof.Machine
end

