-- ==== Sys2Proof/Machine/Service.lean ====
section
/-! DEFINITION. The service port: image, transactions, key window, deep window, Walk mode (02 R34 to R63), and accesses of the
deep map by any master (00 R471, R472; 16 R446). -/
namespace Sys2Proof.Machine

/-! ### The service map as it reads (02 Table 2.4) -/

/-- The key window is in force (02 R47, R48). -/
def State.keyIn (s : State) : Bool := s.sp.keyOpen && decide (s.sp.keyLeft ≠ 0)

/-- ALERT_N is asserted internally (02 R45); held in reset, and through a clock fault, it is released (03 Table 3.3, R84). -/
def State.alertOn (s : State) : Bool :=
  !s.pinsReset && (decide (s.sp.alert &&& ~~~ s.sp.alertMask ≠ 0) || s.sp.ctl.getLsbD 0)

/-- The status byte (02 Table 2.2). -/
def State.statusByte (s : State) (apin : Bool) : Byte :=
  BitVec.ofNat 8 (128 * s.alertOn.toNat + 64 * apin.toNat + 32 * s.sp.walk.toNat + 16 * s.keyIn.toNat +
    8 * s.sp.busy.toNat + s.sp.last.toNat)

/-- SP_MODE.CUR (02 Table 2.4; INIT and RUN are RUN, 09 Registers). -/
def State.curMode (s : State) : Nat :=
  match s.boot.phase with
  | .limp => 1
  | .rom | .imageCheck => 0
  | .done => if s.ctl.pstate = .init ∨ s.ctl.pstate = .run then 3 else 2

/-- SP_TIMEOFS: the offset in ns, saturating. -/
def State.timeOfs (s : State) : Half := BitVec.ofInt 16 (max (-32767) (min 32767 s.tre.offset.toInt))

/-- SP_DSTAT. -/
def State.dstat (s : State) : Half :=
  packH [(15, s.sp.busy.toNat), (14, s.sp.done.toNat), (12, s.sp.err.toNat), (0, s.sp.count.toNat)]

/-- SP_ETH: UP, FD and 100 Mbit/s of both ports. -/
def State.spEth (s : State) : Half := packH [(13, s.ethStat 0 / 2), (5, s.ethStat 1 / 2)]

/-- SP_TRACE4: ITN_SEQ.IDX, and where a walk step has ended in a pass the entry it goes on at (10 R301). -/
def State.itnNext (s : State) : BitVec 12 :=
  match s.itn.at_ with
  | none => s.itn.idx
  | some i => if decide (s.itn.seq = .errseq) && decide (s.itn.table.length ≤ i) then 0 else BitVec.ofNat 12 i

/-- A service-map register under a status byte. -/
def State.spReg (s : State) (status : Byte) (a : BitVec 6) : Half :=
  let p := s.sp
  let port (i : Fin 4) : Half := (s.liuPstat i).setWidth 16
  match a.toNat with
  | 0x00 => 0x3216
  | 0x01 => 0x1203
  | 0x02 => packH [(11, s.stateCode), (10, (decide (s.tre.sync = .locked)).toNat), (9, (decide (s.tre.sync = .muted)).toNat),
      (8, (decide (s.svy.state ≠ .idle)).toNat), (0, status.toNat)]
  | 0x03 => p.alert
  | 0x04 => p.alertMask
  | 0x05 => p.ctl.setWidth 16
  | 0x06 => p.daddr.setWidth 16
  | 0x07 => (p.daddr >>> 16).setWidth 16
  | 0x08 => p.ddata.setWidth 16
  | 0x09 => (p.ddata >>> 16).setWidth 16
  | 0x0A => p.dctl
  | 0x0B => s.dstat
  | 0x0C => packH [(15, p.walk.toNat), (13, p.pend.toNat), (8, p.until_.toNat)]
  | 0x0D => p.walkSteps
  | 0x0E => (s.gaugeSel 0).setWidth 16
  | 0x0F => (s.gaugeSel 1).setWidth 16
  | 0x10 => packH [(8, s.curMode)]
  | 0x11 => s.spNode
  | 0x12 => s.sys.roleShown
  | 0x13 => s.links
  | 0x15 => p.fbSeq
  | 0x16 => s.fbData
  | 0x17 => s.fbStat
  | 0x18 => packH [(8, p.keyLeft.toNat), (0, s.keyIn.toNat)]
  | 0x19 => (s.reg Reg.SYS_SPLIT).setWidth 16
  | 0x1A => s.spChain
  | 0x1B => s.timeOfs
  | 0x1C => s.spSync
  | 0x1D => s.spWlv
  | 0x1E => s.pins.setWidth 16
  | 0x1F => s.sys.temp
  | 0x20 => port 0
  | 0x21 => port 1
  | 0x22 => port 2
  | 0x23 => port 3
  | 0x24 => s.spEth
  | 0x25 => s.spLane
  | 0x26 => packH [(8, min 255 s.ctl.overruns.toNat), (0, s.ctl.cycnt.toNat % 256)]
  | 0x27 => s.sys.vsupMv
  | 0x28 => s.sys.vcoreMv
  | 0x29 => s.sys.veh
  | 0x2A => s.lastEvent
  | 0x2B => s.sys.spFault
  | 0x2D => p.scratch
  | 0x30 => s.ctl.hartC.pc.setWidth 16
  | 0x31 => (s.ctl.hartC.pc >>> 16).setWidth 16
  | 0x32 => s.ctl.hartS.pc.setWidth 16
  | 0x33 => (s.ctl.hartS.pc >>> 16).setWidth 16
  | 0x34 => s.itnNext.setWidth 16
  | 0x35 => s.trace5
  | 0x36 => s.trace6
  | 0x37 => p.trace7
  | _ => 0

/-- Addresses with no register (02 Table 2.4, R51). -/
def spReserved (a : BitVec 6) : Bool := decide (a.toNat = 0x2E) || decide (a.toNat = 0x2F) || decide (0x38 ≤ a.toNat)

/-! ### Transactions (02 R34 to R44) -/

/-- The port answers: in every node state from boot ROM onwards (02 The transaction; 03 R84, R69), with VIO0 present (17
Corner cases). -/
def State.spAnswers (s : State) : Bool :=
  (decide (s.sys.phase = .running) || decide (s.sys.phase = .clockLost)) && !s.sys.test && s.bankOn 0

/-- A transaction has its effect: the port answers, and no reset fell into it (02 Corner cases). -/
def State.spTakes (s : State) : Bool := s.spAnswers && !s.sp.lost

/-- SSEL_N falls: all 64 registers and the status byte are captured (02 R40); a port that does not answer loses the
transaction. -/
def State.spCapture (apin : Bool) (s : State) : State :=
  let st := s.statusByte apin
  if s.spAnswers then
    { s with
      sp.image := (List.range 64).map fun i => s.spReg st (BitVec.ofNat 6 i), sp.status := st
      sp.open_ := true, sp.lost := false }
  else { s with sp.lost := true }

def execServiceImageCapture (apin : Bool) (s : State) : Result := .next (s.spCapture apin)

/-- SSEL_N rises: the transaction is over. -/
def State.spOver (s : State) : State := { s with sp.open_ := false, sp.lost := false }

/-- The 32 bits on SDO: status byte, data word and CRC-8, from the image (02 R36, R37, R40). -/
def State.sdoBytes (s : State) (a : BitVec 6) : List Byte :=
  let w := s.sp.image.getD a.toNat 0
  let b : List Byte := [s.sp.status, (w >>> 8).setWidth 8, w.setWidth 8]
  b ++ [crc8 b]

/-- A transaction ends that takes effect: one fewer in the key window, no first key word pending, LAST accepted, or an
address error for a reserved register (02 R44, R47, R48, R51). -/
def State.spBegin (a : BitVec 6) (s : State) : State :=
  { s with
    sp.keyLeft := if s.sp.keyOpen then satPred s.sp.keyLeft else s.sp.keyLeft
    sp.keyFirst := false
    sp.last := if spReserved a then 4 else 0 }

/-- A transaction with 32 edges and a right CRC: what it commits is f, told whether the key window was in force and whether
the first key word was the last transaction. With TEST high the port returns all ones (03 R69); in reset it is silent, and a
transaction that a reset fell into is lost. -/
def State.transact (a : BitVec 6) (f : Bool → Bool → State → State) (s : State) : State :=
  if s.sys.test then (s.emit (.sdo [0xFF, 0xFF, 0xFF, 0xFF])).spOver
  else if !s.spTakes then s.spOver
  else f s.keyIn s.sp.keyFirst ((s.emit (.sdo (s.sdoBytes a))).spOver.spBegin a)

/-- The transaction is refused with a LAST code. -/
def State.spLast (c : BitVec 3) (s : State) : State := { s with sp.last := c }

/-! ### Key window (02 R47, R48) -/

/-- The key window closes. -/
def State.keyClose (s : State) : State := { s with sp.keyOpen := false, sp.keyLeft := 0, sp.keyFirst := false }

/-- A write of SP_KEY. -/
def State.keyWrite (first : Bool) (v : Half) (s : State) : State :=
  if v = 0x7A5C then { s with sp.keyFirst := true }
  else if v = 0x85A3 then (if first then { s with sp.keyOpen := true, sp.keyLeft := 255 } else s)
  else s.keyClose

def execKey (v : Half) (s : State) : Result := .next (s.transact 0x18 fun _ first t => t.keyWrite first v)

/-- 255 transactions after opening. -/
def execKeyWindowClose (s : State) : Result :=
  .next (if s.sp.keyOpen ∧ s.sp.keyLeft = 0 then s.keyClose else s)

/-! ### The deep window (02 R53 to R58) -/

/-- SIZE in bytes; 0b11 is no size. -/
def sizeBytes (n : Nat) : Nat := if n = 0 then 1 else if n = 1 then 2 else 4

/-- An access is launched, by GO or under AINC: BUSY. DONE clears at the next GO (02 R53); that ERR clears with it, and that a
launch under AINC clears both as a GO does, is the model's choice (log 155). -/
def State.deepLaunch (s : State) : State := { s with sp.busy := true, sp.done := false, sp.err := 0 }

/-- DIR, SIZE, AINC, DPEEK. -/
def State.deepDir (s : State) : Bool := s.sp.dctl.getLsbD 14
def State.deepSize (s : State) : Nat := fld s.sp.dctl 12 2
def State.deepAinc (s : State) : Bool := s.sp.dctl.getLsbD 11
def State.deepPeek (s : State) : Bool := s.sp.dctl.getLsbD 10

/-- A write of SP_DCTL: refused while busy; a GO in the write direction needs the key (02 R53, R54, R57). -/
def State.dctlWrite (key : Bool) (v : Half) (s : State) : State :=
  let go := v.getLsbD 15
  if s.sp.busy then s.spLast 3
  else if go && v.getLsbD 14 && !key then s.spLast 5
  else ({ s with sp.dctl := v &&& 0x7C00 }).when go State.deepLaunch

/-- The next access under AINC: SIZE is added to SP_DADDR first (02 R56). -/
def State.deepNext (s : State) : State :=
  State.deepLaunch { s with sp.daddr := s.sp.daddr + BitVec.ofNat 32 (sizeBytes s.deepSize) }

/-- A write of SP_DADDR or SP_DDATA: refused while busy (02 R57). A write of SP_DADDR clears COUNT; a write of SP_DDATA_H in
the write direction with AINC launches the next access, which needs the key (02 R54, R56). -/
def State.deepRegWrite (a : Nat) (key : Bool) (v : Half) (s : State) : State :=
  let lo (w : Word) : Word := (w &&& 0xFFFF0000) ||| v.setWidth 32
  let hi (w : Word) : Word := (w &&& 0x0000FFFF) ||| (v.setWidth 32 <<< 16)
  if s.sp.busy then s.spLast 3
  else if a = 0x06 then { s with sp.daddr := lo s.sp.daddr, sp.count := 0 }
  else if a = 0x07 then { s with sp.daddr := hi s.sp.daddr, sp.count := 0 }
  else if a = 0x08 then { s with sp.ddata := lo s.sp.ddata }
  else
    let t : State := { s with sp.ddata := hi s.sp.ddata }
    if s.deepAinc && s.deepDir then (if key then t.deepNext else s.spLast 5) else t

/-- A normal read of SP_DDATA_H in the read direction with AINC launches the next access; while one is in hand it is refused
and launches nothing (02 R56; log 54). -/
def State.deepRead9 (s : State) : State :=
  if s.deepAinc && !s.deepDir then (if s.sp.busy then s.spLast 3 else s.deepNext) else s

def execDeepRead (v : Half) (s : State) : Result :=
  .next (if v.getLsbD 15 && !v.getLsbD 14 then s.transact 0x0A fun key _ t => t.dctlWrite key v else s)

def execDeepWrite (v : Half) (s : State) : Result :=
  .next (if v.getLsbD 15 && v.getLsbD 14 then s.transact 0x0A fun key _ t => t.dctlWrite key v else s)

/-! ### Accesses of a size (02 R54, R471, R472) -/

/-- Byte lanes of an access of n bytes at an address. -/
def accessLanes (a n : Nat) : BitVec 4 := BitVec.ofNat 4 ((2 ^ n - 1) * 2 ^ (a % 4))

/-- SP_DSTAT.ERR of a failed access (02 Table 2.4). -/
def errCode (e : AccErr) : BitVec 2 := match e with | .uncorrectable | .parity => 2 | _ => 1

/-- A read of n bytes into the low-order bits of a word whose other bits are free values (02 R53; log 55). -/
def dataIn (free old : Nat) (n : Nat) : Word := BitVec.ofNat 32 (if n = 4 then old else free * 256 ^ n + old % 256 ^ n)

/-- The access in hand is made through the service path. -/
def State.deepAccess (s : State) : State :=
  let a := s.sp.daddr.toNat
  let n := sizeBytes s.deepSize
  let w := a / 4 * 4
  let be := accessLanes a n
  if s.deepSize = 3 ∨ a % n ≠ 0 then { s with sp.err := 1 }
  else if s.deepDir then
    let v := s.sp.ddata <<< (8 * (a % 4))
    let t := s.write .service w be v
    match s.writeFails .service w be v with
    | some e => { t with sp.err := errCode e }
    | none => t
  else
    let err := s.readErr .service w be
    let v := (if s.deepPeek then s.busPeek .service w be else s.busRead .service w be) >>> (8 * (a % 4))
    let t := if s.deepPeek then s else s.busReadFx .service w be
    match err with
    | some e => { t with sp.err := errCode e }
    | none => State.took { t with sp.ddata := dataIn s.draw v.toNat n }

/-- The access completes (02 R53, R56). One that ends with ERR counts as completed (log 155). -/
def State.deepDone (s : State) : State :=
  if !s.sp.busy then s
  else
    let t := s.deepAccess
    { t with sp.busy := false, sp.done := true, sp.count := t.sp.count + 1 }

def execDeepAccessDone (s : State) : Result := .next s.deepDone

/-- 100 us without completion (02 R58): DONE is set with ERR, and COUNT does not advance, since the access has not completed
(log 155). -/
def execDeepAccessTimeout (s : State) : Result :=
  .next (if s.sp.busy then { s with sp.busy := false, sp.done := true, sp.err := 3 } else s)

/-! ### Walk mode (02 R59 to R63) -/

/-- The conditions for entry but for the key (02 R59). -/
def State.walkAllowed (s : State) : Bool :=
  let role := fld s.sys.roleShown 10 2
  s.sys.straps.walkEn && !s.sp.busy && !((decide (role = 1) || decide (role = 2)) && decide (s.ctl.pstate = .run))

/-- Walk entry: the wayleave and the Lane drivers go, line transmitters off, traps released, DMA channels dropped and disabled,
heartbeat stopped (02 Table 2.7, R62; 12 R327). -/
def State.walkEnter (s : State) : State :=
  let t : State := { s with
    sp.walkEntering := true, sp.walk := false, sp.pend := false, sp.met := false, wlv.hbRuns := false, wlv.held := false, wlv.left := 0 }
  (((t.wlvSync.laneOffDrive.linesOff).dmaDropAll)).each (fins 32) fun n u =>
    u.setReg (Reg.chctl n) (clrBit (u.reg (Reg.chctl n)) 0)

/-- Walk ends: a record of the session, which waits in the queue through the warm reset that follows (02 R63, log 168). -/
def State.walkLeave (s : State) : State :=
  (s.fbQueue (s.fbRec 5 0 (s.sp.trace7.setWidth 64))).warmReset

/-- A write of SP_WALK (02 R59, R61, R63). Where the manual is silent: STEP in the write that enters Walk mode is dropped, and
refused while entry is in progress (log 133); WALK = 0 during entry ends it as it ends Walk mode, with a record and a warm
reset (log 181). -/
def State.walkWrite (key : Bool) (v : Half) (s : State) : State :=
  let in_ := s.sp.walk || s.sp.walkEntering
  if v.getLsbD 15 then
    if in_ then
      if v.getLsbD 14 then
        if s.sp.pend || !s.sp.walk then s.spLast 3
        else if key then { s with sp.pend := true, sp.met := false, sp.until_ := BitVec.ofNat 3 (fld v 8 3) }
        else s.spLast 5
      else if key then { s with sp.until_ := BitVec.ofNat 3 (fld v 8 3) }
      else s.spLast 5
    else if key && s.walkAllowed then State.walkEnter { s with sp.until_ := BitVec.ofNat 3 (fld v 8 3) }
    else s.spLast 3
  else if !key then s.spLast 5
  else if in_ then s.walkLeave
  else { s with sp.until_ := BitVec.ofNat 3 (fld v 8 3) }

def execWalkEntry (v : Half) (s : State) : Result :=
  .next (if v.getLsbD 15 && !v.getLsbD 14 then s.transact 0x0C fun key _ t => t.walkWrite key v else s)

def execStep (v : Half) (s : State) : Result :=
  .next (if v.getLsbD 15 && v.getLsbD 14 then s.transact 0x0C fun key _ t => t.walkWrite key v else s)

def execWalkExit (v : Half) (s : State) : Result :=
  .next (if v.getLsbD 15 then s else s.transact 0x0C fun key _ t => t.walkWrite key v)

/-- E + 1.3 ms: Walk mode is in effect; the node is absent from the ring (02 R60, R62). -/
def State.walkEntered (s : State) : State :=
  if !s.sp.walkEntering then s
  else (State.syncLost { s with sp.walkEntering := false, sp.walk := true, sp.trace7 := 0 })

def execWalkEntryComplete (s : State) : Result := .next s.walkEntered

/-- UNTIL names a condition that ends a step early (02 Table 2.8). -/
def State.untilOn (s : State) : Bool := decide (1 ≤ s.sp.until_.toNat) && decide (s.sp.until_.toNat ≤ 4)

/-! ### Writes and reads over the port -/

/-- A write of SP_CTL: WRST, or GEN, GHOLD and FALERT (02 Table 2.4; 03 R80). -/
def State.spCtlWrite (key : Bool) (v : Half) (s : State) : State :=
  if !key then s.spLast 5
  else if v.getLsbD 15 then (s.gaugeHold v).resetOrWait false
  else s.gaugeHold v

/-- A write of SP_MODE (09 R260, R262). -/
def State.spModeWrite (key : Bool) (v : Half) (s : State) : State :=
  if !key then s.spLast 5
  else match fld v 0 2 with
    | 1 => s.stopAsk
    | 2 => s.runAsk .spMode
    | _ => s

/-- A keyed write with no refusal of its own. -/
def State.spKeyed (key : Bool) (f : State → State) (s : State) : State := if key then f s else s.spLast 5

/-- A write of SP_FB_CTL (08 R254). -/
def State.fbCtlWrite (v : Half) (s : State) : State :=
  if v.getLsbD 15 then s.fbStart else if v.getLsbD 14 then s.fbNewest else s

/-- A write of a service-map register, and what it does at the commit (02 R41, R49). -/
def State.spWrite (a : BitVec 6) (v : Half) (key first : Bool) (s : State) : State :=
  match a.toNat with
  | 0x04 => { s with sp.alertMask := v &&& 0x37FF }
  | 0x05 => s.spCtlWrite key v
  | 0x06 => s.deepRegWrite 0x06 key v
  | 0x07 => s.deepRegWrite 0x07 key v
  | 0x08 => s.deepRegWrite 0x08 key v
  | 0x09 => s.deepRegWrite 0x09 key v
  | 0x0A => s.dctlWrite key v
  | 0x0C => s.walkWrite key v
  | 0x0D => s.spKeyed key fun t => { t with sp.walkSteps := v }
  | 0x0E => s.gaugeSelWrite Reg.GAUGE_SEL0 (v.setWidth 32)
  | 0x0F => s.gaugeSelWrite Reg.GAUGE_SEL1 (v.setWidth 32)
  | 0x10 => s.spModeWrite key v
  | 0x14 => s.fbCtlWrite v
  | 0x15 => { s with sp.fbSeq := v }
  | 0x18 => s.keyWrite first v
  | 0x19 => s.spKeyed key (State.setReg Reg.SYS_SPLIT (v.setWidth 32))
  | 0x2C => s.when (v.getLsbD 15) (State.cairnRequest ⟨fld v 0 3 % 8, Nat.mod_lt _ (by decide)⟩ false)
  | 0x2D => { s with sp.scratch := v }
  | _ => s

def execServiceWrite (a : BitVec 6) (v : Half) (s : State) : Result :=
  .next (s.transact a fun key first t => t.spWrite a v key first)

/-- What a normal read does: SP_ALERT clears the bits set in the image, SP_FB_DATA advances, SP_DDATA_H launches under AINC
(02 R42, R52, R56). -/
def State.spReadFx (a : BitVec 6) (s : State) : State :=
  match a.toNat with
  | 0x03 => { s with sp.alert := s.sp.alert &&& ~~~ s.sp.image.getD 3 0 }
  | 0x09 => s.deepRead9
  | 0x16 => s.fbAdvance
  | _ => s

def execNormalRead (a : BitVec 6) (s : State) : Result := .next (s.transact a fun _ _ t => t.spReadFx a)

def execPeek (a : BitVec 6) (s : State) : Result := .next (s.transact a fun _ _ t => t)

/-- W = P = 1 (02 R38, R44). -/
def execCommandRefused (a : BitVec 6) (s : State) : Result := .next (s.transact a fun _ _ t => t.spLast 3)

/-- WRST. -/
def execWrst (v : Half) (s : State) : Result :=
  .next (if v.getLsbD 15 then s.transact 0x05 fun key _ t => t.spCtlWrite key v else s)

/-- AINC: a normal read of SP_DDATA_H, or a write of it (02 R56). -/
def execAutoIncrement (wr : Option Half) (s : State) : Result :=
  .next (match wr with
    | none => s.transact 0x09 fun _ _ t => t.deepRead9
    | some v => s.transact 0x09 fun key _ t => t.deepRegWrite 0x09 key v)

def execFbStart (s : State) : Result := .next (s.transact 0x14 fun _ _ t => t.fbStart)

def execFbNewest (s : State) : Result := .next (s.transact 0x14 fun _ _ t => t.fbNewest)

def execFbDataRead (s : State) : Result := .next (s.transact 0x16 fun _ _ t => t.fbAdvance)

/-! ### The 32 bits on SDI (02 R35 to R39, Table 2.1) -/

/-- SDI bits 1 to 24 as bytes, most significant bit first. -/
def sdiBytes (w : Word) : List Byte := [(w >>> 24).setWidth 8, (w >>> 16).setWidth 8, (w >>> 8).setWidth 8]

/-- The CRC-8 in bits 25 to 32 is that of bits 1 to 24. -/
def sdiCrcOk (w : Word) : Bool := decide (crc8 (sdiBytes w) = w.setWidth 8)

/-- W, P and the address of the command byte, and the data word (02 R38). -/
def sdiW (w : Word) : Bool := w.getLsbD 31
def sdiP (w : Word) : Bool := w.getLsbD 30
def sdiAddr (w : Word) : BitVec 6 := (w >>> 24).setWidth 6
def sdiData (w : Word) : Half := (w >>> 8).setWidth 16

/-- The transaction that a word on SDI spells: a normal read, a peek, a write, or a refused one (02 R38). -/
def State.sdiRun (w : Word) (s : State) : State :=
  match sdiW w, sdiP w with
  | false, false => s.transact (sdiAddr w) fun _ _ t => t.spReadFx (sdiAddr w)
  | false, true => s.transact (sdiAddr w) fun _ _ t => t
  | true, false => s.transact (sdiAddr w) fun key first t => t.spWrite (sdiAddr w) (sdiData w) key first
  | true, true => s.transact (sdiAddr w) fun _ _ t => t.spLast 3

/-- What SDO shifts out over so many edges: the 32 bits of the image, then ones (02 R36, Corner cases). -/
def State.sdoBits (s : State) (w : Word) (edges : Nat) : List Bool :=
  (((s.sdoBytes (sdiAddr w)).flatMap fun b => (List.range 8).map fun i => b.getLsbD (7 - i)) ++ List.replicate edges true).take
    edges

/-- A transaction of so many edges whose bits on SDI are w. A framing or CRC error: nothing commits, the key window closes,
LAST and SPERR say so (02 R39, R44, R48). With 32 edges and a right CRC it is no error, but the transaction that it spells. -/
def State.spError (edges : Nat) (w : Word) (s : State) : State :=
  if edges = 32 ∧ sdiCrcOk w = true then s.sdiRun w
  else
    let t := (s.emit (.sdoBits (s.sdoBits w edges))).spOver
    { t with
      sp.last := if edges = 32 then 1 else 2, sp.keyOpen := false, sp.keyLeft := 0
      sp.alert := setBit t.sp.alert 13 }

/-- Such a transaction at the port: with TEST high SDO gives ones for every edge (03 R69). -/
def State.spEdges (edges : Nat) (w : Word) (s : State) : State :=
  if s.sys.test then (s.emit (.sdoBits (List.replicate edges true))).spOver
  else if !s.spTakes then s.spOver
  else s.spError edges w

def execCrcOrFramingError (edges : Nat) (sdi : Word) (s : State) : Result := .next (s.spEdges edges sdi)

/-! ### Accesses by other masters -/

/-- The first byte lane of an access. -/
def firstLane (be : BitVec 4) : Nat := (bitsOf be).headD 0

/-- A write by a master to lanes of a word, unless a trigger names it; a refused one is answered with an access fault (00 R12, R472;
16 R446). -/
def State.masterWrite (m : Master) (a : Nat) (be : BitVec 4) (v : Word) (s : State) : State :=
  s.unlessTrig m true (a + firstLane be) fun s =>
    let t := s.write m a be v
    if (s.writeFails m a be v).isSome then t.accFault m true (a + firstLane be) else t

def execRegisterWrite (m : Master) (addr : Word) (lanes : BitVec 4) (v : Word) (s : State) : Result :=
  .next (s.when (s.masterRuns m) (State.masterWrite m (addr.toNat / 4 * 4) lanes v))

def sizeOf : Size → Nat
  | .byte => 1 | .half => 2 | .word => 4

/-- The DMI operation failed: status 2 (16 R446). -/
def State.dmiFail (s : State) : State :=
  { s with boot.opFailed := true, boot.dmistat := if s.boot.dmistat = 0 then 2 else s.boot.dmistat }

/-- A system bus read is a peek: it has no side effect (00 R8, 16 R446). -/
def State.sbRead (a n : Nat) (s : State) : State :=
  let w := a / 4 * 4
  let be := accessLanes a n
  if a % n ≠ 0 ∨ (s.readErr .debug w be).isSome = true then s.dmiFail
  else s.emit (.answer .debug (s.busPeek .debug w be >>> (8 * (a % 4))))

def execSystemBusRead (addr : Word) (size : Size) (s : State) : Result :=
  .next (s.dmi (State.sbRead addr.toNat (sizeOf size)))

def State.sbWrite (a n : Nat) (v : Word) (s : State) : State :=
  let w := a / 4 * 4
  if a % n ≠ 0 then s.dmiFail
  else
    let x := v <<< (8 * (a % 4))
    let t := s.write .debug w (accessLanes a n) x
    if (s.writeFails .debug w (accessLanes a n) x).isSome then t.dmiFail else t

def execSystemBusWrite (addr : Word) (size : Size) (v : Word) (s : State) : Result :=
  .next (s.dmi (State.sbWrite addr.toNat (sizeOf size) v))

end Sys2Proof.Machine
end

