-- ==== Sys2Proof/Machine/Pass.lean ====
section
/-! DEFINITION. The commands that run a logic pass, and the accesses served between its entries; the end of a walk step (10
R290, R301; 13 R371; 02 R61). -/
namespace Sys2Proof.Machine

/-! ### Accesses between entries (10 R290) -/

/-- An access of a core or of the debug module, as it is: a write, or a read that is answered; one that fails is answered with
an access fault. -/
def State.serveAccess (x : Served) (s : State) : State :=
  let a := x.addr.toNat / 4 * 4
  match x.w with
  | some v =>
    let t := memBus.write x.m a x.lanes v s
    if (memBus.writeFails s x.m a x.lanes v).isSome then t.accFault x.m true (a + firstLane x.lanes) else t
  | none =>
    let t := memBus.readFx x.m a x.lanes s
    if (memBus.readErr s x.m a x.lanes).isSome then t.accFault x.m false (a + firstLane x.lanes)
    else t.emit (.answer x.m (s.memAnswer a x.lanes))

/-- The pass grows by 2 core cycles for an access to what the sequencer holds. -/
def State.gapCost (a : Nat) (s : State) : State :=
  if heldRegion (a / 4 * 4) then { s with itn.passcyc := s.itn.passcyc + 2 } else s

/-- An access listed comes at a gap. Of the deep window it is the access in hand, of the Causeway its oldest local entry, of a
DMA channel its next beat to a region that is not held (the others make theirs at every gap); of another master it is the access
itself, where the sequencer holds its address. -/
def State.serve (x : Served) (s : State) : State :=
  if !s.coreRuns then s
  else match x.m with
  | .service => if s.sp.busy then (s.deepDone).gapCost s.sp.daddr.toNat else s
  | .causeway =>
    match s.cwy.buf.find? fun e => !e.remote with
    | some e => ((s.localResponse).txPosted .causeway).gapCost e.addr.toNat
    | none => s
  | .dma n => if s.dmaOn && (s.dch n).ready && !s.dmaWaits n then s.dmaMakes fullBus n else s
  | _ => if heldRegion (x.addr.toNat / 4 * 4) then (s.serveAccess x).gapCost x.addr.toNat else s

/-! ### The commands -/

def execInputImageRelease (served : List Served) (s : State) : Result :=
  .next (s.when s.coreRuns (State.inputRelease State.serve served))

def execLaneSubdone (served : List Served) (s : State) : Result :=
  .next (s.when s.coreRuns (State.subDone State.serve served))

def execCycleReturn (a0 : Word) (us : Nat) (served : List Served) (s : State) : Result :=
  .next (s.when s.coreRuns (State.cycleReturn State.serve a0 us served))

/-! ### The end of a walk step (02 R61; 10 R301; 13 R374) -/

/-- UNTIL names a condition that the model shows: its own commands meet it. -/
def State.untilShown (s : State) : Bool := decide (s.sp.until_ = 2) || decide (s.sp.until_ = 4)

/-- UNTIL names a condition that the command alone can tell: an instruction or a station slot. -/
def State.untilTold (s : State) : Bool := decide (s.sp.until_ = 1) || decide (s.sp.until_ = 3)

/-- A pass that an earlier step ended in goes on in this one: up to the next entry under UNTIL 0b010, which only a step in
which an entry completes reaches. -/
def State.stepPass (met : Bool) (s : State) : State :=
  if s.coreRuns && (met || decide (s.sp.until_ ≠ 2)) then s.passGo State.serve else s

/-- A walk step ends after so many core clocks: the whole budget, or fewer where the condition of UNTIL was met. The local time
gains 5 ns for each (02 R61, R62, R65). -/
def State.walkStepDone (clocks : Nat) (met : Bool) (s : State) : State :=
  let budget := max 1 s.sp.walkSteps.toNat
  if !(s.sp.walk && s.sp.pend) then s
  else
    let t := s.stepPass met
    if decide (clocks = budget) || (decide (clocks < budget) && ((t.sp.met && s.untilShown) || (met && s.untilTold))) then
      State.gaugeConvert { t with
        sp.pend := false, sp.met := false, sp.trace7 := t.sp.trace7 + 1
        tre.time := t.tre.time + BitVec.ofNat 64 (5 * clocks) }
    else s

def execWalkStepEnd (clocks : Nat) (met : Bool) (s : State) : Result := .next (s.walkStepDone clocks met)

end Sys2Proof.Machine
end

