-- ==== Sys2Proof/Machine/Pins.lean ====
section
/-! DEFINITION. The levels of the node's output pins as they follow from its state (03 R70, Table 3.3, R84, R94, R96 to R98;
02 R45; 04 R100; 12 R336; 14 R397). A frame, a pulse or a word on a pin is an `Output`. -/
namespace Sys2Proof.Machine

/-- What an output pin does. -/
inductive PinLevel where
  /-- Driven low; an open-drain pin sinks current. -/
  | low
  /-- Driven high. -/
  | high
  /-- Released: high-impedance. -/
  | released
  deriving DecidableEq, Repr

/-- A fail-safe pin is high-impedance without power on its bank (03 R70). -/
def State.failSafe (s : State) (bank : Fin 4) (l : PinLevel) : PinLevel := if s.bankOn bank then l else .released

/-- An open-drain pin: it sinks current while asserted, and is released in reset (03 Table 3.2, Table 3.3). -/
def State.sinks (s : State) (on : Bool) : PinLevel := if on && !s.pinsReset then .low else .released

/-- A push-pull pin that is low in reset (03 Table 3.3). -/
def State.drives (s : State) (on : Bool) : PinLevel := if on && !s.pinsReset then .high else .low

/-- TRAP_HOLD_A and TRAP_HOLD_B (01 R18; 03 R96). -/
def State.trapPin (s : State) (lineB : Bool) : PinLevel := s.failSafe 3 (s.drives (s.trapHold lineB))

/-- OWN_OUT_N (12 R336; 03 R97). -/
def State.ownOutPin (s : State) : PinLevel := s.failSafe 3 (s.sinks (!s.sys.ownOutN))

/-- PFAIL_N: asserted from SAVE until the next reset, a clock fault or not (03 R84, R94). -/
def State.pfailPin (s : State) : PinLevel := s.failSafe 3 (if s.pfail then .low else .released)

/-- ALERT_N (02 R45). -/
def State.alertPin (s : State) : PinLevel := s.failSafe 0 (s.sinks s.alertOn)

/-- HINT_N (14 R397). -/
def State.hintPin (s : State) : PinLevel := s.sinks s.hint

/-- WAIT_N: a host access waits (14 R379). -/
def State.waitPin (s : State) : PinLevel := s.sinks s.cwy.waiting.isSome

/-- The TXEN pin of a line port (04 R100). -/
def State.txenPin (s : State) (p : Fin 4) : PinLevel := s.drives (s.txen p)

/-- L1_DE and L2_DE (11 R303). -/
def State.laneDePin (s : State) : PinLevel := s.drives s.laneDe

/-- LED_HB: the 1 Hz heartbeat of 02 Table 2.9 (03 R98). -/
def State.ledHb (s : State) : PinLevel := s.sinks (decide (heartbeatUv s.tre.time ≠ 0))

/-- LED_RING: SP_SYNC.LOCK (03 R98; 02 Table 2.4). -/
def State.ledRing (s : State) : PinLevel := s.sinks (decide (s.tre.sync = .locked))

/-- LED_OWN: SYS_ROLE.CARROLE is 0b01 or 0b10 (03 R98). -/
def State.ledOwn (s : State) : PinLevel :=
  let r := fld s.sys.roleShown 10 2
  s.sinks (decide (r = 1) || decide (r = 2))

end Sys2Proof.Machine
end

