-- ==== Sys2Proof/Machine/Power.lean ====
section
/-! DEFINITION. The commands of chapter 03: power-up, resets, clocks, CAB_ACT, the vehicle-supply monitor and the power-fail
save. -/
namespace Sys2Proof.Machine

/-! ### Power-up (03 R77, R78, R81) -/

/-- The node is up: released from reset, on either clock. -/
def State.up (s : State) : Bool := decide (s.sys.phase = .running) || decide (s.sys.phase = .clockLost)

/-- A held cause survives above 1.2 V and is lost below 0.8 V; between them either may happen (03 R81; log 56). -/
def State.causeKept (s : State) (lowestMv : Nat) : Bool :=
  decide (s.sys.heldCause ≠ 0) && (decide (1200 < lowestMv) || (decide (800 ≤ lowestMv) && s.drawBool))

/-- VSUP has risen through 1.65 V: POR, or the cause held since a brown-out or core-low reset. -/
def State.powerOn (lowestMv : Nat) (s : State) : State :=
  let t := (s.resetWith true false (if s.causeKept lowestMv then s.sys.rstcause &&& 0x0C else 1) .powerUp).took
  { t with
    sys.heldCause := if s.causeKept lowestMv then s.sys.heldCause else 0
    sys.vsupMv := if t.sys.vsupMv.toNat < 1650 then 1650 else t.sys.vsupMv }

def execPowerOn (lowestMv : Nat) (s : State) : Result := .next (s.powerOn lowestMv)

/-- The node waits at the end of a power-up sequence, or stands right after a reset with the boot ROM still to run
(log 57). -/
def State.awaitsBoot (s : State) : Bool :=
  decide (s.sys.phase = .powerUp) || (decide (s.sys.phase = .running) && decide (s.boot.phase = .rom))

/-- The end of the power-up sequence; REF_CLK is taken as present from here on (log 58). -/
def execPowerUpComplete (straps : Straps) (s : State) : Result :=
  .next (if s.awaitsBoot then State.releaseOrHold straps { s with sys.refok := true } else s)

/-! ### Resets (03 R69, R77, R79, R80) -/

/-- RESET_N or TEST asks for a reset: in the power-up sequence it only holds the release; in SAVE the reset waits. -/
def State.pinAsk (s : State) : State :=
  if s.up then s.resetOrWait true
  else if s.sys.phase = .warmHeld then s.pinReset
  else s

/-- A low level of 1 us or more is taken, a pulse shorter than 100 ns ignored; between them either (03 R79; log 56). -/
def State.pinLow (lowNs : Nat) (s : State) : State :=
  let low (t : State) : State := State.pinAsk { t with sys.resetN := false }
  if lowNs < 100 then s
  else if 1000 ≤ lowNs then low s
  else s.took.when s.drawBool low

def execPinReset (lowNs : Nat) (s : State) : Result := .next (s.pinLow lowNs)

def execTestHigh (s : State) : Result := .next (State.pinAsk { s with sys.test := true })

/-- 10 us after RESET_N rose, with TEST low. -/
def execPinResetRelease (straps : Straps) (s : State) : Result :=
  .next (let t : State := { s with sys.resetN := true, sys.test := false }
    if s.sys.phase = .pinHeld then State.release { t with sys.straps := straps } else t)

/-- A reset with loss of the memories; its cause is held through the power-up sequence (03 R81). -/
def State.supplyReset (cause : Byte) (held : BitVec 2) (s : State) : State :=
  let t := s.resetWith true false cause .powerUp
  { t with sys.heldCause := held }

/-- VSUP below 1.60 V for 5 us. -/
def execBrownOut (s : State) : Result :=
  .next (let t := s.supplyReset 4 1
    { t with sys.vsupMv := if t.sys.vsupMv.toNat < 1600 then t.sys.vsupMv else 1599 })

/-- VCORE below 0.92 V for 2 us, after power-up. -/
def execCoreLow (s : State) : Result :=
  .next (if s.sys.phase = .powerUp then s
    else
      let t := s.supplyReset 8 2
      { t with sys.vcoreMv := if t.sys.vcoreMv.toNat < 920 then t.sys.vcoreMv else 919 })

def execWarmResetRelease (s : State) : Result :=
  .next (if s.sys.phase = .warmHeld then s.release else s)

/-! ### Clocks (03 R84, R85) -/

/-- No edge on XIN for 2 us: a record, SP_FAULT, and every pin but PFAIL_N as in reset, WAIT_N among them. Before the crystal
is valid there is no clock to lose; in a reset that is held the fault is in force from its declaration (log 182). -/
def State.clockFault (s : State) : State :=
  if s.sys.phase = .powerUp ∨ s.sys.clkFault = true then s
  else
    let t := (State.spFaultCode 0x0301 { s with
      sys.clkFault := true, sys.xok := false, sys.pllok := false, wlv.hbRuns := false
      cwy.waiting := none }).wlvSync.laneOffDrive.linesOff.ethCutOff
    if s.sys.phase = .running ∧ s.pfail = false then { t with sys.phase := .clockLost } else t

def execClockFault (s : State) : Result := .next s.clockFault

/-- XIN has run for 10 ms: the power-up sequence from crystal valid, with cause CLK; in SAVE and HOLD it waits. -/
def State.clockBack (x : Straps) (s : State) : State :=
  if !s.sys.clkFault then s
  else if s.pfail then { s with sys.clkWaiting := true }
  else State.releaseOrHold x s.clkReset

def execClockRecovery (straps : Straps) (s : State) : Result := .next (s.clockBack straps)

/-- REF_CLK lost: E0 and E1 are down, and the frames in transmission are lost. -/
def State.refLost (s : State) : State :=
  State.raise 8 (State.ethCutOff { s with
    sys.refok := false
    eth.ports := s.eth.ports.map fun c => { c with up := false } })

def execRefClkLoss (s : State) : Result := .next (s.when s.sys.refok State.refLost)

/-- REF_CLK is back: queued frames may start. -/
def State.refBack (s : State) : State := State.each { s with sys.refok := true } (fins 2) State.ethKick

def execRefClkReturn (s : State) : Result := .next s.refBack

/-! ### CAB_ACT (03 R73) -/

def execCabActChange (level : Bool) (s : State) : Result := .next { s with sys.cabAct := level }

/-- CABDB takes the level held for 20 ms; a rise in a car other than chainage 1 is survey trigger 4 (05 Table 5.4). -/
def State.cabdbTake (s : State) : State :=
  if s.sys.cabAct = s.sys.cabdb || !s.up then s
  else
    let t := State.raise 10 { s with sys.cabdb := s.sys.cabAct }
    t.when (t.sys.cabdb && decide (t.svy.chain ≠ 1)) (State.svyTrigger 4)

def execCabdbChange (s : State) : Result := .next (s.when s.coreRuns State.cabdbTake)

/-! ### The vehicle supply (03 R86 to R90, Table 3.12) -/

/-- LOWPCT and RESUMEPCT: 60 and 70 unless the first is lower (03 R88). -/
def State.vehPct (s : State) : Nat × Nat :=
  let lo := s.regFld Reg.SYS_VEH_CFG 8 8
  let re := s.regFld Reg.SYS_VEH_CFG 16 8
  if lo < re then (lo, re) else (60, 70)

def State.vehHigh (s : State) : Nat := s.regFld Reg.SYS_VEH_CFG 24 8

/-- NOM = 0b11: no vehicle supply. -/
def State.vehNone (s : State) : Bool := decide (s.regFld Reg.SYS_VEH_CFG 0 2 = 3)

/-- The pin stands at this share of 0.800 V or above (03 R86). -/
def pinAtLeast (mv pct : Nat) : Bool := decide (800 * pct ≤ 100 * mv)

/-- Consecutive samples on a side, up to 4. -/
def runOf (b : Bool) (n : Nat) : Nat := if b then min 4 (n + 1) else 0

/-- RIDE is entered, with EV001 (03 Table 3.12). -/
def State.toRide (s : State) : State := State.raise 1 { s with sys.vehState := .ride }

/-- The monitor moves on a filtered crossing (03 R89); with NOM = 0b11 it stays in NORMAL, and goes there from RIDE and HIGH
(log 184). -/
def State.vehMove (s : State) : State :=
  let y := s.sys
  if s.vehNone then (if y.vehState = .ride ∨ y.vehState = .high then { s with sys.vehState := .normal } else s)
  else match y.vehState with
    | .normal =>
      if y.nLow = 4 then s.toRide
      else if y.nHigh = 4 then State.raise 5 { s with sys.vehState := .high }
      else s
    | .high =>
      if y.nLow = 4 then s.toRide
      else if y.nNotHigh = 4 then { s with sys.vehState := .normal }
      else s
    | .ride => if y.nResume = 4 then State.raise 2 { s with sys.vehState := .normal, sys.rides := y.rides + 1 } else s
    | .save | .hold => s

/-- What the converter gives for VEH_SENSE: its full scale is 1.200 V, 150 % of Un (03 R86; 17 R454). -/
def adcMv (mv : Nat) : Nat := min 1200 mv

/-- A sample of VEH_SENSE, with the supplies, the I/O banks and the die temperature as they stand (03 R89; 17 R451). -/
def State.vehSampled (senseMv vsup vcore : Nat) (vio : Vector Half 4) (temp : Half) (s : State) : State :=
  let y := s.sys
  let mv := adcMv senseMv
  let (lo, re) := s.vehPct
  let low := !pinAtLeast mv lo
  let high := decide (800 * s.vehHigh < 100 * mv)
  let res := pinAtLeast mv re
  let nRes := runOf res y.nResume
  let nNot := runOf (!res) y.nNotResume
  let h (n : Nat) : Half := BitVec.ofNat 16 (min 65535 n)
  State.vehMove { s with
    sys.senseMv := h mv, sys.vsupMv := h vsup, sys.vcoreMv := h vcore, sys.vioMv := vio
    sys.temp := temp, sys.vehOff := s.vehNone
    sys.veh := h (mv * s.regFld Reg.SYS_VEH_RATIO 0 16 / 25600)
    sys.nLow := runOf low y.nLow, sys.nHigh := runOf high y.nHigh, sys.nNotHigh := runOf (!high) y.nNotHigh
    sys.nResume := nRes, sys.nNotResume := nNot
    sys.resumed := decide (nRes = 4) || (y.resumed && !decide (nNot = 4)) }

def execVehSample (senseMv vsupMv vcoreMv : Nat) (vioMv : Vector Half 4) (temp : Half) (s : State) : Result :=
  .next (s.when s.up (State.vehSampled senseMv vsupMv vcoreMv vioMv temp))

/-! ### The power-fail save (03 R91 to R95; 15 R414, R415) -/

/-- The slot the save writes: one that is fully erased, slot 0 first (log 59). -/
def State.saveSlot (s : State) : Option Bool :=
  if s.saveErased false then some false else if s.saveErased true then some true else none

/-- The program's retained region: RETSIG and the bytes (09 R281). -/
def State.retData (s : State) : Word × List Byte :=
  match s.ctl.retained with
  | some (sig, base, size) => (sig, s.peekBytes base.toNat (min size.toNat 4096))
  | none => (0, [])

/-- The save writer reads the retained region as any normal read does (15 R401). -/
def State.retReadFx (s : State) : State :=
  match s.ctl.retained with
  | some (_, base, size) => s.blockReadFx base.toNat (min size.toNat 4096)
  | none => s

/-- A queued record as it is written, but for its place in the ring. -/
def FbRec.saved (r : FbRec) : List Byte := fbSeal ({ r with flags := setBit r.flags 0 }.body 0)

/-- The records that wait: those still to be appended from an earlier save, then the queue (08 R252, 15 R415). -/
def State.fbWaiting (s : State) : List FbRec := s.fbk.restored ++ s.fbk.queue

/-- The records a save slot takes: every queued one, and before them the oldest of those restored, 32 in all (08 R252, 15 Table
15.5; log 221). -/
def State.fbPending (s : State) : List FbRec :=
  s.fbk.restored.take (32 - s.fbk.queue.length) ++ s.fbk.queue.take 32

/-- A save slot but for COMMIT (15 Table 15.5). -/
def State.saveImage (s : State) : List Byte :=
  let (sig, ret) := s.retData
  let body := ret ++ s.fbPending.flatMap FbRec.saved
  let sseq : Word := (s.saveNewest.map (·.1 + 1)).getD 1
  [0x53, 0x41, 0x56, 0x31] ++ leBytes 4 sseq.toNat ++ leBytes 4 sig.toNat ++ leBytes 4 ret.length ++
    leBytes 4 s.fbPending.length ++ leBytes 4 (crc32 body).toNat ++ List.replicate 8 0xFF ++ body

/-- Everything but the commit marker is written: the save slot, or without one the records to the ring. Restored
records that the slot has no room for go on waiting (log 221). -/
def State.saveWrite (s : State) : State :=
  match s.saveSlot with
  | some b =>
    { (s.retReadFx).flashAndBytes (saveBase b) s.saveImage with
      mem.saving := some (some b), fbk.queue := s.fbk.queue.drop 32, fbk.restored := s.fbk.restored.drop (32 - s.fbk.queue.length) }
  | none =>
    let t := if s.fbk.full then s else State.each { s with fbk.queue := [], fbk.restored := [] } s.fbWaiting fun r u =>
      u.fbWrite { r with flags := setBit r.flags 0 }
    { t with mem.saving := some none }

/-- Power-fail detection: SAVE, EV003, the interlock and the Lane drivers released, the program stopped where it stands, any
erase abandoned, and the save begun (03 R91, Corner cases). Walk mode ends (03 Corner cases). -/
def State.powerFail (s : State) : State :=
  if s.pfail || !s.up then s
  else
    let a : State := State.raise 3 { s with
      sys.vehState := .save, wlv.hbRuns := false, sp.walk := false, sp.walkEntering := false, sp.pend := false
      sp.keyOpen := if s.sp.walk || s.sp.walkEntering then false else s.sp.keyOpen
      sp.keyLeft := if s.sp.walk || s.sp.walkEntering then 0 else s.sp.keyLeft }
    let b := (if a.progBusy then a.cycleDrop.progTo .stop else a).wlvSync.laneOffDrive
    b.flashAbandon.saveWrite

/-- The class time expires in RIDE; with NOM = 0b11 at the last sample only VSUP can trigger a save (03 R88, R89). -/
def execClassTimeExpiry (s : State) : Result :=
  .next (if s.sys.vehState = .ride ∧ s.sys.vehOff = false then s.powerFail else s)

/-- VSUP below 1.66 V for 5 us. -/
def execVsupPowerFail (s : State) : Result :=
  .next (State.powerFail { s with sys.vsupMv := if s.sys.vsupMv.toNat < 1660 then s.sys.vsupMv else 1659 })

/-- The save under way, if its save area was found, is committed and recorded in SYS_RSTCAUSE. -/
def State.saveCommit (s : State) : State :=
  match s.mem.saving with
  | some (some b) =>
    let u := s.flashAndBytes (saveBase b + 0x1FFC) [0, 0, 0, 0]
    { u with sys.rstcause := setBit u.sys.rstcause 6 }
  | _ => s

/-- The save is over: COMMIT and SAVED where a slot was written, then HOLD, then a reset that waited. -/
def State.saveEnd (s : State) : State :=
  if s.sys.vehState ≠ .save then s
  else
    let t := s.saveCommit
    let h : State := { t with mem.saving := none, sys.vehState := .hold, sys.resetWaiting := 0 }
    if s.sys.resetWaiting = 1 then h.pinReset else if s.sys.resetWaiting = 2 then h.warmReset else h

def execSaveDone (s : State) : Result := .next s.saveEnd

/-- The resume condition of HOLD (03 R473), with NOM as the last sample read it (03 R88). -/
def State.holdOver (s : State) : Bool :=
  decide (s.sys.vehState = .hold) && decide (1700 ≤ s.sys.vsupMv.toNat) && (s.sys.vehOff || s.sys.resumed)

/-- It has held for 100 ms: the CLK reset that waits, otherwise a warm reset. -/
def State.holdEnd (s : State) : State :=
  if !s.holdOver then s
  else s.warmReset

def execHoldResume (s : State) : Result := .next s.holdEnd

/-! ### Warnings (03 R77; 17 R451) -/

/-- VSUP below 1.75 V for 1 ms. -/
def execVsupLowWarning (vsupMv : Nat) (s : State) : Result :=
  .next (if vsupMv < 1750 ∧ s.up = true then State.raise 6 { s with sys.vsupMv := BitVec.ofNat 16 vsupMv } else s)

/-- The die is above 115 degrees C; the operand is what the sensor gives, in half degrees. -/
def execTempWarning (halfDegrees : Half) (s : State) : Result :=
  .next (if 230 < halfDegrees.toInt ∧ s.up = true then State.raise 9 { s with sys.temp := halfDegrees } else s)

/-! ### Time without commands -/

/-- On an empty queue one core clock passes while the core domain runs on its own clock; in Walk mode and in reset none does
(02 R62; log 5). The ports' erasures are counted by the second of local time (04 LIU_BLANK). -/
def State.idle (s : State) : State :=
  if s.up && !s.sp.walk then (((s.tick).each (fins 4) State.erRoll).irqTake .control).irqTake .steward else s

end Sys2Proof.Machine
end

