-- ==== Sys2Proof/Machine/Dispatch.lean ====
section
/-! DEFINITION. What every command does: one arm per command of the table. -/
namespace Sys2Proof.Machine

def exec (i : Instr) (s : State) : Host.Outcome State Fault Refusal :=
  match i with
  | .registerWrite m addr lanes v => Sys2Proof.Machine.execRegisterWrite m addr lanes v s
  | .serviceImageCapture apin => Sys2Proof.Machine.execServiceImageCapture apin s
  | .normalRead a => Sys2Proof.Machine.execNormalRead a s
  | .peek a => Sys2Proof.Machine.execPeek a s
  | .serviceWrite a v => Sys2Proof.Machine.execServiceWrite a v s
  | .commandRefused a => Sys2Proof.Machine.execCommandRefused a s
  | .key v => Sys2Proof.Machine.execKey v s
  | .keyWindowClose => Sys2Proof.Machine.execKeyWindowClose s
  | .wrst v => Sys2Proof.Machine.execWrst v s
  | .deepRead v => Sys2Proof.Machine.execDeepRead v s
  | .deepWrite v => Sys2Proof.Machine.execDeepWrite v s
  | .deepAccessDone => Sys2Proof.Machine.execDeepAccessDone s
  | .deepAccessTimeout => Sys2Proof.Machine.execDeepAccessTimeout s
  | .autoIncrement wr => Sys2Proof.Machine.execAutoIncrement wr s
  | .walkEntry v => Sys2Proof.Machine.execWalkEntry v s
  | .walkEntryComplete => Sys2Proof.Machine.execWalkEntryComplete s
  | .step v => Sys2Proof.Machine.execStep v s
  | .walkStepEnd clocks met => Sys2Proof.Machine.execWalkStepEnd clocks met s
  | .walkExit v => Sys2Proof.Machine.execWalkExit v s
  | .fbStart => Sys2Proof.Machine.execFbStart s
  | .fbNewest => Sys2Proof.Machine.execFbNewest s
  | .fbDataRead => Sys2Proof.Machine.execFbDataRead s
  | .gaugeConversion => Sys2Proof.Machine.execGaugeConversion s
  | .powerOn lowestMv => Sys2Proof.Machine.execPowerOn lowestMv s
  | .powerUpComplete straps => Sys2Proof.Machine.execPowerUpComplete straps s
  | .pinReset lowNs => Sys2Proof.Machine.execPinReset lowNs s
  | .pinResetRelease straps => Sys2Proof.Machine.execPinResetRelease straps s
  | .testHigh => Sys2Proof.Machine.execTestHigh s
  | .brownOut => Sys2Proof.Machine.execBrownOut s
  | .coreLow => Sys2Proof.Machine.execCoreLow s
  | .warmResetRelease => Sys2Proof.Machine.execWarmResetRelease s
  | .clockFault => Sys2Proof.Machine.execClockFault s
  | .clockRecovery straps => Sys2Proof.Machine.execClockRecovery straps s
  | .refClkLoss => Sys2Proof.Machine.execRefClkLoss s
  | .cabActChange level => Sys2Proof.Machine.execCabActChange level s
  | .cabdbChange => Sys2Proof.Machine.execCabdbChange s
  | .vehSample senseMv vsupMv vcoreMv vioMv temp => Sys2Proof.Machine.execVehSample senseMv vsupMv vcoreMv vioMv temp s
  | .classTimeExpiry => Sys2Proof.Machine.execClassTimeExpiry s
  | .vsupPowerFail => Sys2Proof.Machine.execVsupPowerFail s
  | .saveDone => Sys2Proof.Machine.execSaveDone s
  | .holdResume => Sys2Proof.Machine.execHoldResume s
  | .vsupLowWarning vsupMv => Sys2Proof.Machine.execVsupLowWarning vsupMv s
  | .tempWarning halfDegrees => Sys2Proof.Machine.execTempWarning halfDegrees s
  | .traverseReceive f beside => Sys2Proof.Machine.execTraverseReceive f beside s
  | .portCarrier p rxlvl => Sys2Proof.Machine.execPortCarrier p rxlvl s
  | .portLockLost p => Sys2Proof.Machine.execPortLockLost p s
  | .portSilent p rxlvl => Sys2Proof.Machine.execPortSilent p rxlvl s
  | .portJam p => Sys2Proof.Machine.execPortJam p s
  | .portDead p => Sys2Proof.Machine.execPortDead p s
  | .portClear p => Sys2Proof.Machine.execPortClear p s
  | .notchPlace p freq => Sys2Proof.Machine.execNotchPlace p freq s
  | .notchRelease p n => Sys2Proof.Machine.execNotchRelease p n s
  | .timestampRead m addr => Sys2Proof.Machine.execTimestampRead m addr s
  | .portDisable p => Sys2Proof.Machine.execPortDisable p s
  | .snrEvaluation p => Sys2Proof.Machine.execSnrEvaluation p s
  | .snrReportPeriodic p => Sys2Proof.Machine.execSnrReportPeriodic p s
  | .snrReport f => Sys2Proof.Machine.execSnrReport f s
  | .segmentAnnounce f => Sys2Proof.Machine.execSegmentAnnounce f s
  | .tonemapAcknowledge f => Sys2Proof.Machine.execTonemapAcknowledge f s
  | .segmentActivate f => Sys2Proof.Machine.execSegmentActivate f s
  | .segmentMapActivation p => Sys2Proof.Machine.execSegmentMapActivation p s
  | .segmentMapAbandon p => Sys2Proof.Machine.execSegmentMapAbandon p s
  | .segmentSummary f => Sys2Proof.Machine.execSegmentSummary f s
  | .ringAnnounce f => Sys2Proof.Machine.execRingAnnounce f s
  | .ringMapActivation => Sys2Proof.Machine.execRingMapActivation s
  | .ringMapAbandon => Sys2Proof.Machine.execRingMapAbandon s
  | .throughUnitChange partnerRuns => Sys2Proof.Machine.execThroughUnitChange partnerRuns s
  | .turnout => Sys2Proof.Machine.execTurnout s
  | .beaconTimer p => Sys2Proof.Machine.execBeaconTimer p s
  | .beacon f => Sys2Proof.Machine.execBeacon f s
  | .request f => Sys2Proof.Machine.execRequest f s
  | .settleExpiry => Sys2Proof.Machine.execSettleExpiry s
  | .seek f => Sys2Proof.Machine.execSeek f s
  | .token f => Sys2Proof.Machine.execToken f s
  | .report f => Sys2Proof.Machine.execReport f s
  | .pass f => Sys2Proof.Machine.execPass f s
  | .reportSlotEnd carrierA carrierB => Sys2Proof.Machine.execReportSlotEnd carrierA carrierB s
  | .dupBypassWait => Sys2Proof.Machine.execDupBypassWait s
  | .tally f => Sys2Proof.Machine.execTally f s
  | .svyPublish => Sys2Proof.Machine.execSvyPublish s
  | .hostDeadline => Sys2Proof.Machine.execHostDeadline s
  | .result f => Sys2Proof.Machine.execResult f s
  | .surveyDeferredSend => Sys2Proof.Machine.execSurveyDeferredSend s
  | .confirm f => Sys2Proof.Machine.execConfirm f s
  | .confirmDeadline => Sys2Proof.Machine.execConfirmDeadline s
  | .surveyAbort f => Sys2Proof.Machine.execSurveyAbort f s
  | .surveyCut elsewhere beside => Sys2Proof.Machine.execSurveyCut elsewhere beside s
  | .surveyTimeout => Sys2Proof.Machine.execSurveyTimeout s
  | .svyStart => Sys2Proof.Machine.execSvyStart s
  | .svyFull => Sys2Proof.Machine.execSvyFull s
  | .svyAbort => Sys2Proof.Machine.execSvyAbort s
  | .join f => Sys2Proof.Machine.execJoin f s
  | .here f => Sys2Proof.Machine.execHere f s
  | .latecomerCheck => Sys2Proof.Machine.execLatecomerCheck s
  | .latecomerNoAnswer => Sys2Proof.Machine.execLatecomerNoAnswer s
  | .t0 beside => Sys2Proof.Machine.execT0 beside s
  | .localT0 => Sys2Proof.Machine.execLocalT0 s
  | .returnPassComplete => Sys2Proof.Machine.execReturnPassComplete s
  | .latchInstant => Sys2Proof.Machine.execLatchInstant s
  | .syncHoldExpiry => Sys2Proof.Machine.execSyncHoldExpiry s
  | .missedTraverse => Sys2Proof.Machine.execMissedTraverse s
  | .takeover beside => Sys2Proof.Machine.execTakeover beside s
  | .coverStart => Sys2Proof.Machine.execCoverStart s
  | .resume f => Sys2Proof.Machine.execResume f s
  | .commit => Sys2Proof.Machine.execCommit s
  | .tableRequest f => Sys2Proof.Machine.execTableRequest f s
  | .tableRequestRepeat => Sys2Proof.Machine.execTableRequestRepeat s
  | .table f => Sys2Proof.Machine.execTable f s
  | .claim f => Sys2Proof.Machine.execClaim f s
  | .claimRetry => Sys2Proof.Machine.execClaimRetry s
  | .tableEdit v => Sys2Proof.Machine.execTableEdit v s
  | .claimPop m => Sys2Proof.Machine.execClaimPop m s
  | .traverseDisable => Sys2Proof.Machine.execTraverseDisable s
  | .roadWindowOpen => Sys2Proof.Machine.execRoadWindowOpen s
  | .roadFrameStart p slots foreign => Sys2Proof.Machine.execRoadFrameStart p slots foreign s
  | .acknowledge f => Sys2Proof.Machine.execAcknowledge f s
  | .ackTimeout p => Sys2Proof.Machine.execAckTimeout p s
  | .roadTransit f => Sys2Proof.Machine.execRoadTransit f s
  | .userMessage f => Sys2Proof.Machine.execUserMessage f s
  | .ethernetTunnel f => Sys2Proof.Machine.execEthernetTunnel f s
  | .pause f => Sys2Proof.Machine.execPause f s
  | .pauseExpiry p nid prio => Sys2Proof.Machine.execPauseExpiry p nid prio s
  | .pauseRepeat p prio => Sys2Proof.Machine.execPauseRepeat p prio s
  | .helloTimer => Sys2Proof.Machine.execHelloTimer s
  | .hello f => Sys2Proof.Machine.execHello f s
  | .neighbourAgeExpiry p nid => Sys2Proof.Machine.execNeighbourAgeExpiry p nid s
  | .ping dst => Sys2Proof.Machine.execPing dst s
  | .echo f => Sys2Proof.Machine.execEcho f s
  | .reply f => Sys2Proof.Machine.execReply f s
  | .transmitRecord m wp => Sys2Proof.Machine.execTransmitRecord m wp s
  | .wayleave f => Sys2Proof.Machine.execWayleave f s
  | .wayleaveRepeat => Sys2Proof.Machine.execWayleaveRepeat s
  | .ethFrameReceive e f => Sys2Proof.Machine.execEthFrameReceive e f s
  | .phyPoll e r0 r1 r4 r5 => Sys2Proof.Machine.execPhyPoll e r0 r1 r4 r5 s
  | .mdioAccess e v => Sys2Proof.Machine.execMdioAccess e v s
  | .mdioDone e data => Sys2Proof.Machine.execMdioDone e data s
  | .addressAgeExpiry ix => Sys2Proof.Machine.execAddressAgeExpiry ix s
  | .ethPause e quanta => Sys2Proof.Machine.execEthPause e quanta s
  | .pfc e classes quanta => Sys2Proof.Machine.execPfc e classes quanta s
  | .pfcExpiry e cls => Sys2Proof.Machine.execPfcExpiry e cls s
  | .learnqPop m => Sys2Proof.Machine.execLearnqPop m s
  | .ethDisable e v => Sys2Proof.Machine.execEthDisable e v s
  | .cairnRequest v => Sys2Proof.Machine.execCairnRequest v s
  | .cairn p => Sys2Proof.Machine.execCairn p s
  | .evtSoft v => Sys2Proof.Machine.execEvtSoft v s
  | .eventClaim m h => Sys2Proof.Machine.execEventClaim m h s
  | .fbRecordWrite failed => Sys2Proof.Machine.execFbRecordWrite failed s
  | .fbRepeatExpiry ev => Sys2Proof.Machine.execFbRepeatExpiry ev s
  | .fbHealthTimer => Sys2Proof.Machine.execFbHealthTimer s
  | .fbkUsergo v => Sys2Proof.Machine.execFbkUsergo v s
  | .fbkWipe v => Sys2Proof.Machine.execFbkWipe v s
  | .fbkRawPop m => Sys2Proof.Machine.execFbkRawPop m s
  | .runRequest src => Sys2Proof.Machine.execRunRequest src s
  | .stopRequest => Sys2Proof.Machine.execStopRequest s
  | .loadComplete => Sys2Proof.Machine.execLoadComplete s
  | .initReturn a0 => Sys2Proof.Machine.execInitReturn a0 s
  | .initTimeout => Sys2Proof.Machine.execInitTimeout s
  | .inputImageRelease served => Sys2Proof.Machine.execInputImageRelease served s
  | .cycleReturn a0 us served => Sys2Proof.Machine.execCycleReturn a0 us served s
  | .outputDeadline => Sys2Proof.Machine.execOutputDeadline s
  | .cycleWatchdog => Sys2Proof.Machine.execCycleWatchdog s
  | .programFault mcause mepc => Sys2Proof.Machine.execProgramFault mcause mepc s
  | .timeNow => Sys2Proof.Machine.execTimeNow s
  | .fbUser a0 a1 => Sys2Proof.Machine.execFbUser a0 a1 s
  | .roadSend a0 a1 => Sys2Proof.Machine.execRoadSend a0 a1 s
  | .roadRecv a0 a1 a2 => Sys2Proof.Machine.execRoadRecv a0 a1 a2 s
  | .gateTry a0 => Sys2Proof.Machine.execGateTry a0 s
  | .gateRelease a0 => Sys2Proof.Machine.execGateRelease a0 s
  | .queuePush a0 a1 => Sys2Proof.Machine.execQueuePush a0 a1 s
  | .queuePop a0 => Sys2Proof.Machine.execQueuePop a0 s
  | .reqStop => Sys2Proof.Machine.execReqStop s
  | .fault a0 => Sys2Proof.Machine.execFault a0 s
  | .entrySkip e => Sys2Proof.Machine.execEntrySkip e s
  | .blkNop e => Sys2Proof.Machine.execBlkNop e s
  | .blkAnd e => Sys2Proof.Machine.execBlkAnd e s
  | .blkOr e => Sys2Proof.Machine.execBlkOr e s
  | .blkXor e => Sys2Proof.Machine.execBlkXor e s
  | .blkNot e => Sys2Proof.Machine.execBlkNot e s
  | .blkSr e => Sys2Proof.Machine.execBlkSr e s
  | .blkRs e => Sys2Proof.Machine.execBlkRs e s
  | .blkRtrig e => Sys2Proof.Machine.execBlkRtrig e s
  | .blkFtrig e => Sys2Proof.Machine.execBlkFtrig e s
  | .blkBitget e => Sys2Proof.Machine.execBlkBitget e s
  | .blkBitput e => Sys2Proof.Machine.execBlkBitput e s
  | .blkBand e => Sys2Proof.Machine.execBlkBand e s
  | .blkBor e => Sys2Proof.Machine.execBlkBor e s
  | .blkBxor e => Sys2Proof.Machine.execBlkBxor e s
  | .blkShl e => Sys2Proof.Machine.execBlkShl e s
  | .blkShr e => Sys2Proof.Machine.execBlkShr e s
  | .blkAdd e => Sys2Proof.Machine.execBlkAdd e s
  | .blkSub e => Sys2Proof.Machine.execBlkSub e s
  | .blkMul e => Sys2Proof.Machine.execBlkMul e s
  | .blkDiv e => Sys2Proof.Machine.execBlkDiv e s
  | .blkMod e => Sys2Proof.Machine.execBlkMod e s
  | .blkAbs e => Sys2Proof.Machine.execBlkAbs e s
  | .blkNeg e => Sys2Proof.Machine.execBlkNeg e s
  | .blkMin e => Sys2Proof.Machine.execBlkMin e s
  | .blkMax e => Sys2Proof.Machine.execBlkMax e s
  | .blkLimit e => Sys2Proof.Machine.execBlkLimit e s
  | .blkEq e => Sys2Proof.Machine.execBlkEq e s
  | .blkNe e => Sys2Proof.Machine.execBlkNe e s
  | .blkGt e => Sys2Proof.Machine.execBlkGt e s
  | .blkGe e => Sys2Proof.Machine.execBlkGe e s
  | .blkLt e => Sys2Proof.Machine.execBlkLt e s
  | .blkLe e => Sys2Proof.Machine.execBlkLe e s
  | .blkMove e => Sys2Proof.Machine.execBlkMove e s
  | .blkSel e => Sys2Proof.Machine.execBlkSel e s
  | .blkPack16 e => Sys2Proof.Machine.execBlkPack16 e s
  | .blkUnpack16 e => Sys2Proof.Machine.execBlkUnpack16 e s
  | .blkBswap e => Sys2Proof.Machine.execBlkBswap e s
  | .blkI2q e => Sys2Proof.Machine.execBlkI2q e s
  | .blkQ2i e => Sys2Proof.Machine.execBlkQ2i e s
  | .blkScale e => Sys2Proof.Machine.execBlkScale e s
  | .blkQmul e => Sys2Proof.Machine.execBlkQmul e s
  | .blkQdiv e => Sys2Proof.Machine.execBlkQdiv e s
  | .blkQsqrt e => Sys2Proof.Machine.execBlkQsqrt e s
  | .blkQmac e => Sys2Proof.Machine.execBlkQmac e s
  | .blkTon e => Sys2Proof.Machine.execBlkTon e s
  | .blkTof e => Sys2Proof.Machine.execBlkTof e s
  | .blkTp e => Sys2Proof.Machine.execBlkTp e s
  | .blkCtu e => Sys2Proof.Machine.execBlkCtu e s
  | .blkCtd e => Sys2Proof.Machine.execBlkCtd e s
  | .blkPid e => Sys2Proof.Machine.execBlkPid e s
  | .blkLag e => Sys2Proof.Machine.execBlkLag e s
  | .blkRamp e => Sys2Proof.Machine.execBlkRamp e s
  | .blkInteg e => Sys2Proof.Machine.execBlkInteg e s
  | .blkDeriv e => Sys2Proof.Machine.execBlkDeriv e s
  | .blkDband e => Sys2Proof.Machine.execBlkDband e s
  | .blkHyst e => Sys2Proof.Machine.execBlkHyst e s
  | .blkLin e => Sys2Proof.Machine.execBlkLin e s
  | .blkAvg e => Sys2Proof.Machine.execBlkAvg e s
  | .blkWmok e => Sys2Proof.Machine.execBlkWmok e s
  | .blkLaneok e => Sys2Proof.Machine.execBlkLaneok e s
  | .blkFresh e => Sys2Proof.Machine.execBlkFresh e s
  | .blkInrange e => Sys2Proof.Machine.execBlkInrange e s
  | .blkLoadx e => Sys2Proof.Machine.execBlkLoadx e s
  | .blkStorex e => Sys2Proof.Machine.execBlkStorex e s
  | .applyMark rest => Sys2Proof.Machine.execApplyMark rest s
  | .collectPass => Sys2Proof.Machine.execCollectPass s
  | .deliverPass => Sys2Proof.Machine.execDeliverPass s
  | .lanePassReturn f => Sys2Proof.Machine.execLanePassReturn f s
  | .lanePassLate => Sys2Proof.Machine.execLanePassLate s
  | .heardPass f => Sys2Proof.Machine.execHeardPass f s
  | .laneSubdone served => Sys2Proof.Machine.execLaneSubdone served s
  | .laneCommit => Sys2Proof.Machine.execLaneCommit s
  | .laneEnable => Sys2Proof.Machine.execLaneEnable s
  | .laneDisable => Sys2Proof.Machine.execLaneDisable s
  | .forcestart => Sys2Proof.Machine.execForcestart s
  | .identPass => Sys2Proof.Machine.execIdentPass s
  | .rangePass station fromL2 rtt => Sys2Proof.Machine.execRangePass station fromL2 rtt s
  | .configPass => Sys2Proof.Machine.execConfigPass s
  | .startTimeout => Sys2Proof.Machine.execStartTimeout s
  | .heartbeat => Sys2Proof.Machine.execHeartbeat s
  | .peerHbPulse widthNs => Sys2Proof.Machine.execPeerHbPulse widthNs s
  | .peerHbLost => Sys2Proof.Machine.execPeerHbLost s
  | .wlvBcommit => Sys2Proof.Machine.execWlvBcommit s
  | .wayleaveDeadline => Sys2Proof.Machine.execWayleaveDeadline s
  | .wlvReqqPop m => Sys2Proof.Machine.execWlvReqqPop m s
  | .collisionCheck => Sys2Proof.Machine.execCollisionCheck s
  | .peerOwnChange level => Sys2Proof.Machine.execPeerOwnChange level s
  | .interlockStuck => Sys2Proof.Machine.execInterlockStuck s
  | .drill => Sys2Proof.Machine.execDrill s
  | .drillCheckEnd => Sys2Proof.Machine.execDrillCheckEnd s
  | .drillRefused => Sys2Proof.Machine.execDrillRefused s
  | .revertReady => Sys2Proof.Machine.execRevertReady s
  | .tclr => Sys2Proof.Machine.execTclr s
  | .dmaGo n v => Sys2Proof.Machine.execDmaGo n v s
  | .dmaDisable n => Sys2Proof.Machine.execDmaDisable n s
  | .dmaFetchDone n => Sys2Proof.Machine.execDmaFetchDone n s
  | .dmaGateAcquire n => Sys2Proof.Machine.execDmaGateAcquire n s
  | .dmaTrigger t => Sys2Proof.Machine.execDmaTrigger t s
  | .dmaBeat => Sys2Proof.Machine.execDmaBeat s
  | .dmaWriteResponse n => Sys2Proof.Machine.execDmaWriteResponse n s
  | .dmaStopDone n => Sys2Proof.Machine.execDmaStopDone n s
  | .hostRead h => Sys2Proof.Machine.execHostRead h s
  | .hostWrite h data par => Sys2Proof.Machine.execHostWrite h data par s
  | .hostWaitTimeout => Sys2Proof.Machine.execHostWaitTimeout s
  | .localWriteResponse => Sys2Proof.Machine.execLocalWriteResponse s
  | .frameBuild w => Sys2Proof.Machine.execFrameBuild w s
  | .causewayWrite f => Sys2Proof.Machine.execCausewayWrite f s
  | .causewayDone f => Sys2Proof.Machine.execCausewayDone f s
  | .doneTimeout w => Sys2Proof.Machine.execDoneTimeout w s
  | .cwyLogPop m => Sys2Proof.Machine.execCwyLogPop m s
  | .testlog => Sys2Proof.Machine.execTestlog s
  | .scrub => Sys2Proof.Machine.execScrub s
  | .flashProgram m addr be v => Sys2Proof.Machine.execFlashProgram m addr be v s
  | .flashProgramDone bankB => Sys2Proof.Machine.execFlashProgramDone bankB s
  | .flashErase m v => Sys2Proof.Machine.execFlashErase m v s
  | .flashEraseDone bankB stuck => Sys2Proof.Machine.execFlashEraseDone bankB stuck s
  | .memElogPop m => Sys2Proof.Machine.execMemElogPop m s
  | .injection m v => Sys2Proof.Machine.execInjection m v s
  | .gateTryg m g => Sys2Proof.Machine.execGateTryg m g s
  | .gateRelg m g => Sys2Proof.Machine.execGateRelg m g s
  | .gateForceg m g => Sys2Proof.Machine.execGateForceg m g s
  | .gateLeaseExpiry g => Sys2Proof.Machine.execGateLeaseExpiry g s
  | .gateQpush m q v => Sys2Proof.Machine.execGateQpush m q v s
  | .gateQpop m q => Sys2Proof.Machine.execGateQpop m q s
  | .gateQclr m q v => Sys2Proof.Machine.execGateQclr m q v s
  | .bootVerify v => Sys2Proof.Machine.execBootVerify v s
  | .bootVerifyDone => Sys2Proof.Machine.execBootVerifyDone s
  | .bootKick => Sys2Proof.Machine.execBootKick s
  | .stewardWatchdog => Sys2Proof.Machine.execStewardWatchdog s
  | .quiesce m p => Sys2Proof.Machine.execQuiesce m p s
  | .partitionReset m p bankB => Sys2Proof.Machine.execPartitionReset m p bankB s
  | .rejoin m p => Sys2Proof.Machine.execRejoin m p s
  | .quiesceComplete p => Sys2Proof.Machine.execQuiesceComplete p s
  | .partitionResetDone p => Sys2Proof.Machine.execPartitionResetDone p s
  | .rejoinComplete p => Sys2Proof.Machine.execRejoinComplete p s
  | .keyProgram slot => Sys2Proof.Machine.execKeyProgram slot s
  | .keyRevoke slot => Sys2Proof.Machine.execKeyRevoke slot s
  | .tapReset => Sys2Proof.Machine.execTapReset s
  | .extest pins cells => Sys2Proof.Machine.execExtest pins cells s
  | .samplePreload pins cells => Sys2Proof.Machine.execSamplePreload pins cells s
  | .idcode => Sys2Proof.Machine.execIdcode s
  | .bypass tdi => Sys2Proof.Machine.execBypass tdi s
  | .dtmcs v => Sys2Proof.Machine.execDtmcs v s
  | .debugHalt h => Sys2Proof.Machine.execDebugHalt h s
  | .debugResume h => Sys2Proof.Machine.execDebugResume h s
  | .singleStep h nextPc => Sys2Proof.Machine.execSingleStep h nextPc s
  | .abstractCommand h write regno v buf => Sys2Proof.Machine.execAbstractCommand h write regno v buf s
  | .systemBusRead addr size => Sys2Proof.Machine.execSystemBusRead addr size s
  | .systemBusWrite addr size v => Sys2Proof.Machine.execSystemBusWrite addr size v s
  | .crcOrFramingError edges sdi => Sys2Proof.Machine.execCrcOrFramingError edges sdi s
  | .refClkReturn => Sys2Proof.Machine.execRefClkReturn s
  | .closureFail => Sys2Proof.Machine.execClosureFail s
  | .lastSymbolSent p => Sys2Proof.Machine.execLastSymbolSent p s
  | .ethPauseExpiry e => Sys2Proof.Machine.execEthPauseExpiry e s
  | .ethFrameSent e collisions => Sys2Proof.Machine.execEthFrameSent e collisions s

end Sys2Proof.Machine
end

