-- ==== Sys2Proof/Safety.lean ====
section
/-! DEFINITION. What counts as a sound state, in the terms the statements use. -/
namespace Sys2Proof.Machine

/-- The memory of a state is in its canonical form: addresses strictly rising, no byte listed that reads as an unlisted one. -/
abbrev State.MemWf (s : State) : Prop := Memory.wf s.mem.cells = true

/-- What the bounded stores of the block may hold: the memory in its canonical form (log 3); at most 16 entries in each
hardware queue (15 R423) and in the memories' error log (15 R409); 32 entries in the Causeway's write buffer and 16 in its
log (14 R384, R396); 32 records waiting for the Field Book (08 R251); 16 claims, wayleave requests and learnt
addresses. -/
def Contained (cells : List Host.Cell) (queues : Vector HwQueue 16) (elog : List MemLog) (buf : List CwyEntry)
    (clog : List CwyLog) (recs : List FbRec) (claims : List Word) (reqq : List (BitVec 6 × Byte))
    (learnq : List (BitVec 7 × BitVec 48)) : Prop :=
  Memory.wf cells = true ∧ (∀ q : Fin 16, (queues.get q).items.length ≤ 16) ∧ elog.length ≤ 16 ∧ buf.length ≤ 32 ∧
    clog.length ≤ 16 ∧ recs.length ≤ 32 ∧ claims.length ≤ 16 ∧ reqq.length ≤ 16 ∧ learnq.length ≤ 16

/-- A state whose stores hold no more than they can. -/
abbrev State.Sound (s : State) : Prop :=
  Contained s.mem.cells s.mem.queues s.mem.log s.cwy.buf s.cwy.log s.fbk.queue s.tre.claims s.wlv.reqq s.eth.learnq

/-- A meaning keeps the stores within their bounds. -/
def KeepsSound (r : Result) : Prop := ∀ t, r = .next t → t.Sound

/-! ### Open Road as it is heard -/

/-- A whole, good Open Road frame that its command fits, of this node's epoch and with a valid source, on a port that
receives Open Road (07 R214 to R226). -/
abbrev State.HearsFrame (s : State) (f : RxFrame) (d : Deliver) : Prop :=
  s.rxClass f = .good ∧ fcType f.fc = .road ∧ f.parity = false ∧ s.roadUp = true ∧
    s.regBit (Reg.at Reg.ROAD_PCFG f.port.val) 1 = false ∧ d.fits s (RHdr.parse f.body) f.body = true ∧
    (RHdr.parse f.body).cls < 5 ∧ f.body.length = 12 + (RHdr.parse f.body).plen ∧ (RHdr.parse f.body).plen ≤ 2036 ∧
    (RHdr.parse f.body).srcv = true ∧
    s.epochOk (RHdr.parse f.body) (byteAt f.body 12).toNat = true

/-- What every reception does, and its source heard: the state a heard frame is delivered in. -/
def State.roadHeard (f : RxFrame) (s : State) : State := (s.rxFx f).nbrHeard f.port (RHdr.parse f.body).src

/-- The commands that deliver one class or line-management kind, with what delivers it (07 Tables 7.2, 7.3). -/
def RoadCommand (c : RxFrame → Instr) (d : Deliver) : Prop := (c, d) ∈ [
  (.snrReport, mgmt 0x01 onSnrReport), (.segmentAnnounce, mgmt 0x02 onSegmentAnnounce),
  (.ringAnnounce, mgmt 0x03 onRingAnnounce), (.tonemapAcknowledge, mgmt 0x04 onToneAck),
  (.segmentSummary, mgmt 0x05 onSegmentSummary), (.segmentActivate, mgmt 0x06 onSegmentActivate),
  (.join, mgmt 0x10 onJoin), (.here, mgmt 0x11 onHere), (.resume, mgmt 0x12 onResume), (.hello, mgmt 0x13 onHello),
  (.echo, mgmt 0x14 onEcho), (.reply, mgmt 0x15 onReply), (.claim, mgmt 0x20 onClaim),
  (.tableRequest, mgmt 0x21 onTableRequest), (.table, mgmt 0x22 onTable), (.wayleave, mgmt 0x30 onWayleave),
  (.userMessage, deliverUser), (.ethernetTunnel, deliverTunnel), (.pause, deliverPause), (.causewayDone, deliverCwyDone)]

/-! ### Survey frames as they are received -/

/-- The commands that receive a survey frame, with its kind and what it does (05 Table 5.1). -/
def SurveyCommand (c : RxFrame → Instr) (kind : Nat) (act : RxFrame → SHdr → State → State) : Prop := (c, kind, act) ∈ [
  (.request, 1, onRequest), (.seek, 2, onSeek), (.token, 3, onToken), (.report, 4, onReport), (.pass, 5, onPass),
  (.tally, 6, onTally), (.result, 7, onResult), (.confirm, 8, onConfirm), (.surveyAbort, 9, onAbort),
  (.beacon, 10, onBeacon)]

/-! ### The itinerary's entries -/

/-- The command at which the sequencer comes to an entry of a type, with the type (10 Table 10.5). -/
def BlockCommand (c : Entry → Instr) (b : Blk) : Prop := (c, b) ∈ [
  (.blkNop, bNop), (.blkAnd, bAnd), (.blkOr, bOr), (.blkXor, bXor), (.blkNot, bNot), (.blkSr, bSr), (.blkRs, bRs),
  (.blkRtrig, bRtrig), (.blkFtrig, bFtrig), (.blkBitget, bBitget), (.blkBitput, bBitput), (.blkBand, bBand),
  (.blkBor, bBor), (.blkBxor, bBxor), (.blkShl, bShl), (.blkShr, bShr), (.blkAdd, bAdd), (.blkSub, bSub),
  (.blkMul, bMul), (.blkDiv, bDiv), (.blkMod, bMod), (.blkAbs, bAbs), (.blkNeg, bNeg), (.blkMin, bMin),
  (.blkMax, bMax), (.blkLimit, bLimit), (.blkEq, bEq), (.blkNe, bNe), (.blkGt, bGt), (.blkGe, bGe), (.blkLt, bLt),
  (.blkLe, bLe), (.blkMove, bMove), (.blkSel, bSel), (.blkPack16, bPack16), (.blkUnpack16, bUnpack16),
  (.blkBswap, bBswap), (.blkI2q, bI2q), (.blkQ2i, bQ2i), (.blkScale, bScale), (.blkQmul, bQmul), (.blkQdiv, bQdiv),
  (.blkQsqrt, bQsqrt), (.blkQmac, bQmac), (.blkTon, bTon), (.blkTof, bTof), (.blkTp, bTp), (.blkCtu, bCtu),
  (.blkCtd, bCtd), (.blkPid, bPid), (.blkLag, bLag), (.blkRamp, bRamp), (.blkInteg, bInteg), (.blkDeriv, bDeriv),
  (.blkDband, bDband), (.blkHyst, bHyst), (.blkLin, bLin), (.blkAvg, bAvg), (.blkWmok, bWmok), (.blkLaneok, bLaneok),
  (.blkFresh, bFresh), (.blkInrange, bInrange), (.blkLoadx, bLoadx), (.blkStorex, bStorex)]

/-- What a running entry leaves whose words are all readable: counted, its record, its outputs, DIVZ and saturation. -/
def State.entryResult (b : Blk) (e : Entry) (s : State) : State :=
  (s.entryBegin b e).entryEnd b e (s.recWords b e ((s.refVal b.qa b.none_ e.in0).getD 0)) ((s.seqWord ctxTc).getD 0)
    (b.fn (s.entryIn b e))

/-! ### What the core domain does -/

/-- The commands of the core domain's own timers, latches and passes: with Walk mode in force and no step armed its clock
stands, and they do nothing (02 R62; log 188). -/
def coreBound : Instr → Bool
  | .ackTimeout _ | .addressAgeExpiry _ | .applyMark _ | .beaconTimer _ | .bootVerifyDone | .cabdbChange | .cairn _ | .claimRetry
  | .collectPass | .collisionCheck | .configPass | .confirmDeadline | .coverStart | .cycleReturn _ _ _ | .cycleWatchdog
  | .deliverPass | .dmaBeat | .dmaFetchDone _ | .dmaGateAcquire _ | .dmaStopDone _ | .dmaTrigger _ | .dmaWriteResponse _
  | .doneTimeout _ | .drillCheckEnd | .dupBypassWait | .ethPauseExpiry _ | .fault _ | .fbHealthTimer | .fbRecordWrite _ | .fbRepeatExpiry _
  | .fbUser _ _ | .frameBuild _ | .gateLeaseExpiry _ | .gateRelease _ | .gateTry _ | .heardPass _ | .heartbeat
  | .helloTimer | .hostDeadline | .hostWaitTimeout | .identPass | .initReturn _ | .initTimeout | .inputImageRelease _
  | .interlockStuck | .lanePassLate | .lanePassReturn _ | .laneSubdone _ | .latchInstant | .latecomerCheck
  | .latecomerNoAnswer | .loadComplete | .localT0 | .localWriteResponse | .missedTraverse | .neighbourAgeExpiry _ _
  | .outputDeadline | .pauseExpiry _ _ _ | .pauseRepeat _ _ | .peerHbLost | .pfcExpiry _ _ | .programFault _ _
  | .queuePop _ | .queuePush _ _ | .rangePass _ _ _ | .reportSlotEnd _ _ | .reqStop | .revertReady | .roadRecv _ _ _ | .roadSend _ _
  | .roadWindowOpen | .scrub | .settleExpiry | .startTimeout | .stewardWatchdog | .surveyCut .. | .surveyDeferredSend
  | .surveyTimeout | .syncHoldExpiry | .t0 _ | .tableRequestRepeat | .takeover _ | .timeNow | .wayleaveDeadline
  | .wayleaveRepeat => true
  | _ => false

/-! ### Accesses by a master -/

/-- The access to a register or to memory that a command makes for a master: whose, whether it writes, and where. -/
def accessOf (s : State) : Instr → Option (Master × Bool × Nat)
  | .timestampRead m a => some (m, false, a.toNat)
  | .eventClaim m h => some (m, false, claimReg h)
  | .fbkRawPop m => some (m, false, Reg.FBK_RAW)
  | .claimPop m => some (m, false, Reg.TRE_CLAIM)
  | .learnqPop m => some (m, false, Reg.ETH_LEARNQ_H)
  | .wlvReqqPop m => some (m, false, Reg.WLV_REQQ)
  | .cwyLogPop m => some (m, false, Reg.CWY_LOG0)
  | .memElogPop m => some (m, false, Reg.MEM_ELOG0)
  | .gateTryg m g => some (m, false, Reg.at Reg.GATE_TRY g)
  | .gateQpop m q => some (m, false, Reg.GATE_QPOP + 0x10 * q.val)
  | .flashProgram m a _ _ => some (m, true, a.toNat)
  | .flashErase m _ => some (m, true, Reg.MEM_FERASE)
  | .injection m _ => some (m, true, s.injAddr)
  | .gateRelg m g => some (m, true, Reg.at Reg.GATE_REL g)
  | .gateForceg m g => some (m, true, Reg.at Reg.GATE_FORCE g)
  | .gateQpush m q _ => some (m, true, Reg.GATE_QPUSH + 0x10 * q.val)
  | .gateQclr m q _ => some (m, true, Reg.GATE_QCLR + 0x10 * q.val)
  | .quiesce m _ | .partitionReset m _ _ | .rejoin m _ => some (m, true, Reg.SYS_PARTCTL)
  | .transmitRecord m _ => some (m, true, Reg.ROAD_TXWP)
  | _ => none

/-- A master's access, once it is clocked, is made: the master may make it, and no trigger of its core names it (09 R267; 16
R446). -/
def State.mayAccess (s : State) (m : Master) (write : Bool) (a : Nat) : Bool :=
  (s.trigTake m (if write then 1 else 0) a).isNone && s.masterAllows m write a

/-- A master is clocked and its access is made. -/
def State.accesses (s : State) (m : Master) (write : Bool) (a : Nat) : Bool := s.masterRuns m && s.mayAccess m write a

/-- A write of lanes of a word by a master that is clocked meets no trigger: it goes to the bus. -/
def State.meetsNone (s : State) (m : Master) (a : Nat) (be : BitVec 4) : Bool :=
  s.masterRuns m && (s.trigTake m 1 (a + firstLane be)).isNone

/-- No access of the command is turned away. -/
def State.made (s : State) (c : Instr) : Prop := ∀ m w a, accessOf s c = some (m, w, a) → s.mayAccess m w a = true

/-! ### What a command leaves alone -/

/-- The commands that change one or a few parts of the state: t is s but for those parts. What a command does that a trigger or
a refusal turns away is AccessesTurned's. -/
def ownFrame (c : Instr) (s t : State) : Prop :=
  match c with
  | .traverseDisable =>
    t = { s with regs := t.regs }
  | .cabActChange .. | .throughUnitChange .. =>
    t = { s with sys := t.sys }
  | .serviceImageCapture .. | .keyWindowClose | .deepAccessTimeout =>
    t = { s with sp := t.sp }
  | .fbRepeatExpiry .. | .fbHealthTimer | .fbkUsergo .. =>
    t = { s with fbk := t.fbk }
  | .notchRelease .. =>
    t = { s with liu := t.liu }
  | .svyFull =>
    t = { s with svy := t.svy }
  | .coverStart | .commit | .tableEdit .. =>
    t = { s with tre := t.tre }
  | .addressAgeExpiry .. =>
    t = { s with eth := t.eth }
  | .stopRequest =>
    t = { s with ctl := t.ctl }
  | .laneCommit =>
    t = { s with lane := t.lane }
  | .wlvBcommit | .tclr =>
    t = { s with wlv := t.wlv }
  | .dmaTrigger .. | .dmaStopDone .. =>
    t = { s with dma := t.dma }
  | .flashProgramDone .. | .gateQclr .. =>
    t = { s with mem := t.mem }
  | .bootKick | .keyProgram .. | .keyRevoke .. | .tapReset =>
    t = { s with boot := t.boot }
  | .heartbeat =>
    t = { s with out := t.out }
  | .cairnRequest .. =>
    t = { s with regs := t.regs, cnt := t.cnt }
  | .mdioDone .. =>
    t = { s with regs := t.regs, eth := t.eth }
  | .injection .. =>
    t = { s with regs := t.regs, mem := t.mem }
  | .bootVerify .. =>
    t = { s with regs := t.regs, boot := t.boot }
  | .gaugeConversion =>
    t = { s with sp := t.sp, free := t.free }
  | .normalRead .. | .peek .. | .commandRefused .. | .key .. | .deepRead .. | .deepWrite .. | .fbStart
  | .fbNewest | .fbDataRead =>
    t = { s with sp := t.sp, out := t.out }
  | .claimPop .. =>
    t = { s with tre := t.tre, out := t.out }
  | .learnqPop .. =>
    t = { s with eth := t.eth, out := t.out }
  | .timeNow | .reqStop =>
    t = { s with ctl := t.ctl, free := t.free }
  | .wlvReqqPop .. =>
    t = { s with wlv := t.wlv, out := t.out }
  | .cwyLogPop .. =>
    t = { s with cwy := t.cwy, out := t.out }
  | .memElogPop .. | .gateTryg .. | .gateQpop .. =>
    t = { s with mem := t.mem, out := t.out }
  | .extest .. | .samplePreload .. | .idcode | .bypass .. | .dtmcs .. | .systemBusRead .. =>
    t = { s with boot := t.boot, out := t.out }
  | .mdioAccess .. =>
    t = { s with regs := t.regs, eth := t.eth, out := t.out }
  | .fbUser .. =>
    t = { s with fbk := t.fbk, ctl := t.ctl, free := t.free }
  | .gateTry .. | .gateRelease .. | .queuePop .. =>
    t = { s with ctl := t.ctl, mem := t.mem, free := t.free }
  | .debugHalt .. | .debugResume .. | .singleStep .. =>
    t = { s with ctl := t.ctl, boot := t.boot, out := t.out }
  | _ => True

/-- The commands that change one or a few blocks and report it: events, alerts, the Field Book queue, DMA triggers. -/
def reportFrame (c : Instr) (s t : State) : Prop :=
  match c with
  | .eventClaim .. =>
    t = { s with evt := t.evt, out := t.out }
  | .evtSoft .. =>
    t = { s with sp := t.sp, evt := t.evt, fbk := t.fbk, dma := t.dma }
  | .vehSample .. | .vsupLowWarning .. | .tempWarning .. =>
    t = { s with sys := t.sys, sp := t.sp, evt := t.evt, fbk := t.fbk, dma := t.dma }
  | .cairn .. =>
    t = { s with sp := t.sp, evt := t.evt, cnt := t.cnt, fbk := t.fbk, dma := t.dma }
  | .portCarrier .. | .portLockLost .. | .portSilent .. | .portJam .. | .portDead .. | .portClear ..
  | .notchPlace .. =>
    t = { s with sp := t.sp, evt := t.evt, fbk := t.fbk, liu := t.liu, dma := t.dma }
  | .missedTraverse | .closureFail =>
    t = { s with sp := t.sp, evt := t.evt, fbk := t.fbk, tre := t.tre, dma := t.dma }
  | .neighbourAgeExpiry .. =>
    t = { s with sp := t.sp, evt := t.evt, fbk := t.fbk, road := t.road, dma := t.dma }
  | .forcestart | .startTimeout =>
    t = { s with sp := t.sp, evt := t.evt, fbk := t.fbk, lane := t.lane, dma := t.dma }
  | .wayleaveDeadline | .drillRefused =>
    t = { s with sp := t.sp, evt := t.evt, fbk := t.fbk, wlv := t.wlv, dma := t.dma }
  | .hostWrite .. | .testlog =>
    t = { s with sp := t.sp, evt := t.evt, fbk := t.fbk, dma := t.dma, cwy := t.cwy }
  | .dmaGateAcquire .. | .scrub | .gateLeaseExpiry .. | .gateQpush .. =>
    t = { s with sp := t.sp, evt := t.evt, fbk := t.fbk, dma := t.dma, mem := t.mem }
  | .dmaFetchDone .. =>
    t = { s with sp := t.sp, evt := t.evt, fbk := t.fbk, dma := t.dma, free := t.free }
  | .fbkRawPop .. =>
    t = { s with sp := t.sp, evt := t.evt, fbk := t.fbk, dma := t.dma, out := t.out }
  | .laneEnable =>
    t = { s with regs := t.regs, sp := t.sp, evt := t.evt, fbk := t.fbk, lane := t.lane, dma := t.dma }
  | .refClkLoss =>
    t = { s with sys := t.sys, sp := t.sp, evt := t.evt, fbk := t.fbk, eth := t.eth, dma := t.dma }
  | .collisionCheck | .rejoin .. =>
    t = { s with sys := t.sys, sp := t.sp, evt := t.evt, fbk := t.fbk, wlv := t.wlv, dma := t.dma }
  | .portDisable .. =>
    t = { s with sp := t.sp, evt := t.evt, cnt := t.cnt, fbk := t.fbk, liu := t.liu, dma := t.dma }
  | .dmaWriteResponse .. =>
    t = { s with sp := t.sp, evt := t.evt, cnt := t.cnt, fbk := t.fbk, dma := t.dma, mem := t.mem }
  | .autoIncrement .. =>
    t = { s with sp := t.sp, evt := t.evt, cnt := t.cnt, fbk := t.fbk, dma := t.dma, out := t.out }
  | .walkEntryComplete =>
    t = { s with sp := t.sp, evt := t.evt, fbk := t.fbk, tre := t.tre, wlv := t.wlv, dma := t.dma }
  | .doneTimeout .. =>
    t = { s with sp := t.sp, evt := t.evt, fbk := t.fbk, road := t.road, dma := t.dma, cwy := t.cwy }
  | .pauseRepeat .. =>
    t = { s with sp := t.sp, evt := t.evt, fbk := t.fbk, road := t.road, dma := t.dma, free := t.free }
  | .phyPoll .. =>
    t = { s with sp := t.sp, evt := t.evt, fbk := t.fbk, eth := t.eth, dma := t.dma, out := t.out }
  | .hostWaitTimeout =>
    t = { s with sp := t.sp, evt := t.evt, fbk := t.fbk, dma := t.dma, cwy := t.cwy, out := t.out }
  | .fbRecordWrite .. | .fbkWipe .. | .flashEraseDone .. =>
    t = { s with sp := t.sp, evt := t.evt, fbk := t.fbk, dma := t.dma, mem := t.mem, boot := t.boot }
  | .syncHoldExpiry =>
    t = { s with sys := t.sys, sp := t.sp, evt := t.evt, fbk := t.fbk, tre := t.tre, wlv := t.wlv, dma := t.dma }
  | .report .. =>
    t = { s with sp := t.sp, evt := t.evt, cnt := t.cnt, fbk := t.fbk, liu := t.liu, svy := t.svy, dma := t.dma }
  | .rangePass .. =>
    t = { s with sp := t.sp, evt := t.evt, cnt := t.cnt, fbk := t.fbk, lane := t.lane, dma := t.dma, out := t.out }
  | .queuePush .. =>
    t = { s with sp := t.sp, evt := t.evt, fbk := t.fbk, ctl := t.ctl, dma := t.dma, mem := t.mem, free := t.free }
  | .dmaGo .. | .dmaDisable .. =>
    t = { s with
      regs := t.regs, sp := t.sp, evt := t.evt, cnt := t.cnt, fbk := t.fbk, dma := t.dma, mem := t.mem
      free := t.free }
  | .seek .. =>
    t = { s with
      sp := t.sp, evt := t.evt, cnt := t.cnt, fbk := t.fbk, liu := t.liu, svy := t.svy, dma := t.dma, out := t.out }
  | .ethPause .. | .pfc .. | .pfcExpiry .. | .ethPauseExpiry .. =>
    t = { s with
      sp := t.sp, evt := t.evt, cnt := t.cnt, fbk := t.fbk, eth := t.eth, dma := t.dma, mem := t.mem, out := t.out }
  | .identPass | .configPass =>
    t = { s with
      sp := t.sp, evt := t.evt, cnt := t.cnt, fbk := t.fbk, lane := t.lane, dma := t.dma, free := t.free
      out := t.out }
  | .returnPassComplete =>
    t = { s with
      sys := t.sys, sp := t.sp, evt := t.evt, cnt := t.cnt, fbk := t.fbk, svy := t.svy, tre := t.tre, dma := t.dma
      mem := t.mem }
  | .refClkReturn =>
    t = { s with
      sys := t.sys, sp := t.sp, evt := t.evt, cnt := t.cnt, fbk := t.fbk, eth := t.eth, dma := t.dma, mem := t.mem
      out := t.out }
  | .beaconTimer .. | .request .. | .settleExpiry | .reportSlotEnd .. | .dupBypassWait | .tally .. | .svyPublish
  | .hostDeadline | .result .. | .surveyDeferredSend | .confirm .. =>
    t = { s with
      sp := t.sp, evt := t.evt, cnt := t.cnt, fbk := t.fbk, liu := t.liu, svy := t.svy, dma := t.dma
      free := t.free, out := t.out }
  | .ethFrameSent .. =>
    t = { s with
      sp := t.sp, evt := t.evt, cnt := t.cnt, fbk := t.fbk, eth := t.eth, dma := t.dma, mem := t.mem
      free := t.free, out := t.out }
  | .heardPass .. =>
    t = { s with
      sp := t.sp, evt := t.evt, cnt := t.cnt, fbk := t.fbk, lane := t.lane, wlv := t.wlv, dma := t.dma
      mem := t.mem, free := t.free }
  | .ethDisable .. =>
    t = { s with
      regs := t.regs, sp := t.sp, evt := t.evt, cnt := t.cnt, fbk := t.fbk, eth := t.eth, dma := t.dma
      mem := t.mem, free := t.free, out := t.out }
  | .beacon .. | .token .. | .confirmDeadline | .surveyAbort .. | .surveyTimeout | .svyStart | .svyAbort
  | .latecomerNoAnswer =>
    t = { s with
      sp := t.sp, evt := t.evt, cnt := t.cnt, fbk := t.fbk, liu := t.liu, svy := t.svy, ctl := t.ctl, dma := t.dma
      free := t.free, out := t.out }
  | _ => True

/-- The commands that reach further: the parts of the state none of them reaches. -/
def wideFrame (c : Instr) (s t : State) : Prop :=
  match c with
  | .cabdbChange | .turnout =>
    t = { s with
      sys := t.sys, sp := t.sp, evt := t.evt, cnt := t.cnt, fbk := t.fbk, liu := t.liu, svy := t.svy, ctl := t.ctl
      dma := t.dma, free := t.free, out := t.out }
  | .tableRequestRepeat | .ackTimeout .. | .pauseExpiry .. | .helloTimer | .ping .. | .ethFrameReceive .. =>
    t = { s with
      regs := t.regs, sp := t.sp, evt := t.evt, cnt := t.cnt, fbk := t.fbk, road := t.road, eth := t.eth
      dma := t.dma, cwy := t.cwy, mem := t.mem, free := t.free, out := t.out }
  | .snrEvaluation .. | .snrReportPeriodic .. | .snrReport .. | .segmentAnnounce .. | .tonemapAcknowledge ..
  | .segmentActivate .. | .segmentMapActivation .. | .segmentMapAbandon .. | .segmentSummary ..
  | .ringAnnounce .. | .ringMapActivation | .ringMapAbandon | .join .. | .roadFrameStart .. | .acknowledge ..
  | .userMessage .. | .ethernetTunnel .. | .pause .. | .hello .. | .echo .. | .reply .. | .causewayDone ..
  | .lastSymbolSent .. =>
    t = { s with
      regs := t.regs, sp := t.sp, evt := t.evt, cnt := t.cnt, fbk := t.fbk, liu := t.liu, road := t.road
      eth := t.eth, dma := t.dma, cwy := t.cwy, mem := t.mem, free := t.free, out := t.out }
  | .claimRetry =>
    t = { s with
      regs := t.regs, sp := t.sp, evt := t.evt, cnt := t.cnt, fbk := t.fbk, tre := t.tre, road := t.road
      eth := t.eth, dma := t.dma, cwy := t.cwy, mem := t.mem, free := t.free, out := t.out }
  | .wayleaveRepeat | .drill | .revertReady =>
    t = { s with
      regs := t.regs, sp := t.sp, evt := t.evt, cnt := t.cnt, fbk := t.fbk, road := t.road, eth := t.eth
      wlv := t.wlv, dma := t.dma, cwy := t.cwy, mem := t.mem, free := t.free, out := t.out }
  | .resume .. | .tableRequest .. | .table .. | .claim .. =>
    t = { s with
      regs := t.regs, sp := t.sp, evt := t.evt, cnt := t.cnt, fbk := t.fbk, liu := t.liu, tre := t.tre
      road := t.road, eth := t.eth, dma := t.dma, cwy := t.cwy, mem := t.mem, free := t.free, out := t.out }
  | .wayleave .. =>
    t = { s with
      regs := t.regs, sp := t.sp, evt := t.evt, cnt := t.cnt, fbk := t.fbk, liu := t.liu, road := t.road
      eth := t.eth, wlv := t.wlv, dma := t.dma, cwy := t.cwy, mem := t.mem, free := t.free, out := t.out }
  | .hostRead .. =>
    t = { s with
      sp := t.sp, evt := t.evt, cnt := t.cnt, fbk := t.fbk, liu := t.liu, tre := t.tre, eth := t.eth, ctl := t.ctl
      lane := t.lane, wlv := t.wlv, dma := t.dma, cwy := t.cwy, mem := t.mem, out := t.out }
  | .applyMark .. | .collectPass | .lanePassReturn .. | .laneDisable | .peerHbPulse .. | .peerHbLost
  | .peerOwnChange .. | .interlockStuck | .drillCheckEnd =>
    t = { s with
      regs := t.regs, sys := t.sys, sp := t.sp, evt := t.evt, cnt := t.cnt, fbk := t.fbk, road := t.road
      eth := t.eth, lane := t.lane, wlv := t.wlv, dma := t.dma, cwy := t.cwy, mem := t.mem, free := t.free
      out := t.out }
  | .roadWindowOpen =>
    t = { s with
      regs := t.regs, sp := t.sp, evt := t.evt, cnt := t.cnt, fbk := t.fbk, liu := t.liu, svy := t.svy
      tre := t.tre, road := t.road, eth := t.eth, dma := t.dma, cwy := t.cwy, mem := t.mem, free := t.free
      out := t.out }
  | .deliverPass | .lanePassLate =>
    t = { s with
      regs := t.regs, sys := t.sys, sp := t.sp, evt := t.evt, cnt := t.cnt, fbk := t.fbk, road := t.road
      eth := t.eth, ctl := t.ctl, lane := t.lane, wlv := t.wlv, dma := t.dma, cwy := t.cwy, mem := t.mem
      free := t.free, out := t.out }
  | .takeover .. =>
    t = { s with
      regs := t.regs, sys := t.sys, sp := t.sp, evt := t.evt, cnt := t.cnt, fbk := t.fbk, liu := t.liu
      svy := t.svy, tre := t.tre, road := t.road, eth := t.eth, wlv := t.wlv, dma := t.dma, cwy := t.cwy
      mem := t.mem, free := t.free, out := t.out }
  | .t0 .. =>
    t = { s with
      regs := t.regs, sys := t.sys, sp := t.sp, evt := t.evt, cnt := t.cnt, fbk := t.fbk, liu := t.liu
      tre := t.tre, road := t.road, eth := t.eth, lane := t.lane, wlv := t.wlv, dma := t.dma, cwy := t.cwy
      mem := t.mem, free := t.free, out := t.out }
  | .quiesce .. =>
    t = { s with
      regs := t.regs, sys := t.sys, sp := t.sp, evt := t.evt, cnt := t.cnt, fbk := t.fbk, liu := t.liu
      road := t.road, eth := t.eth, ctl := t.ctl, lane := t.lane, wlv := t.wlv, dma := t.dma, cwy := t.cwy
      mem := t.mem, free := t.free, out := t.out }
  | .latecomerCheck | .localT0 =>
    t = { s with
      regs := t.regs, sys := t.sys, sp := t.sp, evt := t.evt, cnt := t.cnt, fbk := t.fbk, svy := t.svy
      tre := t.tre, road := t.road, eth := t.eth, lane := t.lane, wlv := t.wlv, dma := t.dma, cwy := t.cwy
      mem := t.mem, free := t.free, out := t.out }
  | .latchInstant =>
    t = { s with
      regs := t.regs, sys := t.sys, sp := t.sp, evt := t.evt, cnt := t.cnt, fbk := t.fbk, tre := t.tre
      road := t.road, eth := t.eth, ctl := t.ctl, lane := t.lane, wlv := t.wlv, dma := t.dma, cwy := t.cwy
      mem := t.mem, free := t.free, out := t.out }
  | .loadComplete | .initTimeout | .outputDeadline | .cycleWatchdog | .programFault .. | .fault ..
  | .entrySkip .. | .blkNop .. | .blkAnd .. | .blkOr .. | .blkXor .. | .blkNot .. | .blkSr .. | .blkRs ..
  | .blkRtrig .. | .blkFtrig .. | .blkBitget .. | .blkBitput .. | .blkBand .. | .blkBor .. | .blkBxor ..
  | .blkShl .. | .blkShr .. | .blkAdd .. | .blkSub .. | .blkMul .. | .blkDiv .. | .blkMod .. | .blkAbs ..
  | .blkNeg .. | .blkMin .. | .blkMax .. | .blkLimit .. | .blkEq .. | .blkNe .. | .blkGt .. | .blkGe ..
  | .blkLt .. | .blkLe .. | .blkMove .. | .blkSel .. | .blkPack16 .. | .blkUnpack16 .. | .blkBswap ..
  | .blkI2q .. | .blkQ2i .. | .blkScale .. | .blkQmul .. | .blkQdiv .. | .blkQsqrt .. | .blkQmac .. | .blkTon ..
  | .blkTof .. | .blkTp .. | .blkCtu .. | .blkCtd .. | .blkPid .. | .blkLag .. | .blkRamp .. | .blkInteg ..
  | .blkDeriv .. | .blkDband .. | .blkHyst .. | .blkLin .. | .blkAvg .. | .blkWmok .. | .blkLaneok ..
  | .blkFresh .. | .blkInrange .. | .blkLoadx .. | .blkStorex .. | .gateRelg .. | .gateForceg .. =>
    t = { s with
      regs := t.regs, sys := t.sys, sp := t.sp, evt := t.evt, cnt := t.cnt, fbk := t.fbk, road := t.road
      eth := t.eth, ctl := t.ctl, itn := t.itn, lane := t.lane, wlv := t.wlv, dma := t.dma, cwy := t.cwy
      mem := t.mem, free := t.free, out := t.out }
  | .bootVerifyDone =>
    t = { s with
      regs := t.regs, sys := t.sys, sp := t.sp, evt := t.evt, cnt := t.cnt, fbk := t.fbk, road := t.road
      eth := t.eth, ctl := t.ctl, lane := t.lane, wlv := t.wlv, dma := t.dma, cwy := t.cwy, mem := t.mem
      boot := t.boot, free := t.free, out := t.out }
  | .pass .. | .here .. | .roadTransit .. =>
    t = { s with
      regs := t.regs, sys := t.sys, sp := t.sp, evt := t.evt, cnt := t.cnt, fbk := t.fbk, liu := t.liu
      svy := t.svy, tre := t.tre, road := t.road, eth := t.eth, lane := t.lane, wlv := t.wlv, dma := t.dma
      cwy := t.cwy, mem := t.mem, free := t.free, out := t.out }
  | .stewardWatchdog =>
    t = { s with
      regs := t.regs, sys := t.sys, sp := t.sp, evt := t.evt, cnt := t.cnt, fbk := t.fbk, liu := t.liu
      road := t.road, eth := t.eth, ctl := t.ctl, lane := t.lane, wlv := t.wlv, dma := t.dma, cwy := t.cwy
      mem := t.mem, boot := t.boot, free := t.free, out := t.out }
  | .initReturn .. =>
    t = { s with
      regs := t.regs, sys := t.sys, sp := t.sp, evt := t.evt, cnt := t.cnt, fbk := t.fbk, tre := t.tre
      road := t.road, eth := t.eth, ctl := t.ctl, itn := t.itn, lane := t.lane, wlv := t.wlv, dma := t.dma
      cwy := t.cwy, mem := t.mem, free := t.free, out := t.out }
  | .classTimeExpiry | .vsupPowerFail | .flashProgram .. | .flashErase .. =>
    t = { s with
      regs := t.regs, sys := t.sys, sp := t.sp, evt := t.evt, cnt := t.cnt, fbk := t.fbk, road := t.road
      eth := t.eth, ctl := t.ctl, itn := t.itn, lane := t.lane, wlv := t.wlv, dma := t.dma, cwy := t.cwy
      mem := t.mem, boot := t.boot, free := t.free, out := t.out }
  | .traverseReceive .. | .surveyCut .. =>
    t = { s with
      regs := t.regs, sys := t.sys, sp := t.sp, evt := t.evt, cnt := t.cnt, fbk := t.fbk, liu := t.liu
      svy := t.svy, tre := t.tre, road := t.road, eth := t.eth, ctl := t.ctl, lane := t.lane, wlv := t.wlv
      dma := t.dma, cwy := t.cwy, mem := t.mem, free := t.free, out := t.out }
  | .timestampRead .. =>
    t = { s with
      regs := t.regs, sys := t.sys, sp := t.sp, evt := t.evt, cnt := t.cnt, fbk := t.fbk, liu := t.liu
      tre := t.tre, road := t.road, eth := t.eth, ctl := t.ctl, itn := t.itn, lane := t.lane, wlv := t.wlv
      dma := t.dma, cwy := t.cwy, mem := t.mem, free := t.free, out := t.out }
  | .rejoinComplete .. =>
    t = { s with
      regs := t.regs, sys := t.sys, sp := t.sp, evt := t.evt, cnt := t.cnt, fbk := t.fbk, svy := t.svy
      tre := t.tre, road := t.road, eth := t.eth, ctl := t.ctl, lane := t.lane, wlv := t.wlv, dma := t.dma
      cwy := t.cwy, mem := t.mem, boot := t.boot, free := t.free, out := t.out }
  | .registerWrite .. | .serviceWrite .. | .wrst .. | .deepAccessDone | .walkEntry .. | .step ..
  | .walkStepEnd .. | .walkExit .. | .powerOn .. | .powerUpComplete .. | .pinReset .. | .pinResetRelease ..
  | .testHigh | .brownOut | .coreLow | .warmResetRelease | .clockFault | .clockRecovery .. | .saveDone
  | .holdResume | .transmitRecord .. | .runRequest .. | .inputImageRelease .. | .cycleReturn .. | .roadSend ..
  | .roadRecv .. | .laneSubdone .. | .dmaBeat | .localWriteResponse | .frameBuild .. | .causewayWrite ..
  | .partitionReset .. | .quiesceComplete .. | .partitionResetDone .. | .abstractCommand .. | .systemBusWrite ..
  | .crcOrFramingError .. =>
    t = { s with
      regs := t.regs, sys := t.sys, sp := t.sp, evt := t.evt, cnt := t.cnt, fbk := t.fbk, liu := t.liu
      svy := t.svy, tre := t.tre, road := t.road, eth := t.eth, ctl := t.ctl, itn := t.itn, lane := t.lane
      wlv := t.wlv, dma := t.dma, cwy := t.cwy, mem := t.mem, boot := t.boot, free := t.free, out := t.out }
  | _ => True

end Sys2Proof.Machine
end

