-- ==== Sys2Proof/Certificates/Slice0/Obligations.lean ====
section
/-! DEFINITION. The statements about the model, for the provers: the chapters' rules family by family, then the queue, the
bounds of the stores, reset, register writes and frames. -/
open Sys2Proof Sys2Proof.Machine

/-- Reads and refusals over the service port (02 R36 to R48, 03 R69, 08 R254): the whole next state. -/
def Obligations.ServiceReads : Prop :=
  (∀ (apin : Bool) (s : State), s.spAnswers = true →
    exec (.serviceImageCapture apin) s = .next { s with
      sp.image := (List.range 64).map fun i => s.spReg (s.statusByte apin) (BitVec.ofNat 6 i)
      sp.status := s.statusByte apin, sp.open_ := true, sp.lost := false }) ∧
  (∀ (apin : Bool) (s : State), s.spAnswers = false →
    exec (.serviceImageCapture apin) s = .next { s with sp.lost := true }) ∧
  (∀ (a : BitVec 6) (s : State), s.sys.test = false → s.spTakes = false →
    exec (.peek a) s = .next { s with sp.open_ := false, sp.lost := false }) ∧
  (∀ (a : BitVec 6) (s : State), s.sys.test = true →
    exec (.peek a) s = .next { s with
      out := s.out ++ [.sdo [0xFF, 0xFF, 0xFF, 0xFF]], sp.open_ := false, sp.lost := false }) ∧
  (∀ (edges : Nat) (w : Word) (s : State), s.sys.test = true →
    exec (.crcOrFramingError edges w) s = .next { s with
      out := s.out ++ [.sdoBits (List.replicate edges true)], sp.open_ := false, sp.lost := false }) ∧
  (∀ (a : BitVec 6) (s : State), s.spTakes = true →
    exec (.peek a) s = .next { s with
      out := s.out ++ [.sdo ([s.sp.status, (s.sp.image.getD a.toNat 0 >>> 8).setWidth 8, (s.sp.image.getD a.toNat 0).setWidth 8] ++
        [crc8 [s.sp.status, (s.sp.image.getD a.toNat 0 >>> 8).setWidth 8, (s.sp.image.getD a.toNat 0).setWidth 8]])]
      sp.keyLeft := if s.sp.keyOpen = true then satPred s.sp.keyLeft else s.sp.keyLeft
      sp.keyFirst := false, sp.open_ := false, sp.lost := false
      sp.last := if spReserved a = true then 4 else 0 }) ∧
  (∀ (a : BitVec 6) (s : State), s.spTakes = true → a ≠ 0x03 → a ≠ 0x09 → a ≠ 0x16 →
    exec (.normalRead a) s = exec (.peek a) s) ∧
  (∀ s : State, s.spTakes = true →
    ∃ t u, exec (.normalRead 0x03) s = .next t ∧ exec (.peek 0x03) s = .next u ∧
      t = { u with sp.alert := s.sp.alert &&& ~~~ s.sp.image.getD 3 0 }) ∧
  (∀ (a : BitVec 6) (s : State), s.spTakes = true →
    ∃ t u, exec (.commandRefused a) s = .next t ∧ exec (.peek a) s = .next u ∧ t = { u with sp.last := 3 }) ∧
  (∀ s : State, s.spTakes = true →
    ∃ t u, exec .fbDataRead s = .next t ∧ exec (.peek 0x16) s = .next u ∧ t = u.fbAdvance) ∧
  (∀ s : State, s.spTakes = true → (s.fbRecs.any fun r => r.1 == s.sp.fbSeq) = true →
    ∃ t u, exec .fbStart s = .next t ∧ exec (.peek 0x14) s = .next u ∧
      t = { u with sp.fbPtr := some s.sp.fbSeq, sp.fbWord := 0, sp.fbEnd := false, sp.fbGap := false }) ∧
  (∀ s : State, s.spTakes = true →
    ∃ t u, exec .fbNewest s = .next t ∧ exec (.peek 0x14) s = .next u ∧
      t = { u with sp.fbPtr := s.fbRecs.getLast?.map (·.1), sp.fbWord := 0, sp.fbEnd := false, sp.fbGap := false }) ∧
  (∀ (edges : Nat) (w : Word) (s : State), s.spTakes = true → edges ≠ 32 ∨ sdiCrcOk w = false →
    exec (.crcOrFramingError edges w) s = .next { s with
      out := s.out ++ [.sdoBits (s.sdoBits w edges)]
      sp.last := if edges = 32 then 1 else 2, sp.open_ := false, sp.lost := false
      sp.keyOpen := false, sp.keyLeft := 0, sp.alert := setBit s.sp.alert 13 }) ∧
  (∀ (w : Word) (s : State), s.spTakes = true → sdiCrcOk w = true →
    exec (.crcOrFramingError 32 w) s = exec (match sdiW w, sdiP w with
      | false, false => .normalRead (sdiAddr w)
      | false, true => .peek (sdiAddr w)
      | true, false => .serviceWrite (sdiAddr w) (sdiData w)
      | true, true => .commandRefused (sdiAddr w)) s) ∧
  (∀ s : State, s.sp.keyOpen = true → s.sp.keyLeft = 0 →
    exec .keyWindowClose s = .next { s with sp.keyOpen := false, sp.keyLeft := 0, sp.keyFirst := false })

/-- Writes over the service port and the deep window (02 R41, R47, R49, R53 to R58); `peek` is the transaction's common part. -/
def Obligations.ServiceWrites : Prop :=
  (∀ s : State, s.spTakes = true →
    ∃ t u, exec (.key 0x7A5C) s = .next t ∧ exec (.peek 0x18) s = .next u ∧ t = { u with sp.keyFirst := true }) ∧
  (∀ s : State, s.spTakes = true → s.sp.keyFirst = true →
    ∃ t u, exec (.key 0x85A3) s = .next t ∧ exec (.peek 0x18) s = .next u ∧
      t = { u with sp.keyOpen := true, sp.keyLeft := 255 }) ∧
  (∀ s : State, s.spTakes = true → s.sp.keyFirst = false → exec (.key 0x85A3) s = exec (.peek 0x18) s) ∧
  (∀ (v : Half) (s : State), s.spTakes = true → v ≠ 0x7A5C → v ≠ 0x85A3 →
    ∃ t u, exec (.key v) s = .next t ∧ exec (.peek 0x18) s = .next u ∧
      t = { u with sp.keyOpen := false, sp.keyLeft := 0, sp.keyFirst := false }) ∧
  (∀ (v : Half) (s : State), s.spTakes = true →
    ∃ t u, exec (.serviceWrite 0x2D v) s = .next t ∧ exec (.peek 0x2D) s = .next u ∧ t = { u with sp.scratch := v }) ∧
  (∀ (v : Half) (s : State), s.spTakes = true →
    ∃ t u, exec (.serviceWrite 0x04 v) s = .next t ∧ exec (.peek 0x04) s = .next u ∧
      t = { u with sp.alertMask := v &&& 0x37FF }) ∧
  (∀ (a : BitVec 6) (v : Half) (s : State), s.spTakes = true →
    ∃ t u, exec (.serviceWrite a v) s = .next t ∧ exec (.peek a) s = .next u ∧ t = u.spWrite a v s.keyIn s.sp.keyFirst) ∧
  (∀ (v : Half) (key first : Bool) (s : State), s.sp.busy = false →
    s.spWrite 0x06 v key first = { s with sp.daddr := (s.sp.daddr &&& 0xFFFF0000) ||| v.setWidth 32, sp.count := 0 } ∧
    s.spWrite 0x07 v key first = { s with
      sp.daddr := (s.sp.daddr &&& 0x0000FFFF) ||| (v.setWidth 32 <<< 16), sp.count := 0 } ∧
    s.spWrite 0x08 v key first = { s with sp.ddata := (s.sp.ddata &&& 0xFFFF0000) ||| v.setWidth 32 }) ∧
  (∀ (v : Half) (first : Bool) (s : State),
    s.spWrite 0x0D v true first = { s with sp.walkSteps := v } ∧
    s.spWrite 0x15 v true first = { s with sp.fbSeq := v } ∧
    s.spWrite 0x19 v true first = s.setReg Reg.SYS_SPLIT (v.setWidth 32)) ∧
  (∀ (a : BitVec 6) (v : Half) (s : State), s.spTakes = true → s.keyIn = false → a = 0x05 ∨ a = 0x0D ∨ a = 0x10 ∨ a = 0x19 →
    ∃ t u, exec (.serviceWrite a v) s = .next t ∧ exec (.peek a) s = .next u ∧ t = { u with sp.last := 5 }) ∧
  (∀ (v : Half) (s : State), s.spTakes = true → v.getLsbD 15 = true → v.getLsbD 14 = false → s.sp.busy = false →
    ∃ t u, exec (.deepRead v) s = .next t ∧ exec (.peek 0x0A) s = .next u ∧
      t = { u with sp.dctl := v &&& 0x7C00, sp.busy := true, sp.done := false, sp.err := 0 }) ∧
  (∀ (v : Half) (s : State), s.spTakes = true → v.getLsbD 15 = true → v.getLsbD 14 = true → s.sp.busy = false →
    s.keyIn = true →
    ∃ t u, exec (.deepWrite v) s = .next t ∧ exec (.peek 0x0A) s = .next u ∧
      t = { u with sp.dctl := v &&& 0x7C00, sp.busy := true, sp.done := false, sp.err := 0 }) ∧
  (∀ (v : Half) (s : State), s.spTakes = true → v.getLsbD 15 = true → s.sp.busy = true →
    (v.getLsbD 14 = false →
      ∃ t u, exec (.deepRead v) s = .next t ∧ exec (.peek 0x0A) s = .next u ∧ t = { u with sp.last := 3 }) ∧
    (v.getLsbD 14 = true →
      ∃ t u, exec (.deepWrite v) s = .next t ∧ exec (.peek 0x0A) s = .next u ∧ t = { u with sp.last := 3 })) ∧
  (∀ (v : Half) (s : State), s.spTakes = true → v.getLsbD 15 = true → v.getLsbD 14 = true → s.sp.busy = false →
    s.keyIn = false →
    ∃ t u, exec (.deepWrite v) s = .next t ∧ exec (.peek 0x0A) s = .next u ∧ t = { u with sp.last := 5 }) ∧
  (∀ s : State, s.spTakes = true → s.sp.busy = false → s.sp.dctl.getLsbD 11 = true → s.sp.dctl.getLsbD 14 = false →
    ∃ t u, exec (.autoIncrement none) s = .next t ∧ exec (.peek 0x09) s = .next u ∧
      t = { u with
        sp.daddr := s.sp.daddr + BitVec.ofNat 32 (sizeBytes (fld s.sp.dctl 12 2))
        sp.busy := true, sp.done := false, sp.err := 0 }) ∧
  (∀ (v : Half) (s : State), s.spTakes = true → s.sp.busy = false → s.sp.dctl.getLsbD 11 = true →
    s.sp.dctl.getLsbD 14 = true →
    (s.keyIn = true → ∃ t u, exec (.autoIncrement (some v)) s = .next t ∧ exec (.peek 0x09) s = .next u ∧
      t = { u with
        sp.ddata := (s.sp.ddata &&& 0x0000FFFF) ||| (v.setWidth 32 <<< 16)
        sp.daddr := s.sp.daddr + BitVec.ofNat 32 (sizeBytes (fld s.sp.dctl 12 2))
        sp.busy := true, sp.done := false, sp.err := 0 }) ∧
    (s.keyIn = false → ∃ t u, exec (.autoIncrement (some v)) s = .next t ∧ exec (.peek 0x09) s = .next u ∧
      t = { u with sp.last := 5 })) ∧
  (∀ s : State, s.spTakes = true → s.sp.busy = true →
    (∀ v, ∃ t u, exec (.autoIncrement (some v)) s = .next t ∧ exec (.peek 0x09) s = .next u ∧
      t = { u with sp.last := 3 })) ∧
  (∀ s : State, s.sp.busy = true → fld s.sp.dctl 12 2 = 2 → s.sp.daddr.toNat % 4 = 0 → s.sp.dctl.getLsbD 14 = false →
    s.sp.dctl.getLsbD 10 = true → s.readErr .service s.sp.daddr.toNat 0xF = none →
    exec .deepAccessDone s = .next { s with
      sp.ddata := s.busPeek .service s.sp.daddr.toNat 0xF
      sp.busy := false, sp.done := true, sp.count := s.sp.count + 1, free := s.free + 1 }) ∧
  (∀ s : State, s.sp.busy = true → s.sp.dctl.getLsbD 14 = true → s.deepSize ≠ 3 →
    s.sp.daddr.toNat % sizeBytes s.deepSize = 0 →
    let a := s.sp.daddr.toNat / 4 * 4
    let be := accessLanes s.sp.daddr.toNat (sizeBytes s.deepSize)
    let v := s.sp.ddata <<< (8 * (s.sp.daddr.toNat % 4))
    let t := s.write .service a be v
    exec .deepAccessDone s = .next (match s.writeFails .service a be v with
      | none => { t with sp.busy := false, sp.done := true, sp.count := t.sp.count + 1 }
      | some e => { t with sp.busy := false, sp.done := true, sp.count := t.sp.count + 1, sp.err := errCode e })) ∧
  (∀ s : State, s.sp.busy = true → s.deepSize = 3 ∨ s.sp.daddr.toNat % sizeBytes s.deepSize ≠ 0 →
    exec .deepAccessDone s = .next { s with
      sp.busy := false, sp.done := true, sp.count := s.sp.count + 1, sp.err := 1 }) ∧
  (∀ s : State, s.sp.busy = true →
    exec .deepAccessTimeout s = .next { s with sp.busy := false, sp.done := true, sp.err := 3 })

/-- Walk mode and the Gauge (02 R59 to R65) and the warm reset of SP_CTL (03 R80). -/
def Obligations.WalkServes : Prop :=
  (∀ (v : Half) (s : State), s.spTakes = true → v.getLsbD 15 = true → v.getLsbD 14 = false → s.keyIn = true →
    s.sp.walk = false → s.sp.walkEntering = false → s.walkAllowed = true →
    ∃ t u, exec (.walkEntry v) s = .next t ∧ exec (.peek 0x0C) s = .next u ∧
      t = State.walkEnter { u with sp.until_ := BitVec.ofNat 3 (fld v 8 3) } ∧ t.sp.walkEntering = true ∧
      t.sp.walk = false ∧ t.wlv.hbRuns = false) ∧
  (∀ (v : Half) (s : State), s.spTakes = true → v.getLsbD 15 = true → v.getLsbD 14 = false → s.sp.walk = false →
    s.sp.walkEntering = false → (s.keyIn && s.walkAllowed) = false →
    ∃ t u, exec (.walkEntry v) s = .next t ∧ exec (.peek 0x0C) s = .next u ∧ t = { u with sp.last := 3 }) ∧
  (∀ s : State, s.sp.walkEntering = true →
    ∃ t, exec .walkEntryComplete s = .next t ∧ t.sp.walk = true ∧ t.sp.walkEntering = false ∧ t.sp.trace7 = 0 ∧
      t.tre.sync = .free) ∧
  (∀ (v : Half) (s : State), s.spTakes = true → v.getLsbD 15 = true → v.getLsbD 14 = true → s.keyIn = true →
    s.sp.walk = true → s.sp.pend = false →
    ∃ t u, exec (.step v) s = .next t ∧ exec (.peek 0x0C) s = .next u ∧
      t = { u with sp.pend := true, sp.met := false, sp.until_ := BitVec.ofNat 3 (fld v 8 3) }) ∧
  (∀ (clocks : Nat) (met : Bool) (s : State), s.sp.walk = true → s.sp.pend = true → s.itn.at_ = none →
    clocks = max 1 s.sp.walkSteps.toNat ∨ clocks < max 1 s.sp.walkSteps.toNat ∧
      ((s.sp.met = true ∧ (s.sp.until_ = 2 ∨ s.sp.until_ = 4)) ∨ (met = true ∧ (s.sp.until_ = 1 ∨ s.sp.until_ = 3))) →
    ∃ t, exec (.walkStepEnd clocks met) s = .next t ∧ t.sp.pend = false ∧ t.sp.met = false ∧
      t.sp.trace7 = s.sp.trace7 + 1 ∧
      t.tre = { s.tre with time := s.tre.time + BitVec.ofNat 64 (5 * clocks) } ∧ t.mem = s.mem ∧ t.regs = s.regs ∧
      t.ctl = s.ctl ∧ t.lane = s.lane) ∧
  (∀ (clocks : Nat) (met : Bool) (i : Nat) (s : State), s.sp.walk = true → s.sp.pend = true → s.sp.met = false →
    s.itn.at_ = some i → (met = true ∨ s.sp.until_ ≠ 2) →
    let p := s.passGo State.serve
    clocks = max 1 s.sp.walkSteps.toNat ∨ clocks < max 1 s.sp.walkSteps.toNat ∧ p.sp.met = true ∧ s.sp.until_ = 2 →
    exec (.walkStepEnd clocks met) s = .next (State.gaugeConvert { p with
      sp.pend := false, sp.met := false, sp.trace7 := p.sp.trace7 + 1
      tre.time := p.tre.time + BitVec.ofNat 64 (5 * clocks) })) ∧
  (∀ (v : Half) (s : State), s.spTakes = true → v.getLsbD 15 = false → s.keyIn = true → s.sp.walk = true →
    ∃ t u, exec (.walkExit v) s = .next t ∧ exec (.peek 0x0C) s = .next u ∧
      t = (u.fbQueue (u.fbRec 5 0 (s.sp.trace7.setWidth 64))).warmReset) ∧
  (∀ (v : Half) (s : State), s.spTakes = true → v.getLsbD 15 = true → s.keyIn = true →
    ∃ t u, exec (.wrst v) s = .next t ∧ exec (.peek 0x05) s = .next u ∧ t = (u.gaugeHold v).resetOrWait false) ∧
  (∀ s : State, s.sp.walk = false →
    exec .gaugeConversion s = .next { s with
      sp.gaugeConv := vmk 0 fun g => s.gaugeSource (s.gaugeQty g) (s.gaugeArg g), free := s.free + 1 }) ∧
  (∀ (c : Instr) (s : State), coreBound c = true → s.sp.walk = true → s.sp.pend = false → exec c s = .next s) ∧
  (∀ (c : Entry → Instr) (b : Blk) (e : Entry) (s : State), BlockCommand c b → s.sp.walk = true → s.sp.pend = false →
    exec (c e) s = .next s)

/-- Resets (03 R69, R77 to R81; 15 R405): cause, hold, what survives and what does not. -/
def Obligations.ResetsAct : Prop :=
  let cleared (t s : State) : Prop :=
    t.regs = [] ∧ t.evt = State.reset.evt ∧ t.cnt = State.reset.cnt ∧
      t.sp = { State.reset.sp with lost := s.sp.open_ || s.sp.lost } ∧ t.sp.last = 7 ∧ t.svy.epoch = 0 ∧
      t.svy.state = .idle ∧ t.ctl.pstate = .none ∧ t.boot.keys = s.boot.keys ∧ t.mem.wear = s.mem.wear ∧
      t.fbk.retired = s.fbk.retired ∧ t.svy.uid = s.svy.uid
  let lost (t s : State) : Prop := t.fbk.queue = [] ∧ ∀ x, t.byte x = if x < 0x400000 then s.byte x else 0
  let kept (t s : State) : Prop := t.fbk.queue = s.fbk.queue ∧ t.mem.cells = s.mem.cells
  (∀ (mv : Nat) (s : State), s.sys.heldCause = 0 →
    ∃ t, exec (.powerOn mv) s = .next t ∧ t.sys.rstcause = ((s.sys.rstcause &&& 0xC0) ||| 1) ∧
      t.sys.phase = .powerUp ∧ cleared t s ∧ lost t s) ∧
  (∀ s : State,
    ∃ t, exec .brownOut s = .next t ∧ t.sys.rstcause = ((s.sys.rstcause &&& 0xC0) ||| 4) ∧
      t.sys.phase = .powerUp ∧ t.sys.heldCause = 1 ∧ cleared t s ∧ lost t s) ∧
  (∀ s : State, s.sys.phase ≠ .powerUp →
    ∃ t, exec .coreLow s = .next t ∧ t.sys.rstcause = ((s.sys.rstcause &&& 0xC0) ||| 8) ∧
      t.sys.phase = .powerUp ∧ t.sys.heldCause = 2 ∧ cleared t s ∧ lost t s) ∧
  (∀ (lowNs : Nat) (s : State), 1000 ≤ lowNs → s.up = true → s.sys.vehState ≠ .save →
    ∃ t, exec (.pinReset lowNs) s = .next t ∧
      t.sys.rstcause = (s.sys.rstcause ||| if s.sys.clkWaiting = true then 0x22 else 2) ∧ t.sys.phase = .pinHeld ∧
      t.sys.resetN = false ∧ cleared t s ∧ kept t s) ∧
  (∀ (lowNs : Nat) (s : State), lowNs < 100 → exec (.pinReset lowNs) s = .next s) ∧
  (∀ s : State, s.up = true → s.sys.vehState ≠ .save →
    ∃ t, exec .testHigh s = .next t ∧
      t.sys.rstcause = (s.sys.rstcause ||| if s.sys.clkWaiting = true then 0x22 else 2) ∧ t.sys.phase = .pinHeld ∧
      t.sys.test = true ∧ cleared t s ∧ kept t s) ∧
  (∀ s : State, s.holdOver = true →
    ∃ t, exec .holdResume s = .next t ∧
      t.sys.rstcause = (s.sys.rstcause ||| if s.sys.clkWaiting = true then 0x20 else 0x10) ∧
      t.sys.phase = (if s.sys.clkWaiting = true then .powerUp else .warmHeld) ∧
      t.sys.spFault = (if s.sys.clkWaiting = true ∨ s.sys.clkFault = true then s.sys.spFault else 0) ∧
      cleared t s ∧ kept t s)

/-- Releases from reset and the clocks (03 R69, R73, R78 to R80, R84, R85; 08 R245). -/
def Obligations.ReleasesAct : Prop :=
  (∀ s : State, s.sys.clkFault = false → s.release =
    (let t : State := { s with
      sys.phase := .running, sys.cabdb := s.sys.cabAct, sys.heldCause := 0, sys.xok := true, sys.pllok := true
      sys.vehOff := decide (s.sys.straps.vrange = 3), wlv.hbRuns := true }
    let u := t.strapRegs.raise 0
    (u.fbQueue (u.fbRec 3 0 (BitVec.ofNat 64
      (u.sys.rstcause.toNat + u.sys.faultBefore.toNat * 2 ^ 32)))).wlvSync.bootRom)) ∧
  (∀ s : State, s.sys.clkFault = true →
    s.release = { s with sys.phase := .clockLost, sys.cabdb := s.sys.cabAct }) ∧
  (∀ (x : Straps) (s : State), s.sys.phase = .powerUp → s.sys.resetN = true → s.sys.test = false →
    exec (.powerUpComplete x) s = .next (State.release { s with sys.refok := true, sys.straps := x })) ∧
  (∀ (x : Straps) (s : State), s.sys.phase = .powerUp → s.sys.resetN = false →
    exec (.powerUpComplete x) s = .next { s with sys.refok := true, sys.straps := x, sys.phase := .pinHeld }) ∧
  (∀ (x : Straps) (s : State), s.sys.phase = .pinHeld →
    exec (.pinResetRelease x) s = .next (State.release { s with
      sys.resetN := true, sys.test := false, sys.straps := x })) ∧
  (∀ s : State, s.sys.phase = .warmHeld → exec .warmResetRelease s = .next s.release) ∧
  (∀ s : State, s.up = true → s.sys.clkFault = false → s.pfail = false →
    ∃ t, exec .clockFault s = .next t ∧ t.sys.phase = .clockLost ∧ t.sys.clkFault = true ∧ t.sys.xok = false ∧
      t.sys.pllok = false ∧ t.cwy.waiting = none ∧ t.hintPin = .released ∧
      t.waitPin = .released ∧ t.alertPin = .released ∧ t.ownOutPin = .released ∧ t.ledHb = .released ∧
      t.ledRing = .released ∧ t.ledOwn = .released ∧ t.laneDePin = .low ∧ (∀ p, t.txenPin p = .low) ∧
      (∀ b, t.trapPin b ≠ .high) ∧ (∀ g, t.gaugeUv g = 0) ∧
        t.sys.spFault = if s.sys.spFault = 0 then 0x0301 else s.sys.spFault) ∧
  (∀ (x : Straps) (s : State), s.sys.clkFault = true → s.pfail = false →
    exec (.clockRecovery x) s = .next (State.releaseOrHold x (s.resetWith false true 0x20 .powerUp))) ∧
  (∀ s : State, s.sys.refok = true →
    ∃ t, exec .refClkLoss s = .next t ∧ t.sys.refok = false ∧ (∀ e, (t.eth.ports.get e).up = false) ∧
      (∀ e, (t.eth.ports.get e).sending = none) ∧ t.evt.raw = setBit s.evt.raw 8) ∧
  (∀ s : State, ∃ t, exec .refClkReturn s = .next t ∧ t.sys.refok = true ∧
    t = State.each { s with sys.refok := true } (fins 2) State.ethKick) ∧
  (∀ (level : Bool) (s : State), exec (.cabActChange level) s = .next { s with sys.cabAct := level }) ∧
  (∀ s : State, s.coreRuns = true → s.up = true → s.sys.cabAct = false → s.sys.cabdb = true →
    exec .cabdbChange s = .next (State.raise 10 { s with sys.cabdb := false })) ∧
  (∀ s : State, s.coreRuns = true → s.up = true → s.sys.cabAct = true → s.sys.cabdb = false → s.svy.chain ≠ 1 →
    exec .cabdbChange s = .next (State.svyTrigger 4 (State.raise 10 { s with sys.cabdb := true })))

/-- The vehicle-supply monitor and the power-fail save (03 R86 to R95), and the warnings (03 R77; 17 R451). -/
def Obligations.SupplyServes : Prop :=
  let detected (t s : State) : Prop :=
    t.sys.vehState = .save ∧ t.stateCode = 14 ∧ t.pfail = true ∧ t.evt.raw.getLsbD 3 = true ∧ t.sp.walk = false ∧
      t.wlv.hbRuns = false ∧ t.ownOutPin = .released ∧ t.laneDePin = .low ∧ t.progBusy = false ∧
      ∃ x : State, t = x.flashAbandon.saveWrite ∧ x.ctl.retained = s.ctl.retained ∧ x.fbk.restored = s.fbk.restored ∧
        s.fbk.queue <+: x.fbk.queue
  (∀ (mv a b : Nat) (vio : Vector Half 4) (temp : Half) (s : State), s.up = true → s.vehNone = false →
    s.sys.vehState = .normal → s.sys.nLow = 3 → pinAtLeast (min 1200 mv) s.vehPct.1 = false →
    ∃ t, exec (.vehSample mv a b vio temp) s = .next t ∧ t.sys.vehState = .ride ∧ t.evt.raw = setBit s.evt.raw 1 ∧
      t.sys.senseMv = BitVec.ofNat 16 (min 1200 mv) ∧ t.sys.vsupMv = BitVec.ofNat 16 (min 65535 a) ∧
      t.sys.vcoreMv = BitVec.ofNat 16 (min 65535 b) ∧ t.sys.vioMv = vio ∧ t.sys.temp = temp ∧ t.sys.vehOff = false) ∧
  (∀ (mv a b : Nat) (vio : Vector Half 4) (temp : Half) (s : State), s.up = true → s.vehNone = true →
    ∃ t, exec (.vehSample mv a b vio temp) s = .next t ∧ t.sys.vehOff = true ∧ t.sys.temp = temp ∧
      t.sys.vehState = (if s.sys.vehState = .ride ∨ s.sys.vehState = .high then .normal else s.sys.vehState)) ∧
  (∀ s : State, s.sys.vehOff = true → exec .classTimeExpiry s = .next s) ∧
  (∀ s : State, s.sys.vehState = .ride → s.up = true → s.sys.vehOff = false →
    ∃ t, exec .classTimeExpiry s = .next t ∧ detected t s) ∧
  (∀ s : State, s.pfail = false → s.up = true →
    ∃ t, exec .vsupPowerFail s = .next t ∧ t.sys.vsupMv.toNat < 1660 ∧ detected t s) ∧
  (∀ (b : Bool) (s : State), s.saveSlot = some b →
    s.saveWrite.bytesAt (saveBase b) s.saveImage.length = s.saveImage ∧ s.saveWrite.mem.saving = some (some b) ∧
    s.saveWrite.bytesAt (saveBase b + 0x1FFC) 4 = [0xFF, 0xFF, 0xFF, 0xFF] ∧
    s.saveImage.drop 32 = s.retData.2 ++ (s.fbk.restored.take (32 - s.fbk.queue.length) ++ s.fbk.queue.take 32).flatMap FbRec.saved) ∧
  (∀ (b : Bool) (s : State), s.sys.vehState = .save → s.sys.resetWaiting = 0 → s.mem.saving = some (some b) →
    exec .saveDone s = .next { State.flashAndBytes (saveBase b + 0x1FFC) [0, 0, 0, 0] s with
      sys := { s.sys with vehState := .hold, resetWaiting := 0, rstcause := setBit s.sys.rstcause 6 }
      mem.saving := none }) ∧
  (∀ s : State, s.sys.vehState = .save → s.sys.resetWaiting = 0 → s.mem.saving = some none →
    exec .saveDone s = .next { s with mem.saving := none, sys.vehState := .hold, sys.resetWaiting := 0 }) ∧
  (∀ (mv : Nat) (s : State), mv < 1750 → s.up = true →
    exec (.vsupLowWarning mv) s = .next (State.raise 6 { s with sys.vsupMv := BitVec.ofNat 16 mv })) ∧
  (∀ (h : Half) (s : State), 230 < h.toInt → s.up = true →
    exec (.tempWarning h) s = .next (State.raise 9 { s with sys.temp := h }))

/-- The line ports (04 R128 to R135): each command's whole next state. -/
def Obligations.PortsServe : Prop :=
  (∀ (p : Fin 4) (lvl : Byte) (s : State), s.portUp p = true → s.suspended p = false →
    (s.port p).state = .silent →
    exec (.portCarrier p lvl) s = .next (((s.levelHeard p s.tre.time lvl).modPort p fun c => { c with
      busyTo := some s.tre.time, state := .carrier, kept := false }).raise (32 + p.val))) ∧
  (∀ (p : Fin 4) (s : State), s.portUp p = true → (s.port p).state = .locked →
    exec (.portLockLost p) s = .next ((s.modPort p fun c => { c with state := .carrier, kept := false }).raise (32 + p.val))) ∧
  (∀ (p : Fin 4) (lvl : Byte) (s : State), s.portUp p = true → s.suspended p = false → s.heldLow p = true →
    (s.port p).state = .carrier ∨ (s.port p).state = .locked →
    exec (.portSilent p lvl) s = .next ((s.modPort p fun c => { c with
      rxlvl := lvl, levels := [], state := .silent, jam := false, kept := false }).raise (32 + p.val))) ∧
  (∀ (p : Fin 4) (lvl : Byte) (s : State), s.suspended p = true →
    exec (.portCarrier p lvl) s = .next s ∧ exec (.portSilent p lvl) s = .next s ∧ exec (.portJam p) s = .next s ∧
      exec (.portDead p) s = .next s) ∧
  (∀ (p : Fin 4) (s : State), s.portUp p = true → s.suspended p = false → (s.pcfg p).getLsbD 12 = true →
    (s.port p).jam = false →
    (s.port p).state = .carrier ∨ (s.port p).state = .locked →
    exec (.portJam p) s = .next ((s.modPort p fun c => { c with jam := true }).raise (44 + p.val))) ∧
  (∀ (p : Fin 4) (s : State), s.portUp p = true → s.suspended p = false → (s.port p).jam = true →
    (s.port p).state = .carrier →
    exec (.portDead p) s = .next (((s.modPort p fun c => { c with
      txEnd := none, state := .dead, kept := false }).raise (32 + p.val)).raise (36 + p.val))) ∧
  (∀ (p : Fin 4) (s : State), s.portUp p = true → (s.port p).state = .dead →
    exec (.portClear p) s = .next
      ((s.modPort p fun c => { c with state := .silent, jam := false, kept := false }).raise (32 + p.val))) ∧
  (∀ (p : Fin 4) (n : Fin 8) (freq : BitVec 24) (s : State), s.portUp p = true → (s.pcfg p).getLsbD 13 = true →
    nearCarrier freq = false → betweenCarriers freq = true → s.notchOf p freq = none →
    (s.port p).notches.get n = none → (∀ k : Fin 8, k < n → ((s.port p).notches.get k).isSome = true) →
    exec (.notchPlace p freq) s = .next
      (s.modPort p fun c => { c with notches := c.notches.set n (some (freq, s.tre.time)) })) ∧
  (∀ (p : Fin 4) (n : Fin 8) (freq : BitVec 24) (s : State), s.portUp p = true → (s.pcfg p).getLsbD 13 = true →
    nearCarrier freq = false → betweenCarriers freq = true → s.notchOf p freq = some n →
    exec (.notchPlace p freq) s = .next
      (s.modPort p fun c => { c with notches := c.notches.set n (some (freq, s.tre.time)) })) ∧
  (∀ (p : Fin 4) (freq : BitVec 24) (s : State), s.portUp p = true → (s.pcfg p).getLsbD 13 = true →
    nearCarrier freq = false → betweenCarriers freq = true → s.notchOf p freq = none →
      (∀ k : Fin 8, ((s.port p).notches.get k).isSome = true) →
    exec (.notchPlace p freq) s = .next (s.raise (48 + p.val))) ∧
  (∀ (p : Fin 4) (freq : BitVec 24) (s : State), nearCarrier freq = true ∨ betweenCarriers freq = false →
    exec (.notchPlace p freq) s = .next s) ∧
  (∀ (p : Fin 4) (n : Fin 8) (s : State),
    exec (.notchRelease p n) s = .next (s.modPort p fun c => { c with notches := c.notches.set n none })) ∧
  (∀ (m : Master) (p : Fin 4) (s : State),
    (s.accesses m false (Reg.LIU_TSRX_L + 0x1000 * p.val) = true →
      exec (.timestampRead m (BitVec.ofNat 32 (Reg.LIU_TSRX_L + 0x1000 * p.val))) s = .next
        ((s.modPort p fun c => { c with tsrxSh := some (hi32 c.tsrx) }).emit (.answer m (lo32 (s.port p).tsrx)))) ∧
    (s.accesses m false (Reg.LIU_TSTX_L + 0x1000 * p.val) = true →
      exec (.timestampRead m (BitVec.ofNat 32 (Reg.LIU_TSTX_L + 0x1000 * p.val))) s = .next
        ((s.modPort p fun c => { c with tstxSh := some (hi32 c.tstx) }).emit (.answer m (lo32 (s.port p).tstx)))) ∧
    (s.accesses m false Reg.TRE_TIME_L = true →
      exec (.timestampRead m (BitVec.ofNat 32 Reg.TRE_TIME_L)) s = .next
        ({ s with tre.timeSh := some (hi32 s.tre.time) }.emit (.answer m (lo32 s.tre.time)))) ∧
    (s.accesses m false Reg.ITN_LTIME_L = true →
      exec (.timestampRead m (BitVec.ofNat 32 Reg.ITN_LTIME_L)) s = .next
        ({ s with ctl.ltimeSh := some (hi32 s.ctl.ltime) }.emit (.answer m (lo32 s.ctl.ltime))))) ∧
  (∀ (m : Master) (a : Word) (s : State), s.accesses m false a.toNat = true → tsWord a.toNat = false →
    exec (.timestampRead m a) s = .next (s.accFault m false a.toNat)) ∧
  (∀ (p : Fin 4) (s : State), s.regBit Reg.LIU_CTL p.val = false → (s.port p).enabled = true →
    s.txBusy p = false → (s.port p).state ≠ .silent → (s.port p).busyTo = none →
    exec (.portDisable p) s = .next ((s.modPort p fun c => { c with
      enabled := false, jam := false, snrSum := [], snrCount := 0, txact := false, txEnd := none, state := .silent
      kept := false }).raise (32 + p.val))) ∧
  (∀ (p : Fin 4) (t : Dword) (s : State), s.regBit Reg.LIU_CTL p.val = false → (s.port p).enabled = true →
    s.txBusy p = false → (s.port p).state ≠ .silent → (s.port p).busyTo = some t → s.before t = true →
    exec (.portDisable p) s = .next
      ((((s.modPort p fun c => { c with busyTo := some s.tre.time }).count1 p.val 37).modPort p fun c => { c with
        enabled := false, jam := false, snrSum := [], snrCount := 0, txact := false, txEnd := none, state := .silent
        kept := false }).raise (32 + p.val))) ∧
  (∀ (p : Fin 4) (s : State), s.txBusy p = true → exec (.portDisable p) s = .next s)

/-- Agreeing the tone maps (04 R119 to R122): the commands of the node's own timers, each with its next state. -/
def Obligations.ToneMapsServe : Prop :=
  (∀ (p : Fin 4) (s : State), s.suspended p = true → exec (.snrEvaluation p) s = .next s) ∧
  (∀ (p : Fin 4) (s : State), s.windowRoom [p] announceLen = false → s.announceAgain p = s) ∧
  (∀ (p : Fin 4) (s : State), s.isCoupler p = true → s.suspended p = false → s.reportDue p = true →
    (∀ t, (s.port p).lastReport = some t → 100000000 ≤ (s.tre.time - t).toNat) →
    exec (.snrEvaluation p) s = .next
      ((s.modPort p fun c => { c with lastReport := some s.tre.time }).sendReport p)) ∧
  (∀ (p : Fin 4) (s : State), s.isCoupler p = true → s.keeper p = false →
    exec (.snrReportPeriodic p) s = .next
      (s.sendLocal p false (s.keeperNid p) 0 (toneMsg 1 p.val 0 (snrBytes (s.snrOf p))))) ∧
  (∀ (p : Fin 4) (s : State), s.isCoupler p = true → s.keeper p = true →
    exec (.snrReportPeriodic p) s = .next (s.segBuild p)) ∧
  (∀ (p : Fin 4) (tmi : BitVec 4) (act : Word) (s : State), (s.port p).nextMap = some (tmi, act) →
    (s.tre.tcount - act).toNat < 0x80000000 → s.keeper p = false →
    exec (.segmentMapActivation p) s = .next
      ((s.modPort p fun c => { c with stmi := tmi, nextMap := none, pending := none }).raise (40 + p.val))) ∧
  (∀ (p : Fin 4) (tmi : BitVec 4) (act : Word) (s : State), (s.port p).nextMap = some (tmi, act) →
    (s.tre.tcount - act).toNat < 0x80000000 → s.keeper p = true →
    exec (.segmentMapActivation p) s = .next
      ((((s.modPort p fun c => { c with stmi := tmi, nextMap := none, pending := none }).raise (40 + p.val)).sendSummary p).segBuild
        p)) ∧
  (∀ (p : Fin 4) (m : PendingMap) (s : State), (s.port p).pending = some m → m.act = none → 8 ≤ m.sent →
    exec (.segmentMapAbandon p) s = .next (((s.modPort p fun c => { c with pending := none }).raise 56).segBuild p)) ∧
  (∀ (m : PendingMap) (s : State), s.liu.pending = some m → s.sys.netrole = .benchmark → s.ringAllAcked m = true →
    exec .ringMapActivation s = .next (State.raise 52 { s with liu.rtmi := m.tmi, liu.pending := none }).ringBuild) ∧
  (∀ (m : PendingMap) (s : State), s.liu.pending = some m → s.sys.netrole = .benchmark → 8 ≤ m.sent →
    s.ringAllAcked m = false →
    exec .ringMapAbandon s = .next (State.raise 53 { s with liu.pending := none }).ringBuild)

/-- Reception of survey frames (05 R139 to R161). -/
def Obligations.SurveyReceives : Prop :=
  ∀ (c : RxFrame → Instr) (kind : Nat) (act : RxFrame → SHdr → State → State), SurveyCommand c kind act →
    ∀ (f : RxFrame) (s : State),
    let h := SHdr.parse f.body
    (s.rxClass f = .good → fcType f.fc ≠ .survey ∨ h.kind ≠ kind → exec (c f) s = .next s) ∧
    (s.rxClass f = .good → fcType f.fc = .survey → h.kind = kind → 16 ≤ f.body.length →
      (s.svy.dupunit = true → exec (c f) s = .next (s.rxFx f)) ∧
      (s.svy.dupunit = false → s.svyIs h = false ∨ h.win = 0 ∨ h.winrem = 0 →
        exec (c f) s = .next (act f h (s.rxFx f))) ∧
      (s.svy.dupunit = false → s.svyIs h = true → h.win ≠ 0 → h.winrem ≠ 0 →
        exec (c f) s = .next (act f h { s.rxFx f with
          svy.window := some (BitVec.ofNat 64 (s.tsrxOf f + 1000 * h.winrem), h.win, h.tper) })))

/-- The effects of survey frames (05 R140 to R157), to be read with SurveyReceives. -/
def Obligations.SurveyActs : Prop :=
  (∀ (f : RxFrame) (h : SHdr) (s : State), s.svy.current = none → s.outward.contains f.port = true →
    s.svyForeign h = true → onBeacon f h s = s.svyTrigger 1) ∧
  (∀ (f : RxFrame) (h : SHdr) (c : BitVec 2 × Word) (s : State), s.svy.current = some c → svyOutranks c h.key = true →
    onBeacon f h s = s) ∧
  (∀ (f : RxFrame) (h : SHdr) (s : State), s.hasEpoch = true → h.oldep = s.svy.epoch → s.sys.netrole = .benchmark →
    s.svy.state = .idle → onRequest f h s = s.svySettle (some ((byteAt f.body 16).setWidth 4))) ∧
  (∀ (f : RxFrame) (h : SHdr) (s : State), s.hasEpoch = true → h.oldep = s.svy.epoch → s.sys.netrole ≠ .benchmark →
    s.sys.thru = true → s.tre.bench.toNat / 2 + 1 < s.car → f.port = farEnd s.retOut →
    onRequest f h s = s.svySend s.retOut 0 f.body) ∧
  (∀ (f : RxFrame) (h : SHdr) (s : State), s.hasEpoch = true → h.oldep = s.svy.epoch → s.sys.netrole ≠ .benchmark →
    s.sys.thru = true → s.car < s.tre.bench.toNat / 2 + 1 → f.port = farEnd s.retIn →
    onRequest f h s = s.svySend s.retIn 0 f.body) ∧
  (∀ (f : RxFrame) (h : SHdr) (x : SvyHold) (t1 : Dword) (s : State), s.svyIs h = true → s.svy.hold = some x →
    x.t1 = some t1 → x.port = f.port →
    onReport f h s = { s with svy.hold := some (if (byteAt f.body 20).getLsbD 7
      then { x with repB := some (Report.parse f.body, BitVec.ofNat 32 (s.tsrxOf f - t1.toNat)) }
      else { x with repA := some (Report.parse f.body, BitVec.ofNat 32 (s.tsrxOf f - t1.toNat)) }) }) ∧
  (∀ (f : RxFrame) (h : SHdr) (x : SvyRecv) (s : State), s.svyIs h = true → s.svy.recv = some x → x.port = f.port →
    h.coll = true → (if s.unitB then beAt f.body 20 4 else beAt f.body 16 4) = 0 → s.svy.colls < 2 →
    onPass f h s = { s with svy.colls := s.svy.colls + 1 }) ∧
  (∀ (f : RxFrame) (h : SHdr) (x : SvyRecv) (s : State), s.svyIs h = true → s.svy.recv = some x → x.port = f.port →
    h.coll = true → (if s.unitB then beAt f.body 20 4 else beAt f.body 16 4) = 0 → 2 ≤ s.svy.colls →
    onPass f h s = s.svyDup) ∧
  (∀ (f : RxFrame) (h : SHdr) (x : SvyRecv) (s : State), s.svyIs h = true → s.svy.recv = some x → x.port = f.port →
    h.coll = false → x.seek = true →
    (s.unitB = true → beAt f.body 16 4 ≠ 0 → s.unitAMuted = false →
      onPass f h s = { s with svy.recv := none, svy.walk := some ⟨h.count + 1, x.port, farEnd x.port,
        if beAt f.body 20 4 = 0 then 0 else (beAt f.body 20 4 - x.turn.toNat + 1) / 2, false, false⟩ }) ∧
    (s.unitB = false → s.unitAMuted = true → beAt f.body 20 4 ≠ 0 →
      onPass f h s = { s with svy.recv := none, svy.walk := some ⟨h.count + 1, x.port, farEnd x.port,
        if beAt f.body 16 4 = 0 then 0 else (beAt f.body 16 4 - x.turn.toNat + 1) / 2, false, false⟩ })) ∧
  (∀ s : State, s.svyDup.svy.dupunit = true ∧ s.svyDup.svy.nid = none ∧ s.svyDup.svy.epoch = 0 ∧
    s.svyDup.svy.state = .idle ∧ s.svyDup.svy.current = none ∧ s.svyDup.sys.netrole = .isolated ∧
    s.svyDup.sys.thru = false ∧ s.svyDup.evt.raw.getLsbD 75 = true) ∧
  (∀ (f : RxFrame) (h : SHdr) (w : SvyWalk) (r : SvyResult) (s : State), s.svyIs h = true → s.svy.walk = some w →
    w.inn = f.port → s.svy.surveyor = false → s.svy.state ≠ .cutwait → s.svyResultOf f h w = some r →
    onResult f h s = if w.thru = false then s.svyStored r
      else if w.tail then ((s.svyStored r).svyConfirmSend w (svyCarBits r (s.svyStored r).drawBool)).took
      else (s.svyStored r).svySend w.out 0 (svyPassOn w f.body)) ∧
  (∀ (r : SvyResult) (s : State), (s.svyStored r).svy.result = some r ∧ (s.svyStored r).svy.state = .cutwait ∧
    (s.svyStored r).evt.raw = setBit s.evt.raw 71) ∧
  (∀ (f : RxFrame) (h : SHdr) (w : SvyWalk) (s : State), s.svyIs h = true → s.svy.walk = some w →
    sideB w.out = f.port → s.svy.surveyor = true →
    onConfirm f h s = { s with svy.confirm := s.svy.confirm ||| BitVec.ofNat 64 (beAt f.body 16 8) }) ∧
  (∀ (f : RxFrame) (h : SHdr) (w : SvyWalk) (s : State), s.svyIs h = true → s.svy.walk = some w → w.inn = f.port →
    s.svy.surveyor = false → w.thru = false → onAbort f h s = (s.raise 66).svyIdle)

/-- The survey's own commands (05 R140 to R164). -/
def Obligations.SurveyServes : Prop :=
  (∀ (p : Fin 4) (s : State), s.hasEpoch = true → s.sys.thru = true → s.svy.dupunit = false →
    s.outward.contains p = true → s.coreRuns = true →
    exec (.beaconTimer p) s = .next (s.svySend p 0 (s.svyHdr 10 false 0).bytes)) ∧
  (∀ s : State, s.coreRuns = true → s.svy.state = .settle → s.svy.current = none → s.hasEpoch = false →
    s.carCab = false →
    ∃ t : State, exec .settleExpiry s = .next ({ t with svy.state := .seek }.svyHold t.leadPort true 0) ∧
      t.svy.initiator = true ∧ t.svy.current = some (s.svyPrec, s.svy.uid) ∧ t.svy.attempt = 1 ∧
      t.evt.raw = setBit s.evt.raw 65) ∧
  (∀ (lead : Fin 4) (s : State), s.coreRuns = true → s.svy.state = .settle → s.svy.current.isSome = true →
    s.svy.trigger = none → s.svy.lead = some lead →
    exec .settleExpiry s = .next
      (State.svySurveyor lead { s with svy.attempt := s.svy.attempt + 1, svy.colls := 0 })) ∧
  (∀ (lead : Fin 4) (s : State), ∃ t : State, s.svySurveyor lead = t.svyHold (farEnd lead) false 0 ∧
    t.svy.surveyor = true ∧ t.svy.state = .walk ∧ t.svy.records.length = 1) ∧
  (∀ (x : SvyHold) (w : SvyWalk) (s : State), s.coreRuns = true → s.svy.hold = some x → x.t1.isSome = true →
    x.bypass = false →
    x.repA = none → x.repB = none → x.seek = false → s.svy.surveyor = false → s.svy.walk = some w →
    ∃ t : State, exec (.reportSlotEnd false false) s = .next (t.svySend (sideB w.inn) (t.svyNow (sideB w.inn) + 64000)
        ((t.svyHdr 6 false t.svy.records.length).bytes ++ t.svy.records.flatten)) ∧
      t.svy.walk = some { w with tail := true } ∧ t.svy.hold = none ∧
      t.evt.raw = setBit s.evt.raw 67) ∧
  (∀ (p : Fin 4) (at_ : Nat) (body : List Byte) (s : State), byteAt body 0 = 6 →
    s.svyOut p at_ body = { s.txSurveyAt p at_ body with svy.state := .wait }) ∧
  (∀ (x : SvyHold) (s : State), s.coreRuns = true → s.svy.hold = some x → x.t1.isSome = true → x.bypass = false →
    x.repA = none → x.own = true → 3 ≤ x.sent →
    ∃ t, exec (.reportSlotEnd true false) s = .next t ∧ t.svy.hold = some { x with bypass := true }) ∧
  (∀ (x : SvyHold) (w : SvyWalk) (s : State), s.coreRuns = true → s.svy.hold = some x → x.t1.isSome = true →
    x.bypass = false → x.repA = none → x.repB = none → x.own = true → x.sent < 3 → s.svy.walk = some w →
    ∃ t : State, t = s.svyOut x.port (s.svyNow x.port) ((s.svyHdr 5 true w.idx).bytes ++ List.replicate 8 0) ∧
      exec (.reportSlotEnd true false) s = .next (t.svyHoldSend (t.svyNow x.port + 128000))) ∧
  (∀ (x : SvyHold) (s : State), s.coreRuns = true → s.svy.hold = some x → x.bypass = true → x.seek = true →
    exec .dupBypassWait s = .next
      (({ s with svy.hold := some { x with bypass := false, sent := 0 } } : State).svyHoldSend 0)) ∧
  (∀ s : State, s.svy.hostwait = true → s.svy.state = .decide → s.svy.split.getLsbD 0 = true →
    s.svyChainCars s.svy.decChain = none → exec .svyPublish s = .next (s.raise 70).svyPublishHw) ∧
  (∀ (cars : List (List Byte)) (s : State), s.svy.hostwait = true → s.svy.state = .decide →
    s.svyChainCars (if s.svy.split.getLsbD 0 = true then s.svy.decChain else s.svyHardware.1) = some cars →
    s.svy.split.getLsbD 1 = false ∨ s.svyNidOk cars s.svy.decNid = true →
    ∃ t : State, exec .svyPublish s = .next t ∧
      t = s.svyPublishTabs
        (svyChainFix cars (if s.svy.split.getLsbD 0 = true then s.svy.decChain else s.svyHardware.1))
        (if s.svy.split.getLsbD 1 = true then s.svy.decNid else s.svyElect cars) ∧
      t.svy.hostwait = false ∧ t.evt.raw.getLsbD 70 = s.evt.raw.getLsbD 70) ∧
  (∀ s : State, s.svy.hostwait = false → exec .svyPublish s = .next s) ∧
  (∀ s : State, s.coreRuns = true → s.svy.hostwait = true → s.svy.state = .decide →
    exec .hostDeadline s = .next (s.raise 70).svyPublishHw) ∧
  (∀ s : State, s.coreRuns = true → s.svy.surveyor = true → s.svy.state = .cutwait → s.svyConfirmed = false →
    exec .confirmDeadline s = .next s.svyAbortSend) ∧
  (∀ s : State, s.coreRuns = true → s.svy.surveyor = true → s.svyConfirmCame = false →
    exec .surveyTimeout s = .next s.svyRetry) ∧
  (∀ s : State, s.svy.surveyor = true → s.svyConfirmCame = true → exec .surveyTimeout s = .next s) ∧
  (∀ s : State, s.coreRuns = true → s.svy.surveyor = false → s.svy.state = .seek ∨ s.svy.state = .walk ∨ s.svy.state = .wait →
    exec .surveyTimeout s = .next s.svyIdle) ∧
  (∀ s : State, s.svyAttempts ≤ s.svy.attempt.toNat → s.svyRetry = (s.raise 78).svyIdle) ∧
  (∀ s : State, s.svy.attempt.toNat < s.svyAttempts →
    s.svyRetry.svy.state = .settle ∧ s.svyRetry.svy.current = s.svy.current ∧
      s.svyRetry.svy.lead = s.svy.lead) ∧
  (∀ s : State, exec .svyStart s = .next (s.svyTrigger 6)) ∧
  (∀ (c : BitVec 4) (s : State), c ≠ 4 → s.svy.dupunit = false → s.svy.state = .settle →
    s.svyTrigger c = { State.raise 64 { s with svy.cause := c } with svy.trigger := keepCause s.svy.trigger c }) ∧
  (∀ s : State, exec .svyFull s = .next { s with svy.fullNext := true }) ∧
  (∀ s : State, exec .svyAbort s = .next (if s.svy.surveyor then s.svyAbortSend else s)) ∧
  (∀ s : State, s.svy.deferred = [] → exec .surveyDeferredSend s = .next s) ∧
  (∀ (p : Fin 4) (b : List Byte) (s : State), s.coreRuns = true → s.svy.deferred = [(p, b)] → s.tre.sync = .free →
    s.svyWindow = none → (s.port p).txEnd = none → s.quiet p (s.svyNow p) = true →
    exec .surveyDeferredSend s = .next
      ((({ s with svy.deferred := [] } : State).svyReserve (s.svyNow p) (svyDur b.length + svySlots b)).svyOut p
        (s.svyNow p) b)) ∧
  (∀ s : State, s.coreRuns = true → s.lateComer = true → 3 ≤ s.svy.joins →
    exec .latecomerNoAnswer s = .next (({ s with svy.joins := 0, svy.heres := [] } : State).svyTrigger 5)) ∧
  (∀ (n : Nat) (l : List (Nat × Byte × Byte)) (s : State), s.svy.watch = some (n, l) →
    s.coreRuns = true → 3 ≤ n → s.svy.watchLive = true →
    exec .latecomerCheck s = .next s.svyDup) ∧
  (∀ (n : Nat) (l : List (Nat × Byte × Byte)) (s : State), s.svy.watch = some (n, l) →
    s.coreRuns = true → 3 ≤ n → s.svy.watchLive = false →
    exec .latecomerCheck s = .next { s with svy.watch := none, svy.taken := true }) ∧
  (∀ (r : SvyResult) (elsewhere : Bool) (beside : Option (List Byte)) (s : State), s.coreRuns = true →
    s.svy.state = .cutwait → s.svy.result = some r →
    ∃ t, exec (.surveyCut elsewhere beside) s = .next t ∧
      t.sys.netrole = (if (r.ranks.getD r.nid.toNat 0).getLsbD 6 then .benchmark
        else if (r.ranks.getD r.nid.toNat 0).setWidth 6 ≠ (0 : BitVec 6) then .backup else .member) ∧
          t.svy.nid = some r.nid ∧ t.svy.epoch = r.newep ∧ t.svy.prevep = s.svy.epoch ∧
      t.svy.chain = BitVec.ofNat 6 (r.nid.toNat / 2 + 1) ∧ t.svy.cars = BitVec.ofNat 6 r.cars)

/-- The choice of the new epoch (05 R155). -/
def Obligations.NewEpochFresh : Prop :=
  ∀ recs : List (List Byte), recs.length ≤ 32 →
    svyNewep recs ≠ 0 ∧ ∀ r ∈ recs, recOldep r ≠ (svyNewep recs).toNat

/-- Reception and relay of the Traverse (06 R174 to R199). -/
def Obligations.TraverseReceives : Prop :=
  (∀ (f : RxFrame) (beside : Option (List Byte)) (s : State), s.rxClass f = .good → fcType f.fc ≠ .traverse →
    exec (.traverseReceive f beside) s = .next s) ∧
  (∀ (f : RxFrame) (beside : Option (List Byte)) (s : State),
    s.rxClass f = .nothing ∨ s.rxClass f = .header ∨ s.rxClass f = .noMap →
    exec (.traverseReceive f beside) s = .next (s.rxFx f)) ∧
  (∀ (f : RxFrame) (beside : Option (List Byte)) (s : State), s.rxClass f = .good → fcType f.fc = .traverse →
    s.tre.enabled = false → exec (.traverseReceive f beside) s = .next (s.rxFx f)) ∧
  (∀ (f : RxFrame) (beside : Option (List Byte)) (s : State), s.rxClass f = .good → fcType f.fc = .traverse →
    s.tre.enabled = true → s.hasEpoch = true → hcrcOk f.body = true → (THdr.parse f.body).epoch = s.svy.epoch →
    s.svy.epoch ≠ 0 →
    (mcrc (THdr.parse f.body).epoch (THdr.parse f.body).bench (THdr.parse f.body).tcount
      ((slice f.body 16 60).take 58)).toNat = beAt (slice f.body 16 60) 58 2 →
    exec (.traverseReceive f beside) s = .next (State.latchStep s
      (((s.rxFx f).modPort f.port fun c => { c with heard := true }).trvOwn f beside (THdr.parse f.body)
        (slice f.body 16 60) true true false))) ∧
  (∀ (f : RxFrame) (beside : Option (List Byte)) (bad : Bool) (tc : Word) (s : State), s.sys.thru = true →
    s.sys.turned = false →
    s.trvPass f beside .outIn true bad tc = s.sendPass s.outOut (f.ts + 24000) (fcTmi f.fc) false bad true
      (s.writeSlots tc (s.ofsFor (fcTmi f.fc)) beside
        ({ THdr.parse f.body with
          accdly := (THdr.parse f.body).accdly + BitVec.ofNat 32 (s.tre.hopdly.toNat + fld (s.pcfg f.port) 24 8 + 24000 +
            fld (s.pcfg s.outOut) 16 8), leadin := false }.bytes ++ f.body.drop 16))) ∧
  (∀ (f : RxFrame) (beside : Option (List Byte)) (bad : Bool) (tc : Word) (s : State), s.sys.thru = true →
    s.sys.turned = true →
    let body := s.writeSlots tc (s.ofsFor (fcTmi f.fc)) beside ((THdr.parse f.body).bytes ++ f.body.drop 16)
    s.trvPass f beside .outIn true bad tc =
      ((s.sendPass s.retOut (f.ts + 24000) (fcTmi f.fc) true bad true body).readPass (fcTmi f.fc) s.svy.epoch tc
        body).returned (!bad && decide (tc = s.tre.tcount)) (s.tsrxOf f + 24000)) ∧
  (∀ (f : RxFrame) (beside : Option (List Byte)) (hdrOk bad : Bool) (tc : Word) (s : State), s.sys.thru = false →
    s.trvPass f beside .outIn hdrOk bad tc = s.sendOwn (if s.sys.turned = true then s.retOut else s.outOut) (f.ts + 24000)
      (fcTmi f.fc) f.body.length s.sys.turned tc) ∧
  (∀ (f : RxFrame) (beside : Option (List Byte)) (bad : Bool) (tc : Word) (s : State), f.port ≠ s.retOut →
    let t := (s.readPass (fcTmi f.fc) s.svy.epoch tc f.body).returned (!bad && decide (tc = s.tre.tcount)) (s.tsrxOf f)
    s.trvPass f beside .ret true bad tc = if s.sys.thru = true ∧ s.isHead = false
      then t.sendPass s.retOut (f.ts + 24000) (fcTmi f.fc) true bad false ((THdr.parse f.body).bytes ++ f.body.drop 16)
      else t) ∧
  (∀ (p : Fin 4) (start : Dword) (tmi : Nat) (pass bad : Bool) (body : List Byte) (s : State), s.canSend p = true →
    ∃ t only, s.sendPass p start tmi pass bad true body = t ∧
      (s.tre.cover = false → s.tre.tabok = true → ∀ j, j ∈ only ↔
        j < (8 * body.length + 32 + s.ringNdbps tmi - 1) / s.ringNdbps tmi ∧
          j ∉ s.symbolsOf (s.ringNdbps tmi) (tabOfs (s.ringNdbps tmi) s.tre.table) fun x => s.partnerOwns x.2) ∧
      t.out.getLast? = some (.line p ⟨start, fcBytes .traverse tmi pass body.length, body, bad, s.maskBits, s.heldMap p tmi,
        none, some only, true⟩))

/-- The synchronisation machine (06 Table 6.7, R194, R196). -/
def Obligations.SyncSteps : Prop :=
  (∀ (off : Int) (s : State), s.tre.sync = .free →
    s.syncStep off = { s with tre.sync := .acq, tre.good := 0, tre.bad := 0 }) ∧
  (∀ (off : Int) (s : State), s.tre.sync = .acq ∨ s.tre.sync = .locked → 2000 < off.natAbs →
    (s.syncStep off).tre.sync = .muted ∧ (s.syncStep off).tre.mutes = satSucc s.tre.mutes ∧
      (s.syncStep off).evt.raw = setBit s.evt.raw 84) ∧
  (∀ (off : Int) (s : State), s.tre.sync = .acq → off.natAbs ≤ 125 → s.tre.good + 1 < s.lockN →
    s.syncStep off = { s with tre.good := s.tre.good + 1 }) ∧
  (∀ (off : Int) (s : State), s.tre.sync = .acq → off.natAbs ≤ 125 → s.lockN ≤ s.tre.good + 1 →
    s.syncStep off = State.raise 82 { s with tre.sync := .locked, tre.good := 0, tre.bad := 0 }) ∧
  (∀ (off : Int) (s : State), s.tre.sync = .acq → 125 < off.natAbs → off.natAbs ≤ 2000 →
    s.syncStep off = { s with tre.good := 0 }) ∧
  (∀ (off : Int) (s : State), s.tre.sync = .locked → off.natAbs ≤ 125 →
    s.syncStep off = { s with tre.bad := 0 }) ∧
  (∀ (off : Int) (s : State), s.tre.sync = .locked → 125 < off.natAbs → off.natAbs ≤ 2000 → s.tre.bad = 0 →
    s.syncStep off = { s with tre.bad := 1 }) ∧
  (∀ (off : Int) (s : State), s.tre.sync = .locked → 125 < off.natAbs → off.natAbs ≤ 2000 → 1 ≤ s.tre.bad →
    s.syncStep off = (State.raise 83 { s with tre.sync := .acq, tre.good := 0, tre.bad := 0 }).revCheck) ∧
  (∀ (off : Int) (s : State), s.tre.sync = .muted → off.natAbs ≤ 125 → s.tre.good + 1 < s.lockN →
    s.syncStep off = { s with tre.good := s.tre.good + 1 }) ∧
  (∀ (off : Int) (s : State), s.tre.sync = .muted → 125 < off.natAbs → s.syncStep off = { s with tre.good := 0 }) ∧
  (∀ (off : Int) (s : State), s.tre.sync = .muted → off.natAbs ≤ 125 → s.lockN ≤ s.tre.good + 1 →
    s.syncStep off = State.raise 85 { s with
      tre.sync := .locked, tre.good := 0, tre.bad := 0
      sys.thruNext := s.sys.thruNext || (!s.unitB && !s.sys.thru) }) ∧
  (∀ (off : Int) (s : State), off.natAbs ≤ 2000 → s.tre.sync ≠ .muted → (s.syncStep off).tre.sync ≠ .muted)

/-- The instants of the Traverse (06 R168 to R202; 01 R21, R24). -/
def Obligations.TraverseServes : Prop :=
  (∀ (beside : Option (List Byte)) (s : State), s.coreRuns = true → s.benchRuns = true →
    ∃ t, exec (.t0 beside) s = .next t ∧ t.tre.tcount = s.tre.tcount + 1 ∧ t.tre.mtime = s.tre.time ∧
      t.evt.raw.getLsbD 80 = true) ∧
  (∀ (beside : Option (List Byte)) (s : State), s.benchRuns = false → exec (.t0 beside) s = .next s) ∧
  (∀ s : State, s.coreRuns = true → s.sys.netrole ≠ .benchmark →
    ∃ t, exec .localT0 s = .next t ∧ t.road.open_ = false ∧ t.tre.localT0s = s.tre.localT0s + 1 ∧
      t.tre.tcount = (if s.tre.heardMil = true then s.tre.tcount + 1 else s.tre.tcount) ∧
      t.tre.mtime = (if s.tre.heardMil = true then s.tre.mtime + BitVec.ofNat 64 s.periodNs else s.tre.time) ∧
      t.tre.got = false ∧ t.tre.enabled = s.regBit Reg.TRE_CTL 0) ∧
  (∀ (ts : Dword) (s : State), s.tre.passOpen = false → s.sys.netrole = .benchmark → s.tre.closeSeen = false →
    s.tre.lastRet = some (true, ts) → s.tre.ringDelay = none →
    exec .returnPassComplete s = .next { s with
      tre.closeSeen := true, tre.closeGood := s.tre.closeGood + 1
      tre.rdly := BitVec.ofNat 32 (ts - s.tre.mtime).toNat, tre.ringDelay := some (ts - s.tre.mtime).toNat
      tre.closed := true }) ∧
  (∀ (ts : Dword) (r : Nat) (s : State), s.tre.passOpen = false → s.sys.netrole = .benchmark → s.tre.closeSeen = false →
    s.tre.lastRet = some (true, ts) → s.tre.ringDelay = some r →
    ((ts - s.tre.mtime).toNat ≤ r + 200 → r ≤ (ts - s.tre.mtime).toNat + 200 →
      exec .returnPassComplete s = .next { s with
        tre.closeSeen := true, tre.closeGood := s.tre.closeGood + 1
        tre.rdly := BitVec.ofNat 32 (ts - s.tre.mtime).toNat, tre.ringDelay := some (ts - s.tre.mtime).toNat
        tre.closed := true }) ∧
    (r + 200 < (ts - s.tre.mtime).toNat ∨ (ts - s.tre.mtime).toNat + 200 < r →
      exec .returnPassComplete s = .next
        (State.raise 91 { s with tre.closeSeen := true, tre.closeFail := s.tre.closeFail + 1 }))) ∧
  (∀ (ts : Dword) (s : State), s.tre.passOpen = false → s.sys.netrole = .benchmark → s.tre.closeSeen = false →
    s.tre.lastRet = some (false, ts) →
    exec .returnPassComplete s = .next
      (State.raise 91 { s with tre.closeSeen := true, tre.closeFail := s.tre.closeFail + 1 })) ∧
  (∀ s : State, s.tre.passOpen = true →
    exec .returnPassComplete s = .next
      (let t := (((({ s with tre.passOpen := false } : State).latestTake).dmaFire (.strobe 3)).coveredCheck).watchPass
       (t.giveBack.muteMark).closure)) ∧
  (∀ s : State, s.sys.netrole = .benchmark → s.tre.closeSeen = false →
    exec .closureFail s = .next
      (State.raise 91 { s with tre.closeSeen := true, tre.closeFail := s.tre.closeFail + 1 })) ∧
  (∀ s : State, s.coreRuns = true → s.latchDue = true →
    ∃ t, exec .latchInstant s = .next t ∧ t.tre.lastLatch = s.latchAt ∧ t.ctl.ltime = s.tre.time ∧
      t.tre.frzok = s.tre.rxok ∧ t.evt.raw.getLsbD 81 = true) ∧
  (∀ s : State, s.latchDue = false → exec .latchInstant s = .next s) ∧
  (∀ s : State, s.coreRuns = true → s.tre.sync = .acq ∨ s.tre.sync = .locked → exec .syncHoldExpiry s = .next s.mute) ∧
  (∀ s : State, s.tre.sync = .free ∨ s.tre.sync = .muted → exec .syncHoldExpiry s = .next s) ∧
  (∀ s : State, s.coreRuns = true → s.hasEpoch = true → s.sys.netrole ≠ .benchmark → s.tre.got = false →
    exec .missedTraverse s = .next (State.raise 86 { s with tre.missed := s.tre.missed + 1 })) ∧
  (∀ (beside : Option (List Byte)) (s : State), s.coreRuns = true → s.sys.netrole = .backup →
    s.takeN + s.sys.rank.toNat ≤ s.tre.missed + 1 →
    s.regBit Reg.TRE_CTL 1 = false → s.tre.enabled = true → s.lineUp = true → s.hasEpoch = true →
    ∃ t, exec (.takeover beside) s = .next t ∧ t.sys.netrole = .benchmark ∧ t.tre.take = true ∧ t.tre.missed = 0 ∧
      t.tre.offset = 0 ∧ t.tre.roadofs = (s.reg Reg.TRE_ROAD).setWidth 12 ∧
      t.tre.bench = s.svy.nid.getD 0 ∧ t.evt.raw.getLsbD 92 = true) ∧
  (∀ s : State, s.coreRuns = true → s.sys.thru = true → s.tre.tabok = true → s.tre.table.any s.partnerOwns = true →
    s.tre.cover = false →
    exec .coverStart s = .next { s with tre.coverNext := some true }) ∧
  (∀ s : State, s.sys.thru = false → s.hasEpoch = true →
    exec (.throughUnitChange false) s = .next { s with sys.thruNext := true }) ∧
  (∀ s : State, s.sys.thru = true → s.hasEpoch = true → s.unitB = true →
    exec (.throughUnitChange true) s = .next { s with sys.thruGive := true }) ∧
  (∀ s : State, s.sys.thru = false → exec (.throughUnitChange true) s = .next s) ∧
  (∀ s : State, s.hasEpoch = true → s.sys.turned = false → s.sys.turnNext = false →
    exec .turnout s = .next (if s.sys.thru = true then State.svyTrigger 2 { s with sys.turnNext := true }
      else { s with sys.turnNext := true })) ∧
  (∀ s : State, exec .traverseDisable s = .next (s.setReg Reg.TRE_CTL (clrBit (s.reg Reg.TRE_CTL) 0)))

/-- The table and its commands (06 R176 to R192). -/
def Obligations.TableServes : Prop :=
  (∀ s : State, exec .commit s = .next { s with tre.commit := true }) ∧
  (∀ s : State, s.tre.commit = true →
    ∃ t, s.commitTake = State.raise 100 { t with tre.commit := false, tre.seq := t.tre.seq + 1 } ∧
      t = (s.wordReads 0x40048000 2048).bufWrite 0x40048800 (s.bytesAt 0x40048000 2048)) ∧
  (∀ s : State, s.coreRuns = true → s.tre.tabok = false → s.hasEpoch = true →
    exec .tableRequestRepeat s = .next s.tableAsk) ∧
  (∀ s : State, s.coreRuns = true → s.claimDue = true → s.tre.claimTries ≠ 0 → s.tre.claimTries < 8 →
    exec .claimRetry s = .next ({ s with tre.claimTries := s.tre.claimTries + 1 } : State).claimSend) ∧
  (∀ s : State, s.coreRuns = true → s.claimDue = true → s.tre.claimTries = 8 →
    exec .claimRetry s = .next (State.raise 98 { s with tre.claimTries := 9 })) ∧
  (∀ (v : Word) (s : State), v.getLsbD 15 = true → s.sys.netrole = .benchmark →
    exec (.tableEdit v) s = .next { s with tre.edits := s.tre.edits ++ [(v.setWidth 8, s.reg Reg.TRE_EDITENT)] }) ∧
  (∀ (v : Word) (s : State), v.getLsbD 15 = false ∨ s.sys.netrole ≠ .benchmark →
    exec (.tableEdit v) s = .next s) ∧
  (∀ (m : Master) (s : State), s.accesses m false Reg.TRE_CLAIM = true → exec (.claimPop m) s = .next { s with
    tre.claims := s.tre.claims.drop 1, out := s.out ++ [.answer m (s.tre.claims.headD 0)] }) ∧
  (∀ (i seq : Byte) (e : Word) (s : State), i.toNat ≤ s.tre.table.length → tabOk (tabPut s.tre.table i.toNat e) = true →
    s.owns e = false → s.ownsAny = false →
    s.editApply i seq e = State.raise 94 { s with
      tre.table := tabPut s.tre.table i.toNat e, tre.tabseq := seq, tre.editNext := none }) ∧
  (∀ (i seq : Byte) (e : Word) (s : State), i.toNat ≤ s.tre.table.length → tabOk (tabPut s.tre.table i.toNat e) = true →
    s.owns e = false → s.ownsAny = true → (tabPut s.tre.table i.toNat e).any s.owns = false →
    ∃ t : State, s.editApply i seq e = ({ t with tre.claimTries := 0 } : State).claimStart ∧
      t = State.raise 94 { s with
        tre.table := tabPut s.tre.table i.toNat e, tre.tabseq := seq, tre.editNext := none }) ∧
  (∀ (i seq : Byte) (e : Word) (s : State), tabOk (tabPut s.tre.table i.toNat e) = false →
    s.editApply i seq e = s.raise 95) ∧
  (∀ (i seq : Byte) (e : Word) (s : State), tabOk s.tre.table = true → tabOk (s.editApply i seq e).tre.table = true) ∧
  (∀ (f : RxFrame) (h : RHdr) (b : List Byte) (s : State), (s.tre.tableNext.all fun x => tabOk x.2) = true →
    ((onTable f h b s).tre.tableNext.all fun x => tabOk x.2) = true ∧ (onTable f h b s).tre.table = s.tre.table) ∧
  (∀ s : State, (s.tre.tableNext.all fun x => tabOk x.2) = true → tabOk s.tre.table = true →
    tabOk s.tableAdopt.tre.table = true ∧ s.tableAdopt.tre.tableNext = none) ∧
  (∀ (d : List Byte) (s : State), s.tre.design.all tabOk = true → (s.designItem d).tre.design.all tabOk = true) ∧
  (∀ s : State, s.tre.design.all tabOk = true → tabOk s.tre.table = true → tabOk s.designLoad.tre.table = true) ∧
  (∀ s : State, tabOk s.tre.table = true →
    let tab := s.tablePrune.tre.table
    tab.length = s.tre.table.length ∧ (∀ e ∈ tab, e.getLsbD 31 = true) ∧ sumLen tab = sumLen s.tre.table ∧
      ∀ n : BitVec 6, sumLen (tab.filter (entBy n)) ≤ 2048) ∧
  (∀ (f : RxFrame) (h : RHdr) (seq : Byte) (tab : List Word) (s : State), s.sys.netrole ≠ .benchmark →
    tabOk tab = true →
    onTable f h ([0x22, seq] ++ beBytes 2 tab.length ++ tab.flatMap (fun e => beBytes 4 e.toNat) ++
      beBytes 2 (tabCrc tab).toNat) s = { s with tre.tableNext := some (seq, tab) }) ∧
  (∀ (nid : BitVec 6) (len8 user i : Nat) (e : Word) (s : State), s.sys.netrole = .benchmark →
    s.sys.splitAct.getLsbD 2 = false → s.tre.edits = [] → s.tre.lastEdit = none → s.tre.table[i]? = some e →
    entLayby e = true → entOwned e = false → len8 ≤ fld e 8 5 →
    (∀ j x, j < i → s.tre.table[j]? = some x → entLayby x = false ∨ entOwned x = true ∨ fld x 8 5 < len8) →
    s.claimRx nid len8 user = { s with
      tre.edits := [(BitVec.ofNat 8 i, mkEntry true (some nid) (fld e 8 5) user)] })

/-- The encodings of the headers (04 R104; 05 R138, R139; 06 R169 to R173; 07 R207). -/
def Obligations.FrameHeadersAgree : Prop :=
  (∀ (t : FType) (tmi : Nat) (pass : Bool) (len : Nat), tmi < 16 → len < 8192 →
    let fc := fcBytes t tmi pass len
    fcOk fc = true ∧ fcType fc = t ∧ fcTmi fc = tmi ∧ fcPass fc = pass ∧ fcLen fc = len) ∧
  (∀ (h : RHdr) (payload : List Byte), h.prio < 8 → h.cls < 256 → h.hops < 256 → h.plen < 65536 → h.chan < 256 →
    RHdr.parse (h.bytes ++ payload) = h ∧ roadPayload (h.bytes ++ payload) = payload) ∧
  (∀ (h : SHdr) (rest : List Byte), h.kind < 256 → h.count < 256 → h.winrem < 65536 →
    SHdr.parse (h.bytes ++ rest) = h) ∧
  (∀ (h : THdr) (rest : List Byte), THdr.parse (h.bytes ++ rest) = h ∧ hcrcOk (h.bytes ++ rest) = true) ∧
  (∀ (epoch owner : Byte) (tcount : Word) (stat seq : Byte) (data : List Byte),
    slotOk epoch owner tcount (mkSlot epoch owner tcount stat seq data) = true)

/-- Reception of Open Road frames (07 R207 to R225), for every command that delivers one. -/
def Obligations.RoadReceives : Prop :=
  ∀ (c : RxFrame → Instr) (d : Deliver), RoadCommand c d → ∀ (f : RxFrame) (s : State),
    let h := RHdr.parse f.body
    let t := s.roadHeard f
    (s.rxClass f = .good → fcType f.fc ≠ .road ∨ d.fits s h f.body = false → exec (c f) s = .next s) ∧
    (s.HearsFrame f d → h.bcast = false → s.isDest h = true → s.deaf f.port = true → exec (c f) s = .next (s.rxFx f)) ∧
    (s.HearsFrame f d → h.bcast = false → s.isDest h = true → s.deaf f.port = false →
      (∀ w, s.dupTest h = .accept w → s.pausedHere f.port h.prio = false → d.code t h f.body = 0 →
        exec (c f) s = .next ((d.act f h (t.dupAccept h)).sendAck f h 0)) ∧
      (∀ w, s.dupTest h = .accept w → s.pausedHere f.port h.prio = false → d.code t h f.body ≠ 0 →
        exec (c f) s = .next (t.sendAck f h (d.code t h f.body))) ∧
      (∀ w, s.dupTest h = .accept w → s.pausedHere f.port h.prio = true → exec (c f) s = .next (t.sendAck f h 1)) ∧
      (s.dupTest h = .duplicate → exec (c f) s = .next ((t.count1 4 43).sendAck f h 2)) ∧
      (s.dupTest h = .stale → exec (c f) s = .next ((t.count1 4 44).sendAck f h 4))) ∧
    (s.HearsFrame f d → h.bcast = true →
      (∀ w, s.dupTest h = .accept w → d.code t h f.body = 0 →
        exec (c f) s = .next ((d.act f h (t.dupAccept h)).bcastForward f h 0)) ∧
      (∀ w, s.dupTest h = .accept w → d.code t h f.body = 1 → t.bcastPort f h = none →
        exec (c f) s = .next (t.count1 4 38)) ∧
      (s.dupTest h = .duplicate → exec (c f) s = .next (t.count1 4 43)) ∧
      (s.dupTest h = .stale → exec (c f) s = .next (t.count1 4 44)))

/-- Relaying (07 R215 to R218). -/
def Obligations.RoadForwards : Prop :=
  (∀ (f : RxFrame) (w : DupWin) (s : State),
    let h := RHdr.parse f.body
    let t := s.roadHeard f
    s.HearsFrame f deliverAny → s.isDest h = false → s.isRelay f.port h = true → s.deaf f.port = false →
    s.dupTest h = .accept w → s.sys.splitAct.getLsbD 3 = false →
    exec (.roadTransit f) s = .next (if t.transitCode f.port h = 0 then (t.transit f h).sendAck f h 0
      else t.sendAck f h (t.transitCode f.port h))) ∧
  (∀ (p : Fin 4) (h : RHdr) (s : State), s.present h.dst = false ∨ h.hops = 0 ∨ s.portFor h.dst = none →
    s.transitCode p h = 3) ∧
  (∀ (p : Fin 4) (h : RHdr) (s : State), s.present h.dst = true → h.hops ≠ 0 → (s.portFor h.dst).isSome = true →
    s.pausedHere p h.prio = true → s.transitCode p h = 1) ∧
  (∀ (f : RxFrame) (h : RHdr) (p : Fin 4) (s : State), s.sys.splitAct.getLsbD 3 = false →
    s.portFor h.dst = some p →
    s.transit f h = ((((s.dupMark h).cellStore (hopDown f.body)).1.roadEnqueue p
      ⟨hopDown f.body, 0, 0, none, none, 0, some f.port, ((s.dupMark h).cellStore (hopDown f.body)).2, none, 1⟩).pauseCheck
        f.port h.prio)) ∧
  (∀ (f : RxFrame) (h : RHdr) (p : Fin 4) (acct : BitVec 2) (s : State), s.bcastOnward f h = true →
    s.cellsFree f.body.length = true →
    ((if s.isTailPort f.port then s.headPorts else s.tailPorts).filter s.usable).head? = some p →
    s.bcastForward f h acct = (((s.cellStore (hopDown f.body)).1.roadEnqueue p
      ⟨hopDown f.body, 0, 0, none, none, 0, some f.port, (s.cellStore (hopDown f.body)).2, none, acct⟩).pauseCheck
        f.port h.prio)) ∧
  (∀ (f : RxFrame) (s : State),
    let h := RHdr.parse f.body
    s.HearsFrame f deliverAny → h.bcast = false → s.isDest h = false → s.isRelay f.port h = false →
    exec (.roadTransit f) s = .next (s.roadHeard f)) ∧
  (∀ (f : RxFrame) (w : DupWin) (s : State),
    let h := RHdr.parse f.body
    let t := s.roadHeard f
    let u := (t.dupAccept h).count1 4 17
    s.HearsFrame f deliverCwyWrite → s.isDest h = true → s.deaf f.port = false → s.pausedHere f.port h.prio = false →
    s.dupTest h = .accept w →
    exec (.causewayWrite (some f)) s = .next (if s.p5Out = true then t.sendAck f h 3
      else if 4 ≤ s.cwy.farq.length then t.sendAck f h 1
      else State.sendAck f h 0 { u with cwy.farq := u.cwy.farq ++ [f.body] })) ∧
  (∀ (body : List Byte) (rest : List (List Byte)) (s : State), s.coreRuns = true → s.cwy.farq = body :: rest →
    exec (.causewayWrite none) s = .next ((
      let h := RHdr.parse body
      let r := State.farSide (roadPayload body) { s with cwy.farq := rest }
      ((r.1.bumpSeq).sendUnicast h.src (mkQ (r.1.cwyHdr h.prio h.src h.chan r.2) none none 0) : State)).txPosted .causeway)) ∧
  (∀ (c : Fin 4 × Fin 4) (x : ForeignP), x.db < 10 ∨ 25600 ≤ x.atNs ∨ x.atNs ≤ -16000 → foreignHeard c x = false)

/-- A frame on its way out (07 R204 to R214, Table 7.4, Table 7.5). -/
def Obligations.RoadAttempts : Prop :=
  (∀ (p : Fin 4) (slots : List (List (Option Nat))) (foreign : Option ForeignP) (q : QFrame) (s : State),
    let left := (s.roadPort p).count - idleSlots slots
    let fits := s.roadRoom p (s.roadTmi p q) q.body.length
    let t := (s.roadTake p q).modRoad p fun r => { r with st := .idle, count := 0 }
    (s.roadPort p).st = .count → s.roadHead p = some q → s.road.open_ = true → s.before s.svy.until_ = false →
    s.tre.sync ≠ .free → s.roadUp = true → s.onGrid = true →
    (left ≠ 0 ∨ (s.tre.sync = .muted ∧ threeIdle slots = false) ∨ fits = false →
      exec (.roadFrameStart p slots foreign) s = .next (s.modRoad p fun r => { r with count := left })) ∧
    (left = 0 → s.tre.sync ≠ .muted ∨ threeIdle slots = true → fits = true →
      (s.usable p = false → s.portNow p q = none →
        exec (.roadFrameStart p slots foreign) s = .next ((t.frameLost q).roadKick p)) ∧
      (∀ r, s.usable p = false → s.portNow p q = some r →
        exec (.roadFrameStart p slots foreign) s = .next ((t.roadPut r q).roadKick p)) ∧
      (s.usable p = true → s.cellsBad q ≠ [] → exec (.roadFrameStart p slots foreign) s = .next (t.parityDrop p q)) ∧
      (s.usable p = true → s.cellsBad q = [] → ∃ c : Fin 4 × Fin 4,
        exec (.roadFrameStart p slots foreign) s = .next (
          let u := t.took.took
          if foreign.any (foreignHeard c) = true then
            ((((u.txStamp p s.tre.time).modPort p fun x =>
              { x with txFrom := some s.tre.time, txEnd := some (s.tre.time + 2 * BitVec.ofNat 64 symbolNs) }).emit
                (.lineStop p s.tre.time c)).count1 p.val 40).attemptFail p q true
          else
            ((u.modRoad p fun r => { r with st := .pre, cur := some q, combs := c }).txStart p s.tre.time .road (s.roadTmi p q) false false
              (some c) none (s.frameRead q)).modPort p fun x => { x with txact := true })))) ∧
  (∀ (p : Fin 4) (q : QFrame) (s : State), (s.roadPort p).st = .pre ∨ (s.roadPort p).st = .send →
    (s.roadPort p).cur = some q →
    (RHdr.parse q.body).bcast = true →
    exec (.lastSymbolSent p) s = .next
      (((s.modPort p fun c => { c with txact := false }).txCount p .road q.body).attemptEnd p q 0)) ∧
  (∀ (p : Fin 4) (q : QFrame) (s : State), (s.roadPort p).st = .pre ∨ (s.roadPort p).st = .send →
    (s.roadPort p).cur = some q →
    (RHdr.parse q.body).bcast = false →
    exec (.lastSymbolSent p) s = .next
      (((s.modPort p fun c => { c with txact := false }).txCount p .road q.body).modRoad p fun r =>
        { r with st := .ackwait, endAt := s.tre.time })) ∧
  (∀ (f : RxFrame) (q : QFrame) (s : State),
    let a := RHdr.parse f.body
    let t := if s.roadListens f = true ∧ a.srcv = true then s.roadHeard f else s.rxFx f
    s.rxClass f = .good → fcType f.fc = .road → a.cls = 5 → f.parity = false → s.portUp f.port = true →
      (s.roadPort f.port).st = .ackwait →
    (s.roadPort f.port).cur = some q →
    ackInTime (s.roadPort f.port).endAt f.ts = true → a.src = (RHdr.parse q.body).src → a.seq = (RHdr.parse q.body).seq →
    a.epoch = s.svy.epoch → (RHdr.parse q.body).epoch = s.svy.epoch →
    (a.chan = 0 ∨ a.chan = 2 → exec (.acknowledge f) s = .next (t.attemptEnd f.port q 0)) ∧
    (a.chan = 1 → exec (.acknowledge f) s = .next (t.attemptFail f.port q true)) ∧
    (a.chan = 3 → exec (.acknowledge f) s = .next
      ((((t.count1 4 36).count1 f.port.val 42).raise 130).attemptEnd f.port q 2)) ∧
    (a.chan = 4 → exec (.acknowledge f) s = .next (((t.count1 f.port.val 42).raise 130).attemptEnd f.port q 1))) ∧
  (∀ (f : RxFrame) (s : State), s.roadListens f = true → s.rxClass f = .badCrc ∨ s.rxClass f = .erased ∨
    (s.rxClass f = .good ∧ (RHdr.parse f.body).cls = 5 ∧ f.parity = true) →
    exec (.acknowledge f) s = .next ((s.rxFx f).badFrame f)) ∧
  (∀ endAt d : Dword, ackInTime endAt (endAt + d) = true ↔ 8000 ≤ d.toNat ∧ d.toNat ≤ 16000) ∧
  (∀ (p : Fin 4) (q : QFrame) (s : State), s.coreRuns = true → (s.roadPort p).st = .ackwait → (s.roadPort p).cur = some q →
    (RHdr.parse q.body).epoch = s.svy.epoch →
    (q.n + 1 < s.attempts → exec (.ackTimeout p) s = .next
      (((s.count1 p.val 41).modRoad p fun r => { r with
        st := .idle, cur := none
        queue := { q with n := q.n + 1, silent := if 2 ≤ q.silent then q.silent else q.silent + 1 } :: r.queue }).roadKick p)) ∧
    (s.attempts ≤ q.n + 1 → exec (.ackTimeout p) s = .next
      ((((s.count1 p.val 41).count1 p.val 42).raise 129).attemptEnd p q 1)))

/-- The other Open Road commands of the node's own (07 R203, R214 to R222). -/
def Obligations.RoadServes : Prop :=
  (∀ s : State, s.coreRuns = true → s.windowEmpty = false →
    ∃ t, exec .roadWindowOpen s = .next t ∧ t.road.open_ = true ∧ t.road.o = s.tre.time) ∧
  (∀ s : State, s.coreRuns = true → s.windowEmpty = true → exec .roadWindowOpen s = .next s) ∧
  (∀ (m : Master) (wp : Word) (s : State), s.accesses m true Reg.ROAD_TXWP = true →
    s.txSize = 0 ∨ s.part 1 ≠ .inService →
    exec (.transmitRecord m wp) s = .next (s.setReg Reg.ROAD_TXWP wp)) ∧
  (∀ (m : Master) (wp : Word) (s : State), s.accesses m true Reg.ROAD_TXWP = true →
    s.txSize ≠ 0 → s.part 1 = .inService →
    exec (.transmitRecord m wp) s = .next
      ((s.setReg Reg.ROAD_TXWP wp).txTake m (min s.txSize 0x100000 / 8 + 1))) ∧
  (∀ (dst : BitVec 6) (s : State), s.svy.nid ≠ some dst →
    exec (.ping dst) s = .next
      ((({ s.setReg Reg.ROAD_PING (packW [(16, dst.toNat)]) with
        road.pingDone := false, road.pingFail := false, road.pingRtt := 0, road.pingAt := some s.tre.time } : State).took).sendMgmt
          dst 2 (0x14#8 :: beBytes 4 (s.draw % 2 ^ 32)))) ∧
  (∀ (dst : BitVec 6) (s : State), s.svy.nid = some dst →
    exec (.ping dst) s = .next { s.setReg Reg.ROAD_PING (packW [(16, dst.toNat)]) with
      road.pingDone := true, road.pingFail := false, road.pingRtt := 0, road.pingAt := none }) ∧
  (∀ s : State, s.coreRuns = true → s.regBit Reg.ROAD_CTL 1 = true → s.roadUp = true →
    exec .helloTimer s = .next (s.each ((fins 4).filter fun p => s.usable p && !s.helloWaits p) fun p t =>
      t.sendLocal p true 0 1 [0x13])) ∧
  (∀ (p : Fin 4) (nid : BitVec 6) (s : State),
    (s.coreRuns = true → (∃ x ∈ (s.roadPort p).nbrs, x.1 = nid ∧ x.2 ≠ s.tre.time) →
      exec (.neighbourAgeExpiry p nid) s = .next
        ((s.modRoad p fun r => { r with nbrs := r.nbrs.filter (·.1 != nid) }).raise 135)) ∧
    ((∀ x ∈ (s.roadPort p).nbrs, x.1 = nid → x.2 = s.tre.time) → exec (.neighbourAgeExpiry p nid) s = .next s)) ∧
  (∀ (p : Fin 4) (nid : BitVec 6) (prio : Fin 8) (s : State), s.coreRuns = true → ∃ l,
    exec (.pauseExpiry p nid prio) s = .next
      (((s.modRoad p fun r => { r with paused := l }).roadRehead p (s.roadHead p)).each (fins 2) fun e t => t.tunnelRelease e) ∧
    (∀ e ∈ l, e.1 = nid → e.2.getLsbD prio.val = false) ∧
    ∀ e ∈ (s.roadPort p).paused, e.2 ≠ 0 → e.1 ≠ nid → e ∈ l) ∧
  (∀ (p : Fin 4) (prio : Fin 8) (s : State), s.coreRuns = true → (s.roadPort p).pausing.getLsbD prio.val = true →
    s.roadX.2 < s.cellsHeld p prio.val →
    exec (.pauseRepeat p prio) s = .next (s.sendPause p prio.val (clampN 1 65535 (s.regFld Reg.ROAD_PAUSE 16 16))))

/-- The effects of delivery (04 R119 to R121; 07 R220 to R223), to be read with RoadReceives. -/
def Obligations.ManagementActs : Prop :=
  (∀ (f : RxFrame) (h : RHdr) (b : List Byte) (s : State), s.keeper f.port = true →
    onSnrReport f h b s = (s.modPort f.port fun c => { c with
      reports := (h.src, s.tre.time, slice b 6 180) :: c.reports.filter (·.1 != h.src) }).segBuild f.port) ∧
  (∀ (f : RxFrame) (h : RHdr) (b : List Byte) (s : State), tmTmi (slice b 6 96) < 8 →
    tmValid s.masked (slice b 6 96) = true →
    onSegmentAnnounce f h b s = (s.modPort f.port fun c => { c with
      slots := vset c.slots (tmTmi (slice b 6 96)) (slice b 6 96)
      announced := some (BitVec.ofNat 4 (tmTmi (slice b 6 96)), tmSeq (slice b 6 96)) }).sendLocal f.port false h.src 0
        (toneMsg 4 f.port.val 0 [BitVec.ofNat 8 (tmTmi (slice b 6 96)), tmSeq (slice b 6 96)])) ∧
  (∀ (f : RxFrame) (h : RHdr) (b : List Byte) (s : State), (byteAt b 6).toNat < 8 →
    tmSeq ((s.port f.port).slots.getD (byteAt b 6).toNat []) = byteAt b 7 →
    onSegmentActivate f h b s = s.modPort f.port fun c => { c with
      nextMap := some ((byteAt b 6).setWidth 4, BitVec.ofNat 32 (beAt b 2 4)), announced := none }) ∧
  (∀ (f : RxFrame) (h : RHdr) (b : List Byte) (m : PendingMap) (s : State), h.loc = true →
    (s.port f.port).pending = some m → m.tmi.toNat = (byteAt b 6).toNat →
    tmSeq ((s.port f.port).slots.getD (byteAt b 6).toNat []) = byteAt b 7 →
    onToneAck f h b s = (s.modPort f.port fun c => { c with
      pending := some { m with acks := setBit m.acks h.src.toNat } }).segAllAcked f.port) ∧
  (∀ (f : RxFrame) (h : RHdr) (b : List Byte) (m : PendingMap) (s : State), h.loc = false →
    s.liu.pending = some m → m.tmi.toNat = (byteAt b 6).toNat →
    tmSeq (s.liu.rtm.getD ((byteAt b 6).toNat - 8) []) = byteAt b 7 →
    onToneAck f h b s = { s with liu.pending := some { m with acks := setBit m.acks h.src.toNat } }) ∧
  (∀ (f : RxFrame) (h : RHdr) (b : List Byte) (s : State), 8 ≤ tmTmi (slice b 6 96) → tmTmi (slice b 6 96) < 12 →
    tmValid s.masked (slice b 6 96) = true →
    onRingAnnounce f h b s =
      ({ s with liu.rtm := vset s.liu.rtm (tmTmi (slice b 6 96) - 8) (slice b 6 96) }).sendMgmt h.src 0
        (toneMsg 4 0 0 [BitVec.ofNat 8 (tmTmi (slice b 6 96)), tmSeq (slice b 6 96)])) ∧
  (∀ (f : RxFrame) (h : RHdr) (b : List Byte) (s : State), s.sys.netrole = .benchmark →
    ((s.summariesOf h.src).length < 2 →
      onSegmentSummary f h b s = (State.took { s with liu.summaries := (h.src, h.epoch, slice (b.drop 6) 0 180) ::
        (s.summariesOf h.src ++ s.liu.summaries.filter fun x => x.1 != h.src) }).ringBuild) ∧
    ∃ keep, (keep = s.summariesOf h.src ∨ keep = (s.summariesOf h.src).take 1 ∨ keep = (s.summariesOf h.src).drop 1) ∧
      onSegmentSummary f h b s = (State.took { s with liu.summaries := (h.src, h.epoch, slice (b.drop 6) 0 180) ::
        (keep ++ s.liu.summaries.filter fun x => x.1 != h.src) }).ringBuild) ∧
  (∀ (f : RxFrame) (h : RHdr) (b : List Byte) (s : State), onHello f h b s = s) ∧
  (∀ (f : RxFrame) (h : RHdr) (s : State), deliverPause.act f h s =
    s.pauseRx f.port h.src (byteAt f.body 12) (beAt f.body 13 2)) ∧
  (∀ (p : Fin 4) (nid : BitVec 6) (mask : Byte) (ptime : Nat) (s : State),
    (s.roadPort p).paused = [] → ptime ≠ 0 → mask &&& 0x7F ≠ 0 →
    s.pauseRx p nid mask ptime = (((s.modRoad p fun r => { r with paused := [(nid, mask &&& 0x7F)] }).pauseChanged p
      (s.roadHead p))).raise 132) ∧
  (∀ (p : Fin 4) (nid : BitVec 6) (mask old : Byte) (rest : List (BitVec 6 × Byte)) (ptime : Nat) (s : State),
    (s.roadPort p).paused = (nid, old) :: rest → (∀ e ∈ rest, e.1 ≠ nid) →
    let set (l : List (BitVec 6 × Byte)) : State :=
      ((s.modRoad p fun r => { r with paused := l }).pauseChanged p (s.roadHead p)).raise 132
    (ptime ≠ 0 → old ||| mask &&& 0x7F ≠ 0 →
      s.pauseRx p nid mask ptime = set (rest ++ [(nid, old ||| mask &&& 0x7F)])) ∧
    (ptime = 0 → old &&& ~~~(mask &&& 0x7F) ≠ 0 →
      s.pauseRx p nid mask ptime = set (rest ++ [(nid, old &&& ~~~(mask &&& 0x7F))])) ∧
    (ptime = 0 → old &&& ~~~(mask &&& 0x7F) = 0 → s.pauseRx p nid mask ptime = set rest)) ∧
  (∀ (f : RxFrame) (h : RHdr) (s : State), deliverUser.act f h s =
    ((s.count1 4 (if h.bcast then 11 else 10)).count1 4 15).chanWrite h.chan 0 f.port f.body) ∧
  (∀ (f : RxFrame) (h : RHdr) (b : List Byte) (s : State), s.svy.nid ≠ some h.src →
    onEcho f h b s = s.sendMgmt h.src 0 (0x15#8 :: b.drop 1))

/-- The E ports (07 R227 to R234). -/
def Obligations.EtherServes : Prop :=
  (∀ (e : Fin 2) (f : EthRx) (s : State), s.ethTakes = true → s.ethCtl e 1 = true →
    let b := f.bytes
    (b.length + 4 < 64 → exec (.ethFrameReceive e f) s = .next (s.count1 (ethCnt e) 35)) ∧
    (64 ≤ b.length + 4 →
      ((if ethTagged b then 1522 else 1518) < b.length + 4 →
        exec (.ethFrameReceive e f) s = .next ((s.count1 (ethCnt e) 36).raise 140)) ∧
      (b.length + 4 ≤ (if ethTagged b then 1522 else 1518) →
        (f.fcsOk = false → exec (.ethFrameReceive e f) s = .next ((s.count1 (ethCnt e) 34).raise 140)) ∧
        (f.fcsOk = true → f.room = false →
          exec (.ethFrameReceive e f) s = .next ((s.count1 (ethCnt e) 38).raise 140)) ∧
        (f.fcsOk = true → f.room = true → f.parity = true →
          exec (.ethFrameReceive e f) s = .next (((s.memLog 5 5 7 0 0).raise 235).count1 (ethCnt e) 39)) ∧
        (f.fcsOk = true → f.room = true → f.parity = false → beAt b 12 2 ≠ 0x8808 →
          exec (.ethFrameReceive e f) s = .next
            ((s.ethRxCount e (b.length + 4) (ethGroup b) (ethTagged b) (s.ethPrio e b).val).ethSwitch (srcE e) (some e)
              (s.ethPrio e b) b))))) ∧
  (∀ (e : Fin 2) (collisions : List Bool) (x : EthQ) (s : State), s.ethRun = true →
    (s.ethPort e).sending = some x → 0x40 ≤ x.src.toNat →
    let n := ethCnt e
    let c := if s.ethFd e = true then [] else collisions.take 16
    let t := s.ethCollisions e 1 c
    let b := ethPad x.bytes
    exec (.ethFrameSent e collisions) s = .next (
      if c.length = 16 then ((t.count1 n 42).raise 143).ethNext e x
      else ((((((t.emit (.eth e (b ++ leBytes 4 (crc32 b).toNat))).count1 n 2).count n 3 (b.length + 4)).count1 n
        (if ethGroup b then 13 else 12)).count1 n (26 + x.prio.val))).ethNext e x)) ∧
  (∀ (e : Fin 2) (k : Nat) (late : Bool) (l : List Bool) (s : State), ∃ m, m < 2 ^ min k 10 ∧
    s.ethCollisions e k (late :: l) = (
      let t := ((s.took).emit (.ethJam e late m)).count1 (ethCnt e) 40
      if late = true then ((t.count1 (ethCnt e) 41).raise 143).ethCollisions e (k + 1) l
      else t.ethCollisions e (k + 1) l)) ∧
  (∀ (e : Fin 2) (collisions : List Bool) (s : State), s.ethRun = false → exec (.ethFrameSent e collisions) s = .next s) ∧
  (∀ (e : Fin 2) (x : EthQ) (s : State),
    (x.src.toNat < 0x40 → s.ethNext e x = (s.modEth e fun c => { c with sending := none }).ethKick e) ∧
    (x.src = srcE (otherE e) → s.ethNext e x =
      ((s.modEth e fun c => { c with sending := none }).pfcCheck (otherE e) x.prio).ethKick e)) ∧
  (∀ b : List Byte, (ethPad b).length = max 60 b.length ∧ (ethPad b).take b.length = b) ∧
  (∀ (e : Fin 2) (quanta : Half) (s : State), s.ethTakes = true → s.ethCtl e 1 = true → s.ethCtl e 4 = true →
    exec (.ethPause e quanta) s = .next
      ((((s.ethMacCtl e).count1 (ethCnt e) 46).modEth e fun c => { c with
        macPaused := decide (quanta ≠ 0), quanta := vset c.quanta 0 quanta }).ethKick e)) ∧
  (∀ (e : Fin 2) (classes : Byte) (quanta : List Half) (s : State), s.ethTakes = true → s.ethCtl e 1 = true →
    s.ethCtl e 5 = true → s.ethFd e = true →
    ∃ t : State, exec (.pfc e classes quanta) s = .next ((t.raise 139).ethKick e) ∧ t.regs = s.regs ∧
      ∀ p : Fin 8,
        (t.ethPort e).pfcPaused.getLsbD p.val =
          (if classes.getLsbD p.val then decide (quanta.getD p.val 0 ≠ 0) else (s.ethPort e).pfcPaused.getLsbD p.val) ∧
        (t.ethPort e).quanta.get p =
          (if classes.getLsbD p.val then quanta.getD p.val 0 else (s.ethPort e).quanta.get p)) ∧
  (∀ (e : Fin 2) (s : State), s.coreRuns = true → exec (.ethPauseExpiry e) s = .next
    ((s.modEth e fun c => { c with macPaused := false }).ethKick e)) ∧
  (∀ (e : Fin 2) (cls : Fin 8) (s : State), s.coreRuns = true → exec (.pfcExpiry e cls) s = .next
    ((s.modEth e fun c => { c with pfcPaused := clrBit c.pfcPaused cls.val }).ethKick e)) ∧
  (∀ (e : Fin 2) (r0 r1 r4 r5 : Half) (s : State), s.ethUp = true → s.ethCtl e 3 = true →
    ∃ t : State, exec (.phyPoll e r0 r1 r4 r5) s = .next
        (t.raiseIf ((r1.getLsbD 2 && s.sys.refok) != (s.ethPort e).up) (136 + e.val)) ∧
      t = { s with
        eth.ports := s.eth.ports.set e { s.ethPort e with
          up := r1.getLsbD 2 && s.sys.refok, andone := r1.getLsbD 5
          s100 := (phyMode r0 r1 r4 r5).1, fd := (phyMode r0 r1 r4 r5).2 }
        out := s.out ++ [0, 1, 4, 5].map fun r => Output.mdio e false (BitVec.ofNat 5 (s.regFld (ethBase e + 8) 8 5)) r 0 }) ∧
  (∀ (e : Fin 2) (v : Word) (s : State), (s.ethPort e).mdio = none → v.getLsbD 31 = true →
    let t := (s.setReg (ethBase e + 0xC) v).modEth e fun c => { c with mdio := some v }
    (s.pinsReset = false → exec (.mdioAccess e v) s = .next (t.emit
      (.mdio e (v.getLsbD 30) (BitVec.ofNat 5 (fld v 21 5)) (BitVec.ofNat 5 (fld v 16 5))
        (if v.getLsbD 30 then v.setWidth 16 else 0)))) ∧
    (s.pinsReset = true → exec (.mdioAccess e v) s = .next t)) ∧
  (∀ (e : Fin 2) (v : Word) (s : State), (s.ethPort e).mdio.isSome = true → exec (.mdioAccess e v) s = .next s) ∧
  (∀ (e : Fin 2) (data : Half) (v : Word) (s : State), (s.ethPort e).mdio = some v → v.getLsbD 30 = false →
    exec (.mdioDone e data) s = .next ((s.modEth e fun c => { c with mdio := none }).setReg (ethBase e + 0xC)
      ((s.reg (ethBase e + 0xC) &&& 0xFFFF0000) ||| data.setWidth 32))) ∧
  (∀ (i : Fin 256) (s : State), s.coreRuns = true → (s.eth.atab.get i).valid = true → (s.eth.atab.get i).static = false →
    ((s.eth.atab.get i).hit ≠ s.tre.time →
      exec (.addressAgeExpiry i) s = .next { s with eth.atab := s.eth.atab.set i ⟨false, false, 0, 0, 0, 0⟩ }) ∧
    ((s.eth.atab.get i).hit = s.tre.time → exec (.addressAgeExpiry i) s = .next s)) ∧
  (∀ (m : Master) (src : BitVec 7) (mac : BitVec 48) (l : List (BitVec 7 × BitVec 48)) (s : State),
    s.eth.learnq = (src, mac) :: l → s.accesses m false Reg.ETH_LEARNQ_H = true →
    exec (.learnqPop m) s = .next { s with
      eth.learnq := l, eth.learnSh := mac.setWidth 32
      out := s.out ++ [.answer m (packW [(31, 1), (24, src.toNat), (0, fld mac 32 16)])] }) ∧
  (∀ (e : Fin 2) (v : Word) (s : State),
    let t := (s.setReg (ethBase e) v).ethKick e
    (s.ethTakes = false ∨ s.ethCtl e 1 = false ∨ v.getLsbD 1 = true → exec (.ethDisable e v) s = .next t) ∧
    (s.ethTakes = true → s.ethCtl e 1 = true → v.getLsbD 1 = false →
      exec (.ethDisable e v) s = .next t.took ∨ exec (.ethDisable e v) s = .next (t.took.count1 (ethCnt e) 37)))

/-- Switching of a frame from an E port (07 R231, R232): the learned state is that of ethLearn. -/
def Obligations.EtherSwitches : Prop :=
  (∀ (mac : BitVec 48) (src : BitVec 7) (i : Fin 256) (s : State), s.sys.splitAct.getLsbD 4 = false →
    s.atabHit mac = none → (s.eth.atab.get i).valid = false → (∀ j : Fin 256, j < i → (s.eth.atab.get j).valid = true) →
    s.ethLearn mac src = { s with eth.atab := s.eth.atab.set i (atabAt src ⟨true, false, 0, 0, mac, s.tre.time⟩) }) ∧
  (∀ (mac : BitVec 48) (src : BitVec 7) (i : Fin 256) (s : State), s.sys.splitAct.getLsbD 4 = false →
    s.atabHit mac = some i →
    s.ethLearn mac src = { s with eth.atab := s.eth.atab.set i { atabAt src (s.eth.atab.get i) with hit := s.tre.time } }) ∧
  (∀ (e : Fin 2) (prio : Fin 8) (b : List Byte) (s : State),
    let t := s.ethLearn (ethMac b 6) (srcE e)
    ethGroup b = false →
    (t.ethLookup (ethMac b 0) = some (srcE e) → s.ethSwitch (srcE e) (some e) prio b = t.count1 (ethCnt e) 43) ∧
    (t.ethLookup (ethMac b 0) = some (srcE (otherE e)) →
      s.ethSwitch (srcE e) (some e) prio b = t.ethSend (otherE e) ⟨prio, srcE e, b, []⟩) ∧
    (∀ n : BitVec 7, n.toNat < 0x40 → t.ethLookup (ethMac b 0) = some n →
      s.ethSwitch (srcE e) (some e) prio b = t.tunnelSend e (some (n.setWidth 6)) ⟨prio, srcE e, b, []⟩)) ∧
  (∀ (e : Fin 2) (prio : Fin 8) (b : List Byte) (s : State),
    let t := s.ethLearn (ethMac b 6) (srcE e)
    ethGroup b = true ∨ t.ethLookup (ethMac b 0) = none → t.ethCtl (otherE e) 0 = true → s.ethCtl e 7 = false →
    s.ethSwitch (srcE e) (some e) prio b = (t.ethSend (otherE e) ⟨prio, srcE e, b, []⟩).count1 (ethCnt e) 17)

/-- What raising an event does and leaves alone (08 R242, R244), EVT_SOFT (R475) and the claim registers (R243). -/
def Obligations.EventsServe : Prop :=
  (∀ (n : Nat) (s : State),
    (s.raise n).evt = {
      raw := setBit s.evt.raw n
      multi := if s.evt.raw.getLsbD n = true then setBit s.evt.multi n else s.evt.multi
      pendC := if s.regArrBit Reg.EVT_ENC n = true then setBit s.evt.pendC n else s.evt.pendC
      pendS := if s.regArrBit Reg.EVT_ENS n = true then setBit s.evt.pendS n else s.evt.pendS
      last := if s.regArrBit Reg.EVT_ALE n = true ∨ s.regArrBit Reg.EVT_LOG n = true
        then some (BitVec.ofNat 8 n) else s.evt.last
      lastAny := some (BitVec.ofNat 8 n) } ∧
    (s.raise n).sp.alert = (if s.regArrBit Reg.EVT_ALE n = true then setBit s.sp.alert (alertRow n) else s.sp.alert) ∧
    s.raise n = { s with
      evt := (s.raise n).evt, sp.alert := (s.raise n).sp.alert, fbk := (s.raise n).fbk, dma := (s.raise n).dma }) ∧
  (∀ (n : Byte) (s : State),
    (s.regBit Reg.EVT_CTL 0 = false → s.evt.last = some n → s.lastEvent = BitVec.ofNat 16 (0x8000 + n.toNat)) ∧
    (s.regBit Reg.EVT_CTL 0 = true → s.evt.lastAny = some n → s.lastEvent = BitVec.ofNat 16 (0x8000 + n.toNat)) ∧
    (s.evt.last = none → s.evt.lastAny = none → s.lastEvent = 0)) ∧
  (∀ (v : Word) (s : State), exec (.evtSoft v) s = .next (s.raise (fld v 0 8))) ∧
  (∀ (m : Master) (n : Nat) (s : State), s.accesses m false Reg.EVT_CLAIMC = true → s.bestEvent s.evt.pendC = some n →
    exec (.eventClaim m .control) s = .next { s with
      evt.pendC := clrBit s.evt.pendC n, out := s.out ++ [.answer m (packW [(31, 1), (0, n)])] }) ∧
  (∀ (m : Master) (n : Nat) (s : State), s.accesses m false Reg.EVT_CLAIMS = true → s.bestEvent s.evt.pendS = some n →
    exec (.eventClaim m .steward) s = .next { s with
      evt.pendS := clrBit s.evt.pendS n, out := s.out ++ [.answer m (packW [(31, 1), (0, n)])] }) ∧
  (∀ (m : Master) (s : State), s.accesses m false Reg.EVT_CLAIMC = true → s.bestEvent s.evt.pendC = none →
    exec (.eventClaim m .control) s = .next { s with out := s.out ++ [.answer m 0] }) ∧
  (∀ (m : Master) (s : State), s.accesses m false Reg.EVT_CLAIMS = true → s.bestEvent s.evt.pendS = none →
    exec (.eventClaim m .steward) s = .next { s with out := s.out ++ [.answer m 0] })

/-- The cairn (08 R239, R241): what the bank holds, what the counters hold, and that no other port changes. -/
def Obligations.CairnCopies : Prop :=
  (∀ (v : Word) (p : Fin 8) (s : State), v.getLsbD 31 = true → fld v 0 3 = p.val → (s.cnt.get p).busy = none →
    ∃ t, exec (.cairnRequest v) s = .next t ∧
      t.cnt.get p = { s.cnt.get p with busy := some (v.getLsbD 30), busyAt := s.tre.time } ∧
      ∀ q, q ≠ p → t.cnt.get q = s.cnt.get q) ∧
  (∀ (v : Word) (p : Fin 8) (clr : Bool) (s : State), v.getLsbD 31 = true → fld v 0 3 = p.val →
    (s.cnt.get p).busy = some clr → ∃ t, exec (.cairnRequest v) s = .next t ∧ (∀ q, q ≠ p → t.cnt.get q = s.cnt.get q) ∧
      ((s.cnt.get p).busyAt = s.tre.time → t.cnt.get p = { s.cnt.get p with busy := some (clr || v.getLsbD 30) }) ∧
      ((s.cnt.get p).busyAt ≠ s.tre.time → t.cnt.get p = { s.cnt.get p with
        held := some ((((s.cnt.get p).held).getD false) || v.getLsbD 30) })) ∧
  (∀ (p : Fin 8) (clr : Bool) (s : State), s.coreRuns = true → (s.cnt.get p).busy = some clr →
    ∃ t, exec (.cairn p) s = .next t ∧
      (t.cnt.get p).bank = {
        vals := (s.cnt.get p).ctr, time := s.tre.time, tcount := s.tre.tcount
        cseq := (s.cnt.get p).bank.cseq + 2, clr := clr } ∧
      (t.cnt.get p).ctr = (if clr = true then Vector.replicate 48 0 else (s.cnt.get p).ctr) ∧
      (t.cnt.get p).busy = (s.cnt.get p).held ∧ (∀ q, q ≠ p → t.cnt.get q = s.cnt.get q) ∧
      t.evt.raw = setBit s.evt.raw 152)

/-- The Field Book (08 R249 to R253). -/
def Obligations.FieldBookServes : Prop :=
  (∀ (r : FbRec) (q : Half), fbValid (fbSeal (r.body q)) = true) ∧
  (∀ s : State, s.coreRuns = true → s.regFld Reg.FBK_CTL 16 12 ≠ 0 →
    exec .fbHealthTimer s = .next (s.fbQueue (s.fbRec 2 0 s.healthData))) ∧
  (∀ (r : FbRec) (s : State), s.regBit Reg.FBK_CTL 0 = true → s.fbk.queue.length < 32 →
    s.fbQueue r = { s with fbk.queue := s.fbk.queue ++ [r] }) ∧
  (∀ (r : FbRec) (s : State), s.regBit Reg.FBK_CTL 0 = true → 32 ≤ s.fbk.queue.length →
    s.fbQueue r = { s with fbk.dropped := s.fbk.dropped + 1, fbk.lost := satSucc s.fbk.lost }) ∧
  (∀ (ev n : Byte) (data : Dword) (s : State), s.coreRuns = true →
    s.fbk.folds.find? (·.1 == ev) = some (ev, n, data) → n ≠ 0 →
    ∃ t, exec (.fbRepeatExpiry ev) s = .next t ∧
      t.fbk.queue = (s.fbQueue { s.fbRec 1 ev data with repeat_ := n }).fbk.queue ∧
      t = { s with fbk := t.fbk }) ∧
  (∀ (v : Word) (s : State), v.getLsbD 0 = true →
    exec (.fbkUsergo v) s = .next (s.fbQueue (s.fbRec 0x10 0
      (BitVec.ofNat 64 ((s.reg Reg.FBK_USER).toNat + (s.reg (Reg.FBK_USER + 4)).toNat * 2 ^ 32))))) ∧
  (∀ s : State,
    (s.fbk.wipe.isSome = true → s.fbHead = some (s.fbRec 7 0 0)) ∧
    (s.fbk.wipe = none →
      (s.fbk.dropped ≠ 0 → s.fbHead = some (s.fbRec 6 0 (BitVec.ofNat 64 (min s.fbk.dropped 0xFFFFFFFF)))) ∧
      (s.fbk.dropped = 0 → s.fbHead = (s.fbk.restored ++ s.fbk.queue).head?))) ∧
  (∀ (r : FbRec) (q : List FbRec) (c : Nat) (s : State), s.coreRuns = true → s.fbk.full = false →
    s.sys.splitAct.getLsbD 9 = false →
    s.fbBlocked = false → s.fbk.wipe = none → s.fbk.dropped = 0 → s.fbk.restored = [] → s.fbk.queue = r :: q →
    s.fbCur = some c → s.fbFill c < 127 →
    exec (.fbRecordWrite none) s = .next (State.flashAndBytes (fbSlot c (s.fbFill c)) (fbSeal (r.body s.fbNextSeq))
      { s with fbk.queue := q })) ∧
  (∀ (r : FbRec) (s : State), s.coreRuns = true → s.fbk.full = false → s.sys.splitAct.getLsbD 9 = false →
    s.fbBlocked = false →
    let t := s.fbReady
    (s.fbRoom = true → t = s) ∧
    (s.fbRoom = false → s.fbClean s.fbTarget = true → t = s.fbOpen s.fbTarget s.fbOpenGen s.fbOpenSeq) ∧
    (t.fbBlocked = true → exec (.fbRecordWrite none) s = .next t) ∧
    (t.fbBlocked = false → t.fbRoom = true → t.fbHead = some r →
      exec (.fbRecordWrite none) s = .next ((t.fbTake.fbPut (fbSeal (r.body t.fbNextSeq))).raiseIf t.fbLoss 12))) ∧
  (∀ s : State, s.fbk.wipe.isSome = true → s.fbTarget = s.fbNext 63 ∧ s.fbOpenSeq = 0) ∧
  (∀ s : State, s.stopOrLimp = true →
    exec (.fbkWipe 0xF1B0) s = .next (State.each { s with
        fbk.wipe := some (BitVec.ofNat 32 (match s.fbTop with | some c => s.fbGen c + 64 | none => 0)), fbk.eraseWait := [] }
      ((List.range 64).filter s.fbInService) fun i u =>
        if 20000 ≤ u.wear (fbSector i) then u.fbRetire i else u.fbErase i)) ∧
  (∀ (v : Word) (s : State), v ≠ 0xF1B0 ∨ s.stopOrLimp = false → exec (.fbkWipe v) s = .next s) ∧
  (∀ (m : Master) (r : FbRec) (s : State), s.accesses m false Reg.FBK_RAW = true → s.sys.splitAct.getLsbD 9 = true →
    s.fbHead = some r →
    ∃ t, exec (.fbkRawPop m) s = .next t ∧ t.out = s.out ++ [.answer m (r.rawWords.headD 0)] ∧
      (∀ i : Fin 8, t.fbk.raw.get i = r.rawWords.getD i.val 0) ∧ t.evt = (s.raiseIf s.fbLoss 12).evt ∧
      (s.fbk.wipe = none → s.fbk.dropped = 0 → s.fbk.restored = [] → t.fbk.queue = s.fbk.queue.drop 1))

/-- RUN and STOP requests (09 R260 to R262; 16 R432, R435; a RUN request in LOAD, INIT or RUN: log 43). -/
def Obligations.RunRequested : Prop :=
  let refused (src : RunSource) (s : State) (c : Half) : Prop :=
    exec (.runRequest src) s = .next (if src = .spMode then { s with ctl.fault := c, sp.last := 3 } else { s with ctl.fault := c })
  (∀ (src : RunSource) (s : State), s.progBusy = true → exec (.runRequest src) s = .next s) ∧
  (∀ (src : RunSource) (s : State), s.progBusy = false → s.sys.parts.get 2 ≠ .inService → refused src s 0x092C) ∧
  (∀ (src : RunSource) (s : State), s.progBusy = false → s.sys.parts.get 2 = .inService → s.handshake = false →
    refused src s 0x092A) ∧
  (∀ (src : RunSource) (s : State), s.progBusy = false → s.sys.parts.get 2 = .inService → s.handshake = true →
    s.boot.phase = .limp → refused src s 0x092D) ∧
  (∀ (src : RunSource) (s : State), s.progBusy = false → s.sys.parts.get 2 = .inService → s.handshake = true →
    s.boot.phase ≠ .limp → s.sp.walk = true → refused src s 0x092E) ∧
  (∀ (src : RunSource) (s : State), s.progBusy = false → s.sys.parts.get 2 = .inService → s.handshake = true →
    s.boot.phase ≠ .limp → s.sp.walk = false → s.runCycleUs ≤ s.inwaitUs + s.outguardUs + 100 → refused src s 0x0925) ∧
  (∀ (src : RunSource) (s : State), s.progBusy = false → s.sys.parts.get 2 = .inService → s.handshake = true →
    s.boot.phase ≠ .limp → s.sp.walk = false → s.inwaitUs + s.outguardUs + 100 < s.runCycleUs →
      s.slotValid s.slotSel = false →
    refused src s 0x0929) ∧
  (∀ (src : RunSource) (s : State), s.progBusy = false → s.sys.parts.get 2 = .inService → s.handshake = true →
    s.boot.phase ≠ .limp → s.sp.walk = false → s.inwaitUs + s.outguardUs + 100 < s.runCycleUs → s.slotValid s.slotSel = true →
    BitVec.ofNat 32 (s.flashLe (slotBase s.slotSel + 0x2C) 4) ≠ s.boot.rtver → refused src s 0x092B) ∧
  (∀ (src : RunSource) (s : State), s.progBusy = false → s.sys.parts.get 2 = .inService → s.handshake = true →
    s.boot.phase ≠ .limp → s.sp.walk = false → s.inwaitUs + s.outguardUs + 100 < s.runCycleUs → s.slotValid s.slotSel = true →
    BitVec.ofNat 32 (s.flashLe (slotBase s.slotSel + 0x2C) 4) = s.boot.rtver →
    ∃ t, exec (.runRequest src) s = .next t ∧ t.ctl.pstate = .load ∧ t.ctl.slotrun = s.slotSel ∧ t.ctl.overruns = 0 ∧
      t.ctl.skipped = 0 ∧ t.ctl.stopReq = false ∧ t.ctl.fault = s.ctl.fault ∧
      (s.ctl.pstate ≠ .faultstop → t.ctl.hartC = s.ctl.hartC ∧ t.mem = s.mem) ∧
      (s.ctl.pstate = .faultstop → ∀ g : Fin 32, (t.gate g).owner ≠ 1 ∧
        ((s.gate g).owner = 1 → t.gate g = ⟨0, true⟩) ∧ ((s.gate g).owner ≠ 1 → t.gate g = s.gate g))) ∧
  (∀ s : State, s.progBusy = true → exec .stopRequest s = .next { s with ctl.stopReq := true }) ∧
  (∀ s : State, s.progBusy = false → exec .stopRequest s = .next s)

/-- Faults (09 R259, R269, R276, R278, R279, Tables 9.3 and 9.11; what Table 9.3 leaves to the privileged specification: log 10). -/
def Obligations.ProgramFaults : Prop :=
  (∀ (code : Half) (arg : Word) (s : State),
    let t := s.faultStop code arg
    t.ctl.pstate = .faultstop ∧ t.ctl.fault = code ∧ t.ctl.faultarg = arg ∧ t.evt.raw.getLsbD 242 = true ∧
      t.evt.raw.getLsbD 241 = true ∧ t.sys.spFault = (if s.sys.spFault = 0 then code else s.sys.spFault) ∧
      t.ctl.running = false ∧ t.ctl.stopReq = false ∧ t.mem = s.mem ∧ t.ctl.hartC = { s.ctl.hartC with user := false } ∧
        t.regs = s.regs ∧
      t.itn.seq ≠ .hook) ∧
  (∀ s : State, s.coreRuns = true → s.ctl.pstate = .load →
    (s.desc (slotBase s.ctl.slotrun)).ok (s.flashLe (slotBase s.ctl.slotrun + 0x10) 4) = false →
    exec .loadComplete s = .next (s.faultStop 0x0923 s.mepc)) ∧
  (∀ s : State, s.ctl.pstate ≠ .load → exec .loadComplete s = .next s) ∧
  (∀ (a0 : Word) (s : State), s.coreRuns = true → s.ctl.pstate = .init → s.ctl.native = true → a0 ≠ 0 →
    exec (.initReturn a0) s = .next (s.callBack.faultStop 0x0922 s.callBack.mepc)) ∧
  (∀ s : State, s.coreRuns = true → s.ctl.pstate = .init → exec .initTimeout s = .next (s.faultStop 0x0924 s.mepc)) ∧
  (∀ s : State, s.ctl.pstate ≠ .init → exec .initTimeout s = .next s ∧ ∀ a0, exec (.initReturn a0) s = .next s) ∧
  (∀ (mcause : BitVec 4) (mepc : Word) (s : State), s.coreRuns = true → s.progActive = true → mcause ≠ 8 →
    ∃ t, exec (.programFault mcause mepc) s = .next t ∧ t.ctl.pstate = .faultstop ∧
      t.ctl.fault = 0x0900 + mcause.setWidth 16 ∧ t.ctl.hartC.user = false ∧ t.ctl.faultarg = mepc ∧
        t.ctl.hartC.csr 0x341 = mepc ∧
      t.ctl.hartC.csr 0x342 = mcause.setWidth 32 ∧ t.ctl.hartC.pc = s.ctl.hartC.csr 0x305 &&& 0xFFFFFFFC ∧
      t.ctl.hartC.csr 0x300 = packW [(3, 0), (7, ((s.ctl.hartC.csr 0x300).getLsbD 3).toNat), (11, if s.ctl.hartC.user then 0 else 3)] ∧
      t.ctl.hartC.x = s.ctl.hartC.x ∧ t.mem = s.mem) ∧
  (∀ (mcause : BitVec 4) (mepc : Word) (s : State),
    s.progActive = false ∨ (mcause = 8 ∧ 1 ≤ (s.ctl.hartC.x.get 17).toNat ∧ (s.ctl.hartC.x.get 17).toNat ≤ 10) →
    exec (.programFault mcause mepc) s = .next s) ∧
  (∀ (mepc : Word) (s : State), s.coreRuns = true → s.progActive = true →
    s.ctl.hartC.x.get 17 = 0 ∨ 10 < (s.ctl.hartC.x.get 17).toNat →
    ∃ t, exec (.programFault 8 mepc) s = .next t ∧ t.ctl.pstate = s.ctl.pstate ∧ t.ctl.hartC.user = s.ctl.hartC.user ∧
      t.ctl.hartC.pc = mepc + 4 ∧ t.ctl.hartC.csr 0x342 = 8 ∧ t.ctl.hartC.x = s.ctl.hartC.x.set 10 0xFFFFFFFF ∧
        t.mem = s.mem ∧ t.evt = s.evt) ∧
  (∀ (a0 : Word) (s : State), s.coreRuns = true → s.progActive = true →
    exec (.fault a0) s = .next ((s.trapFree 8 0).faultStop 0x0922 a0)) ∧
  (∀ s : State, s.coreRuns = true → s.ctl.running = true → s.wdogN ≤ s.ctl.sinceOwn →
    exec .cycleWatchdog s = .next ((s.raise 244).faultStop 0x0920 s.mepc)) ∧
  (∀ s : State, s.ctl.running = false ∨ s.ctl.sinceOwn < s.wdogN → exec .cycleWatchdog s = .next s) ∧
  (∀ s : State, s.coreRuns = true → s.ctl.running = true → s.ctl.overran = false → s.ovrstop = true →
    ∃ t, exec .outputDeadline s = .next t ∧ t.ctl.pstate = .faultstop ∧ t.ctl.fault = 0x0921 ∧
      t.ctl.overruns = satSucc s.ctl.overruns ∧ t.evt.raw.getLsbD 243 = true) ∧
  (∀ s : State, s.coreRuns = true → s.ctl.running = true → s.ctl.overran = false → s.ovrstop = false → s.ctl.pstate = .run →
    ∃ t, exec .outputDeadline s = .next t ∧ t.ctl.pstate = .run ∧ t.ctl.overran = true ∧
      t.ctl.overruns = satSucc s.ctl.overruns ∧ t.ctl.pendcause = setBit s.ctl.pendcause 2 ∧
      t.evt.raw.getLsbD 243 = true ∧ t.mem = s.mem) ∧
  (∀ s : State, s.ctl.running = false ∨ s.ctl.overran = true → exec .outputDeadline s = .next s)

/-- LOAD, INIT and the cycle's end (09 R257, R259, R262, R270, R271, R281; an itinerary-only program returns 0: log 44). -/
def Obligations.ProgramLoads : Prop :=
  (∀ s : State,
    let base := slotBase s.ctl.slotrun
    let d := s.desc base
    let tab := s.itnTab (base + d.itnOfs)
    (∀ i : Fin 4, (s.ctl.hartC.csr (0x17A1 + 0x1000 * i.val)).getLsbD 2 = false) → s.coreRuns = true →
      s.ctl.pstate = .load → d.ok (s.flashLe (base + 0x10) 4) = true →
    d.itin = false ∨ s.itnRefusal tab (base + tab.instOfs) = none →
    ∃ t, exec .loadComplete s = .next t ∧ t.ctl.pstate = .init ∧ t.ctl.pmp.length = 8 ∧
      (∀ i : Fin 8, t.ctl.pmp.getD i (0, 0, 0) =
        (if (s.ctl.hartC.pmpCfg i).getLsbD 7 = true then s.ctl.pmp else pmpOf d).getD i (0, 0, 0)) ∧
      t.ctl.entryInit = BitVec.ofNat 32 d.init ∧ t.ctl.entryCycle = BitVec.ofNat 32 d.cycle ∧
      t.ctl.native = d.native ∧ t.ctl.itin = d.itin ∧ t.ctl.initrsn = s.retReason d ∧
      (d.native = true → t.ctl.hartC.pc = BitVec.ofNat 32 d.init ∧ t.ctl.hartC.x.get 2 = BitVec.ofNat 32 d.stackTop ∧
        t.ctl.hartC.x.get 3 = BitVec.ofNat 32 d.gp ∧ t.ctl.hartC.x.get 4 = 0 ∧
        t.ctl.hartC.x.get 10 = (s.retReason d).setWidth 32 ∧ t.ctl.hartC.x.get 11 = 0x1007FF00 ∧ t.ctl.hartC.user = true)) ∧
  (∀ (a0 : Word) (s : State), s.coreRuns = true → s.ctl.pstate = .init → s.ctl.native = false ∨ a0 = 0 →
    s.ctl.stopReq = false →
    ∃ t, exec (.initReturn a0) s = .next t ∧ t.ctl.pstate = .run ∧ t.ctl.cycnt = 0 ∧ t.ctl.first = true ∧
      t.ctl.pendcause = 0 ∧ t.ctl.running = false ∧ t.evt.raw.getLsbD 240 = true ∧ t.mem = s.mem) ∧
  (∀ (a0 : Word) (s : State), s.coreRuns = true → s.ctl.pstate = .init → s.ctl.native = false ∨ a0 = 0 →
    s.ctl.stopReq = true →
    ∃ t, exec (.initReturn a0) s = .next t ∧ t.ctl.pstate = .stop ∧ t.ctl.stopReq = false ∧
      t.evt.raw.getLsbD 241 = true ∧ t.mem = s.mem) ∧
  (∀ (a0 : Word) (us : Nat) (l : List Served) (s : State), s.coreRuns = true → s.ctl.running = true →
    s.ctl.waiting = false → s.itn.at_ = none →
    s.ctl.inError = false →
    ∃ t, exec (.cycleReturn a0 us l) s = .next t ∧ t.ctl.running = false ∧ t.ctl.returned = true ∧
      t.ctl.hartC.user = false ∧ (s.ctl.hartC.user = true → t.ctl.hartC.csr 0x342 = 8) ∧
        t.ctl.lastus = BitVec.ofNat 16 (min us 65535) ∧ t.ctl.maxus.toNat = max s.ctl.maxus.toNat (min us 65535) ∧
      t.tre.commit = (s.tre.commit || !(s.ctl.native && a0.getLsbD 0)) ∧
      t.lane.go = (s.lane.go || !(s.ctl.overran || (s.ctl.native && a0.getLsbD 1))) ∧
      t.ctl.stopReq = (s.ctl.stopReq || (s.progBusy && s.ctl.native && a0.getLsbD 31)) ∧ t.mem = s.mem) ∧
  (∀ (a0 : Word) (us : Nat) (l : List Served) (s : State), s.ctl.running = false ∨ s.ctl.waiting = true ∨ s.itn.at_ ≠ none →
    exec (.cycleReturn a0 us l) s = .next s) ∧
  (∀ (l : List Served) (s : State), s.lane.state = .off ∨ s.lane.released = true →
    s.ctl.running = false ∨ s.ctl.waiting = false →
    exec (.inputImageRelease l) s = .next s) ∧
  (∀ (l : List Served) (s : State), s.lane.state = .off ∨ s.lane.released = true → s.coreRuns = true →
    s.ctl.running = true → s.ctl.waiting = true →
    s.ctl.pendcause = 0 → s.ctl.itin = false → s.ctl.native = false → s.itn.seq ≠ .hook →
    exec (.inputImageRelease l) s = .next (({ s with ctl.waiting := false } : State).passStart)) ∧
  (∀ (l : List Served) (s : State), s.lane.state = .off ∨ s.lane.released = true → s.coreRuns = true → s.ctl.running = true →
    s.ctl.waiting = true → s.ctl.pendcause = 0 → s.ctl.itin = false → s.ctl.native = true → s.itn.seq ≠ .halt →
      s.itn.at_ = none →
    (∀ i : Fin 4, (s.ctl.hartC.csr (0x17A1 + 0x1000 * i.val)).getLsbD 2 = false) → s.itn.erridx = 0 → s.itn.table = [] →
      l = [] →
    ∃ t, exec (.inputImageRelease l) s = .next t ∧ t.ctl.waiting = false ∧ t.ctl.hartC.pc = s.ctl.entryCycle ∧
      t.ctl.hartC.user = true ∧ t.ctl.hartC.x.get 2 = s.ctl.stacktop ∧ t.ctl.hartC.x.get 3 = s.ctl.gpval ∧
      t.ctl.hartC.x.get 4 = 0 ∧ t.ctl.hartC.x.get 10 = 0x1007FF00 ∧ t.ctl.hartC.x.get 11 = s.wordAt 0x1007FF04) ∧
  (∀ (x : Served) (s : State), s.coreRuns = true → x.m ≠ .service → x.m ≠ .causeway → (∀ n, x.m ≠ .dma n) →
    (heldRegion (x.addr.toNat / 4 * 4) = false → s.serve x = s) ∧
    (heldRegion (x.addr.toNat / 4 * 4) = true →
      s.serve x = { s.serveAccess x with itn.passcyc := (s.serveAccess x).itn.passcyc + 2 })) ∧
  (∀ (a : Word) (be : BitVec 4) (w : Option Word) (i : BitVec 12) (s : State), s.coreRuns = true →
    (s.sp.busy = false → s.serve ⟨i, .service, a, be, w⟩ = s) ∧
    (s.sp.busy = true → (s.serve ⟨i, .service, a, be, w⟩).sp.busy = false ∧ (s.serve ⟨i, .service, a, be, w⟩).sp.done = true ∧
      (heldRegion (s.sp.daddr.toNat / 4 * 4) = true →
        (s.serve ⟨i, .service, a, be, w⟩).itn.passcyc = s.deepDone.itn.passcyc + 2))) ∧
  (∀ (l : List Served) (s : State), s.lane.state = .off ∨ s.lane.released = true → s.coreRuns = true →
    s.ctl.running = true → s.ctl.waiting = true →
    s.ctl.pendcause ≠ 0 → s.ctl.native = true → s.ctl.entryError ≠ 0 →
    (∀ i : Fin 4, (s.ctl.hartC.csr (0x17A1 + 0x1000 * i.val)).getLsbD 2 = false) →
    ∃ t, exec (.inputImageRelease l) s = .next t ∧ t.ctl.pendcause = 0 ∧ t.ctl.errcause = s.ctl.pendcause ∧
      t.ctl.waiting = false ∧ t.ctl.inError = true ∧ t.ctl.hartC.pc = s.ctl.entryError ∧
      t.ctl.hartC.user = true ∧ t.ctl.hartC.x.get 10 = 0x1007FF00 ∧ t.ctl.hartC.x.get 11 = s.ctl.pendcause.setWidth 32 ∧
        t.evt.raw.getLsbD 245 = true)

/-- A latch instant and the cycle (09 R277). -/
def Obligations.LatchWhileRunning : Prop :=
  (∀ s : State, s.coreRuns = true → s.latchDue = true → s.ctl.running = true →
    ∃ t, exec .latchInstant s = .next t ∧ t.ctl.running = true ∧ t.ctl.cycnt = s.ctl.cycnt ∧
      t.ctl.waiting = s.ctl.waiting ∧ t.ctl.skipped = satSucc s.ctl.skipped ∧
      t.ctl.pstate = (if s.ctl.pstate = .run ∧ s.ctl.stopReq = true then .stop else s.ctl.pstate)) ∧
  (∀ s : State, s.coreRuns = true → s.latchDue = true → s.ctl.pstate = .run → s.ctl.stopReq = false → s.ctl.running = false →
    ∃ t, exec .latchInstant s = .next t ∧ t.ctl.pstate = .run ∧ t.ctl.running = true ∧ t.ctl.cycnt = s.ctl.cycnt + 1 ∧
      t.ctl.waiting = true ∧ t.ctl.skipped = s.ctl.skipped)

/-- Services (09 R273, R274, Table 9.10; bad gate and queue numbers are bad arguments; the ECALL's trap: log 224). -/
def Obligations.ServicesAnswer : Prop :=
  let back (s : State) (h : HartState) (x : Vector Word 32) : Prop :=
    h.x = x ∧ h.user = s.ctl.hartC.user ∧ h.pc = h.csr 0x341 ∧ h.csr 0x342 = 8
  let answers (i : Instr) (s r : State) (x : Vector Word 32) : Prop :=
    ∃ h, exec i s = .next { r with ctl.hartC := h, free := s.free + 1 } ∧ back s h x
  let a0Is (s : State) (v : Word) : Vector Word 32 := s.ctl.hartC.x.set 10 v
  (∀ s : State, s.coreRuns = true →
    answers .timeNow s s ((a0Is s (s.tre.time.setWidth 32)).set 11 ((s.tre.time >>> 32).setWidth 32))) ∧
  (∀ (a0 a1 : Word) (s : State), s.coreRuns = true → s.track = true → answers (.fbUser a0 a1) s s (a0Is s 0) ∧
    answers (.roadSend a0 a1) s s (a0Is s 0)) ∧
  (∀ (a0 a1 : Word) (s : State), s.coreRuns = true → s.track = false → s.regBit Reg.FBK_CTL 0 = true →
    s.fbk.queue.length < 32 →
    answers (.fbUser a0 a1) s { s with fbk.queue := s.fbk.queue ++ [s.fbRec 0x10 0
      (BitVec.ofNat 64 (a0.toNat + a1.toNat * 2 ^ 32))] } (a0Is s 0)) ∧
  (∀ (a0 a1 : Word) (s : State), s.coreRuns = true → s.track = false → 32 ≤ s.fbk.queue.length →
    ∃ t, exec (.fbUser a0 a1) s = .next t ∧ back s t.ctl.hartC (a0Is s 0xFFFFFFFB) ∧ t.fbk.queue = s.fbk.queue) ∧
  (∀ (a0 a1 : Word) (s : State), s.coreRuns = true → s.track = false → a1 = 0 ∨ s.userMay false a0.toNat a1.toNat = false →
    answers (.roadSend a0 a1) s s (a0Is s 0xFFFFFFFE)) ∧
  (∀ (a0 a1 : Word) (s : State), s.coreRuns = true → s.track = false → 0 < a1.toNat → a1.toNat ≤ 65535 →
    s.userMay false a0.toNat a1.toNat = true → (s.gate 31).owner ≠ 0 → (s.gate 31).owner ≠ 1 →
    answers (.roadSend a0 a1) s s (a0Is s 0xFFFFFFFC)) ∧
  (∀ (a0 a1 : Word) (s : State),
    let u := (s.trapFree 8 0).setGate 31 ⟨1, false⟩
    let r := u.coreReads (wordsOf a0.toNat a1.toNat)
    s.coreRuns = true → s.track = false → 0 < a1.toNat → a1.toNat ≤ 65535 →
    s.userMay false a0.toNat a1.toNat = true → (s.gate 31).owner = 0 →
    (∀ at_ : Nat, u.coreBad a0.toNat a1.toNat = none → r.txPlace ((a1.toNat + 7) / 8 * 8) = some (at_, false) →
      ∃ t, exec (.roadSend a0 a1) s = .next t ∧ t.ctl.hartC.x.get 10 = 0 ∧ t.gate 31 = ⟨0, false⟩) ∧
    (u.coreBad a0.toNat a1.toNat = none → r.txPlace ((a1.toNat + 7) / 8 * 8) = none →
      ∃ t, exec (.roadSend a0 a1) s = .next t ∧ t.ctl.hartC.x.get 10 = 0xFFFFFFFB ∧ t.gate 31 = ⟨0, false⟩) ∧
    (∀ w : Nat, u.coreBad a0.toNat a1.toNat = some w →
      ∃ t, exec (.roadSend a0 a1) s = .next t ∧ t.ctl.hartC.csr 0x342 = 5 ∧ t.ctl.hartC.csr 0x343 = BitVec.ofNat 32 w ∧
        t.ctl.hartC.x = s.ctl.hartC.x)) ∧
  (∀ (a0 a1 a2 : Word) (s : State), s.coreRuns = true → 12 < a0.toNat →
    answers (.roadRecv a0 a1 a2) s s (a0Is s 0xFFFFFFFE)) ∧
  (∀ (a0 a1 a2 : Word) (s : State), s.coreRuns = true → a0.toNat ≤ 12 → s.rxSize a0.toNat = 0 →
    answers (.roadRecv a0 a1 a2) s s (a0Is s 0)) ∧
  (∀ (a0 a1 a2 rp : Word) (s : State),
    let u := s.trapFree 8 0
    s.coreRuns = true → a0.toNat ≤ 12 → s.reg (Reg.ROAD_RXRP + 0x10 * a0.toNat) = rp →
    s.rxBase a0.toNat ≤ rp.toNat → rp.toNat < s.rxBase a0.toNat + s.rxSize a0.toNat → rp.toNat ≠ s.rxPos a0.toNat →
    u.recLen rp.toNat ≠ 0 →
    (a2.toNat < u.recLen rp.toNat → answers (.roadRecv a0 a1 a2) s s (a0Is s 0xFFFFFFFE)) ∧
    (u.recLen rp.toNat ≤ a2.toNat → s.userMay true a1.toNat (u.recLen rp.toNat) = true →
      u.coreBad rp.toNat (u.recLen rp.toNat) = none →
      ∃ t, exec (.roadRecv a0 a1 a2) s = .next t ∧ t.ctl.hartC.x.get 10 = BitVec.ofNat 32 (u.recLen rp.toNat))) ∧
  (∀ (a0 : Word) (g : Fin 32) (s : State), s.coreRuns = true → a0.toNat = g.val → g.val ≠ 31 → (s.gate g).owner = 0 →
    answers (.gateTry a0) s (s.setGate g ⟨1, false⟩) ((a0Is s 0).set 11 (if (s.gate g).broken = true then 1 else 0))) ∧
  (∀ (a0 : Word) (g : Fin 32) (s : State), s.coreRuns = true → a0.toNat = g.val → g.val ≠ 31 → (s.gate g).owner ≠ 0 →
    (s.gate g).owner ≠ 1 →
    answers (.gateTry a0) s s (a0Is s 0xFFFFFFFC)) ∧
  (∀ (a0 : Word) (s : State), s.coreRuns = true → 31 ≤ a0.toNat → answers (.gateTry a0) s s (a0Is s 0xFFFFFFFE) ∧
    answers (.gateRelease a0) s s (a0Is s 0xFFFFFFFE)) ∧
  (∀ (a0 : Word) (g : Fin 32) (s : State), s.coreRuns = true → a0.toNat = g.val → g.val ≠ 31 → (s.gate g).owner = 1 →
    answers (.gateRelease a0) s (s.setGate g ⟨0, false⟩) (a0Is s 0)) ∧
  (∀ (a0 : Word) (g : Fin 32) (s : State), s.coreRuns = true → a0.toNat = g.val → (s.gate g).owner ≠ 1 →
    answers (.gateRelease a0) s s (a0Is s 0xFFFFFFFE)) ∧
  (∀ (a0 a1 : Word) (q : Fin 16) (s : State), s.coreRuns = true → a0.toNat = q.val → (s.queue q).items.length < 16 →
    ∃ t, exec (.queuePush a0 a1) s = .next t ∧ back s t.ctl.hartC (a0Is s 0) ∧
      t.queue q = { s.queue q with items := (s.queue q).items ++ [a1] }) ∧
  (∀ (a0 a1 : Word) (q : Fin 16) (s : State), s.coreRuns = true → a0.toNat = q.val → 16 ≤ (s.queue q).items.length →
    ∃ t, exec (.queuePush a0 a1) s = .next t ∧ back s t.ctl.hartC (a0Is s 0xFFFFFFFB) ∧
      t.queue q = { s.queue q with refused := satSucc (s.queue q).refused } ∧ t.evt.raw.getLsbD 239 = true) ∧
  (∀ (a0 v : Word) (l : List Word) (q : Fin 16) (s : State), s.coreRuns = true → a0.toNat = q.val →
    (s.queue q).items = v :: l →
    ∃ t, exec (.queuePop a0) s = .next t ∧ back s t.ctl.hartC ((a0Is s 0).set 11 v) ∧
      t.queue q = { s.queue q with items := l }) ∧
  (∀ (a0 : Word) (q : Fin 16) (s : State), s.coreRuns = true → a0.toNat = q.val → (s.queue q).items = [] →
    ∃ t, exec (.queuePop a0) s = .next t ∧ back s t.ctl.hartC (a0Is s 0xFFFFFFFB) ∧ t.queue q = s.queue q) ∧
  (∀ s : State, s.coreRuns = true → answers .reqStop s s.stopAsk (a0Is s 0))

/-- The entries of the itinerary (10 R288 to R291, R296, R298, R301). -/
def Obligations.EntriesRun : Prop :=
  let ends (s u : State) : State := { u with sp.met := u.sp.met || (s.sp.walk && decide (s.sp.until_ = 2)) }
  (∀ (c : Entry → Instr) (b : Blk), BlockCommand c b → ∀ (e : Entry) (s : State),
    let t := if e.en = 0 then s else s.refFx e.enref
    (s.coreRuns = true → s.enabled e = some true → t.entryReadable b e = true →
      exec (c e) s = .next (ends s (t.entryResult b e))) ∧
    (s.coreRuns = true → s.enabled e = some true → t.entryReadable b e = false →
      exec (c e) s = .next (ends s ((t.entryBegin b e).entryFault e))) ∧
    (s.enabled e = some false → exec (c e) s = .next s) ∧
    (s.coreRuns = true → s.enabled e = none → exec (c e) s = .next (ends s (t.entryFault e)))) ∧
  (∀ (e : Entry) (s : State), s.coreRuns = true → s.enabled e = some false →
    exec (.entrySkip e) s = .next (ends s (let t := if e.en = 0 then s else s.refFx e.enref
      { t with
        itn.idx := BitVec.ofNat 12 e.index, itn.passcyc := t.itn.passcyc + BitVec.ofNat 32 (2 * (1 + e.skip.toNat))
        itn.skipped := t.itn.skipped + BitVec.ofNat 16 (1 + e.skip.toNat) }))) ∧
  (∀ (e : Entry) (s : State), s.enabled e = some true → exec (.entrySkip e) s = .next s) ∧
  (∀ (sv : Served → State → State) (k i hi : Nat) (ty : BitVec 6) (e : Entry) (s : State), i < hi → s.itn.seq ≠ .halt →
    s.itn.table[i]? = some (ty, e) →
    let n := if s.enabled e = some false then i + 1 + e.skip.toNat else i + 1
    let u := (s.entryStep (blkOf ty) e).when (decide (n < hi)) State.dmaGap
    (u.sp.walk = true → u.sp.met = true → u.itn.seq ≠ .halt → s.seqLoop sv (k + 1) i hi [] = { u with itn.at_ := some n }) ∧
    (u.sp.walk = false ∨ u.sp.met = false → s.seqLoop sv (k + 1) i hi [] = u.seqLoop sv k n hi [])) ∧
  (∀ (e : Entry) (s : State),
    let t := s.entryFault e
    t.itn.seq = .halt ∧ t.ctl.pstate = .faultstop ∧ t.ctl.fault = 0x0927 ∧
      t.ctl.faultarg = BitVec.ofNat 32 e.index ∧ t.evt.raw.getLsbD 249 = true ∧ t.mem = s.mem)

/-- Integer blocks (10 R292, R293, R296, Table 10.5). -/
def Obligations.IntegerBlocks : Prop :=
  let clamp (v : Int) : Int := max (-2147483648) (min 2147483647 v)
  let gives (o : BlkOut) (v : Int) : Prop :=
    (∃ y : Word, o.y = some y ∧ y.toInt = clamp v) ∧ (o.sat = true ↔ v < -2147483648 ∨ 2147483647 < v)
  ∀ x : BlkIn,
    gives (bAdd.fn x) (x.a.toInt + x.b.toInt + x.c.toInt) ∧
    gives (bSub.fn x) (x.a.toInt - x.b.toInt) ∧
    gives (bMul.fn x) (x.a.toInt * x.b.toInt) ∧
    gives (bAbs.fn x) (x.a.toInt.natAbs : Int) ∧
    gives (bNeg.fn x) (-x.a.toInt) ∧
    gives (bI2q.fn x) (x.a.toInt * 65536) ∧
    (x.b ≠ 0 → gives (bDiv.fn x) (x.a.toInt.tdiv x.b.toInt) ∧ (bDiv.fn x).divz = false) ∧
    (x.b = 0 → (bDiv.fn x).divz = true ∧ (bDiv.fn x).sat = false ∧ (bDiv.fn x).y = some
      (if x.a = 0 then 0 else if x.a.toInt < 0 then 0x80000000 else 0x7FFFFFFF)) ∧
    (x.b ≠ 0 → ∃ y : Word, (bMod.fn x).y = some y ∧ y.toInt = x.a.toInt - x.b.toInt * x.a.toInt.tdiv x.b.toInt) ∧
    (x.b = 0 → (bMod.fn x).y = some 0 ∧ (bMod.fn x).divz = true) ∧
    (∃ y : Word, (bMin.fn x).y = some y ∧ y.toInt = min x.a.toInt x.b.toInt) ∧
    (∃ y : Word, (bMax.fn x).y = some y ∧ y.toInt = max x.a.toInt x.b.toInt) ∧
    (x.b.toInt ≤ x.c.toInt → ∃ y : Word, (bLimit.fn x).y = some y ∧
      y.toInt = max x.b.toInt (min x.a.toInt x.c.toInt))

/-- Fixed-point blocks (10 R292, R293, R296, R297, Table 10.5). -/
def Obligations.FixedPointBlocks : Prop :=
  ∀ x : BlkIn,
    ((bQmul.fn x).sat = false → ∃ y : Word, (bQmul.fn x).y = some y ∧
      2 * (65536 * y.toInt - x.a.toInt * x.b.toInt).natAbs ≤ 65536) ∧
    (∃ y : Word, (bQ2i.fn x).y = some y ∧ 2 * (65536 * y.toInt - x.a.toInt).natAbs ≤ 65536) ∧
    (0 ≤ x.a.toInt → ∃ y : Word, (bQsqrt.fn x).y = some y ∧ (bQsqrt.fn x).sat = false ∧
      y.toNat * y.toNat ≤ x.a.toNat * 65536 ∧ x.a.toNat * 65536 < (y.toNat + 1) * (y.toNat + 1)) ∧
    (x.a.toInt < 0 → (bQsqrt.fn x).y = some 0 ∧ (bQsqrt.fn x).sat = true) ∧
    (x.i 3 ≤ x.i 4 → ∃ y : Word, (bPid.fn x).y = some y ∧ x.i 3 ≤ y.toInt ∧ y.toInt ≤ x.i 4) ∧
    (x.b = 0 → x.i 0 ≤ x.i 1 → ∃ y : Word, (bInteg.fn x).y = some y ∧ x.i 0 ≤ y.toInt ∧ y.toInt ≤ x.i 1) ∧
    (x.b ≠ 0 → (bInteg.fn x).y = some 0) ∧
    (x.i 2 ≤ x.a.toInt → ∃ y : Word, (bRamp.fn x).y = some y ∧ x.i 2 ≤ y.toInt ∧ y.toInt ≤ x.a.toInt) ∧
    (x.a.toInt ≤ x.i 2 → ∃ y : Word, (bRamp.fn x).y = some y ∧ x.a.toInt ≤ y.toInt ∧ y.toInt ≤ x.i 2) ∧
    (x.i 1 ≤ x.i 0 → x.i 0 < x.a.toInt → (bHyst.fn x).y = some 1) ∧
    (x.a.toInt < x.i 1 → (bHyst.fn x).y = some 0) ∧
    (x.i 1 ≤ x.a.toInt → x.a.toInt ≤ x.i 0 → (bHyst.fn x).y = some (if x.w 2 = 0 then 0 else 1)) ∧
    (x.i 0 = 2 → x.i 1 < x.i 3 → x.a.toInt ≤ x.i 1 → (bLin.fn x).y = some (x.w 2) ∧ (bLin.fn x).sat = false) ∧
    (x.i 0 = 2 → x.i 1 < x.i 3 → x.i 3 ≤ x.a.toInt → (bLin.fn x).y = some (x.w 4) ∧ (bLin.fn x).sat = false)

/-- Logic, timer, counter and table blocks (10 R292, R295, R296, Table 10.5). -/
def Obligations.LogicBlocks : Prop :=
  ∀ x : BlkIn,
    let A := decide (x.a ≠ 0)
    let B := decide (x.b ≠ 0)
    let C := decide (x.c ≠ 0)
    let word (v : Bool) : Option Word := some (if v then 1 else 0)
    (bNop.fn x).y = none ∧ (bNop.fn x).r = [] ∧
    (bAnd.fn x).y = word (A && B && C) ∧ (bOr.fn x).y = word (A || B || C) ∧ (bXor.fn x).y = word (A != B) ∧
    (bNot.fn x).y = word (!A) ∧
    (bSr.fn x).y = word (A || (decide (x.w 0 ≠ 0) && !B)) ∧ (bRs.fn x).y = word (!B && (A || decide (x.w 0 ≠ 0))) ∧
    (bRtrig.fn x).y = word (A && decide (x.w 0 = 0)) ∧ (bFtrig.fn x).y = word (!A && decide (x.w 0 ≠ 0)) ∧
    (bRtrig.fn x).r = (bFtrig.fn x).r ∧
    (bBitget.fn x).y = word (x.a.getLsbD (x.b.toNat % 32)) ∧
    (bBand.fn x).y = some (x.a &&& x.b &&& x.c) ∧ (bBor.fn x).y = some (x.a ||| x.b ||| x.c) ∧
    (bBxor.fn x).y = some (x.a ^^^ x.b) ∧
    (bShl.fn x).y = some (x.a <<< (x.b.toNat % 32)) ∧ (bShr.fn x).y = some (x.a >>> (x.b.toNat % 32)) ∧
    (bEq.fn x).y = word (decide (x.a.toInt = x.b.toInt)) ∧ (bNe.fn x).y = word (decide (x.a.toInt ≠ x.b.toInt)) ∧
    (bGt.fn x).y = word (decide (x.a.toInt > x.b.toInt)) ∧ (bGe.fn x).y = word (decide (x.a.toInt ≥ x.b.toInt)) ∧
    (bLt.fn x).y = word (decide (x.a.toInt < x.b.toInt)) ∧ (bLe.fn x).y = word (decide (x.a.toInt ≤ x.b.toInt)) ∧
    (bMove.fn x).y = some x.a ∧ (bMove.fn x).z = some x.b ∧ (bSel.fn x).y = some (if A then x.c else x.b) ∧
    (∀ i < 32, ∃ y, (bBitput.fn x).y = some y ∧ y.getLsbD i = (if i = x.b.toNat % 32 then C else x.a.getLsbD i)) ∧
    (A = true → 0 ≤ x.i 1 → 0 ≤ x.i 0 → (x.i 1 + x.dt < x.i 0 → (bTon.fn x).y = some 0 ∧
        (bTon.fn x).z = some (BitVec.ofInt 32 (x.i 1 + x.dt))) ∧
      (x.i 0 ≤ x.i 1 + x.dt → (bTon.fn x).y = some 1 ∧ (bTon.fn x).z = some (x.w 0))) ∧
    (A = false → (bTon.fn x).y = some 0 ∧ (bTon.fn x).z = some 0) ∧
    (A = true → (bTof.fn x).y = some 1 ∧ (bTof.fn x).z = some 0) ∧
    (A = false → x.i 0 ≤ x.i 1 + x.dt → (bTof.fn x).y = some 0 ∧ (bTof.fn x).z = some (x.w 0)) ∧
    (B = true → (bCtu.fn x).z = some 0 ∧ (bCtd.fn x).z = some (x.w 0)) ∧
    (B = false → A = true → x.w 2 = 0 → x.i 1 < 2147483647 → (bCtu.fn x).z = some (x.w 1 + 1)) ∧
    (B = false → A = true → x.w 2 = 0 → -2147483648 < x.i 1 → (bCtd.fn x).z = some (x.w 1 - 1)) ∧
    (B = false → A = false ∨ x.w 2 ≠ 0 → (bCtu.fn x).z = some (x.w 1) ∧ (bCtd.fn x).z = some (x.w 1)) ∧
    (x.a.toNat < 256 → (bWmok.fn x).y = word (x.frzok.getLsbD x.a.toNat)) ∧ (256 ≤ x.a.toNat → (bWmok.fn x).y = some 0) ∧
    (1 ≤ x.a.toNat → x.a.toNat ≤ 32 → (bLaneok.fn x).y = word (!x.missing.getLsbD (x.a.toNat - 1))) ∧
    (bFresh.fn x).y = word (decide (x.a ≠ x.w 0)) ∧ (x.a ≠ x.w 0 → (bFresh.fn x).z = some 0) ∧
    (bInrange.fn x).y = word (decide (x.b.toInt ≤ x.a.toInt) && decide (x.a.toInt ≤ x.c.toInt)) ∧
    ((bLoadx.fn x).sat = true ↔ x.a.toInt < 0 ∨ (x.n : Int) ≤ x.a.toInt) ∧
    (0 ≤ x.a.toInt → x.a.toInt < x.n → (bStorex.fn x).r = [x.b] ∧ (bStorex.fn x).sat = false) ∧
    (x.a.toInt < 0 ∨ (x.n : Int) ≤ x.a.toInt → (bStorex.fn x).y = some 0 ∧ (bStorex.fn x).r = [] ∧
      (bStorex.fn x).sat = true)

/-- Where an entry writes (10 R284, R285, R289). -/
def Obligations.SignalWritten : Prop :=
  ∀ (b : Blk) (e : Entry) (i : Nat) (y : Word) (s : State), b.size = 0 → b.loadx = false → b.storex = false →
    b.timed = false → i < 4096 → e.out0 = BitVec.ofNat 16 i → s.mem.errs = [] →
    (b.fn (s.entryIn b e)).y = some y → (b.fn (s.entryIn b e)).z = none → (b.fn (s.entryIn b e)).sat = false →
    (b.fn (s.entryIn b e)).divz = false → (b.fn (s.entryIn b e)).drew = false → s.entryReadable b e = true →
    let t := s.entryResult b e
    t.seqWord (0x20000000 + 4 * i) = some y ∧
    (∀ x, x < 0x20000000 + 4 * i ∨ 0x20000000 + 4 * i + 4 ≤ x → t.byte x = s.byte x) ∧
    t.regs = s.regs ∧ t.liu = s.liu ∧ t.lane = s.lane ∧ t.cwy = s.cwy ∧ t.tre = s.tre ∧ t.ctl = s.ctl

/-- Passes and marks (11 R309 to R312, R314 to R321). -/
def Obligations.LanePasses : Prop :=
  (∀ (rest : Vector Nat 2) (s : State), s.coreRuns = true → s.lane.perm = true → s.laneDe = true →
    s.lane.stopping = false → s.lane.state = .run → s.lane.turnNext = none →
    s.wlv.state ≠ .handoff → (∀ p, s.lane.pass = some p → p.copies ≠ 0) →
    exec (.applyMark rest) s = .next
      ((({ s.laneSense rest with lane.marked := true } : State).emit (.laneMark false (applyBytes (!s.laneTog) false s.leadUs))).count1 7 13)) ∧
  (∀ (rest : Vector Nat 2) (s : State), s.laneSense rest = { s with lane.loss := rest.map signalLost }) ∧
  (∀ n, signalLost n = true ↔ 1600 ≤ n) ∧
  (∀ (rest : Vector Nat 2) (s : State), s.coreRuns = true → s.lane.perm = true → s.laneDe = true →
    s.lane.stopping = false → s.lane.state = .turned → s.lane.turnNext = none →
    s.laneLoop = false → s.wlv.state ≠ .handoff → (∀ p, s.lane.pass = some p → p.copies ≠ 0) →
    ∃ t, exec (.applyMark rest) s = .next t ∧ t.out = s.out ++ [.laneMark false (applyBytes (!s.laneTog) false s.leadUs),
      .laneMark true (applyBytes (!s.laneTog) true s.leadUs)]) ∧
  (∀ (rest : Vector Nat 2) (s : State), s.coreRuns = true → s.lane.enabled = true → s.lane.stopping = true →
    s.lane.perm = true →
    ∃ t, exec (.applyMark rest) s = .next t ∧ t.lane.enabled = false ∧ t.lane.state = .off ∧ t.lane.pass = none ∧
      t.lane.perm = false ∧ t.sys.ownOutN = true ∧ t.evt.raw.getLsbD 211 = true) ∧
  (∀ s : State, s.laneSends = false → exec .collectPass s = .next s) ∧
  (∀ s : State, s.coreRuns = true → s.laneSends = true → s.laneLoop = false → s.lane.state = .run →
    s.lane.turnNext = none →
    let f := laneFrame 1 false false s.lane.cnt 0 (s.dataSlots s.laneTog)
    ∃ t, exec .collectPass s = .next t ∧ t.out = s.out ++ [.lane false f (crc32 f)] ∧ t.lane.cnt = s.lane.cnt + 1 ∧
      t.lane.subHand = s.sys.splitAct.getLsbD 6 ∧ t.lane.pass = some ⟨false, s.laneTog, s.lane.cnt, 1, 1, [], 0⟩) ∧
  (∀ s : State, s.coreRuns = true → s.laneSends = true → s.laneLoop = false → s.lane.state = .turned →
    s.lane.turnNext = none →
    let f (dir : Bool) := laneFrame 1 dir false s.lane.cnt 0 (s.dataSlots s.laneTog)
    ∃ t, exec .collectPass s = .next t ∧
      t.out = s.out ++ [.lane false (f false) (crc32 (f false)), .lane true (f true) (crc32 (f true))] ∧
      t.lane.pass = some ⟨false, s.laneTog, s.lane.cnt, 1, 2, [], 0⟩) ∧
  (∀ s : State, s.coreRuns = true → s.lane.go = true → s.laneSends = false →
    ∃ t, exec .deliverPass s = .next t ∧ t.bytesAt 0x400B8400 1024 = s.bytesAt 0x400B8000 1024 ∧ t.lane.go = false ∧
      t.ctl.committed = true ∧ (∀ a, a < 0x400B8400 ∨ 0x400B8800 ≤ a → t.byte a = s.byte a)) ∧
  (∀ s : State, s.coreRuns = true → s.lane.go = false → s.laneSends = false →
    exec .deliverPass s = .next { s with ctl.committed := false }) ∧
  (∀ s : State, s.coreRuns = true → s.lane.go = false → s.laneSends = true → s.laneLoop = false → s.lane.state = .run →
    s.lane.turnNext = none →
    let f := laneFrame 1 false true s.lane.cnt 0 (s.dataSlots s.laneTog)
    ∃ t, exec .deliverPass s = .next t ∧ t.out = s.out ++ [.lane false f (crc32 f)] ∧
      t.lane.pass = some ⟨true, s.laneTog, s.lane.cnt, 1, 1, [], 0⟩) ∧
  (∀ (f : LaneRx) (s : State), s.coreRuns = true →
    (∀ p, s.lane.pass = some p →
      p.copies = 0 ∨ (LHdr.parse f.bytes).cnt ≠ p.cnt ∨ (LHdr.parse f.bytes).type ≠ p.type.toNat) →
    exec (.lanePassReturn f) s = .next (if s.lane.enabled = true ∧ (s.lane.perm = true ∨ s.laneLoop = true) then
      (s.laneStore f).laneRxCount f (LHdr.parse f.bytes) else s)) ∧
  (∀ (f : LaneRx) (h : LHdr) (s : State), h.hcrcOk = false ∨ h.len = f.bytes.length → f.crc ≠ crc32 f.bytes →
    s.laneRxCount f h = (s.count1 7 34).raise 201) ∧
  (∀ (f : LaneRx) (p : LanePass) (s : State), s.coreRuns = true → s.lane.pass = some p → p.copies = 1 → p.back = [] →
    p.deliver = false →
    p.type = 1 → (LHdr.parse f.bytes).cnt = p.cnt → (LHdr.parse f.bytes).type = 1 → (LHdr.parse f.bytes).dir = false →
    ∃ t, exec (.lanePassReturn f) s = .next t ∧ t.lane.pass = none ∧
      t.lane.turnNext = (if f.onL2 = true then s.lane.turnNext else some true) ∧
      ∀ i < 32, t.lane.accepted.getLsbD i = true ↔ s.lane.accepted.getLsbD i = true ∨
        ∃ x ∈ s.rxSlots (LHdr.parse f.bytes) f, x.pos = i ∧ x.par = false ∧ (LHdr.parse f.bytes).hcrcOk = true ∧
          x.istat.getLsbD 7 = true ∧ x.pos < s.nst ∧ x.icrcOk = true ∧ x.istat.getLsbD 6 = p.tog ∧
          (s.lane.perm = true → s.lane.configured.getLsbD x.pos = true)) ∧
  (∀ s : State, s.lane.pass = none → exec .lanePassLate s = .next s) ∧
  (∀ (p : LanePass) (s : State), s.coreRuns = true → s.lane.pass = some p → p.copies ≠ 0 → p.type = 1 → p.deliver = false →
    ∃ t, exec .lanePassLate s = .next t ∧ t.lane.pass = none ∧ t.evt.raw.getLsbD 197 = true ∧
      t.ctl.pendcause = (if s.ctl.pstate = .run then setBit s.ctl.pendcause 3 else s.ctl.pendcause) ∧
      t.lane.turnNext = (if p.copies = 1 then some true else s.lane.turnNext)) ∧
  (∀ (p : LanePass) (s : State), s.coreRuns = true → s.lane.pass = some p → p.copies ≠ 0 → p.type = 1 → p.deliver = true →
    ∃ t, exec .lanePassLate s = .next t ∧ t.lane.pass = none ∧ t.evt.raw.getLsbD 198 = true ∧ t.lane.delivered = true) ∧
  (∀ (f : LaneRx) (s : State), s.lane.enabled = false ∨ s.lane.perm = true ∨ s.lane.state = .off →
    exec (.heardPass f) s = .next s) ∧
  (∀ (f : LaneRx) (x : LSlot) (s : State), s.coreRuns = true → s.lane.enabled = true → s.lane.perm = false →
    s.laneLoop = false →
    s.lane.state ≠ .off → (LHdr.parse f.bytes).type = 1 → (LHdr.parse f.bytes).deliver = true →
    (LHdr.parse f.bytes).hcrcOk = true → s.rxSlots (LHdr.parse f.bytes) f = [x] → x.ocrcOk = true → x.par = false →
      x.pos < s.nst →
    x.out.length ≤ 32 →
    ∃ t, exec (.heardPass f) s = .next t ∧ t.lane.heardOut.getLsbD x.pos = true ∧
      ((LHdr.parse f.bytes).dir = false → f.onL2 = true → t.lane.delivered = true) ∧
      (f.onL2 = false → s.lane.pass = none → s.lane.delivered = false → t.lane.delivered = false ∧
        t.lane.pass = some ⟨true, false, (LHdr.parse f.bytes).cnt, 1, 0, [((LHdr.parse f.bytes).dir, false)], 0⟩) ∧
      t.bytesAt (0x400B9C00 + 32 * x.pos) x.out.length = x.out)

/-- Lane states and START (11 R316 to R325, Tables 11.4 and 11.5). -/
def Obligations.LaneStates : Prop :=
  (∀ s : State, s.lane.enabled = false → s.laneFits = false →
    ∃ t, exec .laneEnable s = .next t ∧ t.lane = s.lane ∧ t.evt.raw.getLsbD 203 = true ∧ t.regBit Reg.LANE_CTL 0 = false) ∧
  (∀ s : State, s.lane.enabled = false → s.laneFits = true → s.lane.state = .off → s.sys.parts.get 3 = .inService →
    ∃ t, exec .laneEnable s = .next t ∧ t.lane.enabled = true ∧ t.lane.state = .listen ∧ t.lane.stopping = false ∧
      t.evt.raw.getLsbD 192 = true ∧ t.regBit Reg.LANE_CTL 0 = true) ∧
  (∀ s : State, s.lane.enabled = true → s.lane.stopping = false → exec .laneEnable s = .next s) ∧
  (∀ s : State, s.lane.enabled = true → s.lane.perm = false →
    ∃ t, exec .laneDisable s = .next t ∧ t.lane.enabled = false ∧ t.lane.state = .off ∧ t.lane.pass = none) ∧
  (∀ s : State, s.lane.enabled = true → s.lane.perm = true → s.lane.marked = false →
    ∃ t, exec .laneDisable s = .next t ∧ t.lane = { s.lane with stopping := true } ∧ t.regBit Reg.LANE_CTL 0 = false) ∧
  (∀ s : State, s.lane.enabled = true → s.lane.perm = true → s.lane.marked = true →
    ∃ t, exec .laneDisable s = .next t ∧ t.lane.enabled = false ∧ t.lane.state = .off ∧ t.lane.perm = false ∧
      t.sys.ownOutN = true ∧ t.evt.raw.getLsbD 211 = true ∧ t.regBit Reg.LANE_CTL 0 = false) ∧
  (∀ (fresh : Bool) (s : State), s.lane.state = .fail → s.lanePermit fresh = (if fresh = true then s.laneStart else s)) ∧
  (∀ s : State, s.lane.state = .fail → s.lane.perm = true → s.laneFits = true →
    ∃ t, exec .forcestart s = .next t ∧ t.lane.state = .start ∧ t.lane.step = 0 ∧ t.lane.configured = 0 ∧
      t.lane.accepted = 0) ∧
  (∀ s : State, s.lane.state = .fail → s.lane.perm = true → s.laneFits = false →
    exec .forcestart s = .next (s.raise 203)) ∧
  (∀ s : State, s.lane.state ≠ .fail ∨ s.lane.perm = false → exec .forcestart s = .next s) ∧
  (∀ s : State, s.coreRuns = true → s.laneStarts = true → s.lane.step = 0 → s.lane.turnNext = none → s.laneLoop = false →
    ∃ t f, exec .identPass s = .next t ∧ t.out = s.out ++ [.lane false f (crc32 f)] ∧ f.length = 8 + 16 * s.nst ∧
      (LHdr.parse f).type = 2 ∧ (LHdr.parse f).nslot = s.nst ∧ (LHdr.parse f).hcrcOk = true ∧
      t.lane.pass.map (·.copies) = some 1 ∧ t.lane.cnt = s.lane.cnt + 1) ∧
  (∀ s : State, s.laneStarts = false ∨ s.lane.step ≠ 0 → exec .identPass s = .next s) ∧
  (∀ (st : Fin 32) (l2 : Bool) (rtt : Option Nat) (s : State), s.coreRuns = true → s.laneStarts = true → s.lane.step = 1 →
    st.val < s.nst → s.laneLoop = false →
    let f := laneFrame 3 l2 false s.lane.cnt (st.val + 1) []
    ∃ t, exec (.rangePass st l2 rtt) s = .next t ∧ t.out = s.out ++ [.lane l2 f (crc32 f)] ∧ t.lane.cnt = s.lane.cnt + 1 ∧
      (if l2 = true then t.lane.rtt2.get st else t.lane.rtt1.get st) = rtt) ∧
  (∀ (st : Fin 32) (l2 : Bool) (rtt : Option Nat) (s : State), s.laneStarts = false ∨ s.lane.step ≠ 1 ∨
    s.nst ≤ st.val → exec (.rangePass st l2 rtt) s = .next s) ∧
  (∀ s : State, s.coreRuns = true → s.laneStarts = true → s.lane.step = 1 →
    ∃ t, exec .configPass s = .next t ∧ t.lane.step = 2 ∧ t.lane.cnt = s.lane.cnt + 1 ∧
      ∀ i : Fin 32, t.lane.rng.get i = (if i.val < s.nst then s.rngOf i.val
        else s.lane.rng.get i)) ∧
  (∀ s : State, s.laneStarts = false ∨ s.lane.step = 0 → exec .configPass s = .next s) ∧
  (∀ (r : Nat) (flat : Half), flat.toNat ≤ r → r ≤ 131000 → 2 * dlyOf (some r) flat = r - flat.toNat ∨
    2 * dlyOf (some r) flat = r - flat.toNat + 1) ∧
  (∀ flat : Half, dlyOf none flat = 0xFFFF) ∧
  (∀ s : State, s.coreRuns = true → s.laneStarts = true → s.lane.step ≠ 3 → s.lane.configured = 0 →
    ∃ t, exec .startTimeout s = .next t ∧ t.lane.state = .fail ∧ t.evt.raw.getLsbD 202 = true) ∧
  (∀ s : State, s.coreRuns = true → s.laneStarts = true → s.lane.step ≠ 3 → s.lane.configured ≠ 0 →
    exec .startTimeout s = .next { s with lane.step := 3 }) ∧
  (∀ s : State, exec .laneCommit s = .next { s with lane.go := true }) ∧
  (∀ (l : List Served) (s : State), s.lane.subWait = false → exec (.laneSubdone l) s = .next s) ∧
  (∀ (l : List Served) (s : State), s.coreRuns = true → s.lane.subWait = true → s.ctl.running = false →
    ∃ t, exec (.laneSubdone l) s = .next t ∧ t.lane.miss = s.missing ∧ t.lane.released = true ∧ t.lane.subWait = false ∧
      t.lane.drop = s.lane.drop ||| (s.missing &&& s.lane.present) ∧
      (s.missing &&& s.lane.present ≠ 0 → t.evt.raw.getLsbD 193 = true) ∧
      ∀ a, a < 0x1007FF2C ∨ 0x1007FF30 ≤ a → t.byte a = s.byte a)

/-- The heartbeat and the hardware interlock (12 R327, R328, R336, R337, R346). -/
def Obligations.HeartbeatServes : Prop :=
  (∀ s : State, s.wlv.hbRuns = false ∨ s.bankOn 3 = false ∨ s.pinsReset = true → exec .heartbeat s = .next s) ∧
  (∀ s : State, s.coreRuns = true → s.wlv.hbRuns = true → s.bankOn 3 = true → s.pinsReset = false →
    exec .heartbeat s = .next { s with out := s.out ++ [.heartbeat (if s.sys.straps.pref then 20 else 10)] }) ∧
  (∀ (w : Nat) (s : State), s.sys.phase = .running → (7000 ≤ w ∧ w ≤ 13000) ∨ (16000 ≤ w ∧ w ≤ 24000) →
    s.wlv.hbok = true →
    exec (.peerHbPulse w) s = .next ((({ s with
      wlv.pulses := s.wlv.pulses + 1, wlv.peerPref := decide (16000 ≤ w), wlv.hbRun := 0 } : State).prefCheck
        (s.dupPref, s.noPref)).wlvSync)) ∧
  (∀ (w : Nat) (s : State), s.sys.phase = .running → (7000 ≤ w ∧ w ≤ 13000) ∨ (16000 ≤ w ∧ w ≤ 24000) →
    s.wlv.hbok = false → s.wlv.hbRun < 2 →
    exec (.peerHbPulse w) s = .next ((({ s with
      wlv.pulses := s.wlv.pulses + 1, wlv.peerPref := decide (16000 ≤ w), wlv.hbRun := s.wlv.hbRun + 1 } : State).prefCheck
        (s.dupPref, s.noPref)).wlvSync)) ∧
  (∀ (w : Nat) (s : State), s.sys.phase = .running → (7000 ≤ w ∧ w ≤ 13000) ∨ (16000 ≤ w ∧ w ≤ 24000) →
    s.wlv.hbok = false → s.wlv.hbRun = 2 →
    exec (.peerHbPulse w) s = .next (((State.raise 214 { s with
      wlv.pulses := s.wlv.pulses + 1, wlv.peerPref := decide (16000 ≤ w), wlv.hbRun := 0, wlv.hbok := true }).prefCheck
        (s.dupPref, s.noPref)).wlvSync)) ∧
  (∀ (w : Nat) (s : State), s.sys.phase = .running → w < 7000 ∨ (13000 < w ∧ w < 16000) ∨ 24000 < w →
    exec (.peerHbPulse w) s = .next { s with wlv.hbRun := 0 }) ∧
  (∀ (w : Nat) (s : State), s.sys.phase ≠ .running → exec (.peerHbPulse w) s = .next s) ∧
  (∀ s : State, s.coreRuns = true → s.wlv.hbok = true →
    exec .peerHbLost s = .next ((State.raise 214 { s with wlv.hbok := false, wlv.hbRun := 0 }).wlvSync)) ∧
  (∀ s : State, s.coreRuns = true → s.sys.ownOutN = false → s.wlv.claimed = false → s.peerOwn = false →
    exec .collisionCheck s = .next { s with wlv.claimed := true }) ∧
  (∀ s : State, s.coreRuns = true → s.sys.ownOutN = false → s.wlv.claimed = false → s.peerOwn = true →
    (if s.wlv.hbok then !s.epref else s.unitB) = false →
    exec .collisionCheck s = .next { s.raise 215 with wlv.claimed := true }) ∧
  (∀ s : State, s.coreRuns = true → s.sys.ownOutN = false → s.wlv.claimed = false → s.peerOwn = true →
    (if s.wlv.hbok then !s.epref else s.unitB) = true →
    exec .collisionCheck s = .next { s.raise 215 with
      sys.ownOutN := true, wlv.claimed := false, wlv.backoff := true, wlv.ilClaim := false }) ∧
  (∀ s : State, s.sys.peerOwnN = true → s.sys.phase = .running → s.wlv.state ≠ .blocked →
    exec (.peerOwnChange false) s = .next
      (State.wlvSync { s with sys.peerOwnN := false, wlv.peerClear := false })) ∧
  (∀ s : State, s.sys.peerOwnN = false → s.sys.phase = .running → s.wlv.state ≠ .blocked →
    exec (.peerOwnChange true) s = .next
      (State.wlvSync { s with sys.peerOwnN := true, wlv.peerClear := true })) ∧
  (∀ s : State, s.sys.peerOwnN = false → s.sys.phase = .running → s.wlv.state = .blocked →
    exec (.peerOwnChange true) s = .next (let u := State.driveEnd { s with sys.peerOwnN := true, wlv.peerClear := true }
      ({ u with wlv.state := u.standbyState }).wlvSync)) ∧
  (∀ s : State, s.lane.perm = true → s.peerOwn = true → s.wlv.ovr = false → s.wlv.claimed = true →
    s.wlv.il = false → s.wlv.state = .active →
    s.wlvRun = { (s.raise 215).driveEnd with wlv.state := .standby }) ∧
  (∀ s : State, s.coreRuns = true → s.peerOwn = true → s.wlv.byteMe = true → s.wlv.hbok = true →
    exec .interlockStuck s = .next (s.raise 215)) ∧
  (∀ s : State, s.coreRuns = true → s.peerOwn = true → s.wlv.byteMe = true → s.wlv.hbok = false → s.wlv.state = .standby →
    exec .interlockStuck s = .next
      (((({ s with wlv.state := .blocked } : State).raise 216).spFaultCode 0x0C03)).wlvSync)

/-- Wayleaves and drills (12 R329 to R345). -/
def Obligations.WayleaveServes : Prop :=
  (∀ (lease : Nat) (s : State), s.wlv.held = false → s.wlv.shots = [] → s.wlv.state = .standby → 1 ≤ lease →
    ∃ t : State, s.byteGrant lease = t ∧ t.wlv.held = true ∧ t.wlv.left = BitVec.ofNat 4 lease ∧ t.wlv.holding = false ∧
      t.wlv.renewed = true ∧ t.evt.raw = setBit s.evt.raw 208 ∧ t.wlv.state = .standby) ∧
  (∀ (peer : Bool) (s : State), s.wlv.held = true → s.wlv.state = .standby → s.wlv.shots = [] →
    (s.byteRevoke peer).wlv.held = false ∧ (s.byteRevoke peer).wlv.left = 0 ∧
      (s.byteRevoke peer).evt.raw = setBit s.evt.raw 209) ∧
  (∀ s : State, s.wlv.state = .standby → s.wlv.renewed = false → 1 < s.wlv.left.toNat →
    s.leaseCount = { s with
      wlv.mlost := (if s.wlv.seen then s.wlv.mlost else satSucc s.wlv.mlost), wlv.seen := false, wlv.renewed := false
      wlv.left := s.wlv.left - 1 }) ∧
  (∀ (n : BitVec 6) (s : State), s.svy.nid = some n → s.hasEpoch = true → s.wlv.askState ≠ s.wlv.state →
    s.wlvAsk = s.wlvAskNow s.wlvWant ∧ s.wlvAsk.wlv.askState = s.wlv.state ∧ s.wlvAsk.wlv.askedAgo = 0) ∧
  (∀ s : State, exec .wlvBcommit s = .next { s with wlv.bcommit := true }) ∧
  (∀ s : State, s.coreRuns = true → s.sys.netrole = .benchmark → s.sys.splitAct.getLsbD 5 = true → s.wlv.bcommit = false →
    s.wlv.late = false → exec .wayleaveDeadline s = .next (State.raise 223 { s with wlv.late := true })) ∧
  (∀ s : State, s.wlv.late = true → s.wlvCycle = State.wlvEvaluate { s.judgeFit with wlv.late := false }) ∧
  (∀ (m : Master) (n : BitVec 6) (r : Byte) (l : List (BitVec 6 × Byte)) (s : State), s.wlv.reqq = (n, r) :: l →
    s.accesses m false Reg.WLV_REQQ = true →
    exec (.wlvReqqPop m) s = .next { s with
      wlv.reqq := l, out := s.out ++ [.answer m (packW [(31, 1), (24, n.toNat), (16, r.toNat)])] }) ∧
  (∀ s : State, exec .drill s = .next (({ s with
    wlv.drillWait := some 0
    wlv.shots := s.wlv.shots.filter (fun x => x.1 != 4) ++ [(4, 1, 0)] } : State).wlvSend 4)) ∧
  (∀ (n : Nat) (ok : Bool) (s : State), s.coreRuns = true → s.wlv.drillCheck = some (n, ok) → s.drillT ≤ n →
    exec .drillCheckEnd s = .next (((State.raise 220 { s with
      wlv.drillCheck := none, wlv.drillRes := if ok then 1 else 2, wlv.drills := s.wlv.drills + 1 }).when (!ok)
        (State.wlvShot 6)).wlvSync)) ∧
  (∀ (n : Nat) (s : State), s.wlv.drillWait = some n → 8 ≤ n →
    exec .drillRefused s = .next (State.raise 220 { s with
      wlv.drillWait := none, wlv.drillRes := 3, wlv.drills := s.wlv.drills + 1 })) ∧
  (∀ s : State, s.coreRuns = true → s.revHold ≤ s.wlv.rev.toNat → s.wlv.revrdy = false →
    exec .revertReady s = .next (({ s with wlv.revrdy := true } : State).wlvShot 5)) ∧
  (∀ s : State, exec .tclr s = .next { s with wlv.mism := 0, wlv.cmp := 0, wlv.trkdiff := 0 }) ∧
  (∀ s : State, s.coreRuns = true → 64 ≤ s.wlv.askedAgo → s.wlv.asked ≠ 0 → s.wlv.shots = [] → s.svy.nid = none →
    exec .wayleaveRepeat s = .next { s with wlv.askedAgo := 0 }) ∧
  (∀ (n : BitVec 6) (s : State), s.coreRuns = true → s.svy.nid = some n → s.sys.netrole ≠ .benchmark → 64 ≤ s.wlv.askedAgo →
    s.wlv.asked ≠ 0 → s.wlv.shots = [] →
    ∃ t, exec .wayleaveRepeat s = .next { t with wlv.shots := [] } ∧
      t = ({ s with wlv.askedAgo := 0 } : State).sendMgmt s.tre.bench 0 (s.wlvPayload s.wlv.asked.toNat))

/-- Channels (13 R360 to R373). -/
def Obligations.DmaServes : Prop :=
  (∀ (n : Fin 32) (v : Word) (s : State), v.getLsbD 0 = true → v.getLsbD 1 = true →
    (s.dch n).state = .idle ∨ (s.dch n).state = .error → (s.reg (Reg.chctl n + 4)).toNat % 32 = 0 →
    ∃ t, exec (.dmaGo n v) s = .next t ∧ t.chctl n = v ∧ t.dch n = { s.dch n with
      err := 0, broken := false, state := .fetch, cur := s.reg (Reg.chctl n + 4), fetched := 0 } ∧
      ∀ m, m ≠ n → t.dch m = s.dch m) ∧
  (∀ (n : Fin 32) (v : Word) (s : State), v.getLsbD 0 = true → v.getLsbD 1 = true → (s.dch n).outst = [] →
    (s.dch n).state = .idle ∨ (s.dch n).state = .error → (s.reg (Reg.chctl n + 4)).toNat % 32 ≠ 0 →
    ∃ t, exec (.dmaGo n v) s = .next t ∧ (t.dch n).state = .error ∧ (t.dch n).err = 2 ∧
      (t.dch n).erraddr = s.reg (Reg.chctl n + 4) ∧ t.evt.raw.getLsbD (160 + n.val) = true ∧
        t.dma.errsum.getLsbD n.val = true) ∧
  (∀ (n : Fin 32) (v : Word) (s : State), v.getLsbD 0 = true → v.getLsbD 1 = true → (s.dch n).state ≠ .idle →
    (s.dch n).state ≠ .error →
    ∃ t, exec (.dmaGo n v) s = .next t ∧ t.dch n = { s.dch n with goign := true }) ∧
  (∀ (n : Fin 32) (s : State), (s.chctl n).getLsbD 0 = true → (s.dch n).state ≠ .stopping →
    ∃ t, exec (.dmaDisable (some n)) s = .next t ∧ (t.dch n).state = .stopping ∧ (t.dch n).buf = [] ∧
      (t.chctl n).getLsbD 0 = false ∧ ∀ g : Fin 32, (s.gate g).owner = dmaCode n → t.gate g = ⟨0, true⟩) ∧
  (∀ s : State, s.regBit Reg.DMA_CTL 0 = true →
    ∃ t, exec (.dmaDisable none) s = .next t ∧ ∀ n : Fin 32, (t.dch n).state = .stopping) ∧
  (∀ (n : Fin 32) (s : State), s.coreRuns = true → (s.dch n).state = .stopping →
    exec (.dmaStopDone n) s = .next (s.setDch n { s.dch n with state := .idle, outst := [] })) ∧
  (∀ (n : Fin 32) (s : State), (s.dch n).state ≠ .stopping → exec (.dmaStopDone n) s = .next s) ∧
  (∀ (n : Fin 32) (s : State), s.coreRuns = true → (s.dch n).state = .fetch → (s.dch n).fetched = 8 → (s.dch n).outst = [] →
    (s.dch n).valid (decide ((s.gate (s.dch n).gateNo).owner = dmaCode n)) = false →
    ∃ t, exec (.dmaFetchDone n) s = .next t ∧ (t.dch n).state = .error ∧ (t.dch n).err = 1 ∧
      (t.dch n).erraddr = (s.dch n).cur) ∧
  (∀ (n : Fin 32) (s : State), s.coreRuns = true → (s.dch n).state = .fetch → (s.dch n).fetched = 8 →
    (s.dch n).valid (decide ((s.gate (s.dch n).gateNo).owner = dmaCode n)) = true →
    ∃ t, exec (.dmaFetchDone n) s = .next t ∧ (t.dch n).toRead = (s.dch n).total ∧ (t.dch n).cnt = 0 ∧
      ((s.dch n).listed false = false → (t.dch n).src = (s.dch n).word 1) ∧ ((s.dch n).listed true = false →
        (t.dch n).dst = (s.dch n).word 2) ∧
      (t.dch n).state = (if (s.dch n).ctrl 27 = true then .gatewait
        else if (s.dch n).ctrl 29 = true ∧ (s.dch n).trigpend = false then .trigwait else .run)) ∧
  (∀ (n : Fin 32) (s : State), (s.dch n).state ≠ .fetch ∨ (s.dch n).fetched < 8 → exec (.dmaFetchDone n) s = .next s) ∧
  (∀ (n : Fin 32) (s : State), s.coreRuns = true → (s.dch n).state = .gatewait → (s.dch n).gateNo.val ≠ 31 →
    (s.gate (s.dch n).gateNo).owner = 0 → ((s.gate (s.dch n).gateNo).broken = false ∨ (s.dch n).ctrl 25 = false) →
    ∃ t, exec (.dmaGateAcquire n) s = .next t ∧ t.gate (s.dch n).gateNo = ⟨dmaCode n, false⟩ ∧
      (t.dch n).state = (if (s.dch n).ctrl 29 = true ∧ (s.dch n).trigpend = false then .trigwait else .run) ∧
      (t.dch n).broken = ((s.dch n).broken || (s.gate (s.dch n).gateNo).broken)) ∧
  (∀ (n : Fin 32) (s : State), s.coreRuns = true → (s.dch n).state = .gatewait → (s.dch n).gateNo.val ≠ 31 →
    (s.dch n).outst = [] →
    (s.gate (s.dch n).gateNo).owner = 0 → (s.gate (s.dch n).gateNo).broken = true → (s.dch n).ctrl 25 = true →
    ∃ t, exec (.dmaGateAcquire n) s = .next t ∧ (t.dch n).state = .error ∧ (t.dch n).err = 6 ∧ (t.dch n).broken = true) ∧
  (∀ (n : Fin 32) (s : State), (s.dch n).state = .gatewait → (s.gate (s.dch n).gateNo).owner ≠ 0 →
    (s.gate (s.dch n).gateNo).owner ≠ dmaCode n → exec (.dmaGateAcquire n) s = .next s) ∧
  (∀ (src : TrigSource) (s : State), s.coreRuns = true → ∃ t, exec (.dmaTrigger src) s = .next t ∧
    t = { s with dma.ch := t.dma.ch } ∧
    ∀ n : Fin 32, t.dch n = (if trigSelects (s.chctl n) src = true then
      (if (s.dch n).state = .trigwait then { s.dch n with state := .run }
       else if (s.dch n).trigpend = true then { s.dch n with trigovr := true } else { s.dch n with trigpend := true })
      else s.dch n)) ∧
  (∀ (n : Fin 32) (w : DmaWr) (rest : List DmaWr) (s : State), s.coreRuns = true → (s.dch n).outst = w :: rest →
    (s.dch n).state = .run →
    w.failed = false → (s.dch n).err = 0 →
    exec (.dmaWriteResponse n) s = .next (s.setDch n { s.dch n with
      outst := rest, cnt := (s.dch n).cnt + BitVec.ofNat 32 w.bytes.length })) ∧
  (∀ (n : Fin 32) (w : DmaWr) (s : State), s.coreRuns = true → (s.dch n).outst = [w] → (s.dch n).state = .wresp →
    w.failed = false →
    (s.dch n).err = 0 → (s.dch n).word 7 = 0 →
    ∃ t, exec (.dmaWriteResponse n) s = .next t ∧ (t.dch n).state = .idle ∧ (t.dch n).descs = (s.dch n).descs + 1 ∧
      (t.dch n).cnt = BitVec.ofNat 32 (s.dch n).total ∧ t.evt.raw.getLsbD (160 + n.val) = true ∧
      ((s.dch n).ctrl 26 = true → (s.gate (s.dch n).gateNo).owner = dmaCode n → t.gate (s.dch n).gateNo = ⟨0, false⟩)) ∧
  (∀ (n : Fin 32) (w : DmaWr) (s : State), s.coreRuns = true → (s.dch n).outst = [w] → (s.dch n).state = .wresp →
    w.failed = false →
    (s.dch n).err = 0 → (s.dch n).word 7 ≠ 0 → ((s.dch n).word 7).toNat % 32 = 0 →
    ∃ t, exec (.dmaWriteResponse n) s = .next t ∧ (t.dch n).state = .fetch ∧ (t.dch n).cur = (s.dch n).word 7 ∧
      (t.dch n).fetched = 0 ∧ (t.dch n).descs = (s.dch n).descs + 1) ∧
  (∀ (n : Fin 32) (w : DmaWr) (rest : List DmaWr) (s : State), s.coreRuns = true → (s.dch n).outst = w :: rest →
    (s.dch n).state = .run ∨
    (s.dch n).state = .wresp → w.failed = true → (s.dch n).err = 0 →
    ∃ t, exec (.dmaWriteResponse n) s = .next t ∧ (t.dch n).err = 5 ∧ (t.dch n).erraddr = w.addr ∧ (t.dch n).outst = rest ∧
      (t.dch n).state = (if rest = [] then .error else .wresp)) ∧
  (∀ (n : Fin 32) (s : State), (s.dch n).outst = [] → exec (.dmaWriteResponse n) s = .next s)

/-- The beat (13 R352, R353, R361, R365, R366, R368, R369, R371). -/
def Obligations.DmaCopies : Prop :=
  (∀ s : State, s.localPending = false → s.dmaOn = false ∨ s.dmaGrant = none → exec .dmaBeat s = .next s) ∧
  (∀ s : State, s.coreRuns = true → s.localPending = true → exec .dmaBeat s = exec .localWriteResponse s) ∧
  (∀ (n : Fin 32) (s : State), (s.coreRuns = false ∨ s.dmaWaits n = false → s.dmaGapBeat n = s) ∧
    (s.coreRuns = true → s.dmaWaits n = true →
      (s.dmaGapBeat n).dma.last = some n ∧ (s.dmaGapBeat n).itn.passcyc = s.itn.passcyc + 2)) ∧
  (∀ (p : Nat) (n : Fin 32) (s : State), s.coreRuns = true → s.localPending = false → s.dmaOn = true →
    s.dmaGrant = some (p, n) →
    let c := s.dch n
    let a := c.s.addr
    let k := beatSize c.asize a (min c.s.left c.chunk)
    let w := a.toNat / 4 * 4
    c.state = .run → c.type = 0 → c.chunk ≠ 0 → (memRegion? w).isSome = true → s.readErr (.dma n) w (beatBe a k) = none →
    ∃ t, exec .dmaBeat s = .next t ∧ (t.dch n).buf = c.buf ++ beatBytes a k (s.busRead (.dma n) w (beatBe a k)) ∧
      (t.dch n).chunk = c.chunk - k ∧ (t.dch n).toRead = c.toRead - k ∧ (t.dch n).s.addr = a + BitVec.ofNat 32 k ∧
      (t.dch n).src = a + BitVec.ofNat 32 k ∧ t.dma.last = some n ∧ (t.dch n).outst = c.outst ∧ (t.dch n).d = c.d) ∧
  (∀ (p : Nat) (n : Fin 32) (s : State), s.coreRuns = true → s.localPending = false → s.dmaOn = true →
    s.dmaGrant = some (p, n) →
    let c := s.dch n
    let a := c.d.addr
    let k := beatSize c.asize a (min c.d.left c.buf.length)
    c.state = .run → c.type = 0 → c.chunk = 0 → k ≤ c.buf.length → a.toNat % 4 + k ≤ 4 → 0x10000000 ≤ a.toNat →
    a.toNat < 0x10100000 → s.writeErr (.dma n) (a.toNat / 4 * 4) = none → s.mem.errs = [] →
    s.regBit Reg.MEM_INJECT 31 = false → s.txSize = 0 → c.buf ≠ [] →
    ∃ t, exec .dmaBeat s = .next t ∧ t.bytesAt a.toNat k = c.buf.take k ∧
      (∀ x, x < a.toNat ∨ a.toNat + k ≤ x → t.byte x = s.byte x) ∧ (t.dch n).buf = c.buf.drop k ∧
      (t.dch n).d.addr = a + BitVec.ofNat 32 k ∧ (t.dch n).dst = a + BitVec.ofNat 32 k ∧
      (t.dch n).outst.map (fun x => (x.addr, x.bytes, x.failed)) =
        c.outst.map (fun x => (x.addr, x.bytes, x.failed)) ++ [(a, c.buf.take k, false)] ∧
      (t.dch n).state = (if c.buf.drop k = [] ∧ c.toRead = 0 then .wresp else .run) ∧ t.regs = s.regs) ∧
  (∀ (a : Word) (n : Nat), 0 < n → beatSize 0 a n ≤ n ∧ a.toNat % beatSize 0 a n = 0 ∧
    ∀ k ∈ [1, 2, 4], k ≤ n → a.toNat % k = 0 → k ≤ beatSize 0 a n)

/-- The Causeway (14 R377 to R397). -/
def Obligations.CausewayServes : Prop :=
  let logged (s t : State) (cause : Nat) : Prop :=
    ∃ e : CwyLog, t.cwy.log = s.cwy.log ++ [e] ∧ fld e.w0 8 8 = cause ∧ e.w0.getLsbD 31 = true
  (∀ (h : HostAddr) (v : Half) (par : BitVec 2) (s : State), s.cwy.waiting.isSome = true →
    exec (.hostRead h) s = .next s ∧ exec (.hostWrite h v par) s = .next s) ∧
  (∀ (h : HostAddr) (v : Half) (par : BitVec 2) (s : State), s.cwy.waiting = none → s.sys.parts.get 5 ≠ .inService →
    (s.pinsReset = false → exec (.hostRead h) s = .next (s.emit (.hostData 0xFFFF (s.hostPar 0xFFFF true)))) ∧
    (s.pinsReset = true → exec (.hostRead h) s = .next s) ∧ exec (.hostWrite h v par) s = .next s) ∧
  (∀ (h : HostAddr) (v : Half) (par : BitVec 2) (s : State), s.cwy.waiting = none → s.sys.parts.get 5 = .inService →
    s.regBit Reg.CWY_CTL 0 = false → (s.cwyWin (hostWin h)).held = none →
    let off : State := { s.shadowDrop (hostWin h) with cwy.disc := satSucc s.cwy.disc }
    exec (.hostWrite h v par) s = .next off ∧
    (s.pinsReset = false → exec (.hostRead h) s = .next (off.emit (.hostData 0xFFFF (s.hostPar 0xFFFF false)))) ∧
    (s.pinsReset = true → exec (.hostRead h) s = .next off)) ∧
  (∀ (x : HostAcc) (v : Half) (w : Fin 16) (s : State), (s.cwyWin w).held = some (x, v) → s.cwy.log.length < 16 →
    ((s.hostDisc w).cwyWin w).held = none ∧ ((s.hostDisc w).cwyWin w).shadow = none ∧ logged s (s.hostDisc w) 7) ∧
  (∀ (h : HostAddr) (s : State), s.cwy.waiting = none → s.hostGate h = .go → (s.hostAcc h).remote = false →
    s.localPending = false → (s.cwyWin (hostWin h)).held = none → s.pinsReset = false →
    (s.hostAcc h).pair = false → (s.hostAcc h).peek = true →
    let u := s.shadowDrop (hostWin h)
    u.readErr .causeway ((s.hostAcc h).word) (lanesBe (s.hostAcc h).lanes) = none →
    let v := lanesHalf (s.hostAcc h).lanes (u.busPeek .causeway ((s.hostAcc h).word) (lanesBe (s.hostAcc h).lanes))
    exec (.hostRead h) s = .next (u.emit (.hostData v (s.hostPar v false)))) ∧
  (∀ (h : HostAddr) (s : State), s.cwy.waiting = none → s.hostGate h = .go → (s.hostAcc h).remote = true →
    (s.cwyWin (hostWin h)).held = none → s.pinsReset = false → s.cwy.log.length < 16 →
    ∃ t, exec (.hostRead h) s = .next t ∧ t.out = s.out ++ [.hostData 0xFFFF (s.hostPar 0xFFFF false)] ∧ logged s t 1 ∧
      t.evt.raw.getLsbD 224 = true ∧ t.mem = s.mem) ∧
  (∀ (h : HostAddr) (s : State), s.cwy.waiting = none → s.hostGate h = .go → (s.hostAcc h).remote = false →
    s.localPending = true → (s.cwyWin (hostWin h)).held = none →
    exec (.hostRead h) s = .next { s with cwy.waiting := some (s.hostAcc h, none) }) ∧
  (∀ (h : HostAddr) (v : Half) (par : BitVec 2) (s : State), s.cwy.waiting = none → s.hostGate h = .go →
    (s.hostAcc h).pair = false → (s.cwyWin (hostWin h)).held = none → s.regBit Reg.CWY_CTL 1 = false →
    (s.cwy.buf.length < 32 → ∃ t, exec (.hostWrite h v par) s = .next t ∧ t.cwy.buf = s.cwy.buf ++
      [⟨hostWin h, (s.hostAcc h).remote, (s.hostAcc h).nid, BitVec.ofNat 32 ((s.hostAcc h).word), lanesBe (s.hostAcc h).lanes,
        lanesWord (s.hostAcc h).lanes v, false⟩] ∧ t.cwy.waiting = none ∧ t.mem = s.mem ∧ t.regs = s.regs ∧ t.out = s.out) ∧
    (32 ≤ s.cwy.buf.length → ∃ t, exec (.hostWrite h v par) s = .next t ∧ t.cwy.buf = s.cwy.buf ∧
      t.cwy.waiting = some (s.hostAcc h, some (v, par)) ∧ t.evt.raw.getLsbD 227 = true ∧ t.mem = s.mem)) ∧
  (∀ (h : HostAddr) (v : Half) (par : BitVec 2) (s : State), s.cwy.waiting = none → s.hostGate h = .windowOff →
    s.cwy.log.length < 16 →
    ∃ t, exec (.hostWrite h v par) s = .next t ∧ logged s t 2 ∧ t.cwy.buf = s.cwy.buf ∧ t.mem = s.mem) ∧
  (∀ s : State, s.cwy.waiting = none → exec .hostWaitTimeout s = .next s) ∧
  (∀ (x : HostAcc) (s : State), s.coreRuns = true → s.cwy.waiting = some (x, none) → s.pinsReset = false →
    s.cwy.log.length < 16 →
    ∃ t, exec .hostWaitTimeout s = .next t ∧ t.cwy.waiting = none ∧ logged s t 3 ∧ (t.cwyWin x.win).shadow = none ∧
      t.out = s.out ++ [.hostData 0xFFFF (s.hostPar 0xFFFF false)]) ∧
  (∀ (y : HostAcc) (x : Half × BitVec 2) (s : State), s.coreRuns = true → s.cwy.waiting = some (y, some x) →
    (s.cwyWin y.win).held = none → s.cwy.log.length < 16 →
    ∃ t, exec .hostWaitTimeout s = .next t ∧ t.cwy.waiting = none ∧ logged s t 3 ∧ t.cwy.buf = s.cwy.buf ∧ t.out = s.out) ∧
  (∀ s : State, s.localPending = false → s.txSize = 0 → exec .localWriteResponse s = .next s) ∧
  (∀ (e : CwyEntry) (s : State), s.coreRuns = true → s.cwy.buf.find? (fun x => !x.remote) = some e → s.cwy.waiting = none →
    s.txSize = 0 →
    (memRegion? e.addr.toNat).isSome = true → s.writeFails .causeway e.addr.toNat e.be e.data = none →
    exec .localWriteResponse s = .next
      (({ s with cwy.buf := s.cwy.buf.erase e } : State).busWrite .causeway e.addr.toNat e.be e.data)) ∧
  (∀ (w : Fin 16) (e : CwyEntry) (l : List CwyEntry) (p : Fin 4) (s : State), s.coreRuns = true → s.framePending w = e :: l →
    (s.cwyWin w).flight = none → s.road.open_ = true → s.txSize = 0 → s.svy.nid ≠ some e.nid → s.present e.nid = true →
    s.portFor e.nid = some p → (s.roadPort p).queue = [] →
    ∃ t, exec (.frameBuild w) s = .next t ∧ (t.cwyWin w).flight = some (e :: l, false) ∧
      (t.cwyWin w).fseq = (s.cwyWin w).fseq + 1 ∧ t.cwy.buf.length = s.cwy.buf.length ∧ t.mem = s.mem) ∧
  (∀ (w : Fin 16) (s : State), s.framePending w = [] ∨ (s.cwyWin w).flight ≠ none ∨ s.road.open_ = false → s.txSize = 0 →
    exec (.frameBuild w) s = .next s) ∧
  (∀ (w : Fin 16) (e : CwyEntry) (l : List CwyEntry) (s : State), s.coreRuns = true →
    (s.cwyWin w).flight = some (e :: l, true) →
    s.cwy.waiting = none → s.cwy.log.length < 16 →
    ∃ t, exec (.doneTimeout w) s = .next t ∧ (t.cwyWin w).flight = none ∧ logged s t 0x23 ∧
      t.cwy.buf = s.cwy.buf.filter (fun x => !(x.inFrame && decide (x.win = w))) ∧ t.evt.raw.getLsbD 225 = true) ∧
  (∀ (w : Fin 16) (s : State), (s.cwyWin w).flight = none ∨ (∃ l, (s.cwyWin w).flight = some (l, false)) →
    exec (.doneTimeout w) s = .next s) ∧
  (∀ (m : Master) (e : CwyLog) (l : List CwyLog) (s : State), s.cwy.log = e :: l → s.accesses m false Reg.CWY_LOG0 = true →
    exec (.cwyLogPop m) s = .next { s with cwy.log := l, cwy.latched := e, out := s.out ++ [.answer m e.w0] }) ∧
  (∀ (m : Master) (s : State), s.cwy.log = [] → s.accesses m false Reg.CWY_LOG0 = true →
    exec (.cwyLogPop m) s = .next (s.emit (.answer m 0))) ∧
  (∀ s : State, s.cwy.log.length < 16 → ∃ t, exec .testlog s = .next t ∧ logged s t 0xFF ∧ t.evt.raw.getLsbD 225 = true) ∧
  (∀ s : State, s.sys.parts.get 5 = .inService → s.hint = (if s.sys.splitAct.getLsbD 7 = true then s.regBit Reg.CWY_HINT 0
    else !s.cwy.log.isEmpty)) ∧
  (∀ s : State, s.sys.parts.get 5 ≠ .inService → s.hint = true) ∧
  (∀ (x : HostAcc) (v : Half), hostHalf x.h = true → lanesHalf x.lanes (lanesWord x.lanes v) = v) ∧
  (∀ x : HostAcc, hostHalf x.h = false → hostNone x.h = false →
    x.lanes.map (·.1) = [if x.lane = false then hostOfs x.h % 4
      else if x.pair = true then 3 - hostOfs x.h % 4 else hostOfs x.h % 4 / 2 * 2 + (1 - hostOfs x.h % 2)]) ∧
  (∀ (e : CwyEntry) (x : HostAcc) (s : State), s.coreRuns = true → s.cwy.buf = [e] → e.remote = false →
    s.cwy.waiting = some (x, none) → s.txSize = 0 → x.peek = true → (memRegion? e.addr.toNat).isSome = true →
    s.writeFails .causeway e.addr.toNat e.be e.data = none →
    exec .localWriteResponse s = .next (State.hostReadNow x
      { ({ s with cwy.buf := [] } : State).busWrite .causeway e.addr.toNat e.be e.data with cwy.waiting := none }))

/-- The gates of the memories (15 R416 to R421): who owns, what BROKEN is, what is answered, and that nothing else changes. -/
def Obligations.GatesServe : Prop :=
  (∀ (m : Master) (g : Fin 32) (s : State), s.accesses m false (Reg.at Reg.GATE_TRY g) = true → (s.gate g).owner = 0 →
    gateAccepts (masterCode m) g = true →
    exec (.gateTryg m g) s = .next { s with
      mem.gates := s.mem.gates.set g ⟨masterCode m, false⟩
      out := s.out ++ [.answer m (s.gateTryVal (masterCode m) g)] } ∧
    fld (s.gateTryVal (masterCode m) g) 0 8 = (masterCode m).toNat ∧
    fld (s.gateTryVal (masterCode m) g) 31 1 = 1 ∧
    fld (s.gateTryVal (masterCode m) g) 30 1 = (s.gate g).broken.toNat) ∧
  (∀ (m : Master) (g : Fin 32) (s : State), s.accesses m false (Reg.at Reg.GATE_TRY g) = true → (s.gate g).owner ≠ 0 →
    exec (.gateTryg m g) s = .next { s with out := s.out ++ [.answer m (s.gateTryVal (masterCode m) g)] } ∧
    fld (s.gateTryVal (masterCode m) g) 0 8 = (s.gate g).owner.toNat) ∧
  (∀ (m : Master) (g : Fin 32) (s : State), s.accesses m true (Reg.at Reg.GATE_REL g) = true →
    (s.gate g).owner = masterCode m →
    exec (.gateRelg m g) s = .next { s with mem.gates := s.mem.gates.set g ⟨0, false⟩ }) ∧
  (∀ (m : Master) (g : Fin 32) (s : State), s.accesses m true (Reg.at Reg.GATE_REL g) = true →
    (s.gate g).owner ≠ masterCode m →
    exec (.gateRelg m g) s = .next (s.accFault m true (Reg.at Reg.GATE_REL g))) ∧
  (∀ (m : Master) (g : Fin 32) (s : State), s.accesses m true (Reg.at Reg.GATE_FORCE g) = true →
    m = .steward ∨ m = .service →
    exec (.gateForceg m g) s = .next (State.raise 238 { s with mem.gates := s.mem.gates.set g ⟨0, true⟩ })) ∧
  (∀ (m : Master) (g : Fin 32) (s : State), s.accesses m true (Reg.at Reg.GATE_FORCE g) = true →
    masterCode m ≠ 2 → masterCode m ≠ 4 →
    exec (.gateForceg m g) s = .next (s.accFault m true (Reg.at Reg.GATE_FORCE g))) ∧
  (∀ (g : Fin 32) (s : State), s.coreRuns = true → (s.gate g).owner ≠ 0 → s.regFld (Reg.at Reg.GATE_LEASE g) 0 16 ≠ 0 →
    exec (.gateLeaseExpiry g) s = .next (State.raise 238 { s with mem.gates := s.mem.gates.set g ⟨0, true⟩ }))

/-- The 16 hardware queues (15 R423, R424, Table 15.7). -/
def Obligations.QueuesServe : Prop :=
  (∀ (m : Master) (q : Fin 16) (v : Word) (s : State), s.accesses m true (Reg.GATE_QPUSH + 0x10 * q.val) = true →
    (s.queue q).items.length < 16 →
    ∃ t, exec (.gateQpush m q v) s = .next t ∧ (t.queue q).items = (s.queue q).items ++ [v] ∧
      (t.queue q).refused = (s.queue q).refused ∧ ∀ r, r ≠ q → t.queue r = s.queue r) ∧
  (∀ (m : Master) (q : Fin 16) (v : Word) (s : State), s.accesses m true (Reg.GATE_QPUSH + 0x10 * q.val) = true →
    16 ≤ (s.queue q).items.length →
    ∃ t, exec (.gateQpush m q v) s = .next t ∧ t.queue q = ⟨(s.queue q).items, satSucc (s.queue q).refused⟩ ∧
      t.evt.raw = setBit s.evt.raw 239 ∧ ∀ r, r ≠ q → t.queue r = s.queue r) ∧
  (∀ (m : Master) (q : Fin 16) (s : State), s.accesses m false (Reg.GATE_QPOP + 0x10 * q.val) = true →
    ∃ t, exec (.gateQpop m q) s = .next t ∧ t.out = s.out ++ [.answer m ((s.queue q).items.headD 0)] ∧
      (t.queue q).items = (s.queue q).items.drop 1 ∧ (t.queue q).refused = (s.queue q).refused ∧
      ∀ r, r ≠ q → t.queue r = s.queue r) ∧
  (∀ (m : Master) (q : Fin 16) (v : Word) (s : State), s.accesses m true (Reg.GATE_QCLR + 0x10 * q.val) = true →
    v.getLsbD 0 = true →
    exec (.gateQclr m q v) s = .next { s with mem.queues := s.mem.queues.set q ⟨[], (s.queue q).refused⟩ })

/-- Programming and erasing flash, and the log that records what failed (15 R409, R411 to R413). -/
def Obligations.FlashServes : Prop :=
  (∀ (m : Master) (addr : Word) (be : BitVec 4) (v : Word) (s : State), addr.toNat < 0x400000 →
    s.accesses m true addr.toNat = true →
    s.flashWriteCode m addr.toNat = 0 →
    ∃ t, exec (.flashProgram m addr be v) s = .next t ∧
      ∀ x, t.byte x =
        if addr.toNat / 4 * 4 ≤ x ∧ x < addr.toNat / 4 * 4 + 4 ∧ be.getLsbD (x % 4) = true
        then s.byte x &&& (v >>> (8 * (x % 4))).setWidth 8 else s.byte x) ∧
  (∀ (m : Master) (addr : Word) (be : BitVec 4) (v : Word) (s : State), addr.toNat < 0x400000 →
    s.accesses m true addr.toNat = true →
    s.flashWriteCode m addr.toNat ≠ 0 →
    let r := s.flashResult (masterCode m) addr.toNat (s.flashWriteCode m addr.toNat)
    exec (.flashProgram m addr be v) s = .next (r.accFault m true addr.toNat) ∧ r.mem.cells = s.mem.cells ∧
      r.mem.fresult = addr ∧ r.mem.fresult2 = BitVec.ofNat 4 (s.flashWriteCode m addr.toNat)) ∧
  (∀ (m : Master) (addr : Word) (be : BitVec 4) (v : Word) (s : State), 0x400000 ≤ addr.toNat →
    s.accesses m true addr.toNat = true →
    exec (.flashProgram m addr be v) s = .next (s.accFault m true addr.toNat)) ∧
  (∀ (bankB : Bool) (s : State), (if bankB then s.mem.busyB else s.mem.busyA) = some none →
    exec (.flashProgramDone bankB) s = .next
      (if bankB then { s with mem.busyB := none } else { s with mem.busyA := none })) ∧
  (∀ (m : Master) (v : Word) (s : State), s.accesses m true Reg.MEM_FERASE = true → v.getLsbD 31 = true →
    s.flashEraseCode m (fld v 0 10) = 0 →
    ∃ t, exec (.flashErase m v) s = .next t ∧ t.wear (fld v 0 10) = s.wear (fld v 0 10) + 1 ∧
      t.flashBusy (fld v 0 10) = some (some (BitVec.ofNat 10 (fld v 0 10))) ∧ t.mem.cells = s.mem.cells) ∧
  (∀ (m : Master) (v : Word) (s : State), s.accesses m true Reg.MEM_FERASE = true → v.getLsbD 31 = true →
    s.flashEraseCode m (fld v 0 10) ≠ 0 →
    let r := s.flashErase m v
    exec (.flashErase m v) s = .next (r.accFault m true Reg.MEM_FERASE) ∧ r.mem.wear = s.mem.wear ∧
      r.mem.cells = s.mem.cells ∧ r.mem.fresult2 = BitVec.ofNat 4 (s.flashEraseCode m (fld v 0 10))) ∧
  (∀ (bankB : Bool) (sec : BitVec 10) (s : State), (if bankB then s.mem.busyB else s.mem.busyA) = some (some sec) →
    (512 ≤ sec.toNat ↔ bankB = true) → fbRing sec.toNat = none → s.mem.saveErase = [] → s.fbk.eraseWait = [] →
    ∃ t, exec (.flashEraseDone bankB []) s = .next t ∧
      ∀ x, t.byte x = if 4096 * sec.toNat ≤ x ∧ x < 4096 * sec.toNat + 4096 then 0xFF else s.byte x) ∧
  (∀ (m : Master) (e : MemLog) (rest : List MemLog) (s : State), s.accesses m false Reg.MEM_ELOG0 = true →
    s.mem.log = e :: rest →
    exec (.memElogPop m) s = .next { s with
      mem.log := rest, mem.latched := e, out := s.out ++ [.answer m e.w0] })

/-- The scrubber (15 R407), the injection (MEM_INJECT) and the check columns: which columns the code uses is open beyond their
weight and distinctness (15 R400; log 15). -/
def Obligations.MemoryErrors : Prop :=
  (∀ s : State, s.coreRuns = true → s.regBit Reg.MEM_CTL 0 = true → s.sys.splitAct.getLsbD 8 = false →
    s.wordErr s.mem.scrubPos.toNat = none →
    exec .scrub s = .next { s with
      mem.scrubPos := BitVec.ofNat 32 (scrubNext s.mem.scrubPos.toNat).1
      mem.scrubPass := if (scrubNext s.mem.scrubPos.toNat).2 then s.mem.scrubPass + 1 else s.mem.scrubPass }) ∧
  (∀ (e : WordErr) (s : State), s.coreRuns = true → s.regBit Reg.MEM_CTL 0 = true → s.sys.splitAct.getLsbD 8 = false →
    s.wordErr s.mem.scrubPos.toNat = some e →
    ∃ t, exec .scrub s = .next t ∧
      t = { (match e with
        | .single b => ((s.putWord s.mem.scrubPos.toNat
            (s.wordAt s.mem.scrubPos.toNat ^^^ BitVec.ofNat 32 (2 ^ b.val))).setErr s.mem.scrubPos.toNat none).eccCe 1 5
            s.mem.scrubPos.toNat e
        | .check _ => ((s.putWord s.mem.scrubPos.toNat (s.wordAt s.mem.scrubPos.toNat)).setErr s.mem.scrubPos.toNat
            none).eccCe 1 5 s.mem.scrubPos.toNat e
        | _ => (s.setErr s.mem.scrubPos.toNat (some .poison)).eccUe 3 5 s.mem.scrubPos.toNat e : State) with
        mem.scrubPos := t.mem.scrubPos, mem.scrubPass := t.mem.scrubPass } ∧
      t.mem.scrubPos = BitVec.ofNat 32 (scrubNext s.mem.scrubPos.toNat).1) ∧
  (∀ (src : Byte) (k a : Nat) (e : WordErr) (s : State), s.mem.log.length < 16 →
    (s.eccCe k src a e).mem.ce = satSucc s.mem.ce ∧ (s.eccCe k src a e).mem.log.length = s.mem.log.length + 1 ∧
    (s.eccCe k src a e).mem.cells = s.mem.cells ∧ (s.eccCe k src a e).mem.errs = s.mem.errs ∧
    (s.eccCe k src a e).evt.raw = setBit s.evt.raw 232 ∧ (s.eccUe k src a e).evt.raw = setBit s.evt.raw 233) ∧
  (∀ (m : Master) (v : Word) (b : Fin 32) (s : State), s.accesses m true s.injAddr = true →
    s.regBit Reg.MEM_INJECT 31 = true → s.regFld Reg.MEM_INJECT 0 5 = b.val → memRegion? s.injAddr = some .sram →
    (s.regBit Reg.MEM_INJECT 30 = false →
      exec (.injection m v) s = .next (((s.putWord s.injAddr (v ^^^ BitVec.ofNat 32 (2 ^ b.val))).setErr s.injAddr
        (some (.single b))).setReg Reg.MEM_INJECT (clrBit (s.reg Reg.MEM_INJECT) 31))) ∧
    (s.regBit Reg.MEM_INJECT 30 = true →
      exec (.injection m v) s = .next (((s.putWord s.injAddr
        (v ^^^ BitVec.ofNat 32 (2 ^ b.val + 2 ^ (b + 1).val))).setErr s.injAddr (some (.double b (b + 1)))).setReg
          Reg.MEM_INJECT (clrBit (s.reg Reg.MEM_INJECT) 31)))) ∧
  (∀ b : Fin 32, ((List.range 7).filter (secdedColumn b).getLsbD).length = 3) ∧
  (∀ b c : Fin 32, secdedColumn b = secdedColumn c → b = c) ∧
  (∀ (b : Fin 32) (c : Fin 7), (WordErr.check c).syndrome ≠ 0 ∧ (WordErr.check c).syndrome ≠ (WordErr.single b).syndrome) ∧
  (∀ a b c : Fin 32, a ≠ b → (WordErr.double a b).syndrome ≠ 0 ∧ (WordErr.double a b).syndrome ≠ (WordErr.single c).syndrome)

/-- Partitions and the steward watchdog (16 R437 to R442, Tables 16.6 and 16.7). -/
def Obligations.PartitionsServe : Prop :=
  let only (p : Fin 6) (s t : State) : Prop := ∀ q, q ≠ p → t.part q = s.part q
  (∀ (m : Master) (p : Fin 6) (s : State), partMaster m p.val = true → s.accesses m true Reg.SYS_PARTCTL = true →
    s.part p = .inService →
    ∃ t, exec (.quiesce m ⟨p.val, by omega⟩) s = .next t ∧ t.part p = .quiescing ∧ t.sys.cmdref = false ∧
      t.evt.raw.getLsbD 254 = true ∧ only p s t) ∧
  (∀ (m : Master) (p : Fin 6) (b : Bool) (s : State), partMaster m p.val = true →
    s.accesses m true Reg.SYS_PARTCTL = true → s.part p = .quiesced ∨ s.part p = .failed →
    ∃ t, exec (.partitionReset m ⟨p.val, by omega⟩ b) s = .next t ∧ t.part p = .resetting ∧ t.sys.cmdref = false ∧
      t.evt.raw.getLsbD 254 = true ∧ only p s t) ∧
  (∀ (m : Master) (p : Fin 6) (s : State), partMaster m p.val = true → s.accesses m true Reg.SYS_PARTCTL = true →
    s.part p = .quiesced →
    ∃ t, exec (.rejoin m ⟨p.val, by omega⟩) s = .next t ∧ t.part p = .rejoining ∧ t.sys.cmdref = false ∧
      t.evt.raw.getLsbD 254 = true ∧ only p s t) ∧
  (∀ (m : Master) (p : Fin 8) (b : Bool) (s : State), 6 ≤ p.val ∨ partMaster m p.val = false →
    s.accesses m true Reg.SYS_PARTCTL = true →
    exec (.quiesce m p) s = .next { s with sys.cmdref := true } ∧
    exec (.partitionReset m p b) s = .next { s with sys.cmdref := true } ∧
    exec (.rejoin m p) s = .next { s with sys.cmdref := true }) ∧
  (∀ (m : Master) (p : Fin 6) (b : Bool) (s : State), s.accesses m true Reg.SYS_PARTCTL = true → 
    (s.part p ≠ .inService → exec (.quiesce m ⟨p.val, by omega⟩) s = .next { s with sys.cmdref := true }) ∧
    (s.part p ≠ .quiesced → s.part p ≠ .failed →
      exec (.partitionReset m ⟨p.val, by omega⟩ b) s = .next { s with sys.cmdref := true }) ∧
    (s.part p ≠ .quiesced → exec (.rejoin m ⟨p.val, by omega⟩) s = .next { s with sys.cmdref := true })) ∧
  (∀ (m : Master) (p : Fin 8) (b : Bool) (s : State), s.masterRuns m = false →
    exec (.quiesce m p) s = .next s ∧ exec (.partitionReset m p b) s = .next s ∧ exec (.rejoin m p) s = .next s) ∧
  (∀ (p : Fin 6) (s : State), s.part p = .quiescing → s.quiesceDue p = true → p ≠ 4 ∨ s.boot.autoP4 ≠ 1 →
    ∃ t, exec (.quiesceComplete p) s = .next t ∧ t.part p = .quiesced ∧ t.evt.raw.getLsbD 254 = true ∧ only p s t) ∧
  (∀ (p : Fin 6) (s : State), s.part p ≠ .quiescing ∨ s.quiesceDue p = false → exec (.quiesceComplete p) s = .next s) ∧
  (∀ (p : Fin 6) (s : State), s.part p = .resetting → p ≠ 4 →
    ∃ t, exec (.partitionResetDone p) s = .next t ∧ t.part p = .quiesced ∧ t.evt.raw.getLsbD 254 = true ∧ only p s t) ∧
  (∀ s : State, s.part 4 = .resetting → s.verdict .steward s.boot.reloadBank ≠ 0 →
    ∃ t, exec (.partitionResetDone 4) s = .next t ∧ t.part 4 = .failed ∧ t.evt.raw.getLsbD 251 = true ∧
      t.boot.steward = s.boot.steward ∧ only 4 s t) ∧
  (∀ s : State, s.part 4 = .resetting → s.verdict .steward s.boot.reloadBank = 0 → s.boot.autoP4 ≠ 1 → s.boot.phase ≠ .limp →
    ∃ t, exec (.partitionResetDone 4) s = .next t ∧ t.part 4 = .quiesced ∧ t.boot.steward = some s.boot.reloadBank ∧
      t.boot.hsst = true ∧ t.ctl.hartS.inReset = false ∧ only 4 s t) ∧
  (∀ s : State, s.part 4 = .resetting → s.verdict .steward s.boot.reloadBank = 0 → s.boot.autoP4 ≠ 1 → s.boot.phase = .limp →
    ∃ t, exec (.partitionResetDone 4) s = .next t ∧ t.part 4 = .quiesced ∧ t.boot.steward = s.boot.steward ∧
      t.ctl.hartS = s.ctl.hartS ∧ only 4 s t) ∧
  (∀ (p : Fin 6) (s : State), s.part p = .rejoining → p ≠ 4 →
    ∃ t, exec (.rejoinComplete p) s = .next t ∧ t.part p = .inService ∧ t.evt.raw.getLsbD 254 = true ∧ only p s t) ∧
  (∀ s : State, s.part 4 = .rejoining →
    ∃ t, exec (.rejoinComplete 4) s = .next t ∧
      t.part 4 = (if s.boot.hsst = true ∧ s.boot.hsrt = true then .inService else .failed) ∧
      (s.handshake = false → t.evt.raw.getLsbD 253 = true) ∧ only 4 s t) ∧
  (∀ (p : Fin 6) (s : State), (s.part p ≠ .resetting → exec (.partitionResetDone p) s = .next s) ∧
    (s.part p ≠ .rejoining → exec (.rejoinComplete p) s = .next s)) ∧
  (∀ s : State, exec .bootKick s = .next { s with boot.swdStart := s.tre.time }) ∧
  (∀ s : State, s.boot.steward = none ∨ s.ctl.hartS.halted = true → exec .stewardWatchdog s = .next s) ∧
  (∀ (b : Bool) (s : State), s.coreRuns = true → s.boot.steward = some b → s.ctl.hartS.halted = false →
    s.part 4 = .inService →
    ∃ t, exec .stewardWatchdog s = .next t ∧ t.part 4 = .quiescing ∧ t.boot.swdcnt = satSucc s.boot.swdcnt ∧
      t.boot.reloadBank = b ∧ t.evt.raw.getLsbD 255 = true ∧ only 4 s t)

/-- Boot commands, keys, TAP and debug (16 R429 to R435, R444 to R446; DTMCS and the abstract command follow the RISC-V
debug specification, log 14; a step's next pc and what the program buffer does are the program's, logs 10 and 231; traps and triggers follow
the privileged and debug specifications, log 10). -/
def Obligations.BootServes : Prop :=
  let dmi (s : State) : State := { s with boot.ir := 0x11, boot.extest := false, out := s.out ++ [.tdo 5 1] }
  let on (s : State) : State := { dmi s with boot.opFailed := false }
  (∀ (v : Word) (s : State), v.getLsbD 31 = true → s.boot.verifying = none →
    ∃ t, exec (.bootVerify v) s = .next t ∧ t.boot = { s.boot with verifying := some (v.setWidth 2) }) ∧
  (∀ (v : Word) (s : State), v.getLsbD 31 = false ∨ s.boot.verifying ≠ none →
    ∃ t, exec (.bootVerify v) s = .next t ∧ t.boot = s.boot) ∧
  (∀ s : State, s.boot.verifying = none → exec .bootVerifyDone s = .next s) ∧
  (∀ (tg : BitVec 2) (s : State), s.coreRuns = true → s.boot.verifying = some tg →
    ∃ t, exec .bootVerifyDone s = .next t ∧ t.boot.verifying = none ∧
      t.boot.vresult = s.verdict (if tg.getLsbD 1 = true then .steward else .program) (tg.getLsbD 0) ∧
      (tg.getLsbD 1 = true → t = { s with boot := t.boot } ∧ t.boot.validA = s.boot.validA ∧ t.boot.validB = s.boot.validB) ∧
      t.boot.validA = (s.boot.validA || (decide (tg = 0) && decide (t.boot.vresult = 0))) ∧
      t.boot.validB = (s.boot.validB || (decide (tg = 1) && decide (t.boot.vresult = 0)))) ∧
  (∀ (i : Fin 4) (s : State), s.boot.phase = .limp ∨ (∀ j : Fin 4, (s.boot.keys.get j).programmed = false) →
    (s.boot.keys.get i).programmed = false →
    exec (.keyProgram i) s = .next { s with
      boot.keys := s.boot.keys.set i { s.boot.keys.get i with programmed := true, hash := s.keyBuf } }) ∧
  (∀ (i j : Fin 4) (s : State), (s.boot.keys.get i).programmed = true ∨
    (s.boot.phase ≠ .limp ∧ (s.boot.keys.get j).programmed = true) → exec (.keyProgram i) s = .next s) ∧
  (∀ (i : Fin 4) (s : State), s.boot.stewardKey = some i → s.boot.steward.isSome = true →
    exec (.keyRevoke i) s = .next s) ∧
  (∀ (i : Fin 4) (s : State), s.boot.stewardKey ≠ some i ∨ s.boot.steward = none →
    ∃ t, exec (.keyRevoke i) s = .next t ∧ t = { s with boot.keys := t.boot.keys } ∧
      ∀ j : Fin 4, t.boot.keys.get j = if j = i then { s.boot.keys.get i with revoked := true } else s.boot.keys.get j) ∧
  (∀ (h : Hart) (pc addr v : Word) (tdi wr : Bool) (pins cells : BitVec 225) (reg : Half) (n : Size) (b : BufOp) (c : Instr) (s : State),
    s.bankOn 0 = false →
    c ∈ [.tapReset, .idcode, .bypass tdi, .samplePreload pins cells, .extest pins cells, .dtmcs v, .debugHalt h, .debugResume h,
      .singleStep h pc, .abstractCommand h wr reg v b, .systemBusRead addr n, .systemBusWrite addr n v] →
    exec c s = .next s) ∧
  (∀ s : State, s.bankOn 0 = true → exec .tapReset s = .next { s with boot.ir := 2, boot.extest := false } ∧
    exec .idcode s = .next { s with boot.ir := 2, boot.extest := false, out := s.out ++ [.tdo 5 1, .tdo 32 0x1321656B] } ∧
    ∀ tdi, exec (.bypass tdi) s = .next
      { s with boot.ir := 0x1F, boot.extest := false, boot.byp := tdi, out := s.out ++ [.tdo 5 1, .tdo 1 0] }) ∧
  (∀ (pins cells : BitVec 225) (s : State), s.bankOn 0 = true → exec (.samplePreload pins cells) s = .next { s with
    boot.ir := 1, boot.extest := false, boot.bsr := cells, boot.bsrUpd := cells, out := s.out ++ [.tdo 5 1, .tdo 225 pins.toNat] }) ∧
  (∀ (pins cells : BitVec 225) (s : State), s.bankOn 0 = true → s.sys.resetN = true →
    exec (.extest pins cells) s = .next { s with boot.ir := 0x1F, boot.extest := false, out := s.out ++ [.tdo 5 1] }) ∧
  (∀ (pins cells : BitVec 225) (s : State), s.bankOn 0 = true → s.sys.resetN = false →
    exec (.extest pins cells) s = .next { s with
    boot.ir := 0, boot.extest := true, boot.bsr := cells, boot.bsrUpd := cells
    out := s.out ++ [.tdo 5 1, .tdo 225 pins.toNat] }) ∧
  (∀ (v : Word) (s : State), s.bankOn 0 = true → ∃ t, exec (.dtmcs v) s = .next t ∧ t.boot.ir = 0x10 ∧
    t.boot.dmistat = (if v.getLsbD 16 = true ∨ v.getLsbD 17 = true then 0 else s.boot.dmistat) ∧
    t.out = s.out ++ [.tdo 5 1, .tdo 32 (0x71 + 1024 * s.boot.dmistat.toNat)]) ∧
  (∀ (h : Hart) (pc addr v : Word) (reg : Half) (wr : Bool) (n : Size) (b : BufOp) (c : Instr) (s : State),
    s.bankOn 0 = true → s.regBit Reg.BOOT_CTL 8 = false →
    c ∈ [.debugHalt h, .debugResume h, .singleStep h pc, .abstractCommand h wr reg v b, .systemBusRead addr n,
      .systemBusWrite addr n v] →
    exec c s = .next { dmi s with boot.opFailed := true, boot.dmistat := if s.boot.dmistat = 0 then 2 else s.boot.dmistat }) ∧
  (∀ (h : Hart) (s : State), s.bankOn 0 = true → s.regBit Reg.BOOT_CTL 8 = true → (s.hart h).inReset = false →
    exec (.debugHalt h) s = .next ((on s).setHart h { s.hart h with halted := true })) ∧
  (∀ (h : Hart) (s : State), s.bankOn 0 = true → s.regBit Reg.BOOT_CTL 8 = true →
    exec (.debugResume h) s = .next ((on s).setHart h { s.hart h with halted := false })) ∧
  (∀ (h : Hart) (pc : Word) (s : State), s.bankOn 0 = true → s.regBit Reg.BOOT_CTL 8 = true → (s.hart h).halted = true →
    exec (.singleStep h pc) s = .next ((on s).setHart h { s.hart h with pc := pc })) ∧
  (∀ (h : Hart) (i : Fin 32) (v : Word) (b : BufOp) (s : State), s.bankOn 0 = true → s.regBit Reg.BOOT_CTL 8 = true →
    (s.hart h).halted = true → b = .keep ∨ b = .run →
    (exec (.abstractCommand h false (BitVec.ofNat 16 (0x1000 + i.val)) v b) s = .next
      ((on s).emit (.answer .debug (if i = 0 then 0 else (s.hart h).x.get i)))) ∧
    (exec (.abstractCommand h true (BitVec.ofNat 16 (0x1000 + i.val)) v b) s = .next
      ((on s).setHart h (if i = 0 then s.hart h else { s.hart h with x := vset (s.hart h).x i.val v })))) ∧
  (∀ (h : Hart) (v w0 w1 : Word) (s : State), s.bankOn 0 = true → s.regBit Reg.BOOT_CTL 8 = true → (s.hart h).halted = true →
    let k : Fin 4 × Fin 4 := match h with | .control => (0, 1) | .steward => (2, 3)
    exec (.abstractCommand h false 0x1000 v (.write w0 w1)) s = .next (State.emit (.answer .debug 0)
      { on s with boot.progbuf := (s.boot.progbuf.set k.1 w0).set k.2 w1 }) ∧
    exec (.abstractCommand h false 0x1000 v .read) s = .next { on s with
      out := s.out ++ [.tdo 5 1, .answer .debug (s.boot.progbuf.get k.1), .answer .debug (s.boot.progbuf.get k.2),
        .answer .debug 0] }) ∧
  (∀ (x : HartState) (i : Nat) (a : Nat) (epc : Word), i < 4 →
    ((x.csr (0x17A1 + 0x1000 * i)).getLsbD 12 = true → (x.fire i a epc).halted = true ∧ (x.fire i a epc).pc = x.pc ∧
      (x.fire i a epc).user = x.user) ∧
    ((x.csr (0x17A1 + 0x1000 * i)).getLsbD 12 = false → (x.fire i a epc).halted = x.halted ∧
      (x.fire i a epc).pc = x.csr 0x305 &&& 0xFFFFFFFC ∧ (x.fire i a epc).user = false ∧ (x.fire i a epc).csr 0x342 = 3 ∧
      (x.fire i a epc).csr 0x341 = epc ∧ (x.fire i a epc).csr 0x343 = BitVec.ofNat 32 a)) ∧
  (∀ (h : Hart) (pc v : Word) (wr : Bool) (reg : Half) (b : BufOp) (s : State), s.bankOn 0 = true →
    s.regBit Reg.BOOT_CTL 8 = true →
    (s.hart h).halted = false →
    exec (.singleStep h pc) s = .next (on s) ∧
    exec (.abstractCommand h wr reg v b) s = .next (on s)) ∧
  (∀ (addr : Word) (s : State), s.bankOn 0 = true → s.regBit Reg.BOOT_CTL 8 = true → addr.toNat % 4 = 0 →
    (on s).readErr .debug addr.toNat 0xF = none →
    exec (.systemBusRead addr .word) s = .next ((on s).emit
      (.answer .debug ((on s).busPeek .debug addr.toNat 0xF)))) ∧
  (∀ (addr : Word) (n : Size) (s : State), s.bankOn 0 = true → s.regBit Reg.BOOT_CTL 8 = true →
    addr.toNat % Sys2Proof.Machine.sizeOf n ≠ 0 → ∀ v,
    exec (.systemBusRead addr n) s = .next (on s).dmiFail ∧
    exec (.systemBusWrite addr n v) s = .next (on s).dmiFail) ∧
  (∀ (addr v : Word) (s : State), s.bankOn 0 = true → s.regBit Reg.BOOT_CTL 8 = true → addr.toNat % 4 = 0 →
    (on s).writeFails .debug addr.toNat 0xF v = none →
    exec (.systemBusWrite addr .word v) s = .next ((on s).write .debug addr.toNat 0xF v))

/-- The block's step over its queue of commands (the empty queue's tick is the model's choice, log 5). -/
def Obligations.CommandStep : Prop :=
  (∀ (c : Instr) (s : State), step { s with pending := c :: s.pending } = exec c s) ∧
  (∀ (c : Instr) (rest : List Instr) (s : State), s.pending = c :: rest →
    step s = exec c { s with pending := rest }) ∧
  (∀ s : State, s.pending = [] → step s = .next s.idle ∧ s.idle.pending = [])

/-- Commands come only from outside. -/
def Obligations.QueueStays : Prop :=
  ∀ (c : Instr) (s t : State), exec c s = .next t → t.pending = s.pending

/-- Memory and bounded stores under every step (the canonical form is the model's, log 3). -/
def Obligations.StoresBounded : Prop :=
  ∀ s t : State, s.Sound → step s = .next t → t.Sound

/-- Reset (register tables of 02 to 16). -/
def Obligations.ResetState : Prop :=
  State.reset.pending = [] ∧ State.reset.Sound ∧
  (∀ x ∈ [
    (0x40000030, 0x8C463C04), (0x40000034, 0x1E00), (0x40020000, 0x300F), (0x40020004, 0xB4000F), (0x40021000, 0x7000),
    (0x40021000 + 0x3000, 0x7000), (0x40021008, 0x64041404), (0x40021008 + 0x3000, 0x64041404),
    (0x4002100C, 0x321018), (0x4002100C + 0x3000, 0x321018), (0x40021010, 0xA0A14), (0x40021010 + 0x3000, 0xA0A14),
    (0x40021014, 0xB4000F), (0x40021014 + 0x3000, 0xB4000F), (0x40030004, 0x3441014), (0x40030008, 0x80640564),
    (0x40040000, 0x5), (0x40040004, 0x40), (0x4004000C, 0xC), (0x40040010, 0x32030A04), (0x40050000, 0x3),
    (0x40050004, 0x20100082), (0x40050020, 0xA2010), (0x40050024, 0x14), (0x40050028, 0x80000000),
    (0x40060010, 0xDAC688), (0x40060014, 0xFFFF2010), (0x40060018, 0x12C), (0x40070010, 0xDAC688),
    (0x40070014, 0xFFFF2010), (0x40090000, 0x3C0A01), (0x400A8008, 0x4141400), (0x400B0004, 0x14190A),
    (0x400B0008, 0xA), (0x400B0200, 0xFFFFFFFF), (0x400B0200 + 0x7C, 0xFFFFFFFF), (0x400C0000, 0x10),
    (0x400C0004, 0x3C40303), (0x400D0000, 0x1), (0x400D0004, 0xFFFF), (0x400E0004, 0x320010), (0x40100000, 0x1),
    (0x40100004, 0x20), (0x40100008, 0x10000000), (0x40110000, 0x777700), (0x40110008, 0x30203),
    (0x40110018, 0x7700), (0x4011001C, 0x700), (0x40110024, 0xA), (0x40120000, 0x800), (0x40120004, 0xA00)], State.reset.regPeek .control x.1 = x.2) ∧
  (∀ g : Fin 32, State.reset.gate g = ⟨0, false⟩) ∧ (∀ q : Fin 16, State.reset.queue q = ⟨[], 0⟩) ∧
  (∀ n : Fin 32, (State.reset.dch n).state = .idle) ∧ State.reset.evt.raw = 0 ∧ State.reset.evt.multi = 0 ∧
  State.reset.ctl.pstate = .none ∧
  (∀ p : Fin 4, (State.reset.port p).state = .silent ∧ (State.reset.port p).jam = false) ∧
  State.reset.regBit Reg.LANE_CTL 0 = false ∧ State.reset.hasEpoch = false ∧ State.reset.svy.nid = none ∧
  State.reset.tre.sync = .free ∧ State.reset.regBit Reg.BOOT_CTL 8 = false ∧
  (∀ a < 0x400000, State.reset.byte a = 0xFF)

/-- Accesses by any master (00 R12, 02 R62, 08 R244, 09 R263, R267, 13 R354, 15 R418, 16 R446). -/
def Obligations.RegisterWrites : Prop :=
  (∀ (c : Instr) (m : Master) (w : Bool) (a : Nat) (s : State), accessOf s c = some (m, w, a) →
    (s.masterRuns m = false → exec c s = .next s) ∧
    (s.masterRuns m = true → s.trigTake m (if w then 1 else 0) a = none → s.masterAllows m w a = false →
      exec c s = .next (s.accFault m w a)) ∧
    (s.masterRuns m = true → ∀ t, s.trigTake m (if w then 1 else 0) a = some t → exec c s = .next t)) ∧
  (∀ (m : Master) (a : Word) (be : BitVec 4) (v : Word) (s : State), s.masterRuns m = false →
    exec (.registerWrite m a be v) s = .next s) ∧
  (∀ (m : Master) (a : Nat) (be : BitVec 4) (v : Word) (s t : State), a < 0x40000000 → s.masterRuns m = true →
    s.trigTake m 1 (4 * a + firstLane be) = some t →
    exec (.registerWrite m (BitVec.ofNat 32 (4 * a)) be v) s = .next t) ∧
  (∀ (m : Master) (a : Nat) (be : BitVec 4) (v : Word) (s : State), a < 0x40000000 → s.txSize = 0 →
    s.meetsNone m (4 * a) be = true → memRegion? (4 * a) = none → regRow? (4 * a) = none →
    exec (.registerWrite m (BitVec.ofNat 32 (4 * a)) be v) s = .next (s.accFault m true (4 * a + firstLane be))) ∧
  (∀ (m : Master) (a : Nat) (be : BitVec 4) (v : Word) (s : State), a < 0x40000000 → s.txSize = 0 →
    s.meetsNone m (4 * a) be = true → s.masterAllows m true (4 * a) = false →
    exec (.registerWrite m (BitVec.ofNat 32 (4 * a)) be v) s = .next (s.accFault m true (4 * a + firstLane be))) ∧
  (∀ (m : Master) (n : Fin 32) (k : Fin 8) (be : BitVec 4) (v : Word) (s : State), s.txSize = 0 →
    s.meetsNone m (Reg.chctl n + 4 * k.val) be = true → s.dmaCtlSide n = true → m ≠ .control → m ≠ .service →
    exec (.registerWrite m (BitVec.ofNat 32 (Reg.chctl n + 4 * k.val)) be v) s =
      .next (s.accFault m true (Reg.chctl n + 4 * k.val + firstLane be))) ∧
  (∀ (m : Master) (g : Fin 32) (be : BitVec 4) (v : Word) (s : State), s.txSize = 0 →
    (s.meetsNone m (Reg.at Reg.GATE_REL g) be = true → (s.gate g).owner ≠ masterCode m →
      exec (.registerWrite m (BitVec.ofNat 32 (Reg.at Reg.GATE_REL g)) be v) s =
        .next (s.accFault m true (Reg.at Reg.GATE_REL g + firstLane be))) ∧
    (s.meetsNone m (Reg.at Reg.GATE_FORCE g) be = true → masterCode m ≠ 2 → masterCode m ≠ 4 →
      exec (.registerWrite m (BitVec.ofNat 32 (Reg.at Reg.GATE_FORCE g)) be v) s =
        .next (s.accFault m true (Reg.at Reg.GATE_FORCE g + firstLane be)))) ∧
  (∀ (m : Master) (i : Nat) (be : BitVec 4) (v : Word) (s : State), i < 0x20000 → s.txSize = 0 → s.mem.errs = [] →
    s.regBit Reg.MEM_INJECT 31 = false → s.meetsNone m (0x10000000 + 4 * i) be = true →
    s.masterAllows m true (0x10000000 + 4 * i) = true →
    ∃ t, exec (.registerWrite m (BitVec.ofNat 32 (0x10000000 + 4 * i)) be v) s = .next t ∧ t = { s with mem := t.mem } ∧
      ∀ x, t.byte x = if 0x10000000 + 4 * i ≤ x ∧ x < 0x10000000 + 4 * i + 4 ∧ be.getLsbD (x % 4) = true
        then (v >>> (8 * (x % 4))).setWidth 8 else s.byte x) ∧
  (∀ (n : Fin 256) (s : State), s.txSize = 0 → s.accesses .control true Reg.EVT_SOFT = true →
    exec (.registerWrite .control (BitVec.ofNat 32 Reg.EVT_SOFT) 1 (BitVec.ofNat 32 n.val)) s = .next (s.raise n.val)) ∧
  (∀ (v : Word) (s : State), s.txSize = 0 → s.accesses .control true Reg.ITN_RUNCTL = true → s.progBusy = true →
    v.getLsbD 1 = false → v.getLsbD 2 = false →
    exec (.registerWrite .control (BitVec.ofNat 32 Reg.ITN_RUNCTL) 0xF v) s = .next s) ∧
  (∀ (i : Fin 256) (be : BitVec 4) (v : Word) (s : State), s.txSize = 0 →
    s.meetsNone .control (Reg.at Reg.TRE_WMTAB i) be = true →
    s.masterAllows .control true (Reg.at Reg.TRE_WMTAB i) = true → s.regBit Reg.TRE_CTL 0 = true →
    exec (.registerWrite .control (BitVec.ofNat 32 (Reg.at Reg.TRE_WMTAB i)) be v) s = .next s) ∧
  (∀ (be : BitVec 4) (v : Word) (s : State), s.txSize = 0 → s.meetsNone .control Reg.LANE_CFG be = true →
    s.masterAllows .control true Reg.LANE_CFG = true → s.regBit Reg.LANE_CTL 0 = true →
    exec (.registerWrite .control (BitVec.ofNat 32 Reg.LANE_CFG) be v) s = .next s) ∧
  (∀ a ∈ [Reg.TRE_PERIOD, Reg.TRE_SYNCCFG, Reg.SVY_CFG, Reg.SVY_TIM, Reg.ROAD_MAC, Reg.ETH_AGE,
      Reg.FBK_CTL, Reg.ITN_CYCCFG, Reg.LANE_TIM, Reg.WLV_CFG, Reg.CWY_CFG, Reg.MEM_SCRUB, Reg.BOOT_SWDT],
    ∀ (be : BitVec 4) (v : Word) (s : State), s.txSize = 0 → s.meetsNone .control a be = true →
      s.masterAllows .control true a = true →
      ∃ t, exec (.registerWrite .control (BitVec.ofNat 32 a) be v) s = .next t ∧ t = { s with regs := t.regs } ∧
        t.reg a = mergeLanes (s.reg a) be v &&& regMask a ∧ ∀ b, b ≠ a → t.reg b = s.reg b) ∧
  (∀ (be : BitVec 4) (v : Word) (s : State), s.txSize = 0 → s.meetsNone .control Reg.ROAD_PAUSE be = true →
    s.masterAllows .control true Reg.ROAD_PAUSE = true →
    ∃ t, exec (.registerWrite .control (BitVec.ofNat 32 Reg.ROAD_PAUSE) be v) s = .next t ∧
      t = (s.setReg Reg.ROAD_PAUSE (mergeLanes (s.reg Reg.ROAD_PAUSE) be v)).pauseAll ∧
      t.reg Reg.ROAD_PAUSE = mergeLanes (s.reg Reg.ROAD_PAUSE) be v &&& regMask Reg.ROAD_PAUSE) ∧
  (∀ (m : Master) (v : Word) (s : State), s.txSize = 0 → s.accesses m true Reg.MEM_FERASE = true → v.getLsbD 31 = true →
    s.flashEraseCode m (fld v 0 10) ≠ 0 →
    exec (.registerWrite m (BitVec.ofNat 32 Reg.MEM_FERASE) 0xF v) s =
      .next ((s.flashErase m v).accFault m true Reg.MEM_FERASE) ∧
    (s.flashErase m v).mem.cells = s.mem.cells ∧ (s.flashErase m v).mem.wear = s.mem.wear)

/-- The bytes an entry may store to (10 R285, R289). -/
def Obligations.EntryBytes : Prop :=
  ∀ (b : Blk) (e : Entry) (s : State) (x : Nat), s.mem.errs = [] →
    (∀ w ∈ s.recWords b e ((s.refVal b.qa b.none_ e.in0).getD 0) ++ [e.out0, e.out1].filterMap refAddr,
      x < w ∨ w + 4 ≤ x) →
    (s.entryResult b e).byte x = s.byte x

/-- The last event raised (08 R244). -/
def Obligations.LastEvent : Prop :=
  ∀ (n : Fin 256) (m : Master) (s : State),
    let shows (t : State) (v : Half) : Prop := (∀ st : Byte, t.spReg st 0x2A = v) ∧ t.regPeek m Reg.EVT_LAST = v.setWidth 32
    let kept := s.regArrBit Reg.EVT_ALE n.val || s.regArrBit Reg.EVT_LOG n.val || s.regBit Reg.EVT_CTL 0
    shows (s.raise n.val) (if kept = true then BitVec.ofNat 16 (0x8000 + n.val) else s.spReg 0 0x2A)

/-- What the commands of one block leave alone. -/
def Obligations.FrameOwn : Prop :=
  ∀ (c : Instr) (s t : State), s.made c → exec c s = .next t → ownFrame c s t

/-- What the commands that raise events leave alone. -/
def Obligations.FrameReport : Prop :=
  ∀ (c : Instr) (s t : State), s.made c → exec c s = .next t → reportFrame c s t

/-- What the wider commands leave alone. -/
def Obligations.FrameWide : Prop :=
  ∀ (c : Instr) (s t : State), s.made c → exec c s = .next t → wideFrame c s t
end

