-- ==== Sys2Proof/Laws/Keeps.lean ====
section
/-! SUPPORT. The bounded stores of a state are kept: the laws of a sparse list, then one lemma per operation and
meaning of the shared operations, the memories, the Field Book and the service records. -/
namespace Sys2Proof.Machine

theorem ite_sound {c : Prop} [Decidable c] {a b : State} (ha : a.Sound) (hb : b.Sound) :
    (if c then a else b).Sound := by
  split <;> assumption
theorem dite_sound {c : Prop} [Decidable c] {a : c → State} {b : ¬ c → State} (ha : ∀ h, (a h).Sound) (hb : ∀ h, (b
  h).Sound) :
    (if h : c then a h else b h).Sound := by
  split
  · exact ha _
  · exact hb _
theorem State.when_sound {s : State} {b : Bool} {f : State → State} (hs : s.Sound) (hf : ∀ t : State, t.Sound → (f
  t).Sound) :
    (s.when b f).Sound := by
  unfold State.when
  split
  · exact hf s hs
  · exact hs
theorem State.each_sound {α : Type} {s : State} {l : List α} {f : α → State → State} (hs : s.Sound)
    (hf : ∀ x, ∀ t : State, t.Sound → (f x t).Sound) : (s.each l f).Sound := by
  unfold State.each
  induction l generalizing s with
  | nil => exact hs
  | cons x t ih => exact ih (hf x s hs)
theorem swf_mono {α : Type} [DecidableEq α] (d : Nat → α) {n m : Nat} (l : List (Nat × α)) (hnm : n ≤ m) (h : swf d m
  l = true) :
    swf d n l = true := by
  cases l with
  | nil => rfl
  | cons x t =>
    simp only [swf, Bool.and_eq_true, decide_eq_true_eq] at h ⊢
    exact ⟨⟨by omega, h.1.2⟩, h.2⟩
theorem swf_filter {α : Type} [DecidableEq α] (d : Nat → α) (l : List (Nat × α)) (n : Nat) (p : Nat × α → Bool)
    (h : swf d n l = true) : swf d n (l.filter p) = true := by
  induction l generalizing n with
  | nil => exact h
  | cons x t ih =>
    simp only [swf, Bool.and_eq_true, decide_eq_true_eq] at h
    rw [List.filter_cons]
    split
    · simp only [swf, Bool.and_eq_true, decide_eq_true_eq]; exact ⟨h.1, ih _ h.2⟩
    · exact swf_mono d _ (by omega) (ih _ h.2)
theorem sins_sound {α : Type} [DecidableEq α] (d : Nat → α) (l : List (Nat × α)) (n k : Nat) (v : α) (hk : n ≤ k) (hv
  : v ≠ d k)
    (hl : ∀ c ∈ l, c.1 ≠ k) (h : swf d n l = true) : swf d n (sins k v l) = true := by
  induction l generalizing n with
  | nil => simp [sins, swf, hk, hv]
  | cons x t ih =>
    obtain ⟨a, w⟩ := x
    have ha : a ≠ k := hl (a, w) (List.mem_cons_self ..)
    simp only [swf, Bool.and_eq_true, decide_eq_true_eq] at h
    simp only [sins]
    split
    · simp only [swf, Bool.and_eq_true, decide_eq_true_eq]
      exact ⟨⟨hk, hv⟩, ⟨by omega, h.1.2⟩, h.2⟩
    · simp only [swf, Bool.and_eq_true, decide_eq_true_eq]
      exact ⟨h.1, ih (a + 1) (by omega) (fun c hc => hl c (List.mem_cons_of_mem _ hc)) h.2⟩
theorem sput_swf {α : Type} [DecidableEq α] (d : Nat → α) (l : List (Nat × α)) (n k : Nat) (v : α) (hk : n ≤ k)
    (h : swf d n l = true) : swf d n (sput d l k v) = true := by
  unfold sput
  dsimp only
  split
  · exact swf_filter d l n _ h
  · refine sins_sound d _ n k v hk ‹_› (fun c hc => ?_) (swf_filter d l n _ h)
    exact of_decide_eq_true (List.mem_filter.mp hc).2

section
variable {cells : List Host.Cell} {queues : Vector HwQueue 16} {elog : List MemLog} {buf : List CwyEntry} {clog : List
  CwyLog}
  {recs : List FbRec} {claims : List Word} {reqq : List (BitVec 6 × Byte)} {learnq : List (BitVec 7 × BitVec 48)}
theorem Contained.withCells (h : Contained cells queues elog buf clog recs claims reqq learnq) (c' : List Host.Cell)
  (h' : Memory.wf c' = true) :
    Contained c' queues elog buf clog recs claims reqq learnq := ⟨h', h.2⟩
theorem Contained.withQueue (h : Contained cells queues elog buf clog recs claims reqq learnq) (q : Fin 16) (x :
  HwQueue) (h' : x.items.length ≤ 16) :
    Contained cells (queues.set q x) elog buf clog recs claims reqq learnq := by
  refine ⟨h.1, fun r => ?_, h.2.2⟩
  show (queues.set q x)[r.val].items.length ≤ 16
  rw [Vector.getElem_set]
  split
  · exact h'
  · exact h.2.1 r
theorem Contained.withElog (h : Contained cells queues elog buf clog recs claims reqq learnq) (l : List MemLog) (h' :
  l.length ≤ 16) :
    Contained cells queues l buf clog recs claims reqq learnq := ⟨h.1, h.2.1, h', h.2.2.2⟩
theorem Contained.withBuf (h : Contained cells queues elog buf clog recs claims reqq learnq) (l : List CwyEntry) (h' :
  l.length ≤ 32) :
    Contained cells queues elog l clog recs claims reqq learnq := ⟨h.1, h.2.1, h.2.2.1, h', h.2.2.2.2⟩
theorem Contained.withClog (h : Contained cells queues elog buf clog recs claims reqq learnq) (l : List CwyLog) (h' :
  l.length ≤ 16) :
    Contained cells queues elog buf l recs claims reqq learnq := ⟨h.1, h.2.1, h.2.2.1, h.2.2.2.1, h', h.2.2.2.2.2⟩
theorem Contained.withRecs (h : Contained cells queues elog buf clog recs claims reqq learnq) (l : List FbRec) (h' :
  l.length ≤ 32) :
    Contained cells queues elog buf clog l claims reqq learnq := ⟨h.1, h.2.1, h.2.2.1, h.2.2.2.1, h.2.2.2.2.1, h',
      h.2.2.2.2.2.2⟩
theorem Contained.withClaims (h : Contained cells queues elog buf clog recs claims reqq learnq) (l : List Word) (h' :
  l.length ≤ 16) :
    Contained cells queues elog buf clog recs l reqq learnq :=
  ⟨h.1, h.2.1, h.2.2.1, h.2.2.2.1, h.2.2.2.2.1, h.2.2.2.2.2.1, h', h.2.2.2.2.2.2.2⟩
theorem Contained.withReqq (h : Contained cells queues elog buf clog recs claims reqq learnq) (l : List (BitVec 6 ×
  Byte)) (h' : l.length ≤ 16) :
    Contained cells queues elog buf clog recs claims l learnq :=
  ⟨h.1, h.2.1, h.2.2.1, h.2.2.2.1, h.2.2.2.2.1, h.2.2.2.2.2.1, h.2.2.2.2.2.2.1, h', h.2.2.2.2.2.2.2.2⟩
theorem Contained.withLearnq (h : Contained cells queues elog buf clog recs claims reqq learnq) (l : List (BitVec 7 ×
  BitVec 48)) (h' : l.length ≤ 16) :
    Contained cells queues elog buf clog recs claims reqq l :=
  ⟨h.1, h.2.1, h.2.2.1, h.2.2.2.1, h.2.2.2.2.1, h.2.2.2.2.2.1, h.2.2.2.2.2.2.1, h.2.2.2.2.2.2.2.1, h'⟩
theorem Contained.recsLe (h : Contained cells queues elog buf clog recs claims reqq learnq) : recs.length ≤ 32 :=
  h.2.2.2.2.2.1
theorem Contained.bufLe (h : Contained cells queues elog buf clog recs claims reqq learnq) : buf.length ≤ 32 :=
  h.2.2.2.1
theorem Contained.clogLe (h : Contained cells queues elog buf clog recs claims reqq learnq) : clog.length ≤ 16 :=
  h.2.2.2.2.1
theorem Contained.claimsLe (h : Contained cells queues elog buf clog recs claims reqq learnq) : claims.length ≤ 16 :=
  h.2.2.2.2.2.2.1
theorem Contained.reqqLe (h : Contained cells queues elog buf clog recs claims reqq learnq) : reqq.length ≤ 16 :=
  h.2.2.2.2.2.2.2.1
theorem Contained.learnqLe (h : Contained cells queues elog buf clog recs claims reqq learnq) : learnq.length ≤ 16 :=
  h.2.2.2.2.2.2.2.2
end
theorem markFrame_length (w : Fin 16) (n : Nat) (l : List CwyEntry) : (markFrame w n l).length = l.length := by
  induction l generalizing n with
  | nil => cases n <;> rfl
  | cons e t ih =>
    cases n with
    | zero => rfl
    | succ n => simp only [markFrame]; split <;> simp only [List.length_cons, ih]

/-! ### Machine/Ops.lean -/

theorem State.setReg_sound (a : Nat) (v : Word) {s : State} (h_s : s.Sound) : (State.setReg a v s).Sound := by
  unfold State.setReg
  simp +contextual (maxDischargeDepth := 40) only [h_s]

theorem State.setByte_sound (a : Nat) (v : Byte) {s : State} (h_s : s.Sound) : (State.setByte a v s).Sound := by
  exact Contained.withCells h_s _ (sput_swf Memory.unlisted s.mem.cells 0 a v (Nat.zero_le a) h_s.1)

theorem State.setBytes_sound (a : Nat) (bs : List Byte) {s : State} (h_s : s.Sound) :
    (State.setBytes a bs s).Sound := by
  induction bs generalizing a s with
  | nil => exact h_s
  | cons b t ih => exact ih (a + 1) (State.setByte_sound a b h_s)

theorem State.emit_sound (o : Output) {s : State} (h_s : s.Sound) : (State.emit o s).Sound := by
  unfold State.emit
  simp +contextual (maxDischargeDepth := 40) only [h_s]

theorem State.took_sound {s : State} (h_s : s.Sound) : (State.took s).Sound := by
  unfold State.took
  simp +contextual (maxDischargeDepth := 40) only [h_s]

/-! ### Machine/Flags.lean -/

theorem State.dmaFire_sound (t : TrigSource) {s : State} (h_s : s.Sound) : (State.dmaFire t s).Sound := by
  unfold State.dmaFire
  simp +contextual (maxDischargeDepth := 40) only [h_s]

theorem State.fbQueue_sound (r : FbRec) {s : State} (h_s : s.Sound) : (State.fbQueue r s).Sound := by
  unfold State.fbQueue
  refine ite_sound h_s ?_
  split
  · refine Contained.withRecs h_s (s.fbk.queue ++ [r]) ?_
    rw [List.length_append]
    exact Nat.succ_le_of_lt ‹_›
  · exact h_s

theorem State.fbEvent_sound (n : Nat) {s : State} (h_s : s.Sound) : (State.fbEvent n s).Sound := by
  unfold State.fbEvent
  dsimp only
  exact ite_sound h_s (ite_sound h_s (State.fbQueue_sound _ h_s))

theorem State.raise_sound (n : Nat) {s : State} (h_s : s.Sound) : (State.raise n s).Sound := by
  unfold State.raise
  simp +contextual (maxDischargeDepth := 40) only [State.fbEvent_sound, State.when_sound, State.dmaFire_sound,
    implies_true, h_s]

theorem State.raiseIf_sound (b : Bool) (n : Nat) {s : State} (h_s : s.Sound) : (State.raiseIf b n s).Sound := by
  unfold State.raiseIf
  simp +contextual (maxDischargeDepth := 40) only [State.when_sound, State.raise_sound, implies_true, h_s]

theorem State.spFaultCode_sound (code : Half) {s : State} (h_s : s.Sound) : (State.spFaultCode code s).Sound := by
  unfold State.spFaultCode
  simp +contextual (maxDischargeDepth := 40) only [State.fbQueue_sound, ite_sound, h_s]

theorem State.count_sound (p i k : Nat) {s : State} (h_s : s.Sound) : (State.count p i k s).Sound := by
  unfold State.count
  simp +contextual (maxDischargeDepth := 40) only [State.raiseIf_sound, dite_sound, implies_true, h_s]

theorem State.count1_sound (p i : Nat) {s : State} (h_s : s.Sound) : (State.count1 p i s).Sound := by
  unfold State.count1
  simp +contextual (maxDischargeDepth := 40) only [State.count_sound, h_s]

/-! ### Machine/Hart.lean -/

theorem State.setHart_sound (h : Hart) (x : HartState) {s : State} (h_s : s.Sound) : (State.setHart h x s).Sound := by
  unfold State.setHart
  dsimp only
  (repeat' split) <;> simp +contextual (maxDischargeDepth := 40) only [h_s]

theorem State.irqTake_sound (h : Hart) {s : State} (h_s : s.Sound) : (State.irqTake h s).Sound := by
  unfold State.irqTake
  simp +contextual (maxDischargeDepth := 40) only [State.setHart_sound, ite_sound, h_s]

/-! ### Machine/Mem.lean -/

theorem State.memLog_sound (kind region : Nat) (src : Byte) (synd addr : Nat) {s : State} (h_s : s.Sound) :
    (State.memLog kind region src synd addr s).Sound := by
  unfold State.memLog
  dsimp only
  split
  · refine Contained.withElog h_s (s.mem.log ++ [_]) ?_
    rw [List.length_append]
    exact Nat.succ_le_of_lt ‹_›
  · exact State.raise_sound _ h_s

theorem State.setErr_sound (a : Nat) (e : Option WordErr) {s : State} (h_s : s.Sound) : (State.setErr a e s).Sound := by
  unfold State.setErr
  simp +contextual (maxDischargeDepth := 40) only [h_s]

theorem State.putWord_sound (a : Nat) (v : Word) {s : State} (h_s : s.Sound) : (State.putWord a v s).Sound := by
  unfold State.putWord
  simp +contextual (maxDischargeDepth := 40) only [State.setBytes_sound, h_s]

theorem State.eccCe_sound (kind : Nat) (src : Byte) (a : Nat) (e : WordErr) {s : State} (h_s : s.Sound) :
    (State.eccCe kind src a e s).Sound := by
  unfold State.eccCe
  simp +contextual (maxDischargeDepth := 40) only [State.memLog_sound, State.raise_sound, h_s]

theorem State.eccUe_sound (kind : Nat) (src : Byte) (a : Nat) (e : WordErr) {s : State} (h_s : s.Sound) :
    (State.eccUe kind src a e s).Sound := by
  unfold State.eccUe
  simp +contextual (maxDischargeDepth := 40) only [State.memLog_sound, State.raise_sound, h_s]

theorem State.eccReadFx_sound (src : Byte) (a : Nat) {s : State} (h_s : s.Sound) : (State.eccReadFx src a s).Sound := by
  unfold State.eccReadFx
  (repeat' split) <;> simp_all +contextual (maxDischargeDepth := 40) only [State.setErr_sound, State.eccUe_sound,
    State.putWord_sound, State.eccCe_sound]

theorem State.eccFullWrite_sound (a : Nat) (v : Word) {s : State} (h_s : s.Sound) :
    (State.eccFullWrite a v s).Sound := by
  unfold State.eccFullWrite
  simp +contextual (maxDischargeDepth := 40) only [State.setErr_sound, State.putWord_sound, State.setReg_sound,
    ite_sound, h_s]

theorem State.eccWrite_sound (src : Byte) (a : Nat) (be : BitVec 4) (v : Word) {s : State} (h_s : s.Sound) :
    (State.eccWrite src a be v s).Sound := by
  unfold State.eccWrite
  (repeat' split) <;> simp_all +contextual (maxDischargeDepth := 40) only [State.eccFullWrite_sound,
    State.setErr_sound, State.putWord_sound, State.eccUe_sound, State.eccCe_sound, State.raise_sound]

theorem State.parityFound_sound (src : Byte) (r : MRegion) (a : Nat) {s : State} (h_s : s.Sound) :
    (State.parityFound src r a s).Sound := by
  unfold State.parityFound
  simp +contextual (maxDischargeDepth := 40) only [State.count1_sound, State.memLog_sound, State.raise_sound,
    ite_sound, h_s]

theorem State.parityFx_sound (src : Byte) (r : MRegion) (a : Nat) (be : BitVec 4) {s : State} (h_s : s.Sound) :
    (State.parityFx src r a be s).Sound := by
  unfold State.parityFx
  (repeat' split) <;> simp_all +contextual (maxDischargeDepth := 40) only [State.parityFound_sound]

theorem State.bufWrite_sound (a : Nat) (bs : List Byte) {s : State} (h_s : s.Sound) :
    (State.bufWrite a bs s).Sound := by
  unfold State.bufWrite
  simp +contextual (maxDischargeDepth := 40) only [State.Sound, State.setBytes_sound, h_s]

theorem State.bufWriteLanes_sound (a : Nat) (be : BitVec 4) (v : Word) {s : State} (h_s : s.Sound) :
    (State.bufWriteLanes a be v s).Sound := by
  unfold State.bufWriteLanes
  simp +contextual (maxDischargeDepth := 40) only [State.each_sound, State.bufWrite_sound, State.when_sound,
    implies_true, h_s]

theorem State.setFlashBusy_sound (bankB : Bool) (o : Option (Option (BitVec 10))) {s : State} (h_s : s.Sound) :
    (State.setFlashBusy bankB o s).Sound := by
  unfold State.setFlashBusy
  simp +contextual (maxDischargeDepth := 40) only [ite_sound, h_s]

theorem State.flashResult_sound (src : Byte) (a code : Nat) {s : State} (h_s : s.Sound) :
    (State.flashResult src a code s).Sound := by
  unfold State.flashResult
  simp +contextual (maxDischargeDepth := 40) only [State.raiseIf_sound, State.memLog_sound, State.raise_sound,
    ite_sound, h_s]

theorem State.flashAnd_sound (a : Nat) (be : BitVec 4) (v : Word) {s : State} (h_s : s.Sound) :
    (State.flashAnd a be v s).Sound := by
  unfold State.flashAnd
  simp +contextual (maxDischargeDepth := 40) only [State.each_sound, State.when_sound, State.setByte_sound,
    implies_true, h_s]

theorem State.flashAndBytes_sound (a : Nat) (bs : List Byte) {s : State} (h_s : s.Sound) :
    (State.flashAndBytes a bs s).Sound := by
  induction bs generalizing a s with
  | nil => exact h_s
  | cons b t ih => exact ih (a + 1) (State.setByte_sound a _ h_s)

theorem State.slotTouched_sound (sector : Nat) {s : State} (h_s : s.Sound) : (State.slotTouched sector s).Sound := by
  unfold State.slotTouched
  simp +contextual (maxDischargeDepth := 40) only [ite_sound, h_s]

theorem State.flashProgram_sound (m : Master) (a : Nat) (be : BitVec 4) (v : Word) {s : State} (h_s : s.Sound) :
    (State.flashProgram m a be v s).Sound := by
  unfold State.flashProgram
  simp +contextual (maxDischargeDepth := 40) only [State.flashResult_sound, State.setFlashBusy_sound,
    State.flashAnd_sound, State.slotTouched_sound, ite_sound, h_s]

theorem State.flashStartErase_sound (sector : Nat) {s : State} (h_s : s.Sound) :
    (State.flashStartErase sector s).Sound := by
  unfold State.flashStartErase
  simp +contextual (maxDischargeDepth := 40) only [State.setFlashBusy_sound, State.slotTouched_sound, h_s]

theorem State.flashErase_sound (m : Master) (v : Word) {s : State} (h_s : s.Sound) :
    (State.flashErase m v s).Sound := by
  unfold State.flashErase
  simp +contextual (maxDischargeDepth := 40) only [State.flashStartErase_sound, State.flashResult_sound, ite_sound, h_s]

theorem State.eraseRange_sound (a n : Nat) {s : State} (h_s : s.Sound) : (State.eraseRange a n s).Sound := by
  exact Contained.withCells h_s _ (swf_filter Memory.unlisted s.mem.cells 0 _ h_s.1)

theorem State.flashEraseEnd_sound (sector : Nat) (stuck : List (Nat × Byte)) {s : State} (h_s : s.Sound) :
    (State.flashEraseEnd sector stuck s).Sound := by
  unfold State.flashEraseEnd
  dsimp only
  (repeat' split) <;> simp +contextual (maxDischargeDepth := 40) only [State.Sound, State.setFlashBusy_sound,
    State.eraseRange_sound, State.flashResult_sound, State.each_sound, State.setByte_sound, implies_true, h_s]

theorem State.flashAbandonOne_sound (bankB : Bool) {s : State} (h_s : s.Sound) :
    (State.flashAbandonOne bankB s).Sound := by
  unfold State.flashAbandonOne
  dsimp only
  (repeat' split) <;> simp +contextual (maxDischargeDepth := 40) only [State.flashResult_sound,
    State.setFlashBusy_sound, h_s]

theorem State.flashAbandon_sound {s : State} (h_s : s.Sound) : (State.flashAbandon s).Sound := by
  unfold State.flashAbandon
  simp +contextual (maxDischargeDepth := 40) only [State.flashAbandonOne_sound, h_s]

theorem State.memReadFx_sound (src : Byte) (a : Nat) (be : BitVec 4) {s : State} (h_s : s.Sound) :
    (State.memReadFx src a be s).Sound := by
  unfold State.memReadFx
  (repeat' split) <;> simp_all +contextual (maxDischargeDepth := 40) only [State.eccReadFx_sound, State.parityFx_sound]

theorem State.wordReads_sound (a n : Nat) {s : State} (h_s : s.Sound) : (State.wordReads a n s).Sound := by
  unfold State.wordReads
  simp +contextual (maxDischargeDepth := 40) only [State.memReadFx_sound, State.each_sound, implies_true, h_s]

theorem State.blockReadFx_sound (a n : Nat) {s : State} (h_s : s.Sound) : (State.blockReadFx a n s).Sound := by
  unfold State.blockReadFx
  simp +contextual (maxDischargeDepth := 40) only [State.when_sound, State.wordReads_sound, State.took_sound,
    implies_true, h_s]

theorem State.memWrite_sound (m : Master) (a : Nat) (be : BitVec 4) (v : Word) {s : State} (h_s : s.Sound) :
    (State.memWrite m a be v s).Sound := by
  unfold State.memWrite
  dsimp only
  (repeat' split) <;> simp +contextual (maxDischargeDepth := 40) only [State.Sound, State.eccWrite_sound,
    State.bufWriteLanes_sound, State.flashProgram_sound, h_s]

theorem State.pokeWord_sound (src : Byte) (a : Nat) (v : Word) {s : State} (h_s : s.Sound) :
    (State.pokeWord src a v s).Sound := by
  unfold State.pokeWord
  simp +contextual (maxDischargeDepth := 40) only [State.eccWrite_sound, h_s]

theorem State.pokeBytes_sound (src : Byte) (a : Nat) (bs : List Byte) {s : State} (h_s : s.Sound) :
    (State.pokeBytes src a bs s).Sound := by
  induction bs generalizing a s with
  | nil => exact h_s
  | cons b t ih => exact ih (a + 1) (State.eccWrite_sound src _ _ _ h_s)

/-! ### Machine/Gates.lean -/

theorem State.setGate_sound (g : Fin 32) (x : Gate) {s : State} (h_s : s.Sound) : (State.setGate g x s).Sound := by
  unfold State.setGate
  simp +contextual (maxDischargeDepth := 40) only [h_s]

theorem State.gateTryFx_sound (code : Byte) (g : Fin 32) {s : State} (h_s : s.Sound) :
    (State.gateTryFx code g s).Sound := by
  unfold State.gateTryFx
  simp +contextual (maxDischargeDepth := 40) only [State.setGate_sound, ite_sound, h_s]

theorem State.gateRelFx_sound (code : Byte) (g : Fin 32) {s : State} (h_s : s.Sound) :
    (State.gateRelFx code g s).Sound := by
  unfold State.gateRelFx
  simp +contextual (maxDischargeDepth := 40) only [State.setGate_sound, ite_sound, h_s]

theorem State.gateBreak_sound (g : Fin 32) {s : State} (h_s : s.Sound) : (State.gateBreak g s).Sound := by
  unfold State.gateBreak
  simp +contextual (maxDischargeDepth := 40) only [State.raise_sound, State.setGate_sound, h_s]

theorem State.gateForceFx_sound (code : Byte) (g : Fin 32) {s : State} (h_s : s.Sound) :
    (State.gateForceFx code g s).Sound := by
  unfold State.gateForceFx
  simp +contextual (maxDischargeDepth := 40) only [State.gateBreak_sound, ite_sound, h_s]

theorem State.gateOwnerReset_sound (code : Byte) {s : State} (h_s : s.Sound) : (State.gateOwnerReset code s).Sound := by
  unfold State.gateOwnerReset
  simp +contextual (maxDischargeDepth := 40) only [State.each_sound, State.raiseIf_sound, State.setGate_sound,
    implies_true, h_s]

theorem State.setMystat_sound (code : Byte) (v : Word) {s : State} (h_s : s.Sound) :
    (State.setMystat code v s).Sound := by
  unfold State.setMystat
  simp +contextual (maxDischargeDepth := 40) only [h_s]

theorem State.queuePush_sound (code : Byte) (q : Fin 16) (v : Word) {s : State} (h_s : s.Sound) :
    (State.queuePush code q v s).Sound := by
  unfold State.queuePush
  dsimp only
  refine State.raiseIf_sound _ _ (State.setMystat_sound _ _ ?_)
  refine Contained.withQueue h_s q _ ?_
  by_cases hf : 16 ≤ (s.queue q).items.length
  · rw [decide_eq_true hf]
    exact h_s.2.1 q
  · rw [decide_eq_false hf]
    show ((s.queue q).items ++ [v]).length ≤ 16
    rw [List.length_append]
    exact Nat.succ_le_of_lt (Nat.lt_of_not_le hf)

theorem State.queuePopFx_sound (code : Byte) (q : Fin 16) {s : State} (h_s : s.Sound) :
    (State.queuePopFx code q s).Sound := by
  unfold State.queuePopFx
  dsimp only
  refine State.setMystat_sound _ _ (Contained.withQueue h_s q _ ?_)
  exact Nat.le_trans (by rw [List.length_drop]; exact Nat.sub_le _ _) (h_s.2.1 q)

theorem State.queueClear_sound (q : Fin 16) (v : Word) {s : State} (h_s : s.Sound) :
    (State.queueClear q v s).Sound := by
  unfold State.queueClear
  exact ite_sound (Contained.withQueue h_s q _ (Nat.zero_le _)) h_s

theorem State.scrubWord_sound (a : Nat) {s : State} (h_s : s.Sound) : (State.scrubWord a s).Sound := by
  unfold State.scrubWord
  (repeat' split) <;> simp_all +contextual (maxDischargeDepth := 40) only [State.setErr_sound, State.putWord_sound,
    State.eccUe_sound, State.eccCe_sound]

theorem State.scrub_sound {s : State} (h_s : s.Sound) : (State.scrub s).Sound := by
  unfold State.scrub
  dsimp only
  (repeat' split) <;> simp +contextual (maxDischargeDepth := 40) only [State.Sound, State.scrubWord_sound, h_s]

/-! ### Machine/FieldBook.lean -/

theorem State.fbRetire_sound (i : Nat) {s : State} (h_s : s.Sound) : (State.fbRetire i s).Sound := by
  unfold State.fbRetire
  simp +contextual (maxDischargeDepth := 40) only [State.fbQueue_sound, State.raise_sound, h_s]

theorem State.fbErase_sound (i : Nat) {s : State} (h_s : s.Sound) : (State.fbErase i s).Sound := by
  unfold State.fbErase
  dsimp only
  (repeat' split) <;> simp +contextual (maxDischargeDepth := 40) only [State.flashStartErase_sound, h_s]

theorem State.fbEraseAfter_sound (k i : Nat) {s : State} (h_s : s.Sound) :
    (State.fbEraseAfter k i s).Sound := by
  induction k generalizing i s with
  | zero => exact h_s
  | succ k ih =>
    unfold State.fbEraseAfter
    dsimp only
    split
    · exact h_s
    · split
      · exact ih _ (State.fbRetire_sound _ h_s)
      · exact State.fbErase_sound _ h_s

theorem State.fbOpen_sound (i gen : Nat) (fseq : Half) {s : State} (h_s : s.Sound) :
    (State.fbOpen i gen fseq s).Sound := by
  unfold State.fbOpen
  simp +contextual (maxDischargeDepth := 40) only [State.fbEraseAfter_sound, State.flashAndBytes_sound, h_s]

theorem State.fbReady_sound {s : State} (h_s : s.Sound) : (State.fbReady s).Sound := by
  unfold State.fbReady
  (repeat' split) <;> simp_all +contextual (maxDischargeDepth := 40) only [State.fbOpen_sound]

theorem State.fbPut_sound (bs : List Byte) {s : State} (h_s : s.Sound) : (State.fbPut bs s).Sound := by
  unfold State.fbPut
  (repeat' split) <;> simp_all +contextual (maxDischargeDepth := 40) only [State.flashAndBytes_sound]

theorem State.fbWrite_sound (r : FbRec) {s : State} (h_s : s.Sound) : (State.fbWrite r s).Sound := by
  unfold State.fbWrite
  simp +contextual (maxDischargeDepth := 40) only [State.fbQueue_sound, State.fbReady_sound, State.fbPut_sound,
    ite_sound, h_s]

theorem State.fbProgramFail_sound (bs : List Byte) {s : State} (h_s : s.Sound) : (State.fbProgramFail bs s).Sound :=
  by
  unfold State.fbProgramFail
  dsimp only
  (repeat' split) <;> simp +contextual (maxDischargeDepth := 40) only [State.setBytes_sound, State.fbEraseAfter_sound,
    State.raise_sound, State.fbRetire_sound, h_s]

theorem State.fbTake_sound {s : State} (h_s : s.Sound) : (State.fbTake s).Sound := by
  unfold State.fbTake
  split
  · exact h_s
  · split
    · exact h_s
    · split
      · exact h_s
      · refine Contained.withRecs h_s (s.fbk.queue.drop 1) ?_
        exact Nat.le_trans (by rw [List.length_drop]; exact Nat.sub_le _ _) (Contained.recsLe h_s)

theorem State.fbStep_sound (failed : Option (List Byte)) {s : State} (h_s : s.Sound) :
    (State.fbStep failed s).Sound := by
  unfold State.fbStep
  refine ite_sound h_s ?_
  split
  · exact ite_sound h_s (State.fbProgramFail_sound _ h_s)
  · dsimp only
    refine ite_sound (State.fbReady_sound h_s) ?_
    split
    · exact State.fbReady_sound h_s
    · exact State.raiseIf_sound _ _ (State.fbPut_sound _ (State.fbTake_sound (State.fbReady_sound h_s)))

theorem State.fbEraseEnd_sound (i : Nat) (ok : Bool) {s : State} (h_s : s.Sound) : (State.fbEraseEnd i ok s).Sound := by
  unfold State.fbEraseEnd
  simp +contextual (maxDischargeDepth := 40) only [State.when_sound, State.raise_sound, State.fbEraseAfter_sound,
    State.fbRetire_sound, implies_true, h_s]

theorem State.fbEraseNext_sound (bankB : Bool) {s : State} (h_s : s.Sound) : (State.fbEraseNext bankB s).Sound := by
  unfold State.fbEraseNext
  dsimp only
  (repeat' split) <;> simp +contextual (maxDischargeDepth := 40) only [State.flashStartErase_sound, h_s]

theorem State.fbWipe_sound (v : Word) {s : State} (h_s : s.Sound) : (State.fbWipe v s).Sound := by
  unfold State.fbWipe
  simp +contextual (maxDischargeDepth := 40) only [State.each_sound, State.fbErase_sound, State.fbRetire_sound,
    ite_sound, implies_true, h_s]

theorem State.fbBoot_sound {s : State} (h_s : s.Sound) : (State.fbBoot s).Sound := by
  unfold State.fbBoot
  simp +contextual (maxDischargeDepth := 40) only [State.fbEraseAfter_sound, h_s]

theorem State.fbStart_sound {s : State} (h_s : s.Sound) : (State.fbStart s).Sound := by
  unfold State.fbStart
  simp +contextual (maxDischargeDepth := 40) only [ite_sound, h_s]

theorem State.fbNewest_sound {s : State} (h_s : s.Sound) : (State.fbNewest s).Sound := by
  unfold State.fbNewest
  simp +contextual (maxDischargeDepth := 40) only [h_s]

theorem State.fbAdvance_sound {s : State} (h_s : s.Sound) : (State.fbAdvance s).Sound := by
  unfold State.fbAdvance
  dsimp only
  (repeat' split) <;> simp +contextual (maxDischargeDepth := 40) only [h_s]

theorem State.fbRawPop_sound {s : State} (h_s : s.Sound) : (State.fbRawPop s).Sound := by
  unfold State.fbRawPop
  split
  · exact State.raiseIf_sound _ _ (State.fbTake_sound h_s)
  · exact h_s

/-! ### Machine/Records.lean -/

theorem State.cairnRequest_sound (p : Fin 8) (clr : Bool) {s : State} (h_s : s.Sound) :
    (State.cairnRequest p clr s).Sound := by
  unfold State.cairnRequest
  simp +contextual (maxDischargeDepth := 40) only [h_s]

theorem State.cairnWrite_sound (v : Word) {s : State} (h_s : s.Sound) : (State.cairnWrite v s).Sound := by
  unfold State.cairnWrite
  simp +contextual (maxDischargeDepth := 40) only [State.when_sound, State.cairnRequest_sound, State.setReg_sound,
    implies_true, h_s]

theorem State.cairnCopy_sound (p : Fin 8) {s : State} (h_s : s.Sound) : (State.cairnCopy p s).Sound := by
  unfold State.cairnCopy
  dsimp only
  (repeat' split) <;> simp +contextual (maxDischargeDepth := 40) only [State.raise_sound, h_s]

theorem State.cairnAuto_sound (tcount : Word) {s : State} (h_s : s.Sound) : (State.cairnAuto tcount s).Sound := by
  unfold State.cairnAuto
  simp +contextual (maxDischargeDepth := 40) only [State.each_sound, State.cairnRequest_sound, ite_sound,
    implies_true, h_s]

theorem execCairnRequest_sound (v : Word) {s : State} (h_s : s.Sound) : KeepsSound (execCairnRequest v s) := by
  intro t ht
  simp only [execCairnRequest, Host.Outcome.next.injEq] at ht
  subst ht
  simp +contextual (maxDischargeDepth := 40) only [State.cairnWrite_sound, h_s]

theorem execCairn_sound (p : Fin 8) {s : State} (h_s : s.Sound) : KeepsSound (execCairn p s) := by
  intro t ht
  simp only [execCairn, Host.Outcome.next.injEq] at ht
  subst ht
  simp +contextual (maxDischargeDepth := 40) only [State.when_sound, State.cairnCopy_sound, implies_true, h_s]

theorem State.claimFx_sound (h : Hart) {s : State} (h_s : s.Sound) : (State.claimFx h s).Sound := by
  unfold State.claimFx
  dsimp only
  (repeat' split) <;> simp +contextual (maxDischargeDepth := 40) only [h_s]

theorem execEvtSoft_sound (v : Word) {s : State} (h_s : s.Sound) : KeepsSound (execEvtSoft v s) := by
  intro t ht
  simp only [execEvtSoft, Host.Outcome.next.injEq] at ht
  subst ht
  simp +contextual (maxDischargeDepth := 40) only [State.raise_sound, h_s]

theorem execFbRecordWrite_sound (failed : Option (List Byte)) {s : State} (h_s : s.Sound) :
    KeepsSound (execFbRecordWrite failed s) := by
  intro t ht
  simp only [execFbRecordWrite, Host.Outcome.next.injEq] at ht
  subst ht
  simp +contextual (maxDischargeDepth := 40) only [State.fbStep_sound, State.when_sound, implies_true, h_s]

theorem State.fbFoldEnd_sound (ev : Byte) {s : State} (h_s : s.Sound) : (State.fbFoldEnd ev s).Sound := by
  unfold State.fbFoldEnd
  dsimp only
  (repeat' split) <;> simp +contextual (maxDischargeDepth := 40) only [State.fbQueue_sound, h_s]

theorem execFbRepeatExpiry_sound (ev : Byte) {s : State} (h_s : s.Sound) : KeepsSound (execFbRepeatExpiry ev s) := by
  intro t ht
  simp only [execFbRepeatExpiry, Host.Outcome.next.injEq] at ht
  subst ht
  simp +contextual (maxDischargeDepth := 40) only [State.fbFoldEnd_sound, State.when_sound, implies_true, h_s]

theorem execFbHealthTimer_sound {s : State} (h_s : s.Sound) : KeepsSound (execFbHealthTimer s) := by
  intro t ht
  simp only [execFbHealthTimer, Host.Outcome.next.injEq] at ht
  subst ht
  simp +contextual (maxDischargeDepth := 40) only [State.when_sound, State.fbQueue_sound, ite_sound, implies_true,
    h_s]

theorem State.fbUser_sound (w0 w1 : Word) {s : State} (h_s : s.Sound) : (State.fbUser w0 w1 s).Sound := by
  unfold State.fbUser
  simp +contextual (maxDischargeDepth := 40) only [State.fbQueue_sound, h_s]

theorem State.fbUserGo_sound (v : Word) {s : State} (h_s : s.Sound) : (State.fbUserGo v s).Sound := by
  unfold State.fbUserGo
  simp +contextual (maxDischargeDepth := 40) only [State.when_sound, State.fbUser_sound, implies_true, h_s]

theorem execFbkUsergo_sound (v : Word) {s : State} (h_s : s.Sound) : KeepsSound (execFbkUsergo v s) := by
  intro t ht
  simp only [execFbkUsergo, Host.Outcome.next.injEq] at ht
  subst ht
  simp +contextual (maxDischargeDepth := 40) only [State.fbUserGo_sound, h_s]

theorem execFbkWipe_sound (v : Word) {s : State} (h_s : s.Sound) : KeepsSound (execFbkWipe v s) := by
  intro t ht
  simp only [execFbkWipe, Host.Outcome.next.injEq] at ht
  subst ht
  simp +contextual (maxDischargeDepth := 40) only [State.fbWipe_sound, h_s]

end Sys2Proof.Machine
end

