-- ==== Sys2Proof/Laws/KeepsRoad.lean ====
section
/-! SUPPORT. Every operation and meaning of the line, the Road, the tone maps, Ethernet and the Causeway log
keeps the stores within their bounds. -/
namespace Sys2Proof.Machine

/-! ### Machine/Line.lean -/

theorem State.modPort_sound (p : Fin 4) (f : Port → Port) {s : State} (h_s : s.Sound) :
    (State.modPort p f s).Sound := by
  unfold State.modPort
  simp +contextual (maxDischargeDepth := 40) only [h_s]

theorem State.portTo_sound (p : Fin 4) (st : PortState) {s : State} (h_s : s.Sound) : (State.portTo p st s).Sound := by
  unfold State.portTo
  simp +contextual (maxDischargeDepth := 40) only [State.modPort_sound, State.raise_sound, ite_sound, h_s]

theorem State.levelHeard_sound (p : Fin 4) (at_ : Dword) (lvl : Byte) {s : State} (h_s : s.Sound) :
    (State.levelHeard p at_ lvl s).Sound := by
  unfold State.levelHeard
  simp +contextual (maxDischargeDepth := 40) only [State.modPort_sound, h_s]

theorem State.erRoll_sound (p : Fin 4) {s : State} (h_s : s.Sound) : (State.erRoll p s).Sound := by
  unfold State.erRoll
  simp +contextual (maxDischargeDepth := 40) only [State.modPort_sound, State.raiseIf_sound, h_s]

theorem State.erAdd_sound (p : Fin 4) (k : Nat) {s : State} (h_s : s.Sound) : (State.erAdd p k s).Sound := by
  unfold State.erAdd
  simp +contextual (maxDischargeDepth := 40) only [State.erRoll_sound, State.modPort_sound, ite_sound, h_s]

theorem State.rxFc_sound (f : RxFrame) {s : State} (h_s : s.Sound) : (State.rxFc f s).Sound := by
  unfold State.rxFc
  simp +contextual (maxDischargeDepth := 40) only [State.modPort_sound, State.portTo_sound, ite_sound, h_s]

theorem State.rxCount_sound (f : RxFrame) {s : State} (h_s : s.Sound) : (State.rxCount f s).Sound := by
  unfold State.rxCount
  dsimp only
  (repeat' split) <;> simp +contextual (maxDischargeDepth := 40) only [State.count1_sound, State.count_sound, h_s]

theorem State.rxSnr_sound (f : RxFrame) {s : State} (h_s : s.Sound) : (State.rxSnr f s).Sound := by
  unfold State.rxSnr
  simp +contextual (maxDischargeDepth := 40) only [State.modPort_sound, ite_sound, h_s]

theorem State.rxLevel_sound (f : RxFrame) {s : State} (h_s : s.Sound) : (State.rxLevel f s).Sound := by
  unfold State.rxLevel
  simp +contextual (maxDischargeDepth := 40) only [State.modPort_sound, State.erAdd_sound, State.levelHeard_sound,
    ite_sound, h_s]

theorem State.rxFx_sound (f : RxFrame) {s : State} (h_s : s.Sound) : (State.rxFx f s).Sound := by
  unfold State.rxFx
  dsimp only
  (repeat' split) <;> simp +contextual (maxDischargeDepth := 40) only [State.rxLevel_sound, State.rxCount_sound,
    State.rxSnr_sound, State.count1_sound, State.rxFc_sound, State.raise_sound, h_s]

theorem State.txCount_sound (p : Fin 4) (t : FType) (body : List Byte) {s : State} (h_s : s.Sound) :
    (State.txCount p t body s).Sound := by
  unfold State.txCount
  simp +contextual (maxDischargeDepth := 40) only [State.count1_sound, State.count_sound, ite_sound, h_s]

theorem State.txStamp_sound (p : Fin 4) (start : Dword) {s : State} (h_s : s.Sound) :
    (State.txStamp p start s).Sound := by
  unfold State.txStamp
  simp +contextual (maxDischargeDepth := 40) only [State.modPort_sound, h_s]

theorem State.txStart_sound (p : Fin 4) (start : Dword) (t : FType) (tmi : Nat) (pass bad : Bool) (combs : Option (Fin
    4 × Fin 4)) (only : Option (List Nat)) (body : List Byte) {s : State} (h_s : s.Sound) :
    (State.txStart p start t tmi pass bad combs only body s).Sound := by
  unfold State.txStart
  simp +contextual (maxDischargeDepth := 40) only [State.emit_sound, State.txStamp_sound, ite_sound, h_s]

theorem State.txFrameAt_sound (p : Fin 4) (start : Dword) (t : FType) (tmi : Nat) (pass bad : Bool) (only : Option
    (List Nat)) (body : List Byte) {s : State} (h_s : s.Sound) :
    (State.txFrameAt p start t tmi pass bad only body s).Sound := by
  unfold State.txFrameAt
  simp +contextual (maxDischargeDepth := 40) only [State.modPort_sound, State.txStart_sound, State.txCount_sound,
    State.when_sound, implies_true, h_s]

theorem State.txFrame_sound (p : Fin 4) (t : FType) (tmi : Nat) (pass bad : Bool) (body : List Byte) {s : State} (h_s
    : s.Sound) :
    (State.txFrame p t tmi pass bad body s).Sound := by
  unfold State.txFrame
  simp +contextual (maxDischargeDepth := 40) only [State.txFrameAt_sound, h_s]

theorem State.tsShadow_sound (a : Nat) {s : State} (h_s : s.Sound) :
    (State.tsShadow a s).Sound := by
  unfold State.tsShadow
  dsimp only
  split
  · exact h_s
  split
  · exact h_s
  split
  · exact State.modPort_sound _ _ h_s
  split
  · exact State.modPort_sound _ _ h_s
  · exact h_s

theorem execPortCarrier_sound (p : Fin 4) (rxlvl : Byte) {s : State} (h_s : s.Sound) :
    KeepsSound (execPortCarrier p rxlvl s) := by
  intro t ht
  simp only [execPortCarrier, Host.Outcome.next.injEq] at ht
  subst ht
  simp +contextual (maxDischargeDepth := 40) only [State.portTo_sound, State.modPort_sound, State.levelHeard_sound,
    ite_sound, h_s]

theorem execPortLockLost_sound (p : Fin 4) {s : State} (h_s : s.Sound) : KeepsSound (execPortLockLost p s) := by
  intro t ht
  simp only [execPortLockLost, Host.Outcome.next.injEq] at ht
  subst ht
  simp +contextual (maxDischargeDepth := 40) only [State.portTo_sound, ite_sound, h_s]

theorem execPortSilent_sound (p : Fin 4) (rxlvl : Byte) {s : State} (h_s : s.Sound) :
    KeepsSound (execPortSilent p rxlvl s) := by
  intro t ht
  simp only [execPortSilent, Host.Outcome.next.injEq] at ht
  subst ht
  simp +contextual (maxDischargeDepth := 40) only [State.portTo_sound, State.modPort_sound, ite_sound, h_s]

theorem execPortJam_sound (p : Fin 4) {s : State} (h_s : s.Sound) : KeepsSound (execPortJam p s) := by
  intro t ht
  simp only [execPortJam, Host.Outcome.next.injEq] at ht
  subst ht
  simp +contextual (maxDischargeDepth := 40) only [State.modPort_sound, State.raise_sound, ite_sound, h_s]

theorem execPortDead_sound (p : Fin 4) {s : State} (h_s : s.Sound) : KeepsSound (execPortDead p s) := by
  intro t ht
  simp only [execPortDead, Host.Outcome.next.injEq] at ht
  subst ht
  simp +contextual (maxDischargeDepth := 40) only [State.portTo_sound, State.modPort_sound, State.raise_sound,
    ite_sound, h_s]

theorem execPortClear_sound (p : Fin 4) {s : State} (h_s : s.Sound) : KeepsSound (execPortClear p s) := by
  intro t ht
  simp only [execPortClear, Host.Outcome.next.injEq] at ht
  subst ht
  simp +contextual (maxDischargeDepth := 40) only [State.portTo_sound, ite_sound, h_s]

theorem execNotchPlace_sound (p : Fin 4) (freq : BitVec 24) {s : State} (h_s : s.Sound) :
    KeepsSound (execNotchPlace p freq s) := by
  intro t ht
  simp only [execNotchPlace, Host.Outcome.next.injEq] at ht
  subst ht
  (repeat' split) <;> simp_all +contextual (maxDischargeDepth := 40) only [State.modPort_sound, State.raise_sound]

theorem execNotchRelease_sound (p : Fin 4) (n : Fin 8) {s : State} (h_s : s.Sound) :
    KeepsSound (execNotchRelease p n s) := by
  intro t ht
  simp only [execNotchRelease, Host.Outcome.next.injEq] at ht
  subst ht
  simp +contextual (maxDischargeDepth := 40) only [State.modPort_sound, h_s]

theorem State.abortRx_sound (p : Fin 4) {s : State} (h_s : s.Sound) : (State.abortRx p s).Sound := by
  unfold State.abortRx
  simp +contextual (maxDischargeDepth := 40) only [State.count1_sound, State.modPort_sound, ite_sound, h_s]

theorem State.portEnable_sound (p : Fin 4) (en : Bool) {s : State} (h_s : s.Sound) :
    (State.portEnable p en s).Sound := by
  unfold State.portEnable
  simp +contextual (maxDischargeDepth := 40) only [State.abortRx_sound, State.modPort_sound, State.portTo_sound,
    ite_sound, h_s]

theorem execPortDisable_sound (p : Fin 4) {s : State} (h_s : s.Sound) : KeepsSound (execPortDisable p s) := by
  intro t ht
  simp only [execPortDisable, Host.Outcome.next.injEq] at ht
  subst ht
  simp +contextual (maxDischargeDepth := 40) only [State.portEnable_sound, ite_sound, h_s]

/-! ### Machine/CwyLog.lean -/

theorem State.cwyLogAdd_sound (remote : Bool) (w nid cause notapp : Nat) (addr data : Word) (fseq : Nat) {s : State}
    (h_s : s.Sound) :
    (State.cwyLogAdd remote w nid cause notapp addr data fseq s).Sound := by
  unfold State.cwyLogAdd
  dsimp only
  split
  · refine State.raise_sound _ (Contained.withClog h_s (s.cwy.log ++ [_]) ?_)
    rw [List.length_append]
    exact Nat.succ_le_of_lt ‹_›
  · exact State.raise_sound _ h_s

theorem State.modWin_sound (w : Fin 16) (f : CwyWin → CwyWin) {s : State} (h_s : s.Sound) :
    (State.modWin w f s).Sound := by
  unfold State.modWin
  simp +contextual (maxDischargeDepth := 40) only [h_s]

theorem State.hostLog_sound (cause : Nat) (x : HostAcc) (v : Half) {s : State} (h_s : s.Sound) :
    (State.hostLog cause x v s).Sound := by
  unfold State.hostLog
  simp +contextual (maxDischargeDepth := 40) only [State.cwyLogAdd_sound, h_s]

theorem State.heldDrop_sound (w : Fin 16) {s : State} (h_s : s.Sound) : (State.heldDrop w s).Sound := by
  unfold State.heldDrop
  (repeat' split) <;> simp_all +contextual (maxDischargeDepth := 40) only [State.modWin_sound, State.hostLog_sound]

theorem State.cwyPost_sound (x : HostAcc) (be : BitVec 4) (v : Word) {s : State} (h_s : s.Sound)
    (h_l : s.cwy.buf.length < 32) : (State.cwyPost x be v s).Sound := by
  refine Contained.withBuf h_s (s.cwy.buf ++ [_]) ?_
  rw [List.length_append]
  exact Nat.succ_le_of_lt h_l

theorem State.fbEvent_buf (n : Nat) (s : State) : (State.fbEvent n s).cwy = s.cwy := by
  unfold State.fbEvent State.fbQueue
  dsimp only
  (repeat' split) <;> rfl

theorem State.raise_buf (n : Nat) (s : State) : (State.raise n s).cwy = s.cwy := by
  unfold State.raise State.dmaFire State.when
  dsimp only
  split
  · exact State.fbEvent_buf _ _
  · rfl

theorem State.cwyLogAdd_buf (remote : Bool) (w nid cause notapp : Nat) (addr data : Word) (fseq : Nat) (s : State) :
    (State.cwyLogAdd remote w nid cause notapp addr data fseq s).cwy.buf = s.cwy.buf := by
  unfold State.cwyLogAdd
  dsimp only
  split <;> rw [State.raise_buf]

theorem State.heldDrop_buf (w : Fin 16) (s : State) : (State.heldDrop w s).cwy.buf = s.cwy.buf := by
  unfold State.heldDrop
  split
  · rfl
  · exact State.cwyLogAdd_buf _ _ _ _ _ _ _ _ _

theorem State.hostAccept_sound (x : HostAcc) (v : Half) (par : BitVec 2) {s : State} (h_s : s.Sound)
    (h_l : s.cwy.buf.length < 32 ∨ x.pairLow = true) : (State.hostAccept x v par s).Sound := by
  have hD := State.heldDrop_sound x.win h_s
  unfold State.hostAccept
  dsimp only
  refine ite_sound (State.raise_sound _ (State.hostLog_sound _ _ _ hD)) ?_
  by_cases hp : x.pairLow = true
  · rw [if_pos hp]
    exact State.modWin_sound _ _ hD
  · rw [if_neg hp]
    have hl := h_l.resolve_right hp
    split
    · exact State.cwyPost_sound _ _ _ (State.modWin_sound _ _ h_s) hl
    · exact State.cwyPost_sound _ _ _ hD (by rw [State.heldDrop_buf]; exact hl)

theorem State.hostResume_sound {s : State} (h_s : s.Sound) : (State.hostResume s).Sound := by
  unfold State.hostResume
  split
  · split
    · exact State.hostAccept_sound _ _ _ h_s (Or.inl ‹_›)
    · exact h_s
  · exact h_s

theorem State.cwyUntag_sound (w : Fin 16) {s : State} (h_s : s.Sound) : (State.cwyUntag w s).Sound := by
  unfold State.cwyUntag
  simp +contextual (maxDischargeDepth := 40) only [h_s]

theorem State.cwyFlightEnd_sound (w : Fin 16) (cause idx : Nat) {s : State} (h_s : s.Sound) :
    (State.cwyFlightEnd w cause idx s).Sound := by
  unfold State.cwyFlightEnd
  split
  · exact h_s
  · have hF := Contained.withBuf (State.modWin_sound w (fun c => { c with flight := none }) (State.cwyUntag_sound w
    h_s))
      (((State.modWin w (fun c => { c with flight := none }) (State.cwyUntag w s)).cwy.buf).filter fun e =>
        !(e.inFrame && decide (e.win = w))) (Nat.le_trans (List.length_filter_le _ _) (Contained.bufLe
          (State.modWin_sound w
          (fun c => { c with flight := none }) (State.cwyUntag_sound w h_s))))
    dsimp only
    refine State.hostResume_sound (ite_sound hF ?_)
    split
    · exact hF
    · exact State.cwyLogAdd_sound _ _ _ _ _ _ _ _ hF

theorem State.cwyTxResult_sound (w : Fin 16) (result : Nat) {s : State} (h_s : s.Sound) :
    (State.cwyTxResult w result s).Sound := by
  unfold State.cwyTxResult
  (repeat' split) <;> simp_all +contextual (maxDischargeDepth := 40) only [State.modWin_sound, State.cwyFlightEnd_sound]

theorem State.wctlWrite_sound (w : Fin 16) (v : Word) {s : State} (h_s : s.Sound) : (State.wctlWrite w v s).Sound := by
  unfold State.wctlWrite
  simp +contextual (maxDischargeDepth := 40) only [State.when_sound, State.setReg_sound, State.heldDrop_sound,
    implies_true, h_s]

theorem State.cwyCutoff_sound (w : Fin 16) {s : State} (h_s : s.Sound) : (State.cwyCutoff w s).Sound := by
  have hT := State.raiseIf_sound (s.wEn w) 229 (State.wctlWrite_sound w (clrBit (s.reg (Reg.wctl w)) 31) h_s)
  unfold State.cwyCutoff
  dsimp only
  refine ite_sound h_s (State.hostResume_sound (State.each_sound ?_ fun e x hx => State.cwyLogAdd_sound _ _ _ _ _ _ _
    _ hx))
  exact Contained.withBuf hT _ (Nat.le_trans (List.length_filter_le _ _) (Contained.bufLe hT))

theorem State.cwyCut_sound {s : State} (h_s : s.Sound) : (State.cwyCut s).Sound := by
  unfold State.cwyCut
  simp +contextual (maxDischargeDepth := 40) only [State.cwyFlightEnd_sound, State.each_sound, State.cwyCutoff_sound,
    implies_true, h_s]

theorem State.cwyLogPop_sound {s : State} (h_s : s.Sound) : (State.cwyLogPop s).Sound := by
  unfold State.cwyLogPop
  split
  · exact h_s
  · rename_i e rest h
    refine Contained.withClog h_s rest ?_
    have := Contained.clogLe h_s
    rw [h, List.length_cons] at this
    omega

/-! ### Machine/EthBuf.lean -/

theorem State.modEth_sound (e : Fin 2) (f : EthPort → EthPort) {s : State} (h_s : s.Sound) :
    (State.modEth e f s).Sound := by
  unfold State.modEth
  simp +contextual (maxDischargeDepth := 40) only [h_s]

theorem State.ethRxCount_sound (e : Fin 2) (len : Nat) (group tagged : Bool) (prio : Nat) {s : State} (h_s : s.Sound)
    :
    (State.ethRxCount e len group tagged prio s).Sound := by
  unfold State.ethRxCount
  simp +contextual (maxDischargeDepth := 40) only [State.count1_sound, State.when_sound, State.count_sound,
    implies_true, h_s]

theorem State.pfcCount_sound (e : Fin 2) {s : State} (h_s : s.Sound) : (State.pfcCount e s).Sound := by
  unfold State.pfcCount
  simp +contextual (maxDischargeDepth := 40) only [State.count1_sound, State.count_sound, h_s]

theorem State.pfcCheck_sound (e : Fin 2) (p : Fin 8) {s : State} (h_s : s.Sound) : (State.pfcCheck e p s).Sound := by
  unfold State.pfcCheck
  simp +contextual (maxDischargeDepth := 40) only [State.pfcCount_sound, State.modEth_sound, State.emit_sound,
    ite_sound, h_s]

theorem State.pfcAll_sound (e : Fin 2) {s : State} (h_s : s.Sound) : (State.pfcAll e s).Sound := by
  unfold State.pfcAll
  simp +contextual (maxDischargeDepth := 40) only [State.each_sound, State.pfcCheck_sound, implies_true, h_s]

theorem State.ethPfcWrite_sound (e : Fin 2) (v : Word) {s : State} (h_s : s.Sound) :
    (State.ethPfcWrite e v s).Sound := by
  unfold State.ethPfcWrite
  simp +contextual (maxDischargeDepth := 40) only [State.pfcAll_sound, State.setReg_sound, h_s]

theorem State.ethParity_sound (e : Fin 2) {s : State} (h_s : s.Sound) : (State.ethParity e s).Sound := by
  unfold State.ethParity
  simp +contextual (maxDischargeDepth := 40) only [State.memLog_sound, State.count1_sound, State.raise_sound, h_s]

/-! ### Machine/Road.lean -/

theorem State.modRoad_sound (p : Fin 4) (f : RoadPort → RoadPort) {s : State} (h_s : s.Sound) :
    (State.modRoad p f s).Sound := by
  unfold State.modRoad
  simp +contextual (maxDischargeDepth := 40) only [h_s]

theorem State.roadDraw_sound (p : Fin 4) {s : State} (h_s : s.Sound) : (State.roadDraw p s).Sound := by
  unfold State.roadDraw
  dsimp only
  (repeat' split) <;> simp +contextual (maxDischargeDepth := 40) only [State.took_sound, State.modRoad_sound, h_s]

theorem State.roadAgain_sound (p : Fin 4) (before : Option QFrame) {s : State} (h_s : s.Sound) :
    (State.roadAgain p before s).Sound := by
  unfold State.roadAgain
  dsimp only
  (repeat' split) <;> simp +contextual (maxDischargeDepth := 40) only [State.took_sound, State.roadDraw_sound,
    State.modRoad_sound, h_s]

theorem State.roadPut_sound (p : Fin 4) (q : QFrame) {s : State} (h_s : s.Sound) : (State.roadPut p q s).Sound := by
  unfold State.roadPut
  simp +contextual (maxDischargeDepth := 40) only [State.roadAgain_sound, State.modRoad_sound, h_s]

theorem State.roadTake_sound (p : Fin 4) (q : QFrame) {s : State} (h_s : s.Sound) : (State.roadTake p q s).Sound := by
  unfold State.roadTake
  simp +contextual (maxDischargeDepth := 40) only [State.modRoad_sound, h_s]

theorem State.txDone_sound (a : Word) (result : Nat) {s : State} (h_s : s.Sound) : (State.txDone a result s).Sound := by
  unfold State.txDone
  simp +contextual (maxDischargeDepth := 40) only [State.Sound, State.pokeWord_sound, State.count1_sound,
    State.raise_sound, State.when_sound, State.blockReadFx_sound, ite_sound, implies_true, h_s]

theorem State.roadRxCount_sound (h : RHdr) {s : State} (h_s : s.Sound) : (State.roadRxCount h s).Sound := by
  unfold State.roadRxCount
  simp +contextual (maxDischargeDepth := 40) only [State.count1_sound, State.count_sound, h_s]

theorem State.transitCount_sound (q : QFrame) (result : Nat) {s : State} (h_s : s.Sound) :
    (State.transitCount q result s).Sound := by
  unfold State.transitCount
  simp +contextual (maxDischargeDepth := 40) only [State.roadRxCount_sound, State.count1_sound, State.when_sound,
    ite_sound, implies_true, h_s]

theorem State.frameCount_sound (q : QFrame) (result : Nat) {s : State} (h_s : s.Sound) :
    (State.frameCount q result s).Sound := by
  unfold State.frameCount
  refine ite_sound (State.transitCount_sound _ _ h_s) ?_
  split
  · exact State.count_sound _ _ _ (State.count_sound _ _ _ (State.count1_sound _ _ h_s))
  · exact State.count1_sound _ _ h_s
  · exact h_s

theorem State.frameEnd_sound (q : QFrame) (result : Nat) {s : State} (h_s : s.Sound) :
    (State.frameEnd q result s).Sound := by
  unfold State.frameEnd
  dsimp only
  (repeat' split) <;> simp +contextual (maxDischargeDepth := 40) only [State.Sound, State.cwyTxResult_sound,
    State.txDone_sound, State.frameCount_sound, h_s]

theorem State.bumpSeq_sound {s : State} (h_s : s.Sound) : (State.bumpSeq s).Sound := by
  unfold State.bumpSeq
  simp +contextual (maxDischargeDepth := 40) only [h_s]

theorem State.sendPause_sound (p : Fin 4) (prio ptime : Nat) {s : State} (h_s : s.Sound) :
    (State.sendPause p prio ptime s).Sound := by
  unfold State.sendPause
  simp +contextual (maxDischargeDepth := 40) only [State.when_sound, State.raise_sound, State.roadPut_sound,
    State.bumpSeq_sound, implies_true, h_s]

theorem State.pauseCheck_sound (p : Fin 4) (prio : Nat) {s : State} (h_s : s.Sound) :
    (State.pauseCheck p prio s).Sound := by
  unfold State.pauseCheck
  simp +contextual (maxDischargeDepth := 40) only [State.modRoad_sound, State.sendPause_sound, ite_sound, h_s]

theorem State.frameLeft_sound (q : QFrame) {s : State} (h_s : s.Sound) : (State.frameLeft q s).Sound := by
  have ht : (match q.from_ with
      | some p => s.pauseCheck p (RHdr.parse q.body).prio
      | none => s : State).Sound := by
    split
    · exact State.pauseCheck_sound _ _ h_s
    · exact h_s
  unfold State.frameLeft
  dsimp only
  split
  · exact State.pfcCheck_sound _ _ ht
  · exact ht

theorem State.undeliverable_sound (q : QFrame) {s : State} (h_s : s.Sound) : (State.undeliverable q s).Sound := by
  unfold State.undeliverable
  simp +contextual (maxDischargeDepth := 40) only [State.raise_sound, State.frameEnd_sound, State.count1_sound, h_s]

theorem State.frameLost_sound (q : QFrame) {s : State} (h_s : s.Sound) : (State.frameLost q s).Sound := by
  unfold State.frameLost
  simp +contextual (maxDischargeDepth := 40) only [State.undeliverable_sound, State.frameLeft_sound,
    State.frameEnd_sound, ite_sound, h_s]

theorem State.roadSort_sound (p : Fin 4) (k : Nat) {s : State} (h_s : s.Sound) : (State.roadSort p k s).Sound := by
  induction k generalizing s with
  | zero => exact h_s
  | succ k ih =>
    unfold State.roadSort
    split
    · exact State.modRoad_sound _ _ h_s
    · refine ite_sound h_s ?_
      split
      · exact ite_sound (State.modRoad_sound _ _ h_s) (ih (State.roadPut_sound _ _ (State.roadTake_sound _ _ h_s)))
      · exact ih (State.frameLost_sound _ (State.roadTake_sound _ _ h_s))

theorem State.roadKick_sound (p : Fin 4) {s : State} (h_s : s.Sound) : (State.roadKick p s).Sound := by
  unfold State.roadKick
  simp +contextual (maxDischargeDepth := 40) only [State.roadSort_sound, State.roadDraw_sound, h_s]

theorem State.roadRehead_sound (p : Fin 4) (before : Option QFrame) {s : State} (h_s : s.Sound) :
    (State.roadRehead p before s).Sound := by
  unfold State.roadRehead
  simp +contextual (maxDischargeDepth := 40) only [State.roadAgain_sound, State.roadSort_sound, h_s]

theorem State.roadEnqueue_sound (p : Fin 4) (q : QFrame) {s : State} (h_s : s.Sound) :
    (State.roadEnqueue p q s).Sound := by
  unfold State.roadEnqueue
  simp +contextual (maxDischargeDepth := 40) only [State.modRoad_sound, State.roadRehead_sound, h_s]

theorem State.sendLocal_sound (p : Fin 4) (bcast : Bool) (dst : BitVec 6) (tag : BitVec 2) (payload : List Byte) {s :
    State} (h_s : s.Sound) :
    (State.sendLocal p bcast dst tag payload s).Sound := by
  unfold State.sendLocal
  simp +contextual (maxDischargeDepth := 40) only [State.bumpSeq_sound, State.roadEnqueue_sound, h_s]

theorem State.sendUnicast_sound (dst : BitVec 6) (q : QFrame) {s : State} (h_s : s.Sound) :
    (State.sendUnicast dst q s).Sound := by
  unfold State.sendUnicast
  (repeat' split) <;> simp_all +contextual (maxDischargeDepth := 40) only [State.roadEnqueue_sound,
    State.frameEnd_sound, State.undeliverable_sound]

theorem State.sendBcast_sound (q : QFrame) {s : State} (h_s : s.Sound) : (State.sendBcast q s).Sound := by
  unfold State.sendBcast
  (repeat' split) <;> simp_all +contextual (maxDischargeDepth := 40) only [State.each_sound, State.frameEnd_sound,
    State.roadEnqueue_sound, implies_true]

theorem State.sendMgmt_sound (dst : BitVec 6) (tag : BitVec 2) (payload : List Byte) {s : State} (h_s : s.Sound) :
    (State.sendMgmt dst tag payload s).Sound := by
  unfold State.sendMgmt
  simp +contextual (maxDischargeDepth := 40) only [State.bumpSeq_sound, State.sendUnicast_sound, h_s]

theorem State.sendMgmtAll_sound (payload : List Byte) {s : State} (h_s : s.Sound) :
    (State.sendMgmtAll payload s).Sound := by
  unfold State.sendMgmtAll
  simp +contextual (maxDischargeDepth := 40) only [State.bumpSeq_sound, State.sendBcast_sound, h_s]

theorem State.attemptEnd_sound (p : Fin 4) (q : QFrame) (result : Nat) {s : State} (h_s : s.Sound) :
    (State.attemptEnd p q result s).Sound := by
  unfold State.attemptEnd
  simp +contextual (maxDischargeDepth := 40) only [State.frameEnd_sound, State.roadKick_sound, State.frameLeft_sound,
    State.modRoad_sound, h_s]

theorem State.attemptFail_sound (p : Fin 4) (q : QFrame) (answered : Bool) {s : State} (h_s : s.Sound) :
    (State.attemptFail p q answered s).Sound := by
  unfold State.attemptFail
  simp +contextual (maxDischargeDepth := 40) only [State.attemptEnd_sound, State.count1_sound, State.roadKick_sound,
    State.modRoad_sound, State.raise_sound, ite_sound, h_s]

theorem State.parityDrop_sound (p : Fin 4) (q : QFrame) {s : State} (h_s : s.Sound) :
    (State.parityDrop p q s).Sound := by
  unfold State.parityDrop
  simp +contextual (maxDischargeDepth := 40) only [State.count1_sound, State.roadKick_sound, State.raise_sound,
    State.frameLeft_sound, State.parityFx_sound, h_s]

theorem State.roadBegin_sound (p : Fin 4) (q : QFrame) (foreign : Option ForeignP) {s : State} (h_s : s.Sound) :
    (State.roadBegin p q foreign s).Sound := by
  unfold State.roadBegin
  simp +contextual (maxDischargeDepth := 40) only [State.emit_sound, State.modPort_sound, State.txStart_sound,
    State.took_sound, State.modRoad_sound, State.count1_sound, State.txStamp_sound, State.attemptFail_sound,
    ite_sound, h_s]

theorem State.roadStart_sound (p : Fin 4) (slots : List (List (Option Nat))) (foreign : Option ForeignP) {s : State}
    (h_s : s.Sound) :
    (State.roadStart p slots foreign s).Sound := by
  unfold State.roadStart
  split
  · rename_i q _ _
    have ht : (((s.roadTake p q).modRoad p fun r => { r with st := .idle, count := 0 } : State)).Sound :=
      State.modRoad_sound _ _ (State.roadTake_sound _ _ h_s)
    refine ite_sound h_s (ite_sound (State.modRoad_sound _ _ h_s) (ite_sound ?_
      (ite_sound (State.parityDrop_sound _ _ ht) (State.roadBegin_sound _ _ _ ht))))
    split
    · exact State.roadKick_sound _ (State.frameLost_sound _ ht)
    · exact State.roadKick_sound _ (State.roadPut_sound _ _ ht)
  · exact h_s

theorem State.roadSent_sound (p : Fin 4) {s : State} (h_s : s.Sound) : (State.roadSent p s).Sound := by
  unfold State.roadSent
  dsimp only
  (repeat' split) <;> simp +contextual (maxDischargeDepth := 40) only [State.attemptEnd_sound, State.modRoad_sound,
    State.modPort_sound, State.txCount_sound, h_s]

theorem State.chanWrite_sound (ch flags : Nat) (p : Fin 4) (body : List Byte) {s : State} (h_s : s.Sound) :
    (State.chanWrite ch flags p body s).Sound := by
  unfold State.chanWrite
  dsimp only
  (repeat' split) <;> simp +contextual (maxDischargeDepth := 40) only [State.Sound, State.pokeWord_sound,
    State.raise_sound, State.pokeBytes_sound, State.when_sound, implies_true, h_s]

theorem State.cellParity_sound {s : State} (h_s : s.Sound) : (State.cellParity s).Sound := by
  unfold State.cellParity
  simp +contextual (maxDischargeDepth := 40) only [State.took_sound, State.count1_sound, State.parityFound_sound,
    State.raise_sound, h_s]

theorem State.badFrame_sound (f : RxFrame) {s : State} (h_s : s.Sound) : (State.badFrame f s).Sound := by
  unfold State.badFrame
  simp +contextual (maxDischargeDepth := 40) only [State.when_sound, State.count1_sound, State.cellParity_sound,
    State.chanWrite_sound, ite_sound, implies_true, h_s]

theorem State.dupMark_sound (h : RHdr) {s : State} (h_s : s.Sound) : (State.dupMark h s).Sound := by
  unfold State.dupMark
  dsimp only
  (repeat' split) <;> simp +contextual (maxDischargeDepth := 40) only [h_s]

theorem State.dupAccept_sound (h : RHdr) {s : State} (h_s : s.Sound) : (State.dupAccept h s).Sound := by
  unfold State.dupAccept
  split
  · exact State.roadRxCount_sound _ (State.dupMark_sound _ h_s)
  · exact h_s

theorem State.nbrHeard_sound (p : Fin 4) (src : BitVec 6) {s : State} (h_s : s.Sound) :
    (State.nbrHeard p src s).Sound := by
  unfold State.nbrHeard
  simp +contextual (maxDischargeDepth := 40) only [State.raiseIf_sound, State.modRoad_sound, ite_sound, h_s]

theorem State.sendAck_sound (f : RxFrame) (h : RHdr) (code : Nat) {s : State} (h_s : s.Sound) :
    (State.sendAck f h code s).Sound := by
  unfold State.sendAck
  simp +contextual (maxDischargeDepth := 40) only [State.count1_sound, State.txFrameAt_sound, State.when_sound,
    implies_true, h_s]

theorem State.cellStore_sound (body : List Byte) {s : State} (h_s : s.Sound) :
    (State.cellStore body s).1.Sound := by
  unfold State.cellStore
  exact State.each_sound h_s fun _ _ ht => State.bufWrite_sound _ _ ht

theorem State.storeForward_sound (f : RxFrame) (h : RHdr) (p : Fin 4) (acct : BitVec 2) {s : State} (h_s : s.Sound) :
    (State.storeForward f h p acct s).Sound := by
  exact State.pauseCheck_sound _ _ (State.roadEnqueue_sound _ _ (State.cellStore_sound _ h_s))

theorem State.transit_sound (f : RxFrame) (h : RHdr) {s : State} (h_s : s.Sound) : (State.transit f h s).Sound := by
  unfold State.transit
  refine ite_sound (State.chanWrite_sound _ _ _ _ (State.dupAccept_sound _ h_s)) ?_
  split
  · exact h_s
  · exact State.storeForward_sound _ _ _ _ (State.dupMark_sound _ h_s)

theorem State.bcastForward_sound (f : RxFrame) (h : RHdr) (acct : BitVec 2) {s : State} (h_s : s.Sound) :
    (State.bcastForward f h acct s).Sound := by
  unfold State.bcastForward
  split
  · exact State.storeForward_sound _ _ _ _ h_s
  · exact h_s

theorem State.roadBcast_sound (f : RxFrame) (d : Deliver) (h : RHdr) {t : State} (h_t : t.Sound)
    (hd : ∀ f h, ∀ t : State, t.Sound → (d.act f h t).Sound) :
    (State.roadBcast f d h t).Sound := by
  unfold State.roadBcast
  split
  · exact State.count1_sound _ _ h_t
  · exact State.count1_sound _ _ h_t
  · exact ite_sound (State.bcastForward_sound _ _ _ (hd _ _ _ (State.dupAccept_sound _ h_t)))
      (State.bcastForward_sound _ _ _ (State.when_sound (State.when_sound h_t fun _ ht => State.dupMark_sound _ ht)
        fun _ ht => State.count1_sound _ _ ht))

theorem State.roadHere_sound (f : RxFrame) (d : Deliver) (h : RHdr) {t : State} (h_t : t.Sound)
    (hd : ∀ f h, ∀ t : State, t.Sound → (d.act f h t).Sound) :
    (State.roadHere f d h t).Sound := by
  unfold State.roadHere
  exact ite_sound (State.sendAck_sound _ _ _ (hd _ _ _ (State.dupAccept_sound _ h_t))) (State.sendAck_sound _ _ _ h_t)

theorem State.roadOn_sound (f : RxFrame) (h : RHdr) {t : State} (h_t : t.Sound) : (State.roadOn f h t).Sound := by
  unfold State.roadOn
  simp +contextual (maxDischargeDepth := 40) only [State.sendAck_sound, State.raiseIf_sound, State.transit_sound,
    ite_sound, h_t]

theorem State.roadUnicast_sound (f : RxFrame) (d : Deliver) (h : RHdr) {t : State} (h_t : t.Sound)
    (hd : ∀ f h, ∀ t : State, t.Sound → (d.act f h t).Sound) :
    (State.roadUnicast f d h t).Sound := by
  unfold State.roadUnicast
  split
  · exact State.sendAck_sound _ _ _ (State.count1_sound _ _ h_t)
  · exact State.sendAck_sound _ _ _ (State.count1_sound _ _ h_t)
  · exact ite_sound (State.roadHere_sound f d h h_t hd) (State.roadOn_sound f h h_t)

theorem State.roadGood_sound (f : RxFrame) (d : Deliver) {s : State} (h_s : s.Sound)
    (hd : ∀ f h, ∀ t : State, t.Sound → (d.act f h t).Sound) :
    (State.roadGood f d s).Sound := by
  unfold State.roadGood
  extract_lets h kind mine t
  have hT : t.Sound := State.nbrHeard_sound _ _ h_s
  exact ite_sound (State.count1_sound _ _ h_s) (ite_sound h_s (ite_sound (ite_sound (hd _ _ _ h_s) h_s) (ite_sound
    (State.count1_sound _ _ h_s)
    (ite_sound h_s (ite_sound (State.roadBcast_sound f d h hT hd) (ite_sound (State.roadUnicast_sound f d h hT hd)
      hT))))))

theorem State.roadRx_sound (f : RxFrame) (d : Deliver) {s : State} (h_s : s.Sound)
    (hd : ∀ f h, ∀ t : State, t.Sound → (d.act f h t).Sound) :
    (State.roadRx f d s).Sound := by
  have hT := State.rxFx_sound f h_s
  unfold State.roadRx
  dsimp only
  split
  · exact h_s
  · split
    · exact hT
    · split
      · exact ite_sound (State.badFrame_sound _ hT) (State.roadGood_sound f d hT hd)
      · exact State.badFrame_sound _ hT
      · exact State.badFrame_sound _ hT
      · exact hT

theorem State.pauseAll_sound {s : State} (h_s : s.Sound) : (State.pauseAll s).Sound := by
  unfold State.pauseAll
  simp +contextual (maxDischargeDepth := 40) only [State.each_sound, State.pauseCheck_sound, implies_true, h_s]

theorem State.roadAbort_sound {s : State} (h_s : s.Sound) : (State.roadAbort s).Sound := by
  unfold State.roadAbort
  simp +contextual (maxDischargeDepth := 40) only [State.abortRx_sound, State.each_sound, implies_true, h_s]

theorem State.roadCtlWrite_sound (v : Word) {s : State} (h_s : s.Sound) : (State.roadCtlWrite v s).Sound := by
  unfold State.roadCtlWrite
  simp +contextual (maxDischargeDepth := 40) only [State.when_sound, State.roadAbort_sound, State.setReg_sound,
    implies_true, h_s]

theorem State.roadPcfgWrite_sound (p : Fin 4) (v : Word) {s : State} (h_s : s.Sound) :
    (State.roadPcfgWrite p v s).Sound := by
  unfold State.roadPcfgWrite
  simp +contextual (maxDischargeDepth := 40) only [State.setReg_sound, State.abortRx_sound, State.when_sound,
    implies_true, h_s]

/-! ### Machine/Tone.lean -/

theorem State.ringAnnounceAgain_sound {s : State} (h_s : s.Sound) : (State.ringAnnounceAgain s).Sound := by
  unfold State.ringAnnounceAgain
  dsimp only
  (repeat' split) <;> simp +contextual (maxDischargeDepth := 40) only [State.sendMgmtAll_sound, h_s]

theorem State.ringBuild_sound {s : State} (h_s : s.Sound) : (State.ringBuild s).Sound := by
  unfold State.ringBuild
  dsimp only
  (repeat' split) <;> simp +contextual (maxDischargeDepth := 40) only [State.ringAnnounceAgain_sound, h_s]

theorem State.summaryRx_sound (src : BitVec 6) (epoch : Byte) (snr : List Byte) {s : State} (h_s : s.Sound) :
    (State.summaryRx src epoch snr s).Sound := by
  unfold State.summaryRx
  simp +contextual (maxDischargeDepth := 40) only [State.took_sound, State.ringBuild_sound, ite_sound, h_s]

theorem State.sendSummary_sound (p : Fin 4) {s : State} (h_s : s.Sound) : (State.sendSummary p s).Sound := by
  unfold State.sendSummary
  simp +contextual (maxDischargeDepth := 40) only [State.summaryRx_sound, State.sendMgmt_sound, ite_sound, h_s]

theorem State.announceAgain_sound (p : Fin 4) {s : State} (h_s : s.Sound) : (State.announceAgain p s).Sound := by
  unfold State.announceAgain
  dsimp only
  (repeat' split) <;> simp +contextual (maxDischargeDepth := 40) only [State.modPort_sound, State.sendLocal_sound, h_s]

theorem State.segBuild_sound (p : Fin 4) {s : State} (h_s : s.Sound) : (State.segBuild p s).Sound := by
  unfold State.segBuild
  simp +contextual (maxDischargeDepth := 40) only [State.announceAgain_sound, State.modPort_sound, ite_sound, h_s]

theorem State.segAllAcked_sound (p : Fin 4) {s : State} (h_s : s.Sound) : (State.segAllAcked p s).Sound := by
  unfold State.segAllAcked
  dsimp only
  (repeat' split) <;> simp +contextual (maxDischargeDepth := 40) only [State.modPort_sound, State.sendLocal_sound, h_s]

theorem State.sendReport_sound (p : Fin 4) {s : State} (h_s : s.Sound) : (State.sendReport p s).Sound := by
  unfold State.sendReport
  simp +contextual (maxDischargeDepth := 40) only [State.segBuild_sound, State.sendLocal_sound, ite_sound, h_s]

theorem execSnrEvaluation_sound (p : Fin 4) {s : State} (h_s : s.Sound) : KeepsSound (execSnrEvaluation p s) := by
  intro t ht
  simp only [execSnrEvaluation, Host.Outcome.next.injEq] at ht
  subst ht
  simp +contextual (maxDischargeDepth := 40) only [State.sendReport_sound, State.modPort_sound, ite_sound, h_s]

theorem execSnrReportPeriodic_sound (p : Fin 4) {s : State} (h_s : s.Sound) :
    KeepsSound (execSnrReportPeriodic p s) := by
  intro t ht
  simp only [execSnrReportPeriodic, Host.Outcome.next.injEq] at ht
  subst ht
  simp +contextual (maxDischargeDepth := 40) only [State.sendReport_sound, ite_sound, h_s]

theorem onSnrReport_sound (f : RxFrame) (h : RHdr) (b : List Byte) {s : State} (h_s : s.Sound) :
    (onSnrReport f h b s).Sound := by
  unfold onSnrReport
  simp +contextual (maxDischargeDepth := 40) only [State.segBuild_sound, State.modPort_sound, ite_sound, h_s]

theorem execSnrReport_sound (f : RxFrame) {s : State} (h_s : s.Sound) : KeepsSound (execSnrReport f s) := by
  intro t ht
  simp only [execSnrReport, Host.Outcome.next.injEq] at ht
  subst ht
  exact State.roadRx_sound f _ h_s fun g h u hu => onSnrReport_sound g h (roadPayload g.body) (State.count1_sound 4 14
    hu)

theorem onSegmentAnnounce_sound (f : RxFrame) (h : RHdr) (b : List Byte) {s : State} (h_s : s.Sound) :
    (onSegmentAnnounce f h b s).Sound := by
  unfold onSegmentAnnounce
  simp +contextual (maxDischargeDepth := 40) only [State.modPort_sound, State.sendLocal_sound, ite_sound, h_s]

theorem execSegmentAnnounce_sound (f : RxFrame) {s : State} (h_s : s.Sound) : KeepsSound (execSegmentAnnounce f s) := by
  intro t ht
  simp only [execSegmentAnnounce, Host.Outcome.next.injEq] at ht
  subst ht
  exact State.roadRx_sound f _ h_s fun g h u hu => onSegmentAnnounce_sound g h (roadPayload g.body)
    (State.count1_sound 4 14 hu)

theorem onToneAck_sound (f : RxFrame) (h : RHdr) (b : List Byte) {s : State} (h_s : s.Sound) :
    (onToneAck f h b s).Sound := by
  unfold onToneAck
  dsimp only
  (repeat' split) <;> simp +contextual (maxDischargeDepth := 40) only [State.segAllAcked_sound, State.modPort_sound,
    h_s]

theorem execTonemapAcknowledge_sound (f : RxFrame) {s : State} (h_s : s.Sound) :
    KeepsSound (execTonemapAcknowledge f s) := by
  intro t ht
  simp only [execTonemapAcknowledge, Host.Outcome.next.injEq] at ht
  subst ht
  exact State.roadRx_sound f _ h_s fun g h u hu => onToneAck_sound g h (roadPayload g.body) (State.count1_sound 4 14 hu)

theorem onSegmentActivate_sound (f : RxFrame) (_h : RHdr) (b : List Byte) {s : State} (h_s : s.Sound) :
    (onSegmentActivate f _h b s).Sound := by
  unfold onSegmentActivate
  simp +contextual (maxDischargeDepth := 40) only [State.modPort_sound, ite_sound, h_s]

theorem execSegmentActivate_sound (f : RxFrame) {s : State} (h_s : s.Sound) : KeepsSound (execSegmentActivate f s) := by
  intro t ht
  simp only [execSegmentActivate, Host.Outcome.next.injEq] at ht
  subst ht
  exact State.roadRx_sound f _ h_s fun g h u hu => onSegmentActivate_sound g h (roadPayload g.body)
    (State.count1_sound 4 14 hu)

theorem State.segActivate_sound (p : Fin 4) {s : State} (h_s : s.Sound) : (State.segActivate p s).Sound := by
  unfold State.segActivate
  dsimp only
  (repeat' split) <;> simp +contextual (maxDischargeDepth := 40) only [State.segBuild_sound, State.modPort_sound,
    State.sendSummary_sound, State.raise_sound, h_s]

theorem execSegmentMapActivation_sound (p : Fin 4) {s : State} (h_s : s.Sound) :
    KeepsSound (execSegmentMapActivation p s) := by
  intro t ht
  simp only [execSegmentMapActivation, Host.Outcome.next.injEq] at ht
  subst ht
  simp +contextual (maxDischargeDepth := 40) only [State.segActivate_sound, h_s]

theorem execSegmentMapAbandon_sound (p : Fin 4) {s : State} (h_s : s.Sound) :
    KeepsSound (execSegmentMapAbandon p s) := by
  intro t ht
  simp only [execSegmentMapAbandon, Host.Outcome.next.injEq] at ht
  subst ht
  (repeat' split) <;> simp_all +contextual (maxDischargeDepth := 40) only [State.segBuild_sound, State.modPort_sound,
    State.raise_sound]

theorem onSegmentSummary_sound (_f : RxFrame) (h : RHdr) (b : List Byte) {s : State} (h_s : s.Sound) :
    (onSegmentSummary _f h b s).Sound := by
  unfold onSegmentSummary
  simp +contextual (maxDischargeDepth := 40) only [State.summaryRx_sound, h_s]

theorem execSegmentSummary_sound (f : RxFrame) {s : State} (h_s : s.Sound) : KeepsSound (execSegmentSummary f s) := by
  intro t ht
  simp only [execSegmentSummary, Host.Outcome.next.injEq] at ht
  subst ht
  exact State.roadRx_sound f _ h_s fun g h u hu => onSegmentSummary_sound g h (roadPayload g.body) (State.count1_sound
    4 14 hu)

theorem onRingAnnounce_sound (_f : RxFrame) (h : RHdr) (b : List Byte) {s : State} (h_s : s.Sound) :
    (onRingAnnounce _f h b s).Sound := by
  unfold onRingAnnounce
  simp +contextual (maxDischargeDepth := 40) only [State.sendMgmt_sound, ite_sound, h_s]

theorem execRingAnnounce_sound (f : RxFrame) {s : State} (h_s : s.Sound) : KeepsSound (execRingAnnounce f s) := by
  intro t ht
  simp only [execRingAnnounce, Host.Outcome.next.injEq] at ht
  subst ht
  exact State.roadRx_sound f _ h_s fun g h u hu => onRingAnnounce_sound g h (roadPayload g.body) (State.count1_sound 4
    14 hu)

theorem execRingMapActivation_sound {s : State} (h_s : s.Sound) : KeepsSound (execRingMapActivation s) := by
  intro t ht
  simp only [execRingMapActivation, Host.Outcome.next.injEq] at ht
  subst ht
  split
  · exact ite_sound (State.ringBuild_sound (State.raise_sound _ h_s)) h_s
  · exact h_s

theorem execRingMapAbandon_sound {s : State} (h_s : s.Sound) : KeepsSound (execRingMapAbandon s) := by
  intro t ht
  simp only [execRingMapAbandon, Host.Outcome.next.injEq] at ht
  subst ht
  (repeat' split) <;> simp_all +contextual (maxDischargeDepth := 40) only [State.raise_sound, State.ringBuild_sound]

theorem State.toneWindow_sound {s : State} (h_s : s.Sound) : (State.toneWindow s).Sound := by
  unfold State.toneWindow
  simp +contextual (maxDischargeDepth := 40) only [State.Sound, State.ringAnnounceAgain_sound,
    State.announceAgain_sound, State.each_sound, State.sendSummary_sound, ite_sound, implies_true, h_s]

theorem State.toneCut_sound {s : State} (h_s : s.Sound) : (State.toneCut s).Sound := by
  unfold State.toneCut
  simp +contextual (maxDischargeDepth := 40) only [State.Sound, State.modPort_sound, State.each_sound, implies_true,
    h_s]

theorem State.keepBegin_sound {s : State} (h_s : s.Sound) : (State.keepBegin s).Sound := by
  unfold State.keepBegin
  simp +contextual (maxDischargeDepth := 40) only [State.each_sound, State.modPort_sound, implies_true, h_s]

/-! ### Machine/Ether.lean -/

theorem State.ethLearn_sound (mac : BitVec 48) (src : BitVec 7) {s : State} (h_s : s.Sound) :
    (State.ethLearn mac src s).Sound := by
  unfold State.ethLearn
  dsimp only
  split
  · exact h_s
  · split
    · exact h_s
    · exact State.raise_sound _ h_s
  · exact h_s
  · split
    · refine Contained.withLearnq h_s (s.eth.learnq ++ [_]) ?_
      rw [List.length_append]
      exact Nat.succ_le_of_lt ‹_›
    · exact State.raise_sound _ h_s

theorem State.ethFreed_sound (x : EthQ) {s : State} (h_s : s.Sound) : (State.ethFreed x s).Sound := by
  unfold State.ethFreed
  simp +contextual (maxDischargeDepth := 40) only [State.each_sound, State.pfcCheck_sound, implies_true, h_s]

theorem State.ethNextOf_sound (e : Fin 2) (k : Nat) {s : State} (h_s : s.Sound) : (State.ethNextOf e k s).Sound := by
  induction k generalizing s with
  | zero => exact h_s
  | succ k ih =>
    unfold State.ethNextOf
    split
    · exact h_s
    · have ht := fun f => State.modEth_sound e f h_s
      exact ite_sound (State.modEth_sound _ _ (ht _)) (ih (State.ethFreed_sound _ (State.ethParity_sound _ (ht _))))

theorem State.ethKick_sound (e : Fin 2) {s : State} (h_s : s.Sound) : (State.ethKick e s).Sound := by
  unfold State.ethKick
  simp +contextual (maxDischargeDepth := 40) only [State.when_sound, State.ethNextOf_sound, implies_true, h_s]

theorem State.ethCutOff_sound {s : State} (h_s : s.Sound) : (State.ethCutOff s).Sound := by
  unfold State.ethCutOff
  simp +contextual (maxDischargeDepth := 40) only [h_s]

theorem State.ethSend_sound (e : Fin 2) (x : EthQ) {s : State} (h_s : s.Sound) : (State.ethSend e x s).Sound := by
  unfold State.ethSend
  simp +contextual (maxDischargeDepth := 40) only [State.pfcCheck_sound, State.ethKick_sound, State.modEth_sound,
    ite_sound, h_s]

theorem State.ethCollision_sound (e : Fin 2) (k : Nat) (late : Bool) {s : State} (h_s : s.Sound) :
    (State.ethCollision e k late s).Sound := by
  unfold State.ethCollision
  simp +contextual (maxDischargeDepth := 40) only [State.count1_sound, State.emit_sound, State.when_sound,
    State.took_sound, State.raise_sound, implies_true, h_s]

theorem State.ethCollisions_sound (e : Fin 2) (k : Nat) (l : List Bool) {s : State} (h_s : s.Sound) :
    (State.ethCollisions e k l s).Sound := by
  induction l generalizing k s with
  | nil => exact h_s
  | cons x l ih => exact ih _ (State.ethCollision_sound _ _ _ h_s)

theorem State.ethNext_sound (e : Fin 2) (x : EthQ) {s : State} (h_s : s.Sound) : (State.ethNext e x s).Sound := by
  unfold State.ethNext
  simp +contextual (maxDischargeDepth := 40) only [State.modEth_sound, State.ethFreed_sound, State.ethKick_sound, h_s]

theorem State.ethSent_sound (e : Fin 2) (collisions : List Bool) {s : State} (h_s : s.Sound) :
    (State.ethSent e collisions s).Sound := by
  unfold State.ethSent
  dsimp only
  (repeat' split) <;> simp +contextual (maxDischargeDepth := 40) only [State.count1_sound, State.emit_sound,
    State.ethCollisions_sound, State.ethNext_sound, State.raise_sound, State.when_sound, State.count_sound,
    implies_true, h_s]

theorem State.tunnelHere_sound (body : List Byte) {s : State} (h_s : s.Sound) : (State.tunnelHere body s).Sound := by
  unfold State.tunnelHere
  simp +contextual (maxDischargeDepth := 40) only [State.chanWrite_sound, State.took_sound, State.count1_sound,
    State.ethLearn_sound, ite_sound, h_s]

theorem State.tunnelSend_sound (e : Fin 2) (dst : Option (BitVec 6)) (x : EthQ) {s : State} (h_s : s.Sound) :
    (State.tunnelSend e dst x s).Sound := by
  unfold State.tunnelSend
  have ht := State.bumpSeq_sound (State.count1_sound (ethCnt e) 15 h_s)
  refine ite_sound h_s (ite_sound (State.pfcCheck_sound _ _ (State.modEth_sound _ _ h_s))
    (ite_sound (State.ethParity_sound _ h_s) ?_))
  dsimp only
  split
  · exact ite_sound (State.tunnelHere_sound _ ht) (State.pfcCheck_sound _ _ (State.sendUnicast_sound _ _ ht))
  · exact State.pfcCheck_sound _ _ (State.sendBcast_sound _ ht)

theorem State.tunnelRelease_sound (e : Fin 2) {s : State} (h_s : s.Sound) :
    (State.tunnelRelease e s).Sound := by
  unfold State.tunnelRelease
  refine State.each_sound (State.modEth_sound _ _ h_s) fun x t ht => State.pfcCheck_sound _ _ ?_
  split
  · exact State.tunnelSend_sound _ _ _ ht
  · exact ht

theorem State.ethSwitch_sound (src : BitVec 7) (e? : Option (Fin 2)) (prio : Fin 8) (b : List Byte) {s : State} (h_s :
    s.Sound) :
    (State.ethSwitch src e? prio b s).Sound := by
  unfold State.ethSwitch
  have ht := State.ethLearn_sound (ethMac b 6) src h_s
  have hu : ((s.ethLearn (ethMac b 6) src).each ((s.ethLearn (ethMac b 6) src).floodPorts src)
      fun e v => v.ethSend e ⟨prio, src, b, []⟩).Sound := State.each_sound ht fun _ _ hv => State.ethSend_sound _ _ hv
  dsimp only
  split
  · split
    · exact ite_sound (State.tunnelSend_sound _ _ _ (State.count1_sound _ _ hu)) (State.count1_sound _ _ hu)
    · exact hu
  · refine ite_sound ?_ (ite_sound (ite_sound (State.ethSend_sound _ _ ht) ht) ?_)
    · split
      · exact State.count1_sound _ _ ht
      · exact ht
    · split
      · exact State.tunnelSend_sound _ _ _ ht
      · exact ht

theorem State.ethPauseRx_sound (e : Fin 2) (quanta : Half) {s : State} (h_s : s.Sound) :
    (State.ethPauseRx e quanta s).Sound := by
  unfold State.ethPauseRx
  simp +contextual (maxDischargeDepth := 40) only [State.count1_sound, State.modEth_sound, State.ethKick_sound,
    ite_sound, h_s]

theorem State.ethPfcRx_sound (e : Fin 2) (classes : Byte) (quanta : List Half) {s : State} (h_s : s.Sound) :
    (State.ethPfcRx e classes quanta s).Sound := by
  unfold State.ethPfcRx
  simp +contextual (maxDischargeDepth := 40) only [State.count1_sound, State.modEth_sound, State.ethKick_sound,
    State.raise_sound, ite_sound, h_s]

theorem State.ethRx_sound (e : Fin 2) (f : EthRx) {s : State} (h_s : s.Sound) : (State.ethRx e f s).Sound := by
  unfold State.ethRx
  simp +contextual (maxDischargeDepth := 40) only [State.count1_sound, State.ethRxCount_sound, State.ethPauseRx_sound,
    State.ethSwitch_sound, State.raise_sound, State.ethPfcRx_sound, State.ethParity_sound, ite_sound, h_s]

theorem execEthFrameReceive_sound (e : Fin 2) (f : EthRx) {s : State} (h_s : s.Sound) :
    KeepsSound (execEthFrameReceive e f s) := by
  intro t ht
  simp only [execEthFrameReceive, Host.Outcome.next.injEq] at ht
  subst ht
  simp +contextual (maxDischargeDepth := 40) only [State.ethRx_sound, h_s]

theorem State.ethMacCtl_sound (e : Fin 2) {s : State} (h_s : s.Sound) : (State.ethMacCtl e s).Sound := by
  unfold State.ethMacCtl
  simp +contextual (maxDischargeDepth := 40) only [State.ethRxCount_sound, h_s]

theorem execEthPause_sound (e : Fin 2) (quanta : Half) {s : State} (h_s : s.Sound) :
    KeepsSound (execEthPause e quanta s) := by
  intro t ht
  simp only [execEthPause, Host.Outcome.next.injEq] at ht
  subst ht
  simp +contextual (maxDischargeDepth := 40) only [State.ethPauseRx_sound, State.ethMacCtl_sound, ite_sound, h_s]

theorem execPfc_sound (e : Fin 2) (classes : Byte) (quanta : List Half) {s : State} (h_s : s.Sound) :
    KeepsSound (execPfc e classes quanta s) := by
  intro t ht
  simp only [execPfc, Host.Outcome.next.injEq] at ht
  subst ht
  simp +contextual (maxDischargeDepth := 40) only [State.ethPfcRx_sound, State.ethMacCtl_sound, ite_sound, h_s]

theorem execEthPauseExpiry_sound (e : Fin 2) {s : State} (h_s : s.Sound) : KeepsSound (execEthPauseExpiry e s) := by
  intro t ht
  simp only [execEthPauseExpiry, Host.Outcome.next.injEq] at ht
  subst ht
  simp +contextual (maxDischargeDepth := 40) only [State.modEth_sound, State.when_sound, State.ethKick_sound,
    implies_true, h_s]

theorem execPfcExpiry_sound (e : Fin 2) (cls : Fin 8) {s : State} (h_s : s.Sound) :
    KeepsSound (execPfcExpiry e cls s) := by
  intro t ht
  simp only [execPfcExpiry, Host.Outcome.next.injEq] at ht
  subst ht
  simp +contextual (maxDischargeDepth := 40) only [State.modEth_sound, State.when_sound, State.ethKick_sound,
    implies_true, h_s]

theorem execEthFrameSent_sound (e : Fin 2) (collisions : List Bool) {s : State} (h_s : s.Sound) :
    KeepsSound (execEthFrameSent e collisions s) := by
  intro t ht
  simp only [execEthFrameSent, Host.Outcome.next.injEq] at ht
  subst ht
  simp +contextual (maxDischargeDepth := 40) only [State.ethSent_sound, h_s]

theorem State.tunnelIn_sound (f : RxFrame) (h : RHdr) {s : State} (h_s : s.Sound) : (State.tunnelIn f h s).Sound := by
  unfold State.tunnelIn
  simp +contextual (maxDischargeDepth := 40) only [State.count1_sound, State.chanWrite_sound, State.ethSwitch_sound,
    ite_sound, h_s]

theorem deliverTunnel_sound (f : RxFrame) (h : RHdr) {s : State} (h_s : s.Sound) :
    (deliverTunnel.act f h s).Sound := State.tunnelIn_sound f h h_s

theorem execEthernetTunnel_sound (f : RxFrame) {s : State} (h_s : s.Sound) : KeepsSound (execEthernetTunnel f s) := by
  intro t ht
  simp only [execEthernetTunnel, Host.Outcome.next.injEq] at ht
  subst ht
  exact State.roadRx_sound f _ h_s fun _ _ _ ht => deliverTunnel_sound _ _ ht

theorem State.addressAged_sound (i : Fin 256) {s : State} (h_s : s.Sound) : (State.addressAged i s).Sound := by
  unfold State.addressAged
  simp +contextual (maxDischargeDepth := 40) only [ite_sound, h_s]

theorem execAddressAgeExpiry_sound (i : Fin 256) {s : State} (h_s : s.Sound) :
    KeepsSound (execAddressAgeExpiry i s) := by
  intro t ht
  simp only [execAddressAgeExpiry, Host.Outcome.next.injEq] at ht
  subst ht
  simp +contextual (maxDischargeDepth := 40) only [State.when_sound, State.addressAged_sound, implies_true, h_s]

theorem State.ethCut_sound {s : State} (h_s : s.Sound) : (State.ethCut s).Sound := by
  unfold State.ethCut
  simp +contextual (maxDischargeDepth := 40) only [h_s]

theorem State.learnqPop_sound {s : State} (h_s : s.Sound) : (State.learnqPop s).Sound := by
  unfold State.learnqPop
  split
  · exact h_s
  · rename_i e rest h
    refine Contained.withLearnq h_s rest ?_
    have := Contained.learnqLe h_s
    rw [h, List.length_cons] at this
    omega

theorem State.phyPoll_sound (e : Fin 2) (r0 r1 r4 r5 : Half) {s : State} (h_s : s.Sound) :
    (State.phyPoll e r0 r1 r4 r5 s).Sound := by
  unfold State.phyPoll
  simp +contextual (maxDischargeDepth := 40) only [State.emit_sound, State.modEth_sound, State.each_sound,
    State.raiseIf_sound, ite_sound, implies_true, h_s]

theorem execPhyPoll_sound (e : Fin 2) (r0 r1 r4 r5 : Half) {s : State} (h_s : s.Sound) :
    KeepsSound (execPhyPoll e r0 r1 r4 r5 s) := by
  intro t ht
  simp only [execPhyPoll, Host.Outcome.next.injEq] at ht
  subst ht
  simp +contextual (maxDischargeDepth := 40) only [State.phyPoll_sound, h_s]

theorem State.mdioWrite_sound (e : Fin 2) (v : Word) {s : State} (h_s : s.Sound) : (State.mdioWrite e v s).Sound := by
  unfold State.mdioWrite
  simp +contextual (maxDischargeDepth := 40) only [State.emit_sound, State.setReg_sound, State.modEth_sound,
    State.when_sound, ite_sound, implies_true, h_s]

theorem execMdioAccess_sound (e : Fin 2) (v : Word) {s : State} (h_s : s.Sound) :
    KeepsSound (execMdioAccess e v s) := by
  intro t ht
  simp only [execMdioAccess, Host.Outcome.next.injEq] at ht
  subst ht
  simp +contextual (maxDischargeDepth := 40) only [State.mdioWrite_sound, h_s]

theorem execMdioDone_sound (e : Fin 2) (data : Half) {s : State} (h_s : s.Sound) :
    KeepsSound (execMdioDone e data s) := by
  intro t ht
  simp only [execMdioDone, Host.Outcome.next.injEq] at ht
  subst ht
  (repeat' split) <;> simp_all +contextual (maxDischargeDepth := 40) only [State.setReg_sound, State.modEth_sound]

theorem State.ethAbort_sound (e : Fin 2) {s : State} (h_s : s.Sound) : (State.ethAbort e s).Sound := by
  unfold State.ethAbort
  simp +contextual (maxDischargeDepth := 40) only [State.when_sound, State.took_sound, State.count1_sound,
    implies_true, h_s]

theorem State.ethCtlWrite_sound (e : Fin 2) (v : Word) {s : State} (h_s : s.Sound) :
    (State.ethCtlWrite e v s).Sound := by
  unfold State.ethCtlWrite
  simp +contextual (maxDischargeDepth := 40) only [State.when_sound, State.ethKick_sound, State.ethAbort_sound,
    State.setReg_sound, implies_true, h_s]

theorem execEthDisable_sound (e : Fin 2) (v : Word) {s : State} (h_s : s.Sound) :
    KeepsSound (execEthDisable e v s) := by
  intro t ht
  simp only [execEthDisable, Host.Outcome.next.injEq] at ht
  subst ht
  simp +contextual (maxDischargeDepth := 40) only [State.ethCtlWrite_sound, h_s]

/-! ### Machine/RoadCmds.lean -/

theorem State.roadOpen_sound {s : State} (h_s : s.Sound) : (State.roadOpen s).Sound := by
  unfold State.roadOpen
  simp +contextual (maxDischargeDepth := 40) only [State.each_sound, State.roadRehead_sound, implies_true, h_s]

theorem State.roadClose_sound {s : State} (h_s : s.Sound) : (State.roadClose s).Sound := by
  unfold State.roadClose
  simp +contextual (maxDischargeDepth := 40) only [h_s]

theorem execRoadFrameStart_sound (p : Fin 4) (slots : List (List (Option Nat))) (foreign : Option ForeignP) {s :
    State} (h_s : s.Sound) :
    KeepsSound (execRoadFrameStart p slots foreign s) := by
  intro t ht
  simp only [execRoadFrameStart, Host.Outcome.next.injEq] at ht
  subst ht
  simp +contextual (maxDischargeDepth := 40) only [State.roadStart_sound, h_s]

theorem execLastSymbolSent_sound (p : Fin 4) {s : State} (h_s : s.Sound) : KeepsSound (execLastSymbolSent p s) := by
  intro t ht
  simp only [execLastSymbolSent, Host.Outcome.next.injEq] at ht
  subst ht
  simp +contextual (maxDischargeDepth := 40) only [State.roadSent_sound, h_s]

theorem State.roadAck_sound (p : Fin 4) (ts : Dword) (a : RHdr) {s : State} (h_s : s.Sound) :
    (State.roadAck p ts a s).Sound := by
  unfold State.roadAck
  dsimp only
  (repeat' split) <;> simp +contextual (maxDischargeDepth := 40) only [State.attemptEnd_sound, State.count1_sound,
    State.attemptFail_sound, State.raise_sound, h_s]

theorem State.ackGood_sound (f : RxFrame) (a : RHdr) {s : State} (h_s : s.Sound) : (State.ackGood f a s).Sound := by
  unfold State.ackGood
  simp +contextual (maxDischargeDepth := 40) only [State.when_sound, State.roadAck_sound, State.nbrHeard_sound,
    implies_true, h_s]

theorem State.ackRx_sound (f : RxFrame) {s : State} (h_s : s.Sound) : (State.ackRx f s).Sound := by
  unfold State.ackRx
  dsimp only
  (repeat' split) <;> simp +contextual (maxDischargeDepth := 40) only [State.ackGood_sound, State.badFrame_sound,
    State.when_sound, State.rxFx_sound, implies_true, h_s]

theorem execAcknowledge_sound (f : RxFrame) {s : State} (h_s : s.Sound) : KeepsSound (execAcknowledge f s) := by
  intro t ht
  simp only [execAcknowledge, Host.Outcome.next.injEq] at ht
  subst ht
  simp +contextual (maxDischargeDepth := 40) only [State.ackRx_sound, h_s]

theorem State.ackLost_sound (p : Fin 4) {s : State} (h_s : s.Sound) : (State.ackLost p s).Sound := by
  unfold State.ackLost
  dsimp only
  (repeat' split) <;> simp +contextual (maxDischargeDepth := 40) only [State.count1_sound, State.attemptFail_sound, h_s]

theorem execAckTimeout_sound (p : Fin 4) {s : State} (h_s : s.Sound) : KeepsSound (execAckTimeout p s) := by
  intro t ht
  simp only [execAckTimeout, Host.Outcome.next.injEq] at ht
  subst ht
  simp +contextual (maxDischargeDepth := 40) only [State.when_sound, State.ackLost_sound, implies_true, h_s]

theorem State.userIn_sound (f : RxFrame) (h : RHdr) {s : State} (h_s : s.Sound) : (State.userIn f h s).Sound := by
  unfold State.userIn
  simp +contextual (maxDischargeDepth := 40) only [State.count1_sound, State.chanWrite_sound, h_s]

theorem deliverUser_sound (f : RxFrame) (h : RHdr) {s : State} (h_s : s.Sound) :
    (deliverUser.act f h s).Sound := State.userIn_sound f h h_s

theorem execUserMessage_sound (f : RxFrame) {s : State} (h_s : s.Sound) : KeepsSound (execUserMessage f s) := by
  intro t ht
  simp only [execUserMessage, Host.Outcome.next.injEq] at ht
  subst ht
  exact State.roadRx_sound f _ h_s fun _ _ _ ht => deliverUser_sound _ _ ht

theorem State.pauseChanged_sound (p : Fin 4) (before : Option QFrame) {s : State} (h_s : s.Sound) :
    (State.pauseChanged p before s).Sound := by
  unfold State.pauseChanged
  simp +contextual (maxDischargeDepth := 40) only [State.each_sound, State.roadRehead_sound,
    State.tunnelRelease_sound, implies_true, h_s]

theorem State.pauseRx_sound (p : Fin 4) (nid : BitVec 6) (mask : Byte) (ptime : Nat) {s : State} (h_s : s.Sound) :
    (State.pauseRx p nid mask ptime s).Sound := by
  unfold State.pauseRx
  simp +contextual (maxDischargeDepth := 40) only [State.pauseChanged_sound, State.modRoad_sound, State.raise_sound,
    h_s]

theorem deliverPause_sound (f : RxFrame) (h : RHdr) {s : State} (h_s : s.Sound) :
    (deliverPause.act f h s).Sound := State.pauseRx_sound _ _ _ _ h_s

theorem execPause_sound (f : RxFrame) {s : State} (h_s : s.Sound) : KeepsSound (execPause f s) := by
  intro t ht
  simp only [execPause, Host.Outcome.next.injEq] at ht
  subst ht
  exact State.roadRx_sound f _ h_s fun _ _ _ ht => deliverPause_sound _ _ ht

theorem State.pauseEnd_sound (p : Fin 4) (nid : BitVec 6) (prio : Fin 8) {s : State} (h_s : s.Sound) :
    (State.pauseEnd p nid prio s).Sound := by
  unfold State.pauseEnd
  simp +contextual (maxDischargeDepth := 40) only [State.pauseChanged_sound, State.modRoad_sound, h_s]

theorem execPauseExpiry_sound (p : Fin 4) (nid : BitVec 6) (prio : Fin 8) {s : State} (h_s : s.Sound) :
    KeepsSound (execPauseExpiry p nid prio s) := by
  intro t ht
  simp only [execPauseExpiry, Host.Outcome.next.injEq] at ht
  subst ht
  simp +contextual (maxDischargeDepth := 40) only [State.when_sound, State.pauseEnd_sound, implies_true, h_s]

theorem execPauseRepeat_sound (p : Fin 4) (prio : Fin 8) {s : State} (h_s : s.Sound) :
    KeepsSound (execPauseRepeat p prio s) := by
  intro t ht
  simp only [execPauseRepeat, Host.Outcome.next.injEq] at ht
  subst ht
  simp +contextual (maxDischargeDepth := 40) only [State.when_sound, State.sendPause_sound, ite_sound, implies_true,
    h_s]

theorem execHelloTimer_sound {s : State} (h_s : s.Sound) : KeepsSound (execHelloTimer s) := by
  intro t ht
  simp only [execHelloTimer, Host.Outcome.next.injEq] at ht
  subst ht
  simp +contextual (maxDischargeDepth := 40) only [State.when_sound, State.each_sound, State.sendLocal_sound,
    ite_sound, implies_true, h_s]

theorem onHello_sound (_f : RxFrame) (_h : RHdr) (_b : List Byte) {s : State} (h_s : s.Sound) :
    (onHello _f _h _b s).Sound := by
  unfold onHello
  simp +contextual (maxDischargeDepth := 40) only [h_s]

theorem execHello_sound (f : RxFrame) {s : State} (h_s : s.Sound) : KeepsSound (execHello f s) := by
  intro t ht
  simp only [execHello, Host.Outcome.next.injEq] at ht
  subst ht
  exact State.roadRx_sound f _ h_s fun g h u hu => onHello_sound g h (roadPayload g.body) (State.count1_sound 4 14 hu)

theorem State.nbrAged_sound (p : Fin 4) (nid : BitVec 6) {s : State} (h_s : s.Sound) :
    (State.nbrAged p nid s).Sound := by
  unfold State.nbrAged
  simp +contextual (maxDischargeDepth := 40) only [State.raise_sound, State.modRoad_sound, ite_sound, h_s]

theorem execNeighbourAgeExpiry_sound (p : Fin 4) (nid : BitVec 6) {s : State} (h_s : s.Sound) :
    KeepsSound (execNeighbourAgeExpiry p nid s) := by
  intro t ht
  simp only [execNeighbourAgeExpiry, Host.Outcome.next.injEq] at ht
  subst ht
  simp +contextual (maxDischargeDepth := 40) only [State.nbrAged_sound, State.when_sound, implies_true, h_s]

theorem State.pingReply_sound {s : State} (h_s : s.Sound) : (State.pingReply s).Sound := by
  unfold State.pingReply
  dsimp only
  (repeat' split) <;> simp +contextual (maxDischargeDepth := 40) only [h_s]

theorem State.ping_sound (dst : BitVec 6) {s : State} (h_s : s.Sound) : (State.ping dst s).Sound := by
  unfold State.ping
  simp +contextual (maxDischargeDepth := 40) only [State.took_sound, State.pingReply_sound, State.sendMgmt_sound,
    ite_sound, h_s]

theorem execPing_sound (dst : BitVec 6) {s : State} (h_s : s.Sound) : KeepsSound (execPing dst s) := by
  intro t ht
  simp only [execPing, Host.Outcome.next.injEq] at ht
  subst ht
  simp +contextual (maxDischargeDepth := 40) only [State.ping_sound, State.setReg_sound, h_s]

theorem onEcho_sound (_f : RxFrame) (h : RHdr) (b : List Byte) {s : State} (h_s : s.Sound) :
    (onEcho _f h b s).Sound := by
  unfold onEcho
  simp +contextual (maxDischargeDepth := 40) only [State.pingReply_sound, State.sendMgmt_sound, ite_sound, h_s]

theorem execEcho_sound (f : RxFrame) {s : State} (h_s : s.Sound) : KeepsSound (execEcho f s) := by
  intro t ht
  simp only [execEcho, Host.Outcome.next.injEq] at ht
  subst ht
  exact State.roadRx_sound f _ h_s fun g h u hu => onEcho_sound g h (roadPayload g.body) (State.count1_sound 4 14 hu)

theorem onReply_sound (_f : RxFrame) (_h : RHdr) (_b : List Byte) {s : State} (h_s : s.Sound) :
    (onReply _f _h _b s).Sound := by
  unfold onReply
  simp +contextual (maxDischargeDepth := 40) only [State.pingReply_sound, h_s]

theorem execReply_sound (f : RxFrame) {s : State} (h_s : s.Sound) : KeepsSound (execReply f s) := by
  intro t ht
  simp only [execReply, Host.Outcome.next.injEq] at ht
  subst ht
  exact State.roadRx_sound f _ h_s fun g h u hu => onReply_sound g h (roadPayload g.body) (State.count1_sound 4 14 hu)

theorem State.frameDropped_sound (q : QFrame) {s : State} (h_s : s.Sound) : (State.frameDropped q s).Sound := by
  unfold State.frameDropped
  dsimp only
  (repeat' split) <;> simp +contextual (maxDischargeDepth := 40) only [State.Sound, State.cwyTxResult_sound,
    State.count1_sound, State.txDone_sound, h_s]

theorem State.preStop_sound (p : Fin 4) {s : State} (h_s : s.Sound) : (State.preStop p s).Sound := by
  unfold State.preStop
  simp +contextual (maxDischargeDepth := 40) only [State.modPort_sound, State.emit_sound, State.modRoad_sound, h_s]

theorem State.roadCut_sound {s : State} (h_s : s.Sound) : (State.roadCut s).Sound := by
  unfold State.roadCut
  simp +contextual (maxDischargeDepth := 40) only [State.Sound, State.frameDropped_sound, State.each_sound,
    State.preStop_sound, State.raise_sound, State.pfcAll_sound, State.cwyCut_sound, implies_true, h_s]

end Sys2Proof.Machine
end

