-- ==== Sys2Proof/Laws/KeepsTraverse.lean ====
section
/-! SUPPORT. Every operation and meaning of the drives, the survey, the Traverse table and the Traverse
keeps the stores within their bounds. -/
namespace Sys2Proof.Machine

/-! ### Machine/Drive.lean -/

theorem State.prefCheck_sound (before : Bool × Bool) {s : State} (h_s : s.Sound) :
    (State.prefCheck before s).Sound := by
  unfold State.prefCheck
  simp +contextual (maxDischargeDepth := 40) only [State.raise_sound, State.spFaultCode_sound, ite_sound, h_s]

theorem State.laneTo_sound (st : LaneState) {s : State} (h_s : s.Sound) : (State.laneTo st s).Sound := by
  unfold State.laneTo
  simp +contextual (maxDischargeDepth := 40) only [State.raise_sound, ite_sound, h_s]

theorem State.laneOffDrive_sound {s : State} (h_s : s.Sound) : (State.laneOffDrive s).Sound := by
  unfold State.laneOffDrive
  simp +contextual (maxDischargeDepth := 40) only [State.laneTo_sound, ite_sound, h_s]

theorem State.wlvReqRx_sound (nid : BitVec 6) (req flags : Byte) {s : State} (h_s : s.Sound) :
    (State.wlvReqRx nid req flags s).Sound := by
  have hQ : (if s.sys.splitAct.getLsbD 5 ∧ s.wlv.reqq.length < 16 then s.wlv.reqq ++ [(nid, req)] else
    s.wlv.reqq).length ≤ 16 := by
    split
    · rename_i hc
      rw [List.length_append]
      exact Nat.succ_le_of_lt hc.2
    · exact Contained.reqqLe h_s
  unfold State.wlvReqRx
  dsimp only
  refine ite_sound h_s ?_
  split <;> exact Contained.withReqq h_s _ hQ

theorem State.wlvSend_sound (req : Nat) {s : State} (h_s : s.Sound) : (State.wlvSend req s).Sound := by
  unfold State.wlvSend
  dsimp only
  (repeat' split) <;> simp +contextual (maxDischargeDepth := 40) only [State.wlvReqRx_sound, State.sendMgmt_sound, h_s]

theorem State.wlvShot_sound (req : Nat) {s : State} (h_s : s.Sound) : (State.wlvShot req s).Sound := by
  unfold State.wlvShot
  simp +contextual (maxDischargeDepth := 40) only [State.wlvSend_sound, h_s]

theorem State.wlvAskNow_sound (req : Nat) {s : State} (h_s : s.Sound) : (State.wlvAskNow req s).Sound := by
  unfold State.wlvAskNow
  simp +contextual (maxDischargeDepth := 40) only [State.wlvSend_sound, h_s]

theorem State.wlvAsk_sound {s : State} (h_s : s.Sound) : (State.wlvAsk s).Sound := by
  unfold State.wlvAsk
  simp +contextual (maxDischargeDepth := 40) only [State.wlvAskNow_sound, ite_sound, h_s]

theorem State.ownRelease_sound {s : State} (h_s : s.Sound) : (State.ownRelease s).Sound := by
  unfold State.ownRelease
  simp +contextual (maxDischargeDepth := 40) only [h_s]

theorem State.drillEnd_sound (ok : Bool) {s : State} (h_s : s.Sound) : (State.drillEnd ok s).Sound := by
  unfold State.drillEnd
  simp +contextual (maxDischargeDepth := 40) only [State.when_sound, State.wlvShot_sound, State.raise_sound,
    implies_true, h_s]

theorem State.driveEnd_sound {s : State} (h_s : s.Sound) : (State.driveEnd s).Sound := by
  unfold State.driveEnd
  simp +contextual (maxDischargeDepth := 40) only [State.raise_sound, State.ownRelease_sound, State.drillEnd_sound,
    State.when_sound, State.laneOffDrive_sound, ite_sound, implies_true, h_s]

theorem State.ilCheck_sound {s : State} (h_s : s.Sound) : (State.ilCheck s).Sound := by
  unfold State.ilCheck
  simp +contextual (maxDischargeDepth := 40) only [State.raise_sound, ite_sound, h_s]

theorem State.revCheck_sound {s : State} (h_s : s.Sound) : (State.revCheck s).Sound := by
  unfold State.revCheck
  simp +contextual (maxDischargeDepth := 40) only [ite_sound, h_s]

theorem State.wlvIdle_sound {s : State} (h_s : s.Sound) : (State.wlvIdle s).Sound := by
  unfold State.wlvIdle
  simp +contextual (maxDischargeDepth := 40) only [State.Sound, State.driveEnd_sound, ite_sound, h_s]

theorem State.wlvRun_sound {s : State} (h_s : s.Sound) : (State.wlvRun s).Sound := by
  unfold State.wlvRun
  simp +contextual (maxDischargeDepth := 40) only [State.Sound, State.driveEnd_sound, State.raise_sound, ite_sound, h_s]

theorem State.ownUpdate_sound {s : State} (h_s : s.Sound) : (State.ownUpdate s).Sound := by
  unfold State.ownUpdate
  simp +contextual (maxDischargeDepth := 40) only [State.ownRelease_sound, ite_sound, h_s]

theorem State.peerLostCheck_sound {s : State} (h_s : s.Sound) : (State.peerLostCheck s).Sound := by
  unfold State.peerLostCheck
  simp +contextual (maxDischargeDepth := 40) only [State.wlvShot_sound, State.when_sound, implies_true, h_s]

theorem State.wlvSync_sound {s : State} (h_s : s.Sound) : (State.wlvSync s).Sound := by
  unfold State.wlvSync
  simp +contextual (maxDischargeDepth := 40) only [State.ilCheck_sound, State.peerLostCheck_sound, State.wlvAsk_sound,
    State.revCheck_sound, State.wlvIdle_sound, State.ownUpdate_sound, State.wlvRun_sound, ite_sound, h_s]

theorem State.handoffEnd_sound {s : State} (h_s : s.Sound) : (State.handoffEnd s).Sound := by
  unfold State.handoffEnd
  simp +contextual (maxDischargeDepth := 40) only [State.Sound, State.wlvSync_sound, State.driveEnd_sound, h_s]

theorem State.handoffStart_sound {s : State} (h_s : s.Sound) : (State.handoffStart s).Sound := by
  unfold State.handoffStart
  simp +contextual (maxDischargeDepth := 40) only [State.handoffEnd_sound, ite_sound, h_s]

theorem State.driveStart_sound {s : State} (h_s : s.Sound) : (State.driveStart s).Sound := by
  unfold State.driveStart
  dsimp only
  (repeat' split) <;> simp +contextual (maxDischargeDepth := 40) only [State.raise_sound, State.raiseIf_sound, h_s]

theorem State.shotsAnswered_sound (me changed : Bool) {s : State} (h_s : s.Sound) :
    (State.shotsAnswered me changed s).Sound := by
  unfold State.shotsAnswered
  simp +contextual (maxDischargeDepth := 40) only [State.raise_sound, ite_sound, h_s]

theorem State.byteGrant_sound (lease : Nat) {s : State} (h_s : s.Sound) : (State.byteGrant lease s).Sound := by
  unfold State.byteGrant
  simp +contextual (maxDischargeDepth := 40) only [State.Sound, State.raiseIf_sound, State.shotsAnswered_sound, h_s]

theorem State.byteRevoke_sound (peer : Bool) {s : State} (h_s : s.Sound) : (State.byteRevoke peer s).Sound := by
  unfold State.byteRevoke
  simp +contextual (maxDischargeDepth := 40) only [State.Sound, State.raiseIf_sound, State.shotsAnswered_sound,
    State.handoffStart_sound, ite_sound, h_s]

theorem State.byteApply_sound (x : Byte) {s : State} (h_s : s.Sound) : (State.byteApply x s).Sound := by
  unfold State.byteApply
  simp +contextual (maxDischargeDepth := 40) only [State.Sound, State.byteRevoke_sound, State.byteGrant_sound,
    ite_sound, h_s]

theorem State.byteUngrant_sound {s : State} (h_s : s.Sound) : (State.byteUngrant s).Sound := by
  unfold State.byteUngrant
  simp +contextual (maxDischargeDepth := 40) only [State.Sound, State.driveEnd_sound, ite_sound, h_s]

theorem State.byteHeard_sound (tcount : Word) (bytes : List Byte) {s : State} (h_s : s.Sound) :
    (State.byteHeard tcount bytes s).Sound := by
  unfold State.byteHeard
  simp +contextual (maxDischargeDepth := 40) only [State.raise_sound, ite_sound, h_s]

theorem State.byteTake_sound (tcount : Word) (bytes : List Byte) {s : State} (h_s : s.Sound) :
    (State.byteTake tcount bytes s).Sound := by
  unfold State.byteTake
  simp +contextual (maxDischargeDepth := 40) only [State.wlvSync_sound, State.byteUngrant_sound,
    State.byteHeard_sound, State.byteApply_sound, ite_sound, h_s]

theorem State.ilRenew_sound {s : State} (h_s : s.Sound) : (State.ilRenew s).Sound := by
  unfold State.ilRenew
  simp +contextual (maxDischargeDepth := 40) only [State.Sound, State.wlvAskNow_sound, State.driveEnd_sound,
    ite_sound, h_s]

theorem State.leaseCount_sound {s : State} (h_s : s.Sound) : (State.leaseCount s).Sound := by
  unfold State.leaseCount
  simp +contextual (maxDischargeDepth := 40) only [State.Sound, State.raiseIf_sound, State.ilRenew_sound, ite_sound,
    h_s]

theorem State.ilCount_sound {s : State} (h_s : s.Sound) : (State.ilCount s).Sound := by
  unfold State.ilCount
  simp +contextual (maxDischargeDepth := 40) only [h_s]

theorem State.standingSeen_sound (nid : BitVec 6) (seq : Byte) {s : State} (h_s : s.Sound) :
    (State.standingSeen nid seq s).Sound := by
  unfold State.standingSeen
  simp +contextual (maxDischargeDepth := 40) only [h_s]

theorem State.judgeFit_sound {s : State} (h_s : s.Sound) : (State.judgeFit s).Sound := by
  unfold State.judgeFit
  simp +contextual (maxDischargeDepth := 40) only [h_s]

theorem State.wlvEvaluate_sound {s : State} (h_s : s.Sound) : (State.wlvEvaluate s).Sound := by
  unfold State.wlvEvaluate
  simp +contextual (maxDischargeDepth := 40) only [h_s]

theorem State.wlvSteward_sound {s : State} (h_s : s.Sound) : (State.wlvSteward s).Sound := by
  unfold State.wlvSteward
  simp +contextual (maxDischargeDepth := 40) only [h_s]

theorem State.wlvCycle_sound {s : State} (h_s : s.Sound) : (State.wlvCycle s).Sound := by
  unfold State.wlvCycle
  simp +contextual (maxDischargeDepth := 40) only [State.Sound, State.wlvEvaluate_sound, State.raise_sound,
    State.wlvSteward_sound, State.judgeFit_sound, ite_sound, h_s]

theorem State.wlvAdopt_sound {s : State} (h_s : s.Sound) : (State.wlvAdopt s).Sound := by
  unfold State.wlvAdopt
  simp +contextual (maxDischargeDepth := 40) only [h_s]

theorem State.wlvCut_sound {s : State} (h_s : s.Sound) : (State.wlvCut s).Sound := by
  unfold State.wlvCut
  simp +contextual (maxDischargeDepth := 40) only [State.wlvSync_sound, h_s]

theorem State.drillCount_sound {s : State} (h_s : s.Sound) : (State.drillCount s).Sound := by
  unfold State.drillCount
  simp +contextual (maxDischargeDepth := 40) only [h_s]

theorem State.drillFail_sound {s : State} (h_s : s.Sound) : (State.drillFail s).Sound := by
  unfold State.drillFail
  simp +contextual (maxDischargeDepth := 40) only [h_s]

theorem State.revCount_sound (cycleNs : Nat) (missing : Bool) {s : State} (h_s : s.Sound) :
    (State.revCount cycleNs missing s).Sound := by
  unfold State.revCount
  simp +contextual (maxDischargeDepth := 40) only [ite_sound, h_s]

theorem State.askCount_sound {s : State} (h_s : s.Sound) : (State.askCount s).Sound := by
  unfold State.askCount
  simp +contextual (maxDischargeDepth := 40) only [h_s]

theorem onWayleave_sound (_f : RxFrame) (h : RHdr) (b : List Byte) {s : State} (h_s : s.Sound) :
    (onWayleave _f h b s).Sound := by
  unfold onWayleave
  simp +contextual (maxDischargeDepth := 40) only [State.wlvReqRx_sound, h_s]

theorem execWayleave_sound (f : RxFrame) {s : State} (h_s : s.Sound) : KeepsSound (execWayleave f s) := by
  intro t ht
  simp only [execWayleave, Host.Outcome.next.injEq] at ht
  subst ht
  exact State.roadRx_sound f _ h_s fun g h u hu => onWayleave_sound g h (roadPayload g.body) (State.count1_sound 4 14
    hu)

theorem State.wlvRepeat_sound {s : State} (h_s : s.Sound) : (State.wlvRepeat s).Sound := by
  unfold State.wlvRepeat
  simp +contextual (maxDischargeDepth := 40) only [State.Sound, State.each_sound, State.wlvSend_sound, ite_sound,
    implies_true, h_s]

theorem execWayleaveRepeat_sound {s : State} (h_s : s.Sound) : KeepsSound (execWayleaveRepeat s) := by
  intro t ht
  simp only [execWayleaveRepeat, Host.Outcome.next.injEq] at ht
  subst ht
  simp +contextual (maxDischargeDepth := 40) only [State.when_sound, State.wlvRepeat_sound, implies_true, h_s]

theorem execHeartbeat_sound {s : State} (h_s : s.Sound) : KeepsSound (execHeartbeat s) := by
  intro t ht
  simp only [execHeartbeat, Host.Outcome.next.injEq] at ht
  subst ht
  simp +contextual (maxDischargeDepth := 40) only [State.when_sound, State.emit_sound, ite_sound, implies_true, h_s]

theorem State.hbPulse_sound (widthNs : Nat) {s : State} (h_s : s.Sound) : (State.hbPulse widthNs s).Sound := by
  unfold State.hbPulse
  simp +contextual (maxDischargeDepth := 40) only [State.wlvSync_sound, State.prefCheck_sound, State.raiseIf_sound,
    ite_sound, h_s]

theorem execPeerHbPulse_sound (widthNs : Nat) {s : State} (h_s : s.Sound) : KeepsSound (execPeerHbPulse widthNs s) := by
  intro t ht
  simp only [execPeerHbPulse, Host.Outcome.next.injEq] at ht
  subst ht
  simp +contextual (maxDischargeDepth := 40) only [State.hbPulse_sound, h_s]

theorem execPeerHbLost_sound {s : State} (h_s : s.Sound) : KeepsSound (execPeerHbLost s) := by
  intro t ht
  simp only [execPeerHbLost, Host.Outcome.next.injEq] at ht
  subst ht
  simp +contextual (maxDischargeDepth := 40) only [State.when_sound, State.raise_sound, State.wlvSync_sound,
    ite_sound, implies_true, h_s]

theorem State.bcommitWrite_sound (v : Word) {s : State} (h_s : s.Sound) : (State.bcommitWrite v s).Sound := by
  unfold State.bcommitWrite
  simp +contextual (maxDischargeDepth := 40) only [ite_sound, h_s]

theorem execWlvBcommit_sound {s : State} (h_s : s.Sound) : KeepsSound (execWlvBcommit s) := by
  intro t ht
  simp only [execWlvBcommit, Host.Outcome.next.injEq] at ht
  subst ht
  simp +contextual (maxDischargeDepth := 40) only [State.bcommitWrite_sound, h_s]

theorem execWayleaveDeadline_sound {s : State} (h_s : s.Sound) : KeepsSound (execWayleaveDeadline s) := by
  intro t ht
  simp only [execWayleaveDeadline, Host.Outcome.next.injEq] at ht
  subst ht
  simp +contextual (maxDischargeDepth := 40) only [State.when_sound, State.raise_sound, ite_sound, implies_true, h_s]

theorem State.reqqPop_sound {s : State} (h_s : s.Sound) : (State.reqqPop s).Sound := by
  refine Contained.withReqq h_s (s.wlv.reqq.drop 1) ?_
  have := Contained.reqqLe h_s
  rw [List.length_drop]
  omega

theorem State.collisionCheck_sound {s : State} (h_s : s.Sound) : (State.collisionCheck s).Sound := by
  unfold State.collisionCheck
  simp +contextual (maxDischargeDepth := 40) only [State.Sound, State.raise_sound, State.ownRelease_sound, ite_sound,
    h_s]

theorem execCollisionCheck_sound {s : State} (h_s : s.Sound) : KeepsSound (execCollisionCheck s) := by
  intro t ht
  simp only [execCollisionCheck, Host.Outcome.next.injEq] at ht
  subst ht
  simp +contextual (maxDischargeDepth := 40) only [State.when_sound, State.collisionCheck_sound, implies_true, h_s]

theorem State.peerOwnSet_sound (level : Bool) {s : State} (h_s : s.Sound) : (State.peerOwnSet level s).Sound := by
  unfold State.peerOwnSet
  simp +contextual (maxDischargeDepth := 40) only [State.Sound, State.driveEnd_sound, State.wlvSync_sound, ite_sound,
    h_s]

theorem execPeerOwnChange_sound (level : Bool) {s : State} (h_s : s.Sound) :
    KeepsSound (execPeerOwnChange level s) := by
  intro t ht
  simp only [execPeerOwnChange, Host.Outcome.next.injEq] at ht
  subst ht
  simp +contextual (maxDischargeDepth := 40) only [State.peerOwnSet_sound, h_s]

theorem State.interlockStuck_sound {s : State} (h_s : s.Sound) : (State.interlockStuck s).Sound := by
  unfold State.interlockStuck
  simp +contextual (maxDischargeDepth := 40) only [State.raise_sound, State.spFaultCode_sound, State.wlvSync_sound,
    ite_sound, h_s]

theorem execInterlockStuck_sound {s : State} (h_s : s.Sound) : KeepsSound (execInterlockStuck s) := by
  intro t ht
  simp only [execInterlockStuck, Host.Outcome.next.injEq] at ht
  subst ht
  simp +contextual (maxDischargeDepth := 40) only [State.when_sound, State.interlockStuck_sound, implies_true, h_s]

theorem State.drill_sound {s : State} (h_s : s.Sound) : (State.drill s).Sound := by
  unfold State.drill
  simp +contextual (maxDischargeDepth := 40) only [State.wlvShot_sound, h_s]

theorem execDrill_sound {s : State} (h_s : s.Sound) : KeepsSound (execDrill s) := by
  intro t ht
  simp only [execDrill, Host.Outcome.next.injEq] at ht
  subst ht
  simp +contextual (maxDischargeDepth := 40) only [State.drill_sound, h_s]

theorem State.drillDue_sound {s : State} (h_s : s.Sound) : (State.drillDue s).Sound := by
  unfold State.drillDue
  (repeat' split) <;> simp_all +contextual (maxDischargeDepth := 40) only [State.wlvSync_sound, State.drillEnd_sound]

theorem execDrillCheckEnd_sound {s : State} (h_s : s.Sound) : KeepsSound (execDrillCheckEnd s) := by
  intro t ht
  simp only [execDrillCheckEnd, Host.Outcome.next.injEq] at ht
  subst ht
  (repeat' split) <;> simp_all +contextual (maxDischargeDepth := 40) only [State.Sound, State.when_sound,
    State.drillDue_sound, implies_true]

theorem execDrillRefused_sound {s : State} (h_s : s.Sound) : KeepsSound (execDrillRefused s) := by
  intro t ht
  simp only [execDrillRefused, Host.Outcome.next.injEq] at ht
  subst ht
  (repeat' split) <;> simp_all +contextual (maxDischargeDepth := 40) only [State.raise_sound]

theorem execRevertReady_sound {s : State} (h_s : s.Sound) : KeepsSound (execRevertReady s) := by
  intro t ht
  simp only [execRevertReady, Host.Outcome.next.injEq] at ht
  subst ht
  simp +contextual (maxDischargeDepth := 40) only [State.when_sound, State.wlvShot_sound, ite_sound, implies_true,
    h_s]

theorem State.trackClear_sound {s : State} (h_s : s.Sound) : (State.trackClear s).Sound := by
  unfold State.trackClear
  simp +contextual (maxDischargeDepth := 40) only [h_s]

theorem execTclr_sound {s : State} (h_s : s.Sound) : KeepsSound (execTclr s) := by
  intro t ht
  simp only [execTclr, Host.Outcome.next.injEq] at ht
  subst ht
  simp +contextual (maxDischargeDepth := 40) only [State.trackClear_sound, h_s]

theorem State.wlvCtlWrite_sound (v : Word) {s : State} (h_s : s.Sound) : (State.wlvCtlWrite v s).Sound := by
  unfold State.wlvCtlWrite
  simp +contextual (maxDischargeDepth := 40) only [State.trackClear_sound, State.drill_sound, State.wlvSync_sound,
    State.setReg_sound, State.when_sound, implies_true, h_s]

/-! ### Machine/Survey.lean -/

theorem State.svySnap_sound {s : State} (h_s : s.Sound) : (State.svySnap s).Sound := by
  unfold State.svySnap
  simp +contextual (maxDischargeDepth := 40) only [h_s]

theorem State.txSurveyAt_sound (p : Fin 4) (t : Nat) (body : List Byte) {s : State} (h_s : s.Sound) :
    (State.txSurveyAt p t body s).Sound := by
  unfold State.txSurveyAt
  simp +contextual (maxDischargeDepth := 40) only [State.txFrameAt_sound, h_s]

theorem State.svyStored_sound (r : SvyResult) {s : State} (h_s : s.Sound) : (State.svyStored r s).Sound := by
  unfold State.svyStored
  simp +contextual (maxDischargeDepth := 40) only [State.raise_sound, h_s]

theorem State.svyOut_sound (p : Fin 4) (t : Nat) (body : List Byte) {s : State} (h_s : s.Sound) :
    (State.svyOut p t body s).Sound := by
  unfold State.svyOut
  dsimp only
  (repeat' split) <;> simp +contextual (maxDischargeDepth := 40) only [State.Sound, State.txSurveyAt_sound,
    State.took_sound, State.svyStored_sound, h_s]

theorem State.svyReserve_sound (t need : Nat) {s : State} (h_s : s.Sound) : (State.svyReserve t need s).Sound := by
  unfold State.svyReserve
  simp +contextual (maxDischargeDepth := 40) only [h_s]

theorem State.svySend_sound (p : Fin 4) (t : Nat) (body : List Byte) {s : State} (h_s : s.Sound) :
    (State.svySend p t body s).Sound := by
  unfold State.svySend
  dsimp only
  (repeat' split) <;> simp +contextual (maxDischargeDepth := 40) only [State.svyOut_sound, State.svyReserve_sound, h_s]

theorem State.svyBegin_sound {s : State} (h_s : s.Sound) : (State.svyBegin s).Sound := by
  unfold State.svyBegin
  simp +contextual (maxDischargeDepth := 40) only [State.Sound, State.svySnap_sound, h_s]

theorem State.svyClear_sound {s : State} (h_s : s.Sound) : (State.svyClear s).Sound := by
  unfold State.svyClear
  simp +contextual (maxDischargeDepth := 40) only [h_s]

theorem State.svyDrop_sound {s : State} (h_s : s.Sound) : (State.svyDrop s).Sound := by
  unfold State.svyDrop
  simp +contextual (maxDischargeDepth := 40) only [State.Sound, State.svyClear_sound, State.raise_sound, h_s]

theorem State.svySettle_sound (cause : Option (BitVec 4)) {s : State} (h_s : s.Sound) :
    (State.svySettle cause s).Sound := by
  unfold State.svySettle
  simp +contextual (maxDischargeDepth := 40) only [State.Sound, State.svyClear_sound, State.svySnap_sound,
    State.keepBegin_sound, h_s]

theorem State.svyRequest_sound (cause : BitVec 4) {s : State} (h_s : s.Sound) : (State.svyRequest cause s).Sound := by
  unfold State.svyRequest
  simp +contextual (maxDischargeDepth := 40) only [State.svySend_sound, State.each_sound, implies_true, h_s]

theorem State.svyTrigger_sound (cause : BitVec 4) {s : State} (h_s : s.Sound) : (State.svyTrigger cause s).Sound := by
  unfold State.svyTrigger
  simp +contextual (maxDischargeDepth := 40) only [State.Sound, State.raise_sound, State.svyDrop_sound,
    State.svySettle_sound, State.svyRequest_sound, ite_sound, h_s]

theorem State.svyIdle_sound {s : State} (h_s : s.Sound) : (State.svyIdle s).Sound := by
  unfold State.svyIdle
  dsimp only
  (repeat' split) <;> simp +contextual (maxDischargeDepth := 40) only [State.Sound, State.svyClear_sound,
    State.svyTrigger_sound, h_s]

theorem State.svyPlace_sound (f : RxFrame) (h : SHdr) {s : State} (h_s : s.Sound) : (State.svyPlace f h s).Sound := by
  unfold State.svyPlace
  simp +contextual (maxDischargeDepth := 40) only [ite_sound, h_s]

theorem State.svyJoin_sound (f : RxFrame) (h : SHdr) {s : State} (h_s : s.Sound) : (State.svyJoin f h s).Sound := by
  unfold State.svyJoin
  simp +contextual (maxDischargeDepth := 40) only [State.Sound, State.svyPlace_sound, State.svyClear_sound,
    State.raise_sound, State.svyBegin_sound, State.when_sound, State.svyDrop_sound, State.keepBegin_sound, ite_sound,
    implies_true, h_s]

theorem State.svyRx_sound (f : RxFrame) (kind : Nat) (act : SHdr → State → State) {s : State}
    (h_s : s.Sound)
    (hact : ∀ h, ∀ t : State, t.Sound → (act h t).Sound) :
    (State.svyRx f kind act s).Sound := by
  have hT := State.rxFx_sound f h_s
  unfold State.svyRx
  dsimp only
  split
  · split
    · exact h_s
    · split
      · exact hT
      · exact hact _ _ (ite_sound hT hT)
  · exact hT

theorem State.svyHoldSend_sound (t : Nat) {s : State} (h_s : s.Sound) : (State.svyHoldSend t s).Sound := by
  unfold State.svyHoldSend
  dsimp only
  (repeat' split) <;> simp +contextual (maxDischargeDepth := 40) only [State.svySend_sound, h_s]

theorem State.svyHold_sound (port : Fin 4) (seek : Bool) (t : Nat) {s : State} (h_s : s.Sound) :
    (State.svyHold port seek t s).Sound := by
  unfold State.svyHold
  simp +contextual (maxDischargeDepth := 40) only [State.svyHoldSend_sound, h_s]

theorem State.svySurveyor_sound (lead : Fin 4) {s : State} (h_s : s.Sound) : (State.svySurveyor lead s).Sound := by
  unfold State.svySurveyor
  simp +contextual (maxDischargeDepth := 40) only [State.took_sound, State.svyHold_sound, h_s]

theorem State.svyInitiate_sound {s : State} (h_s : s.Sound) : (State.svyInitiate s).Sound := by
  unfold State.svyInitiate
  dsimp only
  (repeat' split) <;> simp +contextual (maxDischargeDepth := 40) only [State.Sound, State.svyClear_sound,
    State.raise_sound, State.svySurveyor_sound, State.svyHold_sound, State.svyBegin_sound, h_s]

theorem execSettleExpiry_sound {s : State} (h_s : s.Sound) : KeepsSound (execSettleExpiry s) := by
  intro t ht
  simp only [execSettleExpiry, Host.Outcome.next.injEq] at ht
  subst ht
  simp +contextual (maxDischargeDepth := 40) only [State.when_sound, State.svyInitiate_sound, implies_true, h_s]

theorem State.svyExchange_sound (f : RxFrame) (h : SHdr) (seek : Bool) (recs : List (List Byte)) {s : State} (h_s :
    s.Sound) :
    (State.svyExchange f h seek recs s).Sound := by
  unfold State.svyExchange
  simp +contextual (maxDischargeDepth := 40) only [State.Sound, State.svyReserve_sound, State.svyJoin_sound,
    State.txSurveyAt_sound, h_s]

theorem onSeek_sound (f : RxFrame) (h : SHdr) {s : State} (h_s : s.Sound) : (onSeek f h s).Sound := by
  unfold onSeek
  simp +contextual (maxDischargeDepth := 40) only [State.Sound, State.svyExchange_sound, State.svyJoin_sound,
    ite_sound, h_s]

theorem execSeek_sound (f : RxFrame) {s : State} (h_s : s.Sound) : KeepsSound (execSeek f s) := by
  intro t ht
  simp only [execSeek, Host.Outcome.next.injEq] at ht
  subst ht
  simp +contextual (maxDischargeDepth := 40) only [State.svyRx_sound, onSeek_sound, implies_true, h_s]

theorem onToken_sound (f : RxFrame) (h : SHdr) {s : State} (h_s : s.Sound) : (onToken f h s).Sound := by
  unfold onToken
  dsimp only
  (repeat' split) <;> simp +contextual (maxDischargeDepth := 40) only [State.Sound, State.svyExchange_sound,
    State.svyTrigger_sound, h_s]

theorem execToken_sound (f : RxFrame) {s : State} (h_s : s.Sound) : KeepsSound (execToken f s) := by
  intro t ht
  simp only [execToken, Host.Outcome.next.injEq] at ht
  subst ht
  simp +contextual (maxDischargeDepth := 40) only [State.svyRx_sound, onToken_sound, implies_true, h_s]

theorem onReport_sound (f : RxFrame) (h : SHdr) {s : State} (h_s : s.Sound) : (onReport f h s).Sound := by
  unfold onReport
  dsimp only
  (repeat' split) <;> simp +contextual (maxDischargeDepth := 40) only [h_s]

theorem execReport_sound (f : RxFrame) {s : State} (h_s : s.Sound) : KeepsSound (execReport f s) := by
  intro t ht
  simp only [execReport, Host.Outcome.next.injEq] at ht
  subst ht
  simp +contextual (maxDischargeDepth := 40) only [onReport_sound, State.svyRx_sound, implies_true, h_s]

theorem State.svyDup_sound {s : State} (h_s : s.Sound) : (State.svyDup s).Sound := by
  unfold State.svyDup
  simp +contextual (maxDischargeDepth := 40) only [State.Sound, State.svyClear_sound, State.spFaultCode_sound,
    State.raise_sound, State.wlvSync_sound, h_s]

theorem onPass_sound (f : RxFrame) (h : SHdr) {s : State} (h_s : s.Sound) : (onPass f h s).Sound := by
  unfold onPass
  dsimp only
  (repeat' split) <;> simp +contextual (maxDischargeDepth := 40) only [State.svyHold_sound, State.svyDup_sound, h_s]

theorem execPass_sound (f : RxFrame) {s : State} (h_s : s.Sound) : KeepsSound (execPass f s) := by
  intro t ht
  simp only [execPass, Host.Outcome.next.injEq] at ht
  subst ht
  simp +contextual (maxDischargeDepth := 40) only [State.svyRx_sound, onPass_sound, implies_true, h_s]

theorem State.svyPublishTabs_sound (chain : Vector Word 32) (nids : Vector Word 64) {s : State} (h_s : s.Sound) :
    (State.svyPublishTabs chain nids s).Sound := by
  unfold State.svyPublishTabs
  simp +contextual (maxDischargeDepth := 40) only [State.svySend_sound, h_s]

theorem State.svyPublishHw_sound {s : State} (h_s : s.Sound) : (State.svyPublishHw s).Sound := by
  unfold State.svyPublishHw
  simp +contextual (maxDischargeDepth := 40) only [State.svyPublishTabs_sound, h_s]

theorem State.svyDecide_sound (recs : List (List Byte)) {s : State} (h_s : s.Sound) :
    (State.svyDecide recs s).Sound := by
  unfold State.svyDecide
  simp +contextual (maxDischargeDepth := 40) only [State.Sound, State.svyPublishHw_sound, State.raise_sound,
    ite_sound, h_s]

theorem State.svyPublish_sound {s : State} (h_s : s.Sound) : (State.svyPublish s).Sound := by
  unfold State.svyPublish
  dsimp only
  (repeat' split) <;> simp +contextual (maxDischargeDepth := 40) only [State.svyPublishHw_sound, State.raise_sound,
    State.svyPublishTabs_sound, h_s]

theorem execSvyPublish_sound {s : State} (h_s : s.Sound) : KeepsSound (execSvyPublish s) := by
  intro t ht
  simp only [execSvyPublish, Host.Outcome.next.injEq] at ht
  subst ht
  simp +contextual (maxDischargeDepth := 40) only [State.svyPublish_sound, h_s]

theorem execHostDeadline_sound {s : State} (h_s : s.Sound) : KeepsSound (execHostDeadline s) := by
  intro t ht
  simp only [execHostDeadline, Host.Outcome.next.injEq] at ht
  subst ht
  simp +contextual (maxDischargeDepth := 40) only [State.when_sound, State.raise_sound, State.svyPublishHw_sound,
    ite_sound, implies_true, h_s]

theorem State.svyNoCarrier_sound (x : SvyHold) {s : State} (h_s : s.Sound) : (State.svyNoCarrier x s).Sound := by
  unfold State.svyNoCarrier
  dsimp only
  (repeat' split) <;> simp +contextual (maxDischargeDepth := 40) only [State.Sound, State.raise_sound,
    State.svyDecide_sound, State.svySurveyor_sound, State.svySend_sound, h_s]

theorem State.svySlotEnd_sound (carrierA carrierB : Bool) {s : State} (h_s : s.Sound) :
    (State.svySlotEnd carrierA carrierB s).Sound := by
  unfold State.svySlotEnd
  dsimp only
  (repeat' split) <;> simp +contextual (maxDischargeDepth := 40) only [State.Sound, State.svyOut_sound,
    State.svyHoldSend_sound, State.svyNoCarrier_sound, h_s]

theorem execReportSlotEnd_sound (carrierA carrierB : Bool) {s : State} (h_s : s.Sound) :
    KeepsSound (execReportSlotEnd carrierA carrierB s) := by
  intro t ht
  simp only [execReportSlotEnd, Host.Outcome.next.injEq] at ht
  subst ht
  simp +contextual (maxDischargeDepth := 40) only [State.svySlotEnd_sound, State.when_sound, implies_true, h_s]

theorem State.svyBypass_sound {s : State} (h_s : s.Sound) : (State.svyBypass s).Sound := by
  unfold State.svyBypass
  dsimp only
  (repeat' split) <;> simp +contextual (maxDischargeDepth := 40) only [State.svyHoldSend_sound, h_s]

theorem execDupBypassWait_sound {s : State} (h_s : s.Sound) : KeepsSound (execDupBypassWait s) := by
  intro t ht
  simp only [execDupBypassWait, Host.Outcome.next.injEq] at ht
  subst ht
  simp +contextual (maxDischargeDepth := 40) only [State.when_sound, State.svyBypass_sound, implies_true, h_s]

theorem State.svyPassedBy_sound (f : RxFrame) (h : SHdr) (i : Nat) (orient : Bool) (recs : List (List Byte)) {s :
    State} (h_s : s.Sound) :
    (State.svyPassedBy f h i orient recs s).Sound := by
  unfold State.svyPassedBy
  simp +contextual (maxDischargeDepth := 40) only [State.Sound, State.svyJoin_sound, h_s]

theorem onTally_sound (f : RxFrame) (h : SHdr) {s : State} (h_s : s.Sound) : (onTally f h s).Sound := by
  unfold onTally
  dsimp only
  (repeat' split) <;> simp +contextual (maxDischargeDepth := 40) only [State.svyDecide_sound, State.svyPassedBy_sound,
    State.svySend_sound, h_s]

theorem execTally_sound (f : RxFrame) {s : State} (h_s : s.Sound) : KeepsSound (execTally f s) := by
  intro t ht
  simp only [execTally, Host.Outcome.next.injEq] at ht
  subst ht
  simp +contextual (maxDischargeDepth := 40) only [State.svyRx_sound, onTally_sound, implies_true, h_s]

theorem State.svyConfirmSend_sound (w : SvyWalk) (bits : Dword) {s : State} (h_s : s.Sound) :
    (State.svyConfirmSend w bits s).Sound := by
  unfold State.svyConfirmSend
  simp +contextual (maxDischargeDepth := 40) only [State.svySend_sound, h_s]

theorem State.svyLone_sound (f : RxFrame) (h : SHdr) {s : State} (h_s : s.Sound) : (State.svyLone f h s).Sound := by
  unfold State.svyLone
  simp +contextual (maxDischargeDepth := 40) only [State.Sound, State.svyPassedBy_sound, ite_sound, h_s]

theorem onResult_sound (f : RxFrame) (h : SHdr) {s0 : State} (h_s0 : s0.Sound) : (onResult f h s0).Sound := by
  unfold onResult
  dsimp only
  (repeat' split) <;> simp +contextual (maxDischargeDepth := 40) only [State.svyConfirmSend_sound,
    State.svyStored_sound, State.took_sound, State.svySend_sound, State.svyLone_sound, h_s0]

theorem execResult_sound (f : RxFrame) {s : State} (h_s : s.Sound) : KeepsSound (execResult f s) := by
  intro t ht
  simp only [execResult, Host.Outcome.next.injEq] at ht
  subst ht
  simp +contextual (maxDischargeDepth := 40) only [State.svyRx_sound, onResult_sound, implies_true, h_s]

theorem onConfirm_sound (f : RxFrame) (h : SHdr) {s : State} (h_s : s.Sound) : (onConfirm f h s).Sound := by
  unfold onConfirm
  dsimp only
  (repeat' split) <;> simp +contextual (maxDischargeDepth := 40) only [State.took_sound, State.svyConfirmSend_sound,
    h_s]

theorem execConfirm_sound (f : RxFrame) {s : State} (h_s : s.Sound) : KeepsSound (execConfirm f s) := by
  intro t ht
  simp only [execConfirm, Host.Outcome.next.injEq] at ht
  subst ht
  simp +contextual (maxDischargeDepth := 40) only [State.svyRx_sound, onConfirm_sound, implies_true, h_s]

theorem State.svyRetry_sound {s : State} (h_s : s.Sound) : (State.svyRetry s).Sound := by
  unfold State.svyRetry
  simp +contextual (maxDischargeDepth := 40) only [State.Sound, State.svyClear_sound, State.svyIdle_sound,
    State.raise_sound, ite_sound, h_s]

theorem State.svyAbortSend_sound {s : State} (h_s : s.Sound) : (State.svyAbortSend s).Sound := by
  unfold State.svyAbortSend
  simp +contextual (maxDischargeDepth := 40) only [State.raise_sound, State.svyRetry_sound, State.svySend_sound, h_s]

theorem execConfirmDeadline_sound {s : State} (h_s : s.Sound) : KeepsSound (execConfirmDeadline s) := by
  intro t ht
  simp only [execConfirmDeadline, Host.Outcome.next.injEq] at ht
  subst ht
  simp +contextual (maxDischargeDepth := 40) only [State.when_sound, State.svyAbortSend_sound, ite_sound,
    implies_true, h_s]

theorem onAbort_sound (f : RxFrame) (h : SHdr) {s : State} (h_s : s.Sound) : (onAbort f h s).Sound := by
  unfold onAbort
  dsimp only
  (repeat' split) <;> simp +contextual (maxDischargeDepth := 40) only [State.raise_sound, State.svyIdle_sound,
    State.svySend_sound, h_s]

theorem execSurveyAbort_sound (f : RxFrame) {s : State} (h_s : s.Sound) : KeepsSound (execSurveyAbort f s) := by
  intro t ht
  simp only [execSurveyAbort, Host.Outcome.next.injEq] at ht
  subst ht
  simp +contextual (maxDischargeDepth := 40) only [State.svyRx_sound, onAbort_sound, implies_true, h_s]

theorem State.surveyLate_sound {s : State} (h_s : s.Sound) : (State.surveyLate s).Sound := by
  unfold State.surveyLate
  (repeat' split) <;> simp_all +contextual (maxDischargeDepth := 40) only [State.svyIdle_sound, State.svyRetry_sound]

theorem execSurveyTimeout_sound {s : State} (h_s : s.Sound) : KeepsSound (execSurveyTimeout s) := by
  intro t ht
  simp only [execSurveyTimeout, Host.Outcome.next.injEq] at ht
  subst ht
  (repeat' split) <;> simp_all +contextual (maxDischargeDepth := 40) only [State.Sound, State.when_sound,
    State.surveyLate_sound, implies_true]

theorem State.svyDeferredOne_sound (d : Fin 4 × List Byte) {s : State} (h_s : s.Sound) :
    (State.svyDeferredOne d s).Sound := by
  unfold State.svyDeferredOne
  simp +contextual (maxDischargeDepth := 40) only [State.svyOut_sound, State.svyReserve_sound, State.svySend_sound,
    ite_sound, h_s]

theorem State.svyDeferred_sound {s : State} (h_s : s.Sound) : (State.svyDeferred s).Sound := by
  unfold State.svyDeferred
  simp +contextual (maxDischargeDepth := 40) only [State.each_sound, State.svyDeferredOne_sound, implies_true, h_s]

theorem execSurveyDeferredSend_sound {s : State} (h_s : s.Sound) : KeepsSound (execSurveyDeferredSend s) := by
  intro t ht
  simp only [execSurveyDeferredSend, Host.Outcome.next.injEq] at ht
  subst ht
  simp +contextual (maxDischargeDepth := 40) only [State.svyDeferred_sound, State.when_sound, implies_true, h_s]

theorem execBeaconTimer_sound (p : Fin 4) {s : State} (h_s : s.Sound) : KeepsSound (execBeaconTimer p s) := by
  intro t ht
  simp only [execBeaconTimer, Host.Outcome.next.injEq] at ht
  subst ht
  simp +contextual (maxDischargeDepth := 40) only [State.when_sound, State.svySend_sound, ite_sound, implies_true,
    h_s]

theorem onBeacon_sound (f : RxFrame) (h : SHdr) {s : State} (h_s : s.Sound) : (onBeacon f h s).Sound := by
  unfold onBeacon
  simp +contextual (maxDischargeDepth := 40) only [State.svyTrigger_sound, ite_sound, h_s]

theorem execBeacon_sound (f : RxFrame) {s : State} (h_s : s.Sound) : KeepsSound (execBeacon f s) := by
  intro t ht
  simp only [execBeacon, Host.Outcome.next.injEq] at ht
  subst ht
  simp +contextual (maxDischargeDepth := 40) only [State.svyRx_sound, onBeacon_sound, implies_true, h_s]

theorem onRequest_sound (f : RxFrame) (h : SHdr) {s : State} (h_s : s.Sound) : (onRequest f h s).Sound := by
  unfold onRequest
  dsimp only
  (repeat' split) <;> simp +contextual (maxDischargeDepth := 40) only [State.svySettle_sound, State.svySend_sound, h_s]

theorem execRequest_sound (f : RxFrame) {s : State} (h_s : s.Sound) : KeepsSound (execRequest f s) := by
  intro t ht
  simp only [execRequest, Host.Outcome.next.injEq] at ht
  subst ht
  simp +contextual (maxDischargeDepth := 40) only [onRequest_sound, State.svyRx_sound, implies_true, h_s]

theorem execSvyStart_sound {s : State} (h_s : s.Sound) : KeepsSound (execSvyStart s) := by
  intro t ht
  simp only [execSvyStart, Host.Outcome.next.injEq] at ht
  subst ht
  simp +contextual (maxDischargeDepth := 40) only [State.svyTrigger_sound, h_s]

theorem execSvyFull_sound {s : State} (h_s : s.Sound) : KeepsSound (execSvyFull s) := by
  intro t ht
  simp only [execSvyFull, Host.Outcome.next.injEq] at ht
  subst ht
  simp +contextual (maxDischargeDepth := 40) only [h_s]

theorem State.svyAbortCtl_sound {s : State} (h_s : s.Sound) : (State.svyAbortCtl s).Sound := by
  unfold State.svyAbortCtl
  simp +contextual (maxDischargeDepth := 40) only [State.svyAbortSend_sound, ite_sound, h_s]

theorem execSvyAbort_sound {s : State} (h_s : s.Sound) : KeepsSound (execSvyAbort s) := by
  intro t ht
  simp only [execSvyAbort, Host.Outcome.next.injEq] at ht
  subst ht
  simp +contextual (maxDischargeDepth := 40) only [State.svyAbortCtl_sound, h_s]

theorem State.svyCtlWrite_sound (v : Word) {s : State} (h_s : s.Sound) : (State.svyCtlWrite v s).Sound := by
  unfold State.svyCtlWrite
  simp +contextual (maxDischargeDepth := 40) only [State.Sound, State.svyAbortCtl_sound, State.when_sound,
    State.svyTrigger_sound, State.svyPublish_sound, State.setReg_sound, ite_sound, implies_true, h_s]

theorem State.svyTake_sound (r : SvyResult) {s : State} (h_s : s.Sound) : (State.svyTake r s).Sound := by
  unfold State.svyTake
  simp +contextual (maxDischargeDepth := 40) only [State.raise_sound, State.raiseIf_sound, h_s]

theorem State.joinSend_sound {s : State} (h_s : s.Sound) : (State.joinSend s).Sound := by
  unfold State.joinSend
  simp +contextual (maxDischargeDepth := 40) only [State.each_sound, State.sendLocal_sound, implies_true, h_s]

theorem onJoin_sound (f : RxFrame) (_h : RHdr) (_b : List Byte) {s : State} (h_s : s.Sound) :
    (onJoin f _h _b s).Sound := by
  unfold onJoin
  simp +contextual (maxDischargeDepth := 40) only [State.sendLocal_sound, ite_sound, h_s]

theorem execJoin_sound (f : RxFrame) {s : State} (h_s : s.Sound) : KeepsSound (execJoin f s) := by
  intro t ht
  simp only [execJoin, Host.Outcome.next.injEq] at ht
  subst ht
  exact State.roadRx_sound f _ h_s fun g h u hu => onJoin_sound g h (roadPayload g.body) (State.count1_sound 4 14 hu)

theorem execLatecomerNoAnswer_sound {s : State} (h_s : s.Sound) : KeepsSound (execLatecomerNoAnswer s) := by
  intro t ht
  simp only [execLatecomerNoAnswer, Host.Outcome.next.injEq] at ht
  subst ht
  simp +contextual (maxDischargeDepth := 40) only [State.when_sound, State.svyTrigger_sound, ite_sound, implies_true,
    h_s]

/-! ### Machine/Table.lean -/

theorem State.sendParity_sound {s : State} (h_s : s.Sound) : (State.sendParity s).Sound := by
  unfold State.sendParity
  simp +contextual (maxDischargeDepth := 40) only [State.parityFx_sound, State.each_sound, ite_sound, implies_true,
    h_s]

theorem State.commitTake_sound {s : State} (h_s : s.Sound) : (State.commitTake s).Sound := by
  unfold State.commitTake
  simp +contextual (maxDischargeDepth := 40) only [State.Sound, State.raise_sound, State.wordReads_sound,
    State.bufWrite_sound, ite_sound, h_s]

theorem State.readSlot_sound (epoch : Byte) (tcount : Word) (body : List Byte) (ofs i : Nat) (e : Word) {s : State}
    (h_s : s.Sound) :
    (State.readSlot epoch tcount body ofs i e s).Sound := by
  unfold State.readSlot
  simp +contextual (maxDischargeDepth := 40) only [State.Sound, State.standingSeen_sound, State.bufWrite_sound,
    ite_sound, h_s]

theorem State.readPass_sound (tmi : Nat) (epoch : Byte) (tcount : Word) (body : List Byte) {s : State} (h_s : s.Sound)
    :
    (State.readPass tmi epoch tcount body s).Sound := by
  unfold State.readPass
  simp +contextual (maxDischargeDepth := 40) only [State.readSlot_sound, State.each_sound, State.raiseIf_sound,
    ite_sound, implies_true, h_s]

theorem State.latestTake_sound {s : State} (h_s : s.Sound) : (State.latestTake s).Sound := by
  have hT := State.each_sound (l := s.entries.filter fun x => s.tre.liveok.getLsbD x.1) h_s
    (f := fun x u => (u.wordReads (0x40049000 + imgOfs s.tre.table x.1) (entLen x.2)).bufWrite
      (0x4004A000 + imgOfs s.tre.table x.1) (u.bytesAt (0x40049000 + imgOfs s.tre.table x.1) (entLen x.2)))
    (fun _ _ ht => State.bufWrite_sound _ _ (State.wordReads_sound _ _ ht))
  exact hT

theorem State.freeze_sound {s : State} (h_s : s.Sound) : (State.freeze s).Sound := by
  have hT := State.bufWrite_sound 0x4004B000 (s.bytesAt 0x4004A000 4096) (State.wordReads_sound 0x4004A000 4096 h_s)
  generalize hb : State.bufWrite 0x4004B000 (s.bytesAt 0x4004A000 4096) (s.wordReads 0x4004A000 4096) = t at hT
  have he : s.freeze = { t with tre.frzok := t.tre.rxok } := by unfold State.freeze; rw [hb]
  rw [he]
  exact hT

theorem State.claimRx_sound (nid : BitVec 6) (len8 user : Nat) {s : State} (h_s : s.Sound) :
    (State.claimRx nid len8 user s).Sound := by
  unfold State.claimRx
  refine ite_sound h_s (ite_sound ?_ ?_)
  · split
    · refine Contained.withClaims h_s (s.tre.claims ++ [_]) ?_
      rw [List.length_append]
      exact Nat.succ_le_of_lt ‹_›
    · exact h_s
  · dsimp only
    (repeat' split) <;> exact h_s

theorem State.claimSend_sound {s : State} (h_s : s.Sound) : (State.claimSend s).Sound := by
  unfold State.claimSend
  dsimp only
  (repeat' split) <;> simp +contextual (maxDischargeDepth := 40) only [State.sendMgmt_sound, State.raise_sound,
    State.each_sound, State.claimRx_sound, ite_sound, implies_true, h_s]

theorem State.claimStart_sound {s : State} (h_s : s.Sound) : (State.claimStart s).Sound := by
  unfold State.claimStart
  simp +contextual (maxDischargeDepth := 40) only [State.claimSend_sound, ite_sound, h_s]

theorem State.entriesStart_sound {s : State} (h_s : s.Sound) : (State.entriesStart s).Sound := by
  unfold State.entriesStart
  simp +contextual (maxDischargeDepth := 40) only [State.claimStart_sound, ite_sound, h_s]

theorem State.claimFollow_sound (had : Bool) {s : State} (h_s : s.Sound) : (State.claimFollow had s).Sound := by
  unfold State.claimFollow
  simp +contextual (maxDischargeDepth := 40) only [State.claimStart_sound, ite_sound, h_s]

theorem State.editApply_sound (i seq : Byte) (e : Word) {s : State} (h_s : s.Sound) :
    (State.editApply i seq e s).Sound := by
  unfold State.editApply
  simp +contextual (maxDischargeDepth := 40) only [State.Sound, State.raise_sound, State.raiseIf_sound,
    State.claimFollow_sound, ite_sound, h_s]

theorem State.tableAsk_sound {s : State} (h_s : s.Sound) : (State.tableAsk s).Sound := by
  unfold State.tableAsk
  simp +contextual (maxDischargeDepth := 40) only [State.sendMgmt_sound, ite_sound, h_s]

theorem State.tabCheck_sound (seq : Byte) (crc : Option Half) {s : State} (h_s : s.Sound) :
    (State.tabCheck seq crc s).Sound := by
  unfold State.tabCheck
  simp +contextual (maxDischargeDepth := 40) only [State.entriesStart_sound, State.raise_sound, State.tableAsk_sound,
    ite_sound, h_s]

theorem State.tablePrune_sound {s : State} (h_s : s.Sound) : (State.tablePrune s).Sound := by
  unfold State.tablePrune
  simp +contextual (maxDischargeDepth := 40) only [h_s]

theorem State.designLoad_sound {s : State} (h_s : s.Sound) : (State.designLoad s).Sound := by
  unfold State.designLoad
  dsimp only
  (repeat' split) <;> simp +contextual (maxDischargeDepth := 40) only [h_s]

theorem State.tableBroadcast_sound {s : State} (h_s : s.Sound) : (State.tableBroadcast s).Sound := by
  unfold State.tableBroadcast
  simp +contextual (maxDischargeDepth := 40) only [State.sendMgmtAll_sound, ite_sound, h_s]

theorem execCommit_sound {s : State} (h_s : s.Sound) : KeepsSound (execCommit s) := by
  intro t ht
  simp only [execCommit, Host.Outcome.next.injEq] at ht
  subst ht
  simp +contextual (maxDischargeDepth := 40) only [h_s]

theorem onTableRequest_sound (_f : RxFrame) (_h : RHdr) (_b : List Byte) {s : State} (h_s : s.Sound) :
    (onTableRequest _f _h _b s).Sound := by
  unfold onTableRequest
  simp +contextual (maxDischargeDepth := 40) only [State.tableBroadcast_sound, ite_sound, h_s]

theorem execTableRequest_sound (f : RxFrame) {s : State} (h_s : s.Sound) : KeepsSound (execTableRequest f s) := by
  intro t ht
  simp only [execTableRequest, Host.Outcome.next.injEq] at ht
  subst ht
  exact State.roadRx_sound f _ h_s fun g h u hu => onTableRequest_sound g h (roadPayload g.body) (State.count1_sound 4
    14 hu)

theorem execTableRequestRepeat_sound {s : State} (h_s : s.Sound) : KeepsSound (execTableRequestRepeat s) := by
  intro t ht
  simp only [execTableRequestRepeat, Host.Outcome.next.injEq] at ht
  subst ht
  simp +contextual (maxDischargeDepth := 40) only [State.when_sound, State.tableAsk_sound, ite_sound, implies_true,
    h_s]

theorem onTable_sound (_f : RxFrame) (_h : RHdr) (b : List Byte) {s : State} (h_s : s.Sound) :
    (onTable _f _h b s).Sound := by
  unfold onTable
  simp +contextual (maxDischargeDepth := 40) only [State.raise_sound, ite_sound, h_s]

theorem execTable_sound (f : RxFrame) {s : State} (h_s : s.Sound) : KeepsSound (execTable f s) := by
  intro t ht
  simp only [execTable, Host.Outcome.next.injEq] at ht
  subst ht
  exact State.roadRx_sound f _ h_s fun g h u hu => onTable_sound g h (roadPayload g.body) (State.count1_sound 4 14 hu)

theorem onClaim_sound (_f : RxFrame) (_h : RHdr) (b : List Byte) {s : State} (h_s : s.Sound) :
    (onClaim _f _h b s).Sound := by
  unfold onClaim
  simp +contextual (maxDischargeDepth := 40) only [State.claimRx_sound, h_s]

theorem execClaim_sound (f : RxFrame) {s : State} (h_s : s.Sound) : KeepsSound (execClaim f s) := by
  intro t ht
  simp only [execClaim, Host.Outcome.next.injEq] at ht
  subst ht
  exact State.roadRx_sound f _ h_s fun g h u hu => onClaim_sound g h (roadPayload g.body) (State.count1_sound 4 14 hu)

theorem execClaimRetry_sound {s : State} (h_s : s.Sound) : KeepsSound (execClaimRetry s) := by
  intro t ht
  simp only [execClaimRetry, Host.Outcome.next.injEq] at ht
  subst ht
  simp +contextual (maxDischargeDepth := 40) only [State.when_sound, State.claimSend_sound, State.raise_sound,
    ite_sound, implies_true, h_s]

theorem State.editWrite_sound (v : Word) {s : State} (h_s : s.Sound) : (State.editWrite v s).Sound := by
  unfold State.editWrite
  simp +contextual (maxDischargeDepth := 40) only [ite_sound, h_s]

theorem execTableEdit_sound (v : Word) {s : State} (h_s : s.Sound) : KeepsSound (execTableEdit v s) := by
  intro t ht
  simp only [execTableEdit, Host.Outcome.next.injEq] at ht
  subst ht
  simp +contextual (maxDischargeDepth := 40) only [State.editWrite_sound, h_s]

theorem State.claimPop_sound {s : State} (h_s : s.Sound) : (State.claimPop s).Sound := by
  refine Contained.withClaims h_s (s.tre.claims.drop 1) ?_
  have := Contained.claimsLe h_s
  rw [List.length_drop]
  omega

/-! ### Machine/Traverse.lean -/

theorem State.tick_sound {s : State} (h_s : s.Sound) : (State.tick s).Sound := by
  unfold State.tick
  simp +contextual (maxDischargeDepth := 40) only [ite_sound, h_s]

theorem State.mute_sound {s : State} (h_s : s.Sound) : (State.mute s).Sound := by
  unfold State.mute
  simp +contextual (maxDischargeDepth := 40) only [State.raise_sound, State.revCheck_sound, h_s]

theorem State.unmute_sound {s : State} (h_s : s.Sound) : (State.unmute s).Sound := by
  unfold State.unmute
  simp +contextual (maxDischargeDepth := 40) only [State.raise_sound, h_s]

theorem State.syncStep_sound (off : Int) {s : State} (h_s : s.Sound) : (State.syncStep off s).Sound := by
  unfold State.syncStep
  dsimp only
  (repeat' split) <;> simp +contextual (maxDischargeDepth := 40) only [State.mute_sound, State.raise_sound,
    State.unmute_sound, State.revCheck_sound, h_s]

theorem State.timeTransfer_sound (off : Int) {s : State} (h_s : s.Sound) : (State.timeTransfer off s).Sound := by
  unfold State.timeTransfer
  simp +contextual (maxDischargeDepth := 40) only [State.raise_sound, ite_sound, h_s]

theorem State.latSet_sound (check : Bool) (latofs : Nat) {s : State} (h_s : s.Sound) :
    (State.latSet check latofs s).Sound := by
  unfold State.latSet
  simp +contextual (maxDischargeDepth := 40) only [State.raiseIf_sound, h_s]

theorem State.latTake_sound (check : Bool) {s : State} (h_s : s.Sound) : (State.latTake check s).Sound := by
  unfold State.latTake
  dsimp only
  (repeat' split) <;> simp +contextual (maxDischargeDepth := 40) only [State.latSet_sound, h_s]

theorem State.tabFollow_sound (h : THdr) (mil : Option (List Byte)) {s : State} (h_s : s.Sound) :
    (State.tabFollow h mil s).Sound := by
  unfold State.tabFollow
  dsimp only
  (repeat' split) <;> simp +contextual (maxDischargeDepth := 40) only [State.tabCheck_sound, State.editApply_sound, h_s]

theorem State.ringFollow_sound (tmi : Nat) {s : State} (h_s : s.Sound) : (State.ringFollow tmi s).Sound := by
  unfold State.ringFollow
  simp +contextual (maxDischargeDepth := 40) only [State.raiseIf_sound, ite_sound, h_s]

theorem State.ringValues_sound (h : THdr) (m : List Byte) {s : State} (h_s : s.Sound) :
    (State.ringValues h m s).Sound := by
  unfold State.ringValues
  simp +contextual (maxDischargeDepth := 40) only [State.latSet_sound, h_s]

theorem State.milestone_sound (h : THdr) (m : List Byte) (tmi tsrx hop : Nat) {s : State} (h_s : s.Sound) :
    (State.milestone h m tmi tsrx hop s).Sound := by
  unfold State.milestone
  simp +contextual (maxDischargeDepth := 40) only [State.syncStep_sound, State.ringValues_sound,
    State.ringFollow_sound, State.timeTransfer_sound, State.byteTake_sound, State.raise_sound, State.tabFollow_sound,
    h_s]

theorem State.sendOwn_sound (p : Fin 4) (start : Dword) (tmi len : Nat) (pass : Bool) (tcount : Word) {s : State} (h_s
    : s.Sound) :
    (State.sendOwn p start tmi len pass tcount s).Sound := by
  unfold State.sendOwn
  simp +contextual (maxDischargeDepth := 40) only [State.emit_sound, State.modPort_sound, State.sendParity_sound,
    ite_sound, h_s]

theorem State.sendPass_sound (p : Fin 4) (start : Dword) (tmi : Nat) (pass bad writes : Bool) (body : List Byte) {s :
    State} (h_s : s.Sound) :
    (State.sendPass p start tmi pass bad writes body s).Sound := by
  unfold State.sendPass
  simp +contextual (maxDischargeDepth := 40) only [State.sendParity_sound, State.when_sound, State.raiseIf_sound,
    State.txFrameAt_sound, implies_true, h_s]

theorem State.returned_sound (ok : Bool) (tsrx : Nat) {s : State} (h_s : s.Sound) :
    (State.returned ok tsrx s).Sound := by
  unfold State.returned
  simp +contextual (maxDischargeDepth := 40) only [ite_sound, h_s]

theorem State.effSet_sound {s : State} (h_s : s.Sound) : (State.effSet s).Sound := by
  unfold State.effSet
  simp +contextual (maxDischargeDepth := 40) only [State.raiseIf_sound, h_s]

theorem State.editsStep_sound {s : State} (h_s : s.Sound) : (State.editsStep s).Sound := by
  unfold State.editsStep
  dsimp only
  (repeat' split) <;> simp +contextual (maxDischargeDepth := 40) only [State.Sound, State.raise_sound,
    State.editApply_sound, h_s]

theorem State.traverseSend_sound (beside : Option (List Byte)) {s : State} (h_s : s.Sound) :
    (State.traverseSend beside s).Sound := by
  unfold State.traverseSend
  simp +contextual (maxDischargeDepth := 40) only [State.Sound, State.readPass_sound, State.sendPass_sound,
    State.returned_sound, State.raiseIf_sound, ite_sound, h_s]

theorem State.benchT0_sound (beside : Option (List Byte)) {s : State} (h_s : s.Sound) :
    (State.benchT0 beside s).Sound := by
  unfold State.benchT0
  simp +contextual (maxDischargeDepth := 40) only [State.editsStep_sound, State.syncStep_sound,
    State.traverseSend_sound, State.raise_sound, State.byteTake_sound, State.wlvCycle_sound, State.effSet_sound,
    ite_sound, h_s]

theorem execT0_sound (beside : Option (List Byte)) {s : State} (h_s : s.Sound) : KeepsSound (execT0 beside s) := by
  intro t ht
  simp only [execT0, Host.Outcome.next.injEq] at ht
  subst ht
  simp +contextual (maxDischargeDepth := 40) only [State.when_sound, State.benchT0_sound, ite_sound, implies_true,
    h_s]

theorem State.splitHand_sound (old : BitVec 10) {s : State} (h_s : s.Sound) : (State.splitHand old s).Sound := by
  have hA := Contained.withClaims h_s [] (Nat.zero_le _)
  unfold State.splitHand
  dsimp only
  (repeat' split) <;> first | exact hA | exact h_s

theorem State.splitTake_sound {s : State} (h_s : s.Sound) : (State.splitTake s).Sound := by
  unfold State.splitTake
  simp +contextual (maxDischargeDepth := 40) only [State.splitHand_sound, State.raiseIf_sound, h_s]

theorem State.tableAdopt_sound {s : State} (h_s : s.Sound) : (State.tableAdopt s).Sound := by
  unfold State.tableAdopt
  dsimp only
  (repeat' split) <;> simp +contextual (maxDischargeDepth := 40) only [State.entriesStart_sound,
    State.claimFollow_sound, h_s]

theorem State.predict_sound {s : State} (h_s : s.Sound) : (State.predict s).Sound := by
  unfold State.predict
  simp +contextual (maxDischargeDepth := 40) only [ite_sound, h_s]

theorem State.rolesTake_sound {s : State} (h_s : s.Sound) : (State.rolesTake s).Sound := by
  unfold State.rolesTake
  dsimp only
  (repeat' split) <;> simp +contextual (maxDischargeDepth := 40) only [State.raiseIf_sound, h_s]

theorem State.localT0_sound {s : State} (h_s : s.Sound) : (State.localT0 s).Sound := by
  unfold State.localT0
  simp +contextual (maxDischargeDepth := 40) only [State.Sound, State.predict_sound, State.cairnAuto_sound,
    State.roadClose_sound, State.wlvSync_sound, State.splitTake_sound, State.commitTake_sound, State.rolesTake_sound,
    State.dmaFire_sound, State.tableAdopt_sound, h_s]

theorem execLocalT0_sound {s : State} (h_s : s.Sound) : KeepsSound (execLocalT0 s) := by
  intro t ht
  simp only [execLocalT0, Host.Outcome.next.injEq] at ht
  subst ht
  simp +contextual (maxDischargeDepth := 40) only [State.when_sound, State.localT0_sound, implies_true, h_s]

theorem State.standCheck_sound (p : Fin 4) (h : THdr) {s : State} (h_s : s.Sound) : (State.standCheck p h s).Sound := by
  unfold State.standCheck
  simp +contextual (maxDischargeDepth := 40) only [State.raise_sound, ite_sound, h_s]

theorem State.trvPass_sound (f : RxFrame) (beside : Option (List Byte)) (path : TrvPath) (hdrOk bad : Bool) (tcount :
    Word) {s : State} (h_s : s.Sound) :
    (State.trvPass f beside path hdrOk bad tcount s).Sound := by
  unfold State.trvPass
  dsimp only
  (repeat' split) <;> simp +contextual (maxDischargeDepth := 40) only [State.readPass_sound, State.sendPass_sound,
    State.sendOwn_sound, State.returned_sound, State.raiseIf_sound, h_s]

theorem State.trvFree_sound (f : RxFrame) (h : THdr) (m : List Byte) (good : Bool) {s : State} (h_s : s.Sound) :
    (State.trvFree f h m good s).Sound := by
  unfold State.trvFree
  simp +contextual (maxDischargeDepth := 40) only [State.milestone_sound, ite_sound, h_s]

theorem State.trvOwn_sound (f : RxFrame) (beside : Option (List Byte)) (h : THdr) (m : List Byte) (hdrOk milOk bad :
    Bool) {s : State} (h_s : s.Sound) :
    (State.trvOwn f beside h m hdrOk milOk bad s).Sound := by
  unfold State.trvOwn
  (repeat' split) <;> simp_all +contextual (maxDischargeDepth := 40) only [State.byteTake_sound, State.trvPass_sound,
    State.standCheck_sound, State.milestone_sound, State.svyTrigger_sound, State.tabFollow_sound, ite_sound]

theorem State.trvRx_sound (f : RxFrame) (beside : Option (List Byte)) {s : State} (h_s : s.Sound) :
    (State.trvRx f beside s).Sound := by
  unfold State.trvRx
  extract_lets cls listens t h hdrOk m epoch bench tcount milOk u v
  have hT : t.Sound := State.rxFx_sound f h_s
  have hU : u.Sound := State.raiseIf_sound _ _ (State.raiseIf_sound _ _ hT)
  have hV : v.Sound := ite_sound (State.modPort_sound _ _ hU) hU
  exact ite_sound h_s (ite_sound hT (ite_sound (State.trvFree_sound _ _ _ _ hV) (ite_sound (State.trvOwn_sound _ _ _ _
    _ _ _ hV) hV)))

theorem State.closure_sound {s : State} (h_s : s.Sound) : (State.closure s).Sound := by
  unfold State.closure
  dsimp only
  (repeat' split) <;> simp +contextual (maxDischargeDepth := 40) only [State.raise_sound, h_s]

theorem State.coveredCheck_sound {s : State} (h_s : s.Sound) : (State.coveredCheck s).Sound := by
  unfold State.coveredCheck
  simp +contextual (maxDischargeDepth := 40) only [ite_sound, h_s]

theorem State.watchPass_sound {s : State} (h_s : s.Sound) : (State.watchPass s).Sound := by
  unfold State.watchPass
  dsimp only
  (repeat' split) <;> simp +contextual (maxDischargeDepth := 40) only [h_s]

theorem State.giveBack_sound {s : State} (h_s : s.Sound) : (State.giveBack s).Sound := by
  unfold State.giveBack
  simp +contextual (maxDischargeDepth := 40) only [ite_sound, h_s]

theorem State.muteMark_sound {s : State} (h_s : s.Sound) : (State.muteMark s).Sound := by
  unfold State.muteMark
  simp +contextual (maxDischargeDepth := 40) only [h_s]

theorem State.passComplete_sound {s : State} (h_s : s.Sound) : (State.passComplete s).Sound := by
  unfold State.passComplete
  simp +contextual (maxDischargeDepth := 40) only [State.Sound, State.muteMark_sound, State.giveBack_sound,
    State.dmaFire_sound, State.watchPass_sound, State.closure_sound, State.coveredCheck_sound, State.latestTake_sound,
    ite_sound, h_s]

theorem execReturnPassComplete_sound {s : State} (h_s : s.Sound) : KeepsSound (execReturnPassComplete s) := by
  intro t ht
  simp only [execReturnPassComplete, Host.Outcome.next.injEq] at ht
  subst ht
  simp +contextual (maxDischargeDepth := 40) only [State.passComplete_sound, h_s]

theorem execClosureFail_sound {s : State} (h_s : s.Sound) : KeepsSound (execClosureFail s) := by
  intro t ht
  simp only [execClosureFail, Host.Outcome.next.injEq] at ht
  subst ht
  simp +contextual (maxDischargeDepth := 40) only [State.raise_sound, ite_sound, h_s]

theorem execSyncHoldExpiry_sound {s : State} (h_s : s.Sound) : KeepsSound (execSyncHoldExpiry s) := by
  intro t ht
  simp only [execSyncHoldExpiry, Host.Outcome.next.injEq] at ht
  subst ht
  simp +contextual (maxDischargeDepth := 40) only [State.when_sound, State.mute_sound, ite_sound, implies_true, h_s]

theorem execMissedTraverse_sound {s : State} (h_s : s.Sound) : KeepsSound (execMissedTraverse s) := by
  intro t ht
  simp only [execMissedTraverse, Host.Outcome.next.injEq] at ht
  subst ht
  simp +contextual (maxDischargeDepth := 40) only [State.when_sound, State.raise_sound, ite_sound, implies_true, h_s]

theorem State.takeover_sound (beside : Option (List Byte)) {s : State} (h_s : s.Sound) :
    (State.takeover beside s).Sound := by
  unfold State.takeover
  simp +contextual (maxDischargeDepth := 40) only [State.Sound, State.when_sound, State.traverseSend_sound,
    State.latTake_sound, State.effSet_sound, State.raise_sound, State.claimStart_sound, State.designLoad_sound,
    State.wlvAdopt_sound, State.svySettle_sound, ite_sound, implies_true, h_s]

theorem execTakeover_sound (beside : Option (List Byte)) {s : State} (h_s : s.Sound) :
    KeepsSound (execTakeover beside s) := by
  intro t ht
  simp only [execTakeover, Host.Outcome.next.injEq] at ht
  subst ht
  simp +contextual (maxDischargeDepth := 40) only [State.when_sound, State.takeover_sound, implies_true, h_s]

theorem execCoverStart_sound {s : State} (h_s : s.Sound) : KeepsSound (execCoverStart s) := by
  intro t ht
  simp only [execCoverStart, Host.Outcome.next.injEq] at ht
  subst ht
  simp +contextual (maxDischargeDepth := 40) only [State.when_sound, ite_sound, implies_true, h_s]

theorem onResume_sound (_f : RxFrame) (h : RHdr) (_b : List Byte) {s : State} (h_s : s.Sound) :
    (onResume _f h _b s).Sound := by
  unfold onResume
  simp +contextual (maxDischargeDepth := 40) only [ite_sound, h_s]

theorem execResume_sound (f : RxFrame) {s : State} (h_s : s.Sound) : KeepsSound (execResume f s) := by
  intro t ht
  simp only [execResume, Host.Outcome.next.injEq] at ht
  subst ht
  exact State.roadRx_sound f _ h_s fun g h u hu => onResume_sound g h (roadPayload g.body) (State.count1_sound 4 14 hu)

theorem execThroughUnitChange_sound (partnerRuns : Bool) {s : State} (h_s : s.Sound) :
    KeepsSound (execThroughUnitChange partnerRuns s) := by
  intro t ht
  simp only [execThroughUnitChange, Host.Outcome.next.injEq] at ht
  subst ht
  simp +contextual (maxDischargeDepth := 40) only [ite_sound, h_s]

theorem execTurnout_sound {s : State} (h_s : s.Sound) : KeepsSound (execTurnout s) := by
  intro t ht
  simp only [execTurnout, Host.Outcome.next.injEq] at ht
  subst ht
  simp +contextual (maxDischargeDepth := 40) only [State.when_sound, State.svyTrigger_sound, ite_sound, implies_true,
    h_s]

theorem execTraverseDisable_sound {s : State} (h_s : s.Sound) : KeepsSound (execTraverseDisable s) := by
  intro t ht
  simp only [execTraverseDisable, Host.Outcome.next.injEq] at ht
  subst ht
  simp +contextual (maxDischargeDepth := 40) only [State.setReg_sound, h_s]

theorem State.resumeSend_sound {s : State} (h_s : s.Sound) : (State.resumeSend s).Sound := by
  unfold State.resumeSend
  simp +contextual (maxDischargeDepth := 40) only [State.each_sound, State.sendLocal_sound, ite_sound, implies_true,
    h_s]

theorem State.windowOpen_sound {s : State} (h_s : s.Sound) : (State.windowOpen s).Sound := by
  unfold State.windowOpen
  simp +contextual (maxDischargeDepth := 40) only [State.toneWindow_sound, State.resumeSend_sound,
    State.roadOpen_sound, State.tableBroadcast_sound, State.when_sound, State.joinSend_sound, ite_sound, implies_true,
    h_s]

theorem execRoadWindowOpen_sound {s : State} (h_s : s.Sound) : KeepsSound (execRoadWindowOpen s) := by
  intro t ht
  simp only [execRoadWindowOpen, Host.Outcome.next.injEq] at ht
  subst ht
  simp +contextual (maxDischargeDepth := 40) only [State.when_sound, State.windowOpen_sound, implies_true, h_s]

theorem onHere_sound (f : RxFrame) (_h : RHdr) (b : List Byte) {s : State} (h_s : s.Sound) :
    (onHere f _h b s).Sound := by
  unfold onHere
  simp +contextual (maxDischargeDepth := 40) only [State.raise_sound, State.wlvSync_sound, State.entriesStart_sound,
    ite_sound, h_s]

theorem execHere_sound (f : RxFrame) {s : State} (h_s : s.Sound) : KeepsSound (execHere f s) := by
  intro t ht
  simp only [execHere, Host.Outcome.next.injEq] at ht
  subst ht
  exact State.roadRx_sound f _ h_s fun g h u hu => onHere_sound g h (roadPayload g.body) (State.count1_sound 4 14 hu)

theorem State.watchEnd_sound {s : State} (h_s : s.Sound) : (State.watchEnd s).Sound := by
  unfold State.watchEnd
  dsimp only
  (repeat' split) <;> simp +contextual (maxDischargeDepth := 40) only [State.svyDup_sound, h_s]

theorem execLatecomerCheck_sound {s : State} (h_s : s.Sound) : KeepsSound (execLatecomerCheck s) := by
  intro t ht
  simp only [execLatecomerCheck, Host.Outcome.next.injEq] at ht
  subst ht
  (repeat' split) <;> simp_all +contextual (maxDischargeDepth := 40) only [State.Sound, State.when_sound,
    State.watchEnd_sound, implies_true]

theorem State.treCut_sound (r : SvyResult) (hop : Nat) {s : State} (h_s : s.Sound) : (State.treCut r hop s).Sound := by
  unfold State.treCut
  extract_lets x a b lat y c
  have hA : a.Sound := Contained.withClaims h_s [] (Nat.zero_le _)
  have hB : b.Sound := ite_sound (State.designLoad_sound hA) (ite_sound (State.tablePrune_sound hA) hA)
  have hC : c.Sound := hB
  exact ite_sound (State.latTake_sound _ hC) hB

theorem State.surveyCut_sound (elsewhere : Bool) (beside : Option (List Byte)) {s : State} (h_s : s.Sound) :
    (State.surveyCut elsewhere beside s).Sound := by
  unfold State.surveyCut
  dsimp only
  (repeat' split) <;> simp +contextual (maxDischargeDepth := 40) only [State.Sound, State.entriesStart_sound,
    State.svyTake_sound, State.roadCut_sound, State.ethCut_sound, State.toneCut_sound, State.wlvCut_sound,
    State.treCut_sound, State.benchT0_sound, State.svyIdle_sound, h_s]

theorem execSurveyCut_sound (elsewhere : Bool) (beside : Option (List Byte)) {s : State} (h_s : s.Sound) :
    KeepsSound (execSurveyCut elsewhere beside s) := by
  intro t ht
  simp only [execSurveyCut, Host.Outcome.next.injEq] at ht
  subst ht
  simp +contextual (maxDischargeDepth := 40) only [State.surveyCut_sound, State.when_sound, implies_true, h_s]

end Sys2Proof.Machine
end

