-- ==== Sys2Proof/Laws/KeepsItinerary.lean ====
section
/-! SUPPORT. Every operation and meaning of DMA, the control core, the itinerary and the program
keeps the stores within their bounds. -/
namespace Sys2Proof.Machine

/-! ### Machine/Operands.lean -/

theorem State.seqReadFx_sound (a : Nat) {s : State} (h_s : s.Sound) : (State.seqReadFx a s).Sound := by
  unfold State.seqReadFx
  simp +contextual (maxDischargeDepth := 40) only [State.memReadFx_sound, h_s]

theorem State.refFx_sound (r : Half) {s : State} (h_s : s.Sound) : (State.refFx r s).Sound := by
  unfold State.refFx
  (repeat' split) <;> simp_all +contextual (maxDischargeDepth := 40) only [State.seqReadFx_sound]

theorem State.seqWrite_sound (a : Nat) (v : Word) {s : State} (h_s : s.Sound) : (State.seqWrite a v s).Sound := by
  unfold State.seqWrite
  (repeat' split) <;> simp_all +contextual (maxDischargeDepth := 40) only [State.bufWrite_sound, State.pokeWord_sound]

theorem State.refWrite_sound (r : Half) (v : Word) {s : State} (h_s : s.Sound) : (State.refWrite r v s).Sound := by
  unfold State.refWrite
  (repeat' split) <;> simp_all +contextual (maxDischargeDepth := 40) only [State.seqWrite_sound]

/-! ### Machine/Control.lean -/

theorem State.progTo_sound (p : ProgState) {s : State} (h_s : s.Sound) : (State.progTo p s).Sound := by
  unfold State.progTo
  simp +contextual (maxDischargeDepth := 40) only [State.raiseIf_sound, State.wlvSync_sound, h_s]

theorem State.cycleDrop_sound {s : State} (h_s : s.Sound) : (State.cycleDrop s).Sound := by
  unfold State.cycleDrop
  simp +contextual (maxDischargeDepth := 40) only [h_s]

theorem State.faultStop_sound (code : Half) (arg : Word) {s : State} (h_s : s.Sound) :
    (State.faultStop code arg s).Sound := by
  unfold State.faultStop
  simp +contextual (maxDischargeDepth := 40) only [State.Sound, State.spFaultCode_sound, State.progTo_sound,
    State.raise_sound, State.cycleDrop_sound, h_s]

theorem State.seqFault_sound (code : Half) (arg : Word) {s : State} (h_s : s.Sound) :
    (State.seqFault code arg s).Sound := by
  unfold State.seqFault
  simp +contextual (maxDischargeDepth := 40) only [State.Sound, State.faultStop_sound, h_s]

theorem State.stopAsk_sound {s : State} (h_s : s.Sound) : (State.stopAsk s).Sound := by
  unfold State.stopAsk
  simp +contextual (maxDischargeDepth := 40) only [ite_sound, h_s]

theorem State.cause_sound (bit_ : Nat) {s : State} (h_s : s.Sound) : (State.cause bit_ s).Sound := by
  unfold State.cause
  simp +contextual (maxDischargeDepth := 40) only [ite_sound, h_s]

/-! ### Machine/Dma.lean -/

theorem State.setDch_sound (n : Fin 32) (c : DmaCh) {s : State} (h_s : s.Sound) : (State.setDch n c s).Sound := by
  unfold State.setDch
  simp +contextual (maxDischargeDepth := 40) only [h_s]

theorem State.dmaSettle_sound (n : Fin 32) {s : State} (h_s : s.Sound) : (State.dmaSettle n s).Sound := by
  unfold State.dmaSettle
  simp +contextual (maxDischargeDepth := 40) only [State.setDch_sound, State.raise_sound, ite_sound, h_s]

theorem State.dmaFail_sound (n : Fin 32) (code : BitVec 3) (a : Word) {s : State} (h_s : s.Sound) :
    (State.dmaFail n code a s).Sound := by
  unfold State.dmaFail
  simp +contextual (maxDischargeDepth := 40) only [State.setDch_sound, State.dmaSettle_sound, h_s]

theorem State.dmaFetch_sound (n : Fin 32) (a : Word) {s : State} (h_s : s.Sound) : (State.dmaFetch n a s).Sound := by
  unfold State.dmaFetch
  simp +contextual (maxDischargeDepth := 40) only [State.dmaFail_sound, State.setDch_sound, ite_sound, h_s]

theorem State.dmaGo_sound (n : Fin 32) {s : State} (h_s : s.Sound) : (State.dmaGo n s).Sound := by
  unfold State.dmaGo
  simp +contextual (maxDischargeDepth := 40) only [State.dmaFetch_sound, State.setDch_sound, ite_sound, h_s]

theorem State.dmaUnland_sound (w : DmaWr) {s : State} (h_s : s.Sound) : (State.dmaUnland w s).Sound := by
  unfold State.dmaUnland
  (repeat' split) <;> simp_all +contextual (maxDischargeDepth := 40) only [State.took_sound, State.setBytes_sound]

theorem State.dmaDrop_sound (n : Fin 32) {s : State} (h_s : s.Sound) : (State.dmaDrop n s).Sound := by
  unfold State.dmaDrop
  simp +contextual (maxDischargeDepth := 40) only [State.Sound, State.setDch_sound, State.gateOwnerReset_sound,
    State.each_sound, State.dmaUnland_sound, ite_sound, implies_true, h_s]

theorem State.dmaDropAll_sound {s : State} (h_s : s.Sound) : (State.dmaDropAll s).Sound := by
  unfold State.dmaDropAll
  simp +contextual (maxDischargeDepth := 40) only [State.dmaDrop_sound, State.each_sound, implies_true, h_s]

theorem State.dmaCtlWrite_sound (n : Fin 32) (v : Word) {s : State} (h_s : s.Sound) :
    (State.dmaCtlWrite n v s).Sound := by
  unfold State.dmaCtlWrite
  simp +contextual (maxDischargeDepth := 40) only [State.dmaDrop_sound, State.when_sound, State.setReg_sound,
    State.dmaGo_sound, ite_sound, implies_true, h_s]

theorem State.dmaEnWrite_sound (v : Word) {s : State} (h_s : s.Sound) : (State.dmaEnWrite v s).Sound := by
  unfold State.dmaEnWrite
  simp +contextual (maxDischargeDepth := 40) only [State.dmaDropAll_sound, State.setReg_sound, State.when_sound,
    implies_true, h_s]

theorem execDmaGo_sound (n : Fin 32) (v : Word) {s : State} (h_s : s.Sound) : KeepsSound (execDmaGo n v s) := by
  intro t ht
  simp only [execDmaGo, Host.Outcome.next.injEq] at ht
  subst ht
  simp +contextual (maxDischargeDepth := 40) only [State.dmaCtlWrite_sound, h_s]

theorem State.dmaDisable_sound (n : Option (Fin 32)) {s : State} (h_s : s.Sound) : (State.dmaDisable n s).Sound := by
  unfold State.dmaDisable
  (repeat' split) <;> simp_all +contextual (maxDischargeDepth := 40) only [State.dmaEnWrite_sound,
    State.dmaCtlWrite_sound]

theorem execDmaDisable_sound (n : Option (Fin 32)) {s : State} (h_s : s.Sound) : KeepsSound (execDmaDisable n s) := by
  intro t ht
  simp only [execDmaDisable, Host.Outcome.next.injEq] at ht
  subst ht
  simp +contextual (maxDischargeDepth := 40) only [State.dmaDisable_sound, h_s]

theorem State.dmaStopDone_sound (n : Fin 32) {s : State} (h_s : s.Sound) : (State.dmaStopDone n s).Sound := by
  unfold State.dmaStopDone
  simp +contextual (maxDischargeDepth := 40) only [State.setDch_sound, ite_sound, h_s]

theorem execDmaStopDone_sound (n : Fin 32) {s : State} (h_s : s.Sound) : KeepsSound (execDmaStopDone n s) := by
  intro t ht
  simp only [execDmaStopDone, Host.Outcome.next.injEq] at ht
  subst ht
  simp +contextual (maxDischargeDepth := 40) only [State.when_sound, State.dmaStopDone_sound, implies_true, h_s]

theorem State.dmaFetched_sound (n : Fin 32) {s : State} (h_s : s.Sound) : (State.dmaFetched n s).Sound := by
  unfold State.dmaFetched
  simp +contextual (maxDischargeDepth := 40) only [State.dmaFail_sound, State.setDch_sound, ite_sound, h_s]

theorem execDmaFetchDone_sound (n : Fin 32) {s : State} (h_s : s.Sound) : KeepsSound (execDmaFetchDone n s) := by
  intro t ht
  simp only [execDmaFetchDone, Host.Outcome.next.injEq] at ht
  subst ht
  simp +contextual (maxDischargeDepth := 40) only [State.when_sound, State.dmaFetched_sound, implies_true, h_s]

theorem State.dmaGateTry_sound (n : Fin 32) {s : State} (h_s : s.Sound) : (State.dmaGateTry n s).Sound := by
  unfold State.dmaGateTry
  simp +contextual (maxDischargeDepth := 40) only [State.setDch_sound, State.gateTryFx_sound, State.dmaFail_sound,
    ite_sound, h_s]

theorem execDmaGateAcquire_sound (n : Fin 32) {s : State} (h_s : s.Sound) : KeepsSound (execDmaGateAcquire n s) := by
  intro t ht
  simp only [execDmaGateAcquire, Host.Outcome.next.injEq] at ht
  subst ht
  simp +contextual (maxDischargeDepth := 40) only [State.when_sound, State.dmaGateTry_sound, implies_true, h_s]

theorem execDmaTrigger_sound (t : TrigSource) {s : State} (h_s : s.Sound) : KeepsSound (execDmaTrigger t s) := by
  intro t ht
  simp only [execDmaTrigger, Host.Outcome.next.injEq] at ht
  subst ht
  simp +contextual (maxDischargeDepth := 40) only [State.dmaFire_sound, State.when_sound, implies_true, h_s]

theorem State.dmaComplete_sound (n : Fin 32) {s : State} (h_s : s.Sound) : (State.dmaComplete n s).Sound := by
  unfold State.dmaComplete
  simp +contextual (maxDischargeDepth := 40) only [State.setDch_sound, State.gateRelFx_sound, State.when_sound,
    State.dmaFetch_sound, State.raiseIf_sound, ite_sound, implies_true, h_s]

theorem State.dmaResponse_sound (n : Fin 32) {s : State} (h_s : s.Sound) : (State.dmaResponse n s).Sound := by
  unfold State.dmaResponse
  dsimp only
  (repeat' split) <;> simp +contextual (maxDischargeDepth := 40) only [State.dmaSettle_sound, State.dmaFail_sound,
    State.setDch_sound, State.dmaComplete_sound, h_s]

theorem execDmaWriteResponse_sound (n : Fin 32) {s : State} (h_s : s.Sound) :
    KeepsSound (execDmaWriteResponse n s) := by
  intro t ht
  simp only [execDmaWriteResponse, Host.Outcome.next.injEq] at ht
  subst ht
  simp +contextual (maxDischargeDepth := 40) only [State.when_sound, State.dmaResponse_sound, implies_true, h_s]

/-! ### Machine/Beats.lean -/

/-- A bus on which reads and writes keep the stores within their bounds. -/
def Bus.Keeps (b : Bus) : Prop :=
  (∀ m a be, ∀ s : State, s.Sound → (b.readFx m a be s).Sound) ∧
    ∀ m a be v, ∀ s : State, s.Sound → (b.write m a be v s).Sound

/-- Serving an access keeps the stores within their bounds. -/
def ServeKeeps (sv : Served → State → State) : Prop := ∀ x, ∀ s : State, s.Sound → (sv x s).Sound

theorem memBus_keeps : memBus.Keeps :=
  ⟨fun _ _ _ _ h => State.when_sound h fun _ ht => State.memReadFx_sound _ _ _ ht,
    fun _ _ _ _ _ h => State.when_sound h fun _ ht => State.memWrite_sound _ _ _ _ ht⟩

theorem State.dmaPairBeat_sound (b : Bus) (hb : b.Keeps) (n : Fin 32) (dest : Bool) {s : State} (h_s : s.Sound) :
    (State.dmaPairBeat b n dest s).Sound := by
  unfold State.dmaPairBeat
  dsimp only
  (repeat' split) <;> simp +contextual (maxDischargeDepth := 40) only [State.setDch_sound, State.dmaFail_sound,
    hb.1, h_s]

theorem State.dmaReadBeat_sound (b : Bus) (hb : b.Keeps) (n : Fin 32) {s : State} (h_s : s.Sound) :
    (State.dmaReadBeat b n s).Sound := by
  unfold State.dmaReadBeat
  dsimp only
  (repeat' split) <;> simp +contextual (maxDischargeDepth := 40) only [hb.1, State.dmaFail_sound,
    State.setDch_sound, h_s]

theorem State.dmaWriteBeat_sound (b : Bus) (hb : b.Keeps) (n : Fin 32) {s : State} (h_s : s.Sound) :
    (State.dmaWriteBeat b n s).Sound := by
  unfold State.dmaWriteBeat
  simp +contextual (maxDischargeDepth := 40) only [hb.2, State.setDch_sound, h_s]

theorem State.dmaChBeat_sound (b : Bus) (hb : b.Keeps) (n : Fin 32) {s : State} (h_s : s.Sound) :
    (State.dmaChBeat b n s).Sound := by
  unfold State.dmaChBeat
  dsimp only
  (repeat' split) <;> simp +contextual (maxDischargeDepth := 40) only [State.setDch_sound,
    State.dmaWriteBeat_sound b hb, State.dmaPairBeat_sound b hb, State.dmaFail_sound, hb.1,
    State.dmaReadBeat_sound b hb, h_s]

theorem State.dmaMakes_sound (b : Bus) (hb : b.Keeps) (n : Fin 32) {s : State} (h_s : s.Sound) :
    (State.dmaMakes b n s).Sound := by
  have h := State.dmaChBeat_sound b hb n h_s
  exact h

theorem State.dmaGapGrant_sound (n : Fin 32) {s : State} (h_s : s.Sound) : (State.dmaGapGrant n s).Sound := by
  unfold State.dmaGapGrant
  simp +contextual (maxDischargeDepth := 40) only [ite_sound, h_s]

theorem State.dmaGapBeat_sound (n : Fin 32) {s : State} (h_s : s.Sound) : (State.dmaGapBeat n s).Sound := by
  have h := State.dmaMakes_sound memBus memBus_keeps n (State.dmaGapGrant_sound n h_s)
  exact ite_sound h h_s

theorem State.dmaGap_sound {s : State} (h_s : s.Sound) : (State.dmaGap s).Sound := by
  unfold State.dmaGap
  simp +contextual (maxDischargeDepth := 40) only [State.each_sound, State.dmaGapBeat_sound, implies_true, h_s]

/-! ### Machine/Itinerary.lean -/

theorem State.entryFault_sound (e : Entry) {s : State} (h_s : s.Sound) : (State.entryFault e s).Sound := by
  unfold State.entryFault
  simp +contextual (maxDischargeDepth := 40) only [State.raise_sound, State.seqFault_sound, h_s]

theorem State.entryPass_sound (e : Entry) {s : State} (h_s : s.Sound) : (State.entryPass e s).Sound := by
  unfold State.entryPass
  simp +contextual (maxDischargeDepth := 40) only [h_s]

theorem State.seqReads_sound (l : List Nat) {s : State} (h_s : s.Sound) :
    (State.seqReads l s).Sound := by
  induction l generalizing s with
  | nil => exact h_s
  | cons a t ih =>
    unfold State.seqReads
    dsimp only
    split
    · exact ih (State.seqReadFx_sound a h_s)
    · exact State.seqReadFx_sound a h_s

theorem State.satMark_sound (e : Entry) {s : State} (h_s : s.Sound) : (State.satMark e s).Sound := by
  unfold State.satMark
  simp +contextual (maxDischargeDepth := 40) only [State.seqFault_sound, State.raiseIf_sound, ite_sound, h_s]

theorem State.entryBegin_sound (b : Blk) (e : Entry) {s : State} (h_s : s.Sound) : (State.entryBegin b e s).Sound := by
  unfold State.entryBegin
  simp +contextual (maxDischargeDepth := 40) only [State.Sound, State.seqReads_sound, h_s]

theorem State.entryEnd_sound (b : Blk) (e : Entry) (words : List Nat) (tc : Word) (o : BlkOut) {s : State} (h_s :
    s.Sound) :
    (State.entryEnd b e words tc o s).Sound := by
  unfold State.entryEnd
  dsimp only
  (repeat' split) <;> simp +contextual (maxDischargeDepth := 40) only [State.Sound, State.refWrite_sound,
    State.each_sound, State.seqWrite_sound, State.when_sound, State.took_sound, State.satMark_sound, implies_true,
    h_s]

theorem State.entryExec_sound (b : Blk) (e : Entry) {s : State} (h_s : s.Sound) : (State.entryExec b e s).Sound := by
  unfold State.entryExec
  simp +contextual (maxDischargeDepth := 40) only [State.entryEnd_sound, State.entryFault_sound,
    State.entryBegin_sound, ite_sound, h_s]

theorem State.entryStep_sound (b : Blk) (e : Entry) {s : State} (h_s : s.Sound) : (State.entryStep b e s).Sound := by
  have ht : (if e.en = 0 then s else s.refFx e.enref : State).Sound := ite_sound h_s (State.refFx_sound _ h_s)
  unfold State.entryStep
  extract_lets t u
  have hu : u.Sound := by
    show (match s.enabled e with
      | some true => t.entryExec b e
      | some false => t.entryPass e
      | none => t.entryFault e : State).Sound
    split
    · exact State.entryExec_sound _ _ ht
    · exact State.entryPass_sound _ ht
    · exact State.entryFault_sound _ ht
  exact hu

theorem State.seqLoop_sound (sv : Served → State → State) (hv : ServeKeeps sv) (k i hi : Nat) (l : List Served) {s : State}
    (h_s : s.Sound) : (State.seqLoop sv k i hi l s).Sound := by
  have each {s : State} (l : List Served) (h : s.Sound) : (s.each l sv).Sound := State.each_sound h hv
  induction k generalizing i l s with
  | zero => exact each l h_s
  | succ k ih =>
    unfold State.seqLoop
    refine ite_sound (each l h_s) ?_
    split
    · exact each l h_s
    · rename_i ty e _
      have hu := fun (n : Bool) => State.when_sound (b := n) (f := State.dmaGap)
        (State.entryStep_sound (blkOf ty) e (each (l.filter fun x => decide (x.before.toNat ≤ i)) h_s))
        fun _ ht => State.dmaGap_sound ht
      exact ite_sound (hu _) (ih _ _ (hu _))

theorem State.errorsFrom_sound (sv : Served → State → State) (hv : ServeKeeps sv) (i : Nat) (l : List Served) {s : State}
    (h_s : s.Sound) : (State.errorsFrom sv i l s).Sound := State.seqLoop_sound sv hv _ _ _ _ h_s

theorem State.runErrors_sound (sv : Served → State → State) (hv : ServeKeeps sv) (l : List Served) {s : State}
    (h_s : s.Sound) : (State.runErrors sv l s).Sound :=
  ite_sound (State.errorsFrom_sound sv hv _ _ (s := { s with itn.seq := .errseq }) h_s) h_s

theorem State.mainEnd_sound {s : State} (h_s : s.Sound) : (State.mainEnd s).Sound := by
  unfold State.mainEnd
  simp +contextual (maxDischargeDepth := 40) only [ite_sound, h_s]

theorem State.mainFrom_sound (sv : Served → State → State) (hv : ServeKeeps sv) (i : Nat) (l : List Served) {s : State}
    (h_s : s.Sound) : (State.mainFrom sv i l s).Sound := State.mainEnd_sound (State.seqLoop_sound sv hv _ _ _ _ h_s)

theorem State.runMain_sound (sv : Served → State → State) (hv : ServeKeeps sv) (l : List Served) {s : State}
    (h_s : s.Sound) : (State.runMain sv l s).Sound := by
  unfold State.runMain
  refine ite_sound h_s ?_
  extract_lets t
  have ht : t.Sound := State.when_sound h_s fun _ h => State.dmaGap_sound h
  exact State.mainFrom_sound sv hv _ _ (s := { t with itn.seq := .main }) ht

theorem State.passStart_sound {s : State} (h_s : s.Sound) : (State.passStart s).Sound := by
  unfold State.passStart
  simp +contextual (maxDischargeDepth := 40) only [h_s]

theorem State.blkStep_sound (b : Blk) (e : Entry) {s : State} (h_s : s.Sound) : (State.blkStep b e s).Sound := by
  unfold State.blkStep
  simp +contextual (maxDischargeDepth := 40) only [State.entryStep_sound, ite_sound, h_s]

theorem execEntrySkip_sound (e : Entry) {s : State} (h_s : s.Sound) : KeepsSound (execEntrySkip e s) := by
  intro t ht
  simp only [execEntrySkip, Host.Outcome.next.injEq] at ht
  subst ht
  simp +contextual (maxDischargeDepth := 40) only [State.entryStep_sound, ite_sound, h_s]

theorem execBlkNop_sound (e : Entry) {s : State} (h_s : s.Sound) : KeepsSound (execBlkNop e s) := by
  intro t ht
  simp only [execBlkNop, Host.Outcome.next.injEq] at ht
  subst ht
  simp +contextual (maxDischargeDepth := 40) only [State.blkStep_sound, h_s]

theorem execBlkAnd_sound (e : Entry) {s : State} (h_s : s.Sound) : KeepsSound (execBlkAnd e s) := by
  intro t ht
  simp only [execBlkAnd, Host.Outcome.next.injEq] at ht
  subst ht
  simp +contextual (maxDischargeDepth := 40) only [State.blkStep_sound, h_s]

theorem execBlkOr_sound (e : Entry) {s : State} (h_s : s.Sound) : KeepsSound (execBlkOr e s) := by
  intro t ht
  simp only [execBlkOr, Host.Outcome.next.injEq] at ht
  subst ht
  simp +contextual (maxDischargeDepth := 40) only [State.blkStep_sound, h_s]

theorem execBlkXor_sound (e : Entry) {s : State} (h_s : s.Sound) : KeepsSound (execBlkXor e s) := by
  intro t ht
  simp only [execBlkXor, Host.Outcome.next.injEq] at ht
  subst ht
  simp +contextual (maxDischargeDepth := 40) only [State.blkStep_sound, h_s]

theorem execBlkNot_sound (e : Entry) {s : State} (h_s : s.Sound) : KeepsSound (execBlkNot e s) := by
  intro t ht
  simp only [execBlkNot, Host.Outcome.next.injEq] at ht
  subst ht
  simp +contextual (maxDischargeDepth := 40) only [State.blkStep_sound, h_s]

theorem execBlkSr_sound (e : Entry) {s : State} (h_s : s.Sound) : KeepsSound (execBlkSr e s) := by
  intro t ht
  simp only [execBlkSr, Host.Outcome.next.injEq] at ht
  subst ht
  simp +contextual (maxDischargeDepth := 40) only [State.blkStep_sound, h_s]

theorem execBlkRs_sound (e : Entry) {s : State} (h_s : s.Sound) : KeepsSound (execBlkRs e s) := by
  intro t ht
  simp only [execBlkRs, Host.Outcome.next.injEq] at ht
  subst ht
  simp +contextual (maxDischargeDepth := 40) only [State.blkStep_sound, h_s]

theorem execBlkRtrig_sound (e : Entry) {s : State} (h_s : s.Sound) : KeepsSound (execBlkRtrig e s) := by
  intro t ht
  simp only [execBlkRtrig, Host.Outcome.next.injEq] at ht
  subst ht
  simp +contextual (maxDischargeDepth := 40) only [State.blkStep_sound, h_s]

theorem execBlkFtrig_sound (e : Entry) {s : State} (h_s : s.Sound) : KeepsSound (execBlkFtrig e s) := by
  intro t ht
  simp only [execBlkFtrig, Host.Outcome.next.injEq] at ht
  subst ht
  simp +contextual (maxDischargeDepth := 40) only [State.blkStep_sound, h_s]

theorem execBlkBitget_sound (e : Entry) {s : State} (h_s : s.Sound) : KeepsSound (execBlkBitget e s) := by
  intro t ht
  simp only [execBlkBitget, Host.Outcome.next.injEq] at ht
  subst ht
  simp +contextual (maxDischargeDepth := 40) only [State.blkStep_sound, h_s]

theorem execBlkBitput_sound (e : Entry) {s : State} (h_s : s.Sound) : KeepsSound (execBlkBitput e s) := by
  intro t ht
  simp only [execBlkBitput, Host.Outcome.next.injEq] at ht
  subst ht
  simp +contextual (maxDischargeDepth := 40) only [State.blkStep_sound, h_s]

theorem execBlkBand_sound (e : Entry) {s : State} (h_s : s.Sound) : KeepsSound (execBlkBand e s) := by
  intro t ht
  simp only [execBlkBand, Host.Outcome.next.injEq] at ht
  subst ht
  simp +contextual (maxDischargeDepth := 40) only [State.blkStep_sound, h_s]

theorem execBlkBor_sound (e : Entry) {s : State} (h_s : s.Sound) : KeepsSound (execBlkBor e s) := by
  intro t ht
  simp only [execBlkBor, Host.Outcome.next.injEq] at ht
  subst ht
  simp +contextual (maxDischargeDepth := 40) only [State.blkStep_sound, h_s]

theorem execBlkBxor_sound (e : Entry) {s : State} (h_s : s.Sound) : KeepsSound (execBlkBxor e s) := by
  intro t ht
  simp only [execBlkBxor, Host.Outcome.next.injEq] at ht
  subst ht
  simp +contextual (maxDischargeDepth := 40) only [State.blkStep_sound, h_s]

theorem execBlkShl_sound (e : Entry) {s : State} (h_s : s.Sound) : KeepsSound (execBlkShl e s) := by
  intro t ht
  simp only [execBlkShl, Host.Outcome.next.injEq] at ht
  subst ht
  simp +contextual (maxDischargeDepth := 40) only [State.blkStep_sound, h_s]

theorem execBlkShr_sound (e : Entry) {s : State} (h_s : s.Sound) : KeepsSound (execBlkShr e s) := by
  intro t ht
  simp only [execBlkShr, Host.Outcome.next.injEq] at ht
  subst ht
  simp +contextual (maxDischargeDepth := 40) only [State.blkStep_sound, h_s]

theorem execBlkAdd_sound (e : Entry) {s : State} (h_s : s.Sound) : KeepsSound (execBlkAdd e s) := by
  intro t ht
  simp only [execBlkAdd, Host.Outcome.next.injEq] at ht
  subst ht
  simp +contextual (maxDischargeDepth := 40) only [State.blkStep_sound, h_s]

theorem execBlkSub_sound (e : Entry) {s : State} (h_s : s.Sound) : KeepsSound (execBlkSub e s) := by
  intro t ht
  simp only [execBlkSub, Host.Outcome.next.injEq] at ht
  subst ht
  simp +contextual (maxDischargeDepth := 40) only [State.blkStep_sound, h_s]

theorem execBlkMul_sound (e : Entry) {s : State} (h_s : s.Sound) : KeepsSound (execBlkMul e s) := by
  intro t ht
  simp only [execBlkMul, Host.Outcome.next.injEq] at ht
  subst ht
  simp +contextual (maxDischargeDepth := 40) only [State.blkStep_sound, h_s]

theorem execBlkDiv_sound (e : Entry) {s : State} (h_s : s.Sound) : KeepsSound (execBlkDiv e s) := by
  intro t ht
  simp only [execBlkDiv, Host.Outcome.next.injEq] at ht
  subst ht
  simp +contextual (maxDischargeDepth := 40) only [State.blkStep_sound, h_s]

theorem execBlkMod_sound (e : Entry) {s : State} (h_s : s.Sound) : KeepsSound (execBlkMod e s) := by
  intro t ht
  simp only [execBlkMod, Host.Outcome.next.injEq] at ht
  subst ht
  simp +contextual (maxDischargeDepth := 40) only [State.blkStep_sound, h_s]

theorem execBlkAbs_sound (e : Entry) {s : State} (h_s : s.Sound) : KeepsSound (execBlkAbs e s) := by
  intro t ht
  simp only [execBlkAbs, Host.Outcome.next.injEq] at ht
  subst ht
  simp +contextual (maxDischargeDepth := 40) only [State.blkStep_sound, h_s]

theorem execBlkNeg_sound (e : Entry) {s : State} (h_s : s.Sound) : KeepsSound (execBlkNeg e s) := by
  intro t ht
  simp only [execBlkNeg, Host.Outcome.next.injEq] at ht
  subst ht
  simp +contextual (maxDischargeDepth := 40) only [State.blkStep_sound, h_s]

theorem execBlkMin_sound (e : Entry) {s : State} (h_s : s.Sound) : KeepsSound (execBlkMin e s) := by
  intro t ht
  simp only [execBlkMin, Host.Outcome.next.injEq] at ht
  subst ht
  simp +contextual (maxDischargeDepth := 40) only [State.blkStep_sound, h_s]

theorem execBlkMax_sound (e : Entry) {s : State} (h_s : s.Sound) : KeepsSound (execBlkMax e s) := by
  intro t ht
  simp only [execBlkMax, Host.Outcome.next.injEq] at ht
  subst ht
  simp +contextual (maxDischargeDepth := 40) only [State.blkStep_sound, h_s]

theorem execBlkLimit_sound (e : Entry) {s : State} (h_s : s.Sound) : KeepsSound (execBlkLimit e s) := by
  intro t ht
  simp only [execBlkLimit, Host.Outcome.next.injEq] at ht
  subst ht
  simp +contextual (maxDischargeDepth := 40) only [State.blkStep_sound, h_s]

theorem execBlkEq_sound (e : Entry) {s : State} (h_s : s.Sound) : KeepsSound (execBlkEq e s) := by
  intro t ht
  simp only [execBlkEq, Host.Outcome.next.injEq] at ht
  subst ht
  simp +contextual (maxDischargeDepth := 40) only [State.blkStep_sound, h_s]

theorem execBlkNe_sound (e : Entry) {s : State} (h_s : s.Sound) : KeepsSound (execBlkNe e s) := by
  intro t ht
  simp only [execBlkNe, Host.Outcome.next.injEq] at ht
  subst ht
  simp +contextual (maxDischargeDepth := 40) only [State.blkStep_sound, h_s]

theorem execBlkGt_sound (e : Entry) {s : State} (h_s : s.Sound) : KeepsSound (execBlkGt e s) := by
  intro t ht
  simp only [execBlkGt, Host.Outcome.next.injEq] at ht
  subst ht
  simp +contextual (maxDischargeDepth := 40) only [State.blkStep_sound, h_s]

theorem execBlkGe_sound (e : Entry) {s : State} (h_s : s.Sound) : KeepsSound (execBlkGe e s) := by
  intro t ht
  simp only [execBlkGe, Host.Outcome.next.injEq] at ht
  subst ht
  simp +contextual (maxDischargeDepth := 40) only [State.blkStep_sound, h_s]

theorem execBlkLt_sound (e : Entry) {s : State} (h_s : s.Sound) : KeepsSound (execBlkLt e s) := by
  intro t ht
  simp only [execBlkLt, Host.Outcome.next.injEq] at ht
  subst ht
  simp +contextual (maxDischargeDepth := 40) only [State.blkStep_sound, h_s]

theorem execBlkLe_sound (e : Entry) {s : State} (h_s : s.Sound) : KeepsSound (execBlkLe e s) := by
  intro t ht
  simp only [execBlkLe, Host.Outcome.next.injEq] at ht
  subst ht
  simp +contextual (maxDischargeDepth := 40) only [State.blkStep_sound, h_s]

theorem execBlkMove_sound (e : Entry) {s : State} (h_s : s.Sound) : KeepsSound (execBlkMove e s) := by
  intro t ht
  simp only [execBlkMove, Host.Outcome.next.injEq] at ht
  subst ht
  simp +contextual (maxDischargeDepth := 40) only [State.blkStep_sound, h_s]

theorem execBlkSel_sound (e : Entry) {s : State} (h_s : s.Sound) : KeepsSound (execBlkSel e s) := by
  intro t ht
  simp only [execBlkSel, Host.Outcome.next.injEq] at ht
  subst ht
  simp +contextual (maxDischargeDepth := 40) only [State.blkStep_sound, h_s]

theorem execBlkPack16_sound (e : Entry) {s : State} (h_s : s.Sound) : KeepsSound (execBlkPack16 e s) := by
  intro t ht
  simp only [execBlkPack16, Host.Outcome.next.injEq] at ht
  subst ht
  simp +contextual (maxDischargeDepth := 40) only [State.blkStep_sound, h_s]

theorem execBlkUnpack16_sound (e : Entry) {s : State} (h_s : s.Sound) : KeepsSound (execBlkUnpack16 e s) := by
  intro t ht
  simp only [execBlkUnpack16, Host.Outcome.next.injEq] at ht
  subst ht
  simp +contextual (maxDischargeDepth := 40) only [State.blkStep_sound, h_s]

theorem execBlkBswap_sound (e : Entry) {s : State} (h_s : s.Sound) : KeepsSound (execBlkBswap e s) := by
  intro t ht
  simp only [execBlkBswap, Host.Outcome.next.injEq] at ht
  subst ht
  simp +contextual (maxDischargeDepth := 40) only [State.blkStep_sound, h_s]

theorem execBlkI2q_sound (e : Entry) {s : State} (h_s : s.Sound) : KeepsSound (execBlkI2q e s) := by
  intro t ht
  simp only [execBlkI2q, Host.Outcome.next.injEq] at ht
  subst ht
  simp +contextual (maxDischargeDepth := 40) only [State.blkStep_sound, h_s]

theorem execBlkQ2i_sound (e : Entry) {s : State} (h_s : s.Sound) : KeepsSound (execBlkQ2i e s) := by
  intro t ht
  simp only [execBlkQ2i, Host.Outcome.next.injEq] at ht
  subst ht
  simp +contextual (maxDischargeDepth := 40) only [State.blkStep_sound, h_s]

theorem execBlkScale_sound (e : Entry) {s : State} (h_s : s.Sound) : KeepsSound (execBlkScale e s) := by
  intro t ht
  simp only [execBlkScale, Host.Outcome.next.injEq] at ht
  subst ht
  simp +contextual (maxDischargeDepth := 40) only [State.blkStep_sound, h_s]

theorem execBlkQmul_sound (e : Entry) {s : State} (h_s : s.Sound) : KeepsSound (execBlkQmul e s) := by
  intro t ht
  simp only [execBlkQmul, Host.Outcome.next.injEq] at ht
  subst ht
  simp +contextual (maxDischargeDepth := 40) only [State.blkStep_sound, h_s]

theorem execBlkQdiv_sound (e : Entry) {s : State} (h_s : s.Sound) : KeepsSound (execBlkQdiv e s) := by
  intro t ht
  simp only [execBlkQdiv, Host.Outcome.next.injEq] at ht
  subst ht
  simp +contextual (maxDischargeDepth := 40) only [State.blkStep_sound, h_s]

theorem execBlkQsqrt_sound (e : Entry) {s : State} (h_s : s.Sound) : KeepsSound (execBlkQsqrt e s) := by
  intro t ht
  simp only [execBlkQsqrt, Host.Outcome.next.injEq] at ht
  subst ht
  simp +contextual (maxDischargeDepth := 40) only [State.blkStep_sound, h_s]

theorem execBlkQmac_sound (e : Entry) {s : State} (h_s : s.Sound) : KeepsSound (execBlkQmac e s) := by
  intro t ht
  simp only [execBlkQmac, Host.Outcome.next.injEq] at ht
  subst ht
  simp +contextual (maxDischargeDepth := 40) only [State.blkStep_sound, h_s]

theorem execBlkTon_sound (e : Entry) {s : State} (h_s : s.Sound) : KeepsSound (execBlkTon e s) := by
  intro t ht
  simp only [execBlkTon, Host.Outcome.next.injEq] at ht
  subst ht
  simp +contextual (maxDischargeDepth := 40) only [State.blkStep_sound, h_s]

theorem execBlkTof_sound (e : Entry) {s : State} (h_s : s.Sound) : KeepsSound (execBlkTof e s) := by
  intro t ht
  simp only [execBlkTof, Host.Outcome.next.injEq] at ht
  subst ht
  simp +contextual (maxDischargeDepth := 40) only [State.blkStep_sound, h_s]

theorem execBlkTp_sound (e : Entry) {s : State} (h_s : s.Sound) : KeepsSound (execBlkTp e s) := by
  intro t ht
  simp only [execBlkTp, Host.Outcome.next.injEq] at ht
  subst ht
  simp +contextual (maxDischargeDepth := 40) only [State.blkStep_sound, h_s]

theorem execBlkCtu_sound (e : Entry) {s : State} (h_s : s.Sound) : KeepsSound (execBlkCtu e s) := by
  intro t ht
  simp only [execBlkCtu, Host.Outcome.next.injEq] at ht
  subst ht
  simp +contextual (maxDischargeDepth := 40) only [State.blkStep_sound, h_s]

theorem execBlkCtd_sound (e : Entry) {s : State} (h_s : s.Sound) : KeepsSound (execBlkCtd e s) := by
  intro t ht
  simp only [execBlkCtd, Host.Outcome.next.injEq] at ht
  subst ht
  simp +contextual (maxDischargeDepth := 40) only [State.blkStep_sound, h_s]

theorem execBlkPid_sound (e : Entry) {s : State} (h_s : s.Sound) : KeepsSound (execBlkPid e s) := by
  intro t ht
  simp only [execBlkPid, Host.Outcome.next.injEq] at ht
  subst ht
  simp +contextual (maxDischargeDepth := 40) only [State.blkStep_sound, h_s]

theorem execBlkLag_sound (e : Entry) {s : State} (h_s : s.Sound) : KeepsSound (execBlkLag e s) := by
  intro t ht
  simp only [execBlkLag, Host.Outcome.next.injEq] at ht
  subst ht
  simp +contextual (maxDischargeDepth := 40) only [State.blkStep_sound, h_s]

theorem execBlkRamp_sound (e : Entry) {s : State} (h_s : s.Sound) : KeepsSound (execBlkRamp e s) := by
  intro t ht
  simp only [execBlkRamp, Host.Outcome.next.injEq] at ht
  subst ht
  simp +contextual (maxDischargeDepth := 40) only [State.blkStep_sound, h_s]

theorem execBlkInteg_sound (e : Entry) {s : State} (h_s : s.Sound) : KeepsSound (execBlkInteg e s) := by
  intro t ht
  simp only [execBlkInteg, Host.Outcome.next.injEq] at ht
  subst ht
  simp +contextual (maxDischargeDepth := 40) only [State.blkStep_sound, h_s]

theorem execBlkDeriv_sound (e : Entry) {s : State} (h_s : s.Sound) : KeepsSound (execBlkDeriv e s) := by
  intro t ht
  simp only [execBlkDeriv, Host.Outcome.next.injEq] at ht
  subst ht
  simp +contextual (maxDischargeDepth := 40) only [State.blkStep_sound, h_s]

theorem execBlkDband_sound (e : Entry) {s : State} (h_s : s.Sound) : KeepsSound (execBlkDband e s) := by
  intro t ht
  simp only [execBlkDband, Host.Outcome.next.injEq] at ht
  subst ht
  simp +contextual (maxDischargeDepth := 40) only [State.blkStep_sound, h_s]

theorem execBlkHyst_sound (e : Entry) {s : State} (h_s : s.Sound) : KeepsSound (execBlkHyst e s) := by
  intro t ht
  simp only [execBlkHyst, Host.Outcome.next.injEq] at ht
  subst ht
  simp +contextual (maxDischargeDepth := 40) only [State.blkStep_sound, h_s]

theorem execBlkLin_sound (e : Entry) {s : State} (h_s : s.Sound) : KeepsSound (execBlkLin e s) := by
  intro t ht
  simp only [execBlkLin, Host.Outcome.next.injEq] at ht
  subst ht
  simp +contextual (maxDischargeDepth := 40) only [State.blkStep_sound, h_s]

theorem execBlkAvg_sound (e : Entry) {s : State} (h_s : s.Sound) : KeepsSound (execBlkAvg e s) := by
  intro t ht
  simp only [execBlkAvg, Host.Outcome.next.injEq] at ht
  subst ht
  simp +contextual (maxDischargeDepth := 40) only [State.blkStep_sound, h_s]

theorem execBlkWmok_sound (e : Entry) {s : State} (h_s : s.Sound) : KeepsSound (execBlkWmok e s) := by
  intro t ht
  simp only [execBlkWmok, Host.Outcome.next.injEq] at ht
  subst ht
  simp +contextual (maxDischargeDepth := 40) only [State.blkStep_sound, h_s]

theorem execBlkLaneok_sound (e : Entry) {s : State} (h_s : s.Sound) : KeepsSound (execBlkLaneok e s) := by
  intro t ht
  simp only [execBlkLaneok, Host.Outcome.next.injEq] at ht
  subst ht
  simp +contextual (maxDischargeDepth := 40) only [State.blkStep_sound, h_s]

theorem execBlkFresh_sound (e : Entry) {s : State} (h_s : s.Sound) : KeepsSound (execBlkFresh e s) := by
  intro t ht
  simp only [execBlkFresh, Host.Outcome.next.injEq] at ht
  subst ht
  simp +contextual (maxDischargeDepth := 40) only [State.blkStep_sound, h_s]

theorem execBlkInrange_sound (e : Entry) {s : State} (h_s : s.Sound) : KeepsSound (execBlkInrange e s) := by
  intro t ht
  simp only [execBlkInrange, Host.Outcome.next.injEq] at ht
  subst ht
  simp +contextual (maxDischargeDepth := 40) only [State.blkStep_sound, h_s]

theorem execBlkLoadx_sound (e : Entry) {s : State} (h_s : s.Sound) : KeepsSound (execBlkLoadx e s) := by
  intro t ht
  simp only [execBlkLoadx, Host.Outcome.next.injEq] at ht
  subst ht
  simp +contextual (maxDischargeDepth := 40) only [State.blkStep_sound, h_s]

theorem execBlkStorex_sound (e : Entry) {s : State} (h_s : s.Sound) : KeepsSound (execBlkStorex e s) := by
  intro t ht
  simp only [execBlkStorex, Host.Outcome.next.injEq] at ht
  subst ht
  simp +contextual (maxDischargeDepth := 40) only [State.blkStep_sound, h_s]

/-! ### Machine/Program.lean -/

theorem State.coreReset_sound {s : State} (h_s : s.Sound) : (State.coreReset s).Sound := by
  unfold State.coreReset
  simp +contextual (maxDischargeDepth := 40) only [State.Sound, State.gateOwnerReset_sound, h_s]

theorem State.runAsk_sound (src : RunSource) {s : State} (h_s : s.Sound) : (State.runAsk src s).Sound := by
  unfold State.runAsk
  dsimp only
  (repeat' split) <;> simp +contextual (maxDischargeDepth := 40) only [State.Sound, State.cycleDrop_sound,
    State.progTo_sound, State.coreReset_sound, h_s]

theorem execRunRequest_sound (src : RunSource) {s : State} (h_s : s.Sound) : KeepsSound (execRunRequest src s) := by
  intro t ht
  simp only [execRunRequest, Host.Outcome.next.injEq] at ht
  subst ht
  simp +contextual (maxDischargeDepth := 40) only [State.runAsk_sound, h_s]

theorem execStopRequest_sound {s : State} (h_s : s.Sound) : KeepsSound (execStopRequest s) := by
  intro t ht
  simp only [execStopRequest, Host.Outcome.next.injEq] at ht
  subst ht
  simp +contextual (maxDischargeDepth := 40) only [State.stopAsk_sound, h_s]

theorem State.ctxPut_sound (ofs : Nat) (v : Word) {s : State} (h_s : s.Sound) : (State.ctxPut ofs v s).Sound := by
  unfold State.ctxPut
  simp +contextual (maxDischargeDepth := 40) only [State.pokeWord_sound, h_s]

theorem State.ctxFill_sound {s : State} (h_s : s.Sound) : (State.ctxFill s).Sound := by
  unfold State.ctxFill
  simp +contextual (maxDischargeDepth := 40) only [State.ctxPut_sound, State.each_sound, implies_true, h_s]

theorem State.pokeRun_sound (src : Byte) (a : Nat) (bs : List Byte) {s : State} (h_s : s.Sound) :
    (State.pokeRun src a bs s).Sound := by
  induction a, bs, s using State.pokeRun.induct src with
  | case1 a s => exact h_s
  | case2 a b s => exact State.pokeBytes_sound src a [b] h_s
  | case3 a b c s => exact State.pokeBytes_sound src a [b, c] h_s
  | case4 a b c d s => exact State.pokeBytes_sound src a [b, c, d] h_s
  | case5 a b c d e t s h ih => rw [State.pokeRun, if_pos h]; exact ih (State.pokeWord_sound _ _ _ h_s)
  | case6 a b c d e t s h ih => rw [State.pokeRun, if_neg h]; exact ih (State.pokeBytes_sound _ _ _ h_s)

theorem State.zeroRange_sound (a n : Nat) {s : State} (h_s : s.Sound) : (State.zeroRange a n s).Sound := by
  exact Contained.withCells h_s _ (swf_filter Memory.unlisted s.mem.cells 0 _ h_s.1)

theorem State.keepRange_sound (a n : Nat) (old : State) {s : State} (h_s : s.Sound) :
    (State.keepRange a n old s).Sound := by
  unfold State.keepRange
  simp +contextual (maxDischargeDepth := 40) only [State.Sound, State.zeroRange_sound, State.setBytes_sound, h_s]

theorem State.loadSect_sound (base : Nat) (t : Sect) {s : State} (h_s : s.Sound) : (State.loadSect base t s).Sound := by
  unfold State.loadSect
  simp +contextual (maxDischargeDepth := 40) only [State.pokeRun_sound, ite_sound, h_s]

theorem State.saveRestored_sound (slot : Bool) (retsize : Nat) {s : State} (h_s : s.Sound) :
    (State.saveRestored slot retsize s).Sound := by
  unfold State.saveRestored
  simp +contextual (maxDischargeDepth := 40) only [State.Sound, State.flashAndBytes_sound, h_s]

theorem State.retFill_sound (d : Desc) (old : State) {s : State} (h_s : s.Sound) :
    (State.retFill d old s).Sound := by
  unfold State.retFill
  dsimp only
  (repeat' split) <;> simp +contextual (maxDischargeDepth := 40) only [State.keepRange_sound, State.pokeRun_sound,
    State.zeroRange_sound, State.raise_sound, State.saveRestored_sound, h_s]

theorem State.pmpLoad_sound (d : Desc) {s : State} (h_s : s.Sound) : (State.pmpLoad d s).Sound := by
  unfold State.pmpLoad
  simp +contextual (maxDischargeDepth := 40) only [h_s]

theorem State.loadItn_sound (d : Desc) (base : Nat) {s : State} (h_s : s.Sound) : (State.loadItn d base s).Sound := by
  unfold State.loadItn
  simp +contextual (maxDischargeDepth := 40) only [State.Sound, State.pokeRun_sound, State.zeroRange_sound, ite_sound,
    h_s]

theorem State.callEntry_sound (pc a0 a1 : Word) {s : State} (h_s : s.Sound) : (State.callEntry pc a0 a1 s).Sound := by
  unfold State.callEntry
  simp +contextual (maxDischargeDepth := 40) only [h_s]

theorem State.trapFree_sound (cause tval : Word) {s : State} (h_s : s.Sound) : (State.trapFree cause tval s).Sound := by
  unfold State.trapFree
  simp +contextual (maxDischargeDepth := 40) only [State.took_sound, h_s]

theorem State.callBack_sound {s : State} (h_s : s.Sound) : (State.callBack s).Sound := by
  unfold State.callBack
  simp +contextual (maxDischargeDepth := 40) only [State.when_sound, State.trapFree_sound, implies_true, h_s]

theorem State.loadDone_sound {s : State} (h_s : s.Sound) : (State.loadDone s).Sound := by
  unfold State.loadDone
  dsimp only
  (repeat' split) <;> simp +contextual (maxDischargeDepth := 40) only [State.Sound, State.progTo_sound,
    State.faultStop_sound, State.raise_sound, State.pmpLoad_sound, State.ctxFill_sound, State.loadSect_sound,
    State.each_sound, State.callEntry_sound, State.loadItn_sound, State.retFill_sound, implies_true, h_s]

theorem execLoadComplete_sound {s : State} (h_s : s.Sound) : KeepsSound (execLoadComplete s) := by
  intro t ht
  simp only [execLoadComplete, Host.Outcome.next.injEq] at ht
  subst ht
  simp +contextual (maxDischargeDepth := 40) only [State.when_sound, State.loadDone_sound, implies_true, h_s]

theorem State.runEnter_sound {s : State} (h_s : s.Sound) : (State.runEnter s).Sound := by
  unfold State.runEnter
  simp +contextual (maxDischargeDepth := 40) only [State.progTo_sound, State.latSet_sound, ite_sound, h_s]

theorem State.initDone_sound (a0 : Word) {s : State} (h_s : s.Sound) : (State.initDone a0 s).Sound := by
  unfold State.initDone
  simp +contextual (maxDischargeDepth := 40) only [State.faultStop_sound, State.cycleDrop_sound, State.progTo_sound,
    State.callBack_sound, State.runEnter_sound, ite_sound, h_s]

theorem execInitReturn_sound (a0 : Word) {s : State} (h_s : s.Sound) : KeepsSound (execInitReturn a0 s) := by
  intro t ht
  simp only [execInitReturn, Host.Outcome.next.injEq] at ht
  subst ht
  simp +contextual (maxDischargeDepth := 40) only [State.when_sound, State.initDone_sound, implies_true, h_s]

theorem execInitTimeout_sound {s : State} (h_s : s.Sound) : KeepsSound (execInitTimeout s) := by
  intro t ht
  simp only [execInitTimeout, Host.Outcome.next.injEq] at ht
  subst ht
  simp +contextual (maxDischargeDepth := 40) only [State.faultStop_sound, State.when_sound, ite_sound, implies_true,
    h_s]

theorem State.passHook_sound {s : State} (h_s : s.Sound) : (State.passHook s).Sound := by
  unfold State.passHook
  simp +contextual (maxDischargeDepth := 40) only [State.callEntry_sound, State.when_sound, implies_true, h_s]

theorem State.passBody_sound (sv : Served → State → State) (hv : ServeKeeps sv) (l : List Served) {s : State}
    (h_s : s.Sound) : (State.passBody sv l s).Sound :=
  ite_sound h_s (ite_sound (State.passHook_sound (State.runMain_sound sv hv _ h_s)) (State.passHook_sound h_s))

theorem State.passGo_sound (sv : Served → State → State) (hv : ServeKeeps sv) {s : State} (h_s : s.Sound) :
    (State.passGo sv s).Sound := by
  unfold State.passGo
  split
  · exact h_s
  · rename_i i _
    have ht : ({ s with itn.at_ := none } : State).Sound := h_s
    exact ite_sound (State.passBody_sound sv hv _ (State.errorsFrom_sound sv hv _ _ ht))
      (ite_sound (State.passHook_sound (State.mainFrom_sound sv hv _ _ ht)) ht)

theorem State.logicPass_sound (sv : Served → State → State) (hv : ServeKeeps sv) (l : List Served) {s : State}
    (h_s : s.Sound) : (State.logicPass sv l s).Sound := by
  unfold State.logicPass
  refine ite_sound h_s ?_
  extract_lets x a c entry seq y b
  have ha : a.Sound := State.passStart_sound (s := { s with ctl.waiting := false }) h_s
  have hb : b.Sound := State.raise_sound _ (State.count1_sound _ _ (State.ctxPut_sound _ _
    (s := { a with ctl.pendcause := 0, ctl.errcause := c }) ha))
  exact ite_sound (ite_sound (State.callEntry_sound _ _ _ (s := { b with ctl.inError := true }) hb)
    (State.passBody_sound sv hv _ (State.runErrors_sound sv hv _ hb))) (State.passBody_sound sv hv _ ha)

theorem State.outCommit_sound {s : State} (h_s : s.Sound) : (State.outCommit s).Sound := by
  unfold State.outCommit
  simp +contextual (maxDischargeDepth := 40) only [h_s]

theorem State.cycleDone_sound (a0 : Word) (us : Nat) {s : State} (h_s : s.Sound) : (State.cycleDone a0 us s).Sound := by
  unfold State.cycleDone
  simp +contextual (maxDischargeDepth := 40) only [State.outCommit_sound, State.when_sound, State.stopAsk_sound,
    ite_sound, implies_true, h_s]

theorem State.cycleReturn_sound (sv : Served → State → State) (hv : ServeKeeps sv) (a0 : Word) (us : Nat) (l : List Served)
    {s : State} (h_s : s.Sound) : (State.cycleReturn sv a0 us l s).Sound := by
  have ht : ({ s.callBack with ctl.inError := false } : State).Sound := State.callBack_sound h_s
  exact ite_sound h_s (ite_sound (State.passBody_sound sv hv _ (State.when_sound ht fun _ h => State.stopAsk_sound h))
    (State.cycleDone_sound _ _ (State.callBack_sound h_s)))

theorem State.overrun_sound {s : State} (h_s : s.Sound) : (State.overrun s).Sound := by
  unfold State.overrun
  simp +contextual (maxDischargeDepth := 40) only [State.faultStop_sound, State.when_sound, State.cause_sound,
    State.raise_sound, ite_sound, implies_true, h_s]

theorem execOutputDeadline_sound {s : State} (h_s : s.Sound) : KeepsSound (execOutputDeadline s) := by
  intro t ht
  simp only [execOutputDeadline, Host.Outcome.next.injEq] at ht
  subst ht
  simp +contextual (maxDischargeDepth := 40) only [State.when_sound, State.overrun_sound, implies_true, h_s]

theorem State.watchdog_sound {s : State} (h_s : s.Sound) : (State.watchdog s).Sound := by
  unfold State.watchdog
  simp +contextual (maxDischargeDepth := 40) only [State.raise_sound, State.faultStop_sound, ite_sound, h_s]

theorem execCycleWatchdog_sound {s : State} (h_s : s.Sound) : KeepsSound (execCycleWatchdog s) := by
  intro t ht
  simp only [execCycleWatchdog, Host.Outcome.next.injEq] at ht
  subst ht
  simp +contextual (maxDischargeDepth := 40) only [State.when_sound, State.watchdog_sound, implies_true, h_s]

theorem State.ecall_sound (mepc : Word) {s : State} (h_s : s.Sound) : (State.ecall mepc s).Sound := by
  unfold State.ecall
  simp +contextual (maxDischargeDepth := 40) only [State.Sound, ite_sound, h_s]

theorem State.progFault_sound (mcause : BitVec 4) (mepc : Word) {s : State} (h_s : s.Sound) :
    (State.progFault mcause mepc s).Sound := by
  unfold State.progFault
  simp +contextual (maxDischargeDepth := 40) only [State.ecall_sound, State.faultStop_sound, State.took_sound,
    ite_sound, h_s]

theorem execProgramFault_sound (mcause : BitVec 4) (mepc : Word) {s : State} (h_s : s.Sound) :
    KeepsSound (execProgramFault mcause mepc s) := by
  intro t ht
  simp only [execProgramFault, Host.Outcome.next.injEq] at ht
  subst ht
  simp +contextual (maxDischargeDepth := 40) only [State.when_sound, State.progFault_sound, implies_true, h_s]

theorem State.coreFault_sound (m : Master) (write : Bool) (a : Nat) {s : State} (h_s : s.Sound) :
    (State.coreFault m write a s).Sound := by
  unfold State.coreFault
  dsimp only
  (repeat' split) <;> simp +contextual (maxDischargeDepth := 40) only [State.faultStop_sound, State.when_sound,
    State.took_sound, State.trapFree_sound, implies_true, h_s]

theorem State.accFault_sound (m : Master) (write : Bool) (a : Nat) {s : State} (h_s : s.Sound) :
    (State.accFault m write a s).Sound := by
  unfold State.accFault
  simp +contextual (maxDischargeDepth := 40) only [State.emit_sound, State.coreFault_sound, h_s]

/-- A breakpoint keeps the stores within their bounds. -/
theorem State.trigTake_sound {m : Master} {k a : Nat} {s t : State} (h : s.trigTake m k a = some t) (h_s : s.Sound) :
    t.Sound := by
  unfold State.trigTake at h
  obtain ⟨c, -, h⟩ := Option.bind_eq_some_iff.mp h
  obtain ⟨i, -, rfl⟩ := Option.map_eq_some_iff.mp h
  exact State.when_sound (State.took_sound (State.setHart_sound _ _ h_s)) fun _ => State.faultStop_sound _ _

theorem State.unlessTrig_sound (m : Master) (write : Bool) (a : Nat) (f : State → State) {s : State} (h_s : s.Sound)
    (hf : ∀ t : State, t.Sound → (f t).Sound) : (State.unlessTrig m write a f s).Sound := by
  unfold State.unlessTrig
  split
  · rename_i h
    exact State.trigTake_sound h h_s
  · exact hf _ h_s

theorem State.access_sound (m : Master) (write : Bool) (a : Nat) (f : State → State) {s : State} (h_s : s.Sound)
    (hf : ∀ t : State, t.Sound → (f t).Sound) : (State.access m write a f s).Sound :=
  State.when_sound h_s fun _ hr => State.unlessTrig_sound _ _ _ _ hr fun _ ht =>
    ite_sound (hf _ ht) (State.accFault_sound _ _ _ ht)

theorem State.latchCauses_sound {s : State} (h_s : s.Sound) : (State.latchCauses s).Sound := by
  unfold State.latchCauses
  simp +contextual (maxDischargeDepth := 40) only [State.Sound, State.cause_sound, State.when_sound, implies_true, h_s]

theorem State.cycleStart_sound {s : State} (h_s : s.Sound) : (State.cycleStart s).Sound := by
  unfold State.cycleStart
  simp +contextual (maxDischargeDepth := 40) only [State.Sound, State.ctxFill_sound, h_s]

theorem State.latchCycle_sound {s : State} (h_s : s.Sound) : (State.latchCycle s).Sound := by
  unfold State.latchCycle
  simp +contextual (maxDischargeDepth := 40) only [State.Sound, State.ctxFill_sound, State.cycleStart_sound,
    State.progTo_sound, State.latchCauses_sound, ite_sound, h_s]

theorem State.svcBack_sound {s : State} (h_s : s.Sound) : (State.svcBack s).Sound := by
  unfold State.svcBack
  simp +contextual (maxDischargeDepth := 40) only [ite_sound, h_s]

theorem State.service_sound (f : State → State) {s : State} (h_s : s.Sound) (hf : ∀ t : State, t.Sound → (f t).Sound) :
    (State.service f s).Sound :=
  State.when_sound h_s fun _ ht => State.svcBack_sound (hf _ (State.trapFree_sound _ _ ht))

theorem State.svcRet_sound (a0 a1 : Word) {s : State} (h_s : s.Sound) : (State.svcRet a0 a1 s).Sound := by
  unfold State.svcRet
  simp +contextual (maxDischargeDepth := 40) only [h_s]

theorem State.svcRet0_sound (a0 : Word) {s : State} (h_s : s.Sound) : (State.svcRet0 a0 s).Sound := by
  unfold State.svcRet0
  simp +contextual (maxDischargeDepth := 40) only [h_s]

theorem execTimeNow_sound {s : State} (h_s : s.Sound) : KeepsSound (execTimeNow s) := by
  intro t ht
  simp only [execTimeNow, Host.Outcome.next.injEq] at ht
  subst ht
  simp +contextual (maxDischargeDepth := 40) only [State.service_sound, State.svcRet_sound, implies_true, h_s]

theorem State.svcFbUser_sound (a0 a1 : Word) {s : State} (h_s : s.Sound) : (State.svcFbUser a0 a1 s).Sound := by
  unfold State.svcFbUser
  simp +contextual (maxDischargeDepth := 40) only [State.svcRet0_sound, State.fbUser_sound, ite_sound, h_s]

theorem execFbUser_sound (a0 a1 : Word) {s : State} (h_s : s.Sound) : KeepsSound (execFbUser a0 a1 s) := by
  intro t ht
  simp only [execFbUser, Host.Outcome.next.injEq] at ht
  subst ht
  simp +contextual (maxDischargeDepth := 40) only [State.svcFbUser_sound, State.service_sound, implies_true, h_s]

theorem State.svcGateTry_sound (a0 : Word) {s : State} (h_s : s.Sound) : (State.svcGateTry a0 s).Sound := by
  unfold State.svcGateTry
  (repeat' split) <;> simp_all +contextual (maxDischargeDepth := 40) only [State.svcRet0_sound, State.svcRet_sound,
    State.gateTryFx_sound]

theorem execGateTry_sound (a0 : Word) {s : State} (h_s : s.Sound) : KeepsSound (execGateTry a0 s) := by
  intro t ht
  simp only [execGateTry, Host.Outcome.next.injEq] at ht
  subst ht
  simp +contextual (maxDischargeDepth := 40) only [State.svcGateTry_sound, State.service_sound, implies_true, h_s]

theorem State.svcGateRelease_sound (a0 : Word) {s : State} (h_s : s.Sound) : (State.svcGateRelease a0 s).Sound := by
  unfold State.svcGateRelease
  (repeat' split) <;> simp_all +contextual (maxDischargeDepth := 40) only [State.svcRet0_sound, State.gateRelFx_sound]

theorem execGateRelease_sound (a0 : Word) {s : State} (h_s : s.Sound) : KeepsSound (execGateRelease a0 s) := by
  intro t ht
  simp only [execGateRelease, Host.Outcome.next.injEq] at ht
  subst ht
  simp +contextual (maxDischargeDepth := 40) only [State.service_sound, State.svcGateRelease_sound, implies_true, h_s]

theorem State.svcQueuePush_sound (a0 a1 : Word) {s : State} (h_s : s.Sound) : (State.svcQueuePush a0 a1 s).Sound := by
  unfold State.svcQueuePush
  (repeat' split) <;> simp_all +contextual (maxDischargeDepth := 40) only [State.svcRet0_sound, State.queuePush_sound]

theorem execQueuePush_sound (a0 a1 : Word) {s : State} (h_s : s.Sound) : KeepsSound (execQueuePush a0 a1 s) := by
  intro t ht
  simp only [execQueuePush, Host.Outcome.next.injEq] at ht
  subst ht
  simp +contextual (maxDischargeDepth := 40) only [State.service_sound, State.svcQueuePush_sound, implies_true, h_s]

theorem State.svcQueuePop_sound (a0 : Word) {s : State} (h_s : s.Sound) : (State.svcQueuePop a0 s).Sound := by
  unfold State.svcQueuePop
  (repeat' split) <;> simp_all +contextual (maxDischargeDepth := 40) only [State.svcRet0_sound,
    State.queuePopFx_sound, State.svcRet_sound]

theorem execQueuePop_sound (a0 : Word) {s : State} (h_s : s.Sound) : KeepsSound (execQueuePop a0 s) := by
  intro t ht
  simp only [execQueuePop, Host.Outcome.next.injEq] at ht
  subst ht
  simp +contextual (maxDischargeDepth := 40) only [State.service_sound, State.svcQueuePop_sound, implies_true, h_s]

theorem execReqStop_sound {s : State} (h_s : s.Sound) : KeepsSound (execReqStop s) := by
  intro t ht
  simp only [execReqStop, Host.Outcome.next.injEq] at ht
  subst ht
  simp +contextual (maxDischargeDepth := 40) only [State.service_sound, State.svcRet0_sound, State.stopAsk_sound,
    implies_true, h_s]

theorem execFault_sound (a0 : Word) {s : State} (h_s : s.Sound) : KeepsSound (execFault a0 s) := by
  intro t ht
  simp only [execFault, Host.Outcome.next.injEq] at ht
  subst ht
  simp +contextual (maxDischargeDepth := 40) only [State.faultStop_sound, State.trapFree_sound, State.when_sound,
    implies_true, h_s]

end Sys2Proof.Machine
end

