-- ==== Sys2Proof/Laws/KeepsRegs.lean ====
section
/-! SUPPORT. Every operation and meaning of the Lane, the latch, cryptography, boot, parts, debug and the register file
keeps the stores within their bounds. -/
namespace Sys2Proof.Machine

/-! ### Machine/Lane.lean -/

theorem State.laneStart_sound {s : State} (h_s : s.Sound) : (State.laneStart s).Sound := by
  unfold State.laneStart
  simp +contextual (maxDischargeDepth := 40) only [State.laneTo_sound, State.raise_sound, ite_sound, h_s]

theorem State.lanePermit_sound (fresh : Bool) {s : State} (h_s : s.Sound) : (State.lanePermit fresh s).Sound := by
  unfold State.lanePermit
  simp +contextual (maxDischargeDepth := 40) only [State.laneStart_sound, State.laneTo_sound, ite_sound, h_s]

theorem State.laneOff_sound {s : State} (h_s : s.Sound) : (State.laneOff s).Sound := by
  unfold State.laneOff
  simp +contextual (maxDischargeDepth := 40) only [State.laneTo_sound, h_s]

theorem State.laneTurn_sound {s : State} (h_s : s.Sound) : (State.laneTurn s).Sound := by
  unfold State.laneTurn
  dsimp only
  (repeat' split) <;> simp +contextual (maxDischargeDepth := 40) only [State.laneTo_sound, State.raise_sound, h_s]

theorem State.laneTx_sound (onL2 : Bool) (b : List Byte) {s : State} (h_s : s.Sound) :
    (State.laneTx onL2 b s).Sound := by
  unfold State.laneTx
  simp +contextual (maxDischargeDepth := 40) only [State.count1_sound, State.emit_sound, State.count_sound, ite_sound,
    h_s]

theorem State.sentParity_sound {s : State} (h_s : s.Sound) : (State.sentParity s).Sound := by
  unfold State.sentParity
  simp +contextual (maxDischargeDepth := 40) only [State.each_sound, State.parityFx_sound, implies_true, h_s]

theorem State.laneTrace_sound (slots : Nat) {s : State} (h_s : s.Sound) : (State.laneTrace slots s).Sound := by
  unfold State.laneTrace
  simp +contextual (maxDischargeDepth := 40) only [State.took_sound, h_s]

theorem State.lanePass_sound (type : Nat) (deliver tog : Bool) (slots : Bool → List (List Byte)) {s : State} (h_s :
    s.Sound) :
    (State.lanePass type deliver tog slots s).Sound := by
  unfold State.lanePass
  simp +contextual (maxDischargeDepth := 40) only [State.Sound, State.laneTrace_sound, State.laneTx_sound, ite_sound,
    h_s]

theorem State.laneRxCount_sound (f : LaneRx) (h : LHdr) {s : State} (h_s : s.Sound) :
    (State.laneRxCount f h s).Sound := by
  unfold State.laneRxCount
  simp +contextual (maxDischargeDepth := 40) only [State.count1_sound, State.raise_sound, State.count_sound,
    ite_sound, h_s]

theorem State.laneStore_sound (f : LaneRx) {s : State} (h_s : s.Sound) : (State.laneStore f s).Sound := by
  unfold State.laneStore
  simp +contextual (maxDischargeDepth := 40) only [State.Sound, State.parityFound_sound, State.bufWrite_sound,
    State.each_sound, implies_true, h_s]

theorem State.laneJudged_sound (h : LHdr) (v : LVerdict) {s : State} (h_s : s.Sound) :
    (State.laneJudged h v s).Sound := by
  unfold State.laneJudged
  (repeat' split) <;> simp_all +contextual (maxDischargeDepth := 40) only [State.count1_sound, State.raise_sound]

theorem State.collectSlot_sound (x : LSlot) {s : State} (h_s : s.Sound) : (State.collectSlot x s).Sound := by
  unfold State.collectSlot
  simp +contextual (maxDischargeDepth := 40) only [State.raiseIf_sound, h_s]

theorem State.passMark_sound (i : Nat) {s : State} (h_s : s.Sound) : (State.passMark i s).Sound := by
  unfold State.passMark
  simp +contextual (maxDischargeDepth := 40) only [h_s]

theorem State.ocrcCheck_sound (h : LHdr) (v : LVerdict) (x : LSlot) {s : State} (h_s : s.Sound) :
    (State.ocrcCheck h v x s).Sound := by
  unfold State.ocrcCheck
  simp +contextual (maxDischargeDepth := 40) only [State.count1_sound, State.raise_sound, ite_sound, h_s]

theorem State.laneData_sound (h : LHdr) (tog : LSlot → Bool) (slots : List LSlot) {s : State} (h_s : s.Sound) :
    (State.laneData h tog slots s).Sound := by
  unfold State.laneData
  simp +contextual (maxDischargeDepth := 40) only [State.raise_sound, State.laneJudged_sound, State.passMark_sound,
    State.ocrcCheck_sound, State.each_sound, State.raiseIf_sound, State.collectSlot_sound, ite_sound, implies_true, h_s]

theorem State.laneWatch_sound (dir onL2 : Bool) {s : State} (h_s : s.Sound) : (State.laneWatch dir onL2 s).Sound := by
  unfold State.laneWatch
  dsimp only
  (repeat' split) <;> simp +contextual (maxDischargeDepth := 40) only [h_s]

theorem State.substRegion_sound (i : Nat) {s : State} (h_s : s.Sound) : (State.substRegion i s).Sound := by
  unfold State.substRegion
  simp +contextual (maxDischargeDepth := 40) only [State.wordReads_sound, State.bufWrite_sound, State.each_sound,
    State.memReadFx_sound, implies_true, h_s]

theorem State.inputRegion_sound (i : Nat) (ins : List Byte) {s : State} (h_s : s.Sound) :
    (State.inputRegion i ins s).Sound := by
  unfold State.inputRegion
  simp +contextual (maxDischargeDepth := 40) only [State.bufWrite_sound, h_s]

theorem State.inputsTake_sound {s : State} (h_s : s.Sound) : (State.inputsTake s).Sound := by
  unfold State.inputsTake
  simp +contextual (maxDischargeDepth := 40) only [State.each_sound, State.inputRegion_sound, implies_true, h_s]

theorem State.collectDone_sound {s : State} (h_s : s.Sound) : (State.collectDone s).Sound := by
  unfold State.collectDone
  simp +contextual (maxDischargeDepth := 40) only [State.Sound, State.inputsTake_sound, State.raise_sound, ite_sound,
    h_s]

theorem State.deliverDone_sound (ok : Bool) {s : State} (h_s : s.Sound) : (State.deliverDone ok s).Sound := by
  unfold State.deliverDone
  simp +contextual (maxDischargeDepth := 40) only [State.when_sound, State.drillFail_sound, State.handoffEnd_sound,
    ite_sound, implies_true, h_s]

theorem State.identSlot_sound (x : LSlot) {s : State} (h_s : s.Sound) : (State.identSlot x s).Sound := by
  unfold State.identSlot
  simp +contextual (maxDischargeDepth := 40) only [State.raise_sound, ite_sound, h_s]

theorem State.passAllBack_sound (p : LanePass) {s : State} (h_s : s.Sound) : (State.passAllBack p s).Sound := by
  unfold State.passAllBack
  dsimp only
  (repeat' split) <;> simp +contextual (maxDischargeDepth := 40) only [State.collectDone_sound, State.raiseIf_sound,
    State.deliverDone_sound, h_s]

theorem State.laneReturn_sound (f : LaneRx) {s : State} (h_s : s.Sound) : (State.laneReturn f s).Sound := by
  unfold State.laneReturn
  dsimp only
  (repeat' split) <;> simp +contextual (maxDischargeDepth := 40) only [State.each_sound, State.passMark_sound,
    State.laneRxCount_sound, State.laneData_sound, State.laneTrace_sound, State.laneWatch_sound,
    State.passAllBack_sound, State.identSlot_sound, State.laneStore_sound, ite_sound, implies_true, h_s]

theorem execLanePassReturn_sound (f : LaneRx) {s : State} (h_s : s.Sound) : KeepsSound (execLanePassReturn f s) := by
  intro t ht
  simp only [execLanePassReturn, Host.Outcome.next.injEq] at ht
  subst ht
  simp +contextual (maxDischargeDepth := 40) only [State.laneReturn_sound, State.when_sound, implies_true, h_s]

theorem State.loopBack_sound (b : List Byte) {s : State} (h_s : s.Sound) : (State.loopBack b s).Sound := by
  unfold State.loopBack
  simp +contextual (maxDischargeDepth := 40) only [State.laneReturn_sound, ite_sound, h_s]

theorem State.laneLate_sound {s : State} (h_s : s.Sound) : (State.laneLate s).Sound := by
  unfold State.laneLate
  dsimp only
  (repeat' split) <;> simp +contextual (maxDischargeDepth := 40) only [State.Sound, State.deliverDone_sound,
    State.raise_sound, State.count_sound, State.cause_sound, h_s]

theorem execLanePassLate_sound {s : State} (h_s : s.Sound) : KeepsSound (execLanePassLate s) := by
  intro t ht
  simp only [execLanePassLate, Host.Outcome.next.injEq] at ht
  subst ht
  simp +contextual (maxDischargeDepth := 40) only [State.when_sound, State.laneLate_sound, implies_true, h_s]

theorem State.trackReads_sound {s : State} (h_s : s.Sound) : (State.trackReads s).Sound := by
  unfold State.trackReads
  simp +contextual (maxDischargeDepth := 40) only [State.wordReads_sound, State.each_sound, implies_true, h_s]

theorem State.trackCompare_sound {s : State} (h_s : s.Sound) : (State.trackCompare s).Sound := by
  unfold State.trackCompare
  split
  · exact h_s
  · extract_lets r _ a
    have h : a.Sound := State.trackReads_sound h_s
    clear_value a
    split
    · exact h
    · exact State.raiseIf_sound _ _ (State.raise_sound _ h)

theorem State.heardDelivered_sound {s : State} (h_s : s.Sound) : (State.heardDelivered s).Sound := by
  unfold State.heardDelivered
  simp +contextual (maxDischargeDepth := 40) only [State.trackCompare_sound, h_s]

theorem State.heardLate_sound {s : State} (h_s : s.Sound) : (State.heardLate s).Sound := by
  unfold State.heardLate
  simp +contextual (maxDischargeDepth := 40) only [State.when_sound, State.heardDelivered_sound, implies_true, h_s]

theorem State.laneClose_sound {s : State} (h_s : s.Sound) : (State.laneClose s).Sound := by
  unfold State.laneClose
  simp +contextual (maxDischargeDepth := 40) only [State.Sound, State.laneOff_sound, State.driveEnd_sound,
    State.wlvSync_sound, ite_sound, h_s]

theorem State.applyMark_sound {s : State} (h_s : s.Sound) : (State.applyMark s).Sound := by
  unfold State.applyMark
  extract_lets z d _ a b c tog u e
  have hz : z.Sound := State.when_sound (State.heardLate_sound h_s) fun _ => State.handoffEnd_sound
  have ha : a.Sound := State.driveStart_sound hz
  have hc : c.Sound := State.laneTurn_sound (ite_sound (State.lanePermit_sound _ ha) ha)
  have hu : u.Sound := State.count1_sound _ _ (State.emit_sound _ hc)
  have he : e.Sound := ite_sound hc (ite_sound (State.count1_sound _ _ (State.emit_sound _ hu)) hu)
  exact ite_sound ha (ite_sound (State.laneClose_sound he) he)

theorem State.laneSense_sound (rest : Vector Nat 2) {s : State} (h_s : s.Sound) : (State.laneSense rest s).Sound := by
  unfold State.laneSense
  simp +contextual (maxDischargeDepth := 40) only [h_s]

theorem execApplyMark_sound (rest : Vector Nat 2) {s : State} (h_s : s.Sound) : KeepsSound (execApplyMark rest s) :=
  by
  intro t ht
  simp only [execApplyMark, Host.Outcome.next.injEq] at ht
  subst ht
  simp +contextual (maxDischargeDepth := 40) only [State.when_sound, State.applyMark_sound, State.laneSense_sound,
    implies_true, h_s]

theorem State.collectPass_sound {s : State} (h_s : s.Sound) : (State.collectPass s).Sound := by
  unfold State.collectPass
  simp +contextual (maxDischargeDepth := 40) only [State.loopBack_sound, State.count1_sound, State.lanePass_sound,
    State.sentParity_sound, State.count_sound, State.laneTurn_sound, ite_sound, h_s]

theorem execCollectPass_sound {s : State} (h_s : s.Sound) : KeepsSound (execCollectPass s) := by
  intro t ht
  simp only [execCollectPass, Host.Outcome.next.injEq] at ht
  subst ht
  simp +contextual (maxDischargeDepth := 40) only [State.when_sound, State.collectPass_sound, implies_true, h_s]

theorem State.outTake_sound {s : State} (h_s : s.Sound) : (State.outTake s).Sound := by
  unfold State.outTake
  simp +contextual (maxDischargeDepth := 40) only [State.Sound, State.wordReads_sound, State.bufWrite_sound,
    ite_sound, h_s]

theorem State.deliverPass_sound {s : State} (h_s : s.Sound) : (State.deliverPass s).Sound := by
  unfold State.deliverPass
  simp +contextual (maxDischargeDepth := 40) only [State.loopBack_sound, State.outTake_sound, State.laneTurn_sound,
    State.lanePass_sound, State.sentParity_sound, State.dmaFire_sound, State.count_sound, ite_sound, h_s]

theorem execDeliverPass_sound {s : State} (h_s : s.Sound) : KeepsSound (execDeliverPass s) := by
  intro t ht
  simp only [execDeliverPass, Host.Outcome.next.injEq] at ht
  subst ht
  simp +contextual (maxDischargeDepth := 40) only [State.when_sound, State.deliverPass_sound, implies_true, h_s]

theorem State.dropOut_sound {s : State} (h_s : s.Sound) : (State.dropOut s).Sound := by
  unfold State.dropOut
  simp +contextual (maxDischargeDepth := 40) only [State.count_sound, State.raise_sound, State.drillFail_sound,
    State.ctxPut_sound, State.cause_sound, State.raiseIf_sound, ite_sound, h_s]

theorem State.imageRelease_sound (fill : Word) {s : State} (h_s : s.Sound) : (State.imageRelease fill s).Sound := by
  unfold State.imageRelease
  simp +contextual (maxDischargeDepth := 40) only [State.each_sound, State.substRegion_sound, State.inputsTake_sound,
    State.dmaFire_sound, State.dropOut_sound, ite_sound, implies_true, h_s]

theorem State.inputRelease_sound (sv : Served → State → State) (hv : ServeKeeps sv) (l : List Served) {s : State}
    (h_s : s.Sound) : (State.inputRelease sv l s).Sound := by
  unfold State.inputRelease
  simp +contextual (maxDischargeDepth := 40) only [State.logicPass_sound sv hv, State.imageRelease_sound, ite_sound, h_s]

theorem State.subDone_sound (sv : Served → State → State) (hv : ServeKeeps sv) (l : List Served) {s : State}
    (h_s : s.Sound) : (State.subDone sv l s).Sound := by
  unfold State.subDone
  simp +contextual (maxDischargeDepth := 40) only [State.imageRelease_sound, State.logicPass_sound sv hv, ite_sound, h_s]

theorem execLaneCommit_sound {s : State} (h_s : s.Sound) : KeepsSound (execLaneCommit s) := by
  intro t ht
  simp only [execLaneCommit, Host.Outcome.next.injEq] at ht
  subst ht
  simp +contextual (maxDischargeDepth := 40) only [h_s]

theorem State.heardDone_sound (p : LanePass) {s : State} (h_s : s.Sound) : (State.heardDone p s).Sound := by
  unfold State.heardDone
  simp +contextual (maxDischargeDepth := 40) only [State.collectDone_sound, h_s]

theorem State.heardOuts_sound (slots : List LSlot) {s : State} (h_s : s.Sound) : (State.heardOuts slots s).Sound := by
  unfold State.heardOuts
  simp +contextual (maxDischargeDepth := 40) only [State.raise_sound, State.count1_sound,
    ite_sound, State.Sound, State.each_sound, State.bufWrite_sound, implies_true,
    h_s]

theorem State.heard_sound (f : LaneRx) {s : State} (h_s : s.Sound) : (State.heard f s).Sound := by
  unfold State.heard
  dsimp only
  (repeat' split) <;> simp +contextual (maxDischargeDepth := 40) only [State.Sound, State.laneWatch_sound,
    State.laneStore_sound, State.heardOuts_sound, State.laneRxCount_sound, State.each_sound, State.heardDone_sound,
    State.laneData_sound, State.laneTrace_sound, State.heardDelivered_sound, implies_true, h_s]

theorem execHeardPass_sound (f : LaneRx) {s : State} (h_s : s.Sound) : KeepsSound (execHeardPass f s) := by
  intro t ht
  simp only [execHeardPass, Host.Outcome.next.injEq] at ht
  subst ht
  simp +contextual (maxDischargeDepth := 40) only [State.when_sound, State.heard_sound, implies_true, h_s]

theorem State.laneLatch_sound {s : State} (h_s : s.Sound) : (State.laneLatch s).Sound := by
  unfold State.laneLatch
  simp +contextual (maxDischargeDepth := 40) only [State.Sound, State.laneTo_sound, ite_sound, h_s]

theorem State.laneOn_sound {s : State} (h_s : s.Sound) : (State.laneOn s).Sound := by
  unfold State.laneOn
  simp +contextual (maxDischargeDepth := 40) only [State.laneTo_sound, ite_sound, h_s]

theorem State.laneEnable_sound {s : State} (h_s : s.Sound) : (State.laneEnable s).Sound := by
  unfold State.laneEnable
  simp +contextual (maxDischargeDepth := 40) only [State.Sound, State.laneOn_sound, State.setReg_sound,
    State.raise_sound, ite_sound, h_s]

theorem execLaneEnable_sound {s : State} (h_s : s.Sound) : KeepsSound (execLaneEnable s) := by
  intro t ht
  simp only [execLaneEnable, Host.Outcome.next.injEq] at ht
  subst ht
  simp +contextual (maxDischargeDepth := 40) only [State.laneEnable_sound, h_s]

theorem State.laneStop_sound {s : State} (h_s : s.Sound) : (State.laneStop s).Sound := by
  unfold State.laneStop
  simp +contextual (maxDischargeDepth := 40) only [State.laneClose_sound, State.laneOff_sound, ite_sound, h_s]

theorem State.laneDisable_sound {s : State} (h_s : s.Sound) : (State.laneDisable s).Sound := by
  unfold State.laneDisable
  simp +contextual (maxDischargeDepth := 40) only [State.Sound, State.laneStop_sound, State.setReg_sound, h_s]

theorem execLaneDisable_sound {s : State} (h_s : s.Sound) : KeepsSound (execLaneDisable s) := by
  intro t ht
  simp only [execLaneDisable, Host.Outcome.next.injEq] at ht
  subst ht
  simp +contextual (maxDischargeDepth := 40) only [State.laneDisable_sound, h_s]

theorem State.forceStart_sound {s : State} (h_s : s.Sound) : (State.forceStart s).Sound := by
  unfold State.forceStart
  simp +contextual (maxDischargeDepth := 40) only [State.laneStart_sound, ite_sound, h_s]

theorem execForcestart_sound {s : State} (h_s : s.Sound) : KeepsSound (execForcestart s) := by
  intro t ht
  simp only [execForcestart, Host.Outcome.next.injEq] at ht
  subst ht
  simp +contextual (maxDischargeDepth := 40) only [State.forceStart_sound, h_s]

theorem State.laneCtlWrite_sound (v : Word) {s : State} (h_s : s.Sound) : (State.laneCtlWrite v s).Sound := by
  unfold State.laneCtlWrite
  simp +contextual (maxDischargeDepth := 40) only [State.laneEnable_sound, State.when_sound, State.setReg_sound,
    State.forceStart_sound, State.laneDisable_sound, ite_sound, implies_true, h_s]

theorem State.identPass_sound {s : State} (h_s : s.Sound) : (State.identPass s).Sound := by
  unfold State.identPass
  simp +contextual (maxDischargeDepth := 40) only [State.lanePass_sound, ite_sound, h_s]

theorem execIdentPass_sound {s : State} (h_s : s.Sound) : KeepsSound (execIdentPass s) := by
  intro t ht
  simp only [execIdentPass, Host.Outcome.next.injEq] at ht
  subst ht
  simp +contextual (maxDischargeDepth := 40) only [State.when_sound, State.identPass_sound, implies_true, h_s]

theorem State.rangeCount_sound (rtt : Option Nat) (f : List Byte) {s : State} (h_s : s.Sound) :
    (State.rangeCount rtt f s).Sound := by
  unfold State.rangeCount
  simp +contextual (maxDischargeDepth := 40) only [State.laneRxCount_sound, State.count1_sound, ite_sound, h_s]

theorem State.rangePass_sound (station : Fin 32) (fromL2 : Bool) (rtt : Option Nat) {s : State} (h_s : s.Sound) :
    (State.rangePass station fromL2 rtt s).Sound := by
  unfold State.rangePass
  simp +contextual (maxDischargeDepth := 40) only [State.Sound, State.laneTx_sound, State.rangeCount_sound, ite_sound,
    h_s]

theorem execRangePass_sound (station : Fin 32) (fromL2 : Bool) (rtt : Option Nat) {s : State} (h_s : s.Sound) :
    KeepsSound (execRangePass station fromL2 rtt s) := by
  intro t ht
  simp only [execRangePass, Host.Outcome.next.injEq] at ht
  subst ht
  simp +contextual (maxDischargeDepth := 40) only [State.when_sound, State.rangePass_sound, implies_true, h_s]

theorem State.configPass_sound {s : State} (h_s : s.Sound) : (State.configPass s).Sound := by
  unfold State.configPass
  simp +contextual (maxDischargeDepth := 40) only [State.Sound, State.lanePass_sound, State.each_sound, ite_sound,
    implies_true, h_s]

theorem execConfigPass_sound {s : State} (h_s : s.Sound) : KeepsSound (execConfigPass s) := by
  intro t ht
  simp only [execConfigPass, Host.Outcome.next.injEq] at ht
  subst ht
  simp +contextual (maxDischargeDepth := 40) only [State.configPass_sound, State.when_sound, implies_true, h_s]

theorem State.startTimeout_sound {s : State} (h_s : s.Sound) : (State.startTimeout s).Sound := by
  unfold State.startTimeout
  simp +contextual (maxDischargeDepth := 40) only [State.laneTo_sound, State.raise_sound, ite_sound, h_s]

theorem execStartTimeout_sound {s : State} (h_s : s.Sound) : KeepsSound (execStartTimeout s) := by
  intro t ht
  simp only [execStartTimeout, Host.Outcome.next.injEq] at ht
  subst ht
  simp +contextual (maxDischargeDepth := 40) only [State.when_sound, State.startTimeout_sound, implies_true, h_s]

/-! ### Machine/Latch.lean -/

theorem State.latch_sound {s : State} (h_s : s.Sound) : (State.latch s).Sound := by
  unfold State.latch
  simp +contextual (maxDischargeDepth := 40) only [State.latchCycle_sound, State.leaseCount_sound,
    State.laneLatch_sound, State.ilCount_sound, State.askCount_sound, State.wlvSync_sound, State.freeze_sound,
    State.drillCount_sound, State.raise_sound, State.dmaFire_sound, State.revCount_sound, h_s]

theorem State.latchStep_sound {old s : State} (h_old : old.Sound) (h_s : s.Sound) : (State.latchStep old s).Sound :=
  by
  unfold State.latchStep
  simp +contextual (maxDischargeDepth := 40) only [State.latch_sound, ite_sound, h_s]

theorem execTraverseReceive_sound (f : RxFrame) (beside : Option (List Byte)) {s : State} (h_s : s.Sound) :
    KeepsSound (execTraverseReceive f beside s) := by
  intro t ht
  simp only [execTraverseReceive, Host.Outcome.next.injEq] at ht
  subst ht
  simp +contextual (maxDischargeDepth := 40) only [State.latchStep_sound, State.trvRx_sound, h_s]

theorem execLatchInstant_sound {s : State} (h_s : s.Sound) : KeepsSound (execLatchInstant s) := by
  intro t ht
  simp only [execLatchInstant, Host.Outcome.next.injEq] at ht
  subst ht
  simp +contextual (maxDischargeDepth := 40) only [State.when_sound, State.latch_sound, ite_sound, implies_true, h_s]

/-! ### Machine/MemCmds.lean -/

theorem execScrub_sound {s : State} (h_s : s.Sound) : KeepsSound (execScrub s) := by
  intro t ht
  simp only [execScrub, Host.Outcome.next.injEq] at ht
  subst ht
  simp +contextual (maxDischargeDepth := 40) only [State.when_sound, State.scrub_sound, implies_true, h_s]

theorem State.tsRead_sound (m : Master) (a : Nat) {s : State} (h_s : s.Sound) : (State.tsRead m a s).Sound :=
  ite_sound (State.emit_sound _ (State.tsShadow_sound _ h_s)) (State.accFault_sound _ _ _ h_s)

theorem execTimestampRead_sound (m : Master) (addr : Word) {s : State} (h_s : s.Sound) :
    KeepsSound (execTimestampRead m addr s) := by
  intro t ht
  simp only [execTimestampRead, Host.Outcome.next.injEq] at ht
  subst ht
  simp +contextual (maxDischargeDepth := 40) only [State.access_sound, State.tsRead_sound, implies_true, h_s]

theorem execEventClaim_sound (m : Master) (h : Hart) {s : State} (h_s : s.Sound) :
    KeepsSound (execEventClaim m h s) := by
  intro t ht
  simp only [execEventClaim, Host.Outcome.next.injEq] at ht
  subst ht
  simp +contextual (maxDischargeDepth := 40) only [State.access_sound, State.emit_sound, State.claimFx_sound,
    implies_true, h_s]

theorem execFbkRawPop_sound (m : Master) {s : State} (h_s : s.Sound) : KeepsSound (execFbkRawPop m s) := by
  intro t ht
  simp only [execFbkRawPop, Host.Outcome.next.injEq] at ht
  subst ht
  simp +contextual (maxDischargeDepth := 40) only [State.access_sound, State.emit_sound, State.fbRawPop_sound,
    implies_true, h_s]

theorem execClaimPop_sound (m : Master) {s : State} (h_s : s.Sound) : KeepsSound (execClaimPop m s) := by
  intro t ht
  simp only [execClaimPop, Host.Outcome.next.injEq] at ht
  subst ht
  simp +contextual (maxDischargeDepth := 40) only [State.access_sound, State.claimPop_sound, State.emit_sound,
    implies_true, h_s]

theorem execLearnqPop_sound (m : Master) {s : State} (h_s : s.Sound) : KeepsSound (execLearnqPop m s) := by
  intro t ht
  simp only [execLearnqPop, Host.Outcome.next.injEq] at ht
  subst ht
  simp +contextual (maxDischargeDepth := 40) only [State.access_sound, State.emit_sound, State.learnqPop_sound,
    implies_true, h_s]

theorem execWlvReqqPop_sound (m : Master) {s : State} (h_s : s.Sound) : KeepsSound (execWlvReqqPop m s) := by
  intro t ht
  simp only [execWlvReqqPop, Host.Outcome.next.injEq] at ht
  subst ht
  simp +contextual (maxDischargeDepth := 40) only [State.access_sound, State.reqqPop_sound, State.emit_sound,
    implies_true, h_s]

theorem State.flashBeat_sound (m : Master) (addr : Word) (be : BitVec 4) (v : Word) {s : State} (h_s : s.Sound) :
    (State.flashBeat m addr be v s).Sound := by
  unfold State.flashBeat
  simp +contextual (maxDischargeDepth := 40) only [State.accFault_sound, State.flashProgram_sound, ite_sound, h_s]

theorem execFlashProgram_sound (m : Master) (addr : Word) (be : BitVec 4) (v : Word) {s : State} (h_s : s.Sound) :
    KeepsSound (execFlashProgram m addr be v s) := by
  intro t ht
  simp only [execFlashProgram, Host.Outcome.next.injEq] at ht
  subst ht
  simp +contextual (maxDischargeDepth := 40) only [State.access_sound, State.flashBeat_sound, implies_true, h_s]

theorem State.programDone_sound (bankB : Bool) {s : State} (h_s : s.Sound) : (State.programDone bankB s).Sound := by
  unfold State.programDone
  (repeat' split) <;> simp_all +contextual (maxDischargeDepth := 40) only [State.setFlashBusy_sound]

theorem execFlashProgramDone_sound (bankB : Bool) {s : State} (h_s : s.Sound) :
    KeepsSound (execFlashProgramDone bankB s) := by
  intro t ht
  simp only [execFlashProgramDone, Host.Outcome.next.injEq] at ht
  subst ht
  simp +contextual (maxDischargeDepth := 40) only [State.programDone_sound, h_s]

theorem State.eraseAsked_sound (m : Master) (v : Word) {s : State} (h_s : s.Sound) :
    (State.eraseAsked m v s).Sound := by
  unfold State.eraseAsked
  simp +contextual (maxDischargeDepth := 40) only [State.flashErase_sound, State.accFault_sound, ite_sound, h_s]

theorem execFlashErase_sound (m : Master) (v : Word) {s : State} (h_s : s.Sound) :
    KeepsSound (execFlashErase m v s) := by
  intro t ht
  simp only [execFlashErase, Host.Outcome.next.injEq] at ht
  subst ht
  simp +contextual (maxDischargeDepth := 40) only [State.access_sound, State.eraseAsked_sound, implies_true, h_s]

theorem State.saveEraseFrom_sound (l : List Nat) : ∀ {s : State}, s.Sound → (State.saveEraseFrom l s).Sound := by
  induction l with
  | nil => exact fun h => h
  | cons sec rest ih =>
    intro s h
    have hQ : ({ s with mem.saveErase := rest } : State).Sound := h
    exact ite_sound (ih (State.flashResult_sound _ _ _ h)) (State.flashStartErase_sound _ hQ)

theorem State.saveEraseNext_sound {s : State} (h_s : s.Sound) : (State.saveEraseNext s).Sound := by
  unfold State.saveEraseNext
  simp +contextual (maxDischargeDepth := 40) only [State.when_sound, State.saveEraseFrom_sound, implies_true, h_s]

theorem State.eraseDone_sound (bankB : Bool) (stuck : List (Nat × Byte)) {s : State} (h_s : s.Sound) :
    (State.eraseDone bankB stuck s).Sound := by
  unfold State.eraseDone
  dsimp only
  (repeat' split) <;> simp +contextual (maxDischargeDepth := 40) only [State.saveEraseNext_sound,
    State.fbEraseEnd_sound, State.flashEraseEnd_sound, State.fbEraseNext_sound, h_s]

theorem execFlashEraseDone_sound (bankB : Bool) (stuck : List (Nat × Byte)) {s : State} (h_s : s.Sound) :
    KeepsSound (execFlashEraseDone bankB stuck s) := by
  intro t ht
  simp only [execFlashEraseDone, Host.Outcome.next.injEq] at ht
  subst ht
  simp +contextual (maxDischargeDepth := 40) only [State.eraseDone_sound, h_s]

theorem State.elogPop_sound {s : State} (h_s : s.Sound) : (State.elogPop s).Sound := by
  unfold State.elogPop
  split
  · rename_i e rest h
    refine Contained.withElog h_s rest ?_
    have := h_s.2.2.1
    rw [h, List.length_cons] at this
    omega
  · exact h_s

theorem execMemElogPop_sound (m : Master) {s : State} (h_s : s.Sound) : KeepsSound (execMemElogPop m s) := by
  intro t ht
  simp only [execMemElogPop, Host.Outcome.next.injEq] at ht
  subst ht
  simp +contextual (maxDischargeDepth := 40) only [State.access_sound, State.emit_sound, State.elogPop_sound,
    implies_true, h_s]

theorem State.inject_sound (v : Word) {s : State} (h_s : s.Sound) : (State.inject v s).Sound := by
  unfold State.inject
  dsimp only
  (repeat' split) <;> simp +contextual (maxDischargeDepth := 40) only [State.eccFullWrite_sound, h_s]

theorem execInjection_sound (m : Master) (v : Word) {s : State} (h_s : s.Sound) : KeepsSound (execInjection m v s) := by
  intro t ht
  simp only [execInjection, Host.Outcome.next.injEq] at ht
  subst ht
  simp +contextual (maxDischargeDepth := 40) only [State.access_sound, State.inject_sound, implies_true, h_s]

theorem execGateTryg_sound (m : Master) (g : Fin 32) {s : State} (h_s : s.Sound) : KeepsSound (execGateTryg m g s) := by
  intro t ht
  simp only [execGateTryg, Host.Outcome.next.injEq] at ht
  subst ht
  simp +contextual (maxDischargeDepth := 40) only [State.access_sound, State.gateTryFx_sound, State.emit_sound,
    implies_true, h_s]

theorem State.gateRel_sound (m : Master) (g : Fin 32) {s : State} (h_s : s.Sound) : (State.gateRel m g s).Sound := by
  unfold State.gateRel
  simp +contextual (maxDischargeDepth := 40) only [State.gateRelFx_sound, State.accFault_sound, ite_sound, h_s]

theorem execGateRelg_sound (m : Master) (g : Fin 32) {s : State} (h_s : s.Sound) : KeepsSound (execGateRelg m g s) := by
  intro t ht
  simp only [execGateRelg, Host.Outcome.next.injEq] at ht
  subst ht
  simp +contextual (maxDischargeDepth := 40) only [State.access_sound, State.gateRel_sound, implies_true, h_s]

theorem State.gateForce_sound (m : Master) (g : Fin 32) {s : State} (h_s : s.Sound) :
    (State.gateForce m g s).Sound := by
  unfold State.gateForce
  simp +contextual (maxDischargeDepth := 40) only [State.gateForceFx_sound, State.accFault_sound, ite_sound, h_s]

theorem execGateForceg_sound (m : Master) (g : Fin 32) {s : State} (h_s : s.Sound) :
    KeepsSound (execGateForceg m g s) := by
  intro t ht
  simp only [execGateForceg, Host.Outcome.next.injEq] at ht
  subst ht
  simp +contextual (maxDischargeDepth := 40) only [State.access_sound, State.gateForce_sound, implies_true, h_s]

theorem State.leaseExpiry_sound (g : Fin 32) {s : State} (h_s : s.Sound) : (State.leaseExpiry g s).Sound := by
  unfold State.leaseExpiry
  simp +contextual (maxDischargeDepth := 40) only [State.gateBreak_sound, ite_sound, h_s]

theorem execGateLeaseExpiry_sound (g : Fin 32) {s : State} (h_s : s.Sound) : KeepsSound (execGateLeaseExpiry g s) :=
  by
  intro t ht
  simp only [execGateLeaseExpiry, Host.Outcome.next.injEq] at ht
  subst ht
  simp +contextual (maxDischargeDepth := 40) only [State.when_sound, State.leaseExpiry_sound, implies_true, h_s]

theorem execGateQpush_sound (m : Master) (q : Fin 16) (v : Word) {s : State} (h_s : s.Sound) :
    KeepsSound (execGateQpush m q v s) := by
  intro t ht
  simp only [execGateQpush, Host.Outcome.next.injEq] at ht
  subst ht
  simp +contextual (maxDischargeDepth := 40) only [State.access_sound, State.queuePush_sound, implies_true, h_s]

theorem execGateQpop_sound (m : Master) (q : Fin 16) {s : State} (h_s : s.Sound) : KeepsSound (execGateQpop m q s) := by
  intro t ht
  simp only [execGateQpop, Host.Outcome.next.injEq] at ht
  subst ht
  simp +contextual (maxDischargeDepth := 40) only [State.access_sound, State.queuePopFx_sound, State.emit_sound,
    implies_true, h_s]

theorem execGateQclr_sound (m : Master) (q : Fin 16) (v : Word) {s : State} (h_s : s.Sound) :
    KeepsSound (execGateQclr m q v s) := by
  intro t ht
  simp only [execGateQclr, Host.Outcome.next.injEq] at ht
  subst ht
  simp +contextual (maxDischargeDepth := 40) only [State.access_sound, State.queueClear_sound, implies_true, h_s]

/-! ### Machine/Boot.lean -/

theorem State.hsEval_sound {s : State} (h_s : s.Sound) : (State.hsEval s).Sound := by
  unfold State.hsEval
  simp +contextual (maxDischargeDepth := 40) only [State.raise_sound, State.spFaultCode_sound, ite_sound, h_s]

theorem State.runtimeLoad_sound (b : Bool) {s : State} (h_s : s.Sound) : (State.runtimeLoad b s).Sound := by
  unfold State.runtimeLoad
  simp +contextual (maxDischargeDepth := 40) only [State.Sound, State.hsEval_sound, State.pokeRun_sound, ite_sound, h_s]

theorem State.stewardStart_sound (b : Bool) {s : State} (h_s : s.Sound) : (State.stewardStart b s).Sound := by
  unfold State.stewardStart
  simp +contextual (maxDischargeDepth := 40) only [h_s]

theorem State.slotAccept_sound (b : Bool) {s : State} (h_s : s.Sound) : (State.slotAccept b s).Sound := by
  unfold State.slotAccept
  simp +contextual (maxDischargeDepth := 40) only [State.progTo_sound, ite_sound, h_s]

theorem State.verifyWrite_sound (v : Word) {s : State} (h_s : s.Sound) : (State.verifyWrite v s).Sound := by
  unfold State.verifyWrite
  simp +contextual (maxDischargeDepth := 40) only [State.Sound, State.setReg_sound, ite_sound, h_s]

theorem execBootVerify_sound (v : Word) {s : State} (h_s : s.Sound) : KeepsSound (execBootVerify v s) := by
  intro t ht
  simp only [execBootVerify, Host.Outcome.next.injEq] at ht
  subst ht
  simp +contextual (maxDischargeDepth := 40) only [State.verifyWrite_sound, h_s]

theorem State.verifyDone_sound {s : State} (h_s : s.Sound) : (State.verifyDone s).Sound := by
  unfold State.verifyDone
  dsimp only
  (repeat' split) <;> simp +contextual (maxDischargeDepth := 40) only [State.slotAccept_sound, h_s]

theorem execBootVerifyDone_sound {s : State} (h_s : s.Sound) : KeepsSound (execBootVerifyDone s) := by
  intro t ht
  simp only [execBootVerifyDone, Host.Outcome.next.injEq] at ht
  subst ht
  simp +contextual (maxDischargeDepth := 40) only [State.verifyDone_sound, State.when_sound, implies_true, h_s]

theorem State.keyProgram_sound (i : Fin 4) {s : State} (h_s : s.Sound) : (State.keyProgram i s).Sound := by
  unfold State.keyProgram
  simp +contextual (maxDischargeDepth := 40) only [ite_sound, h_s]

theorem execKeyProgram_sound (slot : Fin 4) {s : State} (h_s : s.Sound) : KeepsSound (execKeyProgram slot s) := by
  intro t ht
  simp only [execKeyProgram, Host.Outcome.next.injEq] at ht
  subst ht
  simp +contextual (maxDischargeDepth := 40) only [State.keyProgram_sound, h_s]

theorem State.keyRevoke_sound (i : Fin 4) {s : State} (h_s : s.Sound) : (State.keyRevoke i s).Sound := by
  unfold State.keyRevoke
  simp +contextual (maxDischargeDepth := 40) only [ite_sound, h_s]

theorem execKeyRevoke_sound (slot : Fin 4) {s : State} (h_s : s.Sound) : KeepsSound (execKeyRevoke slot s) := by
  intro t ht
  simp only [execKeyRevoke, Host.Outcome.next.injEq] at ht
  subst ht
  simp +contextual (maxDischargeDepth := 40) only [State.keyRevoke_sound, h_s]

theorem State.keyCmd_sound (v : Word) {s : State} (h_s : s.Sound) : (State.keyCmd v s).Sound := by
  unfold State.keyCmd
  dsimp only
  (repeat' split) <;> simp +contextual (maxDischargeDepth := 40) only [State.keyRevoke_sound, State.keyProgram_sound,
    h_s]

/-! ### Machine/Parts.lean -/

theorem State.partTo_sound (p : Fin 6) (x : PartState) {s : State} (h_s : s.Sound) : (State.partTo p x s).Sound := by
  unfold State.partTo
  simp +contextual (maxDischargeDepth := 40) only [State.raise_sound, State.revCheck_sound, h_s]

theorem State.partRefuse_sound {s : State} (h_s : s.Sound) : (State.partRefuse s).Sound := by
  unfold State.partRefuse
  simp +contextual (maxDischargeDepth := 40) only [h_s]

theorem State.partCmd_sound (m : Master) (p : Fin 8) (ok : PartState → Bool) (f : Fin 6 → State → State) {s : State}
    (h_s : s.Sound)
    (hf : ∀ q, ∀ t : State, t.Sound → (f q t).Sound) :
    (State.partCmd m p ok f s).Sound := by
  unfold State.partCmd
  exact dite_sound (fun _ => ite_sound (hf _ _ h_s) (State.partRefuse_sound h_s)) fun _ => State.partRefuse_sound h_s

theorem State.netAbort_sound {s : State} (h_s : s.Sound) : (State.netAbort s).Sound := by
  unfold State.netAbort
  simp +contextual (maxDischargeDepth := 40) only [State.each_sound, State.ethAbort_sound, State.when_sound,
    State.roadAbort_sound, implies_true, h_s]

theorem State.quiesceStart_sound (p : Fin 6) {s : State} (h_s : s.Sound) : (State.quiesceStart p s).Sound := by
  unfold State.quiesceStart
  dsimp only
  (repeat' split) <;> simp +contextual (maxDischargeDepth := 40) only [State.Sound, State.stopAsk_sound,
    State.partTo_sound, State.netAbort_sound, State.laneStop_sound, h_s]

theorem State.quiesce_sound (m : Master) (p : Fin 8) {s : State} (h_s : s.Sound) : (State.quiesce m p s).Sound := by
  unfold State.quiesce
  simp +contextual (maxDischargeDepth := 40) only [State.quiesceStart_sound, State.partCmd_sound, implies_true, h_s]

theorem execQuiesce_sound (m : Master) (p : Fin 8) {s : State} (h_s : s.Sound) : KeepsSound (execQuiesce m p s) := by
  intro t ht
  simp only [execQuiesce, Host.Outcome.next.injEq] at ht
  subst ht
  simp +contextual (maxDischargeDepth := 40) only [State.access_sound, State.quiesce_sound, implies_true, h_s]

theorem State.syncLost_sound {s : State} (h_s : s.Sound) : (State.syncLost s).Sound := by
  unfold State.syncLost
  simp +contextual (maxDischargeDepth := 40) only [State.raiseIf_sound, State.revCheck_sound, h_s]

theorem State.resetStart_sound (bankB : Bool) (p : Fin 6) {s : State} (h_s : s.Sound) :
    (State.resetStart bankB p s).Sound := by
  unfold State.resetStart
  extract_lets off t
  have hO : ∀ a i, ∀ u : State, u.Sound → (off a i u).Sound := fun _ _ _ hu => State.setReg_sound _ _ hu
  have hT : t.Sound := State.partTo_sound p .resetting h_s
  clear_value off t
  split
  · exact State.wlvSync_sound (Contained.withClaims hT [] (Nat.zero_le _))
  · refine hO _ _ _ (hO _ _ _ (hO _ _ _ (hO _ _ _ (hO _ _ _
      (State.each_sound (State.each_sound ?_ fun _ _ ht => State.frameEnd_sound _ _ ht) fun _ _ ht =>
        State.txDone_sound _ _ ht)))))
    exact Contained.withLearnq hT [] (Nat.zero_le _)
  · exact State.gateOwnerReset_sound _ hT
  · exact hO _ _ _ (State.laneOff_sound hT)
  · exact State.gateOwnerReset_sound _ hT
  · have hA := State.each_sound (s := t.gateOwnerReset 3) (l := fins 32)
      (f := fun n u => off (Reg.chctl n) 0 (u.gateOwnerReset (dmaCode n))) (State.gateOwnerReset_sound 3 hT)
      fun _ _ ht => hO _ _ _ (State.gateOwnerReset_sound _ ht)
    refine hO _ _ _ (hO _ _ _ ?_)
    exact Contained.withBuf hA [] (Nat.zero_le _)

theorem State.rejoinStart_sound (p : Fin 6) {s : State} (h_s : s.Sound) : (State.rejoinStart p s).Sound := by
  unfold State.rejoinStart
  simp +contextual (maxDischargeDepth := 40) only [State.partTo_sound, h_s]

theorem State.quiesceEnd_sound (p : Fin 6) {s : State} (h_s : s.Sound) : (State.quiesceEnd p s).Sound := by
  unfold State.quiesceEnd
  (repeat' split) <;> simp_all +contextual (maxDischargeDepth := 40) only [State.Sound, State.splitTake_sound,
    State.dmaDropAll_sound, State.resetStart_sound, State.partTo_sound, State.syncLost_sound, ite_sound]

theorem State.quiesceComplete_sound (p : Fin 6) {s : State} (h_s : s.Sound) : (State.quiesceComplete p s).Sound := by
  unfold State.quiesceComplete
  simp +contextual (maxDischargeDepth := 40) only [State.quiesceEnd_sound, ite_sound, h_s]

theorem execQuiesceComplete_sound (p : Fin 6) {s : State} (h_s : s.Sound) : KeepsSound (execQuiesceComplete p s) := by
  intro t ht
  simp only [execQuiesceComplete, Host.Outcome.next.injEq] at ht
  subst ht
  simp +contextual (maxDischargeDepth := 40) only [State.quiesceComplete_sound, h_s]

theorem State.partReset_sound (m : Master) (p : Fin 8) (bankB : Bool) {s : State} (h_s : s.Sound) :
    (State.partReset m p bankB s).Sound := by
  unfold State.partReset
  simp +contextual (maxDischargeDepth := 40) only [State.resetStart_sound, State.partCmd_sound, implies_true, h_s]

theorem execPartitionReset_sound (m : Master) (p : Fin 8) (bankB : Bool) {s : State} (h_s : s.Sound) :
    KeepsSound (execPartitionReset m p bankB s) := by
  intro t ht
  simp only [execPartitionReset, Host.Outcome.next.injEq] at ht
  subst ht
  simp +contextual (maxDischargeDepth := 40) only [State.partReset_sound, State.access_sound, implies_true, h_s]

theorem State.resetEnd_sound (p : Fin 6) {s : State} (h_s : s.Sound) : (State.resetEnd p s).Sound := by
  unfold State.resetEnd
  dsimp only
  (repeat' split) <;> simp +contextual (maxDischargeDepth := 40) only [State.rejoinStart_sound, State.partTo_sound,
    State.hsEval_sound, State.stewardStart_sound, State.raise_sound, State.runtimeLoad_sound, h_s]

theorem State.partResetDone_sound (p : Fin 6) {s : State} (h_s : s.Sound) : (State.partResetDone p s).Sound := by
  unfold State.partResetDone
  simp +contextual (maxDischargeDepth := 40) only [State.resetEnd_sound, ite_sound, h_s]

theorem execPartitionResetDone_sound (p : Fin 6) {s : State} (h_s : s.Sound) :
    KeepsSound (execPartitionResetDone p s) := by
  intro t ht
  simp only [execPartitionResetDone, Host.Outcome.next.injEq] at ht
  subst ht
  simp +contextual (maxDischargeDepth := 40) only [State.partResetDone_sound, h_s]

theorem State.rejoin_sound (m : Master) (p : Fin 8) {s : State} (h_s : s.Sound) : (State.rejoin m p s).Sound := by
  unfold State.rejoin
  simp +contextual (maxDischargeDepth := 40) only [State.rejoinStart_sound, State.partCmd_sound, implies_true, h_s]

theorem execRejoin_sound (m : Master) (p : Fin 8) {s : State} (h_s : s.Sound) : KeepsSound (execRejoin m p s) := by
  intro t ht
  simp only [execRejoin, Host.Outcome.next.injEq] at ht
  subst ht
  simp +contextual (maxDischargeDepth := 40) only [State.access_sound, State.rejoin_sound, implies_true, h_s]

theorem State.rejoinLate_sound {s : State} (h_s : s.Sound) : (State.rejoinLate s).Sound := by
  unfold State.rejoinLate
  simp +contextual (maxDischargeDepth := 40) only [State.Sound, State.svyClear_sound, State.wlvSync_sound, h_s]

theorem State.rejoinEnd_sound (p : Fin 6) {s : State} (h_s : s.Sound) : (State.rejoinEnd p s).Sound := by
  unfold State.rejoinEnd
  dsimp only
  (repeat' split) <;> simp +contextual (maxDischargeDepth := 40) only [State.partTo_sound, State.ethKick_sound,
    State.raise_sound, State.rejoinLate_sound, State.when_sound, State.progTo_sound, State.laneOn_sound,
    State.splitTake_sound, implies_true, h_s]

theorem State.rejoinComplete_sound (p : Fin 6) {s : State} (h_s : s.Sound) : (State.rejoinComplete p s).Sound := by
  unfold State.rejoinComplete
  simp +contextual (maxDischargeDepth := 40) only [State.rejoinEnd_sound, ite_sound, h_s]

theorem execRejoinComplete_sound (p : Fin 6) {s : State} (h_s : s.Sound) : KeepsSound (execRejoinComplete p s) := by
  intro t ht
  simp only [execRejoinComplete, Host.Outcome.next.injEq] at ht
  subst ht
  simp +contextual (maxDischargeDepth := 40) only [State.rejoinComplete_sound, h_s]

theorem State.partCtl_sound (m : Master) (v : Word) {s : State} (h_s : s.Sound) : (State.partCtl m v s).Sound := by
  unfold State.partCtl
  dsimp only
  (repeat' split) <;> simp +contextual (maxDischargeDepth := 40) only [State.partReset_sound, State.rejoin_sound,
    State.partRefuse_sound, State.quiesce_sound, h_s]

theorem State.kick_sound {s : State} (h_s : s.Sound) : (State.kick s).Sound := by
  unfold State.kick
  simp +contextual (maxDischargeDepth := 40) only [h_s]

theorem execBootKick_sound {s : State} (h_s : s.Sound) : KeepsSound (execBootKick s) := by
  intro t ht
  simp only [execBootKick, Host.Outcome.next.injEq] at ht
  subst ht
  simp +contextual (maxDischargeDepth := 40) only [State.kick_sound, h_s]

theorem State.swdExpire_sound {s : State} (h_s : s.Sound) : (State.swdExpire s).Sound := by
  unfold State.swdExpire
  dsimp only
  (repeat' split) <;> simp +contextual (maxDischargeDepth := 40) only [State.Sound, State.fbQueue_sound,
    State.quiesceStart_sound, State.raise_sound, h_s]

theorem execStewardWatchdog_sound {s : State} (h_s : s.Sound) : KeepsSound (execStewardWatchdog s) := by
  intro t ht
  simp only [execStewardWatchdog, Host.Outcome.next.injEq] at ht
  subst ht
  simp +contextual (maxDischargeDepth := 40) only [State.when_sound, State.swdExpire_sound, implies_true, h_s]

/-! ### Machine/Debug.lean -/

theorem State.jtag_sound (f : State → State) {s : State} (h_s : s.Sound)
    (hf : ∀ t : State, t.Sound → (f t).Sound) : (State.jtag f s).Sound := State.when_sound h_s hf

theorem State.tapLoad_sound (ir : BitVec 5) {s : State} (h_s : s.Sound) : (State.tapLoad ir s).Sound := by
  unfold State.tapLoad
  simp +contextual (maxDischargeDepth := 40) only [h_s]

theorem State.tapScan_sound (ir : BitVec 5) {s : State} (h_s : s.Sound) : (State.tapScan ir s).Sound := by
  unfold State.tapScan
  simp +contextual (maxDischargeDepth := 40) only [State.emit_sound, State.tapLoad_sound, h_s]

theorem execTapReset_sound {s : State} (h_s : s.Sound) : KeepsSound (execTapReset s) := by
  intro t ht
  simp only [execTapReset, Host.Outcome.next.injEq] at ht
  subst ht
  simp +contextual (maxDischargeDepth := 40) only [State.tapLoad_sound, State.jtag_sound, implies_true, h_s]

theorem State.extestScan_sound (pins cells : BitVec 225) {s : State} (h_s : s.Sound) :
    (State.extestScan pins cells s).Sound := by
  unfold State.extestScan
  simp +contextual (maxDischargeDepth := 40) only [State.Sound, State.emit_sound, State.tapScan_sound, ite_sound, h_s]

theorem execExtest_sound (pins cells : BitVec 225) {s : State} (h_s : s.Sound) :
    KeepsSound (execExtest pins cells s) := by
  intro t ht
  simp only [execExtest, Host.Outcome.next.injEq] at ht
  subst ht
  simp +contextual (maxDischargeDepth := 40) only [State.extestScan_sound, State.jtag_sound, implies_true, h_s]

theorem State.sampleScan_sound (pins cells : BitVec 225) {s : State} (h_s : s.Sound) :
    (State.sampleScan pins cells s).Sound := by
  unfold State.sampleScan
  simp +contextual (maxDischargeDepth := 40) only [State.Sound, State.emit_sound, State.tapScan_sound, h_s]

theorem execSamplePreload_sound (pins cells : BitVec 225) {s : State} (h_s : s.Sound) :
    KeepsSound (execSamplePreload pins cells s) := by
  intro t ht
  simp only [execSamplePreload, Host.Outcome.next.injEq] at ht
  subst ht
  simp +contextual (maxDischargeDepth := 40) only [State.sampleScan_sound, State.jtag_sound, implies_true, h_s]

theorem State.idcodeScan_sound {s : State} (h_s : s.Sound) : (State.idcodeScan s).Sound := by
  unfold State.idcodeScan
  simp +contextual (maxDischargeDepth := 40) only [State.emit_sound, State.tapScan_sound, h_s]

theorem execIdcode_sound {s : State} (h_s : s.Sound) : KeepsSound (execIdcode s) := by
  intro t ht
  simp only [execIdcode, Host.Outcome.next.injEq] at ht
  subst ht
  simp +contextual (maxDischargeDepth := 40) only [State.idcodeScan_sound, State.jtag_sound, implies_true, h_s]

theorem State.bypassScan_sound (tdi : Bool) {s : State} (h_s : s.Sound) : (State.bypassScan tdi s).Sound := by
  unfold State.bypassScan
  simp +contextual (maxDischargeDepth := 40) only [State.Sound, State.emit_sound, State.tapScan_sound, h_s]

theorem execBypass_sound (tdi : Bool) {s : State} (h_s : s.Sound) : KeepsSound (execBypass tdi s) := by
  intro t ht
  simp only [execBypass, Host.Outcome.next.injEq] at ht
  subst ht
  simp +contextual (maxDischargeDepth := 40) only [State.bypassScan_sound, State.jtag_sound, implies_true, h_s]

theorem State.dtmcsScan_sound (v : Word) {s : State} (h_s : s.Sound) : (State.dtmcsScan v s).Sound := by
  unfold State.dtmcsScan
  simp +contextual (maxDischargeDepth := 40) only [State.Sound, State.emit_sound, State.tapScan_sound, ite_sound, h_s]

theorem execDtmcs_sound (v : Word) {s : State} (h_s : s.Sound) : KeepsSound (execDtmcs v s) := by
  intro t ht
  simp only [execDtmcs, Host.Outcome.next.injEq] at ht
  subst ht
  simp +contextual (maxDischargeDepth := 40) only [State.dtmcsScan_sound, State.jtag_sound, implies_true, h_s]

theorem State.dmi_sound (f : State → State) {s : State} (h_s : s.Sound)
    (hf : ∀ t : State, t.Sound → (f t).Sound) : (State.dmi f s).Sound := by
  unfold State.dmi
  split
  · exact h_s
  · split
    · exact hf _ h_s
    · exact h_s

theorem State.debugHalt_sound (h : Hart) {s : State} (h_s : s.Sound) : (State.debugHalt h s).Sound := by
  unfold State.debugHalt
  simp +contextual (maxDischargeDepth := 40) only [State.setHart_sound, State.dmi_sound, ite_sound, implies_true, h_s]

theorem execDebugHalt_sound (h : Hart) {s : State} (h_s : s.Sound) : KeepsSound (execDebugHalt h s) := by
  intro t ht
  simp only [execDebugHalt, Host.Outcome.next.injEq] at ht
  subst ht
  simp +contextual (maxDischargeDepth := 40) only [State.debugHalt_sound, h_s]

theorem State.debugResume_sound (h : Hart) {s : State} (h_s : s.Sound) : (State.debugResume h s).Sound := by
  unfold State.debugResume
  simp +contextual (maxDischargeDepth := 40) only [State.setHart_sound, State.dmi_sound, implies_true, h_s]

theorem execDebugResume_sound (h : Hart) {s : State} (h_s : s.Sound) : KeepsSound (execDebugResume h s) := by
  intro t ht
  simp only [execDebugResume, Host.Outcome.next.injEq] at ht
  subst ht
  simp +contextual (maxDischargeDepth := 40) only [State.debugResume_sound, h_s]

theorem State.singleStep_sound (h : Hart) (nextPc : Word) {s : State} (h_s : s.Sound) :
    (State.singleStep h nextPc s).Sound := by
  unfold State.singleStep
  simp +contextual (maxDischargeDepth := 40) only [State.setHart_sound, State.dmi_sound, ite_sound, implies_true, h_s]

theorem execSingleStep_sound (h : Hart) (nextPc : Word) {s : State} (h_s : s.Sound) :
    KeepsSound (execSingleStep h nextPc s) := by
  intro t ht
  simp only [execSingleStep, Host.Outcome.next.injEq] at ht
  subst ht
  simp +contextual (maxDischargeDepth := 40) only [State.singleStep_sound, h_s]

theorem State.pmpFollow_sound (n : Nat) {s : State} (h_s : s.Sound) : (State.pmpFollow n s).Sound := by
  unfold State.pmpFollow
  simp +contextual (maxDischargeDepth := 40) only [h_s]

theorem State.hartWrite_sound (h : Hart) (regno : Nat) (v : Word) {s : State} (h_s : s.Sound) :
    (State.hartWrite h regno v s).Sound := by
  unfold State.hartWrite
  simp +contextual (maxDischargeDepth := 40) only [State.setHart_sound, State.pmpFollow_sound, ite_sound, h_s]

theorem State.progBuf_sound (h : Hart) (x : BufOp) {s : State} (h_s : s.Sound) : (State.progBuf h x s).Sound := by
  unfold State.progBuf
  dsimp only
  (repeat' split) <;> simp +contextual (maxDischargeDepth := 40) only [State.emit_sound, h_s]

theorem State.abstract_sound (h : Hart) (write : Bool) (regno : Nat) (v : Word) (buf : BufOp) {s : State}
    (h_s : s.Sound) : (State.abstract h write regno v buf s).Sound := by
  unfold State.abstract
  refine State.dmi_sound _ h_s fun t ht => ?_
  refine ite_sound ht ?_
  have hu := State.progBuf_sound h buf ht
  dsimp only
  split
  · exact hu
  · simp +contextual (maxDischargeDepth := 40) only [State.hartWrite_sound, State.emit_sound, State.when_sound,
      State.took_sound, implies_true, ite_sound, hu]

theorem execAbstractCommand_sound (h : Hart) (write : Bool) (regno : Half) (v : Word) (buf : BufOp) {s : State}
    (h_s : s.Sound) : KeepsSound (execAbstractCommand h write regno v buf s) := by
  intro t ht
  simp only [execAbstractCommand, Host.Outcome.next.injEq] at ht
  subst ht
  exact State.abstract_sound _ _ _ _ _ h_s

/-! ### Machine/Gauge.lean -/

theorem State.gaugeConvert_sound {s : State} (h_s : s.Sound) : (State.gaugeConvert s).Sound := by
  unfold State.gaugeConvert
  simp +contextual (maxDischargeDepth := 40) only [State.took_sound, h_s]

theorem State.gaugeHold_sound (v : Half) {s : State} (h_s : s.Sound) : (State.gaugeHold v s).Sound := by
  unfold State.gaugeHold
  simp +contextual (maxDischargeDepth := 40) only [ite_sound, h_s]

theorem State.gaugeSelWrite_sound (a : Nat) (v : Word) {s : State} (h_s : s.Sound) :
    (State.gaugeSelWrite a v s).Sound := by
  unfold State.gaugeSelWrite
  simp +contextual (maxDischargeDepth := 40) only [State.gaugeConvert_sound, State.setReg_sound, State.when_sound,
    implies_true, h_s]

theorem execGaugeConversion_sound {s : State} (h_s : s.Sound) : KeepsSound (execGaugeConversion s) := by
  intro t ht
  simp only [execGaugeConversion, Host.Outcome.next.injEq] at ht
  subst ht
  simp +contextual (maxDischargeDepth := 40) only [State.when_sound, State.gaugeConvert_sound, implies_true, h_s]

/-! ### Machine/RegFile.lean -/

theorem State.shadowTaken_sound (a : Nat) {s : State} (h_s : s.Sound) :
    (State.shadowTaken a s).Sound := by
  unfold State.shadowTaken
  dsimp only
  split
  · exact h_s
  split
  · exact h_s
  split
  · exact State.modPort_sound _ _ h_s
  split
  · exact State.modPort_sound _ _ h_s
  · exact h_s

theorem State.wholeReadFx_sound (m : Master) (a : Nat) {s : State} (h_s : s.Sound) :
    (State.wholeReadFx m a s).Sound := by
  unfold State.wholeReadFx
  simp +contextual (maxDischargeDepth := 40) only [State.elogPop_sound, State.queuePopFx_sound,
    State.shadowTaken_sound, State.claimFx_sound, State.learnqPop_sound, State.reqqPop_sound, State.tsShadow_sound,
    State.gateTryFx_sound, State.cwyLogPop_sound, State.fbRawPop_sound, State.claimPop_sound, ite_sound, h_s]

theorem State.rcReadFx_sound (a : Nat) (be : BitVec 4) {s : State} (h_s : s.Sound) : (State.rcReadFx a be s).Sound := by
  unfold State.rcReadFx
  simp +contextual (maxDischargeDepth := 40) only [ite_sound, h_s]

theorem State.regReadFx_sound (m : Master) (a : Nat) (be : BitVec 4) {s : State} (h_s : s.Sound) :
    (State.regReadFx m a be s).Sound := by
  unfold State.regReadFx
  simp +contextual (maxDischargeDepth := 40) only [State.when_sound, State.wholeReadFx_sound, State.rcReadFx_sound,
    implies_true, h_s]

theorem State.writeSys_sound (m : Master) (a : Nat) (be : BitVec 4) (v : Word) {s : State} (h_s : s.Sound) :
    (State.writeSys m a be v s).Sound := by
  unfold State.writeSys
  simp +contextual (maxDischargeDepth := 40) only [State.when_sound, State.partCtl_sound, State.setReg_sound,
    ite_sound, implies_true, h_s]

theorem State.writeEvt_sound (a : Nat) (be : BitVec 4) (v : Word) {s : State} (h_s : s.Sound) :
    (State.writeEvt a be v s).Sound := by
  unfold State.writeEvt
  simp +contextual (maxDischargeDepth := 40) only [State.raise_sound, State.when_sound, State.setReg_sound, ite_sound,
    implies_true, h_s]

theorem State.liuCtlWrite_sound (v : Word) {s : State} (h_s : s.Sound) : (State.liuCtlWrite v s).Sound := by
  unfold State.liuCtlWrite
  simp +contextual (maxDischargeDepth := 40) only [State.portEnable_sound, State.each_sound, State.setReg_sound,
    ite_sound, implies_true, h_s]

theorem State.pcfgWrite_sound (p : Fin 4) (a : Nat) (v : Word) {s : State} (h_s : s.Sound) :
    (State.pcfgWrite p a v s).Sound := by
  unfold State.pcfgWrite
  simp +contextual (maxDischargeDepth := 40) only [State.portTo_sound, State.modPort_sound, State.setReg_sound,
    ite_sound, h_s]

theorem State.maskWrite_sound (a : Nat) (v : Word) {s : State} (h_s : s.Sound) : (State.maskWrite a v s).Sound := by
  unfold State.maskWrite
  simp +contextual (maxDischargeDepth := 40) only [State.setReg_sound, ite_sound, h_s]

theorem State.slotWrite_sound (p : Fin 4) (i : Nat) (be : BitVec 4) (v : Word) {s : State} (h_s : s.Sound) :
    (State.slotWrite p i be v s).Sound := by
  unfold State.slotWrite
  simp +contextual (maxDischargeDepth := 40) only [State.modPort_sound, ite_sound, h_s]

theorem State.writeLiu_sound (a : Nat) (be : BitVec 4) (v : Word) {s : State} (h_s : s.Sound) :
    (State.writeLiu a be v s).Sound := by
  unfold State.writeLiu
  simp +contextual (maxDischargeDepth := 40) only [State.maskWrite_sound, State.liuCtlWrite_sound,
    State.pcfgWrite_sound, State.slotWrite_sound, State.setReg_sound, ite_sound, h_s]

theorem State.writeSvy_sound (m : Master) (a : Nat) (be : BitVec 4) (v : Word) {s : State} (h_s : s.Sound) :
    (State.writeSvy m a be v s).Sound := by
  unfold State.writeSvy
  simp +contextual (maxDischargeDepth := 40) only [State.svyCtlWrite_sound, State.setReg_sound, ite_sound, h_s]

theorem State.wmtabWrite_sound (i : Nat) (be : BitVec 4) (v : Word) {s : State} (h_s : s.Sound) :
    (State.wmtabWrite i be v s).Sound := by
  unfold State.wmtabWrite
  simp +contextual (maxDischargeDepth := 40) only [ite_sound, h_s]

theorem State.writeTre_sound (a : Nat) (be : BitVec 4) (v : Word) {s : State} (h_s : s.Sound) :
    (State.writeTre a be v s).Sound := by
  unfold State.writeTre
  simp +contextual (maxDischargeDepth := 40) only [State.wmtabWrite_sound, State.setReg_sound, State.editWrite_sound,
    ite_sound, h_s]

theorem State.writeRoad_sound (a : Nat) (v : Word) {s : State} (h_s : s.Sound) : (State.writeRoad a v s).Sound := by
  unfold State.writeRoad
  simp +contextual (maxDischargeDepth := 40) only [State.pauseAll_sound, State.roadPcfgWrite_sound,
    State.roadCtlWrite_sound, State.ping_sound, State.setReg_sound, ite_sound, h_s]

theorem State.writeEth_sound (a : Nat) (be : BitVec 4) (v : Word) {s : State} (h_s : s.Sound) :
    (State.writeEth a be v s).Sound := by
  have hA : ∀ x, ({ s with eth.atab := x } : State).Sound := fun _ => h_s
  exact ite_sound (State.ethCtlWrite_sound _ _ h_s) (ite_sound (State.mdioWrite_sound _ _ h_s)
    (ite_sound (State.ethPfcWrite_sound _ _ h_s) (ite_sound (hA _) (State.setReg_sound _ _ h_s))))

theorem State.writeCnt_sound (a : Nat) (v : Word) {s : State} (h_s : s.Sound) : (State.writeCnt a v s).Sound := by
  unfold State.writeCnt
  simp +contextual (maxDischargeDepth := 40) only [State.cairnWrite_sound, State.setReg_sound, ite_sound, h_s]

theorem State.writeFbk_sound (a : Nat) (v : Word) {s : State} (h_s : s.Sound) : (State.writeFbk a v s).Sound := by
  unfold State.writeFbk
  simp +contextual (maxDischargeDepth := 40) only [State.setReg_sound, State.fbWipe_sound, State.fbUserGo_sound,
    ite_sound, h_s]

theorem State.slotChosen_sound {s : State} (h_s : s.Sound) : (State.slotChosen s).Sound := by
  unfold State.slotChosen
  simp +contextual (maxDischargeDepth := 40) only [State.progTo_sound, ite_sound, h_s]

theorem State.runctlWrite_sound (v : Word) {s : State} (h_s : s.Sound) : (State.runctlWrite v s).Sound := by
  unfold State.runctlWrite
  simp +contextual (maxDischargeDepth := 40) only [State.when_sound, State.runAsk_sound, State.stopAsk_sound,
    State.setReg_sound, State.slotChosen_sound, implies_true, h_s]

theorem State.writeItn_sound (a : Nat) (v : Word) {s : State} (h_s : s.Sound) : (State.writeItn a v s).Sound := by
  unfold State.writeItn
  simp +contextual (maxDischargeDepth := 40) only [State.runctlWrite_sound, State.setReg_sound, ite_sound, h_s]

theorem State.writeLane_sound (a : Nat) (v : Word) {s : State} (h_s : s.Sound) : (State.writeLane a v s).Sound := by
  have hG : ({ s with lane.go := true } : State).Sound := h_s
  unfold State.writeLane
  simp +contextual (maxDischargeDepth := 40) only [State.laneCtlWrite_sound, State.when_sound, State.setReg_sound,
    State.subDone_sound (fun _ t => t) (fun _ _ h => h), ite_sound, implies_true, h_s]

theorem State.writeWlv_sound (a : Nat) (v : Word) {s : State} (h_s : s.Sound) : (State.writeWlv a v s).Sound := by
  unfold State.writeWlv
  simp +contextual (maxDischargeDepth := 40) only [State.setReg_sound, State.wlvCtlWrite_sound,
    State.bcommitWrite_sound, ite_sound, h_s]

theorem State.writeDma_sound (m : Master) (a : Nat) (v : Word) {s : State} (h_s : s.Sound) :
    (State.writeDma m a v s).Sound := by
  unfold State.writeDma
  dsimp only
  (repeat' split) <;> simp +contextual (maxDischargeDepth := 40) only [State.dmaEnWrite_sound,
    State.dmaCtlWrite_sound, State.setDch_sound, State.setReg_sound, h_s]

theorem State.testLog_sound {s : State} (h_s : s.Sound) : (State.testLog s).Sound := by
  unfold State.testLog
  simp +contextual (maxDischargeDepth := 40) only [State.cwyLogAdd_sound, h_s]

theorem State.writeCwy_sound (a : Nat) (v : Word) {s : State} (h_s : s.Sound) : (State.writeCwy a v s).Sound := by
  unfold State.writeCwy
  simp +contextual (maxDischargeDepth := 40) only [State.testLog_sound, State.setReg_sound, State.wctlWrite_sound,
    State.when_sound, ite_sound, implies_true, h_s]

theorem State.writeGate_sound (m : Master) (a : Nat) (be : BitVec 4) (v : Word) {s : State} (h_s : s.Sound) :
    (State.writeGate m a be v s).Sound := by
  unfold State.writeGate
  dsimp only
  (repeat' split) <;> simp +contextual (maxDischargeDepth := 40) only [State.queuePush_sound, State.gateRelFx_sound,
    State.queueClear_sound, State.gateForceFx_sound, State.setReg_sound, h_s]

theorem State.writeBoot_sound (m : Master) (a : Nat) (be : BitVec 4) (v : Word) {s : State} (h_s : s.Sound) :
    (State.writeBoot m a be v s).Sound := by
  unfold State.writeBoot
  simp +contextual (maxDischargeDepth := 40) only [State.verifyWrite_sound, State.kick_sound, State.when_sound,
    State.keyCmd_sound, State.setReg_sound, ite_sound, implies_true, h_s]

theorem State.regWrite_sound (m : Master) (a : Nat) (be : BitVec 4) (w : Word) {s : State} (h_s : s.Sound) :
    (State.regWrite m a be w s).Sound := by
  unfold State.regWrite
  (repeat' split) <;> simp_all +contextual (maxDischargeDepth := 40) only [State.writeDma_sound, State.writeFbk_sound,
    State.flashErase_sound, State.writeRoad_sound, State.writeBoot_sound, State.setReg_sound, State.writeCnt_sound,
    State.writeLiu_sound, State.writeCwy_sound, State.writeEth_sound, State.gaugeSelWrite_sound, State.writeItn_sound,
    State.writeGate_sound, State.writeWlv_sound, State.writeLane_sound, State.writeSvy_sound, State.writeEvt_sound,
    State.writeSys_sound, State.writeTre_sound]

theorem State.busReadFx_sound (m : Master) (a : Nat) (be : BitVec 4) {s : State} (h_s : s.Sound) :
    (State.busReadFx m a be s).Sound := by
  unfold State.busReadFx
  simp +contextual (maxDischargeDepth := 40) only [State.regReadFx_sound, State.memReadFx_sound, ite_sound, h_s]

theorem State.busWrite_sound (m : Master) (a : Nat) (be : BitVec 4) (v : Word) {s : State} (h_s : s.Sound) :
    (State.busWrite m a be v s).Sound := by
  unfold State.busWrite
  simp +contextual (maxDischargeDepth := 40) only [State.memWrite_sound, State.regWrite_sound, ite_sound, h_s]

end Sys2Proof.Machine
end

