-- ==== Sys2Proof/Laws/KeepsPower.lean ====
section
/-! SUPPORT. Every operation and meaning of the Causeway, transit, the resets, the service port, passes and power
keeps the stores within their bounds. -/
namespace Sys2Proof.Machine

/-! ### Machine/Causeway.lean -/

theorem State.hostAnswer_sound (v : Half) (inverted : Bool) {s : State} (h_s : s.Sound) :
    (State.hostAnswer v inverted s).Sound := by
  unfold State.hostAnswer
  simp +contextual (maxDischargeDepth := 40) only [State.emit_sound, State.when_sound, implies_true, h_s]

theorem State.shadowDrop_sound (w : Fin 16) {s : State} (h_s : s.Sound) : (State.shadowDrop w s).Sound := by
  unfold State.shadowDrop
  simp +contextual (maxDischargeDepth := 40) only [State.modWin_sound, h_s]

theorem State.hostFetch_sound (x : HostAcc) (be : BitVec 4) {s : State} (h_s : s.Sound) :
    (State.hostFetch x be s).1.Sound := by
  have hF := ite_sound (c := x.peek = true) h_s (State.busReadFx_sound .causeway x.word be h_s)
  unfold State.hostFetch
  dsimp only
  split
  · exact hF
  · exact State.hostLog_sound _ _ _ hF
  · exact State.hostLog_sound _ _ _ hF

theorem State.hostDisc_sound (w : Fin 16) {s : State} (h_s : s.Sound) : (State.hostDisc w s).Sound :=
  State.shadowDrop_sound w (State.heldDrop_sound w h_s)

theorem State.hostReadNow_sound (x : HostAcc) {s : State} (h_s : s.Sound) :
    (State.hostReadNow x s).Sound := by
  have hD := State.shadowDrop_sound x.win h_s
  have hF := fun be => State.hostFetch_sound x be hD
  unfold State.hostReadNow
  dsimp only
  split
  · exact State.hostAnswer_sound _ _ hD
  · split
    · exact State.hostAnswer_sound _ _ (hF _)
    · exact State.hostAnswer_sound _ _ (State.when_sound (hF _) fun _ ht => State.modWin_sound _ _ ht)

theorem State.hostRead_sound (h : HostAddr) {s : State} (h_s : s.Sound) : (State.hostRead h s).Sound := by
  unfold State.hostRead
  extract_lets x bad
  have hB : ∀ t : State, t.Sound → (bad t).Sound := fun _ ht => State.hostAnswer_sound _ _ ht
  refine ite_sound h_s ?_
  split
  · exact State.hostAnswer_sound _ _ h_s
  · exact hB _ (State.hostDisc_sound _ h_s)
  · exact State.hostAnswer_sound _ _ (State.raise_sound _ (State.hostLog_sound _ _ _ h_s))
  · exact hB _ (State.hostLog_sound _ _ _ (State.shadowDrop_sound _ h_s))
  · exact hB _ (State.hostLog_sound _ _ _ (State.shadowDrop_sound _ (State.heldDrop_sound _ h_s)))
  · have hT := State.heldDrop_sound x.win h_s
    exact ite_sound (hB _ (State.hostLog_sound _ _ _ (State.shadowDrop_sound _ hT))) (ite_sound hT
      (State.hostReadNow_sound _ hT))

theorem execHostRead_sound (h : HostAddr) {s : State} (h_s : s.Sound) : KeepsSound (execHostRead h s) := by
  intro t ht
  simp only [execHostRead, Host.Outcome.next.injEq] at ht
  subst ht
  simp +contextual (maxDischargeDepth := 40) only [State.hostRead_sound, h_s]

theorem State.hostWrite_sound (h : HostAddr) (v : Half) (par : BitVec 2) {s : State} (h_s : s.Sound) :
    (State.hostWrite h v par s).Sound := by
  have hS := State.shadowDrop_sound (s.hostAcc h).win h_s
  unfold State.hostWrite
  dsimp only
  refine ite_sound h_s ?_
  split
  · exact h_s
  · exact State.hostDisc_sound _ h_s
  · exact State.raise_sound _ (State.hostLog_sound _ _ _ h_s)
  · exact State.hostLog_sound _ _ _ (State.shadowDrop_sound _ h_s)
  · exact State.hostLog_sound _ _ _ (State.shadowDrop_sound _ (State.heldDrop_sound _ h_s))
  · split
    · exact State.raise_sound _ hS
    · rename_i hc
      refine State.hostAccept_sound _ _ _ hS ?_
      simp only [Bool.and_eq_true, decide_eq_true_eq, Bool.not_eq_true', not_and, Bool.not_eq_false] at hc
      by_cases hb : 32 ≤ (State.shadowDrop (s.hostAcc h).win s).cwy.buf.length
      · exact Or.inr (hc hb)
      · exact Or.inl (Nat.lt_of_not_le hb)

theorem execHostWrite_sound (h : HostAddr) (data : Half) (par : BitVec 2) {s : State} (h_s : s.Sound) :
    KeepsSound (execHostWrite h data par s) := by
  intro t ht
  simp only [execHostWrite, Host.Outcome.next.injEq] at ht
  subst ht
  simp +contextual (maxDischargeDepth := 40) only [State.hostWrite_sound, h_s]

theorem State.hostTimeout_sound {s : State} (h_s : s.Sound) : (State.hostTimeout s).Sound := by
  have hW : ({ s with cwy.waiting := none } : State).Sound := h_s
  unfold State.hostTimeout
  split
  · exact h_s
  · exact State.hostAnswer_sound _ _ (State.hostLog_sound _ _ _ (State.shadowDrop_sound _ hW))
  · exact State.hostLog_sound _ _ _ (State.heldDrop_sound _ hW)

theorem execHostWaitTimeout_sound {s : State} (h_s : s.Sound) : KeepsSound (execHostWaitTimeout s) := by
  intro t ht
  simp only [execHostWaitTimeout, Host.Outcome.next.injEq] at ht
  subst ht
  simp +contextual (maxDischargeDepth := 40) only [State.when_sound, State.hostTimeout_sound, implies_true, h_s]

theorem State.localResponse_sound {s : State} (h_s : s.Sound) : (State.localResponse s).Sound := by
  unfold State.localResponse
  split
  · exact h_s
  · rename_i e he
    have hT := Contained.withBuf h_s (s.cwy.buf.erase e) (Nat.le_trans (List.length_erase_le) (Contained.bufLe h_s))
    have hU : (State.busWrite .causeway e.addr.toNat e.be e.data { s with cwy.buf := s.cwy.buf.erase e }).Sound :=
      State.busWrite_sound _ _ _ _ hT
    extract_lets x t u v
    have hV : v.Sound := ite_sound (State.cwyLogAdd_sound _ _ _ _ _ _ _ _ hU) hU
    clear_value v
    split
    · exact ite_sound hV (State.hostReadNow_sound _ hV)
    · exact State.hostResume_sound hV

theorem State.farWrite_sound (b : List Byte) (k i : Nat) {s : State} (h_s : s.Sound) :
    (State.farWrite b k i s).1.Sound := by
  induction k generalizing i s with
  | zero => exact h_s
  | succ k ih =>
    unfold State.farWrite
    dsimp only
    split
    · exact h_s
    · split
      · exact State.busWrite_sound _ _ _ _ h_s
      · exact ih _ (State.busWrite_sound _ _ _ _ h_s)

theorem State.farSide_sound (b : List Byte) {s : State} (h_s : s.Sound) :
    (State.farSide b s).1.Sound := by
  unfold State.farSide
  dsimp only
  split
  · exact State.raiseIf_sound _ _ (State.farWrite_sound _ _ _ h_s)
  · exact State.raiseIf_sound _ _ h_s

theorem State.farServe_sound {s : State} (h_s : s.Sound) : (State.farServe s).Sound := by
  have hQ : ∀ l : List (List Byte), ({ s with cwy.farq := l } : State).Sound := fun _ => h_s
  unfold State.farServe
  split
  · exact h_s
  · exact State.sendUnicast_sound _ _ (State.bumpSeq_sound (State.farSide_sound _ (hQ _)))

theorem State.doneRx_sound (w : Fin 16) (b : List Byte) {s : State} (h_s : s.Sound) : (State.doneRx w b s).Sound := by
  unfold State.doneRx
  simp +contextual (maxDischargeDepth := 40) only [State.cwyFlightEnd_sound, ite_sound, h_s]

theorem deliverCwyDone_sound (f : RxFrame) (h : RHdr) {s : State} (h_s : s.Sound) :
    (deliverCwyDone.act f h s).Sound := ite_sound (State.doneRx_sound _ _ (State.count1_sound _ _ h_s))
      (State.count1_sound _ _ h_s)

theorem execCausewayDone_sound (f : RxFrame) {s : State} (h_s : s.Sound) : KeepsSound (execCausewayDone f s) := by
  intro t ht
  simp only [execCausewayDone, Host.Outcome.next.injEq] at ht
  subst ht
  exact State.roadRx_sound f _ h_s fun _ _ _ ht => deliverCwyDone_sound _ _ ht

theorem State.frameBuild_sound (w : Fin 16) {s : State} (h_s : s.Sound) : (State.frameBuild w s).Sound := by
  unfold State.frameBuild
  dsimp only
  split
  · have hL : (markFrame w (s.framePending w).length s.cwy.buf).length ≤ 32 := by
      rw [markFrame_length]
      exact Contained.bufLe h_s
    have hT := Contained.withBuf h_s _ hL
    split
    · exact State.doneRx_sound _ _ (State.farSide_sound _ (State.modWin_sound _ _ hT))
    · exact State.sendUnicast_sound _ _ (State.bumpSeq_sound (State.modWin_sound _ _ hT))
  · exact h_s

theorem State.doneLate_sound (w : Fin 16) {s : State} (h_s : s.Sound) : (State.doneLate w s).Sound := by
  unfold State.doneLate
  (repeat' split) <;> simp_all +contextual (maxDischargeDepth := 40) only [State.cwyFlightEnd_sound]

theorem execDoneTimeout_sound (w : Fin 16) {s : State} (h_s : s.Sound) : KeepsSound (execDoneTimeout w s) := by
  intro t ht
  simp only [execDoneTimeout, Host.Outcome.next.injEq] at ht
  subst ht
  simp +contextual (maxDischargeDepth := 40) only [State.when_sound, State.doneLate_sound, implies_true, h_s]

theorem execCwyLogPop_sound (m : Master) {s : State} (h_s : s.Sound) : KeepsSound (execCwyLogPop m s) := by
  intro t ht
  simp only [execCwyLogPop, Host.Outcome.next.injEq] at ht
  subst ht
  simp +contextual (maxDischargeDepth := 40) only [State.cwyLogPop_sound, State.access_sound, State.emit_sound,
    implies_true, h_s]

theorem execTestlog_sound {s : State} (h_s : s.Sound) : KeepsSound (execTestlog s) := by
  intro t ht
  simp only [execTestlog, Host.Outcome.next.injEq] at ht
  subst ht
  simp +contextual (maxDischargeDepth := 40) only [State.testLog_sound, h_s]

theorem deliverCwyWrite_sound (f : RxFrame) (h : RHdr) {s : State} (h_s : s.Sound) :
    (deliverCwyWrite.act f h s).Sound := State.count1_sound _ _ h_s

theorem deliveries_sound (d : Deliver) (hd : d ∈ deliveries) (f : RxFrame) (h : RHdr) {s : State}
    (h_s : s.Sound) : (d.act f h s).Sound := by
  have hc := State.count1_sound 4 14 h_s
  simp only [deliveries, List.mem_cons, List.not_mem_nil, or_false] at hd
  rcases hd with rfl | rfl | rfl | rfl | rfl | rfl | rfl | rfl | rfl | rfl | rfl | rfl | rfl | rfl | rfl | rfl | rfl |
    rfl | rfl | rfl | rfl
  · exact onSnrReport_sound f h (roadPayload f.body) hc
  · exact onSegmentAnnounce_sound f h (roadPayload f.body) hc
  · exact onRingAnnounce_sound f h (roadPayload f.body) hc
  · exact onToneAck_sound f h (roadPayload f.body) hc
  · exact onSegmentSummary_sound f h (roadPayload f.body) hc
  · exact onSegmentActivate_sound f h (roadPayload f.body) hc
  · exact onJoin_sound f h (roadPayload f.body) hc
  · exact onHere_sound f h (roadPayload f.body) hc
  · exact onResume_sound f h (roadPayload f.body) hc
  · exact onHello_sound f h (roadPayload f.body) hc
  · exact onEcho_sound f h (roadPayload f.body) hc
  · exact onReply_sound f h (roadPayload f.body) hc
  · exact onClaim_sound f h (roadPayload f.body) hc
  · exact onTableRequest_sound f h (roadPayload f.body) hc
  · exact onTable_sound f h (roadPayload f.body) hc
  · exact onWayleave_sound f h (roadPayload f.body) hc
  · exact deliverUser_sound _ _ h_s
  · exact deliverTunnel_sound _ _ h_s
  · exact deliverPause_sound _ _ h_s
  · exact deliverCwyWrite_sound _ _ h_s
  · exact deliverCwyDone_sound _ _ h_s

theorem deliverAny_sound (f : RxFrame) (h : RHdr) {s : State} (h_s : s.Sound) :
    (deliverAny.act f h s).Sound := by
  unfold deliverAny
  dsimp only
  split
  · rename_i d hd
    exact deliveries_sound d (List.mem_of_find?_eq_some hd) f h h_s
  · exact h_s

/-! ### Machine/Transit.lean -/

theorem execRoadTransit_sound (f : RxFrame) {s : State} (h_s : s.Sound) : KeepsSound (execRoadTransit f s) := by
  intro t ht
  simp only [execRoadTransit, Host.Outcome.next.injEq] at ht
  subst ht
  exact State.roadRx_sound f _ h_s fun _ _ _ ht => deliverAny_sound _ _ ht

theorem State.selfDeliver_sound (body : List Byte) {s : State} (h_s : s.Sound) : (State.selfDeliver body s).1.Sound := by
  unfold State.selfDeliver
  extract_lets h p f
  split
  · exact deliverAny_sound _ _ (State.took_sound h_s)
  · exact h_s
  · exact h_s

theorem State.recordSend_sound (keep : Bool) (a : Nat) {s : State} (h_s : s.Sound) : (State.recordSend keep a s).Sound := by
  unfold State.recordSend
  extract_lets h0 h body b _ t q u r
  have ht : t.Sound := State.blockReadFx_sound _ _ h_s
  have hu : u.Sound := ite_sound ht (State.bumpSeq_sound ht)
  clear_value t u
  exact ite_sound (State.frameEnd_sound _ _ ht) (ite_sound (State.sendBcast_sound _ hu) (ite_sound
    (State.frameEnd_sound _ _ (State.selfDeliver_sound _ hu)) (State.sendUnicast_sound _ _ hu)))

theorem State.txTake_sound (m : Master) (k : Nat) {s : State} (h_s : s.Sound) : (State.txTake m k s).Sound := by
  induction k generalizing s with
  | zero => exact h_s
  | succ k ih =>
    unfold State.txTake
    extract_lets a0 wrap a t
    have ht : t.Sound := State.when_sound (State.blockReadFx_sound _ _ h_s) fun _ => State.blockReadFx_sound _ _
    exact ite_sound h_s (ite_sound ht (ih (State.recordSend_sound _ _ ht)))

theorem State.txPosted_sound (m : Master) {s : State} (h_s : s.Sound) : (State.txPosted m s).Sound := by
  unfold State.txPosted
  simp +contextual (maxDischargeDepth := 40) only [State.txTake_sound, ite_sound, h_s]

theorem State.write_sound (m : Master) (a : Nat) (be : BitVec 4) (v : Word) {s : State} (h_s : s.Sound) :
    (State.write m a be v s).Sound := by
  unfold State.write
  simp +contextual (maxDischargeDepth := 40) only [State.busWrite_sound, State.txPosted_sound, h_s]

theorem execTransmitRecord_sound (m : Master) (wp : Word) {s : State} (h_s : s.Sound) :
    KeepsSound (execTransmitRecord m wp s) := by
  intro t ht
  simp only [execTransmitRecord, Host.Outcome.next.injEq] at ht
  subst ht
  simp +contextual (maxDischargeDepth := 40) only [State.access_sound, State.write_sound, implies_true, h_s]

theorem execLocalWriteResponse_sound {s : State} (h_s : s.Sound) : KeepsSound (execLocalWriteResponse s) := by
  intro t ht
  simp only [execLocalWriteResponse, Host.Outcome.next.injEq] at ht
  subst ht
  simp +contextual (maxDischargeDepth := 40) only [State.when_sound, State.txPosted_sound, State.localResponse_sound,
    implies_true, h_s]

theorem execCausewayWrite_sound (f : Option RxFrame) {s : State} (h_s : s.Sound) :
    KeepsSound (execCausewayWrite f s) := by
  intro t ht
  simp only [execCausewayWrite, Host.Outcome.next.injEq] at ht
  subst ht
  split
  · exact State.roadRx_sound _ _ h_s fun _ _ _ ht => deliverCwyWrite_sound _ _ ht
  · exact State.when_sound h_s fun _ hu => State.txPosted_sound _ (State.farServe_sound hu)

theorem execFrameBuild_sound (w : Fin 16) {s : State} (h_s : s.Sound) : KeepsSound (execFrameBuild w s) := by
  intro t ht
  simp only [execFrameBuild, Host.Outcome.next.injEq] at ht
  subst ht
  simp +contextual (maxDischargeDepth := 40) only [State.frameBuild_sound, State.when_sound, State.txPosted_sound,
    implies_true, h_s]

theorem State.coreReads_sound (l : List Nat) {s : State} (h_s : s.Sound) : (State.coreReads l s).Sound := by
  induction l generalizing s with
  | nil => exact h_s
  | cons w l ih =>
    have ht := State.busReadFx_sound .control w 0xF h_s
    exact ite_sound ht (ih ht)

theorem State.coreCopy_sound (a n : Nat) (f : State → State) {s : State} (h_s : s.Sound)
    (hf : ∀ t : State, t.Sound → (f t).Sound) : (State.coreCopy a n f s).Sound := by
  have ht := State.coreReads_sound (wordsOf a n) h_s
  unfold State.coreCopy
  dsimp only
  split
  · exact State.coreFault_sound _ _ _ ht
  · exact hf _ ht

theorem State.svcRoadSend_sound (a0 a1 : Word) {s : State} (h_s : s.Sound) : (State.svcRoadSend a0 a1 s).Sound := by
  unfold State.svcRoadSend
  extract_lets n
  refine ite_sound (State.svcRet0_sound _ h_s) (ite_sound (State.svcRet0_sound _ h_s) (ite_sound
    (State.svcRet0_sound _ h_s) (State.coreCopy_sound _ _ _ (State.gateTryFx_sound _ _ h_s) fun t ht => ?_)))
  dsimp only
  split
  · exact State.svcRet0_sound _ (State.gateRelFx_sound _ _ ht)
  · exact State.svcRet0_sound _ (State.gateRelFx_sound _ _ (State.write_sound _ _ _ _ (State.pokeBytes_sound _ _ _
      (State.when_sound ht fun _ => State.pokeWord_sound _ _ _))))

theorem execRoadSend_sound (a0 a1 : Word) {s : State} (h_s : s.Sound) : KeepsSound (execRoadSend a0 a1 s) := by
  intro t ht
  simp only [execRoadSend, Host.Outcome.next.injEq] at ht
  subst ht
  simp +contextual (maxDischargeDepth := 40) only [State.service_sound, State.svcRoadSend_sound, implies_true, h_s]

theorem State.svcRoadRecv_sound (a0 a1 a2 : Word) {s : State} (h_s : s.Sound) :
    (State.svcRoadRecv a0 a1 a2 s).Sound := by
  unfold State.svcRoadRecv
  simp +contextual (maxDischargeDepth := 40) only [State.pokeBytes_sound, State.coreCopy_sound, State.svcRet0_sound,
    State.write_sound, ite_sound, implies_true, h_s]

theorem execRoadRecv_sound (a0 a1 a2 : Word) {s : State} (h_s : s.Sound) : KeepsSound (execRoadRecv a0 a1 a2 s) := by
  intro t ht
  simp only [execRoadRecv, Host.Outcome.next.injEq] at ht
  subst ht
  simp +contextual (maxDischargeDepth := 40) only [State.service_sound, State.svcRoadRecv_sound, implies_true, h_s]

/-! ### Machine/DmaCmds.lean -/

theorem fullBus_keeps : fullBus.Keeps :=
  ⟨fun m a be _ h => State.busReadFx_sound m a be h, fun m a be v _ h => State.write_sound m a be v h⟩

theorem State.dmaBeat_sound {s : State} (h_s : s.Sound) : (State.dmaBeat s).Sound := by
  have hG : ∀ x, ({ s with dma.grant := x } : State).Sound := fun _ => h_s
  unfold State.dmaBeat
  refine ite_sound (State.txPosted_sound _ (State.localResponse_sound h_s)) (ite_sound h_s ?_)
  split
  · exact h_s
  · exact State.dmaMakes_sound fullBus fullBus_keeps _ (hG _)

theorem execDmaBeat_sound {s : State} (h_s : s.Sound) : KeepsSound (execDmaBeat s) := by
  intro t ht
  simp only [execDmaBeat, Host.Outcome.next.injEq] at ht
  subst ht
  simp +contextual (maxDischargeDepth := 40) only [State.when_sound, State.dmaBeat_sound, implies_true, h_s]

/-! ### Machine/Reset.lean -/

theorem State.resetWith_sound (lost keepFault : Bool) (cause : Byte) (ph : ResetPhase) {s : State} (h : s.Sound) :
    (State.resetWith lost keepFault cause ph s).Sound := by
  refine ⟨?_, ?_, ?_, ?_, ?_, ?_, ?_, ?_, ?_⟩
  · show Memory.wf (s.memAfterReset lost).cells = true
    unfold State.memAfterReset
    dsimp only
    split
    · exact swf_filter Memory.unlisted s.mem.cells 0 _ h.1
    · exact h.1
  · intro q
    show ((s.memAfterReset lost).queues.get q).items.length ≤ 16
    unfold State.memAfterReset
    dsimp only
    split <;> (show ((Vector.replicate 16 (⟨[], 0⟩ : HwQueue)).get q).items.length ≤ 16; revert q; decide)
  · show (s.memAfterReset lost).log.length ≤ 16
    unfold State.memAfterReset
    dsimp only
    split <;> exact Nat.zero_le _
  · exact Nat.zero_le _
  · exact Nat.zero_le _
  · show (s.fbkAfterReset lost).queue.length ≤ 32
    unfold State.fbkAfterReset
    dsimp only
    split
    · exact Nat.zero_le _
    · exact Contained.recsLe h
  all_goals exact Nat.zero_le _

theorem State.clkReset_sound {s : State} (h_s : s.Sound) : (State.clkReset s).Sound := by
  unfold State.clkReset
  simp +contextual (maxDischargeDepth := 40) only [State.resetWith_sound, h_s]

theorem State.warmReset_sound {s : State} (h_s : s.Sound) : (State.warmReset s).Sound := by
  unfold State.warmReset
  simp +contextual (maxDischargeDepth := 40) only [State.Sound, State.resetWith_sound, State.clkReset_sound,
    ite_sound, h_s]

theorem State.pinReset_sound {s : State} (h_s : s.Sound) : (State.pinReset s).Sound := by
  unfold State.pinReset
  simp +contextual (maxDischargeDepth := 40) only [State.Sound, State.resetWith_sound, ite_sound, h_s]

theorem State.resetOrWait_sound (pin : Bool) {s : State} (h_s : s.Sound) : (State.resetOrWait pin s).Sound := by
  unfold State.resetOrWait
  simp +contextual (maxDischargeDepth := 40) only [State.warmReset_sound, State.pinReset_sound, ite_sound, h_s]

theorem State.saveScan_sound {s : State} (h_s : s.Sound) : (State.saveScan s).Sound := by
  unfold State.saveScan
  simp +contextual (maxDischargeDepth := 40) only [State.saveEraseNext_sound, h_s]

theorem State.presets_sound (bs : List Byte) {s : State} (h_s : s.Sound) :
    (State.presets bs s).Sound := by
  induction bs, s using State.presets.induct with
  | case1 a b c d e f g h t s addr u ih => exact ih (ite_sound (ite_sound (State.busWrite_sound _ _ _ _ h_s) h_s) h_s)
  | case2 l s hl =>
    unfold State.presets
    split
    · exact (hl _ _ _ _ _ _ _ _ _ rfl).elim
    · exact h_s

theorem State.designItem_sound (d : List Byte) {s : State} (h_s : s.Sound) : (State.designItem d s).Sound := by
  unfold State.designItem
  dsimp only
  (repeat' split) <;> simp +contextual (maxDischargeDepth := 40) only [State.raise_sound, h_s]

theorem State.cfgItem_sound (limp : Bool) (x : Byte × List Byte) {s : State} (h_s : s.Sound) :
    (State.cfgItem limp x s).Sound := by
  unfold State.cfgItem
  simp +contextual (maxDischargeDepth := 40) only [State.designItem_sound, State.presets_sound, ite_sound, h_s]

theorem State.imageRefused_sound (c : BitVec 4) {s : State} (h_s : s.Sound) : (State.imageRefused c s).Sound := by
  unfold State.imageRefused
  simp +contextual (maxDischargeDepth := 40) only [State.raiseIf_sound, h_s]

theorem State.cfgCheck_sound (b : Bool) {s : State} (h_s : s.Sound) : (State.cfgCheck b s).Sound := by
  unfold State.cfgCheck
  simp +contextual (maxDischargeDepth := 40) only [State.imageRefused_sound, ite_sound, h_s]

theorem State.cfgBoot_sound (limp b : Bool) {s : State} (h_s : s.Sound) : (State.cfgBoot limp b s).Sound := by
  unfold State.cfgBoot
  simp +contextual (maxDischargeDepth := 40) only [State.Sound, State.each_sound, State.cfgCheck_sound,
    State.cfgItem_sound, ite_sound, implies_true, h_s]

theorem State.stewardCheck_sound (b : Bool) {s : State} (h_s : s.Sound) : (State.stewardCheck b s).Sound := by
  unfold State.stewardCheck
  simp +contextual (maxDischargeDepth := 40) only [ite_sound, h_s]

theorem State.programCheck_sound (b : Bool) {s : State} (h_s : s.Sound) : (State.programCheck b s).Sound := by
  unfold State.programCheck
  simp +contextual (maxDischargeDepth := 40) only [State.setReg_sound, State.imageRefused_sound, ite_sound, h_s]

theorem State.bootSteward_sound (b : Bool) {s : State} (h_s : s.Sound) : (State.bootSteward b s).Sound := by
  unfold State.bootSteward
  simp +contextual (maxDischargeDepth := 40) only [State.Sound, State.runAsk_sound, State.runtimeLoad_sound,
    State.progTo_sound, State.programCheck_sound, State.cfgBoot_sound, State.stewardStart_sound, State.when_sound,
    ite_sound, implies_true, h_s]

theorem State.bootLimp_sound (b : Bool) {s : State} (h_s : s.Sound) : (State.bootLimp b s).Sound := by
  unfold State.bootLimp
  simp +contextual (maxDischargeDepth := 40) only [State.Sound, State.raise_sound, State.spFaultCode_sound,
    State.cfgBoot_sound, h_s]

theorem State.bootRom_sound {s : State} (h_s : s.Sound) : (State.bootRom s).Sound := by
  unfold State.bootRom
  simp +contextual (maxDischargeDepth := 40) only [State.Sound, State.bootLimp_sound, State.fbBoot_sound,
    State.saveScan_sound, State.bootSteward_sound, State.stewardCheck_sound, State.raise_sound, ite_sound, h_s]

theorem State.strapRegs_sound {s : State} (h_s : s.Sound) : (State.strapRegs s).Sound := by
  unfold State.strapRegs
  simp +contextual (maxDischargeDepth := 40) only [State.setReg_sound, h_s]

theorem State.release_sound {s : State} (h_s : s.Sound) : (State.release s).Sound := by
  unfold State.release
  simp +contextual (maxDischargeDepth := 40) only [State.strapRegs_sound, State.bootRom_sound, State.fbQueue_sound,
    State.wlvSync_sound, State.raise_sound, ite_sound, h_s]

theorem State.releaseOrHold_sound (x : Straps) {s : State} (h_s : s.Sound) : (State.releaseOrHold x s).Sound := by
  unfold State.releaseOrHold
  simp +contextual (maxDischargeDepth := 40) only [State.release_sound, ite_sound, h_s]

theorem State.linesOff_sound {s : State} (h_s : s.Sound) : (State.linesOff s).Sound := by
  unfold State.linesOff
  simp +contextual (maxDischargeDepth := 40) only [h_s]

/-! ### Machine/Service.lean -/

theorem State.spCapture_sound (apin : Bool) {s : State} (h_s : s.Sound) : (State.spCapture apin s).Sound := by
  unfold State.spCapture
  simp +contextual (maxDischargeDepth := 40) only [ite_sound, h_s]

theorem execServiceImageCapture_sound (apin : Bool) {s : State} (h_s : s.Sound) :
    KeepsSound (execServiceImageCapture apin s) := by
  intro t ht
  simp only [execServiceImageCapture, Host.Outcome.next.injEq] at ht
  subst ht
  simp +contextual (maxDischargeDepth := 40) only [State.spCapture_sound, h_s]

theorem State.spOver_sound {s : State} (h_s : s.Sound) : (State.spOver s).Sound := by
  unfold State.spOver
  simp +contextual (maxDischargeDepth := 40) only [h_s]

theorem State.spBegin_sound (a : BitVec 6) {s : State} (h_s : s.Sound) : (State.spBegin a s).Sound := by
  unfold State.spBegin
  simp +contextual (maxDischargeDepth := 40) only [h_s]

theorem State.transact_sound (a : BitVec 6) (f : Bool → Bool → State → State) {s : State}
    (h_s : s.Sound)
    (hf : ∀ x y, ∀ t : State, t.Sound → (f x y t).Sound) :
    (State.transact a f s).Sound := by
  unfold State.transact
  exact ite_sound (State.spOver_sound (State.emit_sound _ h_s)) (ite_sound (State.spOver_sound h_s)
    (hf _ _ _ (State.spBegin_sound _ (State.spOver_sound (State.emit_sound _ h_s)))))

theorem State.spLast_sound (c : BitVec 3) {s : State} (h_s : s.Sound) : (State.spLast c s).Sound := by
  unfold State.spLast
  simp +contextual (maxDischargeDepth := 40) only [h_s]

theorem State.keyClose_sound {s : State} (h_s : s.Sound) : (State.keyClose s).Sound := by
  unfold State.keyClose
  simp +contextual (maxDischargeDepth := 40) only [h_s]

theorem State.keyWrite_sound (first : Bool) (v : Half) {s : State} (h_s : s.Sound) :
    (State.keyWrite first v s).Sound := by
  unfold State.keyWrite
  simp +contextual (maxDischargeDepth := 40) only [State.keyClose_sound, ite_sound, h_s]

theorem execKey_sound (v : Half) {s : State} (h_s : s.Sound) : KeepsSound (execKey v s) := by
  intro t ht
  simp only [execKey, Host.Outcome.next.injEq] at ht
  subst ht
  simp +contextual (maxDischargeDepth := 40) only [State.transact_sound, State.keyWrite_sound, implies_true, h_s]

theorem execKeyWindowClose_sound {s : State} (h_s : s.Sound) : KeepsSound (execKeyWindowClose s) := by
  intro t ht
  simp only [execKeyWindowClose, Host.Outcome.next.injEq] at ht
  subst ht
  simp +contextual (maxDischargeDepth := 40) only [State.keyClose_sound, ite_sound, h_s]

theorem State.deepLaunch_sound {s : State} (h_s : s.Sound) : (State.deepLaunch s).Sound := by
  unfold State.deepLaunch
  simp +contextual (maxDischargeDepth := 40) only [h_s]

theorem State.dctlWrite_sound (key : Bool) (v : Half) {s : State} (h_s : s.Sound) :
    (State.dctlWrite key v s).Sound := by
  unfold State.dctlWrite
  simp +contextual (maxDischargeDepth := 40) only [State.deepLaunch_sound, State.spLast_sound, State.when_sound,
    ite_sound, implies_true, h_s]

theorem State.deepNext_sound {s : State} (h_s : s.Sound) : (State.deepNext s).Sound := by
  unfold State.deepNext
  simp +contextual (maxDischargeDepth := 40) only [State.deepLaunch_sound, h_s]

theorem State.deepRegWrite_sound (a : Nat) (key : Bool) (v : Half) {s : State} (h_s : s.Sound) :
    (State.deepRegWrite a key v s).Sound := by
  unfold State.deepRegWrite
  simp +contextual (maxDischargeDepth := 40) only [State.spLast_sound, State.deepNext_sound, ite_sound, h_s]

theorem State.deepRead9_sound {s : State} (h_s : s.Sound) : (State.deepRead9 s).Sound := by
  unfold State.deepRead9
  simp +contextual (maxDischargeDepth := 40) only [State.deepNext_sound, State.spLast_sound, ite_sound, h_s]

theorem execDeepRead_sound (v : Half) {s : State} (h_s : s.Sound) : KeepsSound (execDeepRead v s) := by
  intro t ht
  simp only [execDeepRead, Host.Outcome.next.injEq] at ht
  subst ht
  simp +contextual (maxDischargeDepth := 40) only [State.transact_sound, State.dctlWrite_sound, ite_sound,
    implies_true, h_s]

theorem execDeepWrite_sound (v : Half) {s : State} (h_s : s.Sound) : KeepsSound (execDeepWrite v s) := by
  intro t ht
  simp only [execDeepWrite, Host.Outcome.next.injEq] at ht
  subst ht
  simp +contextual (maxDischargeDepth := 40) only [State.transact_sound, State.dctlWrite_sound, ite_sound,
    implies_true, h_s]

theorem State.deepAccess_sound {s : State} (h_s : s.Sound) : (State.deepAccess s).Sound := by
  unfold State.deepAccess
  dsimp only
  (repeat' split) <;> simp +contextual (maxDischargeDepth := 40) only [State.Sound, State.took_sound,
    State.write_sound, State.busReadFx_sound, h_s]

theorem State.deepDone_sound {s : State} (h_s : s.Sound) : (State.deepDone s).Sound := by
  unfold State.deepDone
  simp +contextual (maxDischargeDepth := 40) only [State.Sound, State.deepAccess_sound, ite_sound, h_s]

theorem execDeepAccessDone_sound {s : State} (h_s : s.Sound) : KeepsSound (execDeepAccessDone s) := by
  intro t ht
  simp only [execDeepAccessDone, Host.Outcome.next.injEq] at ht
  subst ht
  simp +contextual (maxDischargeDepth := 40) only [State.deepDone_sound, h_s]

theorem execDeepAccessTimeout_sound {s : State} (h_s : s.Sound) : KeepsSound (execDeepAccessTimeout s) := by
  intro t ht
  simp only [execDeepAccessTimeout, Host.Outcome.next.injEq] at ht
  subst ht
  simp +contextual (maxDischargeDepth := 40) only [ite_sound, h_s]

theorem State.walkEnter_sound {s : State} (h_s : s.Sound) : (State.walkEnter s).Sound := by
  unfold State.walkEnter
  simp +contextual (maxDischargeDepth := 40) only [State.linesOff_sound, State.wlvSync_sound,
    State.laneOffDrive_sound, State.setReg_sound, State.each_sound, State.dmaDropAll_sound, implies_true, h_s]

theorem State.walkLeave_sound {s : State} (h_s : s.Sound) : (State.walkLeave s).Sound := by
  unfold State.walkLeave
  simp +contextual (maxDischargeDepth := 40) only [State.warmReset_sound, State.fbQueue_sound, h_s]

theorem State.walkWrite_sound (key : Bool) (v : Half) {s : State} (h_s : s.Sound) :
    (State.walkWrite key v s).Sound := by
  unfold State.walkWrite
  simp +contextual (maxDischargeDepth := 40) only [State.spLast_sound, State.walkLeave_sound, State.walkEnter_sound,
    ite_sound, h_s]

theorem execWalkEntry_sound (v : Half) {s : State} (h_s : s.Sound) : KeepsSound (execWalkEntry v s) := by
  intro t ht
  simp only [execWalkEntry, Host.Outcome.next.injEq] at ht
  subst ht
  simp +contextual (maxDischargeDepth := 40) only [State.transact_sound, State.walkWrite_sound, ite_sound,
    implies_true, h_s]

theorem execStep_sound (v : Half) {s : State} (h_s : s.Sound) : KeepsSound (execStep v s) := by
  intro t ht
  simp only [execStep, Host.Outcome.next.injEq] at ht
  subst ht
  simp +contextual (maxDischargeDepth := 40) only [State.transact_sound, State.walkWrite_sound, ite_sound,
    implies_true, h_s]

theorem execWalkExit_sound (v : Half) {s : State} (h_s : s.Sound) : KeepsSound (execWalkExit v s) := by
  intro t ht
  simp only [execWalkExit, Host.Outcome.next.injEq] at ht
  subst ht
  simp +contextual (maxDischargeDepth := 40) only [State.transact_sound, State.walkWrite_sound, ite_sound,
    implies_true, h_s]

theorem State.walkEntered_sound {s : State} (h_s : s.Sound) : (State.walkEntered s).Sound := by
  unfold State.walkEntered
  simp +contextual (maxDischargeDepth := 40) only [State.syncLost_sound, ite_sound, h_s]

theorem execWalkEntryComplete_sound {s : State} (h_s : s.Sound) : KeepsSound (execWalkEntryComplete s) := by
  intro t ht
  simp only [execWalkEntryComplete, Host.Outcome.next.injEq] at ht
  subst ht
  simp +contextual (maxDischargeDepth := 40) only [State.walkEntered_sound, h_s]

theorem State.spCtlWrite_sound (key : Bool) (v : Half) {s : State} (h_s : s.Sound) :
    (State.spCtlWrite key v s).Sound := by
  unfold State.spCtlWrite
  simp +contextual (maxDischargeDepth := 40) only [State.gaugeHold_sound, State.resetOrWait_sound, State.spLast_sound,
    ite_sound, h_s]

theorem State.spModeWrite_sound (key : Bool) (v : Half) {s : State} (h_s : s.Sound) :
    (State.spModeWrite key v s).Sound := by
  unfold State.spModeWrite
  (repeat' split) <;> simp_all +contextual (maxDischargeDepth := 40) only [State.runAsk_sound, State.spLast_sound,
    State.stopAsk_sound]

theorem State.spKeyed_sound (key : Bool) (f : State → State) {s : State} (h_s : s.Sound)
    (hf : ∀ t : State, t.Sound → (f t).Sound) : (State.spKeyed key f s).Sound := by
  unfold State.spKeyed
  split
  · exact hf _ h_s
  · exact State.spLast_sound _ h_s

theorem State.fbCtlWrite_sound (v : Half) {s : State} (h_s : s.Sound) : (State.fbCtlWrite v s).Sound := by
  unfold State.fbCtlWrite
  simp +contextual (maxDischargeDepth := 40) only [State.fbStart_sound, State.fbNewest_sound, ite_sound, h_s]

theorem State.spWrite_sound (a : BitVec 6) (v : Half) (key first : Bool) {s : State} (h_s : s.Sound) :
    (State.spWrite a v key first s).Sound := by
  unfold State.spWrite
  dsimp only
  (repeat' split) <;> simp +contextual (maxDischargeDepth := 40) only [State.spKeyed_sound, State.keyWrite_sound,
    State.dctlWrite_sound, State.cairnRequest_sound, State.setReg_sound, State.deepRegWrite_sound, State.when_sound,
    State.spModeWrite_sound, State.fbCtlWrite_sound, State.spCtlWrite_sound, State.gaugeSelWrite_sound,
    State.walkWrite_sound, implies_true, h_s]

theorem execServiceWrite_sound (a : BitVec 6) (v : Half) {s : State} (h_s : s.Sound) :
    KeepsSound (execServiceWrite a v s) := by
  intro t ht
  simp only [execServiceWrite, Host.Outcome.next.injEq] at ht
  subst ht
  simp +contextual (maxDischargeDepth := 40) only [State.transact_sound, State.spWrite_sound, implies_true, h_s]

theorem State.spReadFx_sound (a : BitVec 6) {s : State} (h_s : s.Sound) : (State.spReadFx a s).Sound := by
  unfold State.spReadFx
  dsimp only
  (repeat' split) <;> simp +contextual (maxDischargeDepth := 40) only [State.deepRead9_sound, State.fbAdvance_sound,
    h_s]

theorem execNormalRead_sound (a : BitVec 6) {s : State} (h_s : s.Sound) : KeepsSound (execNormalRead a s) := by
  intro t ht
  simp only [execNormalRead, Host.Outcome.next.injEq] at ht
  subst ht
  simp +contextual (maxDischargeDepth := 40) only [State.transact_sound, State.spReadFx_sound, implies_true, h_s]

theorem execPeek_sound (a : BitVec 6) {s : State} (h_s : s.Sound) : KeepsSound (execPeek a s) := by
  intro t ht
  simp only [execPeek, Host.Outcome.next.injEq] at ht
  subst ht
  simp +contextual (maxDischargeDepth := 40) only [State.transact_sound, implies_true, h_s]

theorem execCommandRefused_sound (a : BitVec 6) {s : State} (h_s : s.Sound) : KeepsSound (execCommandRefused a s) := by
  intro t ht
  simp only [execCommandRefused, Host.Outcome.next.injEq] at ht
  subst ht
  simp +contextual (maxDischargeDepth := 40) only [State.transact_sound, State.spLast_sound, implies_true, h_s]

theorem execWrst_sound (v : Half) {s : State} (h_s : s.Sound) : KeepsSound (execWrst v s) := by
  intro t ht
  simp only [execWrst, Host.Outcome.next.injEq] at ht
  subst ht
  simp +contextual (maxDischargeDepth := 40) only [State.transact_sound, State.spCtlWrite_sound, ite_sound,
    implies_true, h_s]

theorem execAutoIncrement_sound (wr : Option Half) {s : State} (h_s : s.Sound) :
    KeepsSound (execAutoIncrement wr s) := by
  intro t ht
  simp only [execAutoIncrement, Host.Outcome.next.injEq] at ht
  subst ht
  (repeat' split) <;> simp_all +contextual (maxDischargeDepth := 40) only [State.transact_sound,
    State.deepRegWrite_sound, State.deepRead9_sound, implies_true]

theorem execFbStart_sound {s : State} (h_s : s.Sound) : KeepsSound (execFbStart s) := by
  intro t ht
  simp only [execFbStart, Host.Outcome.next.injEq] at ht
  subst ht
  simp +contextual (maxDischargeDepth := 40) only [State.transact_sound, State.fbStart_sound, implies_true, h_s]

theorem execFbNewest_sound {s : State} (h_s : s.Sound) : KeepsSound (execFbNewest s) := by
  intro t ht
  simp only [execFbNewest, Host.Outcome.next.injEq] at ht
  subst ht
  simp +contextual (maxDischargeDepth := 40) only [State.transact_sound, State.fbNewest_sound, implies_true, h_s]

theorem execFbDataRead_sound {s : State} (h_s : s.Sound) : KeepsSound (execFbDataRead s) := by
  intro t ht
  simp only [execFbDataRead, Host.Outcome.next.injEq] at ht
  subst ht
  simp +contextual (maxDischargeDepth := 40) only [State.transact_sound, State.fbAdvance_sound, implies_true, h_s]

theorem State.sdiRun_sound (w : Word) {s : State} (h_s : s.Sound) : (State.sdiRun w s).Sound := by
  unfold State.sdiRun
  (repeat' split) <;> simp_all +contextual (maxDischargeDepth := 40) only [State.transact_sound, State.spReadFx_sound,
    State.spLast_sound, State.spWrite_sound, implies_true]

theorem State.spError_sound (edges : Nat) (w : Word) {s : State} (h_s : s.Sound) : (State.spError edges w s).Sound := by
  unfold State.spError
  simp +contextual (maxDischargeDepth := 40) only [State.Sound, State.emit_sound, State.sdiRun_sound,
    State.spOver_sound, ite_sound, h_s]

theorem State.spEdges_sound (edges : Nat) (w : Word) {s : State} (h_s : s.Sound) : (State.spEdges edges w s).Sound := by
  unfold State.spEdges
  simp +contextual (maxDischargeDepth := 40) only [State.spError_sound, State.emit_sound, State.spOver_sound,
    ite_sound, h_s]

theorem execCrcOrFramingError_sound (edges : Nat) (sdi : Word) {s : State} (h_s : s.Sound) :
    KeepsSound (execCrcOrFramingError edges sdi s) := by
  intro t ht
  simp only [execCrcOrFramingError, Host.Outcome.next.injEq] at ht
  subst ht
  simp +contextual (maxDischargeDepth := 40) only [State.spEdges_sound, h_s]

theorem State.masterWrite_sound (m : Master) (a : Nat) (be : BitVec 4) (v : Word) {s : State} (h_s : s.Sound) :
    (State.masterWrite m a be v s).Sound :=
  State.unlessTrig_sound _ _ _ _ h_s fun _ ht =>
    ite_sound (State.accFault_sound _ _ _ (State.write_sound _ _ _ _ ht)) (State.write_sound _ _ _ _ ht)

theorem execRegisterWrite_sound (m : Master) (addr : Word) (lanes : BitVec 4) (v : Word) {s : State} (h_s : s.Sound) :
    KeepsSound (execRegisterWrite m addr lanes v s) := by
  intro t ht
  simp only [execRegisterWrite, Host.Outcome.next.injEq] at ht
  subst ht
  simp +contextual (maxDischargeDepth := 40) only [State.masterWrite_sound, State.when_sound, implies_true, h_s]

theorem State.dmiFail_sound {s : State} (h_s : s.Sound) : (State.dmiFail s).Sound := by
  unfold State.dmiFail
  simp +contextual (maxDischargeDepth := 40) only [h_s]

theorem State.sbRead_sound (a n : Nat) {s : State} (h_s : s.Sound) : (State.sbRead a n s).Sound := by
  unfold State.sbRead
  simp +contextual (maxDischargeDepth := 40) only [State.emit_sound, State.dmiFail_sound, ite_sound, h_s]

theorem execSystemBusRead_sound (addr : Word) (size : Size) {s : State} (h_s : s.Sound) :
    KeepsSound (execSystemBusRead addr size s) := by
  intro t ht
  simp only [execSystemBusRead, Host.Outcome.next.injEq] at ht
  subst ht
  simp +contextual (maxDischargeDepth := 40) only [State.sbRead_sound, State.dmi_sound, implies_true, h_s]

theorem State.sbWrite_sound (a n : Nat) (v : Word) {s : State} (h_s : s.Sound) : (State.sbWrite a n v s).Sound := by
  unfold State.sbWrite
  simp +contextual (maxDischargeDepth := 40) only [State.dmiFail_sound, State.write_sound, ite_sound, h_s]

theorem execSystemBusWrite_sound (addr : Word) (size : Size) (v : Word) {s : State} (h_s : s.Sound) :
    KeepsSound (execSystemBusWrite addr size v s) := by
  intro t ht
  simp only [execSystemBusWrite, Host.Outcome.next.injEq] at ht
  subst ht
  simp +contextual (maxDischargeDepth := 40) only [State.dmi_sound, State.sbWrite_sound, implies_true, h_s]

/-! ### Machine/Pass.lean -/

theorem State.serveAccess_sound (x : Served) {s : State} (h_s : s.Sound) : (State.serveAccess x s).Sound := by
  unfold State.serveAccess
  extract_lets a
  split
  · rename_i v _
    have ht := memBus_keeps.2 x.m a x.lanes v s h_s
    exact ite_sound (State.accFault_sound _ _ _ ht) ht
  · have ht := memBus_keeps.1 x.m a x.lanes s h_s
    exact ite_sound (State.accFault_sound _ _ _ ht) (State.emit_sound _ ht)

theorem State.gapCost_sound (a : Nat) {s : State} (h_s : s.Sound) : (State.gapCost a s).Sound := by
  unfold State.gapCost
  simp +contextual (maxDischargeDepth := 40) only [ite_sound, h_s]

theorem State.serve_sound : ServeKeeps State.serve := by
  intro x s h_s
  unfold State.serve
  refine ite_sound h_s ?_
  split
  · exact ite_sound (State.gapCost_sound _ (State.deepDone_sound h_s)) h_s
  · split
    · exact State.gapCost_sound _ (State.txPosted_sound _ (State.localResponse_sound h_s))
    · exact h_s
  · exact ite_sound (State.dmaMakes_sound fullBus fullBus_keeps _ h_s) h_s
  · exact ite_sound (State.gapCost_sound _ (State.serveAccess_sound _ h_s)) h_s

theorem execInputImageRelease_sound (served : List Served) {s : State} (h_s : s.Sound) :
    KeepsSound (execInputImageRelease served s) := by
  intro t ht
  simp only [execInputImageRelease, Host.Outcome.next.injEq] at ht
  subst ht
  exact State.when_sound h_s fun _ => State.inputRelease_sound _ State.serve_sound _

theorem execLaneSubdone_sound (served : List Served) {s : State} (h_s : s.Sound) :
    KeepsSound (execLaneSubdone served s) := by
  intro t ht
  simp only [execLaneSubdone, Host.Outcome.next.injEq] at ht
  subst ht
  exact State.when_sound h_s fun _ => State.subDone_sound _ State.serve_sound _

theorem execCycleReturn_sound (a0 : Word) (us : Nat) (served : List Served) {s : State} (h_s : s.Sound) :
    KeepsSound (execCycleReturn a0 us served s) := by
  intro t ht
  simp only [execCycleReturn, Host.Outcome.next.injEq] at ht
  subst ht
  exact State.when_sound h_s fun _ => State.cycleReturn_sound _ State.serve_sound _ _ _

theorem State.stepPass_sound (met : Bool) {s : State} (h_s : s.Sound) : (State.stepPass met s).Sound :=
  ite_sound (State.passGo_sound _ State.serve_sound h_s) h_s

theorem State.walkStepDone_sound (clocks : Nat) (met : Bool) {s : State} (h_s : s.Sound) :
    (State.walkStepDone clocks met s).Sound := by
  have ht := State.stepPass_sound met h_s
  exact ite_sound h_s (ite_sound (State.gaugeConvert_sound ht) h_s)

theorem execWalkStepEnd_sound (clocks : Nat) (met : Bool) {s : State} (h_s : s.Sound) :
    KeepsSound (execWalkStepEnd clocks met s) := by
  intro t ht
  simp only [execWalkStepEnd, Host.Outcome.next.injEq] at ht
  subst ht
  simp +contextual (maxDischargeDepth := 40) only [State.walkStepDone_sound, h_s]

/-! ### Machine/Power.lean -/

theorem State.powerOn_sound (lowestMv : Nat) {s : State} (h_s : s.Sound) : (State.powerOn lowestMv s).Sound := by
  unfold State.powerOn
  simp +contextual (maxDischargeDepth := 40) only [State.Sound, State.took_sound, State.resetWith_sound, h_s]

theorem execPowerOn_sound (lowestMv : Nat) {s : State} (h_s : s.Sound) : KeepsSound (execPowerOn lowestMv s) := by
  intro t ht
  simp only [execPowerOn, Host.Outcome.next.injEq] at ht
  subst ht
  simp +contextual (maxDischargeDepth := 40) only [State.powerOn_sound, h_s]

theorem execPowerUpComplete_sound (straps : Straps) {s : State} (h_s : s.Sound) :
    KeepsSound (execPowerUpComplete straps s) := by
  intro t ht
  simp only [execPowerUpComplete, Host.Outcome.next.injEq] at ht
  subst ht
  simp +contextual (maxDischargeDepth := 40) only [State.releaseOrHold_sound, ite_sound, h_s]

theorem State.pinAsk_sound {s : State} (h_s : s.Sound) : (State.pinAsk s).Sound := by
  unfold State.pinAsk
  simp +contextual (maxDischargeDepth := 40) only [State.resetOrWait_sound, State.pinReset_sound, ite_sound, h_s]

theorem State.pinLow_sound (lowNs : Nat) {s : State} (h_s : s.Sound) : (State.pinLow lowNs s).Sound := by
  unfold State.pinLow
  simp +contextual (maxDischargeDepth := 40) only [State.pinAsk_sound, State.when_sound, State.took_sound, ite_sound,
    implies_true, h_s]

theorem execPinReset_sound (lowNs : Nat) {s : State} (h_s : s.Sound) : KeepsSound (execPinReset lowNs s) := by
  intro t ht
  simp only [execPinReset, Host.Outcome.next.injEq] at ht
  subst ht
  simp +contextual (maxDischargeDepth := 40) only [State.pinLow_sound, h_s]

theorem execTestHigh_sound {s : State} (h_s : s.Sound) : KeepsSound (execTestHigh s) := by
  intro t ht
  simp only [execTestHigh, Host.Outcome.next.injEq] at ht
  subst ht
  simp +contextual (maxDischargeDepth := 40) only [State.pinAsk_sound, h_s]

theorem execPinResetRelease_sound (straps : Straps) {s : State} (h_s : s.Sound) :
    KeepsSound (execPinResetRelease straps s) := by
  intro t ht
  simp only [execPinResetRelease, Host.Outcome.next.injEq] at ht
  subst ht
  simp +contextual (maxDischargeDepth := 40) only [State.release_sound, ite_sound, h_s]

theorem State.supplyReset_sound (cause : Byte) (held : BitVec 2) {s : State} (h_s : s.Sound) :
    (State.supplyReset cause held s).Sound := by
  unfold State.supplyReset
  simp +contextual (maxDischargeDepth := 40) only [State.Sound, State.resetWith_sound, h_s]

theorem execBrownOut_sound {s : State} (h_s : s.Sound) : KeepsSound (execBrownOut s) := by
  intro t ht
  simp only [execBrownOut, Host.Outcome.next.injEq] at ht
  subst ht
  simp +contextual (maxDischargeDepth := 40) only [State.Sound, State.supplyReset_sound, h_s]

theorem execCoreLow_sound {s : State} (h_s : s.Sound) : KeepsSound (execCoreLow s) := by
  intro t ht
  simp only [execCoreLow, Host.Outcome.next.injEq] at ht
  subst ht
  simp +contextual (maxDischargeDepth := 40) only [State.Sound, State.supplyReset_sound, ite_sound, h_s]

theorem execWarmResetRelease_sound {s : State} (h_s : s.Sound) : KeepsSound (execWarmResetRelease s) := by
  intro t ht
  simp only [execWarmResetRelease, Host.Outcome.next.injEq] at ht
  subst ht
  simp +contextual (maxDischargeDepth := 40) only [State.release_sound, ite_sound, h_s]

theorem State.clockFault_sound {s : State} (h_s : s.Sound) : (State.clockFault s).Sound := by
  unfold State.clockFault
  simp +contextual (maxDischargeDepth := 40) only [State.Sound, State.ethCutOff_sound, State.wlvSync_sound,
    State.laneOffDrive_sound, State.linesOff_sound, State.spFaultCode_sound, ite_sound, h_s]

theorem execClockFault_sound {s : State} (h_s : s.Sound) : KeepsSound (execClockFault s) := by
  intro t ht
  simp only [execClockFault, Host.Outcome.next.injEq] at ht
  subst ht
  simp +contextual (maxDischargeDepth := 40) only [State.clockFault_sound, h_s]

theorem State.clockBack_sound (x : Straps) {s : State} (h_s : s.Sound) : (State.clockBack x s).Sound := by
  unfold State.clockBack
  simp +contextual (maxDischargeDepth := 40) only [State.releaseOrHold_sound, State.clkReset_sound, ite_sound, h_s]

theorem execClockRecovery_sound (straps : Straps) {s : State} (h_s : s.Sound) :
    KeepsSound (execClockRecovery straps s) := by
  intro t ht
  simp only [execClockRecovery, Host.Outcome.next.injEq] at ht
  subst ht
  simp +contextual (maxDischargeDepth := 40) only [State.clockBack_sound, h_s]

theorem State.refLost_sound {s : State} (h_s : s.Sound) : (State.refLost s).Sound := by
  unfold State.refLost
  simp +contextual (maxDischargeDepth := 40) only [State.raise_sound, State.ethCutOff_sound, h_s]

theorem execRefClkLoss_sound {s : State} (h_s : s.Sound) : KeepsSound (execRefClkLoss s) := by
  intro t ht
  simp only [execRefClkLoss, Host.Outcome.next.injEq] at ht
  subst ht
  simp +contextual (maxDischargeDepth := 40) only [State.refLost_sound, State.when_sound, implies_true, h_s]

theorem State.refBack_sound {s : State} (h_s : s.Sound) : (State.refBack s).Sound := by
  unfold State.refBack
  simp +contextual (maxDischargeDepth := 40) only [State.ethKick_sound, State.each_sound, implies_true, h_s]

theorem execRefClkReturn_sound {s : State} (h_s : s.Sound) : KeepsSound (execRefClkReturn s) := by
  intro t ht
  simp only [execRefClkReturn, Host.Outcome.next.injEq] at ht
  subst ht
  simp +contextual (maxDischargeDepth := 40) only [State.refBack_sound, h_s]

theorem execCabActChange_sound (level : Bool) {s : State} (h_s : s.Sound) : KeepsSound (execCabActChange level s) := by
  intro t ht
  simp only [execCabActChange, Host.Outcome.next.injEq] at ht
  subst ht
  simp +contextual (maxDischargeDepth := 40) only [h_s]

theorem State.cabdbTake_sound {s : State} (h_s : s.Sound) : (State.cabdbTake s).Sound := by
  unfold State.cabdbTake
  simp +contextual (maxDischargeDepth := 40) only [State.svyTrigger_sound, State.when_sound, State.raise_sound,
    ite_sound, implies_true, h_s]

theorem execCabdbChange_sound {s : State} (h_s : s.Sound) : KeepsSound (execCabdbChange s) := by
  intro t ht
  simp only [execCabdbChange, Host.Outcome.next.injEq] at ht
  subst ht
  simp +contextual (maxDischargeDepth := 40) only [State.when_sound, State.cabdbTake_sound, implies_true, h_s]

theorem State.toRide_sound {s : State} (h_s : s.Sound) : (State.toRide s).Sound := by
  unfold State.toRide
  simp +contextual (maxDischargeDepth := 40) only [State.raise_sound, h_s]

theorem State.vehMove_sound {s : State} (h_s : s.Sound) : (State.vehMove s).Sound := by
  unfold State.vehMove
  dsimp only
  (repeat' split) <;> simp +contextual (maxDischargeDepth := 40) only [State.raise_sound, State.toRide_sound, h_s]

theorem State.vehSampled_sound (senseMv vsup vcore : Nat) (vio : Vector Half 4) (temp : Half) {s : State} (h_s :
    s.Sound) :
    (State.vehSampled senseMv vsup vcore vio temp s).Sound := by
  unfold State.vehSampled
  simp +contextual (maxDischargeDepth := 40) only [State.vehMove_sound, h_s]

theorem execVehSample_sound (senseMv vsupMv vcoreMv : Nat) (vioMv : Vector Half 4) (temp : Half) {s : State} (h_s :
    s.Sound) :
    KeepsSound (execVehSample senseMv vsupMv vcoreMv vioMv temp s) := by
  intro t ht
  simp only [execVehSample, Host.Outcome.next.injEq] at ht
  subst ht
  simp +contextual (maxDischargeDepth := 40) only [State.when_sound, State.vehSampled_sound, implies_true, h_s]

theorem State.retReadFx_sound {s : State} (h_s : s.Sound) : (State.retReadFx s).Sound := by
  unfold State.retReadFx
  split
  · exact State.blockReadFx_sound _ _ h_s
  · exact h_s

theorem State.saveWrite_sound {s : State} (h_s : s.Sound) : (State.saveWrite s).Sound := by
  have hR := Contained.withRecs h_s [] (Nat.zero_le _)
  unfold State.saveWrite
  split
  · refine Contained.withRecs (State.flashAndBytes_sound _ s.saveImage (State.retReadFx_sound h_s)) _ ?_
    rw [List.length_drop]
    exact Nat.le_trans (Nat.sub_le _ _) (Contained.recsLe h_s)
  · extract_lets x t
    have hT : t.Sound := ite_sound h_s (State.each_sound hR fun _ _ hu => State.fbWrite_sound _ hu)
    exact hT

theorem State.powerFail_sound {s : State} (h_s : s.Sound) : (State.powerFail s).Sound := by
  unfold State.powerFail
  refine ite_sound h_s ?_
  extract_lets w sp c a b
  have ha : a.Sound := State.raise_sound _ h_s
  have hb : b.Sound := State.laneOffDrive_sound (State.wlvSync_sound (ite_sound (State.progTo_sound _
    (State.cycleDrop_sound ha)) ha))
  exact State.saveWrite_sound (State.flashAbandon_sound hb)

theorem execClassTimeExpiry_sound {s : State} (h_s : s.Sound) : KeepsSound (execClassTimeExpiry s) := by
  intro t ht
  simp only [execClassTimeExpiry, Host.Outcome.next.injEq] at ht
  subst ht
  simp +contextual (maxDischargeDepth := 40) only [State.powerFail_sound, ite_sound, h_s]

theorem execVsupPowerFail_sound {s : State} (h_s : s.Sound) : KeepsSound (execVsupPowerFail s) := by
  intro t ht
  simp only [execVsupPowerFail, Host.Outcome.next.injEq] at ht
  subst ht
  simp +contextual (maxDischargeDepth := 40) only [State.powerFail_sound, h_s]

theorem State.saveCommit_sound {s : State} (h_s : s.Sound) : (State.saveCommit s).Sound := by
  have hc : ∀ (u : State) (x : Byte), u.Sound → ({ u with sys.rstcause := x } : State).Sound := fun _ _ h => h
  unfold State.saveCommit
  split
  · exact hc _ _ (State.flashAndBytes_sound _ _ h_s)
  · exact h_s

theorem State.saveEnd_sound {s : State} (h_s : s.Sound) : (State.saveEnd s).Sound := by
  have hT := State.saveCommit_sound h_s
  unfold State.saveEnd
  dsimp only
  exact ite_sound h_s (ite_sound (State.pinReset_sound hT) (ite_sound (State.warmReset_sound hT) hT))

theorem execSaveDone_sound {s : State} (h_s : s.Sound) : KeepsSound (execSaveDone s) := by
  intro t ht
  simp only [execSaveDone, Host.Outcome.next.injEq] at ht
  subst ht
  simp +contextual (maxDischargeDepth := 40) only [State.saveEnd_sound, h_s]

theorem State.holdEnd_sound {s : State} (h_s : s.Sound) : (State.holdEnd s).Sound := by
  unfold State.holdEnd
  simp +contextual (maxDischargeDepth := 40) only [State.warmReset_sound, ite_sound, h_s]

theorem execHoldResume_sound {s : State} (h_s : s.Sound) : KeepsSound (execHoldResume s) := by
  intro t ht
  simp only [execHoldResume, Host.Outcome.next.injEq] at ht
  subst ht
  simp +contextual (maxDischargeDepth := 40) only [State.holdEnd_sound, h_s]

theorem execVsupLowWarning_sound (vsupMv : Nat) {s : State} (h_s : s.Sound) :
    KeepsSound (execVsupLowWarning vsupMv s) := by
  intro t ht
  simp only [execVsupLowWarning, Host.Outcome.next.injEq] at ht
  subst ht
  simp +contextual (maxDischargeDepth := 40) only [State.raise_sound, ite_sound, h_s]

theorem execTempWarning_sound (halfDegrees : Half) {s : State} (h_s : s.Sound) :
    KeepsSound (execTempWarning halfDegrees s) := by
  intro t ht
  simp only [execTempWarning, Host.Outcome.next.injEq] at ht
  subst ht
  simp +contextual (maxDischargeDepth := 40) only [State.raise_sound, ite_sound, h_s]

theorem State.idle_sound {s : State} (h_s : s.Sound) : (State.idle s).Sound := by
  unfold State.idle
  simp +contextual (maxDischargeDepth := 40) only [State.tick_sound, State.each_sound, State.erRoll_sound,
    State.irqTake_sound, ite_sound, implies_true, h_s]

end Sys2Proof.Machine
end

