-- ==== Sys2Proof/Laws/Memory.lean ====
section
/-! SUPPORT. Reads after writes: a sparse list, the bytes of the memories. -/
namespace Sys2Proof.Machine

/-- Entries taken away by their keys read as the default. -/
theorem sget_filter {α : Type} (d : Nat → α) (l : List (Nat × α)) (p : Nat → Bool) (k : Nat) :
    sget d (l.filter fun c => p c.1) k = if p k then sget d l k else d k := by
  induction l with
  | nil => simp [sget]
  | cons x t ih =>
    obtain ⟨a, w⟩ := x
    rw [List.filter_cons]
    by_cases e : a = k
    · subst e
      by_cases f : p a = true
      · simp [sget, f]
      · simp [f, ih]
    · by_cases f : p a = true
      · simp [sget, f, ih, e]
      · simp [sget, f, ih, e]

theorem sget_sins {α : Type} (d : Nat → α) (l : List (Nat × α)) (k j : Nat) (v : α) (hl : ∀ c ∈ l, c.1 ≠ k) :
    sget d (sins k v l) j = if j = k then v else sget d l j := by
  induction l with
  | nil =>
    by_cases e : j = k
    · subst e; simp [sins, sget]
    · simp [sins, sget, e, Ne.symm e]
  | cons x t ih =>
    obtain ⟨a, w⟩ := x
    have ha : a ≠ k := hl (a, w) (List.mem_cons_self ..)
    have it := ih fun c hc => hl c (List.mem_cons_of_mem _ hc)
    simp only [sins]
    split
    · by_cases e : j = k
      · subst e; simp [sget]
      · simp [sget, e, Ne.symm e]
    · simp only [sget, it]
      by_cases e : j = k
      · subst e; simp [ha]
      · simp [e]

/-- A read after a write: the written key gives the value, every other key what it gave. -/
theorem sget_sput {α : Type} [DecidableEq α] (d : Nat → α) (l : List (Nat × α)) (k j : Nat) (v : α) :
    sget d (sput d l k v) j = if j = k then v else sget d l j := by
  have hf := sget_filter d l (fun a => decide (a ≠ k)) j
  unfold sput
  dsimp only
  split
  · rename_i hv
    rw [hf]
    by_cases e : j = k
    · subst e; simp [hv]
    · simp [e]
  · rw [sget_sins d _ k j v fun c hc => of_decide_eq_true (List.mem_filter.mp hc).2, hf]
    by_cases e : j = k <;> simp [e]

/-- A register after a write of a register. -/
@[simp] theorem State.reg_setReg (a b : Nat) (v : Word) (s : State) :
    (State.setReg a v s).reg b = if b = a then v &&& regMask a else s.reg b :=
  sget_sput regReset s.regs a b (v &&& regMask a)

theorem State.byte_setByte (a x : Nat) (v : Byte) (s : State) :
    (State.setByte a v s).byte x = if x = a then v else s.byte x :=
  sget_sput Memory.unlisted s.mem.cells a x v

theorem State.byte_setBytes (a x : Nat) (bs : List Byte) (s : State) :
    (State.setBytes a bs s).byte x = if a ≤ x ∧ x < a + bs.length then bs.getD (x - a) 0 else s.byte x := by
  induction bs generalizing a s with
  | nil => rw [if_neg (by simp only [List.length_nil]; omega)]; rfl
  | cons b t ih =>
    rw [State.setBytes, ih (a + 1), State.byte_setByte]
    simp only [List.length_cons]
    by_cases e : x = a
    · subst e; rw [if_neg (by omega), if_pos (by omega)]; simp
    · rw [if_neg e]
      by_cases f : a + 1 ≤ x ∧ x < a + 1 + t.length
      · rw [if_pos f, if_pos (by omega), show x - a = (x - (a + 1)) + 1 by omega, List.getD_cons_succ]
      · rw [if_neg f, if_neg (by omega)]

theorem State.byte_eraseRange (a n x : Nat) (s : State) :
    (State.eraseRange a n s).byte x = if a ≤ x ∧ x < a + n then Memory.unlisted x else s.byte x := by
  have := sget_filter Memory.unlisted s.mem.cells (fun k => decide (k < a) || decide (a + n ≤ k)) x
  unfold State.eraseRange State.byte
  dsimp only
  rw [this]
  by_cases e : a ≤ x ∧ x < a + n
  · rw [if_pos e, if_neg (by simp; omega)]
  · rw [if_neg e, if_pos (by simp; omega)]

/-- A program ANDs the bytes whose lanes are enabled, and no others. -/
theorem State.byte_flashAnd (a x : Nat) (be : BitVec 4) (v : Word) (s : State) :
    (State.flashAnd a be v s).byte x =
      if a ≤ x ∧ x < a + 4 ∧ be.getLsbD (x - a) = true then s.byte x &&& (v >>> (8 * (x - a))).setWidth 8 else s.byte x := by
  have one : ∀ (i : Nat) (t : State),
      (t.when (be.getLsbD i) fun u => u.setByte (a + i) (u.byte (a + i) &&& (v >>> (8 * i)).setWidth 8)).byte x =
        if x = a + i ∧ be.getLsbD i = true then t.byte x &&& (v >>> (8 * i)).setWidth 8 else t.byte x := by
    intro i t
    cases hb : be.getLsbD i
    · simp [State.when]
    · simp only [State.when, if_true, State.byte_setByte, and_true]
      split
      · subst_vars; rfl
      · rfl
  unfold State.flashAnd State.each
  simp only [List.foldl]
  rw [one 3, one 2, one 1, one 0]
  by_cases c0 : x = a
  · subst c0; simp
  by_cases c1 : x = a + 1
  · subst c1; simp
  by_cases c2 : x = a + 2
  · subst c2; simp
  by_cases c3 : x = a + 3
  · subst c3; simp
  rw [if_neg (by simp [c3]), if_neg (by simp [c2]), if_neg (by simp [c1]), if_neg (by simp [c0]), if_neg (by omega)]

end Sys2Proof.Machine
end

