-- ==== Sys2Proof/Laws/PerInstr.lean ====
section
/-! SUPPORT. The family Spelling, one lemma per command: no word of the table spells it (the table gives no bits). -/
namespace Sys2Proof.Laws.Spelling

/-- No word spells the command. -/
def Statement (i : Instr) : Prop := ∀ n w : Nat, decodeTableWord n w ≠ some i

theorem registerWrite (m : Master) (addr : Word) (lanes : BitVec 4) (v : Word) : Statement (.registerWrite m addr lanes v) := fun _ _ => by simp [decodeTableWord]
theorem serviceImageCapture (apin : Bool) : Statement (.serviceImageCapture apin) := fun _ _ => by simp [decodeTableWord]
theorem normalRead (a : BitVec 6) : Statement (.normalRead a) := fun _ _ => by simp [decodeTableWord]
theorem peek (a : BitVec 6) : Statement (.peek a) := fun _ _ => by simp [decodeTableWord]
theorem serviceWrite (a : BitVec 6) (v : Half) : Statement (.serviceWrite a v) := fun _ _ => by simp [decodeTableWord]
theorem commandRefused (a : BitVec 6) : Statement (.commandRefused a) := fun _ _ => by simp [decodeTableWord]
theorem key (v : Half) : Statement (.key v) := fun _ _ => by simp [decodeTableWord]
theorem keyWindowClose : Statement (.keyWindowClose) := fun _ _ => by simp [decodeTableWord]
theorem wrst (v : Half) : Statement (.wrst v) := fun _ _ => by simp [decodeTableWord]
theorem deepRead (v : Half) : Statement (.deepRead v) := fun _ _ => by simp [decodeTableWord]
theorem deepWrite (v : Half) : Statement (.deepWrite v) := fun _ _ => by simp [decodeTableWord]
theorem deepAccessDone : Statement (.deepAccessDone) := fun _ _ => by simp [decodeTableWord]
theorem deepAccessTimeout : Statement (.deepAccessTimeout) := fun _ _ => by simp [decodeTableWord]
theorem autoIncrement (wr : Option Half) : Statement (.autoIncrement wr) := fun _ _ => by simp [decodeTableWord]
theorem walkEntry (v : Half) : Statement (.walkEntry v) := fun _ _ => by simp [decodeTableWord]
theorem walkEntryComplete : Statement (.walkEntryComplete) := fun _ _ => by simp [decodeTableWord]
theorem step (v : Half) : Statement (.step v) := fun _ _ => by simp [decodeTableWord]
theorem walkStepEnd (clocks : Nat) (met : Bool) : Statement (.walkStepEnd clocks met) := fun _ _ => by simp [decodeTableWord]
theorem walkExit (v : Half) : Statement (.walkExit v) := fun _ _ => by simp [decodeTableWord]
theorem fbStart : Statement (.fbStart) := fun _ _ => by simp [decodeTableWord]
theorem fbNewest : Statement (.fbNewest) := fun _ _ => by simp [decodeTableWord]
theorem fbDataRead : Statement (.fbDataRead) := fun _ _ => by simp [decodeTableWord]
theorem gaugeConversion : Statement (.gaugeConversion) := fun _ _ => by simp [decodeTableWord]
theorem powerOn (lowestMv : Nat) : Statement (.powerOn lowestMv) := fun _ _ => by simp [decodeTableWord]
theorem powerUpComplete (straps : Straps) : Statement (.powerUpComplete straps) := fun _ _ => by simp [decodeTableWord]
theorem pinReset (lowNs : Nat) : Statement (.pinReset lowNs) := fun _ _ => by simp [decodeTableWord]
theorem pinResetRelease (straps : Straps) : Statement (.pinResetRelease straps) := fun _ _ => by simp [decodeTableWord]
theorem testHigh : Statement (.testHigh) := fun _ _ => by simp [decodeTableWord]
theorem brownOut : Statement (.brownOut) := fun _ _ => by simp [decodeTableWord]
theorem coreLow : Statement (.coreLow) := fun _ _ => by simp [decodeTableWord]
theorem warmResetRelease : Statement (.warmResetRelease) := fun _ _ => by simp [decodeTableWord]
theorem clockFault : Statement (.clockFault) := fun _ _ => by simp [decodeTableWord]
theorem clockRecovery (straps : Straps) : Statement (.clockRecovery straps) := fun _ _ => by simp [decodeTableWord]
theorem refClkLoss : Statement (.refClkLoss) := fun _ _ => by simp [decodeTableWord]
theorem cabActChange (level : Bool) : Statement (.cabActChange level) := fun _ _ => by simp [decodeTableWord]
theorem cabdbChange : Statement (.cabdbChange) := fun _ _ => by simp [decodeTableWord]
theorem vehSample (senseMv vsupMv vcoreMv : Nat) (vioMv : Vector Half 4) (temp : Half) : Statement (.vehSample senseMv vsupMv vcoreMv vioMv temp) := fun _ _ => by simp [decodeTableWord]
theorem classTimeExpiry : Statement (.classTimeExpiry) := fun _ _ => by simp [decodeTableWord]
theorem vsupPowerFail : Statement (.vsupPowerFail) := fun _ _ => by simp [decodeTableWord]
theorem saveDone : Statement (.saveDone) := fun _ _ => by simp [decodeTableWord]
theorem holdResume : Statement (.holdResume) := fun _ _ => by simp [decodeTableWord]
theorem vsupLowWarning (vsupMv : Nat) : Statement (.vsupLowWarning vsupMv) := fun _ _ => by simp [decodeTableWord]
theorem tempWarning (halfDegrees : Half) : Statement (.tempWarning halfDegrees) := fun _ _ => by simp [decodeTableWord]
theorem traverseReceive (f : RxFrame) (beside : Option (List Byte)) : Statement (.traverseReceive f beside) := fun _ _ => by simp [decodeTableWord]
theorem portCarrier (p : Fin 4) (rxlvl : Byte) : Statement (.portCarrier p rxlvl) := fun _ _ => by simp [decodeTableWord]
theorem portLockLost (p : Fin 4) : Statement (.portLockLost p) := fun _ _ => by simp [decodeTableWord]
theorem portSilent (p : Fin 4) (rxlvl : Byte) : Statement (.portSilent p rxlvl) := fun _ _ => by simp [decodeTableWord]
theorem portJam (p : Fin 4) : Statement (.portJam p) := fun _ _ => by simp [decodeTableWord]
theorem portDead (p : Fin 4) : Statement (.portDead p) := fun _ _ => by simp [decodeTableWord]
theorem portClear (p : Fin 4) : Statement (.portClear p) := fun _ _ => by simp [decodeTableWord]
theorem notchPlace (p : Fin 4) (freq : BitVec 24) : Statement (.notchPlace p freq) := fun _ _ => by simp [decodeTableWord]
theorem notchRelease (p : Fin 4) (n : Fin 8) : Statement (.notchRelease p n) := fun _ _ => by simp [decodeTableWord]
theorem timestampRead (m : Master) (addr : Word) : Statement (.timestampRead m addr) := fun _ _ => by simp [decodeTableWord]
theorem portDisable (p : Fin 4) : Statement (.portDisable p) := fun _ _ => by simp [decodeTableWord]
theorem snrEvaluation (p : Fin 4) : Statement (.snrEvaluation p) := fun _ _ => by simp [decodeTableWord]
theorem snrReportPeriodic (p : Fin 4) : Statement (.snrReportPeriodic p) := fun _ _ => by simp [decodeTableWord]
theorem snrReport (f : RxFrame) : Statement (.snrReport f) := fun _ _ => by simp [decodeTableWord]
theorem segmentAnnounce (f : RxFrame) : Statement (.segmentAnnounce f) := fun _ _ => by simp [decodeTableWord]
theorem tonemapAcknowledge (f : RxFrame) : Statement (.tonemapAcknowledge f) := fun _ _ => by simp [decodeTableWord]
theorem segmentActivate (f : RxFrame) : Statement (.segmentActivate f) := fun _ _ => by simp [decodeTableWord]
theorem segmentMapActivation (p : Fin 4) : Statement (.segmentMapActivation p) := fun _ _ => by simp [decodeTableWord]
theorem segmentMapAbandon (p : Fin 4) : Statement (.segmentMapAbandon p) := fun _ _ => by simp [decodeTableWord]
theorem segmentSummary (f : RxFrame) : Statement (.segmentSummary f) := fun _ _ => by simp [decodeTableWord]
theorem ringAnnounce (f : RxFrame) : Statement (.ringAnnounce f) := fun _ _ => by simp [decodeTableWord]
theorem ringMapActivation : Statement (.ringMapActivation) := fun _ _ => by simp [decodeTableWord]
theorem ringMapAbandon : Statement (.ringMapAbandon) := fun _ _ => by simp [decodeTableWord]
theorem throughUnitChange (partnerRuns : Bool) : Statement (.throughUnitChange partnerRuns) := fun _ _ => by simp [decodeTableWord]
theorem turnout : Statement (.turnout) := fun _ _ => by simp [decodeTableWord]
theorem beaconTimer (p : Fin 4) : Statement (.beaconTimer p) := fun _ _ => by simp [decodeTableWord]
theorem beacon (f : RxFrame) : Statement (.beacon f) := fun _ _ => by simp [decodeTableWord]
theorem request (f : RxFrame) : Statement (.request f) := fun _ _ => by simp [decodeTableWord]
theorem settleExpiry : Statement (.settleExpiry) := fun _ _ => by simp [decodeTableWord]
theorem seek (f : RxFrame) : Statement (.seek f) := fun _ _ => by simp [decodeTableWord]
theorem token (f : RxFrame) : Statement (.token f) := fun _ _ => by simp [decodeTableWord]
theorem report (f : RxFrame) : Statement (.report f) := fun _ _ => by simp [decodeTableWord]
theorem pass (f : RxFrame) : Statement (.pass f) := fun _ _ => by simp [decodeTableWord]
theorem reportSlotEnd (carrierA carrierB : Bool) : Statement (.reportSlotEnd carrierA carrierB) := fun _ _ => by simp [decodeTableWord]
theorem dupBypassWait : Statement (.dupBypassWait) := fun _ _ => by simp [decodeTableWord]
theorem tally (f : RxFrame) : Statement (.tally f) := fun _ _ => by simp [decodeTableWord]
theorem svyPublish : Statement (.svyPublish) := fun _ _ => by simp [decodeTableWord]
theorem hostDeadline : Statement (.hostDeadline) := fun _ _ => by simp [decodeTableWord]
theorem result (f : RxFrame) : Statement (.result f) := fun _ _ => by simp [decodeTableWord]
theorem surveyDeferredSend : Statement (.surveyDeferredSend) := fun _ _ => by simp [decodeTableWord]
theorem confirm (f : RxFrame) : Statement (.confirm f) := fun _ _ => by simp [decodeTableWord]
theorem confirmDeadline : Statement (.confirmDeadline) := fun _ _ => by simp [decodeTableWord]
theorem surveyAbort (f : RxFrame) : Statement (.surveyAbort f) := fun _ _ => by simp [decodeTableWord]
theorem surveyCut (elsewhere : Bool) (beside : Option (List Byte)) : Statement (.surveyCut elsewhere beside) := fun _ _ => by simp [decodeTableWord]
theorem surveyTimeout : Statement (.surveyTimeout) := fun _ _ => by simp [decodeTableWord]
theorem svyStart : Statement (.svyStart) := fun _ _ => by simp [decodeTableWord]
theorem svyFull : Statement (.svyFull) := fun _ _ => by simp [decodeTableWord]
theorem svyAbort : Statement (.svyAbort) := fun _ _ => by simp [decodeTableWord]
theorem join (f : RxFrame) : Statement (.join f) := fun _ _ => by simp [decodeTableWord]
theorem here (f : RxFrame) : Statement (.here f) := fun _ _ => by simp [decodeTableWord]
theorem latecomerCheck : Statement (.latecomerCheck) := fun _ _ => by simp [decodeTableWord]
theorem latecomerNoAnswer : Statement (.latecomerNoAnswer) := fun _ _ => by simp [decodeTableWord]
theorem t0 (beside : Option (List Byte)) : Statement (.t0 beside) := fun _ _ => by simp [decodeTableWord]
theorem localT0 : Statement (.localT0) := fun _ _ => by simp [decodeTableWord]
theorem returnPassComplete : Statement (.returnPassComplete) := fun _ _ => by simp [decodeTableWord]
theorem latchInstant : Statement (.latchInstant) := fun _ _ => by simp [decodeTableWord]
theorem syncHoldExpiry : Statement (.syncHoldExpiry) := fun _ _ => by simp [decodeTableWord]
theorem missedTraverse : Statement (.missedTraverse) := fun _ _ => by simp [decodeTableWord]
theorem takeover (beside : Option (List Byte)) : Statement (.takeover beside) := fun _ _ => by simp [decodeTableWord]
theorem coverStart : Statement (.coverStart) := fun _ _ => by simp [decodeTableWord]
theorem resume (f : RxFrame) : Statement (.resume f) := fun _ _ => by simp [decodeTableWord]
theorem commit : Statement (.commit) := fun _ _ => by simp [decodeTableWord]
theorem tableRequest (f : RxFrame) : Statement (.tableRequest f) := fun _ _ => by simp [decodeTableWord]
theorem tableRequestRepeat : Statement (.tableRequestRepeat) := fun _ _ => by simp [decodeTableWord]
theorem table (f : RxFrame) : Statement (.table f) := fun _ _ => by simp [decodeTableWord]
theorem claim (f : RxFrame) : Statement (.claim f) := fun _ _ => by simp [decodeTableWord]
theorem claimRetry : Statement (.claimRetry) := fun _ _ => by simp [decodeTableWord]
theorem tableEdit (v : Word) : Statement (.tableEdit v) := fun _ _ => by simp [decodeTableWord]
theorem claimPop (m : Master) : Statement (.claimPop m) := fun _ _ => by simp [decodeTableWord]
theorem traverseDisable : Statement (.traverseDisable) := fun _ _ => by simp [decodeTableWord]
theorem roadWindowOpen : Statement (.roadWindowOpen) := fun _ _ => by simp [decodeTableWord]
theorem roadFrameStart (p : Fin 4) (slots : List (List (Option Nat))) (foreign : Option ForeignP) : Statement (.roadFrameStart p slots foreign) := fun _ _ => by simp [decodeTableWord]
theorem acknowledge (f : RxFrame) : Statement (.acknowledge f) := fun _ _ => by simp [decodeTableWord]
theorem ackTimeout (p : Fin 4) : Statement (.ackTimeout p) := fun _ _ => by simp [decodeTableWord]
theorem roadTransit (f : RxFrame) : Statement (.roadTransit f) := fun _ _ => by simp [decodeTableWord]
theorem userMessage (f : RxFrame) : Statement (.userMessage f) := fun _ _ => by simp [decodeTableWord]
theorem ethernetTunnel (f : RxFrame) : Statement (.ethernetTunnel f) := fun _ _ => by simp [decodeTableWord]
theorem pause (f : RxFrame) : Statement (.pause f) := fun _ _ => by simp [decodeTableWord]
theorem pauseExpiry (p : Fin 4) (nid : BitVec 6) (prio : Fin 8) : Statement (.pauseExpiry p nid prio) := fun _ _ => by simp [decodeTableWord]
theorem pauseRepeat (p : Fin 4) (prio : Fin 8) : Statement (.pauseRepeat p prio) := fun _ _ => by simp [decodeTableWord]
theorem helloTimer : Statement (.helloTimer) := fun _ _ => by simp [decodeTableWord]
theorem hello (f : RxFrame) : Statement (.hello f) := fun _ _ => by simp [decodeTableWord]
theorem neighbourAgeExpiry (p : Fin 4) (nid : BitVec 6) : Statement (.neighbourAgeExpiry p nid) := fun _ _ => by simp [decodeTableWord]
theorem ping (dst : BitVec 6) : Statement (.ping dst) := fun _ _ => by simp [decodeTableWord]
theorem echo (f : RxFrame) : Statement (.echo f) := fun _ _ => by simp [decodeTableWord]
theorem reply (f : RxFrame) : Statement (.reply f) := fun _ _ => by simp [decodeTableWord]
theorem transmitRecord (m : Master) (wp : Word) : Statement (.transmitRecord m wp) := fun _ _ => by simp [decodeTableWord]
theorem wayleave (f : RxFrame) : Statement (.wayleave f) := fun _ _ => by simp [decodeTableWord]
theorem wayleaveRepeat : Statement (.wayleaveRepeat) := fun _ _ => by simp [decodeTableWord]
theorem ethFrameReceive (e : Fin 2) (f : EthRx) : Statement (.ethFrameReceive e f) := fun _ _ => by simp [decodeTableWord]
theorem phyPoll (e : Fin 2) (r0 r1 r4 r5 : Half) : Statement (.phyPoll e r0 r1 r4 r5) := fun _ _ => by simp [decodeTableWord]
theorem mdioAccess (e : Fin 2) (v : Word) : Statement (.mdioAccess e v) := fun _ _ => by simp [decodeTableWord]
theorem mdioDone (e : Fin 2) (data : Half) : Statement (.mdioDone e data) := fun _ _ => by simp [decodeTableWord]
theorem addressAgeExpiry (i_ : Fin 256) : Statement (.addressAgeExpiry i_) := fun _ _ => by simp [decodeTableWord]
theorem ethPause (e : Fin 2) (quanta : Half) : Statement (.ethPause e quanta) := fun _ _ => by simp [decodeTableWord]
theorem pfc (e : Fin 2) (classes : Byte) (quanta : List Half) : Statement (.pfc e classes quanta) := fun _ _ => by simp [decodeTableWord]
theorem pfcExpiry (e : Fin 2) (cls : Fin 8) : Statement (.pfcExpiry e cls) := fun _ _ => by simp [decodeTableWord]
theorem learnqPop (m : Master) : Statement (.learnqPop m) := fun _ _ => by simp [decodeTableWord]
theorem ethDisable (e : Fin 2) (v : Word) : Statement (.ethDisable e v) := fun _ _ => by simp [decodeTableWord]
theorem cairnRequest (v : Word) : Statement (.cairnRequest v) := fun _ _ => by simp [decodeTableWord]
theorem cairn (p : Fin 8) : Statement (.cairn p) := fun _ _ => by simp [decodeTableWord]
theorem evtSoft (v : Word) : Statement (.evtSoft v) := fun _ _ => by simp [decodeTableWord]
theorem eventClaim (m : Master) (h : Hart) : Statement (.eventClaim m h) := fun _ _ => by simp [decodeTableWord]
theorem fbRecordWrite (failed : Option (List Byte)) : Statement (.fbRecordWrite failed) := fun _ _ => by simp [decodeTableWord]
theorem fbRepeatExpiry (ev : Byte) : Statement (.fbRepeatExpiry ev) := fun _ _ => by simp [decodeTableWord]
theorem fbHealthTimer : Statement (.fbHealthTimer) := fun _ _ => by simp [decodeTableWord]
theorem fbkUsergo (v : Word) : Statement (.fbkUsergo v) := fun _ _ => by simp [decodeTableWord]
theorem fbkWipe (v : Word) : Statement (.fbkWipe v) := fun _ _ => by simp [decodeTableWord]
theorem fbkRawPop (m : Master) : Statement (.fbkRawPop m) := fun _ _ => by simp [decodeTableWord]
theorem runRequest (src : RunSource) : Statement (.runRequest src) := fun _ _ => by simp [decodeTableWord]
theorem stopRequest : Statement (.stopRequest) := fun _ _ => by simp [decodeTableWord]
theorem loadComplete : Statement (.loadComplete) := fun _ _ => by simp [decodeTableWord]
theorem initReturn (a0 : Word) : Statement (.initReturn a0) := fun _ _ => by simp [decodeTableWord]
theorem initTimeout : Statement (.initTimeout) := fun _ _ => by simp [decodeTableWord]
theorem inputImageRelease (served : List Served) : Statement (.inputImageRelease served) := fun _ _ => by simp [decodeTableWord]
theorem cycleReturn (a0 : Word) (us : Nat) (served : List Served) : Statement (.cycleReturn a0 us served) := fun _ _ => by simp [decodeTableWord]
theorem outputDeadline : Statement (.outputDeadline) := fun _ _ => by simp [decodeTableWord]
theorem cycleWatchdog : Statement (.cycleWatchdog) := fun _ _ => by simp [decodeTableWord]
theorem programFault (mcause : BitVec 4) (mepc : Word) : Statement (.programFault mcause mepc) := fun _ _ => by simp [decodeTableWord]
theorem timeNow : Statement (.timeNow) := fun _ _ => by simp [decodeTableWord]
theorem fbUser (a0 a1 : Word) : Statement (.fbUser a0 a1) := fun _ _ => by simp [decodeTableWord]
theorem roadSend (a0 a1 : Word) : Statement (.roadSend a0 a1) := fun _ _ => by simp [decodeTableWord]
theorem roadRecv (a0 a1 a2 : Word) : Statement (.roadRecv a0 a1 a2) := fun _ _ => by simp [decodeTableWord]
theorem gateTry (a0 : Word) : Statement (.gateTry a0) := fun _ _ => by simp [decodeTableWord]
theorem gateRelease (a0 : Word) : Statement (.gateRelease a0) := fun _ _ => by simp [decodeTableWord]
theorem queuePush (a0 a1 : Word) : Statement (.queuePush a0 a1) := fun _ _ => by simp [decodeTableWord]
theorem queuePop (a0 : Word) : Statement (.queuePop a0) := fun _ _ => by simp [decodeTableWord]
theorem reqStop : Statement (.reqStop) := fun _ _ => by simp [decodeTableWord]
theorem fault (a0 : Word) : Statement (.fault a0) := fun _ _ => by simp [decodeTableWord]
theorem entrySkip (e : Entry) : Statement (.entrySkip e) := fun _ _ => by simp [decodeTableWord]
theorem blkNop (e : Entry) : Statement (.blkNop e) := fun _ _ => by simp [decodeTableWord]
theorem blkAnd (e : Entry) : Statement (.blkAnd e) := fun _ _ => by simp [decodeTableWord]
theorem blkOr (e : Entry) : Statement (.blkOr e) := fun _ _ => by simp [decodeTableWord]
theorem blkXor (e : Entry) : Statement (.blkXor e) := fun _ _ => by simp [decodeTableWord]
theorem blkNot (e : Entry) : Statement (.blkNot e) := fun _ _ => by simp [decodeTableWord]
theorem blkSr (e : Entry) : Statement (.blkSr e) := fun _ _ => by simp [decodeTableWord]
theorem blkRs (e : Entry) : Statement (.blkRs e) := fun _ _ => by simp [decodeTableWord]
theorem blkRtrig (e : Entry) : Statement (.blkRtrig e) := fun _ _ => by simp [decodeTableWord]
theorem blkFtrig (e : Entry) : Statement (.blkFtrig e) := fun _ _ => by simp [decodeTableWord]
theorem blkBitget (e : Entry) : Statement (.blkBitget e) := fun _ _ => by simp [decodeTableWord]
theorem blkBitput (e : Entry) : Statement (.blkBitput e) := fun _ _ => by simp [decodeTableWord]
theorem blkBand (e : Entry) : Statement (.blkBand e) := fun _ _ => by simp [decodeTableWord]
theorem blkBor (e : Entry) : Statement (.blkBor e) := fun _ _ => by simp [decodeTableWord]
theorem blkBxor (e : Entry) : Statement (.blkBxor e) := fun _ _ => by simp [decodeTableWord]
theorem blkShl (e : Entry) : Statement (.blkShl e) := fun _ _ => by simp [decodeTableWord]
theorem blkShr (e : Entry) : Statement (.blkShr e) := fun _ _ => by simp [decodeTableWord]
theorem blkAdd (e : Entry) : Statement (.blkAdd e) := fun _ _ => by simp [decodeTableWord]
theorem blkSub (e : Entry) : Statement (.blkSub e) := fun _ _ => by simp [decodeTableWord]
theorem blkMul (e : Entry) : Statement (.blkMul e) := fun _ _ => by simp [decodeTableWord]
theorem blkDiv (e : Entry) : Statement (.blkDiv e) := fun _ _ => by simp [decodeTableWord]
theorem blkMod (e : Entry) : Statement (.blkMod e) := fun _ _ => by simp [decodeTableWord]
theorem blkAbs (e : Entry) : Statement (.blkAbs e) := fun _ _ => by simp [decodeTableWord]
theorem blkNeg (e : Entry) : Statement (.blkNeg e) := fun _ _ => by simp [decodeTableWord]
theorem blkMin (e : Entry) : Statement (.blkMin e) := fun _ _ => by simp [decodeTableWord]
theorem blkMax (e : Entry) : Statement (.blkMax e) := fun _ _ => by simp [decodeTableWord]
theorem blkLimit (e : Entry) : Statement (.blkLimit e) := fun _ _ => by simp [decodeTableWord]
theorem blkEq (e : Entry) : Statement (.blkEq e) := fun _ _ => by simp [decodeTableWord]
theorem blkNe (e : Entry) : Statement (.blkNe e) := fun _ _ => by simp [decodeTableWord]
theorem blkGt (e : Entry) : Statement (.blkGt e) := fun _ _ => by simp [decodeTableWord]
theorem blkGe (e : Entry) : Statement (.blkGe e) := fun _ _ => by simp [decodeTableWord]
theorem blkLt (e : Entry) : Statement (.blkLt e) := fun _ _ => by simp [decodeTableWord]
theorem blkLe (e : Entry) : Statement (.blkLe e) := fun _ _ => by simp [decodeTableWord]
theorem blkMove (e : Entry) : Statement (.blkMove e) := fun _ _ => by simp [decodeTableWord]
theorem blkSel (e : Entry) : Statement (.blkSel e) := fun _ _ => by simp [decodeTableWord]
theorem blkPack16 (e : Entry) : Statement (.blkPack16 e) := fun _ _ => by simp [decodeTableWord]
theorem blkUnpack16 (e : Entry) : Statement (.blkUnpack16 e) := fun _ _ => by simp [decodeTableWord]
theorem blkBswap (e : Entry) : Statement (.blkBswap e) := fun _ _ => by simp [decodeTableWord]
theorem blkI2q (e : Entry) : Statement (.blkI2q e) := fun _ _ => by simp [decodeTableWord]
theorem blkQ2i (e : Entry) : Statement (.blkQ2i e) := fun _ _ => by simp [decodeTableWord]
theorem blkScale (e : Entry) : Statement (.blkScale e) := fun _ _ => by simp [decodeTableWord]
theorem blkQmul (e : Entry) : Statement (.blkQmul e) := fun _ _ => by simp [decodeTableWord]
theorem blkQdiv (e : Entry) : Statement (.blkQdiv e) := fun _ _ => by simp [decodeTableWord]
theorem blkQsqrt (e : Entry) : Statement (.blkQsqrt e) := fun _ _ => by simp [decodeTableWord]
theorem blkQmac (e : Entry) : Statement (.blkQmac e) := fun _ _ => by simp [decodeTableWord]
theorem blkTon (e : Entry) : Statement (.blkTon e) := fun _ _ => by simp [decodeTableWord]
theorem blkTof (e : Entry) : Statement (.blkTof e) := fun _ _ => by simp [decodeTableWord]
theorem blkTp (e : Entry) : Statement (.blkTp e) := fun _ _ => by simp [decodeTableWord]
theorem blkCtu (e : Entry) : Statement (.blkCtu e) := fun _ _ => by simp [decodeTableWord]
theorem blkCtd (e : Entry) : Statement (.blkCtd e) := fun _ _ => by simp [decodeTableWord]
theorem blkPid (e : Entry) : Statement (.blkPid e) := fun _ _ => by simp [decodeTableWord]
theorem blkLag (e : Entry) : Statement (.blkLag e) := fun _ _ => by simp [decodeTableWord]
theorem blkRamp (e : Entry) : Statement (.blkRamp e) := fun _ _ => by simp [decodeTableWord]
theorem blkInteg (e : Entry) : Statement (.blkInteg e) := fun _ _ => by simp [decodeTableWord]
theorem blkDeriv (e : Entry) : Statement (.blkDeriv e) := fun _ _ => by simp [decodeTableWord]
theorem blkDband (e : Entry) : Statement (.blkDband e) := fun _ _ => by simp [decodeTableWord]
theorem blkHyst (e : Entry) : Statement (.blkHyst e) := fun _ _ => by simp [decodeTableWord]
theorem blkLin (e : Entry) : Statement (.blkLin e) := fun _ _ => by simp [decodeTableWord]
theorem blkAvg (e : Entry) : Statement (.blkAvg e) := fun _ _ => by simp [decodeTableWord]
theorem blkWmok (e : Entry) : Statement (.blkWmok e) := fun _ _ => by simp [decodeTableWord]
theorem blkLaneok (e : Entry) : Statement (.blkLaneok e) := fun _ _ => by simp [decodeTableWord]
theorem blkFresh (e : Entry) : Statement (.blkFresh e) := fun _ _ => by simp [decodeTableWord]
theorem blkInrange (e : Entry) : Statement (.blkInrange e) := fun _ _ => by simp [decodeTableWord]
theorem blkLoadx (e : Entry) : Statement (.blkLoadx e) := fun _ _ => by simp [decodeTableWord]
theorem blkStorex (e : Entry) : Statement (.blkStorex e) := fun _ _ => by simp [decodeTableWord]
theorem applyMark (rest : Vector Nat 2) : Statement (.applyMark rest) := fun _ _ => by simp [decodeTableWord]
theorem collectPass : Statement (.collectPass) := fun _ _ => by simp [decodeTableWord]
theorem deliverPass : Statement (.deliverPass) := fun _ _ => by simp [decodeTableWord]
theorem lanePassReturn (f : LaneRx) : Statement (.lanePassReturn f) := fun _ _ => by simp [decodeTableWord]
theorem lanePassLate : Statement (.lanePassLate) := fun _ _ => by simp [decodeTableWord]
theorem heardPass (f : LaneRx) : Statement (.heardPass f) := fun _ _ => by simp [decodeTableWord]
theorem laneSubdone (served : List Served) : Statement (.laneSubdone served) := fun _ _ => by simp [decodeTableWord]
theorem laneCommit : Statement (.laneCommit) := fun _ _ => by simp [decodeTableWord]
theorem laneEnable : Statement (.laneEnable) := fun _ _ => by simp [decodeTableWord]
theorem laneDisable : Statement (.laneDisable) := fun _ _ => by simp [decodeTableWord]
theorem forcestart : Statement (.forcestart) := fun _ _ => by simp [decodeTableWord]
theorem identPass : Statement (.identPass) := fun _ _ => by simp [decodeTableWord]
theorem rangePass (station : Fin 32) (fromL2 : Bool) (rtt : Option Nat) : Statement (.rangePass station fromL2 rtt) := fun _ _ => by simp [decodeTableWord]
theorem configPass : Statement (.configPass) := fun _ _ => by simp [decodeTableWord]
theorem startTimeout : Statement (.startTimeout) := fun _ _ => by simp [decodeTableWord]
theorem heartbeat : Statement (.heartbeat) := fun _ _ => by simp [decodeTableWord]
theorem peerHbPulse (widthNs : Nat) : Statement (.peerHbPulse widthNs) := fun _ _ => by simp [decodeTableWord]
theorem peerHbLost : Statement (.peerHbLost) := fun _ _ => by simp [decodeTableWord]
theorem wlvBcommit : Statement (.wlvBcommit) := fun _ _ => by simp [decodeTableWord]
theorem wayleaveDeadline : Statement (.wayleaveDeadline) := fun _ _ => by simp [decodeTableWord]
theorem wlvReqqPop (m : Master) : Statement (.wlvReqqPop m) := fun _ _ => by simp [decodeTableWord]
theorem collisionCheck : Statement (.collisionCheck) := fun _ _ => by simp [decodeTableWord]
theorem peerOwnChange (level : Bool) : Statement (.peerOwnChange level) := fun _ _ => by simp [decodeTableWord]
theorem interlockStuck : Statement (.interlockStuck) := fun _ _ => by simp [decodeTableWord]
theorem drill : Statement (.drill) := fun _ _ => by simp [decodeTableWord]
theorem drillCheckEnd : Statement (.drillCheckEnd) := fun _ _ => by simp [decodeTableWord]
theorem drillRefused : Statement (.drillRefused) := fun _ _ => by simp [decodeTableWord]
theorem revertReady : Statement (.revertReady) := fun _ _ => by simp [decodeTableWord]
theorem tclr : Statement (.tclr) := fun _ _ => by simp [decodeTableWord]
theorem dmaGo (n : Fin 32) (v : Word) : Statement (.dmaGo n v) := fun _ _ => by simp [decodeTableWord]
theorem dmaDisable (n : Option (Fin 32)) : Statement (.dmaDisable n) := fun _ _ => by simp [decodeTableWord]
theorem dmaFetchDone (n : Fin 32) : Statement (.dmaFetchDone n) := fun _ _ => by simp [decodeTableWord]
theorem dmaGateAcquire (n : Fin 32) : Statement (.dmaGateAcquire n) := fun _ _ => by simp [decodeTableWord]
theorem dmaTrigger (t : TrigSource) : Statement (.dmaTrigger t) := fun _ _ => by simp [decodeTableWord]
theorem dmaBeat : Statement (.dmaBeat) := fun _ _ => by simp [decodeTableWord]
theorem dmaWriteResponse (n : Fin 32) : Statement (.dmaWriteResponse n) := fun _ _ => by simp [decodeTableWord]
theorem dmaStopDone (n : Fin 32) : Statement (.dmaStopDone n) := fun _ _ => by simp [decodeTableWord]
theorem hostRead (h : HostAddr) : Statement (.hostRead h) := fun _ _ => by simp [decodeTableWord]
theorem hostWrite (h : HostAddr) (data : Half) (par : BitVec 2) : Statement (.hostWrite h data par) := fun _ _ => by simp [decodeTableWord]
theorem hostWaitTimeout : Statement (.hostWaitTimeout) := fun _ _ => by simp [decodeTableWord]
theorem localWriteResponse : Statement (.localWriteResponse) := fun _ _ => by simp [decodeTableWord]
theorem frameBuild (w : Fin 16) : Statement (.frameBuild w) := fun _ _ => by simp [decodeTableWord]
theorem causewayWrite (f : Option RxFrame) : Statement (.causewayWrite f) := fun _ _ => by simp [decodeTableWord]
theorem causewayDone (f : RxFrame) : Statement (.causewayDone f) := fun _ _ => by simp [decodeTableWord]
theorem doneTimeout (w : Fin 16) : Statement (.doneTimeout w) := fun _ _ => by simp [decodeTableWord]
theorem cwyLogPop (m : Master) : Statement (.cwyLogPop m) := fun _ _ => by simp [decodeTableWord]
theorem testlog : Statement (.testlog) := fun _ _ => by simp [decodeTableWord]
theorem scrub : Statement (.scrub) := fun _ _ => by simp [decodeTableWord]
theorem flashProgram (m : Master) (addr : Word) (be : BitVec 4) (v : Word) : Statement (.flashProgram m addr be v) := fun _ _ => by simp [decodeTableWord]
theorem flashProgramDone (bankB : Bool) : Statement (.flashProgramDone bankB) := fun _ _ => by simp [decodeTableWord]
theorem flashErase (m : Master) (v : Word) : Statement (.flashErase m v) := fun _ _ => by simp [decodeTableWord]
theorem flashEraseDone (bankB : Bool) (stuck : List (Nat × Byte)) : Statement (.flashEraseDone bankB stuck) := fun _ _ => by simp [decodeTableWord]
theorem memElogPop (m : Master) : Statement (.memElogPop m) := fun _ _ => by simp [decodeTableWord]
theorem injection (m : Master) (v : Word) : Statement (.injection m v) := fun _ _ => by simp [decodeTableWord]
theorem gateTryg (m : Master) (g : Fin 32) : Statement (.gateTryg m g) := fun _ _ => by simp [decodeTableWord]
theorem gateRelg (m : Master) (g : Fin 32) : Statement (.gateRelg m g) := fun _ _ => by simp [decodeTableWord]
theorem gateForceg (m : Master) (g : Fin 32) : Statement (.gateForceg m g) := fun _ _ => by simp [decodeTableWord]
theorem gateLeaseExpiry (g : Fin 32) : Statement (.gateLeaseExpiry g) := fun _ _ => by simp [decodeTableWord]
theorem gateQpush (m : Master) (q : Fin 16) (v : Word) : Statement (.gateQpush m q v) := fun _ _ => by simp [decodeTableWord]
theorem gateQpop (m : Master) (q : Fin 16) : Statement (.gateQpop m q) := fun _ _ => by simp [decodeTableWord]
theorem gateQclr (m : Master) (q : Fin 16) (v : Word) : Statement (.gateQclr m q v) := fun _ _ => by simp [decodeTableWord]
theorem bootVerify (v : Word) : Statement (.bootVerify v) := fun _ _ => by simp [decodeTableWord]
theorem bootVerifyDone : Statement (.bootVerifyDone) := fun _ _ => by simp [decodeTableWord]
theorem bootKick : Statement (.bootKick) := fun _ _ => by simp [decodeTableWord]
theorem stewardWatchdog : Statement (.stewardWatchdog) := fun _ _ => by simp [decodeTableWord]
theorem quiesce (m : Master) (p : Fin 8) : Statement (.quiesce m p) := fun _ _ => by simp [decodeTableWord]
theorem partitionReset (m : Master) (p : Fin 8) (bankB : Bool) : Statement (.partitionReset m p bankB) := fun _ _ => by simp [decodeTableWord]
theorem rejoin (m : Master) (p : Fin 8) : Statement (.rejoin m p) := fun _ _ => by simp [decodeTableWord]
theorem quiesceComplete (p : Fin 6) : Statement (.quiesceComplete p) := fun _ _ => by simp [decodeTableWord]
theorem partitionResetDone (p : Fin 6) : Statement (.partitionResetDone p) := fun _ _ => by simp [decodeTableWord]
theorem rejoinComplete (p : Fin 6) : Statement (.rejoinComplete p) := fun _ _ => by simp [decodeTableWord]
theorem keyProgram (slot : Fin 4) : Statement (.keyProgram slot) := fun _ _ => by simp [decodeTableWord]
theorem keyRevoke (slot : Fin 4) : Statement (.keyRevoke slot) := fun _ _ => by simp [decodeTableWord]
theorem tapReset : Statement (.tapReset) := fun _ _ => by simp [decodeTableWord]
theorem extest (pins : BitVec 225) (cells : BitVec 225) : Statement (.extest pins cells) := fun _ _ => by simp [decodeTableWord]
theorem samplePreload (pins : BitVec 225) (cells : BitVec 225) : Statement (.samplePreload pins cells) := fun _ _ => by simp [decodeTableWord]
theorem idcode : Statement (.idcode) := fun _ _ => by simp [decodeTableWord]
theorem bypass (tdi : Bool) : Statement (.bypass tdi) := fun _ _ => by simp [decodeTableWord]
theorem dtmcs (v : Word) : Statement (.dtmcs v) := fun _ _ => by simp [decodeTableWord]
theorem debugHalt (h : Hart) : Statement (.debugHalt h) := fun _ _ => by simp [decodeTableWord]
theorem debugResume (h : Hart) : Statement (.debugResume h) := fun _ _ => by simp [decodeTableWord]
theorem singleStep (h : Hart) (nextPc : Word) : Statement (.singleStep h nextPc) := fun _ _ => by simp [decodeTableWord]
theorem abstractCommand (h : Hart) (write : Bool) (regno : Half) (v : Word) (buf : BufOp) : Statement (.abstractCommand h write regno v buf) := fun _ _ => by simp [decodeTableWord]
theorem systemBusRead (addr : Word) (size : Size) : Statement (.systemBusRead addr size) := fun _ _ => by simp [decodeTableWord]
theorem systemBusWrite (addr : Word) (size : Size) (v : Word) : Statement (.systemBusWrite addr size v) := fun _ _ => by simp [decodeTableWord]
theorem crcOrFramingError (edges : Nat) (sdi : Word) : Statement (.crcOrFramingError edges sdi) := fun _ _ => by simp [decodeTableWord]
theorem refClkReturn : Statement (.refClkReturn) := fun _ _ => by simp [decodeTableWord]
theorem closureFail : Statement (.closureFail) := fun _ _ => by simp [decodeTableWord]
theorem lastSymbolSent (p : Fin 4) : Statement (.lastSymbolSent p) := fun _ _ => by simp [decodeTableWord]
theorem ethPauseExpiry (e : Fin 2) : Statement (.ethPauseExpiry e) := fun _ _ => by simp [decodeTableWord]
theorem ethFrameSent (e : Fin 2) (collisions : List Bool) : Statement (.ethFrameSent e collisions) := fun _ _ => by simp [decodeTableWord]

end Sys2Proof.Laws.Spelling
end

