-- ==== Sys2Proof/Laws/State.lean ====
section
/-! SUPPORT. What the small updates of a state leave alone, one lemma a part of the state, and what raising an event
leaves alone. -/
namespace Sys2Proof.Machine

/-- An access that is made is what its command does. -/
theorem State.access_made {s : State} {m : Master} {w : Bool} {a : Nat} (f : State → State) (h : s.accesses m w a = true) :
    s.access m w a f = f s := by
  simp only [State.accesses, State.mayAccess, Bool.and_eq_true, Option.isNone_iff_eq_none] at h
  simp only [State.access, State.when, State.unlessTrig, h.1, h.2.1, h.2.2, if_true]

/-- A master that is not clocked makes no access. -/
theorem State.access_still {s : State} {m : Master} (w : Bool) (a : Nat) (f : State → State) (h : s.masterRuns m = false) :
    s.access m w a f = s := by
  simp only [State.access, State.when, h, Bool.false_eq_true, if_false]

/-- An access that the master may not make is answered with an access fault. -/
theorem State.access_refused {s : State} {m : Master} {w : Bool} {a : Nat} (f : State → State) (h : s.masterRuns m = true)
    (ht : s.trigTake m (if w then 1 else 0) a = none) (hm : s.masterAllows m w a = false) :
    s.access m w a f = s.accFault m w a := by
  simp only [State.access, State.when, State.unlessTrig, h, ht, hm, Bool.false_eq_true, if_false, if_true]

/-! ### State.setReg -/

@[simp] theorem State.setReg_sys (a : Nat) (v : Word) (s : State) : (State.setReg a v s).sys = s.sys := rfl
@[simp] theorem State.setReg_sp (a : Nat) (v : Word) (s : State) : (State.setReg a v s).sp = s.sp := rfl
@[simp] theorem State.setReg_evt (a : Nat) (v : Word) (s : State) : (State.setReg a v s).evt = s.evt := rfl
@[simp] theorem State.setReg_cnt (a : Nat) (v : Word) (s : State) : (State.setReg a v s).cnt = s.cnt := rfl
@[simp] theorem State.setReg_fbk (a : Nat) (v : Word) (s : State) : (State.setReg a v s).fbk = s.fbk := rfl
@[simp] theorem State.setReg_liu (a : Nat) (v : Word) (s : State) : (State.setReg a v s).liu = s.liu := rfl
@[simp] theorem State.setReg_svy (a : Nat) (v : Word) (s : State) : (State.setReg a v s).svy = s.svy := rfl
@[simp] theorem State.setReg_tre (a : Nat) (v : Word) (s : State) : (State.setReg a v s).tre = s.tre := rfl
@[simp] theorem State.setReg_road (a : Nat) (v : Word) (s : State) : (State.setReg a v s).road = s.road := rfl
@[simp] theorem State.setReg_eth (a : Nat) (v : Word) (s : State) : (State.setReg a v s).eth = s.eth := rfl
@[simp] theorem State.setReg_ctl (a : Nat) (v : Word) (s : State) : (State.setReg a v s).ctl = s.ctl := rfl
@[simp] theorem State.setReg_itn (a : Nat) (v : Word) (s : State) : (State.setReg a v s).itn = s.itn := rfl
@[simp] theorem State.setReg_lane (a : Nat) (v : Word) (s : State) : (State.setReg a v s).lane = s.lane := rfl
@[simp] theorem State.setReg_wlv (a : Nat) (v : Word) (s : State) : (State.setReg a v s).wlv = s.wlv := rfl
@[simp] theorem State.setReg_dma (a : Nat) (v : Word) (s : State) : (State.setReg a v s).dma = s.dma := rfl
@[simp] theorem State.setReg_cwy (a : Nat) (v : Word) (s : State) : (State.setReg a v s).cwy = s.cwy := rfl
@[simp] theorem State.setReg_mem (a : Nat) (v : Word) (s : State) : (State.setReg a v s).mem = s.mem := rfl
@[simp] theorem State.setReg_boot (a : Nat) (v : Word) (s : State) : (State.setReg a v s).boot = s.boot := rfl
@[simp] theorem State.setReg_free (a : Nat) (v : Word) (s : State) : (State.setReg a v s).free = s.free := rfl
@[simp] theorem State.setReg_out (a : Nat) (v : Word) (s : State) : (State.setReg a v s).out = s.out := rfl
@[simp] theorem State.setReg_pending (a : Nat) (v : Word) (s : State) :
    (State.setReg a v s).pending = s.pending := rfl

/-! ### State.setByte -/

@[simp] theorem State.setByte_regs (a : Nat) (v : Byte) (s : State) : (State.setByte a v s).regs = s.regs := rfl
@[simp] theorem State.setByte_sys (a : Nat) (v : Byte) (s : State) : (State.setByte a v s).sys = s.sys := rfl
@[simp] theorem State.setByte_sp (a : Nat) (v : Byte) (s : State) : (State.setByte a v s).sp = s.sp := rfl
@[simp] theorem State.setByte_evt (a : Nat) (v : Byte) (s : State) : (State.setByte a v s).evt = s.evt := rfl
@[simp] theorem State.setByte_cnt (a : Nat) (v : Byte) (s : State) : (State.setByte a v s).cnt = s.cnt := rfl
@[simp] theorem State.setByte_fbk (a : Nat) (v : Byte) (s : State) : (State.setByte a v s).fbk = s.fbk := rfl
@[simp] theorem State.setByte_liu (a : Nat) (v : Byte) (s : State) : (State.setByte a v s).liu = s.liu := rfl
@[simp] theorem State.setByte_svy (a : Nat) (v : Byte) (s : State) : (State.setByte a v s).svy = s.svy := rfl
@[simp] theorem State.setByte_tre (a : Nat) (v : Byte) (s : State) : (State.setByte a v s).tre = s.tre := rfl
@[simp] theorem State.setByte_road (a : Nat) (v : Byte) (s : State) : (State.setByte a v s).road = s.road := rfl
@[simp] theorem State.setByte_eth (a : Nat) (v : Byte) (s : State) : (State.setByte a v s).eth = s.eth := rfl
@[simp] theorem State.setByte_ctl (a : Nat) (v : Byte) (s : State) : (State.setByte a v s).ctl = s.ctl := rfl
@[simp] theorem State.setByte_itn (a : Nat) (v : Byte) (s : State) : (State.setByte a v s).itn = s.itn := rfl
@[simp] theorem State.setByte_lane (a : Nat) (v : Byte) (s : State) : (State.setByte a v s).lane = s.lane := rfl
@[simp] theorem State.setByte_wlv (a : Nat) (v : Byte) (s : State) : (State.setByte a v s).wlv = s.wlv := rfl
@[simp] theorem State.setByte_dma (a : Nat) (v : Byte) (s : State) : (State.setByte a v s).dma = s.dma := rfl
@[simp] theorem State.setByte_cwy (a : Nat) (v : Byte) (s : State) : (State.setByte a v s).cwy = s.cwy := rfl
@[simp] theorem State.setByte_boot (a : Nat) (v : Byte) (s : State) : (State.setByte a v s).boot = s.boot := rfl
@[simp] theorem State.setByte_free (a : Nat) (v : Byte) (s : State) : (State.setByte a v s).free = s.free := rfl
@[simp] theorem State.setByte_out (a : Nat) (v : Byte) (s : State) : (State.setByte a v s).out = s.out := rfl
@[simp] theorem State.setByte_pending (a : Nat) (v : Byte) (s : State) :
    (State.setByte a v s).pending = s.pending := rfl

/-! ### State.emit -/

@[simp] theorem State.emit_regs (o : Output) (s : State) : (State.emit o s).regs = s.regs := rfl
@[simp] theorem State.emit_sys (o : Output) (s : State) : (State.emit o s).sys = s.sys := rfl
@[simp] theorem State.emit_sp (o : Output) (s : State) : (State.emit o s).sp = s.sp := rfl
@[simp] theorem State.emit_evt (o : Output) (s : State) : (State.emit o s).evt = s.evt := rfl
@[simp] theorem State.emit_cnt (o : Output) (s : State) : (State.emit o s).cnt = s.cnt := rfl
@[simp] theorem State.emit_fbk (o : Output) (s : State) : (State.emit o s).fbk = s.fbk := rfl
@[simp] theorem State.emit_liu (o : Output) (s : State) : (State.emit o s).liu = s.liu := rfl
@[simp] theorem State.emit_svy (o : Output) (s : State) : (State.emit o s).svy = s.svy := rfl
@[simp] theorem State.emit_tre (o : Output) (s : State) : (State.emit o s).tre = s.tre := rfl
@[simp] theorem State.emit_road (o : Output) (s : State) : (State.emit o s).road = s.road := rfl
@[simp] theorem State.emit_eth (o : Output) (s : State) : (State.emit o s).eth = s.eth := rfl
@[simp] theorem State.emit_ctl (o : Output) (s : State) : (State.emit o s).ctl = s.ctl := rfl
@[simp] theorem State.emit_itn (o : Output) (s : State) : (State.emit o s).itn = s.itn := rfl
@[simp] theorem State.emit_lane (o : Output) (s : State) : (State.emit o s).lane = s.lane := rfl
@[simp] theorem State.emit_wlv (o : Output) (s : State) : (State.emit o s).wlv = s.wlv := rfl
@[simp] theorem State.emit_dma (o : Output) (s : State) : (State.emit o s).dma = s.dma := rfl
@[simp] theorem State.emit_cwy (o : Output) (s : State) : (State.emit o s).cwy = s.cwy := rfl
@[simp] theorem State.emit_mem (o : Output) (s : State) : (State.emit o s).mem = s.mem := rfl
@[simp] theorem State.emit_boot (o : Output) (s : State) : (State.emit o s).boot = s.boot := rfl
@[simp] theorem State.emit_free (o : Output) (s : State) : (State.emit o s).free = s.free := rfl
@[simp] theorem State.emit_pending (o : Output) (s : State) : (State.emit o s).pending = s.pending := rfl

/-! ### State.took -/

@[simp] theorem State.took_regs (s : State) : (State.took s).regs = s.regs := rfl
@[simp] theorem State.took_sys (s : State) : (State.took s).sys = s.sys := rfl
@[simp] theorem State.took_sp (s : State) : (State.took s).sp = s.sp := rfl
@[simp] theorem State.took_evt (s : State) : (State.took s).evt = s.evt := rfl
@[simp] theorem State.took_cnt (s : State) : (State.took s).cnt = s.cnt := rfl
@[simp] theorem State.took_fbk (s : State) : (State.took s).fbk = s.fbk := rfl
@[simp] theorem State.took_liu (s : State) : (State.took s).liu = s.liu := rfl
@[simp] theorem State.took_svy (s : State) : (State.took s).svy = s.svy := rfl
@[simp] theorem State.took_tre (s : State) : (State.took s).tre = s.tre := rfl
@[simp] theorem State.took_road (s : State) : (State.took s).road = s.road := rfl
@[simp] theorem State.took_eth (s : State) : (State.took s).eth = s.eth := rfl
@[simp] theorem State.took_ctl (s : State) : (State.took s).ctl = s.ctl := rfl
@[simp] theorem State.took_itn (s : State) : (State.took s).itn = s.itn := rfl
@[simp] theorem State.took_lane (s : State) : (State.took s).lane = s.lane := rfl
@[simp] theorem State.took_wlv (s : State) : (State.took s).wlv = s.wlv := rfl
@[simp] theorem State.took_dma (s : State) : (State.took s).dma = s.dma := rfl
@[simp] theorem State.took_cwy (s : State) : (State.took s).cwy = s.cwy := rfl
@[simp] theorem State.took_mem (s : State) : (State.took s).mem = s.mem := rfl
@[simp] theorem State.took_boot (s : State) : (State.took s).boot = s.boot := rfl
@[simp] theorem State.took_out (s : State) : (State.took s).out = s.out := rfl
@[simp] theorem State.took_pending (s : State) : (State.took s).pending = s.pending := rfl

/-! ### State.setErr -/

@[simp] theorem State.setErr_regs (a : Nat) (e : Option WordErr) (s : State) :
    (State.setErr a e s).regs = s.regs := rfl
@[simp] theorem State.setErr_sys (a : Nat) (e : Option WordErr) (s : State) : (State.setErr a e s).sys = s.sys := rfl
@[simp] theorem State.setErr_sp (a : Nat) (e : Option WordErr) (s : State) : (State.setErr a e s).sp = s.sp := rfl
@[simp] theorem State.setErr_evt (a : Nat) (e : Option WordErr) (s : State) : (State.setErr a e s).evt = s.evt := rfl
@[simp] theorem State.setErr_cnt (a : Nat) (e : Option WordErr) (s : State) : (State.setErr a e s).cnt = s.cnt := rfl
@[simp] theorem State.setErr_fbk (a : Nat) (e : Option WordErr) (s : State) : (State.setErr a e s).fbk = s.fbk := rfl
@[simp] theorem State.setErr_liu (a : Nat) (e : Option WordErr) (s : State) : (State.setErr a e s).liu = s.liu := rfl
@[simp] theorem State.setErr_svy (a : Nat) (e : Option WordErr) (s : State) : (State.setErr a e s).svy = s.svy := rfl
@[simp] theorem State.setErr_tre (a : Nat) (e : Option WordErr) (s : State) : (State.setErr a e s).tre = s.tre := rfl
@[simp] theorem State.setErr_road (a : Nat) (e : Option WordErr) (s : State) :
    (State.setErr a e s).road = s.road := rfl
@[simp] theorem State.setErr_eth (a : Nat) (e : Option WordErr) (s : State) : (State.setErr a e s).eth = s.eth := rfl
@[simp] theorem State.setErr_ctl (a : Nat) (e : Option WordErr) (s : State) : (State.setErr a e s).ctl = s.ctl := rfl
@[simp] theorem State.setErr_itn (a : Nat) (e : Option WordErr) (s : State) : (State.setErr a e s).itn = s.itn := rfl
@[simp] theorem State.setErr_lane (a : Nat) (e : Option WordErr) (s : State) :
    (State.setErr a e s).lane = s.lane := rfl
@[simp] theorem State.setErr_wlv (a : Nat) (e : Option WordErr) (s : State) : (State.setErr a e s).wlv = s.wlv := rfl
@[simp] theorem State.setErr_dma (a : Nat) (e : Option WordErr) (s : State) : (State.setErr a e s).dma = s.dma := rfl
@[simp] theorem State.setErr_cwy (a : Nat) (e : Option WordErr) (s : State) : (State.setErr a e s).cwy = s.cwy := rfl
@[simp] theorem State.setErr_boot (a : Nat) (e : Option WordErr) (s : State) :
    (State.setErr a e s).boot = s.boot := rfl
@[simp] theorem State.setErr_free (a : Nat) (e : Option WordErr) (s : State) :
    (State.setErr a e s).free = s.free := rfl
@[simp] theorem State.setErr_out (a : Nat) (e : Option WordErr) (s : State) : (State.setErr a e s).out = s.out := rfl
@[simp] theorem State.setErr_pending (a : Nat) (e : Option WordErr) (s : State) :
    (State.setErr a e s).pending = s.pending := rfl

/-! ### State.setGate -/

@[simp] theorem State.setGate_regs (g : Fin 32) (x : Gate) (s : State) : (State.setGate g x s).regs = s.regs := rfl
@[simp] theorem State.setGate_sys (g : Fin 32) (x : Gate) (s : State) : (State.setGate g x s).sys = s.sys := rfl
@[simp] theorem State.setGate_sp (g : Fin 32) (x : Gate) (s : State) : (State.setGate g x s).sp = s.sp := rfl
@[simp] theorem State.setGate_evt (g : Fin 32) (x : Gate) (s : State) : (State.setGate g x s).evt = s.evt := rfl
@[simp] theorem State.setGate_cnt (g : Fin 32) (x : Gate) (s : State) : (State.setGate g x s).cnt = s.cnt := rfl
@[simp] theorem State.setGate_fbk (g : Fin 32) (x : Gate) (s : State) : (State.setGate g x s).fbk = s.fbk := rfl
@[simp] theorem State.setGate_liu (g : Fin 32) (x : Gate) (s : State) : (State.setGate g x s).liu = s.liu := rfl
@[simp] theorem State.setGate_svy (g : Fin 32) (x : Gate) (s : State) : (State.setGate g x s).svy = s.svy := rfl
@[simp] theorem State.setGate_tre (g : Fin 32) (x : Gate) (s : State) : (State.setGate g x s).tre = s.tre := rfl
@[simp] theorem State.setGate_road (g : Fin 32) (x : Gate) (s : State) : (State.setGate g x s).road = s.road := rfl
@[simp] theorem State.setGate_eth (g : Fin 32) (x : Gate) (s : State) : (State.setGate g x s).eth = s.eth := rfl
@[simp] theorem State.setGate_ctl (g : Fin 32) (x : Gate) (s : State) : (State.setGate g x s).ctl = s.ctl := rfl
@[simp] theorem State.setGate_itn (g : Fin 32) (x : Gate) (s : State) : (State.setGate g x s).itn = s.itn := rfl
@[simp] theorem State.setGate_lane (g : Fin 32) (x : Gate) (s : State) : (State.setGate g x s).lane = s.lane := rfl
@[simp] theorem State.setGate_wlv (g : Fin 32) (x : Gate) (s : State) : (State.setGate g x s).wlv = s.wlv := rfl
@[simp] theorem State.setGate_dma (g : Fin 32) (x : Gate) (s : State) : (State.setGate g x s).dma = s.dma := rfl
@[simp] theorem State.setGate_cwy (g : Fin 32) (x : Gate) (s : State) : (State.setGate g x s).cwy = s.cwy := rfl
@[simp] theorem State.setGate_boot (g : Fin 32) (x : Gate) (s : State) : (State.setGate g x s).boot = s.boot := rfl
@[simp] theorem State.setGate_free (g : Fin 32) (x : Gate) (s : State) : (State.setGate g x s).free = s.free := rfl
@[simp] theorem State.setGate_out (g : Fin 32) (x : Gate) (s : State) : (State.setGate g x s).out = s.out := rfl
@[simp] theorem State.setGate_pending (g : Fin 32) (x : Gate) (s : State) :
    (State.setGate g x s).pending = s.pending := rfl

/-! ### State.setQueue -/

@[simp] theorem State.setQueue_regs (q : Fin 16) (x : HwQueue) (s : State) :
    (State.setQueue q x s).regs = s.regs := rfl
@[simp] theorem State.setQueue_sys (q : Fin 16) (x : HwQueue) (s : State) : (State.setQueue q x s).sys = s.sys := rfl
@[simp] theorem State.setQueue_sp (q : Fin 16) (x : HwQueue) (s : State) : (State.setQueue q x s).sp = s.sp := rfl
@[simp] theorem State.setQueue_evt (q : Fin 16) (x : HwQueue) (s : State) : (State.setQueue q x s).evt = s.evt := rfl
@[simp] theorem State.setQueue_cnt (q : Fin 16) (x : HwQueue) (s : State) : (State.setQueue q x s).cnt = s.cnt := rfl
@[simp] theorem State.setQueue_fbk (q : Fin 16) (x : HwQueue) (s : State) : (State.setQueue q x s).fbk = s.fbk := rfl
@[simp] theorem State.setQueue_liu (q : Fin 16) (x : HwQueue) (s : State) : (State.setQueue q x s).liu = s.liu := rfl
@[simp] theorem State.setQueue_svy (q : Fin 16) (x : HwQueue) (s : State) : (State.setQueue q x s).svy = s.svy := rfl
@[simp] theorem State.setQueue_tre (q : Fin 16) (x : HwQueue) (s : State) : (State.setQueue q x s).tre = s.tre := rfl
@[simp] theorem State.setQueue_road (q : Fin 16) (x : HwQueue) (s : State) :
    (State.setQueue q x s).road = s.road := rfl
@[simp] theorem State.setQueue_eth (q : Fin 16) (x : HwQueue) (s : State) : (State.setQueue q x s).eth = s.eth := rfl
@[simp] theorem State.setQueue_ctl (q : Fin 16) (x : HwQueue) (s : State) : (State.setQueue q x s).ctl = s.ctl := rfl
@[simp] theorem State.setQueue_itn (q : Fin 16) (x : HwQueue) (s : State) : (State.setQueue q x s).itn = s.itn := rfl
@[simp] theorem State.setQueue_lane (q : Fin 16) (x : HwQueue) (s : State) :
    (State.setQueue q x s).lane = s.lane := rfl
@[simp] theorem State.setQueue_wlv (q : Fin 16) (x : HwQueue) (s : State) : (State.setQueue q x s).wlv = s.wlv := rfl
@[simp] theorem State.setQueue_dma (q : Fin 16) (x : HwQueue) (s : State) : (State.setQueue q x s).dma = s.dma := rfl
@[simp] theorem State.setQueue_cwy (q : Fin 16) (x : HwQueue) (s : State) : (State.setQueue q x s).cwy = s.cwy := rfl
@[simp] theorem State.setQueue_boot (q : Fin 16) (x : HwQueue) (s : State) :
    (State.setQueue q x s).boot = s.boot := rfl
@[simp] theorem State.setQueue_free (q : Fin 16) (x : HwQueue) (s : State) :
    (State.setQueue q x s).free = s.free := rfl
@[simp] theorem State.setQueue_out (q : Fin 16) (x : HwQueue) (s : State) : (State.setQueue q x s).out = s.out := rfl
@[simp] theorem State.setQueue_pending (q : Fin 16) (x : HwQueue) (s : State) :
    (State.setQueue q x s).pending = s.pending := rfl

/-! ### State.setMystat -/

@[simp] theorem State.setMystat_regs (code : Byte) (v : Word) (s : State) :
    (State.setMystat code v s).regs = s.regs := rfl
@[simp] theorem State.setMystat_sys (code : Byte) (v : Word) (s : State) :
    (State.setMystat code v s).sys = s.sys := rfl
@[simp] theorem State.setMystat_sp (code : Byte) (v : Word) (s : State) : (State.setMystat code v s).sp = s.sp := rfl
@[simp] theorem State.setMystat_evt (code : Byte) (v : Word) (s : State) :
    (State.setMystat code v s).evt = s.evt := rfl
@[simp] theorem State.setMystat_cnt (code : Byte) (v : Word) (s : State) :
    (State.setMystat code v s).cnt = s.cnt := rfl
@[simp] theorem State.setMystat_fbk (code : Byte) (v : Word) (s : State) :
    (State.setMystat code v s).fbk = s.fbk := rfl
@[simp] theorem State.setMystat_liu (code : Byte) (v : Word) (s : State) :
    (State.setMystat code v s).liu = s.liu := rfl
@[simp] theorem State.setMystat_svy (code : Byte) (v : Word) (s : State) :
    (State.setMystat code v s).svy = s.svy := rfl
@[simp] theorem State.setMystat_tre (code : Byte) (v : Word) (s : State) :
    (State.setMystat code v s).tre = s.tre := rfl
@[simp] theorem State.setMystat_road (code : Byte) (v : Word) (s : State) :
    (State.setMystat code v s).road = s.road := rfl
@[simp] theorem State.setMystat_eth (code : Byte) (v : Word) (s : State) :
    (State.setMystat code v s).eth = s.eth := rfl
@[simp] theorem State.setMystat_ctl (code : Byte) (v : Word) (s : State) :
    (State.setMystat code v s).ctl = s.ctl := rfl
@[simp] theorem State.setMystat_itn (code : Byte) (v : Word) (s : State) :
    (State.setMystat code v s).itn = s.itn := rfl
@[simp] theorem State.setMystat_lane (code : Byte) (v : Word) (s : State) :
    (State.setMystat code v s).lane = s.lane := rfl
@[simp] theorem State.setMystat_wlv (code : Byte) (v : Word) (s : State) :
    (State.setMystat code v s).wlv = s.wlv := rfl
@[simp] theorem State.setMystat_dma (code : Byte) (v : Word) (s : State) :
    (State.setMystat code v s).dma = s.dma := rfl
@[simp] theorem State.setMystat_cwy (code : Byte) (v : Word) (s : State) :
    (State.setMystat code v s).cwy = s.cwy := rfl
@[simp] theorem State.setMystat_boot (code : Byte) (v : Word) (s : State) :
    (State.setMystat code v s).boot = s.boot := rfl
@[simp] theorem State.setMystat_free (code : Byte) (v : Word) (s : State) :
    (State.setMystat code v s).free = s.free := rfl
@[simp] theorem State.setMystat_out (code : Byte) (v : Word) (s : State) :
    (State.setMystat code v s).out = s.out := rfl
@[simp] theorem State.setMystat_pending (code : Byte) (v : Word) (s : State) :
    (State.setMystat code v s).pending = s.pending := rfl

/-! ### State.modPort -/

@[simp] theorem State.modPort_regs (p : Fin 4) (f : Port → Port) (s : State) :
    (State.modPort p f s).regs = s.regs := rfl
@[simp] theorem State.modPort_sys (p : Fin 4) (f : Port → Port) (s : State) : (State.modPort p f s).sys = s.sys := rfl
@[simp] theorem State.modPort_sp (p : Fin 4) (f : Port → Port) (s : State) : (State.modPort p f s).sp = s.sp := rfl
@[simp] theorem State.modPort_evt (p : Fin 4) (f : Port → Port) (s : State) : (State.modPort p f s).evt = s.evt := rfl
@[simp] theorem State.modPort_cnt (p : Fin 4) (f : Port → Port) (s : State) : (State.modPort p f s).cnt = s.cnt := rfl
@[simp] theorem State.modPort_fbk (p : Fin 4) (f : Port → Port) (s : State) : (State.modPort p f s).fbk = s.fbk := rfl
@[simp] theorem State.modPort_svy (p : Fin 4) (f : Port → Port) (s : State) : (State.modPort p f s).svy = s.svy := rfl
@[simp] theorem State.modPort_tre (p : Fin 4) (f : Port → Port) (s : State) : (State.modPort p f s).tre = s.tre := rfl
@[simp] theorem State.modPort_road (p : Fin 4) (f : Port → Port) (s : State) :
    (State.modPort p f s).road = s.road := rfl
@[simp] theorem State.modPort_eth (p : Fin 4) (f : Port → Port) (s : State) : (State.modPort p f s).eth = s.eth := rfl
@[simp] theorem State.modPort_ctl (p : Fin 4) (f : Port → Port) (s : State) : (State.modPort p f s).ctl = s.ctl := rfl
@[simp] theorem State.modPort_itn (p : Fin 4) (f : Port → Port) (s : State) : (State.modPort p f s).itn = s.itn := rfl
@[simp] theorem State.modPort_lane (p : Fin 4) (f : Port → Port) (s : State) :
    (State.modPort p f s).lane = s.lane := rfl
@[simp] theorem State.modPort_wlv (p : Fin 4) (f : Port → Port) (s : State) : (State.modPort p f s).wlv = s.wlv := rfl
@[simp] theorem State.modPort_dma (p : Fin 4) (f : Port → Port) (s : State) : (State.modPort p f s).dma = s.dma := rfl
@[simp] theorem State.modPort_cwy (p : Fin 4) (f : Port → Port) (s : State) : (State.modPort p f s).cwy = s.cwy := rfl
@[simp] theorem State.modPort_mem (p : Fin 4) (f : Port → Port) (s : State) : (State.modPort p f s).mem = s.mem := rfl
@[simp] theorem State.modPort_boot (p : Fin 4) (f : Port → Port) (s : State) :
    (State.modPort p f s).boot = s.boot := rfl
@[simp] theorem State.modPort_free (p : Fin 4) (f : Port → Port) (s : State) :
    (State.modPort p f s).free = s.free := rfl
@[simp] theorem State.modPort_out (p : Fin 4) (f : Port → Port) (s : State) : (State.modPort p f s).out = s.out := rfl
@[simp] theorem State.modPort_pending (p : Fin 4) (f : Port → Port) (s : State) :
    (State.modPort p f s).pending = s.pending := rfl

/-! ### State.modWin -/

@[simp] theorem State.modWin_regs (w : Fin 16) (f : CwyWin → CwyWin) (s : State) :
    (State.modWin w f s).regs = s.regs := rfl
@[simp] theorem State.modWin_sys (w : Fin 16) (f : CwyWin → CwyWin) (s : State) :
    (State.modWin w f s).sys = s.sys := rfl
@[simp] theorem State.modWin_sp (w : Fin 16) (f : CwyWin → CwyWin) (s : State) : (State.modWin w f s).sp = s.sp := rfl
@[simp] theorem State.modWin_evt (w : Fin 16) (f : CwyWin → CwyWin) (s : State) :
    (State.modWin w f s).evt = s.evt := rfl
@[simp] theorem State.modWin_cnt (w : Fin 16) (f : CwyWin → CwyWin) (s : State) :
    (State.modWin w f s).cnt = s.cnt := rfl
@[simp] theorem State.modWin_fbk (w : Fin 16) (f : CwyWin → CwyWin) (s : State) :
    (State.modWin w f s).fbk = s.fbk := rfl
@[simp] theorem State.modWin_liu (w : Fin 16) (f : CwyWin → CwyWin) (s : State) :
    (State.modWin w f s).liu = s.liu := rfl
@[simp] theorem State.modWin_svy (w : Fin 16) (f : CwyWin → CwyWin) (s : State) :
    (State.modWin w f s).svy = s.svy := rfl
@[simp] theorem State.modWin_tre (w : Fin 16) (f : CwyWin → CwyWin) (s : State) :
    (State.modWin w f s).tre = s.tre := rfl
@[simp] theorem State.modWin_road (w : Fin 16) (f : CwyWin → CwyWin) (s : State) :
    (State.modWin w f s).road = s.road := rfl
@[simp] theorem State.modWin_eth (w : Fin 16) (f : CwyWin → CwyWin) (s : State) :
    (State.modWin w f s).eth = s.eth := rfl
@[simp] theorem State.modWin_ctl (w : Fin 16) (f : CwyWin → CwyWin) (s : State) :
    (State.modWin w f s).ctl = s.ctl := rfl
@[simp] theorem State.modWin_itn (w : Fin 16) (f : CwyWin → CwyWin) (s : State) :
    (State.modWin w f s).itn = s.itn := rfl
@[simp] theorem State.modWin_lane (w : Fin 16) (f : CwyWin → CwyWin) (s : State) :
    (State.modWin w f s).lane = s.lane := rfl
@[simp] theorem State.modWin_wlv (w : Fin 16) (f : CwyWin → CwyWin) (s : State) :
    (State.modWin w f s).wlv = s.wlv := rfl
@[simp] theorem State.modWin_dma (w : Fin 16) (f : CwyWin → CwyWin) (s : State) :
    (State.modWin w f s).dma = s.dma := rfl
@[simp] theorem State.modWin_mem (w : Fin 16) (f : CwyWin → CwyWin) (s : State) :
    (State.modWin w f s).mem = s.mem := rfl
@[simp] theorem State.modWin_boot (w : Fin 16) (f : CwyWin → CwyWin) (s : State) :
    (State.modWin w f s).boot = s.boot := rfl
@[simp] theorem State.modWin_free (w : Fin 16) (f : CwyWin → CwyWin) (s : State) :
    (State.modWin w f s).free = s.free := rfl
@[simp] theorem State.modWin_out (w : Fin 16) (f : CwyWin → CwyWin) (s : State) :
    (State.modWin w f s).out = s.out := rfl
@[simp] theorem State.modWin_pending (w : Fin 16) (f : CwyWin → CwyWin) (s : State) :
    (State.modWin w f s).pending = s.pending := rfl

/-! ### State.modRoad -/

@[simp] theorem State.modRoad_regs (p : Fin 4) (f : RoadPort → RoadPort) (s : State) :
    (State.modRoad p f s).regs = s.regs := rfl
@[simp] theorem State.modRoad_sys (p : Fin 4) (f : RoadPort → RoadPort) (s : State) :
    (State.modRoad p f s).sys = s.sys := rfl
@[simp] theorem State.modRoad_sp (p : Fin 4) (f : RoadPort → RoadPort) (s : State) :
    (State.modRoad p f s).sp = s.sp := rfl
@[simp] theorem State.modRoad_evt (p : Fin 4) (f : RoadPort → RoadPort) (s : State) :
    (State.modRoad p f s).evt = s.evt := rfl
@[simp] theorem State.modRoad_cnt (p : Fin 4) (f : RoadPort → RoadPort) (s : State) :
    (State.modRoad p f s).cnt = s.cnt := rfl
@[simp] theorem State.modRoad_fbk (p : Fin 4) (f : RoadPort → RoadPort) (s : State) :
    (State.modRoad p f s).fbk = s.fbk := rfl
@[simp] theorem State.modRoad_liu (p : Fin 4) (f : RoadPort → RoadPort) (s : State) :
    (State.modRoad p f s).liu = s.liu := rfl
@[simp] theorem State.modRoad_svy (p : Fin 4) (f : RoadPort → RoadPort) (s : State) :
    (State.modRoad p f s).svy = s.svy := rfl
@[simp] theorem State.modRoad_tre (p : Fin 4) (f : RoadPort → RoadPort) (s : State) :
    (State.modRoad p f s).tre = s.tre := rfl
@[simp] theorem State.modRoad_eth (p : Fin 4) (f : RoadPort → RoadPort) (s : State) :
    (State.modRoad p f s).eth = s.eth := rfl
@[simp] theorem State.modRoad_ctl (p : Fin 4) (f : RoadPort → RoadPort) (s : State) :
    (State.modRoad p f s).ctl = s.ctl := rfl
@[simp] theorem State.modRoad_itn (p : Fin 4) (f : RoadPort → RoadPort) (s : State) :
    (State.modRoad p f s).itn = s.itn := rfl
@[simp] theorem State.modRoad_lane (p : Fin 4) (f : RoadPort → RoadPort) (s : State) :
    (State.modRoad p f s).lane = s.lane := rfl
@[simp] theorem State.modRoad_wlv (p : Fin 4) (f : RoadPort → RoadPort) (s : State) :
    (State.modRoad p f s).wlv = s.wlv := rfl
@[simp] theorem State.modRoad_dma (p : Fin 4) (f : RoadPort → RoadPort) (s : State) :
    (State.modRoad p f s).dma = s.dma := rfl
@[simp] theorem State.modRoad_cwy (p : Fin 4) (f : RoadPort → RoadPort) (s : State) :
    (State.modRoad p f s).cwy = s.cwy := rfl
@[simp] theorem State.modRoad_mem (p : Fin 4) (f : RoadPort → RoadPort) (s : State) :
    (State.modRoad p f s).mem = s.mem := rfl
@[simp] theorem State.modRoad_boot (p : Fin 4) (f : RoadPort → RoadPort) (s : State) :
    (State.modRoad p f s).boot = s.boot := rfl
@[simp] theorem State.modRoad_free (p : Fin 4) (f : RoadPort → RoadPort) (s : State) :
    (State.modRoad p f s).free = s.free := rfl
@[simp] theorem State.modRoad_out (p : Fin 4) (f : RoadPort → RoadPort) (s : State) :
    (State.modRoad p f s).out = s.out := rfl
@[simp] theorem State.modRoad_pending (p : Fin 4) (f : RoadPort → RoadPort) (s : State) :
    (State.modRoad p f s).pending = s.pending := rfl

/-! ### State.modEth -/

@[simp] theorem State.modEth_regs (e : Fin 2) (f : EthPort → EthPort) (s : State) :
    (State.modEth e f s).regs = s.regs := rfl
@[simp] theorem State.modEth_sys (e : Fin 2) (f : EthPort → EthPort) (s : State) :
    (State.modEth e f s).sys = s.sys := rfl
@[simp] theorem State.modEth_sp (e : Fin 2) (f : EthPort → EthPort) (s : State) :
    (State.modEth e f s).sp = s.sp := rfl
@[simp] theorem State.modEth_evt (e : Fin 2) (f : EthPort → EthPort) (s : State) :
    (State.modEth e f s).evt = s.evt := rfl
@[simp] theorem State.modEth_cnt (e : Fin 2) (f : EthPort → EthPort) (s : State) :
    (State.modEth e f s).cnt = s.cnt := rfl
@[simp] theorem State.modEth_fbk (e : Fin 2) (f : EthPort → EthPort) (s : State) :
    (State.modEth e f s).fbk = s.fbk := rfl
@[simp] theorem State.modEth_liu (e : Fin 2) (f : EthPort → EthPort) (s : State) :
    (State.modEth e f s).liu = s.liu := rfl
@[simp] theorem State.modEth_svy (e : Fin 2) (f : EthPort → EthPort) (s : State) :
    (State.modEth e f s).svy = s.svy := rfl
@[simp] theorem State.modEth_tre (e : Fin 2) (f : EthPort → EthPort) (s : State) :
    (State.modEth e f s).tre = s.tre := rfl
@[simp] theorem State.modEth_road (e : Fin 2) (f : EthPort → EthPort) (s : State) :
    (State.modEth e f s).road = s.road := rfl
@[simp] theorem State.modEth_ctl (e : Fin 2) (f : EthPort → EthPort) (s : State) :
    (State.modEth e f s).ctl = s.ctl := rfl
@[simp] theorem State.modEth_itn (e : Fin 2) (f : EthPort → EthPort) (s : State) :
    (State.modEth e f s).itn = s.itn := rfl
@[simp] theorem State.modEth_lane (e : Fin 2) (f : EthPort → EthPort) (s : State) :
    (State.modEth e f s).lane = s.lane := rfl
@[simp] theorem State.modEth_wlv (e : Fin 2) (f : EthPort → EthPort) (s : State) :
    (State.modEth e f s).wlv = s.wlv := rfl
@[simp] theorem State.modEth_dma (e : Fin 2) (f : EthPort → EthPort) (s : State) :
    (State.modEth e f s).dma = s.dma := rfl
@[simp] theorem State.modEth_cwy (e : Fin 2) (f : EthPort → EthPort) (s : State) :
    (State.modEth e f s).cwy = s.cwy := rfl
@[simp] theorem State.modEth_mem (e : Fin 2) (f : EthPort → EthPort) (s : State) :
    (State.modEth e f s).mem = s.mem := rfl
@[simp] theorem State.modEth_boot (e : Fin 2) (f : EthPort → EthPort) (s : State) :
    (State.modEth e f s).boot = s.boot := rfl
@[simp] theorem State.modEth_free (e : Fin 2) (f : EthPort → EthPort) (s : State) :
    (State.modEth e f s).free = s.free := rfl
@[simp] theorem State.modEth_out (e : Fin 2) (f : EthPort → EthPort) (s : State) :
    (State.modEth e f s).out = s.out := rfl
@[simp] theorem State.modEth_pending (e : Fin 2) (f : EthPort → EthPort) (s : State) :
    (State.modEth e f s).pending = s.pending := rfl

/-! ### State.bumpSeq -/

@[simp] theorem State.bumpSeq_regs (s : State) : (State.bumpSeq s).regs = s.regs := rfl
@[simp] theorem State.bumpSeq_sys (s : State) : (State.bumpSeq s).sys = s.sys := rfl
@[simp] theorem State.bumpSeq_sp (s : State) : (State.bumpSeq s).sp = s.sp := rfl
@[simp] theorem State.bumpSeq_evt (s : State) : (State.bumpSeq s).evt = s.evt := rfl
@[simp] theorem State.bumpSeq_cnt (s : State) : (State.bumpSeq s).cnt = s.cnt := rfl
@[simp] theorem State.bumpSeq_fbk (s : State) : (State.bumpSeq s).fbk = s.fbk := rfl
@[simp] theorem State.bumpSeq_liu (s : State) : (State.bumpSeq s).liu = s.liu := rfl
@[simp] theorem State.bumpSeq_svy (s : State) : (State.bumpSeq s).svy = s.svy := rfl
@[simp] theorem State.bumpSeq_tre (s : State) : (State.bumpSeq s).tre = s.tre := rfl
@[simp] theorem State.bumpSeq_eth (s : State) : (State.bumpSeq s).eth = s.eth := rfl
@[simp] theorem State.bumpSeq_ctl (s : State) : (State.bumpSeq s).ctl = s.ctl := rfl
@[simp] theorem State.bumpSeq_itn (s : State) : (State.bumpSeq s).itn = s.itn := rfl
@[simp] theorem State.bumpSeq_lane (s : State) : (State.bumpSeq s).lane = s.lane := rfl
@[simp] theorem State.bumpSeq_wlv (s : State) : (State.bumpSeq s).wlv = s.wlv := rfl
@[simp] theorem State.bumpSeq_dma (s : State) : (State.bumpSeq s).dma = s.dma := rfl
@[simp] theorem State.bumpSeq_cwy (s : State) : (State.bumpSeq s).cwy = s.cwy := rfl
@[simp] theorem State.bumpSeq_mem (s : State) : (State.bumpSeq s).mem = s.mem := rfl
@[simp] theorem State.bumpSeq_boot (s : State) : (State.bumpSeq s).boot = s.boot := rfl
@[simp] theorem State.bumpSeq_free (s : State) : (State.bumpSeq s).free = s.free := rfl
@[simp] theorem State.bumpSeq_out (s : State) : (State.bumpSeq s).out = s.out := rfl
@[simp] theorem State.bumpSeq_pending (s : State) : (State.bumpSeq s).pending = s.pending := rfl

/-! ### State.setDch -/

@[simp] theorem State.setDch_regs (n : Fin 32) (c : DmaCh) (s : State) : (State.setDch n c s).regs = s.regs := rfl
@[simp] theorem State.setDch_sys (n : Fin 32) (c : DmaCh) (s : State) : (State.setDch n c s).sys = s.sys := rfl
@[simp] theorem State.setDch_sp (n : Fin 32) (c : DmaCh) (s : State) : (State.setDch n c s).sp = s.sp := rfl
@[simp] theorem State.setDch_evt (n : Fin 32) (c : DmaCh) (s : State) : (State.setDch n c s).evt = s.evt := rfl
@[simp] theorem State.setDch_cnt (n : Fin 32) (c : DmaCh) (s : State) : (State.setDch n c s).cnt = s.cnt := rfl
@[simp] theorem State.setDch_fbk (n : Fin 32) (c : DmaCh) (s : State) : (State.setDch n c s).fbk = s.fbk := rfl
@[simp] theorem State.setDch_liu (n : Fin 32) (c : DmaCh) (s : State) : (State.setDch n c s).liu = s.liu := rfl
@[simp] theorem State.setDch_svy (n : Fin 32) (c : DmaCh) (s : State) : (State.setDch n c s).svy = s.svy := rfl
@[simp] theorem State.setDch_tre (n : Fin 32) (c : DmaCh) (s : State) : (State.setDch n c s).tre = s.tre := rfl
@[simp] theorem State.setDch_road (n : Fin 32) (c : DmaCh) (s : State) : (State.setDch n c s).road = s.road := rfl
@[simp] theorem State.setDch_eth (n : Fin 32) (c : DmaCh) (s : State) : (State.setDch n c s).eth = s.eth := rfl
@[simp] theorem State.setDch_ctl (n : Fin 32) (c : DmaCh) (s : State) : (State.setDch n c s).ctl = s.ctl := rfl
@[simp] theorem State.setDch_itn (n : Fin 32) (c : DmaCh) (s : State) : (State.setDch n c s).itn = s.itn := rfl
@[simp] theorem State.setDch_lane (n : Fin 32) (c : DmaCh) (s : State) : (State.setDch n c s).lane = s.lane := rfl
@[simp] theorem State.setDch_wlv (n : Fin 32) (c : DmaCh) (s : State) : (State.setDch n c s).wlv = s.wlv := rfl
@[simp] theorem State.setDch_cwy (n : Fin 32) (c : DmaCh) (s : State) : (State.setDch n c s).cwy = s.cwy := rfl
@[simp] theorem State.setDch_mem (n : Fin 32) (c : DmaCh) (s : State) : (State.setDch n c s).mem = s.mem := rfl
@[simp] theorem State.setDch_boot (n : Fin 32) (c : DmaCh) (s : State) : (State.setDch n c s).boot = s.boot := rfl
@[simp] theorem State.setDch_free (n : Fin 32) (c : DmaCh) (s : State) : (State.setDch n c s).free = s.free := rfl
@[simp] theorem State.setDch_out (n : Fin 32) (c : DmaCh) (s : State) : (State.setDch n c s).out = s.out := rfl
@[simp] theorem State.setDch_pending (n : Fin 32) (c : DmaCh) (s : State) :
    (State.setDch n c s).pending = s.pending := rfl

/-! ### State.partRefuse -/

@[simp] theorem State.partRefuse_regs (s : State) : (State.partRefuse s).regs = s.regs := rfl
@[simp] theorem State.partRefuse_sp (s : State) : (State.partRefuse s).sp = s.sp := rfl
@[simp] theorem State.partRefuse_evt (s : State) : (State.partRefuse s).evt = s.evt := rfl
@[simp] theorem State.partRefuse_cnt (s : State) : (State.partRefuse s).cnt = s.cnt := rfl
@[simp] theorem State.partRefuse_fbk (s : State) : (State.partRefuse s).fbk = s.fbk := rfl
@[simp] theorem State.partRefuse_liu (s : State) : (State.partRefuse s).liu = s.liu := rfl
@[simp] theorem State.partRefuse_svy (s : State) : (State.partRefuse s).svy = s.svy := rfl
@[simp] theorem State.partRefuse_tre (s : State) : (State.partRefuse s).tre = s.tre := rfl
@[simp] theorem State.partRefuse_road (s : State) : (State.partRefuse s).road = s.road := rfl
@[simp] theorem State.partRefuse_eth (s : State) : (State.partRefuse s).eth = s.eth := rfl
@[simp] theorem State.partRefuse_ctl (s : State) : (State.partRefuse s).ctl = s.ctl := rfl
@[simp] theorem State.partRefuse_itn (s : State) : (State.partRefuse s).itn = s.itn := rfl
@[simp] theorem State.partRefuse_lane (s : State) : (State.partRefuse s).lane = s.lane := rfl
@[simp] theorem State.partRefuse_wlv (s : State) : (State.partRefuse s).wlv = s.wlv := rfl
@[simp] theorem State.partRefuse_dma (s : State) : (State.partRefuse s).dma = s.dma := rfl
@[simp] theorem State.partRefuse_cwy (s : State) : (State.partRefuse s).cwy = s.cwy := rfl
@[simp] theorem State.partRefuse_mem (s : State) : (State.partRefuse s).mem = s.mem := rfl
@[simp] theorem State.partRefuse_boot (s : State) : (State.partRefuse s).boot = s.boot := rfl
@[simp] theorem State.partRefuse_free (s : State) : (State.partRefuse s).free = s.free := rfl
@[simp] theorem State.partRefuse_out (s : State) : (State.partRefuse s).out = s.out := rfl
@[simp] theorem State.partRefuse_pending (s : State) : (State.partRefuse s).pending = s.pending := rfl

/-! ### State.setFlashBusy -/

@[simp] theorem State.setFlashBusy_regs (bankB : Bool) (o : Option (Option (BitVec 10))) (s : State) :
    (State.setFlashBusy bankB o s).regs = s.regs := by
  unfold State.setFlashBusy; (repeat' split) <;> rfl
@[simp] theorem State.setFlashBusy_sys (bankB : Bool) (o : Option (Option (BitVec 10))) (s : State) :
    (State.setFlashBusy bankB o s).sys = s.sys := by
  unfold State.setFlashBusy; (repeat' split) <;> rfl
@[simp] theorem State.setFlashBusy_sp (bankB : Bool) (o : Option (Option (BitVec 10))) (s : State) :
    (State.setFlashBusy bankB o s).sp = s.sp := by
  unfold State.setFlashBusy; (repeat' split) <;> rfl
@[simp] theorem State.setFlashBusy_evt (bankB : Bool) (o : Option (Option (BitVec 10))) (s : State) :
    (State.setFlashBusy bankB o s).evt = s.evt := by
  unfold State.setFlashBusy; (repeat' split) <;> rfl
@[simp] theorem State.setFlashBusy_cnt (bankB : Bool) (o : Option (Option (BitVec 10))) (s : State) :
    (State.setFlashBusy bankB o s).cnt = s.cnt := by
  unfold State.setFlashBusy; (repeat' split) <;> rfl
@[simp] theorem State.setFlashBusy_fbk (bankB : Bool) (o : Option (Option (BitVec 10))) (s : State) :
    (State.setFlashBusy bankB o s).fbk = s.fbk := by
  unfold State.setFlashBusy; (repeat' split) <;> rfl
@[simp] theorem State.setFlashBusy_liu (bankB : Bool) (o : Option (Option (BitVec 10))) (s : State) :
    (State.setFlashBusy bankB o s).liu = s.liu := by
  unfold State.setFlashBusy; (repeat' split) <;> rfl
@[simp] theorem State.setFlashBusy_svy (bankB : Bool) (o : Option (Option (BitVec 10))) (s : State) :
    (State.setFlashBusy bankB o s).svy = s.svy := by
  unfold State.setFlashBusy; (repeat' split) <;> rfl
@[simp] theorem State.setFlashBusy_tre (bankB : Bool) (o : Option (Option (BitVec 10))) (s : State) :
    (State.setFlashBusy bankB o s).tre = s.tre := by
  unfold State.setFlashBusy; (repeat' split) <;> rfl
@[simp] theorem State.setFlashBusy_road (bankB : Bool) (o : Option (Option (BitVec 10))) (s : State) :
    (State.setFlashBusy bankB o s).road = s.road := by
  unfold State.setFlashBusy; (repeat' split) <;> rfl
@[simp] theorem State.setFlashBusy_eth (bankB : Bool) (o : Option (Option (BitVec 10))) (s : State) :
    (State.setFlashBusy bankB o s).eth = s.eth := by
  unfold State.setFlashBusy; (repeat' split) <;> rfl
@[simp] theorem State.setFlashBusy_ctl (bankB : Bool) (o : Option (Option (BitVec 10))) (s : State) :
    (State.setFlashBusy bankB o s).ctl = s.ctl := by
  unfold State.setFlashBusy; (repeat' split) <;> rfl
@[simp] theorem State.setFlashBusy_itn (bankB : Bool) (o : Option (Option (BitVec 10))) (s : State) :
    (State.setFlashBusy bankB o s).itn = s.itn := by
  unfold State.setFlashBusy; (repeat' split) <;> rfl
@[simp] theorem State.setFlashBusy_lane (bankB : Bool) (o : Option (Option (BitVec 10))) (s : State) :
    (State.setFlashBusy bankB o s).lane = s.lane := by
  unfold State.setFlashBusy; (repeat' split) <;> rfl
@[simp] theorem State.setFlashBusy_wlv (bankB : Bool) (o : Option (Option (BitVec 10))) (s : State) :
    (State.setFlashBusy bankB o s).wlv = s.wlv := by
  unfold State.setFlashBusy; (repeat' split) <;> rfl
@[simp] theorem State.setFlashBusy_dma (bankB : Bool) (o : Option (Option (BitVec 10))) (s : State) :
    (State.setFlashBusy bankB o s).dma = s.dma := by
  unfold State.setFlashBusy; (repeat' split) <;> rfl
@[simp] theorem State.setFlashBusy_cwy (bankB : Bool) (o : Option (Option (BitVec 10))) (s : State) :
    (State.setFlashBusy bankB o s).cwy = s.cwy := by
  unfold State.setFlashBusy; (repeat' split) <;> rfl
@[simp] theorem State.setFlashBusy_boot (bankB : Bool) (o : Option (Option (BitVec 10))) (s : State) :
    (State.setFlashBusy bankB o s).boot = s.boot := by
  unfold State.setFlashBusy; (repeat' split) <;> rfl
@[simp] theorem State.setFlashBusy_free (bankB : Bool) (o : Option (Option (BitVec 10))) (s : State) :
    (State.setFlashBusy bankB o s).free = s.free := by
  unfold State.setFlashBusy; (repeat' split) <;> rfl
@[simp] theorem State.setFlashBusy_out (bankB : Bool) (o : Option (Option (BitVec 10))) (s : State) :
    (State.setFlashBusy bankB o s).out = s.out := by
  unfold State.setFlashBusy; (repeat' split) <;> rfl
@[simp] theorem State.setFlashBusy_pending (bankB : Bool) (o : Option (Option (BitVec 10))) (s : State) :
    (State.setFlashBusy bankB o s).pending = s.pending := by
  unfold State.setFlashBusy; (repeat' split) <;> rfl

/-! ### State.setHart -/

@[simp] theorem State.setHart_regs (h : Hart) (x : HartState) (s : State) : (State.setHart h x s).regs = s.regs := by
  unfold State.setHart; (repeat' split) <;> rfl
@[simp] theorem State.setHart_sys (h : Hart) (x : HartState) (s : State) : (State.setHart h x s).sys = s.sys := by
  unfold State.setHart; (repeat' split) <;> rfl
@[simp] theorem State.setHart_sp (h : Hart) (x : HartState) (s : State) : (State.setHart h x s).sp = s.sp := by
  unfold State.setHart; (repeat' split) <;> rfl
@[simp] theorem State.setHart_evt (h : Hart) (x : HartState) (s : State) : (State.setHart h x s).evt = s.evt := by
  unfold State.setHart; (repeat' split) <;> rfl
@[simp] theorem State.setHart_cnt (h : Hart) (x : HartState) (s : State) : (State.setHart h x s).cnt = s.cnt := by
  unfold State.setHart; (repeat' split) <;> rfl
@[simp] theorem State.setHart_fbk (h : Hart) (x : HartState) (s : State) : (State.setHart h x s).fbk = s.fbk := by
  unfold State.setHart; (repeat' split) <;> rfl
@[simp] theorem State.setHart_liu (h : Hart) (x : HartState) (s : State) : (State.setHart h x s).liu = s.liu := by
  unfold State.setHart; (repeat' split) <;> rfl
@[simp] theorem State.setHart_svy (h : Hart) (x : HartState) (s : State) : (State.setHart h x s).svy = s.svy := by
  unfold State.setHart; (repeat' split) <;> rfl
@[simp] theorem State.setHart_tre (h : Hart) (x : HartState) (s : State) : (State.setHart h x s).tre = s.tre := by
  unfold State.setHart; (repeat' split) <;> rfl
@[simp] theorem State.setHart_road (h : Hart) (x : HartState) (s : State) : (State.setHart h x s).road = s.road := by
  unfold State.setHart; (repeat' split) <;> rfl
@[simp] theorem State.setHart_eth (h : Hart) (x : HartState) (s : State) : (State.setHart h x s).eth = s.eth := by
  unfold State.setHart; (repeat' split) <;> rfl
@[simp] theorem State.setHart_itn (h : Hart) (x : HartState) (s : State) : (State.setHart h x s).itn = s.itn := by
  unfold State.setHart; (repeat' split) <;> rfl
@[simp] theorem State.setHart_lane (h : Hart) (x : HartState) (s : State) : (State.setHart h x s).lane = s.lane := by
  unfold State.setHart; (repeat' split) <;> rfl
@[simp] theorem State.setHart_wlv (h : Hart) (x : HartState) (s : State) : (State.setHart h x s).wlv = s.wlv := by
  unfold State.setHart; (repeat' split) <;> rfl
@[simp] theorem State.setHart_dma (h : Hart) (x : HartState) (s : State) : (State.setHart h x s).dma = s.dma := by
  unfold State.setHart; (repeat' split) <;> rfl
@[simp] theorem State.setHart_cwy (h : Hart) (x : HartState) (s : State) : (State.setHart h x s).cwy = s.cwy := by
  unfold State.setHart; (repeat' split) <;> rfl
@[simp] theorem State.setHart_mem (h : Hart) (x : HartState) (s : State) : (State.setHart h x s).mem = s.mem := by
  unfold State.setHart; (repeat' split) <;> rfl
@[simp] theorem State.setHart_boot (h : Hart) (x : HartState) (s : State) : (State.setHart h x s).boot = s.boot := by
  unfold State.setHart; (repeat' split) <;> rfl
@[simp] theorem State.setHart_free (h : Hart) (x : HartState) (s : State) : (State.setHart h x s).free = s.free := by
  unfold State.setHart; (repeat' split) <;> rfl
@[simp] theorem State.setHart_out (h : Hart) (x : HartState) (s : State) : (State.setHart h x s).out = s.out := by
  unfold State.setHart; (repeat' split) <;> rfl
@[simp] theorem State.setHart_pending (h : Hart) (x : HartState) (s : State) :
    (State.setHart h x s).pending = s.pending := by
  unfold State.setHart; (repeat' split) <;> rfl

/-! ### State.dmaFire -/

@[simp] theorem State.dmaFire_regs (t : TrigSource) (s : State) : (State.dmaFire t s).regs = s.regs := rfl
@[simp] theorem State.dmaFire_sys (t : TrigSource) (s : State) : (State.dmaFire t s).sys = s.sys := rfl
@[simp] theorem State.dmaFire_sp (t : TrigSource) (s : State) : (State.dmaFire t s).sp = s.sp := rfl
@[simp] theorem State.dmaFire_evt (t : TrigSource) (s : State) : (State.dmaFire t s).evt = s.evt := rfl
@[simp] theorem State.dmaFire_cnt (t : TrigSource) (s : State) : (State.dmaFire t s).cnt = s.cnt := rfl
@[simp] theorem State.dmaFire_fbk (t : TrigSource) (s : State) : (State.dmaFire t s).fbk = s.fbk := rfl
@[simp] theorem State.dmaFire_liu (t : TrigSource) (s : State) : (State.dmaFire t s).liu = s.liu := rfl
@[simp] theorem State.dmaFire_svy (t : TrigSource) (s : State) : (State.dmaFire t s).svy = s.svy := rfl
@[simp] theorem State.dmaFire_tre (t : TrigSource) (s : State) : (State.dmaFire t s).tre = s.tre := rfl
@[simp] theorem State.dmaFire_road (t : TrigSource) (s : State) : (State.dmaFire t s).road = s.road := rfl
@[simp] theorem State.dmaFire_eth (t : TrigSource) (s : State) : (State.dmaFire t s).eth = s.eth := rfl
@[simp] theorem State.dmaFire_ctl (t : TrigSource) (s : State) : (State.dmaFire t s).ctl = s.ctl := rfl
@[simp] theorem State.dmaFire_itn (t : TrigSource) (s : State) : (State.dmaFire t s).itn = s.itn := rfl
@[simp] theorem State.dmaFire_lane (t : TrigSource) (s : State) : (State.dmaFire t s).lane = s.lane := rfl
@[simp] theorem State.dmaFire_wlv (t : TrigSource) (s : State) : (State.dmaFire t s).wlv = s.wlv := rfl
@[simp] theorem State.dmaFire_cwy (t : TrigSource) (s : State) : (State.dmaFire t s).cwy = s.cwy := rfl
@[simp] theorem State.dmaFire_mem (t : TrigSource) (s : State) : (State.dmaFire t s).mem = s.mem := rfl
@[simp] theorem State.dmaFire_boot (t : TrigSource) (s : State) : (State.dmaFire t s).boot = s.boot := rfl
@[simp] theorem State.dmaFire_free (t : TrigSource) (s : State) : (State.dmaFire t s).free = s.free := rfl
@[simp] theorem State.dmaFire_out (t : TrigSource) (s : State) : (State.dmaFire t s).out = s.out := rfl
@[simp] theorem State.dmaFire_pending (t : TrigSource) (s : State) : (State.dmaFire t s).pending = s.pending := rfl

/-! ### State.fbQueue -/

@[simp] theorem State.fbQueue_regs (r : FbRec) (s : State) : (State.fbQueue r s).regs = s.regs := by
  unfold State.fbQueue; (repeat' split) <;> rfl
@[simp] theorem State.fbQueue_sys (r : FbRec) (s : State) : (State.fbQueue r s).sys = s.sys := by
  unfold State.fbQueue; (repeat' split) <;> rfl
@[simp] theorem State.fbQueue_sp (r : FbRec) (s : State) : (State.fbQueue r s).sp = s.sp := by
  unfold State.fbQueue; (repeat' split) <;> rfl
@[simp] theorem State.fbQueue_evt (r : FbRec) (s : State) : (State.fbQueue r s).evt = s.evt := by
  unfold State.fbQueue; (repeat' split) <;> rfl
@[simp] theorem State.fbQueue_cnt (r : FbRec) (s : State) : (State.fbQueue r s).cnt = s.cnt := by
  unfold State.fbQueue; (repeat' split) <;> rfl
@[simp] theorem State.fbQueue_liu (r : FbRec) (s : State) : (State.fbQueue r s).liu = s.liu := by
  unfold State.fbQueue; (repeat' split) <;> rfl
@[simp] theorem State.fbQueue_svy (r : FbRec) (s : State) : (State.fbQueue r s).svy = s.svy := by
  unfold State.fbQueue; (repeat' split) <;> rfl
@[simp] theorem State.fbQueue_tre (r : FbRec) (s : State) : (State.fbQueue r s).tre = s.tre := by
  unfold State.fbQueue; (repeat' split) <;> rfl
@[simp] theorem State.fbQueue_road (r : FbRec) (s : State) : (State.fbQueue r s).road = s.road := by
  unfold State.fbQueue; (repeat' split) <;> rfl
@[simp] theorem State.fbQueue_eth (r : FbRec) (s : State) : (State.fbQueue r s).eth = s.eth := by
  unfold State.fbQueue; (repeat' split) <;> rfl
@[simp] theorem State.fbQueue_ctl (r : FbRec) (s : State) : (State.fbQueue r s).ctl = s.ctl := by
  unfold State.fbQueue; (repeat' split) <;> rfl
@[simp] theorem State.fbQueue_itn (r : FbRec) (s : State) : (State.fbQueue r s).itn = s.itn := by
  unfold State.fbQueue; (repeat' split) <;> rfl
@[simp] theorem State.fbQueue_lane (r : FbRec) (s : State) : (State.fbQueue r s).lane = s.lane := by
  unfold State.fbQueue; (repeat' split) <;> rfl
@[simp] theorem State.fbQueue_wlv (r : FbRec) (s : State) : (State.fbQueue r s).wlv = s.wlv := by
  unfold State.fbQueue; (repeat' split) <;> rfl
@[simp] theorem State.fbQueue_dma (r : FbRec) (s : State) : (State.fbQueue r s).dma = s.dma := by
  unfold State.fbQueue; (repeat' split) <;> rfl
@[simp] theorem State.fbQueue_cwy (r : FbRec) (s : State) : (State.fbQueue r s).cwy = s.cwy := by
  unfold State.fbQueue; (repeat' split) <;> rfl
@[simp] theorem State.fbQueue_mem (r : FbRec) (s : State) : (State.fbQueue r s).mem = s.mem := by
  unfold State.fbQueue; (repeat' split) <;> rfl
@[simp] theorem State.fbQueue_boot (r : FbRec) (s : State) : (State.fbQueue r s).boot = s.boot := by
  unfold State.fbQueue; (repeat' split) <;> rfl
@[simp] theorem State.fbQueue_free (r : FbRec) (s : State) : (State.fbQueue r s).free = s.free := by
  unfold State.fbQueue; (repeat' split) <;> rfl
@[simp] theorem State.fbQueue_out (r : FbRec) (s : State) : (State.fbQueue r s).out = s.out := by
  unfold State.fbQueue; (repeat' split) <;> rfl
@[simp] theorem State.fbQueue_pending (r : FbRec) (s : State) : (State.fbQueue r s).pending = s.pending := by
  unfold State.fbQueue; (repeat' split) <;> rfl

/-! ### Raising an event -/

@[simp] theorem State.fbEvent_regs (n : Nat) (s : State) : (State.fbEvent n s).regs = s.regs := by
  unfold State.fbEvent; dsimp only; (repeat' split) <;> first | rfl | exact State.fbQueue_regs _ _
@[simp] theorem State.fbEvent_sys (n : Nat) (s : State) : (State.fbEvent n s).sys = s.sys := by
  unfold State.fbEvent; dsimp only; (repeat' split) <;> first | rfl | exact State.fbQueue_sys _ _
@[simp] theorem State.fbEvent_sp (n : Nat) (s : State) : (State.fbEvent n s).sp = s.sp := by
  unfold State.fbEvent; dsimp only; (repeat' split) <;> first | rfl | exact State.fbQueue_sp _ _
@[simp] theorem State.fbEvent_evt (n : Nat) (s : State) : (State.fbEvent n s).evt = s.evt := by
  unfold State.fbEvent; dsimp only; (repeat' split) <;> first | rfl | exact State.fbQueue_evt _ _
@[simp] theorem State.fbEvent_cnt (n : Nat) (s : State) : (State.fbEvent n s).cnt = s.cnt := by
  unfold State.fbEvent; dsimp only; (repeat' split) <;> first | rfl | exact State.fbQueue_cnt _ _
@[simp] theorem State.fbEvent_liu (n : Nat) (s : State) : (State.fbEvent n s).liu = s.liu := by
  unfold State.fbEvent; dsimp only; (repeat' split) <;> first | rfl | exact State.fbQueue_liu _ _
@[simp] theorem State.fbEvent_svy (n : Nat) (s : State) : (State.fbEvent n s).svy = s.svy := by
  unfold State.fbEvent; dsimp only; (repeat' split) <;> first | rfl | exact State.fbQueue_svy _ _
@[simp] theorem State.fbEvent_tre (n : Nat) (s : State) : (State.fbEvent n s).tre = s.tre := by
  unfold State.fbEvent; dsimp only; (repeat' split) <;> first | rfl | exact State.fbQueue_tre _ _
@[simp] theorem State.fbEvent_road (n : Nat) (s : State) : (State.fbEvent n s).road = s.road := by
  unfold State.fbEvent; dsimp only; (repeat' split) <;> first | rfl | exact State.fbQueue_road _ _
@[simp] theorem State.fbEvent_eth (n : Nat) (s : State) : (State.fbEvent n s).eth = s.eth := by
  unfold State.fbEvent; dsimp only; (repeat' split) <;> first | rfl | exact State.fbQueue_eth _ _
@[simp] theorem State.fbEvent_ctl (n : Nat) (s : State) : (State.fbEvent n s).ctl = s.ctl := by
  unfold State.fbEvent; dsimp only; (repeat' split) <;> first | rfl | exact State.fbQueue_ctl _ _
@[simp] theorem State.fbEvent_itn (n : Nat) (s : State) : (State.fbEvent n s).itn = s.itn := by
  unfold State.fbEvent; dsimp only; (repeat' split) <;> first | rfl | exact State.fbQueue_itn _ _
@[simp] theorem State.fbEvent_lane (n : Nat) (s : State) : (State.fbEvent n s).lane = s.lane := by
  unfold State.fbEvent; dsimp only; (repeat' split) <;> first | rfl | exact State.fbQueue_lane _ _
@[simp] theorem State.fbEvent_wlv (n : Nat) (s : State) : (State.fbEvent n s).wlv = s.wlv := by
  unfold State.fbEvent; dsimp only; (repeat' split) <;> first | rfl | exact State.fbQueue_wlv _ _
@[simp] theorem State.fbEvent_dma (n : Nat) (s : State) : (State.fbEvent n s).dma = s.dma := by
  unfold State.fbEvent; dsimp only; (repeat' split) <;> first | rfl | exact State.fbQueue_dma _ _
@[simp] theorem State.fbEvent_cwy (n : Nat) (s : State) : (State.fbEvent n s).cwy = s.cwy := by
  unfold State.fbEvent; dsimp only; (repeat' split) <;> first | rfl | exact State.fbQueue_cwy _ _
@[simp] theorem State.fbEvent_mem (n : Nat) (s : State) : (State.fbEvent n s).mem = s.mem := by
  unfold State.fbEvent; dsimp only; (repeat' split) <;> first | rfl | exact State.fbQueue_mem _ _
@[simp] theorem State.fbEvent_boot (n : Nat) (s : State) : (State.fbEvent n s).boot = s.boot := by
  unfold State.fbEvent; dsimp only; (repeat' split) <;> first | rfl | exact State.fbQueue_boot _ _
@[simp] theorem State.fbEvent_free (n : Nat) (s : State) : (State.fbEvent n s).free = s.free := by
  unfold State.fbEvent; dsimp only; (repeat' split) <;> first | rfl | exact State.fbQueue_free _ _
@[simp] theorem State.fbEvent_out (n : Nat) (s : State) : (State.fbEvent n s).out = s.out := by
  unfold State.fbEvent; dsimp only; (repeat' split) <;> first | rfl | exact State.fbQueue_out _ _
@[simp] theorem State.fbEvent_pending (n : Nat) (s : State) : (State.fbEvent n s).pending = s.pending := by
  unfold State.fbEvent; dsimp only; (repeat' split) <;> first | rfl | exact State.fbQueue_pending _ _

@[simp] theorem State.raise_regs (n : Nat) (s : State) : (State.raise n s).regs = s.regs := by
  unfold State.raise State.when; dsimp only; rw [State.dmaFire_regs]; split
  · rw [State.fbEvent_regs]
  · rfl
@[simp] theorem State.raise_sys (n : Nat) (s : State) : (State.raise n s).sys = s.sys := by
  unfold State.raise State.when; dsimp only; rw [State.dmaFire_sys]; split
  · rw [State.fbEvent_sys]
  · rfl
@[simp] theorem State.raise_cnt (n : Nat) (s : State) : (State.raise n s).cnt = s.cnt := by
  unfold State.raise State.when; dsimp only; rw [State.dmaFire_cnt]; split
  · rw [State.fbEvent_cnt]
  · rfl
@[simp] theorem State.raise_liu (n : Nat) (s : State) : (State.raise n s).liu = s.liu := by
  unfold State.raise State.when; dsimp only; rw [State.dmaFire_liu]; split
  · rw [State.fbEvent_liu]
  · rfl
@[simp] theorem State.raise_svy (n : Nat) (s : State) : (State.raise n s).svy = s.svy := by
  unfold State.raise State.when; dsimp only; rw [State.dmaFire_svy]; split
  · rw [State.fbEvent_svy]
  · rfl
@[simp] theorem State.raise_tre (n : Nat) (s : State) : (State.raise n s).tre = s.tre := by
  unfold State.raise State.when; dsimp only; rw [State.dmaFire_tre]; split
  · rw [State.fbEvent_tre]
  · rfl
@[simp] theorem State.raise_road (n : Nat) (s : State) : (State.raise n s).road = s.road := by
  unfold State.raise State.when; dsimp only; rw [State.dmaFire_road]; split
  · rw [State.fbEvent_road]
  · rfl
@[simp] theorem State.raise_eth (n : Nat) (s : State) : (State.raise n s).eth = s.eth := by
  unfold State.raise State.when; dsimp only; rw [State.dmaFire_eth]; split
  · rw [State.fbEvent_eth]
  · rfl
@[simp] theorem State.raise_ctl (n : Nat) (s : State) : (State.raise n s).ctl = s.ctl := by
  unfold State.raise State.when; dsimp only; rw [State.dmaFire_ctl]; split
  · rw [State.fbEvent_ctl]
  · rfl
@[simp] theorem State.raise_itn (n : Nat) (s : State) : (State.raise n s).itn = s.itn := by
  unfold State.raise State.when; dsimp only; rw [State.dmaFire_itn]; split
  · rw [State.fbEvent_itn]
  · rfl
@[simp] theorem State.raise_lane (n : Nat) (s : State) : (State.raise n s).lane = s.lane := by
  unfold State.raise State.when; dsimp only; rw [State.dmaFire_lane]; split
  · rw [State.fbEvent_lane]
  · rfl
@[simp] theorem State.raise_wlv (n : Nat) (s : State) : (State.raise n s).wlv = s.wlv := by
  unfold State.raise State.when; dsimp only; rw [State.dmaFire_wlv]; split
  · rw [State.fbEvent_wlv]
  · rfl
@[simp] theorem State.raise_cwy (n : Nat) (s : State) : (State.raise n s).cwy = s.cwy := by
  unfold State.raise State.when; dsimp only; rw [State.dmaFire_cwy]; split
  · rw [State.fbEvent_cwy]
  · rfl
@[simp] theorem State.raise_mem (n : Nat) (s : State) : (State.raise n s).mem = s.mem := by
  unfold State.raise State.when; dsimp only; rw [State.dmaFire_mem]; split
  · rw [State.fbEvent_mem]
  · rfl
@[simp] theorem State.raise_boot (n : Nat) (s : State) : (State.raise n s).boot = s.boot := by
  unfold State.raise State.when; dsimp only; rw [State.dmaFire_boot]; split
  · rw [State.fbEvent_boot]
  · rfl
@[simp] theorem State.raise_free (n : Nat) (s : State) : (State.raise n s).free = s.free := by
  unfold State.raise State.when; dsimp only; rw [State.dmaFire_free]; split
  · rw [State.fbEvent_free]
  · rfl
@[simp] theorem State.raise_out (n : Nat) (s : State) : (State.raise n s).out = s.out := by
  unfold State.raise State.when; dsimp only; rw [State.dmaFire_out]; split
  · rw [State.fbEvent_out]
  · rfl
@[simp] theorem State.raise_pending (n : Nat) (s : State) : (State.raise n s).pending = s.pending := by
  unfold State.raise State.when; dsimp only; rw [State.dmaFire_pending]; split
  · rw [State.fbEvent_pending]
  · rfl

@[simp] theorem State.raiseIf_regs (b : Bool) (n : Nat) (s : State) : (State.raiseIf b n s).regs = s.regs := by
  unfold State.raiseIf State.when; split
  · exact State.raise_regs _ _
  · rfl
@[simp] theorem State.raiseIf_sys (b : Bool) (n : Nat) (s : State) : (State.raiseIf b n s).sys = s.sys := by
  unfold State.raiseIf State.when; split
  · exact State.raise_sys _ _
  · rfl
@[simp] theorem State.raiseIf_cnt (b : Bool) (n : Nat) (s : State) : (State.raiseIf b n s).cnt = s.cnt := by
  unfold State.raiseIf State.when; split
  · exact State.raise_cnt _ _
  · rfl
@[simp] theorem State.raiseIf_liu (b : Bool) (n : Nat) (s : State) : (State.raiseIf b n s).liu = s.liu := by
  unfold State.raiseIf State.when; split
  · exact State.raise_liu _ _
  · rfl
@[simp] theorem State.raiseIf_svy (b : Bool) (n : Nat) (s : State) : (State.raiseIf b n s).svy = s.svy := by
  unfold State.raiseIf State.when; split
  · exact State.raise_svy _ _
  · rfl
@[simp] theorem State.raiseIf_tre (b : Bool) (n : Nat) (s : State) : (State.raiseIf b n s).tre = s.tre := by
  unfold State.raiseIf State.when; split
  · exact State.raise_tre _ _
  · rfl
@[simp] theorem State.raiseIf_road (b : Bool) (n : Nat) (s : State) : (State.raiseIf b n s).road = s.road := by
  unfold State.raiseIf State.when; split
  · exact State.raise_road _ _
  · rfl
@[simp] theorem State.raiseIf_eth (b : Bool) (n : Nat) (s : State) : (State.raiseIf b n s).eth = s.eth := by
  unfold State.raiseIf State.when; split
  · exact State.raise_eth _ _
  · rfl
@[simp] theorem State.raiseIf_ctl (b : Bool) (n : Nat) (s : State) : (State.raiseIf b n s).ctl = s.ctl := by
  unfold State.raiseIf State.when; split
  · exact State.raise_ctl _ _
  · rfl
@[simp] theorem State.raiseIf_itn (b : Bool) (n : Nat) (s : State) : (State.raiseIf b n s).itn = s.itn := by
  unfold State.raiseIf State.when; split
  · exact State.raise_itn _ _
  · rfl
@[simp] theorem State.raiseIf_lane (b : Bool) (n : Nat) (s : State) : (State.raiseIf b n s).lane = s.lane := by
  unfold State.raiseIf State.when; split
  · exact State.raise_lane _ _
  · rfl
@[simp] theorem State.raiseIf_wlv (b : Bool) (n : Nat) (s : State) : (State.raiseIf b n s).wlv = s.wlv := by
  unfold State.raiseIf State.when; split
  · exact State.raise_wlv _ _
  · rfl
@[simp] theorem State.raiseIf_cwy (b : Bool) (n : Nat) (s : State) : (State.raiseIf b n s).cwy = s.cwy := by
  unfold State.raiseIf State.when; split
  · exact State.raise_cwy _ _
  · rfl
@[simp] theorem State.raiseIf_mem (b : Bool) (n : Nat) (s : State) : (State.raiseIf b n s).mem = s.mem := by
  unfold State.raiseIf State.when; split
  · exact State.raise_mem _ _
  · rfl
@[simp] theorem State.raiseIf_boot (b : Bool) (n : Nat) (s : State) : (State.raiseIf b n s).boot = s.boot := by
  unfold State.raiseIf State.when; split
  · exact State.raise_boot _ _
  · rfl
@[simp] theorem State.raiseIf_free (b : Bool) (n : Nat) (s : State) : (State.raiseIf b n s).free = s.free := by
  unfold State.raiseIf State.when; split
  · exact State.raise_free _ _
  · rfl
@[simp] theorem State.raiseIf_out (b : Bool) (n : Nat) (s : State) : (State.raiseIf b n s).out = s.out := by
  unfold State.raiseIf State.when; split
  · exact State.raise_out _ _
  · rfl
@[simp] theorem State.raiseIf_pending (b : Bool) (n : Nat) (s : State) :
    (State.raiseIf b n s).pending = s.pending := by
  unfold State.raiseIf State.when; split
  · exact State.raise_pending _ _
  · rfl

/-! ### Reads after the small updates -/

theorem Vector.get_set {α : Type} {n : Nat} (v : Vector α n) (i j : Fin n) (x : α) :
    (v.set i.val x i.isLt).get j = if j = i then x else v.get j := by
  show (v.set i.val x i.isLt)[j.val] = if j = i then x else v[j.val]
  rw [Vector.getElem_set]
  by_cases e : j = i
  · subst e; simp
  · rw [if_neg e, if_neg fun h => e (Fin.ext h.symm)]

@[simp] theorem State.gate_setGate (g h : Fin 32) (x : Gate) (s : State) :
    (State.setGate g x s).gate h = if h = g then x else s.gate h := Vector.get_set _ _ _ _
@[simp] theorem State.queue_setQueue (q r : Fin 16) (x : HwQueue) (s : State) :
    (State.setQueue q x s).queue r = if r = q then x else s.queue r := Vector.get_set _ _ _ _
@[simp] theorem State.dch_setDch (n m : Fin 32) (c : DmaCh) (s : State) :
    (State.setDch n c s).dch m = if m = n then c else s.dch m := Vector.get_set _ _ _ _
@[simp] theorem State.port_modPort (p q : Fin 4) (f : Port → Port) (s : State) :
    (State.modPort p f s).port q = if q = p then f (s.port p) else s.port q := Vector.get_set _ _ _ _

end Sys2Proof.Machine
end

