-- ==== Sys2Proof/WellFormed.lean ====
section
/-! DEFINITION. Which commands are well formed: the checks on operands that a type does not make. An ill-formed command names
nothing that can come to the node; `exec` answers it all the same, and no statement rests on what it answers. -/
namespace Sys2Proof

/-- A line frame: four bytes of frame control (04 Table 4.2), a body of at most 8191 bytes (04 LEN_BODY), and at most one SNR
figure for each of 180 carriers. -/
def RxFrame.wf (f : RxFrame) : Bool :=
  decide (f.fc.length = 4) && decide (f.body.length ≤ 8191) && decide (f.snr.length ≤ 180)

/-- An Ethernet frame holds two addresses and a type (07 R227). -/
def EthRx.wf (f : EthRx) : Bool := decide (14 ≤ f.bytes.length)

/-- A Lane frame holds a header (11 R306). -/
def LaneRx.wf (f : LaneRx) : Bool := decide (8 ≤ f.bytes.length) && decide (f.bytes.length ≤ 4096)

/-- An entry of a table of at most 4096, whose EN is not the reserved 0b11 (10 Table 10.2, R287). -/
def Entry.wf (e : Entry) : Bool := decide (e.index < 4096) && decide (e.en ≠ 3)

/-- A measured value fits 16 bits of millivolts. -/
def mvOk (mv : Nat) : Bool := decide (mv < 65536)

/-- A write of SP_DCTL or SP_WALK has these two bits in [15:14]. -/
def topBits (v : Half) (hi lo : Bool) : Bool := v.getLsbD 15 == hi && v.getLsbD 14 == lo

/-- The operands of a command are what its row of the table says. -/
def Instr.wf : Instr → Bool
  | .serviceWrite a _ => decide (a.toNat < 64)
  | .wrst v => v.getLsbD 15
  | .deepRead v => topBits v true false
  | .deepWrite v => topBits v true true
  | .walkEntry v => topBits v true false
  | .step v => topBits v true true
  | .walkExit v => !v.getLsbD 15
  | .walkStepEnd clocks _ => decide (clocks ≤ 65535)
  | .powerOn mv => mvOk mv
  | .vehSample a b c _ _ => mvOk a && mvOk b && mvOk c
  | .vsupLowWarning mv => decide (mv < 1750)
  | .tempWarning t => decide (230 < t.toInt)
  | .traverseReceive f _ | .snrReport f | .segmentAnnounce f | .tonemapAcknowledge f | .segmentActivate f
  | .segmentSummary f | .ringAnnounce f | .beacon f | .request f | .seek f | .token f | .report f | .pass f | .tally f
  | .result f | .confirm f | .surveyAbort f | .join f | .here f | .resume f | .tableRequest f | .table f | .claim f
  | .acknowledge f | .roadTransit f | .userMessage f | .ethernetTunnel f | .pause f | .hello f | .echo f | .reply f
  | .wayleave f | .causewayDone f => f.wf
  | .causewayWrite f => f.all RxFrame.wf
  | .ethFrameReceive _ f => f.wf
  | .pfc _ _ quanta => decide (quanta.length = 8)
  | .fbRecordWrite (some bs) => decide (bs.length = 32)
  | .lanePassReturn f | .heardPass f => f.wf
  | .flashEraseDone _ stuck => stuck.all fun c => decide (c.1 < 4096)
  | .entrySkip e | .blkNop e | .blkAnd e | .blkOr e | .blkXor e | .blkNot e | .blkSr e | .blkRs e | .blkRtrig e
  | .blkFtrig e | .blkBitget e | .blkBitput e | .blkBand e | .blkBor e | .blkBxor e | .blkShl e | .blkShr e | .blkAdd e
  | .blkSub e | .blkMul e | .blkDiv e | .blkMod e | .blkAbs e | .blkNeg e | .blkMin e | .blkMax e | .blkLimit e
  | .blkEq e | .blkNe e | .blkGt e | .blkGe e | .blkLt e | .blkLe e | .blkMove e | .blkSel e | .blkPack16 e
  | .blkUnpack16 e | .blkBswap e | .blkI2q e | .blkQ2i e | .blkScale e | .blkQmul e | .blkQdiv e | .blkQsqrt e
  | .blkQmac e | .blkTon e | .blkTof e | .blkTp e | .blkCtu e | .blkCtd e | .blkPid e | .blkLag e | .blkRamp e
  | .blkInteg e | .blkDeriv e | .blkDband e | .blkHyst e | .blkLin e | .blkAvg e | .blkWmok e | .blkLaneok e
  | .blkFresh e | .blkInrange e | .blkLoadx e | .blkStorex e => e.wf
  | _ => true

end Sys2Proof
end

