-- ==== Sys2Proof/Tests/Slice0.lean ====
section
/-! SUPPORT. Tests: an ill-formed term for each well-formedness check, the spec's own figures, and for each statement with
hypotheses a state and operands that meet them. -/
namespace Sys2Proof.Tests
set_option Elab.async false
open Sys2Proof Sys2Proof.Machine

/-! ### States the tests start from -/
/-- The node in operation: the service port answers. -/
def up : State := { State.reset with sys.phase := .running }
/-- Its key window is open. -/
def upKey : State := { up with sp.keyOpen := true, sp.keyLeft := 200 }
/-- Bank A may be written (MEM_CTL.WENA) and the scrubber runs. -/
def flashOpen : State := State.reset.setReg Reg.MEM_CTL 0x101
/-- The Field Book enabled, its health interval 60 s. -/
def fbOn : State := State.reset.setReg Reg.FBK_CTL 0x003C0001
/-- A Field Book whose first sector is open, with one record waiting. -/
def fbOpen0 : State := { State.flashAndBytes (fbBase 0) (fbHeader 0 0) fbOn with fbk.queue := [fbOn.fbRec 2 0 0] }
/-- A good robust-mode Open Road frame on A1. -/
def roadFrame (h : RHdr) (payload : List Byte) : RxFrame :=
  let b := h.bytes ++ payload
  ⟨0, 1000, fcBytes .road 15 false b.length, b, crc32 b, 20, [], false, []⟩
/-- Node 0 of car 1 of 2, in epoch 1, synchronised, with Open Road enabled. -/
def inRing : State := { (up.setReg Reg.ROAD_CTL 1).modPort 0 fun c => { c with enabled := true, state := .locked } with
  svy.nid := some 0, svy.chain := 1, svy.cars := 2, svy.epoch := 1, tre.sync := .locked }
/-- A header from node 2 with a class. -/
def fromTwo (bcast : Bool) (cls : Nat) (dst : BitVec 6) (seq : Half) (plen chan : Nat) : RHdr :=
  ⟨6, bcast, false, true, cls, 2, dst, 1, 5, seq, plen, chan⟩
/-- Node 2's duplicate window is at 40. -/
def heardTwo : State := { inRing with road.wins := vset inRing.road.wins 2 ⟨true, 40, 1⟩ }
/-- Node 2, the through unit of car 2 of 3, hears from the head side; node 4 is present and its tail port usable. -/
def relayTwo : State := { (inRing.modPort 1 fun c => { c with enabled := true, state := .locked }) with
  svy.nid := some 2, svy.chain := 2, svy.cars := 3, sys.thru := true
  svy.nidtab := vset inRing.svy.nidtab 4 0x80000000 }
def fromZero (bcast : Bool) (cls : Nat) (dst : BitVec 6) (plen : Nat) : RHdr := ⟨6, bcast, false, true, cls, 0, dst, 1, 5, 1, plen, 0⟩
/-- A running node whose port A2 is enabled and in a state, its detectors and notches on. -/
def portAt (st : PortState) (jam : Bool) (nt : Vector (Option (BitVec 24 × Dword)) 8) : State :=
  (((up.setReg Reg.LIU_CTL 0).setReg (Reg.LIU_PCFG + 0x1000) 0x3000).modPort 1 fun c => { c with enabled := true, state := st, jam := jam, notches := nt })
/-- The through unit of car 1 of 2, on its tail port; the other unit is present. -/
def keep0 : State := { portAt .locked false (Vector.replicate 8 none) with
  sys.thru := true, svy.nid := some 0, svy.chain := 1, svy.cars := 2
  svy.nidtab := vset (vset State.reset.svy.nidtab 0 0x80000000) 2 0x80000000 }
/-- The state a command leaves. -/
def after (i : Instr) (s : State) : State := match exec i s with | .next t => t | _ => s

/-! ### Well-formedness: an ill-formed term for each check -/

theorem test_ill_formed_frames :
    RxFrame.wf ⟨0, 1000, [1, 2, 3], [], 0, 0, [], false, []⟩ = false ∧
    RxFrame.wf ⟨0, 1000, [1, 2, 3, 4], [], 0, 0, [], false, List.replicate 181 0⟩ = false ∧
    EthRx.wf ⟨[1, 2, 3], true, true, false⟩ = false ∧ LaneRx.wf ⟨true, [1, 2, 3], 0, []⟩ = false ∧
    Entry.wf ⟨4096, 0, 0, 0, 0, 0, 0, 0, 0, 0⟩ = false ∧ Entry.wf ⟨1, 3, 0, 0, 0, 0, 0, 0, 0, 0⟩ = false ∧
    mvOk 65536 = false := by decide +kernel
theorem test_ill_formed_body : RxFrame.wf ⟨0, 1000, [1, 2, 3, 4], List.replicate 8192 0, 0, 0, [], false, []⟩ = false := by
  decide +kernel
theorem test_ill_formed_service : Instr.wf (.deepRead 0x4000) = false ∧ Instr.wf (.deepWrite 0x8000) = false ∧
    Instr.wf (.walkEntry 0xC000) = false ∧ Instr.wf (.walkStepEnd 65536 false) = false ∧ Instr.wf (.powerOn 65536) = false := by
  decide +kernel
theorem test_ill_formed_events : Instr.wf (.vsupLowWarning 1750) = false ∧ Instr.wf (.tempWarning 230) = false ∧
    Instr.wf (.pfc 0 1 []) = false ∧ Instr.wf (.fbRecordWrite (some [1])) = false ∧
    Instr.wf (.flashEraseDone false [(4096, 0)]) = false := by decide +kernel

/-! ### The spec's own figures -/

/-- Units A and B of car 2 (03 Worked example): SP_PINS reads 0x4040 and 0x8020. -/
def unitAB (b : Bool) : State := { up with
  sys.straps := { up.sys.straps with unit := b, pref := !b, bank := false, walkEn := false, vrange := 2 }
  sys.peerOwnN := !b, sys.ownOutN := b, wlv.hbRuns := false }
theorem test_pins : ((unitAB false).pins.setWidth 16 : Half) = 0x4040 ∧ ((unitAB true).pins.setWidth 16 : Half) = 0x8020 := by
  decide +kernel
/-- 797 mV at a ratio of 138.0 is 109.9 V (03 Worked example). -/
theorem test_veh : (after (.vehSample 797 3300 1200 #v[3300, 3300, 3300, 3300] 50) (up.setReg Reg.SYS_VEH_RATIO 0x8A00)).sys.veh = 1099 := by decide +kernel
/-- One pass of the pressure loop (10 Table 10.9): SCALE of 1664 counts, then PID with I at 40.0. -/
theorem test_scale_pid :
    (let x : BlkIn := ⟨1664, 0, 0, [0x00005000, 0xFF060000], 32000, 1, 0, 0, 0⟩
     (bScale.fn x).y = some 17694720) ∧
    (let x : BlkIn := ⟨19660800, 17694720, 0, [0x8000, 0x20000, 0, 0, 0x640000, 2621440, 0, 0], 32000, 1, 0, 0, 0⟩
     (bPid.fn x).y = some 3730300) := by decide +kernel
/-- REM of the APPLY mark with LEAD 20 us is 0x0640 (11 Table 11.9). -/
theorem test_apply_rem : (applyBytes false false 20).drop 1 = [0x06, 0x40] ++ [crc8 [0, 6, 0x40]] := by decide +kernel

/-! ### What meets the hypotheses: ch02 -/

theorem test_ServiceReads_met :
    up.spAnswers = true ∧ up.spTakes = true ∧ ({ up with sys.phase := .pinHeld } : State).spAnswers = false ∧ ({ up with sp.lost := true } : State).spTakes = false ∧
    State.reset.sys.test = false ∧ ({ up with sys.test := true } : State).sys.test = true ∧ (∃ a : BitVec 6, a ≠ 0x03 ∧ a ≠ 0x09 ∧ a ≠ 0x16) ∧
    (let s : State := { up with sp.keyOpen := true }
     s.sp.keyOpen = true ∧ s.sp.keyLeft = 0) ∧
    sdiCrcOk 0x5100004E = false ∧ sdiCrcOk 0x5100004F = true ∧ sdiW 0x5100004F = false ∧ sdiP 0x5100004F = true ∧
    sdiAddr 0x5100004F = 0x11 := by decide +kernel
theorem test_ServiceReads_start_met :
    let s : State := { fbOpen0 with sys.phase := .running }
    s.spTakes = true ∧
      (let t := State.flashAndBytes (fbSlot 0 0) (fbSeal ((fbOn.fbRec 2 0 0).body 0)) s
       (t.fbRecs.any fun r => r.1 == t.sp.fbSeq) = true) := by decide +kernel
theorem test_ServiceWrites_met :
    (up.spTakes = true ∧ up.sp.keyFirst = false ∧ up.keyIn = false ∧ up.sp.busy = false) ∧
    (upKey.spTakes = true ∧ upKey.keyIn = true ∧ upKey.sp.busy = false) ∧
    ((0x8000#16).getLsbD 15 = true ∧ (0x8000#16).getLsbD 14 = false ∧ (0xC000#16).getLsbD 14 = true) ∧
    (let s : State := { up with sp.dctl := 0x2C00 }
     s.spTakes = true ∧ s.sp.busy = false ∧ s.sp.dctl.getLsbD 11 = true ∧ s.sp.dctl.getLsbD 14 = false) ∧
    (let s : State := { up with sp.dctl := 0x2400, sp.busy := true, sp.daddr := 0x10000000 }
     s.sp.busy = true ∧ fld s.sp.dctl 12 2 = 2 ∧ s.sp.daddr.toNat % 4 = 0 ∧ s.sp.dctl.getLsbD 14 = false ∧
       s.sp.dctl.getLsbD 10 = true ∧ s.readErr .service s.sp.daddr.toNat 0xF = none) ∧
    (let s : State := { upKey with sp.dctl := 0x6800, sp.busy := true, sp.daddr := 0x10000000, sp.ddata := 0x1234 }
     s.deepSize ≠ 3 ∧ s.sp.daddr.toNat % sizeBytes s.deepSize = 0 ∧ s.writeFails .service 0x10000000 0xF 0x1234 = none ∧
       (after .deepAccessDone s).bytesAt 0x10000000 4 = [0x34, 0x12, 0, 0] ∧
       ({ s with sp.dctl := 0x7800 } : State).deepSize = 3 ∧
       (after (.autoIncrement (some 0xABCD)) { s with sp.busy := false }).sp.daddr = 0x10000004) := by decide +kernel
theorem test_WalkServes_met :
    (let s : State := { upKey with sys.straps.walkEn := true }
     s.spTakes = true ∧ s.keyIn = true ∧ s.sp.walk = false ∧ s.sp.walkEntering = false ∧ s.walkAllowed = true) ∧
    (up.spTakes = true ∧ (up.keyIn && up.walkAllowed) = false) ∧
    (let s : State := { upKey with sp.walk := true }
     s.spTakes = true ∧ s.keyIn = true ∧ s.sp.walk = true ∧ s.sp.pend = false) ∧
    (let s : State := { upKey with sp.walk := true, sp.pend := true }
     s.sp.walk = true ∧ s.sp.pend = true ∧ s.itn.at_ = none ∧ 1 = max 1 s.sp.walkSteps.toNat) ∧
    (let s : State := { upKey with sp.walk := true, sp.pend := true, sp.walkSteps := 9, sp.until_ := 1 }
     s.sp.walk = true ∧ s.sp.pend = true ∧ s.itn.at_ = none ∧ 5 < max 1 s.sp.walkSteps.toNat ∧ s.sp.until_ = 1) ∧
    (let s : State := { upKey with sp.walk := true, sp.pend := true, itn.at_ := some 0 }
     s.sp.met = false ∧ s.sp.until_ ≠ 2 ∧ 1 = max 1 s.sp.walkSteps.toNat) := by decide +kernel
/-- 02 Table 2.5: the peek of SP_NODE answers 0x40 0x83 0x17 with CRC-8 0x6A; the command's CRC-8 is 0x4F. -/
theorem test_sdo_crc :
    ({ up with sp.image := List.replicate 64 0x8317, sp.status := 0x40 } : State).sdoBytes 0x11 = [0x40, 0x83, 0x17, 0x6A] ∧
      crc8 [0x51, 0x00, 0x00] = 0x4F := by decide +kernel

/-! ### What meets the hypotheses: ch03 -/

/-- A power-fail save is under way. -/
def saving : State := { up with sys.vehState := .save, mem.saving := some (some true) }
theorem test_ResetsAct_met :
    (State.reset.sys.heldCause = 0 ∧ up.sys.phase ≠ .powerUp) ∧
    (up.up = true ∧ up.sys.vehState ≠ .save) ∧
    (let s : State := { up with sys.vehState := .hold, sys.resumed := true }
     s.holdOver = true) := by decide +kernel
theorem test_ReleasesAct_met :
    (let s : State := { State.reset with sys.phase := .powerUp }
     s.sys.phase = .powerUp ∧ s.sys.resetN = true ∧ s.sys.test = false) ∧
    (let s : State := { State.reset with sys.phase := .powerUp, sys.resetN := false }
     s.sys.phase = .powerUp ∧ s.sys.resetN = false) ∧
    ({ up with sys.phase := .pinHeld } : State).sys.phase = .pinHeld ∧ State.reset.warmReset.sys.phase = .warmHeld ∧
    (up.up = true ∧ up.sys.clkFault = false ∧ up.pfail = false) ∧
    (let s : State := { up with sys.clkFault := true, sys.refok := true }
     s.sys.clkFault = true ∧ s.pfail = false ∧ s.sys.refok = true) ∧
    (let s : State := { up with sys.cabdb := true }
     s.coreRuns = true ∧ s.up = true ∧ s.sys.cabAct = false ∧ s.sys.cabdb = true) ∧
    (let s : State := { up with sys.cabAct := true }
     s.coreRuns = true ∧ s.up = true ∧ s.sys.cabAct = true ∧ s.sys.cabdb = false ∧ s.svy.chain ≠ 1) := by decide +kernel
theorem test_SupplyServes_met :
    (let s : State := { up with sys.nLow := 3 }
     s.up = true ∧ s.vehNone = false ∧ s.sys.vehState = .normal ∧ s.sys.nLow = 3 ∧
       pinAtLeast (min 1200 400) s.vehPct.1 = false) ∧
    (let s : State := { up with sys.vehState := .ride }
     s.sys.vehState = .ride ∧ s.up = true ∧ s.sys.vehOff = false ∧ ({ s with sys.vehOff := true } : State).sys.vehOff = true) ∧
    up.saveSlot = some false ∧
    (up.setReg Reg.SYS_VEH_CFG 0x8C463C07).vehNone = true ∧
    (up.pfail = false ∧ up.up = true) ∧
    (saving.sys.vehState = .save ∧ saving.sys.resetWaiting = 0 ∧ saving.mem.saving = some (some true)) ∧
    (let s : State := { saving with mem.saving := some none }
     s.mem.saving = some none) ∧
    (230 : Int) < (240#16).toInt := by decide +kernel

/-! ### What meets the hypotheses: ch04 -/

theorem test_PortsServe_met :
    ((portAt .silent false (Vector.replicate 8 none)).portUp 1 = true ∧
      ((portAt .silent false (Vector.replicate 8 none)).port 1).state = .silent) ∧
    ((portAt .locked false (Vector.replicate 8 none)).port 1).state = .locked ∧
    (let s := portAt .carrier false (Vector.replicate 8 none)
     s.portUp 1 = true ∧ s.suspended 1 = false ∧ s.heldLow 1 = true ∧ (s.pcfg 1).getLsbD 12 = true ∧ (s.port 1).jam = false ∧ (s.port 1).state = .carrier) ∧
    (((portAt .carrier true (Vector.replicate 8 none)).port 1).jam = true) ∧
    ((portAt .dead false (Vector.replicate 8 none)).port 1).state = .dead ∧
    (let s := portAt .locked false ((Vector.replicate 8 none).set 0 (some (5, 0)))
     s.portUp 1 = true ∧ (s.pcfg 1).getLsbD 13 = true ∧ nearCarrier 426404 = false ∧ nearCarrier 426403 = true ∧
      betweenCarriers 426404 = true ∧ betweenCarriers 419 = false ∧ s.notchOf 1 426404 = none ∧ (s.port 1).notches.get 1 = none ∧ ∀ k : Fin 8, k < 1 → ((s.port 1).notches.get k).isSome = true) ∧
    (∀ k : Fin 8, (((portAt .locked false (Vector.replicate 8 (some (5, 0)))).port 1).notches.get k).isSome = true) ∧
    (let s := portAt .locked false (Vector.replicate 8 (some (5, 0)))
     s.portUp 1 = true ∧ s.notchOf 1 426404 = none) ∧
    (let s := portAt .locked false (Vector.replicate 8 (some (426404, 0)))
     s.portUp 1 = true ∧ s.notchOf 1 426404 = some 0) ∧
    (let s := (portAt .locked false (Vector.replicate 8 none)).modPort 1 fun c => { c with txact := true }
     s.suspended 1 = true ∧ s.txBusy 1 = true) ∧
    (let s := (portAt .locked false (Vector.replicate 8 none)).modPort 1 fun c => { c with busyTo := some 5 }
     s.regBit Reg.LIU_CTL 1 = false ∧ s.txBusy 1 = false ∧ (s.port 1).enabled = true ∧ (s.port 1).state ≠ .silent ∧ s.before 5 = true) ∧
    (up.accesses .service false (Reg.LIU_TSRX_L + 0x3000) = true ∧ up.accesses .service false (Reg.LIU_TSTX_L + 0x3000) = true ∧
     up.accesses .service false Reg.TRE_TIME_L = true ∧ up.accesses .service false Reg.ITN_LTIME_L = true ∧
     up.accesses .service false 0 = true ∧ tsWord 0 = false) := by decide +kernel
theorem test_ToneMapsServe_met :
    (let s := keep0.modPort 1 fun c => { c with lastReport := some 0 }
     let t : State := { s with tre.time := 100000000 }
     t.isCoupler 1 = true ∧ t.suspended 1 = false ∧ t.windowRoom [1] announceLen = false ∧ t.reportDue 1 = true ∧ 100000000 ≤ (t.tre.time - 0).toNat) ∧
    (keep0.isCoupler 1 = true ∧ keep0.keeper 1 = true) ∧
    (let s : State := { keep0 with sys.thru := false }
     s.isCoupler 1 = true ∧ s.keeper 1 = false) ∧
    (let s := keep0.modPort 1 fun c => { c with nextMap := some (3, 7) }
     let t : State := { s with tre.tcount := 7 }
     (t.port 1).nextMap = some (3, 7) ∧ (t.tre.tcount - 7).toNat < 0x80000000 ∧ t.keeper 1 = true) ∧
    (let s : State := { keep0 with liu.pending := some ⟨8, 5, 8, none⟩, sys.netrole := .benchmark }
     let t : State := { keep0 with liu.pending := some ⟨8, 1, 8, none⟩, sys.netrole := .benchmark }
     s.ringAllAcked ⟨8, 5, 8, none⟩ = true ∧ t.ringAllAcked ⟨8, 1, 8, none⟩ = false) := by decide +kernel

/-! ### What meets the hypotheses: ch05 -/

/-- A good survey frame on A1. -/
def svyFrame (h : SHdr) (rest : List Byte) : RxFrame :=
  let b := h.bytes ++ rest
  ⟨0, 1000, fcBytes .survey 15 false b.length, b, crc32 b, 20, [], false, []⟩
/-- A header of a survey of SID 7. -/
def sidSeven (kind : Nat) (coll : Bool) (win : Byte) (winrem : Nat) : SHdr := ⟨kind, 0, coll, false, 7, 1, 0, 1, win, winrem, 8⟩
theorem test_SurveyReceives_met :
    (∀ k ∈ [1, 2, 3, 4, 5, 6, 7, 8, 9, 10], inRing.rxClass (svyFrame (sidSeven k false 1 9) []) = .good ∧
      fcType (svyFrame (sidSeven k false 1 9) []).fc = .survey ∧
      (SHdr.parse (svyFrame (sidSeven k false 1 9) []).body).kind = k ∧
      16 ≤ (svyFrame (sidSeven k false 1 9) []).body.length) ∧
    ({ inRing with svy.dupunit := true } : State).rxClass (svyFrame (sidSeven 2 false 1 9) []) = .good ∧
    (let s : State := { inRing with svy.current := some (0, 7) }
     s.svyIs (sidSeven 2 false 1 9) = true ∧ s.svy.dupunit = false) ∧ inRing.svyIs (sidSeven 2 false 1 9) = false := by
  decide +kernel
/-- The node in the survey of SID 7, with a place in its walk. -/
def inSurvey (surveyor thru tail : Bool) : State :=
  { inRing with svy.current := some (0, 7), svy.surveyor := surveyor, svy.walk := some ⟨1, 0, 1, 0, thru, tail⟩ }
theorem test_SurveyActs_met :
    (inRing.svy.current = none ∧ ({ up with svy.chain := 1 } : State).outward.contains 0 = true ∧
      ({ up with svy.chain := 1 } : State).svyForeign (sidSeven 10 false 0 0) = true) ∧
    (svyOutranks (1, 9) (sidSeven 10 false 0 0).key = true) ∧
    (let s : State := { inRing with sys.netrole := .benchmark }
     s.hasEpoch = true ∧ (sidSeven 1 false 0 0).oldep = s.svy.epoch ∧ s.svy.state = .idle) ∧
    (let s : State := { inRing with sys.thru := true, tre.bench := 2 }
     s.sys.netrole ≠ .benchmark ∧ s.car < s.tre.bench.toNat / 2 + 1 ∧ farEnd s.retIn = 2) ∧
    (let s : State := { inRing with sys.thru := true, svy.chain := 2, tre.bench := 0 }
     s.sys.netrole ≠ .benchmark ∧ s.tre.bench.toNat / 2 + 1 < s.car ∧ farEnd s.retOut = 3) ∧
    (let s : State := { inRing with svy.current := some (0, 7), svy.hold := some ⟨0, false, some 5, none, none, 1, false, true⟩ }
     s.svyIs (sidSeven 4 false 0 0) = true) ∧
    (let s : State := { inRing with svy.current := some (0, 7), svy.recv := some ⟨0, false, 5, 9, [], none⟩ }
     s.svyIs (sidSeven 5 true 0 0) = true ∧ s.svy.colls < 2 ∧
      (if s.unitB then beAt (svyFrame (sidSeven 5 true 0 0) (List.replicate 8 0)).body 20 4
        else beAt (svyFrame (sidSeven 5 true 0 0) (List.replicate 8 0)).body 16 4) = 0) ∧
    (let s := inSurvey false true false
     let f := svyFrame (sidSeven 7 false 0 0) (List.replicate 8 0 ++ [2, 0, 0, 0] ++ beBytes 4 0x80000000 ++
       beBytes 4 0x80010000 ++ List.replicate 2 0 ++ [0x80] ++ List.replicate 61 0)
     s.svyIs (SHdr.parse f.body) = true ∧ s.svy.state ≠ .cutwait ∧
      (s.svyResultOf f (SHdr.parse f.body) ⟨1, 0, 1, 0, true, false⟩).isSome = true) ∧
    (let s : State := { inRing with svy.current := some (0, 7), svy.recv := some ⟨0, true, 5, 9, [], none⟩ }
     s.svyIs (sidSeven 5 false 0 0) = true ∧ s.unitB = false ∧ ({ s with tre.sync := .muted } : State).unitAMuted = true ∧
      ({ s with sys.straps := { s.sys.straps with unit := true } } : State).unitB = true ∧
      ({ s with sys.straps := { s.sys.straps with unit := true } } : State).unitAMuted = false ∧
      beAt (svyFrame (sidSeven 5 false 0 0) (List.replicate 3 0 ++ [9, 0, 0, 0, 9])).body 16 4 = 9 ∧
      beAt (svyFrame (sidSeven 5 false 0 0) (List.replicate 3 0 ++ [9, 0, 0, 0, 9])).body 20 4 = 9) ∧
    (sideB 1 = 3 ∧ (inSurvey true true false).svy.surveyor = true ∧ (inSurvey false false false).svy.surveyor = false) := by
  decide +kernel
theorem test_SurveyServes_met :
    (let s : State := { inRing with sys.thru := true }
     s.hasEpoch = true ∧ s.outward.contains 1 = false ∧ s.outward.contains 0 = true) ∧
    (let s : State := { up with svy.state := .settle }
     s.coreRuns = true ∧ s.svy.current = none ∧ s.hasEpoch = false ∧ s.carCab = false ∧
       s.svy.attempt.toNat < s.svyAttempts) ∧
    (let s : State := { inSurvey true true false with svy.state := .settle, svy.lead := some 0 }
     s.svy.current.isSome = true ∧ s.svy.trigger = none) ∧
    (let s : State := { inSurvey false true false with svy.hold := some ⟨1, false, some 5, none, none, 3, false, true⟩ }
     s.coreRuns = true ∧ s.svy.hold = some ⟨1, false, some 5, none, none, 3, false, true⟩ ∧ s.svy.walk.isSome = true) ∧
    (let s : State := { inSurvey false true false with svy.hold := some ⟨1, false, some 5, none, none, 2, false, true⟩ }
     s.coreRuns = true ∧ s.svy.hold = some ⟨1, false, some 5, none, none, 2, false, true⟩ ∧
      s.svy.walk = some ⟨1, 0, 1, 0, true, false⟩) ∧
    (byteAt ((State.reset.svyHdr 6 false 0).bytes) 0 = 6 ∧
      (let r : SvyResult := ⟨2, false, 0, 0, 1, 0, [], [0x80], 0⟩
       let s : State := { inSurvey true true false with svy.result := some r }
       s.svyConfirmCame = false ∧ ({ s with svy.confirm := 4 } : State).svyConfirmCame = true)) ∧
    (let s : State := { up with svy.hostwait := true, svy.state := .decide, svy.split := 1, svy.records := [[], []] }
     s.svyChainCars s.svy.decChain = none) ∧
    (let r : List Byte := [0x40, 0, 0, 200] ++ List.replicate 12 0
     let s : State := { up with
       svy.hostwait := true, svy.state := .decide, svy.split := 3, svy.records := [r]
       svy.decChain := svyChainFix [r] (vset up.svy.decChain 0 0xE0000000)
       svy.decNid := vset up.svy.decNid 0 0xC0000000 }
     s.svyChainCars s.svy.decChain = some [r] ∧ s.svyNidOk [r] s.svy.decNid = true) ∧
    (let s : State := { inSurvey true true false with svy.state := .cutwait }
     s.svyConfirmed = false) ∧
    (let s : State := { up with svy.attempt := 3 }
     s.svyAttempts ≤ s.svy.attempt.toNat) ∧
    (let s : State := { up with svy.deferred := [(0, [1])] }
     s.tre.sync = .free ∧ s.svyWindow = none ∧ (s.port 0).txEnd = none ∧ s.quiet 0 (s.svyNow 0) = true) ∧
    (let s : State := { up with tre.sync := .acq, svy.joins := 3, svy.watch := some (3, []) }
     s.lateComer = true ∧ s.svy.watchLive = false) ∧
    (let s : State := { up with svy.state := .cutwait, svy.result := some ⟨2, false, 0, 0, 1, 0, [], [], 0⟩ }
     s.coreRuns = true ∧ s.svy.result.isSome = true) := by decide +kernel
theorem test_NewEpochFresh_met : svyNewep [[0, 0, 255], [0, 0, 1]] = 2 := by decide +kernel

/-! ### What meets the hypotheses: ch06 -/

/-- A Traverse of the ring as the outbound pass brings it. -/
def trvFrame (s : State) (port : Fin 4) : RxFrame :=
  let h : THdr := ⟨false, false, 1, 4, 0, 9, 0, 8⟩
  let m := List.replicate 58 (0 : Byte)
  let b := h.bytes ++ m ++ beBytes 2 (mcrc 1 4 9 m).toNat
  ⟨port, s.tre.time, fcBytes .traverse 15 false b.length, b, crc32 b, 20, [], false, []⟩
set_option maxRecDepth 100000 in
theorem test_TraverseReceives_met :
    (let s : State := { inRing with tre.enabled := true }
     let f := trvFrame s 0
     s.rxClass f = .good ∧ fcType f.fc = .traverse ∧ s.hasEpoch = true ∧ hcrcOk f.body = true ∧
      (THdr.parse f.body).epoch = s.svy.epoch ∧ s.svy.epoch ≠ 0 ∧
      (mcrc (THdr.parse f.body).epoch (THdr.parse f.body).bench (THdr.parse f.body).tcount
        ((slice f.body 16 60).take 58)).toNat = beAt (slice f.body 16 60) 58 2 ∧ s.sys.thru = false) ∧
    ({ up with sp.walk := true } : State).rxClass (trvFrame up 0) = .nothing ∧
    (({ inRing with tre.enabled := false } : State).rxClass (trvFrame inRing 0) = .good) ∧
    (inRing.rxClass (roadFrame (fromTwo false 0 0 1 1 0) [1]) = .good ∧
      fcType (roadFrame (fromTwo false 0 0 1 1 0) [1]).fc ≠ .traverse) ∧
    (relayTwo.sys.thru = true ∧ relayTwo.sys.turned = false ∧
      ({ relayTwo with sys.turned := true } : State).sys.turned = true) := by decide +kernel
theorem test_SyncSteps_met :
    State.reset.tre.sync = .free ∧ (2000 : Int).natAbs ≤ 2000 ∧ 2000 < (-2001 : Int).natAbs ∧ (-125 : Int).natAbs ≤ 125 ∧
    125 < (126 : Int).natAbs ∧ up.tre.good + 1 < (up.setReg Reg.TRE_SYNCCFG 4).lockN ∧ (up.setReg Reg.TRE_SYNCCFG 4).lockN = 4 ∧
    ({ up with tre.good := 3 } : State).tre.good + 1 ≤ (up.setReg Reg.TRE_SYNCCFG 4).lockN := by decide +kernel
/-- The benchmark of the ring, its Traverse enabled. -/
def benchZero : State := { inRing with sys.netrole := .benchmark, tre.enabled := true }
theorem test_TraverseServes_met :
    (benchZero.benchRuns = true ∧ inRing.benchRuns = false ∧ inRing.hasEpoch = true ∧ inRing.sys.netrole ≠ .benchmark) ∧
    (let s : State := { benchZero with tre.lastRet := some (true, 5), tre.closeSeen := false }
     s.tre.passOpen = false ∧ s.tre.ringDelay = none) ∧
    ((1205 - 5 : Dword).toNat ≤ 1000 + 200 ∧ 1000 + 200 < (1206 - 5 : Dword).toNat) ∧
    (inRing.latchDue = true ∧ ({ inRing with tre.lastLatch := some 0 } : State).latchDue = false) ∧
    (inRing.tre.sync = .locked ∧ up.tre.sync = .free ∧ ({ inRing with tre.got := false } : State).tre.got = false) ∧
    (let s : State := { inRing with sys.netrole := .backup, sys.rank := 1, tre.missed := 3, tre.enabled := true }
     s.takeN + s.sys.rank.toNat ≤ s.tre.missed + 1 ∧ s.regBit Reg.TRE_CTL 1 = false ∧ s.lineUp = true) ∧
    (let s : State := { inRing with sys.thru := true, tre.tabok := true, tre.table := [mkEntry false (some 1) 1 0] }
     s.tre.table.any s.partnerOwns = true ∧ s.tre.cover = false ∧ s.sys.turned = false ∧ s.sys.turnNext = false) := by
  decide +kernel
set_option maxRecDepth 100000 in
theorem test_TableServes_met :
    (up.accesses .service false Reg.TRE_CLAIM = true ∧
      (let e := mkEntry true none 1 0
       let s : State := { inRing with tre.table := [mkEntry true (some 5) 1 7], tre.tableNext := some (1, [e]), tre.design := some [e] }
       (s.tre.tableNext.all fun x => tabOk x.2) = true ∧ tabOk s.tre.table = true ∧ s.tre.design.all tabOk = true ∧
         s.tablePrune.tre.table = [mkEntry true none 1 7])) ∧
    (({ inRing with tre.commit := true } : State).tre.commit = true ∧ ({ inRing with tre.tabok := false } : State).tre.tabok = false) ∧
    (let s : State := { inRing with tre.tabok := true, tre.decls := [0x0100], tre.claimTries := 8 }
     s.claimDue = true ∧ ({ s with tre.claimTries := 7 } : State).claimDue = true) ∧
    ((0x8000#32).getLsbD 15 = true ∧ benchZero.sys.netrole = .benchmark) ∧
    (let e := mkEntry true none 1 0
     tabOk (tabPut inRing.tre.table 0 e) = true ∧ inRing.owns e = false ∧ tabOk (tabPut inRing.tre.table 0 0) = false ∧
      tabOk [e] = true ∧ entLayby e = true ∧ entOwned e = false ∧ 1 ≤ fld e 8 5 ∧ tabOk inRing.tre.table = true) ∧
    (let s : State := { benchZero with tre.table := [mkEntry true none 1 0] }
     s.tre.edits = [] ∧ s.tre.lastEdit = none ∧ s.sys.splitAct.getLsbD 2 = false ∧
      s.tre.table[0]? = some (mkEntry true none 1 0)) := by decide +kernel
theorem test_FrameHeadersAgree_met :
    (let fc := fcBytes .road 15 true 8191
     fcOk fc = true ∧ fcType fc = .road ∧ fcTmi fc = 15 ∧ fcPass fc = true ∧ fcLen fc = 8191) ∧
    (let h : RHdr := ⟨7, true, true, true, 255, 63, 63, 255, 255, 0xFFFF, 65535, 255⟩
     RHdr.parse h.bytes = h) ∧
    (let h : SHdr := ⟨255, 3, true, true, 0xFFFFFFFF, 255, 255, 255, 255, 65535, 0xFFFF⟩
     SHdr.parse h.bytes = h) ∧
    (let h : THdr := ⟨true, true, 255, 63, 255, 0xFFFFFFFF, 0xFFFFFFFF, 0xFFFF⟩
     THdr.parse h.bytes = h ∧ hcrcOk h.bytes = true) := by decide +kernel

/-! ### What meets the hypotheses: ch07 -/

theorem test_RoadReceives_unicast_met : (∀ k ∈ [1, 2, 3, 4, 5, 6, 0x10, 0x11, 0x12, 0x13, 0x14, 0x15, 0x20, 0x21, 0x22, 0x30],
      inRing.HearsFrame (roadFrame (fromTwo false 0 0 1 1 0) [BitVec.ofNat 8 k]) (mgmt k onHello)) ∧
    inRing.HearsFrame (roadFrame (fromTwo false 1 0 1 1 0) [7]) deliverUser ∧
    inRing.HearsFrame (roadFrame (fromTwo false 2 0 1 1 0) [7]) deliverTunnel ∧
    inRing.HearsFrame (roadFrame (fromTwo false 3 0 1 3 0) [1, 0, 1]) deliverPause ∧
    inRing.HearsFrame (roadFrame (fromTwo false 4 0 1 1 0) [2]) deliverCwyDone ∧
    inRing.isDest (fromTwo false 0 0 1 1 0) = true ∧ inRing.deaf 0 = false ∧ up.deaf 0 = true ∧
    inRing.pausedHere 0 6 = false ∧ (inRing.modRoad 0 fun r => { r with pausing := 0x40 }).pausedHere 0 6 = true := by
  decide +kernel
theorem test_RoadReceives_codes_met :
    inRing.dupTest (fromTwo false 0 0 1 1 0) = .accept ⟨true, 1, 1⟩ ∧
    heardTwo.dupTest (fromTwo false 0 0 40 1 0) = .duplicate ∧ heardTwo.dupTest (fromTwo false 0 0 8 1 0) = .stale ∧
    heardTwo.dupTest (fromTwo false 0 0 9 1 0) = .accept ⟨true, 40, 0x80000001⟩ ∧
    deliverUser.code (inRing.roadHeard (roadFrame (fromTwo false 1 0 1 1 0) [7])) (fromTwo false 1 0 1 1 0)
      (roadFrame (fromTwo false 1 0 1 1 0) [7]).body = 3 ∧
    (let s := (inRing.setReg Reg.ROAD_RXBASE 0x10080000).setReg Reg.ROAD_RXSIZE 0x1000
     deliverUser.code (s.roadHeard (roadFrame (fromTwo false 1 0 1 1 0) [7])) (fromTwo false 1 0 1 1 0)
      (roadFrame (fromTwo false 1 0 1 1 0) [7]).body = 0) ∧
    (let s := (inRing.setReg Reg.ROAD_RXBASE 0x10080000).setReg Reg.ROAD_RXSIZE 8
     let f := roadFrame (fromTwo true 1 0 1 1 0) [7]
     s.HearsFrame f deliverUser ∧ deliverUser.code (s.roadHeard f) (fromTwo true 1 0 1 1 0) f.body = 1 ∧
      (s.roadHeard f).bcastPort f (fromTwo true 1 0 1 1 0) = none) ∧
    inRing.HearsFrame (roadFrame (fromTwo true 0 0 1 1 0) [0x13]) (mgmt 0x13 onHello) ∧
    inRing.rxClass (roadFrame (fromTwo true 0 0 1 1 0) [0x14]) = .good ∧
    (mgmt 0x13 onHello).fits inRing (fromTwo true 0 0 1 1 0) (roadFrame (fromTwo true 0 0 1 1 0) [0x14]).body = false := by
  decide +kernel
theorem test_RoadForwards_met :
    (let f := roadFrame (fromZero false 1 4 1) [7]
     let h := fromZero false 1 4 1
     relayTwo.HearsFrame f deliverAny ∧ relayTwo.isDest h = false ∧ relayTwo.isRelay 0 h = true ∧
      relayTwo.deaf 0 = false ∧ relayTwo.dupTest h = .accept ⟨true, 1, 1⟩ ∧
      relayTwo.sys.splitAct.getLsbD 3 = false ∧ (relayTwo.roadHeard f).transitCode 0 h = 0 ∧ relayTwo.portFor 4 = some 1) ∧
    ((relayTwo.roadHeard (roadFrame (fromZero false 1 5 1) [7])).transitCode 0 (fromZero false 1 5 1) = 3) ∧
    (let f := roadFrame (fromZero true 1 0 1) [7]
     relayTwo.bcastOnward f (fromZero true 1 0 1) = true ∧ relayTwo.cellsFree f.body.length = true ∧
      ((if relayTwo.isTailPort f.port then relayTwo.headPorts else relayTwo.tailPorts).filter relayTwo.usable).head? = some 1) ∧
    (let f := roadFrame (fromZero false 1 1 1) [7]
     relayTwo.HearsFrame f deliverAny ∧ relayTwo.isDest (fromZero false 1 1 1) = false ∧
       relayTwo.isRelay 0 (fromZero false 1 1 1) = false) ∧
    (let f := roadFrame (fromZero false 4 2 1) [1]
     relayTwo.HearsFrame f deliverCwyWrite ∧ relayTwo.isDest (fromZero false 4 2 1) = true ∧ relayTwo.p5Out = false ∧ relayTwo.cwy.farq.length = 0 ∧
       ({ relayTwo with cwy.farq := [f.body] } : State).coreRuns = true ∧ (⟨25600, none, 20⟩ : ForeignP).atNs = 25600) := by
  decide +kernel

/-! ### What meets the hypotheses: ch07 -/

/-- A unicast to node 2 and a broadcast. -/
def queued (bcast : Bool) : QFrame := mkQ ((⟨6, bcast, false, true, 1, 0, 2, 1, 5, 9, 1, 0⟩ : RHdr).bytes ++ [7]) none none 0
/-- The port A1 in a state of contention, with a frame. -/
def roadAt (st : TxState) (bcast : Bool) : State :=
  { (inRing.modRoad 0 fun r => { r with st := st, queue := [queued bcast], cur := some (queued bcast) }) with road.open_ := true }
/-- The acknowledgement of that frame with a code. -/
def ackFrame (code : Nat) : RxFrame := { roadFrame ⟨7, false, false, true, 5, 0, 2, 1, 0, 9, 0, code⟩ [] with ts := 12000 }
theorem test_RoadAttempts_met :
    (let s := roadAt .count true
     (s.roadPort 0).st = .count ∧ s.roadHead 0 = some (queued true) ∧ s.before s.svy.until_ = false ∧ s.tre.sync ≠ .free ∧
      s.roadUp = true ∧ s.onGrid = true ∧ (s.roadPort 0).count - idleSlots [] = 0 ∧ s.tre.sync ≠ .muted ∧
      s.roadRoom 0 (s.roadTmi 0 (queued true)) (queued true).body.length = true ∧ s.usable 0 = true ∧
      s.cellsBad (queued true) = []) ∧
    ((RHdr.parse (queued true).body).bcast = true ∧ (RHdr.parse (queued false).body).bcast = false) ∧
    (∀ c ∈ [0, 1, 2, 3, 4], (roadAt .ackwait false).rxClass (ackFrame c) = .good ∧ (roadAt .ackwait false).portUp 0 = true ∧
      ackInTime ((roadAt .ackwait false).roadPort 0).endAt (ackFrame c).ts = true ∧ fcType (ackFrame c).fc = .road ∧
      (RHdr.parse (ackFrame c).body).chan = c ∧ (RHdr.parse (ackFrame c).body).cls = 5 ∧
      (RHdr.parse (ackFrame c).body).src = (RHdr.parse (queued false).body).src ∧
      (RHdr.parse (ackFrame c).body).seq = (RHdr.parse (queued false).body).seq ∧
      (roadAt .ackwait false).roadListens (ackFrame c) = true ∧ (RHdr.parse (ackFrame c).body).srcv = true ∧
      (roadAt .ackwait false).rxClass { ackFrame c with crc := 0 } = .badCrc ∧
      (RHdr.parse (ackFrame c).body).epoch = 1 ∧ (RHdr.parse (queued false).body).epoch = 1) ∧
    ((roadAt .ackwait false).svy.epoch = 1 ∧ (queued false).n + 1 < (roadAt .ackwait false).attempts ∧
      ((roadAt .ackwait false).setReg Reg.ROAD_MAC 0x00010000).attempts ≤ (queued false).n + 1) := by decide +kernel
/-- Slots 0 to 9 of a window, busy in slot 4 for its first 2 us: its carrier sense holds into slot 6, so seven are idle. -/
theorem test_roadSlots :
    idleSlots [(List.replicate 10 none).set 4 (some 2000)] = 7 ∧ threeIdle [(List.replicate 10 none).set 4 (some 2000)] = true ∧
    threeIdle [(List.replicate 10 none).set 6 (some 2000)] = false := by decide +kernel
theorem test_RoadServes_met :
    up.coreRuns = true ∧ inRing.windowEmpty = false ∧ State.windowEmpty { inRing with tre.eff := 64 } = true ∧
    (State.reset.txSize = 0) ∧
    (let s := State.reset.setReg Reg.ROAD_TXSIZE 0x1000
     s.txSize ≠ 0 ∧ s.part 1 = .inService ∧ s.accesses .control true Reg.ROAD_TXWP = true ∧
      s.accesses .steward true Reg.ROAD_TXWP = true) ∧
    (inRing.svy.nid ≠ some 2 ∧ inRing.svy.nid = some 0) ∧
    (let s := inRing.setReg Reg.ROAD_CTL 3
     s.regBit Reg.ROAD_CTL 1 = true ∧ s.roadUp = true) ∧
    (((inRing.modRoad 0 fun r => { r with nbrs := [(2, 7)] }).roadPort 0).nbrs = [(2, 7)] ∧ inRing.tre.time = 0) ∧
    (let q : QFrame := { queued false with from_ := some 0, cells := [3, 4] }
     let s := ((inRing.setReg Reg.ROAD_PAUSE 0x00100000).modRoad 0 fun r => { r with pausing := 0x40, queue := [q] })
     (s.roadPort 0).pausing.getLsbD 6 = true ∧ s.roadX.2 < s.cellsHeld 0 6) := by decide +kernel
theorem test_ManagementActs_met :
    keep0.keeper 1 = true ∧
    (let r := tmRecord 3 0 5 (List.replicate 180 4)
     let b := toneMsg 2 0 0 r
     tmTmi (slice b 6 96) = 3 ∧ tmValid inRing.masked (slice b 6 96) = true) ∧
    (let r := tmRecord 8 0 5 (List.replicate 180 4)
     let b := toneMsg 3 0 0 r
     tmTmi (slice b 6 96) = 8 ∧ tmValid inRing.masked (slice b 6 96) = true) ∧
    (let r := tmRecord 3 0 5 (List.replicate 180 4)
     let s := inRing.modPort 0 fun c => { c with slots := vset c.slots 3 r, pending := some ⟨3, 0, 1, none⟩ }
     tmSeq ((s.port 0).slots.getD 3 []) = byteAt (toneMsg 4 0 0 [3, 5]) 7) ∧
    (let r := tmRecord 8 0 5 (List.replicate 180 4)
     let s : State := { inRing with liu.rtm := vset inRing.liu.rtm 0 r, liu.pending := some ⟨8, 0, 1, none⟩ }
     tmSeq (s.liu.rtm.getD (8 - 8) []) = byteAt (toneMsg 4 0 0 [8, 5]) 7) ∧
    ((inRing.roadPort 0).paused = [] ∧ (0x41 : Byte) &&& 0x7F ≠ 0) ∧
    (let s := inRing.modRoad 0 fun r => { r with paused := [(2, 0x42), (4, 1)] }
     (s.roadPort 0).paused = (2, 0x42) :: [(4, 1)] ∧ (0x42 : Byte) ||| 0x41 &&& 0x7F = 0x43 ∧
      (0x42 : Byte) &&& ~~~(0x41 &&& 0x7F) = 2 ∧ (0x42 : Byte) &&& ~~~(0x42 &&& 0x7F) = 0) ∧
    (({ inRing with liu.summaries := [(2, 1, []), (2, 1, []), (2, 0, [])] } : State).summariesOf 2).length = 2 := by decide +kernel

/-! ### What meets the hypotheses: ch07 -/

/-- Both E ports on, with PAUSE, PFC and polling. -/
def ethOn : State := { (up.setReg 0x40060000 0x3B).setReg 0x40070000 0x3B with sys.refok := true }
/-- A frame with a destination, of n bytes and some type. -/
def ethFrame (dst : List Byte) (n : Nat) : EthRx := ⟨dst ++ [2, 0, 0, 0, 0, 7, 0x08, 0] ++ List.replicate (n - 14) 0, true, true, false⟩
theorem test_EtherServes_met :
    (let s := (ethOn.modEth 0 fun c => { c with fd := true })
     s.ethUp = true ∧ s.ethRun = true ∧ s.ethTakes = true ∧ s.pinsReset = false ∧ ({ s with sys.refok := false } : State).ethRun = false ∧ s.coreRuns = true ∧ s.ethCtl 0 1 = true ∧ s.ethCtl 0 4 = true ∧ s.ethCtl 0 5 = true ∧ s.ethCtl 0 3 = true ∧
      s.ethFd 0 = true) ∧
    ((ethFrame [2, 0, 0, 0, 0, 9] 59).bytes.length + 4 = 63 ∧ (ethFrame [2, 0, 0, 0, 0, 9] 60).bytes.length + 4 = 64 ∧
      ethTagged (ethFrame [2, 0, 0, 0, 0, 9] 60).bytes = false ∧ beAt (ethFrame [2, 0, 0, 0, 0, 9] 60).bytes 12 2 ≠ 0x8808) ∧
    (let s := ethOn.modEth 0 fun c => { c with sending := some ⟨3, 0x40, [1], []⟩ }
     (s.ethPort 0).sending = some ⟨3, 0x40, [1], []⟩ ∧ (0x41 : BitVec 7) = srcE (otherE 0)) ∧
    ((ethOn.ethPort 0).mdio = none ∧ (0x80000000#32).getLsbD 31 = true) ∧
    (let s := ethOn.modEth 0 fun c => { c with mdio := some 0x80000000 }
     (s.ethPort 0).mdio = some 0x80000000 ∧ (0x80000000#32).getLsbD 30 = false) ∧
    (let s : State := { ethOn with eth.learnq := [(0x40, 7)], eth.atab := ethOn.eth.atab.set 3 ⟨true, false, 0, 0, 7, 5⟩ }
     (s.eth.atab.get 3).valid = true ∧ (s.eth.atab.get 3).static = false ∧ (s.eth.atab.get 3).hit ≠ s.tre.time ∧ s.atabHit 7 = some 3 ∧
      s.eth.learnq = [(0x40, 7)] ∧ s.accesses .steward false Reg.ETH_LEARNQ_H = true) := by decide +kernel
theorem test_EtherSwitches_met :
    (ethOn.sys.splitAct.getLsbD 4 = false ∧ ethOn.atabHit 7 = none ∧ (ethOn.eth.atab.get 0).valid = false) ∧
    (let b := (ethFrame [2, 0, 0, 0, 0, 9] 60).bytes
     let s (k : BitVec 2) : State := { ethOn with eth.atab := ethOn.eth.atab.set 0 ⟨true, false, k, 5, 0x020000000009, 0⟩ }
     ethGroup b = false ∧ ((s 0).ethLearn (ethMac b 6) (srcE 0)).ethLookup (ethMac b 0) = some (srcE 0) ∧
      ((s 1).ethLearn (ethMac b 6) (srcE 0)).ethLookup (ethMac b 0) = some (srcE (otherE 0)) ∧
      ((s 2).ethLearn (ethMac b 6) (srcE 0)).ethLookup (ethMac b 0) = some 5) ∧
    (let b := (ethFrame [1, 0, 0, 0, 0, 9] 60).bytes
     ethGroup b = true ∧ (ethOn.ethLearn (ethMac b 6) (srcE 0)).ethCtl (otherE 0) 0 = true ∧ ethOn.ethCtl 0 7 = false) := by
  decide +kernel

/-! ### What meets the hypotheses: ch08 -/

theorem test_EventsServe_met :
    (State.reset.bestEvent State.reset.evt.pendC = none) ∧
    (let s : State := { State.reset with evt.pendC := setBit 0 11, evt.pendS := setBit 0 11 }
     s.bestEvent s.evt.pendC = some 11 ∧ s.bestEvent s.evt.pendS = some 11 ∧ s.accesses .control false Reg.EVT_CLAIMC = true ∧
      s.accesses .steward false Reg.EVT_CLAIMS = true) ∧
    (let s : State := { State.reset with evt.last := some 8, evt.lastAny := some 9 }
     s.regBit Reg.EVT_CTL 0 = false ∧ (s.setReg Reg.EVT_CTL 1).regBit Reg.EVT_CTL 0 = true) := by decide +kernel
theorem test_CairnCopies_met :
    ((0xC0000003#32).getLsbD 31 = true ∧ fld (0xC0000003#32) 0 3 = 3 ∧ (State.reset.cnt.get 3).busy = none) ∧
    ((State.cairnRequest 3 true State.reset).cnt.get 3).busy = some true ∧ up.coreRuns = true ∧
    ((State.cairnRequest 3 true State.reset).cnt.get 3).busyAt = State.reset.tre.time := by decide
theorem test_FieldBookServes_met :
    fbOn.regFld Reg.FBK_CTL 16 12 ≠ 0 ∧ fbOn.regBit Reg.FBK_CTL 0 = true ∧ fbOn.fbk.queue.length < 32 ∧
    (let s : State := { fbOn with fbk.queue := List.replicate 32 (fbOn.fbRec 2 0 0) }
     32 ≤ s.fbk.queue.length) ∧
    (let s : State := { fbOn with fbk.folds := [(11, 3, 9)] }
     s.fbk.folds.find? (·.1 == 11) = some (11, 3, 9)) ∧
    (State.stopOrLimp { fbOn with boot.phase := .limp } = true) ∧ fbOn.stopOrLimp = false ∧
    (let s : State := { fbOn with sys.splitAct := 0x200, fbk.queue := [fbOn.fbRec 2 0 0] }
     s.sys.splitAct.getLsbD 9 = true ∧ s.accesses .steward false Reg.FBK_RAW = true) := by decide +kernel
theorem test_FieldBookServes_write_met :
    fbOpen0.fbk.full = false ∧ fbOpen0.sys.splitAct.getLsbD 9 = false ∧ fbOpen0.fbBlocked = false ∧
      fbOpen0.fbk.wipe = none ∧ fbOpen0.fbk.dropped = 0 ∧ fbOpen0.fbk.restored = [] ∧ fbOpen0.fbCur = some 0 ∧
      fbOpen0.fbFill 0 < 127 ∧ fbOpen0.fbRoom = true := by decide +kernel
/-- A writer with a sector to open and a loss to report; and a wipe. -/
theorem test_FieldBookServes_open_met :
    (fbOn.fbBlocked = false ∧ fbOn.fbRoom = false ∧ fbOn.fbClean fbOn.fbTarget = true ∧ fbOn.coreRuns = true ∧
      (let s := State.flashAndBytes (fbBase 1) [0] fbOn
       s.fbBlocked = false ∧ s.fbRoom = false ∧ s.fbClean s.fbTarget = true ∧ s.fbReady.fbBlocked = true)) ∧
    (let s : State := { fbOpen0 with fbk.dropped := 5 }
     s.fbReady.fbBlocked = false ∧ s.fbReady.fbRoom = true ∧ s.fbReady.fbHead = some (s.fbReady.fbRec 6 0 5) ∧
      s.fbLoss = true) ∧
    (let s : State := { fbOn with fbk.wipe := some 64 }
     s.fbBlocked = false ∧ s.fbHead = some (s.fbRec 7 0 0)) := by decide +kernel

/-! ### What meets the hypotheses: ch09 -/

/-- A program in a state, native, its entries in its code section, on the control core. -/
def prog (p : ProgState) : State := { up with
  ctl.pstate := p, ctl.native := !up.ctl.native, ctl.entryCycle := 0x10011000, ctl.entryError := 0x10012000
  ctl.pmp := [(0x10010000, 0x1000, 5), (0x10020000, 0x1000, 3)] }
/-- Its cycle runs. -/
def cycling : State := { prog .run with ctl.running := true, ctl.sinceOwn := 4 }
/-- The handshake has passed and the boot is over. -/
def handshaken : State := { up with boot.hsst := true, boot.hsrt := true, boot.phase := .done }
theorem test_RunRequested_met :
    (handshaken.progBusy = false ∧ handshaken.sys.parts.get 2 = .inService ∧ handshaken.handshake = true ∧
      handshaken.sp.walk = false ∧ handshaken.boot.phase ≠ .limp ∧
      handshaken.inwaitUs + handshaken.outguardUs + 100 < handshaken.runCycleUs ∧ handshaken.slotValid handshaken.slotSel = false) ∧
    (let s := { handshaken with ctl.cyccfg := 0x00FFFF00 }
     s.runCycleUs ≤ s.inwaitUs + s.outguardUs + 100 ∧ (after (.runRequest .autorun) s).ctl.fault = 0x0925) ∧
    (let s := { handshaken with boot.validA := true }
     s.slotValid s.slotSel = true ∧ BitVec.ofNat 32 (s.flashLe (slotBase s.slotSel + 0x2C) 4) ≠ s.boot.rtver) ∧
    (let s := { handshaken with
      boot.validA := true, boot.rtver := 0xFFFFFFFF, ctl.pstate := .faultstop
      mem.gates := handshaken.mem.gates.set 5 ⟨1, false⟩ }
     BitVec.ofNat 32 (s.flashLe (slotBase s.slotSel + 0x2C) 4) = s.boot.rtver ∧
      (after (.runRequest .runctl) s).ctl.pstate = .load ∧ (after (.runRequest .runctl) s).gate 5 = ⟨0, true⟩) ∧
    (prog .load).progBusy = true := by decide +kernel
theorem test_ProgramFaults_met :
    ((prog .load).ctl.pstate = .load ∧ ((prog .load).desc (slotBase (prog .load).ctl.slotrun)).ok
      ((prog .load).flashLe (slotBase (prog .load).ctl.slotrun + 0x10) 4) = false) ∧
    ((prog .init).ctl.native = true ∧ (prog .init).progActive = true ∧ (prog .stop).progActive = false) ∧
    (cycling.ctl.running = true ∧ cycling.coreRuns = true ∧ cycling.wdogN ≤ cycling.ctl.sinceOwn ∧ cycling.ctl.overran = false ∧ cycling.ovrstop = false ∧
      cycling.ctl.pstate = .run ∧ ({ cycling with ctl.cyccfg := 1 } : State).ovrstop = true) ∧
    ((after .outputDeadline cycling).ctl.pstate = .run ∧ (after .outputDeadline { cycling with ctl.cyccfg := 1 }).ctl.fault = 0x0921 ∧
      (after (.programFault 2 0x10011004) cycling).ctl.fault = 0x0902 ∧ (after .cycleWatchdog cycling).ctl.pstate = .faultstop) := by
  decide +kernel
/-- A slot whose descriptor has one code and one data section, no itinerary; the last entry of the PMP is locked. -/
def slotted : State := { State.flashAndBytes 0x100010 [0, 0, 1, 0] (State.flashAndBytes 0x100100
  ([0x50, 0x47, 0x4D, 0x31, 1, 2, 0, 0] ++ leBytes 4 0x10010000 ++ leBytes 4 0x10010010 ++ leBytes 4 0 ++ leBytes 4 0x10020800 ++
    leBytes 4 0x10020010 ++ leBytes 4 0x10 ++ leBytes 4 0x10020000 ++ leBytes 4 0 ++ leBytes 4 7 ++ List.replicate 20 0 ++
    leBytes 4 0x200 ++ leBytes 4 0x10010000 ++ leBytes 4 0x20 ++ leBytes 4 1 ++
    leBytes 4 0 ++ leBytes 4 0x10020000 ++ leBytes 4 0x20 ++ leBytes 4 6) (prog .load)) with
  ctl.native := false, ctl.hartC.csrs := [(0x3A1, 0x80000000)] }
theorem test_ProgramLoads_met :
    ((slotted.desc 0x100000).ok (slotted.flashLe 0x100010 4) = true ∧ (slotted.desc 0x100000).itin = false ∧
      slotBase slotted.ctl.slotrun = 0x100000 ∧ (slotted.desc 0x100000).native = true) ∧
    (let t := after .loadComplete slotted
     t.ctl.pstate = .init ∧ t.ctl.hartC.pc = 0x10010000 ∧ t.ctl.hartC.x.get 2 = 0x10020010 ∧ t.ctl.hartC.x.get 11 = 0x1007FF00) ∧
    ((prog .init).ctl.stopReq = false ∧ ({ prog .init with ctl.stopReq := true } : State).ctl.stopReq = true) ∧
    ((after (.initReturn 0) (prog .init)).ctl.pstate = .run ∧
      (after (.initReturn 0) { prog .init with ctl.stopReq := true }).ctl.pstate = .stop) ∧
    (cycling.ctl.waiting = false ∧ cycling.ctl.inError = false ∧ cycling.lane.state = .off ∧
      (after (.cycleReturn 0x80000001 70000 []) cycling).ctl.lastus = 0xFFFF ∧
      (after (.cycleReturn 0x80000001 70000 []) cycling).tre.commit = false ∧
      (after (.cycleReturn 0x80000001 70000 []) cycling).lane.go = true ∧
      (after (.cycleReturn 0x80000001 70000 []) cycling).ctl.stopReq = true) ∧
    (let s := { cycling with ctl.waiting := true, ctl.pendcause := 4 }
     s.ctl.entryError ≠ 0 ∧ (after (.inputImageRelease []) s).ctl.hartC.pc = 0x10012000 ∧
      (after (.inputImageRelease []) { s with ctl.pendcause := 0 }).ctl.hartC.pc = 0x10011000) := by decide +kernel
theorem test_LatchWhileRunning_met :
    cycling.latchDue = true ∧ cycling.ctl.stopReq = false ∧ (after .latchInstant cycling).ctl.skipped = 1 ∧
    (after .latchInstant (prog .run)).ctl.running = true ∧ (prog .run).ctl.running = false ∧ (prog .run).latchDue = true := by
  decide +kernel
/-- A program with its rings in its data section, one record in ring 0. -/
def ringed : State := State.putWord 0x10020100 0x00000008 ({ (((((((prog .run).setReg Reg.ROAD_TXBASE 0x10020200).setReg Reg.ROAD_TXSIZE 0x40).setReg
  Reg.ROAD_TXWP 0x10020200).setReg Reg.ROAD_RXBASE 0x10020100).setReg Reg.ROAD_RXSIZE 0x40).setReg Reg.ROAD_RXRP 0x10020100).setReg Reg.FBK_CTL 1 with
  road.rxwp := vset State.reset.road.rxwp 0 0x10020108, wlv.state := .active } : State)
theorem test_ServicesAnswer_met :
    (ringed.track = false ∧ (prog .run).track = true ∧ ringed.regBit Reg.FBK_CTL 0 = true ∧ ringed.fbk.queue.length < 32) ∧
    (let f : State := { ringed with fbk.queue := List.replicate 32 (ringed.fbRec 1 0 0) }
     f.track = false ∧ (after (.fbUser 1 2) f).ctl.hartC.x.get 10 = 0xFFFFFFFB) ∧
    (ringed.userMay false 0x10020000 8 = true ∧ ringed.userMay false 0x10030000 8 = false ∧ (ringed.gate 31).owner = 0 ∧
      (let u := (ringed.trapFree 8 0).setGate 31 ⟨1, false⟩
       u.coreBad 0x10020000 8 = none ∧ (u.coreReads (wordsOf 0x10020000 8)).txPlace 8 = some (0x10020200, false) ∧
       u.coreBad 0x10020000 800 = none ∧ (u.coreReads (wordsOf 0x10020000 800)).txPlace 800 = none) ∧
      (after (.roadSend 0x10020000 8) ringed).ctl.hartC.x.get 10 = 0 ∧ (after (.roadSend 0x10020000 8) ringed).gate 31 = ⟨0, false⟩) ∧
    (let g := ringed.setGate 31 ⟨2, false⟩
     (g.gate 31).owner ≠ 0 ∧ (g.gate 31).owner ≠ 1 ∧ (after (.roadSend 0x10020000 8) g).ctl.hartC.x.get 10 = 0xFFFFFFFC) ∧
    (ringed.rxSize 1 = 0 ∧ ringed.reg (Reg.ROAD_RXRP + 0x10 * 0) = 0x10020100 ∧ ringed.rxBase 0 ≤ 0x10020100 ∧
      0x10020100 < ringed.rxBase 0 + ringed.rxSize 0 ∧ 0x10020100 ≠ ringed.rxPos 0 ∧ (ringed.trapFree 8 0).recLen 0x10020100 = 8 ∧ (ringed.trapFree 8 0).coreBad 0x10020100 8 = none ∧
      ringed.userMay true 0x10020000 8 = true ∧ (after (.roadRecv 0 0x10020000 8) ringed).ctl.hartC.x.get 10 = 8 ∧
      (after (.roadRecv 0 0x10020000 8) ringed).reg Reg.ROAD_RXRP = 0x10020108) ∧
    (let g := (ringed.setGate 3 ⟨2, false⟩).setGate 4 ⟨1, true⟩
     (g.gate 3).owner ≠ 0 ∧ (g.gate 3).owner ≠ 1 ∧ (g.gate 4).owner = 1 ∧ (g.gate 5).owner = 0 ∧
      (after (.gateTry 5) (g.setGate 5 ⟨0, true⟩)).ctl.hartC.x.get 11 = 1) ∧
    (let s := ringed.setQueue 2 { items := [7, 8], refused := 0 }
     (s.queue 2).items = 7 :: [8] ∧ (s.queue 3).items = [] ∧ (s.queue 2).items.length < 16 ∧
      (after (.queuePop 2) s).ctl.hartC.x.get 11 = 7 ∧ (after (.queuePop 3) s).ctl.hartC.x.get 10 = 0xFFFFFFFB) ∧
    (let s := ringed.setQueue 2 { items := List.replicate 16 7, refused := 0 }
     16 ≤ (s.queue 2).items.length ∧ (after (.queuePush 2 9) s).evt.raw.getLsbD 239 = true) := by decide +kernel

/-! ### What meets the hypotheses: ch10 -/

/-- An entry on the signal words, its enable signal word 9. -/
def entryAt (en : BitVec 2) (in0 in1 : Half) : Entry := ⟨3, en, 0, 9, in0, in1, 0xF000, 5, 0xF000, 0⟩
theorem test_EntriesRun_met :
    (State.reset.coreRuns = true ∧ State.reset.enabled (entryAt 0 0x6007 1) = some true ∧ State.reset.entryReadable bAdd (entryAt 0 0x6007 1) = true) ∧
    (State.reset.enabled (entryAt 2 0 1) = some true ∧ State.reset.enabled (entryAt 1 0 1) = some false) ∧
    (let s : State := State.setErr 0x20000024 (some .poison) State.reset
     s.enabled (entryAt 1 0 1) = none ∧ s.entryReadable bAdd (entryAt 0 9 1) = false) ∧
    (let s : State := { State.reset with
      itn.table := [(0x11, { entryAt 1 0 1 with skip := 1 }), (0x11, entryAt 0 0 1), (0x11, entryAt 0 0 1)], itn.erridx := 3 }
     let w : State := { s with sp.walk := true, sp.pend := true, sp.until_ := 2 }
     s.itn.table[0]? = some (0x11, { entryAt 1 0 1 with skip := 1 }) ∧
     (s.runMain State.serve []).itn.skipped = 2 ∧ (s.runMain State.serve []).itn.ran = 1 ∧
     (w.runMain State.serve []).sp.met = true ∧ (w.runMain State.serve []).itn.at_ = some 2) := by decide +kernel
theorem test_blocks_met :
    (let x : BlkIn := ⟨0x7FFFFFFF, 1, 1, [], 0, 1, 0, 0, 0⟩
     (bAdd.fn x).y = some 0x7FFFFFFF ∧ (bAdd.fn x).sat = true ∧ (bDiv.fn { x with b := 0 }).divz = true) ∧
    (let x : BlkIn := ⟨0x80000000, 0xFFFFFFFF, 5, [], 0, 1, 0, 0, 0⟩
     (bDiv.fn x).y = some 0x7FFFFFFF ∧ (bDiv.fn x).sat = true ∧ (bMod.fn x).y = some 0 ∧
      x.b.toInt ≤ x.c.toInt) ∧
    (let x : BlkIn := ⟨0x00018000, 0x00018000, 0, [], 0, 1, 0, 0, 0⟩
     (bQmul.fn x).y = some 0x00024000 ∧ (bQmul.fn x).sat = false ∧ (bQ2i.fn x).y = some 2 ∧
      (bQsqrt.fn { x with a := 0x00020000 }).y = some 0x00016A09) ∧
    (let x : BlkIn := ⟨5, 0, 0, [10, 20, 0, 7, 9, 0, 0, 0], 3, 1, 0, 0, 0⟩
     x.i 3 ≤ x.i 4 ∧ x.i 0 ≤ x.i 1 ∧ x.i 2 ≤ x.a.toInt) ∧
    (let x : BlkIn := ⟨5, 0, 0, [2, 10, 11, 12, 13], 3, 1, 0, 0, 0⟩
     x.i 0 = 2 ∧ x.i 1 < x.i 3 ∧ x.a.toInt ≤ x.i 1 ∧ (bLin.fn x).y = some 11 ∧ (bLin.fn { x with a := 11 }).y = some 12 ∧
      (bLin.fn { x with a := 12 }).y = some 13) ∧
    (let x : BlkIn := ⟨5, 0, 0, [10, 3, 0, 7], 3, 1, 0, 0, 0⟩
     (bTon.fn x).y = some 0 ∧ (bTon.fn x).z = some 6 ∧ (bTon.fn { x with dt := 7 }).y = some 1 ∧
      (bCtu.fn x).z = some 4 ∧ (bCtd.fn x).z = some 2) := by decide +kernel
theorem test_SignalWritten_met :
    (let s := State.reset
     let e := entryAt 0 0x6007 0x6005
     e.out0 = BitVec.ofNat 16 5 ∧ s.mem.errs = [] ∧ (bSub.fn (s.entryIn bSub e)).y = some 2 ∧
      (bSub.fn (s.entryIn bSub e)).z = none ∧ (bSub.fn (s.entryIn bSub e)).sat = false ∧ s.entryReadable bSub e = true ∧
      (s.entryResult bSub e).seqWord 0x20000014 = some 2) := by decide +kernel

/-! ### What meets the hypotheses: ch11 -/

/-- A Lane of two stations with four output and two input bytes, in a state. -/
def laneAt (st : LaneState) (perm : Bool) : State := { ((((up.setReg Reg.LANE_CTL 1).setReg Reg.LANE_CFG 0x02050101).setReg Reg.LANE_ST 0x00040200).setReg
  (Reg.LANE_ST + 4) 0x00040200) with
  lane.enabled := true, lane.perm := perm, lane.state := st, lane.configured := 3 }
/-- The collect pass of such a Lane as it comes back: station 0 valid, station 1 not written. -/
def collected (crc : Half) (istat : Byte) : List Byte :=
  laneFrame 1 false false 0 0 [[0, 6] ++ [0, 0, 0, 0] ++ beBytes 2 (crc16 (0 :: [0, 6, 0, 0, 0, 0])).toNat ++ [istat, 5, 6] ++
    beBytes 2 (crc.toNat), laneSlot 0 false false 1 [0, 0, 0, 0] 2]
theorem test_LanePasses_met :
    ((laneAt .run true).laneDe = true ∧ (laneAt .turned true).laneDe = true ∧ (laneAt .run true).laneSends = true ∧
      (laneAt .turned true).laneSends = true ∧ (laneAt .run true).laneLoop = false ∧ (laneAt .run true).lane.turnNext = none ∧
      (laneAt .listen false).laneSends = false) ∧
    ((after (.applyMark #v[0, 0]) (laneAt .run true)).out = [.laneMark false (applyBytes true false 5)] ∧
      (let t := after (.applyMark #v[0, 0]) { laneAt .run true with lane.stopping := true, sys.ownOutN := false }
       t.lane.state = .off ∧ t.lane.perm = false ∧ t.sys.ownOutN = true)) ∧
    (after .collectPass (laneAt .run true)).out.length = 1 ∧ (after .deliverPass (laneAt .turned true)).out.length = 2 ∧
    (let s := after .collectPass (laneAt .run true)
     let f : LaneRx := ⟨true, collected (crc16 [0, 0x80, 5, 6]) 0x80, 0, []⟩
     (LHdr.parse f.bytes).cnt = 0 ∧ (LHdr.parse f.bytes).type = 1 ∧ (LHdr.parse f.bytes).dir = false ∧
      s.lane.pass = some ⟨false, false, 0, 1, 1, [], 0⟩ ∧ (after (.lanePassReturn f) s).lane.accepted = 1 ∧
      (after (.lanePassReturn f) s).lane.pass = none ∧ (after (.lanePassReturn { f with bad := [14] }) s).lane.accepted = 0 ∧
      (after (.applyMark #v[0, 1600]) s).lane.loss = #v[false, true] ∧ s.coreRuns = true ∧ (after .lanePassLate s).lane.turnNext = some true) ∧
    (let s := after .deliverPass (laneAt .run true)
     s.lane.pass = some ⟨true, false, 0, 1, 1, [], 0⟩ ∧ (after .lanePassLate s).lane.delivered = true) ∧
    (let s := laneAt .listen false
     let f : LaneRx := ⟨true, laneFrame 1 false true 7 0 [laneSlot 7 false false 1 [9, 8, 7, 6] 2], 0, []⟩
     (after (.heardPass { f with onL2 := false }) s).lane.delivered = false ∧ (after (.heardPass f) s).lane.delivered = true ∧
      (LHdr.parse f.bytes).deliver = true ∧ (LHdr.parse f.bytes).hcrcOk = true ∧
      (s.rxSlots (LHdr.parse f.bytes) f).map (fun x => (x.ocrcOk, x.par, x.pos, x.out)) = [(true, false, 1, [9, 8, 7, 6])] ∧
      (after (.heardPass f) s).bytesAt 0x400B9C20 4 = [9, 8, 7, 6] ∧
      (let g : LaneRx := ⟨false, laneFrame 1 false true 7 0 [(laneSlot 7 false false 1 [9, 8, 7, 6] 2).set 2 0], 0, []⟩
       (after (.heardPass g) s).evt.raw.getLsbD 200 = true ∧ (after (.heardPass g) s).lane.heardOut = 0)) := by decide +kernel
theorem test_LaneStates_met :
    (let s := laneAt .off false
     let big : State := { s.setReg Reg.LANE_CFG 0x02050F01 with lane.enabled := false }
     big.laneFits = true ∧ ({ s with lane.enabled := false } : State).laneFits = false ∧ big.sys.parts.get 3 = .inService ∧
      (after .laneEnable big).lane.state = .listen ∧ (after .laneEnable { s with lane.enabled := false }).lane.enabled = false) ∧
    ((laneAt .start true).laneStarts = true ∧ ((laneAt .fail true).setReg Reg.LANE_CFG 0x02050F01).laneFits = true ∧
      (laneAt .fail true).laneFits = false ∧ (laneAt .start true).lane.configured ≠ 0) ∧
    (let s := after .identPass (laneAt .start true)
     s.out.length = 1 ∧ s.lane.pass.map (·.copies) = some 1) ∧
    (let s := { laneAt .start true with lane.step := 1, lane.accepted := 3 }
     s.lane.accepted.getLsbD 1 = true ∧ (after (.rangePass 1 true (some 1400)) s).lane.rtt2.get 1 = some 1400 ∧
      (after .configPass s).lane.step = 2) ∧
    ((after .startTimeout { laneAt .start true with lane.configured := 0 }).lane.state = .fail) ∧
    (let s := { laneAt .run true with lane.subWait := true, lane.present := 1 }
     s.missing &&& s.lane.present ≠ 0 ∧ s.ctl.running = false ∧ (after (.laneSubdone []) s).lane.miss = 3 ∧
      (after (.laneSubdone []) s).evt.raw.getLsbD 193 = true) := by decide +kernel

/-! ### What meets the hypotheses: ch12 -/

theorem test_HeartbeatServes_met :
    (let s : State := { up with wlv.hbRuns := true, wlv.hbok := true }
     s.coreRuns = true ∧ s.wlv.hbRuns = true ∧ s.bankOn 3 = true ∧ s.pinsReset = false ∧ s.accesses .service false Reg.WLV_REQQ = true ∧ s.sys.phase = .running ∧ s.wlv.hbok = true) ∧
    (({ up with sys.phase := .warmHeld } : State).sys.phase ≠ .running ∧ up.wlv.hbok = false ∧ up.wlv.hbRun < 2 ∧ ({ up with wlv.hbRun := 2 } : State).wlv.hbRun = 2) ∧
    (let s : State := { up with sys.ownOutN := false, sys.peerOwnN := true }
     s.wlv.claimed = false ∧ s.peerOwn = false) ∧
    (let s : State := { up with sys.ownOutN := false, sys.peerOwnN := false }
     s.peerOwn = true ∧ (if s.wlv.hbok then !s.epref else s.unitB) = false) ∧
    (let s : State := { up with sys.ownOutN := false, sys.peerOwnN := false, wlv.hbok := true, sys.straps.pref := false,
                                wlv.peerPref := true }
     s.peerOwn = true ∧ (if s.wlv.hbok then !s.epref else s.unitB) = true) ∧
    (let s : State := { up with lane.perm := true, sys.peerOwnN := false, wlv.claimed := true, wlv.state := .active,
                                svy.epoch := 1 }
     s.peerOwn = true ∧ s.wlv.ovr = false ∧ s.wlv.il = false) ∧
    (let s : State := { up with sys.peerOwnN := false, wlv.byteMe := true, wlv.state := .standby }
     s.peerOwn = true ∧ s.wlv.hbok = false ∧ s.wlv.state ≠ .blocked) := by decide +kernel
theorem test_WayleaveServes_met :
    (let s : State := { up with wlv.state := .standby, wlv.left := 2 }
     s.wlv.held = false ∧ s.wlv.shots = [] ∧ s.wlv.renewed = false ∧ 1 < s.wlv.left.toNat) ∧
    (let s : State := { up with sys.netrole := .benchmark, sys.splitAct := 0x20 }
     s.sys.splitAct.getLsbD 5 = true ∧ s.wlv.bcommit = false ∧ s.wlv.late = false) ∧
    (let s : State := { up with wlv.drillCheck := some (15, true), wlv.drillWait := some 8, wlv.rev := 3600 }
     s.drillT ≤ 15 ∧ s.revHold ≤ s.wlv.rev.toNat ∧ s.wlv.revrdy = false) ∧
    (let s : State := { up with wlv.askedAgo := 64, wlv.asked := 1 }
     s.svy.nid = none ∧ s.wlv.asked ≠ 0 ∧ inRing.svy.nid = some 0 ∧ inRing.sys.netrole ≠ .benchmark) := by decide +kernel

/-! ### What meets the hypotheses: ch13 -/

/-- Channel 0 of a running engine in a state: GATE 3, a linear copy of 6 bytes within SRAM. -/
def chan (st : DmaState) (ctrl next : Word) : State :=
  ((up.setReg Reg.DMA_CTL 1).setReg Reg.DMA_CHCTL 1).setDch 0 { (up.dch 0) with
    state := st, fetched := 8, cur := 0x10080000
    desc := #v[ctrl, 0x10080100, 0x10080202, 6, 0, 0, 0, next] }
/-- The write beats such a channel waits for. -/
def beat1 (bad : Bool) : DmaWr := ⟨0x10080202, [1, 2], bad, some [0, 0]⟩
theorem test_DmaServes_met :
    (((chan .idle 0 0).reg (Reg.chctl 0 + 4)).toNat % 32 = 0 ∧ (chan .idle 0 0).dch 0 = { up.dch 0 with fetched := 8, cur := 0x10080000, desc := ((chan .idle 0 0).dch 0).desc } ∧
      (((chan .idle 0 0).setReg (Reg.chctl 0 + 4) 0x10080004).reg (Reg.chctl 0 + 4)).toNat % 32 ≠ 0 ∧
      ((after (.dmaGo 0 3) (chan .idle 0 0)).dch 0).state = .fetch ∧
      ((after (.dmaGo 0 3) ((chan .idle 0 0).setReg (Reg.chctl 0 + 4) 0x10080004)).dch 0).state = .error ∧
      ((after (.dmaGo 0 3) (chan .run 0 0)).dch 0).goign = true) ∧
    (((chan .run 0 0).chctl 0).getLsbD 0 = true ∧ (chan .run 0 0).regBit Reg.DMA_CTL 0 = true ∧
      ((after (.dmaDisable (some 0)) ((chan .run 0 0).setGate 3 ⟨dmaCode 0, false⟩)).gate 3) = ⟨0, true⟩ ∧
      ((after (.dmaDisable none) (chan .run 0 0)).dch 5).state = .stopping) ∧
    (let ok (c : Word) := ((chan .fetch c 0).dch 0).valid (decide (((chan .fetch c 0).gate ((chan .fetch c 0).dch 0).gateNo).owner = dmaCode 0))
     ok 0 = true ∧ ok 1 = false ∧ ok 0x08300000 = true ∧ ok 0x20000000 = true) ∧
    (((after (.dmaFetchDone 0) (chan .fetch 0 0)).dch 0).state = .run ∧ ((after (.dmaFetchDone 0) (chan .fetch 1 0)).dch 0).err = 1 ∧
      ((after (.dmaFetchDone 0) (chan .fetch 0x08300000 0)).dch 0).state = .gatewait ∧
      ((after (.dmaFetchDone 0) (chan .fetch 0x20000000 0)).dch 0).state = .trigwait) ∧
    (let s := chan .gatewait 0x0A300000 0
     (s.dch 0).gateNo = 3 ∧ (s.gate 3).owner = 0 ∧ (s.gate 3).broken = false ∧ (s.dch 0).ctrl 25 = true ∧
      (after (.dmaGateAcquire 0) s).gate 3 = ⟨dmaCode 0, false⟩ ∧
      ((after (.dmaGateAcquire 0) (s.setGate 3 ⟨0, true⟩)).dch 0).err = 6 ∧
      ((s.setGate 3 ⟨1, false⟩).gate 3).owner ≠ dmaCode 0) ∧
    (trigSelects ((chan .idle 0 0).chctl 0) (.event 0) = true ∧ trigSelects ((chan .idle 0 0).chctl 0) (.strobe 0) = false) ∧
    (let s (st : DmaState) (next : Word) (l : List DmaWr) := (chan st 0 next).setDch 0 { (chan st 0 next).dch 0 with outst := l }
     ((after (.dmaWriteResponse 0) (s .run 0 [beat1 false, beat1 false])).dch 0).cnt = 2 ∧
      ((after (.dmaWriteResponse 0) (s .wresp 0 [beat1 false])).dch 0).cnt = 6 ∧
      ((after (.dmaWriteResponse 0) (s .wresp 0x10080040 [beat1 false])).dch 0).cur = 0x10080040 ∧
      ((after (.dmaWriteResponse 0) (s .wresp 0 [beat1 true])).dch 0).err = 5 ∧
      (((s .wresp 0x10080040 [beat1 false]).dch 0).word 7).toNat % 32 = 0) := by decide +kernel
/-- Such a channel in RUN, with bytes to read, or with bytes to write. -/
def copying (buf : List Byte) : State :=
  State.putWord 0x10080100 0x04030201 ((chan .run 0 0).setDch 0 { (chan .run 0 0).dch 0 with
    s := DmaSide.start 0x10080100 false 6 1, d := DmaSide.start 0x10080202 false 6 1, toRead := 6 - buf.length, buf := buf
    chunk := 6 - buf.length })
theorem test_DmaCopies_gap :
    (let s := copying []
     let h : State := s.setDch 0 { s.dch 0 with s := DmaSide.start 0x20000000 false 6 1 }
     s.dmaWaits 0 = false ∧ h.dmaWaits 0 = true ∧ h.coreRuns = true ∧ (h.dmaGapBeat 0).itn.passcyc = 2) ∧
    (let s : State := { copying [] with cwy.buf := [⟨0, false, 0, 0x10080000, 0xF, 7, false⟩] }
     s.localPending = true ∧ (after .dmaBeat s).localPending = false ∧ (after .dmaBeat s).wordAt 0x10080000 = 7) := by decide +kernel
theorem test_DmaCopies_met :
    ((copying []).coreRuns = true ∧ (copying []).localPending = false ∧ (copying []).dmaOn = true ∧ (copying []).dmaGrant = some (0, 0) ∧ ((copying []).dch 0).type = 0 ∧ ((copying []).dch 0).chunk = 6 ∧
      (copying []).readErr (.dma 0) 0x10080100 (beatBe 0x10080100 4) = none ∧ (memRegion? 0x10080100).isSome = true ∧
      ((after .dmaBeat (copying [])).dch 0).buf = [1, 2, 3, 4] ∧ (up.setReg Reg.DMA_CTL 0).dmaOn = false) ∧
    (let s := copying [1, 2, 3, 4, 5, 6]
     s.dmaGrant = some (0, 0) ∧ (s.dch 0).chunk = 0 ∧ beatSize 0 0x10080202 6 = 2 ∧ s.writeErr (.dma 0) 0x10080200 = none ∧
      s.mem.errs = [] ∧ s.regBit Reg.MEM_INJECT 31 = false ∧ s.txSize = 0 ∧
      (after .dmaBeat s).bytesAt 0x10080200 4 = [0, 0, 1, 2] ∧ ((after .dmaBeat s).dch 0).buf = [3, 4, 5, 6]) := by decide +kernel

/-! ### What meets the hypotheses: ch14 -/

/-- Window 1 onto SRAM (PEEK), window 2 remote to node 2, window 3 disabled, on a ring of which this is node 0. -/
def hostUp : State := { (((((((((inRing.modPort 1 fun c => { c with enabled := true, state := .locked }).modPort 3 fun c => { c with enabled := true, state := .locked }).setReg Reg.CWY_CTL 1).setReg (Reg.wctl 1) 0x90000000).setReg (Reg.wbase 1) 0x10080000).setReg (Reg.wctl 2) 0xC0000002).setReg
  (Reg.wbase 2) 0x10080000).setReg (Reg.wctl 4) 0x80000000).setReg (Reg.wbase 4) 0x10080000).putWord 0x10080100 0x44332211 with
  svy.nidtab := vset inRing.svy.nidtab 2 0x80000000, road.open_ := true }
def at_ (w ofs : Nat) : HostAddr := ⟨BitVec.ofNat 16 (4096 * w + ofs), false, 0⟩
/-- An entry of window 2, or of window 4. -/
def posted (remote : Bool) : CwyEntry := ⟨if remote then 2 else 4, remote, 2, 0x10080200, 0x3, 0xBEEF, false⟩
theorem test_CausewayServes_met :
    (hostUp.pinsReset = false ∧ hostUp.accesses .control false Reg.CWY_LOG0 = true ∧ ((hostUp.portFor 2).any fun p => (hostUp.roadPort p).queue.isEmpty) = true ∧
      (State.setReg Reg.CWY_CTL 3 hostUp).hostPar 0x4433 false = some 3) ∧
    (hostUp.cwy.waiting = none ∧ hostUp.sys.parts.get 5 = .inService ∧ hostUp.hostGate (at_ 1 0x102) = .go ∧ hostUp.hostGate (at_ 2 0) = .go ∧
      hostUp.hostGate (at_ 3 0) = .windowOff ∧ up.regBit Reg.CWY_CTL 0 = false ∧ (hostUp.hostAcc (at_ 1 0x102)).peek = true ∧ (hostUp.hostAcc (at_ 2 0)).remote = true ∧
      hostUp.readErr .causeway 0x10080100 (lanesBe (hostUp.hostAcc (at_ 1 0x102)).lanes) = none ∧ hostHalf (at_ 1 0x102) = true ∧
      (after (.hostRead (at_ 1 0x102)) hostUp).out = [.hostData 0x4433 none]) ∧
    ((after (.hostWrite (at_ 4 0x202) 0xBEEF 0) hostUp).cwy.buf.map (fun e => (e.addr, e.be, e.data)) = [(0x10080200, 0xC, 0xBEEF0000)] ∧
      (after (.hostWrite (at_ 4 0x202) 0xBEEF 0) { hostUp with cwy.buf := List.replicate 32 (posted true) }).cwy.waiting =
        some (hostUp.hostAcc (at_ 4 0x202), some (0xBEEF, 0))) ∧
    (let s : State := { hostUp with cwy.buf := [posted true, posted false] }
     s.localPending = true ∧ s.txSize = 0 ∧ s.writeFails .causeway 0x10080200 3 0xBEEF = none ∧ (memRegion? 0x10080200).isSome = true ∧
      (after .localWriteResponse s).bytesAt 0x10080200 4 = [0xEF, 0xBE, 0, 0] ∧ (after .localWriteResponse s).cwy.buf = [posted true] ∧
      s.framePending 2 = posted true :: [] ∧ s.present 2 = true ∧ (s.portFor 2).isSome = true ∧
      ((after (.frameBuild 2) s).cwyWin 2).flight = some ([posted true], false)) ∧
    (let s : State := hostUp.modWin 2 fun c => { c with flight := some ([posted true], true), fseq := 1 }
     ((after (.doneTimeout 2) s).cwyWin 2).flight = none ∧ ((after (.doneTimeout 2) s).cwy.log.map fun e => fld e.w0 8 8) = [0x23] ∧
      (after (.cwyLogPop .control) (after (.doneTimeout 2) s)).cwy.log = []) ∧
    ((after .hostWaitTimeout { hostUp with cwy.waiting := some (hostUp.hostAcc (at_ 4 0), none) }).cwy.waiting = none) ∧
    (let s : State := { hostUp with cwy.buf := [posted false], cwy.waiting := some (hostUp.hostAcc (at_ 1 0x102), none) }
     (after .localWriteResponse (s.setReg (Reg.wbase 1) 0)).out = [.hostData 0x4433 none] ∧ s.coreRuns = true) ∧
    (after .testlog hostUp).cwy.log.length = 1 := by decide +kernel

/-! ### What meets the hypotheses: mem1 -/

theorem test_GatesServe_met :
    (∀ a ∈ [Reg.at Reg.GATE_TRY 3, Reg.at Reg.GATE_REL 3, Reg.at Reg.GATE_FORCE 3], ∀ w,
      State.reset.accesses .control w a = true ∧ State.reset.accesses .steward w a = true) ∧
    ((State.reset.gate 3).owner = 0 ∧ gateAccepts (masterCode .control) 3 = true ∧
      gateAccepts (masterCode .causeway) 31 = false) ∧
    (let s := State.setGate 3 ⟨2, true⟩ State.reset
     (s.gate 3).owner ≠ 0 ∧ (s.gate 3).owner = masterCode .steward ∧ (s.gate 3).owner ≠ masterCode .control ∧
     s.accesses .steward false (Reg.at Reg.GATE_TRY 3) = true ∧ s.accesses .steward true (Reg.at Reg.GATE_REL 3) = true ∧
     s.accesses .control true (Reg.at Reg.GATE_REL 3) = true) ∧
    (masterCode .control ≠ 2 ∧ masterCode .control ≠ 4) ∧
    (let s := (State.setGate 3 ⟨2, true⟩ State.reset).setReg (Reg.at Reg.GATE_LEASE 3) 100
     s.coreRuns = true ∧ (s.gate 3).owner ≠ 0 ∧ s.regFld (Reg.at Reg.GATE_LEASE 3) 0 16 ≠ 0) := by decide +kernel
theorem test_QueuesServe_met :
    (∀ a ∈ [Reg.GATE_QPUSH, Reg.GATE_QPOP, Reg.GATE_QCLR], ∀ w, State.reset.accesses .control w a = true) ∧
    (State.reset.queue 0).items.length < 16 ∧
    16 ≤ ((State.setQueue 0 ⟨List.replicate 16 7, 0⟩ State.reset).queue 0).items.length ∧
    (State.setQueue 0 ⟨List.replicate 16 7, 0⟩ State.reset).accesses .control true Reg.GATE_QPUSH = true ∧
    (1#32).getLsbD 0 = true := by decide +kernel

/-! ### What meets the hypotheses: mem2 -/

theorem test_FlashServes_met :
    flashOpen.accesses .control true (0xE0000#32).toNat = true ∧ State.reset.accesses .control true (0x500#32).toNat = true ∧
    State.reset.accesses .control true 0x400000 = true ∧ 0x400000 ≤ (0x400000#32).toNat ∧
    flashOpen.accesses .control true Reg.MEM_FERASE = true ∧ State.reset.accesses .control true Reg.MEM_FERASE = true ∧
    State.reset.accesses .steward false Reg.MEM_ELOG0 = true ∧
    (0x500#32).toNat < 0x400000 ∧ (State.flashWriteCode flashOpen .control 0xE0000 = 0) ∧
    State.flashWriteCode State.reset .control 0x500 ≠ 0 ∧
    (({ State.reset with mem.busyA := some none } : State).mem.busyA = some none) ∧
    State.flashEraseCode flashOpen .control (fld (0x800000E0#32) 0 10) = 0 ∧
    State.flashEraseCode State.reset .control (fld (0x800000E0#32) 0 10) ≠ 0 ∧
    ((¬ 512 ≤ (0xE0#10).toNat) ∧ fbRing (0xE0#10).toNat = none ∧ State.reset.mem.saveErase = [] ∧
      State.reset.fbk.eraseWait = []) := by decide +kernel
theorem test_MemoryErrors_met :
    (flashOpen.coreRuns = true ∧ flashOpen.regBit Reg.MEM_CTL 0 = true ∧ flashOpen.sys.splitAct.getLsbD 8 = false ∧
      flashOpen.wordErr flashOpen.mem.scrubPos.toNat = none) ∧
    (State.setErr 0x10000000 (some (.single 5)) flashOpen).wordErr 0x10000000 = some (.single 5) ∧
    flashOpen.mem.log.length < 16 := by decide +kernel
theorem test_injection_met :
    let s := (State.reset.setReg Reg.MEM_INJECT 0x80000005).setReg Reg.MEM_INJADDR 0x10000000
    s.regBit Reg.MEM_INJECT 31 = true ∧ s.regBit Reg.MEM_INJECT 30 = false ∧ s.regFld Reg.MEM_INJECT 0 5 = 5 ∧
      memRegion? s.injAddr = some .sram ∧ s.accesses .control true s.injAddr = true ∧
      (s.setReg Reg.MEM_INJECT 0xC0000005).regBit Reg.MEM_INJECT 30 = true := by decide +kernel

/-! ### What meets the hypotheses: ch16 -/

/-- A partition in a state. -/
def partIn (p : Fin 6) (x : PartState) : State := { up with sys.parts := up.sys.parts.set p x }
/-- The debug module enabled. -/
def debugOn : State := up.setReg Reg.BOOT_CTL 0x100
theorem test_PartitionsServe_met :
    (up.accesses .service true Reg.SYS_PARTCTL = true ∧ up.boot.phase ≠ .limp ∧ ({ up with sp.walk := true } : State).masterRuns .control = false ∧
      partMaster .service 3 = true ∧ partMaster .steward 4 = false ∧ up.part 3 = .inService ∧
      (after (.quiesce .service 3) up).part 3 = .quiescing ∧ (after (.quiesce .service 3) (partIn 3 .quiesced)).sys.cmdref = true) ∧
    ((after (.partitionReset .service 0 false) (partIn 0 .quiesced)).part 0 = .resetting ∧
      (after (.partitionReset .service 5 false) (partIn 5 .failed)).part 5 = .resetting ∧
      (after (.rejoin .service 1) (partIn 1 .quiesced)).part 1 = .rejoining) ∧
    ((partIn 3 .quiescing).quiesceDue 3 = true ∧ (after (.quiesceComplete 3) (partIn 3 .quiescing)).part 3 = .quiesced ∧
      ({ partIn 2 .quiescing with ctl.pstate := .run } : State).quiesceDue 2 = false ∧ (partIn 4 .quiescing).boot.autoP4 ≠ 1) ∧
    ((partIn 4 .resetting).verdict .steward (partIn 4 .resetting).boot.reloadBank ≠ 0 ∧
      (after (.partitionResetDone 4) (partIn 4 .resetting)).part 4 = .failed ∧
      (after (.partitionResetDone 2) (partIn 2 .resetting)).part 2 = .quiesced) ∧
    ((after (.rejoinComplete 4) (partIn 4 .rejoining)).part 4 = .failed ∧ (after (.rejoinComplete 3) (partIn 3 .rejoining)).part 3 = .inService) ∧
    (let s : State := { up with boot.steward := some true }
     s.coreRuns = true ∧ s.ctl.hartS.halted = false ∧ s.part 4 = .inService ∧ (after .stewardWatchdog s).part 4 = .quiescing ∧
      (after .stewardWatchdog s).boot.swdcnt = 1) := by decide +kernel
theorem test_BootServes_met :
    (up.coreRuns = true ∧ up.bankOn 0 = true ∧ ({ up with sys.vioMv := #v[0, 0, 0, 0] } : State).bankOn 0 = false ∧
      ({ up with boot.verifying := some 1 } : State).coreRuns = true ∧
      ({ up with sys.resetN := false } : State).bankOn 0 = true ∧ debugOn.bankOn 0 = true ∧
      (after .idcode up).out = [.tdo 5 1, .tdo 32 0x1321656B] ∧ (after (.extest 9 5) up).boot.ir = 0x1F) ∧
    ((after (.bootVerify 0x80000001) up).boot.verifying = some 1 ∧
      (after .bootVerifyDone (after (.bootVerify 0x80000001) up)).boot.vresult = 1 ∧
      (after .bootVerifyDone (after (.bootVerify 0x80000001) up)).boot.validB = false) ∧
    (∀ j : Fin 4, (up.boot.keys.get j).programmed = false) ∧
    (((after (.keyProgram 1) up).boot.keys.get 1).programmed = true ∧ (after (.keyProgram 1) up).boot.phase ≠ .limp) ∧
    (({ up with boot.stewardKey := some 2, boot.steward := some false } : State).boot.steward.isSome = true ∧
      (after (.keyRevoke 3) up).boot.keys.get 3 = { up.boot.keys.get 3 with revoked := true }) ∧
    (up.sys.resetN = true ∧ ({ up with sys.resetN := false } : State).sys.resetN = false) ∧
    (up.regBit Reg.BOOT_CTL 8 = false ∧ debugOn.regBit Reg.BOOT_CTL 8 = true) ∧
    (let s : State := { debugOn with ctl.hartC := { debugOn.ctl.hartC with inReset := false, halted := true } }
     (s.hart .control).inReset = false ∧ (s.hart .control).halted = true ∧ (debugOn.hart .control).halted = false ∧
      (after (.abstractCommand .control true 0x1005 7 .keep) s).ctl.hartC.x.get 5 = 7) ∧
    (({ debugOn with boot.ir := 0x11, boot.extest := false, out := [.tdo 5 1] } : State).readErr .debug 0x10080000 0xF = none ∧
      ({ debugOn with boot.ir := 0x11, boot.extest := false, boot.opFailed := false, out := [.tdo 5 1] } : State).writeFails .debug 0x10080000 0xF 0x11223344 = none ∧
      (after (.systemBusWrite 0x10080000 .word 0x11223344) debugOn).bytesAt 0x10080000 4 = [0x44, 0x33, 0x22, 0x11] ∧
      (after (.systemBusRead 0x10080001 .half) debugOn).boot.opFailed = true) := by decide +kernel

/-! ### What meets the hypotheses: core -/

theorem test_CommandStep_met :
    (let s : State := { up with pending := [.evtSoft 5] }
     s.pending = [.evtSoft 5] ∧ (match step s with | .next t => t.evt.raw.getLsbD 5 && t.pending.isEmpty | _ => false) = true) ∧
    up.pending = [] := by decide +kernel
theorem test_StoresBounded_met :
    State.Sound State.reset ∧ (match step ({ up with pending := [.gateQpush .control 3 7] } : State) with
      | .next t => decide ((t.queue 3).items = [7]) | _ => false) = true := by
  unfold State.Sound Contained
  decide +kernel
theorem test_RegisterWrites_met :
    (accessOf up (.gateTryg .steward 3) = some (.steward, false, 0x400F000C) ∧ up.masterRuns .steward = true ∧
      ({ up with sp.walk := true } : State).masterRuns .steward = false ∧
      (up.trigTake .steward 0 0x400F000C).isNone = true ∧
      (accessOf up (.gateTryg .controlU 3) = some (.controlU, false, 0x400F000C) ∧ up.masterRuns .controlU = true ∧
        (up.trigTake .controlU 0 0x400F000C).isNone = true ∧ up.masterAllows .controlU false 0x400F000C = false)) ∧
    (let s : State := { up with ctl.hartS := (up.ctl.hartS.put 0x17A1 0x20000043).put 0x17A2 0x400F000C }
     (s.trigTake .steward 0 0x400F000C).isSome = true ∧ (s.trigTake .steward 1 0x400F000C).isSome = true) ∧
    (0x0C000000 < 0x40000000 ∧ up.txSize = 0 ∧ up.meetsNone .service (4 * 0x0C000000) 0xF = true ∧
      memRegion? (4 * 0x0C000000) = none ∧ regRow? (4 * 0x0C000000) = none) ∧
    (up.masterAllows .steward true (4 * 0x4000000) = false ∧ up.meetsNone .steward (4 * 0x4000000) 2 = true) ∧
    (up.dmaCtlSide 0 = true ∧ up.dmaCtlSide 16 = false ∧ up.meetsNone .steward (Reg.chctl 0 + 4) 0xF = true) ∧
    ((up.gate 0).owner ≠ masterCode .control ∧ masterCode .control ≠ 2 ∧ masterCode .control ≠ 4 ∧
      up.meetsNone .control (Reg.at Reg.GATE_REL 0) 0xF = true ∧ up.meetsNone .control (Reg.at Reg.GATE_FORCE 0) 0xF = true) ∧
    (up.mem.errs = [] ∧ up.regBit Reg.MEM_INJECT 31 = false ∧ up.masterAllows .control true 0x10000004 = true ∧
      up.meetsNone .control 0x10000004 0xC = true ∧
      (after (.registerWrite .control 0x10000006 0xC 0xAABBCCDD) up).bytesAt 0x10000004 4 =
        (up.bytesAt 0x10000004 2) ++ [0xBB, 0xAA]) ∧
    (∀ a ∈ [Reg.EVT_SOFT, Reg.ITN_RUNCTL, Reg.TRE_WMTAB, Reg.LANE_CFG, Reg.TRE_PERIOD, Reg.ROAD_PAUSE, Reg.MEM_FERASE],
      up.accesses .control true a = true ∧ up.meetsNone .control a 1 = true) ∧
    (({ up with ctl.pstate := .run } : State).progBusy = true) ∧
    (up.flashEraseCode .control (fld (0x800000E0#32) 0 10) ≠ 0 ∧
      (after (.registerWrite .control 0x40050020 0xF 0x111) up).reg Reg.ROAD_PAUSE = 0x111 &&& regMask Reg.ROAD_PAUSE) ∧
    ((up.setReg Reg.TRE_CTL 1).regBit Reg.TRE_CTL 0 = true ∧ (up.setReg Reg.LANE_CTL 1).regBit Reg.LANE_CTL 0 = true) ∧
    (after (.registerWrite .control 0x40040004 1 0x123) up).reg Reg.TRE_PERIOD = 0x23 := by decide +kernel
theorem test_EntryBytes_met :
    up.mem.errs = [] ∧
    (∀ w ∈ up.recWords bAdd ⟨3, 0, 0, 9, 0x6007, 0x6005, 0xF000, 5, 0xF000, 0⟩ 7 ++ [(5 : Half), 0xF000].filterMap refAddr, w = 0x20000014) := by
  decide +kernel
theorem test_LastEvent_met :
    (State.raise 9 (up.setReg Reg.EVT_CTL 1)).spReg 0 0x2A = 0x8009 ∧ (State.raise 9 (up.setReg Reg.EVT_CTL 1)).regPeek .control Reg.EVT_LAST = 0x8009 := by
  decide +kernel
theorem test_Frame_met :
    (after .heartbeat up).regs = up.regs ∧ (after (.evtSoft 9) up).liu = up.liu ∧
    (after (.evtSoft 9) up).evt.raw.getLsbD 9 = true := by decide +kernel

end Sys2Proof.Tests
end

section
/-! PROOF. Writes of registers and memory by a master: which are turned away, and what the others leave (00 R12, R472; 02 R62;
13 R354; 15 R403, R418). -/
namespace Sys2Proof.Machine

/-! ### The lanes of a word -/

/-- A bit of the mask of byte lanes is its lane's bit (00 R471). -/
theorem laneMask_getLsbD : ∀ (be : BitVec 4) (k : Fin 4) (j : Fin 8),
    (laneMask be).getLsbD (8 * k.val + j.val) = be.getLsbD k.val := by decide

/-- A write of all four lanes replaces the word. -/
theorem mergeLanes_all (w v : Word) : mergeLanes w 0xF v = v := by
  have hm : laneMask 0xF = BitVec.allOnes 32 := by decide
  rw [mergeLanes, hm, BitVec.and_allOnes]
  simp

/-- A byte of a merged word is the written one where its lane is enabled. -/
theorem byte_mergeLanes (w v : Word) (be : BitVec 4) (k : Fin 4) :
    ((mergeLanes w be v) >>> (8 * k.val)).setWidth 8 =
      if be.getLsbD k.val = true then (v >>> (8 * k.val)).setWidth 8 else ((w >>> (8 * k.val)).setWidth 8 : Byte) := by
  apply BitVec.eq_of_getLsbD_eq
  intro j hj
  have hm : (laneMask be).getLsbD (8 * k.val + j) = be.getLsbD k.val := laneMask_getLsbD be k ⟨j, hj⟩
  have hr : 8 * k.val + j < 32 := by omega
  simp only [mergeLanes, BitVec.getLsbD_setWidth, BitVec.getLsbD_ushiftRight, BitVec.getLsbD_or, BitVec.getLsbD_and,
    BitVec.getLsbD_not, hm]
  cases be.getLsbD k.val <;> simp [hj, hr]

/-! ### Bytes of a stored word -/

theorem length_leBytes (n v : Nat) : (leBytes n v).length = n := by
  induction n generalizing v with
  | zero => rfl
  | succ n ih => simp [leBytes, ih]

theorem getD_leBytes {n i : Nat} (v : Nat) (h : i < n) : (leBytes n v).getD i 0 = BitVec.ofNat 8 (v / 256 ^ i) := by
  induction n generalizing v i with
  | zero => omega
  | succ n ih =>
    cases i with
    | zero => simp [leBytes]
    | succ i => simpa [leBytes, Nat.div_div_eq_div_mul, Nat.pow_succ'] using ih (v / 256) (Nat.lt_of_succ_lt_succ h)

theorem ofLe_byte (l : List Byte) (i : Nat) : BitVec.ofNat 8 (ofLe l / 256 ^ i) = l.getD i 0 := by
  induction l generalizing i with
  | nil => simp [ofLe]
  | cons b t ih =>
    have hb := b.isLt
    cases i with
    | zero => apply BitVec.eq_of_toNat_eq; simp [ofLe, Nat.mod_eq_of_lt hb]
    | succ i =>
      have hq : ofLe (b :: t) / 256 ^ (i + 1) = ofLe t / 256 ^ i := by
        rw [Nat.pow_succ', ← Nat.div_div_eq_div_mul]
        congr 1
        simp only [ofLe]
        omega
      rw [hq, ih, List.getD_cons_succ]

theorem ofLe_lt (l : List Byte) : ofLe l < 256 ^ l.length := by
  induction l with
  | nil => simp [ofLe]
  | cons b t ih =>
    have hb := b.isLt
    simp only [ofLe, List.length_cons, Nat.pow_succ']
    omega

/-- A byte of a word, as a number. -/
theorem setWidth_shift (w : Word) (k : Nat) : ((w >>> (8 * k)).setWidth 8 : Byte) = BitVec.ofNat 8 (w.toNat / 256 ^ k) := by
  apply BitVec.eq_of_toNat_eq
  simp [Nat.shiftRight_eq_div_pow, Nat.pow_mul]

theorem State.byte_wordAt (s : State) (a : Nat) (k : Fin 4) :
    ((s.wordAt a) >>> (8 * k.val)).setWidth 8 = s.byte (a + k.val) := by
  have hlt : ofLe (s.bytesAt a 4) < 2 ^ 32 := by simpa [State.bytesAt] using ofLe_lt (s.bytesAt a 4)
  rw [setWidth_shift, State.wordAt, BitVec.toNat_ofNat, Nat.mod_eq_of_lt hlt, ofLe_byte]
  simp [State.bytesAt]

/-- A word stored lies in its four bytes, and no other byte changes. -/
theorem State.byte_putWord (a x : Nat) (w : Word) (s : State) :
    (s.putWord a w).byte x = if a ≤ x ∧ x < a + 4 then (w >>> (8 * (x - a))).setWidth 8 else s.byte x := by
  rw [State.putWord, State.byte_setBytes, length_leBytes]
  split
  · rw [setWidth_shift, getD_leBytes _ (by omega)]
  · rfl

theorem State.setBytes_frame (a : Nat) (bs : List Byte) (s : State) :
    s.setBytes a bs = { s with mem := (s.setBytes a bs).mem } := by
  induction bs generalizing a s with
  | nil => rfl
  | cons b t ih => exact ih (a + 1) (s.setByte a b)

theorem State.setBytes_errs (a : Nat) (bs : List Byte) (s : State) : (s.setBytes a bs).mem.errs = s.mem.errs := by
  induction bs generalizing a s with
  | nil => rfl
  | cons b t ih => exact ih (a + 1) (s.setByte a b)

theorem State.putWord_frame (a : Nat) (w : Word) (s : State) : s.putWord a w = { s with mem := (s.putWord a w).mem } :=
  State.setBytes_frame a _ s

theorem State.putWord_regs (a : Nat) (w : Word) (s : State) : (s.putWord a w).regs = s.regs := by rw [State.putWord_frame]

theorem State.setErr_none_of_clean {s : State} (a : Nat) (h : s.mem.errs = []) : s.setErr a none = s := by
  unfold State.setErr
  rw [h]
  simp only [List.filter_nil]
  rw [← h]

/-- A word without errors, and no injection armed: the merged word is stored (15 R403). -/
theorem State.eccWrite_clean {s : State} (src : Byte) (a : Nat) (be : BitVec 4) (v : Word) (he : s.mem.errs = [])
    (hi : s.regBit Reg.MEM_INJECT 31 = false) : s.eccWrite src a be v = s.putWord a (mergeLanes (s.wordAt a) be v) := by
  have hp : ∀ w, (s.putWord a w).mem.errs = [] := fun w => (State.setBytes_errs a _ s).trans he
  by_cases hb : be = 0xF
  · subst hb
    rw [mergeLanes_all, State.eccWrite, if_pos rfl]
    simp [State.eccFullWrite, State.injects, hi, State.setErr_none_of_clean, hp]
  · rw [State.eccWrite, if_neg hb]
    simp [State.wordErr, he]

/-! ### Addresses -/

/-- An address outside every row of the memory map is in no memory. -/
theorem memRegion?_eq_none {a : Nat} (h : ∀ r ∈ memMap, a < r.1 ∨ r.1 + r.2.1 ≤ a) : memRegion? a = none := by
  have hf : memRow? a = none := List.find?_eq_none.mpr fun r hr => by
    have := h r hr
    simp only [Bool.and_eq_true, decide_eq_true_eq]
    omega
  rw [memRegion?, hf]
  rfl

theorem memRegion?_sram {a : Nat} (h1 : 0x10000000 ≤ a) (h2 : a < 0x10100000) : memRegion? a = some .sram := by
  have h3 : ¬ a < 0x400000 := by omega
  simp [memRegion?, memRow?, memMap, List.find?, h1, h2, h3]

/-- A register that a row of its block covers is assigned. -/
theorem regRow?_isSome {a : Nat} {r : RegRow} (hr : r ∈ regBlock a) (hc : r.covers a = true) : (regRow? a).isSome = true :=
  List.find?_isSome.mpr ⟨r, hr, hc⟩

/-- A word address that holds a register of a block whose registers any master may write that can reach them: not the DMA
engine's, nor the gates'. -/
abbrev PlainRegister (a : Nat) : Prop :=
  a % 4 = 0 ∧ a < 2 ^ 32 ∧ memRegion? a = none ∧ (regRow? a).isSome = true ∧ a / 0x10000 ≠ 0x400D ∧ a / 0x10000 ≠ 0x400F

theorem Reg.within_at {base i n : Nat} (h : i < n) : Reg.within (Reg.at base i) base n = true := by
  simp [Reg.within, Reg.at, h]

theorem Reg.idx_at (base i : Nat) : Reg.idx (Reg.at base i) base = i := by
  simp only [Reg.idx, Reg.at]
  omega

/-! ### What is posted in no ring -/

theorem State.txPosted_noRing {s : State} (m : Master) (h : s.txSize = 0) : s.txPosted m = s := by
  simp [State.txPosted, h]

theorem State.txSize_of_regs {s t : State} (h : t.regs = s.regs) : t.txSize = s.txSize := by
  simp only [State.txSize, State.reg, h]

theorem State.txSize_setReg {a : Nat} (v : Word) (s : State) (h : Reg.ROAD_TXSIZE ≠ a) :
    (s.setReg a v).txSize = s.txSize := by
  simp [State.txSize, h]

/-! ### The command, by what its access meets -/

theorem exec_registerWrite (m : Master) (a : Word) (be : BitVec 4) (v : Word) (s : State) :
    exec (.registerWrite m a be v) s = .next (s.when (s.masterRuns m) (State.masterWrite m (a.toNat / 4 * 4) be v)) := rfl

theorem wordAddress_ofNat {a : Nat} (hd : a % 4 = 0) (hb : a < 2 ^ 32) : (BitVec.ofNat 32 a).toNat / 4 * 4 = a := by
  rw [BitVec.toNat_ofNat, Nat.mod_eq_of_lt hb]
  omega

theorem exec_registerWrite_still {m : Master} {s : State} (a : Word) (be : BitVec 4) (v : Word) (h : s.masterRuns m = false) :
    exec (.registerWrite m a be v) s = .next s := by
  rw [exec_registerWrite, h]
  rfl

theorem exec_registerWrite_trigger {m : Master} {a : Nat} {be : BitVec 4} {s t : State} (v : Word) (hd : a % 4 = 0)
    (hb : a < 2 ^ 32) (h : s.masterRuns m = true) (ht : s.trigTake m 1 (a + firstLane be) = some t) :
    exec (.registerWrite m (BitVec.ofNat 32 a) be v) s = .next t := by
  simp only [exec_registerWrite, wordAddress_ofNat hd hb, h, State.when, State.masterWrite, State.unlessTrig, ht, if_true]

/-- A write that meets no trigger goes to the bus; one that fails is answered with an access fault. -/
theorem exec_registerWrite_bus {m : Master} {a : Nat} {be : BitVec 4} {s : State} (v : Word) (hd : a % 4 = 0) (hb : a < 2 ^ 32)
    (h : s.meetsNone m a be = true) :
    exec (.registerWrite m (BitVec.ofNat 32 a) be v) s = .next
      (if (s.writeFails m a be v).isSome then (s.write m a be v).accFault m true (a + firstLane be) else s.write m a be v) := by
  simp only [State.meetsNone, Bool.and_eq_true, Option.isNone_iff_eq_none] at h
  obtain ⟨hr, ht⟩ := h
  simp only [exec_registerWrite, wordAddress_ofNat hd hb, hr, State.when, State.masterWrite, State.unlessTrig, ht, if_true]

/-- A write refused outside the memories, or refused to its master, does nothing but the access fault. -/
theorem exec_registerWrite_refused {m : Master} {a : Nat} {be : BitVec 4} {s : State} (v : Word) (hd : a % 4 = 0)
    (hb : a < 2 ^ 32) (htx : s.txSize = 0) (h : s.meetsNone m a be = true) (he : (s.writeErr m a).isSome = true)
    (hw : memRegion? a = none ∨ s.masterAllows m true a = false) :
    exec (.registerWrite m (BitVec.ofNat 32 a) be v) s = .next (s.accFault m true (a + firstLane be)) := by
  obtain ⟨e, he'⟩ := Option.isSome_iff_exists.mp he
  have hf : (s.writeFails m a be v).isSome = true := by simp [State.writeFails, he']
  have hk : s.busWrite m a be v = s := by
    rcases hw with hw | hw <;> simp [State.busWrite, hw, he]
  rw [exec_registerWrite_bus v hd hb h, if_pos hf, State.write, hk, State.txPosted_noRing m htx]

/-- A check that answers with an error is passed where its condition fails and the rest answers none. -/
theorem ite_some_eq_none_iff {α : Type} {c : Prop} [Decidable c] {e : α} {x : Option α} :
    (if c then some e else x) = none ↔ ¬ c ∧ x = none := by
  by_cases h : c
  · rw [if_pos h]; exact ⟨fun hn => absurd hn (Option.some_ne_none e), fun hn => absurd h hn.1⟩
  · rw [if_neg h]; exact ⟨fun hx => ⟨h, hx⟩, fun hx => hx.2⟩

/-- Outside the memories, a write fails unless a register is there, the master may reach it, and no condition of its block
turns it away (00 R12; 13 R354; 15 R418, R421). -/
theorem State.writeErr_eq_none_iff {m : Master} {a : Nat} {s : State} (hmem : memRegion? a = none) :
    s.writeErr m a = none ↔ (regRow? a).isSome = true ∧ s.masterAllows m true a = true ∧
      ¬ (a / 0x10000 = 0x400D ∧ s.dmaMayWrite m a = false) ∧
      ¬ (Reg.within a Reg.GATE_REL 32 = true ∧ s.gateRelRefused (masterCode m) (fin32 a Reg.GATE_REL) = true) ∧
      ¬ (Reg.within a Reg.GATE_FORCE 32 = true ∧ forceAllowed (masterCode m) = false) := by
  simp only [State.writeErr, hmem, ite_some_eq_none_iff, Option.isNone_none, Option.isSome_none, Bool.true_and,
    Bool.not_eq_true, Option.isNone_eq_false_iff, Bool.not_eq_eq_eq_not, Bool.not_true, Bool.not_eq_false,
    Bool.false_eq_true, if_false, and_true]

theorem State.writeErr_plain {m : Master} {a : Nat} {s : State} (ha : PlainRegister a) (hm : s.masterAllows m true a = true) :
    s.writeErr m a = none := by
  obtain ⟨-, -, hmem, hrow, hdma, hgate⟩ := ha
  have hrel : Reg.within a Reg.GATE_REL 32 = false := by simp [Reg.within, Reg.GATE_REL]; omega
  have hforce : Reg.within a Reg.GATE_FORCE 32 = false := by simp [Reg.within, Reg.GATE_FORCE]; omega
  exact (State.writeErr_eq_none_iff hmem).mpr ⟨hrow, hm, by simp [hdma], by simp [hrel], by simp [hforce]⟩

theorem State.write_plain {m : Master} {a : Nat} {be : BitVec 4} {v : Word} {s : State} (ha : PlainRegister a)
    (hm : s.masterAllows m true a = true) (htx : (s.regWrite m a be v).txSize = 0) :
    s.write m a be v = s.regWrite m a be v := by
  have herr := State.writeErr_plain ha hm
  obtain ⟨-, -, hmem, hrow, -, -⟩ := ha
  have hk : s.busWrite m a be v = s.regWrite m a be v := by
    simp [State.busWrite, hm, hmem, Option.isSome_iff_ne_none.mp hrow, herr]
  rw [State.write, hk, State.txPosted_noRing m htx]

/-- A write of a plain register that is made does what the register's write does; only MEM_FERASE may refuse its value. -/
theorem exec_registerWrite_plain {m : Master} {a : Nat} {be : BitVec 4} {v : Word} {s t : State} (ha : PlainRegister a)
    (hfer : a ≠ Reg.MEM_FERASE) (h : s.meetsNone m a be = true) (hm : s.masterAllows m true a = true)
    (hw : s.regWrite m a be v = t) (htx : t.txSize = 0) :
    exec (.registerWrite m (BitVec.ofNat 32 a) be v) s = .next t := by
  have hf : s.writeFails m a be v = none := by simp [State.writeFails, State.writeErr_plain ha hm, hfer]
  have ⟨hd, hb, _⟩ := ha
  rw [exec_registerWrite_bus v hd hb h, hf, State.write_plain ha hm (by rw [hw, htx]), hw]
  rfl

/-- An access that is made meets no trigger, and its master may make it. -/
theorem State.meetsNone_of_accesses {s : State} {m : Master} {a : Nat} {be : BitVec 4} (hl : firstLane be = 0)
    (h : s.accesses m true a = true) : s.meetsNone m a be = true ∧ s.masterAllows m true a = true := by
  simp only [State.accesses, State.mayAccess, Bool.and_eq_true] at h
  obtain ⟨hr, ht, hm⟩ := h
  exact ⟨by simpa [State.meetsNone, hl, hr] using ht, hm⟩

/-! ### Commands whose access is turned away -/

/-- The commands that name an access make it, whatever it then does. -/
theorem exec_accessOf {c : Instr} {m : Master} {w : Bool} {a : Nat} {s : State} (h : accessOf s c = some (m, w, a)) :
    ∃ f, exec c s = .next (s.access m w a f) := by
  unfold accessOf at h
  split at h <;> cases h <;> exact ⟨_, rfl⟩

/-- An access that a trigger names is what the trigger does. -/
theorem State.access_trigger {s t : State} {m : Master} {w : Bool} {a : Nat} (f : State → State) (h : s.masterRuns m = true)
    (ht : s.trigTake m (if w then 1 else 0) a = some t) : s.access m w a f = t := by
  simp only [State.access, State.when, State.unlessTrig, h, ht, if_true]

theorem exec_access_turned (c : Instr) (m : Master) (w : Bool) (a : Nat) (s : State) (h : accessOf s c = some (m, w, a)) :
    (s.masterRuns m = false → exec c s = .next s) ∧
    (s.masterRuns m = true → s.trigTake m (if w then 1 else 0) a = none → s.masterAllows m w a = false →
      exec c s = .next (s.accFault m w a)) ∧
    (s.masterRuns m = true → ∀ t, s.trigTake m (if w then 1 else 0) a = some t → exec c s = .next t) := by
  obtain ⟨f, hf⟩ := exec_accessOf h
  refine ⟨fun hr => ?_, fun hr ht hm => ?_, fun hr t ht => ?_⟩
  · rw [hf, State.access_still w a f hr]
  · rw [hf, State.access_refused f hr ht hm]
  · rw [hf, State.access_trigger f hr ht]

/-! ### Writes that are refused -/

theorem State.writeErr_unassigned {m : Master} {a : Nat} {s : State} (hmem : memRegion? a = none) (hrow : regRow? a = none) :
    s.writeErr m a = some .unmapped := by
  simp [State.writeErr, hmem, hrow]

theorem State.writeErr_notAllowed {m : Master} {a : Nat} {s : State} (h : s.masterAllows m true a = false) :
    (s.writeErr m a).isSome = true := by
  unfold State.writeErr
  split
  · rfl
  · simp [h]

/-- A write that its block's own condition turns away fails. -/
theorem State.writeErr_blocked {m : Master} {a : Nat} {s : State} (hmem : memRegion? a = none)
    (h : (a / 0x10000 = 0x400D ∧ s.dmaMayWrite m a = false) ∨
      (Reg.within a Reg.GATE_REL 32 = true ∧ s.gateRelRefused (masterCode m) (fin32 a Reg.GATE_REL) = true) ∨
      (Reg.within a Reg.GATE_FORCE 32 = true ∧ forceAllowed (masterCode m) = false)) : (s.writeErr m a).isSome = true :=
  Option.isSome_iff_ne_none.mpr fun hn => by
    obtain ⟨-, -, hdma, hrel, hforce⟩ := (State.writeErr_eq_none_iff hmem).mp hn
    exact h.elim hdma fun h => h.elim hrel hforce

/-- A channel's registers of the control side are the control core's and the service port's to write (13 R354). -/
theorem State.dmaMayWrite_channel {m : Master} {n : Fin 32} {k : Fin 8} {s : State} (hn : s.dmaCtlSide n = true)
    (hc : m ≠ .control) (hs : m ≠ .service) : s.dmaMayWrite m (Reg.chctl n + 4 * k.val) = false := by
  have hlt : ¬ Reg.chctl n + 4 * k.val < Reg.DMA_CHCTL := by simp only [Reg.chctl]; omega
  have hi : (Reg.chctl n + 4 * k.val - Reg.DMA_CHCTL) / 0x20 % 32 = n.val := by simp only [Reg.chctl]; omega
  simp [State.dmaMayWrite, hlt, hi, hn, hc, hs]

theorem exec_write_unassigned (m : Master) (a : Nat) (be : BitVec 4) (v : Word) (s : State) (ha : a < 0x40000000)
    (htx : s.txSize = 0) (h : s.meetsNone m (4 * a) be = true) (hmem : memRegion? (4 * a) = none)
    (hrow : regRow? (4 * a) = none) :
    exec (.registerWrite m (BitVec.ofNat 32 (4 * a)) be v) s = .next (s.accFault m true (4 * a + firstLane be)) :=
  exec_registerWrite_refused v (by omega) (by omega) htx h (by rw [State.writeErr_unassigned hmem hrow]; rfl) (.inl hmem)

theorem exec_write_notAllowed (m : Master) (a : Nat) (be : BitVec 4) (v : Word) (s : State) (ha : a < 0x40000000)
    (htx : s.txSize = 0) (h : s.meetsNone m (4 * a) be = true) (hm : s.masterAllows m true (4 * a) = false) :
    exec (.registerWrite m (BitVec.ofNat 32 (4 * a)) be v) s = .next (s.accFault m true (4 * a + firstLane be)) :=
  exec_registerWrite_refused v (by omega) (by omega) htx h (State.writeErr_notAllowed hm) (.inr hm)

theorem exec_write_channel (m : Master) (n : Fin 32) (k : Fin 8) (be : BitVec 4) (v : Word) (s : State) (htx : s.txSize = 0)
    (h : s.meetsNone m (Reg.chctl n + 4 * k.val) be = true) (hn : s.dmaCtlSide n = true) (hc : m ≠ .control)
    (hs : m ≠ .service) :
    exec (.registerWrite m (BitVec.ofNat 32 (Reg.chctl n + 4 * k.val)) be v) s =
      .next (s.accFault m true (Reg.chctl n + 4 * k.val + firstLane be)) := by
  have ha : Reg.chctl n + 4 * k.val = 0x400D0100 + 32 * n.val + 4 * k.val := rfl
  have hmem : memRegion? (Reg.chctl n + 4 * k.val) = none := memRegion?_eq_none (by simp [memMap]; omega)
  exact exec_registerWrite_refused v (by omega) (by omega) htx h
    (State.writeErr_blocked hmem (.inl ⟨by omega, State.dmaMayWrite_channel hn hc hs⟩)) (.inl hmem)

theorem exec_write_gateRel (m : Master) (g : Fin 32) (be : BitVec 4) (v : Word) (s : State) (htx : s.txSize = 0)
    (h : s.meetsNone m (Reg.at Reg.GATE_REL g) be = true) (ho : (s.gate g).owner ≠ masterCode m) :
    exec (.registerWrite m (BitVec.ofNat 32 (Reg.at Reg.GATE_REL g)) be v) s =
      .next (s.accFault m true (Reg.at Reg.GATE_REL g + firstLane be)) := by
  have ha : Reg.at Reg.GATE_REL g = 0x400F0080 + 4 * g.val := rfl
  have hmem : memRegion? (Reg.at Reg.GATE_REL g) = none := memRegion?_eq_none (by simp [memMap]; omega)
  have hg : fin32 (Reg.at Reg.GATE_REL g) Reg.GATE_REL = g := by simp [fin32, Reg.idx_at, Nat.mod_eq_of_lt]
  exact exec_registerWrite_refused v (by omega) (by omega) htx h
    (State.writeErr_blocked hmem (.inr (.inl ⟨Reg.within_at g.isLt, by simp [State.gateRelRefused, hg, ho]⟩))) (.inl hmem)

theorem exec_write_gateForce (m : Master) (g : Fin 32) (be : BitVec 4) (v : Word) (s : State) (htx : s.txSize = 0)
    (h : s.meetsNone m (Reg.at Reg.GATE_FORCE g) be = true) (h2 : masterCode m ≠ 2) (h4 : masterCode m ≠ 4) :
    exec (.registerWrite m (BitVec.ofNat 32 (Reg.at Reg.GATE_FORCE g)) be v) s =
      .next (s.accFault m true (Reg.at Reg.GATE_FORCE g + firstLane be)) := by
  have ha : Reg.at Reg.GATE_FORCE g = 0x400F0100 + 4 * g.val := rfl
  have hmem : memRegion? (Reg.at Reg.GATE_FORCE g) = none := memRegion?_eq_none (by simp [memMap]; omega)
  exact exec_registerWrite_refused v (by omega) (by omega) htx h
    (State.writeErr_blocked hmem (.inr (.inr ⟨Reg.within_at g.isLt, by simpa [forceAllowed] using ⟨h2, h4⟩⟩))) (.inl hmem)

/-! ### A write to SRAM -/

/-- A write of lanes of a word lands on the enabled bytes and no others. -/
theorem State.byte_putWord_mergeLanes (a x : Nat) (be : BitVec 4) (v : Word) (s : State) (hd : a % 4 = 0) :
    (s.putWord a (mergeLanes (s.wordAt a) be v)).byte x =
      if a ≤ x ∧ x < a + 4 ∧ be.getLsbD (x % 4) = true then (v >>> (8 * (x % 4))).setWidth 8 else s.byte x := by
  rw [State.byte_putWord]
  by_cases hx : a ≤ x ∧ x < a + 4
  · have hk : x - a = x % 4 := by omega
    have hlane := byte_mergeLanes (s.wordAt a) v be ⟨x % 4, by omega⟩
    have hold := State.byte_wordAt s a ⟨x % 4, by omega⟩
    simp only at hlane hold
    rw [if_pos hx, hk, hlane, hold, show a + x % 4 = x by omega]
    simp only [hx, true_and]
  · rw [if_neg hx, if_neg fun ⟨h1, h2, _⟩ => hx ⟨h1, h2⟩]

theorem State.writeFails_sram {m : Master} {a : Nat} {s : State} (be : BitVec 4) (v : Word) (h1 : 0x10000000 ≤ a)
    (h2 : a < 0x10100000) (hm : s.masterAllows m true a = true) : s.writeFails m a be v = none := by
  have hfer : a ≠ Reg.MEM_FERASE := by simp only [Reg.MEM_FERASE]; omega
  simp [State.writeFails, State.writeErr, memRegion?_sram h1 h2, hm, State.memWriteErr, hfer]

/-- A write to SRAM without errors, and no injection armed, stores the merged word. -/
theorem State.write_sram {m : Master} {a : Nat} {s : State} (be : BitVec 4) (v : Word) (h1 : 0x10000000 ≤ a)
    (h2 : a < 0x10100000) (htx : s.txSize = 0) (he : s.mem.errs = []) (hj : s.regBit Reg.MEM_INJECT 31 = false)
    (hm : s.masterAllows m true a = true) : s.write m a be v = s.putWord a (mergeLanes (s.wordAt a) be v) := by
  have hk : s.busWrite m a be v = s.putWord a (mergeLanes (s.wordAt a) be v) := by
    simp [State.busWrite, hm, memRegion?_sram h1 h2, State.memWrite, State.eccWrite_clean _ _ _ _ he hj]
  rw [State.write, hk, State.txPosted_noRing m ((State.txSize_of_regs (State.putWord_regs a _ s)).trans htx)]

theorem exec_write_sram (m : Master) (i : Nat) (be : BitVec 4) (v : Word) (s : State) (hi : i < 0x20000) (htx : s.txSize = 0)
    (he : s.mem.errs = []) (hj : s.regBit Reg.MEM_INJECT 31 = false) (h : s.meetsNone m (0x10000000 + 4 * i) be = true)
    (hm : s.masterAllows m true (0x10000000 + 4 * i) = true) :
    ∃ t, exec (.registerWrite m (BitVec.ofNat 32 (0x10000000 + 4 * i)) be v) s = .next t ∧ t = { s with mem := t.mem } ∧
      ∀ x, t.byte x = if 0x10000000 + 4 * i ≤ x ∧ x < 0x10000000 + 4 * i + 4 ∧ be.getLsbD (x % 4) = true
        then (v >>> (8 * (x % 4))).setWidth 8 else s.byte x := by
  have h1 : 0x10000000 ≤ 0x10000000 + 4 * i := Nat.le_add_right _ _
  have h2 : 0x10000000 + 4 * i < 0x10100000 := by omega
  have hd : (0x10000000 + 4 * i) % 4 = 0 := by omega
  generalize 0x10000000 + 4 * i = a at *
  refine ⟨s.putWord a (mergeLanes (s.wordAt a) be v), ?_, State.putWord_frame a _ s,
    fun x => State.byte_putWord_mergeLanes a x be v s hd⟩
  rw [exec_registerWrite_bus v hd (by omega) h, State.writeFails_sram be v h1 h2 hm, State.write_sram be v h1 h2 htx he hj hm]
  rfl

/-! ### Writes of the control core's registers -/

theorem State.regWrite_evtSoft (m : Master) (be : BitVec 4) (v : Word) (s : State) :
    s.regWrite m Reg.EVT_SOFT be v =
      s.when (be.getLsbD 0) (State.raise (fld (mergeLanes (s.reg Reg.EVT_SOFT) be v) 0 8)) := rfl

theorem State.regWrite_runctl (m : Master) (be : BitVec 4) (v : Word) (s : State) :
    s.regWrite m Reg.ITN_RUNCTL be v = s.runctlWrite (mergeLanes (s.reg Reg.ITN_RUNCTL) be v) := rfl

theorem State.regWrite_laneCfg (m : Master) (be : BitVec 4) (v : Word) (s : State) :
    s.regWrite m Reg.LANE_CFG be v = s.writeLane Reg.LANE_CFG (mergeLanes (s.reg Reg.LANE_CFG) be v) := rfl

theorem State.regWrite_wmtab (m : Master) (i : Fin 256) (be : BitVec 4) (v : Word) (s : State) :
    s.regWrite m (Reg.at Reg.TRE_WMTAB i) be v = s.wmtabWrite i be (mergeLanes (s.reg (Reg.at Reg.TRE_WMTAB i)) be v) := by
  have hb : Reg.at Reg.TRE_WMTAB i / 0x10000 = 0x4004 := by simp only [Reg.at, Reg.TRE_WMTAB]; omega
  have hc : Reg.at Reg.TRE_WMTAB i ≠ Reg.TRE_COMMIT := by simp only [Reg.at, Reg.TRE_WMTAB, Reg.TRE_COMMIT]; omega
  have hd : Reg.at Reg.TRE_WMTAB i ≠ Reg.TRE_EDIT := by simp only [Reg.at, Reg.TRE_WMTAB, Reg.TRE_EDIT]; omega
  simp [State.regWrite, hb, State.writeTre, hc, hd, Reg.within_at, Reg.idx_at]

theorem exec_write_evtSoft (n : Fin 256) (s : State) (htx : s.txSize = 0) (h : s.accesses .control true Reg.EVT_SOFT = true) :
    exec (.registerWrite .control (BitVec.ofNat 32 Reg.EVT_SOFT) 1 (BitVec.ofNat 32 n.val)) s = .next (s.raise n.val) := by
  obtain ⟨hmeets, hm⟩ := State.meetsNone_of_accesses (be := 1) (by decide) h
  have hn : fld (mergeLanes (s.reg Reg.EVT_SOFT) 1 (BitVec.ofNat 32 n.val)) 0 8 = n.val := by
    have hb := congrArg BitVec.toNat (byte_mergeLanes (s.reg Reg.EVT_SOFT) (BitVec.ofNat 32 n.val) 1 0)
    simpa [fld, Nat.mod_eq_of_lt (show n.val < 4294967296 by omega)] using hb
  have hw : s.regWrite .control Reg.EVT_SOFT 1 (BitVec.ofNat 32 n.val) = s.raise n.val := by
    rw [State.regWrite_evtSoft, hn]
    rfl
  exact exec_registerWrite_plain (by decide) (by decide) hmeets hm hw
    ((State.txSize_of_regs (State.raise_regs _ _)).trans htx)

theorem exec_write_runctl (v : Word) (s : State) (htx : s.txSize = 0) (h : s.accesses .control true Reg.ITN_RUNCTL = true)
    (hp : s.progBusy = true) (h1 : v.getLsbD 1 = false) (h2 : v.getLsbD 2 = false) :
    exec (.registerWrite .control (BitVec.ofNat 32 Reg.ITN_RUNCTL) 0xF v) s = .next s := by
  obtain ⟨hmeets, hm⟩ := State.meetsNone_of_accesses (be := 0xF) (by decide) h
  have hw : s.regWrite .control Reg.ITN_RUNCTL 0xF v = s := by
    rw [State.regWrite_runctl, mergeLanes_all]
    simp only [State.runctlWrite, State.when, hp, h1, h2, Bool.not_true, Bool.false_eq_true, if_false]
  exact exec_registerWrite_plain (by decide) (by decide) hmeets hm hw htx

theorem plainRegister_wmtab (i : Fin 256) : PlainRegister (Reg.at Reg.TRE_WMTAB i) := by
  have ha : Reg.at Reg.TRE_WMTAB i = 0x40040400 + 4 * i.val := rfl
  have hb : Reg.at Reg.TRE_WMTAB i / 0x10000 = 0x4004 := by omega
  have hrow : (regRow? (Reg.at Reg.TRE_WMTAB i)).isSome = true := by
    refine regRow?_isSome (r := ⟨0x40040400, 4, 256, 0, 1, .rw, 0x0, 0x0⟩) ?_ ?_
    · rw [regBlock, hb]; simp [regsTre]
    · rw [ha]; simp [RegRow.covers]
  exact ⟨by omega, by omega, memRegion?_eq_none (by simp [memMap]; omega), hrow, by omega, by omega⟩

theorem exec_write_wmtab (i : Fin 256) (be : BitVec 4) (v : Word) (s : State) (htx : s.txSize = 0)
    (h : s.meetsNone .control (Reg.at Reg.TRE_WMTAB i) be = true)
    (hm : s.masterAllows .control true (Reg.at Reg.TRE_WMTAB i) = true) (he : s.regBit Reg.TRE_CTL 0 = true) :
    exec (.registerWrite .control (BitVec.ofNat 32 (Reg.at Reg.TRE_WMTAB i)) be v) s = .next s := by
  have hfer : Reg.at Reg.TRE_WMTAB i ≠ Reg.MEM_FERASE := by simp only [Reg.at, Reg.TRE_WMTAB, Reg.MEM_FERASE]; omega
  exact exec_registerWrite_plain (plainRegister_wmtab i) hfer h hm
    (by rw [State.regWrite_wmtab, State.wmtabWrite, if_pos he]) htx

/-- LANE_CFG holds while the Lane is enabled. -/
theorem State.writeLane_enabled {v : Word} {s : State} (he : s.regBit Reg.LANE_CTL 0 = true) :
    s.writeLane Reg.LANE_CFG v = s := by
  rw [State.writeLane, if_neg (by decide), if_neg (by decide), if_neg (by decide), if_pos ⟨.inl rfl, he⟩]

theorem exec_write_laneCfg (be : BitVec 4) (v : Word) (s : State) (htx : s.txSize = 0)
    (h : s.meetsNone .control Reg.LANE_CFG be = true) (hm : s.masterAllows .control true Reg.LANE_CFG = true)
    (he : s.regBit Reg.LANE_CTL 0 = true) :
    exec (.registerWrite .control (BitVec.ofNat 32 Reg.LANE_CFG) be v) s = .next s :=
  exec_registerWrite_plain (by decide) (by decide) h hm (by rw [State.regWrite_laneCfg, State.writeLane_enabled he]) htx

/-- Registers of the blocks that do no more than hold what is written to them. -/
abbrev heldRegisters : List Nat := [Reg.TRE_PERIOD, Reg.TRE_SYNCCFG, Reg.SVY_CFG, Reg.SVY_TIM, Reg.ROAD_MAC, Reg.ETH_AGE,
  Reg.FBK_CTL, Reg.ITN_CYCCFG, Reg.LANE_TIM, Reg.WLV_CFG, Reg.CWY_CFG, Reg.MEM_SCRUB, Reg.BOOT_SWDT]

theorem plainRegister_held : ∀ a ∈ heldRegisters, PlainRegister a ∧ a ≠ Reg.MEM_FERASE ∧ Reg.ROAD_TXSIZE ≠ a := by decide

theorem State.regWrite_held {a : Nat} (ha : a ∈ heldRegisters) (be : BitVec 4) (v : Word) (s : State) :
    s.regWrite .control a be v = s.setReg a (mergeLanes (s.reg a) be v) := by
  simp only [List.mem_cons, List.not_mem_nil, or_false] at ha
  rcases ha with rfl | rfl | rfl | rfl | rfl | rfl | rfl | rfl | rfl | rfl | rfl | rfl | rfl <;> rfl

theorem exec_write_held (a : Nat) (ha : a ∈ heldRegisters) (be : BitVec 4) (v : Word) (s : State) (htx : s.txSize = 0)
    (h : s.meetsNone .control a be = true) (hm : s.masterAllows .control true a = true) :
    ∃ t, exec (.registerWrite .control (BitVec.ofNat 32 a) be v) s = .next t ∧ t = { s with regs := t.regs } ∧
      t.reg a = mergeLanes (s.reg a) be v &&& regMask a ∧ ∀ b, b ≠ a → t.reg b = s.reg b := by
  obtain ⟨hplain, hfer, hsize⟩ := plainRegister_held a ha
  exact ⟨s.setReg a (mergeLanes (s.reg a) be v),
    exec_registerWrite_plain hplain hfer h hm (State.regWrite_held ha be v s) ((State.txSize_setReg _ _ hsize).trans htx),
    rfl, by simp, fun b hb => by simp [hb]⟩

/-! ### ROAD_PAUSE -/

theorem State.each_regs {α : Type} {s : State} {l : List α} {f : α → State → State}
    (hf : ∀ x t, (f x t).regs = t.regs) : (s.each l f).regs = s.regs := by
  unfold State.each
  induction l generalizing s with
  | nil => rfl
  | cons x l ih => rw [List.foldl_cons, ih, hf]

@[simp] theorem State.roadDraw_regs (p : Fin 4) (s : State) : (s.roadDraw p).regs = s.regs := by
  unfold State.roadDraw
  dsimp only
  split <;> rfl

@[simp] theorem State.roadAgain_regs (p : Fin 4) (b : Option QFrame) (s : State) : (s.roadAgain p b).regs = s.regs := by
  unfold State.roadAgain
  dsimp only
  split
  · split
    · rfl
    · split <;> rfl
  · exact State.roadDraw_regs p s

@[simp] theorem State.roadPut_regs (p : Fin 4) (q : QFrame) (s : State) : (s.roadPut p q).regs = s.regs := by
  simp [State.roadPut]

@[simp] theorem State.sendPause_regs (p : Fin 4) (prio ptime : Nat) (s : State) : (s.sendPause p prio ptime).regs = s.regs := by
  unfold State.sendPause State.when
  dsimp only
  split <;> simp

@[simp] theorem State.pauseCheck_regs (p : Fin 4) (prio : Nat) (s : State) : (s.pauseCheck p prio).regs = s.regs := by
  unfold State.pauseCheck
  dsimp only
  split
  · rfl
  · split
    · simp
    · split <;> simp

@[simp] theorem State.pauseAll_regs (s : State) : s.pauseAll.regs = s.regs :=
  State.each_regs fun p _ => State.each_regs fun k _ => State.pauseCheck_regs p k _

theorem exec_write_roadPause (be : BitVec 4) (v : Word) (s : State) (htx : s.txSize = 0)
    (h : s.meetsNone .control Reg.ROAD_PAUSE be = true) (hm : s.masterAllows .control true Reg.ROAD_PAUSE = true) :
    ∃ t, exec (.registerWrite .control (BitVec.ofNat 32 Reg.ROAD_PAUSE) be v) s = .next t ∧
      t = (s.setReg Reg.ROAD_PAUSE (mergeLanes (s.reg Reg.ROAD_PAUSE) be v)).pauseAll ∧
      t.reg Reg.ROAD_PAUSE = mergeLanes (s.reg Reg.ROAD_PAUSE) be v &&& regMask Reg.ROAD_PAUSE := by
  obtain ⟨u, hu⟩ : ∃ u, u = s.setReg Reg.ROAD_PAUSE (mergeLanes (s.reg Reg.ROAD_PAUSE) be v) := ⟨_, rfl⟩
  have hsize : u.pauseAll.txSize = 0 := by
    rw [State.txSize_of_regs (State.pauseAll_regs u), hu, State.txSize_setReg _ _ (by decide), htx]
  have hreg : u.pauseAll.reg Reg.ROAD_PAUSE = u.reg Reg.ROAD_PAUSE := by rw [State.reg, State.pauseAll_regs, State.reg]
  exact ⟨u.pauseAll, exec_registerWrite_plain (by decide) (by decide) h hm (by rw [hu]; rfl) hsize, by rw [hu],
    by rw [hreg, hu]; simp⟩

/-! ### A refused erase -/

/-- Logging an error, full log or not, stores no byte and counts no wear. -/
theorem State.memLog_keeps (kind region : Nat) (src : Byte) (synd addr : Nat) (s : State) :
    (s.memLog kind region src synd addr).regs = s.regs ∧ (s.memLog kind region src synd addr).mem.cells = s.mem.cells ∧
      (s.memLog kind region src synd addr).mem.wear = s.mem.wear := by
  unfold State.memLog
  dsimp only
  split <;> simp

theorem State.flashResult_keeps (src : Byte) (a code : Nat) (s : State) :
    (s.flashResult src a code).regs = s.regs ∧ (s.flashResult src a code).mem.cells = s.mem.cells ∧
      (s.flashResult src a code).mem.wear = s.mem.wear := by
  unfold State.flashResult
  dsimp only
  split
  · exact ⟨rfl, rfl, rfl⟩
  · simp [State.memLog_keeps]

theorem State.flashErase_refused {m : Master} {v : Word} {s : State} (hv : v.getLsbD 31 = true)
    (hc : s.flashEraseCode m (fld v 0 10) ≠ 0) :
    s.flashErase m v = s.flashResult (masterCode m) (4096 * fld v 0 10) (s.flashEraseCode m (fld v 0 10)) := by
  simp only [State.flashErase, hv, hc, Bool.not_true, Bool.false_eq_true, if_false, ne_eq, not_false_eq_true, if_true]

theorem State.regWrite_ferase (m : Master) (be : BitVec 4) (v : Word) (s : State) :
    s.regWrite m Reg.MEM_FERASE be v = s.flashErase m (mergeLanes (s.reg Reg.MEM_FERASE) be v) := rfl

theorem exec_write_eraseRefused (m : Master) (v : Word) (s : State) (htx : s.txSize = 0)
    (h : s.accesses m true Reg.MEM_FERASE = true) (hv : v.getLsbD 31 = true) (hc : s.flashEraseCode m (fld v 0 10) ≠ 0) :
    exec (.registerWrite m (BitVec.ofNat 32 Reg.MEM_FERASE) 0xF v) s =
      .next ((s.flashErase m v).accFault m true Reg.MEM_FERASE) ∧
    (s.flashErase m v).mem.cells = s.mem.cells ∧ (s.flashErase m v).mem.wear = s.mem.wear := by
  obtain ⟨hmeets, hm⟩ := State.meetsNone_of_accesses (be := 0xF) (by decide) h
  have hr := State.flashErase_refused hv hc
  obtain ⟨hregs, hcells, hwear⟩ :=
    State.flashResult_keeps (masterCode m) (4096 * fld v 0 10) (s.flashEraseCode m (fld v 0 10)) s
  rw [← hr] at hregs hcells hwear
  refine ⟨?_, hcells, hwear⟩
  have hplain : PlainRegister Reg.MEM_FERASE := by decide
  have hf : (s.writeFails m Reg.MEM_FERASE 0xF v).isSome = true := by
    rw [State.writeFails, State.writeErr_plain hplain hm, mergeLanes_all]
    simp only [hv, hc, ne_eq, not_false_eq_true, and_self, if_true, Option.isSome_some]
  have hw : s.regWrite m Reg.MEM_FERASE 0xF v = s.flashErase m v := by rw [State.regWrite_ferase, mergeLanes_all]
  have hsize : (s.flashErase m v).txSize = 0 := (State.txSize_of_regs hregs).trans htx
  rw [exec_registerWrite_bus v (by decide) (by decide) hmeets, if_pos hf, State.write_plain hplain hm (by rw [hw, hsize]), hw]
  rfl

/-- Settles O55, clause by clause; that a refused erase is answered with an access fault is the model's choice (log 185). -/
theorem registerWrites : Obligations.RegisterWrites := by
  unfold Obligations.RegisterWrites
  exact ⟨exec_access_turned, fun _ a be v _ h => exec_registerWrite_still a be v h,
    fun _ _ _ v _ _ ha h ht => exec_registerWrite_trigger v (by omega) (by omega) h ht,
    exec_write_unassigned, exec_write_notAllowed, exec_write_channel,
    fun m g be v s htx => ⟨exec_write_gateRel m g be v s htx, exec_write_gateForce m g be v s htx⟩,
    exec_write_sram, exec_write_evtSoft, exec_write_runctl, exec_write_wmtab, exec_write_laneCfg, exec_write_held,
    exec_write_roadPause, exec_write_eraseRefused⟩

end Sys2Proof.Machine
end

section
/-! PROOF. The Traverse: raising an event and what it leaves, and the synchronisation machine (06 Table 6.7, R194, R196;
08 R242). -/
namespace Sys2Proof.Machine

/-! ### Bits of the raised events -/

/-- Setting a bit leaves every bit that was set. -/
theorem getLsbD_setBit_of_set {w : Nat} {x : BitVec w} {n : Nat} (i : Nat) (h : x.getLsbD n = true) :
    (setBit x i).getLsbD n = true := by
  simp [setBit, h]

theorem getLsbD_setBit_self {w : Nat} (x : BitVec w) {i : Nat} (h : i < w) : (setBit x i).getLsbD i = true := by
  rw [setBit, BitVec.getLsbD_or, BitVec.getLsbD_ofNat, Nat.testBit_two_pow_self, decide_eq_true h]
  simp

@[simp] theorem State.raise_evt_raw (n : Nat) (s : State) : (s.raise n).evt.raw = setBit s.evt.raw n := by
  unfold State.raise State.when
  dsimp only
  rw [State.dmaFire_evt]
  split
  · rw [State.fbEvent_evt]
  · rfl

/-! ### The synchronisation machine, a state at a time -/

@[simp] theorem State.revCheck_tre (s : State) : s.revCheck.tre = s.tre := by
  unfold State.revCheck
  split <;> rfl

@[simp] theorem State.revCheck_evt (s : State) : s.revCheck.evt = s.evt := by
  unfold State.revCheck
  split <;> rfl

theorem State.mute_tre (s : State) :
    s.mute.tre = { s.tre with sync := .muted, good := 0, bad := 0, mutes := satSucc s.tre.mutes } := by
  simp only [State.mute, State.revCheck_tre, State.raise_tre]

theorem State.mute_evt_raw (s : State) : s.mute.evt.raw = setBit s.evt.raw 84 := by
  simp only [State.mute, State.revCheck_evt, State.raise_evt_raw]

section
variable {s : State} (off : Int)

theorem State.syncStep_free (h : s.tre.sync = .free) :
    s.syncStep off = { s with tre.sync := .acq, tre.good := 0, tre.bad := 0 } := by
  simp only [State.syncStep, h]

theorem State.syncStep_acq (h : s.tre.sync = .acq) :
    s.syncStep off = if 2000 < off.natAbs then s.mute
      else if off.natAbs ≤ 125 then
        (if s.lockN ≤ s.tre.good + 1 then State.raise 82 { s with tre.sync := .locked, tre.good := 0, tre.bad := 0 }
          else { s with tre.good := s.tre.good + 1 })
      else { s with tre.good := 0 } := by
  simp only [State.syncStep, h, decide_eq_true_eq]

theorem State.syncStep_locked (h : s.tre.sync = .locked) :
    s.syncStep off = if 2000 < off.natAbs then s.mute
      else if off.natAbs ≤ 125 then { s with tre.bad := 0 }
      else if 1 ≤ s.tre.bad then (State.raise 83 { s with tre.sync := .acq, tre.good := 0, tre.bad := 0 }).revCheck
      else { s with tre.bad := s.tre.bad + 1 } := by
  simp only [State.syncStep, h, decide_eq_true_eq]

theorem State.syncStep_muted (h : s.tre.sync = .muted) :
    s.syncStep off = if off.natAbs ≤ 125 then
        (if s.lockN ≤ s.tre.good + 1 then s.unmute else { s with tre.good := s.tre.good + 1 })
      else { s with tre.good := 0 } := by
  simp only [State.syncStep, h, decide_eq_true_eq]

/-- Beyond 2000 ns ACQ and LOCKED alike go to MUTED. -/
theorem State.syncStep_far {off : Int} (h : s.tre.sync = .acq ∨ s.tre.sync = .locked) (hoff : 2000 < off.natAbs) :
    s.syncStep off = s.mute := by
  rcases h with h | h
  · rw [State.syncStep_acq off h, if_pos hoff]
  · rw [State.syncStep_locked off h, if_pos hoff]

/-- Within 2000 ns nothing mutes. -/
theorem State.syncStep_sync_ne_muted {off : Int} (hoff : off.natAbs ≤ 2000) (h : s.tre.sync ≠ .muted) :
    (s.syncStep off).tre.sync ≠ .muted := by
  have hfar : ¬ 2000 < off.natAbs := by omega
  cases hs : s.tre.sync with
  | free => simp [State.syncStep_free off hs]
  | acq =>
    rw [State.syncStep_acq off hs, if_neg hfar]
    split
    · split <;> simp [hs]
    · simp [hs]
  | locked =>
    rw [State.syncStep_locked off hs, if_neg hfar]
    split
    · simp [hs]
    · split <;> simp [hs]
  | muted => exact absurd hs h

end

/-- Settles O14, row by row of Table 6.7. -/
theorem syncSteps : Obligations.SyncSteps := by
  unfold Obligations.SyncSteps
  refine ⟨fun off s h => State.syncStep_free off h, ?_, ?_, ?_, ?_, ?_, ?_, ?_, ?_, ?_, ?_,
    fun off s hoff h => State.syncStep_sync_ne_muted hoff h⟩
  · intro off s h hoff
    rw [State.syncStep_far h hoff, State.mute_tre]
    exact ⟨rfl, rfl, State.mute_evt_raw s⟩
  · intro off s h hoff hn
    rw [State.syncStep_acq off h, if_neg (by omega), if_pos hoff, if_neg (by omega)]
  · intro off s h hoff hn
    rw [State.syncStep_acq off h, if_neg (by omega), if_pos hoff, if_pos hn]
  · intro off s h hoff hfar
    rw [State.syncStep_acq off h, if_neg (by omega), if_neg (by omega)]
  · intro off s h hoff
    rw [State.syncStep_locked off h, if_neg (by omega), if_pos hoff]
  · intro off s h hoff hfar hbad
    rw [State.syncStep_locked off h, if_neg (by omega), if_neg (by omega), if_neg (by simp [hbad]), hbad]
  · intro off s h hoff hfar hbad
    rw [State.syncStep_locked off h, if_neg (by omega), if_neg (by omega), if_pos hbad]
  · intro off s h hoff hn
    rw [State.syncStep_muted off h, if_pos hoff, if_neg (by omega)]
  · intro off s h hoff
    rw [State.syncStep_muted off h, if_neg (by omega)]
  · intro off s h hoff hn
    rw [State.syncStep_muted off h, if_pos hoff, if_pos hn]
    rfl

end Sys2Proof.Machine
end

section
/-! PROOF. A Traverse received: what reporting and reception leave alone, what is judged, and what each path of the pass sends
(06 R174 to R199; 01 R20). -/
namespace Sys2Proof.Machine

/-! ### What reporting leaves alone -/

/-- The state s with what a report changes taken from t: alerts, events, counters, the Field Book queue, DMA triggers, and the
memories' own logs. -/
def State.reportBy (s t : State) : State :=
  { s with sp.alert := t.sp.alert, evt := t.evt, cnt := t.cnt, fbk := t.fbk, dma := t.dma, mem := t.mem }

/-- From s to t nothing but reports was made. -/
def State.Reported (s t : State) : Prop := t = s.reportBy t

namespace State.Reported
variable {s t u : State}

theorem refl (s : State) : s.Reported s := rfl

theorem eq (h : s.Reported t) : t = s.reportBy t := h

theorem after (h' : t.Reported u) (h : s.Reported t) : s.Reported u :=
  calc u = t.reportBy u := h'
    _ = (s.reportBy t).reportBy u := congrArg (State.reportBy · u) h
    _ = s.reportBy u := rfl

theorem trans (h : s.Reported t) (h' : t.Reported u) : s.Reported u := after h' h

theorem ite {c : Prop} [Decidable c] (ht : s.Reported t) (hu : s.Reported u) : s.Reported (if c then t else u) := by
  split <;> assumption

theorem tre (h : s.Reported t) : t.tre = s.tre := (congrArg State.tre h.eq).trans rfl
theorem svy (h : s.Reported t) : t.svy = s.svy := (congrArg State.svy h.eq).trans rfl
theorem out (h : s.Reported t) : t.out = s.out := (congrArg State.out h.eq).trans rfl
theorem canSend (h : s.Reported t) (p : Fin 4) : t.canSend p = s.canSend p :=
  (congrArg (State.canSend · p) h.eq).trans rfl
theorem maskBits (h : s.Reported t) : t.maskBits = s.maskBits := (congrArg State.maskBits h.eq).trans rfl
theorem heldMap (h : s.Reported t) (p : Fin 4) (tmi : Nat) : t.heldMap p tmi = s.heldMap p tmi :=
  (congrArg (State.heldMap · p tmi) h.eq).trans rfl

theorem each {α : Type} {f : α → State → State} (hf : ∀ x t, State.Reported t (f x t)) (s : State) (l : List α) :
    s.Reported (s.each l f) := by
  induction l generalizing s with
  | nil => exact refl s
  | cons x l ih => exact (hf x s).trans (ih (f x s))

end State.Reported

theorem State.fbQueue_reported (r : FbRec) (s : State) : s.Reported (s.fbQueue r) := by
  unfold State.fbQueue
  (repeat' split) <;> rfl

theorem State.fbEvent_reported (n : Nat) (s : State) : s.Reported (s.fbEvent n) := by
  unfold State.fbEvent
  dsimp only
  split
  · rfl
  · split
    · rfl
    · exact .after (t := s.fbQueue _) rfl (State.fbQueue_reported _ s)

theorem State.dmaFire_reported (t : TrigSource) (s : State) : s.Reported (s.dmaFire t) := rfl

theorem State.raise_reported (n : Nat) (s : State) : s.Reported (s.raise n) := by
  unfold State.raise State.when
  dsimp only
  split
  · exact .after (State.dmaFire_reported _ _) (.after (State.fbEvent_reported n _) rfl)
  · exact .after (State.dmaFire_reported _ _) rfl

theorem State.raiseIf_reported (b : Bool) (n : Nat) (s : State) : s.Reported (s.raiseIf b n) := by
  unfold State.raiseIf State.when
  split
  · exact State.raise_reported n s
  · rfl

theorem State.count_reported (p i k : Nat) (s : State) : s.Reported (s.count p i k) := by
  unfold State.count
  split
  · exact .after (State.raiseIf_reported _ _ _) (.after (State.raiseIf_reported _ _ _) rfl)
  · rfl

theorem State.count1_reported (p i : Nat) (s : State) : s.Reported (s.count1 p i) := State.count_reported p i 1 s

theorem State.Reported.count1 {s t : State} (h : s.Reported t) (p i : Nat) : s.Reported (t.count1 p i) :=
  h.trans (State.count1_reported p i t)

theorem State.memLog_reported (kind region : Nat) (src : Byte) (synd addr : Nat) (s : State) :
    s.Reported (s.memLog kind region src synd addr) := by
  unfold State.memLog
  dsimp only
  split
  · rfl
  · exact .after (State.raise_reported _ _) rfl

theorem State.parityFound_reported (src : Byte) (r : MRegion) (a : Nat) (s : State) : s.Reported (s.parityFound src r a) := by
  have hlog : s.Reported ((s.memLog 5 r.code src (a % 4) a).raise 235) :=
    (State.memLog_reported _ _ _ _ _ s).trans (State.raise_reported _ _)
  unfold State.parityFound
  dsimp only
  split
  · exact (hlog.trans (State.count1_reported _ _ _)).trans (State.raise_reported _ _)
  · exact hlog

theorem State.parityFx_reported (src : Byte) (r : MRegion) (a : Nat) (be : BitVec 4) (s : State) :
    s.Reported (s.parityFx src r a be) := by
  unfold State.parityFx
  split
  · rfl
  · exact State.parityFound_reported _ _ _ s

/-- Writing the slots reads the send bank, and reports its wrong parity, nothing else (15 R406). -/
theorem State.sendParity_reported (s : State) : s.Reported s.sendParity := by
  unfold State.sendParity
  split
  · rfl
  · exact .each (fun _ t => State.parityFx_reported _ _ _ _ t) s _

/-! ### What reception leaves alone -/

/-- From s to t the state of the Traverse and that of the survey stayed. -/
def State.SameRing (s t : State) : Prop := t.tre = s.tre ∧ t.svy = s.svy

theorem State.SameRing.trans {s t u : State} (h : s.SameRing t) (h' : t.SameRing u) : s.SameRing u :=
  ⟨h'.1.trans h.1, h'.2.trans h.2⟩

theorem State.Reported.sameRing {s t : State} (h : s.Reported t) : s.SameRing t := ⟨h.tre, h.svy⟩

theorem State.modPort_sameRing (p : Fin 4) (f : Port → Port) (s : State) : s.SameRing (s.modPort p f) := ⟨rfl, rfl⟩

theorem State.portTo_sameRing (p : Fin 4) (st : PortState) (s : State) : s.SameRing (s.portTo p st) := by
  unfold State.portTo
  split
  · exact ⟨rfl, rfl⟩
  · exact (State.modPort_sameRing p _ s).trans (State.raise_reported _ _).sameRing

theorem State.erAdd_sameRing (p : Fin 4) (k : Nat) (s : State) : s.SameRing (s.erAdd p k) := by
  unfold State.erAdd
  split
  · exact ⟨rfl, rfl⟩
  · exact ((State.modPort_sameRing p _ s).trans (State.raiseIf_reported _ _ _).sameRing).trans (State.modPort_sameRing p _ _)

theorem State.rxLevel_sameRing (f : RxFrame) (s : State) : s.SameRing (s.rxLevel f) := by
  unfold State.rxLevel
  split
  · exact ⟨rfl, rfl⟩
  · exact .trans ⟨rfl, rfl⟩ (State.erAdd_sameRing _ _ _)

theorem State.rxFc_sameRing (f : RxFrame) (s : State) : s.SameRing (s.rxFc f) := by
  unfold State.rxFc
  dsimp only
  split
  · exact (State.modPort_sameRing _ _ s).trans (State.portTo_sameRing _ _ _)
  · exact State.modPort_sameRing _ _ s

theorem State.rxSnr_sameRing (f : RxFrame) (s : State) : s.SameRing (s.rxSnr f) := by
  unfold State.rxSnr
  split <;> exact ⟨rfl, rfl⟩

theorem State.rxCount_reported (f : RxFrame) (s : State) : s.Reported (s.rxCount f) := by
  have hbase : s.Reported (((s.count1 f.port.val 0).count f.port.val 1 (f.body.length + 4)).count1 f.port.val
      (4 + sizeClass [64, 255, 511, 1023, 2047] f.body.length)) :=
    ((State.count1_reported _ _ s).trans (State.count_reported _ _ _ _)).count1 _ _
  have onIf : ∀ {t : State} (c : Prop) [Decidable c] (i : Nat), s.Reported t →
      s.Reported (if c then t.count1 f.port.val i else t) := fun _ _ i h => .ite (h.count1 _ i) h
  unfold State.rxCount
  dsimp only
  split
  · exact hbase.count1 _ _
  · exact hbase.count1 _ _
  · exact onIf _ 17 (onIf _ 46 (onIf _ 16 ((hbase.count1 _ _).count1 _ _)))

/-- What every reception does leaves the Traverse and the survey as they were. -/
theorem State.rxFx_sameRing (f : RxFrame) (s : State) : s.SameRing (s.rxFx f) := by
  have hlevel := State.rxLevel_sameRing f s
  have hfc := hlevel.trans (State.rxFc_sameRing f _)
  have hsnr := hfc.trans (State.rxSnr_sameRing f _)
  unfold State.rxFx
  dsimp only
  split
  · exact hlevel
  · split
    · exact hfc.trans (State.count1_reported _ _ _).sameRing
    · exact hlevel.trans (State.count1_reported _ _ _).sameRing
  · exact (hfc.trans (State.count1_reported _ _ _).sameRing).trans (State.raise_reported _ _).sameRing
  · exact hsnr.trans (State.count1_reported _ _ _).sameRing
  · exact hsnr.trans (State.count1_reported _ _ _).sameRing
  · exact hsnr.trans (State.rxCount_reported f _).sameRing

/-! ### Which Traverse is taken -/

/-- A step that leaves local time takes no latch. -/
theorem State.latchStep_of_time_eq {s t : State} (h : t.tre.time = s.tre.time) : State.latchStep s t = t :=
  if_neg fun hstep => hstep.1 h

theorem State.crcOk_of_good {s : State} {f : RxFrame} (h : s.rxClass f = .good) : s.crcOk f = true := by
  unfold State.rxClass at h
  split at h
  · contradiction
  · split at h
    · contradiction
    · split at h
      · contradiction
      · split at h
        · contradiction
        · split at h
          · assumption
          · contradiction

theorem exec_traverseReceive (f : RxFrame) (beside : Option (List Byte)) (s : State) :
    exec (.traverseReceive f beside) s = .next (State.latchStep s (s.trvRx f beside)) := rfl

theorem exec_traverseReceive_otherType (f : RxFrame) (beside : Option (List Byte)) (s : State) (h : s.rxClass f = .good)
    (ht : fcType f.fc ≠ .traverse) : exec (.traverseReceive f beside) s = .next s := by
  have hrx : s.trvRx f beside = s := by simp only [State.trvRx, h, ht, ne_eq, not_false_eq_true, and_self, if_true]
  rw [exec_traverseReceive, hrx, State.latchStep_of_time_eq rfl]

/-- A reception whose body is not looked at. -/
theorem exec_traverseReceive_rxFx {f : RxFrame} {beside : Option (List Byte)} {s : State}
    (h : s.trvRx f beside = s.rxFx f) : exec (.traverseReceive f beside) s = .next (s.rxFx f) := by
  rw [exec_traverseReceive, h, State.latchStep_of_time_eq (congrArg Tre.time (State.rxFx_sameRing f s).1)]

theorem State.trvRx_unheard {f : RxFrame} {beside : Option (List Byte)} {s : State}
    (h : s.rxClass f = .nothing ∨ s.rxClass f = .header ∨ s.rxClass f = .noMap) : s.trvRx f beside = s.rxFx f := by
  rcases h with h | h | h <;> simp [State.trvRx, h]

theorem State.trvRx_disabled {f : RxFrame} {beside : Option (List Byte)} {s : State} (ht : fcType f.fc = .traverse)
    (he : s.tre.enabled = false) : s.trvRx f beside = s.rxFx f := by
  have he' : (s.rxFx f).tre.enabled = false := (congrArg Tre.enabled (State.rxFx_sameRing f s).1).trans he
  simp [State.trvRx, ht, he']

/-- A good Traverse of this node's epoch: its port is heard, and it is taken (06 R174, R194). -/
theorem State.trvRx_own {f : RxFrame} {s : State} (beside : Option (List Byte)) (h : s.rxClass f = .good)
    (ht : fcType f.fc = .traverse) (he : s.tre.enabled = true) (hcrc : hcrcOk f.body = true)
    (hep : (THdr.parse f.body).epoch = s.svy.epoch) (hne : s.svy.epoch ≠ 0)
    (hm : (mcrc (THdr.parse f.body).epoch (THdr.parse f.body).bench (THdr.parse f.body).tcount
      ((slice f.body 16 60).take 58)).toNat = beAt (slice f.body 16 60) 58 2) :
    s.trvRx f beside = ((s.rxFx f).modPort f.port fun c => { c with heard := true }).trvOwn f beside (THdr.parse f.body)
      (slice f.body 16 60) true true false := by
  obtain ⟨htre, hsvy⟩ := State.rxFx_sameRing f s
  have he' : (s.rxFx f).tre.enabled = true := (congrArg Tre.enabled htre).trans he
  have hne' : (THdr.parse f.body).epoch ≠ 0 := hep ▸ hne
  have hgood : s.crcOk f = true := State.crcOk_of_good h
  have hcrc' : ∀ t : State, t.crcOk f = true := fun _ => hgood
  have hep' : (THdr.parse f.body).epoch = (s.rxFx f).svy.epoch := hsvy ▸ hep
  have hh' : (s.rxFx f).svy.epoch ≠ 0 := hsvy ▸ hne
  simp only [State.trvRx, State.hasEpoch, State.raiseIf, State.when, State.modPort_svy, h, ht, he', hcrc, hm, hne', hcrc',
    ← hep', ne_eq, not_true_eq_false, not_false_eq_true, and_false, decide_true, decide_false, Bool.true_or, Bool.not_true,
    Bool.true_and, Bool.or_false, Bool.false_eq_true, if_false, if_true]

/-! ### The paths of a pass -/

theorem State.trvPass_outward (f : RxFrame) (beside : Option (List Byte)) (bad : Bool) (tc : Word) {s : State}
    (hthru : s.sys.thru = true) (hturned : s.sys.turned = false) :
    s.trvPass f beside .outIn true bad tc = s.sendPass s.outOut (f.ts + 24000) (fcTmi f.fc) false bad true
      (s.writeSlots tc (s.ofsFor (fcTmi f.fc)) beside
        ({ s.accNext f.port s.outOut (THdr.parse f.body) with leadin := false }.bytes ++ f.body.drop 16)) := by
  simp only [State.trvPass, hthru, hturned, regenHdr, Bool.not_true, Bool.false_eq_true, if_false, if_true]

theorem State.trvPass_turned (f : RxFrame) (beside : Option (List Byte)) (bad : Bool) (tc : Word) {s : State}
    (hthru : s.sys.thru = true) (hturned : s.sys.turned = true) :
    let body := s.writeSlots tc (s.ofsFor (fcTmi f.fc)) beside ((THdr.parse f.body).bytes ++ f.body.drop 16)
    s.trvPass f beside .outIn true bad tc =
      ((s.sendPass s.retOut (f.ts + 24000) (fcTmi f.fc) true bad true body).readPass (fcTmi f.fc) s.svy.epoch tc
        body).returned (!bad && decide (tc = s.tre.tcount)) (s.tsrxOf f + 24000) := by
  simp only [State.trvPass, hthru, hturned, regenHdr, Bool.not_true, Bool.false_eq_true, if_false, if_true, id_eq,
    Bool.true_and]

theorem State.trvPass_ownGroups (f : RxFrame) (beside : Option (List Byte)) (hdrOk bad : Bool) (tc : Word) {s : State}
    (hthru : s.sys.thru = false) :
    s.trvPass f beside .outIn hdrOk bad tc = s.sendOwn (if s.sys.turned = true then s.retOut else s.outOut) (f.ts + 24000)
      (fcTmi f.fc) f.body.length s.sys.turned tc := by
  simp only [State.trvPass, hthru, Bool.not_false, if_true]

theorem State.trvPass_return (f : RxFrame) (beside : Option (List Byte)) (bad : Bool) (tc : Word) {s : State}
    (hp : f.port ≠ s.retOut) :
    let t := (s.readPass (fcTmi f.fc) s.svy.epoch tc f.body).returned (!bad && decide (tc = s.tre.tcount)) (s.tsrxOf f)
    s.trvPass f beside .ret true bad tc = if s.sys.thru = true ∧ s.isHead = false
      then t.sendPass s.retOut (f.ts + 24000) (fcTmi f.fc) true bad false ((THdr.parse f.body).bytes ++ f.body.drop 16)
      else t := by
  simp only [State.trvPass, hp, regenHdr, if_false, if_true, id_eq, Bool.true_and, Bool.and_eq_true, Bool.not_eq_true']

/-! ### What a sender of the pass sends -/

theorem State.txCount_reported (p : Fin 4) (t : FType) (body : List Byte) (s : State) : s.Reported (s.txCount p t body) := by
  have hbase : s.Reported ((s.count1 p.val 2).count p.val 3 (body.length + 4)) :=
    (State.count1_reported _ _ s).trans (State.count_reported _ _ _ _)
  have hroad := fun i j => (hbase.count1 p.val i).count1 p.val j
  unfold State.txCount
  dsimp only
  split
  · exact .ite ((hroad _ _).count1 _ _) (hroad _ _)
  · exact hbase

/-- A frame leaves a port that may send: it is what is sent last. -/
theorem State.txFrameAt_out {p : Fin 4} {s : State} (start : Dword) (t : FType) (tmi : Nat) (pass bad : Bool)
    (only : Option (List Nat)) (body : List Byte) (h : s.canSend p = true) :
    (s.txFrameAt p start t tmi pass bad only body).out = s.out ++
      [.line p ⟨start, fcBytes t tmi pass body.length, body, bad, s.maskBits, s.heldMap p tmi, none, only, true⟩] := by
  simp only [State.txFrameAt, State.txStart, h, Bool.not_true, Bool.false_eq_true, if_false, State.when, if_true]
  rw [(State.txCount_reported p t body _).out]
  rfl

theorem State.sendPass_out {p : Fin 4} {s : State} (start : Dword) (tmi : Nat) (pass bad : Bool) (body : List Byte)
    (h : s.canSend p = true) :
    (s.sendPass p start tmi pass bad true body).out.getLast? = some (.line p ⟨start, fcBytes .traverse tmi pass body.length,
      body, bad, s.maskBits, s.heldMap p tmi, none,
      some (s.passSymbols (s.ringNdbps tmi) (tabOfs (s.ringNdbps tmi) s.tre.table) body), true⟩) := by
  have hpar := State.sendParity_reported s
  simp only [State.sendPass, State.when, if_true]
  rw [(State.raiseIf_reported _ _ _).out, State.txFrameAt_out _ _ _ _ _ _ _ ((hpar.canSend p).trans h), hpar.maskBits,
    hpar.heldMap]
  exact List.getLast?_concat

/-- The partner's symbols are left out, and no others (01 R20; 06 R181). -/
theorem State.mem_passSymbols {s : State} (n : Nat) (ofs : List Nat) (body : List Byte) (j : Nat) (hcov : s.tre.cover = false)
    (htab : s.tre.tabok = true) : j ∈ s.passSymbols n ofs body ↔
      j < (8 * body.length + 32 + n - 1) / n ∧ j ∉ s.symbolsOf n ofs fun x => s.partnerOwns x.2 := by
  simp only [State.passSymbols, hcov, htab, Bool.not_false, Bool.and_self, if_true, List.mem_filter, List.mem_range,
    Bool.not_eq_true', List.contains_eq_mem, decide_eq_false_iff_not]

/-- Settles O13: what a Traverse meets before its pass, the paths of the pass, and the symbols of a sender. -/
theorem traverseReceives : Obligations.TraverseReceives := by
  unfold Obligations.TraverseReceives
  refine ⟨exec_traverseReceive_otherType, fun f beside s h => exec_traverseReceive_rxFx (State.trvRx_unheard h),
    fun f beside s _ ht he => exec_traverseReceive_rxFx (State.trvRx_disabled ht he), ?_,
    fun f beside bad tc s hthru hturned => State.trvPass_outward f beside bad tc hthru hturned,
    fun f beside bad tc s hthru hturned => State.trvPass_turned f beside bad tc hthru hturned,
    fun f beside hdrOk bad tc s hthru => State.trvPass_ownGroups f beside hdrOk bad tc hthru,
    fun f beside bad tc s hp => State.trvPass_return f beside bad tc hp, ?_⟩
  · intro f beside s h ht he _ hcrc hep hne hm
    rw [exec_traverseReceive, State.trvRx_own beside h ht he hcrc hep hne hm]
  · intro p start tmi pass bad body s h
    exact ⟨_, _, rfl, fun hcov htab j => State.mem_passSymbols _ _ body j hcov htab,
      State.sendPass_out start tmi pass bad body h⟩

end Sys2Proof.Machine
end

section
/-! PROOF. What the instants of the Traverse settle and no later part of a command touches: one lemma an operation, from a bit
raised up to the exchange of the wayleave, the claims and the pass sent (06 R168 to R202). -/
namespace Sys2Proof.Machine

/-- What the instants of the Traverse settle: the counts and times of the ring, whether it runs and is followed, what a
takeover takes, the banks' flags at the latch, the Open Road window and the network role. -/
structure TrvCore where
  tcount : Word
  mtime : Dword
  localT0s : Word
  got : Bool
  enabled : Bool
  take : Bool
  missed : Nat
  offset : Word
  roadofs : BitVec 12
  bench : BitVec 6
  lastLatch : Option Word
  rxok : BitVec 256
  frzok : BitVec 256
  ltime : Dword
  roadOpen : Bool
  netrole : NetRole

def State.trvCore (s : State) : TrvCore where
  tcount := s.tre.tcount
  mtime := s.tre.mtime
  localT0s := s.tre.localT0s
  got := s.tre.got
  enabled := s.tre.enabled
  take := s.tre.take
  missed := s.tre.missed
  offset := s.tre.offset
  roadofs := s.tre.roadofs
  bench := s.tre.bench
  lastLatch := s.tre.lastLatch
  rxok := s.tre.rxok
  frzok := s.tre.frzok
  ltime := s.ctl.ltime
  roadOpen := s.road.open_
  netrole := s.sys.netrole

/-- From s0 to s what the instants of the Traverse settle stayed, and every event raised stayed raised. -/
def State.Kept (s0 s : State) : Prop :=
  s.trvCore = s0.trvCore ∧ ∀ n, s0.evt.raw.getLsbD n = true → s.evt.raw.getLsbD n = true

namespace State.Kept
variable {s0 s : State}

theorem refl (s : State) : s.Kept s := ⟨rfl, fun _ h => h⟩

theorem trans {t : State} (h : s0.Kept s) (h' : s.Kept t) : s0.Kept t :=
  ⟨h'.1.trans h.1, fun n hn => h'.2 n (h.2 n hn)⟩

theorem tcount (h : s0.Kept s) : s.tre.tcount = s0.tre.tcount := congrArg TrvCore.tcount h.1
theorem mtime (h : s0.Kept s) : s.tre.mtime = s0.tre.mtime := congrArg TrvCore.mtime h.1
theorem localT0s (h : s0.Kept s) : s.tre.localT0s = s0.tre.localT0s := congrArg TrvCore.localT0s h.1
theorem got (h : s0.Kept s) : s.tre.got = s0.tre.got := congrArg TrvCore.got h.1
theorem enabled (h : s0.Kept s) : s.tre.enabled = s0.tre.enabled := congrArg TrvCore.enabled h.1
theorem take (h : s0.Kept s) : s.tre.take = s0.tre.take := congrArg TrvCore.take h.1
theorem missed (h : s0.Kept s) : s.tre.missed = s0.tre.missed := congrArg TrvCore.missed h.1
theorem offset (h : s0.Kept s) : s.tre.offset = s0.tre.offset := congrArg TrvCore.offset h.1
theorem roadofs (h : s0.Kept s) : s.tre.roadofs = s0.tre.roadofs := congrArg TrvCore.roadofs h.1
theorem bench (h : s0.Kept s) : s.tre.bench = s0.tre.bench := congrArg TrvCore.bench h.1
theorem lastLatch (h : s0.Kept s) : s.tre.lastLatch = s0.tre.lastLatch := congrArg TrvCore.lastLatch h.1
theorem rxok (h : s0.Kept s) : s.tre.rxok = s0.tre.rxok := congrArg TrvCore.rxok h.1
theorem frzok (h : s0.Kept s) : s.tre.frzok = s0.tre.frzok := congrArg TrvCore.frzok h.1
theorem ltime (h : s0.Kept s) : s.ctl.ltime = s0.ctl.ltime := congrArg TrvCore.ltime h.1
theorem roadOpen (h : s0.Kept s) : s.road.open_ = s0.road.open_ := congrArg TrvCore.roadOpen h.1
theorem netrole (h : s0.Kept s) : s.sys.netrole = s0.sys.netrole := congrArg TrvCore.netrole h.1

/-- An event raised before is still raised. -/
theorem raised {n : Nat} (h : s0.Kept s) (hn : s0.evt.raw.getLsbD n = true) : s.evt.raw.getLsbD n = true := h.2 n hn

/-- A state that agrees with s in what the instants settle and in the events raised. -/
theorem update {t : State} (h : s0.Kept s) (hcore : t.trvCore = s.trvCore) (hraw : t.evt.raw = s.evt.raw) : s0.Kept t :=
  ⟨hcore.trans h.1, fun n hn => hraw ▸ h.2 n hn⟩

/-! ### Control flow -/

theorem ite {c : Prop} [Decidable c] {a b : State} (ha : s0.Kept a) (hb : s0.Kept b) : s0.Kept (if c then a else b) := by
  split <;> assumption

theorem when {b : Bool} {f : State → State} (h : s0.Kept s) (hf : s0.Kept (f s)) : s0.Kept (s.when b f) := .ite hf h

theorem each {α : Type} {l : List α} {f : α → State → State} (h : s0.Kept s) (hf : ∀ x t, s0.Kept t → s0.Kept (f x t)) :
    s0.Kept (s.each l f) := by
  induction l generalizing s with
  | nil => exact h
  | cons x l ih => exact ih (hf x s h)

/-! ### Reports -/

theorem dmaFire (t : TrigSource) (h : s0.Kept s) : s0.Kept (s.dmaFire t) := h

theorem fbQueue (r : FbRec) (h : s0.Kept s) : s0.Kept (s.fbQueue r) := .ite h (.ite h h)

theorem fbEvent (n : Nat) (h : s0.Kept s) : s0.Kept (s.fbEvent n) := .ite h (.ite h (.fbQueue _ h))

theorem raise (n : Nat) (h : s0.Kept s) : s0.Kept (s.raise n) := by
  have hset : ∀ m, s0.evt.raw.getLsbD m = true → (setBit s.evt.raw n).getLsbD m = true :=
    fun m hm => getLsbD_setBit_of_set n (h.2 m hm)
  exact .dmaFire _ (.when ⟨h.1, hset⟩ (.fbEvent n ⟨h.1, hset⟩))

theorem raiseIf (b : Bool) (n : Nat) (h : s0.Kept s) : s0.Kept (s.raiseIf b n) := .when h (.raise n h)

theorem count (p i k : Nat) (h : s0.Kept s) : s0.Kept (s.count p i k) := by
  unfold State.count
  split
  · exact .raiseIf _ _ (.raiseIf _ _ h)
  · exact h

theorem count1 (p i : Nat) (h : s0.Kept s) : s0.Kept (s.count1 p i) := .count p i 1 h

/-! ### Memories (15) -/

theorem setReg (a : Nat) (v : Word) (h : s0.Kept s) : s0.Kept (s.setReg a v) := h

theorem setBytes (a : Nat) (bs : List Byte) (h : s0.Kept s) : s0.Kept (s.setBytes a bs) := by
  rw [State.setBytes_frame]
  exact h

theorem putWord (a : Nat) (w : Word) (h : s0.Kept s) : s0.Kept (s.putWord a w) := .setBytes a _ h

theorem setErr (a : Nat) (e : Option WordErr) (h : s0.Kept s) : s0.Kept (s.setErr a e) := h

theorem bufWrite (a : Nat) (bs : List Byte) (h : s0.Kept s) : s0.Kept (s.bufWrite a bs) := State.Kept.setBytes a bs h

theorem memLog (kind region : Nat) (src : Byte) (synd addr : Nat) (h : s0.Kept s) :
    s0.Kept (s.memLog kind region src synd addr) := .ite h (.raise _ h)

theorem eccCe (kind : Nat) (src : Byte) (a : Nat) (e : WordErr) (h : s0.Kept s) : s0.Kept (s.eccCe kind src a e) :=
  .raise _ (.memLog _ _ _ _ _ h)

theorem eccUe (kind : Nat) (src : Byte) (a : Nat) (e : WordErr) (h : s0.Kept s) : s0.Kept (s.eccUe kind src a e) :=
  .raise _ (.memLog _ _ _ _ _ h)

theorem eccReadFx (src : Byte) (a : Nat) (h : s0.Kept s) : s0.Kept (s.eccReadFx src a) := by
  unfold State.eccReadFx
  split
  · exact h
  · split
    · exact .eccCe _ _ _ _ (.setErr _ _ (.putWord _ _ h))
    · exact .eccUe _ _ _ _ h

theorem eccFullWrite (a : Nat) (v : Word) (h : s0.Kept s) : s0.Kept (s.eccFullWrite a v) := by
  unfold State.eccFullWrite
  split
  · exact .setReg _ _ (.setErr _ _ (.putWord _ _ h))
  · exact .setErr _ _ (.putWord _ _ h)

theorem eccWrite (src : Byte) (a : Nat) (be : BitVec 4) (v : Word) (h : s0.Kept s) : s0.Kept (s.eccWrite src a be v) := by
  unfold State.eccWrite
  split
  · exact .eccFullWrite _ _ h
  · split
    · exact .putWord _ _ h
    · split
      · exact .eccCe _ _ _ _ (.setErr _ _ (.putWord _ _ h))
      · exact .raise _ (.eccUe _ _ _ _ (.setErr _ _ (.putWord _ _ h)))

theorem pokeWord (src : Byte) (a : Nat) (v : Word) (h : s0.Kept s) : s0.Kept (s.pokeWord src a v) := .eccWrite _ _ _ _ h

theorem parityFound (src : Byte) (r : MRegion) (a : Nat) (h : s0.Kept s) : s0.Kept (s.parityFound src r a) := by
  have hlog := raise 235 (memLog 5 r.code src (a % 4) a h)
  exact .ite (.raise _ (.count1 _ _ hlog)) hlog

theorem parityFx (src : Byte) (r : MRegion) (a : Nat) (be : BitVec 4) (h : s0.Kept s) : s0.Kept (s.parityFx src r a be) := by
  unfold State.parityFx
  split
  · exact h
  · exact .parityFound _ _ _ h

theorem memReadFx (src : Byte) (a : Nat) (be : BitVec 4) (h : s0.Kept s) : s0.Kept (s.memReadFx src a be) := by
  unfold State.memReadFx
  split
  · exact .eccReadFx _ _ h
  · exact .eccReadFx _ _ h
  · exact .parityFx _ _ _ _ h
  · exact .parityFx _ _ _ _ h
  · exact .parityFx _ _ _ _ h
  · exact .parityFx _ _ _ _ h
  · exact h

theorem wordReads (a n : Nat) (h : s0.Kept s) : s0.Kept (s.wordReads a n) := .each h fun _ _ => .memReadFx _ _ _

theorem blockReadFx (a n : Nat) (h : s0.Kept s) : s0.Kept (s.blockReadFx a n) := by
  have hr := wordReads a n h
  exact .when hr hr

theorem cairnAuto (tcount : Word) (h : s0.Kept s) : s0.Kept (s.cairnAuto tcount) := .ite (.each h fun _ _ ht => ht) h

/-! ### The line ports (04) -/

theorem txCount (p : Fin 4) (t : FType) (body : List Byte) (h : s0.Kept s) : s0.Kept (s.txCount p t body) := by
  have ha := count p.val 3 (body.length + 4) (count1 p.val 2 h)
  have hb := fun i j => count1 p.val j (count1 p.val i ha)
  exact .ite (.ite (.count1 _ _ (hb _ _)) (hb _ _)) ha

theorem txStart (p : Fin 4) (start : Dword) (t : FType) (tmi : Nat) (pass bad : Bool) (combs : Option (Fin 4 × Fin 4))
    (only : Option (List Nat)) (body : List Byte) (h : s0.Kept s) :
    s0.Kept (s.txStart p start t tmi pass bad combs only body) := .ite h h

theorem txFrameAt (p : Fin 4) (start : Dword) (t : FType) (tmi : Nat) (pass bad : Bool) (only : Option (List Nat))
    (body : List Byte) (h : s0.Kept s) : s0.Kept (s.txFrameAt p start t tmi pass bad only body) := by
  have hs := txStart p start t tmi pass bad none only body h
  exact .when hs (.txCount _ _ _ hs)

/-! ### The Causeway, as far as a frame's end reaches it (14) -/

theorem cwyLogAdd (remote : Bool) (w nid cause notapp : Nat) (addr data : Word) (fseq : Nat) (h : s0.Kept s) :
    s0.Kept (s.cwyLogAdd remote w nid cause notapp addr data fseq) := .ite (.raise _ h) (.raise _ h)

theorem hostLog (cause : Nat) (x : HostAcc) (v : Half) (h : s0.Kept s) : s0.Kept (s.hostLog cause x v) :=
  .cwyLogAdd _ _ _ _ _ _ _ _ h

theorem heldDrop (w : Fin 16) (h : s0.Kept s) : s0.Kept (s.heldDrop w) := by
  unfold State.heldDrop
  split
  · exact h
  · exact .hostLog _ _ _ h

theorem hostAccept (x : HostAcc) (v : Half) (par : BitVec 2) (h : s0.Kept s) : s0.Kept (s.hostAccept x v par) := by
  have hd := heldDrop x.win h
  unfold State.hostAccept
  dsimp only
  split
  · exact .raise _ (.hostLog _ _ _ hd)
  · split
    · exact hd
    · split
      · exact h
      · exact hd

theorem hostResume (h : s0.Kept s) : s0.Kept s.hostResume := by
  unfold State.hostResume
  split
  · exact .ite (.hostAccept _ _ _ h) h
  · exact h

theorem cwyFlightEnd (w : Fin 16) (cause idx : Nat) (h : s0.Kept s) : s0.Kept (s.cwyFlightEnd w cause idx) := by
  unfold State.cwyFlightEnd
  split
  · exact h
  · refine .hostResume (.ite h ?_)
    split
    · exact h
    · exact .cwyLogAdd _ _ _ _ _ _ _ _ h

theorem cwyTxResult (w : Fin 16) (result : Nat) (h : s0.Kept s) : s0.Kept (s.cwyTxResult w result) := by
  unfold State.cwyTxResult
  split
  · exact h
  · exact .cwyFlightEnd _ _ _ h
  · exact .cwyFlightEnd _ _ _ h
  · exact .cwyFlightEnd _ _ _ h

/-! ### Open Road: a frame queued, and one that ends (07) -/

theorem pfcCheck (e : Fin 2) (p : Fin 8) (h : s0.Kept s) : s0.Kept (s.pfcCheck e p) := by
  have hsent : ∀ t, s0.Kept t → s0.Kept (State.pfcCount e t) := fun t ht =>
    .count1 _ _ (.count1 _ _ (.count1 _ _ (.count _ _ _ (.count1 _ _ ht))))
  exact .ite h (.ite (hsent _ h) (.ite (hsent _ h) h))

theorem roadDraw (p : Fin 4) (h : s0.Kept s) : s0.Kept (s.roadDraw p) := by
  unfold State.roadDraw
  dsimp only
  split <;> exact h

theorem roadAgain (p : Fin 4) (before : Option QFrame) (h : s0.Kept s) : s0.Kept (s.roadAgain p before) := by
  unfold State.roadAgain
  dsimp only
  split
  · split
    · exact h
    · exact .ite h h
  · exact .roadDraw _ h

theorem roadPut (p : Fin 4) (q : QFrame) (h : s0.Kept s) : s0.Kept (s.roadPut p q) := .roadAgain _ _ h

theorem txDone (a : Word) (result : Nat) (h : s0.Kept s) : s0.Kept (s.txDone a result) := by
  have ht := pokeWord 7 a.toNat (s.peekWord a.toNat &&& 0x8FFFFFFF ||| packW [(30, 1), (28, result)]) (blockReadFx a.toNat 4 h)
  exact .ite h (.when (.raise _ ht) (.count1 _ _ (.raise _ ht)))

theorem transitCount (q : QFrame) (result : Nat) (h : s0.Kept s) : s0.Kept (s.transitCount q result) := by
  have hrx : s0.Kept (s.when (decide (q.acct = 1)) (State.roadRxCount (RHdr.parse q.body))) :=
    .when h (.count1 _ _ (.count1 _ _ (.count _ _ _ (.count1 _ _ h))))
  exact .ite h (.when hrx (.count1 _ _ hrx))

theorem frameCount (q : QFrame) (result : Nat) (h : s0.Kept s) : s0.Kept (s.frameCount q result) := by
  unfold State.frameCount
  dsimp only
  split
  · exact .transitCount _ _ h
  · split
    · exact .count1 _ _ (.count _ _ _ (.count1 _ _ h))
    · exact .count1 _ _ h
    · exact h

/-- The result of a frame reaches the transmit record it came from. -/
theorem recordDone (q : QFrame) (result : Nat) (h : s0.Kept s) :
    s0.Kept (match q.src with | some r => s.txDone r result | none => s) := by
  split
  · exact .txDone _ _ h
  · exact h

/-- The result of a frame reaches the window of the Causeway it carries. -/
theorem windowDone (q : QFrame) (result : Nat) (h : s0.Kept s) :
    s0.Kept (match q.cwy with | some w => s.cwyTxResult w result | none => s) := by
  split
  · exact .cwyTxResult _ _ h
  · exact h

theorem frameEnd (q : QFrame) (result : Nat) (h : s0.Kept s) : s0.Kept (s.frameEnd q result) := by
  have hd := windowDone q result (recordDone q result (frameCount q result h))
  exact .ite h (.ite hd hd)

theorem undeliverable (q : QFrame) (h : s0.Kept s) : s0.Kept (s.undeliverable q) := .frameEnd _ _ (.raise _ (.count1 _ _ h))

theorem sendPause (p : Fin 4) (prio ptime : Nat) (h : s0.Kept s) : s0.Kept (s.sendPause p prio ptime) := by
  have hp : ∀ q, s0.Kept (s.bumpSeq.roadPut p q) := fun q => .roadPut _ _ h
  exact .when (hp _) (.raise _ (hp _))

theorem pauseCheck (p : Fin 4) (prio : Nat) (h : s0.Kept s) : s0.Kept (s.pauseCheck p prio) :=
  .ite h (.ite (.sendPause _ _ _ h) (.ite (.sendPause _ _ _ h) h))

theorem frameLeft (q : QFrame) (h : s0.Kept s) : s0.Kept (s.frameLeft q) := by
  have ht : s0.Kept (match q.from_ with
      | some p => s.pauseCheck p (RHdr.parse q.body).prio
      | none => s) := by
    split
    · exact .pauseCheck _ _ h
    · exact h
  unfold State.frameLeft
  dsimp only
  split
  · exact .pfcCheck _ _ ht
  · exact ht

theorem frameLost (q : QFrame) (h : s0.Kept s) : s0.Kept (s.frameLost q) :=
  .frameLeft _ (.ite (.frameEnd _ _ h) (.undeliverable _ h))

theorem roadSort (p : Fin 4) (k : Nat) (h : s0.Kept s) : s0.Kept (State.roadSort p k s) := by
  induction k generalizing s with
  | zero => exact h
  | succ k ih =>
    unfold State.roadSort
    split
    · exact h
    · split
      · exact h
      · split
        · split
          · exact h
          · exact ih (.roadPut _ _ h)
        · exact ih (.frameLost _ h)

theorem roadEnqueue (p : Fin 4) (q : QFrame) (h : s0.Kept s) : s0.Kept (s.roadEnqueue p q) :=
  .roadAgain _ _ (.roadSort _ _ h)

theorem sendUnicast (dst : BitVec 6) (q : QFrame) (h : s0.Kept s) : s0.Kept (s.sendUnicast dst q) := by
  unfold State.sendUnicast
  split
  · exact .frameEnd _ _ h
  · split
    · exact .roadEnqueue _ _ h
    · exact .undeliverable _ h

theorem sendMgmt (dst : BitVec 6) (tag : BitVec 2) (payload : List Byte) (h : s0.Kept s) :
    s0.Kept (s.sendMgmt dst tag payload) := .sendUnicast _ _ h

/-! ### The wayleave (12) -/

theorem laneTo (st : LaneState) (h : s0.Kept s) : s0.Kept (s.laneTo st) := .ite h (.raise _ h)

theorem laneOffDrive (h : s0.Kept s) : s0.Kept s.laneOffDrive := .ite (.laneTo _ h) h

theorem wlvReqRx (nid : BitVec 6) (req flags : Byte) (h : s0.Kept s) : s0.Kept (s.wlvReqRx nid req flags) :=
  .ite h (.ite h h)

theorem wlvSend (req : Nat) (h : s0.Kept s) : s0.Kept (s.wlvSend req) := by
  unfold State.wlvSend
  dsimp only
  split
  · exact h
  · exact .ite (.wlvReqRx _ _ _ h) (.sendMgmt _ _ _ h)

theorem wlvShot (req : Nat) (h : s0.Kept s) : s0.Kept (s.wlvShot req) := .wlvSend _ h

theorem wlvAskNow (req : Nat) (h : s0.Kept s) : s0.Kept (s.wlvAskNow req) := .wlvSend _ h

theorem wlvAsk (h : s0.Kept s) : s0.Kept s.wlvAsk := .ite h (.wlvAskNow _ h)

theorem drillEnd (ok : Bool) (h : s0.Kept s) : s0.Kept (s.drillEnd ok) := .when (.raise _ h) (.wlvShot _ (.raise _ h))

theorem driveEnd (h : s0.Kept s) : s0.Kept s.driveEnd := by
  have hoff := raise 211 (s := { s with lane.perm := false, wlv.ovr := false }) h
  exact ite (.laneOffDrive (.when hoff (.drillEnd _ hoff))) h

theorem ilCheck (h : s0.Kept s) : s0.Kept s.ilCheck := .ite (.ite h (.raise _ h)) (.ite (.raise _ h) h)

theorem revCheck (h : s0.Kept s) : s0.Kept s.revCheck := .ite h h

theorem wlvIdle (h : s0.Kept s) : s0.Kept s.wlvIdle := ite (.driveEnd h) h

theorem wlvRun (h : s0.Kept s) : s0.Kept s.wlvRun :=
  ite (driveEnd (.raise _ (ite (driveEnd (ite h h)) (ite h h)))) (ite (driveEnd (ite h h)) (ite h h))

theorem ownUpdate (h : s0.Kept s) : s0.Kept s.ownUpdate := .ite (.ite h (.ite h (.ite h h))) (.ite h h)

theorem peerLostCheck (h : s0.Kept s) : s0.Kept s.peerLostCheck := .when h (.wlvShot _ h)

theorem wlvSync (h : s0.Kept s) : s0.Kept s.wlvSync := by
  have ha := ilCheck (revCheck h)
  exact .ite h (.wlvAsk (.peerLostCheck (.ite (.ownUpdate (.wlvRun ha)) (.wlvIdle ha))))

theorem handoffEnd (h : s0.Kept s) : s0.Kept s.handoffEnd := .wlvSync (driveEnd h)

theorem handoffStart (h : s0.Kept s) : s0.Kept s.handoffStart := .ite (.handoffEnd h) h

theorem shotsAnswered (me changed : Bool) (h : s0.Kept s) : s0.Kept (s.shotsAnswered me changed) := .ite (.raise _ h) h

theorem byteGrant (lease : Nat) (h : s0.Kept s) : s0.Kept (s.byteGrant lease) :=
  .shotsAnswered _ _ (raiseIf _ 208 h)

theorem byteRevoke (peer : Bool) (h : s0.Kept s) : s0.Kept (s.byteRevoke peer) := by
  unfold State.byteRevoke
  extract_lets had a _ b c
  have hb : s0.Kept b := raiseIf had 209 h
  have hc : s0.Kept c := .ite (.shotsAnswered _ _ hb) hb
  exact .ite (.handoffStart hc) (.ite hc hc)

theorem byteApply (x : Byte) (h : s0.Kept s) : s0.Kept (s.byteApply x) :=
  ite (.byteGrant _ h) (.ite (.byteRevoke _ h) (.ite h h))

theorem byteUngrant (h : s0.Kept s) : s0.Kept s.byteUngrant :=
  .ite h (.ite (.ite h h) (.ite (driveEnd h) h))

theorem byteHeard (tcount : Word) (bytes : List Byte) (h : s0.Kept s) : s0.Kept (s.byteHeard tcount bytes) :=
  .ite (.raise _ h) h

theorem byteTake (tcount : Word) (bytes : List Byte) (h : s0.Kept s) : s0.Kept (s.byteTake tcount bytes) := by
  have hb := byteHeard tcount bytes h
  exact .ite h (.ite (.wlvSync hb) (.wlvSync (.byteUngrant (.byteApply _ hb))))

theorem ilRenew (h : s0.Kept s) : s0.Kept s.ilRenew := .ite h (.wlvAskNow _ (driveEnd h))

theorem leaseCount (h : s0.Kept s) : s0.Kept s.leaseCount := by
  unfold State.leaseCount
  dsimp only
  split
  · exact .ilRenew h
  · split
    · exact h
    · split
      · exact h
      · split
        · exact .ilRenew (raiseIf _ 209 h)
        · exact raiseIf _ 209 h

theorem ilCount (h : s0.Kept s) : s0.Kept s.ilCount := h

theorem drillCount (h : s0.Kept s) : s0.Kept s.drillCount := h

theorem revCount (cycleNs : Nat) (missing : Bool) (h : s0.Kept s) : s0.Kept (s.revCount cycleNs missing) := .ite h h

theorem askCount (h : s0.Kept s) : s0.Kept s.askCount := h

theorem wlvEvaluate (h : s0.Kept s) : s0.Kept s.wlvEvaluate := h

theorem wlvSteward (h : s0.Kept s) : s0.Kept s.wlvSteward := h

theorem judgeFit (h : s0.Kept s) : s0.Kept s.judgeFit :=
  h.update (by simp only [State.trvCore, State.judgeFit]) (by simp only [State.judgeFit])

theorem wlvCycle (h : s0.Kept s) : s0.Kept s.wlvCycle := by
  have ha : s0.Kept { s.judgeFit with wlv.late := false } :=
    (judgeFit h).update (by simp only [State.trvCore]) (by simp only)
  unfold State.wlvCycle
  dsimp only
  split
  · exact .wlvEvaluate ha
  · split
    · exact .wlvSteward ha
    · exact .raise _ (.wlvEvaluate ha)

theorem wlvAdopt (h : s0.Kept s) : s0.Kept s.wlvAdopt := h

/-! ### The survey's settle timer (05) -/

theorem svySettle (cause : Option (BitVec 4)) (h : s0.Kept s) : s0.Kept (s.svySettle cause) :=
  each (l := fins 4) (s := s.svyClear.svySnap) h fun _ _ ht => ht

/-! ### The control cycle at the latch instant (09) -/

theorem progTo (p : ProgState) (h : s0.Kept s) : s0.Kept (s.progTo p) := .wlvSync (.raiseIf _ _ (.raiseIf _ _ h))

theorem cause (n : Nat) (h : s0.Kept s) : s0.Kept (s.cause n) := .ite h h

theorem ctxFill (h : s0.Kept s) : s0.Kept s.ctxFill := .each h fun _ _ => .pokeWord _ _ _

theorem latchCauses (h : s0.Kept s) : s0.Kept s.latchCauses := by
  unfold State.latchCauses
  extract_lets free watched a b c
  have ha : s0.Kept a := .when h (.cause _ h)
  have hb : s0.Kept b := .when ha (.cause _ ha)
  exact when hb (.cause _ hb)

theorem latchCycle (h : s0.Kept s) : s0.Kept s.latchCycle := by
  unfold State.latchCycle
  extract_lets _ a b
  have ha : s0.Kept a := .ite h h
  have hb : s0.Kept b := .latchCauses ha
  exact .ite (.ctxFill ha) (.ite (.ctxFill (.progTo _ hb)) (.ite (.ctxFill hb) (ctxFill hb)))

theorem laneLatch (h : s0.Kept s) : s0.Kept s.laneLatch := ite (.laneTo _ h) h

/-! ### Claims, the table and the pass (06) -/

theorem sendParity (h : s0.Kept s) : s0.Kept s.sendParity := .ite h (.each h fun _ _ => .parityFx _ _ _ _)

theorem sendPass (p : Fin 4) (start : Dword) (tmi : Nat) (pass bad writes : Bool) (body : List Byte) (h : s0.Kept s) :
    s0.Kept (s.sendPass p start tmi pass bad writes body) := .raiseIf _ _ (.txFrameAt _ _ _ _ _ _ _ _ (.when h (.sendParity h)))

theorem readSlot (epoch : Byte) (tcount : Word) (body : List Byte) (ofs i : Nat) (e : Word) (h : s0.Kept s) :
    s0.Kept (s.readSlot epoch tcount body ofs i e) := by
  have ht := bufWrite (0x40049000 + imgOfs s.tre.table i) (slice body ofs (entLen e)) h
  exact .ite ht ht

theorem readPass (tmi : Nat) (epoch : Byte) (tcount : Word) (body : List Byte) (h : s0.Kept s) :
    s0.Kept (s.readPass tmi epoch tcount body) := .ite h (.raiseIf _ _ (.each h fun _ _ => .readSlot _ _ _ _ _ _))

theorem returned (ok : Bool) (tsrx : Nat) (h : s0.Kept s) : s0.Kept (s.returned ok tsrx) := .ite h h

theorem claimRx (nid : BitVec 6) (len8 user : Nat) (h : s0.Kept s) : s0.Kept (s.claimRx nid len8 user) := by
  unfold State.claimRx
  refine .ite h (.ite (.ite h h) ?_)
  dsimp only
  split
  · exact h
  · exact .ite h h

theorem claimSend (h : s0.Kept s) : s0.Kept s.claimSend := by
  unfold State.claimSend
  split
  · exact h
  · exact .each (.raise _ h) fun _ _ ht => .ite (.claimRx _ _ _ ht) (.sendMgmt _ _ _ ht)

theorem claimStart (h : s0.Kept s) : s0.Kept s.claimStart := .ite (.claimSend h) h

theorem entriesStart (h : s0.Kept s) : s0.Kept s.entriesStart := .ite (.ite h h) (.claimStart h)

theorem claimFollow (had : Bool) (h : s0.Kept s) : s0.Kept (s.claimFollow had) := .ite h (.ite (.claimStart h) h)

theorem editApply (i seq : Byte) (e : Word) (h : s0.Kept s) : s0.Kept (s.editApply i seq e) :=
  .ite (.raise _ h) (.claimFollow _ (.raiseIf _ _ (.raise _ h)))

theorem designLoad (h : s0.Kept s) : s0.Kept s.designLoad := by
  unfold State.designLoad
  split <;> exact h

theorem tableAdopt (h : s0.Kept s) : s0.Kept s.tableAdopt := by
  unfold State.tableAdopt
  split
  · exact .entriesStart (.claimFollow _ h)
  · exact h

theorem commitTake (h : s0.Kept s) : s0.Kept s.commitTake := by
  have ht := bufWrite 0x40048800 (s.bytesAt 0x40048000 2048) (wordReads 0x40048000 2048 h)
  unfold State.commitTake
  dsimp only
  split
  · exact h
  · exact .raise _ (ht.update (by simp only [State.trvCore]) (by simp only))

theorem splitTake (h : s0.Kept s) : s0.Kept s.splitTake := by
  have hhand : ∀ (old : BitVec 10) t, s0.Kept t → s0.Kept (State.splitHand old t) := fun _ _ ht =>
    ite (ite ht ht) (ite ht ht)
  exact .raiseIf _ _ (hhand _ _ h)

theorem mute (h : s0.Kept s) : s0.Kept s.mute := .revCheck (.raise _ h)

theorem unmute (h : s0.Kept s) : s0.Kept s.unmute := raise 85 h

theorem syncStep (off : Int) (h : s0.Kept s) : s0.Kept (s.syncStep off) := by
  cases hs : s.tre.sync with
  | free =>
    rw [State.syncStep_free off hs]
    exact h
  | acq =>
    rw [State.syncStep_acq off hs]
    exact .ite (.mute h) (.ite (.ite (.raise _ h) h) h)
  | locked =>
    rw [State.syncStep_locked off hs]
    exact .ite (.mute h) (.ite h (.ite (.revCheck (.raise _ h)) h))
  | muted =>
    rw [State.syncStep_muted off hs]
    exact .ite (.ite (.unmute h) h) h

theorem latTake (check : Bool) (h : s0.Kept s) : s0.Kept (s.latTake check) := raiseIf _ 87 h

theorem effSet (h : s0.Kept s) : s0.Kept s.effSet := raiseIf _ 102 h

theorem editsStep (h : s0.Kept s) : s0.Kept s.editsStep := by
  unfold State.editsStep
  extract_lets flying due _ t
  have ht : s0.Kept t := by
    unfold t
    split
    · exact .ite (.ite (.editApply _ _ _ h) (.raise _ h)) h
    · exact h
  split
  · exact .ite ht (.raise _ ht)
  · exact ht

theorem traverseSend (beside : Option (List Byte)) (h : s0.Kept s) : s0.Kept (s.traverseSend beside) := by
  unfold State.traverseSend
  extract_lets tmi n ofs blank body t
  refine ite ?_ (.raiseIf _ _ (sendPass _ _ _ _ _ _ _ h))
  have ht : s0.Kept t := .sendPass _ _ _ _ _ _ _ h
  exact .ite (.returned _ _ (.readPass _ _ _ _ ht)) ht

end State.Kept

end Sys2Proof.Machine
end

section
/-! PROOF. The instants of the Traverse: T0 and the local T0, closure, the latch, missed Traverses, takeover, cover and roles
(06 R168 to R202; 01 R21, R24). -/
namespace Sys2Proof.Machine

theorem State.raise_raises {n : Nat} (s : State) (h : n < 256) : (s.raise n).evt.raw.getLsbD n = true := by
  rw [State.raise_evt_raw]
  exact getLsbD_setBit_self _ h

theorem State.isBench_iff {s : State} : s.isBench = true ↔ s.sys.netrole = .benchmark := by simp [State.isBench]

theorem State.isBench_eq_false {s : State} (h : s.sys.netrole ≠ .benchmark) : s.isBench = false := by simp [State.isBench, h]

theorem State.when_true {s : State} {b : Bool} (f : State → State) (h : b = true) : s.when b f = f s := if_pos h

/-! ### T0 -/

theorem exec_t0 (beside : Option (List Byte)) (s : State) : exec (.t0 beside) s = .next (s.when s.coreRuns fun s =>
    if s.benchRuns then State.benchT0 beside { s with tre.tcount := s.tre.tcount + 1 } else s) := rfl

/-- The T0 keeps the count, stamps the time and raises EV080. -/
theorem State.benchT0_settles (beside : Option (List Byte)) (s : State) :
    (s.benchT0 beside).tre.tcount = s.tre.tcount ∧ (s.benchT0 beside).tre.mtime = s.tre.time ∧
      (s.benchT0 beside).evt.raw.getLsbD 80 = true := by
  unfold State.benchT0
  extract_lets _ a b c d
  have hb : a.Kept b := .effSet (.editsStep (.refl a))
  have hc : a.Kept (c.raise 80) := .raise 80 (.ite (.wlvCycle hb) hb)
  have hsent : (c.raise 80).Kept (d.traverseSend beside) := .traverseSend _ (.byteTake _ _ (.syncStep _ (.refl _)))
  have hall := hc.trans hsent
  exact ⟨hall.tcount, hall.mtime, hsent.raised (State.raise_raises c (by omega))⟩

theorem exec_t0_runs (beside : Option (List Byte)) {s : State} (hc : s.coreRuns = true) (hb : s.benchRuns = true) :
    ∃ t, exec (.t0 beside) s = .next t ∧ t.tre.tcount = s.tre.tcount + 1 ∧ t.tre.mtime = s.tre.time ∧
      t.evt.raw.getLsbD 80 = true :=
  ⟨_, by rw [exec_t0, State.when_true _ hc, if_pos hb], State.benchT0_settles beside _⟩

theorem exec_t0_still (beside : Option (List Byte)) {s : State} (hb : s.benchRuns = false) :
    exec (.t0 beside) s = .next s := by
  simp only [exec_t0, State.when, hb, Bool.false_eq_true, if_false, ite_self]

/-! ### Local T0 -/

/-- What a change of roles leaves of s in t: the counts and times of the ring and the window stay, TRE_CTL.EN is taken, and no
node becomes the benchmark. -/
def State.RolesTaken (s t : State) : Prop :=
  t.tre.tcount = s.tre.tcount ∧ t.tre.mtime = s.tre.mtime ∧ t.tre.localT0s = s.tre.localT0s ∧ t.tre.time = s.tre.time ∧
    t.tre.heardMil = s.tre.heardMil ∧ t.tre.per = s.tre.per ∧ t.tre.enabled = s.regBit Reg.TRE_CTL 0 ∧
    t.road.open_ = s.road.open_ ∧ (s.sys.netrole ≠ .benchmark → t.sys.netrole ≠ .benchmark)

theorem State.RolesTaken.raiseIf {s t : State} (b : Bool) (n : Nat) (h : s.RolesTaken t) : s.RolesTaken (t.raiseIf b n) := by
  simpa only [State.RolesTaken, State.raiseIf_tre, State.raiseIf_road, State.raiseIf_sys] using h

theorem State.RolesTaken.ite {s a b : State} {c : Prop} [Decidable c] (ha : s.RolesTaken a) (hb : s.RolesTaken b) :
    s.RolesTaken (if c then a else b) := by
  split <;> assumption

theorem State.rolesTake_taken (s : State) : s.RolesTaken s.rolesTake := by
  unfold State.rolesTake
  extract_lets _ a _ _ b _ c _ d
  have ha : s.RolesTaken a := ⟨rfl, rfl, rfl, rfl, rfl, rfl, rfl, rfl, id⟩
  have hb : s.RolesTaken b := .ite ⟨rfl, rfl, rfl, rfl, rfl, rfl, rfl, rfl, fun _ h => nomatch h⟩ ha
  have hc : s.RolesTaken c := .ite hb hb
  have hd : s.RolesTaken d := .ite hc hc
  split
  · exact .raiseIf _ _ hd
  · exact hd

/-- The prediction at a node that is not the benchmark. -/
theorem State.predict_member {s : State} (h : s.sys.netrole ≠ .benchmark) : s.predict = { s with
    tre.tcount := if s.tre.heardMil = true then s.tre.tcount + 1 else s.tre.tcount
    tre.mtime := if s.tre.heardMil = true then s.tre.mtime + BitVec.ofNat 64 s.periodNs else s.tre.time
    tre.got := false } := by
  simp only [State.predict, State.isBench_eq_false h]
  cases s.tre.heardMil <;> rfl

theorem State.localT0_settles {s : State} (h : s.sys.netrole ≠ .benchmark) :
    s.localT0.road.open_ = false ∧ s.localT0.tre.localT0s = s.tre.localT0s + 1 ∧
      s.localT0.tre.tcount = (if s.tre.heardMil = true then s.tre.tcount + 1 else s.tre.tcount) ∧
      s.localT0.tre.mtime = (if s.tre.heardMil = true then s.tre.mtime + BitVec.ofNat 64 s.periodNs else s.tre.time) ∧
      s.localT0.tre.got = false ∧ s.localT0.tre.enabled = s.regBit Reg.TRE_CTL 0 := by
  unfold State.localT0
  extract_lets a b count c
  obtain ⟨htcount, hmtime, hlocal, htime, hheard, hper, henabled, hopen, hrole⟩ := State.rolesTake_taken s.roadClose
  have hc : a.predict.Kept c := .wlvSync (.cairnAuto _ (.splitTake (.commitTake (.tableAdopt (.refl _)))))
  have hperiod : a.periodNs = s.periodNs := congrArg (fun p : BitVec 12 => 250000 * clampN 8 2048 p.toNat) hper
  rw [State.predict_member (hrole h)] at hc
  refine ⟨hc.roadOpen.trans hopen, congrArg (· + 1) (hc.localT0s.trans hlocal), hc.tcount.trans ?_, hc.mtime.trans ?_, hc.got,
    hc.enabled.trans henabled⟩
  · rw [← show a.tre.heardMil = s.tre.heardMil from hheard, ← show a.tre.tcount = s.tre.tcount from htcount]
  · rw [← show a.tre.heardMil = s.tre.heardMil from hheard, ← show a.tre.mtime = s.tre.mtime from hmtime,
      ← show a.tre.time = s.tre.time from htime, ← hperiod]

theorem exec_localT0_member {s : State} (hc : s.coreRuns = true) (h : s.sys.netrole ≠ .benchmark) :
    ∃ t, exec .localT0 s = .next t ∧ t.road.open_ = false ∧ t.tre.localT0s = s.tre.localT0s + 1 ∧
      t.tre.tcount = (if s.tre.heardMil = true then s.tre.tcount + 1 else s.tre.tcount) ∧
      t.tre.mtime = (if s.tre.heardMil = true then s.tre.mtime + BitVec.ofNat 64 s.periodNs else s.tre.time) ∧
      t.tre.got = false ∧ t.tre.enabled = s.regBit Reg.TRE_CTL 0 :=
  ⟨s.localT0, congrArg Host.Outcome.next (State.when_true State.localT0 hc), State.localT0_settles h⟩

/-! ### Closure -/

theorem exec_returnPassComplete (s : State) : exec .returnPassComplete s = .next s.passComplete := rfl

theorem State.passComplete_closed {s : State} (h : s.tre.passOpen = false) : s.passComplete = s.closure := by
  simp only [State.passComplete, h, Bool.not_false, if_true]

section
variable {s : State} {ts : Dword}

/-- A sound returned frame, the first or near the last ring delay, closes the loop. -/
theorem State.closure_good (hrole : s.sys.netrole = .benchmark) (hseen : s.tre.closeSeen = false)
    (hret : s.tre.lastRet = some (true, ts))
    (hnear : ∀ r, s.tre.ringDelay = some r → (ts - s.tre.mtime).toNat ≤ r + 200 ∧ r ≤ (ts - s.tre.mtime).toNat + 200) :
    s.closure = { s with
      tre.closeSeen := true, tre.closeGood := s.tre.closeGood + 1
      tre.rdly := BitVec.ofNat 32 (ts - s.tre.mtime).toNat, tre.ringDelay := some (ts - s.tre.mtime).toNat
      tre.closed := true } := by
  have hb := State.isBench_iff.mpr hrole
  cases hr : s.tre.ringDelay with
  | none =>
    simp only [State.closure, hb, hseen, hret, hr, Bool.not_true, Bool.or_self, Bool.false_eq_true, if_false, Bool.and_self,
      if_true]
  | some r =>
    obtain ⟨h1, h2⟩ := hnear r hr
    simp only [State.closure, hb, hseen, hret, hr, h1, h2, decide_true, Bool.not_true, Bool.or_self, Bool.false_eq_true,
      if_false, Bool.and_self, if_true]

/-- A bad returned frame, or one far from the last ring delay, is a closure failure. -/
theorem State.closure_bad {ok : Bool} (hrole : s.sys.netrole = .benchmark) (hseen : s.tre.closeSeen = false)
    (hret : s.tre.lastRet = some (ok, ts)) (hbad : ok = false ∨ ∃ r, s.tre.ringDelay = some r ∧
      (r + 200 < (ts - s.tre.mtime).toNat ∨ (ts - s.tre.mtime).toNat + 200 < r)) :
    s.closure = State.raise 91 { s with tre.closeSeen := true, tre.closeFail := s.tre.closeFail + 1 } := by
  have hb := State.isBench_iff.mpr hrole
  rcases hbad with hok | ⟨r, hr, hfar⟩
  · simp [State.closure, hb, hseen, hret, hok]
  · have hnot : ¬ ((ts - s.tre.mtime).toNat ≤ r + 200 ∧ r ≤ (ts - s.tre.mtime).toNat + 200) := by omega
    have hnot' : (decide ((ts - s.tre.mtime).toNat ≤ r + 200) && decide (r ≤ (ts - s.tre.mtime).toNat + 200)) = false := by
      rw [← Bool.decide_and, decide_eq_false hnot]
    simp only [State.closure, hb, hseen, hret, hr, hnot', Bool.and_false, Bool.not_true, Bool.or_self, Bool.false_eq_true,
      if_false]

end

theorem exec_closureFail_bench {s : State} (hrole : s.sys.netrole = .benchmark) (hseen : s.tre.closeSeen = false) :
    exec .closureFail s = .next
      (State.raise 91 { s with tre.closeSeen := true, tre.closeFail := s.tre.closeFail + 1 }) :=
  congrArg Host.Outcome.next (if_pos (by rw [State.isBench_iff.mpr hrole, hseen]; rfl))

/-! ### The latch instant -/

theorem exec_latchInstant (s : State) :
    exec .latchInstant s = .next (s.when s.coreRuns fun s => if s.latchDue then s.latch else s) := rfl

/-- The freeze takes TRE_RXOK into TRE_FRZOK, and no latch nor time of its own. -/
theorem State.freeze_settles (s : State) : s.freeze.tre.lastLatch = s.tre.lastLatch ∧ s.freeze.ctl.ltime = s.ctl.ltime ∧
    s.freeze.tre.frzok = s.tre.rxok := by
  have h : s.Kept ((s.wordReads 0x4004A000 4096).bufWrite 0x4004B000 (s.bytesAt 0x4004A000 4096)) :=
    .bufWrite _ _ (.wordReads _ _ (.refl s))
  unfold State.freeze
  dsimp only
  exact ⟨h.lastLatch, h.ltime, h.rxok⟩

theorem State.latch_settles (s : State) : s.latch.tre.lastLatch = s.latchAt ∧ s.latch.ctl.ltime = s.tre.time ∧
    s.latch.tre.frzok = s.tre.rxok ∧ s.latch.evt.raw.getLsbD 81 = true := by
  unfold State.latch
  extract_lets _ _ a b c
  obtain ⟨hlatch, hltime, hfrzok⟩ := State.freeze_settles a
  have hc : (a.freeze.raise 81).Kept c :=
    .askCount (.revCount _ _ (.drillCount (.ilCount (.leaseCount (.dmaFire _ (.refl _))))))
  have hend : (a.freeze.raise 81).Kept ((c.laneLatch).latchCycle).wlvSync := .wlvSync (.latchCycle (.laneLatch hc))
  rw [hend.lastLatch, hend.ltime, hend.frzok, State.raise_tre, State.raise_ctl]
  exact ⟨hlatch, hltime, hfrzok, hend.raised (State.raise_raises _ (by omega))⟩

theorem exec_latchInstant_due {s : State} (hc : s.coreRuns = true) (h : s.latchDue = true) :
    ∃ t, exec .latchInstant s = .next t ∧ t.tre.lastLatch = s.latchAt ∧ t.ctl.ltime = s.tre.time ∧
      t.tre.frzok = s.tre.rxok ∧ t.evt.raw.getLsbD 81 = true :=
  ⟨_, by rw [exec_latchInstant, State.when_true _ hc, if_pos h], State.latch_settles s⟩

theorem exec_latchInstant_still {s : State} (h : s.latchDue = false) : exec .latchInstant s = .next s := by
  simp only [exec_latchInstant, State.when, h, Bool.false_eq_true, if_false, ite_self]

/-! ### Loss of milestones and of Traverses -/

theorem exec_syncHoldExpiry (s : State) : exec .syncHoldExpiry s =
    .next (s.when s.coreRuns fun s => if s.tre.sync = .acq ∨ s.tre.sync = .locked then s.mute else s) := rfl

theorem exec_syncHoldExpiry_mutes {s : State} (hc : s.coreRuns = true) (h : s.tre.sync = .acq ∨ s.tre.sync = .locked) :
    exec .syncHoldExpiry s = .next s.mute := by
  rw [exec_syncHoldExpiry, State.when_true _ hc, if_pos h]

theorem exec_syncHoldExpiry_still {s : State} (h : s.tre.sync = .free ∨ s.tre.sync = .muted) :
    exec .syncHoldExpiry s = .next s := by
  rcases h with h | h <;> simp [exec_syncHoldExpiry, State.when, h]

theorem exec_missedTraverse {s : State} (hc : s.coreRuns = true) (he : s.hasEpoch = true)
    (hrole : s.sys.netrole ≠ .benchmark) (hgot : s.tre.got = false) :
    exec .missedTraverse s = .next (State.raise 86 { s with tre.missed := s.tre.missed + 1 }) :=
  congrArg Host.Outcome.next ((State.when_true _ hc).trans
    (if_pos (by rw [he, State.isBench_eq_false hrole, hgot]; rfl)))

/-! ### Takeover -/

/-- What a takeover settles: the role, the count of what was missed, what TRE_ROAD gives, and EV092. -/
theorem State.takeover_settles (beside : Option (List Byte)) {s : State} (hrole : s.sys.netrole = .backup)
    (hmissed : s.takeN + s.sys.rank.toNat ≤ s.tre.missed + 1) (hctl : s.regBit Reg.TRE_CTL 1 = false)
    (hen : s.tre.enabled = true) (hup : s.lineUp = true) (he : s.hasEpoch = true) :
    (s.takeover beside).sys.netrole = .benchmark ∧ (s.takeover beside).tre.take = true ∧
      (s.takeover beside).tre.missed = 0 ∧ (s.takeover beside).tre.offset = 0 ∧
      (s.takeover beside).tre.roadofs = (s.reg Reg.TRE_ROAD).setWidth 12 ∧
      (s.takeover beside).tre.bench = s.svy.nid.getD 0 ∧ (s.takeover beside).evt.raw.getLsbD 92 = true := by
  unfold State.takeover
  extract_lets lat due _ _ a a' b c d
  have hdue : due = true := by simp only [due, hmissed, hrole, decide_true, Bool.and_self]
  rw [if_neg (by simp only [hdue, hctl, hen, hup, he, Bool.not_true, Bool.or_self, Bool.false_eq_true, not_false_eq_true])]
  have ha : a.Kept (a'.raise 92) := .raise 92 (.when (.refl a) (.claimStart (.designLoad (.refl a))))
  have hb : (a'.raise 92).Kept b := .latTake _ (.wlvAdopt (.refl _))
  have hc : (a'.raise 92).Kept c := .ite (.svySettle _ hb) hb
  have hsent : (a'.raise 92).Kept (State.traverseSend beside { d with sys.roleShown := d.roleNow }) :=
    .traverseSend _ (State.Kept.raise 80 (.effSet hc))
  have hall := ha.trans hsent
  exact ⟨hall.netrole, hall.take, hall.missed, hall.offset, hall.roadofs, hall.bench,
    hsent.raised (State.raise_raises a' (by omega))⟩

theorem exec_takeover {s : State} (beside : Option (List Byte)) (hc : s.coreRuns = true) :
    exec (.takeover beside) s = .next (s.takeover beside) :=
  congrArg Host.Outcome.next (State.when_true (State.takeover beside) hc)

/-! ### Cover and roles -/

theorem exec_coverStart {s : State} (hc : s.coreRuns = true) (hthru : s.sys.thru = true) (htab : s.tre.tabok = true)
    (hpartner : s.tre.table.any s.partnerOwns = true) (hcover : s.tre.cover = false) :
    exec .coverStart s = .next { s with tre.coverNext := some true } :=
  congrArg Host.Outcome.next ((State.when_true _ hc).trans (if_pos (by rw [hthru, htab, hpartner, hcover]; rfl)))

theorem exec_throughUnitChange (runs : Bool) (s : State) : exec (.throughUnitChange runs) s =
    .next (if !s.hasEpoch then s
      else if !runs && !s.sys.thru then { s with sys.thruNext := true }
      else if runs && s.sys.thru && s.unitB then { s with sys.thruGive := true }
      else s) := rfl

theorem exec_throughUnitChange_takes {s : State} (hthru : s.sys.thru = false) (he : s.hasEpoch = true) :
    exec (.throughUnitChange false) s = .next { s with sys.thruNext := true } := by
  simp only [exec_throughUnitChange, hthru, he, Bool.not_true, Bool.not_false, Bool.and_self, Bool.false_eq_true, if_false,
    if_true]

theorem exec_throughUnitChange_gives {s : State} (hthru : s.sys.thru = true) (he : s.hasEpoch = true) (hb : s.unitB = true) :
    exec (.throughUnitChange true) s = .next { s with sys.thruGive := true } := by
  simp only [exec_throughUnitChange, hthru, he, hb, Bool.not_true, Bool.and_self, Bool.false_eq_true, if_false, if_true]

theorem exec_throughUnitChange_still {s : State} (hthru : s.sys.thru = false) :
    exec (.throughUnitChange true) s = .next s := by
  simp only [exec_throughUnitChange, hthru, Bool.not_true, Bool.false_and, Bool.and_false, Bool.false_eq_true, if_false,
    ite_self]

theorem exec_turnout_starts {s : State} (he : s.hasEpoch = true) (hturned : s.sys.turned = false)
    (hnext : s.sys.turnNext = false) :
    exec .turnout s = .next (if s.sys.thru = true then State.svyTrigger 2 { s with sys.turnNext := true }
      else { s with sys.turnNext := true }) :=
  congrArg Host.Outcome.next (if_pos (by rw [he, hturned, hnext]; rfl))

/-- Settles O15, instant by instant; how a unit that is not the through unit takes a turnout is the model's choice (log 179). -/
theorem traverseServes : Obligations.TraverseServes := by
  unfold Obligations.TraverseServes
  refine ⟨fun beside s hc hb => exec_t0_runs beside hc hb, fun beside s hb => exec_t0_still beside hb,
    fun s hc h => exec_localT0_member hc h, ?_, ?_, ?_, ?_, fun s hrole hseen => exec_closureFail_bench hrole hseen,
    fun s hc h => exec_latchInstant_due hc h, fun s h => exec_latchInstant_still h,
    fun s hc h => exec_syncHoldExpiry_mutes hc h, fun s h => exec_syncHoldExpiry_still h,
    fun s hc he hrole hgot => exec_missedTraverse hc he hrole hgot, ?_,
    fun s hc hthru htab hpartner hcover => exec_coverStart hc hthru htab hpartner hcover,
    fun s hthru he => exec_throughUnitChange_takes hthru he, fun s hthru he hb => exec_throughUnitChange_gives hthru he hb,
    fun s hthru => exec_throughUnitChange_still hthru, fun s he hturned hnext => exec_turnout_starts he hturned hnext,
    fun s => rfl⟩
  · intro ts s hopen hrole hseen hret hfirst
    rw [exec_returnPassComplete, State.passComplete_closed hopen,
      State.closure_good hrole hseen hret fun r hr => nomatch hfirst.symm.trans hr]
  · intro ts r s hopen hrole hseen hret hlast
    rw [exec_returnPassComplete, State.passComplete_closed hopen]
    exact ⟨fun h1 h2 => by
        rw [State.closure_good hrole hseen hret fun r' hr' => Option.some.inj (hlast.symm.trans hr') ▸ ⟨h1, h2⟩],
      fun hfar => by rw [State.closure_bad hrole hseen hret (.inr ⟨r, hlast, hfar⟩)]⟩
  · intro ts s hopen hrole hseen hret
    rw [exec_returnPassComplete, State.passComplete_closed hopen, State.closure_bad hrole hseen hret (.inl rfl)]
  · intro s hopen
    rw [exec_returnPassComplete, State.passComplete, hopen]
    rfl
  · intro beside s hc hrole hmissed hctl hen hup he
    exact ⟨_, exec_takeover beside hc, State.takeover_settles beside hrole hmissed hctl hen hup he⟩

end Sys2Proof.Machine
end

section
/-! PROOF. The service port: what a transaction takes, and the image, reads, refusals and bad frames (02 R36 to R48; 03 R69;
08 R254). -/
namespace Sys2Proof.Machine

/-! ### A transaction -/

/-- What every transaction at a port that takes it leaves, whatever it commits: the answer on SDO, the select over, one
fewer in the key window, and LAST (02 R36, R44, R47, R51). -/
def State.spTaken (a : BitVec 6) (s : State) : State := (s.emit (.sdo (s.sdoBytes a))).spOver.spBegin a

theorem State.test_of_spTakes {s : State} (h : s.spTakes = true) : s.sys.test = false := by
  simp only [State.spTakes, State.spAnswers, Bool.and_eq_true, Bool.not_eq_true'] at h
  obtain ⟨⟨⟨_, htest⟩, _⟩, _⟩ := h
  exact htest

theorem State.transact_taken {s : State} (a : BitVec 6) (f : Bool → Bool → State → State) (h : s.spTakes = true) :
    s.transact a f = f s.keyIn s.sp.keyFirst (s.spTaken a) := by
  simp only [State.transact, State.test_of_spTakes h, h, Bool.not_true, Bool.false_eq_true, if_false, State.spTaken]

theorem State.transact_lost {s : State} (a : BitVec 6) (f : Bool → Bool → State → State) (ht : s.sys.test = false)
    (h : s.spTakes = false) : s.transact a f = s.spOver := by
  simp only [State.transact, ht, h, Bool.not_false, Bool.false_eq_true, if_false, if_true]

theorem State.transact_test {s : State} (a : BitVec 6) (f : Bool → Bool → State → State) (h : s.sys.test = true) :
    s.transact a f = (s.emit (.sdo [0xFF, 0xFF, 0xFF, 0xFF])).spOver := if_pos h

theorem next_transact_taken {s : State} (a : BitVec 6) (f : Bool → Bool → State → State) (h : s.spTakes = true) :
    (.next (s.transact a f) : Result) = .next (f s.keyIn s.sp.keyFirst (s.spTaken a)) :=
  congrArg Host.Outcome.next (State.transact_taken a f h)

section
variable {s : State} (h : s.spTakes = true)
include h

theorem exec_peek_taken (a : BitVec 6) : exec (.peek a) s = .next (s.spTaken a) := next_transact_taken _ _ h

theorem exec_normalRead_taken (a : BitVec 6) : exec (.normalRead a) s = .next ((s.spTaken a).spReadFx a) :=
  next_transact_taken _ _ h

theorem exec_commandRefused_taken (a : BitVec 6) : exec (.commandRefused a) s = .next ((s.spTaken a).spLast 3) :=
  next_transact_taken _ _ h

theorem exec_serviceWrite_taken (a : BitVec 6) (v : Half) :
    exec (.serviceWrite a v) s = .next ((s.spTaken a).spWrite a v s.keyIn s.sp.keyFirst) := next_transact_taken _ _ h

theorem exec_key_taken (v : Half) : exec (.key v) s = .next ((s.spTaken 0x18).keyWrite s.sp.keyFirst v) :=
  next_transact_taken _ _ h

theorem exec_deepRead_taken {v : Half} (hgo : v.getLsbD 15 = true) (hdir : v.getLsbD 14 = false) :
    exec (.deepRead v) s = .next ((s.spTaken 0x0A).dctlWrite s.keyIn v) :=
  congrArg Host.Outcome.next ((if_pos (by rw [hgo, hdir]; rfl)).trans (State.transact_taken _ _ h))

theorem exec_deepWrite_taken {v : Half} (hgo : v.getLsbD 15 = true) (hdir : v.getLsbD 14 = true) :
    exec (.deepWrite v) s = .next ((s.spTaken 0x0A).dctlWrite s.keyIn v) :=
  congrArg Host.Outcome.next ((if_pos (by rw [hgo, hdir]; rfl)).trans (State.transact_taken _ _ h))

theorem exec_autoIncrement_read_taken : exec (.autoIncrement none) s = .next (s.spTaken 0x09).deepRead9 :=
  next_transact_taken _ _ h

theorem exec_autoIncrement_write_taken (v : Half) :
    exec (.autoIncrement (some v)) s = .next ((s.spTaken 0x09).deepRegWrite 0x09 s.keyIn v) := next_transact_taken _ _ h

theorem exec_fbStart_taken : exec .fbStart s = .next (s.spTaken 0x14).fbStart := next_transact_taken _ _ h

theorem exec_fbNewest_taken : exec .fbNewest s = .next (s.spTaken 0x14).fbNewest := next_transact_taken _ _ h

theorem exec_fbDataRead_taken : exec .fbDataRead s = .next (s.spTaken 0x16).fbAdvance := next_transact_taken _ _ h

/-- A transaction that adds the change g to what the peek of the same register leaves. -/
theorem exec_beside_peek {i : Instr} {a : BitVec 6} {r : State} (g : State → State) (hi : exec i s = .next r)
    (hr : r = g (s.spTaken a)) : ∃ t u, exec i s = .next t ∧ exec (.peek a) s = .next u ∧ t = g u :=
  ⟨r, _, hi, exec_peek_taken h a, hr⟩

end

/-! ### The image, reads and the bits on SDI -/

theorem exec_serviceImageCapture_answers (apin : Bool) {s : State} (h : s.spAnswers = true) :
    exec (.serviceImageCapture apin) s = .next { s with
      sp.image := (List.range 64).map fun i => s.spReg (s.statusByte apin) (BitVec.ofNat 6 i)
      sp.status := s.statusByte apin, sp.open_ := true, sp.lost := false } := congrArg Host.Outcome.next (if_pos h)

theorem exec_serviceImageCapture_silent (apin : Bool) {s : State} (h : s.spAnswers = false) :
    exec (.serviceImageCapture apin) s = .next { s with sp.lost := true } :=
  congrArg Host.Outcome.next (if_neg (by rw [h]; exact Bool.false_ne_true))

theorem exec_peek_lost (a : BitVec 6) {s : State} (ht : s.sys.test = false) (h : s.spTakes = false) :
    exec (.peek a) s = .next s.spOver := congrArg Host.Outcome.next (State.transact_lost a _ ht h)

theorem exec_peek_test (a : BitVec 6) {s : State} (h : s.sys.test = true) :
    exec (.peek a) s = .next (s.emit (.sdo [0xFF, 0xFF, 0xFF, 0xFF])).spOver :=
  congrArg Host.Outcome.next (State.transact_test a _ h)

/-- Only SP_ALERT, SP_DDATA_H and SP_FB_DATA have a read effect (02 R42, R52, R56). -/
theorem State.spReadFx_none {a : BitVec 6} (h3 : a ≠ 0x03) (h9 : a ≠ 0x09) (h16 : a ≠ 0x16) (s : State) :
    s.spReadFx a = s := by
  have hne : ∀ b : BitVec 6, a ≠ b → a.toNat ≠ b.toNat := fun b hab hn => hab (BitVec.eq_of_toNat_eq hn)
  unfold State.spReadFx
  split
  case h_1 hn => exact absurd hn (hne 0x03 h3)
  case h_2 hn => exact absurd hn (hne 0x09 h9)
  case h_3 hn => exact absurd hn (hne 0x16 h16)
  case h_4 => rfl

theorem exec_normalRead_plain {a : BitVec 6} {s : State} (h : s.spTakes = true) (h3 : a ≠ 0x03) (h9 : a ≠ 0x09)
    (h16 : a ≠ 0x16) : exec (.normalRead a) s = exec (.peek a) s := by
  rw [exec_normalRead_taken h, exec_peek_taken h, State.spReadFx_none h3 h9 h16]

/-- A record that is held is what START loads the pointer with (08 R254). -/
theorem State.fbStart_held {s : State} (h : (s.fbRecs.any fun r => r.1 == s.sp.fbSeq) = true) :
    s.fbStart = { s with sp.fbPtr := some s.sp.fbSeq, sp.fbWord := 0, sp.fbEnd := false, sp.fbGap := false } := if_pos h

theorem State.spEdges_taken {s : State} (edges : Nat) (w : Word) (h : s.spTakes = true) :
    s.spEdges edges w = s.spError edges w := by
  simp only [State.spEdges, State.test_of_spTakes h, h, Bool.not_true, Bool.false_eq_true, if_false]

theorem exec_edges_test (edges : Nat) (w : Word) {s : State} (h : s.sys.test = true) :
    exec (.crcOrFramingError edges w) s = .next (s.emit (.sdoBits (List.replicate edges true))).spOver :=
  congrArg Host.Outcome.next (if_pos h)

theorem exec_edges_wrong {edges : Nat} {w : Word} {s : State} (h : s.spTakes = true)
    (hw : edges ≠ 32 ∨ sdiCrcOk w = false) :
    exec (.crcOrFramingError edges w) s = .next { s with
      out := s.out ++ [.sdoBits (s.sdoBits w edges)]
      sp.last := if edges = 32 then 1 else 2, sp.open_ := false, sp.lost := false
      sp.keyOpen := false, sp.keyLeft := 0, sp.alert := setBit s.sp.alert 13 } := by
  have hnot : ¬ (edges = 32 ∧ sdiCrcOk w = true) := fun ⟨hn, hc⟩ => hw.elim (· hn) (by simp [hc])
  exact congrArg Host.Outcome.next ((State.spEdges_taken edges w h).trans (if_neg hnot))

/-- The transaction that a good word on SDI spells is the command that its W and P name (02 R38). -/
theorem exec_edges_good {w : Word} {s : State} (h : s.spTakes = true) (hw : sdiCrcOk w = true) :
    exec (.crcOrFramingError 32 w) s = exec (match sdiW w, sdiP w with
      | false, false => .normalRead (sdiAddr w)
      | false, true => .peek (sdiAddr w)
      | true, false => .serviceWrite (sdiAddr w) (sdiData w)
      | true, true => .commandRefused (sdiAddr w)) s := by
  have hrun : exec (.crcOrFramingError 32 w) s = .next (s.sdiRun w) :=
    congrArg Host.Outcome.next ((State.spEdges_taken 32 w h).trans (if_pos ⟨rfl, hw⟩))
  rw [hrun, State.sdiRun]
  cases sdiW w <;> cases sdiP w <;> rfl

theorem exec_keyWindowClose_due {s : State} (hopen : s.sp.keyOpen = true) (hleft : s.sp.keyLeft = 0) :
    exec .keyWindowClose s = .next s.keyClose := congrArg Host.Outcome.next (if_pos ⟨hopen, hleft⟩)

/-- Settles O1, transaction by transaction. -/
theorem serviceReads : Obligations.ServiceReads := by
  unfold Obligations.ServiceReads
  exact ⟨fun apin _ h => exec_serviceImageCapture_answers apin h, fun apin _ h => exec_serviceImageCapture_silent apin h,
    fun a _ ht h => exec_peek_lost a ht h, fun a _ h => exec_peek_test a h, fun edges w _ h => exec_edges_test edges w h,
    fun a _ h => exec_peek_taken h a, fun _ _ h h3 h9 h16 => exec_normalRead_plain h h3 h9 h16,
    fun _ h => exec_beside_peek h _ (exec_normalRead_taken h 0x03) rfl,
    fun a _ h => exec_beside_peek h _ (exec_commandRefused_taken h a) rfl,
    fun _ h => exec_beside_peek h _ (exec_fbDataRead_taken h) rfl,
    fun _ h hheld => exec_beside_peek h _ (exec_fbStart_taken h) (State.fbStart_held hheld),
    fun _ h => exec_beside_peek h _ (exec_fbNewest_taken h) rfl,
    fun _ _ _ h hw => exec_edges_wrong h hw, fun _ _ h hw => exec_edges_good h hw,
    fun _ hopen hleft => exec_keyWindowClose_due hopen hleft⟩

end Sys2Proof.Machine
end

section
/-! PROOF. Writes over the service port: the key window, keyed registers, and the deep window's launch, access and end (02 R41,
R47 to R49, R53 to R58). -/
namespace Sys2Proof.Machine

/-! ### The key window -/

theorem State.keyWrite_firstWord (first : Bool) (s : State) : s.keyWrite first 0x7A5C = { s with sp.keyFirst := true } := rfl

theorem State.keyWrite_opens (s : State) : s.keyWrite true 0x85A3 = { s with sp.keyOpen := true, sp.keyLeft := 255 } := rfl

theorem State.keyWrite_without (s : State) : s.keyWrite false 0x85A3 = s := rfl

theorem State.keyWrite_other {v : Half} (first : Bool) (s : State) (h1 : v ≠ 0x7A5C) (h2 : v ≠ 0x85A3) :
    s.keyWrite first v = s.keyClose := by simp only [State.keyWrite, h1, h2, if_false]

/-! ### Keyed registers -/

/-- A keyed register without the window keeps its value and answers LAST 0b101 (02 R49). -/
theorem State.spWrite_unkeyed {a : BitVec 6} (v : Half) (first : Bool) (s : State)
    (ha : a = 0x05 ∨ a = 0x0D ∨ a = 0x10 ∨ a = 0x19) : s.spWrite a v false first = s.spLast 5 := by
  rcases ha with rfl | rfl | rfl | rfl <;> rfl

/-! ### The deep window's registers -/

section
variable {s : State}

theorem State.dctlWrite_launches {key : Bool} {v : Half} (hgo : v.getLsbD 15 = true)
    (hkey : v.getLsbD 14 = false ∨ key = true) (h : s.sp.busy = false) :
    s.dctlWrite key v = State.deepLaunch { s with sp.dctl := v &&& 0x7C00 } := by
  have hk : (v.getLsbD 14 && !key) = false := by
    rcases hkey with h | h <;> simp only [h, Bool.false_and, Bool.not_true, Bool.and_false]
  simp only [State.dctlWrite, State.when, h, hgo, hk, Bool.true_and, Bool.false_eq_true, if_false, if_true]

theorem State.dctlWrite_unkeyed {v : Half} (hgo : v.getLsbD 15 = true) (hdir : v.getLsbD 14 = true) (h : s.sp.busy = false) :
    s.dctlWrite false v = s.spLast 5 := by
  simp only [State.dctlWrite, h, hgo, hdir, Bool.not_false, Bool.and_self, Bool.false_eq_true, if_false, if_true]

theorem State.dctlWrite_busy (key : Bool) (v : Half) (h : s.sp.busy = true) : s.dctlWrite key v = s.spLast 3 := if_pos h

theorem State.deepRegWrite_busy (a : Nat) (key : Bool) (v : Half) (h : s.sp.busy = true) :
    s.deepRegWrite a key v = s.spLast 3 := if_pos h

theorem State.deepRegWrite_idle (key : Bool) (v : Half) (h : s.sp.busy = false) :
    s.deepRegWrite 0x06 key v = { s with sp.daddr := (s.sp.daddr &&& 0xFFFF0000) ||| v.setWidth 32, sp.count := 0 } ∧
    s.deepRegWrite 0x07 key v = { s with
      sp.daddr := (s.sp.daddr &&& 0x0000FFFF) ||| (v.setWidth 32 <<< 16), sp.count := 0 } ∧
    s.deepRegWrite 0x08 key v = { s with sp.ddata := (s.sp.ddata &&& 0xFFFF0000) ||| v.setWidth 32 } := by
  have hb : ¬ s.sp.busy = true := by simp [h]
  exact ⟨if_neg hb, if_neg hb, if_neg hb⟩

/-- Under AINC a write of SP_DDATA_H in the write direction is a launch, which needs the key (02 R54, R56). -/
theorem State.deepRegWrite_ainc (key : Bool) (v : Half) (h : s.sp.busy = false) (hainc : s.sp.dctl.getLsbD 11 = true)
    (hdir : s.sp.dctl.getLsbD 14 = true) :
    (key = true → s.deepRegWrite 0x09 key v =
      State.deepNext { s with sp.ddata := (s.sp.ddata &&& 0x0000FFFF) ||| (v.setWidth 32 <<< 16) }) ∧
    (key = false → s.deepRegWrite 0x09 key v = s.spLast 5) := by
  have hb : ¬ s.sp.busy = true := by simp [h]
  have hnext : (s.deepAinc && s.deepDir) = true := by rw [State.deepAinc, State.deepDir, hainc, hdir]; rfl
  exact ⟨fun hk => (if_neg hb).trans ((if_pos hnext).trans (if_pos hk)),
    fun hk => (if_neg hb).trans ((if_pos hnext).trans (if_neg (by simp [hk])))⟩

theorem State.deepRead9_next (h : s.sp.busy = false) (hainc : s.sp.dctl.getLsbD 11 = true)
    (hdir : s.sp.dctl.getLsbD 14 = false) : s.deepRead9 = s.deepNext := by
  simp only [State.deepRead9, State.deepAinc, State.deepDir, h, hainc, hdir, Bool.not_false, Bool.and_self,
    Bool.false_eq_true, if_false, if_true]

/-! ### The end of an access -/

theorem exec_deepAccessDone_busy {t : State} (h : s.sp.busy = true) (ht : s.deepAccess = t) :
    exec .deepAccessDone s = .next { t with sp.busy := false, sp.done := true, sp.count := t.sp.count + 1 } :=
  ht ▸ congrArg Host.Outcome.next (if_neg (by simp [h]))

theorem exec_deepAccessTimeout_busy (h : s.sp.busy = true) : exec .deepAccessTimeout s = .next { s with
    sp.busy := false, sp.done := true, sp.err := 3 } := congrArg Host.Outcome.next (if_pos h)

/-- An access that is misaligned, or of no size, is not made (log 155). -/
theorem State.deepAccess_unmade (h : s.deepSize = 3 ∨ s.sp.daddr.toNat % sizeBytes s.deepSize ≠ 0) :
    s.deepAccess = { s with sp.err := 1 } := if_pos h

/-- An access in the write direction is a write through the service path (02 R54). -/
theorem State.deepAccess_write (hdir : s.sp.dctl.getLsbD 14 = true) (hsize : s.deepSize ≠ 3)
    (hal : s.sp.daddr.toNat % sizeBytes s.deepSize = 0) :
    let a := s.sp.daddr.toNat / 4 * 4
    let be := accessLanes s.sp.daddr.toNat (sizeBytes s.deepSize)
    let v := s.sp.ddata <<< (8 * (s.sp.daddr.toNat % 4))
    let t := s.write .service a be v
    (s.writeFails .service a be v = none → s.deepAccess = t) ∧
      ∀ e, s.writeFails .service a be v = some e → s.deepAccess = { t with sp.err := errCode e } := by
  have hmade : ¬ (s.deepSize = 3 ∨ s.sp.daddr.toNat % sizeBytes s.deepSize ≠ 0) := by simp [hsize, hal]
  have hd : s.deepDir = true := hdir
  refine ⟨fun hf => ?_, fun e hf => ?_⟩ <;> rw [State.deepAccess, if_neg hmade, if_pos hd] <;> simp only [hf]

theorem dataIn_word (free : Nat) (v : Word) : dataIn free v.toNat 4 = v := by simp [dataIn]

theorem accessLanes_word {a : Nat} (h : a % 4 = 0) : accessLanes a 4 = 0xF := by rw [accessLanes, h]; rfl

/-- A peek of a word that does not fail lands its value in SP_DDATA (02 R53). -/
theorem State.deepAccess_peekWord (hsize : fld s.sp.dctl 12 2 = 2) (hal : s.sp.daddr.toNat % 4 = 0)
    (hdir : s.sp.dctl.getLsbD 14 = false) (hpeek : s.sp.dctl.getLsbD 10 = true)
    (herr : s.readErr .service s.sp.daddr.toNat 0xF = none) :
    s.deepAccess = { s with sp.ddata := s.busPeek .service s.sp.daddr.toNat 0xF, free := s.free + 1 } := by
  have hbytes : sizeBytes s.deepSize = 4 := by rw [State.deepSize, hsize]; rfl
  have haddr : s.sp.daddr.toNat / 4 * 4 = s.sp.daddr.toNat := by omega
  have hmade : ¬ (s.deepSize = 3 ∨ s.sp.daddr.toNat % sizeBytes s.deepSize ≠ 0) := by
    rw [hbytes, State.deepSize, hsize]; simp [hal]
  have hread : ¬ s.deepDir = true := by rw [State.deepDir, hdir]; exact Bool.false_ne_true
  have hp : s.deepPeek = true := hpeek
  rw [State.deepAccess, if_neg hmade, if_neg hread]
  simp only [hbytes, haddr, accessLanes_word hal, herr, hp, hal, if_true, Nat.mul_zero, BitVec.ushiftRight_zero, dataIn_word]
  rfl

end

/-- Settles O2, write by write. That SIZE 0b11 ends with ERR 0b01, that COUNT counts failed accesses and no timeout, and that
ERR clears at a launch is the model's choice (log 155), as it is that the second key word without the first leaves the window
as it was (log 132). -/
theorem serviceWrites : Obligations.ServiceWrites := by
  unfold Obligations.ServiceWrites
  refine ⟨fun _ h => exec_beside_peek h _ (exec_key_taken h _) rfl,
    fun _ h hfirst => exec_beside_peek h _ (exec_key_taken h _) (hfirst ▸ State.keyWrite_opens _), ?_,
    fun v _ h h1 h2 => exec_beside_peek h _ (exec_key_taken h v) (State.keyWrite_other _ _ h1 h2),
    fun v _ h => exec_beside_peek h _ (exec_serviceWrite_taken h 0x2D v) rfl,
    fun v _ h => exec_beside_peek h _ (exec_serviceWrite_taken h 0x04 v) rfl,
    fun a v s h => exec_beside_peek h (State.spWrite a v s.keyIn s.sp.keyFirst) (exec_serviceWrite_taken h a v) rfl,
    fun v key _ _ h => State.deepRegWrite_idle key v h, fun _ _ _ => ⟨rfl, rfl, rfl⟩,
    fun a v _ h hkey ha => exec_beside_peek h _ (exec_serviceWrite_taken h a v) (hkey ▸ State.spWrite_unkeyed v _ _ ha),
    fun v _ h hgo hdir hb =>
      exec_beside_peek h _ (exec_deepRead_taken h hgo hdir) (State.dctlWrite_launches hgo (.inl hdir) hb),
    fun v _ h hgo hdir hb hkey =>
      exec_beside_peek h _ (exec_deepWrite_taken h hgo hdir) (State.dctlWrite_launches hgo (.inr hkey) hb),
    fun v _ h hgo hb =>
      ⟨fun hdir => exec_beside_peek h _ (exec_deepRead_taken h hgo hdir) (State.dctlWrite_busy _ v hb),
        fun hdir => exec_beside_peek h _ (exec_deepWrite_taken h hgo hdir) (State.dctlWrite_busy _ v hb)⟩,
    fun v _ h hgo hdir hb hkey =>
      exec_beside_peek h _ (exec_deepWrite_taken h hgo hdir) (hkey ▸ State.dctlWrite_unkeyed hgo hdir hb),
    fun _ h hb hainc hdir =>
      exec_beside_peek h _ (exec_autoIncrement_read_taken h) (State.deepRead9_next hb hainc hdir),
    fun v _ h hb hainc hdir =>
      have hnext := State.deepRegWrite_ainc (s := State.spTaken 0x09 _) _ v hb hainc hdir
      ⟨fun hkey => exec_beside_peek h _ (exec_autoIncrement_write_taken h v) (hnext.1 hkey),
        fun hkey => exec_beside_peek h _ (exec_autoIncrement_write_taken h v) (hnext.2 hkey)⟩,
    fun _ h hb v => exec_beside_peek h _ (exec_autoIncrement_write_taken h v) (State.deepRegWrite_busy _ _ v hb),
    fun _ hb hsize hal hdir hpeek herr =>
      exec_deepAccessDone_busy hb (State.deepAccess_peekWord hsize hal hdir hpeek herr), ?_,
    fun _ hb hmade => exec_deepAccessDone_busy hb (State.deepAccess_unmade hmade),
    fun _ h => exec_deepAccessTimeout_busy h⟩
  · intro s h hfirst
    rw [exec_key_taken h, exec_peek_taken h, hfirst, State.keyWrite_without]
  · intro s hb hdir hsize hal a be v t
    obtain ⟨hmade, hfailed⟩ := State.deepAccess_write hdir hsize hal
    cases hf : s.writeFails .service a be v with
    | none => exact exec_deepAccessDone_busy hb (hmade hf)
    | some e => exact exec_deepAccessDone_busy hb (hfailed e hf)

end Sys2Proof.Machine
end

section
/-! PROOF. Walk mode and the Gauge: the way in with its effects, the armed step, the way out, and what stands with the core
domain's clock (02 R59 to R65; 03 R80). -/
namespace Sys2Proof.Machine

/-! ### Entry in progress -/

/-- Entry into Walk mode is in progress: the port has it, and the heartbeat stands (02 R60, R62). -/
def State.WalkEntering (s : State) : Prop := s.sp.walkEntering = true ∧ s.sp.walk = false ∧ s.wlv.hbRuns = false

namespace State.WalkEntering
variable {s t : State}

/-! The lines, the wayleave and the program: none of them acts while entry is in progress. -/

theorem lineUp (h : s.WalkEntering) : s.lineUp = false := by
  obtain ⟨hentering, _, _⟩ := h
  simp [State.lineUp, hentering]

theorem able (h : s.WalkEntering) : s.able = false := by
  obtain ⟨hentering, _, _⟩ := h
  simp [State.able, hentering]

theorem usable (h : s.WalkEntering) (p : Fin 4) : s.usable p = false := by
  simp only [State.usable, State.portUp, h.lineUp, Bool.false_and]

theorem portFor (h : s.WalkEntering) (dst : BitVec 6) : s.portFor dst = none := by
  have hnone : (s.sideFor dst).filter s.usable = [] := by simp [h.usable]
  simp only [State.portFor, hnone]

/-! ### Control flow and reports -/

theorem ite {c : Prop} [Decidable c] {a b : State} (ha : a.WalkEntering) (hb : b.WalkEntering) :
    (if c then a else b).WalkEntering := by
  split <;> assumption

theorem when {b : Bool} {f : State → State} (h : s.WalkEntering) (hf : (f s).WalkEntering) : (s.when b f).WalkEntering :=
  .ite hf h

theorem each {α : Type} {l : List α} {f : α → State → State} (h : s.WalkEntering)
    (hf : ∀ x t, t.WalkEntering → (f x t).WalkEntering) : (s.each l f).WalkEntering := by
  induction l generalizing s with
  | nil => exact h
  | cons x l ih => exact ih (hf x s h)

theorem reported (h : s.WalkEntering) (hr : s.Reported t) : t.WalkEntering := by
  rw [hr.eq]
  exact h

theorem raise (n : Nat) (h : s.WalkEntering) : (s.raise n).WalkEntering := h.reported (State.raise_reported n s)

theorem raiseIf (b : Bool) (n : Nat) (h : s.WalkEntering) : (s.raiseIf b n).WalkEntering := .when h (.raise n h)

theorem count1 (p i : Nat) (h : s.WalkEntering) : (s.count1 p i).WalkEntering := h.reported (State.count1_reported p i s)

theorem count (p i k : Nat) (h : s.WalkEntering) : (s.count p i k).WalkEntering := h.reported (State.count_reported p i k s)

/-! ### Requests of the wayleave, which no port can carry (12 R332) -/

/-- A management frame that ends: no record and no window hears of it. -/
theorem frameEnd_mgmt (body : List Byte) (tag : BitVec 2) (result : Nat) (h : s.WalkEntering) :
    (s.frameEnd (mkQ body none none tag) result).WalkEntering := by
  have hc : (s.frameCount (mkQ body none none tag) result).WalkEntering := by
    unfold State.frameCount
    dsimp only
    split
    · rename_i hfrom
      exact absurd hfrom Bool.false_ne_true
    · split
      · exact .count1 _ _ (.count _ _ _ (.count1 _ _ h))
      · exact .count1 _ _ h
      · exact h
  exact .ite h (.ite hc hc)

theorem sendUnicast (dst : BitVec 6) (q : QFrame) (h : s.WalkEntering) :
    s.sendUnicast dst q = if s.svy.nid = some dst then s.frameEnd q 0 else s.undeliverable q := by
  rw [State.sendUnicast, h.portFor]
  cases s.present dst <;> rfl

theorem sendMgmt (dst : BitVec 6) (tag : BitVec 2) (payload : List Byte) (h : s.WalkEntering) :
    (s.sendMgmt dst tag payload).WalkEntering := by
  have hseq : s.bumpSeq.WalkEntering := h
  unfold State.sendMgmt
  dsimp only
  rw [hseq.sendUnicast]
  exact .ite (frameEnd_mgmt _ _ _ hseq) (frameEnd_mgmt _ _ _ (.raise _ (.count1 _ _ hseq)))

theorem wlvReqRx (nid : BitVec 6) (req flags : Byte) (h : s.WalkEntering) : (s.wlvReqRx nid req flags).WalkEntering :=
  .ite h (.ite h h)

theorem wlvSend (req : Nat) (h : s.WalkEntering) : (s.wlvSend req).WalkEntering := by
  unfold State.wlvSend
  dsimp only
  split
  · exact h
  · exact .ite (.wlvReqRx _ _ _ h) (.sendMgmt _ _ _ h)

theorem wlvShot (req : Nat) (h : s.WalkEntering) : (s.wlvShot req).WalkEntering := .wlvSend _ h

theorem wlvAsk (h : s.WalkEntering) : s.wlvAsk.WalkEntering := .ite h (.wlvSend _ h)

/-! ### The end of drive (12 Table 12.2; 11 R303) -/

theorem laneOffDrive (h : s.WalkEntering) : s.laneOffDrive.WalkEntering := ite (ite h (raise 192 h)) h

theorem drillEnd (ok : Bool) (h : s.WalkEntering) : (s.drillEnd ok).WalkEntering :=
  .when (.raise _ h) (.wlvShot _ (.raise _ h))

theorem driveEnd (h : s.WalkEntering) : s.driveEnd.WalkEntering := by
  have hoff := raise 211 (s := { s with lane.perm := false, wlv.ovr := false }) h
  exact ite (.laneOffDrive (.when hoff (.drillEnd _ hoff))) h

theorem revCheck (h : s.WalkEntering) : s.revCheck.WalkEntering := .ite h h

theorem ilCheck (h : s.WalkEntering) : s.ilCheck.WalkEntering := .ite (.ite h (.raise _ h)) (.ite (.raise _ h) h)

theorem wlvIdle (h : s.WalkEntering) : s.wlvIdle.WalkEntering := ite (.driveEnd h) h

theorem peerLostCheck (h : s.WalkEntering) : s.peerLostCheck.WalkEntering := .when h (.wlvShot _ h)

theorem wlvSync (h : s.WalkEntering) : s.wlvSync.WalkEntering := by
  have hil := ilCheck (revCheck h)
  unfold State.wlvSync
  dsimp only
  rw [if_neg (c := (s.revCheck.ilCheck).able = true) (by simp [hil.able])]
  exact .ite h (.wlvAsk (.peerLostCheck (.wlvIdle hil)))

/-! ### Lines and DMA channels (02 Table 2.7) -/

theorem linesOff (h : s.WalkEntering) : s.linesOff.WalkEntering := h

theorem dmaUnland (w : DmaWr) (h : s.WalkEntering) : (s.dmaUnland w).WalkEntering := by
  unfold State.dmaUnland
  split
  · exact h
  · refine ite ?_ h
    rw [State.setBytes_frame]
    exact h

theorem gateOwnerReset (code : Byte) (h : s.WalkEntering) : (s.gateOwnerReset code).WalkEntering :=
  .raiseIf _ _ (.each h fun _ _ ht => ht)

theorem dmaDrop (n : Fin 32) (h : s.WalkEntering) : (s.dmaDrop n).WalkEntering :=
  .ite h (.gateOwnerReset _ (each h fun w _ => .dmaUnland w))

theorem dmaDropAll (h : s.WalkEntering) : s.dmaDropAll.WalkEntering := .each h fun n _ => .dmaDrop n

end State.WalkEntering

/-- A Walk entry that starts is in progress at the end of its command, with the heartbeat stopped (02 R60, R62). -/
theorem State.walkEnter_entering (s : State) : s.walkEnter.WalkEntering := by
  unfold State.walkEnter
  exact .each (.dmaDropAll (.linesOff (.laneOffDrive (.wlvSync ⟨rfl, rfl, rfl⟩)))) fun _ _ hu => hu

/-! ### Writes of SP_WALK (02 R59, R61, R63) -/

section
variable {s : State}

theorem State.walkWrite_enters {key : Bool} {v : Half} (hkey : key = true) (hwalk : v.getLsbD 15 = true)
    (hin : s.sp.walk = false) (hentering : s.sp.walkEntering = false) (hallowed : s.walkAllowed = true) :
    s.walkWrite key v = State.walkEnter { s with sp.until_ := BitVec.ofNat 3 (fld v 8 3) } := by
  simp only [State.walkWrite, hkey, hwalk, hin, hentering, hallowed, Bool.or_self, Bool.and_self, Bool.false_eq_true, if_false,
    if_true]

theorem State.walkWrite_refused {key : Bool} {v : Half} (hwalk : v.getLsbD 15 = true) (hin : s.sp.walk = false)
    (hentering : s.sp.walkEntering = false) (hnot : (key && s.walkAllowed) = false) : s.walkWrite key v = s.spLast 3 := by
  simp only [State.walkWrite, hwalk, hin, hentering, hnot, Bool.or_self, Bool.false_eq_true, if_false, if_true]

theorem State.walkWrite_steps {key : Bool} {v : Half} (hkey : key = true) (hwalk : v.getLsbD 15 = true)
    (hstep : v.getLsbD 14 = true) (hin : s.sp.walk = true) (hpend : s.sp.pend = false) : s.walkWrite key v =
      { s with sp.pend := true, sp.met := false, sp.until_ := BitVec.ofNat 3 (fld v 8 3) } := by
  simp only [State.walkWrite, hkey, hwalk, hstep, hin, hpend, Bool.true_or, Bool.not_true, Bool.or_self, Bool.false_eq_true,
    if_false, if_true]

theorem State.walkWrite_exits {key : Bool} {v : Half} (hkey : key = true) (hwalk : v.getLsbD 15 = false)
    (hin : s.sp.walk = true) : s.walkWrite key v = s.walkLeave := by
  simp only [State.walkWrite, hkey, hwalk, hin, Bool.true_or, Bool.not_true, Bool.false_eq_true, if_false, if_true]

theorem State.spCtlWrite_wrst {key : Bool} {v : Half} (hkey : key = true) (hwrst : v.getLsbD 15 = true) :
    s.spCtlWrite key v = (s.gaugeHold v).resetOrWait false :=
  (if_neg (by simp [hkey])).trans (if_pos hwrst)

end

section
variable {s : State} {v : Half} (h : s.spTakes = true)
include h

theorem exec_walkEntry_taken (hwalk : v.getLsbD 15 = true) (hstep : v.getLsbD 14 = false) :
    exec (.walkEntry v) s = .next ((s.spTaken 0x0C).walkWrite s.keyIn v) :=
  congrArg Host.Outcome.next ((if_pos (by rw [hwalk, hstep]; rfl)).trans (State.transact_taken _ _ h))

theorem exec_step_taken (hwalk : v.getLsbD 15 = true) (hstep : v.getLsbD 14 = true) :
    exec (.step v) s = .next ((s.spTaken 0x0C).walkWrite s.keyIn v) :=
  congrArg Host.Outcome.next ((if_pos (by rw [hwalk, hstep]; rfl)).trans (State.transact_taken _ _ h))

theorem exec_walkExit_taken (hwalk : v.getLsbD 15 = false) :
    exec (.walkExit v) s = .next ((s.spTaken 0x0C).walkWrite s.keyIn v) :=
  congrArg Host.Outcome.next ((if_neg (by rw [hwalk]; exact Bool.false_ne_true)).trans (State.transact_taken _ _ h))

theorem exec_wrst_taken (hwrst : v.getLsbD 15 = true) :
    exec (.wrst v) s = .next ((s.spTaken 0x05).spCtlWrite s.keyIn v) :=
  congrArg Host.Outcome.next ((if_pos hwrst).trans (State.transact_taken _ _ h))

end

/-! ### The end of entry (02 R60, R62) -/

theorem State.revCheck_sp (s : State) : s.revCheck.sp = s.sp := by
  unfold State.revCheck
  split <;> rfl

/-- Loss of synchronisation leaves the port as it is but for the alerts of what it reports. -/
theorem State.syncLost_sp (s : State) : s.syncLost.sp = { s.sp with alert := s.syncLost.sp.alert } := by
  have hr := State.raiseIf_reported (decide (s.tre.sync = .locked)) 83
    { s with tre.sync := .free, tre.good := 0, tre.bad := 0 }
  rw [State.syncLost, State.revCheck_sp, hr.eq]
  rfl

theorem State.syncLost_sync (s : State) : s.syncLost.tre.sync = .free := by
  rw [State.syncLost, State.revCheck_tre, State.raiseIf_tre]

theorem exec_walkEntryComplete_entering {s : State} (h : s.sp.walkEntering = true) :
    ∃ t, exec .walkEntryComplete s = .next t ∧ t.sp.walk = true ∧ t.sp.walkEntering = false ∧ t.sp.trace7 = 0 ∧
      t.tre.sync = .free := by
  have hnot : ¬ (!s.sp.walkEntering) = true := by simp [h]
  refine ⟨_, congrArg Host.Outcome.next (if_neg hnot), ?_, ?_, ?_, State.syncLost_sync _⟩ <;> rw [State.syncLost_sp]

/-! ### The end of a step (02 R61, R62; 10 R301; log 36) -/

section
variable {s : State} {clocks : Nat} {met : Bool}

theorem State.stepPass_noPass (h : s.itn.at_ = none) : s.stepPass met = s := by
  have hgo : s.passGo State.serve = s := by rw [State.passGo, h]
  rw [State.stepPass, hgo, ite_self]

/-- A pass that an earlier step ended in goes on in a step whose clock runs. -/
theorem State.stepPass_goesOn (hc : s.coreRuns = true) (h : met = true ∨ s.sp.until_ ≠ 2) :
    s.stepPass met = s.passGo State.serve :=
  if_pos (by simpa [hc] using h)

/-- A step that is armed ends with its whole budget of clocks, or earlier where the condition of UNTIL was met. -/
theorem State.walkStepDone_ends (hwalk : s.sp.walk = true) (hpend : s.sp.pend = true)
    (hend : clocks = max 1 s.sp.walkSteps.toNat ∨ clocks < max 1 s.sp.walkSteps.toNat ∧
      (((s.stepPass met).sp.met = true ∧ s.untilShown = true) ∨ (met = true ∧ s.untilTold = true))) :
    s.walkStepDone clocks met = (let t := s.stepPass met
      State.gaugeConvert { t with
        sp.pend := false, sp.met := false, sp.trace7 := t.sp.trace7 + 1
        tre.time := t.tre.time + BitVec.ofNat 64 (5 * clocks) }) := by
  have harmed : ¬ (!(s.sp.walk && s.sp.pend)) = true := by simp [hwalk, hpend]
  refine (if_neg harmed).trans (if_pos ?_)
  simpa only [Bool.or_eq_true, Bool.and_eq_true, decide_eq_true_eq] using hend

end

theorem State.coreRuns_step {s : State} (hpend : s.sp.pend = true) (hmet : s.sp.met = false) : s.coreRuns = true := by
  simp [State.coreRuns, hpend, hmet]

/-! ### What stands with the core domain's clock (02 R62; log 188) -/

theorem State.coreRuns_stands {s : State} (hwalk : s.sp.walk = true) (hpend : s.sp.pend = false) : s.coreRuns = false := by
  simp [State.coreRuns, hwalk, hpend]

theorem next_when_stands {s : State} (f : State → State) (hc : s.coreRuns = false) :
    (.next (s.when s.coreRuns f) : Result) = .next s :=
  congrArg Host.Outcome.next (if_neg (by simp [hc]))

/-- The core domain's timers, latches and passes do nothing while its clock stands. -/
theorem exec_coreBound_stands {c : Instr} {s : State} (h : coreBound c = true) (hc : s.coreRuns = false) :
    exec c s = .next s := by
  cases c with
  | ackTimeout | addressAgeExpiry | applyMark | beaconTimer | bootVerifyDone | cabdbChange | cairn | claimRetry
    | collectPass | collisionCheck | configPass | confirmDeadline | coverStart | cycleReturn | cycleWatchdog | deliverPass
    | dmaBeat | dmaFetchDone | dmaGateAcquire | dmaStopDone | dmaTrigger | dmaWriteResponse | doneTimeout | drillCheckEnd
    | dupBypassWait | ethPauseExpiry | fbHealthTimer | fbRecordWrite | fbRepeatExpiry | fbUser | frameBuild
    | gateLeaseExpiry | gateRelease | gateTry | heardPass | heartbeat | helloTimer | hostDeadline | hostWaitTimeout
    | identPass | initReturn | initTimeout | inputImageRelease | interlockStuck | lanePassLate | lanePassReturn
    | laneSubdone | latchInstant | latecomerCheck | latecomerNoAnswer | loadComplete | localT0 | localWriteResponse
    | missedTraverse | neighbourAgeExpiry | outputDeadline | pauseExpiry | pauseRepeat | peerHbLost | pfcExpiry
    | programFault | queuePop | queuePush | rangePass | reportSlotEnd | reqStop | revertReady | roadRecv | roadSend
    | roadWindowOpen | scrub | settleExpiry | startTimeout | stewardWatchdog | surveyCut | surveyDeferredSend
    | surveyTimeout | syncHoldExpiry | t0 | tableRequestRepeat | takeover | timeNow | wayleaveDeadline | wayleaveRepeat =>
    exact next_when_stands _ hc
  | fault a0 => exact congrArg Host.Outcome.next (if_neg (by simp [hc]))
  | _ => exact absurd h Bool.false_ne_true

/-- A command of an entry's type is that entry's step. -/
theorem exec_blockCommand {c : Entry → Instr} {b : Blk} (h : BlockCommand c b) (e : Entry) (s : State) :
    exec (c e) s = .next (s.blkStep b e) := by
  have hall : ∀ x : (Entry → Instr) × Blk, BlockCommand x.1 x.2 → ∀ e s, exec (x.1 e) s = .next (s.blkStep x.2 e) := by
    unfold BlockCommand
    repeat refine List.forall_mem_cons.mpr ⟨fun _ _ => rfl, ?_⟩
    exact List.forall_mem_nil _
  exact hall (c, b) h e s

theorem State.blkStep_stands {s : State} (b : Blk) (e : Entry) (hc : s.coreRuns = false) : s.blkStep b e = s :=
  if_pos (.inr hc)

/-! ### The Gauge (02 R65) -/

theorem exec_gaugeConversion_ownClock {s : State} (h : s.sp.walk = false) :
    exec .gaugeConversion s = .next s.gaugeConvert := congrArg Host.Outcome.next (if_pos (by simp [h]))

/-- Settles O3, from entry to exit. Which timers, latches and passes are of the core domain (coreBound) is the model's choice
(log 188), as is the way a pass goes on in a later step under UNTIL 0b010 (log 36). -/
theorem walkServes : Obligations.WalkServes := by
  unfold Obligations.WalkServes
  refine ⟨?_, fun v _ h hwalk hstep hin hentering hnot => exec_beside_peek h _ (exec_walkEntry_taken h hwalk hstep)
      (State.walkWrite_refused hwalk hin hentering hnot),
    fun _ h => exec_walkEntryComplete_entering h,
    fun v _ h hwalk hstep hkey hin hpend => exec_beside_peek h _ (exec_step_taken h hwalk hstep)
      (State.walkWrite_steps hkey hwalk hstep hin hpend),
    ?_, ?_,
    fun v _ h hwalk hkey hin => exec_beside_peek h _ (exec_walkExit_taken h hwalk) (State.walkWrite_exits hkey hwalk hin),
    fun v _ h hwrst hkey => exec_beside_peek h _ (exec_wrst_taken h hwrst) (State.spCtlWrite_wrst hkey hwrst),
    fun _ h => exec_gaugeConversion_ownClock h,
    fun _ _ h hwalk hpend => exec_coreBound_stands h (State.coreRuns_stands hwalk hpend), ?_⟩
  · intro v s h hwalk hstep hkey hin hentering hallowed
    have henter : (s.spTaken 0x0C).walkWrite s.keyIn v =
        State.walkEnter { s.spTaken 0x0C with sp.until_ := BitVec.ofNat 3 (fld v 8 3) } :=
      State.walkWrite_enters hkey hwalk hin hentering hallowed
    obtain ⟨hon, hoff, hheart⟩ :=
      State.walkEnter_entering { s.spTaken 0x0C with sp.until_ := BitVec.ofNat 3 (fld v 8 3) }
    exact ⟨_, _, (exec_walkEntry_taken h hwalk hstep).trans (congrArg _ henter), exec_peek_taken h 0x0C, rfl, hon, hoff,
      hheart⟩
  · intro clocks met s hwalk hpend hat hend
    have hpass : s.stepPass met = s := State.stepPass_noPass hat
    have hdone := State.walkStepDone_ends (clocks := clocks) (met := met) hwalk hpend
      (by simpa [hpass, State.untilShown, State.untilTold] using hend)
    rw [hpass] at hdone
    exact ⟨_, congrArg Host.Outcome.next hdone, rfl, rfl, rfl, rfl, rfl, rfl, rfl, rfl⟩
  · intro clocks met i s hwalk hpend hmet _ hmove p hend
    have hpass : s.stepPass met = p := State.stepPass_goesOn (State.coreRuns_step hpend hmet) hmove
    have hdone := State.walkStepDone_ends (clocks := clocks) (met := met) hwalk hpend (by
      rw [hpass]
      exact hend.imp_right fun ⟨hlt, hp, huntil⟩ => ⟨hlt, .inl ⟨hp, by simp [State.untilShown, huntil]⟩⟩)
    rw [hpass] at hdone
    exact congrArg Host.Outcome.next hdone
  · intro c b e s hb hwalk hpend
    rw [exec_blockCommand hb, State.blkStep_stands b e (State.coreRuns_stands hwalk hpend)]

end Sys2Proof.Machine
end

section
/-! PROOF. Resets: what every reset clears, what survives with and without loss of power, and which command takes which (03 R69,
R77 to R81; 15 R405). -/
namespace Sys2Proof.Machine

/-! ### What a reset leaves -/

/-- From s to t a reset cleared what does not survive one: registers, events and counters at their reset values, the service
port with a transaction in progress lost, no survey and no program; the keys, the wear and the retired sectors stay. -/
def State.Cleared (t s : State) : Prop :=
  t.regs = [] ∧ t.evt = State.reset.evt ∧ t.cnt = State.reset.cnt ∧
    t.sp = { State.reset.sp with lost := s.sp.open_ || s.sp.lost } ∧ t.sp.last = 7 ∧ t.svy.epoch = 0 ∧
    t.svy.state = .idle ∧ t.ctl.pstate = .none ∧ t.boot.keys = s.boot.keys ∧ t.mem.wear = s.mem.wear ∧
    t.fbk.retired = s.fbk.retired ∧ t.svy.uid = s.svy.uid

section
variable (keepFault : Bool) (cause : Byte) (ph : ResetPhase) (s : State)

theorem State.bootAfterReset_keys (lost : Bool) : (s.bootAfterReset lost).keys = s.boot.keys := by cases lost <;> rfl

theorem State.memAfterReset_wear (lost : Bool) : (s.memAfterReset lost).wear = s.mem.wear := by cases lost <;> rfl

theorem State.fbkAfterReset_retired (lost : Bool) : (s.fbkAfterReset lost).retired = s.fbk.retired := by cases lost <;> rfl

theorem State.resetWith_cleared (lost : Bool) : (s.resetWith lost keepFault cause ph).Cleared s :=
  ⟨rfl, rfl, rfl, rfl, rfl, rfl, rfl, rfl, s.bootAfterReset_keys lost, s.memAfterReset_wear lost,
    s.fbkAfterReset_retired lost, rfl⟩

/-- With power lost only flash keeps its bytes (15 R405). -/
theorem State.byte_resetWith_lost (x : Nat) :
    (s.resetWith true keepFault cause ph).byte x = if x < 0x400000 then s.byte x else 0 := by
  have hread : (s.resetWith true keepFault cause ph).byte x =
      if decide (x < 0x400000) then sget Memory.unlisted s.mem.cells x else Memory.unlisted x :=
    sget_filter Memory.unlisted s.mem.cells (fun a => decide (a < 0x400000)) x
  by_cases hx : x < 0x400000
  · rw [hread, if_pos (decide_eq_true hx), if_pos hx]
    rfl
  · rw [hread, if_neg (by simp [hx]), if_neg hx, Memory.unlisted, if_neg hx]

end

/-! ### Which reset a command is -/

theorem State.causeKept_none {s : State} (h : s.sys.heldCause = 0) (mv : Nat) : s.causeKept mv = false := by
  simp [State.causeKept, h]

/-- With no cause held a power-on reset is a POR (03 R81). -/
theorem State.powerOn_por {s : State} (h : s.sys.heldCause = 0) (mv : Nat) :
    s.powerOn mv = (let t := (s.resetWith true false 1 .powerUp).took
      { t with sys.heldCause := 0, sys.vsupMv := if t.sys.vsupMv.toNat < 1650 then 1650 else t.sys.vsupMv }) := by
  simp only [State.powerOn, State.causeKept_none h, Bool.false_eq_true, if_false]

/-- A pin reset, with the CLK reset that waits taken along (03 R80, R84). -/
theorem State.pinReset_leaves (s : State) :
    s.pinReset.sys.rstcause = (s.sys.rstcause ||| if s.sys.clkWaiting = true then 0x22 else 2) ∧
      s.pinReset.sys.phase = .pinHeld ∧ s.pinReset.sys.resetN = s.sys.resetN ∧ s.pinReset.sys.test = s.sys.test ∧
      s.pinReset.Cleared s ∧ s.pinReset.fbk.queue = s.fbk.queue ∧ s.pinReset.mem.cells = s.mem.cells := by
  unfold State.pinReset
  split
  · exact ⟨rfl, rfl, rfl, rfl, s.resetWith_cleared _ _ _ _, rfl, rfl⟩
  · dsimp only
    split
    · exact ⟨rfl, rfl, rfl, rfl, s.resetWith_cleared false 0x02 .pinHeld false, rfl, rfl⟩
    · exact ⟨rfl, rfl, rfl, rfl, s.resetWith_cleared _ _ _ _, rfl, rfl⟩

/-- A warm reset, or the CLK reset that waits in its place (03 R80, R84). -/
theorem State.warmReset_leaves (s : State) :
    s.warmReset.sys.rstcause = (s.sys.rstcause ||| if s.sys.clkWaiting = true then 0x20 else 0x10) ∧
      s.warmReset.sys.phase = (if s.sys.clkWaiting = true then .powerUp else .warmHeld) ∧
      s.warmReset.sys.spFault = (if s.sys.clkWaiting = true ∨ s.sys.clkFault = true then s.sys.spFault else 0) ∧
      s.warmReset.Cleared s ∧ s.warmReset.fbk.queue = s.fbk.queue ∧ s.warmReset.mem.cells = s.mem.cells := by
  unfold State.warmReset
  by_cases hwaits : s.sys.clkWaiting = true
  · rw [if_pos hwaits, if_pos hwaits, if_pos hwaits, if_pos (.inl hwaits)]
    exact ⟨rfl, rfl, rfl, s.resetWith_cleared _ _ _ _, rfl, rfl⟩
  · rw [if_neg hwaits, if_neg hwaits, if_neg hwaits]
    by_cases hfault : s.sys.clkFault = true
    · rw [if_pos hfault, if_pos (.inr hfault)]
      exact ⟨rfl, rfl, rfl, s.resetWith_cleared false 0x10 .warmHeld false, rfl, rfl⟩
    · rw [if_neg hfault, if_neg (not_or.mpr ⟨hwaits, hfault⟩)]
      exact ⟨rfl, rfl, rfl, s.resetWith_cleared _ _ _ _, rfl, rfl⟩

/-- RESET_N or TEST while the node is up and not in SAVE (03 R69, R79). -/
theorem State.pinAsk_up {s : State} (hup : s.up = true) (hsave : s.sys.vehState ≠ .save) : s.pinAsk = s.pinReset := by
  rw [State.pinAsk, if_pos hup, State.resetOrWait, if_neg hsave, if_pos rfl]

theorem State.pinLow_taken {lowNs : Nat} {s : State} (h : 1000 ≤ lowNs) (hup : s.up = true)
    (hsave : s.sys.vehState ≠ .save) : s.pinLow lowNs = State.pinReset { s with sys.resetN := false } := by
  rw [State.pinLow, if_neg (by omega), if_pos h]
  exact State.pinAsk_up hup hsave

theorem State.holdEnd_over {s : State} (h : s.holdOver = true) : s.holdEnd = s.warmReset := if_neg (by simp [h])

/-- Settles O4, command by command. That memory reads 0 after a loss of power and that the keys stay is the model's choice (logs
3 and 13), as are the records that wait (log 168), the CLK reset that waits and SP_FAULT under a clock fault (log 182), and the
retired sectors over every reset (log 125). -/
theorem resetsAct : Obligations.ResetsAct := by
  unfold Obligations.ResetsAct
  intro cleared lost kept
  refine ⟨fun mv s h => ⟨_, congrArg Host.Outcome.next (State.powerOn_por h mv), rfl, rfl,
      s.resetWith_cleared false 1 .powerUp true, rfl, s.byte_resetWith_lost false 1 .powerUp⟩,
    fun s => ⟨_, rfl, rfl, rfl, rfl, s.resetWith_cleared false 4 .powerUp true, rfl, s.byte_resetWith_lost false 4 .powerUp⟩,
    fun s h => ⟨_, congrArg Host.Outcome.next (if_neg h), rfl, rfl, rfl, s.resetWith_cleared false 8 .powerUp true, rfl,
      s.byte_resetWith_lost false 8 .powerUp⟩,
    fun lowNs s h hup hsave => ?_, fun lowNs s h => congrArg Host.Outcome.next (if_pos h), fun s hup hsave => ?_,
    fun s h => ⟨_, congrArg Host.Outcome.next (State.holdEnd_over h), s.warmReset_leaves⟩⟩
  · obtain ⟨hcause, hphase, hlow, _, hcleared, hkept⟩ := State.pinReset_leaves { s with sys.resetN := false }
    exact ⟨_, congrArg Host.Outcome.next (State.pinLow_taken h hup hsave), hcause, hphase, hlow, hcleared, hkept⟩
  · obtain ⟨hcause, hphase, _, htest, hcleared, hkept⟩ := State.pinReset_leaves { s with sys.test := true }
    exact ⟨_, congrArg Host.Outcome.next (State.pinAsk_up hup hsave), hcause, hphase, htest, hcleared, hkept⟩

end Sys2Proof.Machine
end

section
/-! PROOF. What the power commands rest on: reports, sends and the work of a save leave the resets, the port, the program and the
Lane as they were, one lemma an operation (03 R84, R91; 07 R207; 14 R390; 15 R409, R415). -/
namespace Sys2Proof.Machine

/-! ### What reports and sends leave alone -/

/-- What no report and no send touches: pins, resets and clocks, the service port but for its alerts, the program, the Lane,
and whether the heartbeat runs. -/
structure SteadyCore where
  sys : Sys
  sp : Sp
  ctl : Ctl
  lane : Lane
  hbRuns : Bool

def State.steadyCore (s : State) : SteadyCore := ⟨s.sys, { s.sp with alert := 0 }, s.ctl, s.lane, s.wlv.hbRuns⟩

/-- From s0 to s every event raised stayed raised, no host access began to wait, the records of a restored save stayed, and
records only joined the queue. -/
def State.Grows (s0 s : State) : Prop :=
  (∀ n, s0.evt.raw.getLsbD n = true → s.evt.raw.getLsbD n = true) ∧ (s0.cwy.waiting = none → s.cwy.waiting = none) ∧
    s.fbk.restored = s0.fbk.restored ∧ s0.fbk.queue <+: s.fbk.queue

theorem State.Grows.trans {s t u : State} (h : s.Grows t) (h' : t.Grows u) : s.Grows u := by
  obtain ⟨hraw, hwait, hrestored, hqueue⟩ := h
  obtain ⟨hraw', hwait', hrestored', hqueue'⟩ := h'
  exact ⟨fun n hn => hraw' n (hraw n hn), fun hw => hwait' (hwait hw), hrestored'.trans hrestored, hqueue.trans hqueue'⟩

section
variable {s0 s : State} (h : s0.Grows s)
include h

theorem State.Grows.raised {n : Nat} (hn : s0.evt.raw.getLsbD n = true) : s.evt.raw.getLsbD n = true := by
  obtain ⟨hraw, _⟩ := h
  exact hraw n hn

theorem State.Grows.waiting (hw : s0.cwy.waiting = none) : s.cwy.waiting = none := by
  obtain ⟨_, hwait, _⟩ := h
  exact hwait hw

theorem State.Grows.restored : s.fbk.restored = s0.fbk.restored := by
  obtain ⟨_, _, hrestored, _⟩ := h
  exact hrestored

theorem State.Grows.queue : s0.fbk.queue <+: s.fbk.queue := by
  obtain ⟨_, _, _, hqueue⟩ := h
  exact hqueue

end

/-- From s0 to s there were only reports, sends and writes of the memories. -/
def State.Steady (s0 s : State) : Prop := s.steadyCore = s0.steadyCore ∧ s0.Grows s

namespace State.Steady
variable {s0 s : State}

theorem refl (s : State) : s.Steady s := ⟨rfl, fun _ h => h, id, rfl, List.prefix_rfl⟩

theorem trans {t : State} (h : s0.Steady s) (h' : s.Steady t) : s0.Steady t := ⟨h'.1.trans h.1, h.2.trans h'.2⟩

theorem sys (h : s0.Steady s) : s.sys = s0.sys := congrArg SteadyCore.sys h.1
theorem ctl (h : s0.Steady s) : s.ctl = s0.ctl := congrArg SteadyCore.ctl h.1
theorem lane (h : s0.Steady s) : s.lane = s0.lane := congrArg SteadyCore.lane h.1
theorem hbRuns (h : s0.Steady s) : s.wlv.hbRuns = s0.wlv.hbRuns := congrArg SteadyCore.hbRuns h.1
theorem walk (h : s0.Steady s) : s.sp.walk = s0.sp.walk := congrArg (fun c : SteadyCore => c.sp.walk) h.1
theorem walkEntering (h : s0.Steady s) : s.sp.walkEntering = s0.sp.walkEntering :=
  congrArg (fun c : SteadyCore => c.sp.walkEntering) h.1

theorem grows (h : s0.Steady s) : s0.Grows s := h.2

/-- Whether the program may drive does not change. -/
theorem able (h : s0.Steady s) : s.able = s0.able := by
  simp only [State.able, State.pfail, h.sys, h.ctl, h.walk, h.walkEntering]

/-! ### Control flow -/

theorem ite {c : Prop} [Decidable c] {a b : State} (ha : s0.Steady a) (hb : s0.Steady b) :
    s0.Steady (if c then a else b) := by
  split <;> assumption

theorem when {b : Bool} {f : State → State} (h : s0.Steady s) (hf : s0.Steady (f s)) : s0.Steady (s.when b f) := .ite hf h

theorem each {α : Type} {l : List α} {f : α → State → State} (h : s0.Steady s)
    (hf : ∀ x t, s0.Steady t → s0.Steady (f x t)) : s0.Steady (s.each l f) := by
  induction l generalizing s with
  | nil => exact h
  | cons x l ih => exact ih (hf x s h)

/-! ### Reports (08 R242, R251) -/

theorem dmaFire (t : TrigSource) (h : s0.Steady s) : s0.Steady (s.dmaFire t) := h

theorem fbQueue (r : FbRec) (h : s0.Steady s) : s0.Steady (s.fbQueue r) := by
  obtain ⟨hcore, hraw, hwait, hrestored, hqueue⟩ := h
  exact .ite ⟨hcore, hraw, hwait, hrestored, hqueue⟩
    (.ite ⟨hcore, hraw, hwait, hrestored, hqueue.trans (List.prefix_append _ _)⟩ ⟨hcore, hraw, hwait, hrestored, hqueue⟩)

theorem fbEvent (n : Nat) (h : s0.Steady s) : s0.Steady (s.fbEvent n) := .ite h (.ite h (.fbQueue _ h))

theorem raise (n : Nat) (h : s0.Steady s) : s0.Steady (s.raise n) := by
  obtain ⟨hcore, hraw, hrest⟩ := h
  have hset : ∀ m, s0.evt.raw.getLsbD m = true → (setBit s.evt.raw n).getLsbD m = true :=
    fun m hm => getLsbD_setBit_of_set n (hraw m hm)
  exact .dmaFire _ (.when ⟨hcore, hset, hrest⟩ (.fbEvent n ⟨hcore, hset, hrest⟩))

theorem raiseIf (b : Bool) (n : Nat) (h : s0.Steady s) : s0.Steady (s.raiseIf b n) := .when h (.raise n h)

theorem count (p i k : Nat) (h : s0.Steady s) : s0.Steady (s.count p i k) := by
  unfold State.count
  split
  · exact .raiseIf _ _ (.raiseIf _ _ h)
  · exact h

theorem count1 (p i : Nat) (h : s0.Steady s) : s0.Steady (s.count1 p i) := .count p i 1 h

/-! ### Memories (15) -/

theorem setReg (a : Nat) (v : Word) (h : s0.Steady s) : s0.Steady (s.setReg a v) := h

theorem setBytes (a : Nat) (bs : List Byte) (h : s0.Steady s) : s0.Steady (s.setBytes a bs) := by
  rw [State.setBytes_frame]
  exact h

theorem putWord (a : Nat) (w : Word) (h : s0.Steady s) : s0.Steady (s.putWord a w) := .setBytes a _ h

theorem setErr (a : Nat) (e : Option WordErr) (h : s0.Steady s) : s0.Steady (s.setErr a e) := h

theorem memLog (kind region : Nat) (src : Byte) (synd addr : Nat) (h : s0.Steady s) :
    s0.Steady (s.memLog kind region src synd addr) := .ite h (.raise _ h)

theorem eccCe (kind : Nat) (src : Byte) (a : Nat) (e : WordErr) (h : s0.Steady s) : s0.Steady (s.eccCe kind src a e) :=
  .raise _ (.memLog _ _ _ _ _ h)

theorem eccUe (kind : Nat) (src : Byte) (a : Nat) (e : WordErr) (h : s0.Steady s) : s0.Steady (s.eccUe kind src a e) :=
  .raise _ (.memLog _ _ _ _ _ h)

theorem eccReadFx (src : Byte) (a : Nat) (h : s0.Steady s) : s0.Steady (s.eccReadFx src a) := by
  unfold State.eccReadFx
  split
  · exact h
  · split
    · exact .eccCe _ _ _ _ (.setErr _ _ (.putWord _ _ h))
    · exact .eccUe _ _ _ _ h

/-- A block of the hardware writes a whole word. -/
theorem pokeWord (src : Byte) (a : Nat) (v : Word) (h : s0.Steady s) : s0.Steady (s.pokeWord src a v) := by
  rw [State.pokeWord, State.eccWrite, if_pos rfl]
  exact .ite (.setReg _ _ (.setErr _ _ (.putWord _ _ h))) (.setErr _ _ (.putWord _ _ h))

theorem parityFound (src : Byte) (r : MRegion) (a : Nat) (h : s0.Steady s) : s0.Steady (s.parityFound src r a) := by
  have hlog := raise 235 (memLog 5 r.code src (a % 4) a h)
  exact .ite (.raise _ (.count1 _ _ hlog)) hlog

theorem parityFx (src : Byte) (r : MRegion) (a : Nat) (be : BitVec 4) (h : s0.Steady s) :
    s0.Steady (s.parityFx src r a be) := by
  unfold State.parityFx
  split
  · exact h
  · exact .parityFound _ _ _ h

theorem memReadFx (src : Byte) (a : Nat) (be : BitVec 4) (h : s0.Steady s) : s0.Steady (s.memReadFx src a be) := by
  unfold State.memReadFx
  split
  · exact .eccReadFx _ _ h
  · exact .eccReadFx _ _ h
  · exact .parityFx _ _ _ _ h
  · exact .parityFx _ _ _ _ h
  · exact .parityFx _ _ _ _ h
  · exact .parityFx _ _ _ _ h
  · exact h

theorem blockReadFx (a n : Nat) (h : s0.Steady s) : s0.Steady (s.blockReadFx a n) := by
  have hr : s0.Steady (s.wordReads a n) := .each h fun _ _ => .memReadFx _ _ _
  exact .when hr hr

/-! ### The Causeway, as far as a frame's end reaches it (14 R390) -/

theorem cwyLogAdd (remote : Bool) (w nid cause notapp : Nat) (addr data : Word) (fseq : Nat) (h : s0.Steady s) :
    s0.Steady (s.cwyLogAdd remote w nid cause notapp addr data fseq) := .ite (.raise _ h) (.raise _ h)

theorem heldDrop (w : Fin 16) (h : s0.Steady s) : s0.Steady (s.heldDrop w) := by
  unfold State.heldDrop
  split
  · exact h
  · exact .cwyLogAdd _ _ _ _ _ _ _ _ h

theorem hostAccept (x : HostAcc) (v : Half) (par : BitVec 2) (h : s0.Steady s) : s0.Steady (s.hostAccept x v par) := by
  have hd := heldDrop x.win h
  unfold State.hostAccept
  dsimp only
  split
  · exact .raise _ (.cwyLogAdd _ _ _ _ _ _ _ _ hd)
  · split
    · exact hd
    · split
      · exact h
      · exact hd

theorem hostResume (h : s0.Steady s) : s0.Steady s.hostResume := by
  obtain ⟨hcore, hraw, hwait, hfbk⟩ := h
  unfold State.hostResume
  split
  · exact .ite (.hostAccept _ _ _ ⟨hcore, hraw, fun _ => rfl, hfbk⟩) ⟨hcore, hraw, hwait, hfbk⟩
  · exact ⟨hcore, hraw, hwait, hfbk⟩

theorem cwyFlightEnd (w : Fin 16) (cause idx : Nat) (h : s0.Steady s) : s0.Steady (s.cwyFlightEnd w cause idx) := by
  unfold State.cwyFlightEnd
  split
  · exact h
  · refine .hostResume (.ite h ?_)
    split
    · exact h
    · exact .cwyLogAdd _ _ _ _ _ _ _ _ h

theorem cwyTxResult (w : Fin 16) (result : Nat) (h : s0.Steady s) : s0.Steady (s.cwyTxResult w result) := by
  unfold State.cwyTxResult
  split
  · exact h
  all_goals exact .cwyFlightEnd _ _ _ h

/-! ### The E ports (07 R229, R230) -/

theorem pfcCheck (e : Fin 2) (p : Fin 8) (h : s0.Steady s) : s0.Steady (s.pfcCheck e p) := by
  have hsent : ∀ t, s0.Steady t → s0.Steady (State.pfcCount e t) := fun t ht =>
    .count1 _ _ (.count1 _ _ (.count1 _ _ (.count _ _ _ (.count1 _ _ ht))))
  exact .ite h (.ite (hsent _ h) (.ite (hsent _ h) h))

theorem ethFreed (x : EthQ) (h : s0.Steady s) : s0.Steady (s.ethFreed x) := .each h fun _ _ => .pfcCheck _ _

theorem ethParity (e : Fin 2) (h : s0.Steady s) : s0.Steady (s.ethParity e) := .count1 _ _ (.raise _ (.memLog _ _ _ _ _ h))

theorem ethNextOf (e : Fin 2) (k : Nat) (h : s0.Steady s) : s0.Steady (State.ethNextOf e k s) := by
  induction k generalizing s with
  | zero => exact h
  | succ k ih =>
    unfold State.ethNextOf
    split
    · exact h
    · exact .ite h (ih (.ethFreed _ (.ethParity _ h)))

theorem ethKick (e : Fin 2) (h : s0.Steady s) : s0.Steady (s.ethKick e) := .when h (.ethNextOf _ _ h)

/-! ### Open Road: a frame queued, and one that ends (07) -/

theorem roadDraw (p : Fin 4) (h : s0.Steady s) : s0.Steady (s.roadDraw p) := by
  unfold State.roadDraw
  dsimp only
  split <;> exact h

theorem roadAgain (p : Fin 4) (before : Option QFrame) (h : s0.Steady s) : s0.Steady (s.roadAgain p before) := by
  unfold State.roadAgain
  dsimp only
  split
  · split
    · exact h
    · exact .ite h h
  · exact .roadDraw _ h

theorem roadPut (p : Fin 4) (q : QFrame) (h : s0.Steady s) : s0.Steady (s.roadPut p q) := .roadAgain _ _ h

theorem txDone (a : Word) (result : Nat) (h : s0.Steady s) : s0.Steady (s.txDone a result) := by
  have ht := pokeWord 7 a.toNat (s.peekWord a.toNat &&& 0x8FFFFFFF ||| packW [(30, 1), (28, result)]) (blockReadFx a.toNat 4 h)
  exact .ite h (.when (.raise _ ht) (.count1 _ _ (.raise _ ht)))

theorem frameCount (q : QFrame) (result : Nat) (h : s0.Steady s) : s0.Steady (s.frameCount q result) := by
  have hrx : s0.Steady (s.when (decide (q.acct = 1)) (State.roadRxCount (RHdr.parse q.body))) :=
    .when h (.count1 _ _ (.count1 _ _ (.count _ _ _ (.count1 _ _ h))))
  unfold State.frameCount
  dsimp only
  split
  · exact .ite h (.when hrx (.count1 _ _ hrx))
  · split
    · exact .count1 _ _ (.count _ _ _ (.count1 _ _ h))
    · exact .count1 _ _ h
    · exact h

theorem frameEnd (q : QFrame) (result : Nat) (h : s0.Steady s) : s0.Steady (s.frameEnd q result) := by
  have hrecord : ∀ t, s0.Steady t → s0.Steady (match q.src with | some r => t.txDone r result | none => t) := by
    intro t ht
    split
    · exact .txDone _ _ ht
    · exact ht
  have hwindow : ∀ t, s0.Steady t → s0.Steady (match q.cwy with | some w => t.cwyTxResult w result | none => t) := by
    intro t ht
    split
    · exact .cwyTxResult _ _ ht
    · exact ht
  have hd := hwindow _ (hrecord _ (frameCount q result h))
  exact .ite h (.ite hd hd)

theorem undeliverable (q : QFrame) (h : s0.Steady s) : s0.Steady (s.undeliverable q) :=
  .frameEnd _ _ (.raise _ (.count1 _ _ h))

theorem sendPause (p : Fin 4) (prio ptime : Nat) (h : s0.Steady s) : s0.Steady (s.sendPause p prio ptime) := by
  have hp : ∀ q, s0.Steady (s.bumpSeq.roadPut p q) := fun q => .roadPut _ _ h
  exact .when (hp _) (.raise _ (hp _))

theorem pauseCheck (p : Fin 4) (prio : Nat) (h : s0.Steady s) : s0.Steady (s.pauseCheck p prio) :=
  .ite h (.ite (.sendPause _ _ _ h) (.ite (.sendPause _ _ _ h) h))

theorem frameLeft (q : QFrame) (h : s0.Steady s) : s0.Steady (s.frameLeft q) := by
  have ht : s0.Steady (match q.from_ with
      | some p => s.pauseCheck p (RHdr.parse q.body).prio
      | none => s) := by
    split
    · exact .pauseCheck _ _ h
    · exact h
  unfold State.frameLeft
  dsimp only
  split
  · exact .pfcCheck _ _ ht
  · exact ht

theorem frameLost (q : QFrame) (h : s0.Steady s) : s0.Steady (s.frameLost q) :=
  .frameLeft _ (.ite (.frameEnd _ _ h) (.undeliverable _ h))

theorem roadSort (p : Fin 4) (k : Nat) (h : s0.Steady s) : s0.Steady (State.roadSort p k s) := by
  induction k generalizing s with
  | zero => exact h
  | succ k ih =>
    unfold State.roadSort
    split
    · exact h
    · split
      · exact h
      · split
        · exact .ite h (ih (.roadPut _ _ h))
        · exact ih (.frameLost _ h)

theorem roadEnqueue (p : Fin 4) (q : QFrame) (h : s0.Steady s) : s0.Steady (s.roadEnqueue p q) :=
  .roadAgain _ _ (.roadSort _ _ h)

theorem sendMgmt (dst : BitVec 6) (tag : BitVec 2) (payload : List Byte) (h : s0.Steady s) :
    s0.Steady (s.sendMgmt dst tag payload) := by
  have hseq : s0.Steady s.bumpSeq := h
  unfold State.sendMgmt State.sendUnicast
  dsimp only
  split
  · exact .frameEnd _ _ hseq
  · split
    · exact .roadEnqueue _ _ hseq
    · exact .undeliverable _ hseq

/-! ### Requests of the wayleave (12 R332, R338, R344) -/

theorem wlvReqRx (nid : BitVec 6) (req flags : Byte) (h : s0.Steady s) : s0.Steady (s.wlvReqRx nid req flags) :=
  .ite h (.ite h h)

theorem wlvSend (req : Nat) (h : s0.Steady s) : s0.Steady (s.wlvSend req) := by
  unfold State.wlvSend
  dsimp only
  split
  · exact h
  · exact .ite (.wlvReqRx _ _ _ h) (.sendMgmt _ _ _ h)

theorem wlvShot (req : Nat) (h : s0.Steady s) : s0.Steady (s.wlvShot req) := .wlvSend _ h

theorem wlvAsk (h : s0.Steady s) : s0.Steady s.wlvAsk := .ite h (.wlvSend _ h)

theorem drillEnd (ok : Bool) (h : s0.Steady s) : s0.Steady (s.drillEnd ok) := .when (.raise _ h) (.wlvShot _ (.raise _ h))

theorem revCheck (h : s0.Steady s) : s0.Steady s.revCheck := .ite h h

theorem ilCheck (h : s0.Steady s) : s0.Steady s.ilCheck := .ite (.ite h (.raise _ h)) (.ite (.raise _ h) h)

theorem peerLostCheck (h : s0.Steady s) : s0.Steady s.peerLostCheck := .when h (.wlvShot _ h)

/-! ### Flash and the Field Book (08 R247, R248; 15 R411 to R413) -/

theorem setFlashBusy (bankB : Bool) (o : Option (Option (BitVec 10))) (h : s0.Steady s) : s0.Steady (s.setFlashBusy bankB o) :=
  .ite h h

theorem flashResult (src : Byte) (a code : Nat) (h : s0.Steady s) : s0.Steady (s.flashResult src a code) :=
  .ite h (.raiseIf _ _ (.raise _ (.memLog _ _ _ _ _ h)))

theorem flashAbandonOne (bankB : Bool) (h : s0.Steady s) : s0.Steady (s.flashAbandonOne bankB) := by
  unfold State.flashAbandonOne
  split
  · exact .flashResult _ _ _ (.setFlashBusy _ _ h)
  · exact h

theorem flashAbandon (h : s0.Steady s) : s0.Steady s.flashAbandon := .flashAbandonOne _ (.flashAbandonOne _ h)

theorem flashAndBytes (a : Nat) (bs : List Byte) (h : s0.Steady s) : s0.Steady (s.flashAndBytes a bs) := by
  induction bs generalizing a s with
  | nil => exact h
  | cons b t ih => exact ih (a + 1) h

theorem flashStartErase (sector : Nat) (h : s0.Steady s) : s0.Steady (s.flashStartErase sector) := by
  have hbusy := setFlashBusy (s := { s with mem.wear := sput (fun _ => 0) s.mem.wear sector (s.wear sector + 1) })
    (decide (512 ≤ sector)) (some (some (BitVec.ofNat 10 sector))) h
  exact .ite hbusy (.ite hbusy hbusy)

theorem fbRetire (i : Nat) (h : s0.Steady s) : s0.Steady (s.fbRetire i) := .raise _ (.fbQueue _ h)

theorem fbErase (i : Nat) (h : s0.Steady s) : s0.Steady (s.fbErase i) := by
  unfold State.fbErase
  split
  · exact h
  · exact .flashStartErase _ h

theorem fbEraseAfter (k i : Nat) (h : s0.Steady s) : s0.Steady (State.fbEraseAfter k i s) := by
  induction k generalizing i s with
  | zero => exact h
  | succ k ih => exact .ite h (.ite (ih _ (.fbRetire _ h)) (.fbErase _ h))

theorem fbReady (h : s0.Steady s) : s0.Steady s.fbReady := .ite h (.fbEraseAfter _ _ (.flashAndBytes _ _ h))

theorem fbWrite (r : FbRec) (h : s0.Steady s) : s0.Steady (s.fbWrite r) := by
  have hput : s0.Steady (s.fbReady.fbPut (fbSeal (r.body s.fbReady.fbNextSeq))) := by
    unfold State.fbPut
    split
    · exact fbReady h
    · exact .flashAndBytes _ _ (fbReady h)
  exact .ite hput (.fbQueue _ (fbReady h))

theorem retReadFx (h : s0.Steady s) : s0.Steady s.retReadFx := by
  unfold State.retReadFx
  split
  · exact .blockReadFx _ _ h
  · exact h

end State.Steady

end Sys2Proof.Machine
end

section
/-! PROOF. Releases and clocks: the pins as in reset, the end of drive where the program may not drive, the release, the clock
fault and REF_CLK (03 R69, R73, R78 to R80, R84, R85; 08 R245; 12 R335). -/
namespace Sys2Proof.Machine

/-! ### Pins that stand as in reset (03 Table 3.3) -/

section
variable {s : State} (h : s.pinsReset = true)
include h

theorem State.sinks_pinsReset (on : Bool) : s.sinks on = .released := by simp [State.sinks, h]

theorem State.drives_pinsReset (on : Bool) : s.drives on = .low := by simp [State.drives, h]

theorem State.failSafe_sinks_pinsReset (bank : Fin 4) (on : Bool) : s.failSafe bank (s.sinks on) = .released := by
  rw [State.sinks_pinsReset h, State.failSafe, ite_self]

theorem State.trapPin_pinsReset (lineB : Bool) : s.trapPin lineB ≠ .high := by
  rw [State.trapPin, State.drives_pinsReset h, State.failSafe]
  split <;> simp

theorem State.gaugeUv_pinsReset (g : Fin 2) : s.gaugeUv g = 0 := if_pos (by simp [h])

end

theorem State.pinsReset_of_phase {s : State} (h : s.sys.phase ≠ .running) : s.pinsReset = true := by
  simp [State.pinsReset, h]

/-! ### The end of drive (12 R335, Table 12.2) -/

/-- A core but for what drive itself is: the Lane and OWN_OUT_N. -/
def SteadyCore.undriven (c : SteadyCore) : SteadyCore := { c with sys.ownOutN := true, lane := Lane.reset }

/-- From s0 to s there were only reports, sends, and changes of drive. -/
def State.Undriven (s0 s : State) : Prop := s.steadyCore.undriven = s0.steadyCore.undriven ∧ s0.Grows s

theorem State.Steady.undriven {s0 s : State} (h : s0.Steady s) : s0.Undriven s := ⟨congrArg SteadyCore.undriven h.1, h.2⟩

namespace State.Undriven
variable {s0 s : State}

theorem refl (s : State) : s.Undriven s := (State.Steady.refl s).undriven

theorem trans {t : State} (h : s0.Undriven s) (h' : s.Undriven t) : s0.Undriven t := ⟨h'.1.trans h.1, h.2.trans h'.2⟩

theorem steady {t : State} (h : s0.Undriven s) (h' : s.Steady t) : s0.Undriven t := h.trans h'.undriven

theorem ite {c : Prop} [Decidable c] {a b : State} (ha : s0.Undriven a) (hb : s0.Undriven b) :
    s0.Undriven (if c then a else b) := by
  split <;> assumption

theorem phase (h : s0.Undriven s) : s.sys.phase = s0.sys.phase := congrArg (fun c : SteadyCore => c.sys.phase) h.1
theorem vehState (h : s0.Undriven s) : s.sys.vehState = s0.sys.vehState := congrArg (fun c : SteadyCore => c.sys.vehState) h.1
theorem vsupMv (h : s0.Undriven s) : s.sys.vsupMv = s0.sys.vsupMv := congrArg (fun c : SteadyCore => c.sys.vsupMv) h.1
theorem clkFault (h : s0.Undriven s) : s.sys.clkFault = s0.sys.clkFault := congrArg (fun c : SteadyCore => c.sys.clkFault) h.1
theorem xok (h : s0.Undriven s) : s.sys.xok = s0.sys.xok := congrArg (fun c : SteadyCore => c.sys.xok) h.1
theorem pllok (h : s0.Undriven s) : s.sys.pllok = s0.sys.pllok := congrArg (fun c : SteadyCore => c.sys.pllok) h.1
theorem spFault (h : s0.Undriven s) : s.sys.spFault = s0.sys.spFault := congrArg (fun c : SteadyCore => c.sys.spFault) h.1
theorem grows (h : s0.Undriven s) : s0.Grows s := h.2
theorem ctl (h : s0.Undriven s) : s.ctl = s0.ctl := congrArg SteadyCore.ctl h.1
theorem hbRuns (h : s0.Undriven s) : s.wlv.hbRuns = s0.wlv.hbRuns := congrArg SteadyCore.hbRuns h.1
theorem walk (h : s0.Undriven s) : s.sp.walk = s0.sp.walk := congrArg (fun c : SteadyCore => c.sp.walk) h.1

theorem laneOffDrive (h : s0.Undriven s) : s0.Undriven s.laneOffDrive :=
  ite (ite h (.steady (s := { s with lane.pass := none, lane.turnNext := none, lane.state := .listen }) h
    (.raise _ (.refl _)))) h

theorem driveEnd (h : s0.Undriven s) : s0.Undriven s.driveEnd := by
  have hoff : s0.Undriven (State.raise 211 { s with lane.perm := false, wlv.ovr := false }) :=
    .steady (s := { s with lane.perm := false, wlv.ovr := false }) h (.raise _ (.refl _))
  have hdrill := hoff.steady (.when (b := (State.raise 211 { s with lane.perm := false, wlv.ovr := false }).wlv.drillCheck.isSome)
    (f := State.drillEnd false) (.refl _) (.drillEnd _ (.refl _)))
  exact ite (laneOffDrive hdrill) h

theorem wlvIdle (h : s0.Undriven s) : s0.Undriven s.wlvIdle := ite (driveEnd h) h

end State.Undriven

theorem State.wlvIdle_ownOutN (s : State) : s.wlvIdle.sys.ownOutN = true := by
  show (if s.lane.perm || !s.sys.ownOutN then s.driveEnd else s).sys.ownOutN = true
  split
  · rfl
  · next hidle =>
    simp only [Bool.or_eq_true, Bool.not_eq_true', not_or, Bool.not_eq_false] at hidle
    exact hidle.2

/-- Where the program may not drive, bringing the unit state up to date ends all drive. -/
theorem State.wlvSync_unable {s : State} (hrun : s.sys.phase = .running) (h : s.able = false) :
    s.wlvSync = ((s.revCheck.ilCheck).wlvIdle.peerLostCheck).wlvAsk := by
  have hunable : (s.revCheck.ilCheck).able = false := (State.Steady.able (.ilCheck (.revCheck (.refl s)))).trans h
  simp only [State.wlvSync, hrun, hunable, ne_eq, not_true_eq_false, Bool.false_eq_true, if_false]

theorem State.wlvSync_unable_undriven {s : State} (h : s.able = false) : s.Undriven s.wlvSync := by
  by_cases hrun : s.sys.phase = .running
  · rw [State.wlvSync_unable hrun h]
    exact (State.Undriven.wlvIdle (State.Steady.undriven (.ilCheck (.revCheck (.refl s))))).steady
      (.wlvAsk (.peerLostCheck (.refl _)))
  · rw [State.wlvSync, if_pos hrun]
    exact .refl s

/-- OWN_OUT_N is released then, with the pins as in reset or not (12 R336; 03 R97). -/
theorem State.wlvSync_unable_ownOutPin {s : State} (h : s.able = false) : s.wlvSync.ownOutPin = .released := by
  by_cases hrun : s.sys.phase = .running
  · have hask : (s.revCheck.ilCheck.wlvIdle).Steady s.wlvSync := by
      rw [State.wlvSync_unable hrun h]
      exact .wlvAsk (.peerLostCheck (.refl _))
    have hown : s.wlvSync.sys.ownOutN = true := by rw [hask.sys, State.wlvIdle_ownOutN]
    simp [State.ownOutPin, hown, State.sinks, State.failSafe]
  · have hphase : s.wlvSync.sys.phase ≠ .running := by rwa [(State.wlvSync_unable_undriven h).phase]
    exact State.failSafe_sinks_pinsReset (State.pinsReset_of_phase hphase) _ _

/-! ### The release (03 R69, R73, R78, R84; 08 R245) -/

theorem State.awaitsBoot_powerUp {s : State} (h : s.sys.phase = .powerUp) : s.awaitsBoot = true := by
  simp [State.awaitsBoot, h]

theorem exec_powerUpComplete_releases {s : State} (x : Straps) (h : s.sys.phase = .powerUp) (hn : s.sys.resetN = true)
    (ht : s.sys.test = false) :
    exec (.powerUpComplete x) s = .next (State.release { s with sys.refok := true, sys.straps := x }) :=
  congrArg Host.Outcome.next ((if_pos (State.awaitsBoot_powerUp h)).trans (if_pos (by simp [hn, ht])))

theorem exec_powerUpComplete_holds {s : State} (x : Straps) (h : s.sys.phase = .powerUp) (hn : s.sys.resetN = false) :
    exec (.powerUpComplete x) s = .next { s with sys.refok := true, sys.straps := x, sys.phase := .pinHeld } :=
  congrArg Host.Outcome.next ((if_pos (State.awaitsBoot_powerUp h)).trans (if_neg (by simp [hn])))

/-! ### A clock fault (03 R84) -/

/-- What a clock fault sets before its effects on the Lane, the lines and the E ports. -/
def State.faultDeclared (s : State) : State := State.spFaultCode 0x0301 { s with
  sys.clkFault := true, sys.xok := false, sys.pllok := false, wlv.hbRuns := false, cwy.waiting := none }

theorem State.faultDeclared_sys (s : State) : s.faultDeclared.sys = { s.sys with
    clkFault := true, xok := false, pllok := false
    spFault := if s.sys.spFault = 0 then 0x0301 else s.sys.spFault } := by
  unfold State.faultDeclared State.spFaultCode
  dsimp only
  rw [State.fbQueue_sys]
  split <;> rfl

theorem State.faultDeclared_waiting (s : State) : s.faultDeclared.cwy.waiting = none := by
  unfold State.faultDeclared State.spFaultCode
  dsimp only
  rw [State.fbQueue_cwy]
  split <;> rfl

theorem State.faultDeclared_able (s : State) : s.faultDeclared.able = false := by
  simp [State.able, State.faultDeclared_sys]

/-- The clock fault of a node that is up: the effects of its declaration, and the phase it leaves the node in. -/
theorem State.clockFault_up {s : State} (hup : s.up = true) (hfault : s.sys.clkFault = false) (hpfail : s.pfail = false) :
    s.clockFault = { s.faultDeclared.wlvSync.laneOffDrive.linesOff.ethCutOff with
      sys := { s.faultDeclared.wlvSync.laneOffDrive.sys with phase := .clockLost } } := by
  have hphase : s.sys.phase = .running ∨ s.sys.phase = .clockLost := by simpa [State.up] using hup
  have hdecl : s.faultDeclared.Undriven s.faultDeclared.wlvSync.laneOffDrive :=
    .laneOffDrive (State.wlvSync_unable_undriven s.faultDeclared_able)
  have hcome : ¬ (s.sys.phase = .powerUp ∨ s.sys.clkFault = true) := by
    rcases hphase with h | h <;> simp [h, hfault]
  refine (if_neg hcome).trans ?_
  rcases hphase with hrun | hlost
  · exact if_pos ⟨hrun, hpfail⟩
  · have hstays : s.faultDeclared.wlvSync.laneOffDrive.sys.phase = .clockLost := by
      rw [hdecl.phase, State.faultDeclared_sys, hlost]
    rw [← hstays]
    exact if_neg (by simp [hlost])

/-- What stands after it: the clocks are gone, no host access waits, and every pin but PFAIL_N is as in reset. -/
theorem exec_clockFault_up {s : State} (hup : s.up = true) (hfault : s.sys.clkFault = false) (hpfail : s.pfail = false) :
    ∃ t, exec .clockFault s = .next t ∧ t.sys.phase = .clockLost ∧ t.sys.clkFault = true ∧ t.sys.xok = false ∧
      t.sys.pllok = false ∧ t.cwy.waiting = none ∧ t.hintPin = .released ∧
      t.waitPin = .released ∧ t.alertPin = .released ∧ t.ownOutPin = .released ∧ t.ledHb = .released ∧
      t.ledRing = .released ∧ t.ledOwn = .released ∧ t.laneDePin = .low ∧ (∀ p, t.txenPin p = .low) ∧
      (∀ b, t.trapPin b ≠ .high) ∧ (∀ g, t.gaugeUv g = 0) ∧
        t.sys.spFault = if s.sys.spFault = 0 then 0x0301 else s.sys.spFault := by
  have hdecl : s.faultDeclared.Undriven s.faultDeclared.wlvSync.laneOffDrive :=
    .laneOffDrive (State.wlvSync_unable_undriven s.faultDeclared_able)
  refine ⟨_, congrArg Host.Outcome.next (State.clockFault_up hup hfault hpfail), rfl, ?_⟩
  generalize hu : s.faultDeclared.wlvSync.laneOffDrive = u at hdecl
  have hreset : State.pinsReset { u.linesOff.ethCutOff with sys := { u.sys with phase := .clockLost } } = true :=
    State.pinsReset_of_phase (by simp)
  refine ⟨?_, ?_, ?_, ?_, State.sinks_pinsReset hreset _, State.sinks_pinsReset hreset _,
    State.failSafe_sinks_pinsReset hreset _ _, State.failSafe_sinks_pinsReset hreset _ _, State.sinks_pinsReset hreset _,
    State.sinks_pinsReset hreset _, State.sinks_pinsReset hreset _, State.drives_pinsReset hreset _,
    fun _ => State.drives_pinsReset hreset _, State.trapPin_pinsReset hreset, State.gaugeUv_pinsReset hreset, ?_⟩
  · exact hdecl.clkFault.trans (by rw [State.faultDeclared_sys])
  · exact hdecl.xok.trans (by rw [State.faultDeclared_sys])
  · exact hdecl.pllok.trans (by rw [State.faultDeclared_sys])
  · exact hdecl.grows.waiting s.faultDeclared_waiting
  · exact hdecl.spFault.trans (by rw [State.faultDeclared_sys])

theorem exec_clockRecovery {s : State} (x : Straps) (hfault : s.sys.clkFault = true) (hpfail : s.pfail = false) :
    exec (.clockRecovery x) s = .next (State.releaseOrHold x s.clkReset) :=
  congrArg Host.Outcome.next ((if_neg (by simp [hfault])).trans (if_neg (by simp [hpfail])))

/-! ### REF_CLK (03 R85) and CAB_ACT (03 R73) -/

theorem exec_refClkLoss {s : State} (h : s.sys.refok = true) :
    ∃ t, exec .refClkLoss s = .next t ∧ t.sys.refok = false ∧ (∀ e, (t.eth.ports.get e).up = false) ∧
      (∀ e, (t.eth.ports.get e).sending = none) ∧ t.evt.raw = setBit s.evt.raw 8 := by
  refine ⟨s.refLost, congrArg Host.Outcome.next (State.when_true _ h), ?_, fun e => ?_, fun e => ?_, State.raise_evt_raw 8 _⟩
  · rw [State.refLost, State.raise_sys]
    rfl
  · rw [State.refLost, State.raise_eth]
    simp [State.ethCutOff, Vector.get]
  · rw [State.refLost, State.raise_eth]
    simp [State.ethCutOff, Vector.get]

theorem State.refBack_refok (s : State) : s.refBack.sys.refok = true :=
  congrArg Sys.refok (State.Steady.each (l := fins 2) (.refl { s with sys.refok := true }) fun _ _ => .ethKick _).sys

theorem exec_cabdbChange {s : State} (hc : s.coreRuns = true) (hup : s.up = true) (hne : s.sys.cabAct ≠ s.sys.cabdb) :
    exec .cabdbChange s = .next (let t := State.raise 10 { s with sys.cabdb := s.sys.cabAct }
      t.when (t.sys.cabdb && decide (t.svy.chain ≠ 1)) (State.svyTrigger 4)) :=
  congrArg Host.Outcome.next ((State.when_true _ hc).trans (if_neg (by simp [hup, hne])))

theorem exec_cabdbChange_falls {s : State} (hc : s.coreRuns = true) (hup : s.up = true) (hlevel : s.sys.cabAct = false)
    (hdb : s.sys.cabdb = true) : exec .cabdbChange s = .next (State.raise 10 { s with sys.cabdb := false }) := by
  rw [exec_cabdbChange hc hup (by simp [hlevel, hdb]), hlevel]
  refine congrArg Host.Outcome.next (if_neg ?_)
  rw [State.raise_sys]
  simp

theorem exec_cabdbChange_rises {s : State} (hc : s.coreRuns = true) (hup : s.up = true) (hlevel : s.sys.cabAct = true)
    (hdb : s.sys.cabdb = false) (hchain : s.svy.chain ≠ 1) :
    exec .cabdbChange s = .next (State.svyTrigger 4 (State.raise 10 { s with sys.cabdb := true })) := by
  rw [exec_cabdbChange hc hup (by simp [hlevel, hdb]), hlevel]
  refine congrArg Host.Outcome.next (State.when_true _ ?_)
  rw [State.raise_sys, State.raise_svy]
  exact decide_eq_true hchain

/-- Settles O5, clause by clause. What a release does with the crystal still lost, and a clock fault in every state, is the
model's choice (log 182), as are EV000 and the reset record before the boot ROM (log 126) and REFOK at the end of the power-up
sequence (log 58). -/
theorem releasesAct : Obligations.ReleasesAct := by
  unfold Obligations.ReleasesAct
  exact ⟨fun s h => if_neg (by simp [h]), fun s h => if_pos h,
    fun x s h hn ht => exec_powerUpComplete_releases x h hn ht, fun x s h hn => exec_powerUpComplete_holds x h hn,
    fun x s h => congrArg Host.Outcome.next (if_pos h), fun s h => congrArg Host.Outcome.next (if_pos h),
    fun s hup hfault hpfail => exec_clockFault_up hup hfault hpfail,
    fun x s hfault hpfail => exec_clockRecovery x hfault hpfail, fun s h => exec_refClkLoss h,
    fun s => ⟨_, rfl, s.refBack_refok, rfl⟩, fun _ _ => rfl,
    fun s hc hup hlevel hdb => exec_cabdbChange_falls hc hup hlevel hdb,
    fun s hc hup hlevel hdb hchain => exec_cabdbChange_rises hc hup hlevel hdb hchain⟩

end Sys2Proof.Machine
end

section
/-! PROOF. The bytes of a save slot: what an erased slot reads as, what programming leaves, and the image of a save (15 R411,
R412, R414, R415, Table 15.5). -/
namespace Sys2Proof.Machine

/-! ### Bytes of the flash -/

theorem sget_default {α : Type} {d : Nat → α} {l : List (Nat × α)} {k : Nat} (h : ∀ c ∈ l, c.1 ≠ k) : sget d l k = d k := by
  induction l with
  | nil => rfl
  | cons x t ih =>
    obtain ⟨a, v⟩ := x
    rw [sget, if_neg (h (a, v) (List.mem_cons_self ..))]
    exact ih fun c hc => h c (List.mem_cons_of_mem _ hc)

/-- A byte of an erased range of flash reads 0xFF (15 R412). -/
theorem State.byte_of_erased {s : State} {a n x : Nat} (h : s.erased a n = true) (h1 : a ≤ x) (h2 : x < a + n)
    (hflash : x < 0x400000) : s.byte x = 0xFF := by
  have hcells : ∀ c ∈ s.mem.cells, c.1 ≠ x := by
    intro c hc
    have houtside := List.all_eq_true.mp h c hc
    simp only [Bool.or_eq_true, decide_eq_true_eq] at houtside
    omega
  rw [State.byte, sget_default hcells, Memory.unlisted, if_pos hflash]

/-- Programming ANDs bytes in, and touches no other (15 R411). -/
theorem State.byte_flashAndBytes (a x : Nat) (bs : List Byte) (s : State) : (s.flashAndBytes a bs).byte x =
    if a ≤ x ∧ x < a + bs.length then s.byte x &&& bs.getD (x - a) 0 else s.byte x := by
  induction bs generalizing a s with
  | nil => rw [if_neg (by simp only [List.length_nil]; omega)]; rfl
  | cons b t ih =>
    rw [State.flashAndBytes, ih (a + 1), State.byte_setByte]
    simp only [List.length_cons]
    by_cases hfirst : x = a
    · subst hfirst
      rw [if_neg (by omega), if_pos rfl, if_pos (by omega)]
      simp
    · rw [if_neg hfirst]
      by_cases hrest : a + 1 ≤ x ∧ x < a + 1 + t.length
      · rw [if_pos hrest, if_pos (by omega), show x - a = (x - (a + 1)) + 1 by omega, List.getD_cons_succ]
      · rw [if_neg hrest, if_neg (by omega)]

theorem State.bytesAt_eq {s : State} {a : Nat} {l : List Byte} (h : ∀ i (hi : i < l.length), s.byte (a + i) = l[i]) :
    s.bytesAt a l.length = l := by
  refine List.ext_getElem (by simp [State.bytesAt]) fun i _ hi => ?_
  simpa [State.bytesAt] using h i hi

/-! ### What the reads of the save writer leave alone (15 R401) -/

/-- From s to t no byte of flash changed. -/
def State.FlashStays (s t : State) : Prop := ∀ x, x < 0x400000 → t.byte x = s.byte x

namespace State.FlashStays
variable {s t u : State}

theorem refl (s : State) : s.FlashStays s := fun _ _ => rfl

theorem trans (h : s.FlashStays t) (h' : t.FlashStays u) : s.FlashStays u := fun x hx => (h' x hx).trans (h x hx)

theorem of_cells (h : t.mem.cells = s.mem.cells) : s.FlashStays t := fun x _ => congrArg (sget Memory.unlisted · x) h

theorem each {α : Type} {f : α → State → State} {l : List α} (hf : ∀ x ∈ l, ∀ t, State.FlashStays t (f x t)) (s : State) :
    s.FlashStays (s.each l f) := by
  induction l generalizing s with
  | nil => exact refl s
  | cons x l ih => exact (hf x (List.mem_cons_self ..) s).trans (ih (fun y hy => hf y (List.mem_cons_of_mem _ hy)) (f x s))

theorem memLog (kind region : Nat) (src : Byte) (synd addr : Nat) (s : State) :
    s.FlashStays (s.memLog kind region src synd addr) := of_cells (State.memLog_keeps kind region src synd addr s).2.1

theorem raise (n : Nat) (s : State) : s.FlashStays (s.raise n) := of_cells (by rw [State.raise_mem])

theorem putWord {a : Nat} (w : Word) (s : State) (h : 0x400000 ≤ a) : s.FlashStays (s.putWord a w) := fun x hx => by
  rw [State.byte_putWord, if_neg (by omega)]

theorem eccReadFx (src : Byte) {a : Nat} (s : State) (h : 0x400000 ≤ a) : s.FlashStays (s.eccReadFx src a) := by
  unfold State.eccReadFx
  split
  · exact refl s
  · split
    · next w _ =>
      have hclean : s.FlashStays { (s.putWord a w).setErr a none with
          mem.ce := satSucc ((s.putWord a w).setErr a none).mem.ce } := (putWord w s h).trans (of_cells rfl)
      exact (hclean.trans (memLog _ _ _ _ _ _)).trans (raise _ _)
    · have hcount : s.FlashStays { s with mem.ue := satSucc s.mem.ue } := of_cells rfl
      exact (hcount.trans (memLog _ _ _ _ _ _)).trans (raise _ _)

theorem parityFx (src : Byte) (r : MRegion) (a : Nat) (be : BitVec 4) (s : State) : s.FlashStays (s.parityFx src r a be) := by
  have hfound : ∀ b, s.FlashStays (s.parityFound src r b) := by
    intro b
    have hlog := (memLog 5 r.code src (b % 4) b s).trans (raise 235 _)
    have hcount : ∀ t : State, t.FlashStays (t.count1 7 39) := fun t => of_cells (by simp [State.count1, State.count])
    unfold State.parityFound
    dsimp only
    split
    · exact (hlog.trans (hcount _)).trans (raise 205 _)
    · exact hlog
  unfold State.parityFx
  split
  · exact refl s
  · exact hfound _

end State.FlashStays

/-- The SECDED memories lie above the flash (00 Table 0.3). -/
theorem secded_above_flash {a : Nat} (h : memRegion? a = some .sram ∨ memRegion? a = some .inst) : 0x400000 ≤ a := by
  refine Nat.le_of_not_lt fun hlow => ?_
  have hflash : memRegion? a = some .flash := by simp [memRegion?, memRow?, memMap, hlow]
  simp [hflash] at h

namespace State.FlashStays

theorem memReadFx (src : Byte) (a : Nat) (be : BitVec 4) (s : State) : s.FlashStays (s.memReadFx src a be) := by
  unfold State.memReadFx
  split
  · next h => exact eccReadFx src s (secded_above_flash (.inl h))
  · next h => exact eccReadFx src s (secded_above_flash (.inr h))
  · exact parityFx _ _ _ _ s
  · exact parityFx _ _ _ _ s
  · exact parityFx _ _ _ _ s
  · exact parityFx _ _ _ _ s
  · exact refl s

theorem blockReadFx (a n : Nat) (s : State) : s.FlashStays (s.blockReadFx a n) := by
  have hreads : s.FlashStays (s.wordReads a n) := each (fun _ _ t => memReadFx _ _ _ t) s
  unfold State.blockReadFx State.when
  dsimp only
  split
  · exact hreads.trans (of_cells rfl)
  · exact hreads

theorem retReadFx (s : State) : s.FlashStays s.retReadFx := by
  unfold State.retReadFx
  split
  · exact blockReadFx _ _ s
  · exact refl s

end State.FlashStays

/-! ### The image of a save (15 Table 15.5) -/

theorem FbRec.length_saved (r : FbRec) : r.saved.length = 32 := by
  simp [FbRec.saved, fbSeal, FbRec.body, length_leBytes]

theorem length_flatMap_saved (l : List FbRec) : (l.flatMap FbRec.saved).length = 32 * l.length := by
  induction l with
  | nil => rfl
  | cons r l ih =>
    rw [List.flatMap_cons, List.length_append, FbRec.length_saved, ih, List.length_cons]
    omega

theorem State.length_fbPending (s : State) : s.fbPending.length ≤ 32 := by
  simp only [State.fbPending, List.length_append, List.length_take]
  omega

theorem State.length_retData (s : State) : s.retData.2.length ≤ 4096 := by
  unfold State.retData
  split
  · simp only [State.peekBytes, List.length_map, List.length_range]
    omega
  · simp

/-- After its 32 bytes of header a save holds the retained region and the records that wait. -/
theorem State.saveImage_drop (s : State) : s.saveImage.drop 32 = s.retData.2 ++ s.fbPending.flatMap FbRec.saved := by
  unfold State.saveImage
  exact List.drop_left' (by simp [length_leBytes])

theorem State.length_saveImage (s : State) : 32 ≤ s.saveImage.length ∧ s.saveImage.length ≤ 5152 := by
  have hdrop := congrArg List.length s.saveImage_drop
  have hhead : 32 ≤ s.saveImage.length := by simp [State.saveImage, length_leBytes]; omega
  have hret := s.length_retData
  have hpend := s.length_fbPending
  simp only [List.length_drop, List.length_append, length_flatMap_saved] at hdrop
  omega

/-! ### The slot a save writes (15 R415) -/

theorem State.saveErased_of_saveSlot {s : State} {b : Bool} (h : s.saveSlot = some b) : s.erased (saveBase b) 0x2000 = true := by
  have herased : s.saveErased b = true := by
    unfold State.saveSlot at h
    split at h
    · next hfalse => cases h; exact hfalse
    · split at h
      · next htrue => cases h; exact htrue
      · contradiction
  rw [State.saveErased, Bool.and_eq_true] at herased
  exact herased.1

theorem State.saveWrite_slot {s : State} {b : Bool} (h : s.saveSlot = some b) :
    s.saveWrite = { s.retReadFx.flashAndBytes (saveBase b) s.saveImage with
      mem.saving := some (some b)
      fbk.queue := s.fbk.queue.drop 32, fbk.restored := s.fbk.restored.drop (32 - s.fbk.queue.length) } := by
  simp only [State.saveWrite, h]

/-- A byte of the slot after the save: 0xFF with the image programmed into it. -/
theorem State.byte_saveWrite {s : State} {b : Bool} (h : s.saveSlot = some b) {i : Nat} (hi : i < 0x2000) :
    s.saveWrite.byte (saveBase b + i) = if i < s.saveImage.length then 0xFF &&& s.saveImage.getD i 0 else 0xFF := by
  have hbase : saveBase b ≤ 0xFE000 := by cases b <;> decide
  have hblank : s.retReadFx.byte (saveBase b + i) = 0xFF := by
    rw [State.FlashStays.retReadFx s _ (by omega)]
    exact State.byte_of_erased (State.saveErased_of_saveSlot h) (by omega) (by omega) (by omega)
  have hrange : (saveBase b ≤ saveBase b + i ∧ saveBase b + i < saveBase b + s.saveImage.length) ↔ i < s.saveImage.length := by
    omega
  rw [State.saveWrite_slot h]
  refine (State.byte_flashAndBytes (saveBase b) (saveBase b + i) s.saveImage s.retReadFx).trans ?_
  simp only [hblank, Nat.add_sub_cancel_left, hrange]

theorem State.byte_saveWrite_image {s : State} {b : Bool} (h : s.saveSlot = some b) {i : Nat} (hi : i < s.saveImage.length) :
    s.saveWrite.byte (saveBase b + i) = s.saveImage[i] := by
  obtain ⟨_, hlen⟩ := s.length_saveImage
  have hget : s.saveImage.getD i 0 = s.saveImage[i] := by
    rw [List.getD_eq_getElem?_getD, List.getElem?_eq_getElem hi, Option.getD_some]
  rw [State.byte_saveWrite h (by omega), if_pos hi, hget]
  exact BitVec.allOnes_and

theorem State.byte_saveWrite_above {s : State} {b : Bool} (h : s.saveSlot = some b) {i : Nat} (hi : i < 0x2000)
    (habove : s.saveImage.length ≤ i) : s.saveWrite.byte (saveBase b + i) = 0xFF := by
  rw [State.byte_saveWrite h hi, if_neg (Nat.not_lt.mpr habove)]

/-- A save holds its image, and COMMIT is not yet programmed. -/
theorem State.saveWrite_stores {s : State} {b : Bool} (h : s.saveSlot = some b) :
    s.saveWrite.bytesAt (saveBase b) s.saveImage.length = s.saveImage ∧ s.saveWrite.mem.saving = some (some b) ∧
      s.saveWrite.bytesAt (saveBase b + 0x1FFC) 4 = [0xFF, 0xFF, 0xFF, 0xFF] := by
  obtain ⟨_, hlen⟩ := s.length_saveImage
  refine ⟨State.bytesAt_eq fun i hi => State.byte_saveWrite_image h hi, by rw [State.saveWrite_slot h],
    State.bytesAt_eq (l := List.replicate 4 0xFF) fun i hi => ?_⟩
  have hfour : i < 4 := by simpa only [List.length_replicate] using hi
  rw [Nat.add_assoc, State.byte_saveWrite_above h (by omega) (by omega), List.getElem_replicate]

end Sys2Proof.Machine
end

section
/-! PROOF. The vehicle supply: the samples of the monitor, power-fail detection, the save and its end, and the warnings (03 R77,
R86 to R95; 17 R451). -/
namespace Sys2Proof.Machine

/-! ### Samples (03 R86 to R89) -/

theorem exec_vehSample {s : State} (mv a b : Nat) (vio : Vector Half 4) (temp : Half) (hup : s.up = true) :
    exec (.vehSample mv a b vio temp) s = .next (s.vehSampled mv a b vio temp) :=
  congrArg Host.Outcome.next (State.when_true _ hup)

/-- What a sample stores before the monitor moves, and that nothing is raised yet. -/
theorem State.vehSampled_stores (mv a b : Nat) (vio : Vector Half 4) (temp : Half) (s : State) :
    ∃ u : State, s.vehSampled mv a b vio temp = u.vehMove ∧ u.vehNone = s.vehNone ∧ u.evt = s.evt ∧
      u.sys.vehState = s.sys.vehState ∧ u.sys.nLow = runOf (!pinAtLeast (adcMv mv) s.vehPct.1) s.sys.nLow ∧
      u.sys.senseMv = BitVec.ofNat 16 (min 65535 (adcMv mv)) ∧ u.sys.vsupMv = BitVec.ofNat 16 (min 65535 a) ∧
      u.sys.vcoreMv = BitVec.ofNat 16 (min 65535 b) ∧ u.sys.vioMv = vio ∧ u.sys.temp = temp ∧ u.sys.vehOff = s.vehNone :=
  ⟨_, rfl, rfl, rfl, rfl, rfl, rfl, rfl, rfl, rfl, rfl, rfl⟩

/-- With NOM = 0b11 the monitor goes to NORMAL from RIDE and HIGH, and stays elsewhere (log 184). -/
theorem State.vehMove_none {s : State} (h : s.vehNone = true) : s.vehMove = { s with
    sys.vehState := if s.sys.vehState = .ride ∨ s.sys.vehState = .high then .normal else s.sys.vehState } := by
  rw [State.vehMove, if_pos h]
  split <;> rfl

theorem State.vehMove_low {s : State} (hsupply : s.vehNone = false) (hstate : s.sys.vehState = .normal) (hlow : s.sys.nLow = 4) :
    s.vehMove = s.toRide := by
  simp only [State.vehMove, hsupply, hstate, hlow, Bool.false_eq_true, if_false, if_true]

theorem exec_vehSample_ride {s : State} (mv a b : Nat) (vio : Vector Half 4) (temp : Half) (hup : s.up = true)
    (hsupply : s.vehNone = false) (hstate : s.sys.vehState = .normal) (hn : s.sys.nLow = 3)
    (hlow : pinAtLeast (min 1200 mv) s.vehPct.1 = false) :
    ∃ t, exec (.vehSample mv a b vio temp) s = .next t ∧ t.sys.vehState = .ride ∧ t.evt.raw = setBit s.evt.raw 1 ∧
      t.sys.senseMv = BitVec.ofNat 16 (min 1200 mv) ∧ t.sys.vsupMv = BitVec.ofNat 16 (min 65535 a) ∧
      t.sys.vcoreMv = BitVec.ofNat 16 (min 65535 b) ∧ t.sys.vioMv = vio ∧ t.sys.temp = temp ∧ t.sys.vehOff = false := by
  obtain ⟨u, hu, hnone, hevt, hveh, hlows, hsense, hvsup, hvcore, hvio, htemp, hoff⟩ := s.vehSampled_stores mv a b vio temp
  have hfourth : u.sys.nLow = 4 := by rw [hlows, adcMv, hlow, hn]; rfl
  have hscale : min 65535 (adcMv mv) = min 1200 mv := by rw [adcMv]; omega
  refine ⟨u.toRide, ?_, ?_⟩
  · rw [exec_vehSample mv a b vio temp hup, hu, State.vehMove_low (hnone.trans hsupply) (hveh.trans hstate) hfourth]
  · rw [State.toRide, State.raise_sys, State.raise_evt_raw]
    exact ⟨rfl, by rw [hevt], hsense.trans (by rw [hscale]), hvsup, hvcore, hvio, htemp, hoff.trans hsupply⟩

theorem exec_vehSample_none {s : State} (mv a b : Nat) (vio : Vector Half 4) (temp : Half) (hup : s.up = true)
    (hnone : s.vehNone = true) :
    ∃ t, exec (.vehSample mv a b vio temp) s = .next t ∧ t.sys.vehOff = true ∧ t.sys.temp = temp ∧
      t.sys.vehState = (if s.sys.vehState = .ride ∨ s.sys.vehState = .high then .normal else s.sys.vehState) := by
  obtain ⟨u, hu, hnone', _, hveh, _, _, _, _, _, htemp, hoff⟩ := s.vehSampled_stores mv a b vio temp
  refine ⟨_, (exec_vehSample mv a b vio temp hup).trans (congrArg Host.Outcome.next
    (hu.trans (State.vehMove_none (hnone'.trans hnone)))), hoff.trans hnone, htemp, ?_⟩
  rw [← hveh]

/-! ### The save is steady (03 R91, R94) -/

/-- With the Field Book and the memories set aside, a state that agrees in the rest is steady too. -/
theorem State.Steady.aside {s0 s t : State} (h : s0.Steady s) (ht : t = { s with mem := t.mem, fbk := t.fbk }) :
    State.Steady { s0 with fbk := t.fbk } t := by
  obtain ⟨hcore, hraw, hwait, _⟩ := h
  rw [ht]
  exact ⟨hcore, hraw, hwait, rfl, List.prefix_rfl⟩

/-- Without a slot the records that wait go to the ring (log 221). -/
theorem State.saveWrite_ring {s : State} (h : s.saveSlot = none) :
    s.saveWrite = { (if s.fbk.full then s
      else State.each { s with fbk.queue := [], fbk.restored := [] } s.fbWaiting fun r u =>
        u.fbWrite { r with flags := setBit r.flags 0 }) with mem.saving := some none } := by
  simp only [State.saveWrite, h]

/-- A save touches the memories and the Field Book, and reports. -/
theorem State.saveWrite_steady (s : State) : State.Steady { s with fbk := s.saveWrite.fbk } s.saveWrite := by
  cases hslot : s.saveSlot with
  | some b =>
    exact State.Steady.aside (.flashAndBytes (saveBase b) s.saveImage (.retReadFx (.refl s)))
      (by rw [State.saveWrite_slot hslot])
  | none =>
    have hring : State.Steady { s with fbk.queue := [], fbk.restored := [] } (State.each
        { s with fbk.queue := [], fbk.restored := [] } s.fbWaiting fun r u => u.fbWrite { r with flags := setBit r.flags 0 }) :=
      .each (.refl _) fun _ _ => .fbWrite _
    rw [State.saveWrite_ring hslot]
    split
    · exact State.Steady.aside (.refl s) rfl
    · exact State.Steady.aside (s0 := { s with fbk.queue := [], fbk.restored := [] }) hring rfl

/-- So does the start of a save, with an erase in hand abandoned first (15 R413). -/
theorem State.saveBegun_steady (s : State) :
    State.Steady { s with fbk := s.flashAbandon.saveWrite.fbk } s.flashAbandon.saveWrite :=
  (State.Steady.aside (t := { s.flashAbandon with fbk := s.flashAbandon.saveWrite.fbk }) (.flashAbandon (.refl s)) rfl).trans
    (State.saveWrite_steady _)

/-! ### Power-fail detection (03 R91, Corner cases) -/

/-- SAVE is entered, with Walk mode and the heartbeat ended. -/
def State.saveEntered (s : State) : State := { s with
  sys.vehState := .save, wlv.hbRuns := false, sp.walk := false, sp.walkEntering := false, sp.pend := false
  sp.keyOpen := if s.sp.walk || s.sp.walkEntering then false else s.sp.keyOpen
  sp.keyLeft := if s.sp.walk || s.sp.walkEntering then 0 else s.sp.keyLeft }

/-- A program that runs stops where it stands. -/
def State.progHalted (s : State) : State := if s.progBusy then s.cycleDrop.progTo .stop else s

theorem State.powerFail_eq {s : State} (hpfail : s.pfail = false) (hup : s.up = true) :
    s.powerFail = ((s.saveEntered.raise 3).progHalted.wlvSync.laneOffDrive).flashAbandon.saveWrite :=
  if_neg (by simp [hpfail, hup])

theorem State.able_of_pfail {s : State} (h : s.pfail = true) : s.able = false := by simp [State.able, h]

theorem State.pfail_of_save {s : State} (h : s.sys.vehState = .save) : s.pfail = true := by simp [State.pfail, h]

/-- Where the program may not drive, entering STOP changes its state and ends drive. -/
theorem State.progTo_stop_undriven {s : State} (h : s.pfail = true) :
    State.Undriven { s with ctl.pstate := .stop } (s.progTo .stop) := by
  have hreport : State.Steady { s with ctl.pstate := .stop } (((({ s with ctl.pstate := .stop } : State).raiseIf
      (decide (ProgState.stop = .run)) 240).raiseIf (decide (ProgState.stop = .stop) || decide (ProgState.stop = .faultstop)) 241)) :=
    .raiseIf _ _ (.raiseIf _ _ (.refl _))
  have hunable := hreport.able.trans (State.able_of_pfail (s := { s with ctl.pstate := .stop }) h)
  exact hreport.undriven.trans (State.wlvSync_unable_undriven hunable)

/-- The program halted: none is busy, and its retained region stands. -/
theorem State.progHalted_undriven {s : State} (h : s.pfail = true) :
    State.Undriven { s with ctl := s.progHalted.ctl } s.progHalted ∧ s.progHalted.progBusy = false ∧
      s.progHalted.ctl.retained = s.ctl.retained := by
  unfold State.progHalted
  split
  · have hstop : State.Undriven { s.cycleDrop with ctl.pstate := .stop } (s.cycleDrop.progTo .stop) :=
      State.progTo_stop_undriven (s := s.cycleDrop) h
    refine ⟨?_, ?_, ?_⟩
    · rw [hstop.ctl]
      exact hstop
    · simp [State.progBusy, hstop.ctl]
    · rw [hstop.ctl]
      rfl
  · next hidle => exact ⟨.refl s, by simpa using hidle, rfl⟩

/-- A Lane that stops driving is in no state in which it drives (11 R303). -/
theorem State.laneOffDrive_state (s : State) : s.laneOffDrive.lane.state ≠ .start ∧ s.laneOffDrive.lane.state ≠ .run ∧
    s.laneOffDrive.lane.state ≠ .turned := by
  unfold State.laneOffDrive
  dsimp only
  split
  · next hdrives =>
    have hne : ¬ s.lane.state = .listen := by rcases hdrives with h | h | h <;> simp [h]
    rw [State.laneTo, if_neg hne, State.raise_lane]
    simp
  · next hidle => simpa only [not_or] using hidle

theorem State.laneDePin_low {s : State} (h : s.lane.state ≠ .start ∧ s.lane.state ≠ .run ∧ s.lane.state ≠ .turned) :
    s.laneDePin = .low := by
  simp [State.laneDePin, State.laneDe, State.drives, h]

theorem State.laneOffDrive_sys (s : State) : s.laneOffDrive.sys = s.sys := by
  unfold State.laneOffDrive State.laneTo
  dsimp only
  split
  · split
    · rfl
    · rw [State.raise_sys]
  · rfl

/-- OWN_OUT_N follows from the pins and resets alone. -/
theorem State.ownOutPin_of_sys {s t : State} (h : t.sys = s.sys) : t.ownOutPin = s.ownOutPin := by
  show State.ownOutPin { s with sys := t.sys } = s.ownOutPin
  rw [h]

/-- The state in which power-fail detection begins the save: SAVE and EV003, no Walk mode, heartbeat, drive or program, and the
retained region and the records as they were. -/
theorem State.powerFail_begins {s : State} (hpfail : s.pfail = false) (hup : s.up = true) :
    ∃ x : State, s.powerFail = x.flashAbandon.saveWrite ∧ x.sys.vsupMv = s.sys.vsupMv ∧ x.sys.vehState = .save ∧
      x.evt.raw.getLsbD 3 = true ∧ x.sp.walk = false ∧ x.wlv.hbRuns = false ∧ x.ownOutPin = .released ∧
      (x.lane.state ≠ .start ∧ x.lane.state ≠ .run ∧ x.lane.state ≠ .turned) ∧ x.progBusy = false ∧
      x.ctl.retained = s.ctl.retained ∧ x.fbk.restored = s.fbk.restored ∧ s.fbk.queue <+: x.fbk.queue := by
  have hraise : s.saveEntered.Steady (s.saveEntered.raise 3) := .raise _ (.refl _)
  have hev3 : (s.saveEntered.raise 3).evt.raw.getLsbD 3 = true := State.raise_raises _ (by omega)
  have hsave : (s.saveEntered.raise 3).sys.vehState = .save := congrArg Sys.vehState hraise.sys
  have hvsup : (s.saveEntered.raise 3).sys.vsupMv = s.sys.vsupMv := by rw [hraise.sys]; rfl
  refine ⟨_, State.powerFail_eq hpfail hup, ?_⟩
  generalize s.saveEntered.raise 3 = a at hraise hev3 hsave hvsup
  obtain ⟨hhalt, hidle, hretained⟩ := State.progHalted_undriven (State.pfail_of_save hsave)
  generalize a.progHalted = p at hhalt hidle hretained
  have hpable : p.able = false := State.able_of_pfail (State.pfail_of_save (hhalt.vehState.trans hsave))
  have hdrive : State.Undriven { a with ctl := p.ctl } p.wlvSync.laneOffDrive :=
    hhalt.trans (.laneOffDrive (State.wlvSync_unable_undriven hpable))
  refine ⟨hdrive.vsupMv.trans hvsup, hdrive.vehState.trans hsave, hdrive.grows.raised hev3,
    hdrive.walk.trans hraise.walk, hdrive.hbRuns.trans hraise.hbRuns,
    (State.ownOutPin_of_sys (State.laneOffDrive_sys _)).trans (State.wlvSync_unable_ownOutPin hpable),
    State.laneOffDrive_state _, ?_, ?_, hdrive.grows.restored.trans hraise.grows.restored,
    hraise.grows.queue.trans hdrive.grows.queue⟩
  · simpa only [State.progBusy, hdrive.ctl] using hidle
  · rw [hdrive.ctl, hretained, hraise.ctl]
    rfl

/-- What stands after power-fail detection, with the save begun. -/
theorem State.powerFail_detected {s : State} (hpfail : s.pfail = false) (hup : s.up = true) :
    s.powerFail.sys.vsupMv = s.sys.vsupMv ∧ s.powerFail.sys.vehState = .save ∧ s.powerFail.stateCode = 14 ∧
      s.powerFail.pfail = true ∧ s.powerFail.evt.raw.getLsbD 3 = true ∧ s.powerFail.sp.walk = false ∧
      s.powerFail.wlv.hbRuns = false ∧ s.powerFail.ownOutPin = .released ∧ s.powerFail.laneDePin = .low ∧
      s.powerFail.progBusy = false ∧
      ∃ x : State, s.powerFail = x.flashAbandon.saveWrite ∧ x.ctl.retained = s.ctl.retained ∧
        x.fbk.restored = s.fbk.restored ∧ s.fbk.queue <+: x.fbk.queue := by
  obtain ⟨x, hx, hvsup, hsave, hev3, hwalk, hheart, hpin, hlane, hidle, hrecords⟩ := State.powerFail_begins hpfail hup
  have hbegun := x.saveBegun_steady
  rw [← hx] at hbegun
  have hstate : s.powerFail.sys.vehState = .save := (congrArg Sys.vehState hbegun.sys).trans hsave
  have hpfail' := State.pfail_of_save hstate
  refine ⟨(congrArg Sys.vsupMv hbegun.sys).trans hvsup, hstate, if_pos hpfail', hpfail', hbegun.grows.raised hev3,
    hbegun.walk.trans hwalk, hbegun.hbRuns.trans hheart, (State.ownOutPin_of_sys hbegun.sys).trans hpin,
    State.laneDePin_low (by rw [hbegun.lane]; exact hlane), ?_, x, hx, hrecords⟩
  simpa only [State.progBusy, hbegun.ctl] using hidle

theorem exec_classTimeExpiry_off {s : State} (h : s.sys.vehOff = true) : exec .classTimeExpiry s = .next s :=
  congrArg Host.Outcome.next (if_neg (by simp [h]))

theorem exec_classTimeExpiry_ride {s : State} (hstate : s.sys.vehState = .ride) (hoff : s.sys.vehOff = false) :
    exec .classTimeExpiry s = .next s.powerFail := congrArg Host.Outcome.next (if_pos ⟨hstate, hoff⟩)

/-- VSUP as power-fail detection on it finds it: below 1660 mV (log 140). -/
theorem vsupFailed_lt (v : Half) : (if v.toNat < 1660 then v else 1659).toNat < 1660 := by
  split
  · assumption
  · decide

/-! ### The end of the save (03 R94, R95) -/

theorem State.saveCommit_slot {s : State} {b : Bool} (h : s.mem.saving = some (some b)) :
    s.saveCommit = { State.flashAndBytes (saveBase b + 0x1FFC) [0, 0, 0, 0] s with
      sys := { s.sys with rstcause := setBit s.sys.rstcause 6 } } := by
  have hsys : (State.flashAndBytes (saveBase b + 0x1FFC) [0, 0, 0, 0] s).sys = s.sys :=
    (State.Steady.flashAndBytes _ _ (.refl s)).sys
  simp only [State.saveCommit, h, hsys]

section
variable {s : State} (hstate : s.sys.vehState = .save) (hwait : s.sys.resetWaiting = 0)
include hstate hwait

theorem exec_saveDone_noReset : exec .saveDone s =
    .next { s.saveCommit with mem.saving := none, sys.vehState := .hold, sys.resetWaiting := 0 } := by
  refine congrArg Host.Outcome.next ((if_neg (not_not_intro hstate)).trans ?_)
  rw [hwait]
  rfl

theorem exec_saveDone_slot {b : Bool} (h : s.mem.saving = some (some b)) :
    exec .saveDone s = .next { State.flashAndBytes (saveBase b + 0x1FFC) [0, 0, 0, 0] s with
      sys := { s.sys with vehState := .hold, resetWaiting := 0, rstcause := setBit s.sys.rstcause 6 }
      mem.saving := none } := by
  rw [exec_saveDone_noReset hstate hwait, State.saveCommit_slot h]

theorem exec_saveDone_ring (h : s.mem.saving = some none) :
    exec .saveDone s = .next { s with mem.saving := none, sys.vehState := .hold, sys.resetWaiting := 0 } := by
  rw [exec_saveDone_noReset hstate hwait, State.saveCommit, h]

end

/-- Settles O6, clause by clause. NOM = 0b11 taking the monitor to NORMAL at the next sample is the model's choice (log 184), as
are VSUP put below 1660 mV (log 140), the restored records saved beside the queue (log 221), the program stopped at detection (log
128), and COMMIT and SAVED only at the end of the save (log 127). -/
theorem supplyServes : Obligations.SupplyServes := by
  unfold Obligations.SupplyServes
  intro detected
  refine ⟨fun mv a b vio temp s hup hsupply hstate hn hlow => exec_vehSample_ride mv a b vio temp hup hsupply hstate hn hlow,
    fun mv a b vio temp s hup hnone => exec_vehSample_none mv a b vio temp hup hnone,
    fun s h => exec_classTimeExpiry_off h, fun s hstate hup hoff => ?_, fun s hpfail hup => ?_, fun b s h => ?_,
    fun b s hstate hwait h => exec_saveDone_slot hstate hwait h, fun s hstate hwait h => exec_saveDone_ring hstate hwait h,
    fun mv s h hup => congrArg Host.Outcome.next (if_pos ⟨h, hup⟩),
    fun v s h hup => congrArg Host.Outcome.next (if_pos ⟨h, hup⟩)⟩
  · have hpfail : s.pfail = false := by simp [State.pfail, hstate]
    exact ⟨_, exec_classTimeExpiry_ride hstate hoff, (State.powerFail_detected hpfail hup).2⟩
  · obtain ⟨hvsup, hdetected⟩ := State.powerFail_detected
      (s := { s with sys.vsupMv := if s.sys.vsupMv.toNat < 1660 then s.sys.vsupMv else 1659 }) hpfail hup
    exact ⟨_, rfl, by rw [hvsup]; exact vsupFailed_lt _, hdetected⟩
  · obtain ⟨himage, hsaving, hcommit⟩ := State.saveWrite_stores h
    exact ⟨himage, hsaving, hcommit, s.saveImage_drop⟩

end Sys2Proof.Machine
end

section
/-! PROOF. The encodings of the headers: bytes in line order, frame control, and the Open Road, survey and Traverse headers and
a slot's CRC read back (04 R104; 05 R138, R139; 06 R169 to R173; 07 R207). -/
namespace Sys2Proof.Machine

/-! ### Numbers in line order (00 R5) -/

theorem ofLe_leBytes (n v : Nat) : ofLe (leBytes n v) = v % 256 ^ n := by
  induction n generalizing v with
  | zero => simp [leBytes, ofLe, Nat.mod_one]
  | succ n ih =>
    rw [Nat.pow_succ', Nat.mod_mul, leBytes, ofLe, ih]
    exact congrArg (· + _) (BitVec.toNat_ofNat v 8)

@[simp] theorem length_beBytes (n v : Nat) : (beBytes n v).length = n := by simp [beBytes, length_leBytes]

theorem ofBe_beBytes (n v : Nat) : ofBe (beBytes n v) = v % 256 ^ n := by simp [ofBe, beBytes, ofLe_leBytes]

@[simp] theorem byteAt_cons_zero (b : Byte) (l : List Byte) : byteAt (b :: l) 0 = b := rfl

@[simp] theorem byteAt_cons_succ (b : Byte) (l : List Byte) (i : Nat) : byteAt (b :: l) (i + 1) = byteAt l i := rfl

@[simp] theorem byteAt_beBytes_append {n i : Nat} (v : Nat) (l : List Byte) (h : n ≤ i) :
    byteAt (beBytes n v ++ l) i = byteAt l (i - n) := by
  simp [byteAt, List.getElem?_append_right, h]

/-- Bytes that lie at an offset are what is read there. -/
theorem slice_append {i n : Nat} (a b c : List Byte) (hi : a.length = i) (hn : b.length = n) : slice (a ++ (b ++ c)) i n = b := by
  subst hi hn
  simp [slice]

@[simp] theorem beAt_cons_succ (b : Byte) (l : List Byte) (i n : Nat) : beAt (b :: l) (i + 1) n = beAt l i n := rfl

/-- A number put in line order at an offset is the one read there. -/
theorem beAt_append {i n v : Nat} (a l : List Byte) (hi : a.length = i) (h : v < 256 ^ n) :
    beAt (a ++ (beBytes n v ++ l)) i n = v := by
  rw [beAt, slice_append a _ l hi (length_beBytes n v), ofBe_beBytes, Nat.mod_eq_of_lt h]

@[simp] theorem beAt_beBytes {n v : Nat} (l : List Byte) (h : v < 256 ^ n) : beAt (beBytes n v ++ l) 0 n = v :=
  beAt_append [] l rfl h

@[simp] theorem beAt_beBytes_append {m i : Nat} (n v : Nat) (l : List Byte) (h : m ≤ i) :
    beAt (beBytes m v ++ l) i n = beAt l (i - m) n := by
  simp [beAt, slice, List.drop_append, List.drop_of_length_le, h]

/-! ### Frame control (04 R104, R105) -/

theorem fcFlags_fields (t : FType) (tmi : Fin 16) (pass : Bool) (l : List Byte) :
    let fc := BitVec.ofNat 8 (t.code * 64 + tmi.val * 4 + pass.toNat * 2) :: l
    fcType fc = t ∧ fcTmi fc = tmi.val ∧ fcPass fc = pass := by
  simp only [fcType, fcTmi, fcPass, byteAt_cons_zero]
  cases t <;> revert tmi pass <;> decide

theorem fcOk_fcBytes (t : FType) (tmi : Nat) (pass : Bool) (len : Nat) : fcOk (fcBytes t tmi pass len) = true := by
  have hbody : slice (fcBytes t tmi pass len) 0 3 = BitVec.ofNat 8 (t.code * 64 + tmi * 4 + pass.toNat * 2) :: beBytes 2 len :=
    slice_append [] (_ :: _) _ rfl (by simp)
  rw [fcOk, hbody]
  exact decide_eq_true (by simp [fcBytes])

theorem fcLen_fcBytes (t : FType) (tmi : Nat) (pass : Bool) {len : Nat} (h : len < 8192) :
    fcLen (fcBytes t tmi pass len) = len := by
  have hlen : beAt (fcBytes t tmi pass len) 1 2 = len := beAt_append [_] _ rfl (by omega)
  rw [fcLen, hlen, Nat.mod_eq_of_lt h]

/-! ### Open Road header (07 R207, Table 7.1) -/

theorem roadFlags_fields : ∀ (prio : Fin 8) (bcast loc srcv : Bool),
    let b : Byte := BitVec.ofNat 8 (prio.val * 32 + bcast.toNat * 16 + loc.toNat * 8 + srcv.toNat * 4)
    fld b 5 3 = prio.val ∧ b[4] = bcast ∧ b[3] = loc ∧ b[2] = srcv := by decide

theorem RHdr.parse_bytes (h : RHdr) (payload : List Byte) (hprio : h.prio < 8) (hcls : h.cls < 256) (hhops : h.hops < 256)
    (hplen : h.plen < 65536) (hchan : h.chan < 256) : RHdr.parse (h.bytes ++ payload) = h := by
  obtain ⟨prio, bcast, loc, srcv, cls, src, dst, epoch, hops, seq, plen, chan⟩ := h
  obtain ⟨hp, hb, hl, hs⟩ := roadFlags_fields ⟨prio, hprio⟩ bcast loc srcv
  simp only at hp hb hl hs hcls hhops hplen hchan
  simp [RHdr.parse, RHdr.bytes, hp, hb, hl, hs, Nat.mod_eq_of_lt, hcls, hhops, hplen, hchan, seq.isLt]

theorem RHdr.length_bytes (h : RHdr) : h.bytes.length = 12 := by simp [RHdr.bytes]

theorem roadPayload_bytes (h : RHdr) (payload : List Byte) : roadPayload (h.bytes ++ payload) = payload :=
  List.drop_left' h.length_bytes

/-! ### Survey header (05 R138, R139, Table 5.1) -/

theorem surveyFlags_fields : ∀ (prec : BitVec 2) (coll full : Bool),
    let b : Byte := BitVec.ofNat 8 (prec.toNat * 64 + coll.toNat * 32 + full.toNat * 16)
    (b >>> 6).setWidth 2 = prec ∧ b[5] = coll ∧ b[4] = full := by decide

theorem SHdr.parse_bytes (h : SHdr) (rest : List Byte) (hkind : h.kind < 256) (hcount : h.count < 256)
    (hwinrem : h.winrem < 65536) : SHdr.parse (h.bytes ++ rest) = h := by
  obtain ⟨kind, prec, coll, full, sid, oldep, newep, count, win, winrem, tper⟩ := h
  obtain ⟨hp, hc, hf⟩ := surveyFlags_fields prec coll full
  simp only at hkind hcount hwinrem
  simp [SHdr.parse, SHdr.bytes, hp, hc, hf, Nat.mod_eq_of_lt, hkind, hcount, hwinrem, sid.isLt, tper.isLt]

/-! ### Traverse header (06 R169 to R172, Table 6.2) -/

theorem traverseFlags_fields : ∀ leadin take : Bool,
    let b : Byte := BitVec.ofNat 8 (16 + leadin.toNat * 8 + take.toNat * 4)
    b[3] = leadin ∧ b[2] = take := by decide

theorem THdr.parse_bytes (h : THdr) (rest : List Byte) : THdr.parse (h.bytes ++ rest) = h := by
  obtain ⟨leadin, take, epoch, bench, tabseq, tcount, accdly, tper⟩ := h
  obtain ⟨hl, ht⟩ := traverseFlags_fields leadin take
  simp [THdr.parse, THdr.bytes, THdr.body, hl, ht, tcount.isLt, accdly.isLt, tper.isLt]

theorem THdr.length_body (h : THdr) : h.body.length = 14 := by simp [THdr.body]

/-- HCRC covers bytes 0 to 13 and follows them (06 R172). -/
theorem hcrcOk_bytes (h : THdr) (rest : List Byte) : hcrcOk (h.bytes ++ rest) = true := by
  have hbytes : h.bytes ++ rest = h.body ++ (beBytes 2 (crc16 h.body).toNat ++ rest) := List.append_assoc ..
  have hbody : slice (h.bytes ++ rest) 0 14 = h.body := by rw [hbytes]; exact slice_append [] _ _ rfl h.length_body
  have hcrc : beAt (h.bytes ++ rest) 14 2 = (crc16 h.body).toNat := by
    rw [hbytes]
    exact beAt_append _ _ h.length_body (crc16 h.body).isLt
  rw [hcrcOk, hbody, hcrc, decide_eq_true rfl]

/-! ### Slots (06 R173, Table 6.4) -/

theorem slotOk_mkSlot (epoch owner : Byte) (tcount : Word) (stat seq : Byte) (data : List Byte) :
    slotOk epoch owner tcount (mkSlot epoch owner tcount stat seq data) = true := by
  unfold slotOk mkSlot
  generalize [stat, seq] ++ data = b
  generalize hc : slotCrc epoch owner tcount b = c
  have hcrc : beAt (b ++ (beBytes 2 c.toNat ++ [])) b.length 2 = c.toNat := beAt_append b [] rfl c.isLt
  rw [List.append_nil] at hcrc
  simp [hc, hcrc]

/-- Settles O17, header by header. -/
theorem frameHeadersAgree : Obligations.FrameHeadersAgree := by
  unfold Obligations.FrameHeadersAgree
  refine ⟨fun t tmi pass len htmi hlen => ?_, fun h payload hprio hcls hhops hplen hchan =>
    ⟨h.parse_bytes payload hprio hcls hhops hplen hchan, roadPayload_bytes h payload⟩,
    fun h rest hkind hcount hwinrem => h.parse_bytes rest hkind hcount hwinrem,
    fun h rest => ⟨h.parse_bytes rest, hcrcOk_bytes h rest⟩, slotOk_mkSlot⟩
  obtain ⟨htype, htmi', hpass⟩ := fcFlags_fields t ⟨tmi, htmi⟩ pass (beBytes 2 len ++ [_])
  exact ⟨fcOk_fcBytes t tmi pass len, htype, htmi', hpass, fcLen_fcBytes t tmi pass hlen⟩

end Sys2Proof.Machine
end

section
/-! PROOF. The line ports: transitions of the port state machine, JAM, notches, timestamps and port disable (04 R128 to R135). -/
namespace Sys2Proof.Machine

/-! ### Changes of a port -/

theorem State.modPort_modPort (p : Fin 4) (f g : Port → Port) (s : State) :
    (s.modPort p f).modPort p g = s.modPort p fun c => g (f c) := by
  simp only [State.modPort, upd, Vector.get_set, if_true, Vector.set_set]

@[simp] theorem State.port_modPort_self (p : Fin 4) (f : Port → Port) (s : State) : (s.modPort p f).port p = f (s.port p) := by
  rw [State.port_modPort, if_pos rfl]

@[simp] theorem State.port_count1 (p i : Nat) (q : Fin 4) (s : State) : (s.count1 p i).port q = s.port q :=
  (congrArg (State.port · q) (State.count1_reported p i s).eq).trans rfl

@[simp] theorem State.levelHeard_state (p : Fin 4) (t : Dword) (lvl : Byte) (s : State) :
    ((s.levelHeard p t lvl).port p).state = (s.port p).state := by simp [State.levelHeard]

/-- A port that comes to carrier or dead from another state: its map is not kept, and its JAM stays as it is (04 R123, R130). -/
theorem State.portTo_unlocked {p : Fin 4} {st : PortState} {s : State} (h : (s.port p).state ≠ st) (hsil : st ≠ .silent)
    (hlock : st ≠ .locked) :
    s.portTo p st = (s.modPort p fun c => { c with state := st, kept := false }).raise (32 + p.val) := by
  simp only [State.portTo, if_neg h, if_neg hsil, decide_eq_false hlock, Bool.and_false]

/-- A port that falls silent loses JAM and its kept map (04 R123, R130). -/
theorem State.portTo_silent {p : Fin 4} {s : State} (h : (s.port p).state ≠ .silent) :
    s.portTo p .silent = (s.modPort p fun c => { c with state := .silent, jam := false, kept := false }).raise (32 + p.val) := by
  simp only [State.portTo, if_neg h, if_true, reduceCtorEq, decide_false, Bool.and_false]

/-! ### Transitions (04 R130, Table 4.10) -/

section
variable {p : Fin 4} {s : State}

theorem exec_portCarrier_silent (lvl : Byte) (hup : s.portUp p = true) (hsusp : s.suspended p = false)
    (hst : (s.port p).state = .silent) :
    exec (.portCarrier p lvl) s = .next (((s.levelHeard p s.tre.time lvl).modPort p fun c => { c with
      busyTo := some s.tre.time, state := .carrier, kept := false }).raise (32 + p.val)) := by
  refine congrArg Host.Outcome.next ((if_pos (by simp [hup, hsusp, hst])).trans ?_)
  rw [State.portTo_unlocked (by simp [hst]) (by decide) (by decide), State.modPort_modPort]

theorem exec_portLockLost_locked (hup : s.portUp p = true) (hst : (s.port p).state = .locked) :
    exec (.portLockLost p) s = .next ((s.modPort p fun c => { c with state := .carrier, kept := false }).raise (32 + p.val)) := by
  refine congrArg Host.Outcome.next ((if_pos (by simp [hup, hst])).trans ?_)
  exact State.portTo_unlocked (by simp [hst]) (by decide) (by decide)

theorem exec_portSilent_heldLow (lvl : Byte) (hup : s.portUp p = true) (hsusp : s.suspended p = false)
    (hlow : s.heldLow p = true) (hst : (s.port p).state = .carrier ∨ (s.port p).state = .locked) :
    exec (.portSilent p lvl) s = .next ((s.modPort p fun c => { c with
      rxlvl := lvl, levels := [], state := .silent, jam := false, kept := false }).raise (32 + p.val)) := by
  refine congrArg Host.Outcome.next ((if_pos (by simp [hup, hsusp, hlow, hst])).trans ?_)
  rw [State.portTo_silent (by rcases hst with h | h <;> simp [h]), State.modPort_modPort]

theorem exec_portJam_sets (hup : s.portUp p = true) (hsusp : s.suspended p = false) (hen : (s.pcfg p).getLsbD 12 = true)
    (hjam : (s.port p).jam = false) (hst : (s.port p).state = .carrier ∨ (s.port p).state = .locked) :
    exec (.portJam p) s = .next ((s.modPort p fun c => { c with jam := true }).raise (44 + p.val)) :=
  congrArg Host.Outcome.next (if_pos (by simp [hup, hsusp, hen, hjam, hst]))

theorem exec_portDead_jammed (hup : s.portUp p = true) (hsusp : s.suspended p = false) (hjam : (s.port p).jam = true)
    (hst : (s.port p).state = .carrier) :
    exec (.portDead p) s = .next (((s.modPort p fun c => { c with
      txEnd := none, state := .dead, kept := false }).raise (32 + p.val)).raise (36 + p.val)) := by
  refine congrArg Host.Outcome.next ((if_pos (by simp [hup, hsusp, hjam, hst])).trans ?_)
  rw [State.portTo_unlocked (by simp [hst]) (by decide) (by decide), State.modPort_modPort]

theorem exec_portClear_dead (hup : s.portUp p = true) (hst : (s.port p).state = .dead) :
    exec (.portClear p) s = .next
      ((s.modPort p fun c => { c with state := .silent, jam := false, kept := false }).raise (32 + p.val)) := by
  refine congrArg Host.Outcome.next ((if_pos (by simp [hup, hst])).trans ?_)
  exact State.portTo_silent (by simp [hst])

/-- While the port transmits, its carrier, silence, jam and dead tests are suspended (04 R131). -/
theorem exec_portTests_suspended (lvl : Byte) (h : s.suspended p = true) :
    exec (.portCarrier p lvl) s = .next s ∧ exec (.portSilent p lvl) s = .next s ∧ exec (.portJam p) s = .next s ∧
      exec (.portDead p) s = .next s := by
  refine ⟨?_, ?_, ?_, ?_⟩ <;> exact congrArg Host.Outcome.next (if_neg (by simp [h]))

/-! ### Notches (04 R128, R129) -/

theorem fins_eight : fins 8 = List.finRange 8 := by decide

theorem firstFree_eq_some {v : Vector (Option (BitVec 24 × Dword)) 8} {n : Fin 8} (hn : v.get n = none)
    (hbelow : ∀ k, k < n → (v.get k).isSome = true) : firstFree v = some n := by
  rw [firstFree, fins_eight, List.find?_eq_some_iff_getElem]
  refine ⟨by simp [hn], n.val, by simp, by simp, fun j hj => ?_⟩
  simpa using hbelow ⟨j, by omega⟩ hj

theorem firstFree_eq_none {v : Vector (Option (BitVec 24 × Dword)) 8} (hfull : ∀ k, (v.get k).isSome = true) :
    firstFree v = none := by
  rw [firstFree, List.find?_eq_none]
  intro k _
  simp [Option.isSome_iff_ne_none.mp (hfull k)]

/-- A notch put on an interferer, or moved to it, is dated now (04 R128). -/
def State.notchPut (p : Fin 4) (freq : BitVec 24) (i : Fin 8) (s : State) : State :=
  s.modPort p fun c => { c with notches := c.notches.set i (some (freq, s.tre.time)) }

theorem exec_notchPlace_near (freq : BitVec 24) (h : nearCarrier freq = true ∨ betweenCarriers freq = false) :
    exec (.notchPlace p freq) s = .next s :=
  congrArg Host.Outcome.next (if_pos (by rcases h with h | h <;> simp [h]))

section
variable {freq : BitVec 24} (hup : s.portUp p = true) (hen : (s.pcfg p).getLsbD 13 = true) (hnear : nearCarrier freq = false)
  (hbetween : betweenCarriers freq = true)
include hup hen hnear hbetween

theorem exec_notchPlace_between : exec (.notchPlace p freq) s = .next
    (match s.notchOf p freq, firstFree (s.port p).notches with
      | some i, _ => s.notchPut p freq i
      | none, some i => s.notchPut p freq i
      | none, none => s.raise (48 + p.val)) :=
  congrArg Host.Outcome.next ((if_neg (by simp [hup, hen, hnear, hbetween])).trans rfl)

theorem exec_notchPlace_follows {n : Fin 8} (h : s.notchOf p freq = some n) :
    exec (.notchPlace p freq) s = .next (s.notchPut p freq n) := by
  rw [exec_notchPlace_between hup hen hnear hbetween, h]

theorem exec_notchPlace_firstFree {n : Fin 8} (h : s.notchOf p freq = none) (hn : (s.port p).notches.get n = none)
    (hbelow : ∀ k : Fin 8, k < n → ((s.port p).notches.get k).isSome = true) :
    exec (.notchPlace p freq) s = .next (s.notchPut p freq n) := by
  rw [exec_notchPlace_between hup hen hnear hbetween, h, firstFree_eq_some hn hbelow]

theorem exec_notchPlace_full (h : s.notchOf p freq = none) (hfull : ∀ k : Fin 8, ((s.port p).notches.get k).isSome = true) :
    exec (.notchPlace p freq) s = .next (s.raise (48 + p.val)) := by
  rw [exec_notchPlace_between hup hen hnear hbetween, h, firstFree_eq_none hfull]

end

/-! ### The pair read of a timestamp (04 R134) -/

theorem exec_timestampRead_word {m : Master} {a : Nat} (ha : a < 2 ^ 32) (h : s.accesses m false a = true)
    (hw : tsWord a = true) :
    exec (.timestampRead m (BitVec.ofNat 32 a)) s = .next ((s.tsShadow a).emit (.answer m (s.tsLow a))) := by
  have hn : (BitVec.ofNat 32 a).toNat = a := Nat.mod_eq_of_lt ha
  refine congrArg Host.Outcome.next ?_
  rw [hn, State.access_made _ h]
  exact if_pos hw

theorem exec_timestampRead_other {m : Master} {a : Word} (h : s.accesses m false a.toNat = true) (hw : tsWord a.toNat = false) :
    exec (.timestampRead m a) s = .next (s.accFault m false a.toNat) :=
  congrArg Host.Outcome.next ((State.access_made _ h).trans (if_neg (by simp [hw])))

theorem tsWord_tsrx : ∀ p : Fin 4, Reg.LIU_TSRX_L + 0x1000 * p.val < 2 ^ 32 ∧
    tsWord (Reg.LIU_TSRX_L + 0x1000 * p.val) = true := by decide

theorem tsWord_tstx : ∀ p : Fin 4, Reg.LIU_TSTX_L + 0x1000 * p.val < 2 ^ 32 ∧
    tsWord (Reg.LIU_TSTX_L + 0x1000 * p.val) = true := by decide

theorem State.tsrx_shadow_low (p : Fin 4) (s : State) :
    s.tsShadow (Reg.LIU_TSRX_L + 0x1000 * p.val) = (s.modPort p fun c => { c with tsrxSh := some (hi32 c.tsrx) }) ∧
      s.tsLow (Reg.LIU_TSRX_L + 0x1000 * p.val) = lo32 (s.port p).tsrx := by
  match p with
  | 0 | 1 | 2 | 3 => exact ⟨rfl, rfl⟩

theorem State.tstx_shadow_low (p : Fin 4) (s : State) :
    s.tsShadow (Reg.LIU_TSTX_L + 0x1000 * p.val) = (s.modPort p fun c => { c with tstxSh := some (hi32 c.tstx) }) ∧
      s.tsLow (Reg.LIU_TSTX_L + 0x1000 * p.val) = lo32 (s.port p).tstx := by
  match p with
  | 0 | 1 | 2 | 3 => exact ⟨rfl, rfl⟩

theorem exec_timestampRead_tsrx {m : Master} (h : s.accesses m false (Reg.LIU_TSRX_L + 0x1000 * p.val) = true) :
    exec (.timestampRead m (BitVec.ofNat 32 (Reg.LIU_TSRX_L + 0x1000 * p.val))) s = .next
      ((s.modPort p fun c => { c with tsrxSh := some (hi32 c.tsrx) }).emit (.answer m (lo32 (s.port p).tsrx))) := by
  obtain ⟨haddr, hword⟩ := tsWord_tsrx p
  obtain ⟨hshadow, hlow⟩ := State.tsrx_shadow_low p s
  rw [exec_timestampRead_word haddr h hword, hshadow, hlow]

theorem exec_timestampRead_tstx {m : Master} (h : s.accesses m false (Reg.LIU_TSTX_L + 0x1000 * p.val) = true) :
    exec (.timestampRead m (BitVec.ofNat 32 (Reg.LIU_TSTX_L + 0x1000 * p.val))) s = .next
      ((s.modPort p fun c => { c with tstxSh := some (hi32 c.tstx) }).emit (.answer m (lo32 (s.port p).tstx))) := by
  obtain ⟨haddr, hword⟩ := tsWord_tstx p
  obtain ⟨hshadow, hlow⟩ := State.tstx_shadow_low p s
  rw [exec_timestampRead_word haddr h hword, hshadow, hlow]

/-! ### Port disable (04 R135) -/

theorem State.abortRx_idle (h : (s.port p).busyTo = none) : s.abortRx p = s := if_neg (by simp [h])

theorem State.abortRx_receiving {t : Dword} (h : (s.port p).busyTo = some t) (ht : s.before t = true) :
    s.abortRx p = (s.modPort p fun c => { c with busyTo := some s.tre.time }).count1 p.val 37 := if_pos (by simp [h, ht])

theorem State.abortRx_state : ((s.abortRx p).port p).state = (s.port p).state := by
  unfold State.abortRx
  split <;> simp

theorem exec_portDisable_busy (h : s.txBusy p = true) : exec (.portDisable p) s = .next s :=
  congrArg Host.Outcome.next (if_pos (by simp [h]))

/-- A port whose PEN bit is clear and that sends nothing: a reception is given up, the estimate goes, and the port is
silent. -/
theorem exec_portDisable_idle (hpen : s.regBit Reg.LIU_CTL p.val = false) (hen : (s.port p).enabled = true)
    (hbusy : s.txBusy p = false) (hst : (s.port p).state ≠ .silent) :
    exec (.portDisable p) s = .next (((s.abortRx p).modPort p fun c => { c with
      enabled := false, jam := false, snrSum := [], snrCount := 0, txact := false, txEnd := none, state := .silent
      kept := false }).raise (32 + p.val)) := by
  refine congrArg Host.Outcome.next ((if_neg (by simp [hpen, hbusy])).trans ?_)
  have hfresh : (((s.abortRx p).modPort p (Port.fresh false)).port p).state ≠ .silent := by
    rw [State.port_modPort_self]
    exact fun hsilent => hst (State.abortRx_state.symm.trans hsilent)
  rw [State.portEnable, if_neg (by simp [hen]), if_neg (by simp), State.portTo_silent hfresh, State.modPort_modPort]
  rfl

end

/-- Settles O7, command by command. That an interferer in drift is the one its notch tracks is the model's choice (log 158), as
are the level a port keeps after silence (log 203) and what counts as a frame in reception (log 21). -/
theorem portsServe : Obligations.PortsServe := by
  unfold Obligations.PortsServe
  refine ⟨fun _ lvl _ hup hsusp hst => exec_portCarrier_silent lvl hup hsusp hst,
    fun _ _ hup hst => exec_portLockLost_locked hup hst,
    fun _ lvl _ hup hsusp hlow hst => exec_portSilent_heldLow lvl hup hsusp hlow hst,
    fun _ lvl _ h => exec_portTests_suspended lvl h,
    fun _ _ hup hsusp hen hjam hst => exec_portJam_sets hup hsusp hen hjam hst,
    fun _ _ hup hsusp hjam hst => exec_portDead_jammed hup hsusp hjam hst,
    fun _ _ hup hst => exec_portClear_dead hup hst,
    fun _ _ _ _ hup hen hnear hbetween h hn hbelow => exec_notchPlace_firstFree hup hen hnear hbetween h hn hbelow,
    fun _ _ _ _ hup hen hnear hbetween h => exec_notchPlace_follows hup hen hnear hbetween h,
    fun _ _ _ hup hen hnear hbetween h hfull => exec_notchPlace_full hup hen hnear hbetween h hfull,
    fun _ freq _ h => exec_notchPlace_near freq h, fun _ _ _ => rfl,
    fun m p s => ⟨exec_timestampRead_tsrx, exec_timestampRead_tstx,
      fun h => exec_timestampRead_word (by decide) h (by decide), fun h => exec_timestampRead_word (by decide) h (by decide)⟩,
    fun _ _ _ h hw => exec_timestampRead_other h hw, fun p s hpen hen hbusy hst hidle => ?_,
    fun p t s hpen hen hbusy hst hrx ht => ?_, fun _ _ h => exec_portDisable_busy h⟩
  · rw [exec_portDisable_idle hpen hen hbusy hst, State.abortRx_idle hidle]
  · rw [exec_portDisable_idle hpen hen hbusy hst, State.abortRx_receiving hrx ht]

end Sys2Proof.Machine
end

section
/-! PROOF. Agreeing the tone maps: reports, activation and abandonment of a segment map and of the ring map (04 R119 to R122,
R131). -/
namespace Sys2Proof.Machine

/-- Who keeps a segment's map follows from roles and numbers alone. -/
theorem State.keeper_of_eq {s t : State} (hsys : t.sys = s.sys) (hsvy : t.svy = s.svy) (p : Fin 4) : t.keeper p = s.keeper p := by
  show State.keeper { s with sys := t.sys, svy := t.svy } p = s.keeper p
  rw [hsys, hsvy]

section
variable {p : Fin 4} {s : State}

/-! ### Reports (04 R119) -/

theorem State.sendReport_keeper (h : s.keeper p = true) : s.sendReport p = s.segBuild p := if_pos h

theorem State.sendReport_other (h : s.keeper p = false) :
    s.sendReport p = s.sendLocal p false (s.keeperNid p) 0 (toneMsg 1 p.val 0 (snrBytes (s.snrOf p))) := if_neg (by simp [h])

theorem exec_snrEvaluation_suspended (h : s.suspended p = true) : exec (.snrEvaluation p) s = .next s :=
  congrArg Host.Outcome.next (if_neg (by simp [h]))

theorem exec_snrEvaluation_due (hcoupler : s.isCoupler p = true) (hsusp : s.suspended p = false) (hdue : s.reportDue p = true)
    (hlast : ∀ t, (s.port p).lastReport = some t → 100000000 ≤ (s.tre.time - t).toNat) :
    exec (.snrEvaluation p) s = .next ((s.modPort p fun c => { c with lastReport := some s.tre.time }).sendReport p) := by
  refine congrArg Host.Outcome.next (if_pos ?_)
  cases hreport : (s.port p).lastReport with
  | none => simp [hcoupler, hsusp, hdue]
  | some t => simpa [hcoupler, hsusp, hdue] using hlast t hreport

theorem exec_snrReportPeriodic_coupler (h : s.isCoupler p = true) : exec (.snrReportPeriodic p) s = .next (s.sendReport p) :=
  congrArg Host.Outcome.next (if_pos h)

/-! ### The segment map (04 R120) -/

/-- A window without room for it carries no announce (04 R120; 07 R204). -/
theorem State.announceAgain_noRoom (h : s.windowRoom [p] announceLen = false) : s.announceAgain p = s := by
  unfold State.announceAgain
  split
  · exact if_neg (by simp [h])
  · rfl

/-- The segment map whose activation count has come is in use, with EV040 + p (04 R120). -/
def State.segMapUsed (p : Fin 4) (tmi : BitVec 4) (s : State) : State :=
  (s.modPort p fun c => { c with stmi := tmi, nextMap := none, pending := none }).raise (40 + p.val)

theorem State.segMapUsed_keeper (tmi : BitVec 4) (q : Fin 4) : (s.segMapUsed p tmi).keeper q = s.keeper q :=
  State.keeper_of_eq (by simp [State.segMapUsed]) (by simp [State.segMapUsed]) q

theorem exec_segmentMapActivation_due {tmi : BitVec 4} {act : Word} (hnext : (s.port p).nextMap = some (tmi, act))
    (hcount : (s.tre.tcount - act).toNat < 0x80000000) :
    exec (.segmentMapActivation p) s = .next
      (if s.keeper p then ((s.segMapUsed p tmi).sendSummary p).segBuild p else s.segMapUsed p tmi) := by
  refine congrArg Host.Outcome.next ?_
  rw [State.segActivate, hnext]
  refine (if_pos hcount).trans ?_
  rw [← State.segMapUsed_keeper (s := s) (p := p) tmi p]
  rfl

theorem exec_segmentMapAbandon_eight {m : PendingMap} (hpend : (s.port p).pending = some m) (hact : m.act = none)
    (hsent : 8 ≤ m.sent) :
    exec (.segmentMapAbandon p) s = .next (((s.modPort p fun c => { c with pending := none }).raise 56).segBuild p) := by
  refine congrArg Host.Outcome.next ?_
  rw [hpend]
  exact if_pos (by simp [hact, hsent])

/-! ### The ring map (04 R121) -/

theorem State.isBench_of_role (h : s.sys.netrole = .benchmark) : s.isBench = true := decide_eq_true h

theorem exec_ringMapActivation_acked {m : PendingMap} (hpend : s.liu.pending = some m) (hrole : s.sys.netrole = .benchmark)
    (hacked : s.ringAllAcked m = true) :
    exec .ringMapActivation s = .next (State.raise 52 { s with liu.rtmi := m.tmi, liu.pending := none }).ringBuild := by
  refine congrArg Host.Outcome.next ?_
  rw [hpend]
  exact if_pos (by simp [State.isBench_of_role hrole, hacked])

theorem exec_ringMapAbandon_eight {m : PendingMap} (hpend : s.liu.pending = some m) (hrole : s.sys.netrole = .benchmark)
    (hsent : 8 ≤ m.sent) (hacked : s.ringAllAcked m = false) :
    exec .ringMapAbandon s = .next (State.raise 53 { s with liu.pending := none }).ringBuild := by
  refine congrArg Host.Outcome.next ?_
  rw [hpend]
  exact if_pos (by simp [State.isBench_of_role hrole, hsent, hacked])

end

/-- Settles O8, timer by timer. That the ring map is built again right after its activation is the model's choice (log 204). -/
theorem toneMapsServe : Obligations.ToneMapsServe := by
  unfold Obligations.ToneMapsServe
  refine ⟨fun _ _ h => exec_snrEvaluation_suspended h, fun _ _ h => State.announceAgain_noRoom h,
    fun _ _ hcoupler hsusp hdue hlast => exec_snrEvaluation_due hcoupler hsusp hdue hlast,
    fun _ _ hcoupler hkeeper => ?_, fun _ _ hcoupler hkeeper => ?_, fun _ _ _ _ hnext hcount hkeeper => ?_,
    fun _ _ _ _ hnext hcount hkeeper => ?_, fun _ _ _ hpend hact hsent => exec_segmentMapAbandon_eight hpend hact hsent,
    fun _ _ hpend hrole hacked => exec_ringMapActivation_acked hpend hrole hacked,
    fun _ _ hpend hrole hsent hacked => exec_ringMapAbandon_eight hpend hrole hsent hacked⟩
  · rw [exec_snrReportPeriodic_coupler hcoupler, State.sendReport_other hkeeper]
  · rw [exec_snrReportPeriodic_coupler hcoupler, State.sendReport_keeper hkeeper]
  · rw [exec_segmentMapActivation_due hnext hcount, hkeeper]
    rfl
  · rw [exec_segmentMapActivation_due hnext hcount, hkeeper]
    rfl

end Sys2Proof.Machine
end

section
/-! PROOF. What the delivered messages of the tone maps, the pause and a user message do (04 R119 to R121; 07 R220 to R223). -/
namespace Sys2Proof.Machine

/-! ### The payload of a body (07 Table 7.1) -/

theorem byteAt_roadPayload (b : List Byte) (i : Nat) : byteAt (roadPayload b) i = byteAt b (12 + i) := by
  simp [byteAt, roadPayload]

theorem beAt_roadPayload (b : List Byte) (i n : Nat) : beAt (roadPayload b) i n = beAt b (12 + i) n := by
  simp [beAt, slice, roadPayload]

section
variable {f : RxFrame} {h : RHdr} {b : List Byte} {s : State}

/-! ### The segment map (04 R119, R120) -/

theorem onSnrReport_keeper (hkeeper : s.keeper f.port = true) :
    onSnrReport f h b s = (s.modPort f.port fun c => { c with
      reports := (h.src, s.tre.time, slice b 6 180) :: c.reports.filter (·.1 != h.src) }).segBuild f.port :=
  if_neg (by simp [hkeeper])

theorem onSegmentAnnounce_valid (htmi : tmTmi (slice b 6 96) < 8) (hvalid : tmValid s.masked (slice b 6 96) = true) :
    onSegmentAnnounce f h b s = (s.modPort f.port fun c => { c with
      slots := vset c.slots (tmTmi (slice b 6 96)) (slice b 6 96)
      announced := some (BitVec.ofNat 4 (tmTmi (slice b 6 96)), tmSeq (slice b 6 96)) }).sendLocal f.port false h.src 0
        (toneMsg 4 f.port.val 0 [BitVec.ofNat 8 (tmTmi (slice b 6 96)), tmSeq (slice b 6 96)]) :=
  if_neg (by simp [htmi, hvalid])

theorem onSegmentActivate_held (htmi : (byteAt b 6).toNat < 8)
    (hseq : tmSeq ((s.port f.port).slots.getD (byteAt b 6).toNat []) = byteAt b 7) :
    onSegmentActivate f h b s = s.modPort f.port fun c => { c with
      nextMap := some ((byteAt b 6).setWidth 4, BitVec.ofNat 32 (beAt b 2 4)), announced := none } :=
  if_pos ⟨htmi, hseq⟩

/-- An acknowledge on the segment is the keeper's (04 R120). -/
theorem onToneAck_segment {m : PendingMap} (hloc : h.loc = true) (hpend : (s.port f.port).pending = some m)
    (htmi : m.tmi.toNat = (byteAt b 6).toNat)
    (hseq : tmSeq ((s.port f.port).slots.getD (byteAt b 6).toNat []) = byteAt b 7) :
    onToneAck f h b s = (s.modPort f.port fun c => { c with
      pending := some { m with acks := setBit m.acks h.src.toNat } }).segAllAcked f.port := by
  refine (if_pos hloc).trans ?_
  rw [hpend]
  exact if_pos ⟨htmi, hseq⟩

/-! ### The ring map (04 R121) -/

/-- An acknowledge over the ring is the benchmark's (04 R121). -/
theorem onToneAck_ring {m : PendingMap} (hloc : h.loc = false) (hpend : s.liu.pending = some m)
    (htmi : m.tmi.toNat = (byteAt b 6).toNat) (hseq : tmSeq (s.liu.rtm.getD ((byteAt b 6).toNat - 8) []) = byteAt b 7) :
    onToneAck f h b s = { s with liu.pending := some { m with acks := setBit m.acks h.src.toNat } } := by
  refine (if_neg (by simp [hloc])).trans ?_
  rw [hpend]
  exact if_pos ⟨htmi, hseq⟩

theorem onRingAnnounce_valid (hlow : 8 ≤ tmTmi (slice b 6 96)) (hhigh : tmTmi (slice b 6 96) < 12)
    (hvalid : tmValid s.masked (slice b 6 96) = true) :
    onRingAnnounce f h b s =
      ({ s with liu.rtm := vset s.liu.rtm (tmTmi (slice b 6 96) - 8) (slice b 6 96) }).sendMgmt h.src 0
        (toneMsg 4 0 0 [BitVec.ofNat 8 (tmTmi (slice b 6 96)), tmSeq (slice b 6 96)]) :=
  if_neg (by simp [hvalid]; omega)

/-- Which summaries of a keeper stay beside its new one: both places taken, a free value says which is renewed (log 25). -/
def State.summariesKept (s : State) (nid : BitVec 6) : List (BitVec 6 × Byte × List Byte) :=
  if (s.summariesOf nid).length < 2 then s.summariesOf nid
  else if s.drawBool then (s.summariesOf nid).take 1 else (s.summariesOf nid).drop 1

theorem State.summariesKept_cases (s : State) (nid : BitVec 6) : s.summariesKept nid = s.summariesOf nid ∨
    s.summariesKept nid = (s.summariesOf nid).take 1 ∨ s.summariesKept nid = (s.summariesOf nid).drop 1 := by
  unfold State.summariesKept
  split
  · exact .inl rfl
  · split
    · exact .inr (.inl rfl)
    · exact .inr (.inr rfl)

theorem onSegmentSummary_benchmark (hrole : s.sys.netrole = .benchmark) :
    onSegmentSummary f h b s = (State.took { s with liu.summaries := (h.src, h.epoch, slice (b.drop 6) 0 180) ::
      (s.summariesKept h.src ++ s.liu.summaries.filter fun x => x.1 != h.src) }).ringBuild :=
  if_neg (by simp [State.isBench, hrole])

/-! ### The pause (07 R220, R221) -/

theorem deliverPause_act : deliverPause.act f h s = s.pauseRx f.port h.src (byteAt f.body 12) (beAt f.body 13 2) := by
  show s.pauseRx f.port h.src (byteAt (roadPayload f.body) 0) (beAt (roadPayload f.body) 1 2) = _
  rw [byteAt_roadPayload, beAt_roadPayload]

end

section
variable {p : Fin 4} {nid : BitVec 6} {mask : Byte} {ptime : Nat} {s : State}

/-- The priorities a neighbour stops after a pause frame (07 R220, R221). -/
def pauseMask (ptime : Nat) (old mask : Byte) : Byte :=
  if ptime = 0 then old &&& ~~~ (mask &&& 0x7F) else old ||| mask &&& 0x7F

/-- The pauses heard on a port become a list, with EV132 (07 R221). -/
def State.pauseSet (p : Fin 4) (l : List (BitVec 6 × Byte)) (s : State) : State :=
  ((s.modRoad p fun r => { r with paused := l }).pauseChanged p (s.roadHead p)).raise 132

theorem State.pauseRx_first (h : (s.roadPort p).paused = []) : s.pauseRx p nid mask ptime =
    s.pauseSet p (if pauseMask ptime 0 mask = 0 then [] else [(nid, pauseMask ptime 0 mask)]) := by
  unfold State.pauseRx State.pauseSet pauseMask
  rw [h]
  rfl

theorem State.pauseRx_again {old : Byte} {rest : List (BitVec 6 × Byte)} (h : (s.roadPort p).paused = (nid, old) :: rest)
    (hrest : ∀ e ∈ rest, e.1 ≠ nid) : s.pauseRx p nid mask ptime =
    s.pauseSet p (if pauseMask ptime old mask = 0 then rest else rest ++ [(nid, pauseMask ptime old mask)]) := by
  have hfilter : rest.filter (·.1 != nid) = rest := List.filter_eq_self.mpr fun e he => by simpa using hrest e he
  simp [State.pauseRx, State.pauseSet, pauseMask, h, hfilter]

end

/-- Settles O22, message by message. Which of a keeper's two summaries a later one renews is a free value (log 25). -/
theorem managementActs : Obligations.ManagementActs := by
  unfold Obligations.ManagementActs
  refine ⟨fun _ _ _ _ hkeeper => onSnrReport_keeper hkeeper, fun _ _ _ _ htmi hvalid => onSegmentAnnounce_valid htmi hvalid,
    fun _ _ _ _ htmi hseq => onSegmentActivate_held htmi hseq,
    fun _ _ _ _ _ hloc hpend htmi hseq => onToneAck_segment hloc hpend htmi hseq,
    fun _ _ _ _ _ hloc hpend htmi hseq => onToneAck_ring hloc hpend htmi hseq,
    fun _ _ _ _ hlow hhigh hvalid => onRingAnnounce_valid hlow hhigh hvalid, fun f h b s hrole => ?_, fun _ _ _ _ => rfl,
    fun _ _ _ => deliverPause_act, fun p nid mask ptime s hnone hpause hmask => ?_,
    fun p nid mask old rest ptime s hpaused hrest => ?_, fun _ _ _ => rfl, fun _ _ _ _ hsrc => if_neg hsrc⟩
  · refine ⟨fun hfew => ?_, s.summariesKept h.src, s.summariesKept_cases h.src, onSegmentSummary_benchmark hrole⟩
    rw [onSegmentSummary_benchmark hrole, State.summariesKept, if_pos hfew]
  · have hnew : pauseMask ptime 0 mask = mask &&& 0x7F := by simp [pauseMask, hpause]
    rw [State.pauseRx_first hnone, hnew, if_neg hmask]
    rfl
  · intro stopped
    refine ⟨fun hpause hnew => ?_, fun hend hnew => ?_, fun hend hnew => ?_⟩ <;>
      rw [State.pauseRx_again hpaused hrest, pauseMask]
    · rw [if_neg hpause, if_neg hnew]
      rfl
    · rw [if_pos hend, if_neg hnew]
      rfl
    · rw [if_pos hend, if_pos hnew]
      rfl

end Sys2Proof.Machine
end

section
/-! PROOF. The choice of the new epoch: candidates enough, and one that no car has had (05 R155). -/
namespace Sys2Proof.Machine

/-- The candidates for the new epoch, from one value on and round from 255 to 1 (05 R155). -/
def newepCandidates (m : Nat) : List Nat := (List.range 255).map fun k => (m + k) % 255 + 1

theorem length_newepCandidates (m : Nat) : (newepCandidates m).length = 255 := by simp [newepCandidates]

theorem nodup_newepCandidates (m : Nat) : (newepCandidates m).Nodup := by
  refine List.pairwise_map.mpr (List.nodup_range.imp_of_mem fun hi hj hne => ?_)
  rw [List.mem_range] at hi hj
  omega

theorem mem_newepCandidates_range {m e : Nat} (h : e ∈ newepCandidates m) : 1 ≤ e ∧ e ≤ 255 := by
  obtain ⟨k, -, rfl⟩ := List.mem_map.mp h
  omega

/-- Fewer numbers than there are candidates leave one of them free. -/
theorem exists_newepCandidate_notMem (m : Nat) {olds : List Nat} (h : olds.length < 255) :
    ∃ e ∈ newepCandidates m, e ∉ olds := by
  refine Classical.byContradiction fun hnone => ?_
  have hall : newepCandidates m ⊆ olds := fun e he =>
    Classical.byContradiction fun hfree => hnone ⟨e, he, hfree⟩
  have hle := List.Nodup.length_le_of_subset (nodup_newepCandidates m) hall
  rw [length_newepCandidates] at hle
  omega

theorem svyNewep_eq (recs : List (List Byte)) : svyNewep recs = BitVec.ofNat 8
    (((newepCandidates ((recs.map recOldep).foldl max 0)).find? fun e => !(recs.map recOldep).contains e).getD 1) := rfl

/-- The new epoch is a candidate that is no car's OLDEP. -/
theorem svyNewep_fresh {recs : List (List Byte)} (h : recs.length < 255) :
    (∃ m, (svyNewep recs).toNat ∈ newepCandidates m) ∧ (svyNewep recs).toNat ∉ recs.map recOldep := by
  have hlen : (recs.map recOldep).length < 255 := by rwa [List.length_map]
  rw [svyNewep_eq]
  generalize recs.map recOldep = olds at hlen
  obtain ⟨x, hx, hfree⟩ := exists_newepCandidate_notMem (olds.foldl max 0) hlen
  cases he : (newepCandidates (olds.foldl max 0)).find? fun e => !olds.contains e with
  | none => exact absurd (List.find?_eq_none.mp he x hx) (by simpa using hfree)
  | some e =>
    have hmem := List.mem_of_find?_eq_some he
    have hrange := mem_newepCandidates_range hmem
    have hval : (BitVec.ofNat 8 e).toNat = e := by rw [BitVec.toNat_ofNat]; omega
    rw [Option.getD_some, hval]
    exact ⟨⟨_, hmem⟩, by simpa using List.find?_some he⟩

/-- Settles O12: 255 candidates against the OLDEP of at most 32 cars. -/
theorem newEpochFresh : Obligations.NewEpochFresh := by
  unfold Obligations.NewEpochFresh
  intro recs hlen
  obtain ⟨⟨m, hmem⟩, hnot⟩ := svyNewep_fresh (recs := recs) (by omega)
  refine ⟨fun hzero => ?_, fun r hr heq => hnot (heq ▸ List.mem_map_of_mem hr)⟩
  have hpos := (mem_newepCandidates_range hmem).1
  rw [hzero] at hpos
  exact absurd hpos (by decide)

end Sys2Proof.Machine
end

section
/-! PROOF. Survey frames received: what reception leaves alone, and the ten commands as one reception (05 R139 to R161). -/
namespace Sys2Proof.Machine

/-! ### What reception leaves alone -/

@[simp] theorem State.portTo_regs (p : Fin 4) (st : PortState) (s : State) : (s.portTo p st).regs = s.regs := by
  unfold State.portTo
  split <;> simp

@[simp] theorem State.erAdd_regs (p : Fin 4) (k : Nat) (s : State) : (s.erAdd p k).regs = s.regs := by
  unfold State.erAdd State.erRoll
  split <;> simp

@[simp] theorem State.rxLevel_regs (f : RxFrame) (s : State) : (s.rxLevel f).regs = s.regs := by
  unfold State.rxLevel State.levelHeard
  split <;> simp

@[simp] theorem State.rxFc_regs (f : RxFrame) (s : State) : (s.rxFc f).regs = s.regs := by
  unfold State.rxFc
  dsimp only
  split <;> simp

@[simp] theorem State.rxSnr_regs (f : RxFrame) (s : State) : (s.rxSnr f).regs = s.regs := by
  unfold State.rxSnr
  split <;> simp

theorem State.Reported.regs {s t : State} (h : s.Reported t) : t.regs = s.regs := (congrArg State.regs h.eq).trans rfl

/-- No reception writes a register. -/
theorem State.rxFx_good_regs {f : RxFrame} {s : State} (h : s.rxClass f = .good) : (s.rxFx f).regs = s.regs := by
  simp only [State.rxFx, h, (State.rxCount_reported f _).regs, State.rxSnr_regs, State.rxFc_regs, State.rxLevel_regs]

/-- The first sample's time at the line terminals is the same once the frame is received. -/
theorem State.rxFx_tsrxOf {f : RxFrame} {s : State} (h : s.rxClass f = .good) : (s.rxFx f).tsrxOf f = s.tsrxOf f := by
  simp only [State.tsrxOf, State.regFld, State.reg, State.rxFx_good_regs h]

/-! ### A survey frame, as svyRx takes it -/

section
variable {f : RxFrame} {s : State} {kind : Nat} (act : SHdr → State → State)

theorem State.svyRx_other (hgood : s.rxClass f = .good)
    (hother : fcType f.fc ≠ .survey ∨ (SHdr.parse f.body).kind ≠ kind) : s.svyRx f kind act = s := by
  have h : fcType f.fc ≠ .survey ∨ (SHdr.parse f.body).kind ≠ kind ∨ f.body.length < 16 := hother.imp_right .inl
  simp only [State.svyRx, hgood, h, if_true]

theorem State.svyRx_heard (hgood : s.rxClass f = .good) (htype : fcType f.fc = .survey)
    (hkind : (SHdr.parse f.body).kind = kind) (hlen : 16 ≤ f.body.length) : s.svyRx f kind act =
      if s.svy.dupunit = true then s.rxFx f
      else act (SHdr.parse f.body) ((s.rxFx f).svyPlace f (SHdr.parse f.body)) := by
  have hnot : ¬ (fcType f.fc ≠ .survey ∨ (SHdr.parse f.body).kind ≠ kind ∨ f.body.length < 16) := by
    rintro (h | h | h)
    · exact h htype
    · exact h hkind
    · omega
  simp only [State.svyRx, hgood, if_true, if_neg hnot, (State.rxFx_sameRing f s).2]

end

theorem State.rxFx_svyIs (f : RxFrame) (h : SHdr) (s : State) : (s.rxFx f).svyIs h = s.svyIs h := by
  simp only [State.svyIs, (State.rxFx_sameRing f s).2]

theorem State.svyPlace_none {f : RxFrame} {h : SHdr} {s : State} (hnot : s.svyIs h = false ∨ h.win = 0 ∨ h.winrem = 0) :
    s.svyPlace f h = s := by
  rcases hnot with hnot | hnot | hnot <;> simp [State.svyPlace, hnot]

theorem State.svyPlace_some {f : RxFrame} {h : SHdr} {s : State} (his : s.svyIs h = true) (hwin : h.win ≠ 0)
    (hrem : h.winrem ≠ 0) : s.svyPlace f h =
      { s with svy.window := some (BitVec.ofNat 64 (s.tsrxOf f + 1000 * h.winrem), h.win, h.tper) } :=
  if_pos (by rw [his, decide_eq_true hwin, decide_eq_true hrem]; rfl)

theorem exec_of_surveyCommand {c : RxFrame → Instr} {kind : Nat} {act : RxFrame → SHdr → State → State}
    (h : SurveyCommand c kind act) (f : RxFrame) (s : State) : exec (c f) s = .next (s.svyRx f kind (act f)) := by
  simp only [SurveyCommand, List.mem_cons, Prod.mk.injEq, List.not_mem_nil, or_false] at h
  rcases h with ⟨rfl, rfl, rfl⟩ | ⟨rfl, rfl, rfl⟩ | ⟨rfl, rfl, rfl⟩ | ⟨rfl, rfl, rfl⟩ | ⟨rfl, rfl, rfl⟩ | ⟨rfl, rfl, rfl⟩ |
    ⟨rfl, rfl, rfl⟩ | ⟨rfl, rfl, rfl⟩ | ⟨rfl, rfl, rfl⟩ | ⟨rfl, rfl, rfl⟩ <;> rfl

/-- Settles O9: the ten commands are one reception, which leaves alone what it is judged by. That a good frame of another kind
changes nothing is the model's reading (log 4). -/
theorem surveyReceives : Obligations.SurveyReceives := by
  unfold Obligations.SurveyReceives
  intro c kind act hc f s h
  refine ⟨fun hgood hother => ?_, fun hgood htype hkind hlen => ⟨fun hdup => ?_, fun hdup hnot => ?_,
    fun hdup his hwin hrem => ?_⟩⟩
  · rw [exec_of_surveyCommand hc, State.svyRx_other _ hgood hother]
  · rw [exec_of_surveyCommand hc, State.svyRx_heard _ hgood htype hkind hlen, if_pos hdup]
  · rw [exec_of_surveyCommand hc, State.svyRx_heard _ hgood htype hkind hlen, if_neg (by simp [hdup]),
      State.svyPlace_none (by rwa [State.rxFx_svyIs])]
  · rw [exec_of_surveyCommand hc, State.svyRx_heard _ hgood htype hkind hlen, if_neg (by simp [hdup]),
      State.svyPlace_some (by rwa [State.rxFx_svyIs]) hwin hrem, State.rxFx_tsrxOf hgood]

end Sys2Proof.Machine
end

section
/-! PROOF. What leaves the survey alone: the memories, the sends, the wayleave, the table and the pass, and what the cut does to
the other chapters, one lemma an operation (05 R148, R158; 06 R168 to R192; 07 R226; 12 R349). -/
namespace Sys2Proof.Machine

@[simp] theorem State.each_svy {α : Type} {f : α → State → State} (hf : ∀ x t, (f x t).svy = t.svy) (l : List α) (s : State) :
    (s.each l f).svy = s.svy := by
  induction l generalizing s with
  | nil => rfl
  | cons x l ih => exact (ih (f x s)).trans (hf x s)

@[simp] theorem State.when_svy {b : Bool} {f : State → State} {s : State} (hf : (f s).svy = s.svy) :
    (s.when b f).svy = s.svy := by
  unfold State.when
  split
  · exact hf
  · rfl

/-! ### Memories (15) -/

@[simp] theorem State.setBytes_svy (a : Nat) (bs : List Byte) (s : State) : (s.setBytes a bs).svy = s.svy := by
  rw [State.setBytes_frame]

@[simp] theorem State.putWord_svy (a : Nat) (w : Word) (s : State) : (s.putWord a w).svy = s.svy := by
  rw [State.putWord_frame]

@[simp] theorem State.bufWrite_svy (a : Nat) (bs : List Byte) (s : State) : (s.bufWrite a bs).svy = s.svy :=
  State.setBytes_svy a bs s

@[simp] theorem State.memLog_svy (kind region : Nat) (src : Byte) (synd addr : Nat) (s : State) :
    (s.memLog kind region src synd addr).svy = s.svy :=
  (State.memLog_reported kind region src synd addr s).svy

@[simp] theorem State.parityFx_svy (src : Byte) (r : MRegion) (a : Nat) (be : BitVec 4) (s : State) :
    (s.parityFx src r a be).svy = s.svy :=
  (State.parityFx_reported src r a be s).svy

@[simp] theorem State.count_svy (p i k : Nat) (s : State) : (s.count p i k).svy = s.svy :=
  (State.count_reported p i k s).svy

@[simp] theorem State.count1_svy (p i : Nat) (s : State) : (s.count1 p i).svy = s.svy := State.count_svy p i 1 s

@[simp] theorem State.eccCe_svy (kind : Nat) (src : Byte) (a : Nat) (e : WordErr) (s : State) :
    (s.eccCe kind src a e).svy = s.svy := by
  simp [State.eccCe]

@[simp] theorem State.eccUe_svy (kind : Nat) (src : Byte) (a : Nat) (e : WordErr) (s : State) :
    (s.eccUe kind src a e).svy = s.svy := by
  simp [State.eccUe]

@[simp] theorem State.eccReadFx_svy (src : Byte) (a : Nat) (s : State) : (s.eccReadFx src a).svy = s.svy := by
  unfold State.eccReadFx
  (repeat' split) <;> simp

@[simp] theorem State.eccFullWrite_svy (a : Nat) (v : Word) (s : State) : (s.eccFullWrite a v).svy = s.svy := by
  unfold State.eccFullWrite
  split <;> simp

@[simp] theorem State.eccWrite_svy (src : Byte) (a : Nat) (be : BitVec 4) (v : Word) (s : State) :
    (s.eccWrite src a be v).svy = s.svy := by
  unfold State.eccWrite
  (repeat' split) <;> simp

@[simp] theorem State.pokeWord_svy (src : Byte) (a : Nat) (v : Word) (s : State) : (s.pokeWord src a v).svy = s.svy := by
  simp [State.pokeWord]

@[simp] theorem State.memReadFx_svy (src : Byte) (a : Nat) (be : BitVec 4) (s : State) :
    (s.memReadFx src a be).svy = s.svy := by
  unfold State.memReadFx
  split <;> simp

@[simp] theorem State.wordReads_svy (a n : Nat) (s : State) : (s.wordReads a n).svy = s.svy := by simp [State.wordReads]

@[simp] theorem State.blockReadFx_svy (a n : Nat) (s : State) : (s.blockReadFx a n).svy = s.svy := by
  simp [State.blockReadFx]

/-! ### Frames that leave a line port (04 R104) -/

@[simp] theorem State.txCount_svy (p : Fin 4) (t : FType) (body : List Byte) (s : State) :
    (s.txCount p t body).svy = s.svy :=
  (State.txCount_reported p t body s).svy

@[simp] theorem State.txStamp_svy (p : Fin 4) (start : Dword) (s : State) : (s.txStamp p start).svy = s.svy := by
  simp [State.txStamp]

@[simp] theorem State.txStart_svy (p : Fin 4) (start : Dword) (t : FType) (tmi : Nat) (pass bad : Bool)
    (combs : Option (Fin 4 × Fin 4)) (only : Option (List Nat)) (body : List Byte) (s : State) :
    (s.txStart p start t tmi pass bad combs only body).svy = s.svy := by
  unfold State.txStart
  split <;> rfl

@[simp] theorem State.txFrameAt_svy (p : Fin 4) (start : Dword) (t : FType) (tmi : Nat) (pass bad : Bool)
    (only : Option (List Nat)) (body : List Byte) (s : State) :
    (s.txFrameAt p start t tmi pass bad only body).svy = s.svy := by
  simp [State.txFrameAt]

/-! ### The Causeway (14) -/

@[simp] theorem State.cwyLogAdd_svy (remote : Bool) (w nid cause notapp : Nat) (addr data : Word) (fseq : Nat)
    (s : State) :
    (s.cwyLogAdd remote w nid cause notapp addr data fseq).svy = s.svy := by
  unfold State.cwyLogAdd
  split <;> simp

@[simp] theorem State.hostLog_svy (cause : Nat) (x : HostAcc) (v : Half) (s : State) : (s.hostLog cause x v).svy = s.svy := by
  simp [State.hostLog]

@[simp] theorem State.heldDrop_svy (w : Fin 16) (s : State) : (s.heldDrop w).svy = s.svy := by
  unfold State.heldDrop
  split <;> simp

@[simp] theorem State.cwyUntag_svy (w : Fin 16) (s : State) : (s.cwyUntag w).svy = s.svy := by simp [State.cwyUntag]

@[simp] theorem State.cwyPost_svy (x : HostAcc) (be : BitVec 4) (v : Word) (s : State) : (s.cwyPost x be v).svy = s.svy := by
  simp [State.cwyPost]

@[simp] theorem State.hostAccept_svy (x : HostAcc) (v : Half) (par : BitVec 2) (s : State) :
    (s.hostAccept x v par).svy = s.svy := by
  unfold State.hostAccept
  dsimp only
  split
  · simp
  · (repeat' split) <;> simp

@[simp] theorem State.hostResume_svy (s : State) : s.hostResume.svy = s.svy := by
  unfold State.hostResume
  (repeat' split) <;> simp

@[simp] theorem State.cwyFlightEnd_svy (w : Fin 16) (cause idx : Nat) (s : State) :
    (s.cwyFlightEnd w cause idx).svy = s.svy := by
  unfold State.cwyFlightEnd
  split
  · rfl
  · simp only [State.hostResume_svy]
    (repeat' split) <;> simp

@[simp] theorem State.cwyTxResult_svy (w : Fin 16) (result : Nat) (s : State) : (s.cwyTxResult w result).svy = s.svy := by
  unfold State.cwyTxResult
  split <;> simp

@[simp] theorem State.wctlWrite_svy (w : Fin 16) (v : Word) (s : State) : (s.wctlWrite w v).svy = s.svy := by
  simp [State.wctlWrite]

@[simp] theorem State.cwyCutoff_svy (w : Fin 16) (s : State) : (s.cwyCutoff w).svy = s.svy := by
  unfold State.cwyCutoff
  split <;> simp

@[simp] theorem State.cwyCut_svy (s : State) : s.cwyCut.svy = s.svy := by simp [State.cwyCut]

/-! ### Open Road and the E ports (07) -/

@[simp] theorem State.pfcCount_svy (e : Fin 2) (s : State) : (s.pfcCount e).svy = s.svy := by simp [State.pfcCount]

@[simp] theorem State.pfcCheck_svy (e : Fin 2) (p : Fin 8) (s : State) : (s.pfcCheck e p).svy = s.svy := by
  unfold State.pfcCheck
  dsimp only
  (repeat' split) <;> simp

@[simp] theorem State.pfcAll_svy (e : Fin 2) (s : State) : (s.pfcAll e).svy = s.svy := by simp [State.pfcAll]

@[simp] theorem State.roadDraw_svy (p : Fin 4) (s : State) : (s.roadDraw p).svy = s.svy := by
  unfold State.roadDraw
  dsimp only
  split <;> simp

@[simp] theorem State.roadAgain_svy (p : Fin 4) (before : Option QFrame) (s : State) : (s.roadAgain p before).svy = s.svy := by
  unfold State.roadAgain
  dsimp only
  (repeat' split) <;> simp

@[simp] theorem State.roadPut_svy (p : Fin 4) (q : QFrame) (s : State) : (s.roadPut p q).svy = s.svy := by
  simp [State.roadPut]

@[simp] theorem State.txDone_svy (a : Word) (result : Nat) (s : State) : (s.txDone a result).svy = s.svy := by
  unfold State.txDone
  split <;> simp

@[simp] theorem State.roadRxCount_svy (h : RHdr) (s : State) : (s.roadRxCount h).svy = s.svy := by simp [State.roadRxCount]

@[simp] theorem State.transitCount_svy (q : QFrame) (result : Nat) (s : State) : (s.transitCount q result).svy = s.svy := by
  unfold State.transitCount
  dsimp only
  split <;> simp

@[simp] theorem State.frameCount_svy (q : QFrame) (result : Nat) (s : State) : (s.frameCount q result).svy = s.svy := by
  unfold State.frameCount
  (repeat' split) <;> simp

@[simp] theorem State.frameEnd_svy (q : QFrame) (result : Nat) (s : State) : (s.frameEnd q result).svy = s.svy := by
  unfold State.frameEnd
  (repeat' split) <;> simp

@[simp] theorem State.undeliverable_svy (q : QFrame) (s : State) : (s.undeliverable q).svy = s.svy := by
  simp [State.undeliverable]

@[simp] theorem State.sendPause_svy (p : Fin 4) (prio ptime : Nat) (s : State) : (s.sendPause p prio ptime).svy = s.svy := by
  simp [State.sendPause]

@[simp] theorem State.pauseCheck_svy (p : Fin 4) (prio : Nat) (s : State) : (s.pauseCheck p prio).svy = s.svy := by
  unfold State.pauseCheck
  dsimp only
  (repeat' split) <;> simp

@[simp] theorem State.frameLeft_svy (q : QFrame) (s : State) : (s.frameLeft q).svy = s.svy := by
  unfold State.frameLeft
  (repeat' split) <;> simp

@[simp] theorem State.frameLost_svy (q : QFrame) (s : State) : (s.frameLost q).svy = s.svy := by
  unfold State.frameLost
  split <;> simp

@[simp] theorem State.roadTake_svy (p : Fin 4) (q : QFrame) (s : State) : (s.roadTake p q).svy = s.svy := by
  simp [State.roadTake]

@[simp] theorem State.roadSort_svy (p : Fin 4) (k : Nat) (s : State) : (State.roadSort p k s).svy = s.svy := by
  induction k generalizing s with
  | zero => rfl
  | succ k ih =>
    unfold State.roadSort
    (repeat' split) <;> simp [ih]

@[simp] theorem State.roadRehead_svy (p : Fin 4) (before : Option QFrame) (s : State) :
    (s.roadRehead p before).svy = s.svy := by
  simp [State.roadRehead]

@[simp] theorem State.roadEnqueue_svy (p : Fin 4) (q : QFrame) (s : State) : (s.roadEnqueue p q).svy = s.svy := by
  simp [State.roadEnqueue]

@[simp] theorem State.sendUnicast_svy (dst : BitVec 6) (q : QFrame) (s : State) : (s.sendUnicast dst q).svy = s.svy := by
  unfold State.sendUnicast
  (repeat' split) <;> simp

@[simp] theorem State.sendMgmt_svy (dst : BitVec 6) (tag : BitVec 2) (payload : List Byte) (s : State) :
    (s.sendMgmt dst tag payload).svy = s.svy := by
  simp [State.sendMgmt]

@[simp] theorem State.frameDropped_svy (q : QFrame) (s : State) : (s.frameDropped q).svy = s.svy := by
  unfold State.frameDropped
  (repeat' split) <;> simp

@[simp] theorem State.preStop_svy (p : Fin 4) (s : State) : (s.preStop p).svy = s.svy := by simp [State.preStop]

@[simp] theorem State.roadCut_svy (s : State) : s.roadCut.svy = s.svy := by simp [State.roadCut]

/-! ### The wayleave (12) -/

@[simp] theorem State.laneTo_svy (st : LaneState) (s : State) : (s.laneTo st).svy = s.svy := by
  unfold State.laneTo
  split <;> simp

@[simp] theorem State.laneOffDrive_svy (s : State) : s.laneOffDrive.svy = s.svy := by
  unfold State.laneOffDrive
  split <;> simp

@[simp] theorem State.wlvReqRx_svy (nid : BitVec 6) (req flags : Byte) (s : State) :
    (s.wlvReqRx nid req flags).svy = s.svy := by
  unfold State.wlvReqRx
  dsimp only
  (repeat' split) <;> simp

@[simp] theorem State.wlvSend_svy (req : Nat) (s : State) : (s.wlvSend req).svy = s.svy := by
  unfold State.wlvSend
  (repeat' split) <;> simp

@[simp] theorem State.wlvShot_svy (req : Nat) (s : State) : (s.wlvShot req).svy = s.svy := by simp [State.wlvShot]

@[simp] theorem State.wlvAskNow_svy (req : Nat) (s : State) : (s.wlvAskNow req).svy = s.svy := by simp [State.wlvAskNow]

@[simp] theorem State.wlvAsk_svy (s : State) : s.wlvAsk.svy = s.svy := by
  unfold State.wlvAsk
  split <;> simp

@[simp] theorem State.drillEnd_svy (ok : Bool) (s : State) : (s.drillEnd ok).svy = s.svy := by simp [State.drillEnd]

@[simp] theorem State.ownRelease_svy (s : State) : s.ownRelease.svy = s.svy := by simp [State.ownRelease]

@[simp] theorem State.driveEnd_svy (s : State) : s.driveEnd.svy = s.svy := by
  unfold State.driveEnd
  split <;> simp

@[simp] theorem State.ilCheck_svy (s : State) : s.ilCheck.svy = s.svy := by
  unfold State.ilCheck
  (repeat' split) <;> simp

@[simp] theorem State.revCheck_svy (s : State) : s.revCheck.svy = s.svy := by
  unfold State.revCheck
  split <;> rfl

@[simp] theorem State.wlvIdle_svy (s : State) : s.wlvIdle.svy = s.svy := by
  unfold State.wlvIdle
  split <;> simp

@[simp] theorem State.wlvRun_svy (s : State) : s.wlvRun.svy = s.svy := by
  unfold State.wlvRun
  dsimp only
  (repeat' split) <;> simp

@[simp] theorem State.ownUpdate_svy (s : State) : s.ownUpdate.svy = s.svy := by
  unfold State.ownUpdate
  (repeat' split) <;> simp

@[simp] theorem State.peerLostCheck_svy (s : State) : s.peerLostCheck.svy = s.svy := by simp [State.peerLostCheck]

@[simp] theorem State.wlvSync_svy (s : State) : s.wlvSync.svy = s.svy := by
  unfold State.wlvSync
  dsimp only
  (repeat' split) <;> simp

@[simp] theorem State.handoffEnd_svy (s : State) : s.handoffEnd.svy = s.svy := by simp [State.handoffEnd]

@[simp] theorem State.handoffStart_svy (s : State) : s.handoffStart.svy = s.svy := by
  unfold State.handoffStart
  split <;> simp

@[simp] theorem State.shotsAnswered_svy (me changed : Bool) (s : State) : (s.shotsAnswered me changed).svy = s.svy := by
  unfold State.shotsAnswered
  dsimp only
  split <;> simp

@[simp] theorem State.byteGrant_svy (lease : Nat) (s : State) : (s.byteGrant lease).svy = s.svy := by simp [State.byteGrant]

@[simp] theorem State.byteRevoke_svy (peer : Bool) (s : State) : (s.byteRevoke peer).svy = s.svy := by
  unfold State.byteRevoke
  (repeat' split) <;> simp

@[simp] theorem State.byteApply_svy (x : Byte) (s : State) : (s.byteApply x).svy = s.svy := by
  unfold State.byteApply
  dsimp only
  (repeat' split) <;> simp

@[simp] theorem State.byteUngrant_svy (s : State) : s.byteUngrant.svy = s.svy := by
  unfold State.byteUngrant
  dsimp only
  (repeat' split) <;> simp

@[simp] theorem State.byteHeard_svy (tcount : Word) (bytes : List Byte) (s : State) :
    (s.byteHeard tcount bytes).svy = s.svy := by
  unfold State.byteHeard
  dsimp only
  split <;> simp

@[simp] theorem State.byteTake_svy (tcount : Word) (bytes : List Byte) (s : State) : (s.byteTake tcount bytes).svy = s.svy := by
  unfold State.byteTake
  (repeat' split) <;> simp

@[simp] theorem State.judgeFit_svy (s : State) : s.judgeFit.svy = s.svy := by simp [State.judgeFit]

@[simp] theorem State.wlvEvaluate_svy (s : State) : s.wlvEvaluate.svy = s.svy := by simp [State.wlvEvaluate]

@[simp] theorem State.wlvSteward_svy (s : State) : s.wlvSteward.svy = s.svy := by simp [State.wlvSteward]

@[simp] theorem State.wlvCycle_svy (s : State) : s.wlvCycle.svy = s.svy := by
  unfold State.wlvCycle
  dsimp only
  (repeat' split) <;> simp

@[simp] theorem State.wlvCut_svy (s : State) : s.wlvCut.svy = s.svy := by simp [State.wlvCut]

/-! ### Claims, the table and the pass (06) -/

@[simp] theorem State.claimRx_svy (nid : BitVec 6) (len8 user : Nat) (s : State) : (s.claimRx nid len8 user).svy = s.svy := by
  unfold State.claimRx
  dsimp only
  (repeat' split) <;> simp

@[simp] theorem State.claimSend_svy (s : State) : s.claimSend.svy = s.svy := by
  unfold State.claimSend
  split
  · rfl
  · exact (State.each_svy (fun _ _ => by split <;> simp) _ _).trans (State.raise_svy 96 s)

@[simp] theorem State.claimStart_svy (s : State) : s.claimStart.svy = s.svy := by
  unfold State.claimStart
  split <;> simp

@[simp] theorem State.claimFollow_svy (had : Bool) (s : State) : (s.claimFollow had).svy = s.svy := by
  unfold State.claimFollow
  (repeat' split) <;> simp

@[simp] theorem State.editApply_svy (i seq : Byte) (e : Word) (s : State) : (s.editApply i seq e).svy = s.svy := by
  unfold State.editApply
  split <;> simp

@[simp] theorem State.designLoad_svy (s : State) : s.designLoad.svy = s.svy := by
  unfold State.designLoad
  split <;> rfl

@[simp] theorem State.tablePrune_svy (s : State) : s.tablePrune.svy = s.svy := by simp [State.tablePrune]

@[simp] theorem State.latSet_svy (check : Bool) (latofs : Nat) (s : State) : (s.latSet check latofs).svy = s.svy := by
  simp [State.latSet]

@[simp] theorem State.latTake_svy (check : Bool) (s : State) : (s.latTake check).svy = s.svy := by simp [State.latTake]

@[simp] theorem State.treCut_svy (r : SvyResult) (hop : Nat) (s : State) : (s.treCut r hop).svy = s.svy := by
  unfold State.treCut
  dsimp only
  (repeat' split) <;> simp

@[simp] theorem State.mute_svy (s : State) : s.mute.svy = s.svy := by simp [State.mute]

@[simp] theorem State.unmute_svy (s : State) : s.unmute.svy = s.svy := by simp [State.unmute]

@[simp] theorem State.syncStep_svy (off : Int) (s : State) : (s.syncStep off).svy = s.svy := by
  unfold State.syncStep
  dsimp only
  (repeat' split) <;> simp

@[simp] theorem State.effSet_svy (s : State) : s.effSet.svy = s.svy := by simp [State.effSet]

@[simp] theorem State.editsStep_svy (s : State) : s.editsStep.svy = s.svy := by
  unfold State.editsStep
  dsimp only
  (repeat' split) <;> simp

@[simp] theorem State.sendParity_svy (s : State) : s.sendParity.svy = s.svy := by
  unfold State.sendParity
  split <;> simp

@[simp] theorem State.sendPass_svy (p : Fin 4) (start : Dword) (tmi : Nat) (pass bad writes : Bool)
    (body : List Byte) (s : State) :
    (s.sendPass p start tmi pass bad writes body).svy = s.svy := by
  simp [State.sendPass]

@[simp] theorem State.standingSeen_svy (owner : BitVec 6) (stat : Byte) (s : State) :
    (s.standingSeen owner stat).svy = s.svy := by
  unfold State.standingSeen
  split <;> rfl

@[simp] theorem State.readSlot_svy (epoch : Byte) (tcount : Word) (body : List Byte) (ofs i : Nat) (e : Word)
    (s : State) :
    (s.readSlot epoch tcount body ofs i e).svy = s.svy := by
  unfold State.readSlot
  dsimp only
  split <;> simp

@[simp] theorem State.readPass_svy (tmi : Nat) (epoch : Byte) (tcount : Word) (body : List Byte) (s : State) :
    (s.readPass tmi epoch tcount body).svy = s.svy := by
  unfold State.readPass
  split <;> simp

@[simp] theorem State.returned_svy (ok : Bool) (tsrx : Nat) (s : State) : (s.returned ok tsrx).svy = s.svy := by
  unfold State.returned
  split <;> rfl

@[simp] theorem State.traverseSend_svy (beside : Option (List Byte)) (s : State) : (s.traverseSend beside).svy = s.svy := by
  unfold State.traverseSend
  (repeat' split) <;> simp

@[simp] theorem State.benchT0_svy (beside : Option (List Byte)) (s : State) : (s.benchT0 beside).svy = s.svy := by
  unfold State.benchT0
  dsimp only
  split <;> simp

@[simp] theorem State.toneCut_svy (s : State) : s.toneCut.svy = s.svy := by
  unfold State.toneCut
  exact State.each_svy (fun p u => State.modPort_svy p _ u) _ _

@[simp] theorem State.ethCut_svy (s : State) : s.ethCut.svy = s.svy := by simp [State.ethCut]

end Sys2Proof.Machine
end

section
/-! PROOF. What the survey frames do (05 R140 to R157): BEACON and REQUEST, REPORT, PASS and the duplicate strap, RESULT, CONFIRM
and ABORT. -/
namespace Sys2Proof.Machine

/-! ### Drive brought up to date leaves the roles (12 R335, R336) -/

namespace State.Undriven
variable {s0 s : State}

theorem thru (h : s0.Undriven s) : s.sys.thru = s0.sys.thru := congrArg (fun c : SteadyCore => c.sys.thru) h.1
theorem netrole (h : s0.Undriven s) : s.sys.netrole = s0.sys.netrole := congrArg (fun c : SteadyCore => c.sys.netrole) h.1

theorem raise (n : Nat) (h : s0.Undriven s) : s0.Undriven (s.raise n) := h.steady (.raise n (.refl s))

theorem wlvRun (h : s0.Undriven s) : s0.Undriven s.wlvRun :=
  ite (driveEnd (.raise _ (ite (driveEnd (ite h h)) (ite h h)))) (ite (driveEnd (ite h h)) (ite h h))

theorem ownUpdate (h : s0.Undriven s) : s0.Undriven s.ownUpdate := .ite (.ite h (.ite h (.ite h h))) (.ite h h)

theorem wlvSync (h : s0.Undriven s) : s0.Undriven s.wlvSync := by
  have hil := h.steady (.ilCheck (.revCheck (.refl s)))
  have hdrive : s0.Undriven (if (s.revCheck.ilCheck).able then (s.revCheck.ilCheck).wlvRun.ownUpdate
      else (s.revCheck.ilCheck).wlvIdle) := .ite (.ownUpdate (.wlvRun hil)) (.wlvIdle hil)
  exact .ite h (hdrive.steady (.wlvAsk (.peerLostCheck (.refl _))))

end State.Undriven

/-! ### A frame of the walk in hand -/

section
variable {h : SHdr} {s : State}

theorem State.svyIs_eq_false (hnone : s.svy.current = none) : s.svyIs h = false := by simp [State.svyIs, hnone]

theorem State.svyAt_place {w : SvyWalk} {port : SvyWalk → Fin 4} {p : Fin 4} (his : s.svyIs h = true)
    (hwalk : s.svy.walk = some w) (hport : port w = p) : s.svyAt h port p = some w := by
  simp only [State.svyAt, hwalk, his, hport, if_true]

end

section
variable {f : RxFrame} {h : SHdr} {s : State}

/-! ### BEACON and REQUEST (05 R140, R142, R149) -/

theorem onBeacon_foreign (hnone : s.svy.current = none) (hout : s.outward.contains f.port = true)
    (hforeign : s.svyForeign h = true) : onBeacon f h s = s.svyTrigger 1 := by
  simp only [onBeacon, hnone, Option.any_none, State.svyIs_eq_false hnone, hout, hforeign, Bool.not_false, Bool.and_self,
    Bool.false_eq_true, if_false, if_true]

theorem onBeacon_outranked {c : BitVec 2 × Word} (hcur : s.svy.current = some c) (hrank : svyOutranks c h.key = true) :
    onBeacon f h s = s := by
  simp only [onBeacon, hcur, Option.any_some, hrank, if_true]

theorem onRequest_bench (hepoch : s.hasEpoch = true) (hold : h.oldep = s.svy.epoch) (hrole : s.sys.netrole = .benchmark)
    (hidle : s.svy.state = .idle) : onRequest f h s = s.svySettle (some ((byteAt f.body 16).setWidth 4)) := by
  simp only [onRequest, hepoch, hold, State.isBench_iff.mpr hrole, hidle, decide_true, Bool.or_true, Bool.not_true,
    Bool.or_self, Bool.false_eq_true, if_false, if_true]

/-- A through unit that is not the benchmark's car passes a REQUEST on toward the benchmark. -/
theorem onRequest_passedOn (hepoch : s.hasEpoch = true) (hold : h.oldep = s.svy.epoch) (hrole : s.sys.netrole ≠ .benchmark)
    (hthru : s.sys.thru = true) (hcar : s.tre.bench.toNat / 2 + 1 ≠ s.car) (hport : f.port = farEnd s.towardBench) :
    onRequest f h s = s.svySend s.towardBench 0 f.body := by
  simp only [onRequest, hepoch, hold, State.isBench_eq_false hrole, hthru, hcar, hport, decide_true, ne_eq,
    not_false_eq_true, Bool.or_true, Bool.not_true, Bool.and_self, Bool.or_self, Bool.false_eq_true,
    if_false, if_true]

theorem State.towardBench_lead (hcar : s.tre.bench.toNat / 2 + 1 < s.car) : s.towardBench = s.retOut :=
  if_neg (by omega)

theorem State.towardBench_tail (hcar : s.car < s.tre.bench.toNat / 2 + 1) : s.towardBench = s.retIn := if_pos hcar

/-! ### REPORT (05 R147) -/

theorem onReport_held {x : SvyHold} {t1 : Dword} (his : s.svyIs h = true) (hhold : s.svy.hold = some x)
    (ht1 : x.t1 = some t1) (hport : x.port = f.port) : onReport f h s =
      { s with svy.hold := some (if (byteAt f.body 20).getLsbD 7
        then { x with repB := some (Report.parse f.body, BitVec.ofNat 32 (s.tsrxOf f - t1.toNat)) }
        else { x with repA := some (Report.parse f.body, BitVec.ofNat 32 (s.tsrxOf f - t1.toNat)) }) } := by
  have hflags : (Report.parse f.body).flags = byteAt f.body 20 := rfl
  simp only [onReport, his, hhold, ht1, hport, hflags, decide_true, Bool.not_true, Bool.false_eq_true, if_false]

/-! ### PASS (05 R147, R148) -/

section
variable {x : SvyRecv} (his : s.svyIs h = true) (hrecv : s.svy.recv = some x) (hport : x.port = f.port)
include his hrecv hport

theorem onPass_coll (hcoll : h.coll = true) (hown : (if s.unitB then beAt f.body 20 4 else beAt f.body 16 4) = 0) :
    onPass f h s = if 2 ≤ s.svy.colls then s.svyDup else { s with svy.colls := s.svy.colls + 1 } := by
  simp only [onPass, his, hrecv, hport, hcoll, hown, ne_eq, not_true_eq_false, if_false, if_true]

/-- A SEEK's exchange ends at a unit that does not go on. -/
theorem onPass_seekEnds {own : Nat} (hcoll : h.coll = false) (hseek : x.seek = true)
    (hown : (if s.unitB then beAt f.body 20 4 else beAt f.body 16 4) = own)
    (hthru : ((decide (beAt f.body 16 4 ≠ 0) && !(s.unitAMuted && decide (beAt f.body 20 4 ≠ 0))) == !s.unitB) = false) :
    onPass f h s = { s with svy.recv := none, svy.walk := some ⟨h.count + 1, x.port, farEnd x.port,
      if own = 0 then 0 else (own - x.turn.toNat + 1) / 2, false, false⟩ } := by
  simp only [onPass, his, hrecv, hport, hcoll, hseek, hthru, hown, ne_eq, not_true_eq_false, Bool.false_eq_true, if_false,
    if_true]

end

/-- A fault code taken leaves the survey, the roles and the events as they were. -/
theorem State.spFaultCode_leaves (code : Half) (s : State) : (s.spFaultCode code).svy = s.svy ∧
    (s.spFaultCode code).sys.netrole = s.sys.netrole ∧ (s.spFaultCode code).sys.thru = s.sys.thru ∧
    (s.spFaultCode code).evt = s.evt := by
  unfold State.spFaultCode
  dsimp only
  split <;> simp

/-- A unit whose strap is a duplicate is in no survey, has no numbers and no role, with EV075 (05 R148). -/
theorem State.svyDup_settles (s : State) : s.svyDup.svy.dupunit = true ∧ s.svyDup.svy.nid = none ∧ s.svyDup.svy.epoch = 0 ∧
    s.svyDup.svy.state = .idle ∧ s.svyDup.svy.current = none ∧ s.svyDup.sys.netrole = .isolated ∧
    s.svyDup.sys.thru = false ∧ s.svyDup.evt.raw.getLsbD 75 = true := by
  unfold State.svyDup
  extract_lets t _ _ _ u
  obtain ⟨hsvy, hrole, hthru, hevt⟩ := State.spFaultCode_leaves 0x0501 (u.raise 75)
  have hdrive : ((u.raise 75).spFaultCode 0x0501).Undriven ((u.raise 75).spFaultCode 0x0501).wlvSync := .wlvSync (.refl _)
  rw [State.wlvSync_svy, hdrive.netrole, hdrive.thru, hsvy, hrole, hthru, State.raise_svy, State.raise_sys]
  exact ⟨rfl, rfl, rfl, rfl, rfl, rfl, rfl, hdrive.grows.raised (hevt ▸ State.raise_raises u (by omega))⟩

/-! ### RESULT (05 R157) -/

theorem State.svyLone_of_is (his : s.svyIs h = true) : s.svyLone f h = s := by
  simp only [State.svyLone, his, Bool.not_true, Bool.false_and, Bool.false_eq_true, if_false]

theorem onResult_named {w : SvyWalk} {r : SvyResult} (his : s.svyIs h = true) (hwalk : s.svy.walk = some w)
    (hport : w.inn = f.port) (hsurveyor : s.svy.surveyor = false) (hcut : s.svy.state ≠ .cutwait)
    (hr : s.svyResultOf f h w = some r) : onResult f h s = if w.thru = false then s.svyStored r
      else if w.tail then ((s.svyStored r).svyConfirmSend w (svyCarBits r (s.svyStored r).drawBool)).took
      else (s.svyStored r).svySend w.out 0 (svyPassOn w f.body) := by
  simp only [onResult, State.svyLone_of_is his, State.svyAt_place his hwalk hport, hsurveyor, hcut, hr, decide_false,
    Bool.or_self, Bool.false_eq_true, if_false]
  cases w.thru <;> simp

/-- A stored RESULT is the node's, with EV071; it waits for the cut. -/
theorem State.svyStored_settles (r : SvyResult) (s : State) : (s.svyStored r).svy.result = some r ∧
    (s.svyStored r).svy.state = .cutwait ∧ (s.svyStored r).evt.raw = setBit s.evt.raw 71 := by
  simp [State.svyStored]

/-! ### CONFIRM and ABORT (05 R157) -/

theorem onConfirm_surveyor {w : SvyWalk} (his : s.svyIs h = true) (hwalk : s.svy.walk = some w) (hport : sideB w.out = f.port)
    (hsurveyor : s.svy.surveyor = true) :
    onConfirm f h s = { s with svy.confirm := s.svy.confirm ||| BitVec.ofNat 64 (beAt f.body 16 8) } := by
  simp only [onConfirm, State.svyAt_place (port := fun w => sideB w.out) his hwalk hport, hsurveyor, if_true]

theorem onAbort_ends {w : SvyWalk} (his : s.svyIs h = true) (hwalk : s.svy.walk = some w) (hport : w.inn = f.port)
    (hsurveyor : s.svy.surveyor = false) (hthru : w.thru = false) : onAbort f h s = (s.raise 66).svyIdle := by
  simp only [onAbort, State.svyAt_place his hwalk hport, hsurveyor, hthru, Bool.false_and, Bool.false_eq_true, if_false]

end

/-- Settles O10, frame by frame. What goes with the NID of a duplicate strap is the model's choice (log 176), and the tail's
partner's bit a free value (log 171). -/
theorem surveyActs : Obligations.SurveyActs := by
  unfold Obligations.SurveyActs
  refine ⟨fun _ _ _ hnone hout hforeign => onBeacon_foreign hnone hout hforeign,
    fun _ _ _ _ hcur hrank => onBeacon_outranked hcur hrank,
    fun _ _ _ hepoch hold hrole hidle => onRequest_bench hepoch hold hrole hidle, ?_, ?_,
    fun _ _ _ _ _ his hhold ht1 hport => onReport_held his hhold ht1 hport, ?_, ?_, ?_, State.svyDup_settles,
    fun _ _ _ _ _ his hwalk hport hsurveyor hcut hr => onResult_named his hwalk hport hsurveyor hcut hr,
    State.svyStored_settles, fun _ _ _ _ his hwalk hport hsurveyor => onConfirm_surveyor his hwalk hport hsurveyor,
    fun _ _ _ _ his hwalk hport hsurveyor hthru => onAbort_ends his hwalk hport hsurveyor hthru⟩
  · intro f h s hepoch hold hrole hthru hcar hport
    have htoward := State.towardBench_lead hcar
    rw [onRequest_passedOn hepoch hold hrole hthru (by omega) (by rwa [htoward]), htoward]
  · intro f h s hepoch hold hrole hthru hcar hport
    have htoward := State.towardBench_tail hcar
    rw [onRequest_passedOn hepoch hold hrole hthru (by omega) (by rwa [htoward]), htoward]
  · intro f h x s his hrecv hport hcoll hown hfew
    rw [onPass_coll his hrecv hport hcoll hown, if_neg (by omega)]
  · intro f h x s his hrecv hport hcoll hown hmany
    rw [onPass_coll his hrecv hport hcoll hown, if_pos hmany]
  · intro f h x s his hrecv hport hcoll hseek
    refine ⟨fun hb ha hmuted => ?_, fun hb hmuted hrtt => ?_⟩
    · exact onPass_seekEnds his hrecv hport hcoll hseek (if_pos hb) (by simp [hb, ha, hmuted])
    · exact onPass_seekEnds his hrecv hport hcoll hseek (if_neg (by simp [hb])) (by simp [hb, hmuted, hrtt])

end Sys2Proof.Machine
end

section
/-! PROOF. The survey's own frames and timers (05 R137 to R164): what a send leaves alone, the settle timer, the exchange and
its end, publishing, deadlines and retries, SVY_CTL, what waits, and late-comers. -/
namespace Sys2Proof.Machine

/-! ### What a send leaves alone (05 R137, R138) -/

/-- Setting a bit leaves every other bit. -/
theorem getLsbD_setBit_of_ne {w : Nat} (x : BitVec w) {i n : Nat} (h : n ≠ i) : (setBit x i).getLsbD n = x.getLsbD n := by
  have hbit : (2 ^ i).testBit n = false := Nat.testBit_two_pow_of_ne h.symm
  simp only [setBit, BitVec.getLsbD_or, BitVec.getLsbD_ofNat, hbit, Bool.and_false, Bool.or_false]

section
variable {n : Nat}

theorem State.raise_raw_of_ne {m : Nat} (h : n ≠ m) (s : State) : (s.raise m).evt.raw.getLsbD n = s.evt.raw.getLsbD n := by
  rw [State.raise_evt_raw, getLsbD_setBit_of_ne _ h]

theorem State.raiseIf_raw_of_ne {m : Nat} (h : n ≠ m) (b : Bool) (s : State) :
    (s.raiseIf b m).evt.raw.getLsbD n = s.evt.raw.getLsbD n := by
  unfold State.raiseIf State.when
  split
  · exact State.raise_raw_of_ne h s
  · rfl

variable (hn : n < 144)
include hn

/-- The counters raise EV144 to EV151 and EV153 only. -/
theorem State.count_raw (p i k : Nat) (s : State) : (s.count p i k).evt.raw.getLsbD n = s.evt.raw.getLsbD n := by
  unfold State.count
  split
  · dsimp only
    rw [State.raiseIf_raw_of_ne (by omega), State.raiseIf_raw_of_ne (by omega)]
  · rfl

theorem State.txCount_raw (p : Fin 4) (t : FType) (body : List Byte) (s : State) :
    (s.txCount p t body).evt.raw.getLsbD n = s.evt.raw.getLsbD n := by
  unfold State.txCount State.count1
  dsimp only
  (repeat' split) <;> simp only [State.count_raw hn]

theorem State.txSurveyAt_raw (p : Fin 4) (t : Nat) (body : List Byte) (s : State) :
    (s.txSurveyAt p t body).evt.raw.getLsbD n = s.evt.raw.getLsbD n := by
  unfold State.txSurveyAt State.txFrameAt State.when
  dsimp only
  split
  · rw [State.txCount_raw hn]
    unfold State.txStart
    split <;> rfl
  · unfold State.txStart
    split <;> rfl

/-- A survey frame that leaves raises EV071 at most, and what its counters raise. -/
theorem State.svyOut_raw (hne : n ≠ 71) (p : Fin 4) (t : Nat) (body : List Byte) (s : State) :
    (s.svyOut p t body).evt.raw.getLsbD n = s.evt.raw.getLsbD n := by
  have htx := fun b => State.txSurveyAt_raw hn p t b s
  unfold State.svyOut
  dsimp only
  split
  · split
    · rw [State.took_evt, State.svyStored, State.raise_raw_of_ne hne]
      exact htx _
    · exact htx _
  · (repeat' split) <;> exact htx _

theorem State.svySend_raw (hne : n ≠ 71) (p : Fin 4) (t : Nat) (body : List Byte) (s : State) :
    (s.svySend p t body).evt.raw.getLsbD n = s.evt.raw.getLsbD n := by
  unfold State.svySend
  dsimp only
  split
  · exact State.svyOut_raw hn hne _ _ _ _
  · rfl
  · rfl

end

@[simp] theorem State.txSurveyAt_svy (p : Fin 4) (t : Nat) (body : List Byte) (s : State) :
    (s.txSurveyAt p t body).svy = s.svy := by
  simp [State.txSurveyAt]

@[simp] theorem State.txSurveyAt_netrole (p : Fin 4) (t : Nat) (body : List Byte) (s : State) :
    (s.txSurveyAt p t body).sys.netrole = s.sys.netrole :=
  (State.Kept.txFrameAt _ _ _ _ _ _ _ _ (.refl s)).netrole

/-- A node's numbers in its ring, with the network role that goes with them (05 R158). -/
structure RingNumbers where
  nid : Option (BitVec 6)
  epoch : Byte
  prevep : Byte
  chain : BitVec 6
  cars : BitVec 6
  netrole : NetRole

def State.numbers (s : State) : RingNumbers :=
  ⟨s.svy.nid, s.svy.epoch, s.svy.prevep, s.svy.chain, s.svy.cars, s.sys.netrole⟩

theorem State.svyOut_numbers (p : Fin 4) (t : Nat) (body : List Byte) (s : State) :
    (s.svyOut p t body).numbers = s.numbers := by
  unfold State.svyOut
  dsimp only
  (repeat' split) <;> simp [State.numbers, State.svyStored]

theorem State.svySend_numbers (p : Fin 4) (t : Nat) (body : List Byte) (s : State) :
    (s.svySend p t body).numbers = s.numbers := by
  unfold State.svySend
  dsimp only
  split
  · exact State.svyOut_numbers _ _ _ _
  · rfl
  · rfl

theorem State.svySend_hostwait (p : Fin 4) (t : Nat) (body : List Byte) (s : State) :
    (s.svySend p t body).svy.hostwait = s.svy.hostwait := by
  unfold State.svySend State.svyOut
  dsimp only
  (repeat' split) <;> simp [State.svyReserve, State.svyStored]

/-! ### Beacons and the settle timer (05 R141 to R145) -/

theorem exec_beaconTimer {p : Fin 4} {s : State} (hepoch : s.hasEpoch = true) (hthru : s.sys.thru = true)
    (hdup : s.svy.dupunit = false) (hout : s.outward.contains p = true) (hc : s.coreRuns = true) :
    exec (.beaconTimer p) s = .next (s.svySend p 0 (s.svyHdr 10 false 0).bytes) :=
  congrArg Host.Outcome.next ((State.when_true _ hc).trans (if_pos (by rw [hepoch, hthru, hdup, hout]; rfl)))

theorem exec_settleExpiry {s : State} (hc : s.coreRuns = true) : exec .settleExpiry s = .next s.svyInitiate :=
  congrArg Host.Outcome.next (State.when_true _ hc)

/-- The survey that a node initiates, before its first frame. -/
def State.initiated (s : State) : State :=
  State.raise 65 { (s.svyClear).svyBegin with
    svy.current := some (s.svyPrec, s.svy.uid), svy.full := s.svy.trigger == some 4 || s.svy.fullNext
    svy.initiator := true, svy.trigger := none, svy.fullNext := false, svy.attempt := 1, svy.colls := 0 }

theorem State.svyInitiate_first {s : State} (hsettle : s.svy.state = .settle) (hagain : s.svyAgain = none) :
    s.svyInitiate = if s.initiated.atHead s.initiated.leadPort && s.initiated.svyThru
      then s.initiated.svySurveyor s.initiated.leadPort
      else ({ s.initiated with svy.state := .seek } : State).svyHold s.initiated.leadPort true 0 := by
  simp only [State.svyInitiate, hsettle, hagain, ne_eq, not_true_eq_false, if_false]
  rfl

theorem State.svyInitiate_again {s : State} {lead : Fin 4} (hsettle : s.svy.state = .settle)
    (hagain : s.svyAgain = some lead) : s.svyInitiate = State.svySurveyor lead { s with svy.attempt := s.svy.attempt + 1, svy.colls := 0 } := by
  simp only [State.svyInitiate, hsettle, hagain, ne_eq, not_true_eq_false, if_false]

theorem State.initiated_settles (s : State) : s.initiated.svy.initiator = true ∧
    s.initiated.svy.current = some (s.svyPrec, s.svy.uid) ∧ s.initiated.svy.attempt = 1 ∧
    s.initiated.evt.raw = setBit s.evt.raw 65 := by
  simp [State.initiated, State.svyBegin, State.svySnap, State.svyClear]

/-- A node with no epoch and no cab in its car is not at the leading end. -/
theorem State.atHead_eq_false {s : State} (lead : Fin 4) (hepoch : s.hasEpoch = false) (hcab : s.carCab = false) :
    s.atHead lead = false := by
  simp [State.atHead, hepoch, hcab]

theorem State.initiated_hasEpoch (s : State) : s.initiated.hasEpoch = s.hasEpoch := by
  simp [State.initiated, State.hasEpoch, State.svyBegin, State.svySnap, State.svyClear]

theorem State.initiated_carCab (s : State) : s.initiated.carCab = s.carCab := by
  simp [State.initiated, State.carCab, State.svyBegin, State.svySnap, State.svyClear]

/-- A node that is not the leading end's starts its survey with a SEEK (05 R144). -/
theorem exec_settleExpiry_seeks {s : State} (hc : s.coreRuns = true) (hsettle : s.svy.state = .settle)
    (hnone : s.svy.current = none) (hepoch : s.hasEpoch = false) (hcab : s.carCab = false) :
    ∃ t : State, exec .settleExpiry s = .next ({ t with svy.state := .seek }.svyHold t.leadPort true 0) ∧
      t.svy.initiator = true ∧ t.svy.current = some (s.svyPrec, s.svy.uid) ∧ t.svy.attempt = 1 ∧
      t.evt.raw = setBit s.evt.raw 65 := by
  have hagain : s.svyAgain = none := by simp [State.svyAgain, hnone]
  have hhead := State.atHead_eq_false s.initiated.leadPort (s.initiated_hasEpoch.trans hepoch)
    (s.initiated_carCab.trans hcab)
  refine ⟨s.initiated, ?_, s.initiated_settles⟩
  rw [exec_settleExpiry hc, State.svyInitiate_first hsettle hagain, hhead]
  rfl

/-- A surveyor walks from its own record. -/
theorem State.svySurveyor_starts (lead : Fin 4) (s : State) :
    ∃ t : State, s.svySurveyor lead = t.svyHold (farEnd lead) false 0 ∧ t.svy.surveyor = true ∧ t.svy.state = .walk ∧ t.svy.records.length = 1 :=
  ⟨_, rfl, rfl, rfl, rfl⟩

/-! ### The exchange and its end (05 R146 to R148) -/

theorem exec_reportSlotEnd {a b : Bool} {s : State} (hc : s.coreRuns = true) :
    exec (.reportSlotEnd a b) s = .next (s.svySlotEnd a b) :=
  congrArg Host.Outcome.next (State.when_true _ hc)

/-- A TALLY sent waits for the RESULT (05 Table 5.7). -/
theorem State.svyOut_tally {body : List Byte} (p : Fin 4) (t : Nat) (s : State) (h : byteAt body 0 = 6) :
    s.svyOut p t body = { s.txSurveyAt p t body with svy.state := .wait } := by
  have hkind : (byteAt body 0).toNat = 6 := by rw [h]; rfl
  simp [State.svyOut, hkind]

section
variable {s : State} {x : SvyHold} (hhold : s.svy.hold = some x)
include hhold

theorem State.svySlotEnd_noCarrier (hsent : x.t1.isSome = true) (hbypass : x.bypass = false) (ha : x.repA = none)
    (hb : x.repB = none) : s.svySlotEnd false false = s.svyNoCarrier x := by
  simp [State.svySlotEnd, hhold, Option.isSome_iff_ne_none.mp hsent, hbypass, ha, hb]

/-- The PASS with COLL, of a frame that met a carrier in unit A's slot and no REPORT there. -/
def State.collPass (x : SvyHold) (s : State) : State :=
  s.svyOut x.port (s.svyNow x.port) ((s.svyHdr 5 true ((s.svy.walk.map (·.idx)).getD 0)).bytes ++
    beBytes 4 ((x.repA.map fun y => y.2.toNat).getD 0) ++ beBytes 4 ((x.repB.map fun y => y.2.toNat).getD 0))

theorem State.svySlotEnd_collA (hsent : x.t1.isSome = true) (hbypass : x.bypass = false) (ha : x.repA = none)
    (hown : x.own = true) : s.svySlotEnd true false =
      if x.sent < 3 then (s.collPass x).svyHoldSend ((s.collPass x).svyNow x.port + 128000)
      else { s.collPass x with svy.hold := some { x with bypass := true } } := by
  simp [State.svySlotEnd, State.collPass, hhold, Option.isSome_iff_ne_none.mp hsent, hbypass, ha, hown]

theorem State.svyBypass_seek (hbypass : x.bypass = true) (hseek : x.seek = true) :
    s.svyBypass = ({ s with svy.hold := some { x with bypass := false, sent := 0 } } : State).svyHoldSend 0 := by
  simp [State.svyBypass, hhold, hbypass, hseek]

end

/-- The holder of a TOKEN that no unit answers, as the tail. -/
def State.tailed (s : State) : State :=
  State.raise 67 { s with svy.hold := none, svy.walk := s.svy.walk.map fun w => { w with tail := true } }

theorem State.tailed_settles {s : State} {w : SvyWalk} (hwalk : s.svy.walk = some w) :
    s.tailed.svy.walk = some { w with tail := true } ∧ s.tailed.svy.hold = none ∧
      s.tailed.evt.raw = setBit s.evt.raw 67 := by
  simp [State.tailed, hwalk]

/-- The tail sends its TALLY 64 us later. -/
theorem State.svyNoCarrier_tail {s : State} {x : SvyHold} {w : SvyWalk} (hseek : x.seek = false)
    (hsurveyor : s.svy.surveyor = false) (hwalk : s.svy.walk = some w) : s.svyNoCarrier x =
      s.tailed.svySend (sideB w.inn) (s.tailed.svyNow (sideB w.inn) + 64000)
        ((s.tailed.svyHdr 6 false s.tailed.svy.records.length).bytes ++ s.tailed.svy.records.flatten) := by
  obtain ⟨htail, -, -⟩ := State.tailed_settles hwalk
  have hnot : s.tailed.svy.surveyor = false := by simp [State.tailed, hsurveyor]
  unfold State.svyNoCarrier
  extract_lets _ t _ _ u
  have hu : u = s.tailed := rfl
  rw [if_neg (by simp [hseek]), hu, if_neg (by simp [hnot]), htail]

/-- The holder of a TOKEN that meets no carrier is the tail (05 R148). -/
theorem exec_reportSlotEnd_tail {s : State} {x : SvyHold} {w : SvyWalk} (hc : s.coreRuns = true)
    (hhold : s.svy.hold = some x) (hsent : x.t1.isSome = true) (hbypass : x.bypass = false) (ha : x.repA = none)
    (hb : x.repB = none) (hseek : x.seek = false) (hsurveyor : s.svy.surveyor = false) (hwalk : s.svy.walk = some w) :
    ∃ t : State, exec (.reportSlotEnd false false) s = .next (t.svySend (sideB w.inn) (t.svyNow (sideB w.inn) + 64000)
        ((t.svyHdr 6 false t.svy.records.length).bytes ++ t.svy.records.flatten)) ∧
      t.svy.walk = some { w with tail := true } ∧ t.svy.hold = none ∧ t.evt.raw = setBit s.evt.raw 67 := by
  refine ⟨s.tailed, ?_, State.tailed_settles hwalk⟩
  rw [exec_reportSlotEnd hc, State.svySlotEnd_noCarrier hhold hsent hbypass ha hb,
    State.svyNoCarrier_tail hseek hsurveyor hwalk]

theorem State.collPass_eq {s : State} {x : SvyHold} {w : SvyWalk} (ha : x.repA = none) (hb : x.repB = none)
    (hwalk : s.svy.walk = some w) : s.collPass x =
      s.svyOut x.port (s.svyNow x.port) ((s.svyHdr 5 true w.idx).bytes ++ List.replicate 8 0) := by
  have hzero : beBytes 4 0 ++ beBytes 4 0 = List.replicate 8 0 := by decide
  simp only [State.collPass, ha, hb, hwalk, Option.map_some, Option.map_none, Option.getD_some, Option.getD_none,
    List.append_assoc, hzero]

/-! ### Publishing (05 R156, R165) -/

theorem exec_svyPublish (s : State) : exec .svyPublish s = .next s.svyPublish := rfl

theorem State.svyPublish_still {s : State} (hwait : s.svy.hostwait = false) : s.svyPublish = s := by
  simp [State.svyPublish, hwait]

section
variable {s : State} (hwait : s.svy.hostwait = true) (hdecide : s.svy.state = .decide)
include hwait hdecide

theorem State.svyPublish_refused (hsplit : s.svy.split.getLsbD 0 = true) (hcars : s.svyChainCars s.svy.decChain = none) :
    s.svyPublish = (s.raise 70).svyPublishHw := by
  simp only [State.svyPublish, hwait, hdecide, hsplit, hcars, ne_eq, not_true_eq_false, decide_false, Bool.not_true,
    Bool.or_self, Bool.false_eq_true, if_false, if_true]

theorem State.svyPublish_accepted {cars : List (List Byte)}
    (hcars : s.svyChainCars (if s.svy.split.getLsbD 0 = true then s.svy.decChain else s.svyHardware.1) = some cars)
    (hnid : s.svy.split.getLsbD 1 = false ∨ s.svyNidOk cars s.svy.decNid = true) : s.svyPublish = s.svyPublishTabs
      (svyChainFix cars (if s.svy.split.getLsbD 0 = true then s.svy.decChain else s.svyHardware.1))
      (if s.svy.split.getLsbD 1 = true then s.svy.decNid else s.svyElect cars) := by
  simp only [State.svyPublish, hwait, hdecide, hcars, ne_eq, not_true_eq_false, decide_false, Bool.not_true, Bool.or_self,
    Bool.false_eq_true, if_false]
  rcases hnid with hnid | hnid
  · simp only [hnid, Bool.false_eq_true, if_false]
  · simp only [hnid, if_true]
    split <;> rfl

theorem exec_hostDeadline_publishes (hc : s.coreRuns = true) :
    exec .hostDeadline s = .next (s.raise 70).svyPublishHw :=
  congrArg Host.Outcome.next ((State.when_true _ hc).trans (if_pos (by rw [hwait, hdecide]; rfl)))

end

/-- Tables published: HOSTWAIT ends, without EV070. -/
theorem State.svyPublishTabs_settles (chain : Vector Word 32) (nids : Vector Word 64) (s : State) :
    (s.svyPublishTabs chain nids).svy.hostwait = false ∧
      (s.svyPublishTabs chain nids).evt.raw.getLsbD 70 = s.evt.raw.getLsbD 70 := by
  unfold State.svyPublishTabs
  dsimp only
  exact ⟨State.svySend_hostwait _ _ _ _, State.svySend_raw (by omega) (by omega) _ _ _ _⟩

/-! ### Deadlines and retries (05 R157, R161) -/

theorem exec_confirmDeadline_aborts {s : State} (hc : s.coreRuns = true) (hsurveyor : s.svy.surveyor = true)
    (hcut : s.svy.state = .cutwait) (hnot : s.svyConfirmed = false) :
    exec .confirmDeadline s = .next s.svyAbortSend :=
  congrArg Host.Outcome.next ((State.when_true _ hc).trans (if_pos (by rw [hsurveyor, hcut, hnot]; rfl)))

theorem exec_surveyTimeout (s : State) : exec .surveyTimeout s = .next (s.when s.coreRuns State.surveyLate) := rfl

theorem State.surveyLate_surveyor {s : State} (h : s.svy.surveyor = true) :
    s.surveyLate = if s.svyConfirmCame = true then s else s.svyRetry := if_pos h

theorem State.surveyLate_other {s : State} (h : s.svy.surveyor = false)
    (hstate : s.svy.state = .seek ∨ s.svy.state = .walk ∨ s.svy.state = .wait) : s.surveyLate = s.svyIdle := by
  rcases hstate with hs | hs | hs <;> simp [State.surveyLate, h, hs]

theorem State.svyRetry_givesUp {s : State} (h : s.svyAttempts ≤ s.svy.attempt.toNat) : s.svyRetry = (s.raise 78).svyIdle :=
  if_pos h

theorem State.svyRetry_settles {s : State} (h : s.svy.attempt.toNat < s.svyAttempts) : s.svyRetry.svy.state = .settle ∧
    s.svyRetry.svy.current = s.svy.current ∧ s.svyRetry.svy.lead = s.svy.lead := by
  rw [State.svyRetry, if_neg (by omega)]
  exact ⟨rfl, rfl, rfl⟩

/-! ### SVY_CTL (05 R140, R142, R157) -/

/-- A trigger in SETTLE is kept. -/
theorem State.svyTrigger_settling {c : BitVec 4} {s : State} (hcause : c ≠ 4) (hdup : s.svy.dupunit = false)
    (hsettle : s.svy.state = .settle) :
    s.svyTrigger c = { State.raise 64 { s with svy.cause := c } with svy.trigger := keepCause s.svy.trigger c } := by
  simp only [State.svyTrigger, State.raise_svy, hdup, hcause, hsettle, decide_false, Bool.false_and, Bool.or_self,
    Bool.false_eq_true, if_false, if_true]

/-! ### What waits for the window (05 R137, R138) -/

theorem exec_surveyDeferredSend (s : State) :
    exec .surveyDeferredSend s = .next (s.when s.coreRuns State.svyDeferred) := rfl

theorem State.svyDeferred_none {s : State} (h : s.svy.deferred = []) : s.svyDeferred = s := by
  have hsame : ({ s with svy.deferred := [] } : State) = s := by rw [← h]
  rw [State.svyDeferred, h]
  exact hsame

/-- Without a Traverse and on a quiet port a frame that waited leaves at once. -/
theorem State.svyDeferredOne_free {p : Fin 4} {b : List Byte} {s : State} (hfree : s.tre.sync = .free)
    (hwindow : s.svyWindow = none) (hend : (s.port p).txEnd = none) (hquiet : s.quiet p (s.svyNow p) = true) :
    s.svyDeferredOne (p, b) =
      (s.svyReserve (s.svyNow p) (svyDur b.length + svySlots b)).svyOut p (s.svyNow p) b := by
  have hT0 : s.toT0 (s.svyNow p) = none := by simp [State.toT0, State.carriesTrv, hfree]
  simp only [State.svyDeferredOne, hend, hwindow, hquiet, hT0, if_true, Option.isNone_none, Bool.not_true, Bool.and_false,
    Option.any_none, Bool.false_eq_true, if_false]

theorem State.svyDeferred_one {d : Fin 4 × List Byte} {s : State} (h : s.svy.deferred = [d]) :
    s.svyDeferred = ({ s with svy.deferred := [] } : State).svyDeferredOne d := by
  rw [State.svyDeferred, h]
  rfl

/-! ### Late-comers (05 R164) -/

theorem exec_latecomerNoAnswer_asks {s : State} (hc : s.coreRuns = true) (hlate : s.lateComer = true)
    (hjoins : 3 ≤ s.svy.joins) : exec .latecomerNoAnswer s = .next
      (({ s with svy.joins := 0, svy.heres := [] } : State).svyTrigger 5) :=
  congrArg Host.Outcome.next ((State.when_true _ hc).trans (if_pos (by rw [hlate, decide_eq_true hjoins]; rfl)))

theorem exec_latecomerCheck {s : State} (hc : s.coreRuns = true) : exec .latecomerCheck s = .next s.watchEnd :=
  congrArg Host.Outcome.next (State.when_true _ hc)

theorem State.watchEnd_watched {n : Nat} {l : List (Nat × Byte × Byte)} {s : State} (hwatch : s.svy.watch = some (n, l))
    (hn : 3 ≤ n) : s.watchEnd = if s.svy.watchLive = true then s.svyDup
      else { s with svy.watch := none, svy.taken := true } := by
  simp only [State.watchEnd, hwatch, if_neg (show ¬ n < 3 by omega)]

end Sys2Proof.Machine
end

section
/-! PROOF. The cut (05 R158): the new numbers and role, what the other chapters and a trigger kept leave of them, and the
survey's own commands together. -/
namespace Sys2Proof.Machine

/-! ### The cut of the other chapters -/

namespace State.Kept
variable {s0 s : State}

theorem cwyCutoff (w : Fin 16) (h : s0.Kept s) : s0.Kept (s.cwyCutoff w) := by
  have ht : s0.Kept ((s.wctlWrite w (clrBit (s.reg (Reg.wctl w)) 31)).raiseIf (s.wEn w) 229) :=
    .raiseIf _ _ (.setReg _ _ (.when h (.heldDrop w h)))
  unfold State.cwyCutoff
  extract_lets _ t _ u
  have hu : s0.Kept u := ht
  exact .ite h (.hostResume (.each hu fun _ _ => .cwyLogAdd _ _ _ _ _ _ _ _))

theorem cwyCut (h : s0.Kept s) : s0.Kept s.cwyCut :=
  .each (.each (s := { s with cwy.farq := [] }) h fun w _ => .cwyFlightEnd w _ _) fun w _ => .cwyCutoff w

theorem frameDropped (q : QFrame) (h : s0.Kept s) : s0.Kept (s.frameDropped q) := by
  have ht : s0.Kept (match q.src with | some a => s.txDone a 3 | none => s.count1 4 45) := by
    split
    · exact .txDone _ _ h
    · exact .count1 _ _ h
  have hu := windowDone q 3 ht
  exact .ite hu hu

theorem roadCut (h : s0.Kept s) : s0.Kept s.roadCut := by
  unfold State.roadCut
  extract_lets all strip a ports _ t u
  have ha : s0.Kept a := .each h fun _ _ ht => ht
  have ht : s0.Kept t := ha
  have hu : s0.Kept u := .each (.cwyCut (.each ht fun q _ => .frameDropped q)) fun e _ hx => .each hx fun p _ => .pfcCheck e p
  clear_value u
  exact .raise 131 hu

theorem toneCut (h : s0.Kept s) : s0.Kept s.toneCut := each (l := fins 4) h fun _ _ ht => ht

theorem wlvCut (h : s0.Kept s) : s0.Kept s.wlvCut := wlvSync h

end State.Kept

theorem State.designLoad_sys (s : State) : s.designLoad.sys = s.sys := by
  unfold State.designLoad
  split <;> rfl

theorem State.latTake_sys (check : Bool) (s : State) : (s.latTake check).sys = s.sys := State.raiseIf_sys _ _ _

theorem State.treCut_sys (r : SvyResult) (hop : Nat) (s : State) : (s.treCut r hop).sys = s.sys := by
  unfold State.treCut
  extract_lets _ a b lat _ c
  have hb : b.sys = s.sys := by
    unfold b
    split
    · exact State.designLoad_sys a
    · split <;> rfl
  split
  · exact (State.latTake_sys _ c).trans hb
  · exact hb

/-! ### The numbers over the cut -/

theorem State.numbers_eq {s t : State} (hsvy : t.svy = s.svy) (hrole : t.sys.netrole = s.sys.netrole) :
    t.numbers = s.numbers := by
  simp only [State.numbers, hsvy, hrole]

theorem State.each_numbers {α : Type} {f : α → State → State} (hf : ∀ x t, (f x t).numbers = t.numbers) (l : List α)
    (s : State) : (s.each l f).numbers = s.numbers := by
  induction l generalizing s with
  | nil => rfl
  | cons x l ih => exact (ih (f x s)).trans (hf x s)

theorem State.raise_numbers (n : Nat) (s : State) : (s.raise n).numbers = s.numbers :=
  State.numbers_eq (State.raise_svy n s) (congrArg Sys.netrole (State.raise_sys n s))

section
variable (s : State)

theorem State.keepBegin_numbers : s.keepBegin.numbers = s.numbers := State.each_numbers (fun _ _ => rfl) (fins 4) s

theorem State.svySettle_numbers (cause : Option (BitVec 4)) : (s.svySettle cause).numbers = s.numbers :=
  State.keepBegin_numbers s.svyClear.svySnap

theorem State.svyDrop_numbers : s.svyDrop.numbers = s.numbers := State.raise_numbers 66 _

theorem State.svyRequest_numbers (cause : BitVec 4) : (s.svyRequest cause).numbers = s.numbers :=
  State.each_numbers (fun _ _ => State.svySend_numbers _ _ _ _) _ s

/-- A trigger starts or asks for a survey; the numbers stay until its cut. -/
theorem State.svyTrigger_numbers (cause : BitVec 4) : (s.svyTrigger cause).numbers = s.numbers := by
  have ht : (State.raise 64 { s with svy.cause := cause }).numbers = s.numbers := State.raise_numbers 64 _
  unfold State.svyTrigger
  extract_lets _ t
  have hsettle := fun c => (t.svySettle_numbers c).trans ht
  have hrequest := fun c => (t.svyRequest_numbers c).trans ht
  split
  · exact ht
  · split
    · exact ht
    · split
      · split
        · exact hsettle _
        · split
          · exact hrequest _
          · split
            · exact hsettle _
            · exact hrequest _
      · split
        · exact (t.svyDrop.svySettle_numbers _).trans (t.svyDrop_numbers.trans ht)
        · exact ht

theorem State.svyIdle_numbers : s.svyIdle.numbers = s.numbers := by
  unfold State.svyIdle
  dsimp only
  split
  · exact State.svyTrigger_numbers _ _
  · rfl

theorem State.entriesStart_numbers : s.entriesStart.numbers = s.numbers := by
  unfold State.entriesStart
  split
  · split <;> rfl
  · exact State.numbers_eq s.claimStart_svy (State.Kept.claimStart (.refl s)).netrole

theorem State.benchT0_netrole (beside : Option (List Byte)) : (s.benchT0 beside).sys.netrole = s.sys.netrole := by
  unfold State.benchT0
  extract_lets _ a b c d
  have hb : a.Kept b := .effSet (.editsStep (.refl a))
  have hd : a.Kept d := .byteTake _ _ (.syncStep _ (.raise 80 (.ite (.wlvCycle hb) hb)))
  exact (State.Kept.traverseSend beside hd).netrole

end

/-- The role a RESULT gives a node (05 R154, R158). -/
def SvyResult.role (r : SvyResult) : NetRole :=
  if (r.ranks.getD r.nid.toNat 0).getLsbD 6 then .benchmark
  else if (r.ranks.getD r.nid.toNat 0).setWidth 6 ≠ (0 : BitVec 6) then .backup else .member

theorem State.svyTake_numbers (r : SvyResult) (s : State) : (s.svyTake r).numbers =
    ⟨some r.nid, r.newep, s.svy.epoch, BitVec.ofNat 6 (r.nid.toNat / 2 + 1), BitVec.ofNat 6 r.cars, r.role⟩ := by
  unfold State.svyTake
  simp only [State.numbers, State.raiseIf_svy, State.raiseIf_sys, State.raise_svy, State.raise_sys]
  rfl

theorem State.surveyCut_numbers (elsewhere : Bool) (beside : Option (List Byte)) {r : SvyResult} {s : State}
    (hcut : s.svy.state = .cutwait) (hr : s.svy.result = some r) :
    (s.surveyCut elsewhere beside).numbers = (s.svyTake r).numbers := by
  unfold State.surveyCut
  rw [hcut, hr]
  dsimp -zeta only
  extract_lets was hop a b _ c _ e
  have ha : a.numbers = (s.svyTake r).numbers :=
    State.numbers_eq (by simp [a]) ((State.Kept.roadCut (.toneCut (.refl _))).netrole.trans
      (congrArg Sys.netrole (State.treCut_sys r hop _)))
  have hb : b.numbers = a.numbers :=
    (State.svyIdle_numbers _).trans (State.numbers_eq (by simp) (State.Kept.wlvCut (.refl a.ethCut)).netrole)
  have hc : c.numbers = b.numbers := by
    unfold c
    split <;> rfl
  have he : e.numbers = c.numbers := State.entriesStart_numbers _
  have hnew : e.numbers = (s.svyTake r).numbers := he.trans (hc.trans (hb.trans ha))
  split
  · exact hnew
  · split
    · exact hnew
    · exact (State.numbers_eq (State.benchT0_svy beside e) (State.benchT0_netrole e beside)).trans hnew

theorem exec_surveyCut_takes (elsewhere : Bool) (beside : Option (List Byte)) {r : SvyResult} {s : State}
    (hc : s.coreRuns = true) (hcut : s.svy.state = .cutwait) (hr : s.svy.result = some r) :
    ∃ t, exec (.surveyCut elsewhere beside) s = .next t ∧ t.sys.netrole = r.role ∧ t.svy.nid = some r.nid ∧
      t.svy.epoch = r.newep ∧ t.svy.prevep = s.svy.epoch ∧ t.svy.chain = BitVec.ofNat 6 (r.nid.toNat / 2 + 1) ∧
      t.svy.cars = BitVec.ofNat 6 r.cars := by
  have h := (State.surveyCut_numbers elsewhere beside hcut hr).trans (State.svyTake_numbers r s)
  simp only [State.numbers, RingNumbers.mk.injEq] at h
  obtain ⟨hnid, hepoch, hprevep, hchain, hcars, hrole⟩ := h
  exact ⟨_, congrArg Host.Outcome.next (State.when_true (State.surveyCut elsewhere beside) hc), hrole, hnid, hepoch, hprevep,
    hchain, hcars⟩

/-- Settles O11, command by command; a send without a Traverse leans on log 216 in its premise alone. -/
theorem surveyServes : Obligations.SurveyServes := by
  unfold Obligations.SurveyServes
  refine ⟨fun p s hepoch hthru hdup hout hc => exec_beaconTimer hepoch hthru hdup hout hc,
    fun s hc hsettle hnone hepoch hcab => exec_settleExpiry_seeks hc hsettle hnone hepoch hcab, ?_, State.svySurveyor_starts,
    fun x w s hc hhold hsent hbypass ha hb hseek hsurveyor hwalk =>
      exec_reportSlotEnd_tail hc hhold hsent hbypass ha hb hseek hsurveyor hwalk,
    fun p t body s hkind => State.svyOut_tally p t s hkind, ?_, ?_, ?_, ?_, ?_, ?_,
    fun s hc hwait hdecide => exec_hostDeadline_publishes hwait hdecide hc,
    fun s hc hsurveyor hcut hnot => exec_confirmDeadline_aborts hc hsurveyor hcut hnot, ?_, ?_, ?_,
    fun s h => State.svyRetry_givesUp h, fun s h => State.svyRetry_settles h, fun s => rfl,
    fun c s hcause hdup hsettle => State.svyTrigger_settling hcause hdup hsettle, fun s => rfl, fun s => rfl, ?_, ?_,
    fun s hc hlate hjoins => exec_latecomerNoAnswer_asks hc hlate hjoins, ?_, ?_,
    fun r elsewhere beside s hc hcut hr => exec_surveyCut_takes elsewhere beside hc hcut hr⟩
  · intro lead s hc hsettle hcur htrigger hlead
    have hagain : s.svyAgain = some lead := by simp [State.svyAgain, hcur, htrigger, hlead]
    rw [exec_settleExpiry hc, State.svyInitiate_again hsettle hagain]
  · intro x s hc hhold hsent hbypass ha hown hmany
    refine ⟨_, by rw [exec_reportSlotEnd hc, State.svySlotEnd_collA hhold hsent hbypass ha hown, if_neg (by omega)], rfl⟩
  · intro x w s hc hhold hsent hbypass ha hb hown hfew hwalk
    refine ⟨_, rfl, ?_⟩
    rw [exec_reportSlotEnd hc, State.svySlotEnd_collA hhold hsent hbypass ha hown, if_pos hfew,
      State.collPass_eq ha hb hwalk]
  · intro x s hc hhold hbypass hseek
    rw [← State.svyBypass_seek hhold hbypass hseek]
    exact congrArg Host.Outcome.next (State.when_true _ hc)
  · intro s hwait hdecide hsplit hcars
    rw [exec_svyPublish, State.svyPublish_refused hwait hdecide hsplit hcars]
  · intro cars s hwait hdecide hcars hnid
    refine ⟨_, rfl, State.svyPublish_accepted hwait hdecide hcars hnid, ?_⟩
    rw [State.svyPublish_accepted hwait hdecide hcars hnid]
    exact State.svyPublishTabs_settles _ _ s
  · intro s hwait
    rw [exec_svyPublish, State.svyPublish_still hwait]
  · intro s hc hsurveyor hnone
    rw [exec_surveyTimeout, State.when_true _ hc, State.surveyLate_surveyor hsurveyor, hnone]
    rfl
  · intro s hsurveyor hcame
    rw [exec_surveyTimeout, State.when, State.surveyLate_surveyor hsurveyor, if_pos hcame, ite_self]
  · intro s hc hsurveyor hstate
    rw [exec_surveyTimeout, State.when_true _ hc, State.surveyLate_other hsurveyor hstate]
  · intro s hnone
    rw [exec_surveyDeferredSend, State.when, State.svyDeferred_none hnone, ite_self]
  · intro p b s hc hone hfree hwindow hend hquiet
    rw [exec_surveyDeferredSend, State.when_true _ hc, State.svyDeferred_one hone,
      State.svyDeferredOne_free (s := { s with svy.deferred := [] }) hfree hwindow hend hquiet]
    rfl
  · intro n l s hwatch hc hn hlive
    rw [exec_latecomerCheck hc, State.watchEnd_watched hwatch hn, if_pos hlive]
  · intro n l s hwatch hc hn hlive
    rw [exec_latecomerCheck hc, State.watchEnd_watched hwatch hn, hlive]
    rfl

end Sys2Proof.Machine
end

section
/-! PROOF. What a frame sent over Open Road leaves alone, one lemma an operation: it queues, and may end at once, with its
transmit record and its Causeway window (07 R207 to R222; 14 R390). -/
namespace Sys2Proof.Machine

/-- What no report, no read or write of a memory and no frame queued touches. -/
structure SendCore where
  sys : Sys
  sp : Sp
  liu : Liu
  svy : Svy
  tre : Tre
  ctl : Ctl
  itn : Itn
  lane : Lane
  wlv : Wlv
  boot : Boot
  pending : List Instr

def State.sendCore (s : State) : SendCore :=
  ⟨s.sys, { s.sp with alert := 0 }, s.liu, s.svy, s.tre, s.ctl, s.itn, s.lane, s.wlv, s.boot, s.pending⟩

/-- From s0 to s there were only reports, reads and writes of memories, and frames queued. -/
def State.Sent (s0 s : State) : Prop := s.sendCore = s0.sendCore

namespace State.Sent
variable {s0 s t : State}

theorem refl (s : State) : s.Sent s := rfl

theorem tre (h : s0.Sent s) : s.tre = s0.tre := congrArg SendCore.tre h

theorem reported (hr : s.Reported t) (h : s0.Sent s) : s0.Sent t := (congrArg State.sendCore hr.eq).trans h

theorem ite {c : Prop} [Decidable c] {a b : State} (ha : s0.Sent a) (hb : s0.Sent b) : s0.Sent (if c then a else b) := by
  split <;> assumption

theorem when {b : Bool} {f : State → State} (h : s0.Sent s) (hf : s0.Sent (f s)) : s0.Sent (s.when b f) := .ite hf h

theorem each {α : Type} {l : List α} {f : α → State → State} (h : s0.Sent s)
    (hf : ∀ x t, s0.Sent t → s0.Sent (f x t)) : s0.Sent (s.each l f) := by
  induction l generalizing s with
  | nil => exact h
  | cons x l ih => exact ih (hf x s h)

theorem raise (n : Nat) (h : s0.Sent s) : s0.Sent (s.raise n) := h.reported (State.raise_reported n s)

theorem count (p i k : Nat) (h : s0.Sent s) : s0.Sent (s.count p i k) := h.reported (State.count_reported p i k s)

theorem count1 (p i : Nat) (h : s0.Sent s) : s0.Sent (s.count1 p i) := .count p i 1 h

/-! ### Memories (15) -/

theorem setReg (a : Nat) (v : Word) (h : s0.Sent s) : s0.Sent (s.setReg a v) := h

theorem setBytes (a : Nat) (bs : List Byte) (h : s0.Sent s) : s0.Sent (s.setBytes a bs) := by
  rw [State.setBytes_frame]
  exact h

theorem fixWord (a : Nat) (w : Word) (e : Option WordErr) (h : s0.Sent s) : s0.Sent ((s.putWord a w).setErr a e) :=
  State.Sent.setBytes a _ h

theorem memLog (kind region : Nat) (src : Byte) (synd addr : Nat) (h : s0.Sent s) :
    s0.Sent (s.memLog kind region src synd addr) := h.reported (State.memLog_reported kind region src synd addr s)

theorem eccCe (kind : Nat) (src : Byte) (a : Nat) (e : WordErr) (h : s0.Sent s) : s0.Sent (s.eccCe kind src a e) :=
  .raise _ (.memLog _ _ _ _ _ h)

theorem eccUe (kind : Nat) (src : Byte) (a : Nat) (e : WordErr) (h : s0.Sent s) : s0.Sent (s.eccUe kind src a e) :=
  .raise _ (.memLog _ _ _ _ _ h)

theorem eccReadFx (src : Byte) (a : Nat) (h : s0.Sent s) : s0.Sent (s.eccReadFx src a) := by
  unfold State.eccReadFx
  split
  · exact h
  · split
    · exact .eccCe _ _ _ _ (.fixWord _ _ _ h)
    · exact .eccUe _ _ _ _ h

theorem eccFullWrite (a : Nat) (v : Word) (h : s0.Sent s) : s0.Sent (s.eccFullWrite a v) := by
  unfold State.eccFullWrite
  split
  · exact .setReg _ _ (.fixWord _ _ _ h)
  · exact .fixWord _ _ _ h

theorem eccWrite (src : Byte) (a : Nat) (be : BitVec 4) (v : Word) (h : s0.Sent s) : s0.Sent (s.eccWrite src a be v) := by
  unfold State.eccWrite
  split
  · exact .eccFullWrite _ _ h
  · split
    · exact .setBytes a _ h
    · split
      · exact .eccCe _ _ _ _ (.fixWord _ _ _ h)
      · exact .raise _ (.eccUe _ _ _ _ (.fixWord _ _ _ h))

theorem memReadFx (src : Byte) (a : Nat) (be : BitVec 4) (h : s0.Sent s) : s0.Sent (s.memReadFx src a be) := by
  have hparity := fun r => h.reported (State.parityFx_reported src r a be s)
  unfold State.memReadFx
  split
  · exact .eccReadFx _ _ h
  · exact .eccReadFx _ _ h
  · exact hparity _
  · exact hparity _
  · exact hparity _
  · exact hparity _
  · exact h

theorem blockReadFx (a n : Nat) (h : s0.Sent s) : s0.Sent (s.blockReadFx a n) := by
  have hr : s0.Sent (s.wordReads a n) := .each h fun _ _ => .memReadFx _ _ _
  exact .when hr hr

/-! ### The Causeway, as far as a frame's end reaches it (14 R390) -/

theorem cwyLogAdd (remote : Bool) (w nid cause notapp : Nat) (addr data : Word) (fseq : Nat) (h : s0.Sent s) :
    s0.Sent (s.cwyLogAdd remote w nid cause notapp addr data fseq) := .ite (.raise _ h) (.raise _ h)

theorem heldDrop (w : Fin 16) (h : s0.Sent s) : s0.Sent (s.heldDrop w) := by
  unfold State.heldDrop
  split
  · exact h
  · exact .cwyLogAdd _ _ _ _ _ _ _ _ h

theorem hostAccept (x : HostAcc) (v : Half) (par : BitVec 2) (h : s0.Sent s) : s0.Sent (s.hostAccept x v par) := by
  have hd := heldDrop x.win h
  have hposted : s0.Sent (match s.pairDone x with
      | some lo =>
        (s.modWin x.win fun c => { c with held := none }).cwyPost x 0xF
          (lanesWord (pairLanes x.lane false) lo ||| lanesWord x.lanes v)
      | none => (s.heldDrop x.win).cwyPost x (lanesBe x.lanes) (lanesWord x.lanes v)) := by
    split
    · exact h
    · exact hd
  exact .ite (.raise _ (.cwyLogAdd _ _ _ _ _ _ _ _ hd)) (.ite hd hposted)

theorem hostResume (h : s0.Sent s) : s0.Sent s.hostResume := by
  unfold State.hostResume
  split
  · exact .ite (.hostAccept _ _ _ h) h
  · exact h

theorem cwyFlightEnd (w : Fin 16) (cause idx : Nat) (h : s0.Sent s) : s0.Sent (s.cwyFlightEnd w cause idx) := by
  unfold State.cwyFlightEnd
  split
  · exact h
  · refine .hostResume (.ite h ?_)
    split
    · exact h
    · exact .cwyLogAdd _ _ _ _ _ _ _ _ h

theorem cwyTxResult (w : Fin 16) (result : Nat) (h : s0.Sent s) : s0.Sent (s.cwyTxResult w result) := by
  have hend := fun cause => cwyFlightEnd w cause 0 h
  unfold State.cwyTxResult
  split
  · exact h
  all_goals exact hend _

/-! ### A frame that ends (07 R213, R220, R222) -/

theorem txDone (a : Word) (result : Nat) (h : s0.Sent s) : s0.Sent (s.txDone a result) := by
  have hw : s0.Sent ((s.blockReadFx a.toNat 4).pokeWord 7 a.toNat
      (s.peekWord a.toNat &&& 0x8FFFFFFF ||| packW [(30, 1), (28, result)])) := .eccWrite _ _ _ _ (.blockReadFx _ _ h)
  exact .ite h (.when (.raise _ hw) (.count1 _ _ (.raise _ hw)))

theorem transitCount (q : QFrame) (result : Nat) (h : s0.Sent s) : s0.Sent (s.transitCount q result) := by
  have hrx : s0.Sent (s.when (decide (q.acct = 1)) (State.roadRxCount (RHdr.parse q.body))) :=
    .when h (.count1 _ _ (.count1 _ _ (.count _ _ _ (.count1 _ _ h))))
  exact .ite h (.when hrx (.count1 _ _ hrx))

theorem frameCount (q : QFrame) (result : Nat) (h : s0.Sent s) : s0.Sent (s.frameCount q result) := by
  unfold State.frameCount
  split
  · exact .transitCount _ _ h
  · split
    · exact .count1 _ _ (.count _ _ _ (.count1 _ _ h))
    · exact .count1 _ _ h
    · exact h

theorem recordDone (q : QFrame) (result : Nat) (h : s0.Sent s) :
    s0.Sent (match q.src with | some r => s.txDone r result | none => s) := by
  split
  · exact .txDone _ _ h
  · exact h

theorem windowDone (q : QFrame) (result : Nat) (h : s0.Sent s) :
    s0.Sent (match q.cwy with | some w => s.cwyTxResult w result | none => s) := by
  split
  · exact .cwyTxResult _ _ h
  · exact h

theorem frameEnd (q : QFrame) (result : Nat) (h : s0.Sent s) : s0.Sent (s.frameEnd q result) := by
  have hd := windowDone q result (recordDone q result (frameCount q result h))
  exact .ite h (.ite hd hd)

theorem undeliverable (q : QFrame) (h : s0.Sent s) : s0.Sent (s.undeliverable q) := .frameEnd _ _ (.raise _ (.count1 _ _ h))

/-! ### A frame queued (07 R211, R214, R220) -/

theorem roadDraw (p : Fin 4) (h : s0.Sent s) : s0.Sent (s.roadDraw p) := by
  unfold State.roadDraw
  dsimp only
  split <;> exact h

theorem roadAgain (p : Fin 4) (before : Option QFrame) (h : s0.Sent s) : s0.Sent (s.roadAgain p before) := by
  have hhead : s0.Sent (match s.roadHead p with
      | none => s.modRoad p fun r => { r with st := .idle }
      | some q => if before = some q then s else (s.modRoad p fun r => { r with count := s.drawCount q }).took) := by
    split
    · exact h
    · exact .ite h h
  exact .ite hhead (.roadDraw p h)

theorem roadPut (p : Fin 4) (q : QFrame) (h : s0.Sent s) : s0.Sent (s.roadPut p q) := .roadAgain _ _ h

theorem pfcCheck (e : Fin 2) (p : Fin 8) (h : s0.Sent s) : s0.Sent (s.pfcCheck e p) := by
  have hcount : ∀ t, s0.Sent t → s0.Sent (State.pfcCount e t) := fun t ht =>
    .count1 _ _ (.count1 _ _ (.count1 _ _ (.count _ _ _ (.count1 _ _ ht))))
  exact .ite h (.ite (hcount _ h) (.ite (hcount _ h) h))

theorem pauseCheck (p : Fin 4) (prio : Nat) (h : s0.Sent s) : s0.Sent (s.pauseCheck p prio) := by
  have hpause : ∀ t ptime, s0.Sent t → s0.Sent (t.sendPause p prio ptime) := fun _ _ ht =>
    .when (.roadPut _ _ ht) (.raise _ (.roadPut _ _ ht))
  exact .ite h (.ite (hpause _ _ h) (.ite (hpause _ _ h) h))

theorem frameLeft (q : QFrame) (h : s0.Sent s) : s0.Sent (s.frameLeft q) := by
  have hpause : s0.Sent (match q.from_ with
      | some p => s.pauseCheck p (RHdr.parse q.body).prio
      | none => s) := by
    split
    · exact .pauseCheck _ _ h
    · exact h
  unfold State.frameLeft
  dsimp only
  split
  · exact .pfcCheck _ _ hpause
  · exact hpause

theorem frameLost (q : QFrame) (h : s0.Sent s) : s0.Sent (s.frameLost q) :=
  .frameLeft _ (.ite (.frameEnd _ _ h) (.undeliverable _ h))

theorem roadSort (p : Fin 4) (k : Nat) (h : s0.Sent s) : s0.Sent (State.roadSort p k s) := by
  induction k generalizing s with
  | zero => exact h
  | succ k ih =>
    unfold State.roadSort
    split
    · exact h
    · split
      · exact h
      · split
        · exact .ite h (ih (.roadPut _ _ h))
        · exact ih (.frameLost _ h)

theorem roadEnqueue (p : Fin 4) (q : QFrame) (h : s0.Sent s) : s0.Sent (s.roadEnqueue p q) :=
  .roadAgain _ _ (.roadSort _ _ h)

theorem sendUnicast (dst : BitVec 6) (q : QFrame) (h : s0.Sent s) : s0.Sent (s.sendUnicast dst q) := by
  unfold State.sendUnicast
  split
  · exact .frameEnd _ _ h
  · split
    · exact .roadEnqueue _ _ h
    · exact .undeliverable _ h

theorem sendMgmt (dst : BitVec 6) (tag : BitVec 2) (payload : List Byte) (h : s0.Sent s) :
    s0.Sent (s.sendMgmt dst tag payload) := .sendUnicast _ _ h

end State.Sent

end Sys2Proof.Machine
end

section
/-! PROOF. Waymark tables as lists: what R176 asks of one, an entry put into one, the entries a cut frees, and a TABLE frame
read back (06 R175, R176, R188, R189). -/
namespace Sys2Proof.Machine

/-! ### Lengths (06 R175, R182) -/

theorem sumLen_eq_sum (tab : List Word) : sumLen tab = (tab.map entLen).sum := List.sum_eq_foldl.symm

@[simp] theorem sumLen_cons (e : Word) (tab : List Word) : sumLen (e :: tab) = entLen e + sumLen tab := by
  simp [sumLen_eq_sum]

theorem tabOk_iff {tab : List Word} : tabOk tab = true ↔ tab.length ≤ 256 ∧ (∀ e ∈ tab, e.getLsbD 31 = true) ∧
    sumLen tab ≤ 4096 ∧ (∀ n < 64, sumLen (tab.filter (entBy (BitVec.ofNat 6 n))) ≤ 2048) ∧
    76 + sumLen tab + 91 * (tabGroups none tab + 1) ≤ 8191 := by
  simp [tabOk, and_assoc]

/-- No node owns more than 2,048 bytes of an acceptable table. -/
theorem sumLen_owned_le {tab : List Word} (h : tabOk tab = true) (n : BitVec 6) : sumLen (tab.filter (entBy n)) ≤ 2048 := by
  obtain ⟨-, -, -, howned, -⟩ := tabOk_iff.mp h
  simpa using howned n.toNat n.isLt

/-! ### An entry put into a table (06 R192) -/

theorem any_tabPut {p : Word → Bool} {tab : List Word} {e : Word} (i : Nat) (hp : p e = false) (htab : tab.any p = false) :
    (tabPut tab i e).any p = false := by
  simp only [List.any_eq_false] at htab ⊢
  intro x hx
  have hmem : x = e ∨ x ∈ tab := by
    unfold tabPut at hx
    split at hx
    · exact (List.mem_or_eq_of_mem_set hx).symm
    · simpa [or_comm] using hx
  rcases hmem with rfl | hx
  · simp [hp]
  · exact htab x hx

/-! ### A free lay-by (06 Table 6.5) -/

section
variable {len8 user : Nat} (hlen : len8 < 32) (huser : user < 256)
include hlen huser

theorem toNat_mkEntry_free : (mkEntry true none len8 user).toNat = 2 ^ 31 + 2 ^ 30 + len8 * 2 ^ 8 + user := by
  simp [mkEntry, packW]
  omega

theorem mkEntry_free_valid : (mkEntry true none len8 user).getLsbD 31 = true := by
  simp only [BitVec.getLsbD, toNat_mkEntry_free hlen huser, Nat.testBit_eq_decide_div_mod_eq, decide_eq_true_eq]
  omega

theorem entOwned_mkEntry_free : entOwned (mkEntry true none len8 user) = false := by
  simp only [entOwned, BitVec.getLsbD, toNat_mkEntry_free hlen huser, Nat.testBit_eq_decide_div_mod_eq, decide_eq_false_iff_not]
  omega

theorem entLen_mkEntry_free : entLen (mkEntry true none len8 user) = 8 * (len8 + 1) := by
  simp only [entLen, fld, toNat_mkEntry_free hlen huser]
  omega

end

theorem fld_lt {w : Nat} (x : BitVec w) (lo n : Nat) : fld x lo n < 2 ^ n := Nat.mod_lt _ (Nat.two_pow_pos n)

/-! ### Pruning at a cut (06 R188) -/

/-- An entry after a cut: a free lay-by of its length where its owner is not PRESENT. -/
def State.pruned (s : State) (e : Word) : Word :=
  if entOwned e && !(s.svy.nidtab.getD (entOwner e).toNat 0).getLsbD 31 then
    mkEntry true none (fld e 8 5) (fld e 0 8) else e

theorem State.tablePrune_table (s : State) : s.tablePrune.tre.table = s.tre.table.map s.pruned := rfl

/-- Pruning keeps an entry, or frees it: valid, owned by no node, and as long as it was. -/
theorem State.pruned_cases (s : State) (e : Word) : s.pruned e = e ∨
    (s.pruned e).getLsbD 31 = true ∧ entOwned (s.pruned e) = false ∧ entLen (s.pruned e) = entLen e := by
  have hlen := fld_lt e 8 5
  have huser := fld_lt e 0 8
  unfold State.pruned
  split
  · exact .inr ⟨mkEntry_free_valid hlen huser, entOwned_mkEntry_free hlen huser, entLen_mkEntry_free hlen huser⟩
  · exact .inl rfl

theorem State.pruned_valid (s : State) {e : Word} (h : e.getLsbD 31 = true) : (s.pruned e).getLsbD 31 = true := by
  rcases s.pruned_cases e with heq | ⟨hvalid, -, -⟩
  · rwa [heq]
  · exact hvalid

@[simp] theorem State.entLen_pruned (s : State) (e : Word) : entLen (s.pruned e) = entLen e := by
  rcases s.pruned_cases e with heq | ⟨-, -, hlen⟩
  · rw [heq]
  · exact hlen

/-- Whoever owns an entry after pruning owned it before. -/
theorem State.entBy_of_pruned {s : State} {n : BitVec 6} {e : Word} (h : entBy n (s.pruned e) = true) : entBy n e = true := by
  rcases s.pruned_cases e with heq | ⟨-, howned, -⟩
  · rwa [heq] at h
  · simp [entBy, howned] at h

theorem State.sumLen_pruned (s : State) (tab : List Word) : sumLen (tab.map s.pruned) = sumLen tab := by
  simp [sumLen_eq_sum, Function.comp_def]

theorem State.sumLen_pruned_owned (s : State) (n : BitVec 6) (tab : List Word) :
    sumLen ((tab.map s.pruned).filter (entBy n)) ≤ sumLen (tab.filter (entBy n)) := by
  induction tab with
  | nil => exact Nat.le_refl _
  | cons e tab ih =>
    simp only [List.map_cons, List.filter_cons]
    by_cases hafter : entBy n (s.pruned e) = true
    · simpa [hafter, State.entBy_of_pruned hafter] using ih
    · rw [if_neg hafter]
      split
      · exact Nat.le_trans ih (by simp)
      · exact ih

/-! ### The TABLE frame (06 R189) -/

/-- Entries put in line order are the ones read there. -/
theorem range_map_beAt_entries (tab : List Word) (l : List Byte) : ((List.range tab.length).map fun i =>
    BitVec.ofNat 32 (beAt (tab.flatMap (fun e => beBytes 4 e.toNat) ++ l) (4 * i) 4)) = tab := by
  induction tab with
  | nil => rfl
  | cons e tab ih =>
    have hfirst := beAt_beBytes (n := 4) (tab.flatMap (fun e => beBytes 4 e.toNat) ++ l) e.isLt
    simpa [List.range_succ_eq_map, Function.comp_def, Nat.mul_succ, hfirst] using ih

theorem length_entries (tab : List Word) : (tab.flatMap fun e => beBytes 4 e.toNat).length = 4 * tab.length := by
  induction tab with
  | nil => rfl
  | cons e tab ih =>
    rw [List.flatMap_cons, List.length_append, length_beBytes, ih, List.length_cons]
    omega

/-- A TABLE frame with these entries and this TABCRC. -/
def tableBytes (seq : Byte) (tab : List Word) (crc : Half) : List Byte :=
  [0x22, seq] ++ beBytes 2 tab.length ++ tab.flatMap (fun e => beBytes 4 e.toNat) ++ beBytes 2 crc.toNat

/-- What the benchmark broadcasts is such a frame, with its own TABCRC. -/
theorem State.tablePayload_eq (s : State) :
    s.tablePayload = tableBytes s.tre.tabseq s.tre.table (tabCrc s.tre.table) := rfl

section
variable (seq : Byte) (tab : List Word) (crc : Half)

theorem tableBytes_count (h : tab.length ≤ 256) : beAt (tableBytes seq tab crc) 2 2 = tab.length := by
  have hn : tab.length < 256 ^ 2 := by omega
  simpa [tableBytes] using beAt_beBytes _ hn

theorem tableBytes_entries : ((List.range tab.length).map fun i =>
    BitVec.ofNat 32 (beAt (tableBytes seq tab crc) (4 + 4 * i) 4)) = tab := by
  have hat : ∀ i, beAt (tableBytes seq tab crc) (4 + 4 * i) 4 =
      beAt (tab.flatMap (fun e => beBytes 4 e.toNat) ++ beBytes 2 crc.toNat) (4 * i) 4 := by
    intro i
    rw [show 4 + 4 * i = 2 + 4 * i + 1 + 1 by omega]
    simp [tableBytes]
  simp only [hat, range_map_beAt_entries]

theorem tableBytes_crc : beAt (tableBytes seq tab crc) (4 + 4 * tab.length) 2 = crc.toNat := by
  have hlen : ([0x22, seq] ++ beBytes 2 tab.length ++ tab.flatMap (fun e => beBytes 4 e.toNat)).length =
      4 + 4 * tab.length := by
    simp only [List.length_append, length_entries, length_beBytes, List.length_cons, List.length_nil]
  simpa [tableBytes] using beAt_append _ [] hlen crc.isLt

end

end Sys2Proof.Machine
end

section
/-! PROOF. The waymark table: commits, claims, edits, the TABLE frame, the design table and the pruning at a cut (06 R176 to
R192). -/
namespace Sys2Proof.Machine

/-! ### Commit and the commands of a claim (06 R183, R189 to R191) -/

theorem State.commitTake_pending {s : State} (h : s.tre.commit = true) :
    let t := (s.wordReads 0x40048000 2048).bufWrite 0x40048800 (s.bytesAt 0x40048000 2048)
    s.commitTake = State.raise 100 { t with tre.commit := false, tre.seq := t.tre.seq + 1 } :=
  if_neg (by simp [h])

theorem exec_tableRequestRepeat_asks {s : State} (hc : s.coreRuns = true) (htab : s.tre.tabok = false)
    (he : s.hasEpoch = true) : exec .tableRequestRepeat s = .next s.tableAsk :=
  congrArg Host.Outcome.next ((State.when_true _ hc).trans (if_pos (by rw [htab, he]; rfl)))

theorem exec_claimRetry_due {s : State} (hc : s.coreRuns = true) (hdue : s.claimDue = true) (h0 : s.tre.claimTries ≠ 0)
    (h8 : s.tre.claimTries ≤ 8) : exec .claimRetry s = .next (if s.tre.claimTries < 8
      then ({ s with tre.claimTries := s.tre.claimTries + 1 } : State).claimSend
      else State.raise 98 { s with tre.claimTries := 9 }) :=
  congrArg Host.Outcome.next ((State.when_true _ hc).trans (if_neg (by simp [hdue, h0]; omega)))

theorem exec_tableEdit (v : Word) (s : State) : exec (.tableEdit v) s = .next (s.editWrite v) := rfl

theorem State.editWrite_queues {v : Word} {s : State} (hgo : v.getLsbD 15 = true) (hrole : s.sys.netrole = .benchmark) :
    s.editWrite v = { s with tre.edits := s.tre.edits ++ [(v.setWidth 8, s.reg Reg.TRE_EDITENT)] } :=
  if_pos (by rw [hgo, State.isBench_iff.mpr hrole]; rfl)

theorem State.editWrite_still {v : Word} {s : State} (h : v.getLsbD 15 = false ∨ s.sys.netrole ≠ .benchmark) :
    s.editWrite v = s := by
  refine if_neg (Bool.eq_false_iff.mp ?_)
  rcases h with hgo | hrole
  · rw [hgo, Bool.false_and]
  · rw [State.isBench_eq_false hrole, Bool.and_false]

theorem exec_claimPop_made {m : Master} {s : State} (h : s.accesses m false Reg.TRE_CLAIM = true) :
    exec (.claimPop m) s = .next { s with
      tre.claims := s.tre.claims.drop 1, out := s.out ++ [.answer m (s.tre.claims.headD 0)] } :=
  congrArg Host.Outcome.next (State.access_made _ h)

/-! ### A claim at the benchmark (06 R191) -/

/-- The table of the claims is the one in force where no edit waits. -/
theorem State.tableAhead_eq {s : State} (hedits : s.tre.edits = []) (hlast : s.tre.lastEdit = none) :
    s.tableAhead = s.tre.table := by
  simp [State.tableAhead, hedits, hlast]

/-- A free lay-by that is long enough for a claim. -/
def claimFits (len8 : Nat) (e : Word) : Bool := entLayby e && !entOwned e && decide (len8 ≤ fld e 8 5)

theorem claimFits_iff {len8 : Nat} {e : Word} :
    claimFits len8 e = true ↔ entLayby e = true ∧ entOwned e = false ∧ len8 ≤ fld e 8 5 := by
  simp [claimFits, and_assoc]

theorem claimFits_eq_false {len8 : Nat} {e : Word} (h : entLayby e = false ∨ entOwned e = true ∨ fld e 8 5 < len8) :
    claimFits len8 e = false := by
  rcases h with h | h | h <;> simp [claimFits, h]

theorem State.claimRx_grants {s : State} {nid : BitVec 6} {len8 user i : Nat} (hrole : s.sys.netrole = .benchmark)
    (hsplit : s.sys.splitAct.getLsbD 2 = false)
    (hfind : (List.range s.tableAhead.length).find? (fun i => claimFits len8 (s.tableAhead.getD i 0)) = some i) :
    s.claimRx nid len8 user = { s with tre.edits := s.tre.edits ++
      [(BitVec.ofNat 8 i, mkEntry true (some nid) (fld (s.tableAhead.getD i 0) 8 5) user)] } := by
  simp only [claimFits] at hfind
  simp only [State.claimRx, State.isBench_iff.mpr hrole, hsplit, hfind, Bool.not_true, Bool.false_eq_true, if_false]

theorem State.claimRx_first {s : State} {nid : BitVec 6} {len8 user i : Nat} {e : Word} (hrole : s.sys.netrole = .benchmark)
    (hsplit : s.sys.splitAct.getLsbD 2 = false) (hedits : s.tre.edits = []) (hlast : s.tre.lastEdit = none)
    (hi : s.tre.table[i]? = some e) (hfits : claimFits len8 e = true)
    (hbefore : ∀ j x, j < i → s.tre.table[j]? = some x → claimFits len8 x = false) :
    s.claimRx nid len8 user = { s with
      tre.edits := [(BitVec.ofNat 8 i, mkEntry true (some nid) (fld e 8 5) user)] } := by
  obtain ⟨hlt, -⟩ := List.getElem?_eq_some_iff.mp hi
  have hget : s.tre.table.getD i 0 = e := by simp [hi]
  have hahead := State.tableAhead_eq hedits hlast
  have hfind : (List.range s.tre.table.length).find? (fun i => claimFits len8 (s.tre.table.getD i 0)) = some i := by
    refine List.find?_range_eq_some.mpr ⟨by rwa [hget], List.mem_range.mpr hlt, fun j hj => ?_⟩
    have hj' := List.getElem?_eq_getElem (Nat.lt_trans hj hlt)
    simp [hj', hbefore j _ hj hj']
  rw [State.claimRx_grants hrole hsplit (by rwa [hahead]), hahead, hget, hedits]
  rfl

/-! ### Claims leave the tables alone (06 R190) -/

/-- From s0 to s the table in force and the one received stayed. -/
def State.TablesStay (s0 s : State) : Prop := s.tre.table = s0.tre.table ∧ s.tre.tableNext = s0.tre.tableNext

namespace State.TablesStay
variable {s0 s : State}

theorem refl (s : State) : s.TablesStay s := ⟨rfl, rfl⟩

theorem ite {c : Prop} [Decidable c] {a b : State} (ha : s0.TablesStay a) (hb : s0.TablesStay b) :
    s0.TablesStay (if c then a else b) := by
  split <;> assumption

theorem sent {t : State} (hs : s.Sent t) (h : s0.TablesStay s) : s0.TablesStay t := by
  unfold State.TablesStay
  rwa [hs.tre]

theorem each {α : Type} {l : List α} {f : α → State → State} (h : s0.TablesStay s)
    (hf : ∀ x t, s0.TablesStay t → s0.TablesStay (f x t)) : s0.TablesStay (s.each l f) := by
  induction l generalizing s with
  | nil => exact h
  | cons x l ih => exact ih (hf x s h)

theorem claimRx (nid : BitVec 6) (len8 user : Nat) (h : s0.TablesStay s) : s0.TablesStay (s.claimRx nid len8 user) := by
  unfold State.claimRx
  refine .ite h (.ite (.ite h h) ?_)
  dsimp only
  split
  · exact h
  · exact .ite h h

theorem claimSend (h : s0.TablesStay s) : s0.TablesStay s.claimSend := by
  unfold State.claimSend
  split
  · exact h
  · exact .each (h.sent (.raise 96 (.refl s))) fun d t ht =>
      .ite (.claimRx _ _ _ ht) (ht.sent (.sendMgmt _ _ _ (.refl t)))

theorem claimStart (h : s0.TablesStay s) : s0.TablesStay s.claimStart := .ite (.claimSend h) h

theorem entriesStart (h : s0.TablesStay s) : s0.TablesStay s.entriesStart := .ite (.ite h h) (.claimStart h)

theorem claimFollow (had : Bool) (h : s0.TablesStay s) : s0.TablesStay (s.claimFollow had) :=
  .ite h (.ite (.claimStart h) h)

end State.TablesStay

/-! ### Edits (06 R192) -/

section
variable {i seq : Byte} {e : Word} {s : State}

/-- The state with an edit in its table. -/
def State.edited (i seq : Byte) (e : Word) (s : State) : State :=
  { s with tre.table := tabPut s.tre.table i.toNat e, tre.tabseq := seq, tre.editNext := none }

theorem State.editApply_refused (h : s.editOk i e = false) : s.editApply i seq e = s.raise 95 := if_pos (by rw [h]; rfl)

theorem State.editOk_eq_false (h : tabOk (tabPut s.tre.table i.toNat e) = false) : s.editOk i e = false := by
  simp [State.editOk, h]

theorem State.editOk_true (hi : i.toNat ≤ s.tre.table.length) (h : tabOk (tabPut s.tre.table i.toNat e) = true) :
    s.editOk i e = true := by
  simp [State.editOk, State.nentries, h, hi]

theorem State.tabOk_of_editOk (h : s.editOk i e = true) : tabOk (tabPut s.tre.table i.toNat e) = true := by
  obtain ⟨hok, -⟩ := Bool.and_eq_true_iff.mp h
  exact hok

/-- An edit applied, with the grant of this node's claim that it may be. -/
theorem State.editApply_applied (h : s.editOk i e = true) : s.editApply i seq e =
    ((State.raise 94 (s.edited i seq e)).raiseIf (s.owns e && !s.owns (s.tre.table.getD i.toNat 0)) 97).claimFollow
      s.ownsAny :=
  if_neg (by simp [h])

/-- An edit that gives this node nothing grants no claim of its own. -/
theorem State.editApply_other (h : s.editOk i e = true) (hown : s.owns e = false) : s.editApply i seq e =
    (State.raise 94 (s.edited i seq e)).claimFollow s.ownsAny := by
  simp [State.editApply_applied h, hown, State.raiseIf, State.when]

theorem State.ownsAny_edited : (State.raise 94 (s.edited i seq e)).ownsAny = (tabPut s.tre.table i.toNat e).any s.owns := by
  have howns : (State.raise 94 (s.edited i seq e)).owns = s.owns := by
    funext x
    simp [State.owns, State.edited]
  rw [State.ownsAny, howns, State.raise_tre]
  rfl

/-- A node without entries, before and after, does nothing more. -/
theorem State.editApply_unowned (h : s.editOk i e = true) (hown : s.owns e = false) (hany : s.ownsAny = false) :
    s.editApply i seq e = State.raise 94 (s.edited i seq e) := by
  have hafter : (State.raise 94 (s.edited i seq e)).ownsAny = false := State.ownsAny_edited.trans (any_tabPut _ hown hany)
  rw [State.editApply_other h hown, State.claimFollow, hafter, hany]
  rfl

/-- A node that loses its last entry claims again. -/
theorem State.editApply_lost (h : s.editOk i e = true) (hown : s.owns e = false) (hany : s.ownsAny = true)
    (hlost : (tabPut s.tre.table i.toNat e).any s.owns = false) :
    s.editApply i seq e = ({ State.raise 94 (s.edited i seq e) with tre.claimTries := 0 } : State).claimStart := by
  have hafter : (State.raise 94 (s.edited i seq e)).ownsAny = false := State.ownsAny_edited.trans hlost
  rw [State.editApply_other h hown, State.claimFollow, hafter, hany]
  rfl

/-- The table stays, or has the edit in it. -/
theorem State.editApply_table (i seq : Byte) (e : Word) (s : State) : (s.editApply i seq e).tre.table =
    if s.editOk i e then tabPut s.tre.table i.toNat e else s.tre.table := by
  by_cases h : s.editOk i e = true
  · have hraised : (s.edited i seq e).TablesStay ((State.raise 94 (s.edited i seq e)).raiseIf
        (s.owns e && !s.owns (s.tre.table.getD i.toNat 0)) 97) := by
      simp [State.TablesStay]
    obtain ⟨htable, -⟩ := hraised.claimFollow s.ownsAny
    rw [State.editApply_applied h, htable, if_pos h]
    rfl
  · rw [State.editApply_refused (Bool.eq_false_iff.mpr h), State.raise_tre, if_neg h]

theorem State.editApply_tabOk (i seq : Byte) (e : Word) (h : tabOk s.tre.table = true) :
    tabOk (s.editApply i seq e).tre.table = true := by
  rw [State.editApply_table]
  split
  · exact State.tabOk_of_editOk ‹_›
  · exact h

end

/-! ### The TABLE frame and its adoption (06 R189) -/

/-- A TABLE frame is left alone, taken for the next T0 where R176 and TABCRC hold, or refused with EV095. -/
theorem onTable_cases (f : RxFrame) (h : RHdr) (b : List Byte) (s : State) : onTable f h b s = s ∨
    (∃ seq tab, tabOk tab = true ∧ onTable f h b s = { s with tre.tableNext := some (seq, tab) }) ∨
    onTable f h b s = s.raise 95 := by
  unfold onTable
  dsimp only
  split
  · exact .inl rfl
  · split
    next hholds =>
      obtain ⟨hok, -⟩ := Bool.and_eq_true_iff.mp hholds
      exact .inr (.inl ⟨_, _, hok, rfl⟩)
    next => exact .inr (.inr rfl)

theorem onTable_keeps (f : RxFrame) (h : RHdr) (b : List Byte) {s : State}
    (hnext : (s.tre.tableNext.all fun x => tabOk x.2) = true) :
    ((onTable f h b s).tre.tableNext.all fun x => tabOk x.2) = true ∧ (onTable f h b s).tre.table = s.tre.table := by
  rcases onTable_cases f h b s with heq | ⟨seq, tab, hok, heq⟩ | heq <;> rw [heq]
  · exact ⟨hnext, rfl⟩
  · exact ⟨hok, rfl⟩
  · rw [State.raise_tre]
    exact ⟨hnext, rfl⟩

theorem onTable_takes (f : RxFrame) (h : RHdr) (seq : Byte) {tab : List Word} {s : State}
    (hrole : s.sys.netrole ≠ .benchmark) (hok : tabOk tab = true) :
    onTable f h (tableBytes seq tab (tabCrc tab)) s = { s with tre.tableNext := some (seq, tab) } := by
  obtain ⟨hlen, -⟩ := tabOk_iff.mp hok
  have hmin : min tab.length 257 = tab.length := by omega
  have hseq : byteAt (tableBytes seq tab (tabCrc tab)) 1 = seq := rfl
  simp only [onTable, State.isBench_eq_false hrole, tableBytes_count _ _ _ hlen, hmin, tableBytes_entries, tableBytes_crc,
    hok, hseq, decide_true, Bool.and_self, Bool.false_eq_true, if_false, if_true]

theorem State.tableAdopt_none {s : State} (h : s.tre.tableNext = none) : s.tableAdopt = s := by
  simp [State.tableAdopt, h]

theorem State.tableAdopt_some {s : State} {q : Byte} {tab : List Word} (h : s.tre.tableNext = some (q, tab)) :
    s.tableAdopt.tre.table = tab ∧ s.tableAdopt.tre.tableNext = none := by
  have hstay := ((State.TablesStay.refl { s with
    tre.table := tab, tre.tabseq := q, tre.tableNext := none, tre.tabok := true, tre.editNext := none }).claimFollow
      s.ownsAny).entriesStart
  rw [State.tableAdopt, h]
  exact hstay

theorem State.tableAdopt_tabOk {s : State} (hnext : (s.tre.tableNext.all fun x => tabOk x.2) = true)
    (htable : tabOk s.tre.table = true) : tabOk s.tableAdopt.tre.table = true ∧ s.tableAdopt.tre.tableNext = none := by
  cases h : s.tre.tableNext with
  | none =>
    rw [State.tableAdopt_none h]
    exact ⟨htable, h⟩
  | some x =>
    obtain ⟨htab, hnone⟩ := State.tableAdopt_some h
    rw [h] at hnext
    exact ⟨htab ▸ hnext, hnone⟩

/-! ### The design table (06 R188) -/

theorem designFile_tabOk {d : List Byte} {x : List Word × List Half} (h : designFile d = some x) : tabOk x.1 = true := by
  unfold designFile at h
  dsimp only at h
  split at h
  next hholds =>
    obtain ⟨-, -, -, -, -, hok⟩ := hholds
    exact Option.some.inj h ▸ hok
  next => exact nomatch h

theorem State.designItem_tabOk (d : List Byte) {s : State} (h : s.tre.design.all tabOk = true) :
    (s.designItem d).tre.design.all tabOk = true := by
  unfold State.designItem
  split
  next hfile => exact designFile_tabOk hfile
  next => rwa [State.raise_tre]

theorem State.designLoad_tabOk {s : State} (hdesign : s.tre.design.all tabOk = true) (htable : tabOk s.tre.table = true) :
    tabOk s.designLoad.tre.table = true := by
  unfold State.designLoad
  split
  next hd => simpa [hd] using hdesign
  next => exact htable

/-! ### Pruning at a cut (06 R188) -/

theorem State.tablePrune_keeps {s : State} (h : tabOk s.tre.table = true) :
    let tab := s.tablePrune.tre.table
    tab.length = s.tre.table.length ∧ (∀ e ∈ tab, e.getLsbD 31 = true) ∧ sumLen tab = sumLen s.tre.table ∧
      ∀ n : BitVec 6, sumLen (tab.filter (entBy n)) ≤ 2048 := by
  obtain ⟨-, hvalid, -⟩ := tabOk_iff.mp h
  rw [State.tablePrune_table]
  refine ⟨List.length_map _, ?_, s.sumLen_pruned _, fun n => Nat.le_trans (s.sumLen_pruned_owned n _) (sumLen_owned_le h n)⟩
  simp only [List.forall_mem_map]
  exact fun e he => s.pruned_valid (hvalid e he)

/-- Settles O16: commits, claims and edits by the branches of their commands; the tables stay acceptable since claims leave
them alone and every way a table comes in goes through R176's check; pruning only frees entries. -/
theorem tableServes : Obligations.TableServes := by
  unfold Obligations.TableServes
  refine ⟨fun _ => rfl, fun s h => ⟨_, State.commitTake_pending h, rfl⟩, fun _ => exec_tableRequestRepeat_asks,
    ?_, ?_, ?_, ?_, fun _ _ => exec_claimPop_made, ?_, ?_, fun _ _ _ _ h => State.editApply_refused (State.editOk_eq_false h),
    fun i seq e _ => State.editApply_tabOk i seq e, fun f h b _ => onTable_keeps f h b, fun _ => State.tableAdopt_tabOk,
    fun d _ => State.designItem_tabOk d, fun _ => State.designLoad_tabOk, fun _ => State.tablePrune_keeps,
    fun f h seq _ _ => onTable_takes f h seq, ?_⟩
  · intro s hc hdue h0 h8
    rw [exec_claimRetry_due hc hdue h0 (Nat.le_of_lt h8), if_pos h8]
  · intro s hc hdue h8
    rw [exec_claimRetry_due hc hdue (by omega) (Nat.le_of_eq h8), if_neg (by omega)]
  · intro v s hgo hrole
    rw [exec_tableEdit, State.editWrite_queues hgo hrole]
  · intro v s h
    rw [exec_tableEdit, State.editWrite_still h]
  · intro i seq e s hi hok hown hany
    exact State.editApply_unowned (State.editOk_true hi hok) hown hany
  · intro i seq e s hi hok hown hany hlost
    exact ⟨_, State.editApply_lost (State.editOk_true hi hok) hown hany hlost, rfl⟩
  · intro nid len8 user i e s hrole hsplit hedits hlast hi hlayby hfree hlen hbefore
    exact State.claimRx_first hrole hsplit hedits hlast hi (claimFits_iff.mpr ⟨hlayby, hfree, hlen⟩)
      fun j x hj hx => claimFits_eq_false (hbefore j x hj hx)

end Sys2Proof.Machine
end

section
/-! PROOF. Open Road as it is heard: what a reception, its source heard and a report leave of what a frame is judged by, and the
commands that deliver a class or a kind (07 R207 to R226). -/
namespace Sys2Proof.Machine

/-! ### What a frame heard leaves alone -/

/-- What a port's transmission is told by: whether the port is enabled or dead, and the frame it sends (04 R100, R132). -/
structure PortTx where
  enabled : Bool
  dead : Prop
  txact : Bool
  txEnd : Option Dword
  txFrom : Option Dword

def Port.tx (c : Port) : PortTx := ⟨c.enabled, c.state = .dead, c.txact, c.txEnd, c.txFrom⟩

/-- From s to t only the signals of the lines, the neighbour tables and reports changed: frames were heard. -/
structure State.Heard (s t : State) : Prop where
  eq : t = { s.reportBy t with liu := t.liu, road := { s.road with ports := t.road.ports } }
  tx : ∀ p, (t.port p).tx = (s.port p).tx
  nbrs : ∀ p, t.roadPort p = { s.roadPort p with nbrs := (t.roadPort p).nbrs }

theorem State.Reported.liu {s t : State} (h : s.Reported t) : t.liu = s.liu := (congrArg State.liu h.eq).trans rfl

theorem State.Reported.road {s t : State} (h : s.Reported t) : t.road = s.road := (congrArg State.road h.eq).trans rfl

namespace State.Heard
variable {s t u : State}

theorem refl (s : State) : s.Heard s := ⟨rfl, fun _ => rfl, fun _ => rfl⟩

theorem trans (h : s.Heard t) (h' : t.Heard u) : s.Heard u where
  eq := calc u = { t.reportBy u with liu := u.liu, road := { t.road with ports := u.road.ports } } := h'.eq
    _ = { s.reportBy u with liu := u.liu, road := { s.road with ports := u.road.ports } } := by rw [h.eq]; rfl
  tx p := (h'.tx p).trans (h.tx p)
  nbrs p := (h'.nbrs p).trans (by rw [h.nbrs p])

theorem reported (h : s.Reported t) : s.Heard t where
  eq := by rw [h.liu, h.road]; exact h
  tx p := by rw [State.port, h.liu, State.port]
  nbrs p := by rw [State.roadPort, h.road, State.roadPort]

theorem modPort {f : Port → Port} (p : Fin 4) (s : State) (hf : (f (s.port p)).tx = (s.port p).tx) :
    s.Heard (s.modPort p f) where
  eq := rfl
  tx q := by
    rw [State.port_modPort]
    split
    · subst q
      exact hf
    · rfl
  nbrs _ := rfl

theorem ite {c : Prop} [Decidable c] (ht : s.Heard t) (hu : s.Heard u) : s.Heard (if c then t else u) := by
  split <;> assumption

/-! #### What is judged by it -/

section
variable (h : s.Heard t)
include h

theorem regs : t.regs = s.regs := (congrArg State.regs h.eq).trans rfl
theorem sys : t.sys = s.sys := (congrArg State.sys h.eq).trans rfl
theorem svy : t.svy = s.svy := (congrArg State.svy h.eq).trans rfl
theorem tre : t.tre = s.tre := (congrArg State.tre h.eq).trans rfl
theorem cwy : t.cwy = s.cwy := (congrArg State.cwy h.eq).trans rfl
theorem lineUp : t.lineUp = s.lineUp := (congrArg State.lineUp h.eq).trans rfl
theorem roadListens (f : RxFrame) : t.roadListens f = s.roadListens f :=
  (congrArg (State.roadListens · f) h.eq).trans rfl
theorem isDest (a : RHdr) : t.isDest a = s.isDest a := (congrArg (State.isDest · a) h.eq).trans rfl
theorem isRelay (p : Fin 4) (a : RHdr) : t.isRelay p a = s.isRelay p a := (congrArg (State.isRelay · p a) h.eq).trans rfl
theorem epochOk (a : RHdr) (k : Nat) : t.epochOk a k = s.epochOk a k := (congrArg (State.epochOk · a k) h.eq).trans rfl
theorem dupTest (a : RHdr) : t.dupTest a = s.dupTest a := (congrArg (State.dupTest · a) h.eq).trans rfl
theorem p5Out : t.p5Out = s.p5Out := (congrArg State.p5Out h.eq).trans rfl

theorem portUp (p : Fin 4) : t.portUp p = s.portUp p := by
  have henabled : (t.port p).enabled = (s.port p).enabled := congrArg PortTx.enabled (h.tx p)
  rw [State.portUp, h.lineUp, henabled, State.portUp]

theorem deaf (p : Fin 4) : t.deaf p = s.deaf p := by
  obtain ⟨henabled, hdead, htxact, htxEnd, htxFrom⟩ := PortTx.mk.inj (h.tx p)
  have hbefore : t.before = s.before := funext fun x => by rw [State.before, h.tre, State.before]
  have hreached : t.reached = s.reached := funext fun x => by rw [State.reached, h.tre, State.reached]
  simp only [State.port] at henabled hdead htxact htxEnd htxFrom
  simp only [State.deaf, State.txen, State.txBusy, henabled, ne_eq, hdead, htxact, htxEnd, htxFrom, hbefore, hreached, h.tre]

theorem pausedHere (p : Fin 4) (prio : Nat) : t.pausedHere p prio = s.pausedHere p prio := by
  rw [State.pausedHere, h.nbrs p, State.pausedHere]

end

end State.Heard

/-! ### Reception and the neighbours (04 R105 to R133; 07 R219) -/

theorem Port.erRoll_tx (sec : Nat) (c : Port) : (c.erRoll sec).tx = c.tx := by
  unfold Port.erRoll
  split <;> rfl

theorem Port.snrSteps_tx (snr : List Byte) (k : Nat) (c : Port) : (c.snrSteps snr k).tx = c.tx := by
  induction k generalizing c with
  | zero => rfl
  | succ k ih =>
    have hstep : (c.snrStep snr).tx = c.tx := by
      unfold Port.snrStep
      dsimp only
      split <;> rfl
    exact (ih _).trans hstep

theorem State.portTo_heard {p : Fin 4} {st : PortState} {s : State}
    (hdead : st = .dead ↔ (s.port p).state = .dead) : s.Heard (s.portTo p st) := by
  have hport : s.Heard (s.modPort p fun c => { c with
      state := st, jam := if st = .silent then false else c.jam, kept := c.kept && decide (st = .locked) }) :=
    .modPort p s (by rw [Port.tx, propext hdead, Port.tx])
  exact .ite (.refl s) (hport.trans (.reported (State.raise_reported _ _)))

theorem State.erAdd_heard (p : Fin 4) (k : Nat) (s : State) : s.Heard (s.erAdd p k) := by
  have hroll : s.Heard (s.erRoll p) :=
    (State.Heard.modPort p s (Port.erRoll_tx _ _)).trans (.reported (State.raiseIf_reported _ _ _))
  exact .ite (.refl s) (hroll.trans (.modPort p _ rfl))

theorem State.rxLevel_heard (f : RxFrame) (s : State) : s.Heard (s.rxLevel f) := by
  unfold State.rxLevel
  refine .ite (.refl s) ?_
  exact ((State.Heard.modPort f.port s rfl).trans (.modPort f.port _ rfl)).trans (State.erAdd_heard _ _ _)

theorem State.rxFc_heard (f : RxFrame) (s : State) : s.Heard (s.rxFc f) := by
  have htime : s.Heard (s.modPort f.port fun c => { c with
      tsrx := f.ts - BitVec.ofNat 64 (s.regFld (Reg.LIU_PCFG + 0x1000 * f.port.val) 24 8), jam := false }) :=
    .modPort f.port s rfl
  unfold State.rxFc
  dsimp only
  split
  next hcarrier => exact htime.trans (State.portTo_heard (by rw [hcarrier]; simp))
  next => exact htime

theorem State.rxSnr_heard (f : RxFrame) (s : State) : s.Heard (s.rxSnr f) :=
  .ite (.refl s) (.modPort f.port s (Port.snrSteps_tx _ _ _))

/-- A reception is heard, whatever becomes of its frame. -/
theorem State.rxFx_heard (f : RxFrame) (s : State) : s.Heard (s.rxFx f) := by
  have hlevel := State.rxLevel_heard f s
  have hfc := hlevel.trans (State.rxFc_heard f _)
  have hsnr := hfc.trans (State.rxSnr_heard f _)
  have hcount {t : State} (h : s.Heard t) (p i : Nat) : s.Heard (t.count1 p i) := h.trans (.reported (State.count1_reported p i t))
  unfold State.rxFx
  dsimp only
  split
  · exact hlevel
  · exact .ite (hcount hfc _ _) (hcount hlevel _ _)
  · exact (hcount hfc _ _).trans (.reported (State.raise_reported _ _))
  · exact hcount hsnr _ _
  · exact hcount hsnr _ _
  · exact hsnr.trans (.reported (State.rxCount_reported f _))

theorem State.roadPort_modRoad (p q : Fin 4) (f : RoadPort → RoadPort) (s : State) :
    (s.modRoad p f).roadPort q = if q = p then f (s.roadPort p) else s.roadPort q := Vector.get_set _ _ _ _

theorem State.nbrHeard_heard (p : Fin 4) (src : BitVec 6) (s : State) : s.Heard (s.nbrHeard p src) := by
  have htable (l : List (BitVec 6 × Dword)) : s.Heard (s.modRoad p fun r => { r with nbrs := l }) := {
    eq := rfl
    tx _ := rfl
    nbrs q := by
      rw [State.roadPort_modRoad]
      split
      · subst q
        rfl
      · rfl }
  exact .ite (.refl s) ((htable _).trans (.reported (State.raiseIf_reported _ _ _)))

theorem State.roadHeard_heard (f : RxFrame) (s : State) : s.Heard (s.roadHeard f) :=
  (State.rxFx_heard f s).trans (State.nbrHeard_heard _ _ _)

/-! ### A good frame, by whom it is for (07 R212 to R216, R226) -/

section
variable {s : State} {f : RxFrame} {d : Deliver}

theorem State.roadRx_unfit (hgood : s.rxClass f = .good)
    (h : fcType f.fc ≠ .road ∨ d.fits s (RHdr.parse f.body) f.body = false) : s.roadRx f d = s := if_pos ⟨hgood, h⟩

/-- A frame that hears is judged by its header. -/
theorem State.roadRx_hears (h : s.HearsFrame f d) : s.roadRx f d = (s.rxFx f).roadGood f d := by
  obtain ⟨hgood, htype, hparity, hup, hnoor, hfits, -⟩ := h
  have hlistens : (s.rxFx f).roadListens f = true := by
    rw [(State.rxFx_heard f s).roadListens, State.roadListens, hup, hnoor, htype]
    rfl
  simp [State.roadRx, hgood, htype, hparity, hfits, hlistens]

theorem State.roadGood_hears (h : s.HearsFrame f d) :
    (s.rxFx f).roadGood f d =
      if (s.isDest (RHdr.parse f.body) || s.isRelay f.port (RHdr.parse f.body)) && s.deaf f.port then s.rxFx f
      else if (RHdr.parse f.body).bcast then (s.roadHeard f).roadBcast f d (RHdr.parse f.body)
      else if s.isDest (RHdr.parse f.body) || s.isRelay f.port (RHdr.parse f.body) then
        (s.roadHeard f).roadUnicast f d (RHdr.parse f.body)
      else s.roadHeard f := by
  obtain ⟨-, -, -, -, -, -, hcls, hlen, hplen, hsrcv, hepoch⟩ := h
  have hrx := State.rxFx_heard f s
  have hpass : ¬ ((RHdr.parse f.body).cls = 5 ∨ f.body.length ≠ 12 + (RHdr.parse f.body).plen ∨
      2036 < (RHdr.parse f.body).plen) := by omega
  simp only [State.roadGood, if_neg (show ¬ 6 ≤ (RHdr.parse f.body).cls by omega), if_neg hpass, hsrcv, hrx.epochOk, hepoch,
    hrx.isDest, hrx.isRelay, hrx.deaf, Bool.not_true, Bool.false_eq_true, if_false]
  rfl

theorem State.isDest_of_bcast {a : RHdr} (h : a.bcast = true) : s.isDest a = false := by simp [State.isDest, h]

theorem State.isRelay_of_bcast {a : RHdr} (p : Fin 4) (h : a.bcast = true) : s.isRelay p a = false := by
  simp [State.isRelay, h]

variable (h : s.HearsFrame f d)
include h

theorem State.roadRx_bcast (hb : (RHdr.parse f.body).bcast = true) :
    s.roadRx f d = (s.roadHeard f).roadBcast f d (RHdr.parse f.body) := by
  simp [State.roadRx_hears h, State.roadGood_hears h, State.isDest_of_bcast hb, State.isRelay_of_bcast f.port hb, hb]

/-- The one that acknowledges a frame takes it as not received while its port transmits, and in FREE (07 R212). -/
theorem State.roadRx_deaf (hmine : s.isDest (RHdr.parse f.body) = true ∨ s.isRelay f.port (RHdr.parse f.body) = true)
    (hdeaf : s.deaf f.port = true) : s.roadRx f d = s.rxFx f := by
  rw [State.roadRx_hears h, State.roadGood_hears h, if_pos (by simpa [hdeaf] using hmine)]

theorem State.roadRx_unicast (hmine : s.isDest (RHdr.parse f.body) = true ∨ s.isRelay f.port (RHdr.parse f.body) = true)
    (hdeaf : s.deaf f.port = false) : s.roadRx f d = (s.roadHeard f).roadUnicast f d (RHdr.parse f.body) := by
  have hb : (RHdr.parse f.body).bcast = false := Bool.eq_false_iff.mpr fun hb => by
    simp [State.isDest_of_bcast hb, State.isRelay_of_bcast f.port hb] at hmine
  rw [State.roadRx_hears h, State.roadGood_hears h, if_neg (by simp [hdeaf]), if_neg (by simp [hb]), if_pos (by simpa using hmine)]

/-- A frame for another that this node does not relay only has its source heard. -/
theorem State.roadRx_passing (hb : (RHdr.parse f.body).bcast = false) (hdest : s.isDest (RHdr.parse f.body) = false)
    (hrelay : s.isRelay f.port (RHdr.parse f.body) = false) : s.roadRx f d = s.roadHeard f := by
  simp [State.roadRx_hears h, State.roadGood_hears h, hb, hdest, hrelay]

end

end Sys2Proof.Machine
end

section
/-! PROOF. Reception of Open Road frames: the duplicate test, delivery and the answer, for a unicast and for a broadcast (07 R212,
R216, R218, R225). -/
namespace Sys2Proof.Machine

theorem exec_of_roadCommand {c : RxFrame → Instr} {d : Deliver} (h : RoadCommand c d) (f : RxFrame) (s : State) :
    exec (c f) s = .next (s.roadRx f d) := by
  simp only [RoadCommand, List.mem_cons, Prod.mk.injEq, List.not_mem_nil, or_false] at h
  rcases h with ⟨rfl, rfl⟩ | ⟨rfl, rfl⟩ | ⟨rfl, rfl⟩ | ⟨rfl, rfl⟩ | ⟨rfl, rfl⟩ | ⟨rfl, rfl⟩ | ⟨rfl, rfl⟩ | ⟨rfl, rfl⟩ |
    ⟨rfl, rfl⟩ | ⟨rfl, rfl⟩ | ⟨rfl, rfl⟩ | ⟨rfl, rfl⟩ | ⟨rfl, rfl⟩ | ⟨rfl, rfl⟩ | ⟨rfl, rfl⟩ | ⟨rfl, rfl⟩ | ⟨rfl, rfl⟩ |
    ⟨rfl, rfl⟩ | ⟨rfl, rfl⟩ | ⟨rfl, rfl⟩ <;> rfl

section
variable {f : RxFrame} {d : Deliver} {a : RHdr} {w : DupWin} {t : State}

/-! ### A unicast (07 R212, R218, R225) -/

theorem State.roadUnicast_duplicate (h : t.dupTest a = .duplicate) :
    t.roadUnicast f d a = (t.count1 4 43).sendAck f a 2 := by
  rw [State.roadUnicast, h]

theorem State.roadUnicast_stale (h : t.dupTest a = .stale) : t.roadUnicast f d a = (t.count1 4 44).sendAck f a 4 := by
  rw [State.roadUnicast, h]

theorem State.roadUnicast_here (h : t.dupTest a = .accept w) (hdest : t.isDest a = true) :
    t.roadUnicast f d a = t.roadHere f d a := by
  rw [State.roadUnicast, h]
  exact if_pos hdest

theorem State.roadUnicast_relay (h : t.dupTest a = .accept w) (hdest : t.isDest a = false) :
    t.roadUnicast f d a = t.roadOn f a := by
  rw [State.roadUnicast, h]
  exact if_neg (Bool.eq_false_iff.mp hdest)

theorem State.roadHere_paused (h : t.pausedHere f.port a.prio = true) : t.roadHere f d a = t.sendAck f a 1 := by
  simp [State.roadHere, h]

theorem State.roadHere_open (h : t.pausedHere f.port a.prio = false) : t.roadHere f d a =
    if d.code t a f.body = 0 then (d.act f a (t.dupAccept a)).sendAck f a 0 else t.sendAck f a (d.code t a f.body) := by
  simp [State.roadHere, h]

/-! ### A broadcast (07 R216, R225; 08 R236) -/

theorem State.roadBcast_duplicate (h : t.dupTest a = .duplicate) : t.roadBcast f d a = t.count1 4 43 := by
  rw [State.roadBcast, h]

theorem State.roadBcast_stale (h : t.dupTest a = .stale) : t.roadBcast f d a = t.count1 4 44 := by
  rw [State.roadBcast, h]

theorem State.roadBcast_delivered (h : t.dupTest a = .accept w) (hcode : d.code t a f.body = 0) :
    t.roadBcast f d a = (d.act f a (t.dupAccept a)).bcastForward f a 0 := by
  rw [State.roadBcast, h]
  exact if_pos hcode

theorem State.bcastForward_none (acct : BitVec 2) (h : t.bcastPort f a = none) : t.bcastForward f a acct = t := by
  rw [State.bcastForward, h]

theorem State.Reported.bcastPort {u : State} (h : t.Reported u) : u.bcastPort f a = t.bcastPort f a :=
  (congrArg (State.bcastPort · f a) h.eq).trans rfl

/-- A broadcast without room in its ring that does not go on is dropped, and counted as that only. -/
theorem State.roadBcast_dropped (h : t.dupTest a = .accept w) (hcode : d.code t a f.body = 1) (hport : t.bcastPort f a = none) :
    t.roadBcast f d a = t.count1 4 38 := by
  have hforward : (t.count1 4 38).bcastForward f a 2 = t.count1 4 38 :=
    State.bcastForward_none 2 ((State.count1_reported 4 38 t).bcastPort.trans hport)
  simpa [State.roadBcast, h, hcode, hport, State.when] using hforward

end

/-- Settles O18: the commands are one reception, which leaves alone what a frame is judged by, so each answer is that of the
duplicate test and of the delivery's code. -/
theorem roadReceives : Obligations.RoadReceives := by
  unfold Obligations.RoadReceives
  intro c d hc f s h t
  have hheard := State.roadHeard_heard f s
  refine ⟨fun hgood hunfit => ?_, fun hears _ hdest hdeaf => ?_, fun hears _ hdest hdeaf => ?_, fun hears hbcast => ?_⟩
  · rw [exec_of_roadCommand hc, State.roadRx_unfit hgood hunfit]
  · rw [exec_of_roadCommand hc, State.roadRx_deaf hears (.inl hdest) hdeaf]
  · have hdest' : t.isDest h = true := (hheard.isDest h).trans hdest
    have hpaused' := hheard.pausedHere f.port h.prio
    rw [exec_of_roadCommand hc, State.roadRx_unicast hears (.inl hdest) hdeaf]
    refine ⟨fun w hdup hpaused hcode => ?_, fun w hdup hpaused hcode => ?_, fun w hdup hpaused => ?_, fun hdup => ?_,
      fun hdup => ?_⟩ <;> rw [← hheard.dupTest] at hdup
    · rw [State.roadUnicast_here hdup hdest', State.roadHere_open (hpaused'.trans hpaused), if_pos hcode]
    · rw [State.roadUnicast_here hdup hdest', State.roadHere_open (hpaused'.trans hpaused), if_neg hcode]
    · rw [State.roadUnicast_here hdup hdest', State.roadHere_paused (hpaused'.trans hpaused)]
    · rw [State.roadUnicast_duplicate hdup]
    · rw [State.roadUnicast_stale hdup]
  · rw [exec_of_roadCommand hc, State.roadRx_bcast hears hbcast]
    refine ⟨fun w hdup hcode => ?_, fun w hdup hcode hport => ?_, fun hdup => ?_, fun hdup => ?_⟩ <;>
      rw [← hheard.dupTest] at hdup
    · rw [State.roadBcast_delivered hdup hcode]
    · rw [State.roadBcast_dropped hdup hcode hport]
    · rw [State.roadBcast_duplicate hdup]
    · rw [State.roadBcast_stale hdup]

end Sys2Proof.Machine
end

section
/-! PROOF. Forwarding: a frame relayed, a broadcast that goes on, the WRITE frames of the Causeway and a foreign preamble (07 R209,
R215 to R218; 14 R389). -/
namespace Sys2Proof.Machine

section
variable {f : RxFrame} {a : RHdr} {p : Fin 4} {s : State}

/-! ### A unicast on its way (07 R215, R217, R218, Table 7.5) -/

theorem exec_roadTransit (f : RxFrame) (s : State) : exec (.roadTransit f) s = .next (s.roadRx f deliverAny) := rfl

theorem State.roadOn_hardware (hsplit : s.sys.splitAct.getLsbD 3 = false) : s.roadOn f a =
    if s.transitCode f.port a = 0 then (s.transit f a).sendAck f a 0 else s.sendAck f a (s.transitCode f.port a) := by
  simp only [State.roadOn, State.raiseIf, State.when, hsplit, Bool.and_false, Bool.false_and, Bool.false_eq_true, if_false]

theorem State.transitCode_unreachable (h : s.present a.dst = false ∨ a.hops = 0 ∨ s.portFor a.dst = none) :
    s.transitCode p a = 3 := by
  refine if_pos ?_
  rcases h with h | h | h <;> simp [h]

theorem State.transitCode_paused (hpresent : s.present a.dst = true) (hhops : a.hops ≠ 0)
    (hport : (s.portFor a.dst).isSome = true) (hpaused : s.pausedHere p a.prio = true) : s.transitCode p a = 1 := by
  have hreached : ¬ (!s.present a.dst || decide (a.hops = 0) || (s.portFor a.dst).isNone) = true := by
    simp [hpresent, hhops, Option.isSome_iff_ne_none.mp hport]
  exact (if_neg hreached).trans (if_pos hpaused)

theorem State.transit_forward (hsplit : s.sys.splitAct.getLsbD 3 = false) (hport : s.portFor a.dst = some p) :
    s.transit f a = (s.dupMark a).storeForward f a p 1 := by
  rw [State.transit, if_neg (Bool.eq_false_iff.mp hsplit), hport]

/-! ### A broadcast on its way (07 R216) -/

theorem State.bcastForward_onward (acct : BitVec 2) (hon : s.bcastOnward f a = true) (hcells : s.cellsFree f.body.length = true)
    (hport : ((if s.isTailPort f.port then s.headPorts else s.tailPorts).filter s.usable).head? = some p) :
    s.bcastForward f a acct = s.storeForward f a p acct := by
  have hsome : s.bcastPort f a = some p := (if_pos (by rw [hon, hcells]; rfl)).trans hport
  rw [State.bcastForward, hsome]

/-! ### WRITE frames of the Causeway (14 R389; logs 72, 192) -/

theorem exec_causewayWrite_frame (f : RxFrame) (s : State) :
    exec (.causewayWrite (some f)) s = .next (s.roadRx f deliverCwyWrite) := rfl

/-- What a WRITE frame is answered with, and what holding it does (14 R389). -/
theorem State.roadHere_cwyWrite (hpaused : s.pausedHere f.port a.prio = false) :
    let u := (s.dupAccept a).count1 4 17
    s.roadHere f deliverCwyWrite a = if s.p5Out = true then s.sendAck f a 3
      else if 4 ≤ s.cwy.farq.length then s.sendAck f a 1
      else State.sendAck f a 0 { u with cwy.farq := u.cwy.farq ++ [f.body] } := by
  rw [State.roadHere_open hpaused]
  by_cases hout : s.p5Out = true
  · simp [deliverCwyWrite, hout]
  · by_cases hfull : 4 ≤ s.cwy.farq.length <;> simp [deliverCwyWrite, hout, hfull]

theorem exec_causewayWrite_serves {body : List Byte} {rest : List (List Byte)} (hc : s.coreRuns = true)
    (hq : s.cwy.farq = body :: rest) : exec (.causewayWrite none) s = .next ((
      let h := RHdr.parse body
      let r := State.farSide (roadPayload body) { s with cwy.farq := rest }
      ((r.1.bumpSeq).sendUnicast h.src (mkQ (r.1.cwyHdr h.prio h.src h.chan r.2) none none 0) : State)).txPosted .causeway) := by
  refine congrArg Host.Outcome.next ((State.when_true _ hc).trans ?_)
  rw [State.farServe, hq]

/-! ### A foreign preamble (07 R209) -/

/-- One that is too weak, or that hardly overlaps the listening interval, is not detected. -/
theorem foreignHeard_missed (c : Fin 4 × Fin 4) {x : ForeignP} (h : x.db < 10 ∨ 25600 ≤ x.atNs ∨ x.atNs ≤ -16000) :
    foreignHeard c x = false := by
  have hmiss : ¬ (6400 ≤ min (3 * (symbolNs : Int)) (x.atNs + 2 * symbolNs) - max 0 x.atNs ∧ 10 ≤ x.db) := by
    have hsym : (symbolNs : Int) = 8000 := rfl
    omega
  simp only [foreignHeard, Bool.and_eq_false_iff, decide_eq_false_iff_not]
  by_cases hdb : 10 ≤ x.db
  · exact .inl (.inl fun htotal => hmiss ⟨htotal, hdb⟩)
  · exact .inr hdb

end

/-- Settles O19. WRITE frames held for the far side, and the command without a frame that works the oldest one off, are the
model's own (logs 72, 192). -/
theorem roadForwards : Obligations.RoadForwards := by
  unfold Obligations.RoadForwards
  refine ⟨fun f w s => ?_, fun _ _ _ h => State.transitCode_unreachable h,
    fun _ _ _ hpresent hhops hport hpaused => State.transitCode_paused hpresent hhops hport hpaused,
    fun _ _ _ _ hsplit hport => State.transit_forward hsplit hport,
    fun _ _ _ acct _ hon hcells hport => State.bcastForward_onward acct hon hcells hport, fun f s => ?_, fun f w s => ?_,
    fun _ _ _ hc hq => exec_causewayWrite_serves hc hq, fun c _ h => foreignHeard_missed c h⟩
  · intro h t hears hdest hrelay hdeaf hdup hsplit
    have hheard := State.roadHeard_heard f s
    rw [exec_roadTransit, State.roadRx_unicast hears (.inr hrelay) hdeaf,
      State.roadUnicast_relay ((hheard.dupTest h).trans hdup) ((hheard.isDest h).trans hdest),
      State.roadOn_hardware (hheard.sys ▸ hsplit)]
  · intro h hears hbcast hdest hrelay
    rw [exec_roadTransit, State.roadRx_passing hears hbcast hdest hrelay]
  · intro h t u hears hdest hdeaf hpaused hdup
    have hheard := State.roadHeard_heard f s
    rw [exec_causewayWrite_frame, State.roadRx_unicast hears (.inl hdest) hdeaf,
      State.roadUnicast_here ((hheard.dupTest h).trans hdup) ((hheard.isDest h).trans hdest),
      State.roadHere_cwyWrite ((hheard.pausedHere f.port h.prio).trans hpaused), hheard.p5Out, hheard.cwy]

end Sys2Proof.Machine
end

section
/-! PROOF. Attempts of Open Road: the start of a frame, its last symbol, its acknowledgement, and one that is lost (07 R204 to
R214, R224, Tables 7.4, 7.5). -/
namespace Sys2Proof.Machine

/-! ### The start (07 R204, R205, R209, R211, R214, R217) -/

/-- A head frame whose count is over leaves: by its port, by the one it has now, or not at all (07 R214, R217). -/
def State.roadLeave (p : Fin 4) (q : QFrame) (foreign : Option ForeignP) (s : State) : State :=
  let t := (s.roadTake p q).modRoad p fun r => { r with st := .idle, count := 0 }
  if s.usable p = false then
    match s.portNow p q with
    | none => (t.frameLost q).roadKick p
    | some r => (t.roadPut r q).roadKick p
  else if s.cellsBad q ≠ [] then t.parityDrop p q
  else t.roadBegin p q foreign

section
variable {p : Fin 4} {q : QFrame} {slots : List (List (Option Nat))} {foreign : Option ForeignP} {s : State}

theorem exec_roadFrameStart (p : Fin 4) (slots : List (List (Option Nat))) (foreign : Option ForeignP) (s : State) :
    exec (.roadFrameStart p slots foreign) s = .next (s.roadStart p slots foreign) := rfl

section
variable (hst : (s.roadPort p).st = .count) (hhead : s.roadHead p = some q) (hopen : s.road.open_ = true)
  (huntil : s.before s.svy.until_ = false) (hsync : s.tre.sync ≠ .free) (hup : s.roadUp = true) (hgrid : s.onGrid = true)
include hst hhead hopen huntil hsync hup hgrid

/-- At a slot boundary a frame that may not start yet keeps what is left of its count. -/
theorem State.roadStart_counts (hwait : (s.roadPort p).count - idleSlots slots ≠ 0 ∨
      (s.tre.sync = .muted ∧ threeIdle slots = false) ∨ s.roadRoom p (s.roadTmi p q) q.body.length = false) :
    s.roadStart p slots foreign =
      s.modRoad p fun r => { r with count := (s.roadPort p).count - idleSlots slots } := by
  have hnow : (!s.road.open_ || s.before s.svy.until_ || decide (s.tre.sync = .free) || !s.roadUp || !s.onGrid) = false := by
    simp [hopen, huntil, hsync, hup, hgrid]
  have hstay : (decide ((s.roadPort p).count - idleSlots slots ≠ 0) || (decide (s.tre.sync = .muted) && !threeIdle slots) ||
      !s.roadRoom p (s.roadTmi p q) q.body.length) = true := by
    rcases hwait with h | ⟨hmuted, hidle⟩ | h
    · simp only [decide_eq_true h, Bool.true_or]
    · simp [hmuted, hidle]
    · simp [h]
  simp only [State.roadStart, hst, hhead, hnow, hstay, Bool.false_eq_true, if_false, if_true]

theorem State.roadStart_leaves (hleft : (s.roadPort p).count - idleSlots slots = 0)
    (hidle : s.tre.sync ≠ .muted ∨ threeIdle slots = true) (hfits : s.roadRoom p (s.roadTmi p q) q.body.length = true) :
    s.roadStart p slots foreign = s.roadLeave p q foreign := by
  have hnow : (!s.road.open_ || s.before s.svy.until_ || decide (s.tre.sync = .free) || !s.roadUp || !s.onGrid) = false := by
    simp [hopen, huntil, hsync, hup, hgrid]
  have hgo : (decide ((s.roadPort p).count - idleSlots slots ≠ 0) || (decide (s.tre.sync = .muted) && !threeIdle slots) ||
      !s.roadRoom p (s.roadTmi p q) q.body.length) = false := by
    rcases hidle with h | h <;> simp [hleft, hfits, h]
  simp only [State.roadStart, hst, hhead, hnow, hgo, Bool.false_eq_true, if_false, State.roadLeave, ne_eq,
    ← List.isEmpty_iff, Bool.not_eq_true', Bool.not_eq_true] <;> rfl

end

theorem State.roadLeave_lost (husable : s.usable p = false) (hport : s.portNow p q = none) : s.roadLeave p q foreign =
    (((s.roadTake p q).modRoad p fun r => { r with st := .idle, count := 0 }).frameLost q).roadKick p := by
  simp only [State.roadLeave, husable, hport, if_true]

theorem State.roadLeave_moves {r : Fin 4} (husable : s.usable p = false) (hport : s.portNow p q = some r) :
    s.roadLeave p q foreign =
      (((s.roadTake p q).modRoad p fun r => { r with st := .idle, count := 0 }).roadPut r q).roadKick p := by
  simp only [State.roadLeave, husable, hport, if_true]

theorem State.roadLeave_parity (husable : s.usable p = true) (hbad : s.cellsBad q ≠ []) : s.roadLeave p q foreign =
    ((s.roadTake p q).modRoad p fun r => { r with st := .idle, count := 0 }).parityDrop p q := by
  simp [State.roadLeave, husable, hbad]

theorem State.roadLeave_begins (husable : s.usable p = true) (hgood : s.cellsBad q = []) : s.roadLeave p q foreign =
    ((s.roadTake p q).modRoad p fun r => { r with st := .idle, count := 0 }).roadBegin p q foreign := by
  simp [State.roadLeave, husable, hgood]

/-! ### The last symbol (07 Table 7.4) -/

theorem exec_lastSymbolSent (hst : (s.roadPort p).st = .pre ∨ (s.roadPort p).st = .send)
    (hcur : (s.roadPort p).cur = some q) : exec (.lastSymbolSent p) s = .next (
      let t := (s.modPort p fun c => { c with txact := false }).txCount p .road q.body
      if (RHdr.parse q.body).bcast = true then t.attemptEnd p q 0
      else t.modRoad p fun r => { r with st := .ackwait, endAt := s.tre.time }) := by
  have hbusy : (decide ((s.roadPort p).st = .pre) || decide ((s.roadPort p).st = .send)) = true := by simpa using hst
  show (.next (s.roadSent p) : Result) = _
  simp only [State.roadSent, hbusy, hcur]

/-! ### An attempt that fails (07 R208, R213) -/

theorem State.Reported.attempts {t : State} (h : s.Reported t) : t.attempts = s.attempts :=
  (congrArg State.attempts h.eq).trans rfl

theorem State.attemptFail_again (answered : Bool) (hepoch : (RHdr.parse q.body).epoch = s.svy.epoch)
    (hmore : q.n + 1 < s.attempts) : s.attemptFail p q answered = (s.modRoad p fun r => { r with
      st := .idle, cur := none
      queue := { q with n := q.n + 1, silent := if 2 ≤ q.silent then q.silent else if answered then 0 else q.silent + 1 } ::
        r.queue }).roadKick p := by
  simp only [State.attemptFail, hepoch, ne_eq, not_true_eq_false, if_false, if_neg (Nat.not_le.mpr hmore)]

theorem State.attemptFail_limit (answered : Bool) (hepoch : (RHdr.parse q.body).epoch = s.svy.epoch)
    (hlimit : s.attempts ≤ q.n + 1) :
    s.attemptFail p q answered = ((s.count1 p.val 42).raise 129).attemptEnd p q 1 := by
  simp only [State.attemptFail, hepoch, ne_eq, not_true_eq_false, if_false, if_pos hlimit]

theorem exec_ackTimeout_awaited (hc : s.coreRuns = true) (hst : (s.roadPort p).st = .ackwait)
    (hcur : (s.roadPort p).cur = some q) : exec (.ackTimeout p) s = .next ((s.count1 p.val 41).attemptFail p q false) := by
  refine congrArg Host.Outcome.next ((State.when_true _ hc).trans ?_)
  simp only [State.ackLost, hst, hcur]

/-! ### The acknowledgement (07 R212, R213, R219, Table 7.5) -/

theorem ackInTime_iff (endAt d : Dword) : ackInTime endAt (endAt + d) = true ↔ 8000 ≤ d.toNat ∧ d.toNat ≤ 16000 := by
  have hsince : endAt + d - (endAt + 8000) = d - 8000 := by bv_omega
  simp only [ackInTime, hsince, decide_eq_true_eq]
  bv_omega

/-- An acknowledge frame awaited: in its window, from the node its frame went to, and of this epoch. -/
structure State.AckFits (s : State) (p : Fin 4) (q : QFrame) (ts : Dword) (a : RHdr) : Prop where
  st : (s.roadPort p).st = .ackwait
  cur : (s.roadPort p).cur = some q
  inTime : ackInTime (s.roadPort p).endAt ts = true
  src : a.src = (RHdr.parse q.body).src
  seq : a.seq = (RHdr.parse q.body).seq
  epoch : a.epoch = s.svy.epoch
  own : (RHdr.parse q.body).epoch = s.svy.epoch

theorem State.Heard.ackFits {t : State} {ts : Dword} {a : RHdr} (hheard : s.Heard t) (h : s.AckFits p q ts a) :
    t.AckFits p q ts a := by
  obtain ⟨hst, hcur, hin, hsrc, hseq, hepoch, hown⟩ := h
  refine ⟨?_, ?_, ?_, hsrc, hseq, hheard.svy ▸ hepoch, hheard.svy ▸ hown⟩ <;> rw [hheard.nbrs p] <;> assumption

/-- What becomes of an attempt that is answered with a code (07 R212, R213, Table 7.5). -/
def State.attemptAnswered (p : Fin 4) (q : QFrame) (code : Nat) (s : State) : State :=
  match code with
  | 0 | 2 => s.attemptEnd p q 0
  | 1 => s.attemptFail p q true
  | 3 => (((s.count1 4 36).count1 p.val 42).raise 130).attemptEnd p q 2
  | 4 => ((s.count1 p.val 42).raise 130).attemptEnd p q 1
  | _ => s

theorem State.roadAck_fits {ts : Dword} {a : RHdr} (h : s.AckFits p q ts a) :
    s.roadAck p ts a = s.attemptAnswered p q a.chan := by
  obtain ⟨hst, hcur, hin, hsrc, hseq, hepoch, hown⟩ := h
  simp only [State.roadAck, hst, hcur, hin, hsrc, hseq, hepoch, hown]
  exact if_neg (by simp)

end

section
variable {f : RxFrame} {s : State}

theorem exec_acknowledge (f : RxFrame) (s : State) : exec (.acknowledge f) s = .next (s.ackRx f) := rfl

/-- The source of a good acknowledge frame is heard, and the attempt that waits for it has its answer (log 218). -/
theorem State.ackRx_good (hgood : s.rxClass f = .good) (htype : fcType f.fc = .road) (hcls : (RHdr.parse f.body).cls = 5)
    (hparity : f.parity = false) (hup : s.portUp f.port = true) (hepoch : (RHdr.parse f.body).epoch = s.svy.epoch)
    (hcode : (RHdr.parse f.body).chan ≤ 4) : s.ackRx f =
      (if s.roadListens f = true ∧ (RHdr.parse f.body).srcv = true then s.roadHeard f else s.rxFx f).roadAck f.port f.ts
        (RHdr.parse f.body) := by
  have hrx := State.rxFx_heard f s
  have hsource : (s.rxFx f).when ((s.rxFx f).roadListens f && (RHdr.parse f.body).srcv &&
      decide ((RHdr.parse f.body).epoch = (s.rxFx f).svy.epoch) && decide ((RHdr.parse f.body).chan ≤ 4))
        (State.nbrHeard f.port (RHdr.parse f.body).src) =
      if s.roadListens f = true ∧ (RHdr.parse f.body).srcv = true then s.roadHeard f else s.rxFx f := by
    simp only [State.when, hrx.roadListens, hrx.svy, hepoch, hcode, decide_true, Bool.and_true, Bool.and_eq_true]
    rfl
  have hpass : s.ackRx f = (s.rxFx f).ackGood f (RHdr.parse f.body) := by
    simp only [State.ackRx, hgood, htype, hcls, hparity, ne_eq, not_true_eq_false, or_self, Bool.false_eq_true, if_false]
  rw [hpass, ← hsource]
  exact State.when_true _ ((hrx.portUp _).trans hup)

/-- A damaged one goes the way of every bad frame (07 R224). -/
theorem State.ackRx_bad (hlistens : s.roadListens f = true) (hbad : s.rxClass f = .badCrc ∨ s.rxClass f = .erased ∨
      (s.rxClass f = .good ∧ (RHdr.parse f.body).cls = 5 ∧ f.parity = true)) : s.ackRx f = (s.rxFx f).badFrame f := by
  have hlistens' := ((State.rxFx_heard f s).roadListens f).trans hlistens
  have htype : fcType f.fc = .road := by
    simp only [State.roadListens, Bool.and_eq_true, decide_eq_true_eq] at hlistens
    exact hlistens.2
  rcases hbad with hclass | hclass | ⟨hclass, hcls, hparity⟩
  · simp only [State.ackRx, hclass, State.when, hlistens', if_true]
  · simp only [State.ackRx, hclass, State.when, hlistens', if_true]
  · simp [State.ackRx, hclass, htype, hcls, hparity, State.when, hlistens']

end

/-- Settles O20: a start, a last symbol, an answer and none, by the branches of their commands. That a valid acknowledge frame
has its source heard is log 218, what a LOCAL or broadcast frame does on a port that is not usable log 161. -/
theorem roadAttempts : Obligations.RoadAttempts := by
  unfold Obligations.RoadAttempts
  refine ⟨fun p slots foreign q s => ?_, fun p q s hst hcur hbcast => ?_, fun p q s hst hcur hbcast => ?_, fun f q s => ?_,
    fun f s hlistens hbad => ?_, ackInTime_iff, fun p q s hc hst hcur hepoch => ?_⟩
  · intro left fits t hst hhead hopen huntil hsync hup hgrid
    rw [exec_roadFrameStart]
    refine ⟨fun hwait => ?_, fun hleft hidle hfits => ?_⟩
    · rw [State.roadStart_counts hst hhead hopen huntil hsync hup hgrid hwait]
    · rw [State.roadStart_leaves hst hhead hopen huntil hsync hup hgrid hleft hidle hfits]
      refine ⟨fun husable hport => ?_, fun r husable hport => ?_, fun husable hbad => ?_, fun husable hgood => ?_⟩
      · rw [State.roadLeave_lost husable hport]
      · rw [State.roadLeave_moves husable hport]
      · rw [State.roadLeave_parity husable hbad]
      · rw [State.roadLeave_begins husable hgood]
        exact ⟨_, rfl⟩
  · rw [exec_lastSymbolSent hst hcur, if_pos hbcast]
  · rw [exec_lastSymbolSent hst hcur, if_neg (by simp [hbcast])]
  · intro a t hgood htype hcls hparity hup hst hcur hin hsrc hseq hepoch hown
    have hheard : s.Heard t := .ite (State.roadHeard_heard f s) (State.rxFx_heard f s)
    have hfits : t.AckFits f.port q f.ts a := hheard.ackFits ⟨hst, hcur, hin, hsrc, hseq, hepoch, hown⟩
    have hanswer {code : Nat} (hcode : a.chan = code) (hle : code ≤ 4) :
        exec (.acknowledge f) s = .next (t.attemptAnswered f.port q code) := by
      rw [exec_acknowledge, State.ackRx_good hgood htype hcls hparity hup hepoch (hcode ▸ hle), ← hcode]
      exact congrArg _ (State.roadAck_fits hfits)
    exact ⟨fun hcode => hcode.elim (hanswer · (by omega)) (hanswer · (by omega)), (hanswer · (by omega)),
      (hanswer · (by omega)), (hanswer · (by omega))⟩
  · rw [exec_acknowledge, State.ackRx_bad hlistens hbad]
  · have hreport := State.count1_reported p.val 41 s
    have hepoch' : (RHdr.parse q.body).epoch = (s.count1 p.val 41).svy.epoch := by rw [hreport.svy, hepoch]
    rw [exec_ackTimeout_awaited hc hst hcur, ← hreport.attempts]
    exact ⟨fun hmore => congrArg _ (State.attemptFail_again false hepoch' hmore),
      fun hlimit => congrArg _ (State.attemptFail_limit false hepoch' hlimit)⟩

end Sys2Proof.Machine
end

section
/-! PROOF. Single bits of a word, set, cleared or put. -/
namespace Sys2Proof.Machine

section
variable {w i : Nat} (x : BitVec w) (j : Nat)

theorem getLsbD_two_pow (hi : i < w) : (BitVec.ofNat w (2 ^ i)).getLsbD j = decide (j = i) := by
  rw [BitVec.getLsbD_ofNat, Nat.testBit_two_pow]
  by_cases h : j = i
  · subst h
    simp [hi]
  · simp [h, Ne.symm h]

theorem getLsbD_setBit (hi : i < w) : (setBit x i).getLsbD j = if j = i then true else x.getLsbD j := by
  rw [setBit, BitVec.getLsbD_or, getLsbD_two_pow j hi]
  by_cases h : j = i
  · simp only [h, decide_true, Bool.or_true, if_true]
  · simp only [h, decide_false, Bool.or_false, if_false]

theorem getLsbD_clrBit (hi : i < w) : (clrBit x i).getLsbD j = if j = i then false else x.getLsbD j := by
  rw [clrBit, BitVec.getLsbD_and, BitVec.getLsbD_not, getLsbD_two_pow j hi]
  by_cases h : j = i
  · simp only [h, decide_true, Bool.not_true, Bool.and_false, if_true]
  · rw [decide_eq_false h, if_neg h]
    cases hx : x.getLsbD j
    · rfl
    · rw [decide_eq_true (BitVec.lt_of_getLsbD hx)]
      rfl

theorem getLsbD_putBit (b : Bool) (hi : i < w) : (putBit x i b).getLsbD j = if j = i then b else x.getLsbD j := by
  cases b
  · exact getLsbD_clrBit x j hi
  · exact getLsbD_setBit x j hi

end

end Sys2Proof.Machine
end

section
/-! PROOF. The address table and the switching of a frame from an E port (07 R231, R232). -/
namespace Sys2Proof.Machine

/-! ### The numbers below n, and the two E ports -/

theorem map_val_filterMap_lt {n : Nat} (l : List Nat) (hl : ∀ i ∈ l, i < n) :
    (l.filterMap fun i => if h : i < n then some (⟨i, h⟩ : Fin n) else none).map Fin.val = l := by
  induction l with
  | nil => rfl
  | cons i l ih =>
    have hhead : i < n := hl i List.mem_cons_self
    have htail := ih fun j hj => hl j (List.mem_cons_of_mem i hj)
    rw [List.filterMap_cons_some (dif_pos hhead), List.map_cons, htail]

theorem map_val_fins (n : Nat) : (fins n).map Fin.val = List.range n :=
  map_val_filterMap_lt _ fun _ => List.mem_range.mp

theorem length_fins (n : Nat) : (fins n).length = n := by
  rw [← List.length_map (f := Fin.val), map_val_fins, List.length_range]

theorem val_getElem_fins {n k : Nat} (hk : k < (fins n).length) : ((fins n)[k]).val = k := by
  have hrange := List.getElem_of_eq (map_val_fins n) (i := k) (by rwa [List.length_map])
  rwa [List.getElem_map, List.getElem_range] at hrange

theorem mem_fins {n : Nat} (i : Fin n) : i ∈ fins n :=
  List.mem_iff_getElem.mpr ⟨i.val, by rw [length_fins]; exact i.isLt, Fin.ext (val_getElem_fins _)⟩

/-- The first number below n that a test takes. -/
theorem find?_fins {n : Nat} {p : Fin n → Bool} {i : Fin n} (hi : p i = true) (hbelow : ∀ j, j < i → p j = false) :
    (fins n).find? p = some i := by
  have hlen : i.val < (fins n).length := by rw [length_fins]; exact i.isLt
  refine List.find?_eq_some_iff_getElem.mpr ⟨hi, i.val, hlen, Fin.ext (val_getElem_fins hlen), fun j hj => ?_⟩
  have hlt : (fins n)[j] < i := by rw [Fin.lt_def, val_getElem_fins]; exact hj
  rw [hbelow _ hlt]
  rfl

theorem le_toNat_srcE : ∀ e : Fin 2, 0x40 ≤ (srcE e).toNat := by decide

/-- The E port that a source code names. -/
theorem port_of_srcE : ∀ e : Fin 2, (if srcE e = 0x40 then 0 else 1 : Fin 2) = e := by decide

theorem srcE_inj : ∀ {x e : Fin 2}, srcE x = srcE e ↔ x = e := by decide

theorem srcE_ne_iff : ∀ {x e : Fin 2}, srcE x ≠ srcE e ↔ x = otherE e := by decide

theorem filter_eq_fins_two : ∀ e : Fin 2, (fins 2).filter (fun x => decide (x = e)) = [e] := by decide

section
variable {mac : BitVec 48} {src : BitVec 7} {i : Fin 256} {s : State}

/-! ### Learning (07 R231 to R233) -/

/-- A new address takes the first free entry: the lowest is the model's choice, which R232 leaves open. -/
theorem State.ethLearn_new (hsplit : s.sys.splitAct.getLsbD 4 = false) (hnew : s.atabHit mac = none)
    (hfree : (s.eth.atab.get i).valid = false) (hbelow : ∀ j : Fin 256, j < i → (s.eth.atab.get j).valid = true) :
    s.ethLearn mac src = { s with eth.atab := s.eth.atab.set i (atabAt src ⟨true, false, 0, 0, mac, s.tre.time⟩) } := by
  have hfind : (fins 256).find? (fun i => !(s.eth.atab.get i).valid) = some i :=
    find?_fins (by simp [hfree]) fun j hj => by simp [hbelow j hj]
  simp only [State.ethLearn, hsplit, hnew, hfind]

theorem State.ethLearn_known (hsplit : s.sys.splitAct.getLsbD 4 = false) (hknown : s.atabHit mac = some i) :
    s.ethLearn mac src =
      { s with eth.atab := s.eth.atab.set i { atabAt src (s.eth.atab.get i) with hit := s.tre.time } } := by
  simp only [State.ethLearn, hsplit, hknown]

end

/-! ### Switching (07 R231) -/

section
variable {e : Fin 2} {prio : Fin 8} {b : List Byte} {s : State}

theorem State.ethSwitch_known {d : BitVec 7} (hgroup : ethGroup b = false)
    (hd : (s.ethLearn (ethMac b 6) (srcE e)).ethLookup (ethMac b 0) = some d) :
    let t := s.ethLearn (ethMac b 6) (srcE e)
    s.ethSwitch (srcE e) (some e) prio b = if d = srcE e then t.count1 (ethCnt e) 43
      else if 0x40 ≤ d.toNat then t.ethSend (if d = 0x40 then 0 else 1) ⟨prio, srcE e, b, []⟩
      else t.tunnelSend e (some (d.setWidth 6)) ⟨prio, srcE e, b, []⟩ := by
  simp [State.ethSwitch, hgroup, hd]

/-- A frame from an E port floods the other one where that one sends. -/
theorem State.floodPorts_srcE (hout : s.ethCtl (otherE e) 0 = true) : s.floodPorts (srcE e) = [otherE e] := by
  have hother : ∀ x ∈ fins 2, (decide (srcE x ≠ srcE e) && s.ethCtl x 0 &&
      (decide (0x40 ≤ (srcE e).toNat) || s.ethCtl x 6)) = decide (x = otherE e) := by
    intro x _
    by_cases hx : x = otherE e
    · rw [decide_eq_true (srcE_ne_iff.mpr hx), decide_eq_true hx, decide_eq_true (le_toNat_srcE e), hx, hout]
      rfl
    · rw [decide_eq_false (mt srcE_ne_iff.mp hx), decide_eq_false hx, Bool.false_and, Bool.false_and]
  rw [State.floodPorts, List.filter_congr hother, filter_eq_fins_two]

theorem State.ethSwitch_flood (h : ethGroup b = true ∨
      (s.ethLearn (ethMac b 6) (srcE e)).ethLookup (ethMac b 0) = none)
    (hout : (s.ethLearn (ethMac b 6) (srcE e)).ethCtl (otherE e) 0 = true) (hstay : s.ethCtl e 7 = false) :
    s.ethSwitch (srcE e) (some e) prio b =
      ((s.ethLearn (ethMac b 6) (srcE e)).ethSend (otherE e) ⟨prio, srcE e, b, []⟩).count1 (ethCnt e) 17 := by
  have hnone : (if ethGroup b then none else (s.ethLearn (ethMac b 6) (srcE e)).ethLookup (ethMac b 0)) = none := by
    rcases h with h | h <;> simp [h]
  have hports := State.floodPorts_srcE hout
  simp only [State.ethSwitch, hnone, hports, hstay, Bool.false_eq_true, if_false]
  rfl

end

/-- Settles O24: learning and switching, by where the destination is known to lie. Which free entry a new address takes no rule
names: the lowest is the model's reading. -/
theorem etherSwitches : Obligations.EtherSwitches := by
  unfold Obligations.EtherSwitches
  refine ⟨fun _ _ _ _ hsplit hnew hfree hbelow => State.ethLearn_new hsplit hnew hfree hbelow,
    fun _ _ _ _ hsplit hknown => State.ethLearn_known hsplit hknown, fun e prio b s => ?_,
    fun _ _ _ _ h hout hstay => State.ethSwitch_flood h hout hstay⟩
  intro t hgroup
  refine ⟨fun hd => ?_, fun hd => ?_, fun n hn hd => ?_⟩ <;> rw [State.ethSwitch_known hgroup hd]
  · rw [if_pos rfl]
  · rw [if_neg (srcE_ne_iff.mpr rfl), if_pos (le_toNat_srcE _), port_of_srcE]
  · have hnot : n ≠ srcE e := fun heq => Nat.not_lt.mpr (le_toNat_srcE e) (heq ▸ hn)
    rw [if_neg hnot, if_neg (Nat.not_le.mpr hn)]

end Sys2Proof.Machine
end

section
/-! PROOF. The E ports: reception, what leaves, PAUSE and PFC, the PHYs, the ageing of the address table, the learn queue and
ETH_CTL (07 R227 to R234). -/
namespace Sys2Proof.Machine

/-! ### What a report leaves of an E port -/

section
variable {s t : State} (h : s.Reported t)
include h

theorem State.Reported.eth : t.eth = s.eth := (congrArg State.eth h.eq).trans rfl

theorem State.Reported.ethCtl (e : Fin 2) (i : Nat) : t.ethCtl e i = s.ethCtl e i :=
  (congrArg (State.ethCtl · e i) h.eq).trans rfl

theorem State.Reported.ethFd (e : Fin 2) : t.ethFd e = s.ethFd e := (congrArg (State.ethFd · e) h.eq).trans rfl

theorem State.Reported.ethPort (e : Fin 2) : t.ethPort e = s.ethPort e := (congrArg (State.ethPort · e) h.eq).trans rfl

end

@[simp] theorem State.ethPort_modEth (e : Fin 2) (f : EthPort → EthPort) (s : State) :
    (s.modEth e f).ethPort e = f (s.ethPort e) := by
  rw [State.ethPort, State.modEth, upd, Vector.get_set, if_pos rfl]
  rfl

theorem State.ethMacCtl_reported (e : Fin 2) (s : State) : s.Reported (s.ethMacCtl e) := by
  have hsized := (State.count1_reported (ethCnt e) 0 s).trans (State.count_reported (ethCnt e) 1 64 _)
  exact ((hsized.count1 _ _).count1 _ _).count1 _ _

/-! ### Reception (07 R227; 15 R406) -/

section
variable {e : Fin 2} {f : EthRx} {s : State}

theorem exec_ethFrameReceive (e : Fin 2) (f : EthRx) (s : State) : exec (.ethFrameReceive e f) s = .next (s.ethRx e f) := rfl

section
variable (htakes : s.ethTakes = true) (hen : s.ethCtl e 1 = true)
include htakes hen

theorem State.ethRx_short (hlen : f.bytes.length + 4 < 64) : s.ethRx e f = s.count1 (ethCnt e) 35 := by
  simp [State.ethRx, htakes, hen, hlen]

variable (hmin : 64 ≤ f.bytes.length + 4)
include hmin

theorem State.ethRx_long (hlen : (if ethTagged f.bytes then 1522 else 1518) < f.bytes.length + 4) :
    s.ethRx e f = (s.count1 (ethCnt e) 36).raise 140 := by
  simp only [State.ethRx, htakes, hen, Nat.not_lt.mpr hmin, hlen, Bool.not_true, Bool.or_self, Bool.false_eq_true,
    if_false, if_true]

variable (hmax : f.bytes.length + 4 ≤ (if ethTagged f.bytes then 1522 else 1518))
include hmax

theorem State.ethRx_badFcs (hfcs : f.fcsOk = false) : s.ethRx e f = (s.count1 (ethCnt e) 34).raise 140 := by
  simp only [State.ethRx, htakes, hen, Nat.not_lt.mpr hmin, Nat.not_lt.mpr hmax, hfcs, Bool.not_true, Bool.not_false,
    Bool.or_self, Bool.false_eq_true, if_false, if_true]

variable (hfcs : f.fcsOk = true)
include hfcs

theorem State.ethRx_noRoom (hroom : f.room = false) : s.ethRx e f = (s.count1 (ethCnt e) 38).raise 140 := by
  simp only [State.ethRx, htakes, hen, Nat.not_lt.mpr hmin, Nat.not_lt.mpr hmax, hfcs, hroom, Bool.not_true, Bool.not_false,
    Bool.or_self, Bool.false_eq_true, if_false, if_true]

variable (hroom : f.room = true)
include hroom

theorem State.ethRx_parity (hparity : f.parity = true) : s.ethRx e f = s.ethParity e := by
  simp only [State.ethRx, htakes, hen, Nat.not_lt.mpr hmin, Nat.not_lt.mpr hmax, hfcs, hroom, hparity, Bool.not_true,
    Bool.or_self, Bool.false_eq_true, if_false, if_true]

theorem State.ethRx_switched (hparity : f.parity = false) (htype : beAt f.bytes 12 2 ≠ 0x8808) : s.ethRx e f =
    (s.ethRxCount e (f.bytes.length + 4) (ethGroup f.bytes) (ethTagged f.bytes) (s.ethPrio e f.bytes).val).ethSwitch (srcE e)
      (some e) (s.ethPrio e f.bytes) f.bytes := by
  simp only [State.ethRx, htakes, hen, Nat.not_lt.mpr hmin, Nat.not_lt.mpr hmax, hfcs, hroom, hparity, htype, Bool.not_true,
    Bool.or_self, Bool.false_eq_true, if_false]

end

/-! ### What leaves (07 R227, R230, R231, Table 7.6) -/

theorem exec_ethFrameSent_down (collisions : List Bool) (hrun : s.ethRun = false) :
    exec (.ethFrameSent e collisions) s = .next s := by
  refine congrArg Host.Outcome.next ?_
  rw [State.ethSent, hrun]

theorem exec_ethFrameSent_sends {x : EthQ} (collisions : List Bool) (hrun : s.ethRun = true)
    (hsend : (s.ethPort e).sending = some x) (hsrc : 0x40 ≤ x.src.toNat) :
    let n := ethCnt e
    let c := if s.ethFd e = true then [] else collisions.take 16
    let t := s.ethCollisions e 1 c
    let b := ethPad x.bytes
    exec (.ethFrameSent e collisions) s = .next (
      if c.length = 16 then ((t.count1 n 42).raise 143).ethNext e x
      else ((((((t.emit (.eth e (b ++ leBytes 4 (crc32 b).toNat))).count1 n 2).count n 3 (b.length + 4)).count1 n
        (if ethGroup b then 13 else 12)).count1 n (26 + x.prio.val))).ethNext e x) := by
  refine congrArg Host.Outcome.next ?_
  simp only [State.ethSent, hrun, hsend, State.when, decide_eq_false (Nat.not_lt.mpr hsrc), Bool.false_eq_true, if_false]

/-- Each collision is counted, and its back-off is a free value in its range; a late one raises EV143 (log 118). -/
theorem State.ethCollisions_cons (e : Fin 2) (k : Nat) (late : Bool) (l : List Bool) (s : State) :
    ∃ m, m < 2 ^ min k 10 ∧ s.ethCollisions e k (late :: l) = (
      let t := ((s.took).emit (.ethJam e late m)).count1 (ethCnt e) 40
      if late = true then ((t.count1 (ethCnt e) 41).raise 143).ethCollisions e (k + 1) l
      else t.ethCollisions e (k + 1) l) := by
  refine ⟨s.draw % 2 ^ min k 10, Nat.mod_lt _ (Nat.two_pow_pos _), ?_⟩
  cases late <;> rfl

/-- A frame that came through a tunnel was in no buffer of an E port. -/
theorem State.ethFreed_tunnel {x : EthQ} (hsrc : x.src.toNat < 0x40) : s.ethFreed x = s := by
  have hnone : (fins 2).filter (fun i => decide (x.src = srcE i)) = [] := by
    refine List.filter_eq_nil_iff.mpr fun i _ => ?_
    have hle := le_toNat_srcE i
    rw [decide_eq_true_eq]
    rintro heq
    rw [heq] at hsrc
    omega
  rw [State.ethFreed, hnone]
  rfl

theorem State.ethFreed_port {x : EthQ} {o : Fin 2} (hsrc : x.src = srcE o) : s.ethFreed x = s.pfcCheck o x.prio := by
  have hone : (fins 2).filter (fun i => decide (x.src = srcE i)) = [o] := by
    rw [← filter_eq_fins_two o]
    exact List.filter_congr fun i _ => decide_eq_decide.mpr (by rw [hsrc, srcE_inj, eq_comm])
  rw [State.ethFreed, hone]
  rfl

theorem length_ethPad (b : List Byte) : (ethPad b).length = max 60 b.length := by
  simp [ethPad]
  omega

/-! ### PAUSE and PFC (07 R227, R230) -/

theorem exec_ethPause_honoured (quanta : Half) (htakes : s.ethTakes = true) (hen : s.ethCtl e 1 = true)
    (hpause : s.ethCtl e 4 = true) : exec (.ethPause e quanta) s = .next
      ((((s.ethMacCtl e).count1 (ethCnt e) 46).modEth e fun c => { c with
        macPaused := decide (quanta ≠ 0), quanta := vset c.quanta 0 quanta }).ethKick e) := by
  refine congrArg Host.Outcome.next ((if_pos (by rw [htakes, hen]; rfl)).trans (if_neg ?_))
  rw [(State.ethMacCtl_reported e s).ethCtl, hpause]
  decide

/-- What a PFC frame does to one class of a port: stopped while its quanta are not 0 (07 R230). -/
def pfcTake (classes : Byte) (quanta : List Half) (p : Fin 8) (c : EthPort) : EthPort :=
  if classes.getLsbD p.val then
    { c with pfcPaused := putBit c.pfcPaused p.val (decide (quanta.getD p.val 0 ≠ 0)), quanta := c.quanta.set p (quanta.getD p.val 0) }
  else c

/-- What a class of a port is stopped by: whether PFC stops it, and its last quanta. -/
def EthPort.pfcClass (c : EthPort) (k : Fin 8) : Bool × Half := (c.pfcPaused.getLsbD k.val, c.quanta.get k)

theorem pfcTake_class (classes : Byte) (quanta : List Half) (p k : Fin 8) (c : EthPort) :
    (pfcTake classes quanta p c).pfcClass k = if k = p ∧ classes.getLsbD k.val = true
      then (decide (quanta.getD k.val 0 ≠ 0), quanta.getD k.val 0) else c.pfcClass k := by
  unfold pfcTake
  by_cases hset : classes.getLsbD p.val = true
  · rw [if_pos hset, EthPort.pfcClass, getLsbD_putBit _ _ _ p.isLt, Vector.get_set]
    by_cases hk : k = p
    · subst hk
      simp only [if_true, hset, and_self]
    · simp only [hk, if_false, false_and, mt Fin.ext hk]
      rfl
  · rw [if_neg hset, if_neg]
    rintro ⟨rfl, hk⟩
    exact hset hk

theorem foldl_pfcTake_class (classes : Byte) (quanta : List Half) (k : Fin 8) (l : List (Fin 8)) (c : EthPort) :
    (l.foldl (fun d p => pfcTake classes quanta p d) c).pfcClass k = if k ∈ l ∧ classes.getLsbD k.val = true
      then (decide (quanta.getD k.val 0 ≠ 0), quanta.getD k.val 0) else c.pfcClass k := by
  induction l generalizing c with
  | nil => simp
  | cons p l ih =>
    rw [List.foldl_cons, ih, pfcTake_class]
    by_cases hl : k ∈ l ∧ classes.getLsbD k.val = true
    · rw [if_pos hl, if_pos ⟨List.mem_cons_of_mem p hl.1, hl.2⟩]
    · rw [if_neg hl]
      by_cases hset : classes.getLsbD k.val = true
      · have hout : k ∉ l := fun hk => hl ⟨hk, hset⟩
        simp only [hset, and_true, List.mem_cons, hout, or_false]
      · rw [if_neg fun hk => hset hk.2, if_neg fun hk => hset hk.2]

/-- The state whose classes a PFC frame stops and starts. -/
def State.pfcTaken (e : Fin 2) (classes : Byte) (quanta : List Half) (s : State) : State :=
  ((s.ethMacCtl e).count1 (ethCnt e) 46).modEth e fun c => (fins 8).foldl (fun d p => pfcTake classes quanta p d) c

theorem State.pfcTaken_regs (classes : Byte) (quanta : List Half) : (s.pfcTaken e classes quanta).regs = s.regs :=
  ((State.ethMacCtl_reported e s).count1 _ _).regs

theorem State.pfcTaken_class (classes : Byte) (quanta : List Half) (k : Fin 8) :
    ((s.pfcTaken e classes quanta).ethPort e).pfcClass k = if classes.getLsbD k.val = true
      then (decide (quanta.getD k.val 0 ≠ 0), quanta.getD k.val 0) else (s.ethPort e).pfcClass k := by
  have hmem : k ∈ fins 8 := mem_fins k
  rw [State.pfcTaken, State.ethPort_modEth, foldl_pfcTake_class, ((State.ethMacCtl_reported e s).count1 _ _).ethPort]
  simp only [hmem, true_and]

theorem exec_pfc_honoured (classes : Byte) (quanta : List Half) (htakes : s.ethTakes = true) (hen : s.ethCtl e 1 = true)
    (hpfc : s.ethCtl e 5 = true) (hfd : s.ethFd e = true) :
    exec (.pfc e classes quanta) s = .next (((s.pfcTaken e classes quanta).raise 139).ethKick e) := by
  have hmac := State.ethMacCtl_reported e s
  refine congrArg Host.Outcome.next ((if_pos (by rw [htakes, hen]; rfl)).trans (if_neg ?_))
  rw [hmac.ethCtl, hmac.ethFd, hpfc, hfd]
  decide

/-! ### The PHYs (07 R228; 03 R84) -/

theorem State.each_emit {α : Type} (g : α → Output) (l : List α) (s : State) :
    s.each l (fun r u => u.emit (g r)) = { s with out := s.out ++ l.map g } := by
  induction l generalizing s with
  | nil => simp [State.each]
  | cons r l ih =>
    show (s.emit (g r)).each l _ = _
    rw [ih]
    simp [State.emit]

theorem exec_phyPoll_polled {r0 r1 r4 r5 : Half} (hup : s.ethUp = true) (hpoll : s.ethCtl e 3 = true) :
    exec (.phyPoll e r0 r1 r4 r5) s = .next (State.raiseIf ((r1.getLsbD 2 && s.sys.refok) != (s.ethPort e).up) (136 + e.val)
      { s with
        eth.ports := s.eth.ports.set e { s.ethPort e with
          up := r1.getLsbD 2 && s.sys.refok, andone := r1.getLsbD 5
          s100 := (phyMode r0 r1 r4 r5).1, fd := (phyMode r0 r1 r4 r5).2 }
        out := s.out ++ [0, 1, 4, 5].map fun r => Output.mdio e false (BitVec.ofNat 5 (s.regFld (ethBase e + 8) 8 5)) r 0 }) := by
  refine congrArg Host.Outcome.next ((if_neg (by simp [hup, hpoll])).trans ?_)
  dsimp only
  rw [State.each_emit]
  rfl

theorem exec_mdioAccess_goes {v : Word} (hidle : (s.ethPort e).mdio = none) (hgo : v.getLsbD 31 = true) :
    exec (.mdioAccess e v) s = .next (((s.setReg (ethBase e + 0xC) v).modEth e fun c => { c with mdio := some v }).when
      (!s.pinsReset) (State.emit (.mdio e (v.getLsbD 30) (BitVec.ofNat 5 (fld v 21 5)) (BitVec.ofNat 5 (fld v 16 5))
        (if v.getLsbD 30 then v.setWidth 16 else 0)))) := by
  refine congrArg Host.Outcome.next ((if_neg (by simp [hidle])).trans (if_neg ?_))
  rw [hgo]
  decide

theorem exec_mdioAccess_busy {v : Word} (hbusy : (s.ethPort e).mdio.isSome = true) :
    exec (.mdioAccess e v) s = .next s := congrArg Host.Outcome.next (if_pos hbusy)

theorem exec_mdioDone_read {v : Word} (data : Half) (hmdio : (s.ethPort e).mdio = some v) (hread : v.getLsbD 30 = false) :
    exec (.mdioDone e data) s = .next ((s.modEth e fun c => { c with mdio := none }).setReg (ethBase e + 0xC)
      ((s.reg (ethBase e + 0xC) &&& 0xFFFF0000) ||| data.setWidth 32)) := by
  show execMdioDone e data s = _
  rw [execMdioDone, hmdio]
  exact congrArg Host.Outcome.next (if_neg (Bool.eq_false_iff.mp hread))

/-! ### The address table's commands and ETH_CTL (07 R232 to R234; logs 21, 217) -/

theorem exec_addressAgeExpiry_aged {i : Fin 256} (hc : s.coreRuns = true) (hvalid : (s.eth.atab.get i).valid = true)
    (hlearned : (s.eth.atab.get i).static = false) (hhit : (s.eth.atab.get i).hit ≠ s.tre.time) :
    exec (.addressAgeExpiry i) s = .next { s with eth.atab := s.eth.atab.set i ⟨false, false, 0, 0, 0, 0⟩ } :=
  congrArg Host.Outcome.next ((State.when_true _ hc).trans (if_pos (by simp [hvalid, hlearned, hhit])))

/-- An entry hit in the very core cycle of its expiry stays (log 217). -/
theorem exec_addressAgeExpiry_hit {i : Fin 256} (hc : s.coreRuns = true) (hhit : (s.eth.atab.get i).hit = s.tre.time) :
    exec (.addressAgeExpiry i) s = .next s :=
  congrArg Host.Outcome.next ((State.when_true _ hc).trans (if_neg (by simp [hhit])))

theorem exec_learnqPop_made {m : Master} {src : BitVec 7} {mac : BitVec 48} {l : List (BitVec 7 × BitVec 48)}
    (hq : s.eth.learnq = (src, mac) :: l) (h : s.accesses m false Reg.ETH_LEARNQ_H = true) :
    exec (.learnqPop m) s = .next { s with
      eth.learnq := l, eth.learnSh := mac.setWidth 32
      out := s.out ++ [.answer m (packW [(31, 1), (24, src.toNat), (0, fld mac 32 16)])] } := by
  refine congrArg Host.Outcome.next ((State.access_made _ h).trans ?_)
  rw [State.learnqPop, State.learnqH, hq]
  rfl

theorem exec_ethDisable (v : Word) : exec (.ethDisable e v) s = .next (((s.setReg (ethBase e) v).ethKick e).when
    (s.ethTakes && s.ethCtl e 1 && !v.getLsbD 1) (State.ethAbort e)) := rfl

/-- Whether a reception is aborted is a free value (log 21). -/
theorem State.ethAbort_cases (e : Fin 2) (s : State) : s.ethAbort e = s.took ∨ s.ethAbort e = s.took.count1 (ethCnt e) 37 := by
  cases h : s.drawBool <;> simp [State.ethAbort, State.when, h]

end

/-- Settles O23, command by command. A frame with a buffer parity error logged, counted and dropped is log 167, the reception
that a cleared RXEN may abort log 21. -/
theorem etherServes : Obligations.EtherServes := by
  unfold Obligations.EtherServes
  refine ⟨fun e f s htakes hen => ?_, fun e collisions x s hrun hsend hsrc => exec_ethFrameSent_sends collisions hrun hsend hsrc,
    State.ethCollisions_cons, fun e collisions s hrun => exec_ethFrameSent_down collisions hrun, fun e x s => ?_,
    fun b => ⟨length_ethPad b, List.take_left⟩,
    fun e quanta s htakes hen hpause => exec_ethPause_honoured quanta htakes hen hpause,
    fun e classes quanta s htakes hen hpfc hfd => ?_, fun e s hc => congrArg Host.Outcome.next (State.when_true _ hc),
    fun e cls s hc => congrArg Host.Outcome.next (State.when_true _ hc),
    fun e r0 r1 r4 r5 s hup hpoll => ⟨_, exec_phyPoll_polled hup hpoll, rfl⟩, fun e v s hidle hgo => ?_,
    fun e v s hbusy => exec_mdioAccess_busy hbusy, fun e data v s hmdio hread => exec_mdioDone_read data hmdio hread,
    fun i s hc hvalid hlearned =>
      ⟨exec_addressAgeExpiry_aged hc hvalid hlearned, exec_addressAgeExpiry_hit hc⟩,
    fun m src mac l s hq h => exec_learnqPop_made hq h, fun e v s => ?_⟩
  · intro b
    rw [exec_ethFrameReceive]
    refine ⟨fun hlen => ?_, fun hmin => ⟨fun hlen => ?_, fun hmax => ⟨fun hfcs => ?_, fun hfcs hroom => ?_,
      fun hfcs hroom hparity => ?_, fun hfcs hroom hparity htype => ?_⟩⟩⟩
    · rw [State.ethRx_short htakes hen hlen]
    · rw [State.ethRx_long htakes hen hmin hlen]
    · rw [State.ethRx_badFcs htakes hen hmin hmax hfcs]
    · rw [State.ethRx_noRoom htakes hen hmin hmax hfcs hroom]
    · rw [State.ethRx_parity htakes hen hmin hmax hfcs hroom hparity, State.ethParity]
    · rw [State.ethRx_switched htakes hen hmin hmax hfcs hroom hparity htype]
  · refine ⟨fun hsrc => ?_, fun hsrc => ?_⟩
    · rw [State.ethNext, State.ethFreed_tunnel hsrc]
    · rw [State.ethNext, State.ethFreed_port hsrc]
  · refine ⟨_, exec_pfc_honoured classes quanta htakes hen hpfc hfd, State.pfcTaken_regs classes quanta, fun p => ?_⟩
    have hclass := State.pfcTaken_class (e := e) (s := s) classes quanta p
    have hpaused := congrArg Prod.fst hclass
    have hquanta := congrArg Prod.snd hclass
    rw [apply_ite Prod.fst] at hpaused
    rw [apply_ite Prod.snd] at hquanta
    exact ⟨hpaused, hquanta⟩
  · intro t
    rw [exec_mdioAccess_goes hidle hgo]
    refine ⟨fun hpins => ?_, fun hpins => ?_⟩ <;> rw [hpins]
    · rfl
    · rfl
  · intro t
    rw [exec_ethDisable]
    refine ⟨fun hstay => ?_, fun htakes hen hclear => ?_⟩
    · have hnone : (s.ethTakes && s.ethCtl e 1 && !v.getLsbD 1) = false := by
        rcases hstay with h | h | h <;> simp only [h, Bool.not_true, Bool.false_and, Bool.and_false]
      rw [hnone]
      rfl
    · rw [htakes, hen, hclear]
      exact (State.ethAbort_cases e t).imp (congrArg _) (congrArg _)

end Sys2Proof.Machine
end

section
/-! PROOF. What leaves the Open Road window as it stands, one lemma an operation: reports, memories, the Causeway, frames queued
and frames that end (07 R203 to R222; 14 R390; 15 R400 to R409). -/
namespace Sys2Proof.Machine

/-- The Open Road window: whether it is open, and since when (07 R203). -/
def State.window (s : State) : Bool × Dword := (s.road.open_, s.road.o)

/-! ### Control flow and reports -/

theorem State.ite_window {c : Prop} [Decidable c] {a b s : State} (ha : a.window = s.window) (hb : b.window = s.window) :
    (if c then a else b).window = s.window := by
  split <;> assumption

theorem State.when_window {b : Bool} {f : State → State} {s : State} (hf : (f s).window = s.window) :
    (s.when b f).window = s.window := State.ite_window hf rfl

theorem State.each_window {α : Type} {f : α → State → State} (hf : ∀ x t, (f x t).window = t.window) (l : List α) (s : State) :
    (s.each l f).window = s.window := by
  induction l generalizing s with
  | nil => rfl
  | cons x l ih => exact (ih (f x s)).trans (hf x s)

theorem State.Reported.window {s t : State} (h : s.Reported t) : t.window = s.window := by
  rw [State.window, h.road, State.window]

section
variable (s : State)

@[simp] theorem State.raise_window (n : Nat) : (s.raise n).window = s.window := (State.raise_reported n s).window

@[simp] theorem State.count_window (p i k : Nat) : (s.count p i k).window = s.window := (State.count_reported p i k s).window

@[simp] theorem State.count1_window (p i : Nat) : (s.count1 p i).window = s.window := (State.count1_reported p i s).window

@[simp] theorem State.memLog_window (kind region : Nat) (src : Byte) (synd addr : Nat) :
    (s.memLog kind region src synd addr).window = s.window := (State.memLog_reported kind region src synd addr s).window

/-! ### Memories (15) -/

@[simp] theorem State.setBytes_window (a : Nat) (bs : List Byte) : (s.setBytes a bs).window = s.window := by
  rw [State.setBytes_frame]
  rfl

@[simp] theorem State.fixWord_window (a : Nat) (w : Word) (e : Option WordErr) :
    ((s.putWord a w).setErr a e).window = s.window := State.setBytes_window s a _

@[simp] theorem State.eccCe_window (kind : Nat) (src : Byte) (a : Nat) (e : WordErr) :
    (s.eccCe kind src a e).window = s.window :=
  (State.raise_window _ _).trans (State.memLog_window { s with mem.ce := satSucc s.mem.ce } _ _ _ _ _)

@[simp] theorem State.eccUe_window (kind : Nat) (src : Byte) (a : Nat) (e : WordErr) :
    (s.eccUe kind src a e).window = s.window :=
  (State.raise_window _ _).trans (State.memLog_window { s with mem.ue := satSucc s.mem.ue } _ _ _ _ _)

@[simp] theorem State.eccReadFx_window (src : Byte) (a : Nat) : (s.eccReadFx src a).window = s.window := by
  unfold State.eccReadFx
  split
  · rfl
  · split <;> simp

theorem State.setReg_window (a : Nat) (v : Word) : (s.setReg a v).window = s.window := rfl

@[simp] theorem State.eccFullWrite_window (a : Nat) (v : Word) : (s.eccFullWrite a v).window = s.window := by
  unfold State.eccFullWrite
  split
  · exact (State.setReg_window _ _ _).trans (State.fixWord_window s a _ _)
  · exact State.fixWord_window s a _ _

@[simp] theorem State.eccWrite_window (src : Byte) (a : Nat) (be : BitVec 4) (v : Word) :
    (s.eccWrite src a be v).window = s.window := by
  unfold State.eccWrite
  split
  · exact State.eccFullWrite_window s a v
  · split
    · exact State.setBytes_window s a _
    · split <;> simp

@[simp] theorem State.memReadFx_window (src : Byte) (a : Nat) (be : BitVec 4) : (s.memReadFx src a be).window = s.window := by
  have hparity := fun r => (State.parityFx_reported src r a be s).window
  unfold State.memReadFx
  split <;> simp [hparity]

@[simp] theorem State.blockReadFx_window (a n : Nat) : (s.blockReadFx a n).window = s.window := by
  have hr : (s.wordReads a n).window = s.window := State.each_window (fun _ _ => State.memReadFx_window _ _ _ _) _ _
  exact (State.when_window (s := s.wordReads a n) rfl).trans hr

/-! ### The Causeway, as far as a frame's end reaches it (14 R390) -/

@[simp] theorem State.cwyLogAdd_window (remote : Bool) (w nid cause notapp : Nat) (addr data : Word) (fseq : Nat) :
    (s.cwyLogAdd remote w nid cause notapp addr data fseq).window = s.window :=
  State.ite_window (State.raise_window _ _) (State.raise_window _ _)

@[simp] theorem State.heldDrop_window (w : Fin 16) : (s.heldDrop w).window = s.window := by
  unfold State.heldDrop
  split
  · rfl
  · exact State.cwyLogAdd_window (s.modWin w _) _ _ _ _ _ _ _ _

@[simp] theorem State.hostAccept_window (x : HostAcc) (v : Half) (par : BitVec 2) :
    (s.hostAccept x v par).window = s.window := by
  have hdrop := State.heldDrop_window s x.win
  unfold State.hostAccept
  dsimp only
  refine State.ite_window ?_ (State.ite_window hdrop ?_)
  · rw [State.raise_window, State.hostLog, State.cwyLogAdd_window, hdrop]
  · split
    · rfl
    · exact hdrop

@[simp] theorem State.hostResume_window : s.hostResume.window = s.window := by
  unfold State.hostResume
  split
  · exact State.ite_window (State.hostAccept_window { s with cwy.waiting := none } _ _ _) rfl
  · rfl

@[simp] theorem State.cwyFlightEnd_window (w : Fin 16) (cause idx : Nat) : (s.cwyFlightEnd w cause idx).window = s.window := by
  unfold State.cwyFlightEnd
  split
  · rfl
  · rw [State.hostResume_window]
    refine State.ite_window rfl ?_
    split
    · rfl
    · rw [State.cwyLogAdd_window]
      rfl

@[simp] theorem State.cwyTxResult_window (w : Fin 16) (result : Nat) : (s.cwyTxResult w result).window = s.window := by
  have hend := fun cause => State.cwyFlightEnd_window s w cause 0
  unfold State.cwyTxResult
  split
  · rfl
  all_goals exact hend _

/-! ### A frame that ends (07 R213, R220, R222) -/

@[simp] theorem State.txDone_window (a : Word) (result : Nat) : (s.txDone a result).window = s.window := by
  have hw : ((s.blockReadFx a.toNat 4).pokeWord 7 a.toNat
      (s.peekWord a.toNat &&& 0x8FFFFFFF ||| packW [(30, 1), (28, result)])).window = s.window :=
    (State.eccWrite_window _ _ _ _ _).trans (State.blockReadFx_window s _ _)
  refine State.ite_window rfl ((State.when_window (State.count1_window _ _ _)).trans ?_)
  exact (State.raise_window _ _).trans hw

@[simp] theorem State.transitCount_window (q : QFrame) (result : Nat) : (s.transitCount q result).window = s.window := by
  have hrx : (s.when (decide (q.acct = 1)) (State.roadRxCount (RHdr.parse q.body))).window = s.window :=
    State.when_window (by simp [State.roadRxCount])
  exact State.ite_window rfl ((State.when_window (State.count1_window _ _ _)).trans hrx)

@[simp] theorem State.frameCount_window (q : QFrame) (result : Nat) : (s.frameCount q result).window = s.window := by
  unfold State.frameCount
  split
  · exact State.transitCount_window s q result
  · split <;> simp

theorem State.recordDone_window (q : QFrame) (result : Nat) :
    (match q.src with | some r => s.txDone r result | none => s).window = s.window := by
  split <;> simp

theorem State.windowDone_window (q : QFrame) (result : Nat) :
    (match q.cwy with | some w => s.cwyTxResult w result | none => s).window = s.window := by
  split <;> simp

@[simp] theorem State.frameEnd_window (q : QFrame) (result : Nat) : (s.frameEnd q result).window = s.window := by
  have hdone := (State.windowDone_window _ q result).trans
    ((State.recordDone_window _ q result).trans (State.frameCount_window s q result))
  exact State.ite_window rfl (State.ite_window hdone hdone)

@[simp] theorem State.undeliverable_window (q : QFrame) : (s.undeliverable q).window = s.window := by
  simp [State.undeliverable]

/-! ### A frame queued (07 R211, R214, R220) -/

@[simp] theorem State.modRoad_window (p : Fin 4) (f : RoadPort → RoadPort) : (s.modRoad p f).window = s.window := rfl

@[simp] theorem State.took_window : s.took.window = s.window := rfl

@[simp] theorem State.bumpSeq_window : s.bumpSeq.window = s.window := rfl

@[simp] theorem State.roadDraw_window (p : Fin 4) : (s.roadDraw p).window = s.window := by
  unfold State.roadDraw
  dsimp only
  split <;> rfl

@[simp] theorem State.roadAgain_window (p : Fin 4) (before : Option QFrame) : (s.roadAgain p before).window = s.window := by
  refine State.ite_window ?_ (State.roadDraw_window s p)
  split
  · rfl
  · exact State.ite_window rfl rfl

@[simp] theorem State.roadPut_window (p : Fin 4) (q : QFrame) : (s.roadPut p q).window = s.window := by
  simp [State.roadPut]

@[simp] theorem State.pfcCount_window (e : Fin 2) : (s.pfcCount e).window = s.window := by
  simp [State.pfcCount]

@[simp] theorem State.pfcCheck_window (e : Fin 2) (p : Fin 8) : (s.pfcCheck e p).window = s.window :=
  State.ite_window rfl (State.ite_window (State.pfcCount_window _ e) (State.ite_window (State.pfcCount_window _ e) rfl))

@[simp] theorem State.sendPause_window (p : Fin 4) (prio ptime : Nat) : (s.sendPause p prio ptime).window = s.window :=
  (State.when_window (State.raise_window _ _)).trans (State.roadPut_window _ _ _)

@[simp] theorem State.pauseCheck_window (p : Fin 4) (prio : Nat) : (s.pauseCheck p prio).window = s.window :=
  State.ite_window rfl
    (State.ite_window (State.sendPause_window _ _ _ _) (State.ite_window (State.sendPause_window _ _ _ _) rfl))

@[simp] theorem State.frameLeft_window (q : QFrame) : (s.frameLeft q).window = s.window := by
  unfold State.frameLeft
  split <;> split <;> simp

@[simp] theorem State.frameLost_window (q : QFrame) : (s.frameLost q).window = s.window :=
  (State.frameLeft_window _ q).trans (State.ite_window (State.frameEnd_window _ _ _) (State.undeliverable_window _ _))

end

@[simp] theorem State.roadSort_window (p : Fin 4) (k : Nat) (s : State) : (State.roadSort p k s).window = s.window := by
  induction k generalizing s with
  | zero => rfl
  | succ k ih =>
    unfold State.roadSort
    split
    · rfl
    · refine State.ite_window rfl ?_
      split
      · exact State.ite_window rfl ((ih _).trans (State.roadPut_window _ _ _))
      · exact (ih _).trans (State.frameLost_window _ _)

section
variable (s : State)

@[simp] theorem State.roadRehead_window (p : Fin 4) (before : Option QFrame) : (s.roadRehead p before).window = s.window := by
  simp [State.roadRehead]

@[simp] theorem State.roadEnqueue_window (p : Fin 4) (q : QFrame) : (s.roadEnqueue p q).window = s.window := by
  simp [State.roadEnqueue]

@[simp] theorem State.sendUnicast_window (dst : BitVec 6) (q : QFrame) : (s.sendUnicast dst q).window = s.window := by
  refine State.ite_window (State.frameEnd_window s q 0) ?_
  split <;> simp

@[simp] theorem State.sendMgmt_window (dst : BitVec 6) (tag : BitVec 2) (payload : List Byte) :
    (s.sendMgmt dst tag payload).window = s.window := by
  simp [State.sendMgmt]

@[simp] theorem State.sendLocal_window (p : Fin 4) (bcast : Bool) (dst : BitVec 6) (tag : BitVec 2) (payload : List Byte) :
    (s.sendLocal p bcast dst tag payload).window = s.window := by
  simp [State.sendLocal]

@[simp] theorem State.sendMgmtAll_window (payload : List Byte) : (s.sendMgmtAll payload).window = s.window := by
  have hall : ∀ (q : QFrame) (t : State), (t.sendBcast q).window = t.window := fun q t => by
    unfold State.sendBcast
    split
    · simp
    · exact State.each_window (fun p t => State.roadEnqueue_window t p q) _ t
  exact hall _ _

/-! ### What the node sends as the window opens (04 R115 to R121; 06 R180, R199; 05 R158) -/

@[simp] theorem State.ringAnnounceAgain_window : s.ringAnnounceAgain.window = s.window := by
  unfold State.ringAnnounceAgain
  split
  · exact State.ite_window (State.sendMgmtAll_window _ _) rfl
  · rfl

@[simp] theorem State.ringBuild_window : s.ringBuild.window = s.window := by
  refine State.ite_window rfl ?_
  split
  · rfl
  · exact State.ite_window rfl (State.ringAnnounceAgain_window _)

@[simp] theorem State.sendSummary_window (p : Fin 4) : (s.sendSummary p).window = s.window :=
  State.ite_window (State.ite_window rfl (State.ringBuild_window _)) (State.sendMgmt_window _ _ _ _)

@[simp] theorem State.announceAgain_window (p : Fin 4) : (s.announceAgain p).window = s.window := by
  unfold State.announceAgain
  split
  · exact State.ite_window (State.sendLocal_window _ _ _ _ _ _) rfl
  · rfl

@[simp] theorem State.toneWindow_window : s.toneWindow.window = s.window := by
  have hring : ((s.each (fins 4) fun p t => t.announceAgain p).ringAnnounceAgain).window = s.window :=
    (State.ringAnnounceAgain_window _).trans (State.each_window (fun p t => State.announceAgain_window t p) _ s)
  refine (State.ite_window ?_ rfl).trans hring
  exact State.each_window (fun p t => State.sendSummary_window t p) _ _

@[simp] theorem State.tableBroadcast_window : s.tableBroadcast.window = s.window :=
  State.ite_window (State.sendMgmtAll_window _ _) rfl

@[simp] theorem State.resumeSend_window : s.resumeSend.window = s.window :=
  State.ite_window (State.each_window (fun p t => State.sendLocal_window t p _ _ _ _) _ s) rfl

@[simp] theorem State.joinSend_window : s.joinSend.window = s.window :=
  State.each_window (fun p t => State.sendLocal_window t p _ _ _ _) _ _

theorem State.roadOpen_window : s.roadOpen.window = (true, s.tre.time) :=
  State.each_window (fun p t => State.roadRehead_window t p _) _ _

/-- A window that is not empty is open from the node's time at its opening on (07 R203). -/
theorem State.windowOpen_window {s : State} (hroom : s.windowEmpty = false) : s.windowOpen.window = (true, s.tre.time) := by
  rw [State.windowOpen, hroom, if_neg Bool.false_ne_true, State.when_window (State.joinSend_window _)]
  simp [State.roadOpen_window]

end

end Sys2Proof.Machine
end

section
/-! PROOF. What the node does over Open Road by itself: the window, the transmit ring, PING, HELLO, the ages of neighbours and
the pauses (07 R203, R214, R218 to R222). -/
namespace Sys2Proof.Machine

/-! ### The write pointer of the transmit ring (07 R220) -/

theorem State.regWrite_txwp (m : Master) (wp : Word) (s : State) :
    s.regWrite m Reg.ROAD_TXWP 0xF wp = s.setReg Reg.ROAD_TXWP wp :=
  congrArg (s.setReg Reg.ROAD_TXWP) (mergeLanes_all _ wp)

/-- A write of the whole pointer that is made stores it, and the records up to it are taken up. -/
theorem exec_transmitRecord_made {m : Master} (wp : Word) {s : State} (ha : s.accesses m true Reg.ROAD_TXWP = true) :
    exec (.transmitRecord m wp) s = .next ((s.setReg Reg.ROAD_TXWP wp).txPosted m) := by
  have hplain : PlainRegister Reg.ROAD_TXWP := by decide
  have hm := (State.meetsNone_of_accesses (be := 0xF) (by decide) ha).2
  have herr := State.writeErr_plain hplain hm
  obtain ⟨-, -, hmem, hrow, -, -⟩ := hplain
  have hbus : s.busWrite m Reg.ROAD_TXWP 0xF wp = s.setReg Reg.ROAD_TXWP wp := by
    simpa [State.busWrite, hm, hmem, Option.isSome_iff_ne_none.mp hrow, herr] using State.regWrite_txwp m wp s
  have hmade : exec (.transmitRecord m wp) s = .next (s.write m Reg.ROAD_TXWP 0xF wp) :=
    congrArg Host.Outcome.next (State.access_made _ ha)
  rw [hmade, State.write, hbus]

/-- The ring's size and P1's state are the same after the pointer's write, so they decide whether it is worked off. -/
theorem State.txPosted_txwp (m : Master) (wp : Word) (s : State) : (s.setReg Reg.ROAD_TXWP wp).txPosted m =
    if s.txSize = 0 ∨ s.part 1 ≠ .inService then s.setReg Reg.ROAD_TXWP wp
    else (s.setReg Reg.ROAD_TXWP wp).txTake m (min s.txSize 0x100000 / 8 + 1) := by
  have hsize : (s.setReg Reg.ROAD_TXWP wp).txSize = s.txSize := State.txSize_setReg wp s (by decide)
  rw [State.txPosted, hsize]
  rfl

/-! ### PING (07 R221) -/

theorem State.ping_other {dst : BitVec 6} {s : State} (hother : s.svy.nid ≠ some dst) : s.ping dst =
    (({ s with road.pingDone := false, road.pingFail := false, road.pingRtt := 0, road.pingAt := some s.tre.time } : State).took
      ).sendMgmt dst 2 (0x14#8 :: beBytes 4 (s.draw % 2 ^ 32)) := if_neg hother

theorem State.ping_self {dst : BitVec 6} {s : State} (hself : s.svy.nid = some dst) : s.ping dst =
    { s with road.pingDone := true, road.pingFail := false, road.pingRtt := 0, road.pingAt := none } := by
  rw [State.ping, if_pos hself]
  simp only [State.pingReply, BitVec.sub_self]
  rfl

/-! ### Neighbours and pauses (07 R218, R219) -/

theorem State.nbrAged_aged {p : Fin 4} {nid : BitVec 6} {s : State}
    (hold : ∃ x ∈ (s.roadPort p).nbrs, x.1 = nid ∧ x.2 ≠ s.tre.time) :
    s.nbrAged p nid = (s.modRoad p fun r => { r with nbrs := r.nbrs.filter (·.1 != nid) }).raise 135 :=
  if_pos (List.any_eq_true.mpr (by simpa using hold))

theorem State.nbrAged_fresh {p : Fin 4} {nid : BitVec 6} {s : State}
    (hfresh : ∀ x ∈ (s.roadPort p).nbrs, x.1 = nid → x.2 = s.tre.time) : s.nbrAged p nid = s :=
  if_neg fun hany => by
    obtain ⟨x, hx, hold⟩ := List.any_eq_true.mp hany
    obtain ⟨hnid, hhit⟩ : x.1 = nid ∧ x.2 ≠ s.tre.time := by simpa using hold
    exact hhit (hfresh x hx hnid)

/-- A neighbour's entry with one priority's pause taken back. -/
def unpaused (nid : BitVec 6) (prio : Fin 8) (e : BitVec 6 × Byte) : BitVec 6 × Byte :=
  if e.1 = nid then (e.1, clrBit e.2 prio.val) else e

theorem unpaused_same {nid : BitVec 6} (prio : Fin 8) {e : BitVec 6 × Byte} (he : (unpaused nid prio e).1 = nid) :
    (unpaused nid prio e).2.getLsbD prio.val = false := by
  by_cases hnid : e.1 = nid
  · rw [unpaused, if_pos hnid, getLsbD_clrBit e.2 prio.val prio.isLt, if_pos rfl]
  · rw [unpaused, if_neg hnid] at he
    exact absurd he hnid

theorem unpaused_other {nid : BitVec 6} (prio : Fin 8) {e : BitVec 6 × Byte} (he : e.1 ≠ nid) : unpaused nid prio e = e :=
  if_neg he

/-- The pauses a port keeps when one neighbour's pause of one priority has ended. -/
def pausesLeft (nid : BitVec 6) (prio : Fin 8) (l : List (BitVec 6 × Byte)) : List (BitVec 6 × Byte) :=
  (l.map (unpaused nid prio)).filter fun e => decide (e.2 ≠ 0)

theorem State.pauseEnd_eq (p : Fin 4) (nid : BitVec 6) (prio : Fin 8) (s : State) : s.pauseEnd p nid prio =
    ((s.modRoad p fun r => { r with paused := pausesLeft nid prio (s.roadPort p).paused }).roadRehead p (s.roadHead p)).each
      (fins 2) fun e t => t.tunnelRelease e := by
  rfl

theorem pausesLeft_ended {nid : BitVec 6} {prio : Fin 8} {l : List (BitVec 6 × Byte)} :
    ∀ e ∈ pausesLeft nid prio l, e.1 = nid → e.2.getLsbD prio.val = false := by
  intro e he hnid
  obtain ⟨a, -, rfl⟩ := List.mem_map.mp (List.mem_filter.mp he).1
  exact unpaused_same prio hnid

theorem mem_pausesLeft_other {nid : BitVec 6} {prio : Fin 8} {l : List (BitVec 6 × Byte)} {e : BitVec 6 × Byte} (he : e ∈ l)
    (hmask : e.2 ≠ 0) (hnid : e.1 ≠ nid) : e ∈ pausesLeft nid prio l :=
  List.mem_filter.mpr ⟨List.mem_map.mpr ⟨e, he, unpaused_other prio hnid⟩, decide_eq_true hmask⟩

/-! ### The obligation -/

/-- Settles O21. The window's opening is read off what each send leaves as it stands (`State.windowOpen_window`); the other
commands are cases of their definitions. Posted records are all taken up at the end of the command that wrote ROAD_TXWP, and only
while P1 is in service (assumption log 75); a neighbour refreshed in the core cycle of its expiry stays (log 217). -/
theorem roadServes : Obligations.RoadServes := by
  unfold Obligations.RoadServes
  refine ⟨?_, ?_, ?_, ?_, ?_, ?_, ?_, ?_, ?_, ?_⟩
  · intro s hc hroom
    have hw := State.windowOpen_window hroom
    exact ⟨s.windowOpen, congrArg Host.Outcome.next (State.when_true _ hc), congrArg Prod.fst hw, congrArg Prod.snd hw⟩
  · intro s hc hempty
    exact congrArg Host.Outcome.next ((State.when_true _ hc).trans (if_pos hempty))
  · intro m wp s ha hidle
    rw [exec_transmitRecord_made wp ha, State.txPosted_txwp, if_pos hidle]
  · intro m wp s ha hring hpart
    rw [exec_transmitRecord_made wp ha, State.txPosted_txwp, if_neg (not_or.mpr ⟨hring, not_not_intro hpart⟩)]
  · intro dst s hother
    exact congrArg Host.Outcome.next (State.ping_other (s := s.setReg Reg.ROAD_PING _) hother)
  · intro dst s hself
    exact congrArg Host.Outcome.next (State.ping_self (s := s.setReg Reg.ROAD_PING _) hself)
  · intro s hc hon hup
    exact congrArg Host.Outcome.next ((State.when_true _ hc).trans (if_neg (by simp [hon, hup])))
  · intro p nid s
    refine ⟨fun hc hold => ?_, fun hfresh => ?_⟩
    · exact congrArg Host.Outcome.next ((State.when_true _ hc).trans (State.nbrAged_aged hold))
    · exact congrArg Host.Outcome.next ((congrArg (ite _ · s) (State.nbrAged_fresh hfresh)).trans (ite_self s))
  · intro p nid prio s hc
    refine ⟨pausesLeft nid prio (s.roadPort p).paused, ?_, pausesLeft_ended, fun e => mem_pausesLeft_other⟩
    exact congrArg Host.Outcome.next ((State.when_true _ hc).trans (State.pauseEnd_eq p nid prio s))
  · intro p prio s hc hpausing hheld
    exact congrArg Host.Outcome.next ((State.when_true _ hc).trans (if_pos (by simp [hpausing, hheld])))

end Sys2Proof.Machine
end

section
/-! PROOF. Entering a program state settles the wayleave and sends its request (12 R332), and the send takes up what is queued
before it: a record whose frame no port reaches any more completes in memory (07 R214, R222; 15 R401). The statements that say
memory stays over a fault, a RUN request and the return of INIT fail there. -/
namespace Sys2Proof.Machine

/-! ### A frame that no port reaches -/

/-- A unicast to node 0 at priority 7, from the transmit record at the base of SRAM. -/
def strandedFrame : QFrame :=
  mkQ (RHdr.bytes ⟨7, false, false, true, 5, 2, 0, 1, 5, 1, 0, 0⟩) (some 0x10000000) none 0

/-- Node 2, the through unit of car 2 of 3, with the benchmark in car 3: its tail port A2 works and holds the frame to car 1, and
no port of its head side is usable. -/
def strandedNode : State := { ((State.reset.modPort 1 fun c => { c with enabled := true, state := .locked }).modRoad 1
    fun r => { r with queue := [strandedFrame] }) with
  sys.phase := .running, sys.thru := true, tre.sync := .locked, tre.bench := 4
  svy.nid := some 2, svy.chain := 2, svy.cars := 3, svy.epoch := 1
  svy.nidtab := vset State.reset.svy.nidtab 4 0x80000000
  road.txpend := [(0x10000000, none)] }

/-- The same node with a program in INIT. -/
def strandedInit : State := { strandedNode with ctl.pstate := .init }

/-- The same node after its boot, with a valid program in slot A. -/
def strandedReady : State := { strandedNode with
  boot.hsst := true, boot.hsrt := true, boot.phase := .done, boot.validA := true, boot.rtver := 0xFFFFFFFF }

theorem State.byte_of_mem {s t : State} (h : t.mem = s.mem) (a : Nat) : t.byte a = s.byte a :=
  congrArg (fun m : MemBlk => sget Memory.unlisted m.cells a) h

/-! ### Its record completes: DONE and RESULT 2 in the control word -/

theorem faultStop_strandedNode_byte : (strandedNode.faultStop 0x0922 0).byte 0x10000003 = 0x60 := by decide +kernel

theorem runAsk_strandedReady_byte : (strandedReady.runAsk .runctl).byte 0x10000003 = 0x60 := by decide +kernel

theorem initDone_strandedInit_byte : (strandedInit.initDone 0).byte 0x10000003 = 0x60 := by decide +kernel

theorem strandedInit_init : strandedInit.coreRuns = true ∧ strandedInit.ctl.pstate = .init ∧ strandedInit.ctl.stopReq = false := by
  decide +kernel

theorem strandedReady_pstate : strandedReady.ctl.pstate = .none := by decide +kernel

theorem strandedReady_runs : strandedReady.progBusy = false ∧ strandedReady.sys.parts.get 2 = .inService ∧
    strandedReady.handshake = true ∧ strandedReady.boot.phase ≠ .limp ∧ strandedReady.sp.walk = false ∧
    strandedReady.inwaitUs + strandedReady.outguardUs + 100 < strandedReady.runCycleUs ∧
    strandedReady.slotValid strandedReady.slotSel = true ∧
    BitVec.ofNat 32 (strandedReady.flashLe (slotBase strandedReady.slotSel + 0x2C) 4) = strandedReady.boot.rtver := by
  decide +kernel

/-! ### The commands -/

theorem exec_runRequest (src : RunSource) (s : State) : exec (.runRequest src) s = .next (s.runAsk src) := rfl

theorem exec_initReturn {s : State} (a0 : Word) (hc : s.coreRuns = true) : exec (.initReturn a0) s = .next (s.initDone a0) :=
  congrArg Host.Outcome.next (State.when_true _ hc)

/-! ### The obligations -/

/-- Refutes O29: a fault of `strandedNode` sends RELEASE on port A2, the frame queued before it finds no port and ends as
undeliverable, and its record at 0x10000000 is marked DONE: memory is not as it was. -/
theorem not_programFaults : ¬ Obligations.ProgramFaults := by
  unfold Obligations.ProgramFaults
  intro h
  obtain ⟨hfault, _⟩ := h
  obtain ⟨_, _, _, _, _, _, _, _, hmem, _⟩ := hfault 0x0922 0 strandedNode
  exact absurd (faultStop_strandedNode_byte.symm.trans (State.byte_of_mem hmem _)) (by decide +kernel)

/-- Refutes O28: a RUN request that meets every condition takes `strandedReady` from NONE to LOAD, whose state request completes
the record at 0x10000000: memory is not as it was, though the program was not in FAULTSTOP. -/
theorem not_runRequested : ¬ Obligations.RunRequested := by
  unfold Obligations.RunRequested
  intro h
  obtain ⟨_, _, _, _, _, _, _, _, hload, _⟩ := h
  obtain ⟨hbusy, hpart, hshake, hlimp, hwalk, hfits, hvalid, hver⟩ := strandedReady_runs
  obtain ⟨t, hexec, _, _, _, _, _, _, hkeep, _⟩ :=
    hload .runctl strandedReady hbusy hpart hshake hlimp hwalk hfits hvalid hver
  rw [exec_runRequest, Host.Outcome.next.injEq] at hexec
  subst hexec
  obtain ⟨_, hmem⟩ := hkeep (by simp [strandedReady_pstate])
  exact absurd (runAsk_strandedReady_byte.symm.trans (State.byte_of_mem hmem _)) (by decide +kernel)

/-- Refutes O30: INIT of `strandedInit` returns 0 without a STOP request, and entering RUN sends the state request that completes
the record at 0x10000000: memory is not as it was. -/
theorem not_programLoads : ¬ Obligations.ProgramLoads := by
  unfold Obligations.ProgramLoads
  intro h
  obtain ⟨_, hrun, _⟩ := h
  obtain ⟨hcore, hinit, hstop⟩ := strandedInit_init
  obtain ⟨t, hexec, _, _, _, _, _, _, hmem⟩ := hrun 0 strandedInit hcore hinit (.inr rfl) hstop
  rw [exec_initReturn 0 hcore, Host.Outcome.next.injEq] at hexec
  subst hexec
  exact absurd (initDone_strandedInit_byte.symm.trans (State.byte_of_mem hmem _)) (by decide +kernel)

end Sys2Proof.Machine
end

section
/-! PROOF. What goes on beside the program leaves it alone: from a bit raised up to the frames of Open Road, the tunnel and the
wayleave, one lemma an operation (07 R203 to R232; 08 R242; 12 R332 to R338; 15 R400 to R406, R416). -/
namespace Sys2Proof.Machine

/-- How the program stands, and the control core's hart. -/
structure ProgCore where
  pstate : ProgState
  stopReq : Bool
  running : Bool
  waiting : Bool
  cycnt : Word
  skipped : Half
  hartC : HartState

def State.progCore (s : State) : ProgCore where
  pstate := s.ctl.pstate
  stopReq := s.ctl.stopReq
  running := s.ctl.running
  waiting := s.ctl.waiting
  cycnt := s.ctl.cycnt
  skipped := s.ctl.skipped
  hartC := s.ctl.hartC

/-- From s0 to s the program stood as it was, and the control core kept the gates it held. -/
def State.Spares (s0 s : State) : Prop :=
  s.progCore = s0.progCore ∧ ∀ g, (s0.gate g).owner = 1 → s.gate g = s0.gate g

namespace State.Spares
variable {s0 s : State}

theorem refl (s : State) : s.Spares s := ⟨rfl, fun _ _ => rfl⟩

theorem trans {t : State} (h : s0.Spares s) (h' : s.Spares t) : s0.Spares t := by
  obtain ⟨hprog, hgate⟩ := h
  obtain ⟨hprog', hgate'⟩ := h'
  exact ⟨hprog'.trans hprog, fun g hg => (hgate' g (by rw [hgate g hg, hg])).trans (hgate g hg)⟩

theorem pstate (h : s0.Spares s) : s.ctl.pstate = s0.ctl.pstate := congrArg ProgCore.pstate h.1
theorem stopReq (h : s0.Spares s) : s.ctl.stopReq = s0.ctl.stopReq := congrArg ProgCore.stopReq h.1
theorem running (h : s0.Spares s) : s.ctl.running = s0.ctl.running := congrArg ProgCore.running h.1
theorem waiting (h : s0.Spares s) : s.ctl.waiting = s0.ctl.waiting := congrArg ProgCore.waiting h.1
theorem cycnt (h : s0.Spares s) : s.ctl.cycnt = s0.ctl.cycnt := congrArg ProgCore.cycnt h.1
theorem skipped (h : s0.Spares s) : s.ctl.skipped = s0.ctl.skipped := congrArg ProgCore.skipped h.1
theorem hartC (h : s0.Spares s) : s.ctl.hartC = s0.ctl.hartC := congrArg ProgCore.hartC h.1

/-- A gate the control core held. -/
theorem gate {g : Fin 32} (h : s0.Spares s) (hg : (s0.gate g).owner = 1) : s.gate g = s0.gate g := by
  obtain ⟨_, hgate⟩ := h
  exact hgate g hg

/-! ### Control flow -/

theorem ite {c : Prop} [Decidable c] {a b : State} (ha : s0.Spares a) (hb : s0.Spares b) :
    s0.Spares (if c then a else b) := by
  split <;> assumption

theorem when {b : Bool} {f : State → State} (h : s0.Spares s) (hf : s0.Spares (f s)) : s0.Spares (s.when b f) := .ite hf h

theorem each {α : Type} {l : List α} {f : α → State → State} (h : s0.Spares s)
    (hf : ∀ x t, s0.Spares t → s0.Spares (f x t)) : s0.Spares (s.each l f) := by
  induction l generalizing s with
  | nil => exact h
  | cons x l ih => exact ih (hf x s h)

/-! ### Reports (08 R235, R242, R251) -/

theorem dmaFire (t : TrigSource) (h : s0.Spares s) : s0.Spares (s.dmaFire t) := h

theorem fbQueue (r : FbRec) (h : s0.Spares s) : s0.Spares (s.fbQueue r) := .ite h (.ite h h)

theorem fbEvent (n : Nat) (h : s0.Spares s) : s0.Spares (s.fbEvent n) := .ite h (.ite h (.fbQueue _ h))

theorem raise (n : Nat) (h : s0.Spares s) : s0.Spares (s.raise n) := .dmaFire _ (.when h (.fbEvent n h))

theorem raiseIf (b : Bool) (n : Nat) (h : s0.Spares s) : s0.Spares (s.raiseIf b n) := .when h (.raise n h)

theorem count (p i k : Nat) (h : s0.Spares s) : s0.Spares (s.count p i k) := by
  unfold State.count
  split
  · exact .raiseIf _ _ (.raiseIf _ _ h)
  · exact h

theorem count1 (p i : Nat) (h : s0.Spares s) : s0.Spares (s.count1 p i) := .count p i 1 h

/-! ### Memories (15) -/

theorem setReg (a : Nat) (v : Word) (h : s0.Spares s) : s0.Spares (s.setReg a v) := h

theorem setBytes (a : Nat) (bs : List Byte) (h : s0.Spares s) : s0.Spares (s.setBytes a bs) := by
  induction bs generalizing a s with
  | nil => exact h
  | cons b bs ih => exact ih (a + 1) h

theorem putWord (a : Nat) (w : Word) (h : s0.Spares s) : s0.Spares (s.putWord a w) := .setBytes a _ h

theorem setErr (a : Nat) (e : Option WordErr) (h : s0.Spares s) : s0.Spares (s.setErr a e) := h

theorem bufWrite (a : Nat) (bs : List Byte) (h : s0.Spares s) : s0.Spares (s.bufWrite a bs) := State.Spares.setBytes a bs h

theorem memLog (kind region : Nat) (src : Byte) (synd addr : Nat) (h : s0.Spares s) :
    s0.Spares (s.memLog kind region src synd addr) := .ite h (.raise _ h)

theorem eccCe (kind : Nat) (src : Byte) (a : Nat) (e : WordErr) (h : s0.Spares s) : s0.Spares (s.eccCe kind src a e) :=
  .raise _ (.memLog _ _ _ _ _ h)

theorem eccUe (kind : Nat) (src : Byte) (a : Nat) (e : WordErr) (h : s0.Spares s) : s0.Spares (s.eccUe kind src a e) :=
  .raise _ (.memLog _ _ _ _ _ h)

theorem eccReadFx (src : Byte) (a : Nat) (h : s0.Spares s) : s0.Spares (s.eccReadFx src a) := by
  unfold State.eccReadFx
  split
  · exact h
  · split
    · exact .eccCe _ _ _ _ (.setErr _ _ (.putWord _ _ h))
    · exact .eccUe _ _ _ _ h

theorem eccFullWrite (a : Nat) (v : Word) (h : s0.Spares s) : s0.Spares (s.eccFullWrite a v) :=
  .ite (.setReg _ _ (.setErr _ _ (.putWord _ _ h))) (.setErr _ _ (.putWord _ _ h))

theorem eccWrite (src : Byte) (a : Nat) (be : BitVec 4) (v : Word) (h : s0.Spares s) :
    s0.Spares (s.eccWrite src a be v) := by
  unfold State.eccWrite
  split
  · exact .eccFullWrite _ _ h
  · split
    · exact .putWord _ _ h
    · split
      · exact .eccCe _ _ _ _ (.setErr _ _ (.putWord _ _ h))
      · exact .raise _ (.eccUe _ _ _ _ (.setErr _ _ (.putWord _ _ h)))

theorem pokeWord (src : Byte) (a : Nat) (v : Word) (h : s0.Spares s) : s0.Spares (s.pokeWord src a v) := .eccWrite _ _ _ _ h

theorem pokeBytes (src : Byte) (a : Nat) (bs : List Byte) (h : s0.Spares s) : s0.Spares (s.pokeBytes src a bs) := by
  induction bs generalizing a s with
  | nil => exact h
  | cons b bs ih => exact ih (a + 1) (.eccWrite _ _ _ _ h)

theorem parityFound (src : Byte) (r : MRegion) (a : Nat) (h : s0.Spares s) : s0.Spares (s.parityFound src r a) := by
  have hlog := raise 235 (memLog 5 r.code src (a % 4) a h)
  exact .ite (.raise _ (.count1 _ _ hlog)) hlog

theorem parityFx (src : Byte) (r : MRegion) (a : Nat) (be : BitVec 4) (h : s0.Spares s) :
    s0.Spares (s.parityFx src r a be) := by
  unfold State.parityFx
  split
  · exact h
  · exact .parityFound _ _ _ h

theorem memReadFx (src : Byte) (a : Nat) (be : BitVec 4) (h : s0.Spares s) : s0.Spares (s.memReadFx src a be) := by
  unfold State.memReadFx
  split
  · exact .eccReadFx _ _ h
  · exact .eccReadFx _ _ h
  · exact .parityFx _ _ _ _ h
  · exact .parityFx _ _ _ _ h
  · exact .parityFx _ _ _ _ h
  · exact .parityFx _ _ _ _ h
  · exact h

theorem wordReads (a n : Nat) (h : s0.Spares s) : s0.Spares (s.wordReads a n) := .each h fun _ _ => .memReadFx _ _ _

theorem blockReadFx (a n : Nat) (h : s0.Spares s) : s0.Spares (s.blockReadFx a n) := by
  have hr := wordReads a n h
  exact .when hr hr

/-! ### The Causeway, as far as a frame's end reaches it (14 R390) -/

theorem cwyLogAdd (remote : Bool) (w nid cause notapp : Nat) (addr data : Word) (fseq : Nat) (h : s0.Spares s) :
    s0.Spares (s.cwyLogAdd remote w nid cause notapp addr data fseq) := .ite (.raise _ h) (.raise _ h)

theorem heldDrop (w : Fin 16) (h : s0.Spares s) : s0.Spares (s.heldDrop w) := by
  unfold State.heldDrop
  split
  · exact h
  · exact .cwyLogAdd _ _ _ _ _ _ _ _ h

theorem hostAccept (x : HostAcc) (v : Half) (par : BitVec 2) (h : s0.Spares s) : s0.Spares (s.hostAccept x v par) := by
  have hd := heldDrop x.win h
  unfold State.hostAccept
  dsimp only
  split
  · exact .raise _ (.cwyLogAdd _ _ _ _ _ _ _ _ hd)
  · split
    · exact hd
    · split
      · exact h
      · exact hd

theorem hostResume (h : s0.Spares s) : s0.Spares s.hostResume := by
  unfold State.hostResume
  split
  · exact .ite (.hostAccept _ _ _ h) h
  · exact h

theorem cwyFlightEnd (w : Fin 16) (cause idx : Nat) (h : s0.Spares s) : s0.Spares (s.cwyFlightEnd w cause idx) := by
  unfold State.cwyFlightEnd
  split
  · exact h
  · refine .hostResume (.ite h ?_)
    split
    · exact h
    · exact .cwyLogAdd _ _ _ _ _ _ _ _ h

theorem cwyTxResult (w : Fin 16) (result : Nat) (h : s0.Spares s) : s0.Spares (s.cwyTxResult w result) := by
  unfold State.cwyTxResult
  split
  · exact h
  all_goals exact .cwyFlightEnd _ _ _ h

theorem doneRx (w : Fin 16) (b : List Byte) (h : s0.Spares s) : s0.Spares (s.doneRx w b) := .ite (.cwyFlightEnd _ _ _ h) h

/-! ### The E ports (07 R229 to R232) -/

theorem pfcCheck (e : Fin 2) (p : Fin 8) (h : s0.Spares s) : s0.Spares (s.pfcCheck e p) := by
  have hsent : ∀ t, s0.Spares t → s0.Spares (State.pfcCount e t) := fun t ht =>
    .count1 _ _ (.count1 _ _ (.count1 _ _ (.count _ _ _ (.count1 _ _ ht))))
  exact .ite h (.ite (hsent _ h) (.ite (hsent _ h) h))

theorem ethFreed (x : EthQ) (h : s0.Spares s) : s0.Spares (s.ethFreed x) := .each h fun _ _ => .pfcCheck _ _

theorem ethParity (e : Fin 2) (h : s0.Spares s) : s0.Spares (s.ethParity e) := .count1 _ _ (.raise _ (.memLog _ _ _ _ _ h))

theorem ethNextOf (e : Fin 2) (k : Nat) (h : s0.Spares s) : s0.Spares (State.ethNextOf e k s) := by
  induction k generalizing s with
  | zero => exact h
  | succ k ih =>
    unfold State.ethNextOf
    split
    · exact h
    · exact .ite h (ih (.ethFreed _ (.ethParity _ h)))

theorem ethKick (e : Fin 2) (h : s0.Spares s) : s0.Spares (s.ethKick e) := .when h (.ethNextOf _ _ h)

theorem ethSend (e : Fin 2) (x : EthQ) (h : s0.Spares s) : s0.Spares (s.ethSend e x) := by
  have ht : s0.Spares ((s.modEth e fun c => { c with queue := c.queue ++ [x] }).ethKick e) := .ethKick _ h
  exact .ite (.pfcCheck _ _ ht) ht

theorem ethLearn (mac : BitVec 48) (src : BitVec 7) (h : s0.Spares s) : s0.Spares (s.ethLearn mac src) := by
  unfold State.ethLearn
  split
  · exact h
  · dsimp only
    split
    · exact h
    · exact .raise _ h
  · exact h
  · exact .ite h (.raise _ h)

/-! ### Open Road: a frame queued, and one that ends (07) -/

theorem roadDraw (p : Fin 4) (h : s0.Spares s) : s0.Spares (s.roadDraw p) := by
  unfold State.roadDraw
  dsimp only
  split <;> exact h

theorem roadAgain (p : Fin 4) (before : Option QFrame) (h : s0.Spares s) : s0.Spares (s.roadAgain p before) := by
  unfold State.roadAgain
  dsimp only
  split
  · split
    · exact h
    · exact .ite h h
  · exact .roadDraw _ h

theorem roadPut (p : Fin 4) (q : QFrame) (h : s0.Spares s) : s0.Spares (s.roadPut p q) := .roadAgain _ _ h

theorem txDone (a : Word) (result : Nat) (h : s0.Spares s) : s0.Spares (s.txDone a result) := by
  have ht := pokeWord 7 a.toNat (s.peekWord a.toNat &&& 0x8FFFFFFF ||| packW [(30, 1), (28, result)]) (blockReadFx a.toNat 4 h)
  exact .ite h (.when (.raise _ ht) (.count1 _ _ (.raise _ ht)))

theorem roadRxCount (x : RHdr) (h : s0.Spares s) : s0.Spares (s.roadRxCount x) :=
  .count1 _ _ (.count1 _ _ (.count _ _ _ (.count1 _ _ h)))

theorem frameCount (q : QFrame) (result : Nat) (h : s0.Spares s) : s0.Spares (s.frameCount q result) := by
  have hrx : s0.Spares (s.when (decide (q.acct = 1)) (State.roadRxCount (RHdr.parse q.body))) := .when h (.roadRxCount _ h)
  unfold State.frameCount
  dsimp only
  split
  · exact .ite h (.when hrx (.count1 _ _ hrx))
  · split
    · exact .count1 _ _ (.count _ _ _ (.count1 _ _ h))
    · exact .count1 _ _ h
    · exact h

theorem frameEnd (q : QFrame) (result : Nat) (h : s0.Spares s) : s0.Spares (s.frameEnd q result) := by
  have hrecord : ∀ t, s0.Spares t → s0.Spares (match q.src with | some r => t.txDone r result | none => t) := by
    intro t ht
    split
    · exact .txDone _ _ ht
    · exact ht
  have hwindow : ∀ t, s0.Spares t → s0.Spares (match q.cwy with | some w => t.cwyTxResult w result | none => t) := by
    intro t ht
    split
    · exact .cwyTxResult _ _ ht
    · exact ht
  have hd := hwindow _ (hrecord _ (frameCount q result h))
  exact .ite h (.ite hd hd)

theorem undeliverable (q : QFrame) (h : s0.Spares s) : s0.Spares (s.undeliverable q) :=
  .frameEnd _ _ (.raise _ (.count1 _ _ h))

theorem sendPause (p : Fin 4) (prio ptime : Nat) (h : s0.Spares s) : s0.Spares (s.sendPause p prio ptime) := by
  have hp : ∀ q, s0.Spares (s.bumpSeq.roadPut p q) := fun q => .roadPut _ _ h
  exact .when (hp _) (.raise _ (hp _))

theorem pauseCheck (p : Fin 4) (prio : Nat) (h : s0.Spares s) : s0.Spares (s.pauseCheck p prio) :=
  .ite h (.ite (.sendPause _ _ _ h) (.ite (.sendPause _ _ _ h) h))

theorem frameLeft (q : QFrame) (h : s0.Spares s) : s0.Spares (s.frameLeft q) := by
  have ht : s0.Spares (match q.from_ with
      | some p => s.pauseCheck p (RHdr.parse q.body).prio
      | none => s) := by
    split
    · exact .pauseCheck _ _ h
    · exact h
  unfold State.frameLeft
  dsimp only
  split
  · exact .pfcCheck _ _ ht
  · exact ht

theorem frameLost (q : QFrame) (h : s0.Spares s) : s0.Spares (s.frameLost q) :=
  .frameLeft _ (.ite (.frameEnd _ _ h) (.undeliverable _ h))

theorem roadSort (p : Fin 4) (k : Nat) (h : s0.Spares s) : s0.Spares (State.roadSort p k s) := by
  induction k generalizing s with
  | zero => exact h
  | succ k ih =>
    unfold State.roadSort
    split
    · exact h
    · split
      · exact h
      · split
        · exact .ite h (ih (.roadPut _ _ h))
        · exact ih (.frameLost _ h)

theorem roadRehead (p : Fin 4) (before : Option QFrame) (h : s0.Spares s) : s0.Spares (s.roadRehead p before) :=
  .roadAgain _ _ (.roadSort _ _ h)

theorem roadEnqueue (p : Fin 4) (q : QFrame) (h : s0.Spares s) : s0.Spares (s.roadEnqueue p q) := .roadRehead _ _ h

theorem sendLocal (p : Fin 4) (bcast : Bool) (dst : BitVec 6) (tag : BitVec 2) (payload : List Byte) (h : s0.Spares s) :
    s0.Spares (s.sendLocal p bcast dst tag payload) := .roadEnqueue _ _ h

theorem sendUnicast (dst : BitVec 6) (q : QFrame) (h : s0.Spares s) : s0.Spares (s.sendUnicast dst q) := by
  unfold State.sendUnicast
  split
  · exact .frameEnd _ _ h
  · split
    · exact .roadEnqueue _ _ h
    · exact .undeliverable _ h

theorem sendBcast (q : QFrame) (h : s0.Spares s) : s0.Spares (s.sendBcast q) := by
  unfold State.sendBcast
  split
  · exact .frameEnd _ _ h
  · exact .each h fun _ _ => .roadEnqueue _ _

theorem sendMgmt (dst : BitVec 6) (tag : BitVec 2) (payload : List Byte) (h : s0.Spares s) :
    s0.Spares (s.sendMgmt dst tag payload) := .sendUnicast _ _ h

theorem sendMgmtAll (payload : List Byte) (h : s0.Spares s) : s0.Spares (s.sendMgmtAll payload) := .sendBcast _ h

/-! ### The rings in SRAM and the tunnel (07 R223, R230, R231) -/

theorem chanWrite (ch flags : Nat) (p : Fin 4) (body : List Byte) (h : s0.Spares s) :
    s0.Spares (s.chanWrite ch flags p body) := by
  unfold State.chanWrite
  dsimp only
  split
  · exact h
  · exact .raise _ (pokeBytes _ _ _ (.when h (.pokeWord _ _ _ h)))

theorem tunnelHere (body : List Byte) (h : s0.Spares s) : s0.Spares (s.tunnelHere body) :=
  .ite (.ethLearn _ _ (.count1 _ _ h)) (.ite (.chanWrite _ _ _ _ (.count1 _ _ (.count1 _ _ h))) h)

theorem tunnelSend (e : Fin 2) (dst : Option (BitVec 6)) (x : EthQ) (h : s0.Spares s) : s0.Spares (s.tunnelSend e dst x) := by
  have ht : s0.Spares (s.count1 (ethCnt e) 15).bumpSeq := count1 (ethCnt e) 15 h
  unfold State.tunnelSend
  refine .ite h (.ite (.pfcCheck _ _ h) (.ite (.ethParity _ h) ?_))
  dsimp only
  split
  · exact .ite (.tunnelHere _ ht) (.pfcCheck _ _ (.sendUnicast _ _ ht))
  · exact .pfcCheck _ _ (.sendBcast _ ht)

theorem tunnelRelease (e : Fin 2) (h : s0.Spares s) : s0.Spares (s.tunnelRelease e) := by
  refine .each h fun x t ht => .pfcCheck _ _ ?_
  split
  · exact .tunnelSend _ _ _ ht
  · exact ht

theorem ethSwitch (src : BitVec 7) (e? : Option (Fin 2)) (prio : Fin 8) (b : List Byte) (h : s0.Spares s) :
    s0.Spares (s.ethSwitch src e? prio b) := by
  have hl := ethLearn (ethMac b 6) src h
  unfold State.ethSwitch
  dsimp only
  split
  · have hf := each (l := (s.ethLearn (ethMac b 6) src).floodPorts src) hl fun e t => ethSend e ⟨prio, src, b, []⟩
    split
    · exact .ite (.tunnelSend _ _ _ (.count1 _ _ hf)) (.count1 _ _ hf)
    · exact hf
  · refine .ite ?_ (.ite (.ite (.ethSend _ _ hl) hl) ?_)
    · split
      · exact .count1 _ _ hl
      · exact hl
    · split
      · exact .tunnelSend _ _ _ hl
      · exact hl

theorem pauseRx (p : Fin 4) (nid : BitVec 6) (mask : Byte) (ptime : Nat) (h : s0.Spares s) :
    s0.Spares (s.pauseRx p nid mask ptime) := .raise _ (.each (.roadRehead _ _ h) fun _ _ => .tunnelRelease _)

/-! ### The wayleave (12) -/

theorem laneTo (st : LaneState) (h : s0.Spares s) : s0.Spares (s.laneTo st) := .ite h (.raise _ h)

theorem laneOffDrive (h : s0.Spares s) : s0.Spares s.laneOffDrive := .ite (.laneTo _ h) h

theorem wlvReqRx (nid : BitVec 6) (req flags : Byte) (h : s0.Spares s) : s0.Spares (s.wlvReqRx nid req flags) :=
  .ite h (.ite h h)

theorem wlvSend (req : Nat) (h : s0.Spares s) : s0.Spares (s.wlvSend req) := by
  unfold State.wlvSend
  dsimp only
  split
  · exact h
  · exact .ite (.wlvReqRx _ _ _ h) (.sendMgmt _ _ _ h)

theorem wlvShot (req : Nat) (h : s0.Spares s) : s0.Spares (s.wlvShot req) := .wlvSend _ h

theorem wlvAskNow (req : Nat) (h : s0.Spares s) : s0.Spares (s.wlvAskNow req) := .wlvSend _ h

theorem drillEnd (ok : Bool) (h : s0.Spares s) : s0.Spares (s.drillEnd ok) := .when (.raise _ h) (.wlvShot _ (.raise _ h))

theorem driveEnd (h : s0.Spares s) : s0.Spares s.driveEnd := by
  have hoff := raise 211 (s := { s with lane.perm := false, wlv.ovr := false }) h
  exact ite (.laneOffDrive (.when hoff (.drillEnd _ hoff))) h

theorem ilCheck (h : s0.Spares s) : s0.Spares s.ilCheck := .ite (.ite h (.raise _ h)) (.ite (.raise _ h) h)

theorem revCheck (h : s0.Spares s) : s0.Spares s.revCheck := .ite h h

theorem wlvIdle (h : s0.Spares s) : s0.Spares s.wlvIdle := ite (.driveEnd h) h

theorem wlvRun (h : s0.Spares s) : s0.Spares s.wlvRun :=
  ite (driveEnd (.raise _ (ite (driveEnd (ite h h)) (ite h h)))) (ite (driveEnd (ite h h)) (ite h h))

theorem ownUpdate (h : s0.Spares s) : s0.Spares s.ownUpdate := .ite (.ite h (.ite h (.ite h h))) (.ite h h)

theorem peerLostCheck (h : s0.Spares s) : s0.Spares s.peerLostCheck := .when h (.wlvShot _ h)

theorem wlvAsk (h : s0.Spares s) : s0.Spares s.wlvAsk := .ite h (.wlvAskNow _ h)

theorem wlvSync (h : s0.Spares s) : s0.Spares s.wlvSync := by
  have ha := ilCheck (revCheck h)
  exact .ite h (.wlvAsk (.peerLostCheck (.ite (.ownUpdate (.wlvRun ha)) (.wlvIdle ha))))

/-! ### Tone maps, claims and the table, as far as a frame to this node itself reaches them (04 R120, R121; 06 R189, R190) -/

theorem ringAnnounceAgain (h : s0.Spares s) : s0.Spares s.ringAnnounceAgain := by
  unfold State.ringAnnounceAgain
  split
  · exact .ite (.sendMgmtAll _ h) h
  · exact h

theorem ringBuild (h : s0.Spares s) : s0.Spares s.ringBuild := by
  unfold State.ringBuild
  refine .ite h ?_
  split
  · exact h
  · exact .ite h (.ringAnnounceAgain h)

theorem summaryRx (src : BitVec 6) (epoch : Byte) (snr : List Byte) (h : s0.Spares s) :
    s0.Spares (s.summaryRx src epoch snr) := .ite h (.ringBuild h)

theorem announceAgain (p : Fin 4) (h : s0.Spares s) : s0.Spares (s.announceAgain p) := by
  unfold State.announceAgain
  split
  · exact .ite (.sendLocal _ _ _ _ _ h) h
  · exact h

theorem segBuild (p : Fin 4) (h : s0.Spares s) : s0.Spares (s.segBuild p) := .ite h (.ite h (.announceAgain _ h))

theorem segAllAcked (p : Fin 4) (h : s0.Spares s) : s0.Spares (s.segAllAcked p) := by
  unfold State.segAllAcked
  split
  · exact .ite (.sendLocal _ _ _ _ _ h) h
  · exact h

theorem claimRx (nid : BitVec 6) (len8 user : Nat) (h : s0.Spares s) : s0.Spares (s.claimRx nid len8 user) := by
  unfold State.claimRx
  refine .ite h (.ite (.ite h h) ?_)
  dsimp only
  split
  · exact h
  · exact .ite h h

theorem claimSend (h : s0.Spares s) : s0.Spares s.claimSend := by
  unfold State.claimSend
  split
  · exact h
  · exact .each (.raise _ h) fun _ _ ht => .ite (.claimRx _ _ _ ht) (.sendMgmt _ _ _ ht)

theorem claimStart (h : s0.Spares s) : s0.Spares s.claimStart := .ite (.claimSend h) h

theorem entriesStart (h : s0.Spares s) : s0.Spares s.entriesStart := .ite (.ite h h) (.claimStart h)

theorem tableBroadcast (h : s0.Spares s) : s0.Spares s.tableBroadcast := .ite (.sendMgmtAll _ h) h

theorem pingReply (h : s0.Spares s) : s0.Spares s.pingReply := by
  unfold State.pingReply
  split <;> exact h

/-! ### Line management that reaches this node (07 Table 7.3) -/

section
variable (f : RxFrame) (x : RHdr) (b : List Byte) (h : s0.Spares s)
include h

theorem onSnrReport : s0.Spares (onSnrReport f x b s) := .ite h (.segBuild _ h)

theorem onSegmentAnnounce : s0.Spares (onSegmentAnnounce f x b s) := .ite h (.sendLocal _ _ _ _ _ h)

theorem onRingAnnounce : s0.Spares (onRingAnnounce f x b s) := .ite h (.sendMgmt _ _ _ h)

theorem onToneAck : s0.Spares (onToneAck f x b s) := by
  unfold Machine.onToneAck
  dsimp only
  split
  · split
    · exact .ite (.segAllAcked _ h) h
    · exact h
  · split
    · exact .ite h h
    · exact h

theorem onSegmentSummary : s0.Spares (onSegmentSummary f x b s) := .summaryRx _ _ _ h

theorem onSegmentActivate : s0.Spares (onSegmentActivate f x b s) := .ite h h

theorem onJoin : s0.Spares (onJoin f x b s) := .ite (.sendLocal _ _ _ _ _ h) h

theorem onHere : s0.Spares (onHere f x b s) := .ite h (.ite (.wlvSync (.entriesStart (.raise _ h))) h)

theorem onResume : s0.Spares (onResume f x b s) := .ite h h

theorem onEcho : s0.Spares (onEcho f x b s) := .ite (.pingReply h) (.sendMgmt _ _ _ h)

theorem onReply : s0.Spares (onReply f x b s) := .pingReply h

theorem onClaim : s0.Spares (onClaim f x b s) := .claimRx _ _ _ h

theorem onTableRequest : s0.Spares (onTableRequest f x b s) := .ite (.tableBroadcast h) h

theorem onTable : s0.Spares (onTable f x b s) := .ite h (.ite h (.raise _ h))

theorem onWayleave : s0.Spares (onWayleave f x b s) := .wlvReqRx _ _ _ h

end

/-! ### Any frame that reaches this node (07 Tables 7.2, 7.3) -/

section
variable (f : RxFrame) (x : RHdr) (h : s0.Spares s)
include h

theorem mgmt (kind : Nat) {act : RxFrame → RHdr → List Byte → State → State}
    (hact : ∀ b t, s0.Spares t → s0.Spares (act f x b t)) : s0.Spares ((mgmt kind act).act f x s) :=
  hact _ _ (.count1 _ _ h)

theorem deliverUser : s0.Spares (deliverUser.act f x s) := .chanWrite _ _ _ _ (.count1 _ _ (.count1 _ _ h))

theorem deliverTunnel : s0.Spares (deliverTunnel.act f x s) := by
  have ht := count1 4 16 h
  exact .ite (.ethSwitch _ _ _ _ ht) (.chanWrite _ _ _ _ (.count1 _ _ ht))

theorem deliverPause : s0.Spares (deliverPause.act f x s) := .pauseRx _ _ _ _ h

theorem deliverCwyWrite : s0.Spares (deliverCwyWrite.act f x s) := .count1 4 17 h

theorem deliverCwyDone : s0.Spares (deliverCwyDone.act f x s) := .ite (.doneRx _ _ (.count1 _ _ h)) (.count1 _ _ h)

/-- Every class and line-management kind that has an effect. -/
theorem deliveries {d : Deliver} (hd : d ∈ deliveries) : s0.Spares (d.act f x s) := by
  simp only [Machine.deliveries, List.mem_cons, List.not_mem_nil, or_false] at hd
  rcases hd with rfl | rfl | rfl | rfl | rfl | rfl | rfl | rfl | rfl | rfl | rfl | rfl | rfl | rfl | rfl | rfl | rfl |
    rfl | rfl | rfl | rfl
  · exact mgmt f x h _ fun b _ => onSnrReport f x b
  · exact mgmt f x h _ fun b _ => onSegmentAnnounce f x b
  · exact mgmt f x h _ fun b _ => onRingAnnounce f x b
  · exact mgmt f x h _ fun b _ => onToneAck f x b
  · exact mgmt f x h _ fun b _ => onSegmentSummary f x b
  · exact mgmt f x h _ fun b _ => onSegmentActivate f x b
  · exact mgmt f x h _ fun b _ => onJoin f x b
  · exact mgmt f x h _ fun b _ => onHere f x b
  · exact mgmt f x h _ fun b _ => onResume f x b
  · exact mgmt f x h _ fun _ _ ht => ht
  · exact mgmt f x h _ fun b _ => onEcho f x b
  · exact mgmt f x h _ fun b _ => onReply f x b
  · exact mgmt f x h _ fun b _ => onClaim f x b
  · exact mgmt f x h _ fun b _ => onTableRequest f x b
  · exact mgmt f x h _ fun b _ => onTable f x b
  · exact mgmt f x h _ fun b _ => onWayleave f x b
  · exact deliverUser f x h
  · exact deliverTunnel f x h
  · exact deliverPause f x h
  · exact deliverCwyWrite f x h
  · exact deliverCwyDone f x h

theorem deliverAny : s0.Spares (deliverAny.act f x s) := by
  show s0.Spares (match s.deliveryOf x f.body with | some d => d.act f x s | none => s)
  split
  · next d hd => exact deliveries f x h (List.mem_of_find?_eq_some hd)
  · exact h

end

/-! ### Transmit records (07 R222) -/

theorem selfDeliver (body : List Byte) (h : s0.Spares s) : s0.Spares (s.selfDeliver body).1 := by
  unfold State.selfDeliver
  dsimp only
  split
  · exact deliverAny _ _ h
  · exact h
  · exact h

theorem recordSend (keep : Bool) (a : Nat) (h : s0.Spares s) : s0.Spares (s.recordSend keep a) := by
  unfold State.recordSend
  extract_lets h0 x body _ _ t q u
  have ht : s0.Spares t := blockReadFx (a + 4) (12 + x.plen) h
  have hu : s0.Spares u := .ite ht ht
  exact .ite (.frameEnd _ _ ht) (.ite (.sendBcast _ hu) (.ite (.frameEnd _ _ (.selfDeliver _ hu)) (.sendUnicast _ _ hu)))

theorem txTake (m : Master) (k : Nat) (h : s0.Spares s) : s0.Spares (s.txTake m k) := by
  induction k generalizing s with
  | zero => exact h
  | succ k ih =>
    unfold State.txTake
    have ht := blockReadFx s.txNext 4 h
    exact .ite h (.ite (.when ht (.blockReadFx _ _ ht)) (ih (.recordSend _ _ (.when ht (.blockReadFx _ _ ht)))))

theorem txPosted (m : Master) (h : s0.Spares s) : s0.Spares (s.txPosted m) := .ite h (.txTake _ _ h)

/-! ### What a read by the control core does besides answering (00 R471; 04 R134; 15 R417) -/

/-- Taking a free gate moves none that the control core held. -/
theorem gateTryFx (code : Byte) (g : Fin 32) (h : s0.Spares s) : s0.Spares (s.gateTryFx code g) := by
  unfold State.gateTryFx
  split
  · next htakes =>
    obtain ⟨hprog, hgate⟩ := h
    refine ⟨hprog, fun k hk => ?_⟩
    have hne : k ≠ g := by
      rintro rfl
      have hfree : (s.gate k).owner = 0 := by
        simp only [State.gateTakes, Bool.and_eq_true, decide_eq_true_eq] at htakes
        exact htakes.left
      rw [hgate k hk, hk] at hfree
      exact absurd hfree (by decide)
    rw [State.gate_setGate, if_neg hne, hgate k hk]
  · exact h

theorem claimFx (x : Hart) (h : s0.Spares s) : s0.Spares (s.claimFx x) := by
  unfold State.claimFx
  split <;> split <;> exact h

theorem fbTake (h : s0.Spares s) : s0.Spares s.fbTake := by
  unfold State.fbTake
  refine .ite h (.ite h ?_)
  split <;> exact h

theorem fbRawPop (h : s0.Spares s) : s0.Spares s.fbRawPop := by
  unfold State.fbRawPop
  split
  · exact .raiseIf _ _ (fbTake h)
  · exact h

theorem cwyLogPop (h : s0.Spares s) : s0.Spares s.cwyLogPop := by
  unfold State.cwyLogPop
  split <;> exact h

theorem elogPop (h : s0.Spares s) : s0.Spares s.elogPop := by
  unfold State.elogPop
  split <;> exact h

theorem learnqPop (h : s0.Spares s) : s0.Spares s.learnqPop := by
  unfold State.learnqPop
  split <;> exact h

theorem tsShadow (a : Nat) (h : s0.Spares s) : s0.Spares (s.tsShadow a) := .ite h (.ite h (.ite h (.ite h h)))

theorem shadowTaken (a : Nat) (h : s0.Spares s) : s0.Spares (s.shadowTaken a) := .ite h (.ite h (.ite h (.ite h h)))

theorem wholeReadFx (m : Master) (a : Nat) (h : s0.Spares s) : s0.Spares (s.wholeReadFx m a) :=
  .ite (.claimFx _ h) (.ite (.claimFx _ h) (.ite (.gateTryFx _ _ h) (.ite h (.ite h (.ite h (.ite (.learnqPop h)
    (.ite (.cwyLogPop h) (.ite (.elogPop h) (.ite (.fbRawPop h) (.shadowTaken _ (.tsShadow _ h)))))))))))

theorem regReadFx (m : Master) (a : Nat) (be : BitVec 4) (h : s0.Spares s) : s0.Spares (s.regReadFx m a be) := by
  have hw : s0.Spares (s.when (decide (be = 0xF)) (State.wholeReadFx m a)) := .when h (.wholeReadFx _ _ h)
  exact .ite hw (.ite hw hw)

theorem busReadFx (m : Master) (a : Nat) (be : BitVec 4) (h : s0.Spares s) : s0.Spares (s.busReadFx m a be) :=
  .ite (.ite (.memReadFx _ _ _ h) h) (.ite h (.regReadFx _ _ _ h))

theorem coreReads (l : List Nat) (h : s0.Spares s) : s0.Spares (s.coreReads l) := by
  induction l generalizing s with
  | nil => exact h
  | cons w l ih => exact .ite (.busReadFx _ _ _ h) (ih (.busReadFx _ _ _ h))

/-! ### The latch instant but for its control cycle (06 R197; 12 R330, R339, R344, R345) -/

theorem frzok (v : BitVec 256) (h : s0.Spares s) : s0.Spares { s with tre.frzok := v } := h

theorem freeze (h : s0.Spares s) : s0.Spares s.freeze :=
  frzok _ (bufWrite 0x4004B000 (s.bytesAt 0x4004A000 4096) (wordReads 0x4004A000 4096 h))

theorem ilRenew (h : s0.Spares s) : s0.Spares s.ilRenew := .ite h (.wlvAskNow _ (driveEnd h))

theorem leaseCount (h : s0.Spares s) : s0.Spares s.leaseCount := by
  unfold State.leaseCount
  refine .ite (.ilRenew h) (.ite h (.ite h ?_))
  exact .ite (.ilRenew (raiseIf _ 209 h)) (raiseIf _ 209 h)

theorem ilCount (h : s0.Spares s) : s0.Spares s.ilCount := h

theorem drillCount (h : s0.Spares s) : s0.Spares s.drillCount := h

theorem askCount (h : s0.Spares s) : s0.Spares s.askCount := h

theorem revCount (cycleNs : Nat) (missing : Bool) (h : s0.Spares s) : s0.Spares (s.revCount cycleNs missing) := .ite h h

theorem laneLatch (h : s0.Spares s) : s0.Spares s.laneLatch := ite (.laneTo _ h) h

theorem ctxFill (h : s0.Spares s) : s0.Spares s.ctxFill := .each h fun _ _ => .pokeWord _ _ _

/-- A program state is entered: what goes with it leaves the rest of the program alone. -/
theorem progTo (p : ProgState) (s : State) : State.Spares { s with ctl.pstate := p } (s.progTo p) := by
  unfold State.progTo
  exact .wlvSync (.raiseIf _ _ (.raiseIf _ _ (.refl _)))

end State.Spares

end Sys2Proof.Machine
end

section
/-! PROOF. The control cycle at a latch instant: what goes on beside it leaves the program alone, so CYCNO, SKIPPED and the states
are those of the cycle's own case (06 R197; 09 R262, R277). -/
namespace Sys2Proof.Machine

namespace State.Spares
variable {s0 s : State}

theorem cause (n : Nat) (h : s0.Spares s) : s0.Spares (s.cause n) := .ite h h

theorem latchCauses (h : s0.Spares s) : s0.Spares s.latchCauses := by
  unfold State.latchCauses
  extract_lets free watched a b c
  have ha : s0.Spares a := .when h (.cause _ h)
  have hb : s0.Spares b := .when ha (.cause _ ha)
  exact when hb (.cause _ hb)

end State.Spares

/-- A latch instant is its control cycle, after and before what leaves the program alone. -/
theorem State.latch_eq (s : State) : ∃ y, s.Spares y ∧ s.latch = y.latchCycle.wlvSync := by
  unfold State.latch
  extract_lets _ _ a b c
  have ha : s.Spares a := .refl s
  have hb : s.Spares b := .dmaFire _ (.raise _ (.freeze ha))
  have hc : s.Spares c := .askCount (.revCount _ _ (.drillCount (.ilCount (.leaseCount hb))))
  exact ⟨c.laneLatch, .laneLatch hc, rfl⟩

/-- A latch instant missed by a running cycle (R277). -/
def State.latchMissed (s : State) : State :=
  { s with ctl.sinceOwn := s.ctl.sinceOwn + 1, ctl.skipped := satSucc s.ctl.skipped }

/-- The control cycle's share with a cycle running. -/
theorem State.latchCycle_eq_of_running {s : State} (hrun : s.ctl.running = true) :
    s.latchCycle =
      if s.ctl.pstate = .run then
        if s.ctl.stopReq = true then
          (State.progTo .stop { s.latchMissed.latchCauses with ctl.stopReq := false }).ctxFill
        else s.latchMissed.latchCauses.ctxFill
      else s.latchMissed.ctxFill := by
  have hb : s.latchMissed.Spares s.latchMissed.latchCauses := .latchCauses (.refl _)
  unfold State.latchCycle
  rw [if_pos hrun]
  change (if s.ctl.pstate ≠ .run then s.latchMissed.ctxFill
    else if s.latchMissed.latchCauses.ctl.stopReq = true then _
    else if s.latchMissed.latchCauses.ctl.running = true then s.latchMissed.latchCauses.ctxFill else _) = _
  rw [ite_not, hb.stopReq.trans rfl, if_pos (hb.running.trans hrun)]
  rfl

/-- With a cycle still running it goes on, SKIPPED counts, and a STOP request takes effect on a program in RUN. -/
theorem State.latchCycle_running {s : State} (hrun : s.ctl.running = true) :
    State.Spares { s with
      ctl.skipped := satSucc s.ctl.skipped
      ctl.pstate := if s.ctl.pstate = .run ∧ s.ctl.stopReq = true then .stop else s.ctl.pstate
      ctl.stopReq := s.ctl.stopReq && decide (s.ctl.pstate ≠ .run) } s.latchCycle := by
  have hb : s.latchMissed.Spares s.latchMissed.latchCauses := .latchCauses (.refl _)
  rw [State.latchCycle_eq_of_running hrun]
  by_cases hp : s.ctl.pstate = .run
  · rw [if_pos hp]
    by_cases hstop : s.ctl.stopReq = true
    · rw [if_pos hstop]
      refine .ctxFill (.trans ?_ (.progTo .stop _))
      refine ⟨?_, hb.2⟩
      simp only [State.progCore, hb.running, hb.waiting, hb.cycnt, hb.skipped, hb.hartC]
      simp [hp, hstop, State.latchMissed]
    · rw [if_neg hstop]
      refine .ctxFill ⟨hb.1.trans ?_, hb.2⟩
      simp [State.progCore, hp, hstop, State.latchMissed]
  · rw [if_neg hp]
    refine .ctxFill ⟨?_, fun _ _ => rfl⟩
    simp [State.progCore, hp, State.latchMissed]

/-- With none running and no STOP request a program in RUN starts a cycle, which waits for its inputs. -/
theorem State.latchCycle_idle {s : State} (hp : s.ctl.pstate = .run) (hstop : s.ctl.stopReq = false)
    (hrun : s.ctl.running = false) :
    State.Spares { s with ctl.running := true, ctl.waiting := true, ctl.cycnt := s.ctl.cycnt + 1 } s.latchCycle := by
  have hb : s.Spares s.latchCauses := .latchCauses (.refl s)
  have hc : s.Spares s.latchCauses.ctxFill := .ctxFill hb
  have hcycle : s.latchCycle = s.latchCauses.cycleStart := by
    simp [State.latchCycle, hrun, hp, hb.stopReq, hb.running, hstop]
  rw [hcycle]
  refine ⟨?_, hc.2⟩
  simp [State.progCore, State.cycleStart, hc.pstate, hc.stopReq, hc.cycnt, hc.skipped, hc.hartC]

/-! ### The obligation -/

/-- Settles O31: the control cycle's share of the latch instant, a cycle running or not. -/
theorem latchWhileRunning : Obligations.LatchWhileRunning := by
  unfold Obligations.LatchWhileRunning
  refine ⟨fun s hc hdue hrun => ?_, fun s hc hdue hp hstop hrun => ?_⟩
  · obtain ⟨y, hy, hlatch⟩ := s.latch_eq
    have ht := State.Spares.wlvSync (State.latchCycle_running (hy.running.trans hrun))
    refine ⟨_, by rw [exec_latchInstant, State.when_true _ hc, if_pos hdue, hlatch], ht.running.trans (hy.running.trans hrun),
      ht.cycnt.trans hy.cycnt, ht.waiting.trans hy.waiting, ?_, ?_⟩
    · rw [ht.skipped, hy.skipped]
    · rw [ht.pstate, hy.pstate, hy.stopReq]
  · obtain ⟨y, hy, hlatch⟩ := s.latch_eq
    have ht := State.Spares.wlvSync
      (State.latchCycle_idle (hy.pstate.trans hp) (hy.stopReq.trans hstop) (hy.running.trans hrun))
    refine ⟨_, by rw [exec_latchInstant, State.when_true _ hc, if_pos hdue, hlatch], ht.pstate.trans (hy.pstate.trans hp),
      ht.running, ?_, ht.waiting, ht.skipped.trans hy.skipped⟩
    rw [ht.cycnt, hy.cycnt]

end Sys2Proof.Machine
end

section
/-! PROOF. The runtime services: the ECALL's trap and the way back behind it, then each service's own result (09 R262, R265, R273,
R274; 15 R416 to R424; logs 77, 102, 224). -/
namespace Sys2Proof.Machine

/-! ### Registers of a hart (09 Table 9.3) -/

/-- What a control and status register reads after one was stored. -/
theorem HartState.csr_put (h : HartState) (n m : Nat) (v : Word) : (h.put n v).csr m = if m = n then v else h.csr m := by
  unfold HartState.put HartState.csr
  by_cases hepc : n = 0x341
  · subst hepc
    simp only [if_true]
    split <;> rfl
  · by_cases htval : n = 0x343
    · subst htval
      by_cases hm : m = 0x343 <;> simp [hm]
    · simp only [hepc, htval, if_false, sget_sput]
      by_cases hm : m = n
      · simp [hm, hepc, htval]
      · simp [hm]

theorem HartState.put_x (h : HartState) (n : Nat) (v : Word) : (h.put n v).x = h.x := by
  unfold HartState.put
  split
  · rfl
  · split <;> rfl

theorem HartState.trap_x (h : HartState) (cause epc tval : Word) : (h.trap cause epc tval).x = h.x := by
  simp [HartState.trap, HartState.put_x]

/-- What a trap stores: mstatus over mtval over mcause over mepc. -/
theorem HartState.csr_trap (h : HartState) (cause epc tval : Word) (n : Nat) : (h.trap cause epc tval).csr n =
    if n = 0x300 then packW [(3, 0), (7, ((h.csr 0x300).getLsbD 3).toNat), (11, if h.user then 0 else 3)]
    else if n = 0x343 then tval else if n = 0x342 then cause else if n = 0x341 then epc else h.csr n := by
  rw [← HartState.csr_put h, ← HartState.csr_put, ← HartState.csr_put, ← HartState.csr_put]
  rfl

theorem HartState.trap_mcause (h : HartState) (cause epc tval : Word) : (h.trap cause epc tval).csr 0x342 = cause := by
  simp [HartState.csr_trap]

theorem HartState.trap_mtval (h : HartState) (cause epc tval : Word) : (h.trap cause epc tval).csr 0x343 = tval := by
  simp [HartState.csr_trap]

/-- A trap holds the mode it came from in MPP. -/
theorem HartState.trap_mpp (h : HartState) (cause epc tval : Word) :
    decide (fld ((h.trap cause epc tval).csr 0x300) 11 2 = 0) = h.user := by
  rw [HartState.csr_trap, if_pos rfl]
  cases h.user <;> cases (h.csr 0x300).getLsbD 3 <;> decide

theorem HartState.back_x (h : HartState) : h.back.x = h.x := HartState.put_x _ _ _

theorem HartState.back_user (h : HartState) : h.back.user = decide (fld (h.csr 0x300) 11 2 = 0) := rfl

theorem HartState.back_pc (h : HartState) : h.back.pc = h.csr 0x341 := rfl

/-- An MRET stores mstatus alone. -/
theorem HartState.back_csr (h : HartState) {n : Nat} (hn : n ≠ 0x300) : h.back.csr n = h.csr n :=
  (HartState.csr_put h 0x300 n _).trans (if_neg hn)

/-! ### The ECALL and the way back -/

/-- The core's hart in the ECALL's trap. -/
def State.ecallHart (s : State) : HartState := s.ctl.hartC.trap 8 (BitVec.ofNat 32 s.draw) 0

/-- The hart h is behind the ECALL made in s, in the mode it came from, with the registers x. -/
def State.BehindEcall (s : State) (h : HartState) (x : Vector Word 32) : Prop :=
  h.x = x ∧ h.user = s.ctl.hartC.user ∧ h.pc = h.csr 0x341 ∧ h.csr 0x342 = 8

/-- The command serves the ECALL: r but for the hart and the free value taken for the ECALL's place. -/
def State.Answers (i : Instr) (s r : State) (x : Vector Word 32) : Prop :=
  ∃ h, exec i s = .next { r with ctl.hartC := h, free := s.free + 1 } ∧ s.BehindEcall h x

/-- The runtime's registers after an answer in a0. -/
def State.ecallRet (s : State) (x : Vector Word 32) : HartState := { s.ecallHart with x := x }

/-- An MRET from a service goes behind the ECALL. -/
theorem State.behindEcall_back (s : State) (x : Vector Word 32) :
    s.BehindEcall ((s.ecallRet x).put 0x341 ((s.ecallRet x).csr 0x341 + 4)).back x := by
  have hcsr {n : Nat} (hn : n ≠ 0x341) : ((s.ecallRet x).put 0x341 ((s.ecallRet x).csr 0x341 + 4)).csr n = s.ecallHart.csr n :=
    (HartState.csr_put _ _ _ _).trans (if_neg hn)
  refine ⟨?_, ?_, ?_, ?_⟩
  · rw [HartState.back_x, HartState.put_x]
    rfl
  · rw [HartState.back_user, hcsr (by decide)]
    exact HartState.trap_mpp _ _ _ _
  · rw [HartState.back_pc, HartState.back_csr _ (by decide)]
  · rw [HartState.back_csr _ (by decide), hcsr (by decide)]
    exact HartState.trap_mcause _ _ _ _

/-- A runtime that took no trap of its own goes back, and changes nothing but the hart. -/
theorem State.svcBack_answered {s u : State} {x : Vector Word 32} (hu : u.ctl.hartC = s.ecallRet x) :
    ∃ h, u.svcBack = { u with ctl.hartC := h } ∧ s.BehindEcall h x := by
  refine ⟨_, ?_, s.behindEcall_back x⟩
  have hcause : u.ctl.hartC.csr 0x342 = 8 := by
    rw [hu]
    exact HartState.trap_mcause _ _ _ _
  rw [← hu]
  exact if_pos hcause

/-- The runtime goes back, or stays as it is. -/
theorem State.svcBack_cases (s : State) :
    s.svcBack = { s with ctl.hartC := (s.ctl.hartC.put 0x341 (s.ctl.hartC.csr 0x341 + 4)).back } ∨ s.svcBack = s := by
  by_cases hcause : s.ctl.hartC.csr 0x342 = 8
  · exact .inl (if_pos hcause)
  · exact .inr (if_neg hcause)

theorem State.svcBack_x (s : State) : s.svcBack.ctl.hartC.x = s.ctl.hartC.x := by
  obtain hback | hstays := s.svcBack_cases
  · rw [hback]
    exact (HartState.back_x _).trans (HartState.put_x _ _ _)
  · rw [hstays]

theorem State.svcBack_gate (s : State) (g : Fin 32) : s.svcBack.gate g = s.gate g := by
  obtain hback | hstays := s.svcBack_cases
  · rw [hback]
    rfl
  · rw [hstays]

/-- A runtime that took a trap of its own stays in it. -/
theorem State.svcBack_of_trapped {s : State} (hcause : s.ctl.hartC.csr 0x342 ≠ 8) : s.svcBack = s := if_neg hcause

theorem State.service_eq {s : State} (f : State → State) (hc : s.coreRuns = true) :
    s.service f = (f (s.trapFree 8 0)).svcBack := State.when_true _ hc

/-- A service whose function answers and leaves u. -/
theorem State.next_of_eq {i : Instr} {f : State → State} {s u : State} {x : Vector Word 32} (hi : exec i s = .next (s.service f))
    (hc : s.coreRuns = true) (hf : f (s.trapFree 8 0) = u) (hx : u.ctl.hartC = s.ecallRet x) :
    ∃ h, exec i s = .next { u with ctl.hartC := h } ∧ s.BehindEcall h x := by
  obtain ⟨h, hback, hbehind⟩ := State.svcBack_answered hx
  exact ⟨h, by rw [hi, State.service_eq f hc, hf, hback], hbehind⟩

/-- The same, as to what other services leave: the queues, the events and the Field Book. -/
theorem State.leaves_of_eq {i : Instr} {f : State → State} {s u : State} {x : Vector Word 32}
    (hi : exec i s = .next (s.service f)) (hc : s.coreRuns = true) (hf : f (s.trapFree 8 0) = u)
    (hx : u.ctl.hartC = s.ecallRet x) :
    ∃ t, exec i s = .next t ∧ s.BehindEcall t.ctl.hartC x ∧ t.mem = u.mem ∧ t.evt = u.evt ∧ t.fbk = u.fbk := by
  obtain ⟨h, hexec, hbehind⟩ := State.next_of_eq hi hc hf hx
  exact ⟨_, hexec, hbehind, rfl, rfl, rfl⟩

/-- A service whose function answers, and otherwise leaves r. -/
theorem State.answers_of_eq {i : Instr} {f : State → State} {s r : State} {x : Vector Word 32} (hi : exec i s = .next (s.service f))
    (hc : s.coreRuns = true) (hf : f (s.trapFree 8 0) = { r with ctl.hartC := s.ecallRet x, free := s.free + 1 }) :
    s.Answers i r x := State.next_of_eq hi hc hf rfl

/-! ### Gates and queues (15 R416 to R423) -/

/-- A free gate, or one's own, reads as held. -/
theorem State.gateTryVal_31 (s : State) (code : Byte) (g : Fin 32) :
    (s.gateTryVal code g).getLsbD 31 = (s.gateTakes code g || decide ((s.gate g).owner = code)) := by
  have hpack (a b c d : Bool) (n : Byte) :
      (packW [(31, a.toNat), (30, b.toNat), (29, c.toNat), (28, d.toNat), (0, n.toNat)]).getLsbD 31 = a := by
    have hn : n.toNat < 256 := n.isLt
    simp only [packW, List.foldl, BitVec.getLsbD_ofNat, Nat.testBit_eq_decide_div_mod_eq]
    cases a <;> cases b <;> cases c <;> cases d <;> simp <;> omega
  exact hpack _ _ _ _ _

theorem State.gateTryVal_31_free {s : State} {g : Fin 32} (hfree : (s.gate g).owner = 0) :
    (s.gateTryVal 1 g).getLsbD 31 = true := by
  rw [State.gateTryVal_31]
  simp [State.gateTakes, gateAccepts, hfree]

theorem State.gateTryVal_31_held {s : State} {g : Fin 32} (hfree : (s.gate g).owner ≠ 0) (hown : (s.gate g).owner ≠ 1) :
    (s.gateTryVal 1 g).getLsbD 31 = false := by
  rw [State.gateTryVal_31, State.gateTakes, decide_eq_false hfree, decide_eq_false hown]
  rfl

theorem State.gateTryFx_free {s : State} {g : Fin 32} (hfree : (s.gate g).owner = 0) :
    s.gateTryFx 1 g = s.setGate g ⟨1, false⟩ := if_pos (by simp [State.gateTakes, gateAccepts, hfree])

theorem State.setGate_gate (s : State) (g : Fin 32) (x : Gate) : (s.setGate g x).gate g = x := Vector.getElem_set_self _

theorem State.setQueue_queue (s : State) (q : Fin 16) (x : HwQueue) : (s.setQueue q x).queue q = x := Vector.getElem_set_self _

theorem gateArg_of_val {a0 : Word} {g : Fin 32} (h : a0.toNat = g.val) : gateArg a0 = some g := by
  simp [gateArg, h]

theorem queueArg_of_val {a0 : Word} {q : Fin 16} (h : a0.toNat = q.val) : queueArg a0 = some q := by
  simp [queueArg, h]

end Sys2Proof.Machine
end

section
/-! PROOF. What each runtime service answers (09 Table 9.10). -/
namespace Sys2Proof.Machine

/-- The state in which a service that left r answers: r in the ECALL's trap. -/
def State.ecalled (s r : State) : State := { r with ctl.hartC := s.ecallHart, free := s.free + 1 }

/-- The ECALL's trap. -/
theorem State.ecalled_self (s : State) : s.trapFree 8 0 = s.ecalled s := rfl

theorem State.ecalled_gate (s r : State) (g : Fin 32) : (s.ecalled r).gate g = r.gate g := rfl

theorem State.ecalled_queue (s r : State) (q : Fin 16) : (s.ecalled r).queue q = r.queue q := rfl

theorem State.ecalled_setGate (s r : State) (g : Fin 32) (x : Gate) :
    (s.ecalled r).setGate g x = s.ecalled (r.setGate g x) := rfl

theorem State.ecallHart_x (s : State) : s.ecallHart.x = s.ctl.hartC.x := HartState.trap_x _ _ _ _

/-- An answer in a0 keeps the rest of the hart. -/
theorem State.svcRet0_hartC {s u : State} (a0 : Word) (hu : u.ctl.hartC = s.ecallHart) :
    (u.svcRet0 a0).ctl.hartC = s.ecallRet (s.ctl.hartC.x.set 10 a0) := by
  rw [← State.ecallHart_x, State.ecallRet, ← hu]
  rfl

theorem State.svcRet_hartC {s u : State} (a0 a1 : Word) (hu : u.ctl.hartC = s.ecallHart) :
    (u.svcRet a0 a1).ctl.hartC = s.ecallRet ((s.ctl.hartC.x.set 10 a0).set 11 a1) := by
  rw [← State.ecallHart_x, State.ecallRet, ← hu]
  rfl

theorem State.queue_of_mem {t u : State} (h : t.mem = u.mem) (q : Fin 16) : t.queue q = u.queue q := by
  rw [State.queue, h, State.queue]

theorem State.svcRet0_queue (a0 : Word) (u : State) (q : Fin 16) : (u.svcRet0 a0).queue q = u.queue q := rfl

theorem State.svcRet_queue (a0 a1 : Word) (u : State) (q : Fin 16) : (u.svcRet a0 a1).queue q = u.queue q := rfl

theorem State.svcRet0_evt (a0 : Word) (u : State) : (u.svcRet0 a0).evt = u.evt := rfl

theorem State.ecalled_svcRet0 (s r : State) (a0 : Word) : (s.ecalled r).svcRet0 a0 =
    { r with ctl.hartC := s.ecallRet (s.ctl.hartC.x.set 10 a0), free := s.free + 1 } := by
  rw [← s.svcRet0_hartC a0 (u := s.ecalled r) rfl]
  rfl

theorem State.ecalled_svcRet (s r : State) (a0 a1 : Word) : (s.ecalled r).svcRet a0 a1 =
    { r with ctl.hartC := s.ecallRet ((s.ctl.hartC.x.set 10 a0).set 11 a1), free := s.free + 1 } := by
  rw [← s.svcRet_hartC a0 a1 (u := s.ecalled r) rfl]
  rfl

/-- A service that leaves r and answers in a0. -/
theorem State.answers_a0 {i : Instr} {f : State → State} {s r : State} {a0 : Word} (hi : exec i s = .next (s.service f))
    (hc : s.coreRuns = true) (hf : f (s.ecalled s) = (s.ecalled r).svcRet0 a0) : s.Answers i r (s.ctl.hartC.x.set 10 a0) :=
  State.answers_of_eq hi hc ((congrArg f s.ecalled_self).trans (hf.trans (s.ecalled_svcRet0 r a0)))

/-- A service that leaves r and answers in a0 and a1. -/
theorem State.answers_a0a1 {i : Instr} {f : State → State} {s r : State} {a0 a1 : Word} (hi : exec i s = .next (s.service f))
    (hc : s.coreRuns = true) (hf : f (s.ecalled s) = (s.ecalled r).svcRet a0 a1) :
    s.Answers i r ((s.ctl.hartC.x.set 10 a0).set 11 a1) :=
  State.answers_of_eq hi hc ((congrArg f s.ecalled_self).trans (hf.trans (s.ecalled_svcRet r a0 a1)))

/-! ### The commands -/

section
variable (a0 a1 a2 : Word) (s : State)

theorem exec_timeNow : exec .timeNow s = .next (s.service fun s => s.svcRet (lo32 s.tre.time) (hi32 s.tre.time)) := rfl
theorem exec_fbUser : exec (.fbUser a0 a1) s = .next (s.service (State.svcFbUser a0 a1)) := rfl
theorem exec_roadSend : exec (.roadSend a0 a1) s = .next (s.service (State.svcRoadSend a0 a1)) := rfl
theorem exec_roadRecv : exec (.roadRecv a0 a1 a2) s = .next (s.service (State.svcRoadRecv a0 a1 a2)) := rfl
theorem exec_gateTry : exec (.gateTry a0) s = .next (s.service (State.svcGateTry a0)) := rfl
theorem exec_gateRelease : exec (.gateRelease a0) s = .next (s.service (State.svcGateRelease a0)) := rfl
theorem exec_queuePush : exec (.queuePush a0 a1) s = .next (s.service (State.svcQueuePush a0 a1)) := rfl
theorem exec_queuePop : exec (.queuePop a0) s = .next (s.service (State.svcQueuePop a0)) := rfl
theorem exec_reqStop : exec .reqStop s = .next (s.service fun s => s.stopAsk.svcRet0 0) := rfl

end

/-! ### fb_user -/

section
variable {a0 a1 a2 : Word} {s : State}

theorem State.svcFbUser_track (ht : s.track = true) : s.svcFbUser a0 a1 = s.svcRet0 0 := if_pos ht

theorem State.svcFbUser_untracked (ht : s.track = false) :
    s.svcFbUser a0 a1 = (s.fbUser a0 a1).svcRet0 (if 32 ≤ s.fbk.queue.length then errFull else 0) :=
  if_neg (by rw [ht]; exact Bool.false_ne_true)

/-- With the Field Book on and room in the queue, a record is queued. -/
theorem State.fbUser_queued (hon : s.regBit Reg.FBK_CTL 0 = true) (hroom : s.fbk.queue.length < 32) :
    s.fbUser a0 a1 =
      { s with fbk.queue := s.fbk.queue ++ [s.fbRec 0x10 0 (BitVec.ofNat 64 (a0.toNat + a1.toNat * 2 ^ 32))] } := by
  unfold State.fbUser State.fbQueue
  rw [hon, if_neg (by decide), if_pos hroom]

theorem State.svcFbUser_queued (ht : s.track = false) (hon : s.regBit Reg.FBK_CTL 0 = true)
    (hroom : s.fbk.queue.length < 32) : s.svcFbUser a0 a1 = State.svcRet0 0
      { s with fbk.queue := s.fbk.queue ++ [s.fbRec 0x10 0 (BitVec.ofNat 64 (a0.toNat + a1.toNat * 2 ^ 32))] } := by
  rw [State.svcFbUser_untracked ht, State.fbUser_queued hon hroom, if_neg (Nat.not_le.mpr hroom)]

theorem State.svcFbUser_full (ht : s.track = false) (hfull : 32 ≤ s.fbk.queue.length) :
    s.svcFbUser a0 a1 = (s.fbUser a0 a1).svcRet0 errFull := by
  rw [State.svcFbUser_untracked ht, if_pos hfull]

theorem State.fbQueue_full (r : FbRec) (hfull : 32 ≤ s.fbk.queue.length) : (s.fbQueue r).fbk.queue = s.fbk.queue := by
  unfold State.fbQueue
  rw [if_neg (Nat.not_lt.mpr hfull)]
  split <;> rfl

/-! ### Gates -/

theorem State.svcGateTry_free {g : Fin 32} (ha : a0.toNat = g.val) (hg : g.val ≠ 31) (hfree : (s.gate g).owner = 0) :
    s.svcGateTry a0 = (s.setGate g ⟨1, false⟩).svcRet 0 (if (s.gate g).broken = true then 1 else 0) := by
  unfold State.svcGateTry
  simp only [gateArg_of_val ha, if_neg hg, State.gateTryVal_31_free hfree, State.gateTryFx_free hfree, if_true]
  cases (s.gate g).broken <;> rfl

theorem State.svcGateTry_held {g : Fin 32} (ha : a0.toNat = g.val) (hg : g.val ≠ 31) (hfree : (s.gate g).owner ≠ 0)
    (hown : (s.gate g).owner ≠ 1) : s.svcGateTry a0 = s.svcRet0 errBusy := by
  unfold State.svcGateTry
  simp only [gateArg_of_val ha, if_neg hg, State.gateTryVal_31_held hfree hown, Bool.false_eq_true, if_false]

/-- A number from 31 on names gate 31, which the services refuse, or none. -/
theorem gateArg_high (ha : 31 ≤ a0.toNat) : gateArg a0 = some 31 ∨ gateArg a0 = none := by
  by_cases h31 : a0.toNat = 31
  · exact .inl (gateArg_of_val h31)
  · exact .inr (dif_neg (by omega))

theorem State.svcGateTry_high (ha : 31 ≤ a0.toNat) : s.svcGateTry a0 = s.svcRet0 errArg := by
  unfold State.svcGateTry
  obtain h | h := gateArg_high ha <;> simp [h]

theorem State.svcGateRelease_high (ha : 31 ≤ a0.toNat) : s.svcGateRelease a0 = s.svcRet0 errArg := by
  unfold State.svcGateRelease
  obtain h | h := gateArg_high ha <;> simp [h]

theorem State.gateRelFx_own {g : Fin 32} (hown : (s.gate g).owner = 1) : s.gateRelFx 1 g = s.setGate g ⟨0, false⟩ := if_pos hown

theorem State.svcGateRelease_own {g : Fin 32} (ha : a0.toNat = g.val) (hg : g.val ≠ 31) (hown : (s.gate g).owner = 1) :
    s.svcGateRelease a0 = (s.setGate g ⟨0, false⟩).svcRet0 0 := by
  unfold State.svcGateRelease
  simp only [gateArg_of_val ha, hg, State.gateRelRefused, hown, State.gateRelFx_own hown]
  rfl

theorem State.svcGateRelease_other {g : Fin 32} (ha : a0.toNat = g.val) (hown : (s.gate g).owner ≠ 1) :
    s.svcGateRelease a0 = s.svcRet0 errArg := by
  unfold State.svcGateRelease
  simp only [gateArg_of_val ha, State.gateRelRefused, decide_eq_true hown, Bool.or_true, if_true]

/-! ### Queues -/

theorem State.svcQueuePush_eq {q : Fin 16} (ha : a0.toNat = q.val) : s.svcQueuePush a0 a1 =
    (s.queuePush 1 q a1).svcRet0 (if 16 ≤ (s.queue q).items.length then errFull else 0) := by
  unfold State.svcQueuePush
  simp only [queueArg_of_val ha]

theorem State.setMystat_queue (code : Byte) (v : Word) (q : Fin 16) (s : State) : (s.setMystat code v).queue q = s.queue q := rfl

theorem State.raiseIf_queue (b : Bool) (n : Nat) (q : Fin 16) (s : State) : (s.raiseIf b n).queue q = s.queue q := by
  rw [State.queue, State.raiseIf_mem, State.queue]

/-- What a push leaves in its queue. -/
theorem State.queuePush_queue (code : Byte) (q : Fin 16) (v : Word) (s : State) : (s.queuePush code q v).queue q =
    if 16 ≤ (s.queue q).items.length then { s.queue q with refused := satSucc (s.queue q).refused }
    else { s.queue q with items := (s.queue q).items ++ [v] } := by
  rw [State.queuePush]
  rw [State.raiseIf_queue, State.setMystat_queue, State.setQueue_queue]
  simp only [decide_eq_true_eq]

theorem State.queuePush_hartC (code : Byte) (q : Fin 16) (v : Word) (s : State) :
    (s.queuePush code q v).ctl.hartC = s.ctl.hartC := (State.Spares.raiseIf _ _ (.refl _)).hartC

/-- A push that is refused raises EV239. -/
theorem State.queuePush_refused {code : Byte} {q : Fin 16} (v : Word) (hfull : 16 ≤ (s.queue q).items.length) :
    (s.queuePush code q v).evt.raw.getLsbD 239 = true := by
  unfold State.queuePush
  simp only [hfull, decide_true, State.raiseIf, State.when, if_true]
  exact State.raise_raises _ (by decide)

theorem State.svcQueuePop_head {v : Word} {l : List Word} {q : Fin 16} (ha : a0.toNat = q.val)
    (hitems : (s.queue q).items = v :: l) : s.svcQueuePop a0 = (s.queuePopFx 1 q).svcRet 0 v := by
  unfold State.svcQueuePop
  simp only [queueArg_of_val ha, State.queueHead, hitems, List.isEmpty_cons, Bool.false_eq_true, if_false, List.headD_cons]

theorem State.svcQueuePop_empty {q : Fin 16} (ha : a0.toNat = q.val) (hitems : (s.queue q).items = []) :
    s.svcQueuePop a0 = (s.queuePopFx 1 q).svcRet0 errFull := by
  unfold State.svcQueuePop
  simp only [queueArg_of_val ha, hitems, List.isEmpty_nil, if_true]

theorem State.queuePopFx_hartC (code : Byte) (q : Fin 16) (s : State) : (s.queuePopFx code q).ctl.hartC = s.ctl.hartC := rfl

theorem State.queuePopFx_queue (code : Byte) (q : Fin 16) (s : State) :
    (s.queuePopFx code q).queue q = { s.queue q with items := (s.queue q).items.drop 1 } := by
  rw [State.queuePopFx]
  rw [State.setMystat_queue, State.setQueue_queue]

end
end Sys2Proof.Machine
end

section
/-! PROOF. road_send and road_recv: the transmit ring under gate 31, a channel's ring, and the copy that ends at an access fault
(09 Table 9.10; 15 R401, R416; log 77). -/
namespace Sys2Proof.Machine

/-- A write of the transmit ring's pointer, and the records it posts. -/
theorem State.Spares.write_txwp {s0 s : State} (wp : Word) (h : s0.Spares s) :
    s0.Spares (s.write .control Reg.ROAD_TXWP 0xF wp) := by
  refine .txPosted _ ?_
  unfold State.busWrite
  rw [State.regWrite_txwp]
  have hmem : ¬(memRegion? Reg.ROAD_TXWP).isSome = true := by decide
  rw [if_neg hmem]
  exact .ite h (.ite h (.setReg _ _ h))

section
variable {a0 a1 a2 : Word} {s : State}

/-! ### A copy -/

theorem State.coreCopy_read {a n : Nat} (f : State → State) (hgood : s.coreBad a n = none) :
    s.coreCopy a n f = f (s.coreReads (wordsOf a n)) := by
  unfold State.coreCopy
  rw [hgood]

theorem State.coreCopy_bad {a n w : Nat} (f : State → State) (hbad : s.coreBad a n = some w) :
    s.coreCopy a n f = (s.coreReads (wordsOf a n)).coreFault .control false w := by
  unfold State.coreCopy
  rw [hbad]

/-- The access fault of the runtime: its cause, its address, and the registers as they were. -/
theorem State.coreFault_hartC (w : Nat) (s : State) :
    (s.coreFault .control false w).ctl.hartC = s.ctl.hartC.trap 5 (BitVec.ofNat 32 s.draw) (BitVec.ofNat 32 w) := rfl

/-! ### road_send -/

theorem State.svcRoadSend_track (ht : s.track = true) : s.svcRoadSend a0 a1 = s.svcRet0 0 := if_pos ht

theorem State.svcRoadSend_badArg (ht : s.track = false) (harg : a1 = 0 ∨ s.userMay false a0.toNat a1.toNat = false) :
    s.svcRoadSend a0 a1 = s.svcRet0 errArg := by
  unfold State.svcRoadSend
  rw [if_neg (by simp [ht]), if_pos]
  exact harg.imp (fun h => by rw [h]; rfl) .inr

section
variable (ht : s.track = false) (hpos : 0 < a1.toNat) (hlen : a1.toNat ≤ 65535) (hmay : s.userMay false a0.toNat a1.toNat = true)
include ht hpos hlen hmay

theorem State.svcRoadSend_held (hfree : (s.gate 31).owner ≠ 0) (hown : (s.gate 31).owner ≠ 1) :
    s.svcRoadSend a0 a1 = s.svcRet0 errBusy := by
  unfold State.svcRoadSend
  rw [if_neg (by simp [ht]), if_neg (by simp [hmay]; omega), if_pos]
  rw [State.gateTryVal_31_held hfree hown]
  rfl

/-- With gate 31 free it is taken, the record is copied, and gate 31 is released: without room, or with the record posted. -/
theorem State.svcRoadSend_taken (hfree : (s.gate 31).owner = 0) : ∃ f : State → State,
    s.svcRoadSend a0 a1 = (s.setGate 31 ⟨1, false⟩).coreCopy a0.toNat a1.toNat f ∧
    (∀ t : State, t.txPlace ((a1.toNat + 7) / 8 * 8) = none → f t = (t.gateRelFx 1 31).svcRet0 errFull) ∧
    ∀ (t : State) (a : Nat), t.txPlace ((a1.toNat + 7) / 8 * 8) = some (a, false) →
      ∃ v, t.Spares v ∧ f t = (v.gateRelFx 1 31).svcRet0 0 := by
  have hval : ¬(!(s.gateTryVal 1 31).getLsbD 31) = true := by
    rw [State.gateTryVal_31_free hfree]
    exact Bool.false_ne_true
  unfold State.svcRoadSend
  rw [if_neg (by simp [ht]), if_neg (by simp [hmay]; omega), if_neg hval, State.gateTryFx_free hfree]
  refine ⟨_, rfl, fun t hfull => ?_, fun t a hroom => ?_⟩
  · simp only [hfull]
  · simp only [hroom]
    exact ⟨_, .write_txwp _ (.pokeBytes _ _ _ (.refl t)), rfl⟩

end

/-- Where the runtime still held gate 31, it is free after its answer. -/
theorem State.released_answer {u v : State} (a : Word) (hv : u.Spares v) (hu : (u.gate 31).owner = 1) :
    ((v.gateRelFx 1 31).svcRet0 a).svcBack.ctl.hartC.x.get 10 = a ∧
      ((v.gateRelFx 1 31).svcRet0 a).svcBack.gate 31 = ⟨0, false⟩ := by
  have hown : (v.gate 31).owner = 1 := by rw [hv.gate hu, hu]
  rw [State.svcBack_x, State.svcBack_gate, State.gateRelFx_own hown]
  exact ⟨Vector.getElem_set_self _, State.setGate_gate v 31 _⟩

/-! ### road_recv -/

theorem State.svcRoadRecv_high (hch : 12 < a0.toNat) : s.svcRoadRecv a0 a1 a2 = s.svcRet0 errArg := if_pos hch

theorem State.svcRoadRecv_noRing (hch : a0.toNat ≤ 12) (hsize : s.rxSize a0.toNat = 0) :
    s.svcRoadRecv a0 a1 a2 = s.svcRet0 0 := by
  unfold State.svcRoadRecv
  rw [if_neg (by omega)]
  exact if_pos (.inl hsize)

/-- With a record at the read pointer: -2 where it does not fit or may not be written, otherwise its copy, and its length. -/
theorem State.svcRoadRecv_record {rp : Word} (hch : a0.toNat ≤ 12) (hrp : s.reg (Reg.ROAD_RXRP + 0x10 * a0.toNat) = rp)
    (hlo : s.rxBase a0.toNat ≤ rp.toNat) (hhi : rp.toNat < s.rxBase a0.toNat + s.rxSize a0.toNat)
    (hpos : rp.toNat ≠ s.rxPos a0.toNat) (hlen : s.recLen rp.toNat ≠ 0) : ∃ f : State → State,
    s.svcRoadRecv a0 a1 a2 =
      (if a2.toNat < s.recLen rp.toNat ∨ s.userMay true a1.toNat (s.recLen rp.toNat) = false then s.svcRet0 errArg
        else s.coreCopy rp.toNat (s.recLen rp.toNat) f) ∧
    ∀ t, ∃ u : State, f t = u.svcRet0 (BitVec.ofNat 32 (s.recLen rp.toNat)) := by
  have hin : s.rxBase a0.toNat ≤ rp.toNat ∧ rp.toNat < s.rxBase a0.toNat + s.rxSize a0.toNat := ⟨hlo, hhi⟩
  have hhere : ¬(rp.toNat ≠ s.rxPos a0.toNat ∧ s.recLen rp.toNat = 0) := fun h => hlen h.2
  have hsome : ¬(s.rxSize a0.toNat = 0 ∨ rp.toNat = s.rxPos a0.toNat ∨ s.recLen rp.toNat = 0) := by omega
  unfold State.svcRoadRecv
  simp only [hrp, if_neg (Nat.not_lt.mpr hch), if_pos hin, if_neg hhere, if_neg hsome]
  exact ⟨_, rfl, fun t => ⟨_, rfl⟩⟩

end
end Sys2Proof.Machine
end

section
/-! PROOF. The runtime services' obligation (09 R273, R274, Table 9.10). -/
namespace Sys2Proof.Machine

/-! ### The ECALL's trap leaves what the services read -/

section
variable (s : State)

/-- A STOP request is the same in the trap. -/
theorem State.ecalled_stopAsk : (s.ecalled s).stopAsk = s.ecalled s.stopAsk := by
  by_cases hbusy : s.progBusy = true
  · have htrap : (s.ecalled s).progBusy = true := hbusy
    rw [State.stopAsk, if_pos htrap, State.stopAsk, if_pos hbusy]
    rfl
  · have htrap : ¬(s.ecalled s).progBusy = true := hbusy
    rw [State.stopAsk, if_neg htrap, State.stopAsk, if_neg hbusy]

end

/-! ### The services' clauses -/

section
variable {s : State} (hc : s.coreRuns = true)
include hc

/-- fb_user with the queue full. -/
theorem exec_fbUser_full {a0 a1 : Word} (ht : s.track = false) (hfull : 32 ≤ s.fbk.queue.length) :
    ∃ t, exec (.fbUser a0 a1) s = .next t ∧ s.BehindEcall t.ctl.hartC (s.ctl.hartC.x.set 10 errFull) ∧
      t.fbk.queue = s.fbk.queue := by
  obtain ⟨t, hexec, hbehind, -, -, hfbk⟩ := State.leaves_of_eq (exec_fbUser a0 a1 s) hc
    (State.svcFbUser_full (s := s.ecalled s) ht hfull)
    (State.svcRet0_hartC errFull (State.Spares.fbQueue _ (.refl (s.ecalled s))).hartC)
  refine ⟨t, hexec, hbehind, ?_⟩
  rw [hfbk]
  exact State.fbQueue_full (s := s.ecalled s) _ hfull

/-- What road_send leaves where it took gate 31 and released it. -/
theorem exec_roadSend_released {a0 a1 c : Word} {u v : State} (hv : u.Spares v) (hu : (u.gate 31).owner = 1)
    (hsend : (s.trapFree 8 0).svcRoadSend a0 a1 = (v.gateRelFx 1 31).svcRet0 c) :
    ∃ t, exec (.roadSend a0 a1) s = .next t ∧ t.ctl.hartC.x.get 10 = c ∧ t.gate 31 = ⟨0, false⟩ := by
  obtain ⟨hx, hgate⟩ := State.released_answer c hv hu
  exact ⟨_, by rw [exec_roadSend, State.service_eq _ hc, hsend], hx, hgate⟩

/-- The access fault of the runtime, which does not go back. -/
theorem exec_roadSend_fault {a0 a1 : Word} {w : Nat} {u : State} (hu : u.ctl.hartC = s.ecallHart)
    (hsend : (s.trapFree 8 0).svcRoadSend a0 a1 = u.coreFault .control false w) :
    ∃ t, exec (.roadSend a0 a1) s = .next t ∧ t.ctl.hartC.csr 0x342 = 5 ∧ t.ctl.hartC.csr 0x343 = BitVec.ofNat 32 w ∧
      t.ctl.hartC.x = s.ctl.hartC.x := by
  have hcause : (u.coreFault .control false w).ctl.hartC.csr 0x342 = 5 := HartState.trap_mcause _ _ _ _
  refine ⟨_, by rw [exec_roadSend, State.service_eq _ hc, hsend, State.svcBack_of_trapped (by rw [hcause]; decide)], hcause,
    HartState.trap_mtval _ _ _ _, ?_⟩
  rw [State.coreFault_hartC, HartState.trap_x, hu, State.ecallHart_x]

/-- road_send with gate 31 free: with room, without, and with a word that cannot be read. -/
theorem exec_roadSend_copied {a0 a1 : Word} (ht : s.track = false) (hpos : 0 < a1.toNat) (hlen : a1.toNat ≤ 65535)
    (hmay : s.userMay false a0.toNat a1.toNat = true) (hfree : (s.gate 31).owner = 0) :
    let u := (s.trapFree 8 0).setGate 31 ⟨1, false⟩
    let r := u.coreReads (wordsOf a0.toNat a1.toNat)
    (∀ at_ : Nat, u.coreBad a0.toNat a1.toNat = none → r.txPlace ((a1.toNat + 7) / 8 * 8) = some (at_, false) →
      ∃ t, exec (.roadSend a0 a1) s = .next t ∧ t.ctl.hartC.x.get 10 = 0 ∧ t.gate 31 = ⟨0, false⟩) ∧
    (u.coreBad a0.toNat a1.toNat = none → r.txPlace ((a1.toNat + 7) / 8 * 8) = none →
      ∃ t, exec (.roadSend a0 a1) s = .next t ∧ t.ctl.hartC.x.get 10 = errFull ∧ t.gate 31 = ⟨0, false⟩) ∧
    ∀ w : Nat, u.coreBad a0.toNat a1.toNat = some w →
      ∃ t, exec (.roadSend a0 a1) s = .next t ∧ t.ctl.hartC.csr 0x342 = 5 ∧ t.ctl.hartC.csr 0x343 = BitVec.ofNat 32 w ∧
        t.ctl.hartC.x = s.ctl.hartC.x := by
  intro u r
  obtain ⟨f, hsend, hfull, hroom⟩ := State.svcRoadSend_taken (s := s.trapFree 8 0) ht hpos hlen hmay hfree
  have hown : (u.gate 31).owner = 1 := by rw [State.setGate_gate]
  have hread : u.Spares r := .coreReads _ (.refl u)
  refine ⟨fun at_ hgood hplace => ?_, fun hgood hplace => ?_, fun w hbad => ?_⟩
  · obtain ⟨v, hv, hf⟩ := hroom r at_ hplace
    exact exec_roadSend_released hc (.trans hread hv) hown (by rw [hsend, State.coreCopy_read f hgood, hf])
  · exact exec_roadSend_released hc hread hown (by rw [hsend, State.coreCopy_read f hgood, hfull r hplace])
  · exact exec_roadSend_fault hc hread.hartC (by rw [hsend, State.coreCopy_bad f hbad])

/-- road_recv of a record: refused where it is larger than the buffer, otherwise its length. -/
theorem exec_roadRecv_record {a0 a1 a2 rp : Word} (hch : a0.toNat ≤ 12) (hrp : s.reg (Reg.ROAD_RXRP + 0x10 * a0.toNat) = rp)
    (hlo : s.rxBase a0.toNat ≤ rp.toNat) (hhi : rp.toNat < s.rxBase a0.toNat + s.rxSize a0.toNat)
    (hpos : rp.toNat ≠ s.rxPos a0.toNat) (hlen : (s.trapFree 8 0).recLen rp.toNat ≠ 0) :
    let u := s.trapFree 8 0
    (a2.toNat < u.recLen rp.toNat → s.Answers (.roadRecv a0 a1 a2) s (s.ctl.hartC.x.set 10 errArg)) ∧
    (u.recLen rp.toNat ≤ a2.toNat → s.userMay true a1.toNat (u.recLen rp.toNat) = true →
      u.coreBad rp.toNat (u.recLen rp.toNat) = none →
      ∃ t, exec (.roadRecv a0 a1 a2) s = .next t ∧ t.ctl.hartC.x.get 10 = BitVec.ofNat 32 (u.recLen rp.toNat)) := by
  intro u
  obtain ⟨f, hrecv, hcopied⟩ := State.svcRoadRecv_record (s := u) (a1 := a1) (a2 := a2) hch hrp hlo hhi hpos hlen
  refine ⟨fun hshort => ?_, fun hfits hmay hgood => ?_⟩
  · exact State.answers_a0 (exec_roadRecv a0 a1 a2 s) hc (hrecv.trans (if_pos (.inl hshort)))
  · obtain ⟨v, hv⟩ := hcopied (u.coreReads (wordsOf rp.toNat (u.recLen rp.toNat)))
    have hcopy : ¬(a2.toNat < u.recLen rp.toNat ∨ u.userMay true a1.toNat (u.recLen rp.toNat) = false) :=
      not_or.mpr ⟨Nat.not_lt.mpr hfits, fun hnot => Bool.false_ne_true (hnot.symm.trans hmay)⟩
    refine ⟨_, by rw [exec_roadRecv, State.service_eq _ hc, hrecv, if_neg hcopy, State.coreCopy_read f hgood, hv], ?_⟩
    rw [State.svcBack_x]
    exact Vector.getElem_set_self _

/-- gate_try of a free gate takes it. -/
theorem exec_gateTry_free {a0 : Word} {g : Fin 32} (ha : a0.toNat = g.val) (hg : g.val ≠ 31) (hfree : (s.gate g).owner = 0) :
    s.Answers (.gateTry a0) (s.setGate g ⟨1, false⟩)
      ((s.ctl.hartC.x.set 10 0).set 11 (if (s.gate g).broken = true then 1 else 0)) := by
  have htry := State.svcGateTry_free (s := s.ecalled s) ha hg hfree
  rw [State.ecalled_gate, State.ecalled_setGate] at htry
  exact State.answers_a0a1 (exec_gateTry a0 s) hc htry

/-- gate_release of a gate the core holds frees it. -/
theorem exec_gateRelease_own {a0 : Word} {g : Fin 32} (ha : a0.toNat = g.val) (hg : g.val ≠ 31) (hown : (s.gate g).owner = 1) :
    s.Answers (.gateRelease a0) (s.setGate g ⟨0, false⟩) (s.ctl.hartC.x.set 10 0) := by
  have hrel := State.svcGateRelease_own (s := s.ecalled s) ha hg hown
  rw [State.ecalled_setGate] at hrel
  exact State.answers_a0 (exec_gateRelease a0 s) hc hrel

/-- queue_push answers, and leaves what a push leaves. -/
theorem exec_queuePush_answered {a0 a1 : Word} {q : Fin 16} (ha : a0.toNat = q.val) :
    ∃ t, exec (.queuePush a0 a1) s = .next t ∧
      s.BehindEcall t.ctl.hartC (s.ctl.hartC.x.set 10 (if 16 ≤ (s.queue q).items.length then errFull else 0)) ∧
      t.queue q = ((s.ecalled s).queuePush 1 q a1).queue q ∧ t.evt = ((s.ecalled s).queuePush 1 q a1).evt := by
  obtain ⟨t, hexec, hbehind, hmem, hevt, -⟩ := State.leaves_of_eq (exec_queuePush a0 a1 s) hc
    (State.svcQueuePush_eq (s := s.ecalled s) ha) (State.svcRet0_hartC _ (State.queuePush_hartC 1 q a1 (s.ecalled s)))
  exact ⟨t, hexec, hbehind, (State.queue_of_mem hmem q).trans (State.svcRet0_queue _ _ q), hevt.trans (State.svcRet0_evt _ _)⟩

/-- queue_push with room. -/
theorem exec_queuePush_room {a0 a1 : Word} {q : Fin 16} (ha : a0.toNat = q.val) (hroom : (s.queue q).items.length < 16) :
    ∃ t, exec (.queuePush a0 a1) s = .next t ∧ s.BehindEcall t.ctl.hartC (s.ctl.hartC.x.set 10 0) ∧
      t.queue q = { s.queue q with items := (s.queue q).items ++ [a1] } := by
  obtain ⟨t, hexec, hbehind, hqueue, -⟩ := exec_queuePush_answered (a1 := a1) hc ha
  rw [State.queuePush_queue, State.ecalled_queue, if_neg (Nat.not_le.mpr hroom)] at hqueue
  rw [if_neg (Nat.not_le.mpr hroom)] at hbehind
  exact ⟨t, hexec, hbehind, hqueue⟩

/-- queue_push of a full queue. -/
theorem exec_queuePush_full {a0 a1 : Word} {q : Fin 16} (ha : a0.toNat = q.val) (hfull : 16 ≤ (s.queue q).items.length) :
    ∃ t, exec (.queuePush a0 a1) s = .next t ∧ s.BehindEcall t.ctl.hartC (s.ctl.hartC.x.set 10 errFull) ∧
      t.queue q = { s.queue q with refused := satSucc (s.queue q).refused } ∧ t.evt.raw.getLsbD 239 = true := by
  obtain ⟨t, hexec, hbehind, hqueue, hevt⟩ := exec_queuePush_answered (a1 := a1) hc ha
  rw [State.queuePush_queue, State.ecalled_queue, if_pos hfull] at hqueue
  rw [if_pos hfull] at hbehind
  exact ⟨t, hexec, hbehind, hqueue, by rw [hevt, State.queuePush_refused (s := s.ecalled s) a1 hfull]⟩

/-- queue_pop answers with the head, and takes it. -/
theorem exec_queuePop_head {a0 v : Word} {l : List Word} {q : Fin 16} (ha : a0.toNat = q.val)
    (hitems : (s.queue q).items = v :: l) :
    ∃ t, exec (.queuePop a0) s = .next t ∧ s.BehindEcall t.ctl.hartC ((s.ctl.hartC.x.set 10 0).set 11 v) ∧
      t.queue q = { s.queue q with items := l } := by
  obtain ⟨t, hexec, hbehind, hmem, -⟩ := State.leaves_of_eq (exec_queuePop a0 s) hc
    (State.svcQueuePop_head (s := s.ecalled s) ha hitems) (State.svcRet_hartC 0 v (State.queuePopFx_hartC 1 q _))
  refine ⟨t, hexec, hbehind, ?_⟩
  rw [State.queue_of_mem hmem, State.svcRet_queue, State.queuePopFx_queue, State.ecalled_queue, hitems, List.drop_one,
    List.tail_cons]

/-- queue_pop of an empty queue. -/
theorem exec_queuePop_empty {a0 : Word} {q : Fin 16} (ha : a0.toNat = q.val) (hitems : (s.queue q).items = []) :
    ∃ t, exec (.queuePop a0) s = .next t ∧ s.BehindEcall t.ctl.hartC (s.ctl.hartC.x.set 10 errFull) ∧
      t.queue q = s.queue q := by
  obtain ⟨t, hexec, hbehind, hmem, -⟩ := State.leaves_of_eq (exec_queuePop a0 s) hc
    (State.svcQueuePop_empty (s := s.ecalled s) ha hitems) (State.svcRet0_hartC errFull (State.queuePopFx_hartC 1 q _))
  refine ⟨t, hexec, hbehind, ?_⟩
  rw [State.queue_of_mem hmem, State.svcRet0_queue, State.queuePopFx_queue, State.ecalled_queue,
    List.drop_eq_nil_of_le (by simp [hitems]), ← hitems]

end

/-! ### The obligation -/

/-- Settles O32: each service answers in the ECALL's trap, and goes back behind it with the rest of the hart as it was (logs 77,
102, 224). -/
theorem servicesAnswer : Obligations.ServicesAnswer := by
  unfold Obligations.ServicesAnswer
  refine ⟨fun s hc => ?_, fun a0 a1 s hc ht => ⟨?_, ?_⟩, fun a0 a1 s hc ht hon hroom => ?_, fun a0 a1 s hc ht hfull => ?_,
    fun a0 a1 s hc ht harg => ?_, fun a0 a1 s hc ht hpos hlen hmay hfree hown => ?_,
    fun a0 a1 s hc ht hpos hlen hmay hfree => ?_, fun a0 a1 a2 s hc hch => ?_, fun a0 a1 a2 s hc hch hsize => ?_,
    fun a0 a1 a2 rp s hc hch hrp hlo hhi hpos hlen => ?_, fun a0 g s hc ha hg hfree => ?_,
    fun a0 g s hc ha hg hfree hown => ?_, fun a0 s hc ha => ⟨?_, ?_⟩, fun a0 g s hc ha hg hown => ?_,
    fun a0 g s hc ha hown => ?_, fun a0 a1 q s hc ha hroom => ?_, fun a0 a1 q s hc ha hfull => ?_,
    fun a0 v l q s hc ha hitems => ?_, fun a0 q s hc ha hitems => ?_, fun s hc => ?_⟩
  · exact State.answers_a0a1 (exec_timeNow s) hc rfl
  · exact State.answers_a0 (exec_fbUser a0 a1 s) hc (State.svcFbUser_track ht)
  · exact State.answers_a0 (exec_roadSend a0 a1 s) hc (State.svcRoadSend_track ht)
  · exact State.answers_a0 (exec_fbUser a0 a1 s) hc (State.svcFbUser_queued (s := s.ecalled s) ht hon hroom)
  · exact exec_fbUser_full hc ht hfull
  · exact State.answers_a0 (exec_roadSend a0 a1 s) hc (State.svcRoadSend_badArg ht harg)
  · exact State.answers_a0 (exec_roadSend a0 a1 s) hc (State.svcRoadSend_held ht hpos hlen hmay hfree hown)
  · exact exec_roadSend_copied hc ht hpos hlen hmay hfree
  · exact State.answers_a0 (exec_roadRecv a0 a1 a2 s) hc (State.svcRoadRecv_high hch)
  · exact State.answers_a0 (exec_roadRecv a0 a1 a2 s) hc (State.svcRoadRecv_noRing hch hsize)
  · exact exec_roadRecv_record hc hch hrp hlo hhi hpos hlen
  · exact exec_gateTry_free hc ha hg hfree
  · exact State.answers_a0 (exec_gateTry a0 s) hc (State.svcGateTry_held ha hg hfree hown)
  · exact State.answers_a0 (exec_gateTry a0 s) hc (State.svcGateTry_high ha)
  · exact State.answers_a0 (exec_gateRelease a0 s) hc (State.svcGateRelease_high ha)
  · exact exec_gateRelease_own hc ha hg hown
  · exact State.answers_a0 (exec_gateRelease a0 s) hc (State.svcGateRelease_other ha hown)
  · exact exec_queuePush_room hc ha hroom
  · exact exec_queuePush_full hc ha hfull
  · exact exec_queuePop_head hc ha hitems
  · exact exec_queuePop_empty hc ha hitems
  · exact State.answers_a0 (exec_reqStop s) hc (congrArg (State.svcRet0 0) (s.ecalled_stopAsk))

end Sys2Proof.Machine
end

section
/-! PROOF. The numbers of the function blocks: words as numbers, saturation, rounding to nearest and the square root, and the
results an integer block gives (10 R292, R293, R296, Table 10.5). -/
namespace Sys2Proof.Machine

/-! ### Words as numbers (10 R292) -/

/-- A number that a 32-bit word holds. -/
abbrev InRange (v : Int) : Prop := -2147483648 ≤ v ∧ v ≤ 2147483647

theorem toInt_inRange (w : Word) : InRange w.toInt :=
  ⟨w.le_toInt, Int.le_of_lt_add_one w.toInt_lt⟩

theorem BlkIn.i_inRange (x : BlkIn) (k : Nat) : InRange (x.i k) := toInt_inRange _

theorem toInt_wordI {v : Int} (h : InRange v) : (wordI v).toInt = v :=
  BitVec.toInt_ofInt_eq_self (by decide) h.1 (Int.lt_add_one_of_le h.2)

@[simp] theorem wordI_toInt (w : Word) : wordI w.toInt = w := BitVec.ofInt_toInt

/-- A number in range, output as a word, reads back as itself. -/
theorem outI_reads {v : Int} (h : InRange v) : ∃ y : Word, (outI v).y = some y ∧ y.toInt = v :=
  ⟨_, rfl, toInt_wordI h⟩

@[simp] theorem wordI_zero : wordI 0 = 0 := rfl

@[simp] theorem BlkIn.wordI_i (x : BlkIn) (k : Nat) : wordI (x.i k) = x.w k := wordI_toInt _

/-! ### Words as truth values (10 R292) -/

theorem isTrue_eq_false {w : Word} : isTrue w = false ↔ w = 0 := by simp [isTrue]

theorem isTrue_eq_true {w : Word} : isTrue w = true ↔ w ≠ 0 := decide_eq_true_iff

theorem not_isTrue (w : Word) : (!isTrue w) = decide (w = 0) := by simp [isTrue]

/-! ### Saturation (10 R293) -/

theorem satI_fst (v : Int) : (satI v).1 = max (-2147483648) (min 2147483647 v) := by
  unfold satI maxI minI
  split_ifs <;> dsimp only <;> omega

theorem satI_snd (v : Int) : (satI v).2 = true ↔ v < -2147483648 ∨ 2147483647 < v := by
  unfold satI maxI minI
  split_ifs <;> simp <;> omega

theorem satI_inRange (v : Int) : InRange (satI v).1 := by
  rw [satI_fst]
  exact ⟨by omega, by omega⟩

theorem satI_of_inRange {v : Int} (h : InRange v) : satI v = (v, false) := by
  rw [satI, maxI, minI, if_neg (Int.not_lt.mpr h.2), if_neg (Int.not_lt.mpr h.1)]

/-- Without saturation the result is exact. -/
theorem satI_exact {v : Int} (h : (satI v).2 = false) : InRange v ∧ (satI v).1 = v := by
  have hin : ¬ (v < -2147483648 ∨ 2147483647 < v) := fun hout => by simp [(satI_snd v).mpr hout] at h
  exact ⟨by omega, by rw [satI_of_inRange (by omega)]⟩

/-- A number not below 0 added to, and taken from, a number in range. -/
theorem le_satAdd {y d : Int} (hy : InRange y) (hd : 0 ≤ d) : y ≤ (satAdd y d).1 := by
  rw [satAdd, satI_fst]
  omega

theorem satSub_le {y d : Int} (hy : InRange y) (hd : 0 ≤ d) : (satSub y d).1 ≤ y := by
  rw [satSub, satI_fst]
  omega

/-- The exact result where it lies in the range, else the nearer end of the range, and saturation exactly then. -/
def BlkOut.Clamps (o : BlkOut) (v : Int) : Prop :=
  (∃ y : Word, o.y = some y ∧ y.toInt = max (-2147483648) (min 2147483647 v)) ∧
    (o.sat = true ↔ v < -2147483648 ∨ 2147483647 < v)

theorem outS_satI_clamps (v : Int) : (outS (satI v)).Clamps v :=
  ⟨⟨_, rfl, (toInt_wordI (satI_inRange v)).trans (satI_fst v)⟩, satI_snd v⟩

/-! ### Rounding to nearest (10 R293) -/

theorem roundDiv_near (n : Int) {d : Nat} (hd : 0 < d) : 2 * (d * roundDiv n d - n).natAbs ≤ d := by
  have hlo := Nat.div_mul_le_self (2 * n.natAbs + d) (2 * d)
  have hhi := Nat.lt_mul_div_succ (2 * n.natAbs + d) (Nat.mul_pos Nat.zero_lt_two hd)
  have hexp : (d : Int) * ((2 * n.natAbs + d) / (2 * d) : Nat) = ((d * ((2 * n.natAbs + d) / (2 * d)) : Nat) : Int) := by
    push_cast; rfl
  rw [Nat.mul_comm, Nat.mul_assoc] at hlo
  rw [Nat.mul_assoc, Nat.mul_add, Nat.mul_one] at hhi
  unfold roundDiv
  split_ifs
  · rw [Int.mul_neg, hexp]
    omega
  · rw [hexp]
    omega

theorem roundDiv_nonneg {n : Int} (d : Nat) (h : 0 ≤ n) : 0 ≤ roundDiv n d := by
  rw [roundDiv, if_neg (Int.not_lt.mpr h)]
  exact Int.natCast_nonneg _

theorem BlkIn.dtq_nonneg (x : BlkIn) : 0 ≤ x.dtq := roundDiv_nonneg _ (by omega)

theorem qMul_nonneg {a b : Int} (ha : 0 ≤ a) (hb : 0 ≤ b) : 0 ≤ (qMul a b).1 := by
  have := roundDiv_nonneg 65536 (Int.mul_nonneg ha hb)
  rw [qMul, satI_fst]
  omega

/-! ### The square root -/

/-- The root of x that the bits n - 1 down to 0 give, from r. -/
def sqrtFrom (x r n : Nat) : Nat :=
  (List.range n).reverse.foldl (fun r i => if (r + 2 ^ i) * (r + 2 ^ i) ≤ x then r + 2 ^ i else r) r

theorem sqrtFrom_succ (x r n : Nat) :
    sqrtFrom x r (n + 1) = sqrtFrom x (if (r + 2 ^ n) * (r + 2 ^ n) ≤ x then r + 2 ^ n else r) n := by
  simp [sqrtFrom, List.range_succ]

/-- Each bit halves the distance that the root may still lie above r. -/
theorem sqrtFrom_spec {x n : Nat} (r : Nat) (hlo : r * r ≤ x) (hhi : x < (r + 2 ^ n) * (r + 2 ^ n)) :
    sqrtFrom x r n * sqrtFrom x r n ≤ x ∧ x < (sqrtFrom x r n + 1) * (sqrtFrom x r n + 1) := by
  induction n generalizing r with
  | zero => exact ⟨hlo, hhi⟩
  | succ n ih =>
    rw [sqrtFrom_succ]
    split
    next hbit => exact ih _ hbit (by rwa [Nat.add_assoc, ← Nat.two_mul, ← Nat.pow_succ'])
    next hbit => exact ih _ hlo (Nat.lt_of_not_le hbit)

theorem isqrt_spec {n x : Nat} (h : x < 2 ^ n * 2 ^ n) : isqrt n x * isqrt n x ≤ x ∧ x < (isqrt n x + 1) * (isqrt n x + 1) :=
  sqrtFrom_spec 0 (Nat.zero_le x) (by simpa using h)

/-- The root of a Q number not below 0 has 24 bits. -/
theorem isqrt_inRange {x : Nat} (h : x < 2 ^ 24 * 2 ^ 24) : isqrt 24 x < 2 ^ 24 :=
  Nat.mul_self_lt_mul_self_iff.mp ((isqrt_spec h).1.trans_lt h)

end Sys2Proof.Machine
end

section
/-! PROOF. The integer blocks (10 R292, R293, R296, Table 10.5). -/
namespace Sys2Proof.Machine

section
variable {x : BlkIn}

/-! ### Division (10 R293, R296) -/

theorem bDiv_clamps (h : x.b ≠ 0) : (bDiv.fn x).Clamps (x.a.toInt.tdiv x.b.toInt) ∧ (bDiv.fn x).divz = false := by
  have hfn : bDiv.fn x = outS (satI (x.a.toInt.tdiv x.b.toInt)) := if_neg h
  rw [hfn]
  exact ⟨outS_satI_clamps _, rfl⟩

theorem wordI_divZero (w : Word) :
    wordI (divZero w.toInt) = if w = 0 then 0 else if w.toInt < 0 then 0x80000000 else 0x7FFFFFFF := by
  have hzero : w.toInt = 0 ↔ w = 0 := BitVec.toInt_inj (y := 0)
  unfold divZero
  simp only [hzero]
  split_ifs <;> rfl

theorem bDiv_zero (h : x.b = 0) : (bDiv.fn x).divz = true ∧ (bDiv.fn x).sat = false ∧ (bDiv.fn x).y = some
    (if x.a = 0 then 0 else if x.a.toInt < 0 then 0x80000000 else 0x7FFFFFFF) := by
  have hfn : bDiv.fn x = { outI (divZero x.a.toInt) with divz := true } := if_pos h
  rw [hfn]
  exact ⟨rfl, rfl, congrArg some (wordI_divZero x.a)⟩

/-- The remainder is no greater than the dividend, so it needs no saturation. -/
theorem tmod_inRange {a : Int} (b : Int) (h : InRange a) : InRange (a.tmod b) := by
  have hle : (a.tmod b).natAbs ≤ a.natAbs := (Int.natAbs_tmod a b).trans_le (Nat.mod_le _ _)
  have hsign : a ≤ 0 → 0 ≤ -a.tmod b := fun ha => Int.neg_tmod a b ▸ Int.tmod_nonneg b (Int.neg_nonneg.mpr ha)
  omega

theorem bMod_remainder (h : x.b ≠ 0) :
    ∃ y : Word, (bMod.fn x).y = some y ∧ y.toInt = x.a.toInt - x.b.toInt * x.a.toInt.tdiv x.b.toInt := by
  have hfn : bMod.fn x = outI (x.a.toInt.tmod x.b.toInt) := if_neg h
  rw [hfn, ← Int.tmod_def]
  exact outI_reads (tmod_inRange _ (toInt_inRange x.a))

theorem bMod_zero (h : x.b = 0) : (bMod.fn x).y = some 0 ∧ (bMod.fn x).divz = true := by
  have hfn : bMod.fn x = { outI 0 with divz := true } := if_pos h
  rw [hfn]
  exact ⟨rfl, rfl⟩

/-! ### Choices -/

theorem bMin_lesser : ∃ y : Word, (bMin.fn x).y = some y ∧ y.toInt = min x.a.toInt x.b.toInt := by
  have ha := toInt_inRange x.a
  have hb := toInt_inRange x.b
  exact outI_reads (by omega)

theorem bMax_greater : ∃ y : Word, (bMax.fn x).y = some y ∧ y.toInt = max x.a.toInt x.b.toInt := by
  have ha := toInt_inRange x.a
  have hb := toInt_inRange x.b
  exact outI_reads (by omega)

theorem bLimit_between (h : x.b.toInt ≤ x.c.toInt) :
    ∃ y : Word, (bLimit.fn x).y = some y ∧ y.toInt = max x.b.toInt (min x.a.toInt x.c.toInt) := by
  have hb := toInt_inRange x.b
  have hc := toInt_inRange x.c
  have hfn : bLimit.fn x = outI (min (max x.a.toInt x.b.toInt) x.c.toInt) := congrArg outI (if_neg (Int.not_lt.mpr h))
  have horder : max x.b.toInt (min x.a.toInt x.c.toInt) = min (max x.a.toInt x.b.toInt) x.c.toInt := by omega
  rw [hfn, horder]
  exact outI_reads (by omega)

end

/-- Settles O34, block by block: a result that may saturate is satI of the exact one. That a division by zero does not count as
saturated is the model's reading (log 93). -/
theorem integerBlocks : Obligations.IntegerBlocks := by
  unfold Obligations.IntegerBlocks
  intro clamp gives x
  have hgives (v : Int) : gives (outS (satI v)) v := outS_satI_clamps v
  exact ⟨hgives _, hgives _, hgives _, hgives _, hgives _, hgives _, bDiv_clamps, bDiv_zero, bMod_remainder, bMod_zero,
    bMin_lesser, bMax_greater, bLimit_between⟩

end Sys2Proof.Machine
end

section
/-! PROOF. The Q blocks: rounding, the square root, and the ranges of the control blocks (10 R292, R293, R296, R297, Table 10.5). -/
namespace Sys2Proof.Machine

section
variable {x : BlkIn}

/-! ### Q arithmetic (10 R293) -/

theorem bQmul_near (h : (bQmul.fn x).sat = false) : ∃ y : Word, (bQmul.fn x).y = some y ∧
    2 * (65536 * y.toInt - x.a.toInt * x.b.toInt).natAbs ≤ 65536 := by
  obtain ⟨hin, hexact⟩ := satI_exact h
  refine ⟨_, rfl, ?_⟩
  have hy : (wordI (qMul x.a.toInt x.b.toInt).1).toInt = roundDiv (x.a.toInt * x.b.toInt) 65536 := by
    rw [qMul, hexact, toInt_wordI hin]
  rw [hy]
  exact roundDiv_near _ (d := 65536) (by decide)

/-- A Q number rounded to a whole one lies in the range. -/
theorem bQ2i_near : ∃ y : Word, (bQ2i.fn x).y = some y ∧ 2 * (65536 * y.toInt - x.a.toInt).natAbs ≤ 65536 := by
  have ha := toInt_inRange x.a
  have hnear : 2 * (65536 * roundDiv x.a.toInt 65536 - x.a.toInt).natAbs ≤ 65536 :=
    roundDiv_near _ (d := 65536) (by decide)
  refine ⟨_, rfl, ?_⟩
  rwa [toInt_wordI (by omega)]

/-- A word not below 0, in 48 bits as a Q number whose root is to be taken. -/
theorem toNat_scaled_lt (h : 0 ≤ x.a.toInt) : x.a.toNat * 65536 < 2 ^ 24 * 2 ^ 24 := by
  have := BitVec.toInt_pos_iff.mp h
  omega

theorem bQsqrt_root (h : 0 ≤ x.a.toInt) : ∃ y : Word, (bQsqrt.fn x).y = some y ∧ (bQsqrt.fn x).sat = false ∧
    y.toNat * y.toNat ≤ x.a.toNat * 65536 ∧ x.a.toNat * 65536 < (y.toNat + 1) * (y.toNat + 1) := by
  have hlt := toNat_scaled_lt h
  have hfn : bQsqrt.fn x = outI (isqrt 24 (x.a.toNat * 65536)) := if_neg (Int.not_lt.mpr h)
  have hy : (wordI (isqrt 24 (x.a.toNat * 65536))).toNat = isqrt 24 (x.a.toNat * 65536) := by
    rw [wordI, BitVec.ofInt_natCast, BitVec.toNat_ofNat]
    exact Nat.mod_eq_of_lt ((isqrt_inRange hlt).trans (by decide))
  rw [hfn]
  refine ⟨_, rfl, rfl, ?_⟩
  rw [hy]
  exact isqrt_spec hlt

theorem bQsqrt_negative (h : x.a.toInt < 0) : (bQsqrt.fn x).y = some 0 ∧ (bQsqrt.fn x).sat = true := by
  have hfn : bQsqrt.fn x = { outI 0 with sat := true } := if_pos h
  rw [hfn]
  exact ⟨rfl, rfl⟩

/-! ### PID and INTEG (10 R297) -/

/-- What is brought between two bounds in order lies between them. -/
theorem bounded_reads (v : Int) {lo hi : Int} (hlo : InRange lo) (hhi : InRange hi) (h : lo ≤ hi) :
    ∃ y : Word, (outI (min (max v lo) hi)).y = some y ∧ lo ≤ y.toInt ∧ y.toInt ≤ hi := by
  obtain ⟨y, hy, hval⟩ := outI_reads (v := min (max v lo) hi) (by omega)
  exact ⟨y, hy, by omega, by omega⟩

theorem bPid_between (h : x.i 3 ≤ x.i 4) :
    ∃ y : Word, (bPid.fn x).y = some y ∧ x.i 3 ≤ y.toInt ∧ y.toInt ≤ x.i 4 := by
  obtain ⟨v, hy⟩ : ∃ v, (bPid.fn x).y = (outI (min (max v (x.i 3)) (x.i 4))).y :=
    ⟨_, congrArg (fun v => (outI v).y) (if_neg (Int.not_lt.mpr h))⟩
  rw [hy]
  exact bounded_reads v (x.i_inRange 3) (x.i_inRange 4) h

theorem bInteg_between (hb : x.b = 0) (h : x.i 0 ≤ x.i 1) :
    ∃ y : Word, (bInteg.fn x).y = some y ∧ x.i 0 ≤ y.toInt ∧ y.toInt ≤ x.i 1 := by
  have hy : (bInteg.fn x).y = (outI (min (max (satAdd (x.i 2) (qMul x.a.toInt x.dtq).1).1 (x.i 0)) (x.i 1))).y := by
    simp [bInteg, fnInteg, outI, isTrue_eq_false.mpr hb]
  rw [hy]
  exact bounded_reads _ (x.i_inRange 0) (x.i_inRange 1) h

theorem bInteg_reset (hb : x.b ≠ 0) : (bInteg.fn x).y = some 0 := by
  simp [bInteg, fnInteg, outI, isTrue_eq_true.mpr hb]

/-! ### RAMP (10 Table 10.5; log 39) -/

/-- What RAMP may move up or down by in a pass. -/
theorem BlkIn.rate_nonneg (x : BlkIn) (k : Nat) : 0 ≤ (qMul (max 0 (x.i k)) x.dtq).1 :=
  qMul_nonneg (Int.le_max_left _ _) x.dtq_nonneg

theorem bRamp_up (h : x.i 2 < x.a.toInt) :
    (bRamp.fn x).y = (outI (min x.a.toInt (satAdd (x.i 2) (qMul (max 0 (x.i 0)) x.dtq).1).1)).y := by
  simp [bRamp, fnRamp, outI, h]

theorem bRamp_down (h : x.a.toInt < x.i 2) :
    (bRamp.fn x).y = (outI (max x.a.toInt (satSub (x.i 2) (qMul (max 0 (x.i 1)) x.dtq).1).1)).y := by
  simp [bRamp, fnRamp, outI, h, Int.not_lt.mpr h.le]

theorem bRamp_there (h : x.a.toInt = x.i 2) : (bRamp.fn x).y = (outI (x.i 2)).y := by
  simp [bRamp, fnRamp, outI, h]

theorem bRamp_rises (h : x.i 2 ≤ x.a.toInt) :
    ∃ y : Word, (bRamp.fn x).y = some y ∧ x.i 2 ≤ y.toInt ∧ y.toInt ≤ x.a.toInt := by
  have hmove := le_satAdd (x.i_inRange 2) (x.rate_nonneg 0)
  have ha := toInt_inRange x.a
  have hrange := x.i_inRange 2
  obtain heq | hlt := h.eq_or_lt
  · rw [bRamp_there heq.symm]
    exact ⟨_, rfl, by rw [toInt_wordI hrange]; omega⟩
  · rw [bRamp_up hlt]
    exact ⟨_, rfl, by rw [toInt_wordI (by omega)]; omega⟩

theorem bRamp_falls (h : x.a.toInt ≤ x.i 2) :
    ∃ y : Word, (bRamp.fn x).y = some y ∧ x.a.toInt ≤ y.toInt ∧ y.toInt ≤ x.i 2 := by
  have hmove := satSub_le (x.i_inRange 2) (x.rate_nonneg 1)
  have ha := toInt_inRange x.a
  have hrange := x.i_inRange 2
  obtain heq | hlt := h.eq_or_lt
  · rw [bRamp_there heq]
    exact ⟨_, rfl, by rw [toInt_wordI hrange]; omega⟩
  · rw [bRamp_down hlt]
    exact ⟨_, rfl, by rw [toInt_wordI (by omega)]; omega⟩

/-! ### HYST and LIN -/

theorem bHyst_above (hord : x.i 1 ≤ x.i 0) (h : x.i 0 < x.a.toInt) : (bHyst.fn x).y = some 1 := by
  simp [bHyst, fnHyst, outB, boolWord, h, Int.not_lt.mpr (hord.trans h.le)]

theorem bHyst_below (h : x.a.toInt < x.i 1) : (bHyst.fn x).y = some 0 := by
  simp [bHyst, fnHyst, outB, boolWord, h]

theorem bHyst_keeps (hlo : x.i 1 ≤ x.a.toInt) (hhi : x.a.toInt ≤ x.i 0) :
    (bHyst.fn x).y = some (if x.w 2 = 0 then 0 else 1) := by
  simp [bHyst, fnHyst, outB, boolWord, isTrue, Int.not_lt.mpr hlo, Int.not_lt.mpr hhi]

theorem bLin_first (hn : x.i 0 = 2) (hord : x.i 1 < x.i 3) (h : x.a.toInt ≤ x.i 1) :
    (bLin.fn x).y = some (x.w 2) ∧ (bLin.fn x).sat = false := by
  have hfn : bLin.fn x = { outI (x.i 2) with r := x.r } := by simp [bLin, fnLin, hn, hord, h]
  rw [hfn]
  exact ⟨congrArg some (x.wordI_i _), rfl⟩

theorem bLin_last (hn : x.i 0 = 2) (hord : x.i 1 < x.i 3) (h : x.i 3 ≤ x.a.toInt) :
    (bLin.fn x).y = some (x.w 4) ∧ (bLin.fn x).sat = false := by
  have hbehind : ¬ x.a.toInt ≤ x.i 1 := Int.not_le.mpr (hord.trans_le h)
  have hfn : bLin.fn x = { outI (x.i 4) with r := x.r } := by simp [bLin, fnLin, hn, hord, h, hbehind]
  rw [hfn]
  exact ⟨congrArg some (x.wordI_i _), rfl⟩

end

/-- Settles O35, block by block; LIN at two points. That a negative rate of RAMP moves nothing is the model's reading (log
39). -/
theorem fixedPointBlocks : Obligations.FixedPointBlocks := by
  unfold Obligations.FixedPointBlocks
  intro x
  exact ⟨bQmul_near, bQ2i_near, bQsqrt_root, bQsqrt_negative, bPid_between, bInteg_between, bInteg_reset, bRamp_rises,
    bRamp_falls, bHyst_above, bHyst_below, bHyst_keeps, bLin_first, bLin_last⟩

end Sys2Proof.Machine
end

section
/-! PROOF. The Boolean, word, timer, counter and table blocks (10 R292, R295, R296, Table 10.5). -/
namespace Sys2Proof.Machine

section
variable {x : BlkIn}

/-! ### Boolean and word blocks -/

theorem bRtrig_pulse : (bRtrig.fn x).y = some (if decide (x.a ≠ 0) && decide (x.w 0 = 0) then 1 else 0) := by
  rw [← not_isTrue]
  rfl

theorem BlkIn.sh_eq (x : BlkIn) : x.sh = x.b.toNat % 32 := by simp [BlkIn.sh, fld]

theorem bBitget_bit : (bBitget.fn x).y = some (if x.a.getLsbD (x.b.toNat % 32) then 1 else 0) := by
  rw [← x.sh_eq]
  rfl

theorem bShl_shifted : (bShl.fn x).y = some (x.a <<< (x.b.toNat % 32)) := by
  rw [← x.sh_eq]
  rfl

theorem bShr_shifted : (bShr.fn x).y = some (x.a >>> (x.b.toNat % 32)) := by
  rw [← x.sh_eq]
  rfl

theorem bBitput_bits {i : Nat} : ∃ y, (bBitput.fn x).y = some y ∧
    y.getLsbD i = (if i = x.b.toNat % 32 then decide (x.c ≠ 0) else x.a.getLsbD i) := by
  refine ⟨putBit x.a x.sh (isTrue x.c), rfl, ?_⟩
  rw [x.sh_eq]
  exact getLsbD_putBit x.a i _ (Nat.mod_lt _ (by decide))

/-- Equal as words is equal as numbers. -/
theorem bEq_numbers : (bEq.fn x).y = some (if decide (x.a.toInt = x.b.toInt) then 1 else 0) := by
  simp only [BitVec.toInt_inj]
  rfl

theorem bNe_numbers : (bNe.fn x).y = some (if decide (x.a.toInt ≠ x.b.toInt) then 1 else 0) := by
  simp only [ne_eq, BitVec.toInt_inj]
  rfl

/-! ### Timers (10 R295) -/

section
variable (hin : x.a ≠ 0)
include hin

theorem bTon_running (h : x.i 1 + x.dt < x.i 0) :
    (bTon.fn x).y = some 0 ∧ (bTon.fn x).z = some (BitVec.ofInt 32 (x.i 1 + x.dt)) := by
  simp [bTon, fnTon, outB, boolWord, wordI, isTrue_eq_true.mpr hin, min_eq_left h.le, h]

theorem bTon_reached (h : x.i 0 ≤ x.i 1 + x.dt) : (bTon.fn x).y = some 1 ∧ (bTon.fn x).z = some (x.w 0) := by
  simp [bTon, fnTon, outB, boolWord, isTrue_eq_true.mpr hin, min_eq_right h]

theorem bTof_on : (bTof.fn x).y = some 1 ∧ (bTof.fn x).z = some 0 := by
  simp [bTof, fnTof, outB, boolWord, isTrue_eq_true.mpr hin]

end

section
variable (hin : x.a = 0)
include hin

theorem bTon_off : (bTon.fn x).y = some 0 ∧ (bTon.fn x).z = some 0 := by
  simp [bTon, fnTon, outB, boolWord, isTrue_eq_false.mpr hin]

theorem bTof_reached (h : x.i 0 ≤ x.i 1 + x.dt) : (bTof.fn x).y = some 0 ∧ (bTof.fn x).z = some (x.w 0) := by
  simp [bTof, fnTof, outB, boolWord, isTrue_eq_false.mpr hin, min_eq_right h]

end

/-! ### Counters -/

theorem counters_set (hset : x.b ≠ 0) : (bCtu.fn x).z = some 0 ∧ (bCtd.fn x).z = some (x.w 0) := by
  simp [bCtu, fnCtu, bCtd, fnCtd, isTrue_eq_true.mpr hset]

section
variable (hrun : x.b = 0)
include hrun

theorem bCtu_counts (hin : x.a ≠ 0) (hedge : x.w 2 = 0) (h : x.i 1 < 2147483647) :
    (bCtu.fn x).z = some (x.w 1 + 1) := by
  have hcv : InRange (x.i 1 + 1) := ⟨by have := x.i_inRange 1; omega, by omega⟩
  have hword : wordI (x.i 1 + 1) = x.w 1 + 1 := by rw [wordI, BitVec.ofInt_add]; exact congrArg (· + 1) (x.wordI_i 1)
  simp [bCtu, fnCtu, isTrue_eq_false.mpr hrun, isTrue_eq_true.mpr hin, isTrue_eq_false.mpr hedge, satAdd,
    satI_of_inRange hcv, hword]

theorem bCtd_counts (hin : x.a ≠ 0) (hedge : x.w 2 = 0) (h : -2147483648 < x.i 1) :
    (bCtd.fn x).z = some (x.w 1 - 1) := by
  have hcv : InRange (x.i 1 - 1) := ⟨by omega, by have := x.i_inRange 1; omega⟩
  have hword : wordI (x.i 1 - 1) = x.w 1 - 1 := by
    rw [wordI, Int.sub_eq_add_neg, BitVec.ofInt_add, BitVec.sub_eq_add_neg]
    exact congrArg (· + -1) (x.wordI_i 1)
  simp [bCtd, fnCtd, isTrue_eq_false.mpr hrun, isTrue_eq_true.mpr hin, isTrue_eq_false.mpr hedge, satSub,
    satI_of_inRange hcv, hword]

/-- Without a rising edge both counters stand. -/
theorem counters_stand (h : x.a = 0 ∨ x.w 2 ≠ 0) : (bCtu.fn x).z = some (x.w 1) ∧ (bCtd.fn x).z = some (x.w 1) := by
  have hedge : (isTrue x.a && !isTrue (x.w 2)) = false := by simpa [isTrue, or_iff_not_imp_left] using h
  simp [bCtu, fnCtu, bCtd, fnCtd, isTrue_eq_false.mpr hrun, hedge]

end

/-! ### Waymarks, stations and change (10 Table 10.5) -/

theorem bWmok_frozen (h : x.a.toNat < 256) : (bWmok.fn x).y = some (if x.frzok.getLsbD x.a.toNat then 1 else 0) := by
  simp [bWmok, outB, boolWord, h]

theorem bWmok_beyond (h : 256 ≤ x.a.toNat) : (bWmok.fn x).y = some 0 := by
  simp [bWmok, outB, boolWord, Nat.not_lt.mpr h]

theorem bLaneok_present (hlo : 1 ≤ x.a.toNat) (hhi : x.a.toNat ≤ 32) :
    (bLaneok.fn x).y = some (if !x.missing.getLsbD (x.a.toNat - 1) then 1 else 0) := by
  simp [bLaneok, fnLaneok, outB, boolWord, hlo, hhi]

theorem bFresh_restarts (h : x.a ≠ x.w 0) : (bFresh.fn x).z = some 0 := by
  simp [bFresh, fnFresh, h]

/-! ### Tables (10 R296) -/

theorem bLoadx_sat : (bLoadx.fn x).sat = true ↔ x.a.toInt < 0 ∨ (x.n : Int) ≤ x.a.toInt := by
  simp [bLoadx, fnLoadx]

theorem bStorex_inside (hlo : 0 ≤ x.a.toInt) (hhi : x.a.toInt < x.n) :
    (bStorex.fn x).r = [x.b] ∧ (bStorex.fn x).sat = false := by
  simp [bStorex, fnStorex, hlo, hhi]

theorem bStorex_outside (h : x.a.toInt < 0 ∨ (x.n : Int) ≤ x.a.toInt) :
    (bStorex.fn x).y = some 0 ∧ (bStorex.fn x).r = [] ∧ (bStorex.fn x).sat = true := by
  have hout : (decide (0 ≤ x.a.toInt) && decide (x.a.toInt < x.n)) = false := by
    rwa [Bool.and_eq_false_iff, decide_eq_false_iff_not, decide_eq_false_iff_not, Int.not_le, Int.not_lt]
  simp [bStorex, fnStorex, outW, hout]

end

/-- Settles O36, block by block. -/
theorem logicBlocks : Obligations.LogicBlocks := by
  unfold Obligations.LogicBlocks
  intro x A B C word
  have hA : A = true → x.a ≠ 0 := of_decide_eq_true
  have hnA : A = false → x.a = 0 := fun h => Decidable.of_not_not (of_decide_eq_false h)
  have hB : B = true → x.b ≠ 0 := of_decide_eq_true
  have hnB : B = false → x.b = 0 := fun h => Decidable.of_not_not (of_decide_eq_false h)
  exact ⟨rfl, rfl, rfl, rfl, rfl, rfl, rfl, rfl, bRtrig_pulse, rfl, rfl, bBitget_bit, rfl, rfl, rfl, bShl_shifted,
    bShr_shifted, bEq_numbers, bNe_numbers, rfl, rfl, rfl, rfl, rfl, rfl, rfl, fun _ _ => bBitput_bits,
    fun h _ _ => ⟨bTon_running (hA h), bTon_reached (hA h)⟩, fun h => bTon_off (hnA h), fun h => bTof_on (hA h),
    fun h => bTof_reached (hnA h), fun h => counters_set (hB h), fun h ha => bCtu_counts (hnB h) (hA ha),
    fun h ha => bCtd_counts (hnB h) (hA ha), fun h hstand => counters_stand (hnB h) (hstand.imp_left hnA), bWmok_frozen,
    bWmok_beyond, bLaneok_present, rfl, bFresh_restarts, rfl, bLoadx_sat, bStorex_inside, bStorex_outside⟩

end Sys2Proof.Machine
end

section
/-! PROOF. Where an entry writes, and where it does not stay in its own words: a fault settles the wayleave, whose request may
complete a transmit record in memory (12 R332; 07 R222), and an armed injection is used up by the word it meets (15 Registers,
MEM_INJECT). The statements that say memory stays over a fault, or that the word reads the result, fail there. -/
namespace Sys2Proof.Machine

/-! ### An entry that faults -/

/-- An entry that reads immediates and writes nowhere: IN0 is -1. -/
def bareEntry : Entry := ⟨3, 0, 0, 0xF000, 0x6FFF, 0x6000, 0x6000, 0xF000, 0xF000, 0⟩

/-- `strandedNode` in a pass under SATFAULT. -/
def strandedPass : State := { strandedNode with itn.satfault := true }

theorem entryFault_strandedNode_byte : (strandedNode.entryFault bareEntry).byte 0x10000003 = 0x60 := by decide +kernel

/-- The root of a number below 0 saturates, and the entry faults. -/
theorem entryResult_strandedPass_byte : (strandedPass.entryResult bQsqrt bareEntry).byte 0x10000003 = 0x60 := by
  decide +kernel

theorem bareEntry_words :
    strandedPass.recWords bQsqrt bareEntry ((strandedPass.refVal bQsqrt.qa bQsqrt.none_ bareEntry.in0).getD 0) ++
      [bareEntry.out0, bareEntry.out1].filterMap refAddr = [] := by decide +kernel

/-- Refutes O33, in its last clause: the fault of an entry of `strandedNode` sends RELEASE on port A2, the frame queued before it
finds no port and ends as undeliverable, and its record at 0x10000000 is marked DONE: memory is not as it was. -/
theorem not_entriesRun : ¬ Obligations.EntriesRun := by
  unfold Obligations.EntriesRun
  intro h
  obtain ⟨_, _, _, _, hfault⟩ := h
  obtain ⟨_, _, _, _, _, hmem⟩ := hfault bareEntry strandedNode
  exact absurd (entryFault_strandedNode_byte.symm.trans (State.byte_of_mem hmem _)) (by decide +kernel)

/-- Refutes O56: QSQRT of -1 in `strandedPass`, an entry with no record and no outputs, saturates and faults by SATFAULT, and the
fault marks the record at 0x10000000 DONE. -/
theorem not_entryBytes : ¬ Obligations.EntryBytes := by
  unfold Obligations.EntryBytes
  intro h
  have hkept := h bQsqrt bareEntry strandedPass 0x10000003 (by decide +kernel)
    (by rw [bareEntry_words]; exact List.forall_mem_nil _)
  exact absurd (entryResult_strandedPass_byte.symm.trans hkept) (by decide +kernel)

/-! ### An injection armed for the output's word (15 R400) -/

/-- A node with an injection of two flipped bits armed for signal word 5. -/
def injectingNode : State := (State.reset.setReg Reg.MEM_INJECT 0xC0000000).setReg Reg.MEM_INJADDR 0x20000014

/-- The difference of two immediates, put into signal word 5. -/
def signalEntry : Entry := ⟨3, 0, 0, 0xF000, 0x6007, 0x6005, 0xF000, 5, 0xF000, 0⟩

theorem injectingNode_entry : injectingNode.mem.errs = [] ∧
    (bSub.fn (injectingNode.entryIn bSub signalEntry)).y = some 2 ∧
    (bSub.fn (injectingNode.entryIn bSub signalEntry)).sat = false ∧
    injectingNode.entryReadable bSub signalEntry = true := by decide +kernel

theorem entryResult_injectingNode_word : (injectingNode.entryResult bSub signalEntry).seqWord (0x20000000 + 4 * 5) = none := by
  decide +kernel

/-- Refutes O37: in `injectingNode` the word that SUB stores takes the armed double error, so signal word 5 is uncorrectable and
does not read the result; MEM_INJECT, which disarms, is not as before either. -/
theorem not_signalWritten : ¬ Obligations.SignalWritten := by
  unfold Obligations.SignalWritten
  intro h
  obtain ⟨herrs, hy, hsat, hread⟩ := injectingNode_entry
  obtain ⟨hword, _⟩ := h bSub signalEntry 5 2 injectingNode rfl rfl rfl rfl (by decide) rfl herrs hy rfl hsat rfl rfl hread
  exact absurd (entryResult_injectingNode_word.symm.trans hword) (by simp)

end Sys2Proof.Machine
end

section
/-! PROOF. Gates and hardware queues: what an attempt answers, who frees a gate, and what a push and a pop leave (15 R416 to R424,
Table 15.7). -/
namespace Sys2Proof.Machine

/-! ### What GATE_TRY answers (15 R417) -/

/-- The fields of the word that GATE_TRY answers: the owner, BROKEN, and GOT. -/
theorem gateWord_fields (got broken self leased : Bool) (owner : Byte) :
    let w := packW [(31, got.toNat), (30, broken.toNat), (29, self.toNat), (28, leased.toNat), (0, owner.toNat)]
    fld w 0 8 = owner.toNat ∧ fld w 31 1 = got.toNat ∧ fld w 30 1 = broken.toNat := by
  have ho : owner.toNat < 256 := owner.isLt
  simp only [packW, List.foldl, fld, BitVec.toNat_ofNat]
  refine ⟨?_, ?_, ?_⟩ <;> (cases got <;> cases broken <;> cases self <;> cases leased <;> simp <;> omega)

theorem State.gateTryVal_fields (s : State) (code : Byte) (g : Fin 32) :
    fld (s.gateTryVal code g) 0 8 = (if s.gateTakes code g then code else (s.gate g).owner).toNat ∧
    fld (s.gateTryVal code g) 31 1 = (s.gateTakes code g || decide ((s.gate g).owner = code)).toNat ∧
    fld (s.gateTryVal code g) 30 1 = (s.gate g).broken.toNat := gateWord_fields _ _ _ _ _

/-- A free gate that accepts the requester is taken. -/
theorem exec_gateTryg_free (m : Master) (g : Fin 32) (s : State)
    (ha : s.accesses m false (Reg.at Reg.GATE_TRY g) = true) (hfree : (s.gate g).owner = 0)
    (hacc : gateAccepts (masterCode m) g = true) :
    exec (.gateTryg m g) s = .next { s with
      mem.gates := s.mem.gates.set g ⟨masterCode m, false⟩
      out := s.out ++ [.answer m (s.gateTryVal (masterCode m) g)] } ∧
    fld (s.gateTryVal (masterCode m) g) 0 8 = (masterCode m).toNat ∧
    fld (s.gateTryVal (masterCode m) g) 31 1 = 1 ∧
    fld (s.gateTryVal (masterCode m) g) 30 1 = (s.gate g).broken.toNat := by
  have htakes : s.gateTakes (masterCode m) g = true := by simp [State.gateTakes, hfree, hacc]
  obtain ⟨howner, hgot, hbroken⟩ := s.gateTryVal_fields (masterCode m) g
  refine ⟨congrArg Host.Outcome.next ?_, by rw [howner, if_pos htakes], by rw [hgot, htakes]; rfl, hbroken⟩
  rw [State.access_made _ ha, State.gateTryFx, if_pos htakes]
  rfl

/-- A gate that is held stays as it is. -/
theorem exec_gateTryg_held (m : Master) (g : Fin 32) (s : State)
    (ha : s.accesses m false (Reg.at Reg.GATE_TRY g) = true) (hheld : (s.gate g).owner ≠ 0) :
    exec (.gateTryg m g) s = .next { s with out := s.out ++ [.answer m (s.gateTryVal (masterCode m) g)] } ∧
    fld (s.gateTryVal (masterCode m) g) 0 8 = (s.gate g).owner.toNat := by
  have htakes : s.gateTakes (masterCode m) g = false := by rw [State.gateTakes, decide_eq_false hheld, Bool.false_and]
  obtain ⟨howner, _, _⟩ := s.gateTryVal_fields (masterCode m) g
  refine ⟨congrArg Host.Outcome.next ?_, by rw [howner, htakes]; rfl⟩
  rw [State.access_made _ ha, State.gateTryFx, htakes]
  rfl

/-! ### Who frees a gate (15 R418 to R421) -/

theorem exec_gateRelg_own (m : Master) (g : Fin 32) (s : State) (ha : s.accesses m true (Reg.at Reg.GATE_REL g) = true)
    (hown : (s.gate g).owner = masterCode m) :
    exec (.gateRelg m g) s = .next { s with mem.gates := s.mem.gates.set g ⟨0, false⟩ } := by
  refine congrArg Host.Outcome.next ?_
  have hmay : s.gateRelRefused (masterCode m) g = false := decide_eq_false (not_not_intro hown)
  rw [State.access_made _ ha, State.gateRel, hmay, if_neg Bool.false_ne_true, State.gateRelFx, if_pos hown]
  rfl

theorem exec_gateRelg_other (m : Master) (g : Fin 32) (s : State) (ha : s.accesses m true (Reg.at Reg.GATE_REL g) = true)
    (hother : (s.gate g).owner ≠ masterCode m) :
    exec (.gateRelg m g) s = .next (s.accFault m true (Reg.at Reg.GATE_REL g)) := by
  refine congrArg Host.Outcome.next ?_
  have hmay : s.gateRelRefused (masterCode m) g = true := decide_eq_true hother
  rw [State.access_made _ ha, State.gateRel, if_pos hmay]

theorem exec_gateForceg_allowed (m : Master) (g : Fin 32) (s : State)
    (ha : s.accesses m true (Reg.at Reg.GATE_FORCE g) = true) (hm : m = .steward ∨ m = .service) :
    exec (.gateForceg m g) s = .next (State.raise 238 { s with mem.gates := s.mem.gates.set g ⟨0, true⟩ }) := by
  have hforce : forceAllowed (masterCode m) = true := by rcases hm with rfl | rfl <;> rfl
  refine congrArg Host.Outcome.next ?_
  rw [State.access_made _ ha, State.gateForce, if_pos hforce, State.gateForceFx, if_pos hforce]
  rfl

theorem exec_gateForceg_refused (m : Master) (g : Fin 32) (s : State)
    (ha : s.accesses m true (Reg.at Reg.GATE_FORCE g) = true) (h2 : masterCode m ≠ 2) (h4 : masterCode m ≠ 4) :
    exec (.gateForceg m g) s = .next (s.accFault m true (Reg.at Reg.GATE_FORCE g)) := by
  refine congrArg Host.Outcome.next ?_
  have hforce : ¬ forceAllowed (masterCode m) = true := by rw [forceAllowed, decide_eq_false h2, decide_eq_false h4]; decide
  rw [State.access_made _ ha, State.gateForce, if_neg hforce]

theorem exec_gateLeaseExpiry_ends (g : Fin 32) (s : State) (hc : s.coreRuns = true) (hheld : (s.gate g).owner ≠ 0)
    (hlease : s.regFld (Reg.at Reg.GATE_LEASE g) 0 16 ≠ 0) :
    exec (.gateLeaseExpiry g) s = .next (State.raise 238 { s with mem.gates := s.mem.gates.set g ⟨0, true⟩ }) := by
  refine congrArg Host.Outcome.next ?_
  rw [State.when_true _ hc, State.leaseExpiry, if_neg (not_or.mpr ⟨hheld, hlease⟩)]
  rfl

/-- Settles O45, gate command by gate command. -/
theorem gatesServe : Obligations.GatesServe := by
  unfold Obligations.GatesServe
  exact ⟨exec_gateTryg_free, exec_gateTryg_held, exec_gateRelg_own, exec_gateRelg_other, exec_gateForceg_allowed,
    exec_gateForceg_refused, exec_gateLeaseExpiry_ends⟩

/-! ### Queues (15 R423, R424) -/

/-- What a push leaves in every queue. -/
theorem State.queuePush_queues (code : Byte) (q r : Fin 16) (v : Word) (s : State) :
    (s.queuePush code q v).queue r = if r = q then
        (if 16 ≤ (s.queue q).items.length then ⟨(s.queue q).items, satSucc (s.queue q).refused⟩
          else ⟨(s.queue q).items ++ [v], (s.queue q).refused⟩)
      else s.queue r := by
  rw [State.queuePush]
  rw [State.raiseIf_queue, State.setMystat_queue, State.queue_setQueue]
  simp only [decide_eq_true_eq]

theorem exec_gateQpush_room (m : Master) (q : Fin 16) (v : Word) (s : State)
    (ha : s.accesses m true (Reg.GATE_QPUSH + 0x10 * q.val) = true) (hroom : (s.queue q).items.length < 16) :
    ∃ t, exec (.gateQpush m q v) s = .next t ∧ (t.queue q).items = (s.queue q).items ++ [v] ∧
      (t.queue q).refused = (s.queue q).refused ∧ ∀ r, r ≠ q → t.queue r = s.queue r := by
  refine ⟨_, congrArg Host.Outcome.next (State.access_made _ ha), ?_⟩
  simp +contextual [State.queuePush_queues, Nat.not_le_of_lt hroom]

/-- A full queue: the push is refused and counted, with EV239. -/
theorem exec_gateQpush_full (m : Master) (q : Fin 16) (v : Word) (s : State)
    (ha : s.accesses m true (Reg.GATE_QPUSH + 0x10 * q.val) = true) (hfull : 16 ≤ (s.queue q).items.length) :
    ∃ t, exec (.gateQpush m q v) s = .next t ∧ t.queue q = ⟨(s.queue q).items, satSucc (s.queue q).refused⟩ ∧
      t.evt.raw = setBit s.evt.raw 239 ∧ ∀ r, r ≠ q → t.queue r = s.queue r := by
  refine ⟨_, congrArg Host.Outcome.next (State.access_made _ ha), ?_⟩
  refine ⟨by simp [State.queuePush_queues, hfull], ?_, by simp +contextual [State.queuePush_queues]⟩
  simp [State.queuePush, hfull, State.raiseIf, State.when]

theorem exec_gateQpop_made (m : Master) (q : Fin 16) (s : State)
    (ha : s.accesses m false (Reg.GATE_QPOP + 0x10 * q.val) = true) :
    ∃ t, exec (.gateQpop m q) s = .next t ∧ t.out = s.out ++ [.answer m ((s.queue q).items.headD 0)] ∧
      (t.queue q).items = (s.queue q).items.drop 1 ∧ (t.queue q).refused = (s.queue q).refused ∧
      ∀ r, r ≠ q → t.queue r = s.queue r := by
  have hq (r : Fin 16) : ((s.queuePopFx (masterCode m) q).emit (.answer m (s.queueHead q))).queue r =
      if r = q then { s.queue q with items := (s.queue q).items.drop 1 } else s.queue r := by
    show ((s.queuePopFx (masterCode m) q)).queue r = _
    rw [State.queuePopFx]
    rw [State.setMystat_queue, State.queue_setQueue]
  refine ⟨_, congrArg Host.Outcome.next (State.access_made _ ha), rfl, ?_⟩
  simp +contextual [hq]

theorem exec_gateQclr_cleared (m : Master) (q : Fin 16) (v : Word) (s : State)
    (ha : s.accesses m true (Reg.GATE_QCLR + 0x10 * q.val) = true) (hv : v.getLsbD 0 = true) :
    exec (.gateQclr m q v) s = .next { s with mem.queues := s.mem.queues.set q ⟨[], (s.queue q).refused⟩ } := by
  refine congrArg Host.Outcome.next ?_
  rw [State.access_made _ ha, State.queueClear, if_pos hv]
  rfl

/-- Settles O46: a push by the room in its queue, a pop and a clear. -/
theorem queuesServe : Obligations.QueuesServe := by
  unfold Obligations.QueuesServe
  exact ⟨exec_gateQpush_room, exec_gateQpush_full, exec_gateQpop_made, exec_gateQclr_cleared⟩

end Sys2Proof.Machine
end

section

/-!
PROOF. No command changes the queue of the commands that wait (95): the lemmas of the shared combinators, one lemma per
operation of the model in the model's order, one per command, and the statements of a step and of the queue.
-/

namespace Sys2Proof.Machine

@[simp] theorem State.pending_ite (c : Prop) [Decidable c] (a b : State) :
    (if c then a else b).pending = if c then a.pending else b.pending := apply_ite State.pending c a b

@[simp] theorem State.when_pending (b : Bool) (f : State → State) (s : State) :
    (s.when b f).pending = if b then (f s).pending else s.pending := by
  unfold State.when
  split <;> rfl

@[simp] theorem State.each_pending {α : Type} {f : α → State → State} (hf : ∀ x t, (f x t).pending = t.pending)
    (l : List α) (s : State) : (s.each l f).pending = s.pending := by
  induction l generalizing s with
  | nil => rfl
  | cons x l ih => exact (ih (f x s)).trans (hf x s)

/-- Every access of a bus leaves the queue of waiting commands as it is. -/
abbrev Bus.Aside (b : Bus) : Prop :=
  (∀ m a be s, (b.readFx m a be s).pending = s.pending) ∧ ∀ m a be v s, (b.write m a be v s).pending = s.pending

/-- Serving an access held back leaves the queue of waiting commands as it is. -/
abbrev ServesAside (sv : Served → State → State) : Prop := ∀ x t, (sv x t).pending = t.pending

/-! ### Machine/Ops.lean -/

@[simp] theorem State.setBytes_pending (a : Nat) (bs : List Byte) (s : State) :
    (State.setBytes a bs s).pending = s.pending := by
  induction bs generalizing a s with
  | nil => rfl
  | cons b bs ih => simp [State.setBytes, ih]

/-! ### Machine/Flags.lean -/

@[simp] theorem State.spFaultCode_pending (code : Half) (s : State) : (State.spFaultCode code s).pending = s.pending := by
  simp [State.spFaultCode]

@[simp] theorem State.count_pending (p i k : Nat) (s : State) : (State.count p i k s).pending = s.pending := by
  unfold State.count
  split <;> simp

@[simp] theorem State.count1_pending (p i : Nat) (s : State) : (State.count1 p i s).pending = s.pending := by
  simp [State.count1]

/-! ### Machine/Hart.lean -/

@[simp] theorem State.irqTake_pending (h : Hart) (s : State) : (State.irqTake h s).pending = s.pending := by
  simp [State.irqTake]

/-! ### Machine/Mem.lean -/

@[simp] theorem State.memLog_pending (kind region : Nat) (src : Byte) (synd addr : Nat) (s : State) :
    (State.memLog kind region src synd addr s).pending = s.pending := by
  simp [State.memLog]

@[simp] theorem State.putWord_pending (a : Nat) (v : Word) (s : State) : (State.putWord a v s).pending = s.pending :=
  State.setBytes_pending ..

@[simp] theorem State.eccCe_pending (kind : Nat) (src : Byte) (a : Nat) (e : WordErr) (s : State) :
    (State.eccCe kind src a e s).pending = s.pending := by
  simp [State.eccCe]

@[simp] theorem State.eccUe_pending (kind : Nat) (src : Byte) (a : Nat) (e : WordErr) (s : State) :
    (State.eccUe kind src a e s).pending = s.pending := by
  simp [State.eccUe]

@[simp] theorem State.eccReadFx_pending (src : Byte) (a : Nat) (s : State) :
    (State.eccReadFx src a s).pending = s.pending := by
  unfold State.eccReadFx
  (repeat' split) <;> simp

@[simp] theorem State.eccFullWrite_pending (a : Nat) (v : Word) (s : State) :
    (State.eccFullWrite a v s).pending = s.pending := by
  simp [State.eccFullWrite]

@[simp] theorem State.eccWrite_pending (src : Byte) (a : Nat) (be : BitVec 4) (v : Word) (s : State) :
    (State.eccWrite src a be v s).pending = s.pending := by
  unfold State.eccWrite
  (repeat' split) <;> simp

@[simp] theorem State.parityFound_pending (src : Byte) (r : MRegion) (a : Nat) (s : State) :
    (State.parityFound src r a s).pending = s.pending := by
  simp [State.parityFound]

@[simp] theorem State.parityFx_pending (src : Byte) (r : MRegion) (a : Nat) (be : BitVec 4) (s : State) :
    (State.parityFx src r a be s).pending = s.pending := by
  unfold State.parityFx
  split <;> simp

@[simp] theorem State.bufWrite_pending (a : Nat) (bs : List Byte) (s : State) :
    (State.bufWrite a bs s).pending = s.pending := by
  simp [State.bufWrite]

@[simp] theorem State.bufWriteLanes_pending (a : Nat) (be : BitVec 4) (v : Word) (s : State) :
    (State.bufWriteLanes a be v s).pending = s.pending := by
  simp [State.bufWriteLanes]

@[simp] theorem State.flashResult_pending (src : Byte) (a code : Nat) (s : State) :
    (State.flashResult src a code s).pending = s.pending := by
  simp [State.flashResult]

@[simp] theorem State.flashAnd_pending (a : Nat) (be : BitVec 4) (v : Word) (s : State) :
    (State.flashAnd a be v s).pending = s.pending := by
  simp [State.flashAnd]

@[simp] theorem State.flashAndBytes_pending (a : Nat) (bs : List Byte) (s : State) :
    (State.flashAndBytes a bs s).pending = s.pending := by
  induction bs generalizing a s with
  | nil => rfl
  | cons b bs ih => simp [State.flashAndBytes, ih]

@[simp] theorem State.slotTouched_pending (sector : Nat) (s : State) :
    (State.slotTouched sector s).pending = s.pending := by
  simp [State.slotTouched]

@[simp] theorem State.flashProgram_pending (m : Master) (a : Nat) (be : BitVec 4) (v : Word) (s : State) :
    (State.flashProgram m a be v s).pending = s.pending := by
  simp [State.flashProgram]

@[simp] theorem State.flashStartErase_pending (sector : Nat) (s : State) :
    (State.flashStartErase sector s).pending = s.pending := by
  simp [State.flashStartErase]

@[simp] theorem State.flashErase_pending (m : Master) (v : Word) (s : State) :
    (State.flashErase m v s).pending = s.pending := by
  simp [State.flashErase]

@[simp] theorem State.eraseRange_pending (a n : Nat) (s : State) : (State.eraseRange a n s).pending = s.pending := by rfl

@[simp] theorem State.flashEraseEnd_pending (sector : Nat) (stuck : List (Nat × Byte)) (s : State) :
    (State.flashEraseEnd sector stuck s).pending = s.pending := by
  unfold State.flashEraseEnd
  dsimp only
  split
  · simp
  · rw [State.each_pending (fun _ _ => State.flashResult_pending ..), State.each_pending (fun _ _ => State.setByte_pending ..)]
    simp

@[simp] theorem State.flashAbandonOne_pending (bankB : Bool) (s : State) :
    (State.flashAbandonOne bankB s).pending = s.pending := by
  unfold State.flashAbandonOne
  split <;> simp

@[simp] theorem State.flashAbandon_pending (s : State) : (State.flashAbandon s).pending = s.pending := by
  simp [State.flashAbandon]

@[simp] theorem State.memReadFx_pending (src : Byte) (a : Nat) (be : BitVec 4) (s : State) :
    (State.memReadFx src a be s).pending = s.pending := by
  unfold State.memReadFx
  split <;> simp

@[simp] theorem State.wordReads_pending (a n : Nat) (s : State) : (State.wordReads a n s).pending = s.pending := by
  simp [State.wordReads]

@[simp] theorem State.blockReadFx_pending (a n : Nat) (s : State) : (State.blockReadFx a n s).pending = s.pending := by
  simp [State.blockReadFx]

@[simp] theorem State.memWrite_pending (m : Master) (a : Nat) (be : BitVec 4) (v : Word) (s : State) :
    (State.memWrite m a be v s).pending = s.pending := by
  unfold State.memWrite
  split <;> simp

@[simp] theorem State.pokeWord_pending (src : Byte) (a : Nat) (v : Word) (s : State) :
    (State.pokeWord src a v s).pending = s.pending := by
  simp [State.pokeWord]

@[simp] theorem State.pokeBytes_pending (src : Byte) (a : Nat) (bs : List Byte) (s : State) :
    (State.pokeBytes src a bs s).pending = s.pending := by
  induction bs generalizing a s with
  | nil => rfl
  | cons b bs ih => simp [State.pokeBytes, ih]

/-! ### Machine/Gates.lean -/

@[simp] theorem State.gateTryFx_pending (code : Byte) (g : Fin 32) (s : State) :
    (State.gateTryFx code g s).pending = s.pending := by
  simp [State.gateTryFx]

@[simp] theorem State.gateRelFx_pending (code : Byte) (g : Fin 32) (s : State) :
    (State.gateRelFx code g s).pending = s.pending := by
  simp [State.gateRelFx]

@[simp] theorem State.gateBreak_pending (g : Fin 32) (s : State) : (State.gateBreak g s).pending = s.pending := by
  simp [State.gateBreak]

@[simp] theorem State.gateForceFx_pending (code : Byte) (g : Fin 32) (s : State) :
    (State.gateForceFx code g s).pending = s.pending := by
  simp [State.gateForceFx]

@[simp] theorem State.gateOwnerReset_pending (code : Byte) (s : State) :
    (State.gateOwnerReset code s).pending = s.pending := by
  rw [State.gateOwnerReset, State.raiseIf_pending]
  exact State.each_pending (fun _ _ => State.setGate_pending ..) _ s

@[simp] theorem State.queuePush_pending (code : Byte) (q : Fin 16) (v : Word) (s : State) :
    (State.queuePush code q v s).pending = s.pending := by
  simp [State.queuePush]

@[simp] theorem State.queuePopFx_pending (code : Byte) (q : Fin 16) (s : State) :
    (State.queuePopFx code q s).pending = s.pending := by rfl

@[simp] theorem State.queueClear_pending (q : Fin 16) (v : Word) (s : State) :
    (State.queueClear q v s).pending = s.pending := by
  simp [State.queueClear]

@[simp] theorem State.scrubWord_pending (a : Nat) (s : State) : (State.scrubWord a s).pending = s.pending := by
  unfold State.scrubWord
  (repeat' split) <;> simp

@[simp] theorem State.scrub_pending (s : State) : (State.scrub s).pending = s.pending := by
  unfold State.scrub
  dsimp only
  (repeat' split) <;> simp

/-! ### Machine/FieldBook.lean -/

@[simp] theorem State.fbRetire_pending (i : Nat) (s : State) : (State.fbRetire i s).pending = s.pending := by
  simp [State.fbRetire]

@[simp] theorem State.fbErase_pending (i : Nat) (s : State) : (State.fbErase i s).pending = s.pending := by
  unfold State.fbErase
  split <;> simp

@[simp] theorem State.fbEraseAfter_pending (k i : Nat) (s : State) : (State.fbEraseAfter k i s).pending = s.pending := by
  induction k generalizing i s with
  | zero => rfl
  | succ k ih =>
    unfold State.fbEraseAfter
    dsimp only
    split
    · rfl
    · split
      · rw [ih, State.fbRetire_pending]
      · exact State.fbErase_pending ..

@[simp] theorem State.fbOpen_pending (i gen : Nat) (fseq : Half) (s : State) :
    (State.fbOpen i gen fseq s).pending = s.pending := by
  simp [State.fbOpen]

@[simp] theorem State.fbReady_pending (s : State) : (State.fbReady s).pending = s.pending := by
  simp [State.fbReady]

@[simp] theorem State.fbPut_pending (bs : List Byte) (s : State) : (State.fbPut bs s).pending = s.pending := by
  unfold State.fbPut
  split <;> simp

@[simp] theorem State.fbWrite_pending (r : FbRec) (s : State) : (State.fbWrite r s).pending = s.pending := by
  simp [State.fbWrite]

@[simp] theorem State.fbProgramFail_pending (bs : List Byte) (s : State) :
    (State.fbProgramFail bs s).pending = s.pending := by
  simp [State.fbProgramFail]

@[simp] theorem State.fbTake_pending (s : State) : (State.fbTake s).pending = s.pending := by
  unfold State.fbTake
  (repeat' split) <;> simp

@[simp] theorem State.fbStep_pending (failed : Option (List Byte)) (s : State) :
    (State.fbStep failed s).pending = s.pending := by
  unfold State.fbStep
  dsimp only
  (repeat' split) <;> simp

@[simp] theorem State.fbEraseEnd_pending (i : Nat) (ok : Bool) (s : State) :
    (State.fbEraseEnd i ok s).pending = s.pending := by
  simp [State.fbEraseEnd]

@[simp] theorem State.fbEraseNext_pending (bankB : Bool) (s : State) : (State.fbEraseNext bankB s).pending = s.pending := by
  unfold State.fbEraseNext
  split <;> simp

@[simp] theorem State.fbWipe_pending (v : Word) (s : State) : (State.fbWipe v s).pending = s.pending := by
  simp [State.fbWipe]

@[simp] theorem State.fbBoot_pending (s : State) : (State.fbBoot s).pending = s.pending := by
  simp [State.fbBoot]

@[simp] theorem State.fbStart_pending (s : State) : (State.fbStart s).pending = s.pending := by
  simp [State.fbStart]

@[simp] theorem State.fbNewest_pending (s : State) : (State.fbNewest s).pending = s.pending := by rfl

@[simp] theorem State.fbAdvance_pending (s : State) : (State.fbAdvance s).pending = s.pending := by
  unfold State.fbAdvance
  dsimp only
  (repeat' split) <;> simp

@[simp] theorem State.fbRawPop_pending (s : State) : (State.fbRawPop s).pending = s.pending := by
  unfold State.fbRawPop
  split <;> simp

/-! ### Machine/Records.lean -/

@[simp] theorem State.cairnRequest_pending (p : Fin 8) (clr : Bool) (s : State) :
    (State.cairnRequest p clr s).pending = s.pending := by rfl

@[simp] theorem State.cairnWrite_pending (v : Word) (s : State) : (State.cairnWrite v s).pending = s.pending := by
  simp [State.cairnWrite]

@[simp] theorem State.cairnCopy_pending (p : Fin 8) (s : State) : (State.cairnCopy p s).pending = s.pending := by
  unfold State.cairnCopy
  dsimp only
  (repeat' split) <;> simp

@[simp] theorem State.cairnAuto_pending (tcount : Word) (s : State) : (State.cairnAuto tcount s).pending = s.pending := by
  simp [State.cairnAuto]

@[simp] theorem State.claimFx_pending (h : Hart) (s : State) : (State.claimFx h s).pending = s.pending := by
  unfold State.claimFx
  (repeat' split) <;> simp

@[simp] theorem State.fbFoldEnd_pending (ev : Byte) (s : State) : (State.fbFoldEnd ev s).pending = s.pending := by
  unfold State.fbFoldEnd
  split <;> simp

@[simp] theorem State.fbUser_pending (w0 w1 : Word) (s : State) : (State.fbUser w0 w1 s).pending = s.pending := by
  simp [State.fbUser]

@[simp] theorem State.fbUserGo_pending (v : Word) (s : State) : (State.fbUserGo v s).pending = s.pending := by
  simp [State.fbUserGo]

/-! ### Machine/Line.lean -/

@[simp] theorem State.portTo_pending (p : Fin 4) (st : PortState) (s : State) :
    (State.portTo p st s).pending = s.pending := by
  simp [State.portTo]

@[simp] theorem State.levelHeard_pending (p : Fin 4) (at_ : Dword) (lvl : Byte) (s : State) :
    (State.levelHeard p at_ lvl s).pending = s.pending := by rfl

@[simp] theorem State.erRoll_pending (p : Fin 4) (s : State) : (State.erRoll p s).pending = s.pending := by
  simp [State.erRoll]

@[simp] theorem State.erAdd_pending (p : Fin 4) (k : Nat) (s : State) : (State.erAdd p k s).pending = s.pending := by
  simp [State.erAdd]

@[simp] theorem State.rxFc_pending (f : RxFrame) (s : State) : (State.rxFc f s).pending = s.pending := by
  simp [State.rxFc]

@[simp] theorem State.rxCount_pending (f : RxFrame) (s : State) : (State.rxCount f s).pending = s.pending := by
  unfold State.rxCount
  split <;> simp

@[simp] theorem State.rxSnr_pending (f : RxFrame) (s : State) : (State.rxSnr f s).pending = s.pending := by
  simp [State.rxSnr]

@[simp] theorem State.rxLevel_pending (f : RxFrame) (s : State) : (State.rxLevel f s).pending = s.pending := by
  simp [State.rxLevel]

@[simp] theorem State.rxFx_pending (f : RxFrame) (s : State) : (State.rxFx f s).pending = s.pending := by
  unfold State.rxFx
  split <;> simp

@[simp] theorem State.txCount_pending (p : Fin 4) (t : FType) (body : List Byte) (s : State) :
    (State.txCount p t body s).pending = s.pending := by
  simp [State.txCount]

@[simp] theorem State.txStamp_pending (p : Fin 4) (start : Dword) (s : State) :
    (State.txStamp p start s).pending = s.pending := by rfl

@[simp] theorem State.txStart_pending (p : Fin 4) (start : Dword) (t : FType) (tmi : Nat) (pass bad : Bool) (combs :
    Option (Fin 4 × Fin 4)) (only : Option (List Nat)) (body : List Byte) (s : State) :
    (State.txStart p start t tmi pass bad combs only body s).pending = s.pending := by
  simp [State.txStart]

@[simp] theorem State.txFrameAt_pending (p : Fin 4) (start : Dword) (t : FType) (tmi : Nat) (pass bad : Bool) (only :
    Option (List Nat)) (body : List Byte) (s : State) :
    (State.txFrameAt p start t tmi pass bad only body s).pending = s.pending := by
  simp [State.txFrameAt]

@[simp] theorem State.txFrame_pending (p : Fin 4) (t : FType) (tmi : Nat) (pass bad : Bool) (body : List Byte) (s :
    State) :
    (State.txFrame p t tmi pass bad body s).pending = s.pending := by
  simp [State.txFrame]

@[simp] theorem State.tsShadow_pending (a : Nat) (s : State) : (State.tsShadow a s).pending = s.pending := by
  simp [State.tsShadow]

@[simp] theorem State.abortRx_pending (p : Fin 4) (s : State) : (State.abortRx p s).pending = s.pending := by
  simp [State.abortRx]

@[simp] theorem State.portEnable_pending (p : Fin 4) (en : Bool) (s : State) :
    (State.portEnable p en s).pending = s.pending := by
  simp [State.portEnable]

/-! ### Machine/CwyLog.lean -/

@[simp] theorem State.cwyLogAdd_pending (remote : Bool) (w nid cause notapp : Nat) (addr data : Word) (fseq : Nat) (s
    : State) :
    (State.cwyLogAdd remote w nid cause notapp addr data fseq s).pending = s.pending := by
  simp [State.cwyLogAdd]

@[simp] theorem State.hostLog_pending (cause : Nat) (x : HostAcc) (v : Half) (s : State) :
    (State.hostLog cause x v s).pending = s.pending := by
  simp [State.hostLog]

@[simp] theorem State.heldDrop_pending (w : Fin 16) (s : State) : (State.heldDrop w s).pending = s.pending := by
  unfold State.heldDrop
  split <;> simp

@[simp] theorem State.cwyPost_pending (x : HostAcc) (be : BitVec 4) (v : Word) (s : State) :
    (State.cwyPost x be v s).pending = s.pending := by rfl

@[simp] theorem State.hostAccept_pending (x : HostAcc) (v : Half) (par : BitVec 2) (s : State) :
    (State.hostAccept x v par s).pending = s.pending := by
  unfold State.hostAccept
  (repeat' split) <;> simp

@[simp] theorem State.hostResume_pending (s : State) : (State.hostResume s).pending = s.pending := by
  unfold State.hostResume
  split <;> simp

@[simp] theorem State.cwyUntag_pending (w : Fin 16) (s : State) : (State.cwyUntag w s).pending = s.pending := by rfl

@[simp] theorem State.cwyFlightEnd_pending (w : Fin 16) (cause idx : Nat) (s : State) :
    (State.cwyFlightEnd w cause idx s).pending = s.pending := by
  unfold State.cwyFlightEnd
  (repeat' split) <;> simp

@[simp] theorem State.cwyTxResult_pending (w : Fin 16) (result : Nat) (s : State) :
    (State.cwyTxResult w result s).pending = s.pending := by
  unfold State.cwyTxResult
  split <;> simp

@[simp] theorem State.wctlWrite_pending (w : Fin 16) (v : Word) (s : State) :
    (State.wctlWrite w v s).pending = s.pending := by
  simp [State.wctlWrite]

@[simp] theorem State.cwyCutoff_pending (w : Fin 16) (s : State) : (State.cwyCutoff w s).pending = s.pending := by
  simp [State.cwyCutoff]

@[simp] theorem State.cwyCut_pending (s : State) : (State.cwyCut s).pending = s.pending := by
  simp [State.cwyCut]

@[simp] theorem State.cwyLogPop_pending (s : State) : (State.cwyLogPop s).pending = s.pending := by
  unfold State.cwyLogPop
  split <;> simp

/-! ### Machine/EthBuf.lean -/

@[simp] theorem State.ethRxCount_pending (e : Fin 2) (len : Nat) (group tagged : Bool) (prio : Nat) (s : State) :
    (State.ethRxCount e len group tagged prio s).pending = s.pending := by
  simp [State.ethRxCount]

@[simp] theorem State.pfcCount_pending (e : Fin 2) (s : State) : (State.pfcCount e s).pending = s.pending := by
  simp [State.pfcCount]

@[simp] theorem State.pfcCheck_pending (e : Fin 2) (p : Fin 8) (s : State) :
    (State.pfcCheck e p s).pending = s.pending := by
  simp [State.pfcCheck]

@[simp] theorem State.pfcAll_pending (e : Fin 2) (s : State) : (State.pfcAll e s).pending = s.pending :=
  State.each_pending (fun _ _ => State.pfcCheck_pending ..) _ s

@[simp] theorem State.ethPfcWrite_pending (e : Fin 2) (v : Word) (s : State) :
    (State.ethPfcWrite e v s).pending = s.pending :=
  (State.pfcAll_pending e _).trans rfl

@[simp] theorem State.ethParity_pending (e : Fin 2) (s : State) : (State.ethParity e s).pending = s.pending := by
  simp [State.ethParity]

/-! ### Machine/Road.lean -/

@[simp] theorem State.roadDraw_pending (p : Fin 4) (s : State) : (State.roadDraw p s).pending = s.pending := by
  unfold State.roadDraw
  dsimp only
  (repeat' split) <;> simp

@[simp] theorem State.roadAgain_pending (p : Fin 4) (before : Option QFrame) (s : State) :
    (State.roadAgain p before s).pending = s.pending := by
  unfold State.roadAgain
  split <;> simp

@[simp] theorem State.roadPut_pending (p : Fin 4) (q : QFrame) (s : State) : (State.roadPut p q s).pending = s.pending := by
  simp [State.roadPut]

@[simp] theorem State.roadTake_pending (p : Fin 4) (q : QFrame) (s : State) :
    (State.roadTake p q s).pending = s.pending := by rfl

@[simp] theorem State.txDone_pending (a : Word) (result : Nat) (s : State) :
    (State.txDone a result s).pending = s.pending := by
  simp [State.txDone]

@[simp] theorem State.roadRxCount_pending (h : RHdr) (s : State) : (State.roadRxCount h s).pending = s.pending := by
  simp [State.roadRxCount]

@[simp] theorem State.transitCount_pending (q : QFrame) (result : Nat) (s : State) :
    (State.transitCount q result s).pending = s.pending := by
  simp [State.transitCount]

@[simp] theorem State.frameCount_pending (q : QFrame) (result : Nat) (s : State) :
    (State.frameCount q result s).pending = s.pending := by
  unfold State.frameCount
  (repeat' split) <;> simp

@[simp] theorem State.frameEnd_pending (q : QFrame) (result : Nat) (s : State) :
    (State.frameEnd q result s).pending = s.pending := by
  unfold State.frameEnd
  (repeat' split) <;> simp

@[simp] theorem State.sendPause_pending (p : Fin 4) (prio ptime : Nat) (s : State) :
    (State.sendPause p prio ptime s).pending = s.pending := by
  simp [State.sendPause]

@[simp] theorem State.pauseCheck_pending (p : Fin 4) (prio : Nat) (s : State) :
    (State.pauseCheck p prio s).pending = s.pending := by
  simp [State.pauseCheck]

@[simp] theorem State.frameLeft_pending (q : QFrame) (s : State) : (State.frameLeft q s).pending = s.pending := by
  unfold State.frameLeft
  (repeat' split) <;> simp

@[simp] theorem State.undeliverable_pending (q : QFrame) (s : State) : (State.undeliverable q s).pending = s.pending := by
  simp [State.undeliverable]

@[simp] theorem State.frameLost_pending (q : QFrame) (s : State) : (State.frameLost q s).pending = s.pending := by
  simp [State.frameLost]

@[simp] theorem State.roadSort_pending (p : Fin 4) (k : Nat) (s : State) : (State.roadSort p k s).pending = s.pending := by
  induction k generalizing s with
  | zero => rfl
  | succ k ih =>
    unfold State.roadSort
    (repeat' split) <;> simp [ih]

@[simp] theorem State.roadKick_pending (p : Fin 4) (s : State) : (State.roadKick p s).pending = s.pending := by
  simp [State.roadKick]

@[simp] theorem State.roadRehead_pending (p : Fin 4) (before : Option QFrame) (s : State) :
    (State.roadRehead p before s).pending = s.pending := by
  simp [State.roadRehead]

@[simp] theorem State.roadEnqueue_pending (p : Fin 4) (q : QFrame) (s : State) :
    (State.roadEnqueue p q s).pending = s.pending := by
  simp [State.roadEnqueue]

@[simp] theorem State.sendLocal_pending (p : Fin 4) (bcast : Bool) (dst : BitVec 6) (tag : BitVec 2) (payload : List
    Byte) (s : State) :
    (State.sendLocal p bcast dst tag payload s).pending = s.pending := by
  simp [State.sendLocal]

@[simp] theorem State.sendUnicast_pending (dst : BitVec 6) (q : QFrame) (s : State) :
    (State.sendUnicast dst q s).pending = s.pending := by
  unfold State.sendUnicast
  (repeat' split) <;> simp

@[simp] theorem State.sendBcast_pending (q : QFrame) (s : State) : (State.sendBcast q s).pending = s.pending := by
  unfold State.sendBcast
  split <;> simp

@[simp] theorem State.sendMgmt_pending (dst : BitVec 6) (tag : BitVec 2) (payload : List Byte) (s : State) :
    (State.sendMgmt dst tag payload s).pending = s.pending := by
  simp [State.sendMgmt]

@[simp] theorem State.sendMgmtAll_pending (payload : List Byte) (s : State) :
    (State.sendMgmtAll payload s).pending = s.pending := by
  simp [State.sendMgmtAll]

@[simp] theorem State.attemptEnd_pending (p : Fin 4) (q : QFrame) (result : Nat) (s : State) :
    (State.attemptEnd p q result s).pending = s.pending := by
  simp [State.attemptEnd]

@[simp] theorem State.attemptFail_pending (p : Fin 4) (q : QFrame) (answered : Bool) (s : State) :
    (State.attemptFail p q answered s).pending = s.pending := by
  simp [State.attemptFail]

@[simp] theorem State.parityDrop_pending (p : Fin 4) (q : QFrame) (s : State) :
    (State.parityDrop p q s).pending = s.pending := by
  simp [State.parityDrop]

@[simp] theorem State.roadBegin_pending (p : Fin 4) (q : QFrame) (foreign : Option ForeignP) (s : State) :
    (State.roadBegin p q foreign s).pending = s.pending := by
  simp [State.roadBegin]

@[simp] theorem State.roadStart_pending (p : Fin 4) (slots : List (List (Option Nat))) (foreign : Option ForeignP) (s
    : State) :
    (State.roadStart p slots foreign s).pending = s.pending := by
  unfold State.roadStart
  (repeat' split) <;> simp

@[simp] theorem State.roadSent_pending (p : Fin 4) (s : State) : (State.roadSent p s).pending = s.pending := by
  unfold State.roadSent
  dsimp only
  (repeat' split) <;> simp

@[simp] theorem State.chanWrite_pending (ch flags : Nat) (p : Fin 4) (body : List Byte) (s : State) :
    (State.chanWrite ch flags p body s).pending = s.pending := by
  unfold State.chanWrite
  dsimp only
  (repeat' split) <;> simp

@[simp] theorem State.cellParity_pending (s : State) : (State.cellParity s).pending = s.pending := by
  simp [State.cellParity]

@[simp] theorem State.badFrame_pending (f : RxFrame) (s : State) : (State.badFrame f s).pending = s.pending := by
  simp [State.badFrame]

@[simp] theorem State.dupMark_pending (h : RHdr) (s : State) : (State.dupMark h s).pending = s.pending := by
  unfold State.dupMark
  split <;> simp

@[simp] theorem State.dupAccept_pending (h : RHdr) (s : State) : (State.dupAccept h s).pending = s.pending := by
  unfold State.dupAccept
  split <;> simp

@[simp] theorem State.nbrHeard_pending (p : Fin 4) (src : BitVec 6) (s : State) :
    (State.nbrHeard p src s).pending = s.pending := by
  simp [State.nbrHeard]

@[simp] theorem State.sendAck_pending (f : RxFrame) (h : RHdr) (code : Nat) (s : State) :
    (State.sendAck f h code s).pending = s.pending := by
  simp [State.sendAck]

@[simp] theorem State.cellStore_pending (body : List Byte) (s : State) :
    (State.cellStore body s).1.pending = s.pending := by
  simp [State.cellStore]

@[simp] theorem State.storeForward_pending (f : RxFrame) (h : RHdr) (p : Fin 4) (acct : BitVec 2) (s : State) :
    (State.storeForward f h p acct s).pending = s.pending := by
  simp [State.storeForward]

@[simp] theorem State.transit_pending (f : RxFrame) (h : RHdr) (s : State) : (State.transit f h s).pending = s.pending := by
  unfold State.transit
  (repeat' split) <;> simp

@[simp] theorem State.bcastForward_pending (f : RxFrame) (h : RHdr) (acct : BitVec 2) (s : State) :
    (State.bcastForward f h acct s).pending = s.pending := by
  unfold State.bcastForward
  split <;> simp

@[simp] theorem State.roadBcast_pending (f : RxFrame) (d : Deliver) (h : RHdr) (t : State) (hd : ∀ f h t, (d.act f h
    t).pending = t.pending) :
    (State.roadBcast f d h t).pending = t.pending := by
  unfold State.roadBcast
  split <;> simp [hd]

@[simp] theorem State.roadHere_pending (f : RxFrame) (d : Deliver) (h : RHdr) (t : State) (hd : ∀ f h t, (d.act f h
    t).pending = t.pending) :
    (State.roadHere f d h t).pending = t.pending := by
  simp [State.roadHere, hd]

@[simp] theorem State.roadOn_pending (f : RxFrame) (h : RHdr) (t : State) : (State.roadOn f h t).pending = t.pending := by
  simp [State.roadOn]

@[simp] theorem State.roadUnicast_pending (f : RxFrame) (d : Deliver) (h : RHdr) (t : State) (hd : ∀ f h t, (d.act f h
    t).pending = t.pending) :
    (State.roadUnicast f d h t).pending = t.pending := by
  unfold State.roadUnicast
  split <;> simp [hd]

@[simp] theorem State.roadGood_pending (f : RxFrame) (d : Deliver) (s : State) (hd : ∀ f h t, (d.act f h t).pending =
    t.pending) :
    (State.roadGood f d s).pending = s.pending := by
  simp [State.roadGood, hd]

@[simp] theorem State.roadRx_pending (f : RxFrame) (d : Deliver) (s : State) (hd : ∀ f h t, (d.act f h t).pending =
    t.pending) :
    (State.roadRx f d s).pending = s.pending := by
  unfold State.roadRx
  dsimp only
  (repeat' split) <;> simp [hd]

@[simp] theorem State.pauseAll_pending (s : State) : (State.pauseAll s).pending = s.pending := by
  simp [State.pauseAll]

@[simp] theorem State.roadAbort_pending (s : State) : (State.roadAbort s).pending = s.pending := by
  simp [State.roadAbort]

@[simp] theorem State.roadCtlWrite_pending (v : Word) (s : State) : (State.roadCtlWrite v s).pending = s.pending := by
  simp [State.roadCtlWrite]

@[simp] theorem State.roadPcfgWrite_pending (p : Fin 4) (v : Word) (s : State) :
    (State.roadPcfgWrite p v s).pending = s.pending := by
  simp [State.roadPcfgWrite]

/-! ### Machine/Tone.lean -/

@[simp] theorem State.ringAnnounceAgain_pending (s : State) : (State.ringAnnounceAgain s).pending = s.pending := by
  unfold State.ringAnnounceAgain
  split <;> simp

@[simp] theorem State.ringBuild_pending (s : State) : (State.ringBuild s).pending = s.pending := by
  unfold State.ringBuild
  (repeat' split) <;> simp

@[simp] theorem State.summaryRx_pending (src : BitVec 6) (epoch : Byte) (snr : List Byte) (s : State) :
    (State.summaryRx src epoch snr s).pending = s.pending := by
  simp [State.summaryRx]

@[simp] theorem State.sendSummary_pending (p : Fin 4) (s : State) : (State.sendSummary p s).pending = s.pending := by
  simp [State.sendSummary]

@[simp] theorem State.announceAgain_pending (p : Fin 4) (s : State) : (State.announceAgain p s).pending = s.pending := by
  unfold State.announceAgain
  split <;> simp

@[simp] theorem State.segBuild_pending (p : Fin 4) (s : State) : (State.segBuild p s).pending = s.pending := by
  simp [State.segBuild]

@[simp] theorem State.segAllAcked_pending (p : Fin 4) (s : State) : (State.segAllAcked p s).pending = s.pending := by
  unfold State.segAllAcked
  split <;> simp

@[simp] theorem State.sendReport_pending (p : Fin 4) (s : State) : (State.sendReport p s).pending = s.pending := by
  simp [State.sendReport]

@[simp] theorem onSnrReport_pending (f : RxFrame) (h : RHdr) (b : List Byte) (s : State) :
    (onSnrReport f h b s).pending = s.pending := by
  simp [onSnrReport]

@[simp] theorem onSegmentAnnounce_pending (f : RxFrame) (h : RHdr) (b : List Byte) (s : State) :
    (onSegmentAnnounce f h b s).pending = s.pending := by
  simp [onSegmentAnnounce]

@[simp] theorem onToneAck_pending (f : RxFrame) (h : RHdr) (b : List Byte) (s : State) :
    (onToneAck f h b s).pending = s.pending := by
  unfold onToneAck
  (repeat' split) <;> simp

@[simp] theorem onSegmentActivate_pending (f : RxFrame) (_h : RHdr) (b : List Byte) (s : State) :
    (onSegmentActivate f _h b s).pending = s.pending := by
  simp [onSegmentActivate]

@[simp] theorem State.segActivate_pending (p : Fin 4) (s : State) : (State.segActivate p s).pending = s.pending := by
  unfold State.segActivate
  split <;> simp

@[simp] theorem onSegmentSummary_pending (_f : RxFrame) (h : RHdr) (b : List Byte) (s : State) :
    (onSegmentSummary _f h b s).pending = s.pending := by
  simp [onSegmentSummary]

@[simp] theorem onRingAnnounce_pending (_f : RxFrame) (h : RHdr) (b : List Byte) (s : State) :
    (onRingAnnounce _f h b s).pending = s.pending := by
  simp [onRingAnnounce]

@[simp] theorem State.toneWindow_pending (s : State) : (State.toneWindow s).pending = s.pending := by
  simp [State.toneWindow]

@[simp] theorem State.toneCut_pending (s : State) : (State.toneCut s).pending = s.pending := by rfl

@[simp] theorem State.keepBegin_pending (s : State) : (State.keepBegin s).pending = s.pending := by rfl

/-! ### Machine/Ether.lean -/

@[simp] theorem State.ethLearn_pending (mac : BitVec 48) (src : BitVec 7) (s : State) :
    (State.ethLearn mac src s).pending = s.pending := by
  unfold State.ethLearn
  (repeat' split) <;> simp

@[simp] theorem State.ethFreed_pending (x : EthQ) (s : State) : (State.ethFreed x s).pending = s.pending := by
  simp [State.ethFreed]

@[simp] theorem State.ethNextOf_pending (e : Fin 2) (k : Nat) (s : State) :
    (State.ethNextOf e k s).pending = s.pending := by
  induction k generalizing s with
  | zero => rfl
  | succ k ih =>
    unfold State.ethNextOf
    dsimp only
    (repeat' split) <;> simp [ih]

@[simp] theorem State.ethKick_pending (e : Fin 2) (s : State) : (State.ethKick e s).pending = s.pending := by
  simp [State.ethKick]

@[simp] theorem State.ethCutOff_pending (s : State) : (State.ethCutOff s).pending = s.pending := by rfl

@[simp] theorem State.ethSend_pending (e : Fin 2) (x : EthQ) (s : State) : (State.ethSend e x s).pending = s.pending := by
  simp [State.ethSend]

@[simp] theorem State.ethCollision_pending (e : Fin 2) (k : Nat) (late : Bool) (s : State) :
    (State.ethCollision e k late s).pending = s.pending := by
  simp [State.ethCollision]

@[simp] theorem State.ethCollisions_pending (e : Fin 2) (k : Nat) (l : List Bool) (s : State) :
    (State.ethCollisions e k l s).pending = s.pending := by
  induction l generalizing k s with
  | nil => cases k <;> rfl
  | cons b bs ih => simp [State.ethCollisions, ih]

@[simp] theorem State.ethNext_pending (e : Fin 2) (x : EthQ) (s : State) : (State.ethNext e x s).pending = s.pending := by
  simp [State.ethNext]

@[simp] theorem State.ethSent_pending (e : Fin 2) (collisions : List Bool) (s : State) :
    (State.ethSent e collisions s).pending = s.pending := by
  unfold State.ethSent
  split <;> simp

@[simp] theorem State.tunnelHere_pending (body : List Byte) (s : State) :
    (State.tunnelHere body s).pending = s.pending := by
  simp [State.tunnelHere]

@[simp] theorem State.tunnelSend_pending (e : Fin 2) (dst : Option (BitVec 6)) (x : EthQ) (s : State) :
    (State.tunnelSend e dst x s).pending = s.pending := by
  unfold State.tunnelSend
  (repeat' split) <;> simp

@[simp] theorem State.tunnelRelease_pending (e : Fin 2) (s : State) : (State.tunnelRelease e s).pending = s.pending := by
  refine (State.each_pending (fun x u => ?_) _ _).trans (State.modEth_pending ..)
  rw [State.pfcCheck_pending]
  split
  · exact State.tunnelSend_pending ..
  · rfl

@[simp] theorem State.ethSwitch_pending (src : BitVec 7) (e? : Option (Fin 2)) (prio : Fin 8) (b : List Byte) (s :
    State) :
    (State.ethSwitch src e? prio b s).pending = s.pending := by
  unfold State.ethSwitch
  dsimp only
  (repeat' split) <;> simp

@[simp] theorem State.ethPauseRx_pending (e : Fin 2) (quanta : Half) (s : State) :
    (State.ethPauseRx e quanta s).pending = s.pending := by
  simp [State.ethPauseRx]

@[simp] theorem State.ethPfcRx_pending (e : Fin 2) (classes : Byte) (quanta : List Half) (s : State) :
    (State.ethPfcRx e classes quanta s).pending = s.pending := by
  simp [State.ethPfcRx]

@[simp] theorem State.ethRx_pending (e : Fin 2) (f : EthRx) (s : State) : (State.ethRx e f s).pending = s.pending := by
  simp [State.ethRx]

@[simp] theorem State.ethMacCtl_pending (e : Fin 2) (s : State) : (State.ethMacCtl e s).pending = s.pending := by
  simp [State.ethMacCtl]

@[simp] theorem State.tunnelIn_pending (f : RxFrame) (h : RHdr) (s : State) :
    (State.tunnelIn f h s).pending = s.pending := by
  simp [State.tunnelIn]

@[simp] theorem deliverTunnel_pending (f : RxFrame) (h : RHdr) (s : State) :
    (deliverTunnel.act f h s).pending = s.pending := by
  simp [deliverTunnel]

@[simp] theorem State.addressAged_pending (i : Fin 256) (s : State) : (State.addressAged i s).pending = s.pending := by
  simp [State.addressAged]

@[simp] theorem State.ethCut_pending (s : State) : (State.ethCut s).pending = s.pending := by rfl

@[simp] theorem State.learnqPop_pending (s : State) : (State.learnqPop s).pending = s.pending := by
  unfold State.learnqPop
  split <;> simp

@[simp] theorem State.phyPoll_pending (e : Fin 2) (r0 r1 r4 r5 : Half) (s : State) :
    (State.phyPoll e r0 r1 r4 r5 s).pending = s.pending := by
  unfold State.phyPoll
  split
  · rfl
  · rw [State.raiseIf_pending, State.modEth_pending, State.each_pending (fun _ _ => State.emit_pending ..)]

@[simp] theorem State.mdioWrite_pending (e : Fin 2) (v : Word) (s : State) :
    (State.mdioWrite e v s).pending = s.pending := by
  simp [State.mdioWrite]

@[simp] theorem State.ethAbort_pending (e : Fin 2) (s : State) : (State.ethAbort e s).pending = s.pending := by
  simp [State.ethAbort]

@[simp] theorem State.ethCtlWrite_pending (e : Fin 2) (v : Word) (s : State) :
    (State.ethCtlWrite e v s).pending = s.pending := by
  simp [State.ethCtlWrite]

/-! ### Machine/RoadCmds.lean -/

@[simp] theorem State.roadOpen_pending (s : State) : (State.roadOpen s).pending = s.pending :=
  (State.each_pending (fun _ _ => State.roadRehead_pending ..) _ _).trans rfl

@[simp] theorem State.roadClose_pending (s : State) : (State.roadClose s).pending = s.pending := by rfl

@[simp] theorem State.roadAck_pending (p : Fin 4) (ts : Dword) (a : RHdr) (s : State) :
    (State.roadAck p ts a s).pending = s.pending := by
  unfold State.roadAck
  dsimp only
  (repeat' split) <;> simp

@[simp] theorem State.ackGood_pending (f : RxFrame) (a : RHdr) (s : State) : (State.ackGood f a s).pending = s.pending := by
  simp [State.ackGood]

@[simp] theorem State.ackRx_pending (f : RxFrame) (s : State) : (State.ackRx f s).pending = s.pending := by
  unfold State.ackRx
  split <;> simp

@[simp] theorem State.ackLost_pending (p : Fin 4) (s : State) : (State.ackLost p s).pending = s.pending := by
  unfold State.ackLost
  dsimp only
  (repeat' split) <;> simp

@[simp] theorem State.userIn_pending (f : RxFrame) (h : RHdr) (s : State) : (State.userIn f h s).pending = s.pending := by
  simp [State.userIn]

@[simp] theorem deliverUser_pending (f : RxFrame) (h : RHdr) (s : State) : (deliverUser.act f h s).pending = s.pending := by
  simp [deliverUser]

@[simp] theorem State.pauseChanged_pending (p : Fin 4) (before : Option QFrame) (s : State) :
    (State.pauseChanged p before s).pending = s.pending :=
  (State.each_pending (fun _ _ => State.tunnelRelease_pending ..) _ _).trans (State.roadRehead_pending ..)

@[simp] theorem State.pauseRx_pending (p : Fin 4) (nid : BitVec 6) (mask : Byte) (ptime : Nat) (s : State) :
    (State.pauseRx p nid mask ptime s).pending = s.pending := by
  simp [State.pauseRx]

@[simp] theorem deliverPause_pending (f : RxFrame) (h : RHdr) (s : State) :
    (deliverPause.act f h s).pending = s.pending := by
  simp [deliverPause]

@[simp] theorem State.pauseEnd_pending (p : Fin 4) (nid : BitVec 6) (prio : Fin 8) (s : State) :
    (State.pauseEnd p nid prio s).pending = s.pending :=
  (State.pauseChanged_pending ..).trans (State.modRoad_pending ..)

@[simp] theorem onHello_pending (_f : RxFrame) (_h : RHdr) (_b : List Byte) (s : State) :
    (onHello _f _h _b s).pending = s.pending := by rfl

@[simp] theorem State.nbrAged_pending (p : Fin 4) (nid : BitVec 6) (s : State) :
    (State.nbrAged p nid s).pending = s.pending := by
  simp [State.nbrAged]

@[simp] theorem State.pingReply_pending (s : State) : (State.pingReply s).pending = s.pending := by
  unfold State.pingReply
  split <;> simp

@[simp] theorem State.ping_pending (dst : BitVec 6) (s : State) : (State.ping dst s).pending = s.pending := by
  simp [State.ping]

@[simp] theorem onEcho_pending (_f : RxFrame) (h : RHdr) (b : List Byte) (s : State) :
    (onEcho _f h b s).pending = s.pending := by
  simp [onEcho]

@[simp] theorem onReply_pending (_f : RxFrame) (_h : RHdr) (_b : List Byte) (s : State) :
    (onReply _f _h _b s).pending = s.pending := by
  simp [onReply]

@[simp] theorem State.frameDropped_pending (q : QFrame) (s : State) : (State.frameDropped q s).pending = s.pending := by
  unfold State.frameDropped
  (repeat' split) <;> simp

@[simp] theorem State.preStop_pending (p : Fin 4) (s : State) : (State.preStop p s).pending = s.pending := by rfl

@[simp] theorem State.roadCut_pending (s : State) : (State.roadCut s).pending = s.pending := by
  simp [State.roadCut]

/-! ### Machine/Drive.lean -/

@[simp] theorem State.prefCheck_pending (before : Bool × Bool) (s : State) :
    (State.prefCheck before s).pending = s.pending := by
  simp [State.prefCheck]

@[simp] theorem State.laneTo_pending (st : LaneState) (s : State) : (State.laneTo st s).pending = s.pending := by
  simp [State.laneTo]

@[simp] theorem State.laneOffDrive_pending (s : State) : (State.laneOffDrive s).pending = s.pending := by
  simp [State.laneOffDrive]

@[simp] theorem State.wlvReqRx_pending (nid : BitVec 6) (req flags : Byte) (s : State) :
    (State.wlvReqRx nid req flags s).pending = s.pending := by
  simp [State.wlvReqRx]

@[simp] theorem State.wlvSend_pending (req : Nat) (s : State) : (State.wlvSend req s).pending = s.pending := by
  unfold State.wlvSend
  split <;> simp

@[simp] theorem State.wlvShot_pending (req : Nat) (s : State) : (State.wlvShot req s).pending = s.pending := by
  simp [State.wlvShot]

@[simp] theorem State.wlvAskNow_pending (req : Nat) (s : State) : (State.wlvAskNow req s).pending = s.pending := by
  simp [State.wlvAskNow]

@[simp] theorem State.wlvAsk_pending (s : State) : (State.wlvAsk s).pending = s.pending := by
  simp [State.wlvAsk]

@[simp] theorem State.ownRelease_pending (s : State) : (State.ownRelease s).pending = s.pending := by rfl

@[simp] theorem State.drillEnd_pending (ok : Bool) (s : State) : (State.drillEnd ok s).pending = s.pending := by
  simp [State.drillEnd]

@[simp] theorem State.driveEnd_pending (s : State) : (State.driveEnd s).pending = s.pending := by
  simp [State.driveEnd]

@[simp] theorem State.ilCheck_pending (s : State) : (State.ilCheck s).pending = s.pending := by
  simp [State.ilCheck]

@[simp] theorem State.revCheck_pending (s : State) : (State.revCheck s).pending = s.pending := by
  simp [State.revCheck]

@[simp] theorem State.wlvIdle_pending (s : State) : (State.wlvIdle s).pending = s.pending := by
  simp [State.wlvIdle]

@[simp] theorem State.wlvRun_pending (s : State) : (State.wlvRun s).pending = s.pending := by
  simp [State.wlvRun]

@[simp] theorem State.ownUpdate_pending (s : State) : (State.ownUpdate s).pending = s.pending := by
  simp [State.ownUpdate]

@[simp] theorem State.peerLostCheck_pending (s : State) : (State.peerLostCheck s).pending = s.pending := by
  simp [State.peerLostCheck]

@[simp] theorem State.wlvSync_pending (s : State) : (State.wlvSync s).pending = s.pending := by
  simp [State.wlvSync]

@[simp] theorem State.handoffEnd_pending (s : State) : (State.handoffEnd s).pending = s.pending := by
  simp [State.handoffEnd]

@[simp] theorem State.handoffStart_pending (s : State) : (State.handoffStart s).pending = s.pending := by
  simp [State.handoffStart]

@[simp] theorem State.driveStart_pending (s : State) : (State.driveStart s).pending = s.pending := by
  unfold State.driveStart
  split <;> simp

@[simp] theorem State.shotsAnswered_pending (me changed : Bool) (s : State) :
    (State.shotsAnswered me changed s).pending = s.pending := by
  simp [State.shotsAnswered]

@[simp] theorem State.byteGrant_pending (lease : Nat) (s : State) : (State.byteGrant lease s).pending = s.pending := by
  simp [State.byteGrant]

@[simp] theorem State.byteRevoke_pending (peer : Bool) (s : State) : (State.byteRevoke peer s).pending = s.pending := by
  simp [State.byteRevoke]

@[simp] theorem State.byteApply_pending (x : Byte) (s : State) : (State.byteApply x s).pending = s.pending := by
  simp [State.byteApply]

@[simp] theorem State.byteUngrant_pending (s : State) : (State.byteUngrant s).pending = s.pending := by
  simp [State.byteUngrant]

@[simp] theorem State.byteHeard_pending (tcount : Word) (bytes : List Byte) (s : State) :
    (State.byteHeard tcount bytes s).pending = s.pending := by
  simp [State.byteHeard]

@[simp] theorem State.byteTake_pending (tcount : Word) (bytes : List Byte) (s : State) :
    (State.byteTake tcount bytes s).pending = s.pending := by
  simp [State.byteTake]

@[simp] theorem State.ilRenew_pending (s : State) : (State.ilRenew s).pending = s.pending := by
  simp [State.ilRenew]

@[simp] theorem State.leaseCount_pending (s : State) : (State.leaseCount s).pending = s.pending := by
  simp [State.leaseCount]

@[simp] theorem State.ilCount_pending (s : State) : (State.ilCount s).pending = s.pending := by rfl

@[simp] theorem State.standingSeen_pending (nid : BitVec 6) (seq : Byte) (s : State) :
    (State.standingSeen nid seq s).pending = s.pending := by rfl

@[simp] theorem State.judgeFit_pending (s : State) : (State.judgeFit s).pending = s.pending := by
  rw [State.judgeFit]

@[simp] theorem State.wlvEvaluate_pending (s : State) : (State.wlvEvaluate s).pending = s.pending := by rfl

@[simp] theorem State.wlvSteward_pending (s : State) : (State.wlvSteward s).pending = s.pending := by rfl

@[simp] theorem State.wlvCycle_pending (s : State) : (State.wlvCycle s).pending = s.pending := by
  simp [State.wlvCycle]

@[simp] theorem State.wlvAdopt_pending (s : State) : (State.wlvAdopt s).pending = s.pending := by rfl

@[simp] theorem State.wlvCut_pending (s : State) : (State.wlvCut s).pending = s.pending := by
  simp [State.wlvCut]

@[simp] theorem State.drillCount_pending (s : State) : (State.drillCount s).pending = s.pending := by rfl

@[simp] theorem State.drillFail_pending (s : State) : (State.drillFail s).pending = s.pending := by rfl

@[simp] theorem State.revCount_pending (cycleNs : Nat) (missing : Bool) (s : State) :
    (State.revCount cycleNs missing s).pending = s.pending := by
  simp [State.revCount]

@[simp] theorem State.askCount_pending (s : State) : (State.askCount s).pending = s.pending := by rfl

@[simp] theorem onWayleave_pending (_f : RxFrame) (h : RHdr) (b : List Byte) (s : State) :
    (onWayleave _f h b s).pending = s.pending := by
  simp [onWayleave]

@[simp] theorem State.wlvRepeat_pending (s : State) : (State.wlvRepeat s).pending = s.pending := by
  simp [State.wlvRepeat]

@[simp] theorem State.hbPulse_pending (widthNs : Nat) (s : State) : (State.hbPulse widthNs s).pending = s.pending := by
  simp [State.hbPulse]

@[simp] theorem State.bcommitWrite_pending (v : Word) (s : State) : (State.bcommitWrite v s).pending = s.pending := by
  simp [State.bcommitWrite]

@[simp] theorem State.reqqPop_pending (s : State) : (State.reqqPop s).pending = s.pending := by rfl

@[simp] theorem State.collisionCheck_pending (s : State) : (State.collisionCheck s).pending = s.pending := by
  simp [State.collisionCheck]

@[simp] theorem State.peerOwnSet_pending (level : Bool) (s : State) : (State.peerOwnSet level s).pending = s.pending := by
  simp [State.peerOwnSet]

@[simp] theorem State.interlockStuck_pending (s : State) : (State.interlockStuck s).pending = s.pending := by
  simp [State.interlockStuck]

@[simp] theorem State.drill_pending (s : State) : (State.drill s).pending = s.pending := by
  simp [State.drill]

@[simp] theorem State.drillDue_pending (s : State) : (State.drillDue s).pending = s.pending := by
  unfold State.drillDue
  split <;> simp

@[simp] theorem State.trackClear_pending (s : State) : (State.trackClear s).pending = s.pending := by rfl

@[simp] theorem State.wlvCtlWrite_pending (v : Word) (s : State) : (State.wlvCtlWrite v s).pending = s.pending := by
  simp [State.wlvCtlWrite]

/-! ### Machine/Survey.lean -/

@[simp] theorem State.svySnap_pending (s : State) : (State.svySnap s).pending = s.pending := by rfl

@[simp] theorem State.txSurveyAt_pending (p : Fin 4) (t : Nat) (body : List Byte) (s : State) :
    (State.txSurveyAt p t body s).pending = s.pending := by
  simp [State.txSurveyAt]

@[simp] theorem State.svyStored_pending (r : SvyResult) (s : State) : (State.svyStored r s).pending = s.pending := by
  simp [State.svyStored]

@[simp] theorem State.svyOut_pending (p : Fin 4) (t : Nat) (body : List Byte) (s : State) :
    (State.svyOut p t body s).pending = s.pending := by
  unfold State.svyOut
  split <;> simp

@[simp] theorem State.svyReserve_pending (t need : Nat) (s : State) : (State.svyReserve t need s).pending = s.pending := by
  rfl

@[simp] theorem State.svySend_pending (p : Fin 4) (t : Nat) (body : List Byte) (s : State) :
    (State.svySend p t body s).pending = s.pending := by
  unfold State.svySend
  dsimp only
  (repeat' split) <;> simp

@[simp] theorem State.svyBegin_pending (s : State) : (State.svyBegin s).pending = s.pending := by rfl

@[simp] theorem State.svyClear_pending (s : State) : (State.svyClear s).pending = s.pending := by rfl

@[simp] theorem State.svyDrop_pending (s : State) : (State.svyDrop s).pending = s.pending := by
  simp [State.svyDrop]

@[simp] theorem State.svySettle_pending (cause : Option (BitVec 4)) (s : State) :
    (State.svySettle cause s).pending = s.pending := by
  rw [State.svySettle]
  exact (State.keepBegin_pending _).trans ((State.svySnap_pending _).trans (State.svyClear_pending s))

@[simp] theorem State.svyRequest_pending (cause : BitVec 4) (s : State) :
    (State.svyRequest cause s).pending = s.pending := by
  simp [State.svyRequest]

@[simp] theorem State.svyTrigger_pending (cause : BitVec 4) (s : State) :
    (State.svyTrigger cause s).pending = s.pending := by
  simp [State.svyTrigger]

@[simp] theorem State.svyIdle_pending (s : State) : (State.svyIdle s).pending = s.pending := by
  unfold State.svyIdle
  split <;> simp

@[simp] theorem State.svyPlace_pending (f : RxFrame) (h : SHdr) (s : State) :
    (State.svyPlace f h s).pending = s.pending := by
  simp [State.svyPlace]

@[simp] theorem State.svyJoin_pending (f : RxFrame) (h : SHdr) (s : State) : (State.svyJoin f h s).pending = s.pending := by
  simp [State.svyJoin]

@[simp] theorem State.svyRx_pending (f : RxFrame) (kind : Nat) (act : SHdr → State → State) (s : State) (hact : ∀ h t,
    (act h t).pending = t.pending) :
    (State.svyRx f kind act s).pending = s.pending := by
  simp [State.svyRx, hact]

@[simp] theorem State.svyHoldSend_pending (t : Nat) (s : State) : (State.svyHoldSend t s).pending = s.pending := by
  unfold State.svyHoldSend
  split <;> simp

@[simp] theorem State.svyHold_pending (port : Fin 4) (seek : Bool) (t : Nat) (s : State) :
    (State.svyHold port seek t s).pending = s.pending := by
  simp [State.svyHold]

@[simp] theorem State.svySurveyor_pending (lead : Fin 4) (s : State) : (State.svySurveyor lead s).pending = s.pending := by
  simp [State.svySurveyor]

@[simp] theorem State.svyInitiate_pending (s : State) : (State.svyInitiate s).pending = s.pending := by
  unfold State.svyInitiate
  (repeat' split) <;> simp

@[simp] theorem State.svyExchange_pending (f : RxFrame) (h : SHdr) (seek : Bool) (recs : List (List Byte)) (s : State) :
    (State.svyExchange f h seek recs s).pending = s.pending := by
  simp [State.svyExchange]

@[simp] theorem onSeek_pending (f : RxFrame) (h : SHdr) (s : State) : (onSeek f h s).pending = s.pending := by
  simp [onSeek]

@[simp] theorem onToken_pending (f : RxFrame) (h : SHdr) (s : State) : (onToken f h s).pending = s.pending := by
  simp [onToken]

@[simp] theorem onReport_pending (f : RxFrame) (h : SHdr) (s : State) : (onReport f h s).pending = s.pending := by
  unfold onReport
  (repeat' split) <;> simp

@[simp] theorem State.svyDup_pending (s : State) : (State.svyDup s).pending = s.pending := by
  simp [State.svyDup]

@[simp] theorem onPass_pending (f : RxFrame) (h : SHdr) (s : State) : (onPass f h s).pending = s.pending := by
  unfold onPass
  split <;> simp

@[simp] theorem State.svyPublishTabs_pending (chain : Vector Word 32) (nids : Vector Word 64) (s : State) :
    (State.svyPublishTabs chain nids s).pending = s.pending := by
  simp [State.svyPublishTabs]

@[simp] theorem State.svyPublishHw_pending (s : State) : (State.svyPublishHw s).pending = s.pending := by
  simp [State.svyPublishHw]

@[simp] theorem State.svyDecide_pending (recs : List (List Byte)) (s : State) :
    (State.svyDecide recs s).pending = s.pending := by
  simp [State.svyDecide]

@[simp] theorem State.svyPublish_pending (s : State) : (State.svyPublish s).pending = s.pending := by
  unfold State.svyPublish
  dsimp only
  (repeat' split) <;> simp

@[simp] theorem State.svyNoCarrier_pending (x : SvyHold) (s : State) : (State.svyNoCarrier x s).pending = s.pending := by
  unfold State.svyNoCarrier
  dsimp only
  (repeat' split) <;> simp

@[simp] theorem State.svySlotEnd_pending (carrierA carrierB : Bool) (s : State) :
    (State.svySlotEnd carrierA carrierB s).pending = s.pending := by
  unfold State.svySlotEnd
  split <;> simp

@[simp] theorem State.svyBypass_pending (s : State) : (State.svyBypass s).pending = s.pending := by
  unfold State.svyBypass
  split <;> simp

@[simp] theorem State.svyPassedBy_pending (f : RxFrame) (h : SHdr) (i : Nat) (orient : Bool) (recs : List (List Byte))
    (s : State) :
    (State.svyPassedBy f h i orient recs s).pending = s.pending := by
  simp [State.svyPassedBy]

@[simp] theorem onTally_pending (f : RxFrame) (h : SHdr) (s : State) : (onTally f h s).pending = s.pending := by
  unfold onTally
  dsimp only
  (repeat' split) <;> simp

@[simp] theorem State.svyConfirmSend_pending (w : SvyWalk) (bits : Dword) (s : State) :
    (State.svyConfirmSend w bits s).pending = s.pending := by
  simp [State.svyConfirmSend]

@[simp] theorem State.svyLone_pending (f : RxFrame) (h : SHdr) (s : State) : (State.svyLone f h s).pending = s.pending := by
  simp [State.svyLone]

@[simp] theorem onResult_pending (f : RxFrame) (h : SHdr) (s0 : State) : (onResult f h s0).pending = s0.pending := by
  unfold onResult
  dsimp only
  (repeat' split) <;> simp

@[simp] theorem onConfirm_pending (f : RxFrame) (h : SHdr) (s : State) : (onConfirm f h s).pending = s.pending := by
  unfold onConfirm
  (repeat' split) <;> simp

@[simp] theorem State.svyRetry_pending (s : State) : (State.svyRetry s).pending = s.pending := by
  simp [State.svyRetry]

@[simp] theorem State.svyAbortSend_pending (s : State) : (State.svyAbortSend s).pending = s.pending := by
  simp [State.svyAbortSend]

@[simp] theorem onAbort_pending (f : RxFrame) (h : SHdr) (s : State) : (onAbort f h s).pending = s.pending := by
  unfold onAbort
  split <;> simp

@[simp] theorem State.surveyLate_pending (s : State) : (State.surveyLate s).pending = s.pending := by
  unfold State.surveyLate
  (repeat' split) <;> simp

@[simp] theorem State.svyDeferredOne_pending (d : Fin 4 × List Byte) (s : State) :
    (State.svyDeferredOne d s).pending = s.pending := by
  simp [State.svyDeferredOne]

@[simp] theorem State.svyDeferred_pending (s : State) : (State.svyDeferred s).pending = s.pending := by
  simp [State.svyDeferred]

@[simp] theorem onBeacon_pending (f : RxFrame) (h : SHdr) (s : State) : (onBeacon f h s).pending = s.pending := by
  simp [onBeacon]

@[simp] theorem onRequest_pending (f : RxFrame) (h : SHdr) (s : State) : (onRequest f h s).pending = s.pending := by
  unfold onRequest
  (repeat' split) <;> simp

@[simp] theorem State.svyAbortCtl_pending (s : State) : (State.svyAbortCtl s).pending = s.pending := by
  simp [State.svyAbortCtl]

@[simp] theorem State.svyCtlWrite_pending (v : Word) (s : State) : (State.svyCtlWrite v s).pending = s.pending := by
  simp [State.svyCtlWrite]

@[simp] theorem State.svyTake_pending (r : SvyResult) (s : State) : (State.svyTake r s).pending = s.pending := by
  simp [State.svyTake]

@[simp] theorem State.joinSend_pending (s : State) : (State.joinSend s).pending = s.pending :=
  (State.each_pending (fun _ _ => State.sendLocal_pending ..) _ _).trans rfl

@[simp] theorem onJoin_pending (f : RxFrame) (_h : RHdr) (_b : List Byte) (s : State) :
    (onJoin f _h _b s).pending = s.pending := by
  simp [onJoin]

/-! ### Machine/Table.lean -/

@[simp] theorem State.sendParity_pending (s : State) : (State.sendParity s).pending = s.pending := by
  simp [State.sendParity]

@[simp] theorem State.readSlot_pending (epoch : Byte) (tcount : Word) (body : List Byte) (ofs i : Nat) (e : Word) (s :
    State) :
    (State.readSlot epoch tcount body ofs i e s).pending = s.pending := by
  simp [State.readSlot]

@[simp] theorem State.readPass_pending (tmi : Nat) (epoch : Byte) (tcount : Word) (body : List Byte) (s : State) :
    (State.readPass tmi epoch tcount body s).pending = s.pending := by
  simp [State.readPass]

@[simp] theorem State.latestTake_pending (s : State) : (State.latestTake s).pending = s.pending := by
  simp [State.latestTake]

@[simp] theorem State.freeze_pending (s : State) : (State.freeze s).pending = s.pending := by
  rw [State.freeze]
  generalize s.bytesAt 0x4004A000 4096 = bs
  dsimp only
  rw [State.bufWrite_pending, State.wordReads_pending]

@[simp] theorem State.claimRx_pending (nid : BitVec 6) (len8 user : Nat) (s : State) :
    (State.claimRx nid len8 user s).pending = s.pending := by
  unfold State.claimRx
  dsimp only
  (repeat' split) <;> simp

@[simp] theorem State.claimSend_pending (s : State) : (State.claimSend s).pending = s.pending := by
  unfold State.claimSend
  split <;> simp

@[simp] theorem State.claimStart_pending (s : State) : (State.claimStart s).pending = s.pending := by
  simp [State.claimStart]

@[simp] theorem State.entriesStart_pending (s : State) : (State.entriesStart s).pending = s.pending := by
  simp [State.entriesStart]

@[simp] theorem State.claimFollow_pending (had : Bool) (s : State) : (State.claimFollow had s).pending = s.pending := by
  simp [State.claimFollow]

@[simp] theorem State.editApply_pending (i seq : Byte) (e : Word) (s : State) :
    (State.editApply i seq e s).pending = s.pending := by
  simp [State.editApply]

@[simp] theorem State.tableAsk_pending (s : State) : (State.tableAsk s).pending = s.pending := by
  simp [State.tableAsk]

@[simp] theorem State.tabCheck_pending (seq : Byte) (crc : Option Half) (s : State) :
    (State.tabCheck seq crc s).pending = s.pending := by
  simp [State.tabCheck]

@[simp] theorem State.tablePrune_pending (s : State) : (State.tablePrune s).pending = s.pending := by rfl

@[simp] theorem State.designLoad_pending (s : State) : (State.designLoad s).pending = s.pending := by
  unfold State.designLoad
  split <;> simp

@[simp] theorem State.tableBroadcast_pending (s : State) : (State.tableBroadcast s).pending = s.pending := by
  simp [State.tableBroadcast]

@[simp] theorem onTableRequest_pending (_f : RxFrame) (_h : RHdr) (_b : List Byte) (s : State) :
    (onTableRequest _f _h _b s).pending = s.pending := by
  simp [onTableRequest]

@[simp] theorem onTable_pending (_f : RxFrame) (_h : RHdr) (b : List Byte) (s : State) :
    (onTable _f _h b s).pending = s.pending := by
  simp [onTable]

@[simp] theorem onClaim_pending (_f : RxFrame) (_h : RHdr) (b : List Byte) (s : State) :
    (onClaim _f _h b s).pending = s.pending := by
  simp [onClaim]

@[simp] theorem State.editWrite_pending (v : Word) (s : State) : (State.editWrite v s).pending = s.pending := by
  simp [State.editWrite]

@[simp] theorem State.claimPop_pending (s : State) : (State.claimPop s).pending = s.pending := by rfl

/-! ### Machine/Traverse.lean -/

@[simp] theorem State.tick_pending (s : State) : (State.tick s).pending = s.pending := by
  simp [State.tick]

@[simp] theorem State.mute_pending (s : State) : (State.mute s).pending = s.pending := by
  simp [State.mute]

@[simp] theorem State.unmute_pending (s : State) : (State.unmute s).pending = s.pending := by
  simp [State.unmute]

@[simp] theorem State.syncStep_pending (off : Int) (s : State) : (State.syncStep off s).pending = s.pending := by
  unfold State.syncStep
  split <;> simp

@[simp] theorem State.timeTransfer_pending (off : Int) (s : State) : (State.timeTransfer off s).pending = s.pending := by
  simp [State.timeTransfer]

@[simp] theorem State.latSet_pending (check : Bool) (latofs : Nat) (s : State) :
    (State.latSet check latofs s).pending = s.pending := by
  simp [State.latSet]

@[simp] theorem State.latTake_pending (check : Bool) (s : State) : (State.latTake check s).pending = s.pending := by
  simp [State.latTake]

@[simp] theorem State.tabFollow_pending (h : THdr) (mil : Option (List Byte)) (s : State) :
    (State.tabFollow h mil s).pending = s.pending := by
  unfold State.tabFollow
  dsimp only
  (repeat' split) <;> simp

@[simp] theorem State.ringFollow_pending (tmi : Nat) (s : State) : (State.ringFollow tmi s).pending = s.pending := by
  simp [State.ringFollow]

@[simp] theorem State.ringValues_pending (h : THdr) (m : List Byte) (s : State) :
    (State.ringValues h m s).pending = s.pending := by
  simp [State.ringValues]

@[simp] theorem State.milestone_pending (h : THdr) (m : List Byte) (tmi tsrx hop : Nat) (s : State) :
    (State.milestone h m tmi tsrx hop s).pending = s.pending := by
  simp [State.milestone]

@[simp] theorem State.sendOwn_pending (p : Fin 4) (start : Dword) (tmi len : Nat) (pass : Bool) (tcount : Word) (s :
    State) :
    (State.sendOwn p start tmi len pass tcount s).pending = s.pending := by
  simp [State.sendOwn]

@[simp] theorem State.sendPass_pending (p : Fin 4) (start : Dword) (tmi : Nat) (pass bad writes : Bool) (body : List
    Byte) (s : State) :
    (State.sendPass p start tmi pass bad writes body s).pending = s.pending := by
  simp [State.sendPass]

@[simp] theorem State.returned_pending (ok : Bool) (tsrx : Nat) (s : State) :
    (State.returned ok tsrx s).pending = s.pending := by
  simp [State.returned]

@[simp] theorem State.effSet_pending (s : State) : (State.effSet s).pending = s.pending := by
  simp [State.effSet]

@[simp] theorem State.editsStep_pending (s : State) : (State.editsStep s).pending = s.pending := by
  unfold State.editsStep
  dsimp only
  (repeat' split) <;> simp

@[simp] theorem State.traverseSend_pending (beside : Option (List Byte)) (s : State) :
    (State.traverseSend beside s).pending = s.pending := by
  simp [State.traverseSend]

@[simp] theorem State.benchT0_pending (beside : Option (List Byte)) (s : State) :
    (State.benchT0 beside s).pending = s.pending := by
  simp [State.benchT0]

@[simp] theorem State.splitHand_pending (old : BitVec 10) (s : State) : (State.splitHand old s).pending = s.pending := by
  simp [State.splitHand]

@[simp] theorem State.splitTake_pending (s : State) : (State.splitTake s).pending = s.pending := by
  simp [State.splitTake]

@[simp] theorem State.tableAdopt_pending (s : State) : (State.tableAdopt s).pending = s.pending := by
  unfold State.tableAdopt
  split <;> simp

@[simp] theorem State.commitTake_keeps_pending (s : State) : s.commitTake.pending = s.pending := by
  unfold State.commitTake
  split
  · rfl
  · generalize s.bytesAt 0x40048000 2048 = bs
    dsimp only
    rw [State.raise_pending]
    dsimp only
    rw [State.bufWrite_pending, State.wordReads_pending]

@[simp] theorem State.predict_pending (s : State) : (State.predict s).pending = s.pending := by
  simp [State.predict]

@[simp] theorem State.rolesTake_pending (s : State) : (State.rolesTake s).pending = s.pending := by
  unfold State.rolesTake
  dsimp only
  (repeat' split) <;> simp

@[simp] theorem State.localT0_pending (s : State) : (State.localT0 s).pending = s.pending := by
  rw [State.localT0, State.dmaFire_pending]
  dsimp only
  rw [State.wlvSync_pending, State.cairnAuto_pending, State.splitTake_pending, State.commitTake_keeps_pending,
    State.tableAdopt_pending, State.predict_pending, State.rolesTake_pending, State.roadClose_pending]

@[simp] theorem State.standCheck_pending (p : Fin 4) (h : THdr) (s : State) :
    (State.standCheck p h s).pending = s.pending := by
  simp [State.standCheck]

@[simp] theorem State.trvPass_pending (f : RxFrame) (beside : Option (List Byte)) (path : TrvPath) (hdrOk bad : Bool)
    (tcount : Word) (s : State) :
    (State.trvPass f beside path hdrOk bad tcount s).pending = s.pending := by
  unfold State.trvPass
  split <;> simp

@[simp] theorem State.trvFree_pending (f : RxFrame) (h : THdr) (m : List Byte) (good : Bool) (s : State) :
    (State.trvFree f h m good s).pending = s.pending := by
  simp [State.trvFree]

@[simp] theorem State.trvOwn_pending (f : RxFrame) (beside : Option (List Byte)) (h : THdr) (m : List Byte) (hdrOk
    milOk bad : Bool) (s : State) :
    (State.trvOwn f beside h m hdrOk milOk bad s).pending = s.pending := by
  simp [State.trvOwn]

@[simp] theorem State.trvRx_pending (f : RxFrame) (beside : Option (List Byte)) (s : State) :
    (State.trvRx f beside s).pending = s.pending := by
  simp [State.trvRx]

@[simp] theorem State.closure_pending (s : State) : (State.closure s).pending = s.pending := by
  unfold State.closure
  split <;> simp

@[simp] theorem State.coveredCheck_pending (s : State) : (State.coveredCheck s).pending = s.pending := by
  simp [State.coveredCheck]

@[simp] theorem State.watchPass_pending (s : State) : (State.watchPass s).pending = s.pending := by
  unfold State.watchPass
  split <;> simp

@[simp] theorem State.giveBack_pending (s : State) : (State.giveBack s).pending = s.pending := by
  simp [State.giveBack]

@[simp] theorem State.muteMark_pending (s : State) : (State.muteMark s).pending = s.pending := by rfl

@[simp] theorem State.passComplete_pending (s : State) : (State.passComplete s).pending = s.pending := by
  simp [State.passComplete]

@[simp] theorem State.takeover_pending (beside : Option (List Byte)) (s : State) :
    (State.takeover beside s).pending = s.pending := by
  simp [State.takeover]

@[simp] theorem onResume_pending (_f : RxFrame) (h : RHdr) (_b : List Byte) (s : State) :
    (onResume _f h _b s).pending = s.pending := by
  simp [onResume]

@[simp] theorem State.resumeSend_pending (s : State) : (State.resumeSend s).pending = s.pending := by
  simp [State.resumeSend]

@[simp] theorem State.windowOpen_pending (s : State) : (State.windowOpen s).pending = s.pending := by
  simp [State.windowOpen]

@[simp] theorem onHere_pending (f : RxFrame) (_h : RHdr) (b : List Byte) (s : State) :
    (onHere f _h b s).pending = s.pending := by
  simp [onHere]

@[simp] theorem State.watchEnd_pending (s : State) : (State.watchEnd s).pending = s.pending := by
  unfold State.watchEnd
  split <;> simp

@[simp] theorem State.treCut_pending (r : SvyResult) (hop : Nat) (s : State) :
    (State.treCut r hop s).pending = s.pending := by
  simp [State.treCut]

@[simp] theorem State.surveyCut_pending (elsewhere : Bool) (beside : Option (List Byte)) (s : State) :
    (State.surveyCut elsewhere beside s).pending = s.pending := by
  unfold State.surveyCut
  split <;> simp

/-! ### Machine/Operands.lean -/

@[simp] theorem State.seqReadFx_pending (a : Nat) (s : State) : (State.seqReadFx a s).pending = s.pending := by
  simp [State.seqReadFx]

@[simp] theorem State.refFx_pending (r : Half) (s : State) : (State.refFx r s).pending = s.pending := by
  unfold State.refFx
  split <;> simp

@[simp] theorem State.seqWrite_pending (a : Nat) (v : Word) (s : State) : (State.seqWrite a v s).pending = s.pending := by
  unfold State.seqWrite
  split <;> simp

@[simp] theorem State.refWrite_pending (r : Half) (v : Word) (s : State) : (State.refWrite r v s).pending = s.pending := by
  unfold State.refWrite
  (repeat' split) <;> simp

/-! ### Machine/Control.lean -/

@[simp] theorem State.progTo_pending (p : ProgState) (s : State) : (State.progTo p s).pending = s.pending := by
  simp [State.progTo]

@[simp] theorem State.cycleDrop_pending (s : State) : (State.cycleDrop s).pending = s.pending := by rfl

@[simp] theorem State.faultStop_pending (code : Half) (arg : Word) (s : State) :
    (State.faultStop code arg s).pending = s.pending := by
  simp [State.faultStop]

@[simp] theorem State.seqFault_pending (code : Half) (arg : Word) (s : State) :
    (State.seqFault code arg s).pending = s.pending := by
  simp [State.seqFault]

@[simp] theorem State.stopAsk_pending (s : State) : (State.stopAsk s).pending = s.pending := by
  simp [State.stopAsk]

@[simp] theorem State.cause_pending (bit_ : Nat) (s : State) : (State.cause bit_ s).pending = s.pending := by
  simp [State.cause]

/-! ### Machine/Dma.lean -/

@[simp] theorem State.dmaSettle_pending (n : Fin 32) (s : State) : (State.dmaSettle n s).pending = s.pending := by
  simp [State.dmaSettle]

@[simp] theorem State.dmaFail_pending (n : Fin 32) (code : BitVec 3) (a : Word) (s : State) :
    (State.dmaFail n code a s).pending = s.pending := by
  simp [State.dmaFail]

@[simp] theorem State.dmaFetch_pending (n : Fin 32) (a : Word) (s : State) :
    (State.dmaFetch n a s).pending = s.pending := by
  simp [State.dmaFetch]

@[simp] theorem State.dmaGo_pending (n : Fin 32) (s : State) : (State.dmaGo n s).pending = s.pending := by
  simp [State.dmaGo]

@[simp] theorem State.dmaUnland_pending (w : DmaWr) (s : State) : (State.dmaUnland w s).pending = s.pending := by
  unfold State.dmaUnland
  split <;> simp

@[simp] theorem State.dmaDrop_pending (n : Fin 32) (s : State) : (State.dmaDrop n s).pending = s.pending := by
  simp [State.dmaDrop]

@[simp] theorem State.dmaDropAll_pending (s : State) : (State.dmaDropAll s).pending = s.pending :=
  State.each_pending (fun _ _ => State.dmaDrop_pending ..) _ s

@[simp] theorem State.dmaCtlWrite_pending (n : Fin 32) (v : Word) (s : State) :
    (State.dmaCtlWrite n v s).pending = s.pending := by
  simp [State.dmaCtlWrite]

@[simp] theorem State.dmaEnWrite_pending (v : Word) (s : State) : (State.dmaEnWrite v s).pending = s.pending := by
  simp [State.dmaEnWrite]

@[simp] theorem State.dmaDisable_pending (n : Option (Fin 32)) (s : State) :
    (State.dmaDisable n s).pending = s.pending := by
  unfold State.dmaDisable
  split <;> simp

@[simp] theorem State.dmaStopDone_pending (n : Fin 32) (s : State) : (State.dmaStopDone n s).pending = s.pending := by
  simp [State.dmaStopDone]

@[simp] theorem State.dmaFetched_pending (n : Fin 32) (s : State) : (State.dmaFetched n s).pending = s.pending := by
  simp [State.dmaFetched]

@[simp] theorem State.dmaGateTry_pending (n : Fin 32) (s : State) : (State.dmaGateTry n s).pending = s.pending := by
  simp [State.dmaGateTry]

@[simp] theorem State.dmaComplete_pending (n : Fin 32) (s : State) : (State.dmaComplete n s).pending = s.pending := by
  simp [State.dmaComplete]

@[simp] theorem State.dmaResponse_pending (n : Fin 32) (s : State) : (State.dmaResponse n s).pending = s.pending := by
  unfold State.dmaResponse
  dsimp only
  (repeat' split) <;> simp

/-! ### Machine/Beats.lean -/

@[simp] theorem State.dmaPairBeat_pending (b : Bus) (hb : b.Aside) (n : Fin 32) (dest : Bool) (s : State) :
    (State.dmaPairBeat b n dest s).pending = s.pending := by
  unfold State.dmaPairBeat
  dsimp only
  (repeat' split) <;> simp [hb]

@[simp] theorem State.dmaReadBeat_pending (b : Bus) (hb : b.Aside) (n : Fin 32) (s : State) :
    (State.dmaReadBeat b n s).pending = s.pending := by
  unfold State.dmaReadBeat
  dsimp only
  (repeat' split) <;> simp [hb]

@[simp] theorem State.dmaWriteBeat_pending (b : Bus) (hb : b.Aside) (n : Fin 32) (s : State) :
    (State.dmaWriteBeat b n s).pending = s.pending := by
  simp [State.dmaWriteBeat, hb]

@[simp] theorem State.dmaChBeat_pending (b : Bus) (hb : b.Aside) (n : Fin 32) (s : State) :
    (State.dmaChBeat b n s).pending = s.pending := by
  obtain ⟨hread, _⟩ := id hb
  unfold State.dmaChBeat
  dsimp only
  split
  · split
    · rw [State.dmaFail_pending, hread]
    · rw [State.setDch_pending, hread]
  · split
    · split
      · rw [State.dmaPairBeat_pending b hb, State.setDch_pending]
      · rw [State.dmaReadBeat_pending b hb, State.setDch_pending]
    · split
      · rw [State.dmaPairBeat_pending b hb, State.setDch_pending]
      · rw [State.dmaWriteBeat_pending b hb, State.setDch_pending]
  · rfl

@[simp] theorem State.dmaMakes_pending (b : Bus) (hb : b.Aside) (n : Fin 32) (s : State) :
    (State.dmaMakes b n s).pending = s.pending :=
  State.dmaChBeat_pending b hb n s

theorem memBus_aside : memBus.Aside :=
  ⟨fun m a be s => by simp [memBus], fun m a be v s => by simp [memBus]⟩

@[simp] theorem State.dmaGapGrant_pending (n : Fin 32) (s : State) : (State.dmaGapGrant n s).pending = s.pending := by
  simp [State.dmaGapGrant]

@[simp] theorem State.dmaGapBeat_pending (n : Fin 32) (s : State) : (State.dmaGapBeat n s).pending = s.pending := by
  unfold State.dmaGapBeat
  split
  · exact (State.dmaMakes_pending memBus memBus_aside n _).trans (State.dmaGapGrant_pending n s)
  · rfl

@[simp] theorem State.dmaGap_pending (s : State) : (State.dmaGap s).pending = s.pending := by
  simp [State.dmaGap]

/-! ### Machine/Itinerary.lean -/

@[simp] theorem State.entryFault_pending (e : Entry) (s : State) : (State.entryFault e s).pending = s.pending := by
  simp [State.entryFault]

@[simp] theorem State.entryPass_pending (e : Entry) (s : State) : (State.entryPass e s).pending = s.pending := by rfl

@[simp] theorem State.seqReads_pending (l : List Nat) (s : State) : (State.seqReads l s).pending = s.pending := by
  induction l generalizing s with
  | nil => rfl
  | cons b bs ih =>
    unfold State.seqReads
    dsimp only
    split <;> simp [ih]

@[simp] theorem State.satMark_pending (e : Entry) (s : State) : (State.satMark e s).pending = s.pending := by
  simp [State.satMark]

@[simp] theorem State.entryBegin_pending (b : Blk) (e : Entry) (s : State) :
    (State.entryBegin b e s).pending = s.pending := by
  simp [State.entryBegin]

@[simp] theorem State.entryEnd_pending (b : Blk) (e : Entry) (words : List Nat) (tc : Word) (o : BlkOut) (s : State) :
    (State.entryEnd b e words tc o s).pending = s.pending := by
  unfold State.entryEnd
  (repeat' split) <;> simp

@[simp] theorem State.entryExec_pending (b : Blk) (e : Entry) (s : State) :
    (State.entryExec b e s).pending = s.pending := by
  simp [State.entryExec]

@[simp] theorem State.entryStep_pending (b : Blk) (e : Entry) (s : State) :
    (State.entryStep b e s).pending = s.pending := by
  unfold State.entryStep
  (repeat' split) <;> simp

@[simp] theorem State.seqLoop_pending (sv : Served → State → State) (hv : ServesAside sv) (k i hi : Nat) (l : List
    Served) (s : State) :
    (State.seqLoop sv k i hi l s).pending = s.pending := by
  induction k generalizing i l s with
  | zero => exact State.each_pending hv l s
  | succ k ih =>
    unfold State.seqLoop
    dsimp only
    (repeat' split) <;> simp [ih, State.each_pending hv]

@[simp] theorem State.errorsFrom_pending (sv : Served → State → State) (hv : ServesAside sv) (i : Nat) (l : List
    Served) (s : State) :
    (State.errorsFrom sv i l s).pending = s.pending :=
  State.seqLoop_pending sv hv ..

@[simp] theorem State.runErrors_pending (sv : Served → State → State) (hv : ServesAside sv) (l : List Served) (s :
    State) :
    (State.runErrors sv l s).pending = s.pending := by
  unfold State.runErrors
  split
  · exact State.errorsFrom_pending sv hv ..
  · rfl

@[simp] theorem State.mainEnd_pending (s : State) : (State.mainEnd s).pending = s.pending := by
  simp [State.mainEnd]

@[simp] theorem State.mainFrom_pending (sv : Served → State → State) (hv : ServesAside sv) (i : Nat) (l : List Served)
    (s : State) :
    (State.mainFrom sv i l s).pending = s.pending :=
  (State.mainEnd_pending _).trans (State.seqLoop_pending sv hv ..)

@[simp] theorem State.runMain_pending (sv : Served → State → State) (hv : ServesAside sv) (l : List Served) (s :
    State) :
    (State.runMain sv l s).pending = s.pending := by
  unfold State.runMain
  dsimp only
  split
  · rfl
  · exact (State.mainFrom_pending sv hv ..).trans (by simp)

@[simp] theorem State.passStart_pending (s : State) : (State.passStart s).pending = s.pending := by rfl

@[simp] theorem State.blkStep_pending (b : Blk) (e : Entry) (s : State) : (State.blkStep b e s).pending = s.pending := by
  simp [State.blkStep]

/-! ### Machine/Program.lean -/

@[simp] theorem State.coreReset_pending (s : State) : (State.coreReset s).pending = s.pending := by
  simp [State.coreReset]

@[simp] theorem State.runAsk_pending (src : RunSource) (s : State) : (State.runAsk src s).pending = s.pending := by
  unfold State.runAsk
  (repeat' split) <;> simp

@[simp] theorem State.ctxPut_pending (ofs : Nat) (v : Word) (s : State) : (State.ctxPut ofs v s).pending = s.pending := by
  simp [State.ctxPut]

@[simp] theorem State.ctxFill_pending (s : State) : (State.ctxFill s).pending = s.pending := by
  simp [State.ctxFill]

@[simp] theorem State.pokeRun_pending (src : Byte) (a : Nat) (bs : List Byte) (s : State) :
    (State.pokeRun src a bs s).pending = s.pending := by
  fun_induction State.pokeRun <;> simp_all

@[simp] theorem State.zeroRange_pending (a n : Nat) (s : State) : (State.zeroRange a n s).pending = s.pending := by rfl

@[simp] theorem State.keepRange_pending (a n : Nat) (old : State) (s : State) :
    (State.keepRange a n old s).pending = s.pending := by
  simp [State.keepRange]

@[simp] theorem State.loadSect_pending (base : Nat) (t : Sect) (s : State) :
    (State.loadSect base t s).pending = s.pending := by
  simp [State.loadSect]

@[simp] theorem State.saveRestored_pending (slot : Bool) (retsize : Nat) (s : State) :
    (State.saveRestored slot retsize s).pending = s.pending :=
  State.flashAndBytes_pending ..

@[simp] theorem State.retFill_pending (d : Desc) (old : State) (s : State) :
    (State.retFill d old s).pending = s.pending := by
  unfold State.retFill
  dsimp only
  (repeat' split) <;> simp

@[simp] theorem State.pmpLoad_pending (d : Desc) (s : State) : (State.pmpLoad d s).pending = s.pending := by rfl

@[simp] theorem State.loadItn_pending (d : Desc) (base : Nat) (s : State) :
    (State.loadItn d base s).pending = s.pending := by
  simp [State.loadItn]

@[simp] theorem State.callEntry_pending (pc a0 a1 : Word) (s : State) :
    (State.callEntry pc a0 a1 s).pending = s.pending := by rfl

@[simp] theorem State.trapFree_pending (cause tval : Word) (s : State) :
    (State.trapFree cause tval s).pending = s.pending := by rfl

@[simp] theorem State.callBack_pending (s : State) : (State.callBack s).pending = s.pending := by
  simp [State.callBack]

@[simp] theorem State.loadDone_pending (s : State) : (State.loadDone s).pending = s.pending := by
  unfold State.loadDone
  dsimp only
  (repeat' split) <;> simp

@[simp] theorem State.runEnter_pending (s : State) : (State.runEnter s).pending = s.pending := by
  simp [State.runEnter]

@[simp] theorem State.initDone_pending (a0 : Word) (s : State) : (State.initDone a0 s).pending = s.pending := by
  simp [State.initDone]

@[simp] theorem State.passHook_pending (s : State) : (State.passHook s).pending = s.pending := by
  simp [State.passHook]

@[simp] theorem State.passBody_pending (sv : Served → State → State) (hv : ServesAside sv) (l : List Served) (s :
    State) :
    (State.passBody sv l s).pending = s.pending := by
  unfold State.passBody
  split
  · rfl
  · split
    · exact (State.passHook_pending _).trans (State.runMain_pending sv hv l s)
    · exact State.passHook_pending s

@[simp] theorem State.passGo_pending (sv : Served → State → State) (hv : ServesAside sv) (s : State) :
    (State.passGo sv s).pending = s.pending := by
  unfold State.passGo
  split
  · rfl
  · dsimp only
    split
    · rw [State.passBody_pending _ hv, State.errorsFrom_pending _ hv]
    · split
      · rw [State.passHook_pending, State.mainFrom_pending _ hv]
      · rfl

@[simp] theorem State.logicPass_pending (sv : Served → State → State) (hv : ServesAside sv) (l : List Served) (s :
    State) :
    (State.logicPass sv l s).pending = s.pending := by
  have ha : (({ s with ctl.waiting := false } : State).passStart).pending = s.pending := State.passStart_pending _
  unfold State.logicPass
  dsimp only
  split
  · rfl
  · split
    · split
      · rw [State.callEntry_pending, State.raise_pending, State.count1_pending, State.ctxPut_pending, ha]
      · rw [State.passBody_pending _ hv, State.runErrors_pending _ hv, State.raise_pending, State.count1_pending,
          State.ctxPut_pending, ha]
    · rw [State.passBody_pending _ hv, ha]

@[simp] theorem State.outCommit_pending (s : State) : (State.outCommit s).pending = s.pending := by rfl

@[simp] theorem State.cycleDone_pending (a0 : Word) (us : Nat) (s : State) :
    (State.cycleDone a0 us s).pending = s.pending := by
  simp [State.cycleDone]

@[simp] theorem State.cycleReturn_pending (sv : Served → State → State) (hv : ServesAside sv) (a0 : Word) (us : Nat)
    (l : List Served) (s : State) :
    (State.cycleReturn sv a0 us l s).pending = s.pending := by
  unfold State.cycleReturn
  dsimp only
  split
  · rfl
  · split
    · rw [State.passBody_pending _ hv, State.when_pending, State.stopAsk_pending]
      simp
    · simp

@[simp] theorem State.overrun_pending (s : State) : (State.overrun s).pending = s.pending := by
  simp [State.overrun]

@[simp] theorem State.watchdog_pending (s : State) : (State.watchdog s).pending = s.pending := by
  simp [State.watchdog]

@[simp] theorem State.ecall_pending (mepc : Word) (s : State) : (State.ecall mepc s).pending = s.pending := by
  simp [State.ecall]

@[simp] theorem State.progFault_pending (mcause : BitVec 4) (mepc : Word) (s : State) :
    (State.progFault mcause mepc s).pending = s.pending := by
  simp [State.progFault]

@[simp] theorem State.coreFault_pending (m : Master) (write : Bool) (a : Nat) (s : State) :
    (State.coreFault m write a s).pending = s.pending := by
  unfold State.coreFault
  (repeat' split) <;> simp

@[simp] theorem State.accFault_pending (m : Master) (write : Bool) (a : Nat) (s : State) :
    (State.accFault m write a s).pending = s.pending := by
  simp [State.accFault]

theorem State.trigTake_pending {m : Master} {k a : Nat} {s t : State} (h : s.trigTake m k a = some t) : t.pending = s.pending := by
  obtain ⟨h0, -, h1⟩ := Option.bind_eq_some_iff.1 h
  obtain ⟨i, -, rfl⟩ := Option.map_eq_some_iff.1 h1
  simp

@[simp] theorem State.unlessTrig_pending (m : Master) (write : Bool) (a : Nat) (f : State → State) (s : State) (hf : ∀
    t, (f t).pending = t.pending) :
    (State.unlessTrig m write a f s).pending = s.pending := by
  unfold State.unlessTrig
  split
  · exact State.trigTake_pending ‹_›
  · exact hf s

@[simp] theorem State.access_pending (m : Master) (write : Bool) (a : Nat) (f : State → State) (s : State) (hf : ∀ t,
    (f t).pending = t.pending) :
    (State.access m write a f s).pending = s.pending := by
  simp [State.access, hf]

@[simp] theorem State.latchCauses_pending (s : State) : (State.latchCauses s).pending = s.pending := by
  simp [State.latchCauses]

@[simp] theorem State.cycleStart_pending (s : State) : (State.cycleStart s).pending = s.pending := by
  simp [State.cycleStart]

@[simp] theorem State.latchCycle_pending (s : State) : (State.latchCycle s).pending = s.pending := by
  simp [State.latchCycle]

@[simp] theorem State.svcBack_pending (s : State) : (State.svcBack s).pending = s.pending := by
  simp [State.svcBack]

@[simp] theorem State.service_pending (f : State → State) (s : State) (hf : ∀ t, (f t).pending = t.pending) :
    (State.service f s).pending = s.pending := by
  simp [State.service, hf]

@[simp] theorem State.svcRet_pending (a0 a1 : Word) (s : State) : (State.svcRet a0 a1 s).pending = s.pending := by rfl

@[simp] theorem State.svcRet0_pending (a0 : Word) (s : State) : (State.svcRet0 a0 s).pending = s.pending := by rfl

@[simp] theorem State.svcFbUser_pending (a0 a1 : Word) (s : State) : (State.svcFbUser a0 a1 s).pending = s.pending := by
  simp [State.svcFbUser]

@[simp] theorem State.svcGateTry_pending (a0 : Word) (s : State) : (State.svcGateTry a0 s).pending = s.pending := by
  unfold State.svcGateTry
  split <;> simp

@[simp] theorem State.svcGateRelease_pending (a0 : Word) (s : State) : (State.svcGateRelease a0 s).pending = s.pending := by
  unfold State.svcGateRelease
  split <;> simp

@[simp] theorem State.svcQueuePush_pending (a0 a1 : Word) (s : State) :
    (State.svcQueuePush a0 a1 s).pending = s.pending := by
  unfold State.svcQueuePush
  split <;> simp

@[simp] theorem State.svcQueuePop_pending (a0 : Word) (s : State) : (State.svcQueuePop a0 s).pending = s.pending := by
  unfold State.svcQueuePop
  split <;> simp

/-! ### Machine/Lane.lean -/

@[simp] theorem State.laneStart_pending (s : State) : (State.laneStart s).pending = s.pending := by
  simp [State.laneStart]

@[simp] theorem State.lanePermit_pending (fresh : Bool) (s : State) : (State.lanePermit fresh s).pending = s.pending := by
  simp [State.lanePermit]

@[simp] theorem State.laneOff_pending (s : State) : (State.laneOff s).pending = s.pending := by
  simp [State.laneOff]

@[simp] theorem State.laneTurn_pending (s : State) : (State.laneTurn s).pending = s.pending := by
  unfold State.laneTurn
  split <;> simp

@[simp] theorem State.laneTx_pending (onL2 : Bool) (b : List Byte) (s : State) :
    (State.laneTx onL2 b s).pending = s.pending := by
  simp [State.laneTx]

@[simp] theorem State.sentParity_pending (s : State) : (State.sentParity s).pending = s.pending := by
  simp [State.sentParity]

@[simp] theorem State.laneTrace_pending (slots : Nat) (s : State) : (State.laneTrace slots s).pending = s.pending := by
  rfl

@[simp] theorem State.lanePass_pending (type : Nat) (deliver tog : Bool) (slots : Bool → List (List Byte)) (s : State) :
    (State.lanePass type deliver tog slots s).pending = s.pending := by
  simp [State.lanePass]

@[simp] theorem State.laneRxCount_pending (f : LaneRx) (h : LHdr) (s : State) :
    (State.laneRxCount f h s).pending = s.pending := by
  simp [State.laneRxCount]

@[simp] theorem State.laneStore_pending (f : LaneRx) (s : State) : (State.laneStore f s).pending = s.pending := by
  simp [State.laneStore]

@[simp] theorem State.laneJudged_pending (h : LHdr) (v : LVerdict) (s : State) :
    (State.laneJudged h v s).pending = s.pending := by
  unfold State.laneJudged
  split <;> simp

@[simp] theorem State.collectSlot_pending (x : LSlot) (s : State) : (State.collectSlot x s).pending = s.pending := by
  simp [State.collectSlot]

@[simp] theorem State.passMark_pending (i : Nat) (s : State) : (State.passMark i s).pending = s.pending := by rfl

@[simp] theorem State.ocrcCheck_pending (h : LHdr) (v : LVerdict) (x : LSlot) (s : State) :
    (State.ocrcCheck h v x s).pending = s.pending := by
  simp [State.ocrcCheck]

@[simp] theorem State.laneData_pending (h : LHdr) (tog : LSlot → Bool) (slots : List LSlot) (s : State) :
    (State.laneData h tog slots s).pending = s.pending := by
  simp [State.laneData]

@[simp] theorem State.laneWatch_pending (dir onL2 : Bool) (s : State) :
    (State.laneWatch dir onL2 s).pending = s.pending := by
  unfold State.laneWatch
  split <;> simp

@[simp] theorem State.substRegion_pending (i : Nat) (s : State) : (State.substRegion i s).pending = s.pending := by
  simp [State.substRegion]

@[simp] theorem State.inputRegion_pending (i : Nat) (ins : List Byte) (s : State) :
    (State.inputRegion i ins s).pending = s.pending := by
  simp [State.inputRegion]

@[simp] theorem State.inputsTake_pending (s : State) : (State.inputsTake s).pending = s.pending := by
  simp [State.inputsTake]

@[simp] theorem State.collectDone_pending (s : State) : (State.collectDone s).pending = s.pending := by
  simp [State.collectDone]

@[simp] theorem State.deliverDone_pending (ok : Bool) (s : State) : (State.deliverDone ok s).pending = s.pending := by
  simp [State.deliverDone]

@[simp] theorem State.identSlot_pending (x : LSlot) (s : State) : (State.identSlot x s).pending = s.pending := by
  simp [State.identSlot]

@[simp] theorem State.passAllBack_pending (p : LanePass) (s : State) : (State.passAllBack p s).pending = s.pending := by
  unfold State.passAllBack
  split <;> simp

@[simp] theorem State.laneReturn_pending (f : LaneRx) (s : State) : (State.laneReturn f s).pending = s.pending := by
  unfold State.laneReturn
  dsimp only
  (repeat' split) <;> simp

@[simp] theorem State.loopBack_pending (b : List Byte) (s : State) : (State.loopBack b s).pending = s.pending := by
  simp [State.loopBack]

@[simp] theorem State.laneLate_pending (s : State) : (State.laneLate s).pending = s.pending := by
  unfold State.laneLate
  split <;> simp

@[simp] theorem State.trackReads_pending (s : State) : (State.trackReads s).pending = s.pending := by
  simp [State.trackReads]

@[simp] theorem State.trackCompare_pending (s : State) : (State.trackCompare s).pending = s.pending := by
  unfold State.trackCompare
  (repeat' split) <;> simp

@[simp] theorem State.heardDelivered_pending (s : State) : (State.heardDelivered s).pending = s.pending := by
  simp [State.heardDelivered]

@[simp] theorem State.heardLate_pending (s : State) : (State.heardLate s).pending = s.pending := by
  simp [State.heardLate]

@[simp] theorem State.laneClose_pending (s : State) : (State.laneClose s).pending = s.pending := by
  simp [State.laneClose]

@[simp] theorem State.applyMark_pending (s : State) : (State.applyMark s).pending = s.pending := by
  simp [State.applyMark]

@[simp] theorem State.laneSense_pending (rest : Vector Nat 2) (s : State) :
    (State.laneSense rest s).pending = s.pending := by rfl

@[simp] theorem State.collectPass_pending (s : State) : (State.collectPass s).pending = s.pending := by
  simp [State.collectPass]

@[simp] theorem State.outTake_pending (s : State) : (State.outTake s).pending = s.pending := by
  simp [State.outTake]

@[simp] theorem State.deliverPass_pending (s : State) : (State.deliverPass s).pending = s.pending := by
  simp [State.deliverPass]

@[simp] theorem State.dropOut_pending (s : State) : (State.dropOut s).pending = s.pending := by
  simp [State.dropOut]

@[simp] theorem State.imageRelease_pending (fill : Word) (s : State) : (State.imageRelease fill s).pending = s.pending := by
  simp [State.imageRelease]

@[simp] theorem State.inputRelease_pending (sv : Served → State → State) (hv : ServesAside sv) (l : List Served) (s :
    State) :
    (State.inputRelease sv l s).pending = s.pending := by
  refine (State.logicPass_pending sv hv l _).trans ?_
  split
  · rfl
  · exact State.imageRelease_pending ..

@[simp] theorem State.subDone_pending (sv : Served → State → State) (hv : ServesAside sv) (l : List Served) (s :
    State) :
    (State.subDone sv l s).pending = s.pending := by
  unfold State.subDone
  split
  · exact (State.logicPass_pending sv hv l _).trans (State.imageRelease_pending ..)
  · rfl

@[simp] theorem State.heardDone_pending (p : LanePass) (s : State) : (State.heardDone p s).pending = s.pending := by
  simp [State.heardDone]

@[simp] theorem State.heardOuts_pending (slots : List LSlot) (s : State) :
    (State.heardOuts slots s).pending = s.pending := by
  simp [State.heardOuts]

@[simp] theorem State.heard_pending (f : LaneRx) (s : State) : (State.heard f s).pending = s.pending := by
  unfold State.heard
  dsimp only
  (repeat' split) <;> simp

@[simp] theorem State.laneLatch_pending (s : State) : (State.laneLatch s).pending = s.pending := by
  simp [State.laneLatch]

@[simp] theorem State.laneOn_pending (s : State) : (State.laneOn s).pending = s.pending := by
  simp [State.laneOn]

@[simp] theorem State.laneEnable_pending (s : State) : (State.laneEnable s).pending = s.pending := by
  unfold State.laneEnable
  dsimp only
  (repeat' split) <;> simp

@[simp] theorem State.laneStop_pending (s : State) : (State.laneStop s).pending = s.pending := by
  simp [State.laneStop]

@[simp] theorem State.laneDisable_pending (s : State) : (State.laneDisable s).pending = s.pending := by
  simp [State.laneDisable]

@[simp] theorem State.forceStart_pending (s : State) : (State.forceStart s).pending = s.pending := by
  simp [State.forceStart]

@[simp] theorem State.laneCtlWrite_pending (v : Word) (s : State) : (State.laneCtlWrite v s).pending = s.pending := by
  simp [State.laneCtlWrite]

@[simp] theorem State.identPass_pending (s : State) : (State.identPass s).pending = s.pending := by
  simp [State.identPass]

@[simp] theorem State.rangeCount_pending (rtt : Option Nat) (f : List Byte) (s : State) :
    (State.rangeCount rtt f s).pending = s.pending := by
  simp [State.rangeCount]

@[simp] theorem State.rangePass_pending (station : Fin 32) (fromL2 : Bool) (rtt : Option Nat) (s : State) :
    (State.rangePass station fromL2 rtt s).pending = s.pending := by
  simp [State.rangePass]

@[simp] theorem State.configPass_pending (s : State) : (State.configPass s).pending = s.pending := by
  simp [State.configPass]

@[simp] theorem State.startTimeout_pending (s : State) : (State.startTimeout s).pending = s.pending := by
  simp [State.startTimeout]

/-! ### Machine/Latch.lean -/

@[simp] theorem State.latch_pending (s : State) : (State.latch s).pending = s.pending := by
  simp [State.latch]

@[simp] theorem State.latchStep_pending (old s : State) : (State.latchStep old s).pending = s.pending := by
  simp [State.latchStep]

/-! ### Machine/MemCmds.lean -/

@[simp] theorem State.tsRead_pending (m : Master) (a : Nat) (s : State) : (State.tsRead m a s).pending = s.pending := by
  simp [State.tsRead]

@[simp] theorem State.flashBeat_pending (m : Master) (addr : Word) (be : BitVec 4) (v : Word) (s : State) :
    (State.flashBeat m addr be v s).pending = s.pending := by
  simp [State.flashBeat]

@[simp] theorem State.programDone_pending (bankB : Bool) (s : State) : (State.programDone bankB s).pending = s.pending := by
  unfold State.programDone
  split <;> simp

@[simp] theorem State.eraseAsked_pending (m : Master) (v : Word) (s : State) :
    (State.eraseAsked m v s).pending = s.pending := by
  simp [State.eraseAsked]

@[simp] theorem State.saveEraseFrom_pending (l : List Nat) (s : State) : (State.saveEraseFrom l s).pending = s.pending := by
  induction l generalizing s with
  | nil => rfl
  | cons b bs ih =>
    unfold State.saveEraseFrom
    split <;> simp [ih]

@[simp] theorem State.saveEraseNext_pending (s : State) : (State.saveEraseNext s).pending = s.pending := by
  simp [State.saveEraseNext]

@[simp] theorem State.eraseDone_pending (bankB : Bool) (stuck : List (Nat × Byte)) (s : State) :
    (State.eraseDone bankB stuck s).pending = s.pending := by
  unfold State.eraseDone
  dsimp only
  (repeat' split) <;> simp

@[simp] theorem State.elogPop_pending (s : State) : (State.elogPop s).pending = s.pending := by
  unfold State.elogPop
  split <;> simp

@[simp] theorem State.inject_pending (v : Word) (s : State) : (State.inject v s).pending = s.pending := by
  unfold State.inject
  dsimp only
  (repeat' split) <;> simp

@[simp] theorem State.gateRel_pending (m : Master) (g : Fin 32) (s : State) :
    (State.gateRel m g s).pending = s.pending := by
  simp [State.gateRel]

@[simp] theorem State.gateForce_pending (m : Master) (g : Fin 32) (s : State) :
    (State.gateForce m g s).pending = s.pending := by
  simp [State.gateForce]

@[simp] theorem State.leaseExpiry_pending (g : Fin 32) (s : State) : (State.leaseExpiry g s).pending = s.pending := by
  simp [State.leaseExpiry]

/-! ### Machine/Boot.lean -/

@[simp] theorem State.hsEval_pending (s : State) : (State.hsEval s).pending = s.pending := by
  simp [State.hsEval]

@[simp] theorem State.runtimeLoad_pending (b : Bool) (s : State) : (State.runtimeLoad b s).pending = s.pending := by
  unfold State.runtimeLoad
  dsimp only
  split <;> rw [State.hsEval_pending, State.pokeRun_pending]

@[simp] theorem State.stewardStart_pending (b : Bool) (s : State) : (State.stewardStart b s).pending = s.pending := by
  rfl

@[simp] theorem State.slotAccept_pending (b : Bool) (s : State) : (State.slotAccept b s).pending = s.pending := by
  simp [State.slotAccept]

@[simp] theorem State.verifyWrite_pending (v : Word) (s : State) : (State.verifyWrite v s).pending = s.pending := by
  simp [State.verifyWrite]

@[simp] theorem State.verifyDone_pending (s : State) : (State.verifyDone s).pending = s.pending := by
  unfold State.verifyDone
  split <;> simp

@[simp] theorem State.keyProgram_pending (i : Fin 4) (s : State) : (State.keyProgram i s).pending = s.pending := by
  simp [State.keyProgram]

@[simp] theorem State.keyRevoke_pending (i : Fin 4) (s : State) : (State.keyRevoke i s).pending = s.pending := by
  simp [State.keyRevoke]

@[simp] theorem State.keyCmd_pending (v : Word) (s : State) : (State.keyCmd v s).pending = s.pending := by
  unfold State.keyCmd
  (repeat' split) <;> simp

/-! ### Machine/Parts.lean -/

@[simp] theorem State.partTo_pending (p : Fin 6) (x : PartState) (s : State) :
    (State.partTo p x s).pending = s.pending := by
  simp [State.partTo]

@[simp] theorem State.partCmd_pending (m : Master) (p : Fin 8) (ok : PartState → Bool) (f : Fin 6 → State → State) (s
    : State) (hf : ∀ q t, (f q t).pending = t.pending) :
    (State.partCmd m p ok f s).pending = s.pending := by
  unfold State.partCmd
  split <;> simp [hf]

@[simp] theorem State.netAbort_pending (s : State) : (State.netAbort s).pending = s.pending := by
  simp [State.netAbort]

@[simp] theorem State.quiesceStart_pending (p : Fin 6) (s : State) : (State.quiesceStart p s).pending = s.pending := by
  unfold State.quiesceStart
  split <;> simp

@[simp] theorem State.quiesce_pending (m : Master) (p : Fin 8) (s : State) : (State.quiesce m p s).pending = s.pending := by
  simp [State.quiesce]

@[simp] theorem State.syncLost_pending (s : State) : (State.syncLost s).pending = s.pending := by
  simp [State.syncLost]

@[simp] theorem State.resetStart_pending (bankB : Bool) (p : Fin 6) (s : State) :
    (State.resetStart bankB p s).pending = s.pending := by
  unfold State.resetStart
  split <;> simp

@[simp] theorem State.rejoinStart_pending (p : Fin 6) (s : State) : (State.rejoinStart p s).pending = s.pending := by
  simp [State.rejoinStart]

@[simp] theorem State.quiesceEnd_pending (p : Fin 6) (s : State) : (State.quiesceEnd p s).pending = s.pending := by
  unfold State.quiesceEnd
  split <;> simp

@[simp] theorem State.quiesceComplete_pending (p : Fin 6) (s : State) :
    (State.quiesceComplete p s).pending = s.pending := by
  simp [State.quiesceComplete]

@[simp] theorem State.partReset_pending (m : Master) (p : Fin 8) (bankB : Bool) (s : State) :
    (State.partReset m p bankB s).pending = s.pending := by
  simp [State.partReset]

@[simp] theorem State.resetEnd_pending (p : Fin 6) (s : State) : (State.resetEnd p s).pending = s.pending := by
  unfold State.resetEnd
  split <;> simp

@[simp] theorem State.partResetDone_pending (p : Fin 6) (s : State) : (State.partResetDone p s).pending = s.pending := by
  simp [State.partResetDone]

@[simp] theorem State.rejoin_pending (m : Master) (p : Fin 8) (s : State) : (State.rejoin m p s).pending = s.pending := by
  simp [State.rejoin]

@[simp] theorem State.rejoinLate_pending (s : State) : (State.rejoinLate s).pending = s.pending := by
  simp [State.rejoinLate]

@[simp] theorem State.rejoinEnd_pending (p : Fin 6) (s : State) : (State.rejoinEnd p s).pending = s.pending := by
  unfold State.rejoinEnd
  split <;> simp

@[simp] theorem State.rejoinComplete_pending (p : Fin 6) (s : State) : (State.rejoinComplete p s).pending = s.pending := by
  simp [State.rejoinComplete]

@[simp] theorem State.partCtl_pending (m : Master) (v : Word) (s : State) : (State.partCtl m v s).pending = s.pending := by
  unfold State.partCtl
  split <;> simp

@[simp] theorem State.kick_pending (s : State) : (State.kick s).pending = s.pending := by rfl

@[simp] theorem State.swdExpire_pending (s : State) : (State.swdExpire s).pending = s.pending := by
  unfold State.swdExpire
  split <;> simp

/-! ### Machine/Debug.lean -/

@[simp] theorem State.jtag_pending (f : State → State) (s : State) (hf : ∀ t, (f t).pending = t.pending) :
    (State.jtag f s).pending = s.pending := by
  simp [State.jtag, hf]

@[simp] theorem State.tapLoad_pending (ir : BitVec 5) (s : State) : (State.tapLoad ir s).pending = s.pending := by rfl

@[simp] theorem State.tapScan_pending (ir : BitVec 5) (s : State) : (State.tapScan ir s).pending = s.pending := by rfl

@[simp] theorem State.extestScan_pending (pins cells : BitVec 225) (s : State) :
    (State.extestScan pins cells s).pending = s.pending := by
  simp [State.extestScan]

@[simp] theorem State.sampleScan_pending (pins cells : BitVec 225) (s : State) :
    (State.sampleScan pins cells s).pending = s.pending := by rfl

@[simp] theorem State.idcodeScan_pending (s : State) : (State.idcodeScan s).pending = s.pending := by rfl

@[simp] theorem State.bypassScan_pending (tdi : Bool) (s : State) : (State.bypassScan tdi s).pending = s.pending := by
  rfl

@[simp] theorem State.dtmcsScan_pending (v : Word) (s : State) : (State.dtmcsScan v s).pending = s.pending := by
  simp [State.dtmcsScan]

@[simp] theorem State.dmi_pending (f : State → State) (s : State) (hf : ∀ t, (f t).pending = t.pending) :
    (State.dmi f s).pending = s.pending := by
  simp [State.dmi, hf]

@[simp] theorem State.debugHalt_pending (h : Hart) (s : State) : (State.debugHalt h s).pending = s.pending := by
  simp [State.debugHalt]

@[simp] theorem State.debugResume_pending (h : Hart) (s : State) : (State.debugResume h s).pending = s.pending := by
  simp [State.debugResume]

@[simp] theorem State.singleStep_pending (h : Hart) (nextPc : Word) (s : State) :
    (State.singleStep h nextPc s).pending = s.pending := by
  simp [State.singleStep]

@[simp] theorem State.pmpFollow_pending (n : Nat) (s : State) : (State.pmpFollow n s).pending = s.pending := by rfl

@[simp] theorem State.hartWrite_pending (h : Hart) (regno : Nat) (v : Word) (s : State) :
    (State.hartWrite h regno v s).pending = s.pending := by
  simp [State.hartWrite]

@[simp] theorem State.progBuf_pending (h : Hart) (x : BufOp) (s : State) : (State.progBuf h x s).pending = s.pending := by
  unfold State.progBuf
  split <;> simp

@[simp] theorem State.abstract_pending (h : Hart) (write : Bool) (regno : Nat) (v : Word) (buf : BufOp) (s : State) :
    (State.abstract h write regno v buf s).pending = s.pending := by
  refine State.dmi_pending _ s fun t => ?_
  split
  · rfl
  · dsimp only
    (repeat' split) <;> simp

/-! ### Machine/Gauge.lean -/

@[simp] theorem State.gaugeConvert_pending (s : State) : (State.gaugeConvert s).pending = s.pending := by rfl

@[simp] theorem State.gaugeHold_pending (v : Half) (s : State) : (State.gaugeHold v s).pending = s.pending := by
  simp [State.gaugeHold]

@[simp] theorem State.gaugeSelWrite_pending (a : Nat) (v : Word) (s : State) :
    (State.gaugeSelWrite a v s).pending = s.pending := by
  simp [State.gaugeSelWrite]

/-! ### Machine/RegFile.lean -/

@[simp] theorem State.shadowTaken_pending (a : Nat) (s : State) : (State.shadowTaken a s).pending = s.pending := by
  simp [State.shadowTaken]

@[simp] theorem State.wholeReadFx_pending (m : Master) (a : Nat) (s : State) :
    (State.wholeReadFx m a s).pending = s.pending := by
  simp [State.wholeReadFx]

@[simp] theorem State.rcReadFx_pending (a : Nat) (be : BitVec 4) (s : State) :
    (State.rcReadFx a be s).pending = s.pending := by
  simp [State.rcReadFx]

@[simp] theorem State.regReadFx_pending (m : Master) (a : Nat) (be : BitVec 4) (s : State) :
    (State.regReadFx m a be s).pending = s.pending := by
  simp [State.regReadFx]

@[simp] theorem State.writeSys_pending (m : Master) (a : Nat) (be : BitVec 4) (v : Word) (s : State) :
    (State.writeSys m a be v s).pending = s.pending := by
  simp [State.writeSys]

@[simp] theorem State.writeEvt_pending (a : Nat) (be : BitVec 4) (v : Word) (s : State) :
    (State.writeEvt a be v s).pending = s.pending := by
  simp [State.writeEvt]

@[simp] theorem State.liuCtlWrite_pending (v : Word) (s : State) : (State.liuCtlWrite v s).pending = s.pending := by
  simp [State.liuCtlWrite]

@[simp] theorem State.pcfgWrite_pending (p : Fin 4) (a : Nat) (v : Word) (s : State) :
    (State.pcfgWrite p a v s).pending = s.pending := by
  simp [State.pcfgWrite]

@[simp] theorem State.maskWrite_pending (a : Nat) (v : Word) (s : State) : (State.maskWrite a v s).pending = s.pending := by
  simp [State.maskWrite]

@[simp] theorem State.slotWrite_pending (p : Fin 4) (i : Nat) (be : BitVec 4) (v : Word) (s : State) :
    (State.slotWrite p i be v s).pending = s.pending := by
  simp [State.slotWrite]

@[simp] theorem State.writeLiu_pending (a : Nat) (be : BitVec 4) (v : Word) (s : State) :
    (State.writeLiu a be v s).pending = s.pending := by
  simp [State.writeLiu]

@[simp] theorem State.writeSvy_pending (m : Master) (a : Nat) (be : BitVec 4) (v : Word) (s : State) :
    (State.writeSvy m a be v s).pending = s.pending := by
  simp [State.writeSvy]

@[simp] theorem State.wmtabWrite_pending (i : Nat) (be : BitVec 4) (v : Word) (s : State) :
    (State.wmtabWrite i be v s).pending = s.pending := by
  simp [State.wmtabWrite]

@[simp] theorem State.writeTre_pending (a : Nat) (be : BitVec 4) (v : Word) (s : State) :
    (State.writeTre a be v s).pending = s.pending := by
  simp [State.writeTre]

@[simp] theorem State.writeRoad_pending (a : Nat) (v : Word) (s : State) : (State.writeRoad a v s).pending = s.pending := by
  simp [State.writeRoad]

@[simp] theorem State.writeEth_pending (a : Nat) (be : BitVec 4) (v : Word) (s : State) :
    (State.writeEth a be v s).pending = s.pending := by
  simp [State.writeEth]

@[simp] theorem State.writeCnt_pending (a : Nat) (v : Word) (s : State) : (State.writeCnt a v s).pending = s.pending := by
  simp [State.writeCnt]

@[simp] theorem State.writeFbk_pending (a : Nat) (v : Word) (s : State) : (State.writeFbk a v s).pending = s.pending := by
  simp [State.writeFbk]

@[simp] theorem State.slotChosen_pending (s : State) : (State.slotChosen s).pending = s.pending := by
  simp [State.slotChosen]

@[simp] theorem State.runctlWrite_pending (v : Word) (s : State) : (State.runctlWrite v s).pending = s.pending := by
  simp [State.runctlWrite]

@[simp] theorem State.writeItn_pending (a : Nat) (v : Word) (s : State) : (State.writeItn a v s).pending = s.pending := by
  simp [State.writeItn]

@[simp] theorem State.writeLane_pending (a : Nat) (v : Word) (s : State) : (State.writeLane a v s).pending = s.pending := by
  unfold State.writeLane
  (repeat' split) <;> simp [ServesAside]

@[simp] theorem State.writeWlv_pending (a : Nat) (v : Word) (s : State) : (State.writeWlv a v s).pending = s.pending := by
  simp [State.writeWlv]

@[simp] theorem State.writeDma_pending (m : Master) (a : Nat) (v : Word) (s : State) :
    (State.writeDma m a v s).pending = s.pending := by
  unfold State.writeDma
  (repeat' split) <;> simp

@[simp] theorem State.testLog_pending (s : State) : (State.testLog s).pending = s.pending := by
  simp [State.testLog]

@[simp] theorem State.writeCwy_pending (a : Nat) (v : Word) (s : State) : (State.writeCwy a v s).pending = s.pending := by
  simp [State.writeCwy]

@[simp] theorem State.writeGate_pending (m : Master) (a : Nat) (be : BitVec 4) (v : Word) (s : State) :
    (State.writeGate m a be v s).pending = s.pending := by
  unfold State.writeGate
  (repeat' split) <;> simp

@[simp] theorem State.writeBoot_pending (m : Master) (a : Nat) (be : BitVec 4) (v : Word) (s : State) :
    (State.writeBoot m a be v s).pending = s.pending := by
  simp [State.writeBoot]

@[simp] theorem State.regWrite_pending (m : Master) (a : Nat) (be : BitVec 4) (w : Word) (s : State) :
    (State.regWrite m a be w s).pending = s.pending := by
  unfold State.regWrite
  split <;> simp

@[simp] theorem State.busReadFx_pending (m : Master) (a : Nat) (be : BitVec 4) (s : State) :
    (State.busReadFx m a be s).pending = s.pending := by
  simp [State.busReadFx]

@[simp] theorem State.busWrite_pending (m : Master) (a : Nat) (be : BitVec 4) (v : Word) (s : State) :
    (State.busWrite m a be v s).pending = s.pending := by
  simp [State.busWrite]

/-! ### Machine/Causeway.lean -/

@[simp] theorem State.hostAnswer_pending (v : Half) (inverted : Bool) (s : State) :
    (State.hostAnswer v inverted s).pending = s.pending := by
  simp [State.hostAnswer]

@[simp] theorem State.shadowDrop_pending (w : Fin 16) (s : State) : (State.shadowDrop w s).pending = s.pending := by rfl

@[simp] theorem State.hostFetch_pending (x : HostAcc) (be : BitVec 4) (s : State) :
    (State.hostFetch x be s).1.pending = s.pending := by
  unfold State.hostFetch
  (repeat' split) <;> simp

@[simp] theorem State.hostDisc_pending (w : Fin 16) (s : State) : (State.hostDisc w s).pending = s.pending := by
  simp [State.hostDisc]

@[simp] theorem State.hostReadNow_pending (x : HostAcc) (s : State) : (State.hostReadNow x s).pending = s.pending := by
  unfold State.hostReadNow
  dsimp only
  (repeat' split) <;> simp

@[simp] theorem State.hostRead_pending (h : HostAddr) (s : State) : (State.hostRead h s).pending = s.pending := by
  unfold State.hostRead
  (repeat' split) <;> simp

@[simp] theorem State.hostWrite_pending (h : HostAddr) (v : Half) (par : BitVec 2) (s : State) :
    (State.hostWrite h v par s).pending = s.pending := by
  unfold State.hostWrite
  (repeat' split) <;> simp

@[simp] theorem State.hostTimeout_pending (s : State) : (State.hostTimeout s).pending = s.pending := by
  unfold State.hostTimeout
  split <;> simp

@[simp] theorem State.localResponse_pending (s : State) : (State.localResponse s).pending = s.pending := by
  unfold State.localResponse
  dsimp only
  (repeat' split) <;> simp

@[simp] theorem State.farWrite_pending (b : List Byte) (k i : Nat) (s : State) :
    (State.farWrite b k i s).1.pending = s.pending := by
  induction k generalizing i s with
  | zero => rfl
  | succ k ih =>
    unfold State.farWrite
    dsimp only
    (repeat' split) <;> simp [ih]

@[simp] theorem State.farSide_pending (b : List Byte) (s : State) : (State.farSide b s).1.pending = s.pending := by
  unfold State.farSide
  split <;> simp

@[simp] theorem State.farServe_pending (s : State) : (State.farServe s).pending = s.pending := by
  unfold State.farServe
  split <;> simp

@[simp] theorem State.doneRx_pending (w : Fin 16) (b : List Byte) (s : State) :
    (State.doneRx w b s).pending = s.pending := by
  simp [State.doneRx]

@[simp] theorem deliverCwyDone_pending (f : RxFrame) (h : RHdr) (s : State) :
    (deliverCwyDone.act f h s).pending = s.pending := by
  simp [deliverCwyDone]

@[simp] theorem State.frameBuild_pending (w : Fin 16) (s : State) : (State.frameBuild w s).pending = s.pending := by
  unfold State.frameBuild
  dsimp only
  (repeat' split) <;> simp

@[simp] theorem State.doneLate_pending (w : Fin 16) (s : State) : (State.doneLate w s).pending = s.pending := by
  unfold State.doneLate
  split <;> simp

@[simp] theorem deliverCwyWrite_pending (f : RxFrame) (h : RHdr) (s : State) :
    (deliverCwyWrite.act f h s).pending = s.pending := by
  simp [deliverCwyWrite]

@[simp] theorem deliveries_pending (d : Deliver) (hd : d ∈ deliveries) (f : RxFrame) (h : RHdr) (s : State) :
    (d.act f h s).pending = s.pending := by
  have hc : (s.count1 4 14).pending = s.pending := State.count1_pending 4 14 s
  simp only [deliveries, List.mem_cons, List.not_mem_nil, or_false] at hd
  rcases hd with rfl | rfl | rfl | rfl | rfl | rfl | rfl | rfl | rfl | rfl | rfl | rfl | rfl | rfl | rfl | rfl | rfl |
    rfl | rfl | rfl | rfl
  · exact (onSnrReport_pending f h (roadPayload f.body) _).trans hc
  · exact (onSegmentAnnounce_pending f h (roadPayload f.body) _).trans hc
  · exact (onRingAnnounce_pending f h (roadPayload f.body) _).trans hc
  · exact (onToneAck_pending f h (roadPayload f.body) _).trans hc
  · exact (onSegmentSummary_pending f h (roadPayload f.body) _).trans hc
  · exact (onSegmentActivate_pending f h (roadPayload f.body) _).trans hc
  · exact (onJoin_pending f h (roadPayload f.body) _).trans hc
  · exact (onHere_pending f h (roadPayload f.body) _).trans hc
  · exact (onResume_pending f h (roadPayload f.body) _).trans hc
  · exact (onHello_pending f h (roadPayload f.body) _).trans hc
  · exact (onEcho_pending f h (roadPayload f.body) _).trans hc
  · exact (onReply_pending f h (roadPayload f.body) _).trans hc
  · exact (onClaim_pending f h (roadPayload f.body) _).trans hc
  · exact (onTableRequest_pending f h (roadPayload f.body) _).trans hc
  · exact (onTable_pending f h (roadPayload f.body) _).trans hc
  · exact (onWayleave_pending f h (roadPayload f.body) _).trans hc
  · exact deliverUser_pending ..
  · exact deliverTunnel_pending ..
  · exact deliverPause_pending ..
  · exact deliverCwyWrite_pending ..
  · exact deliverCwyDone_pending ..

@[simp] theorem deliverAny_pending (f : RxFrame) (h : RHdr) (s : State) : (deliverAny.act f h s).pending = s.pending := by
  unfold deliverAny
  dsimp only
  split
  next d hd => exact deliveries_pending d (List.mem_of_find?_eq_some hd) f h s
  · rfl

/-! ### Machine/Transit.lean -/

@[simp] theorem State.selfDeliver_pending (body : List Byte) (s : State) :
    (State.selfDeliver body s).1.pending = s.pending := by
  unfold State.selfDeliver
  dsimp only
  (repeat' split) <;> simp

@[simp] theorem State.recordSend_pending (keep : Bool) (a : Nat) (s : State) :
    (State.recordSend keep a s).pending = s.pending := by
  simp [State.recordSend]

@[simp] theorem State.txTake_pending (m : Master) (k : Nat) (s : State) : (State.txTake m k s).pending = s.pending := by
  induction k generalizing s with
  | zero => rfl
  | succ k ih =>
    unfold State.txTake
    dsimp only
    (repeat' split) <;> simp [ih]

@[simp] theorem State.txPosted_pending (m : Master) (s : State) : (State.txPosted m s).pending = s.pending := by
  simp [State.txPosted]

@[simp] theorem State.write_pending (m : Master) (a : Nat) (be : BitVec 4) (v : Word) (s : State) :
    (State.write m a be v s).pending = s.pending := by
  simp [State.write]

theorem fullBus_aside : fullBus.Aside :=
  ⟨State.busReadFx_pending, State.write_pending⟩

@[simp] theorem State.coreReads_pending (l : List Nat) (s : State) : (State.coreReads l s).pending = s.pending := by
  induction l generalizing s with
  | nil => rfl
  | cons b bs ih =>
    unfold State.coreReads
    dsimp only
    split <;> simp [ih]

@[simp] theorem State.coreCopy_pending (a n : Nat) (f : State → State) (s : State) (hf : ∀ t, (f t).pending =
    t.pending) :
    (State.coreCopy a n f s).pending = s.pending := by
  unfold State.coreCopy
  split <;> simp [hf]

@[simp] theorem State.svcRoadSend_pending (a0 a1 : Word) (s : State) : (State.svcRoadSend a0 a1 s).pending = s.pending := by
  unfold State.svcRoadSend
  dsimp only
  split
  · simp
  · split
    · simp
    · split
      · simp
      · rw [State.coreCopy_pending]
        · simp
        · intro t
          split <;> simp

@[simp] theorem State.svcRoadRecv_pending (a0 a1 a2 : Word) (s : State) :
    (State.svcRoadRecv a0 a1 a2 s).pending = s.pending := by
  simp [State.svcRoadRecv]

/-! ### Machine/DmaCmds.lean -/

@[simp] theorem State.dmaBeat_pending (s : State) : (State.dmaBeat s).pending = s.pending := by
  unfold State.dmaBeat
  (repeat' split)
  · simp
  · rfl
  · rfl
  · exact State.dmaMakes_pending fullBus fullBus_aside ..

/-! ### Machine/Reset.lean -/

@[simp] theorem State.resetWith_pending (lost keepFault : Bool) (cause : Byte) (ph : ResetPhase) (s : State) :
    (State.resetWith lost keepFault cause ph s).pending = s.pending := by rfl

@[simp] theorem State.clkReset_pending (s : State) : (State.clkReset s).pending = s.pending := by rfl

@[simp] theorem State.warmReset_pending (s : State) : (State.warmReset s).pending = s.pending := by
  simp [State.warmReset]

@[simp] theorem State.pinReset_pending (s : State) : (State.pinReset s).pending = s.pending := by
  simp [State.pinReset]

@[simp] theorem State.resetOrWait_pending (pin : Bool) (s : State) : (State.resetOrWait pin s).pending = s.pending := by
  simp [State.resetOrWait]

@[simp] theorem State.saveScan_pending (s : State) : (State.saveScan s).pending = s.pending := by
  simp [State.saveScan]

@[simp] theorem State.presets_pending (bs : List Byte) (s : State) : (State.presets bs s).pending = s.pending := by
  fun_induction State.presets with
  | case1 s a b c d e f g h t addr u ih =>
    rw [ih]
    dsimp only [u]
    split
    · split
      · exact State.busWrite_pending ..
      · rfl
    · rfl
  | case2 => rfl

@[simp] theorem State.designItem_pending (d : List Byte) (s : State) : (State.designItem d s).pending = s.pending := by
  unfold State.designItem
  split <;> simp

@[simp] theorem State.cfgItem_pending (limp : Bool) (x : Byte × List Byte) (s : State) :
    (State.cfgItem limp x s).pending = s.pending := by
  simp [State.cfgItem]

@[simp] theorem State.imageRefused_pending (c : BitVec 4) (s : State) : (State.imageRefused c s).pending = s.pending := by
  simp [State.imageRefused]

@[simp] theorem State.cfgCheck_pending (b : Bool) (s : State) : (State.cfgCheck b s).pending = s.pending := by
  simp [State.cfgCheck]

@[simp] theorem State.cfgBoot_pending (limp b : Bool) (s : State) : (State.cfgBoot limp b s).pending = s.pending := by
  simp [State.cfgBoot]

@[simp] theorem State.stewardCheck_pending (b : Bool) (s : State) : (State.stewardCheck b s).pending = s.pending := by
  simp [State.stewardCheck]

@[simp] theorem State.programCheck_pending (b : Bool) (s : State) : (State.programCheck b s).pending = s.pending := by
  simp [State.programCheck]

@[simp] theorem State.bootSteward_pending (b : Bool) (s : State) : (State.bootSteward b s).pending = s.pending := by
  simp [State.bootSteward]

@[simp] theorem State.bootLimp_pending (b : Bool) (s : State) : (State.bootLimp b s).pending = s.pending := by
  simp [State.bootLimp]

@[simp] theorem State.bootRom_pending (s : State) : (State.bootRom s).pending = s.pending := by
  simp [State.bootRom]

@[simp] theorem State.strapRegs_pending (s : State) : (State.strapRegs s).pending = s.pending := by rfl

@[simp] theorem State.release_pending (s : State) : (State.release s).pending = s.pending := by
  simp [State.release]

@[simp] theorem State.releaseOrHold_pending (x : Straps) (s : State) : (State.releaseOrHold x s).pending = s.pending := by
  simp [State.releaseOrHold]

@[simp] theorem State.linesOff_pending (s : State) : (State.linesOff s).pending = s.pending := by rfl

/-! ### Machine/Service.lean -/

@[simp] theorem State.spCapture_pending (apin : Bool) (s : State) : (State.spCapture apin s).pending = s.pending := by
  simp [State.spCapture]

@[simp] theorem State.spOver_pending (s : State) : (State.spOver s).pending = s.pending := by rfl

@[simp] theorem State.spBegin_pending (a : BitVec 6) (s : State) : (State.spBegin a s).pending = s.pending := by rfl

@[simp] theorem State.transact_pending (a : BitVec 6) (f : Bool → Bool → State → State) (s : State) (hf : ∀ x y t, (f
    x y t).pending = t.pending) :
    (State.transact a f s).pending = s.pending := by
  simp [State.transact, hf]

@[simp] theorem State.spLast_pending (c : BitVec 3) (s : State) : (State.spLast c s).pending = s.pending := by rfl

@[simp] theorem State.keyClose_pending (s : State) : (State.keyClose s).pending = s.pending := by rfl

@[simp] theorem State.keyWrite_pending (first : Bool) (v : Half) (s : State) :
    (State.keyWrite first v s).pending = s.pending := by
  simp [State.keyWrite]

@[simp] theorem State.deepLaunch_pending (s : State) : (State.deepLaunch s).pending = s.pending := by rfl

@[simp] theorem State.dctlWrite_pending (key : Bool) (v : Half) (s : State) :
    (State.dctlWrite key v s).pending = s.pending := by
  simp [State.dctlWrite]

@[simp] theorem State.deepNext_pending (s : State) : (State.deepNext s).pending = s.pending := by rfl

@[simp] theorem State.deepRegWrite_pending (a : Nat) (key : Bool) (v : Half) (s : State) :
    (State.deepRegWrite a key v s).pending = s.pending := by
  simp [State.deepRegWrite]

@[simp] theorem State.deepRead9_pending (s : State) : (State.deepRead9 s).pending = s.pending := by
  simp [State.deepRead9]

@[simp] theorem State.deepAccess_pending (s : State) : (State.deepAccess s).pending = s.pending := by
  unfold State.deepAccess
  dsimp only
  (repeat' split) <;> simp

@[simp] theorem State.deepDone_pending (s : State) : (State.deepDone s).pending = s.pending := by
  simp [State.deepDone]

@[simp] theorem State.walkEnter_pending (s : State) : (State.walkEnter s).pending = s.pending := by
  refine (State.each_pending (fun _ _ => State.setReg_pending ..) _ _).trans ((State.dmaDropAll_pending _).trans ?_)
  exact (State.linesOff_pending _).trans ((State.laneOffDrive_pending _).trans (State.wlvSync_pending _))

@[simp] theorem State.walkLeave_pending (s : State) : (State.walkLeave s).pending = s.pending := by
  simp [State.walkLeave]

@[simp] theorem State.walkWrite_pending (key : Bool) (v : Half) (s : State) :
    (State.walkWrite key v s).pending = s.pending := by
  simp [State.walkWrite]

@[simp] theorem State.walkEntered_pending (s : State) : (State.walkEntered s).pending = s.pending := by
  simp [State.walkEntered]

@[simp] theorem State.spCtlWrite_pending (key : Bool) (v : Half) (s : State) :
    (State.spCtlWrite key v s).pending = s.pending := by
  simp [State.spCtlWrite]

@[simp] theorem State.spModeWrite_pending (key : Bool) (v : Half) (s : State) :
    (State.spModeWrite key v s).pending = s.pending := by
  unfold State.spModeWrite
  (repeat' split) <;> simp

@[simp] theorem State.spKeyed_pending (key : Bool) (f : State → State) (s : State) (hf : ∀ t, (f t).pending =
    t.pending) :
    (State.spKeyed key f s).pending = s.pending := by
  simp [State.spKeyed, hf]

@[simp] theorem State.fbCtlWrite_pending (v : Half) (s : State) : (State.fbCtlWrite v s).pending = s.pending := by
  simp [State.fbCtlWrite]

@[simp] theorem State.spWrite_pending (a : BitVec 6) (v : Half) (key first : Bool) (s : State) :
    (State.spWrite a v key first s).pending = s.pending := by
  unfold State.spWrite
  split
  case h_9 => exact State.spKeyed_pending _ _ s fun _ => rfl
  case h_16 => exact State.spKeyed_pending _ _ s fun _ => State.setReg_pending ..
  all_goals first | rfl | simp

@[simp] theorem State.spReadFx_pending (a : BitVec 6) (s : State) : (State.spReadFx a s).pending = s.pending := by
  unfold State.spReadFx
  split <;> simp

@[simp] theorem State.sdiRun_pending (w : Word) (s : State) : (State.sdiRun w s).pending = s.pending := by
  unfold State.sdiRun
  split <;> simp

@[simp] theorem State.spError_pending (edges : Nat) (w : Word) (s : State) :
    (State.spError edges w s).pending = s.pending := by
  simp [State.spError]

@[simp] theorem State.spEdges_pending (edges : Nat) (w : Word) (s : State) :
    (State.spEdges edges w s).pending = s.pending := by
  simp [State.spEdges]

@[simp] theorem State.masterWrite_pending (m : Master) (a : Nat) (be : BitVec 4) (v : Word) (s : State) :
    (State.masterWrite m a be v s).pending = s.pending := by
  simp [State.masterWrite]

@[simp] theorem State.dmiFail_pending (s : State) : (State.dmiFail s).pending = s.pending := by rfl

@[simp] theorem State.sbRead_pending (a n : Nat) (s : State) : (State.sbRead a n s).pending = s.pending := by
  simp [State.sbRead]

@[simp] theorem State.sbWrite_pending (a n : Nat) (v : Word) (s : State) : (State.sbWrite a n v s).pending = s.pending := by
  simp [State.sbWrite]

/-! ### Machine/Pass.lean -/

@[simp] theorem State.serveAccess_pending (x : Served) (s : State) : (State.serveAccess x s).pending = s.pending := by
  unfold State.serveAccess
  dsimp only
  split
  · split
    · exact (State.accFault_pending ..).trans (memBus_aside.2 ..)
    · exact memBus_aside.2 ..
  · split
    · exact (State.accFault_pending ..).trans (memBus_aside.1 ..)
    · exact memBus_aside.1 ..

@[simp] theorem State.gapCost_pending (a : Nat) (s : State) : (State.gapCost a s).pending = s.pending := by
  simp [State.gapCost]

theorem serve_aside : ServesAside State.serve := by
  intro x s
  unfold State.serve
  split
  · rfl
  · split
    · split
      · simp
      · rfl
    · split
      · simp
      · rfl
    · split
      · exact State.dmaMakes_pending fullBus fullBus_aside _ s
      · rfl
    · split
      · rw [State.gapCost_pending, State.serveAccess_pending]
      · rfl

@[simp] theorem State.stepPass_pending (met : Bool) (s : State) : (State.stepPass met s).pending = s.pending := by
  unfold State.stepPass
  split
  · exact State.passGo_pending _ serve_aside s
  · rfl

@[simp] theorem State.walkStepDone_pending (clocks : Nat) (met : Bool) (s : State) :
    (State.walkStepDone clocks met s).pending = s.pending := by
  simp [State.walkStepDone]

/-! ### Machine/Power.lean -/

@[simp] theorem State.powerOn_pending (lowestMv : Nat) (s : State) : (State.powerOn lowestMv s).pending = s.pending := by
  rfl

@[simp] theorem State.pinAsk_pending (s : State) : (State.pinAsk s).pending = s.pending := by
  simp [State.pinAsk]

@[simp] theorem State.pinLow_pending (lowNs : Nat) (s : State) : (State.pinLow lowNs s).pending = s.pending := by
  simp [State.pinLow]

@[simp] theorem State.supplyReset_pending (cause : Byte) (held : BitVec 2) (s : State) :
    (State.supplyReset cause held s).pending = s.pending := by rfl

@[simp] theorem State.clockFault_pending (s : State) : (State.clockFault s).pending = s.pending := by
  simp [State.clockFault]

@[simp] theorem State.clockBack_pending (x : Straps) (s : State) : (State.clockBack x s).pending = s.pending := by
  simp [State.clockBack]

@[simp] theorem State.refLost_pending (s : State) : (State.refLost s).pending = s.pending := by
  simp [State.refLost]

@[simp] theorem State.refBack_pending (s : State) : (State.refBack s).pending = s.pending := by
  simp [State.refBack]

@[simp] theorem State.cabdbTake_pending (s : State) : (State.cabdbTake s).pending = s.pending := by
  simp [State.cabdbTake]

@[simp] theorem State.toRide_pending (s : State) : (State.toRide s).pending = s.pending := by
  simp [State.toRide]

@[simp] theorem State.vehMove_pending (s : State) : (State.vehMove s).pending = s.pending := by
  unfold State.vehMove
  dsimp only
  (repeat' split) <;> simp

@[simp] theorem State.vehSampled_pending (senseMv vsup vcore : Nat) (vio : Vector Half 4) (temp : Half) (s : State) :
    (State.vehSampled senseMv vsup vcore vio temp s).pending = s.pending := by
  simp [State.vehSampled]

@[simp] theorem State.retReadFx_pending (s : State) : (State.retReadFx s).pending = s.pending := by
  unfold State.retReadFx
  split <;> simp

@[simp] theorem State.saveWrite_pending (s : State) : (State.saveWrite s).pending = s.pending := by
  unfold State.saveWrite
  split <;> simp

@[simp] theorem State.powerFail_pending (s : State) : (State.powerFail s).pending = s.pending := by
  simp [State.powerFail]

@[simp] theorem State.saveCommit_pending (s : State) : (State.saveCommit s).pending = s.pending := by
  unfold State.saveCommit
  split
  next b _ =>
    generalize saveBase b + 0x1FFC = a
    dsimp only
    rw [State.flashAndBytes_pending]
  · rfl

@[simp] theorem State.saveEnd_pending (s : State) : (State.saveEnd s).pending = s.pending := by
  simp [State.saveEnd]

@[simp] theorem State.holdEnd_pending (s : State) : (State.holdEnd s).pending = s.pending := by
  simp [State.holdEnd]

@[simp] theorem State.idle_pending (s : State) : (State.idle s).pending = s.pending := by
  simp [State.idle]

@[simp] theorem mgmt_pending {k : Nat} {act : RxFrame → RHdr → List Byte → State → State} (ha : ∀ f h b t, (act f h b
    t).pending = t.pending) (f : RxFrame) (h : RHdr) (s : State) :
    ((mgmt k act).act f h s).pending = s.pending :=
  (ha f h _ _).trans (State.count1_pending 4 14 s)
/-- A command's outcome leaves the queue of waiting commands as it is. -/
def KeepsPending (o : Host.Outcome State Fault Refusal) (s : State) : Prop := ∀ t, o = .next t → t.pending = s.pending

@[simp] theorem keepsPending_next {t s : State} : KeepsPending (.next t) s ↔ t.pending = s.pending :=
  ⟨fun h => h t rfl, fun h _ e => by cases e; exact h⟩

@[simp] theorem keepsPending_refused {r : Refusal} {s : State} : KeepsPending (.refused r) s :=
  fun _ e => by cases e

@[simp] theorem keepsPending_fault {r : Fault} {s : State} : KeepsPending (.fault r) s :=
  fun _ e => by cases e

@[simp] theorem keepsPending_ite {c : Prop} [Decidable c] {a b : Host.Outcome State Fault Refusal} {s : State} :
    KeepsPending (if c then a else b) s ↔ (c → KeepsPending a s) ∧ (¬ c → KeepsPending b s) := by
  split <;> simp_all

@[simp] theorem execRegisterWrite_pending (m : Master) (addr : Word) (lanes : BitVec 4) (v : Word) (s : State) :
    KeepsPending (execRegisterWrite m addr lanes v s) s := by
  unfold execRegisterWrite
  simp

@[simp] theorem execServiceImageCapture_pending (apin : Bool) (s : State) :
    KeepsPending (execServiceImageCapture apin s) s := by
  unfold execServiceImageCapture
  simp

@[simp] theorem execNormalRead_pending (a : BitVec 6) (s : State) : KeepsPending (execNormalRead a s) s := by
  unfold execNormalRead
  simp

@[simp] theorem execPeek_pending (a : BitVec 6) (s : State) : KeepsPending (execPeek a s) s := by
  unfold execPeek
  simp

@[simp] theorem execServiceWrite_pending (a : BitVec 6) (v : Half) (s : State) :
    KeepsPending (execServiceWrite a v s) s := by
  unfold execServiceWrite
  simp

@[simp] theorem execCommandRefused_pending (a : BitVec 6) (s : State) : KeepsPending (execCommandRefused a s) s := by
  unfold execCommandRefused
  simp

@[simp] theorem execKey_pending (v : Half) (s : State) : KeepsPending (execKey v s) s := by
  unfold execKey
  simp

@[simp] theorem execKeyWindowClose_pending (s : State) : KeepsPending (execKeyWindowClose s) s := by
  unfold execKeyWindowClose
  simp

@[simp] theorem execWrst_pending (v : Half) (s : State) : KeepsPending (execWrst v s) s := by
  unfold execWrst
  simp

@[simp] theorem execDeepRead_pending (v : Half) (s : State) : KeepsPending (execDeepRead v s) s := by
  unfold execDeepRead
  simp

@[simp] theorem execDeepWrite_pending (v : Half) (s : State) : KeepsPending (execDeepWrite v s) s := by
  unfold execDeepWrite
  simp

@[simp] theorem execDeepAccessDone_pending (s : State) : KeepsPending (execDeepAccessDone s) s := by
  unfold execDeepAccessDone
  simp

@[simp] theorem execDeepAccessTimeout_pending (s : State) : KeepsPending (execDeepAccessTimeout s) s := by
  unfold execDeepAccessTimeout
  simp

@[simp] theorem execAutoIncrement_pending (wr : Option Half) (s : State) : KeepsPending (execAutoIncrement wr s) s := by
  unfold execAutoIncrement
  split <;> simp

@[simp] theorem execWalkEntry_pending (v : Half) (s : State) : KeepsPending (execWalkEntry v s) s := by
  unfold execWalkEntry
  simp

@[simp] theorem execWalkEntryComplete_pending (s : State) : KeepsPending (execWalkEntryComplete s) s := by
  unfold execWalkEntryComplete
  simp

@[simp] theorem execStep_pending (v : Half) (s : State) : KeepsPending (execStep v s) s := by
  unfold execStep
  simp

@[simp] theorem execWalkStepEnd_pending (clocks : Nat) (met : Bool) (s : State) :
    KeepsPending (execWalkStepEnd clocks met s) s := by
  unfold execWalkStepEnd
  simp

@[simp] theorem execWalkExit_pending (v : Half) (s : State) : KeepsPending (execWalkExit v s) s := by
  unfold execWalkExit
  simp

@[simp] theorem execFbStart_pending (s : State) : KeepsPending (execFbStart s) s := by
  unfold execFbStart
  simp

@[simp] theorem execFbNewest_pending (s : State) : KeepsPending (execFbNewest s) s := by
  unfold execFbNewest
  simp

@[simp] theorem execFbDataRead_pending (s : State) : KeepsPending (execFbDataRead s) s := by
  unfold execFbDataRead
  simp

@[simp] theorem execGaugeConversion_pending (s : State) : KeepsPending (execGaugeConversion s) s := by
  unfold execGaugeConversion
  simp

@[simp] theorem execPowerOn_pending (lowestMv : Nat) (s : State) : KeepsPending (execPowerOn lowestMv s) s := by
  unfold execPowerOn
  simp

@[simp] theorem execPowerUpComplete_pending (straps : Straps) (s : State) :
    KeepsPending (execPowerUpComplete straps s) s := by
  unfold execPowerUpComplete
  simp

@[simp] theorem execPinReset_pending (lowNs : Nat) (s : State) : KeepsPending (execPinReset lowNs s) s := by
  unfold execPinReset
  simp

@[simp] theorem execPinResetRelease_pending (straps : Straps) (s : State) :
    KeepsPending (execPinResetRelease straps s) s := by
  unfold execPinResetRelease
  simp

@[simp] theorem execTestHigh_pending (s : State) : KeepsPending (execTestHigh s) s := by
  unfold execTestHigh
  simp

@[simp] theorem execBrownOut_pending (s : State) : KeepsPending (execBrownOut s) s := by
  unfold execBrownOut
  simp

@[simp] theorem execCoreLow_pending (s : State) : KeepsPending (execCoreLow s) s := by
  unfold execCoreLow
  simp

@[simp] theorem execWarmResetRelease_pending (s : State) : KeepsPending (execWarmResetRelease s) s := by
  unfold execWarmResetRelease
  simp

@[simp] theorem execClockFault_pending (s : State) : KeepsPending (execClockFault s) s := by
  unfold execClockFault
  simp

@[simp] theorem execClockRecovery_pending (straps : Straps) (s : State) : KeepsPending (execClockRecovery straps s) s := by
  unfold execClockRecovery
  simp

@[simp] theorem execRefClkLoss_pending (s : State) : KeepsPending (execRefClkLoss s) s := by
  unfold execRefClkLoss
  simp

@[simp] theorem execCabActChange_pending (level : Bool) (s : State) : KeepsPending (execCabActChange level s) s := by
  unfold execCabActChange
  simp

@[simp] theorem execCabdbChange_pending (s : State) : KeepsPending (execCabdbChange s) s := by
  unfold execCabdbChange
  simp

@[simp] theorem execVehSample_pending (senseMv vsupMv vcoreMv : Nat) (vioMv : Vector Half 4) (temp : Half) (s : State) :
    KeepsPending (execVehSample senseMv vsupMv vcoreMv vioMv temp s) s := by
  unfold execVehSample
  simp

@[simp] theorem execClassTimeExpiry_pending (s : State) : KeepsPending (execClassTimeExpiry s) s := by
  unfold execClassTimeExpiry
  simp

@[simp] theorem execVsupPowerFail_pending (s : State) : KeepsPending (execVsupPowerFail s) s := by
  unfold execVsupPowerFail
  simp

@[simp] theorem execSaveDone_pending (s : State) : KeepsPending (execSaveDone s) s := by
  unfold execSaveDone
  simp

@[simp] theorem execHoldResume_pending (s : State) : KeepsPending (execHoldResume s) s := by
  unfold execHoldResume
  simp

@[simp] theorem execVsupLowWarning_pending (vsupMv : Nat) (s : State) : KeepsPending (execVsupLowWarning vsupMv s) s := by
  unfold execVsupLowWarning
  simp

@[simp] theorem execTempWarning_pending (halfDegrees : Half) (s : State) :
    KeepsPending (execTempWarning halfDegrees s) s := by
  unfold execTempWarning
  simp

@[simp] theorem execTraverseReceive_pending (f : RxFrame) (beside : Option (List Byte)) (s : State) :
    KeepsPending (execTraverseReceive f beside s) s := by
  unfold execTraverseReceive
  simp

@[simp] theorem execPortCarrier_pending (p : Fin 4) (rxlvl : Byte) (s : State) :
    KeepsPending (execPortCarrier p rxlvl s) s := by
  unfold execPortCarrier
  simp

@[simp] theorem execPortLockLost_pending (p : Fin 4) (s : State) : KeepsPending (execPortLockLost p s) s := by
  unfold execPortLockLost
  simp

@[simp] theorem execPortSilent_pending (p : Fin 4) (rxlvl : Byte) (s : State) :
    KeepsPending (execPortSilent p rxlvl s) s := by
  unfold execPortSilent
  simp

@[simp] theorem execPortJam_pending (p : Fin 4) (s : State) : KeepsPending (execPortJam p s) s := by
  unfold execPortJam
  simp

@[simp] theorem execPortDead_pending (p : Fin 4) (s : State) : KeepsPending (execPortDead p s) s := by
  unfold execPortDead
  simp

@[simp] theorem execPortClear_pending (p : Fin 4) (s : State) : KeepsPending (execPortClear p s) s := by
  unfold execPortClear
  simp

@[simp] theorem execNotchPlace_pending (p : Fin 4) (freq : BitVec 24) (s : State) :
    KeepsPending (execNotchPlace p freq s) s := by
  unfold execNotchPlace
  (repeat' split) <;> simp

@[simp] theorem execNotchRelease_pending (p : Fin 4) (n : Fin 8) (s : State) : KeepsPending (execNotchRelease p n s) s := by
  unfold execNotchRelease
  simp

@[simp] theorem execTimestampRead_pending (m : Master) (addr : Word) (s : State) :
    KeepsPending (execTimestampRead m addr s) s := by
  unfold execTimestampRead
  simp

@[simp] theorem execPortDisable_pending (p : Fin 4) (s : State) : KeepsPending (execPortDisable p s) s := by
  unfold execPortDisable
  simp

@[simp] theorem execSnrEvaluation_pending (p : Fin 4) (s : State) : KeepsPending (execSnrEvaluation p s) s := by
  unfold execSnrEvaluation
  simp

@[simp] theorem execSnrReportPeriodic_pending (p : Fin 4) (s : State) : KeepsPending (execSnrReportPeriodic p s) s := by
  unfold execSnrReportPeriodic
  simp

@[simp] theorem execSnrReport_pending (f : RxFrame) (s : State) : KeepsPending (execSnrReport f s) s := by
  unfold execSnrReport
  simp

@[simp] theorem execSegmentAnnounce_pending (f : RxFrame) (s : State) : KeepsPending (execSegmentAnnounce f s) s := by
  unfold execSegmentAnnounce
  simp

@[simp] theorem execTonemapAcknowledge_pending (f : RxFrame) (s : State) : KeepsPending (execTonemapAcknowledge f s) s := by
  unfold execTonemapAcknowledge
  simp

@[simp] theorem execSegmentActivate_pending (f : RxFrame) (s : State) : KeepsPending (execSegmentActivate f s) s := by
  unfold execSegmentActivate
  simp

@[simp] theorem execSegmentMapActivation_pending (p : Fin 4) (s : State) :
    KeepsPending (execSegmentMapActivation p s) s := by
  unfold execSegmentMapActivation
  simp

@[simp] theorem execSegmentMapAbandon_pending (p : Fin 4) (s : State) : KeepsPending (execSegmentMapAbandon p s) s := by
  unfold execSegmentMapAbandon
  split <;> simp

@[simp] theorem execSegmentSummary_pending (f : RxFrame) (s : State) : KeepsPending (execSegmentSummary f s) s := by
  unfold execSegmentSummary
  simp

@[simp] theorem execRingAnnounce_pending (f : RxFrame) (s : State) : KeepsPending (execRingAnnounce f s) s := by
  unfold execRingAnnounce
  simp

@[simp] theorem execRingMapActivation_pending (s : State) : KeepsPending (execRingMapActivation s) s := by
  unfold execRingMapActivation
  split <;> simp

@[simp] theorem execRingMapAbandon_pending (s : State) : KeepsPending (execRingMapAbandon s) s := by
  unfold execRingMapAbandon
  split <;> simp

@[simp] theorem execThroughUnitChange_pending (partnerRuns : Bool) (s : State) :
    KeepsPending (execThroughUnitChange partnerRuns s) s := by
  unfold execThroughUnitChange
  simp

@[simp] theorem execTurnout_pending (s : State) : KeepsPending (execTurnout s) s := by
  unfold execTurnout
  simp

@[simp] theorem execBeaconTimer_pending (p : Fin 4) (s : State) : KeepsPending (execBeaconTimer p s) s := by
  unfold execBeaconTimer
  simp

@[simp] theorem execBeacon_pending (f : RxFrame) (s : State) : KeepsPending (execBeacon f s) s := by
  unfold execBeacon
  simp

@[simp] theorem execRequest_pending (f : RxFrame) (s : State) : KeepsPending (execRequest f s) s := by
  unfold execRequest
  simp

@[simp] theorem execSettleExpiry_pending (s : State) : KeepsPending (execSettleExpiry s) s := by
  unfold execSettleExpiry
  simp

@[simp] theorem execSeek_pending (f : RxFrame) (s : State) : KeepsPending (execSeek f s) s := by
  unfold execSeek
  simp

@[simp] theorem execToken_pending (f : RxFrame) (s : State) : KeepsPending (execToken f s) s := by
  unfold execToken
  simp

@[simp] theorem execReport_pending (f : RxFrame) (s : State) : KeepsPending (execReport f s) s := by
  unfold execReport
  simp

@[simp] theorem execPass_pending (f : RxFrame) (s : State) : KeepsPending (execPass f s) s := by
  unfold execPass
  simp

@[simp] theorem execReportSlotEnd_pending (carrierA carrierB : Bool) (s : State) :
    KeepsPending (execReportSlotEnd carrierA carrierB s) s := by
  unfold execReportSlotEnd
  simp

@[simp] theorem execDupBypassWait_pending (s : State) : KeepsPending (execDupBypassWait s) s := by
  unfold execDupBypassWait
  simp

@[simp] theorem execTally_pending (f : RxFrame) (s : State) : KeepsPending (execTally f s) s := by
  unfold execTally
  simp

@[simp] theorem execSvyPublish_pending (s : State) : KeepsPending (execSvyPublish s) s := by
  unfold execSvyPublish
  simp

@[simp] theorem execHostDeadline_pending (s : State) : KeepsPending (execHostDeadline s) s := by
  unfold execHostDeadline
  simp

@[simp] theorem execResult_pending (f : RxFrame) (s : State) : KeepsPending (execResult f s) s := by
  unfold execResult
  simp

@[simp] theorem execSurveyDeferredSend_pending (s : State) : KeepsPending (execSurveyDeferredSend s) s := by
  unfold execSurveyDeferredSend
  simp

@[simp] theorem execConfirm_pending (f : RxFrame) (s : State) : KeepsPending (execConfirm f s) s := by
  unfold execConfirm
  simp

@[simp] theorem execConfirmDeadline_pending (s : State) : KeepsPending (execConfirmDeadline s) s := by
  unfold execConfirmDeadline
  simp

@[simp] theorem execSurveyAbort_pending (f : RxFrame) (s : State) : KeepsPending (execSurveyAbort f s) s := by
  unfold execSurveyAbort
  simp

@[simp] theorem execSurveyCut_pending (elsewhere : Bool) (beside : Option (List Byte)) (s : State) :
    KeepsPending (execSurveyCut elsewhere beside s) s := by
  unfold execSurveyCut
  simp

@[simp] theorem execSurveyTimeout_pending (s : State) : KeepsPending (execSurveyTimeout s) s := by
  unfold execSurveyTimeout
  simp

@[simp] theorem execSvyStart_pending (s : State) : KeepsPending (execSvyStart s) s := by
  unfold execSvyStart
  simp

@[simp] theorem execSvyFull_pending (s : State) : KeepsPending (execSvyFull s) s := by
  unfold execSvyFull
  simp

@[simp] theorem execSvyAbort_pending (s : State) : KeepsPending (execSvyAbort s) s := by
  unfold execSvyAbort
  simp

@[simp] theorem execJoin_pending (f : RxFrame) (s : State) : KeepsPending (execJoin f s) s := by
  unfold execJoin
  simp

@[simp] theorem execHere_pending (f : RxFrame) (s : State) : KeepsPending (execHere f s) s := by
  unfold execHere
  simp

@[simp] theorem execLatecomerCheck_pending (s : State) : KeepsPending (execLatecomerCheck s) s := by
  unfold execLatecomerCheck
  simp

@[simp] theorem execLatecomerNoAnswer_pending (s : State) : KeepsPending (execLatecomerNoAnswer s) s := by
  unfold execLatecomerNoAnswer
  simp

@[simp] theorem execT0_pending (beside : Option (List Byte)) (s : State) : KeepsPending (execT0 beside s) s := by
  unfold execT0
  simp

@[simp] theorem execLocalT0_pending (s : State) : KeepsPending (execLocalT0 s) s := by
  unfold execLocalT0
  simp

@[simp] theorem execReturnPassComplete_pending (s : State) : KeepsPending (execReturnPassComplete s) s := by
  unfold execReturnPassComplete
  simp

@[simp] theorem execLatchInstant_pending (s : State) : KeepsPending (execLatchInstant s) s := by
  unfold execLatchInstant
  simp

@[simp] theorem execSyncHoldExpiry_pending (s : State) : KeepsPending (execSyncHoldExpiry s) s := by
  unfold execSyncHoldExpiry
  simp

@[simp] theorem execMissedTraverse_pending (s : State) : KeepsPending (execMissedTraverse s) s := by
  unfold execMissedTraverse
  simp

@[simp] theorem execTakeover_pending (beside : Option (List Byte)) (s : State) :
    KeepsPending (execTakeover beside s) s := by
  unfold execTakeover
  simp

@[simp] theorem execCoverStart_pending (s : State) : KeepsPending (execCoverStart s) s := by
  unfold execCoverStart
  simp

@[simp] theorem execResume_pending (f : RxFrame) (s : State) : KeepsPending (execResume f s) s := by
  unfold execResume
  simp

@[simp] theorem execCommit_pending (s : State) : KeepsPending (execCommit s) s := by
  unfold execCommit
  simp

@[simp] theorem execTableRequest_pending (f : RxFrame) (s : State) : KeepsPending (execTableRequest f s) s := by
  unfold execTableRequest
  simp

@[simp] theorem execTableRequestRepeat_pending (s : State) : KeepsPending (execTableRequestRepeat s) s := by
  unfold execTableRequestRepeat
  simp

@[simp] theorem execTable_pending (f : RxFrame) (s : State) : KeepsPending (execTable f s) s := by
  unfold execTable
  simp

@[simp] theorem execClaim_pending (f : RxFrame) (s : State) : KeepsPending (execClaim f s) s := by
  unfold execClaim
  simp

@[simp] theorem execClaimRetry_pending (s : State) : KeepsPending (execClaimRetry s) s := by
  unfold execClaimRetry
  simp

@[simp] theorem execTableEdit_pending (v : Word) (s : State) : KeepsPending (execTableEdit v s) s := by
  unfold execTableEdit
  simp

@[simp] theorem execClaimPop_pending (m : Master) (s : State) : KeepsPending (execClaimPop m s) s := by
  unfold execClaimPop
  simp

@[simp] theorem execTraverseDisable_pending (s : State) : KeepsPending (execTraverseDisable s) s := by
  unfold execTraverseDisable
  simp

@[simp] theorem execRoadWindowOpen_pending (s : State) : KeepsPending (execRoadWindowOpen s) s := by
  unfold execRoadWindowOpen
  simp

@[simp] theorem execRoadFrameStart_pending (p : Fin 4) (slots : List (List (Option Nat))) (foreign : Option ForeignP)
    (s : State) :
    KeepsPending (execRoadFrameStart p slots foreign s) s := by
  unfold execRoadFrameStart
  simp

@[simp] theorem execAcknowledge_pending (f : RxFrame) (s : State) : KeepsPending (execAcknowledge f s) s := by
  unfold execAcknowledge
  simp

@[simp] theorem execAckTimeout_pending (p : Fin 4) (s : State) : KeepsPending (execAckTimeout p s) s := by
  unfold execAckTimeout
  simp

@[simp] theorem execRoadTransit_pending (f : RxFrame) (s : State) : KeepsPending (execRoadTransit f s) s := by
  unfold execRoadTransit
  simp

@[simp] theorem execUserMessage_pending (f : RxFrame) (s : State) : KeepsPending (execUserMessage f s) s := by
  unfold execUserMessage
  simp

@[simp] theorem execEthernetTunnel_pending (f : RxFrame) (s : State) : KeepsPending (execEthernetTunnel f s) s := by
  unfold execEthernetTunnel
  simp

@[simp] theorem execPause_pending (f : RxFrame) (s : State) : KeepsPending (execPause f s) s := by
  unfold execPause
  simp

@[simp] theorem execPauseExpiry_pending (p : Fin 4) (nid : BitVec 6) (prio : Fin 8) (s : State) :
    KeepsPending (execPauseExpiry p nid prio s) s := by
  unfold execPauseExpiry
  simp

@[simp] theorem execPauseRepeat_pending (p : Fin 4) (prio : Fin 8) (s : State) :
    KeepsPending (execPauseRepeat p prio s) s := by
  unfold execPauseRepeat
  simp

@[simp] theorem execHelloTimer_pending (s : State) : KeepsPending (execHelloTimer s) s := by
  unfold execHelloTimer
  simp

@[simp] theorem execHello_pending (f : RxFrame) (s : State) : KeepsPending (execHello f s) s := by
  unfold execHello
  simp

@[simp] theorem execNeighbourAgeExpiry_pending (p : Fin 4) (nid : BitVec 6) (s : State) :
    KeepsPending (execNeighbourAgeExpiry p nid s) s := by
  unfold execNeighbourAgeExpiry
  simp

@[simp] theorem execPing_pending (dst : BitVec 6) (s : State) : KeepsPending (execPing dst s) s := by
  unfold execPing
  simp

@[simp] theorem execEcho_pending (f : RxFrame) (s : State) : KeepsPending (execEcho f s) s := by
  unfold execEcho
  simp

@[simp] theorem execReply_pending (f : RxFrame) (s : State) : KeepsPending (execReply f s) s := by
  unfold execReply
  simp

@[simp] theorem execTransmitRecord_pending (m : Master) (wp : Word) (s : State) :
    KeepsPending (execTransmitRecord m wp s) s := by
  unfold execTransmitRecord
  simp

@[simp] theorem execWayleave_pending (f : RxFrame) (s : State) : KeepsPending (execWayleave f s) s := by
  unfold execWayleave
  simp

@[simp] theorem execWayleaveRepeat_pending (s : State) : KeepsPending (execWayleaveRepeat s) s := by
  unfold execWayleaveRepeat
  simp

@[simp] theorem execEthFrameReceive_pending (e : Fin 2) (f : EthRx) (s : State) :
    KeepsPending (execEthFrameReceive e f s) s := by
  unfold execEthFrameReceive
  simp

@[simp] theorem execPhyPoll_pending (e : Fin 2) (r0 r1 r4 r5 : Half) (s : State) :
    KeepsPending (execPhyPoll e r0 r1 r4 r5 s) s := by
  unfold execPhyPoll
  simp

@[simp] theorem execMdioAccess_pending (e : Fin 2) (v : Word) (s : State) : KeepsPending (execMdioAccess e v s) s := by
  unfold execMdioAccess
  simp

@[simp] theorem execMdioDone_pending (e : Fin 2) (data : Half) (s : State) : KeepsPending (execMdioDone e data s) s := by
  unfold execMdioDone
  split <;> simp

@[simp] theorem execAddressAgeExpiry_pending (i : Fin 256) (s : State) : KeepsPending (execAddressAgeExpiry i s) s := by
  unfold execAddressAgeExpiry
  simp

@[simp] theorem execEthPause_pending (e : Fin 2) (quanta : Half) (s : State) :
    KeepsPending (execEthPause e quanta s) s := by
  unfold execEthPause
  simp

@[simp] theorem execPfc_pending (e : Fin 2) (classes : Byte) (quanta : List Half) (s : State) :
    KeepsPending (execPfc e classes quanta s) s := by
  unfold execPfc
  simp

@[simp] theorem execPfcExpiry_pending (e : Fin 2) (cls : Fin 8) (s : State) : KeepsPending (execPfcExpiry e cls s) s := by
  unfold execPfcExpiry
  simp

@[simp] theorem execLearnqPop_pending (m : Master) (s : State) : KeepsPending (execLearnqPop m s) s := by
  unfold execLearnqPop
  simp

@[simp] theorem execEthDisable_pending (e : Fin 2) (v : Word) (s : State) : KeepsPending (execEthDisable e v s) s := by
  unfold execEthDisable
  simp

@[simp] theorem execCairnRequest_pending (v : Word) (s : State) : KeepsPending (execCairnRequest v s) s := by
  unfold execCairnRequest
  simp

@[simp] theorem execCairn_pending (p : Fin 8) (s : State) : KeepsPending (execCairn p s) s := by
  unfold execCairn
  simp

@[simp] theorem execEvtSoft_pending (v : Word) (s : State) : KeepsPending (execEvtSoft v s) s := by
  unfold execEvtSoft
  simp

@[simp] theorem execEventClaim_pending (m : Master) (h : Hart) (s : State) : KeepsPending (execEventClaim m h s) s := by
  unfold execEventClaim
  simp

@[simp] theorem execFbRecordWrite_pending (failed : Option (List Byte)) (s : State) :
    KeepsPending (execFbRecordWrite failed s) s := by
  unfold execFbRecordWrite
  simp

@[simp] theorem execFbRepeatExpiry_pending (ev : Byte) (s : State) : KeepsPending (execFbRepeatExpiry ev s) s := by
  unfold execFbRepeatExpiry
  simp

@[simp] theorem execFbHealthTimer_pending (s : State) : KeepsPending (execFbHealthTimer s) s := by
  unfold execFbHealthTimer
  simp

@[simp] theorem execFbkUsergo_pending (v : Word) (s : State) : KeepsPending (execFbkUsergo v s) s := by
  unfold execFbkUsergo
  simp

@[simp] theorem execFbkWipe_pending (v : Word) (s : State) : KeepsPending (execFbkWipe v s) s := by
  unfold execFbkWipe
  simp

@[simp] theorem execFbkRawPop_pending (m : Master) (s : State) : KeepsPending (execFbkRawPop m s) s := by
  unfold execFbkRawPop
  simp

@[simp] theorem execRunRequest_pending (src : RunSource) (s : State) : KeepsPending (execRunRequest src s) s := by
  unfold execRunRequest
  simp

@[simp] theorem execStopRequest_pending (s : State) : KeepsPending (execStopRequest s) s := by
  unfold execStopRequest
  simp

@[simp] theorem execLoadComplete_pending (s : State) : KeepsPending (execLoadComplete s) s := by
  unfold execLoadComplete
  simp

@[simp] theorem execInitReturn_pending (a0 : Word) (s : State) : KeepsPending (execInitReturn a0 s) s := by
  unfold execInitReturn
  simp

@[simp] theorem execInitTimeout_pending (s : State) : KeepsPending (execInitTimeout s) s := by
  unfold execInitTimeout
  simp

@[simp] theorem execInputImageRelease_pending (served : List Served) (s : State) : KeepsPending (execInputImageRelease served s) s := by
  simp [execInputImageRelease, State.inputRelease_pending _ serve_aside]

@[simp] theorem execCycleReturn_pending (a0 : Word) (us : Nat) (served : List Served) (s : State) :
    KeepsPending (execCycleReturn a0 us served s) s := by
  simp [execCycleReturn, State.cycleReturn_pending _ serve_aside]

@[simp] theorem execOutputDeadline_pending (s : State) : KeepsPending (execOutputDeadline s) s := by
  unfold execOutputDeadline
  simp

@[simp] theorem execCycleWatchdog_pending (s : State) : KeepsPending (execCycleWatchdog s) s := by
  unfold execCycleWatchdog
  simp

@[simp] theorem execProgramFault_pending (mcause : BitVec 4) (mepc : Word) (s : State) :
    KeepsPending (execProgramFault mcause mepc s) s := by
  unfold execProgramFault
  simp

@[simp] theorem execTimeNow_pending (s : State) : KeepsPending (execTimeNow s) s := by
  unfold execTimeNow
  simp

@[simp] theorem execFbUser_pending (a0 a1 : Word) (s : State) : KeepsPending (execFbUser a0 a1 s) s := by
  unfold execFbUser
  simp

@[simp] theorem execRoadSend_pending (a0 a1 : Word) (s : State) : KeepsPending (execRoadSend a0 a1 s) s := by
  unfold execRoadSend
  simp

@[simp] theorem execRoadRecv_pending (a0 a1 a2 : Word) (s : State) : KeepsPending (execRoadRecv a0 a1 a2 s) s := by
  unfold execRoadRecv
  simp

@[simp] theorem execGateTry_pending (a0 : Word) (s : State) : KeepsPending (execGateTry a0 s) s := by
  unfold execGateTry
  simp

@[simp] theorem execGateRelease_pending (a0 : Word) (s : State) : KeepsPending (execGateRelease a0 s) s := by
  unfold execGateRelease
  simp

@[simp] theorem execQueuePush_pending (a0 a1 : Word) (s : State) : KeepsPending (execQueuePush a0 a1 s) s := by
  unfold execQueuePush
  simp

@[simp] theorem execQueuePop_pending (a0 : Word) (s : State) : KeepsPending (execQueuePop a0 s) s := by
  unfold execQueuePop
  simp

@[simp] theorem execReqStop_pending (s : State) : KeepsPending (execReqStop s) s := by
  unfold execReqStop
  simp

@[simp] theorem execFault_pending (a0 : Word) (s : State) : KeepsPending (execFault a0 s) s := by
  unfold execFault
  simp

@[simp] theorem execEntrySkip_pending (e : Entry) (s : State) : KeepsPending (execEntrySkip e s) s := by
  unfold execEntrySkip
  simp

@[simp] theorem execBlkNop_pending (e : Entry) (s : State) : KeepsPending (execBlkNop e s) s := by
  unfold execBlkNop
  simp

@[simp] theorem execBlkAnd_pending (e : Entry) (s : State) : KeepsPending (execBlkAnd e s) s := by
  unfold execBlkAnd
  simp

@[simp] theorem execBlkOr_pending (e : Entry) (s : State) : KeepsPending (execBlkOr e s) s := by
  unfold execBlkOr
  simp

@[simp] theorem execBlkXor_pending (e : Entry) (s : State) : KeepsPending (execBlkXor e s) s := by
  unfold execBlkXor
  simp

@[simp] theorem execBlkNot_pending (e : Entry) (s : State) : KeepsPending (execBlkNot e s) s := by
  unfold execBlkNot
  simp

@[simp] theorem execBlkSr_pending (e : Entry) (s : State) : KeepsPending (execBlkSr e s) s := by
  unfold execBlkSr
  simp

@[simp] theorem execBlkRs_pending (e : Entry) (s : State) : KeepsPending (execBlkRs e s) s := by
  unfold execBlkRs
  simp

@[simp] theorem execBlkRtrig_pending (e : Entry) (s : State) : KeepsPending (execBlkRtrig e s) s := by
  unfold execBlkRtrig
  simp

@[simp] theorem execBlkFtrig_pending (e : Entry) (s : State) : KeepsPending (execBlkFtrig e s) s := by
  unfold execBlkFtrig
  simp

@[simp] theorem execBlkBitget_pending (e : Entry) (s : State) : KeepsPending (execBlkBitget e s) s := by
  unfold execBlkBitget
  simp

@[simp] theorem execBlkBitput_pending (e : Entry) (s : State) : KeepsPending (execBlkBitput e s) s := by
  unfold execBlkBitput
  simp

@[simp] theorem execBlkBand_pending (e : Entry) (s : State) : KeepsPending (execBlkBand e s) s := by
  unfold execBlkBand
  simp

@[simp] theorem execBlkBor_pending (e : Entry) (s : State) : KeepsPending (execBlkBor e s) s := by
  unfold execBlkBor
  simp

@[simp] theorem execBlkBxor_pending (e : Entry) (s : State) : KeepsPending (execBlkBxor e s) s := by
  unfold execBlkBxor
  simp

@[simp] theorem execBlkShl_pending (e : Entry) (s : State) : KeepsPending (execBlkShl e s) s := by
  unfold execBlkShl
  simp

@[simp] theorem execBlkShr_pending (e : Entry) (s : State) : KeepsPending (execBlkShr e s) s := by
  unfold execBlkShr
  simp

@[simp] theorem execBlkAdd_pending (e : Entry) (s : State) : KeepsPending (execBlkAdd e s) s := by
  unfold execBlkAdd
  simp

@[simp] theorem execBlkSub_pending (e : Entry) (s : State) : KeepsPending (execBlkSub e s) s := by
  unfold execBlkSub
  simp

@[simp] theorem execBlkMul_pending (e : Entry) (s : State) : KeepsPending (execBlkMul e s) s := by
  unfold execBlkMul
  simp

@[simp] theorem execBlkDiv_pending (e : Entry) (s : State) : KeepsPending (execBlkDiv e s) s := by
  unfold execBlkDiv
  simp

@[simp] theorem execBlkMod_pending (e : Entry) (s : State) : KeepsPending (execBlkMod e s) s := by
  unfold execBlkMod
  simp

@[simp] theorem execBlkAbs_pending (e : Entry) (s : State) : KeepsPending (execBlkAbs e s) s := by
  unfold execBlkAbs
  simp

@[simp] theorem execBlkNeg_pending (e : Entry) (s : State) : KeepsPending (execBlkNeg e s) s := by
  unfold execBlkNeg
  simp

@[simp] theorem execBlkMin_pending (e : Entry) (s : State) : KeepsPending (execBlkMin e s) s := by
  unfold execBlkMin
  simp

@[simp] theorem execBlkMax_pending (e : Entry) (s : State) : KeepsPending (execBlkMax e s) s := by
  unfold execBlkMax
  simp

@[simp] theorem execBlkLimit_pending (e : Entry) (s : State) : KeepsPending (execBlkLimit e s) s := by
  unfold execBlkLimit
  simp

@[simp] theorem execBlkEq_pending (e : Entry) (s : State) : KeepsPending (execBlkEq e s) s := by
  unfold execBlkEq
  simp

@[simp] theorem execBlkNe_pending (e : Entry) (s : State) : KeepsPending (execBlkNe e s) s := by
  unfold execBlkNe
  simp

@[simp] theorem execBlkGt_pending (e : Entry) (s : State) : KeepsPending (execBlkGt e s) s := by
  unfold execBlkGt
  simp

@[simp] theorem execBlkGe_pending (e : Entry) (s : State) : KeepsPending (execBlkGe e s) s := by
  unfold execBlkGe
  simp

@[simp] theorem execBlkLt_pending (e : Entry) (s : State) : KeepsPending (execBlkLt e s) s := by
  unfold execBlkLt
  simp

@[simp] theorem execBlkLe_pending (e : Entry) (s : State) : KeepsPending (execBlkLe e s) s := by
  unfold execBlkLe
  simp

@[simp] theorem execBlkMove_pending (e : Entry) (s : State) : KeepsPending (execBlkMove e s) s := by
  unfold execBlkMove
  simp

@[simp] theorem execBlkSel_pending (e : Entry) (s : State) : KeepsPending (execBlkSel e s) s := by
  unfold execBlkSel
  simp

@[simp] theorem execBlkPack16_pending (e : Entry) (s : State) : KeepsPending (execBlkPack16 e s) s := by
  unfold execBlkPack16
  simp

@[simp] theorem execBlkUnpack16_pending (e : Entry) (s : State) : KeepsPending (execBlkUnpack16 e s) s := by
  unfold execBlkUnpack16
  simp

@[simp] theorem execBlkBswap_pending (e : Entry) (s : State) : KeepsPending (execBlkBswap e s) s := by
  unfold execBlkBswap
  simp

@[simp] theorem execBlkI2q_pending (e : Entry) (s : State) : KeepsPending (execBlkI2q e s) s := by
  unfold execBlkI2q
  simp

@[simp] theorem execBlkQ2i_pending (e : Entry) (s : State) : KeepsPending (execBlkQ2i e s) s := by
  unfold execBlkQ2i
  simp

@[simp] theorem execBlkScale_pending (e : Entry) (s : State) : KeepsPending (execBlkScale e s) s := by
  unfold execBlkScale
  simp

@[simp] theorem execBlkQmul_pending (e : Entry) (s : State) : KeepsPending (execBlkQmul e s) s := by
  unfold execBlkQmul
  simp

@[simp] theorem execBlkQdiv_pending (e : Entry) (s : State) : KeepsPending (execBlkQdiv e s) s := by
  unfold execBlkQdiv
  simp

@[simp] theorem execBlkQsqrt_pending (e : Entry) (s : State) : KeepsPending (execBlkQsqrt e s) s := by
  unfold execBlkQsqrt
  simp

@[simp] theorem execBlkQmac_pending (e : Entry) (s : State) : KeepsPending (execBlkQmac e s) s := by
  unfold execBlkQmac
  simp

@[simp] theorem execBlkTon_pending (e : Entry) (s : State) : KeepsPending (execBlkTon e s) s := by
  unfold execBlkTon
  simp

@[simp] theorem execBlkTof_pending (e : Entry) (s : State) : KeepsPending (execBlkTof e s) s := by
  unfold execBlkTof
  simp

@[simp] theorem execBlkTp_pending (e : Entry) (s : State) : KeepsPending (execBlkTp e s) s := by
  unfold execBlkTp
  simp

@[simp] theorem execBlkCtu_pending (e : Entry) (s : State) : KeepsPending (execBlkCtu e s) s := by
  unfold execBlkCtu
  simp

@[simp] theorem execBlkCtd_pending (e : Entry) (s : State) : KeepsPending (execBlkCtd e s) s := by
  unfold execBlkCtd
  simp

@[simp] theorem execBlkPid_pending (e : Entry) (s : State) : KeepsPending (execBlkPid e s) s := by
  unfold execBlkPid
  simp

@[simp] theorem execBlkLag_pending (e : Entry) (s : State) : KeepsPending (execBlkLag e s) s := by
  unfold execBlkLag
  simp

@[simp] theorem execBlkRamp_pending (e : Entry) (s : State) : KeepsPending (execBlkRamp e s) s := by
  unfold execBlkRamp
  simp

@[simp] theorem execBlkInteg_pending (e : Entry) (s : State) : KeepsPending (execBlkInteg e s) s := by
  unfold execBlkInteg
  simp

@[simp] theorem execBlkDeriv_pending (e : Entry) (s : State) : KeepsPending (execBlkDeriv e s) s := by
  unfold execBlkDeriv
  simp

@[simp] theorem execBlkDband_pending (e : Entry) (s : State) : KeepsPending (execBlkDband e s) s := by
  unfold execBlkDband
  simp

@[simp] theorem execBlkHyst_pending (e : Entry) (s : State) : KeepsPending (execBlkHyst e s) s := by
  unfold execBlkHyst
  simp

@[simp] theorem execBlkLin_pending (e : Entry) (s : State) : KeepsPending (execBlkLin e s) s := by
  unfold execBlkLin
  simp

@[simp] theorem execBlkAvg_pending (e : Entry) (s : State) : KeepsPending (execBlkAvg e s) s := by
  unfold execBlkAvg
  simp

@[simp] theorem execBlkWmok_pending (e : Entry) (s : State) : KeepsPending (execBlkWmok e s) s := by
  unfold execBlkWmok
  simp

@[simp] theorem execBlkLaneok_pending (e : Entry) (s : State) : KeepsPending (execBlkLaneok e s) s := by
  unfold execBlkLaneok
  simp

@[simp] theorem execBlkFresh_pending (e : Entry) (s : State) : KeepsPending (execBlkFresh e s) s := by
  unfold execBlkFresh
  simp

@[simp] theorem execBlkInrange_pending (e : Entry) (s : State) : KeepsPending (execBlkInrange e s) s := by
  unfold execBlkInrange
  simp

@[simp] theorem execBlkLoadx_pending (e : Entry) (s : State) : KeepsPending (execBlkLoadx e s) s := by
  unfold execBlkLoadx
  simp

@[simp] theorem execBlkStorex_pending (e : Entry) (s : State) : KeepsPending (execBlkStorex e s) s := by
  unfold execBlkStorex
  simp

@[simp] theorem execApplyMark_pending (rest : Vector Nat 2) (s : State) : KeepsPending (execApplyMark rest s) s := by
  unfold execApplyMark
  simp

@[simp] theorem execCollectPass_pending (s : State) : KeepsPending (execCollectPass s) s := by
  unfold execCollectPass
  simp

@[simp] theorem execDeliverPass_pending (s : State) : KeepsPending (execDeliverPass s) s := by
  unfold execDeliverPass
  simp

@[simp] theorem execLanePassReturn_pending (f : LaneRx) (s : State) : KeepsPending (execLanePassReturn f s) s := by
  unfold execLanePassReturn
  simp

@[simp] theorem execLanePassLate_pending (s : State) : KeepsPending (execLanePassLate s) s := by
  unfold execLanePassLate
  simp

@[simp] theorem execHeardPass_pending (f : LaneRx) (s : State) : KeepsPending (execHeardPass f s) s := by
  unfold execHeardPass
  simp

@[simp] theorem execLaneSubdone_pending (served : List Served) (s : State) : KeepsPending (execLaneSubdone served s) s := by
  simp [execLaneSubdone, State.subDone_pending _ serve_aside]

@[simp] theorem execLaneCommit_pending (s : State) : KeepsPending (execLaneCommit s) s := by
  unfold execLaneCommit
  simp

@[simp] theorem execLaneEnable_pending (s : State) : KeepsPending (execLaneEnable s) s := by
  unfold execLaneEnable
  simp

@[simp] theorem execLaneDisable_pending (s : State) : KeepsPending (execLaneDisable s) s := by
  unfold execLaneDisable
  simp

@[simp] theorem execForcestart_pending (s : State) : KeepsPending (execForcestart s) s := by
  unfold execForcestart
  simp

@[simp] theorem execIdentPass_pending (s : State) : KeepsPending (execIdentPass s) s := by
  unfold execIdentPass
  simp

@[simp] theorem execRangePass_pending (station : Fin 32) (fromL2 : Bool) (rtt : Option Nat) (s : State) :
    KeepsPending (execRangePass station fromL2 rtt s) s := by
  unfold execRangePass
  simp

@[simp] theorem execConfigPass_pending (s : State) : KeepsPending (execConfigPass s) s := by
  unfold execConfigPass
  simp

@[simp] theorem execStartTimeout_pending (s : State) : KeepsPending (execStartTimeout s) s := by
  unfold execStartTimeout
  simp

@[simp] theorem execHeartbeat_pending (s : State) : KeepsPending (execHeartbeat s) s := by
  unfold execHeartbeat
  simp

@[simp] theorem execPeerHbPulse_pending (widthNs : Nat) (s : State) : KeepsPending (execPeerHbPulse widthNs s) s := by
  unfold execPeerHbPulse
  simp

@[simp] theorem execPeerHbLost_pending (s : State) : KeepsPending (execPeerHbLost s) s := by
  unfold execPeerHbLost
  simp

@[simp] theorem execWlvBcommit_pending (s : State) : KeepsPending (execWlvBcommit s) s := by
  unfold execWlvBcommit
  simp

@[simp] theorem execWayleaveDeadline_pending (s : State) : KeepsPending (execWayleaveDeadline s) s := by
  unfold execWayleaveDeadline
  simp

@[simp] theorem execWlvReqqPop_pending (m : Master) (s : State) : KeepsPending (execWlvReqqPop m s) s := by
  unfold execWlvReqqPop
  simp

@[simp] theorem execCollisionCheck_pending (s : State) : KeepsPending (execCollisionCheck s) s := by
  unfold execCollisionCheck
  simp

@[simp] theorem execPeerOwnChange_pending (level : Bool) (s : State) : KeepsPending (execPeerOwnChange level s) s := by
  unfold execPeerOwnChange
  simp

@[simp] theorem execInterlockStuck_pending (s : State) : KeepsPending (execInterlockStuck s) s := by
  unfold execInterlockStuck
  simp

@[simp] theorem execDrill_pending (s : State) : KeepsPending (execDrill s) s := by
  unfold execDrill
  simp

@[simp] theorem execDrillCheckEnd_pending (s : State) : KeepsPending (execDrillCheckEnd s) s := by
  unfold execDrillCheckEnd
  simp

@[simp] theorem execDrillRefused_pending (s : State) : KeepsPending (execDrillRefused s) s := by
  unfold execDrillRefused
  split <;> simp

@[simp] theorem execRevertReady_pending (s : State) : KeepsPending (execRevertReady s) s := by
  unfold execRevertReady
  simp

@[simp] theorem execTclr_pending (s : State) : KeepsPending (execTclr s) s := by
  unfold execTclr
  simp

@[simp] theorem execDmaGo_pending (n : Fin 32) (v : Word) (s : State) : KeepsPending (execDmaGo n v s) s := by
  unfold execDmaGo
  simp

@[simp] theorem execDmaDisable_pending (n : Option (Fin 32)) (s : State) : KeepsPending (execDmaDisable n s) s := by
  unfold execDmaDisable
  simp

@[simp] theorem execDmaFetchDone_pending (n : Fin 32) (s : State) : KeepsPending (execDmaFetchDone n s) s := by
  unfold execDmaFetchDone
  simp

@[simp] theorem execDmaGateAcquire_pending (n : Fin 32) (s : State) : KeepsPending (execDmaGateAcquire n s) s := by
  unfold execDmaGateAcquire
  simp

@[simp] theorem execDmaTrigger_pending (t : TrigSource) (s : State) : KeepsPending (execDmaTrigger t s) s := by
  unfold execDmaTrigger
  simp

@[simp] theorem execDmaBeat_pending (s : State) : KeepsPending (execDmaBeat s) s := by
  unfold execDmaBeat
  simp

@[simp] theorem execDmaWriteResponse_pending (n : Fin 32) (s : State) : KeepsPending (execDmaWriteResponse n s) s := by
  unfold execDmaWriteResponse
  simp

@[simp] theorem execDmaStopDone_pending (n : Fin 32) (s : State) : KeepsPending (execDmaStopDone n s) s := by
  unfold execDmaStopDone
  simp

@[simp] theorem execHostRead_pending (h : HostAddr) (s : State) : KeepsPending (execHostRead h s) s := by
  unfold execHostRead
  simp

@[simp] theorem execHostWrite_pending (h : HostAddr) (data : Half) (par : BitVec 2) (s : State) :
    KeepsPending (execHostWrite h data par s) s := by
  unfold execHostWrite
  simp

@[simp] theorem execHostWaitTimeout_pending (s : State) : KeepsPending (execHostWaitTimeout s) s := by
  unfold execHostWaitTimeout
  simp

@[simp] theorem execLocalWriteResponse_pending (s : State) : KeepsPending (execLocalWriteResponse s) s := by
  unfold execLocalWriteResponse
  simp

@[simp] theorem execFrameBuild_pending (w : Fin 16) (s : State) : KeepsPending (execFrameBuild w s) s := by
  unfold execFrameBuild
  simp

@[simp] theorem execCausewayWrite_pending (f : Option RxFrame) (s : State) : KeepsPending (execCausewayWrite f s) s := by
  unfold execCausewayWrite
  split <;> simp

@[simp] theorem execCausewayDone_pending (f : RxFrame) (s : State) : KeepsPending (execCausewayDone f s) s := by
  unfold execCausewayDone
  simp

@[simp] theorem execDoneTimeout_pending (w : Fin 16) (s : State) : KeepsPending (execDoneTimeout w s) s := by
  unfold execDoneTimeout
  simp

@[simp] theorem execCwyLogPop_pending (m : Master) (s : State) : KeepsPending (execCwyLogPop m s) s := by
  unfold execCwyLogPop
  simp

@[simp] theorem execTestlog_pending (s : State) : KeepsPending (execTestlog s) s := by
  unfold execTestlog
  simp

@[simp] theorem execScrub_pending (s : State) : KeepsPending (execScrub s) s := by
  unfold execScrub
  simp

@[simp] theorem execFlashProgram_pending (m : Master) (addr : Word) (be : BitVec 4) (v : Word) (s : State) :
    KeepsPending (execFlashProgram m addr be v s) s := by
  unfold execFlashProgram
  simp

@[simp] theorem execFlashProgramDone_pending (bankB : Bool) (s : State) :
    KeepsPending (execFlashProgramDone bankB s) s := by
  unfold execFlashProgramDone
  simp

@[simp] theorem execFlashErase_pending (m : Master) (v : Word) (s : State) : KeepsPending (execFlashErase m v s) s := by
  unfold execFlashErase
  simp

@[simp] theorem execFlashEraseDone_pending (bankB : Bool) (stuck : List (Nat × Byte)) (s : State) :
    KeepsPending (execFlashEraseDone bankB stuck s) s := by
  unfold execFlashEraseDone
  simp

@[simp] theorem execMemElogPop_pending (m : Master) (s : State) : KeepsPending (execMemElogPop m s) s := by
  unfold execMemElogPop
  simp

@[simp] theorem execInjection_pending (m : Master) (v : Word) (s : State) : KeepsPending (execInjection m v s) s := by
  unfold execInjection
  simp

@[simp] theorem execGateTryg_pending (m : Master) (g : Fin 32) (s : State) : KeepsPending (execGateTryg m g s) s := by
  unfold execGateTryg
  simp

@[simp] theorem execGateRelg_pending (m : Master) (g : Fin 32) (s : State) : KeepsPending (execGateRelg m g s) s := by
  unfold execGateRelg
  simp

@[simp] theorem execGateForceg_pending (m : Master) (g : Fin 32) (s : State) : KeepsPending (execGateForceg m g s) s := by
  unfold execGateForceg
  simp

@[simp] theorem execGateLeaseExpiry_pending (g : Fin 32) (s : State) : KeepsPending (execGateLeaseExpiry g s) s := by
  unfold execGateLeaseExpiry
  simp

@[simp] theorem execGateQpush_pending (m : Master) (q : Fin 16) (v : Word) (s : State) :
    KeepsPending (execGateQpush m q v s) s := by
  unfold execGateQpush
  simp

@[simp] theorem execGateQpop_pending (m : Master) (q : Fin 16) (s : State) : KeepsPending (execGateQpop m q s) s := by
  unfold execGateQpop
  simp

@[simp] theorem execGateQclr_pending (m : Master) (q : Fin 16) (v : Word) (s : State) :
    KeepsPending (execGateQclr m q v s) s := by
  unfold execGateQclr
  simp

@[simp] theorem execBootVerify_pending (v : Word) (s : State) : KeepsPending (execBootVerify v s) s := by
  unfold execBootVerify
  simp

@[simp] theorem execBootVerifyDone_pending (s : State) : KeepsPending (execBootVerifyDone s) s := by
  unfold execBootVerifyDone
  simp

@[simp] theorem execBootKick_pending (s : State) : KeepsPending (execBootKick s) s := by
  unfold execBootKick
  simp

@[simp] theorem execStewardWatchdog_pending (s : State) : KeepsPending (execStewardWatchdog s) s := by
  unfold execStewardWatchdog
  simp

@[simp] theorem execQuiesce_pending (m : Master) (p : Fin 8) (s : State) : KeepsPending (execQuiesce m p s) s := by
  unfold execQuiesce
  simp

@[simp] theorem execPartitionReset_pending (m : Master) (p : Fin 8) (bankB : Bool) (s : State) :
    KeepsPending (execPartitionReset m p bankB s) s := by
  unfold execPartitionReset
  simp

@[simp] theorem execRejoin_pending (m : Master) (p : Fin 8) (s : State) : KeepsPending (execRejoin m p s) s := by
  unfold execRejoin
  simp

@[simp] theorem execQuiesceComplete_pending (p : Fin 6) (s : State) : KeepsPending (execQuiesceComplete p s) s := by
  unfold execQuiesceComplete
  simp

@[simp] theorem execPartitionResetDone_pending (p : Fin 6) (s : State) : KeepsPending (execPartitionResetDone p s) s := by
  unfold execPartitionResetDone
  simp

@[simp] theorem execRejoinComplete_pending (p : Fin 6) (s : State) : KeepsPending (execRejoinComplete p s) s := by
  unfold execRejoinComplete
  simp

@[simp] theorem execKeyProgram_pending (slot : Fin 4) (s : State) : KeepsPending (execKeyProgram slot s) s := by
  unfold execKeyProgram
  simp

@[simp] theorem execKeyRevoke_pending (slot : Fin 4) (s : State) : KeepsPending (execKeyRevoke slot s) s := by
  unfold execKeyRevoke
  simp

@[simp] theorem execTapReset_pending (s : State) : KeepsPending (execTapReset s) s := by
  unfold execTapReset
  simp

@[simp] theorem execExtest_pending (pins cells : BitVec 225) (s : State) : KeepsPending (execExtest pins cells s) s := by
  unfold execExtest
  simp

@[simp] theorem execSamplePreload_pending (pins : BitVec 225) (cells : BitVec 225) (s : State) :
    KeepsPending (execSamplePreload pins cells s) s := by
  unfold execSamplePreload
  simp

@[simp] theorem execIdcode_pending (s : State) : KeepsPending (execIdcode s) s := by
  unfold execIdcode
  simp

@[simp] theorem execBypass_pending (tdi : Bool) (s : State) : KeepsPending (execBypass tdi s) s := by
  unfold execBypass
  simp

@[simp] theorem execDtmcs_pending (v : Word) (s : State) : KeepsPending (execDtmcs v s) s := by
  unfold execDtmcs
  simp

@[simp] theorem execDebugHalt_pending (h : Hart) (s : State) : KeepsPending (execDebugHalt h s) s := by
  unfold execDebugHalt
  simp

@[simp] theorem execDebugResume_pending (h : Hart) (s : State) : KeepsPending (execDebugResume h s) s := by
  unfold execDebugResume
  simp

@[simp] theorem execSingleStep_pending (h : Hart) (nextPc : Word) (s : State) :
    KeepsPending (execSingleStep h nextPc s) s := by
  unfold execSingleStep
  simp

@[simp] theorem execAbstractCommand_pending (h : Hart) (write : Bool) (regno : Half) (v : Word) (buf : BufOp) (s :
    State) :
    KeepsPending (execAbstractCommand h write regno v buf s) s := by
  unfold execAbstractCommand
  simp

@[simp] theorem execSystemBusRead_pending (addr : Word) (size : Size) (s : State) :
    KeepsPending (execSystemBusRead addr size s) s := by
  unfold execSystemBusRead
  simp

@[simp] theorem execSystemBusWrite_pending (addr : Word) (size : Size) (v : Word) (s : State) :
    KeepsPending (execSystemBusWrite addr size v s) s := by
  unfold execSystemBusWrite
  simp

@[simp] theorem execCrcOrFramingError_pending (edges : Nat) (sdi : Word) (s : State) :
    KeepsPending (execCrcOrFramingError edges sdi s) s := by
  unfold execCrcOrFramingError
  simp

@[simp] theorem execRefClkReturn_pending (s : State) : KeepsPending (execRefClkReturn s) s := by
  unfold execRefClkReturn
  simp

@[simp] theorem execClosureFail_pending (s : State) : KeepsPending (execClosureFail s) s := by
  unfold execClosureFail
  simp

@[simp] theorem execLastSymbolSent_pending (p : Fin 4) (s : State) : KeepsPending (execLastSymbolSent p s) s := by
  unfold execLastSymbolSent
  simp

@[simp] theorem execEthPauseExpiry_pending (e : Fin 2) (s : State) : KeepsPending (execEthPauseExpiry e s) s := by
  unfold execEthPauseExpiry
  simp

@[simp] theorem execEthFrameSent_pending (e : Fin 2) (collisions : List Bool) (s : State) :
    KeepsPending (execEthFrameSent e collisions s) s := by
  unfold execEthFrameSent
  simp

/-! ### The statements -/

theorem exec_pending (c : Instr) (s : State) : KeepsPending (exec c s) s := by
  cases c <;> simp [exec]

/-- Settles O52: each command's meaning keeps the queue, operation by operation. -/
theorem queueStays : Obligations.QueueStays := by
  unfold Obligations.QueueStays
  exact fun c s => exec_pending c s

/-- Settles O51: the first two clauses are the step's definition; the tick of log 5 is made of operations that keep the
queue. -/
theorem commandStep : Obligations.CommandStep := by
  unfold Obligations.CommandStep
  refine ⟨fun c s => rfl, fun c rest s h => ?_, fun s h => ⟨?_, (State.idle_pending s).trans h⟩⟩
  · unfold step
    rw [h]
  · unfold step
    rw [h]

end Sys2Proof.Machine

end

section

/-!
PROOF. The scrubber and error injection (15 R400, R407, R408): the check columns of the SECDED code, what a scrub read
and an injected full write leave.
-/

namespace Sys2Proof.Machine

/-! ### The check columns -/

/-- The parity of a syndrome. -/
def syndromeParity (c : BitVec 7) : Bool := (List.range 7).foldr (fun i p => c.getLsbD i ^^ p) false

theorem syndromeParity_xor (c d : BitVec 7) : syndromeParity (c ^^^ d) = (syndromeParity c ^^ syndromeParity d) := by
  unfold syndromeParity
  induction List.range 7 with
  | nil => rfl
  | cons i l ih =>
    rw [List.foldr_cons, List.foldr_cons, List.foldr_cons, ih, BitVec.getLsbD_xor, Bool.xor_assoc, Bool.xor_assoc,
      Bool.xor_left_comm (d.getLsbD i)]

theorem weight3_nodup : weight3.Nodup := by decide

theorem weight3_length : weight3.length = 35 := by decide

theorem mem_weight3 {c : BitVec 7} (h : c ∈ weight3) : ((List.range 7).filter c.getLsbD).length = 3 := by
  simpa using (List.mem_filter.1 h).2

theorem syndromeParity_weight3 : ∀ c ∈ weight3, syndromeParity c = true := by decide

/-- Picked columns are distinct columns of the list they are picked from. -/
theorem pickColumns_spec (n : Nat) (l : List (BitVec 7)) (hn : n ≤ l.length) (hl : l.Nodup) :
    (pickColumns n l).length = n ∧ (pickColumns n l).Nodup ∧ ∀ c ∈ pickColumns n l, c ∈ l := by
  induction n generalizing l with
  | zero => simp [pickColumns]
  | succ n ih =>
    have hi : Config.secdedPick n % l.length < l.length := Nat.mod_lt _ (by omega)
    obtain ⟨hlen, hnd, hsub⟩ := ih (l.eraseIdx (Config.secdedPick n % l.length))
      (by rw [List.length_eraseIdx_of_lt hi]; omega) (hl.eraseIdx _)
    have hd : l.getD (Config.secdedPick n % l.length) 0 = l[Config.secdedPick n % l.length] := by
      rw [List.getD_eq_getElem _ _ hi]
    have hnot : l[Config.secdedPick n % l.length] ∉ l.eraseIdx (Config.secdedPick n % l.length) := by
      rw [← hl.erase_getElem _ hi]
      exact hl.not_mem_erase
    simp only [pickColumns, hd, List.length_cons, hlen, List.nodup_cons, hnd, List.mem_cons, true_and, and_true]
    exact ⟨fun h => hnot (hsub _ h), fun c hc => hc.elim (fun e => e ▸ List.getElem_mem hi)
      fun h => List.mem_of_mem_eraseIdx (hsub c h)⟩

theorem secdedColumn_eq (b : Fin 32) :
    ∃ h : b.val < (pickColumns 32 weight3).length, secdedColumn b = (pickColumns 32 weight3)[b.val] := by
  have h := pickColumns_spec 32 weight3 (by simp [weight3_length]) weight3_nodup
  exact ⟨by omega, List.getD_eq_getElem _ _ _⟩

theorem secdedColumn_mem (b : Fin 32) : secdedColumn b ∈ weight3 := by
  obtain ⟨h, e⟩ := secdedColumn_eq b
  rw [e]
  exact (pickColumns_spec 32 weight3 (by simp [weight3_length]) weight3_nodup).2.2 _ (List.getElem_mem h)

theorem secdedColumn_injective : Function.Injective secdedColumn := by
  intro b c h
  obtain ⟨hb, eb⟩ := secdedColumn_eq b
  obtain ⟨hc, ec⟩ := secdedColumn_eq c
  rw [eb, ec] at h
  exact Fin.ext ((List.Nodup.getElem_inj_iff
    (pickColumns_spec 32 weight3 (by simp [weight3_length]) weight3_nodup).2.1).1 h)

theorem syndrome_check (b : Fin 32) (c : Fin 7) :
    (WordErr.check c).syndrome ≠ 0 ∧ (WordErr.check c).syndrome ≠ (WordErr.single b).syndrome := by
  have h : ∀ c : Fin 7, (WordErr.check c).syndrome ≠ 0 ∧ (WordErr.check c).syndrome ∉ weight3 := by decide
  exact ⟨(h c).1, fun e => (h c).2 (e ▸ secdedColumn_mem b)⟩

theorem syndrome_double {a b : Fin 32} (c : Fin 32) (h : a ≠ b) :
    (WordErr.double a b).syndrome ≠ 0 ∧ (WordErr.double a b).syndrome ≠ (WordErr.single c).syndrome := by
  have hp : ∀ x, syndromeParity (secdedColumn x) = true := fun x => syndromeParity_weight3 _ (secdedColumn_mem x)
  refine ⟨fun e => h (secdedColumn_injective (BitVec.xor_eq_zero_iff.1 e)), fun e => ?_⟩
  have := congrArg syndromeParity e
  simp [WordErr.syndrome, syndromeParity_xor, hp] at this

/-! ### A scrub read -/

theorem exec_scrub_whole {s : State} (hc : s.coreRuns = true) (hen : s.regBit Reg.MEM_CTL 0 = true)
    (hs : s.sys.splitAct.getLsbD 8 = false) :
    exec .scrub s = .next { s.scrubWord s.mem.scrubPos.toNat with
      mem.scrubPos := BitVec.ofNat 32 (scrubNext s.mem.scrubPos.toNat).1
      mem.scrubPass := if (scrubNext s.mem.scrubPos.toNat).2 then (s.scrubWord s.mem.scrubPos.toNat).mem.scrubPass + 1
        else (s.scrubWord s.mem.scrubPos.toNat).mem.scrubPass } := by
  show Host.Outcome.next (s.when s.coreRuns State.scrub) = _
  rw [State.when_true _ hc, State.scrub, hen, hs]
  rfl

theorem State.scrubWord_noError {a : Nat} {s : State} (he : s.wordErr a = none) : s.scrubWord a = s := by
  rw [State.scrubWord, he]

theorem State.scrubWord_err {a : Nat} {e : WordErr} {s : State} (he : s.wordErr a = some e) :
    s.scrubWord a = match e with
      | .single b => ((s.putWord a (s.wordAt a ^^^ BitVec.ofNat 32 (2 ^ b.val))).setErr a none).eccCe 1 5 a e
      | .check _ => ((s.putWord a (s.wordAt a)).setErr a none).eccCe 1 5 a e
      | _ => (s.setErr a (some .poison)).eccUe 3 5 a e := by
  unfold State.scrubWord
  cases e <;> simp [he, WordErr.corrected]

/-! ### An error counted and logged -/

theorem State.memLog_room (kind region : Nat) (src : Byte) (synd addr : Nat) {s : State} (h : s.mem.log.length < 16) :
    (s.memLog kind region src synd addr).evt = s.evt ∧ (s.memLog kind region src synd addr).mem.ce = s.mem.ce ∧
      (s.memLog kind region src synd addr).mem.errs = s.mem.errs ∧
      (s.memLog kind region src synd addr).mem.log.length = s.mem.log.length + 1 := by
  simp [State.memLog, h]

theorem State.eccCe_log (k : Nat) (src : Byte) (a : Nat) (e : WordErr) {s : State} (h : s.mem.log.length < 16) :
    (s.eccCe k src a e).mem.ce = satSucc s.mem.ce ∧ (s.eccCe k src a e).mem.log.length = s.mem.log.length + 1 ∧
    (s.eccCe k src a e).mem.cells = s.mem.cells ∧ (s.eccCe k src a e).mem.errs = s.mem.errs ∧
    (s.eccCe k src a e).evt.raw = setBit s.evt.raw 232 ∧ (s.eccUe k src a e).evt.raw = setBit s.evt.raw 233 := by
  have hc := State.memLog_room k (if a < 0x20000000 then 0 else 1) src e.syndrome.toNat a
    (s := { s with mem.ce := satSucc s.mem.ce }) h
  have hu := State.memLog_room k (if a < 0x20000000 then 0 else 1) src e.syndrome.toNat a
    (s := { s with mem.ue := satSucc s.mem.ue }) h
  have hk := State.memLog_keeps k (if a < 0x20000000 then 0 else 1) src e.syndrome.toNat a
    { s with mem.ce := satSucc s.mem.ce }
  obtain ⟨hevt, hce, herrs, hlen⟩ := hc
  simp only [State.eccCe, State.eccUe, State.raise_mem, State.raise_evt_raw, hevt, hce, herrs, hlen, hk.2.1, hu.1, and_self]

/-! ### An injected write -/

theorem State.injects_injAddr {s : State} (h : s.regBit Reg.MEM_INJECT 31 = true) : s.injects s.injAddr = true := by
  have hlt := (s.reg Reg.MEM_INJADDR).isLt
  have hfld : (s.reg Reg.MEM_INJADDR).toNat / 2 ^ 2 % 2 ^ 30 * 4 = (s.reg Reg.MEM_INJADDR).toNat / 4 * 4 := by omega
  rw [State.injects, h, State.injAddr, State.regFld, fld, hfld, Bool.true_and, decide_eq_true rfl]

theorem exec_injection_made {m : Master} (v : Word) {s : State} (ha : s.accesses m true s.injAddr = true)
    (h : s.regBit Reg.MEM_INJECT 31 = true) (hr : memRegion? s.injAddr = some .sram) :
    exec (.injection m v) s = .next (s.eccFullWrite s.injAddr v) := by
  simp [exec, execInjection, State.access_made _ ha, State.inject, hr, h]

theorem State.eccFullWrite_injected {a : Nat} (v : Word) (b : Fin 32) {s : State} (hi : s.injects a = true)
    (hb : s.regFld Reg.MEM_INJECT 0 5 = b.val) :
    s.eccFullWrite a v = ((s.putWord a (v ^^^ BitVec.ofNat 32
        (2 ^ b.val + if s.regBit Reg.MEM_INJECT 30 then 2 ^ (b + 1).val else 0))).setErr a
      (some (if s.regBit Reg.MEM_INJECT 30 then WordErr.double b (b + 1) else .single b))).setReg Reg.MEM_INJECT
        (clrBit (s.reg Reg.MEM_INJECT) 31) := by
  have hm : s.regFld Reg.MEM_INJECT 0 5 % 32 = b.val := hb.symm ▸ Nat.mod_eq_of_lt b.isLt
  rw [State.eccFullWrite, if_pos hi]
  simp only [hm]

/-- Settles O48, clause by clause from the lemmas of this part. -/
theorem memoryErrors : Obligations.MemoryErrors := by
  unfold Obligations.MemoryErrors
  refine ⟨fun s hc hen hs he => ?_, fun e s hc hen hs he => ?_,
    fun src k a e s h => State.eccCe_log k src a e h, fun m v b s ha h hb hr => ?_,
    fun b => mem_weight3 (secdedColumn_mem b), fun b c h => secdedColumn_injective h, syndrome_check,
    fun a b c h => syndrome_double c h⟩
  · rw [exec_scrub_whole hc hen hs, State.scrubWord_noError he]
  · refine ⟨_, exec_scrub_whole hc hen hs, ?_, rfl⟩
    rw [State.scrubWord_err he]
    cases e <;> rfl
  · have hi := State.eccFullWrite_injected v b (State.injects_injAddr h) hb
    rw [exec_injection_made v ha h hr, hi]
    exact ⟨fun h30 => by simp [h30], fun h30 => by simp [h30]⟩

end Sys2Proof.Machine

end

section

/-!
PROOF. The flash's commands (15 R411 to R413): a word program, a refused one, an erase begun, refused and ended, and a
popped entry of the memory log.
-/

namespace Sys2Proof.Machine

/-! ### What the operations on the flash keep -/

theorem State.memLog_result (kind region : Nat) (src : Byte) (synd addr : Nat) (s : State) :
    (s.memLog kind region src synd addr).mem.fresult = s.mem.fresult ∧
      (s.memLog kind region src synd addr).mem.fresult2 = s.mem.fresult2 := by
  unfold State.memLog
  dsimp only
  split <;> simp

theorem State.flashResult_result (src : Byte) (a code : Nat) (s : State) :
    (s.flashResult src a code).mem.fresult = BitVec.ofNat 32 a ∧
      (s.flashResult src a code).mem.fresult2 = BitVec.ofNat 4 code := by
  unfold State.flashResult
  dsimp only
  split
  · exact ⟨rfl, rfl⟩
  · rw [State.raiseIf_mem, State.raise_mem]
    exact State.memLog_result ..

theorem State.byte_flashResult (src : Byte) (a code x : Nat) (s : State) :
    (s.flashResult src a code).byte x = s.byte x := by
  rw [State.byte, (State.flashResult_keeps src a code s).2.1, State.byte]

theorem State.byte_setFlashBusy (bankB : Bool) (o : Option (Option (BitVec 10))) (x : Nat) (s : State) :
    (s.setFlashBusy bankB o).byte x = s.byte x := by
  cases bankB <;> rfl

theorem State.slotTouched_mem (sector : Nat) (s : State) : (s.slotTouched sector).mem = s.mem := by
  unfold State.slotTouched
  dsimp only
  (repeat' split) <;> rfl

theorem State.byte_slotTouched (sector x : Nat) (s : State) : (s.slotTouched sector).byte x = s.byte x := by
  rw [State.byte, State.slotTouched_mem, State.byte]

/-! ### A word program -/

theorem exec_flashProgram_made {m : Master} {addr : Word} (be : BitVec 4) (v : Word) {s : State}
    (ha : s.accesses m true addr.toNat = true) :
    exec (.flashProgram m addr be v) s = .next (s.flashBeat m addr be v) :=
  congrArg Host.Outcome.next (State.access_made _ ha)

theorem State.flashBeat_permitted {m : Master} {addr : Word} (be : BitVec 4) (v : Word) {s : State} (h : addr.toNat < 0x400000)
    (hc : s.flashWriteCode m addr.toNat = 0) : s.flashBeat m addr be v = s.flashProgram m addr.toNat be v := by
  simp only [State.flashBeat, Nat.not_le.2 h, hc, if_true, if_false]

theorem State.flashBeat_refused {m : Master} {addr : Word} (be : BitVec 4) (v : Word) {s : State} (h : addr.toNat < 0x400000)
    (hc : s.flashWriteCode m addr.toNat ≠ 0) : s.flashBeat m addr be v =
      (s.flashResult (masterCode m) addr.toNat (s.flashWriteCode m addr.toNat)).accFault m true addr.toNat := by
  simp only [State.flashBeat, Nat.not_le.2 h, hc, if_false, State.flashProgram, ne_eq, not_false_eq_true, if_true]

theorem State.flashBeat_beyond {m : Master} {addr : Word} (be : BitVec 4) (v : Word) {s : State} (h : 0x400000 ≤ addr.toNat) :
    s.flashBeat m addr be v = s.accFault m true addr.toNat := if_pos h

theorem State.byte_flashProgram {m : Master} {a : Nat} (be : BitVec 4) (v : Word) {s : State}
    (hc : s.flashWriteCode m a = 0) (x : Nat) : (s.flashProgram m a be v).byte x =
      if a / 4 * 4 ≤ x ∧ x < a / 4 * 4 + 4 ∧ be.getLsbD (x % 4) = true
      then s.byte x &&& (v >>> (8 * (x % 4))).setWidth 8 else s.byte x := by
  simp only [State.flashProgram, hc, ne_eq, not_true_eq_false, if_false, State.byte_slotTouched, State.byte_setFlashBusy,
    State.byte_flashResult, State.byte_flashAnd]
  by_cases hx : a / 4 * 4 ≤ x ∧ x < a / 4 * 4 + 4
  · have hk : x - a / 4 * 4 = x % 4 := by omega
    rw [hk]
  · rw [if_neg fun h => hx ⟨h.1, h.2.1⟩, if_neg fun h => hx ⟨h.1, h.2.1⟩]

theorem exec_flashProgramDone_frees {bankB : Bool} {s : State}
    (h : (if bankB then s.mem.busyB else s.mem.busyA) = some none) :
    exec (.flashProgramDone bankB) s = .next
      (if bankB then { s with mem.busyB := none } else { s with mem.busyA := none }) := by
  show Host.Outcome.next (s.programDone bankB) = _
  rw [State.programDone, h]
  rfl

/-! ### An erase -/

theorem exec_flashErase_made {m : Master} (v : Word) {s : State} (ha : s.accesses m true Reg.MEM_FERASE = true) :
    exec (.flashErase m v) s = .next (s.eraseAsked m v) :=
  congrArg Host.Outcome.next (State.access_made _ ha)

theorem State.eraseAsked_permitted {m : Master} {v : Word} {s : State} (hv : v.getLsbD 31 = true)
    (hc : s.flashEraseCode m (fld v 0 10) = 0) : s.eraseAsked m v = s.flashStartErase (fld v 0 10) := by
  simp only [State.eraseAsked, State.flashErase, hv, hc, ne_eq, not_true_eq_false, and_false, if_false, Bool.not_true,
    Bool.false_eq_true]

theorem State.eraseAsked_refused {m : Master} {v : Word} {s : State} (hv : v.getLsbD 31 = true)
    (hc : s.flashEraseCode m (fld v 0 10) ≠ 0) :
    s.eraseAsked m v = (s.flashErase m v).accFault m true Reg.MEM_FERASE := if_pos ⟨hv, hc⟩

theorem State.flashStartErase_counts (sector : Nat) (s : State) :
    (s.flashStartErase sector).wear sector = s.wear sector + 1 ∧
      (s.flashStartErase sector).flashBusy sector = some (some (BitVec.ofNat 10 sector)) ∧
      (s.flashStartErase sector).mem.cells = s.mem.cells := by
  simp only [State.flashStartErase, State.wear, State.flashBusy, State.slotTouched_mem, State.setFlashBusy]
  by_cases h : sector < 512
  · simp [h, Nat.not_le.2 h, sget_sput]
  · simp [h, Nat.not_lt.1 h, sget_sput]

/-- An erase that leaves no bit stuck empties its sector and frees the sector's bank. -/
theorem State.flashEraseEnd_clean (sector : Nat) (s : State) :
    (∀ x, (s.flashEraseEnd sector []).byte x =
      if 4096 * sector ≤ x ∧ x < 4096 * sector + 4096 then Memory.unlisted x else s.byte x) ∧
    (if 512 ≤ sector then (s.flashEraseEnd sector []).mem.busyB else (s.flashEraseEnd sector []).mem.busyA) = none ∧
    (s.flashEraseEnd sector []).mem.saveErase = s.mem.saveErase ∧
    (s.flashEraseEnd sector []).fbk.eraseWait = s.fbk.eraseWait := by
  simp only [State.flashEraseEnd, List.filter_nil]
  refine ⟨fun x => ?_, ?_, ?_, ?_⟩
  · rw [State.byte_flashResult, ← State.byte_eraseRange]
    exact State.byte_setFlashBusy ..
  all_goals by_cases h : 512 ≤ sector <;> simp [State.flashResult, State.setFlashBusy, State.eraseRange, h]

theorem State.fbEraseNext_none {bankB : Bool} {s : State} (h : s.fbk.eraseWait = []) : s.fbEraseNext bankB = s := by
  rw [State.fbEraseNext, h]
  rfl

theorem State.byte_saveEraseNext_none {s : State} (h : s.mem.saveErase = []) (x : Nat) : s.saveEraseNext.byte x = s.byte x := by
  unfold State.saveEraseNext State.when
  split
  · rw [h]
    rfl
  · rfl

theorem State.byte_eraseDone_clean {bankB : Bool} {sec : BitVec 10} {s : State}
    (hbusy : (if bankB then s.mem.busyB else s.mem.busyA) = some (some sec)) (hbank : 512 ≤ sec.toNat ↔ bankB = true)
    (hring : fbRing sec.toNat = none) (hsave : s.mem.saveErase = []) (hwait : s.fbk.eraseWait = []) (x : Nat) :
    (s.eraseDone bankB []).byte x = (s.flashEraseEnd sec.toNat []).byte x := by
  obtain ⟨-, hfree, hsave', hwait'⟩ := State.flashEraseEnd_clean sec.toNat s
  rw [if_congr hbank rfl rfl] at hfree
  simp only [State.eraseDone, hbusy, hring, hfree]
  rw [State.fbEraseNext_none (hwait'.trans hwait), State.byte_saveEraseNext_none (hsave'.trans hsave)]

/-! ### The statement -/

/-- Settles O47: for a word program and an erase the operations' own lemmas; that a refused erase, whatever its code, is
answered with an access fault is the model's reading (log 185). -/
theorem flashServes : Obligations.FlashServes := by
  unfold Obligations.FlashServes
  refine ⟨fun m addr be v s hlt ha hc => ?_, fun m addr be v s hlt ha hc => ?_, fun m addr be v s hge ha => ?_,
    fun bankB s h => exec_flashProgramDone_frees h, fun m v s ha hv hc => ?_, fun m v s ha hv hc => ?_,
    fun bankB sec s hbusy hbank hring hsave hwait => ⟨_, rfl, fun x => ?_⟩, fun m e rest s ha hlog => ?_⟩
  · exact ⟨_, exec_flashProgram_made be v ha, fun x => by
      rw [State.flashBeat_permitted be v hlt hc, State.byte_flashProgram be v hc]⟩
  · obtain ⟨hres, hres2⟩ := State.flashResult_result (masterCode m) addr.toNat (s.flashWriteCode m addr.toNat) s
    refine ⟨?_, (State.flashResult_keeps ..).2.1, ?_, hres2⟩
    · rw [exec_flashProgram_made be v ha, State.flashBeat_refused be v hlt hc]
    · rw [hres, BitVec.ofNat_toNat, BitVec.setWidth_eq]
  · rw [exec_flashProgram_made be v ha, State.flashBeat_beyond be v hge]
  · refine ⟨_, exec_flashErase_made v ha, ?_⟩
    rw [State.eraseAsked_permitted hv hc]
    exact State.flashStartErase_counts (fld v 0 10) s
  · obtain ⟨-, hcells, hwear⟩ :=
      State.flashResult_keeps (masterCode m) (4096 * fld v 0 10) (s.flashEraseCode m (fld v 0 10)) s
    refine ⟨by rw [exec_flashErase_made v ha, State.eraseAsked_refused hv hc], ?_⟩
    rw [State.flashErase_refused hv hc]
    exact ⟨hwear, hcells, (State.flashResult_result ..).2⟩
  · rw [State.byte_eraseDone_clean hbusy hbank hring hsave hwait, (State.flashEraseEnd_clean sec.toNat s).1 x]
    have := sec.isLt
    refine ite_congr rfl (fun h => ?_) fun _ => rfl
    exact if_pos (by omega)
  · show Host.Outcome.next (s.access m false Reg.MEM_ELOG0 _) = _
    rw [State.access_made _ ha, State.elogPop, hlog]
    simp [State.emit, State.elogWord, hlog]

end Sys2Proof.Machine

end

section

/-!
PROOF. The heartbeat and the interlock of a unit pair (12 R327, R328, R336, R337, R346): pulses sent and heard, the
collision check, the level of PEER_OWN_N and a stuck interlock.
-/

namespace Sys2Proof.Machine

/-! ### The heartbeat -/

theorem exec_heartbeat_off {s : State} (h : s.wlv.hbRuns = false ∨ s.bankOn 3 = false ∨ s.pinsReset = true) :
    exec .heartbeat s = .next s := by
  show Host.Outcome.next (s.when s.coreRuns _) = _
  unfold State.when
  rcases h with h | h | h <;> simp [h]

theorem exec_heartbeat_on {s : State} (hc : s.coreRuns = true) (hr : s.wlv.hbRuns = true) (hb : s.bankOn 3 = true)
    (hp : s.pinsReset = false) :
    exec .heartbeat s = .next { s with out := s.out ++ [.heartbeat (if s.sys.straps.pref then 20 else 10)] } := by
  show Host.Outcome.next (s.when s.coreRuns _) = _
  rw [State.when_true _ hc, hr, hb, hp]
  rfl

/-- The widths of a valid pulse at PEER_HB. -/
def HbValid (w : Nat) : Prop := (7000 ≤ w ∧ w ≤ 13000) ∨ (16000 ≤ w ∧ w ≤ 24000)

theorem State.hbPulse_valid {w : Nat} {s : State} (hp : s.sys.phase = .running) (hw : HbValid w) :
    s.hbPulse w =
      (((({ s with
          wlv.pulses := s.wlv.pulses + 1
          wlv.peerPref := decide (16000 ≤ w)
          wlv.hbRun := if s.wlv.hbok || !s.wlv.hbok && decide (3 ≤ s.wlv.hbRun + 1) then 0 else s.wlv.hbRun + 1
          wlv.hbok := s.wlv.hbok || !s.wlv.hbok && decide (3 ≤ s.wlv.hbRun + 1) } : State).raiseIf
            (!s.wlv.hbok && decide (3 ≤ s.wlv.hbRun + 1)) 214).prefCheck (s.dupPref, s.noPref)).wlvSync) := by
  have hv : (!(decide (7000 ≤ w) && decide (w ≤ 13000) || decide (16000 ≤ w) && decide (w ≤ 24000))) = false := by
    simp only [HbValid] at hw
    simp
    omega
  have hhigh : (decide (16000 ≤ w) && decide (w ≤ 24000)) = decide (16000 ≤ w) := by
    rcases hw with h | h <;> simp <;> omega
  rw [State.hbPulse, if_neg (not_not.2 hp), hv, hhigh]
  rfl

theorem exec_peerHbPulse_good {w : Nat} {s : State} (hp : s.sys.phase = .running) (hw : HbValid w) (hok : s.wlv.hbok = true) :
    exec (.peerHbPulse w) s = .next ((({ s with
      wlv.pulses := s.wlv.pulses + 1, wlv.peerPref := decide (16000 ≤ w), wlv.hbRun := 0 } : State).prefCheck
        (s.dupPref, s.noPref)).wlvSync) := by
  refine congrArg Host.Outcome.next ((State.hbPulse_valid hp hw).trans ?_)
  simp [State.raiseIf, State.when, hok]

theorem exec_peerHbPulse_counted {w : Nat} {s : State} (hp : s.sys.phase = .running) (hw : HbValid w)
    (hok : s.wlv.hbok = false) (hrun : s.wlv.hbRun < 2) :
    exec (.peerHbPulse w) s = .next ((({ s with
      wlv.pulses := s.wlv.pulses + 1, wlv.peerPref := decide (16000 ≤ w), wlv.hbRun := s.wlv.hbRun + 1 } : State).prefCheck
        (s.dupPref, s.noPref)).wlvSync) := by
  refine congrArg Host.Outcome.next ((State.hbPulse_valid hp hw).trans ?_)
  have h3 : decide (3 ≤ s.wlv.hbRun + 1) = false := decide_eq_false (by omega)
  rw [h3]
  simp [State.raiseIf, State.when, hok]

theorem exec_peerHbPulse_regained {w : Nat} {s : State} (hp : s.sys.phase = .running) (hw : HbValid w)
    (hok : s.wlv.hbok = false) (hrun : s.wlv.hbRun = 2) :
    exec (.peerHbPulse w) s = .next (((State.raise 214 { s with
      wlv.pulses := s.wlv.pulses + 1, wlv.peerPref := decide (16000 ≤ w), wlv.hbRun := 0, wlv.hbok := true }).prefCheck
        (s.dupPref, s.noPref)).wlvSync) := by
  refine congrArg Host.Outcome.next ((State.hbPulse_valid hp hw).trans ?_)
  rw [hok, hrun]
  rfl

theorem exec_peerHbPulse_invalid {w : Nat} {s : State} (hp : s.sys.phase = .running)
    (hw : w < 7000 ∨ (13000 < w ∧ w < 16000) ∨ 24000 < w) : exec (.peerHbPulse w) s = .next { s with wlv.hbRun := 0 } := by
  have hv : (!(decide (7000 ≤ w) && decide (w ≤ 13000) || decide (16000 ≤ w) && decide (w ≤ 24000))) = true := by
    simp
    omega
  show Host.Outcome.next (s.hbPulse w) = _
  rw [State.hbPulse, if_neg (not_not.2 hp), hv]
  rfl

theorem exec_peerHbLost_lost {s : State} (hc : s.coreRuns = true) (hok : s.wlv.hbok = true) :
    exec .peerHbLost s = .next ((State.raise 214 { s with wlv.hbok := false, wlv.hbRun := 0 }).wlvSync) := by
  show Host.Outcome.next (s.when s.coreRuns _) = _
  rw [State.when_true _ hc, if_pos hok]

/-! ### The interlock -/

theorem exec_collisionCheck_quiet {s : State} (hc : s.coreRuns = true) (ho : s.sys.ownOutN = false)
    (hcl : s.wlv.claimed = false) (hp : s.peerOwn = false) :
    exec .collisionCheck s = .next { s with wlv.claimed := true } := by
  show Host.Outcome.next (s.when s.coreRuns State.collisionCheck) = _
  rw [State.when_true _ hc, State.collisionCheck, ho, hcl, hp]
  rfl

/-- With both outputs low, the loser by preference, or by unit without the heartbeat, releases and backs off. -/
theorem exec_collisionCheck_both {s : State} (hc : s.coreRuns = true) (ho : s.sys.ownOutN = false)
    (hcl : s.wlv.claimed = false) (hp : s.peerOwn = true) :
    exec .collisionCheck s = .next (if (if s.wlv.hbok then !s.epref else s.unitB) = true
      then { (s.raise 215).ownRelease with wlv.backoff := true, wlv.ilClaim := false }
      else { s.raise 215 with wlv.claimed := true }) := by
  have hloses : (if (s.raise 215).wlv.hbok then !(s.raise 215).epref else (s.raise 215).unitB) =
      (if s.wlv.hbok then !s.epref else s.unitB) := by
    simp only [State.epref, State.unitB, State.raise_wlv, State.raise_sys]
  show Host.Outcome.next (s.when s.coreRuns State.collisionCheck) = _
  rw [State.when_true _ hc, State.collisionCheck, ho, hcl, hp]
  simp only [hloses, Bool.or_self, Bool.false_eq_true, if_false, Bool.not_true]

theorem exec_peerOwnChange_plain {level : Bool} {s : State} (hl : s.sys.peerOwnN = !level) (hp : s.sys.phase = .running)
    (hb : s.wlv.state ≠ .blocked) :
    exec (.peerOwnChange level) s = .next (State.wlvSync { s with sys.peerOwnN := level, wlv.peerClear := level }) := by
  show Host.Outcome.next (s.peerOwnSet level) = _
  rw [State.peerOwnSet, if_neg (by simp [hl])]
  dsimp only
  rw [if_neg (not_not.2 hp), if_neg fun h => hb h.1]

theorem exec_peerOwnChange_unblocks {s : State} (hl : s.sys.peerOwnN = false) (hp : s.sys.phase = .running)
    (hb : s.wlv.state = .blocked) :
    exec (.peerOwnChange true) s = .next (let u := State.driveEnd { s with sys.peerOwnN := true, wlv.peerClear := true }
      ({ u with wlv.state := u.standbyState }).wlvSync) := by
  show Host.Outcome.next (s.peerOwnSet true) = _
  rw [State.peerOwnSet, if_neg (by simp [hl])]
  dsimp only
  rw [if_neg (not_not.2 hp), if_pos ⟨hb, rfl⟩]

theorem State.wlvShot_il (req : Nat) (s : State) : (s.wlvShot req).wlv.il = s.wlv.il := by
  unfold State.wlvShot State.wlvSend
  dsimp only
  split
  · rfl
  · split
    · unfold State.wlvReqRx
      dsimp only
      (repeat' split) <;> rfl
    · exact congrArg (·.wlv.il) (State.Sent.sendMgmt _ _ _ (State.Sent.refl _))

theorem State.laneOffDrive_wlv (s : State) : s.laneOffDrive.wlv = s.wlv := by
  unfold State.laneOffDrive State.laneTo
  dsimp only
  (repeat' split) <;> simp

theorem State.driveEnd_il (s : State) : s.driveEnd.wlv.il = s.wlv.il := by
  have hdrill : ∀ t : State, (t.drillEnd false).wlv.il = t.wlv.il := fun t => by
    rw [State.drillEnd, Bool.not_false, State.when_true _ rfl, State.wlvShot_il, State.raise_wlv]
  unfold State.driveEnd State.ownRelease
  dsimp only
  split
  · rw [State.laneOffDrive_wlv]
    unfold State.when
    split
    · rw [hdrill, State.raise_wlv]
    · rw [State.raise_wlv]
  · rfl

/-- The peer asserts while this unit drives with its claim: the drive ends (R337). -/
theorem State.wlvRun_peerOwn {s : State} (hperm : s.lane.perm = true) (hp : s.peerOwn = true) (ho : s.wlv.ovr = false)
    (hcl : s.wlv.claimed = true) (hil : s.wlv.il = false) (hst : s.wlv.state = .active) :
    s.wlvRun = { (s.raise 215).driveEnd with wlv.state := .standby } := by
  have hb : (s.raise 215).driveEnd.standbyState = .standby := by
    rw [State.standbyState, State.driveEnd_il, State.raise_wlv, hil]
    rfl
  have h0 : ¬ (s.wlv.state = .idle ∨ s.wlv.state = .standby ∨ s.wlv.state = .ilStandby) := by simp [hst]
  have h1 : ¬ (s.wlv.ovr && !s.overrideOk) = true := by simp [ho]
  have h2 : (s.lane.perm && s.peerOwn && !s.wlv.ovr && s.wlv.claimed) = true := by simp [hperm, hp, ho, hcl]
  rw [State.wlvRun, if_neg h0]
  dsimp only
  rw [if_neg h1, if_pos h2, hb]

theorem exec_interlockStuck_hb {s : State} (hc : s.coreRuns = true) (hp : s.peerOwn = true) (hb : s.wlv.byteMe = true)
    (hok : s.wlv.hbok = true) : exec .interlockStuck s = .next (s.raise 215) := by
  show Host.Outcome.next (s.when s.coreRuns State.interlockStuck) = _
  rw [State.when_true _ hc, State.interlockStuck, hp, hb, hok]
  rfl

theorem exec_interlockStuck_blocks {s : State} (hc : s.coreRuns = true) (hp : s.peerOwn = true) (hb : s.wlv.byteMe = true)
    (hok : s.wlv.hbok = false) (hst : s.wlv.state = .standby) :
    exec .interlockStuck s = .next
      (((({ s with wlv.state := .blocked } : State).raise 216).spFaultCode 0x0C03)).wlvSync := by
  show Host.Outcome.next (s.when s.coreRuns State.interlockStuck) = _
  rw [State.when_true _ hc, State.interlockStuck, hp, hb, hok]
  simp only [Bool.not_true, Bool.or_self, Bool.false_eq_true, if_false, hst, if_true]

/-- Settles O40, clause by clause from the lemmas of this part; that PEER_OWN_N high again counts as the 5 us of R336
having passed is the model's reading (log 27). -/
theorem heartbeatServes : Obligations.HeartbeatServes := by
  unfold Obligations.HeartbeatServes
  refine ⟨fun s h => exec_heartbeat_off h, fun s => exec_heartbeat_on, fun w s => exec_peerHbPulse_good,
    fun w s => exec_peerHbPulse_counted, fun w s => exec_peerHbPulse_regained, fun w s => exec_peerHbPulse_invalid,
    fun w s hp => congrArg Host.Outcome.next (if_pos hp), fun s => exec_peerHbLost_lost, fun s => exec_collisionCheck_quiet,
    fun s hc ho hcl hp hl => ?_, fun s hc ho hcl hp hl => ?_, fun s h => exec_peerOwnChange_plain h,
    fun s h => exec_peerOwnChange_plain h, fun s => exec_peerOwnChange_unblocks, fun s => State.wlvRun_peerOwn,
    fun s => exec_interlockStuck_hb, fun s => exec_interlockStuck_blocks⟩
  · rw [exec_collisionCheck_both hc ho hcl hp, hl]
    rfl
  · rw [exec_collisionCheck_both hc ho hcl hp, hl]
    rfl

end Sys2Proof.Machine

end

section

/-!
PROOF. Wayleaves (12 R329 to R345): a byte that grants and one that revokes, the lease, requests and their repetition, the
steward's path at the benchmark, drills, REVERT and the track counters.
-/

namespace Sys2Proof.Machine

/-! ### The byte and the lease -/

theorem State.shotsAnswered_noShots {me changed : Bool} {s : State} (h : s.wlv.shots = []) :
    (s.shotsAnswered me changed).evt = s.evt ∧ (s.shotsAnswered me changed).wlv =
      { s.wlv with drillWait := if changed then none else s.wlv.drillWait } := by
  simp only [State.shotsAnswered, h, List.any_nil, Bool.and_false, Bool.false_eq_true, if_false, List.filter_nil, true_and]

theorem State.byteGrant_fresh (lease : Nat) {s : State} (hheld : s.wlv.held = false) (hshots : s.wlv.shots = [])
    (hst : s.wlv.state = .standby) :
    (s.byteGrant lease).wlv.held = true ∧ (s.byteGrant lease).wlv.left = BitVec.ofNat 4 lease ∧
      (s.byteGrant lease).wlv.holding = false ∧ (s.byteGrant lease).wlv.renewed = true ∧
      (s.byteGrant lease).evt.raw = setBit s.evt.raw 208 ∧ (s.byteGrant lease).wlv.state = .standby := by
  have hraise : s.raiseIf (!s.wlv.held) 208 = s.raise 208 := by simp [State.raiseIf, State.when, hheld]
  rw [State.byteGrant, hraise]
  dsimp only
  obtain ⟨hevt, hwlv⟩ := State.shotsAnswered_noShots (me := true) (changed := !(s.raise 208).wlv.byteMe) (s := { s.raise 208 with
    wlv.handover := if !s.wlv.held then (s.raise 208).wlv.bytePeer && (s.raise 208).wlv.hbok &&
      !(s.raise 208).wlv.shots.any (·.1 == 5) else (s.raise 208).wlv.handover
    wlv.left := BitVec.ofNat 4 lease
    wlv.held := true
    wlv.holding := false
    wlv.renewed := true
    wlv.state := if (s.raise 208).wlv.state = .ilActive then .active
      else if (s.raise 208).wlv.state = .ilStandby ∧ (s.raise 208).wlv.il = false then .standby
        else (s.raise 208).wlv.state }) (by simpa using hshots)
  rw [hevt, hwlv]
  simp [hst]

theorem State.byteRevoke_held (peer : Bool) {s : State} (hheld : s.wlv.held = true) (hst : s.wlv.state = .standby)
    (hshots : s.wlv.shots = []) :
    (s.byteRevoke peer).wlv.held = false ∧ (s.byteRevoke peer).wlv.left = 0 ∧
      (s.byteRevoke peer).evt.raw = setBit s.evt.raw 209 := by
  have hraise : s.raiseIf (s.wlv.held || decide (s.wlv.left ≠ 0)) 209 = s.raise 209 := by
    simp [State.raiseIf, State.when, hheld]
  simp only [State.byteRevoke, hraise, hst, reduceCtorEq, or_self, false_and, if_false]
  cases peer
  · simp
  · rw [if_pos rfl]
    obtain ⟨hevt, hwlv⟩ := State.shotsAnswered_noShots (me := false) (changed := s.wlv.byteMe) (s := { s.raise 209 with
      wlv.left := 0, wlv.held := false, wlv.holding := false, wlv.handover := false }) (by simpa using hshots)
    rw [hevt, hwlv]
    simp

theorem State.leaseCount_counts {s : State} (hst : s.wlv.state = .standby) (hr : s.wlv.renewed = false)
    (hl : 1 < s.wlv.left.toNat) :
    s.leaseCount = { s with
      wlv.mlost := (if s.wlv.seen then s.wlv.mlost else satSucc s.wlv.mlost), wlv.seen := false, wlv.renewed := false
      wlv.left := s.wlv.left - 1 } := by
  have h0 : s.wlv.left ≠ 0 := fun h => by simp [h] at hl
  have hp : satPred s.wlv.left = s.wlv.left - 1 := if_neg h0
  have h1 : s.wlv.left - 1 ≠ 0 := fun h => by
    have := congrArg BitVec.toNat (sub_eq_zero.1 h)
    simp at this
    omega
  simp only [State.leaseCount, hst, reduceCtorEq, if_false, hr, h0, decide_false, Bool.or_self, hp, h1, ne_eq,
    not_false_eq_true, if_true, Bool.false_eq_true]

/-! ### Requests -/

theorem State.wlvSend_asked (req : Nat) (s : State) : (s.wlvSend req).wlv.askState = s.wlv.askState ∧
    (s.wlvSend req).wlv.askedAgo = s.wlv.askedAgo ∧ (s.wlvSend req).wlv.shots = s.wlv.shots := by
  unfold State.wlvSend
  dsimp only
  split
  · exact ⟨rfl, rfl, rfl⟩
  · split
    · unfold State.wlvReqRx
      dsimp only
      (repeat' split) <;> exact ⟨rfl, rfl, rfl⟩
    · have h : (s.sendMgmt s.tre.bench 0 (s.wlvPayload req)).wlv = s.wlv :=
        congrArg SendCore.wlv (State.Sent.sendMgmt _ _ _ (State.Sent.refl s))
      rw [h]
      exact ⟨rfl, rfl, rfl⟩

theorem State.wlvAsk_changed {n : BitVec 6} {s : State} (hn : s.svy.nid = some n) (he : s.hasEpoch = true)
    (ha : s.wlv.askState ≠ s.wlv.state) :
    s.wlvAsk = s.wlvAskNow s.wlvWant ∧ s.wlvAsk.wlv.askState = s.wlv.state ∧ s.wlvAsk.wlv.askedAgo = 0 := by
  have h : s.wlvAsk = s.wlvAskNow s.wlvWant := by
    simp [State.wlvAsk, State.wlvAsked, hn, he, ha]
  rw [h]
  obtain ⟨hst, hago, -⟩ := State.wlvSend_asked s.wlvWant
    { s with wlv.asked := BitVec.ofNat 2 s.wlvWant, wlv.askState := s.wlv.state, wlv.askedAgo := 0 }
  exact ⟨rfl, hst, hago⟩

theorem State.wlvSend_noNid {s : State} (req : Nat) (h : s.svy.nid = none) : s.wlvSend req = s := by
  simp [State.wlvSend, h]

theorem State.wlvSend_ring {n : BitVec 6} {s : State} (req : Nat) (h : s.svy.nid = some n) (hb : s.isBench = false) :
    s.wlvSend req = s.sendMgmt s.tre.bench 0 (s.wlvPayload req) := by
  simp [State.wlvSend, h, hb]

/-- With no one-shot in flight a repetition only sends the state request again. -/
theorem State.wlvRepeat_noShots {s : State} (hago : 64 ≤ s.wlv.askedAgo) (hasked : s.wlv.asked ≠ 0)
    (hshots : s.wlv.shots = []) : s.wlvRepeat =
      { State.wlvSend s.wlv.asked.toNat { s with wlv.askedAgo := 0 } with wlv.shots := [] } := by
  have h : (State.wlvSend s.wlv.asked.toNat { s with wlv.askedAgo := 0 }).wlv.shots = [] :=
    (State.wlvSend_asked ..).2.2.trans hshots
  rw [State.wlvRepeat, if_pos ⟨hago, hasked⟩]
  simp only [h, List.filter_nil, List.map_nil]
  rfl

theorem exec_wayleaveRepeat_runs {s : State} (hc : s.coreRuns = true) : exec .wayleaveRepeat s = .next s.wlvRepeat :=
  congrArg Host.Outcome.next (State.when_true _ hc)

/-! ### The benchmark -/

theorem exec_wayleaveDeadline_late {s : State} (hc : s.coreRuns = true) (hr : s.sys.netrole = .benchmark)
    (hsplit : s.sys.splitAct.getLsbD 5 = true) (hb : s.wlv.bcommit = false) (hl : s.wlv.late = false) :
    exec .wayleaveDeadline s = .next (State.raise 223 { s with wlv.late := true }) := by
  show Host.Outcome.next (s.when s.coreRuns _) = _
  rw [State.when_true _ hc, State.isBench_of_role hr, hsplit, hb, hl]
  rfl

theorem State.wlvCycle_late {s : State} (h : s.wlv.late = true) :
    s.wlvCycle = State.wlvEvaluate { s.judgeFit with wlv.late := false } := by
  rw [State.wlvCycle, h, Bool.or_true]
  exact if_pos rfl

theorem exec_wlvReqqPop_head {m : Master} {n : BitVec 6} {r : Byte} {l : List (BitVec 6 × Byte)} {s : State}
    (hq : s.wlv.reqq = (n, r) :: l) (ha : s.accesses m false Reg.WLV_REQQ = true) :
    exec (.wlvReqqPop m) s = .next { s with
      wlv.reqq := l, out := s.out ++ [.answer m (packW [(31, 1), (24, n.toNat), (16, r.toNat)])] } := by
  show Host.Outcome.next (s.access m false Reg.WLV_REQQ _) = _
  rw [State.access_made _ ha, State.reqqPop, State.reqqWord, hq]
  rfl

/-! ### Drills and REVERT -/

theorem exec_drillCheckEnd_ends {n : Nat} {ok : Bool} {s : State} (hc : s.coreRuns = true)
    (hd : s.wlv.drillCheck = some (n, ok)) (hn : s.drillT ≤ n) :
    exec .drillCheckEnd s = .next (((State.raise 220 { s with
      wlv.drillCheck := none, wlv.drillRes := if ok then 1 else 2, wlv.drills := s.wlv.drills + 1 }).when (!ok)
        (State.wlvShot 6)).wlvSync) := by
  show Host.Outcome.next (s.when s.coreRuns State.drillDue) = _
  rw [State.when_true _ hc, State.drillDue, hd]
  exact congrArg Host.Outcome.next (if_pos hn)

theorem exec_drillRefused_late {n : Nat} {s : State} (hd : s.wlv.drillWait = some n) (hn : 8 ≤ n) :
    exec .drillRefused s = .next (State.raise 220 { s with
      wlv.drillWait := none, wlv.drillRes := 3, wlv.drills := s.wlv.drills + 1 }) := by
  show execDrillRefused s = _
  rw [execDrillRefused, hd]
  exact congrArg Host.Outcome.next (if_pos hn)

theorem exec_revertReady_sends {s : State} (hc : s.coreRuns = true) (hrev : s.revHold ≤ s.wlv.rev.toNat)
    (hr : s.wlv.revrdy = false) : exec .revertReady s = .next (({ s with wlv.revrdy := true } : State).wlvShot 5) := by
  show Host.Outcome.next (s.when s.coreRuns _) = _
  rw [State.when_true _ hc, decide_eq_true hrev, hr]
  rfl

/-- Settles O41, clause by clause from the lemmas of this part. -/
theorem wayleaveServes : Obligations.WayleaveServes := by
  unfold Obligations.WayleaveServes
  refine ⟨fun lease s hheld hshots hst _ => ⟨_, rfl, State.byteGrant_fresh lease hheld hshots hst⟩,
    fun peer s => State.byteRevoke_held peer, fun s => State.leaseCount_counts, fun n s => State.wlvAsk_changed,
    fun s => rfl, fun s => exec_wayleaveDeadline_late, fun s => State.wlvCycle_late, fun m n r l s => exec_wlvReqqPop_head,
    fun s => rfl, fun n ok s => exec_drillCheckEnd_ends, fun n s => exec_drillRefused_late, fun s => exec_revertReady_sends,
    fun s => rfl, fun s hc hago hasked hshots hn => ?_, fun n s hc hn hr hago hasked hshots => ?_⟩
  · rw [exec_wayleaveRepeat_runs hc, State.wlvRepeat_noShots hago hasked hshots,
      State.wlvSend_noNid _ (s := { s with wlv.askedAgo := 0 }) hn, ← hshots]
  · refine ⟨_, ?_, rfl⟩
    rw [exec_wayleaveRepeat_runs hc, State.wlvRepeat_noShots hago hasked hshots, State.wlvSend_ring _ (s := { s with wlv.askedAgo := 0 }) hn
      (State.isBench_eq_false hr)]
    rfl

end Sys2Proof.Machine

end

section

/-!
PROOF. The refutation of the statement on the DMA channels (13 R362, R373): GO is no stored bit of DMA_CHCTL.
-/

namespace Sys2Proof.Machine

/-- After reset, GO with EN for channel 0 leaves EN alone in DMA_CHCTL: GO (bit 1) lies outside the register's mask. -/
theorem chctl_go_after_reset : (State.reset.dmaCtlWrite 0 3).chctl 0 = 1 := by decide

/-- Refutes O42 in its first clause: for the write of 3 (EN and GO) to the idle channel 0 of the node after reset, the
statement claims that DMA_CHCTL then holds 3; the model stores the register's own bits, and it holds 1. -/
theorem not_dmaServes : ¬ Obligations.DmaServes := by
  unfold Obligations.DmaServes
  rintro ⟨hgo, -⟩
  obtain ⟨t, ht, hv, -⟩ := hgo 0 3 State.reset (by decide) (by decide) (.inl (by decide)) (by decide)
  have he : State.reset.dmaCtlWrite 0 3 = t := Host.Outcome.next.inj ht
  rw [← he, chctl_go_after_reset] at hv
  exact absurd hv (by decide)

end Sys2Proof.Machine

end

section

/-!
PROOF. The frame of the commands that reach at most three parts of the state (95): one lemma per shared operation, saying
which blocks it may change, and one case per command.
-/

namespace Sys2Proof.Machine

/-! ### Register accesses -/

theorem State.access_made_or_still {s : State} {m : Master} {w : Bool} {a : Nat} (f : State → State)
    (h : s.mayAccess m w a = true) : s.access m w a f = f s ∨ s.access m w a f = s := by
  by_cases hr : s.masterRuns m = true
  · exact .inl (State.access_made f (by simp [State.accesses, hr, h]))
  · exact .inr (State.access_still w a f (by simpa using hr))

/-- An access keeps what its effect keeps. -/
theorem State.access_induction {s : State} {m : Master} {w : Bool} {a : Nat} {f : State → State} {p : State → Prop}
    (h : s.mayAccess m w a = true) (hs : p s) (hf : p (f s)) : p (s.access m w a f) := by
  rcases State.access_made_or_still f h with h | h <;> rwa [h]

theorem State.queueClear_frame (q : Fin 16) (v : Word) (s : State) :
    s.queueClear q v = { s with mem := (s.queueClear q v).mem } := by
  unfold State.queueClear
  split <;> rfl

theorem State.gateTryFx_frame (code : Byte) (g : Fin 32) (s : State) :
    s.gateTryFx code g = { s with mem := (s.gateTryFx code g).mem } := by
  unfold State.gateTryFx
  split <;> rfl

theorem State.gateRelFx_frame (code : Byte) (g : Fin 32) (s : State) :
    s.gateRelFx code g = { s with mem := (s.gateRelFx code g).mem } := by
  unfold State.gateRelFx
  split <;> rfl

theorem State.elogPop_frame (s : State) : s.elogPop = { s with mem := s.elogPop.mem } := by
  unfold State.elogPop
  split <;> rfl

theorem State.cwyLogPop_frame (s : State) : s.cwyLogPop = { s with cwy := s.cwyLogPop.cwy } := by
  unfold State.cwyLogPop
  split <;> rfl

theorem State.learnqPop_frame (s : State) : s.learnqPop = { s with eth := s.learnqPop.eth } := by
  unfold State.learnqPop
  split <;> rfl

theorem State.eccFullWrite_frame (a : Nat) (v : Word) (s : State) :
    s.eccFullWrite a v = { s with regs := (s.eccFullWrite a v).regs, mem := (s.eccFullWrite a v).mem } := by
  unfold State.eccFullWrite
  split
  · dsimp only
    rw [State.putWord_frame]
    rfl
  · rw [State.putWord_frame]
    rfl

theorem State.inject_frame (v : Word) (s : State) :
    s.inject v = { s with regs := (s.inject v).regs, mem := (s.inject v).mem } := by
  have hw : ∀ a, (if s.regBit Reg.MEM_INJECT 31 then s.eccFullWrite a v else s) = { s with
      regs := (if s.regBit Reg.MEM_INJECT 31 then s.eccFullWrite a v else s).regs
      mem := (if s.regBit Reg.MEM_INJECT 31 then s.eccFullWrite a v else s).mem } := fun a => by
    split
    · exact State.eccFullWrite_frame a v s
    · rfl
  unfold State.inject
  dsimp only
  split
  · exact hw _
  · exact hw _
  · rfl

/-! ### The service port -/

/-- A transfer changes the port's state and what it answers, with a command whose effect is the port's alone. -/
theorem State.transact_frame (a : BitVec 6) {f : Bool → Bool → State → State} (s : State)
    (hf : ∀ k b u, f k b u = { u with sp := (f k b u).sp }) :
    s.transact a f = { s with sp := (s.transact a f).sp, out := (s.transact a f).out } := by
  unfold State.transact
  split
  · rfl
  · split
    · rfl
    · rw [hf]
      rfl

theorem State.fbAdvance_frame (s : State) : s.fbAdvance = { s with sp := s.fbAdvance.sp } := by
  unfold State.fbAdvance
  dsimp only
  (repeat' split) <;> rfl

theorem State.spReadFx_frame (a : BitVec 6) (s : State) : s.spReadFx a = { s with sp := (s.spReadFx a).sp } := by
  unfold State.spReadFx
  split
  · rfl
  · unfold State.deepRead9
    (repeat' split) <;> rfl
  · exact State.fbAdvance_frame s
  · rfl

theorem State.keyWrite_frame (first : Bool) (v : Half) (s : State) :
    s.keyWrite first v = { s with sp := (s.keyWrite first v).sp } := by
  unfold State.keyWrite
  (repeat' split) <;> rfl

theorem State.dctlWrite_frame (key : Bool) (v : Half) (s : State) :
    s.dctlWrite key v = { s with sp := (s.dctlWrite key v).sp } := by
  unfold State.dctlWrite State.when
  dsimp only
  (repeat' split) <;> rfl

theorem State.fbStart_frame (s : State) : s.fbStart = { s with sp := s.fbStart.sp } := by
  unfold State.fbStart
  dsimp only
  split <;> rfl

theorem State.spCapture_frame (apin : Bool) (s : State) : s.spCapture apin = { s with sp := (s.spCapture apin).sp } := by
  unfold State.spCapture
  dsimp only
  split <;> rfl

/-! ### The Field Book and the counters -/

theorem State.fbQueue_frame (r : FbRec) (s : State) : s.fbQueue r = { s with fbk := (s.fbQueue r).fbk } := by
  unfold State.fbQueue
  (repeat' split) <;> rfl

theorem State.fbFoldEnd_frame (ev : Byte) (s : State) : s.fbFoldEnd ev = { s with fbk := (s.fbFoldEnd ev).fbk } := by
  unfold State.fbFoldEnd
  dsimp only
  split
  · rfl
  · split
    · rfl
    · rw [State.fbQueue_frame]

theorem State.fbUserGo_frame (v : Word) (s : State) : s.fbUserGo v = { s with fbk := (s.fbUserGo v).fbk } := by
  unfold State.fbUserGo State.when
  split
  · exact State.fbQueue_frame _ s
  · rfl

theorem State.cairnWrite_frame (v : Word) (s : State) :
    s.cairnWrite v = { s with regs := (s.cairnWrite v).regs, cnt := (s.cairnWrite v).cnt } := by
  unfold State.cairnWrite State.when
  dsimp only
  split <;> rfl

/-! ### The services -/

/-- Besides what its body does to the state a service takes a free value and changes the control core. -/
theorem State.service_frame (f : State → State) (s : State) :
    s.service f = s ∨ ∃ x, s.service f = { f (s.trapFree 8 0) with ctl := x } := by
  unfold State.service State.when
  split
  · refine .inr ⟨((f (s.trapFree 8 0)).svcBack).ctl, ?_⟩
    dsimp only
    unfold State.svcBack
    dsimp only
    split <;> rfl
  · exact .inl rfl

theorem State.service_ctl_frame {f : State → State} (s : State) (hf : ∀ u, f u = { u with ctl := (f u).ctl }) :
    s.service f = { s with ctl := (s.service f).ctl, free := (s.service f).free } := by
  obtain h | ⟨x, h⟩ := State.service_frame f s
  · rw [h]
  · rw [h, hf]
    rfl

theorem State.service_mem_frame {f : State → State} (s : State)
    (hf : ∀ u, f u = { u with ctl := (f u).ctl, mem := (f u).mem }) :
    s.service f = { s with ctl := (s.service f).ctl, mem := (s.service f).mem, free := (s.service f).free } := by
  obtain h | ⟨x, h⟩ := State.service_frame f s
  · rw [h]
  · rw [h, hf]
    rfl

theorem State.service_fbk_frame {f : State → State} (s : State)
    (hf : ∀ u, f u = { u with ctl := (f u).ctl, fbk := (f u).fbk }) :
    s.service f = { s with fbk := (s.service f).fbk, ctl := (s.service f).ctl, free := (s.service f).free } := by
  obtain h | ⟨x, h⟩ := State.service_frame f s
  · rw [h]
  · rw [h, hf]
    rfl

theorem State.stopAsk_frame (s : State) : s.stopAsk = { s with ctl := s.stopAsk.ctl } := by
  unfold State.stopAsk
  split <;> rfl

theorem State.svcFbUser_frame (a0 a1 : Word) (s : State) :
    s.svcFbUser a0 a1 = { s with ctl := (s.svcFbUser a0 a1).ctl, fbk := (s.svcFbUser a0 a1).fbk } := by
  unfold State.svcFbUser State.fbUser
  split
  · rfl
  · rw [State.fbQueue_frame]
    rfl

theorem State.svcGateTry_frame (a0 : Word) (s : State) :
    s.svcGateTry a0 = { s with ctl := (s.svcGateTry a0).ctl, mem := (s.svcGateTry a0).mem } := by
  unfold State.svcGateTry
  split
  · split
    · rfl
    · split
      · rw [State.gateTryFx_frame]
        rfl
      · rfl
  · rfl

theorem State.svcGateRelease_frame (a0 : Word) (s : State) :
    s.svcGateRelease a0 = { s with ctl := (s.svcGateRelease a0).ctl, mem := (s.svcGateRelease a0).mem } := by
  unfold State.svcGateRelease
  split
  · split
    · rfl
    · rw [State.gateRelFx_frame]
      rfl
  · rfl

theorem State.svcQueuePop_frame (a0 : Word) (s : State) :
    s.svcQueuePop a0 = { s with ctl := (s.svcQueuePop a0).ctl, mem := (s.svcQueuePop a0).mem } := by
  unfold State.svcQueuePop
  (repeat' split) <;> rfl

/-! ### The TAP and the debug module -/

theorem State.jtag_frame {f : State → State} (s : State) (hf : f s = { s with boot := (f s).boot, out := (f s).out }) :
    s.jtag f = { s with boot := (s.jtag f).boot, out := (s.jtag f).out } := by
  unfold State.jtag State.when
  split
  · exact hf
  · rfl

theorem State.extestScan_frame (pins cells : BitVec 225) (s : State) : s.extestScan pins cells =
    { s with boot := (s.extestScan pins cells).boot, out := (s.extestScan pins cells).out } := by
  unfold State.extestScan
  dsimp only
  split <;> rfl

theorem State.dtmcsScan_frame (v : Word) (s : State) :
    s.dtmcsScan v = { s with boot := (s.dtmcsScan v).boot, out := (s.dtmcsScan v).out } := by
  unfold State.dtmcsScan
  dsimp only
  split <;> rfl

theorem State.dmi_frame {f : State → State} (s : State)
    (hf : ∀ u, f u = { u with ctl := (f u).ctl, boot := (f u).boot, out := (f u).out }) :
    s.dmi f = { s with ctl := (s.dmi f).ctl, boot := (s.dmi f).boot, out := (s.dmi f).out } := by
  unfold State.dmi
  dsimp only
  split
  · rfl
  · split
    · rw [hf]
      rfl
    · rfl

theorem State.dmi_frame_noCtl {f : State → State} (s : State)
    (hf : ∀ u, f u = { u with boot := (f u).boot, out := (f u).out }) :
    s.dmi f = { s with boot := (s.dmi f).boot, out := (s.dmi f).out } := by
  unfold State.dmi
  dsimp only
  split
  · rfl
  · split
    · rw [hf]
      rfl
    · rfl

theorem State.sbRead_frame (a n : Nat) (s : State) :
    s.sbRead a n = { s with boot := (s.sbRead a n).boot, out := (s.sbRead a n).out } := by
  unfold State.sbRead
  dsimp only
  split <;> rfl

theorem State.mdioWrite_frame (e : Fin 2) (v : Word) (s : State) : s.mdioWrite e v =
    { s with regs := (s.mdioWrite e v).regs, eth := (s.mdioWrite e v).eth, out := (s.mdioWrite e v).out } := by
  unfold State.mdioWrite State.when
  dsimp only
  (repeat' split) <;> rfl

theorem State.editWrite_frame (v : Word) (s : State) : s.editWrite v = { s with tre := (s.editWrite v).tre } := by
  unfold State.editWrite
  split <;> rfl

theorem State.keyProgram_frame (i : Fin 4) (s : State) : s.keyProgram i = { s with boot := (s.keyProgram i).boot } := by
  unfold State.keyProgram
  dsimp only
  split <;> rfl

theorem State.keyRevoke_frame (i : Fin 4) (s : State) : s.keyRevoke i = { s with boot := (s.keyRevoke i).boot } := by
  unfold State.keyRevoke
  split <;> rfl

theorem State.verifyWrite_frame (v : Word) (s : State) :
    s.verifyWrite v = { s with regs := (s.verifyWrite v).regs, boot := (s.verifyWrite v).boot } := by
  unfold State.verifyWrite
  dsimp only
  split <;> rfl

theorem State.addressAged_frame (i : Fin 256) (s : State) :
    s.addressAged i = { s with eth := (s.addressAged i).eth } := by
  unfold State.addressAged
  dsimp only
  split <;> rfl

theorem State.programDone_frame (bankB : Bool) (s : State) :
    s.programDone bankB = { s with mem := (s.programDone bankB).mem } := by
  unfold State.programDone
  split
  · cases bankB <;> rfl
  · rfl

/-! ### The commands -/

/-- What runs while the core runs keeps what its effect keeps. -/
theorem State.when_induction {s : State} {b : Bool} {f : State → State} {p : State → Prop} (hs : p s) (hf : p (f s)) :
    p (s.when b f) := by
  unfold State.when
  split <;> assumption

/-- Settles O58: a command's meaning is one operation, whose lemma above says which blocks it may change. -/
theorem frameOwn : Obligations.FrameOwn := by
  unfold Obligations.FrameOwn
  intro c s t hm h
  cases c
  case traverseDisable | cabActChange | svyFull | commit | laneCommit | wlvBcommit | tclr | bootKick | notchRelease =>
    cases h
    rfl
  case throughUnitChange | keyWindowClose | deepAccessTimeout =>
    cases h
    show _ = _
    (repeat' split) <;> rfl
  case tableEdit v =>
    cases h
    exact State.editWrite_frame v s
  case keyProgram i =>
    cases h
    exact State.keyProgram_frame i s
  case keyRevoke i =>
    cases h
    exact State.keyRevoke_frame i s
  case bootVerify v =>
    cases h
    exact State.verifyWrite_frame v s
  case mdioDone e data =>
    cases h
    show _ = _
    split
    · rfl
    · dsimp only
      split <;> rfl
  case coverStart =>
    cases h
    refine State.when_induction (p := fun t => t = { s with tre := t.tre }) rfl ?_
    split <;> rfl
  case dmaStopDone n =>
    cases h
    refine State.when_induction (p := fun t => t = { s with dma := t.dma }) rfl ?_
    unfold State.dmaStopDone
    dsimp only
    split <;> rfl
  case tapReset =>
    cases h
    exact State.when_induction (p := fun t => t = { s with boot := t.boot }) rfl rfl
  case heartbeat =>
    cases h
    refine State.when_induction (p := fun t => t = { s with out := t.out }) rfl ?_
    split <;> rfl
  case gaugeConversion =>
    cases h
    exact State.when_induction (p := fun t => t = { s with sp := t.sp, free := t.free }) rfl rfl
  case serviceImageCapture a =>
    cases h
    exact State.spCapture_frame a s
  case fbRepeatExpiry ev =>
    cases h
    exact State.when_induction (p := fun t => t = { s with fbk := t.fbk }) rfl (State.fbFoldEnd_frame ev s)
  case fbHealthTimer =>
    cases h
    refine State.when_induction (p := fun t => t = { s with fbk := t.fbk }) rfl ?_
    split
    · rfl
    · exact State.fbQueue_frame _ s
  case fbkUsergo v =>
    cases h
    exact State.fbUserGo_frame v s
  case addressAgeExpiry i =>
    cases h
    exact State.when_induction (p := fun t => t = { s with eth := t.eth }) rfl (State.addressAged_frame i s)
  case stopRequest =>
    cases h
    exact State.stopAsk_frame s
  case dmaTrigger src =>
    cases h
    exact State.when_induction (p := fun t => t = { s with dma := t.dma }) rfl rfl
  case flashProgramDone b =>
    cases h
    exact State.programDone_frame b s
  case gateQclr m q v =>
    cases h
    exact State.access_induction (p := fun t => t = { s with mem := t.mem }) (hm _ _ _ rfl) rfl (State.queueClear_frame q v s)
  case cairnRequest v =>
    cases h
    exact State.cairnWrite_frame v s
  case injection m v =>
    cases h
    exact State.access_induction (p := fun t => t = { s with regs := t.regs, mem := t.mem }) (hm _ _ _ rfl) rfl
      (State.inject_frame v s)
  case normalRead a =>
    cases h
    exact State.transact_frame a s fun _ _ u => State.spReadFx_frame a u
  case peek a =>
    cases h
    exact State.transact_frame a s fun _ _ _ => rfl
  case commandRefused a =>
    cases h
    exact State.transact_frame a s fun _ _ _ => rfl
  case key v =>
    cases h
    exact State.transact_frame _ s fun _ first u => State.keyWrite_frame first v u
  case deepRead v | deepWrite v =>
    cases h
    show _ = _
    split
    · exact State.transact_frame _ s fun key _ u => State.dctlWrite_frame key v u
    · rfl
  case fbStart =>
    cases h
    exact State.transact_frame _ s fun _ _ u => State.fbStart_frame u
  case fbNewest =>
    cases h
    exact State.transact_frame _ s fun _ _ _ => rfl
  case fbDataRead =>
    cases h
    exact State.transact_frame _ s fun _ _ u => State.fbAdvance_frame u
  case claimPop m =>
    cases h
    exact State.access_induction (p := fun t => t = { s with tre := t.tre, out := t.out }) (hm _ _ _ rfl) rfl rfl
  case learnqPop m =>
    cases h
    refine State.access_induction (p := fun t => t = { s with eth := t.eth, out := t.out }) (hm _ _ _ rfl) rfl ?_
    rw [State.learnqPop_frame]
    rfl
  case wlvReqqPop m =>
    cases h
    exact State.access_induction (p := fun t => t = { s with wlv := t.wlv, out := t.out }) (hm _ _ _ rfl) rfl rfl
  case cwyLogPop m =>
    cases h
    refine State.access_induction (p := fun t => t = { s with cwy := t.cwy, out := t.out }) (hm _ _ _ rfl) rfl ?_
    rw [State.cwyLogPop_frame]
    rfl
  case memElogPop m =>
    cases h
    refine State.access_induction (p := fun t => t = { s with mem := t.mem, out := t.out }) (hm _ _ _ rfl) rfl ?_
    rw [State.elogPop_frame]
    rfl
  case gateTryg m g =>
    cases h
    refine State.access_induction (p := fun t => t = { s with mem := t.mem, out := t.out }) (hm _ _ _ rfl) rfl ?_
    rw [State.gateTryFx_frame]
    rfl
  case gateQpop m q =>
    cases h
    exact State.access_induction (p := fun t => t = { s with mem := t.mem, out := t.out }) (hm _ _ _ rfl) rfl rfl
  case timeNow =>
    cases h
    exact State.service_ctl_frame s fun _ => rfl
  case reqStop =>
    cases h
    exact State.service_ctl_frame s fun u => by rw [State.stopAsk_frame]; rfl
  case fbUser a0 a1 =>
    cases h
    exact State.service_fbk_frame s (State.svcFbUser_frame a0 a1)
  case gateTry a0 =>
    cases h
    exact State.service_mem_frame s (State.svcGateTry_frame a0)
  case gateRelease a0 =>
    cases h
    exact State.service_mem_frame s (State.svcGateRelease_frame a0)
  case queuePop a0 =>
    cases h
    exact State.service_mem_frame s (State.svcQueuePop_frame a0)
  case extest p c =>
    cases h
    exact State.jtag_frame s (State.extestScan_frame p c s)
  case dtmcs v =>
    cases h
    exact State.jtag_frame s (State.dtmcsScan_frame v s)
  case samplePreload | idcode | bypass =>
    cases h
    exact State.jtag_frame s rfl
  case systemBusRead a n =>
    cases h
    exact State.dmi_frame_noCtl s fun u => State.sbRead_frame _ _ u
  case mdioAccess e v =>
    cases h
    exact State.mdioWrite_frame e v s
  case debugHalt hart | singleStep hart pc =>
    cases h
    refine State.dmi_frame s fun u => ?_
    split <;> cases hart <;> rfl
  case debugResume hart =>
    cases h
    exact State.dmi_frame s fun u => by cases hart <;> rfl
  all_goals trivial

end Sys2Proof.Machine

end

section

/-!
PROOF. Bringing the unit state up to date, with the requests and the end of drive it brings (12 R332 to R346), leaves what the
boot ROM keeps (16 R429 to R435).
-/

namespace Sys2Proof.Machine

@[simp] theorem State.sendMgmt_boot (dst : BitVec 6) (tag : BitVec 2) (payload : List Byte) (s : State) :
    (s.sendMgmt dst tag payload).boot = s.boot :=
  congrArg SendCore.boot (State.Sent.sendMgmt dst tag payload (.refl s))

@[simp] theorem State.when_boot {b : Bool} {f : State → State} {s : State} (hf : (f s).boot = s.boot) :
    (s.when b f).boot = s.boot := by
  unfold State.when
  split
  · exact hf
  · rfl

@[simp] theorem State.laneTo_boot (st : LaneState) (s : State) : (s.laneTo st).boot = s.boot := by
  unfold State.laneTo
  split <;> simp

@[simp] theorem State.laneOffDrive_boot (s : State) : s.laneOffDrive.boot = s.boot := by
  unfold State.laneOffDrive
  split <;> simp

@[simp] theorem State.wlvReqRx_boot (nid : BitVec 6) (req flags : Byte) (s : State) :
    (s.wlvReqRx nid req flags).boot = s.boot := by
  unfold State.wlvReqRx
  dsimp only
  split
  · rfl
  · split <;> rfl

@[simp] theorem State.wlvSend_boot (req : Nat) (s : State) : (s.wlvSend req).boot = s.boot := by
  unfold State.wlvSend
  dsimp only
  split
  · rfl
  · split <;> simp

@[simp] theorem State.wlvShot_boot (req : Nat) (s : State) : (s.wlvShot req).boot = s.boot := by simp [State.wlvShot]

@[simp] theorem State.wlvAskNow_boot (req : Nat) (s : State) : (s.wlvAskNow req).boot = s.boot := by simp [State.wlvAskNow]

@[simp] theorem State.wlvAsk_boot (s : State) : s.wlvAsk.boot = s.boot := by
  unfold State.wlvAsk
  split <;> simp

@[simp] theorem State.drillEnd_boot (ok : Bool) (s : State) : (s.drillEnd ok).boot = s.boot := by simp [State.drillEnd]

@[simp] theorem State.driveEnd_boot (s : State) : s.driveEnd.boot = s.boot := by
  unfold State.driveEnd State.ownRelease
  split <;> simp

@[simp] theorem State.ilCheck_boot (s : State) : s.ilCheck.boot = s.boot := by
  unfold State.ilCheck
  split <;> split <;> simp

@[simp] theorem State.revCheck_boot (s : State) : s.revCheck.boot = s.boot := by
  unfold State.revCheck
  split <;> rfl

@[simp] theorem State.wlvIdle_boot (s : State) : s.wlvIdle.boot = s.boot := by
  unfold State.wlvIdle
  split <;> simp

@[simp] theorem State.wlvRun_boot (s : State) : s.wlvRun.boot = s.boot := by
  unfold State.wlvRun
  dsimp only
  (repeat' split) <;> simp

@[simp] theorem State.ownUpdate_boot (s : State) : s.ownUpdate.boot = s.boot := by
  unfold State.ownUpdate State.ownRelease
  (repeat' split) <;> rfl

@[simp] theorem State.peerLostCheck_boot (s : State) : s.peerLostCheck.boot = s.boot := by simp [State.peerLostCheck]

@[simp] theorem State.wlvSync_boot (s : State) : s.wlvSync.boot = s.boot := by
  unfold State.wlvSync
  dsimp only
  (repeat' split) <;> simp

@[simp] theorem State.progTo_boot (p : ProgState) (s : State) : (s.progTo p).boot = s.boot := by simp [State.progTo]

end Sys2Proof.Machine
end

section

/-!
PROOF. BOOT_VERIFY and the OTP keys (16 R429, R430, R435), the TAP (16 R444, R445; log 230), the debug module and the triggers
(16 R446; logs 10, 14, 231).
-/

namespace Sys2Proof.Machine

/-! ### BOOT_VERIFY (16 R435) -/

theorem exec_bootVerify_starts {v : Word} {s : State} (hv : v.getLsbD 31 = true) (hn : s.boot.verifying = none) :
    ∃ t, exec (.bootVerify v) s = .next t ∧ t.boot = { s.boot with verifying := some (v.setWidth 2) } := by
  have h : (v.getLsbD 31 && s.boot.verifying.isNone) = true := by rw [hv, hn]; rfl
  exact ⟨_, congrArg Host.Outcome.next (if_pos h), rfl⟩

theorem exec_bootVerify_idle {v : Word} {s : State} (h : v.getLsbD 31 = false ∨ s.boot.verifying ≠ none) :
    ∃ t, exec (.bootVerify v) s = .next t ∧ t.boot = s.boot := by
  have h' : ¬(v.getLsbD 31 && s.boot.verifying.isNone) = true := by
    rcases h with h | h
    · rw [h]; simp
    · simp [h]
  exact ⟨_, congrArg Host.Outcome.next (if_neg h'), rfl⟩

theorem exec_bootVerifyDone_idle {s : State} (h : s.boot.verifying = none) : exec .bootVerifyDone s = .next s := by
  have hidle : s.verifyDone = s := by simp only [State.verifyDone, h]
  refine congrArg Host.Outcome.next (?_ : s.when s.coreRuns State.verifyDone = s)
  rw [State.when, hidle, ite_self]

/-- Accepting a slot makes that slot valid and no other change to what the boot ROM keeps. -/
theorem State.slotAccept_boot (b : Bool) (s : State) :
    (s.slotAccept b).boot = if b then { s.boot with validB := true } else { s.boot with validA := true } := by
  have hstop : ∀ (c : Prop) [Decidable c] (t : State), (if c then t.progTo .stop else t).boot = t.boot := fun c _ t => by
    split <;> simp
  rw [State.slotAccept]
  exact (hstop _ _).trans (by cases b <;> rfl)

/-- The slot that a target of BOOT_VERIFY names. -/
theorem BitVec.two_target (tg : BitVec 2) :
    (tg.getLsbD 1 = true ∧ tg ≠ 0 ∧ tg ≠ 1) ∨ (tg.getLsbD 1 = false ∧ tg = 0 ∧ tg.getLsbD 0 = false) ∨
      (tg.getLsbD 1 = false ∧ tg = 1 ∧ tg.getLsbD 0 = true) := by
  revert tg
  decide

/-- What a verification that ends leaves of what the boot ROM keeps. -/
def State.VerifyEnds (tg : BitVec 2) (s t : State) : Prop :=
  t.boot.verifying = none ∧
    t.boot.vresult = s.verdict (if tg.getLsbD 1 = true then .steward else .program) (tg.getLsbD 0) ∧
    (tg.getLsbD 1 = true → t = { s with boot := t.boot } ∧ t.boot.validA = s.boot.validA ∧ t.boot.validB = s.boot.validB) ∧
    t.boot.validA = (s.boot.validA || (decide (tg = 0) && decide (t.boot.vresult = 0))) ∧
    t.boot.validB = (s.boot.validB || (decide (tg = 1) && decide (t.boot.vresult = 0)))

theorem State.verifyDone_steward {tg : BitVec 2} {s : State} (hv : s.boot.verifying = some tg) (h : tg.getLsbD 1 = true) :
    s.verifyDone = { s with boot.verifying := none, boot.vresult := s.verdict .steward (tg.getLsbD 0) } := by
  simp only [State.verifyDone, hv, verifyTarget, h, if_true]

theorem State.verifyDone_program {tg : BitVec 2} {s : State} (hv : s.boot.verifying = some tg) (h : tg.getLsbD 1 = false) :
    s.verifyDone =
      let c := s.verdict .program (tg.getLsbD 0)
      let t : State := { s with boot.verifying := none, boot.vresult := c }
      let u : State := if tg.getLsbD 0 then { t with boot.pverdB := c } else { t with boot.pverdA := c }
      if c = 0 then u.slotAccept (tg.getLsbD 0) else u := by
  simp only [State.verifyDone, hv, verifyTarget, h, Bool.false_eq_true, if_false]
  exact if_neg nofun

theorem exec_bootVerifyDone_ends {tg : BitVec 2} {s : State} (hc : s.coreRuns = true) (hv : s.boot.verifying = some tg) :
    ∃ t, exec .bootVerifyDone s = .next t ∧ s.VerifyEnds tg t := by
  refine ⟨_, congrArg Host.Outcome.next (State.when_true _ hc), ?_⟩
  rcases BitVec.two_target tg with ⟨h1, hA, hB⟩ | ⟨h1, rfl, h0⟩ | ⟨h1, rfl, h0⟩
  · rw [State.verifyDone_steward hv h1, State.VerifyEnds, h1, decide_eq_false hA, decide_eq_false hB]
    simp
  · rw [State.verifyDone_program hv h1, State.VerifyEnds, h1, h0]
    by_cases hz : s.verdict .program false = 0
    · simp [hz, State.slotAccept_boot]
    · simp only [if_neg hz]
      simp
      exact fun h => absurd h hz
  · rw [State.verifyDone_program hv h1, State.VerifyEnds, h1, h0]
    by_cases hz : s.verdict .program true = 0
    · simp [hz, State.slotAccept_boot]
    · simp only [if_neg hz]
      simp
      exact fun h => absurd h hz

/-! ### OTP keys (16 R429) -/

theorem State.noKey_iff (s : State) :
    (s.boot.keys.toList.all fun k => !k.programmed) = true ↔ ∀ j : Fin 4, (s.boot.keys.get j).programmed = false := by
  rw [List.all_eq_true]
  constructor
  · intro h j
    have := h (s.boot.keys.get j) (by simp [Vector.get])
    simpa using this
  · intro h k hk
    obtain ⟨i, hi, rfl⟩ := List.mem_iff_getElem.mp hk
    have := h ⟨i, by simpa using hi⟩
    simpa [Vector.get] using this

theorem exec_keyProgram_free {i : Fin 4} {s : State}
    (hmay : s.boot.phase = .limp ∨ ∀ j : Fin 4, (s.boot.keys.get j).programmed = false)
    (hfree : (s.boot.keys.get i).programmed = false) :
    exec (.keyProgram i) s = .next { s with
      boot.keys := s.boot.keys.set i { s.boot.keys.get i with programmed := true, hash := s.keyBuf } } := by
  refine congrArg Host.Outcome.next (if_pos ?_)
  rw [hfree]
  rcases hmay with h | h
  · simp [h]
  · simp [(State.noKey_iff s).mpr h]

theorem exec_keyProgram_refused {i j : Fin 4} {s : State} (h : (s.boot.keys.get i).programmed = true ∨
    (s.boot.phase ≠ .limp ∧ (s.boot.keys.get j).programmed = true)) : exec (.keyProgram i) s = .next s := by
  refine congrArg Host.Outcome.next (if_neg ?_)
  rcases h with h | ⟨hphase, hj⟩
  · simp [h]
  · have hsome : (s.boot.keys.toList.all fun k => !k.programmed) = false := by
      rw [Bool.eq_false_iff]
      intro hall
      exact absurd ((State.noKey_iff s).mp hall j) (by simp [hj])
    rw [hsome, decide_eq_false hphase]
    simp

theorem exec_keyRevoke_running {i : Fin 4} {s : State} (hk : s.boot.stewardKey = some i) (hs : s.boot.steward.isSome = true) :
    exec (.keyRevoke i) s = .next s := congrArg Host.Outcome.next (if_pos ⟨hk, hs⟩)

theorem exec_keyRevoke_other {i : Fin 4} {s : State} (h : s.boot.stewardKey ≠ some i ∨ s.boot.steward = none) :
    ∃ t, exec (.keyRevoke i) s = .next t ∧ t = { s with boot.keys := t.boot.keys } ∧
      ∀ j : Fin 4, t.boot.keys.get j = if j = i then { s.boot.keys.get i with revoked := true } else s.boot.keys.get j := by
  have hn : ¬(s.boot.stewardKey = some i ∧ s.boot.steward.isSome = true) := by
    rintro ⟨hk, hs⟩
    rcases h with h | h
    · exact h hk
    · simp [h] at hs
  refine ⟨_, congrArg Host.Outcome.next (if_neg hn), rfl, fun j => ?_⟩
  show (upd _ _ _).get j = _
  rw [upd, Vector.get_set]

/-! ### The TAP (16 R444, R445; log 230) -/

theorem State.jtag_off {f : State → State} {s : State} (h : s.bankOn 0 = false) : s.jtag f = s := by
  rw [State.jtag, State.when, h]; rfl

theorem State.jtag_on {f : State → State} {s : State} (h : s.bankOn 0 = true) : s.jtag f = f s := State.when_true f h

theorem State.dmi_off {f : State → State} {s : State} (h : s.bankOn 0 = false) : s.dmi f = s := if_pos (by simp [h])

theorem exec_jtag_off {h : Hart} {pc addr v : Word} {tdi wr : Bool} {pins cells : BitVec 225} {reg : Half} {n : Size} {b : BufOp}
    {c : Instr} {s : State} (hoff : s.bankOn 0 = false) (hc : c ∈ [.tapReset, .idcode, .bypass tdi, .samplePreload pins cells,
      .extest pins cells, .dtmcs v, .debugHalt h, .debugResume h, .singleStep h pc, .abstractCommand h wr reg v b,
      .systemBusRead addr n, .systemBusWrite addr n v]) :
    exec c s = .next s := by
  simp only [List.mem_cons, List.not_mem_nil, or_false] at hc
  rcases hc with rfl | rfl | rfl | rfl | rfl | rfl | rfl | rfl | rfl | rfl | rfl | rfl
  iterate 6 exact congrArg Host.Outcome.next (State.jtag_off hoff)
  iterate 6 exact congrArg Host.Outcome.next (State.dmi_off hoff)

theorem exec_tap_idcode_bypass {s : State} (h : s.bankOn 0 = true) :
    exec .tapReset s = .next { s with boot.ir := 2, boot.extest := false } ∧
    exec .idcode s = .next { s with boot.ir := 2, boot.extest := false, out := s.out ++ [.tdo 5 1, .tdo 32 0x1321656B] } ∧
    ∀ tdi, exec (.bypass tdi) s = .next
      { s with boot.ir := 0x1F, boot.extest := false, boot.byp := tdi, out := s.out ++ [.tdo 5 1, .tdo 1 0] } := by
  refine ⟨congrArg Host.Outcome.next ((State.jtag_on h).trans rfl), congrArg Host.Outcome.next ((State.jtag_on h).trans ?_),
    fun tdi => congrArg Host.Outcome.next ((State.jtag_on h).trans ?_)⟩
  · simp [State.idcodeScan, State.tapScan, State.tapLoad, State.emit]
  · simp [State.bypassScan, State.tapScan, State.tapLoad, State.emit]

theorem exec_samplePreload_on {pins cells : BitVec 225} {s : State} (h : s.bankOn 0 = true) :
    exec (.samplePreload pins cells) s = .next { s with
      boot.ir := 1, boot.extest := false, boot.bsr := cells, boot.bsrUpd := cells, out := s.out ++ [.tdo 5 1, .tdo 225 pins.toNat] } := by
  refine congrArg Host.Outcome.next ((State.jtag_on h).trans ?_)
  simp [State.sampleScan, State.tapScan, State.tapLoad, State.emit]

theorem exec_extest_running {pins cells : BitVec 225} {s : State} (h : s.bankOn 0 = true) (hr : s.sys.resetN = true) :
    exec (.extest pins cells) s = .next { s with boot.ir := 0x1F, boot.extest := false, out := s.out ++ [.tdo 5 1] } := by
  refine congrArg Host.Outcome.next ((State.jtag_on h).trans ?_)
  simp [State.extestScan, State.tapScan, State.tapLoad, State.emit, hr]

theorem exec_extest_reset {pins cells : BitVec 225} {s : State} (h : s.bankOn 0 = true) (hr : s.sys.resetN = false) :
    exec (.extest pins cells) s = .next { s with
      boot.ir := 0, boot.extest := true, boot.bsr := cells, boot.bsrUpd := cells
      out := s.out ++ [.tdo 5 1, .tdo 225 pins.toNat] } := by
  refine congrArg Host.Outcome.next ((State.jtag_on h).trans ?_)
  simp [State.extestScan, State.tapScan, State.tapLoad, State.emit, hr]

theorem dtmcsWord_toNat (s : State) : s.dtmcsWord.toNat = 0x71 + 1024 * s.boot.dmistat.toNat := by
  have := s.boot.dmistat.isLt
  simp [State.dtmcsWord, packW]
  omega

theorem exec_dtmcs_on {v : Word} {s : State} (h : s.bankOn 0 = true) :
    ∃ t, exec (.dtmcs v) s = .next t ∧ t.boot.ir = 0x10 ∧
      t.boot.dmistat = (if v.getLsbD 16 = true ∨ v.getLsbD 17 = true then 0 else s.boot.dmistat) ∧
      t.out = s.out ++ [.tdo 5 1, .tdo 32 (0x71 + 1024 * s.boot.dmistat.toNat)] := by
  refine ⟨_, congrArg Host.Outcome.next (State.jtag_on h), ?_⟩
  rw [State.dtmcsScan, dtmcsWord_toNat]
  by_cases hv : v.getLsbD 16 = true ∨ v.getLsbD 17 = true
  · rw [if_pos (by simpa only [Bool.or_eq_true] using hv), if_pos hv]
    simp [State.tapScan, State.tapLoad, State.emit]
  · rw [if_neg (by simpa only [Bool.or_eq_true] using hv), if_neg hv]
    simp [State.tapScan, State.tapLoad, State.emit]

/-! ### DMI operations (16 R446) -/

/-- A scan of the instruction DMI. -/
def State.dmiScan (s : State) : State := { s with boot.ir := 0x11, boot.extest := false, out := s.out ++ [.tdo 5 1] }

/-- Such a scan where the debug module is enabled. -/
def State.dmiReady (s : State) : State := { s.dmiScan with boot.opFailed := false }

section
variable {s : State} (hb : s.bankOn 0 = true)
include hb

theorem State.dmi_disabled {f : State → State} (hd : s.regBit Reg.BOOT_CTL 8 = false) :
    s.dmi f = { s.dmiScan with boot.opFailed := true, boot.dmistat := if s.boot.dmistat = 0 then 2 else s.boot.dmistat } := by
  unfold State.dmi
  rw [hb]
  dsimp only
  rw [hd]
  rfl

theorem exec_debug_disabled {h : Hart} {pc addr v : Word} {reg : Half} {wr : Bool} {n : Size} {b : BufOp} {c : Instr}
    (hd : s.regBit Reg.BOOT_CTL 8 = false) (hc : c ∈ [.debugHalt h, .debugResume h, .singleStep h pc,
      .abstractCommand h wr reg v b, .systemBusRead addr n, .systemBusWrite addr n v]) :
    exec c s = .next { s.dmiScan with
      boot.opFailed := true, boot.dmistat := if s.boot.dmistat = 0 then 2 else s.boot.dmistat } := by
  simp only [List.mem_cons, List.not_mem_nil, or_false] at hc
  rcases hc with rfl | rfl | rfl | rfl | rfl | rfl <;>
    exact congrArg Host.Outcome.next (State.dmi_disabled hb hd)

variable (hd : s.regBit Reg.BOOT_CTL 8 = true)
include hd

theorem State.dmi_ready {f : State → State} : s.dmi f = f s.dmiReady := by
  unfold State.dmi
  rw [hb]
  dsimp only
  rw [hd]
  rfl

theorem exec_debugHalt_on {h : Hart} (hr : (s.hart h).inReset = false) :
    exec (.debugHalt h) s = .next (s.dmiReady.setHart h { s.hart h with halted := true }) :=
  congrArg Host.Outcome.next ((State.dmi_ready hb hd).trans (if_neg (by
    show ¬(s.hart h).inReset = true
    simp [hr])))

theorem exec_debugResume_on (h : Hart) :
    exec (.debugResume h) s = .next (s.dmiReady.setHart h { s.hart h with halted := false }) :=
  congrArg Host.Outcome.next (State.dmi_ready hb hd)

theorem exec_singleStep_halted {h : Hart} (pc : Word) (hh : (s.hart h).halted = true) :
    exec (.singleStep h pc) s = .next (s.dmiReady.setHart h { s.hart h with pc := pc }) :=
  congrArg Host.Outcome.next ((State.dmi_ready hb hd).trans (if_pos hh))

theorem exec_singleStep_running {h : Hart} (pc : Word) (hh : (s.hart h).halted = false) :
    exec (.singleStep h pc) s = .next s.dmiReady :=
  congrArg Host.Outcome.next ((State.dmi_ready hb hd).trans (if_neg (by
    show ¬(s.hart h).halted = true
    simp [hh])))

theorem exec_abstractCommand_running {h : Hart} (wr : Bool) (reg : Half) (v : Word) (b : BufOp) (hh : (s.hart h).halted = false) :
    exec (.abstractCommand h wr reg v b) s = .next s.dmiReady :=
  congrArg Host.Outcome.next ((State.dmi_ready hb hd).trans (if_pos (by
    show (!(s.hart h).halted) = true
    simp [hh])))

/-- The abstract command on a halted hart, after the program buffer. -/
theorem exec_abstractCommand_halted {h : Hart} (wr : Bool) (reg : Half) (v : Word) (b : BufOp) (hh : (s.hart h).halted = true) :
    exec (.abstractCommand h wr reg v b) s = .next (
      let u := s.dmiReady.progBuf h b
      match u.hartRead h reg.toNat with
      | none => u
      | some w => if wr then u.hartWrite h reg.toNat v else (u.when (csrCounts reg.toNat) State.took).emit (.answer .debug w)) :=
  congrArg Host.Outcome.next ((State.dmi_ready hb hd).trans (if_neg (by
    show ¬(!(s.hart h).halted) = true
    simp [hh])))

end

theorem csrCounts_gpr {n : Nat} (h : 0x1000 ≤ n) : csrCounts n = false := by
  rw [csrCounts, List.contains_eq_any_beq, List.any_eq_false]
  intro x hx
  have : x < 0x1000 := by
    simp only [List.mem_cons, List.not_mem_nil, or_false] at hx
    omega
  simp
  omega

theorem State.hartRead_gpr (s : State) (h : Hart) (i : Fin 32) :
    s.hartRead h (0x1000 + i.val) = some (if i = 0 then 0 else (s.hart h).x.get i) := by
  have hi := i.isLt
  rw [State.hartRead, if_neg (by omega), if_pos (by omega)]
  by_cases h0 : i = 0
  · subst h0; rfl
  · have : i.val ≠ 0 := fun e => h0 (Fin.ext e)
    simp only [Nat.add_sub_cancel_left, if_neg h0, if_neg (show ¬0x1000 + i.val = 0x1000 by omega)]
    exact congrArg some (by simp [Vector.getD, Vector.get, hi])

theorem HartState.regWrite_gpr (x : HartState) (i : Fin 32) (v : Word) :
    x.regWrite (0x1000 + i.val) v = if i = 0 then x else { x with x := vset x.x i.val v } := by
  rw [HartState.regWrite, if_neg (by omega)]
  by_cases h0 : i = 0
  · subst h0; rfl
  · have : i.val ≠ 0 := fun e => h0 (Fin.ext e)
    rw [if_neg (by omega), if_neg h0, Nat.add_sub_cancel_left]

theorem State.hartWrite_gpr (s : State) (h : Hart) (i : Fin 32) (v : Word) :
    s.hartWrite h (0x1000 + i.val) v = s.setHart h (if i = 0 then s.hart h else { s.hart h with x := vset (s.hart h).x i.val v }) := by
  rw [State.hartWrite]
  dsimp only
  rw [if_neg (by omega), HartState.regWrite_gpr]

theorem toNat_gprNo (i : Fin 32) : (BitVec.ofNat 16 (0x1000 + i.val)).toNat = 0x1000 + i.val := by
  simp
  omega

section
variable {s : State} (hb : s.bankOn 0 = true) (hd : s.regBit Reg.BOOT_CTL 8 = true)
include hb hd

theorem exec_abstractCommand_gpr {h : Hart} (i : Fin 32) (v : Word) {b : BufOp} (hh : (s.hart h).halted = true)
    (hbuf : b = .keep ∨ b = .run) :
    exec (.abstractCommand h false (BitVec.ofNat 16 (0x1000 + i.val)) v b) s = .next
      (s.dmiReady.emit (.answer .debug (if i = 0 then 0 else (s.hart h).x.get i))) ∧
    exec (.abstractCommand h true (BitVec.ofNat 16 (0x1000 + i.val)) v b) s = .next
      (s.dmiReady.setHart h (if i = 0 then s.hart h else { s.hart h with x := vset (s.hart h).x i.val v })) := by
  have hkeep : s.dmiReady.progBuf h b = s.dmiReady := by rcases hbuf with rfl | rfl <;> rfl
  rw [exec_abstractCommand_halted hb hd false _ v b hh, exec_abstractCommand_halted hb hd true _ v b hh]
  simp only [hkeep, toNat_gprNo, State.hartRead_gpr, State.hartWrite_gpr, csrCounts_gpr (Nat.le_add_right _ _)]
  exact ⟨rfl, rfl⟩

theorem exec_abstractCommand_buffer {h : Hart} (v w0 w1 : Word) (hh : (s.hart h).halted = true) :
    exec (.abstractCommand h false 0x1000 v (.write w0 w1)) s = .next (State.emit (.answer .debug 0)
      { s.dmiReady with boot.progbuf := (s.boot.progbuf.set (progIdx h).1 w0).set (progIdx h).2 w1 }) ∧
    exec (.abstractCommand h false 0x1000 v .read) s = .next { s.dmiReady with
      out := s.out ++ [.tdo 5 1, .answer .debug (s.boot.progbuf.get (progIdx h).1),
        .answer .debug (s.boot.progbuf.get (progIdx h).2), .answer .debug 0] } := by
  rw [exec_abstractCommand_halted hb hd false _ v _ hh, exec_abstractCommand_halted hb hd false _ v _ hh]
  refine ⟨rfl, ?_⟩
  show Host.Outcome.next (State.emit (.answer .debug 0) (s.dmiReady.progBuf h .read)) = _
  simp [State.progBuf, State.emit, State.dmiReady, State.dmiScan]

/-! ### The system bus (16 R446) -/

theorem exec_systemBusRead_word {addr : Word} (ha : addr.toNat % 4 = 0)
    (hr : s.dmiReady.readErr .debug addr.toNat 0xF = none) :
    exec (.systemBusRead addr .word) s = .next (s.dmiReady.emit
      (.answer .debug (s.dmiReady.busPeek .debug addr.toNat 0xF))) := by
  have hw : addr.toNat / 4 * 4 = addr.toNat := by omega
  have hbe : accessLanes addr.toNat 4 = 0xF := by simp [accessLanes, ha]
  refine congrArg Host.Outcome.next ((State.dmi_ready hb hd).trans ?_)
  rw [State.sbRead, Machine.sizeOf]
  simp only [hw, hbe, ha, hr]
  simp

theorem exec_systemBusWrite_word {addr v : Word} (ha : addr.toNat % 4 = 0)
    (hr : s.dmiReady.writeFails .debug addr.toNat 0xF v = none) :
    exec (.systemBusWrite addr .word v) s = .next (s.dmiReady.write .debug addr.toNat 0xF v) := by
  have hw : addr.toNat / 4 * 4 = addr.toNat := by omega
  have hbe : accessLanes addr.toNat 4 = 0xF := by simp [accessLanes, ha]
  refine congrArg Host.Outcome.next ((State.dmi_ready hb hd).trans ?_)
  rw [State.sbWrite, Machine.sizeOf]
  simp only [ha, Nat.mul_zero, BitVec.shiftLeft_zero, hw, hbe, hr]
  simp

theorem exec_systemBus_misaligned {addr : Word} {n : Size} (ha : addr.toNat % Machine.sizeOf n ≠ 0) (v : Word) :
    exec (.systemBusRead addr n) s = .next s.dmiReady.dmiFail ∧
    exec (.systemBusWrite addr n v) s = .next s.dmiReady.dmiFail :=
  ⟨congrArg Host.Outcome.next ((State.dmi_ready hb hd).trans (if_pos (.inl ha))),
    congrArg Host.Outcome.next ((State.dmi_ready hb hd).trans (if_pos ha))⟩

end

/-! ### Triggers (16 R446) -/

/-- What a register write leaves of a hart. -/
theorem HartState.put_kept (x : HartState) (n : Nat) (v : Word) :
    (x.put n v).halted = x.halted ∧ (x.put n v).pc = x.pc ∧ (x.put n v).user = x.user := by
  unfold HartState.put
  (repeat' split) <;> exact ⟨rfl, rfl, rfl⟩

theorem HartState.fire_halts {x : HartState} {i : Nat} (a : Nat) (epc : Word)
    (h : (x.csr (0x17A1 + 0x1000 * i)).getLsbD 12 = true) :
    (x.fire i a epc).halted = true ∧ (x.fire i a epc).pc = x.pc ∧ (x.fire i a epc).user = x.user := by
  have hput := x.put_kept (0x17A1 + 0x1000 * i) (setBit (x.csr (0x17A1 + 0x1000 * i)) 20)
  rw [HartState.fire]
  dsimp only
  rw [if_pos h]
  refine ⟨rfl, ?_, ?_⟩
  · exact (HartState.put_kept _ _ _).2.1.trans hput.2.1
  · exact (HartState.put_kept _ _ _).2.2.trans hput.2.2

theorem HartState.fire_traps {x : HartState} {i : Nat} (a : Nat) (epc : Word)
    (h : (x.csr (0x17A1 + 0x1000 * i)).getLsbD 12 = false) :
    (x.fire i a epc).halted = x.halted ∧ (x.fire i a epc).pc = x.csr 0x305 &&& 0xFFFFFFFC ∧ (x.fire i a epc).user = false ∧
      (x.fire i a epc).csr 0x342 = 3 ∧ (x.fire i a epc).csr 0x341 = epc ∧ (x.fire i a epc).csr 0x343 = BitVec.ofNat 32 a := by
  have hhalted := (x.put_kept (0x17A1 + 0x1000 * i) (setBit (x.csr (0x17A1 + 0x1000 * i)) 20)).1
  have htvec := x.csr_put (0x17A1 + 0x1000 * i) 0x305 (setBit (x.csr (0x17A1 + 0x1000 * i)) 20)
  rw [if_neg (by omega)] at htvec
  rw [HartState.fire]
  dsimp only
  rw [if_neg (by rw [h]; decide)]
  generalize x.put (0x17A1 + 0x1000 * i) (setBit (x.csr (0x17A1 + 0x1000 * i)) 20) = y at hhalted htvec ⊢
  refine ⟨?_, ?_, rfl, ?_, ?_, ?_⟩
  · rw [← hhalted]
    simp only [HartState.trap, HartState.put_kept]
  · rw [← htvec]
    simp [HartState.trap, HartState.trapPc]
  · exact HartState.trap_mcause _ _ _ _
  · simp [HartState.csr_trap]
  · exact HartState.trap_mtval _ _ _ _

/-- Settles O50. That a scan of an instruction shifts out 0b00001 is log 230, what the program buffer does log 231, what comes from
the RISC-V specifications logs 10 and 14. -/
theorem bootServes : Obligations.BootServes := by
  unfold Obligations.BootServes
  refine ⟨fun v s => exec_bootVerify_starts, fun v s => exec_bootVerify_idle, fun s => exec_bootVerifyDone_idle,
    fun tg s => exec_bootVerifyDone_ends, fun i s => exec_keyProgram_free, fun i j s => exec_keyProgram_refused,
    fun i s => exec_keyRevoke_running, fun i s => exec_keyRevoke_other, fun h pc addr v tdi wr pins cells reg n b c s => exec_jtag_off,
    fun s => exec_tap_idcode_bypass, fun pins cells s => exec_samplePreload_on, fun pins cells s => exec_extest_running,
    fun pins cells s => exec_extest_reset, fun v s => exec_dtmcs_on,
    fun h pc addr v reg wr n b c s hb hd => exec_debug_disabled hb hd, fun h s hb hd => exec_debugHalt_on hb hd,
    fun h s hb hd => exec_debugResume_on hb hd h, fun h pc s hb hd => exec_singleStep_halted hb hd pc,
    fun h i v b s hb hd hh hbuf => exec_abstractCommand_gpr hb hd i v hh hbuf, fun h v w0 w1 s hb hd hh => ?_,
    fun x i a epc _ => ⟨HartState.fire_halts a epc, HartState.fire_traps a epc⟩, fun h pc v wr reg b s hb hd hh =>
      ⟨exec_singleStep_running hb hd pc hh, exec_abstractCommand_running hb hd wr reg v b hh⟩,
    fun addr s hb hd => exec_systemBusRead_word hb hd, fun addr n s hb hd ha v => exec_systemBus_misaligned hb hd ha v,
    fun addr v s hb hd => exec_systemBusWrite_word hb hd⟩
  cases h with
  | control => exact exec_abstractCommand_buffer hb hd v w0 w1 hh
  | steward => exact exec_abstractCommand_buffer hb hd v w0 w1 hh

end Sys2Proof.Machine
end

section

/-!
PROOF. The partitions and the steward watchdog (16 R430, R431, R437 to R442, Tables 16.6 and 16.7). What a command, an end of a
command and the watchdog do beside the change of state leaves every partition's state; a change of state changes one.
-/

namespace Sys2Proof.Machine

/-! ### What leaves the partitions' states -/

/-- From s0 to s no partition changed its state, CMDREF stood, and every event raised stayed raised. -/
def State.PartsKept (s0 s : State) : Prop :=
  s.sys.parts = s0.sys.parts ∧ s.sys.cmdref = s0.sys.cmdref ∧ ∀ n, s0.evt.raw.getLsbD n = true → s.evt.raw.getLsbD n = true

theorem State.Undriven.partsKept {s0 s : State} (h : s0.Undriven s) : s0.PartsKept s :=
  ⟨congrArg (fun c : SteadyCore => c.sys.parts) h.1, congrArg (fun c : SteadyCore => c.sys.cmdref) h.1, fun _ => h.grows.raised⟩

theorem State.Steady.partsKept {s0 s : State} (h : s0.Steady s) : s0.PartsKept s := h.undriven.partsKept

/-- The header of a runtime that has been copied is read (16 R431). -/
def State.runtimeHead (b : Bool) (t : State) : State :=
  { t with
    boot.ifrt := t.ifOf (slotBase b)
    boot.rtver := BitVec.ofNat 32 (t.flashLe (slotBase b + 0x2C) 4)
    ctl.hartC := HartState.reset }

/-- The control core starts there if the handshake passes (16 R433). -/
def State.runtimeEnter (b : Bool) (v : State) : State :=
  if v.boot.hsrt then
    { v with ctl.hartC.inReset := false, ctl.hartC.pc := BitVec.ofNat 32 (v.flashLe (slotBase b + 0x28) 4) }
  else v

/-- The runtime of a program slot. -/
def State.runtimeBytes (b : Bool) (s : State) : List Byte :=
  s.bytesAt (slotBase b + s.flashLe (slotBase b + 0x20) 4) (min 0x10000 (s.flashLe (slotBase b + 0x24) 4))

theorem State.runtimeLoad_eq (b : Bool) (s : State) :
    s.runtimeLoad b = (((s.pokeRun 1 0x10000000 (s.runtimeBytes b)).runtimeHead b).hsEval).runtimeEnter b := by
  unfold State.runtimeLoad State.runtimeBytes State.runtimeHead State.runtimeEnter
  rfl

namespace State.PartsKept
variable {s0 s t : State}

theorem refl (s : State) : s.PartsKept s := (State.Steady.refl s).partsKept

theorem trans (h : s0.PartsKept s) (h' : s.PartsKept t) : s0.PartsKept t := by
  obtain ⟨hparts, href, hraw⟩ := h
  obtain ⟨hparts', href', hraw'⟩ := h'
  exact ⟨hparts'.trans hparts, href'.trans href, fun n hn => hraw' n (hraw n hn)⟩

theorem part (h : s0.PartsKept s) (p : Fin 6) : s.part p = s0.part p := by
  obtain ⟨hparts, -, -⟩ := h
  exact congrArg (Vector.get · p) hparts

theorem cmdref (h : s0.PartsKept s) : s.sys.cmdref = s0.sys.cmdref := by
  obtain ⟨-, href, -⟩ := h
  exact href

theorem raised (h : s0.PartsKept s) {n : Nat} (hn : s0.evt.raw.getLsbD n = true) : s.evt.raw.getLsbD n = true := by
  obtain ⟨-, -, hraw⟩ := h
  exact hraw n hn

/-- A state that agrees with s in what partitions' commands settle and in the events raised. -/
theorem agree (h : s0.PartsKept s) (hp : t.sys.parts = s.sys.parts) (hc : t.sys.cmdref = s.sys.cmdref)
    (he : t.evt.raw = s.evt.raw) : s0.PartsKept t :=
  h.trans ⟨hp, hc, fun _ hn => he ▸ hn⟩

theorem steady (h : s0.PartsKept s) (h' : s.Steady t) : s0.PartsKept t := h.trans h'.partsKept

theorem ite {c : Prop} [Decidable c] {a b : State} (ha : s0.PartsKept a) (hb : s0.PartsKept b) :
    s0.PartsKept (if c then a else b) := by
  split <;> assumption

theorem when {b : Bool} {f : State → State} (h : s0.PartsKept s) (hf : s0.PartsKept (f s)) : s0.PartsKept (s.when b f) :=
  .ite hf h

theorem each {α : Type} {l : List α} {f : α → State → State} (h : s0.PartsKept s)
    (hf : ∀ x t, s0.PartsKept t → s0.PartsKept (f x t)) : s0.PartsKept (s.each l f) := by
  induction l generalizing s with
  | nil => exact h
  | cons x l ih => exact ih (hf x s h)

section
variable (h : s0.PartsKept s)
include h

theorem raise (n : Nat) : s0.PartsKept (s.raise n) := h.steady (.raise n (.refl s))
theorem raiseIf (b : Bool) (n : Nat) : s0.PartsKept (s.raiseIf b n) := .when h (.raise h n)
theorem count1 (p i : Nat) : s0.PartsKept (s.count1 p i) := h.steady (.count1 p i (.refl s))
theorem fbQueue (r : FbRec) : s0.PartsKept (s.fbQueue r) := h.steady (.fbQueue r (.refl s))
theorem revCheck : s0.PartsKept s.revCheck := h.steady (.revCheck (.refl s))
theorem wlvSync : s0.PartsKept s.wlvSync := h.trans (State.Undriven.wlvSync (.refl s)).partsKept
theorem driveEnd : s0.PartsKept s.driveEnd := h.trans (State.Undriven.driveEnd (.refl s)).partsKept
theorem frameEnd (q : QFrame) (r : Nat) : s0.PartsKept (s.frameEnd q r) := h.steady (.frameEnd q r (.refl s))
theorem txDone (a : Word) (r : Nat) : s0.PartsKept (s.txDone a r) := h.steady (.txDone a r (.refl s))
theorem ethKick (e : Fin 2) : s0.PartsKept (s.ethKick e) := h.steady (.ethKick e (.refl s))
theorem pokeWord (src : Byte) (a : Nat) (v : Word) : s0.PartsKept (s.pokeWord src a v) := h.steady (.pokeWord src a v (.refl s))
theorem putWord (a : Nat) (v : Word) : s0.PartsKept (s.putWord a v) := h.steady (.putWord a v (.refl s))
theorem setBytes (a : Nat) (bs : List Byte) : s0.PartsKept (s.setBytes a bs) := h.steady (.setBytes a bs (.refl s))

/-! #### Memories -/

theorem eccFullWrite (a : Nat) (v : Word) : s0.PartsKept (s.eccFullWrite a v) := h.pokeWord 0 a v

theorem eccWrite (src : Byte) (a : Nat) (be : BitVec 4) (v : Word) : s0.PartsKept (s.eccWrite src a be v) := by
  have hfix : ∀ w e, s0.PartsKept ((s.putWord a w).setErr a e) := fun w _ => h.putWord a w
  unfold State.eccWrite
  split
  · exact h.eccFullWrite a v
  · split
    · exact h.putWord a _
    · split
      · exact (hfix _ _).steady (.eccCe _ _ _ _ (.refl _))
      · exact ((hfix _ _).steady (.eccUe _ _ _ _ (.refl _))).raise _

end

theorem pokeBytes (src : Byte) (a : Nat) (bs : List Byte) (h : s0.PartsKept s) : s0.PartsKept (s.pokeBytes src a bs) := by
  induction bs generalizing a s with
  | nil => exact h
  | cons b bs ih => exact ih _ (h.eccWrite ..)

theorem pokeRun (src : Byte) : ∀ (a : Nat) (bs : List Byte) {s : State}, s0.PartsKept s → s0.PartsKept (s.pokeRun src a bs)
  | _, [], _, h => h
  | a, [b], _, h => pokeBytes src a [b] h
  | a, [b, c], _, h => pokeBytes src a [b, c] h
  | a, [b, c, d], _, h => pokeBytes src a [b, c, d] h
  | a, b :: c :: d :: e :: t, _, h =>
    .ite (pokeRun src (a + 4) t (h.pokeWord ..)) (pokeRun src (a + 1) (c :: d :: e :: t) (pokeBytes src a [b] h))

/-! #### The Lane, the program, the latch -/

section
variable (h : s0.PartsKept s)
include h

theorem progTo (p : ProgState) : s0.PartsKept (s.progTo p) := by
  have ht : s0.PartsKept { s with ctl.pstate := p } := h.agree rfl rfl rfl
  exact ((ht.raiseIf _ _).raiseIf _ _).wlvSync

theorem laneTo (x : LaneState) : s0.PartsKept (s.laneTo x) := by
  have ht : s0.PartsKept { s with lane.state := x } := h.agree rfl rfl rfl
  exact .ite h (ht.raise 192)

theorem laneOff : s0.PartsKept s.laneOff := by
  have ht : s0.PartsKept { s with
      lane.enabled := false, lane.stopping := false, lane.pass := none, lane.turnNext := none, lane.heardCfg := 0 } :=
    h.agree rfl rfl rfl
  exact ht.laneTo .off

theorem laneClose : s0.PartsKept s.laneClose := by
  have hend := h.laneOff.driveEnd
  have ht : s0.PartsKept { s.laneOff.driveEnd with wlv.state := s.laneOff.driveEnd.standbyState } := hend.agree rfl rfl rfl
  exact .ite h.laneOff ht.wlvSync

theorem laneStop : s0.PartsKept s.laneStop := .ite h (.ite h.laneOff (.ite h.laneClose (h.agree rfl rfl rfl)))

theorem laneOn : s0.PartsKept s.laneOn := by
  have ht : s0.PartsKept { s with
      lane.enabled := true, lane.stopping := false, lane.present := 0, lane.miss := 0 } := h.agree rfl rfl rfl
  exact .ite (ht.laneTo .listen) (h.agree rfl rfl rfl)

theorem stopAsk : s0.PartsKept s.stopAsk := .ite (h.agree rfl rfl rfl) h

theorem abortRx (p : Fin 4) : s0.PartsKept (s.abortRx p) := by
  have ht : s0.PartsKept (s.modPort p fun c => { c with busyTo := some s.tre.time }) := h.agree rfl rfl rfl
  exact .ite (ht.count1 _ _) h

theorem ethAbort (e : Fin 2) : s0.PartsKept (s.ethAbort e) := by
  have ht : s0.PartsKept s.took := h.agree rfl rfl rfl
  exact .when ht (ht.count1 _ _)

theorem netAbort : s0.PartsKept s.netAbort :=
  .each (.when h (.each h fun p _ ht => ht.abortRx p)) fun e _ ht => ht.ethAbort e

theorem syncLost : s0.PartsKept s.syncLost := by
  have ht : s0.PartsKept { s with tre.sync := .free, tre.good := 0, tre.bad := 0 } := h.agree rfl rfl rfl
  exact (ht.raiseIf _ _).revCheck

theorem gateOwnerReset (code : Byte) : s0.PartsKept (s.gateOwnerReset code) :=
  raiseIf (each h fun g t ht => (ht.agree rfl rfl rfl : s0.PartsKept (t.setGate g ⟨0, true⟩))) _ 238

theorem dmaUnland (w : DmaWr) : s0.PartsKept (s.dmaUnland w) := by
  unfold State.dmaUnland
  split
  · exact h
  · exact agree (s := if _ then _ else s) (.ite (h.setBytes _ _) h) rfl rfl rfl

theorem dmaDrop (n : Fin 32) : s0.PartsKept (s.dmaDrop n) := by
  have he : s0.PartsKept (s.each (s.dch n).outst.reverse State.dmaUnland) := .each h fun w _ ht => ht.dmaUnland w
  have hset : ∀ c k, s0.PartsKept (State.setDch n c { s.each (s.dch n).outst.reverse State.dmaUnland with free := k }) :=
    fun _ _ => he.agree rfl rfl rfl
  exact .ite h ((hset _ _).gateOwnerReset _)

theorem dmaDropAll : s0.PartsKept s.dmaDropAll := .each h fun n _ ht => ht.dmaDrop n

theorem splitHand (old : BitVec 10) : s0.PartsKept (s.splitHand old) := by
  unfold State.splitHand
  dsimp only
  (repeat' split) <;> exact h.agree rfl rfl rfl

theorem splitTake : s0.PartsKept s.splitTake := by
  have ht : ∀ x y, s0.PartsKept { s with sys.splitAct := x, sys.splitDiff := y } := fun _ _ => h.agree rfl rfl rfl
  exact ((ht _ _).splitHand _).raiseIf _ 4

theorem spFaultCode (code : Half) : s0.PartsKept (s.spFaultCode code) := by
  have ht : s0.PartsKept (if s.sys.spFault = 0 then { s with sys.spFault := code } else s) := .ite (h.agree rfl rfl rfl) h
  exact ht.fbQueue _

theorem hsEval : s0.PartsKept s.hsEval := by
  have ht : ∀ b, s0.PartsKept { s with boot.hsrt := b } := fun _ => h.agree rfl rfl rfl
  exact .ite (ht _) (raise (.ite ((ht _).spFaultCode _) (ht _)) 253)

theorem runtimeHead (b : Bool) : s0.PartsKept (s.runtimeHead b) := h.agree rfl rfl rfl

theorem runtimeEnter (b : Bool) : s0.PartsKept (s.runtimeEnter b) := .ite (h.agree rfl rfl rfl) h

theorem runtimeLoad (b : Bool) : s0.PartsKept (s.runtimeLoad b) := by
  rw [State.runtimeLoad_eq]
  exact ((pokeRun 1 _ _ h).runtimeHead b).hsEval.runtimeEnter b

theorem rejoinLate : s0.PartsKept s.rejoinLate := by
  unfold State.rejoinLate
  exact wlvSync (h.agree rfl rfl rfl)

end

end State.PartsKept

/-! ### A partition changes its state (16 R437) -/

/-- From s to t a partition took a state with EV254, no other changed its own, CMDREF stood, and every event raised stayed
raised. -/
def State.PartMoves (p : Fin 6) (x : PartState) (s t : State) : Prop :=
  t.part p = x ∧ (∀ q, q ≠ p → t.part q = s.part q) ∧ t.sys.cmdref = s.sys.cmdref ∧ t.evt.raw.getLsbD 254 = true ∧
    ∀ n, s.evt.raw.getLsbD n = true → t.evt.raw.getLsbD n = true

namespace State.PartMoves
variable {p : Fin 6} {x : PartState} {s t u : State}

theorem thenKept (h : s.PartMoves p x t) (hk : t.PartsKept u) : s.PartMoves p x u := by
  obtain ⟨hp, hq, hc, h254, hraw⟩ := h
  exact ⟨(hk.part p).trans hp, fun q hne => (hk.part q).trans (hq q hne), hk.cmdref.trans hc, hk.raised h254,
    fun n hn => hk.raised (hraw n hn)⟩

theorem afterKept (hk : s.PartsKept t) (h : t.PartMoves p x u) : s.PartMoves p x u := by
  obtain ⟨hp, hq, hc, h254, hraw⟩ := h
  exact ⟨hp, fun q hne => (hq q hne).trans (hk.part q), hc.trans hk.cmdref, h254, fun n hn => hraw n (hk.raised hn)⟩

theorem now (h : s.PartMoves p x t) : t.part p = x := by
  obtain ⟨hp, -⟩ := h
  exact hp

theorem others (h : s.PartMoves p x t) : ∀ q, q ≠ p → t.part q = s.part q := by
  obtain ⟨-, hq, -⟩ := h
  exact hq

theorem cmdref (h : s.PartMoves p x t) : t.sys.cmdref = s.sys.cmdref := by
  obtain ⟨-, -, hc, -⟩ := h
  exact hc

theorem raised254 (h : s.PartMoves p x t) : t.evt.raw.getLsbD 254 = true := by
  obtain ⟨-, -, -, h254, -⟩ := h
  exact h254

theorem raised (h : s.PartMoves p x t) {n : Nat} (hn : s.evt.raw.getLsbD n = true) : t.evt.raw.getLsbD n = true := by
  obtain ⟨-, -, -, -, hraw⟩ := h
  exact hraw n hn

end State.PartMoves

theorem State.partTo_moves (p : Fin 6) (x : PartState) (s : State) : s.PartMoves p x (s.partTo p x) := by
  have hk : State.PartsKept (State.raise 254 { s with sys.parts := s.sys.parts.set p x }) (s.partTo p x) :=
    .revCheck (.refl _)
  refine .thenKept ⟨?_, fun q hq => ?_, ?_, State.raise_raises _ (by decide), fun n hn => ?_⟩ hk
  · rw [(State.PartsKept.raise (.refl _) 254).part]
    exact (Vector.get_set s.sys.parts p p x).trans (if_pos rfl)
  · rw [(State.PartsKept.raise (.refl _) 254).part]
    exact (Vector.get_set s.sys.parts p q x).trans (if_neg hq)
  · exact (State.PartsKept.raise (.refl _) 254).cmdref
  · exact (State.PartsKept.raise (s0 := { s with sys.parts := s.sys.parts.set p x }) (.refl _) 254).raised hn

@[simp] theorem State.partTo_boot (p : Fin 6) (x : PartState) (s : State) : (s.partTo p x).boot = s.boot := by
  simp [State.partTo]

theorem State.partTo_ctl (p : Fin 6) (x : PartState) (s : State) : (s.partTo p x).ctl = s.ctl :=
  State.Steady.ctl (s0 := { s with sys.parts := s.sys.parts.set p x }) (.revCheck (.raise 254 (.refl _)))

@[simp] theorem State.splitTake_boot (s : State) : s.splitTake.boot = s.boot := by
  have hhand : ∀ (old : BitVec 10) (t : State), (t.splitHand old).boot = t.boot := fun old t => by
    unfold State.splitHand
    dsimp only
    (repeat' split) <;> rfl
  simp [State.splitTake, hhand]

/-! ### The starts of the commands (16 Table 16.7) -/

theorem State.quiesceStart_moves (p : Fin 6) (s : State) : s.PartMoves p .quiescing (s.quiesceStart p) := by
  have h := s.partTo_moves p .quiescing
  unfold State.quiesceStart
  dsimp only
  split
  · exact h.thenKept (.netAbort (.refl _))
  · exact h.thenKept (.stopAsk (.refl _))
  · exact h.thenKept (.laneStop (.refl _))
  · exact h

theorem State.rejoinStart_moves (p : Fin 6) (s : State) : s.PartMoves p .rejoining (s.rejoinStart p) := s.partTo_moves p .rejoining

theorem State.resetStart_moves (bankB : Bool) (p : Fin 6) (s : State) : s.PartMoves p .resetting (s.resetStart bankB p) := by
  have h := s.partTo_moves p .resetting
  have hoff : ∀ (a i : Nat) {u v : State}, u.PartsKept v → u.PartsKept (v.setReg a (clrBit (v.reg a) i)) :=
    fun _ _ _ _ hv => hv.agree rfl rfl rfl
  refine h.thenKept ?_
  have hr := State.PartsKept.refl (s.partTo p .resetting)
  unfold State.resetStart
  dsimp only
  split
  · exact .wlvSync (hr.agree rfl rfl rfl)
  · refine hoff _ _ (hoff _ _ (hoff _ _ (hoff _ _ (hoff _ _ (.each (.each (hr.agree rfl rfl rfl) ?_) ?_)))))
    · exact fun q _ ht => ht.frameEnd q 1
    · exact fun w _ ht => ht.txDone w 1
  · apply State.PartsKept.gateOwnerReset
    exact hr.agree rfl rfl rfl
  · exact hoff _ _ (hr.laneOff.agree rfl rfl rfl)
  · apply State.PartsKept.gateOwnerReset
    exact hr.agree rfl rfl rfl
  · have hch := State.PartsKept.each (hr.gateOwnerReset 3) (l := fins 32)
      (f := fun n u => (u.gateOwnerReset (dmaCode n)).setReg (Reg.chctl n) (clrBit ((u.gateOwnerReset (dmaCode n)).reg (Reg.chctl n)) 0))
      fun n _ ht => hoff _ _ (ht.gateOwnerReset _)
    have hclear : ∀ (d : Dma) (c : State → Cwy) (t : State), (s.partTo p .resetting).PartsKept t →
        (s.partTo p .resetting).PartsKept { t with dma := d, cwy := c t } := fun _ _ _ ht => ht.agree rfl rfl rfl
    apply hoff
    apply hoff
    exact hclear Dma.reset (fun a => { Cwy.reset with
      log := a.cwy.log, latched := a.cwy.latched, lost := a.cwy.lost, disc := a.cwy.disc
      farFrames := a.cwy.farFrames, farErrs := a.cwy.farErrs }) _ hch

/-! ### The commands (16 R437) -/

section
variable {m : Master} {p : Fin 6} {s : State} {ok : PartState → Bool} {f : Fin 6 → State → State}

/-- A command that is accepted makes its change with CMDREF clear. -/
theorem State.partCmd_accepted (hm : partMaster m p.val = true) (hok : ok (s.part p) = true) :
    s.partCmd m ⟨p.val, by omega⟩ ok f = f p { s with sys.cmdref := false } := by
  have h6 : (⟨p.val, by omega⟩ : Fin 8).val < 6 := p.isLt
  rw [State.partCmd, dif_pos h6]
  exact if_pos (by rw [Bool.and_eq_true]; exact ⟨hm, hok⟩)

theorem State.partCmd_refused (hok : ok (s.part p) = false) :
    s.partCmd m ⟨p.val, by omega⟩ ok f = { s with sys.cmdref := true } := by
  have h6 : (⟨p.val, by omega⟩ : Fin 8).val < 6 := p.isLt
  rw [State.partCmd, dif_pos h6]
  refine if_neg ?_
  rw [Bool.and_eq_true]
  rintro ⟨-, h⟩
  exact absurd (h.symm.trans hok) (by decide)

theorem State.partCmd_denied {p : Fin 8} (h : 6 ≤ p.val ∨ partMaster m p.val = false) :
    s.partCmd m p ok f = { s with sys.cmdref := true } := by
  unfold State.partCmd
  split
  · next h6 =>
    refine if_neg ?_
    rcases h with h | h
    · omega
    · simp [h]
  · rfl

end

/-- What an accepted command leaves: the partition's new state, CMDREF clear, EV254, and every other partition as it was. -/
def State.Commanded (p : Fin 6) (x : PartState) (s t : State) : Prop :=
  t.part p = x ∧ t.sys.cmdref = false ∧ t.evt.raw.getLsbD 254 = true ∧ ∀ q, q ≠ p → t.part q = s.part q

theorem State.PartMoves.commanded {p : Fin 6} {x : PartState} {s t : State}
    (h : ({ s with sys.cmdref := false } : State).PartMoves p x t) : s.Commanded p x t :=
  ⟨h.now, h.cmdref, h.raised254, h.others⟩

section
variable {m : Master} {p : Fin 6} {s : State} (hm : partMaster m p.val = true)
  (ha : s.accesses m true Reg.SYS_PARTCTL = true)
include hm ha

theorem exec_quiesce_accepted (hp : s.part p = .inService) :
    ∃ t, exec (.quiesce m ⟨p.val, by omega⟩) s = .next t ∧ s.Commanded p .quiescing t :=
  ⟨_, congrArg Host.Outcome.next ((State.access_made _ ha).trans (State.partCmd_accepted hm (decide_eq_true hp))),
    (State.quiesceStart_moves p _).commanded⟩

theorem exec_partitionReset_accepted (b : Bool) (hp : s.part p = .quiesced ∨ s.part p = .failed) :
    ∃ t, exec (.partitionReset m ⟨p.val, by omega⟩ b) s = .next t ∧ s.Commanded p .resetting t :=
  ⟨_, congrArg Host.Outcome.next ((State.access_made _ ha).trans (State.partCmd_accepted hm (by simpa using hp))),
    (State.resetStart_moves b p _).commanded⟩

theorem exec_rejoin_accepted (hp : s.part p = .quiesced) :
    ∃ t, exec (.rejoin m ⟨p.val, by omega⟩) s = .next t ∧ s.Commanded p .rejoining t :=
  ⟨_, congrArg Host.Outcome.next ((State.access_made _ ha).trans (State.partCmd_accepted hm (decide_eq_true hp))),
    (State.rejoinStart_moves p _).commanded⟩

end

section
variable {m : Master} {s : State} (ha : s.accesses m true Reg.SYS_PARTCTL = true)
include ha

theorem exec_partition_denied {p : Fin 8} (b : Bool) (h : 6 ≤ p.val ∨ partMaster m p.val = false) :
    exec (.quiesce m p) s = .next { s with sys.cmdref := true } ∧
    exec (.partitionReset m p b) s = .next { s with sys.cmdref := true } ∧
    exec (.rejoin m p) s = .next { s with sys.cmdref := true } :=
  ⟨congrArg Host.Outcome.next ((State.access_made _ ha).trans (State.partCmd_denied h)),
    congrArg Host.Outcome.next ((State.access_made _ ha).trans (State.partCmd_denied h)),
    congrArg Host.Outcome.next ((State.access_made _ ha).trans (State.partCmd_denied h))⟩

theorem exec_partition_refused (p : Fin 6) (b : Bool) :
    (s.part p ≠ .inService → exec (.quiesce m ⟨p.val, by omega⟩) s = .next { s with sys.cmdref := true }) ∧
    (s.part p ≠ .quiesced → s.part p ≠ .failed →
      exec (.partitionReset m ⟨p.val, by omega⟩ b) s = .next { s with sys.cmdref := true }) ∧
    (s.part p ≠ .quiesced → exec (.rejoin m ⟨p.val, by omega⟩) s = .next { s with sys.cmdref := true }) :=
  ⟨fun h => congrArg Host.Outcome.next ((State.access_made _ ha).trans (State.partCmd_refused (decide_eq_false h))),
    fun h h' => congrArg Host.Outcome.next ((State.access_made _ ha).trans (State.partCmd_refused (by simp [h, h']))),
    fun h => congrArg Host.Outcome.next ((State.access_made _ ha).trans (State.partCmd_refused (decide_eq_false h)))⟩

end

theorem exec_partition_still {m : Master} {s : State} (p : Fin 8) (b : Bool) (h : s.masterRuns m = false) :
    exec (.quiesce m p) s = .next s ∧ exec (.partitionReset m p b) s = .next s ∧ exec (.rejoin m p) s = .next s :=
  ⟨congrArg Host.Outcome.next (State.access_still _ _ _ h), congrArg Host.Outcome.next (State.access_still _ _ _ h),
    congrArg Host.Outcome.next (State.access_still _ _ _ h)⟩

/-! ### The ends of the commands (16 R440, Table 16.7) -/

theorem State.quiesceEnd_moves {p : Fin 6} {s : State} (h4 : p ≠ 4 ∨ s.boot.autoP4 ≠ 1) : s.PartMoves p .quiesced (s.quiesceEnd p) := by
  have h := s.partTo_moves p .quiesced
  have hr := State.PartsKept.refl (s.partTo p .quiesced)
  refine h.thenKept ?_
  have hdrop := hr.dmaDropAll
  unfold State.quiesceEnd
  split
  · exact hr.syncLost
  · dsimp only
    rw [State.splitTake_boot, State.partTo_boot, if_neg (h4.resolve_left fun h => h rfl)]
    exact hr.splitTake.agree rfl rfl rfl
  · exact hdrop
  · exact hr

theorem exec_quiesceComplete_due {p : Fin 6} {s : State} (hp : s.part p = .quiescing) (hd : s.quiesceDue p = true)
    (h4 : p ≠ 4 ∨ s.boot.autoP4 ≠ 1) :
    ∃ t, exec (.quiesceComplete p) s = .next t ∧ s.PartMoves p .quiesced t :=
  ⟨_, congrArg Host.Outcome.next (if_pos ⟨hp, hd⟩), State.quiesceEnd_moves h4⟩

theorem exec_quiesceComplete_early {p : Fin 6} {s : State} (h : s.part p ≠ .quiescing ∨ s.quiesceDue p = false) :
    exec (.quiesceComplete p) s = .next s :=
  congrArg Host.Outcome.next (if_neg (by
    rintro ⟨hp, hd⟩
    rcases h with h | h
    · exact h hp
    · exact absurd (hd.symm.trans h) (by decide)))

theorem exec_partitionResetDone {p : Fin 6} {s : State} (hp : s.part p = .resetting) :
    exec (.partitionResetDone p) s = .next (s.resetEnd p) := congrArg Host.Outcome.next (if_pos hp)

theorem State.resetEnd_moves {p : Fin 6} (h4 : p ≠ 4) (s : State) : s.PartMoves p .quiesced (s.resetEnd p) := by
  unfold State.resetEnd
  split
  · exact .afterKept (.ite (.runtimeLoad (.refl s) _) (.hsEval (.refl s))) (State.partTo_moves 2 .quiesced _)
  · exact absurd rfl h4
  · exact s.partTo_moves p .quiesced

/-- The verdict on the steward of a bank is kept for it (16 R430). -/
def State.stewardVerdict (s : State) : State :=
  if s.boot.reloadBank then { s with boot.verdB := s.verdict .steward s.boot.reloadBank }
  else { s with boot.verdA := s.verdict .steward s.boot.reloadBank }

theorem State.stewardVerdict_kept (s : State) : s.PartsKept s.stewardVerdict :=
  .ite (.agree (.refl s) rfl rfl rfl) (.agree (.refl s) rfl rfl rfl)

/-- The verdict kept is all that changes. -/
theorem State.stewardVerdict_eq (s : State) : ∃ x y, s.stewardVerdict = { s with boot.verdA := x, boot.verdB := y } := by
  unfold State.stewardVerdict
  split
  · exact ⟨s.boot.verdA, _, rfl⟩
  · exact ⟨_, s.boot.verdB, rfl⟩

theorem State.resetEnd_steward (s : State) : s.resetEnd 4 =
    if s.verdict .steward s.boot.reloadBank ≠ 0 then
      (({ s.stewardVerdict with boot.autoP4 := 0 }).raise 251).partTo 4 .failed
    else
      let v := if s.stewardVerdict.boot.phase = .limp then s.stewardVerdict
        else (s.stewardVerdict.stewardStart s.boot.reloadBank).hsEval
      let u := v.partTo 4 .quiesced
      if u.boot.autoP4 = 1 then u.rejoinStart 4 else u := rfl

theorem exec_resetDone_steward_refused {s : State} (hp : s.part 4 = .resetting)
    (hv : s.verdict .steward s.boot.reloadBank ≠ 0) :
    ∃ t, exec (.partitionResetDone 4) s = .next t ∧ s.PartMoves 4 .failed t ∧ t.evt.raw.getLsbD 251 = true ∧
      t.boot.steward = s.boot.steward := by
  refine ⟨_, exec_partitionResetDone hp, ?_⟩
  rw [State.resetEnd_steward, if_pos hv]
  have hk : s.PartsKept { s.stewardVerdict with boot.autoP4 := 0 } := s.stewardVerdict_kept.agree rfl rfl rfl
  have hm := State.partTo_moves 4 .failed (({ s.stewardVerdict with boot.autoP4 := 0 } : State).raise 251)
  obtain ⟨x, y, he⟩ := s.stewardVerdict_eq
  refine ⟨.afterKept (hk.raise 251) hm, hm.raised (State.raise_raises _ (by decide)), ?_⟩
  rw [State.partTo_boot, State.raise_boot, he]

theorem State.spFaultCode_boot (code : Half) (s : State) : (s.spFaultCode code).boot = s.boot := by
  rw [State.spFaultCode, State.fbQueue_boot]
  split <;> rfl

theorem State.spFaultCode_ctl (code : Half) (s : State) : (s.spFaultCode code).ctl = s.ctl := by
  rw [State.spFaultCode, State.fbQueue_ctl]
  split <;> rfl

/-- The handshake evaluated sets HSRT, and nothing else that the boot ROM keeps. -/
theorem State.hsEval_boot (s : State) :
    s.hsEval.boot = { s.boot with hsrt := s.boot.steward.isSome && ifFits s.boot.ifst s.boot.ifrt } := by
  unfold State.hsEval
  dsimp only
  split
  · rfl
  · rw [State.raise_boot]
    split
    · exact State.spFaultCode_boot _ _
    · rfl

theorem State.hsEval_ctl (s : State) : s.hsEval.ctl = s.ctl := by
  unfold State.hsEval
  dsimp only
  split
  · rfl
  · rw [State.raise_ctl]
    split
    · exact State.spFaultCode_ctl _ _
    · rfl

theorem exec_resetDone_steward_started {s : State} (hp : s.part 4 = .resetting)
    (hv : s.verdict .steward s.boot.reloadBank = 0) (ha : s.boot.autoP4 ≠ 1) (hl : s.boot.phase ≠ .limp) :
    ∃ t, exec (.partitionResetDone 4) s = .next t ∧ s.PartMoves 4 .quiesced t ∧ t.boot.steward = some s.boot.reloadBank ∧
      t.boot.hsst = true ∧ t.ctl.hartS.inReset = false := by
  refine ⟨_, exec_partitionResetDone hp, ?_⟩
  obtain ⟨x, y, he⟩ := s.stewardVerdict_eq
  have hphase : s.stewardVerdict.boot.phase ≠ .limp := by rw [he]; exact hl
  have hauto : s.stewardVerdict.boot.autoP4 ≠ 1 := by rw [he]; exact ha
  rw [State.resetEnd_steward, if_neg (not_not.2 hv)]
  dsimp only
  rw [if_neg hphase, if_neg (by rw [State.partTo_boot, State.hsEval_boot]; exact hauto)]
  have hk : s.PartsKept (s.stewardVerdict.stewardStart s.boot.reloadBank) := s.stewardVerdict_kept.agree rfl rfl rfl
  refine ⟨.afterKept hk.hsEval (State.partTo_moves 4 .quiesced _), ?_⟩
  rw [State.partTo_boot, State.hsEval_boot, State.partTo_ctl, State.hsEval_ctl]
  exact ⟨rfl, rfl, rfl⟩

theorem exec_resetDone_steward_limp {s : State} (hp : s.part 4 = .resetting)
    (hv : s.verdict .steward s.boot.reloadBank = 0) (ha : s.boot.autoP4 ≠ 1) (hl : s.boot.phase = .limp) :
    ∃ t, exec (.partitionResetDone 4) s = .next t ∧ s.PartMoves 4 .quiesced t ∧ t.boot.steward = s.boot.steward ∧
      t.ctl.hartS = s.ctl.hartS := by
  refine ⟨_, exec_partitionResetDone hp, ?_⟩
  obtain ⟨x, y, he⟩ := s.stewardVerdict_eq
  have hphase : s.stewardVerdict.boot.phase = .limp := by rw [he]; exact hl
  have hauto : s.stewardVerdict.boot.autoP4 ≠ 1 := by rw [he]; exact ha
  rw [State.resetEnd_steward, if_neg (not_not.2 hv)]
  dsimp only
  rw [if_pos hphase, if_neg (by rw [State.partTo_boot]; exact hauto)]
  refine ⟨.afterKept s.stewardVerdict_kept (State.partTo_moves 4 .quiesced _), ?_⟩
  rw [State.partTo_boot, State.partTo_ctl, he]
  exact ⟨rfl, rfl⟩

theorem exec_rejoinComplete {p : Fin 6} {s : State} (hp : s.part p = .rejoining) :
    exec (.rejoinComplete p) s = .next (s.rejoinEnd p) := congrArg Host.Outcome.next (if_pos hp)

theorem State.rejoinEnd_moves {p : Fin 6} (h4 : p ≠ 4) (s : State) : s.PartMoves p .inService (s.rejoinEnd p) := by
  have h := s.partTo_moves p .inService
  have hr := State.PartsKept.refl (s.partTo p .inService)
  unfold State.rejoinEnd
  split
  · exact h.thenKept hr.rejoinLate
  · exact h.thenKept ((hr.ethKick 0).ethKick 1)
  · exact h.thenKept (.ite (hr.progTo _) hr)
  · exact h.thenKept (.when hr hr.laneOn)
  · exact absurd rfl h4
  · exact h

theorem exec_rejoinComplete_steward {s : State} (hp : s.part 4 = .rejoining) :
    ∃ t, exec (.rejoinComplete 4) s = .next t ∧
      t.part 4 = (if s.boot.hsst = true ∧ s.boot.hsrt = true then .inService else .failed) ∧
      (s.handshake = false → t.evt.raw.getLsbD 253 = true) ∧ ∀ q, q ≠ 4 → t.part q = s.part q := by
  refine ⟨_, exec_rejoinComplete hp, ?_⟩
  have hu : s.PartsKept { s with boot.autoP4 := 0, ctl.hartS.halted := false } := .agree (.refl s) rfl rfl rfl
  by_cases hh : s.handshake = true
  · have hm := (State.PartMoves.afterKept hu (State.partTo_moves 4 .inService _)).thenKept (.splitTake (.refl _))
    have he : s.rejoinEnd 4 = ((({ s with boot.autoP4 := 0, ctl.hartS.halted := false } : State).partTo 4 .inService).splitTake) :=
      if_pos hh
    rw [he]
    exact ⟨by rw [hm.now, if_pos (by simpa [State.handshake] using hh)], fun hf => absurd (hf.symm.trans hh) (by decide), hm.others⟩
  · have hm := State.partTo_moves 4 .failed (({ s with boot.autoP4 := 0, ctl.hartS.halted := false } : State).raise 253)
    have he : s.rejoinEnd 4 = (({ s with boot.autoP4 := 0, ctl.hartS.halted := false } : State).raise 253).partTo 4 .failed :=
      if_neg hh
    have hall := State.PartMoves.afterKept (hu.raise 253) hm
    rw [he]
    exact ⟨by rw [hall.now, if_neg (by simpa [State.handshake] using hh)],
      fun _ => hm.raised (State.raise_raises _ (by decide)), hall.others⟩

/-! ### The steward watchdog (16 R442) -/

/-- A missed kick as it is counted and reported. -/
def State.kickMissed (b : Bool) (s : State) : State :=
  let now := s.tre.time.toNat
  let times := (s.boot.swdTimes.filter fun t => decide (now - t < 60000000000)) ++ [now]
  let t : State := { s with
    boot.swdcnt := satSucc s.boot.swdcnt, boot.swdTimes := times, boot.swdStart := s.tre.time
    boot.autoP4 := if times.length < 3 then 1 else 2, boot.reloadBank := b }
  (t.fbQueue (t.fbRec 8 0 (t.sys.spFault.setWidth 64))).raise 255

theorem State.kickMissed_kept (b : Bool) (s : State) : s.PartsKept (s.kickMissed b) := by
  have ht : ∀ n l w a, s.PartsKept { s with
      boot.swdcnt := n, boot.swdTimes := l, boot.swdStart := w, boot.autoP4 := a, boot.reloadBank := b } :=
    fun _ _ _ _ => .agree (.refl s) rfl rfl rfl
  exact ((ht _ _ _ _).fbQueue _).raise 255

theorem State.swdExpire_inService {b : Bool} {s : State} (hb : s.boot.steward = some b) (hh : s.ctl.hartS.halted = false)
    (hp : s.part 4 = .inService) : s.swdExpire = (s.kickMissed b).quiesceStart 4 := by
  have hp' : (s.kickMissed b).part 4 = .inService := ((s.kickMissed_kept b).part 4).trans hp
  unfold State.swdExpire
  split
  · next hnone => exact absurd (hb.symm.trans hnone) nofun
  · next b' hb' =>
    obtain rfl : b = b' := Option.some.inj (hb.symm.trans hb')
    exact (if_neg (by simp [hh])).trans (if_pos hp')

theorem exec_stewardWatchdog_idle {s : State} (h : s.boot.steward = none ∨ s.ctl.hartS.halted = true) :
    exec .stewardWatchdog s = .next s := by
  have hidle : s.swdExpire = s := by
    unfold State.swdExpire
    split
    · rfl
    · next hb => exact if_pos (h.resolve_left (by simp [hb]))
  refine congrArg Host.Outcome.next (?_ : s.when s.coreRuns State.swdExpire = s)
  rw [State.when, hidle, ite_self]

theorem exec_stewardWatchdog_missed {b : Bool} {s : State} (hc : s.coreRuns = true) (hb : s.boot.steward = some b)
    (hh : s.ctl.hartS.halted = false) (hp : s.part 4 = .inService) :
    ∃ t, exec .stewardWatchdog s = .next t ∧ s.PartMoves 4 .quiescing t ∧ t.boot.swdcnt = satSucc s.boot.swdcnt ∧
      t.boot.reloadBank = b ∧ t.evt.raw.getLsbD 255 = true := by
  have hm := (s.kickMissed b).quiesceStart_moves 4
  refine ⟨_, congrArg Host.Outcome.next ((State.when_true _ hc).trans (State.swdExpire_inService hb hh hp)),
    .afterKept (s.kickMissed_kept b) hm, ?_, ?_, hm.raised (State.raise_raises _ (by decide))⟩
  · exact congrArg Boot.swdcnt ((State.partTo_boot _ _ _).trans ((State.raise_boot _ _).trans (State.fbQueue_boot _ _)))
  · exact congrArg Boot.reloadBank ((State.partTo_boot _ _ _).trans ((State.raise_boot _ _).trans (State.fbQueue_boot _ _)))

/-- Settles O49. Which masters may not command a partition is log 92. -/
theorem partitionsServe : Obligations.PartitionsServe := by
  unfold Obligations.PartitionsServe
  refine ⟨fun m p s hm ha => exec_quiesce_accepted hm ha, fun m p b s hm ha => exec_partitionReset_accepted hm ha b,
    fun m p s hm ha => exec_rejoin_accepted hm ha, fun m p b s h ha => exec_partition_denied ha b h,
    fun m p b s ha => exec_partition_refused ha p b, fun m p b s => exec_partition_still p b, ?_,
    fun p s => exec_quiesceComplete_early, ?_, ?_, ?_, ?_, ?_, ?_,
    fun p s => ⟨fun h => congrArg Host.Outcome.next (if_neg h), fun h => congrArg Host.Outcome.next (if_neg h)⟩,
    fun s => rfl, fun s => exec_stewardWatchdog_idle, ?_⟩
  · intro p s hp hd h4
    obtain ⟨t, ht, hm⟩ := exec_quiesceComplete_due hp hd h4
    exact ⟨t, ht, hm.now, hm.raised254, hm.others⟩
  · intro p s hp h4
    have hm := State.resetEnd_moves h4 s
    exact ⟨_, exec_partitionResetDone hp, hm.now, hm.raised254, hm.others⟩
  · intro s hp hv
    obtain ⟨t, ht, hm, h251, hst⟩ := exec_resetDone_steward_refused hp hv
    exact ⟨t, ht, hm.now, h251, hst, hm.others⟩
  · intro s hp hv ha hl
    obtain ⟨t, ht, hm, hst, hhs, hr⟩ := exec_resetDone_steward_started hp hv ha hl
    exact ⟨t, ht, hm.now, hst, hhs, hr, hm.others⟩
  · intro s hp hv ha hl
    obtain ⟨t, ht, hm, hst, hh⟩ := exec_resetDone_steward_limp hp hv ha hl
    exact ⟨t, ht, hm.now, hst, hh, hm.others⟩
  · intro p s hp h4
    have hm := State.rejoinEnd_moves h4 s
    exact ⟨_, exec_rejoinComplete hp, hm.now, hm.raised254, hm.others⟩
  · exact fun s => exec_rejoinComplete_steward
  · intro b s hc hb hh hp
    obtain ⟨t, ht, hm, hcnt, hbank, h255⟩ := exec_stewardWatchdog_missed hc hb hh hp
    exact ⟨t, ht, hm.now, hcnt, hbank, h255, hm.others⟩

end Sys2Proof.Machine
end

section

/-!
PROOF. Registers that hold what was written stand while the unit state is brought up to date: reports, memories, frames queued
and frames that end (07 R207 to R222; 14 R390), requests and the end of drive (12 R332 to R346). Error injection alone clears
its own enable (15 R408).
-/

namespace Sys2Proof.Machine

/-- From s0 to s the register r stood, unless it is MEM_INJECT. -/
def State.RegKept (s0 : State) (r : Nat) (s : State) : Prop := r ≠ Reg.MEM_INJECT → s.reg r = s0.reg r

namespace State.RegKept
variable {s0 s t : State} {r : Nat}

theorem refl (s : State) : s.RegKept r s := fun _ => rfl

theorem trans (h : s0.RegKept r s) (h' : s.RegKept r t) : s0.RegKept r t := fun hr => (h' hr).trans (h hr)

theorem reported (hr : s.Reported t) (h : s0.RegKept r s) : s0.RegKept r t := by
  rw [hr.eq]
  exact h

theorem ite {c : Prop} [Decidable c] {a b : State} (ha : s0.RegKept r a) (hb : s0.RegKept r b) :
    s0.RegKept r (if c then a else b) := by
  split <;> assumption

theorem when {b : Bool} {f : State → State} (h : s0.RegKept r s) (hf : s0.RegKept r (f s)) :
    s0.RegKept r (s.when b f) := .ite hf h

theorem each {α : Type} {l : List α} {f : α → State → State} (h : s0.RegKept r s)
    (hf : ∀ x t, s0.RegKept r t → s0.RegKept r (f x t)) : s0.RegKept r (s.each l f) := by
  induction l generalizing s with
  | nil => exact h
  | cons x l ih => exact ih (hf x s h)

theorem raise (n : Nat) (h : s0.RegKept r s) : s0.RegKept r (s.raise n) := h.reported (State.raise_reported n s)

theorem count (p i k : Nat) (h : s0.RegKept r s) : s0.RegKept r (s.count p i k) := h.reported (State.count_reported p i k s)

theorem count1 (p i : Nat) (h : s0.RegKept r s) : s0.RegKept r (s.count1 p i) := .count p i 1 h

/-! ### Memories (15) -/

/-- Of the registers the memories themselves write MEM_INJECT alone (15 R408). -/
theorem setReg (v : Word) (h : s0.RegKept r s) : s0.RegKept r (s.setReg Reg.MEM_INJECT v) := fun hr => by
  rw [State.reg_setReg, if_neg hr]
  exact h hr

theorem setBytes (a : Nat) (bs : List Byte) (h : s0.RegKept r s) : s0.RegKept r (s.setBytes a bs) := by
  rw [State.setBytes_frame]
  exact h

theorem fixWord (a : Nat) (w : Word) (e : Option WordErr) (h : s0.RegKept r s) : s0.RegKept r ((s.putWord a w).setErr a e) :=
  State.RegKept.setBytes a _ h

theorem memLog (kind region : Nat) (src : Byte) (synd addr : Nat) (h : s0.RegKept r s) :
    s0.RegKept r (s.memLog kind region src synd addr) := h.reported (State.memLog_reported kind region src synd addr s)

theorem eccCe (kind : Nat) (src : Byte) (a : Nat) (e : WordErr) (h : s0.RegKept r s) : s0.RegKept r (s.eccCe kind src a e) :=
  .raise _ (.memLog _ _ _ _ _ h)

theorem eccUe (kind : Nat) (src : Byte) (a : Nat) (e : WordErr) (h : s0.RegKept r s) : s0.RegKept r (s.eccUe kind src a e) :=
  .raise _ (.memLog _ _ _ _ _ h)

theorem eccReadFx (src : Byte) (a : Nat) (h : s0.RegKept r s) : s0.RegKept r (s.eccReadFx src a) := by
  unfold State.eccReadFx
  split
  · exact h
  · split
    · exact .eccCe _ _ _ _ (.fixWord _ _ _ h)
    · exact .eccUe _ _ _ _ h

theorem eccFullWrite (a : Nat) (v : Word) (h : s0.RegKept r s) : s0.RegKept r (s.eccFullWrite a v) := by
  unfold State.eccFullWrite
  split
  · exact .setReg _ (.fixWord _ _ _ h)
  · exact .fixWord _ _ _ h

theorem eccWrite (src : Byte) (a : Nat) (be : BitVec 4) (v : Word) (h : s0.RegKept r s) :
    s0.RegKept r (s.eccWrite src a be v) := by
  unfold State.eccWrite
  split
  · exact .eccFullWrite _ _ h
  · split
    · exact .setBytes a _ h
    · split
      · exact .eccCe _ _ _ _ (.fixWord _ _ _ h)
      · exact .raise _ (.eccUe _ _ _ _ (.fixWord _ _ _ h))

theorem memReadFx (src : Byte) (a : Nat) (be : BitVec 4) (h : s0.RegKept r s) : s0.RegKept r (s.memReadFx src a be) := by
  have hparity := fun r => h.reported (State.parityFx_reported src r a be s)
  unfold State.memReadFx
  split
  · exact .eccReadFx _ _ h
  · exact .eccReadFx _ _ h
  · exact hparity _
  · exact hparity _
  · exact hparity _
  · exact hparity _
  · exact h

theorem blockReadFx (a n : Nat) (h : s0.RegKept r s) : s0.RegKept r (s.blockReadFx a n) := by
  have hr : s0.RegKept r (s.wordReads a n) := .each h fun _ _ => .memReadFx _ _ _
  exact .when hr hr

/-! ### The Causeway, as far as a frame's end reaches it (14 R390) -/

theorem cwyLogAdd (remote : Bool) (w nid cause notapp : Nat) (addr data : Word) (fseq : Nat) (h : s0.RegKept r s) :
    s0.RegKept r (s.cwyLogAdd remote w nid cause notapp addr data fseq) := .ite (.raise _ h) (.raise _ h)

theorem heldDrop (w : Fin 16) (h : s0.RegKept r s) : s0.RegKept r (s.heldDrop w) := by
  unfold State.heldDrop
  split
  · exact h
  · exact .cwyLogAdd _ _ _ _ _ _ _ _ h

theorem hostAccept (x : HostAcc) (v : Half) (par : BitVec 2) (h : s0.RegKept r s) : s0.RegKept r (s.hostAccept x v par) := by
  have hd := heldDrop x.win h
  have hposted : s0.RegKept r (match s.pairDone x with
      | some lo =>
        (s.modWin x.win fun c => { c with held := none }).cwyPost x 0xF
          (lanesWord (pairLanes x.lane false) lo ||| lanesWord x.lanes v)
      | none => (s.heldDrop x.win).cwyPost x (lanesBe x.lanes) (lanesWord x.lanes v)) := by
    split
    · exact h
    · exact hd
  exact .ite (.raise _ (.cwyLogAdd _ _ _ _ _ _ _ _ hd)) (.ite hd hposted)

theorem hostResume (h : s0.RegKept r s) : s0.RegKept r s.hostResume := by
  unfold State.hostResume
  split
  · exact .ite (.hostAccept _ _ _ h) h
  · exact h

theorem cwyFlightEnd (w : Fin 16) (cause idx : Nat) (h : s0.RegKept r s) : s0.RegKept r (s.cwyFlightEnd w cause idx) := by
  unfold State.cwyFlightEnd
  split
  · exact h
  · refine .hostResume (.ite h ?_)
    split
    · exact h
    · exact .cwyLogAdd _ _ _ _ _ _ _ _ h

theorem cwyTxResult (w : Fin 16) (result : Nat) (h : s0.RegKept r s) : s0.RegKept r (s.cwyTxResult w result) := by
  have hend := fun cause => cwyFlightEnd w cause 0 h
  unfold State.cwyTxResult
  split
  · exact h
  all_goals exact hend _

/-! ### A frame that ends (07 R213, R220, R222) -/

theorem txDone (a : Word) (result : Nat) (h : s0.RegKept r s) : s0.RegKept r (s.txDone a result) := by
  have hw : s0.RegKept r ((s.blockReadFx a.toNat 4).pokeWord 7 a.toNat
      (s.peekWord a.toNat &&& 0x8FFFFFFF ||| packW [(30, 1), (28, result)])) := .eccWrite _ _ _ _ (.blockReadFx _ _ h)
  exact .ite h (.when (.raise _ hw) (.count1 _ _ (.raise _ hw)))

theorem transitCount (q : QFrame) (result : Nat) (h : s0.RegKept r s) : s0.RegKept r (s.transitCount q result) := by
  have hrx : s0.RegKept r (s.when (decide (q.acct = 1)) (State.roadRxCount (RHdr.parse q.body))) :=
    .when h (.count1 _ _ (.count1 _ _ (.count _ _ _ (.count1 _ _ h))))
  exact .ite h (.when hrx (.count1 _ _ hrx))

theorem frameCount (q : QFrame) (result : Nat) (h : s0.RegKept r s) : s0.RegKept r (s.frameCount q result) := by
  unfold State.frameCount
  split
  · exact .transitCount _ _ h
  · split
    · exact .count1 _ _ (.count _ _ _ (.count1 _ _ h))
    · exact .count1 _ _ h
    · exact h

theorem recordDone (q : QFrame) (result : Nat) (h : s0.RegKept r s) :
    s0.RegKept r (match q.src with | some r => s.txDone r result | none => s) := by
  split
  · exact .txDone _ _ h
  · exact h

theorem windowDone (q : QFrame) (result : Nat) (h : s0.RegKept r s) :
    s0.RegKept r (match q.cwy with | some w => s.cwyTxResult w result | none => s) := by
  split
  · exact .cwyTxResult _ _ h
  · exact h

theorem frameEnd (q : QFrame) (result : Nat) (h : s0.RegKept r s) : s0.RegKept r (s.frameEnd q result) := by
  have hd := windowDone q result (recordDone q result (frameCount q result h))
  exact .ite h (.ite hd hd)

theorem undeliverable (q : QFrame) (h : s0.RegKept r s) :
    s0.RegKept r (s.undeliverable q) := .frameEnd _ _ (.raise _ (.count1 _ _ h))

/-! ### A frame queued (07 R211, R214, R220) -/

theorem roadDraw (p : Fin 4) (h : s0.RegKept r s) : s0.RegKept r (s.roadDraw p) := by
  unfold State.roadDraw
  dsimp only
  split <;> exact h

theorem roadAgain (p : Fin 4) (before : Option QFrame) (h : s0.RegKept r s) : s0.RegKept r (s.roadAgain p before) := by
  have hhead : s0.RegKept r (match s.roadHead p with
      | none => s.modRoad p fun r => { r with st := .idle }
      | some q => if before = some q then s else (s.modRoad p fun r => { r with count := s.drawCount q }).took) := by
    split
    · exact h
    · exact .ite h h
  exact .ite hhead (.roadDraw p h)

theorem roadPut (p : Fin 4) (q : QFrame) (h : s0.RegKept r s) : s0.RegKept r (s.roadPut p q) := .roadAgain _ _ h

theorem pfcCheck (e : Fin 2) (p : Fin 8) (h : s0.RegKept r s) : s0.RegKept r (s.pfcCheck e p) := by
  have hcount : ∀ t, s0.RegKept r t → s0.RegKept r (State.pfcCount e t) := fun t ht =>
    .count1 _ _ (.count1 _ _ (.count1 _ _ (.count _ _ _ (.count1 _ _ ht))))
  exact .ite h (.ite (hcount _ h) (.ite (hcount _ h) h))

theorem pauseCheck (p : Fin 4) (prio : Nat) (h : s0.RegKept r s) : s0.RegKept r (s.pauseCheck p prio) := by
  have hpause : ∀ t ptime, s0.RegKept r t → s0.RegKept r (t.sendPause p prio ptime) := fun _ _ ht =>
    .when (.roadPut _ _ ht) (.raise _ (.roadPut _ _ ht))
  exact .ite h (.ite (hpause _ _ h) (.ite (hpause _ _ h) h))

theorem frameLeft (q : QFrame) (h : s0.RegKept r s) : s0.RegKept r (s.frameLeft q) := by
  have hpause : s0.RegKept r (match q.from_ with
      | some p => s.pauseCheck p (RHdr.parse q.body).prio
      | none => s) := by
    split
    · exact .pauseCheck _ _ h
    · exact h
  unfold State.frameLeft
  dsimp only
  split
  · exact .pfcCheck _ _ hpause
  · exact hpause

theorem frameLost (q : QFrame) (h : s0.RegKept r s) : s0.RegKept r (s.frameLost q) :=
  .frameLeft _ (.ite (.frameEnd _ _ h) (.undeliverable _ h))

theorem roadSort (p : Fin 4) (k : Nat) (h : s0.RegKept r s) : s0.RegKept r (State.roadSort p k s) := by
  induction k generalizing s with
  | zero => exact h
  | succ k ih =>
    unfold State.roadSort
    split
    · exact h
    · split
      · exact h
      · split
        · exact .ite h (ih (.roadPut _ _ h))
        · exact ih (.frameLost _ h)

theorem roadEnqueue (p : Fin 4) (q : QFrame) (h : s0.RegKept r s) : s0.RegKept r (s.roadEnqueue p q) :=
  .roadAgain _ _ (.roadSort _ _ h)

theorem sendUnicast (dst : BitVec 6) (q : QFrame) (h : s0.RegKept r s) : s0.RegKept r (s.sendUnicast dst q) := by
  unfold State.sendUnicast
  split
  · exact .frameEnd _ _ h
  · split
    · exact .roadEnqueue _ _ h
    · exact .undeliverable _ h

theorem sendMgmt (dst : BitVec 6) (tag : BitVec 2) (payload : List Byte) (h : s0.RegKept r s) :
    s0.RegKept r (s.sendMgmt dst tag payload) := .sendUnicast _ _ h

/-! ### The wayleave and drive (12 R332 to R346) -/

theorem wlvReqRx (nid : BitVec 6) (req flags : Byte) (h : s0.RegKept r s) : s0.RegKept r (s.wlvReqRx nid req flags) :=
  .ite h (.ite h h)

theorem wlvSend (req : Nat) (h : s0.RegKept r s) : s0.RegKept r (s.wlvSend req) := by
  unfold State.wlvSend
  dsimp only
  split
  · exact h
  · exact .ite (.wlvReqRx _ _ _ h) (.sendMgmt _ _ _ h)

theorem wlvShot (req : Nat) (h : s0.RegKept r s) : s0.RegKept r (s.wlvShot req) := .wlvSend _ h

theorem drillEnd (ok : Bool) (h : s0.RegKept r s) : s0.RegKept r (s.drillEnd ok) :=
  .when (.raise _ h) (.wlvShot _ (.raise _ h))

theorem laneTo (x : LaneState) (h : s0.RegKept r s) : s0.RegKept r (s.laneTo x) := .ite h (.raise _ h)

theorem laneOff (h : s0.RegKept r s) : s0.RegKept r s.laneOff := .laneTo _ h

theorem laneOffDrive (h : s0.RegKept r s) : s0.RegKept r s.laneOffDrive := .ite (.laneTo _ h) h

theorem driveEnd (h : s0.RegKept r s) : s0.RegKept r s.driveEnd := by
  have hoff := raise 211 (s := { s with lane.perm := false, wlv.ovr := false }) h
  exact ite (.laneOffDrive (.when hoff (.drillEnd _ hoff))) h

theorem ilCheck (h : s0.RegKept r s) : s0.RegKept r s.ilCheck := .ite (.ite h (.raise _ h)) (.ite (.raise _ h) h)

theorem revCheck (h : s0.RegKept r s) : s0.RegKept r s.revCheck := .ite h h

theorem wlvIdle (h : s0.RegKept r s) : s0.RegKept r s.wlvIdle := ite (.driveEnd h) h

theorem wlvRun (h : s0.RegKept r s) : s0.RegKept r s.wlvRun :=
  ite (driveEnd (.raise _ (ite (driveEnd (ite h h)) (ite h h)))) (ite (driveEnd (ite h h)) (ite h h))

theorem ownUpdate (h : s0.RegKept r s) : s0.RegKept r s.ownUpdate := .ite (.ite h (.ite h (.ite h h))) (.ite h h)

theorem peerLostCheck (h : s0.RegKept r s) : s0.RegKept r s.peerLostCheck := .when h (.wlvShot _ h)

theorem wlvAsk (h : s0.RegKept r s) : s0.RegKept r s.wlvAsk := .ite h (.wlvSend _ h)

theorem wlvSync (h : s0.RegKept r s) : s0.RegKept r s.wlvSync := by
  have hil := ilCheck (revCheck h)
  have hdrive : s0.RegKept r (if (s.revCheck.ilCheck).able then (s.revCheck.ilCheck).wlvRun.ownUpdate
      else (s.revCheck.ilCheck).wlvIdle) := .ite (.ownUpdate (.wlvRun hil)) (.wlvIdle hil)
  exact .ite h (.wlvAsk (.peerLostCheck hdrive))

end State.RegKept

end Sys2Proof.Machine
end

section

/-!
PROOF. The closing mark of a Lane that stops (11 R325; 12 R335, R336, Table 12.2): the Lane goes OFF, and permission and OWN_OUT_N
end with it (log 194).
-/

namespace Sys2Proof.Machine

/-! ### The end of drive -/

theorem State.wlvShot_ovr (req : Nat) (s : State) : (s.wlvShot req).wlv.ovr = s.wlv.ovr := by
  unfold State.wlvShot State.wlvSend
  dsimp only
  split
  · rfl
  · split
    · unfold State.wlvReqRx
      dsimp only
      (repeat' split) <;> rfl
    · exact congrArg (·.wlv.ovr) (State.Sent.sendMgmt _ _ _ (State.Sent.refl _))

/-- Permission taken away: EV211, and a drill's check fails. -/
def State.permEnd (s : State) : State :=
  let u := State.raise 211 { s with lane.perm := false, wlv.ovr := false }
  u.when u.wlv.drillCheck.isSome (State.drillEnd false)

theorem State.driveEnd_perm {s : State} (h : s.lane.perm = true) : s.driveEnd = s.permEnd.laneOffDrive.ownRelease :=
  congrArg State.ownRelease (if_pos h)

theorem State.permEnd_steady (s : State) :
    State.Steady (State.raise 211 { s with lane.perm := false, wlv.ovr := false }) s.permEnd :=
  .when (.refl _) (.drillEnd _ (.refl _))

theorem State.permEnd_lane (s : State) : s.permEnd.lane = { s.lane with perm := false } := by
  rw [s.permEnd_steady.lane, State.raise_lane]

theorem State.permEnd_ovr (s : State) : s.permEnd.wlv.ovr = false := by
  unfold State.permEnd State.when
  dsimp only
  split
  · rw [State.drillEnd, Bool.not_false, State.when_true _ rfl, State.wlvShot_ovr, State.raise_wlv, State.raise_wlv]
  · rw [State.raise_wlv]

theorem State.permEnd_raises (s : State) : s.permEnd.evt.raw.getLsbD 211 = true :=
  s.permEnd_steady.grows.raised (State.raise_raises _ (by decide))

theorem State.laneOffDrive_lane_off {s : State} (h : s.lane.state = .off) :
    s.laneOffDrive = { s with lane.pass := none, lane.turnNext := none } := if_neg (by simp [h])

/-! ### A unit that neither drives nor is to (12 R335, R336) -/

/-- No mark is to come: the Lane is disabled or stopping. -/
def State.Ceasing (s : State) : Prop := s.lane.enabled = false ∨ s.lane.stopping = true

/-- Neither permission nor OWN_OUT_N, with no mark to come: the unit stands by. -/
structure State.Released (s : State) : Prop where
  ceasing : s.Ceasing
  perm : s.lane.perm = false
  own : s.sys.ownOutN = true
  ovr : s.wlv.ovr = false

theorem State.Released.of_steady {s t : State} (h : s.Released) (hk : s.Steady t) (ho : t.wlv.ovr = s.wlv.ovr) : t.Released where
  ceasing := by
    rw [State.Ceasing, hk.lane]
    exact h.ceasing
  perm := hk.lane ▸ h.perm
  own := hk.sys ▸ h.own
  ovr := ho.trans h.ovr

theorem State.ilCheck_revCheck_ovr (s : State) : s.revCheck.ilCheck.wlv.ovr = s.wlv.ovr := by
  have hrev : s.revCheck.wlv.ovr = s.wlv.ovr := by
    unfold State.revCheck
    split <;> rfl
  rw [← hrev]
  unfold State.ilCheck
  split <;> split <;> simp

theorem State.ilCheck_revCheck_state (s : State) : s.revCheck.ilCheck.wlv.state = s.wlv.state := by
  have hrev : s.revCheck.wlv.state = s.wlv.state := by
    unfold State.revCheck
    split <;> rfl
  rw [← hrev]
  unfold State.ilCheck
  split <;> split <;> simp

theorem State.ownWant_standby {s : State} (h : s.Ceasing) (hst : s.wlv.state = .standby ∨ s.wlv.state = .ilStandby) :
    s.ownWant = false := by
  have hmarks : s.laneMarks = false := by rcases h with h | h <;> simp [State.laneMarks, h]
  rcases hst with hst | hst <;> simp [State.ownWant, hst, hmarks]

theorem State.standbyState_cases (s : State) : s.standbyState = .standby ∨ s.standbyState = .ilStandby := by
  unfold State.standbyState
  split
  · exact .inr rfl
  · exact .inl rfl

section
variable {s : State} (h : s.Released)
include h

/-- Such a unit that may drive takes the standby state of its mode. -/
theorem State.Released.wlvRun (hst : s.wlv.state = .standby ∨ s.wlv.state = .ilStandby) :
    s.wlvRun.ownUpdate = { s with wlv.state := s.standbyState } := by
  have hrun : s.wlvRun = { s with wlv.state := s.standbyState } := by
    rcases hst with hst | hst <;> simp [State.wlvRun, hst, h.ovr, h.perm]
  have hwant : State.ownWant { s with wlv.state := s.standbyState } = false :=
    State.ownWant_standby h.ceasing s.standbyState_cases
  rw [hrun, State.ownUpdate, if_neg (Bool.eq_false_iff.mp hwant)]
  exact if_neg (by simp [h.own])

/-- One that may not is IDLE. -/
theorem State.Released.wlvIdle : s.wlvIdle = { s with wlv.state := .idle, wlv.ilClaim := false } := by
  simp [State.wlvIdle, h.perm, h.own]

/-- Bringing its unit state up to date changes neither the Lane nor its pins. -/
theorem State.Released.wlvSync (hst : s.wlv.state = .standby ∨ s.wlv.state = .ilStandby) : s.Steady s.wlvSync := by
  have hil := s.ilCheck_revCheck_state
  have hs : s.Steady s.revCheck.ilCheck := .ilCheck (.revCheck (.refl s))
  have hr := h.of_steady hs (State.ilCheck_revCheck_ovr s)
  have hdrive : s.Steady (if (s.revCheck.ilCheck).able then (s.revCheck.ilCheck).wlvRun.ownUpdate
      else (s.revCheck.ilCheck).wlvIdle) := by
    rw [hr.wlvRun (hil ▸ hst), hr.wlvIdle]
    exact .ite hs hs
  exact .ite (.refl s) (.wlvAsk (.peerLostCheck hdrive))

end

/-! ### The Lane off (11 R325) -/

theorem State.laneTo_lane (x : LaneState) (s : State) : (s.laneTo x).lane = { s.lane with state := x } := by
  unfold State.laneTo
  split
  · next hst => rw [← hst]
  · rw [State.raise_lane]

theorem State.laneOff_lane (s : State) : s.laneOff.lane = { s.lane with
    enabled := false, stopping := false, pass := none, turnNext := none, heardCfg := 0, state := .off } :=
  State.laneTo_lane _ _

theorem State.laneOffDrive_lane (s : State) : s.laneOffDrive.lane.enabled = s.lane.enabled ∧
    s.laneOffDrive.lane.stopping = s.lane.stopping ∧ s.laneOffDrive.lane.perm = s.lane.perm := by
  unfold State.laneOffDrive
  split
  · rw [State.laneTo_lane]
    exact ⟨rfl, rfl, rfl⟩
  · exact ⟨rfl, rfl, rfl⟩

theorem State.laneOffDrive_undriven (s : State) : s.Undriven s.laneOffDrive := .laneOffDrive (.refl s)

/-- Drive ended: the Lane stays enabled, or stopping, as it was, without permission, and EV211 is raised. -/
theorem State.driveEnd_ends {s : State} (hperm : s.lane.perm = true) : s.driveEnd.lane.enabled = s.lane.enabled ∧
    s.driveEnd.lane.stopping = s.lane.stopping ∧ s.driveEnd.lane.perm = false ∧ s.driveEnd.sys.ownOutN = true ∧
      s.driveEnd.wlv.ovr = false ∧ s.driveEnd.evt.raw.getLsbD 211 = true := by
  have hl := s.permEnd_lane
  obtain ⟨hen, hstop, hp⟩ := s.permEnd.laneOffDrive_lane
  rw [hl] at hen hstop hp
  rw [State.driveEnd_perm hperm]
  exact ⟨hen, hstop, hp, rfl,
    (congrArg Wlv.ovr (State.laneOffDrive_wlv _)).trans s.permEnd_ovr, (State.laneOffDrive_undriven _).grows.raised s.permEnd_raises⟩

theorem State.driveEnd_released {s : State} (hperm : s.lane.perm = true) (hc : s.Ceasing) : s.driveEnd.Released := by
  obtain ⟨hen, hstop, hp, hown, hovr, -⟩ := State.driveEnd_ends hperm
  exact ⟨by rwa [State.Ceasing, hen, hstop], hp, hown, hovr⟩

/-- The unit stands by after that. -/
theorem State.driveEnd_standsBy {s : State} (hperm : s.lane.perm = true) (hc : s.Ceasing) :
    State.Steady { s.driveEnd with wlv.state := s.driveEnd.standbyState }
      ({ s.driveEnd with wlv.state := s.driveEnd.standbyState } : State).wlvSync := by
  have hrel := State.driveEnd_released hperm hc
  exact State.Released.wlvSync ⟨hrel.ceasing, hrel.perm, hrel.own, hrel.ovr⟩ (State.standbyState_cases _)

theorem State.driveEnd_lane_off {s : State} (hperm : s.lane.perm = true) (hoff : s.lane.state = .off) :
    s.driveEnd.lane = { s.lane with perm := false, pass := none, turnNext := none } := by
  have hl := s.permEnd_lane
  rw [State.driveEnd_perm hperm, State.laneOffDrive_lane_off (by rw [hl]; exact hoff)]
  show ({ s.permEnd.lane with pass := none, turnNext := none } : Lane) = _
  rw [hl]

/-- After the closing mark of a unit that drives. -/
theorem State.laneClose_ends {s : State} (hperm : s.lane.perm = true) :
    s.laneClose.lane.enabled = false ∧ s.laneClose.lane.state = .off ∧ s.laneClose.lane.pass = none ∧
      s.laneClose.lane.perm = false ∧ s.laneClose.sys.ownOutN = true ∧ s.laneClose.evt.raw.getLsbD 211 = true := by
  have hl := s.laneOff_lane
  have hperm' : s.laneOff.lane.perm = true := by rw [hl]; exact hperm
  have hceasing : s.laneOff.Ceasing := .inl (by rw [hl])
  obtain ⟨-, -, hp, hown, -, h211⟩ := State.driveEnd_ends hperm'
  have hlane := State.driveEnd_lane_off hperm' (by rw [hl])
  have hclose : s.laneClose =
      ({ s.laneOff.driveEnd with wlv.state := s.laneOff.driveEnd.standbyState } : State).wlvSync := if_neg (by simp [hperm'])
  have hk := State.driveEnd_standsBy hperm' hceasing
  rw [hclose, hk.lane, hk.sys]
  refine ⟨?_, ?_, congrArg Lane.pass hlane, hp, hown, hk.grows.raised h211⟩
  · exact (congrArg Lane.enabled hlane).trans (congrArg Lane.enabled hl)
  · exact (congrArg Lane.state hlane).trans (congrArg Lane.state hl)

theorem State.RegKept.laneClose {s0 s : State} {r : Nat} (h : s0.RegKept r s) : s0.RegKept r s.laneClose := by
  have hend := h.laneOff.driveEnd
  have hset : s0.RegKept r { s.laneOff.driveEnd with wlv.state := s.laneOff.driveEnd.standbyState } := hend
  exact .ite h.laneOff hset.wlvSync

end Sys2Proof.Machine
end

section

/-!
PROOF. Rules of the Lane's operations (11 R306 to R316): what a count, a frame sent or received, a pass and the trace leave of the
state, and what a frame of given slots reads back as.
-/

namespace Sys2Proof.Machine

/-! ### Counts (08 R246) -/

section
variable (p i k : Nat) (s : State)

/-- A count changes the counters and raises events. -/
theorem State.count_lane : (s.count p i k).lane = s.lane := congrArg SendCore.lane (State.Sent.count p i k (.refl s))
theorem State.count_ctl : (s.count p i k).ctl = s.ctl := congrArg SendCore.ctl (State.Sent.count p i k (.refl s))
theorem State.count_sys : (s.count p i k).sys = s.sys := congrArg SendCore.sys (State.Sent.count p i k (.refl s))
theorem State.count_sp_walk : (s.count p i k).sp.walk = s.sp.walk :=
  congrArg (fun c : SendCore => c.sp.walk) (State.Sent.count p i k (.refl s))
theorem State.count_out : (s.count p i k).out = s.out := (State.count_reported p i k s).out

theorem State.count_mem : (s.count p i k).mem = s.mem := by
  unfold State.count State.raiseIf State.when
  dsimp only
  (repeat' split) <;> simp

theorem State.count_regs : (s.count p i k).regs = s.regs := by
  rw [(State.count_reported p i k s).eq]
  rfl

end

/-! ### Frames (11 R306, Table 11.1) -/

section
variable (type : Nat) (dir deliver : Bool) (cnt : Byte) (target : Nat) (slots : List (List Byte))

theorem length_laneFrame : (laneFrame type dir deliver cnt target slots).length = 8 + slots.flatten.length := by
  simp [laneFrame]
  omega

theorem parse_laneFrame_hcrcOk : (LHdr.parse (laneFrame type dir deliver cnt target slots)).hcrcOk = true := by
  let h : List Byte := [BitVec.ofNat 8 (type * 16 + dir.toNat * 8 + deliver.toNat * 4), cnt, BitVec.ofNat 8 slots.length,
    BitVec.ofNat 8 target] ++ beBytes 2 (8 + slots.flatten.length)
  have hframe : laneFrame type dir deliver cnt target slots = h ++ (beBytes 2 (crc16 h).toNat ++ slots.flatten) := by
    simp [laneFrame, h]
  have hlen : h.length = 6 := by simp [h]
  have hcrc : beAt (h ++ (beBytes 2 (crc16 h).toNat ++ slots.flatten)) 6 2 = (crc16 h).toNat :=
    beAt_append h _ hlen (crc16 h).isLt
  have hhead : slice (h ++ (beBytes 2 (crc16 h).toNat ++ slots.flatten)) 0 6 = h := slice_append [] h _ rfl hlen
  rw [hframe, LHdr.parse, hcrc, hhead]
  exact decide_eq_true rfl

theorem parse_laneFrame_type (ht : type < 16) : (LHdr.parse (laneFrame type dir deliver cnt target slots)).type = type := by
  cases dir <;> cases deliver <;> simp [LHdr.parse, laneFrame, fld] <;> omega

theorem parse_laneFrame_nslot (hn : slots.length < 256) :
    (LHdr.parse (laneFrame type dir deliver cnt target slots)).nslot = slots.length := by
  simp [LHdr.parse, laneFrame]
  omega

end

theorem length_laneSlot (cnt : Byte) (safe tog : Bool) (i : Nat) (out : List Byte) (ins : Nat) :
    (laneSlot cnt safe tog i out ins).length = 7 + out.length + ins := by
  simp [laneSlot]
  omega

/-! ### What is sent (11 R309, R310, R314) -/

section
variable (onL2 : Bool) (b : List Byte) (s : State)

theorem State.laneTx_out (hl : s.laneLoop = false) : (s.laneTx onL2 b).out = s.out ++ [.lane onL2 b (crc32 b)] := by
  unfold State.laneTx
  dsimp only
  rw [if_neg (by simp [hl])]
  simp [State.emit, State.count1, State.count_out]

theorem State.laneTx_sent_lane : (s.laneTx onL2 b).lane = s.lane := by
  unfold State.laneTx
  dsimp only
  split <;> simp [State.count1, State.count_lane]

theorem State.laneTx_laneLoop : (s.laneTx onL2 b).laneLoop = s.laneLoop := by
  unfold State.laneLoop State.regBit State.reg State.laneTx
  dsimp only
  split <;> simp [State.count1, State.count_regs, State.count_sp_walk, State.emit]

theorem State.laneTrace_keeps (n : Nat) : ∃ x y, (s.laneTrace n).lane = { s.lane with traceSlot := x, tracePhase := y } :=
  ⟨_, _, rfl⟩

end

section
variable (type : Nat) (deliver tog : Bool) (slots : Bool → List (List Byte)) (s : State)

/-- The pass that is in hand once a pass has been sent. -/
def State.passSent (type : Nat) (deliver tog : Bool) (s : State) : LanePass :=
  ⟨deliver, tog, s.lane.cnt, BitVec.ofNat 4 type, if s.twoCopies then 2 else 1, [], 0⟩

/-- A pass sent is in hand, and CNT has moved on. -/
theorem State.lanePass_lane : ∃ x y, (s.lanePass type deliver tog slots).lane = { s.lane with
    pass := some (s.passSent type deliver tog), cnt := s.lane.cnt + 1, traceSlot := x, tracePhase := y } := by
  unfold State.lanePass
  dsimp only
  obtain ⟨x, y, h⟩ := State.laneTrace_keeps { (if s.twoCopies then
      (s.laneTx false (laneFrame type false deliver s.lane.cnt 0 (slots false))).laneTx true
        (laneFrame type true deliver s.lane.cnt 0 (slots true))
    else s.laneTx false (laneFrame type false deliver s.lane.cnt 0 (slots false))) with
      lane.pass := some (s.passSent type deliver tog), lane.cnt := s.lane.cnt + 1 } (slots false).length
  refine ⟨x, y, h.trans ?_⟩
  split
  · next h2 => simp only [State.laneTx_sent_lane, State.passSent, h2, if_true]
  · next h2 => simp only [State.laneTx_sent_lane, State.passSent, h2, if_false, Bool.false_eq_true]

theorem State.lanePass_out (hl : s.laneLoop = false) : (s.lanePass type deliver tog slots).out =
    if s.twoCopies then
      s.out ++ [.lane false (laneFrame type false deliver s.lane.cnt 0 (slots false))
        (crc32 (laneFrame type false deliver s.lane.cnt 0 (slots false))),
        .lane true (laneFrame type true deliver s.lane.cnt 0 (slots true))
        (crc32 (laneFrame type true deliver s.lane.cnt 0 (slots true)))]
    else s.out ++ [.lane false (laneFrame type false deliver s.lane.cnt 0 (slots false))
      (crc32 (laneFrame type false deliver s.lane.cnt 0 (slots false)))] := by
  unfold State.lanePass State.laneTrace
  dsimp only
  rw [State.took_out]
  split
  · rw [State.laneTx_out _ _ _ ((State.laneTx_laneLoop _ _ _).trans hl), State.laneTx_out _ _ _ hl]
    simp
  · exact State.laneTx_out _ _ _ hl

end

/-! ### What is received (11 R311; 08 Table 8.1) -/

theorem State.laneRxCount_reported (f : LaneRx) (h : LHdr) (s : State) : s.Reported (s.laneRxCount f h) := by
  have h1 : ∀ (i : Nat) {t : State}, s.Reported t → s.Reported (t.count1 7 i) := fun i t ht =>
    ht.trans (State.count1_reported 7 i t)
  unfold State.laneRxCount
  refine .ite (h1 _ (.refl s)) (.ite ((h1 _ (.refl s)).trans (State.raise_reported _ _)) ?_)
  exact h1 _ ((h1 _ (.refl s)).trans (State.count_reported _ _ _ _))

end Sys2Proof.Machine
end

section

/-!
PROOF. The Lane's states and START (11 R308, R316 to R325, Tables 11.4 and 11.5): enabling and disabling (log 47), IDENT, RANGE and
CONFIG, STARTT (log 48), the commit and LANE_SUBDONE.
-/

namespace Sys2Proof.Machine

/-! ### Enabling and disabling (11 R324, R325) -/

theorem State.regBit_setReg_same (a i : Nat) (v : Word) (s : State) : (s.setReg a v).regBit a i = (v &&& regMask a).getLsbD i := by
  rw [State.regBit, State.reg_setReg, if_pos rfl]

/-- EN as it is stored: bit 0 of LANE_CTL. -/
theorem State.laneCtl_cleared (s : State) :
    (s.setReg Reg.LANE_CTL (clrBit (s.reg Reg.LANE_CTL) 0)).regBit Reg.LANE_CTL 0 = false := by
  rw [State.regBit_setReg_same, BitVec.getLsbD_and, clrBit]
  simp

theorem State.laneCtl_set (s : State) :
    (s.setReg Reg.LANE_CTL (setBit (s.reg Reg.LANE_CTL) 0)).regBit Reg.LANE_CTL 0 = true := by
  rw [State.regBit_setReg_same, BitVec.getLsbD_and, getLsbD_setBit_self _ (by decide)]
  decide

theorem State.regBit_of_regs {s t : State} (h : t.regs = s.regs) (a i : Nat) : t.regBit a i = s.regBit a i := by
  rw [State.regBit, State.reg, h]
  rfl

theorem exec_laneEnable_misfit {s : State} (he : s.lane.enabled = false) (hf : s.laneFits = false) :
    ∃ t, exec .laneEnable s = .next t ∧ t.lane = s.lane ∧ t.evt.raw.getLsbD 203 = true ∧ t.regBit Reg.LANE_CTL 0 = false := by
  refine ⟨_, congrArg Host.Outcome.next ((if_neg (by simp [he])).trans (if_pos (by simp [hf]))), ?_,
    State.raise_raises _ (by decide), ?_⟩
  · rw [State.raise_lane]
    rfl
  · rw [State.regBit_of_regs (State.raise_regs _ _)]
    exact s.laneCtl_cleared

theorem exec_laneEnable_listens {s : State} (he : s.lane.enabled = false) (hf : s.laneFits = true) (ho : s.lane.state = .off)
    (hp : s.sys.parts.get 3 = .inService) :
    ∃ t, exec .laneEnable s = .next t ∧ t.lane.enabled = true ∧ t.lane.state = .listen ∧ t.lane.stopping = false ∧
      t.evt.raw.getLsbD 192 = true ∧ t.regBit Reg.LANE_CTL 0 = true := by
  have hon : (s.setReg Reg.LANE_CTL (setBit (s.reg Reg.LANE_CTL) 0)).laneOn = State.raise 192
      { s.setReg Reg.LANE_CTL (setBit (s.reg Reg.LANE_CTL) 0) with
        lane.enabled := true, lane.stopping := false, lane.present := 0, lane.miss := 0, lane.state := .listen } :=
    (if_pos ho).trans (if_neg (by
      show s.lane.state ≠ .listen
      simp [ho]))
  refine ⟨_, congrArg Host.Outcome.next ((if_neg (by simp [he])).trans ((if_neg (by simp [hf])).trans
    ((if_neg (not_not.2 hp)).trans hon))), ?_⟩
  rw [State.regBit_of_regs (State.raise_regs _ _), State.raise_lane]
  exact ⟨rfl, rfl, rfl, State.raise_raises _ (by decide), s.laneCtl_set⟩

theorem exec_laneEnable_enabled {s : State} (he : s.lane.enabled = true) (hs : s.lane.stopping = false) :
    exec .laneEnable s = .next s := congrArg Host.Outcome.next (if_pos (by simp [he, hs]))

section
variable {s : State} (he : s.lane.enabled = true)
include he

theorem exec_laneDisable_unpermitted (hp : s.lane.perm = false) :
    ∃ t, exec .laneDisable s = .next t ∧ t.lane.enabled = false ∧ t.lane.state = .off ∧ t.lane.pass = none := by
  refine ⟨_, congrArg Host.Outcome.next ((if_neg (by simp [he])).trans (if_pos (by simp [hp]))), ?_⟩
  rw [State.laneOff_lane]
  exact ⟨rfl, rfl, rfl⟩

variable (hp : s.lane.perm = true)
include hp

theorem exec_laneDisable_unmarked (hm : s.lane.marked = false) :
    ∃ t, exec .laneDisable s = .next t ∧ t.lane = { s.lane with stopping := true } ∧ t.regBit Reg.LANE_CTL 0 = false :=
  ⟨_, congrArg Host.Outcome.next ((if_neg (by simp [he])).trans ((if_neg (by simp [hp])).trans (if_neg (by simp [hm])))), rfl,
    s.laneCtl_cleared⟩

theorem exec_laneDisable_marked (hm : s.lane.marked = true) :
    ∃ t, exec .laneDisable s = .next t ∧ t.lane.enabled = false ∧ t.lane.state = .off ∧ t.lane.perm = false ∧
      t.sys.ownOutN = true ∧ t.evt.raw.getLsbD 211 = true ∧ t.regBit Reg.LANE_CTL 0 = false := by
  have hperm : (s.setReg Reg.LANE_CTL (clrBit (s.reg Reg.LANE_CTL) 0)).lane.perm = true := hp
  obtain ⟨hen, hoff, -, hend, hown, h211⟩ := State.laneClose_ends hperm
  refine ⟨_, congrArg Host.Outcome.next ((if_neg (by simp [he])).trans ((if_neg (by simp [hp])).trans (if_pos hm))), hen, hoff,
    hend, hown, h211, ?_⟩
  have hreg := State.RegKept.laneClose (r := Reg.LANE_CTL) (.refl (s.setReg Reg.LANE_CTL (clrBit (s.reg Reg.LANE_CTL) 0)))
    (by decide)
  exact (congrArg (·.getLsbD 0) hreg).trans s.laneCtl_cleared

end

/-! ### FAIL and START (11 R322 to R324) -/

theorem State.lanePermit_fail {s : State} (fresh : Bool) (h : s.lane.state = .fail) :
    s.lanePermit fresh = if fresh = true then s.laneStart else s := by
  simp [State.lanePermit, h]

theorem exec_forcestart_starts {s : State} (h : s.lane.state = .fail) (hp : s.lane.perm = true) (hf : s.laneFits = true) :
    ∃ t, exec .forcestart s = .next t ∧ t.lane.state = .start ∧ t.lane.step = 0 ∧ t.lane.configured = 0 ∧ t.lane.accepted = 0 := by
  refine ⟨_, congrArg Host.Outcome.next ((if_pos ⟨h, hp⟩).trans (if_neg (by simp [hf]))), ?_⟩
  rw [State.laneTo_lane]
  exact ⟨rfl, rfl, rfl, rfl⟩

theorem exec_forcestart_misfit {s : State} (h : s.lane.state = .fail) (hp : s.lane.perm = true) (hf : s.laneFits = false) :
    exec .forcestart s = .next (s.raise 203) :=
  congrArg Host.Outcome.next ((if_pos ⟨h, hp⟩).trans (if_pos (by simp [hf])))

theorem exec_forcestart_other {s : State} (h : s.lane.state ≠ .fail ∨ s.lane.perm = false) : exec .forcestart s = .next s :=
  congrArg Host.Outcome.next (if_neg (by
    rintro ⟨hs, hp⟩
    rcases h with h | h
    · exact h hs
    · simp [hp] at h))

/-! ### IDENT (11 R323) -/

theorem State.laneStarts_start {s : State} (h : s.laneStarts = true) : s.lane.state = .start := by
  simp only [State.laneStarts, Bool.and_eq_true, decide_eq_true_eq] at h
  exact h.2

/-- The slots of an IDENT pass: one for every station in use. -/
def State.identSlots (s : State) : List (List Byte) := s.stations.map fun i => laneSlot s.lane.cnt false s.laneTog i [] 9

theorem State.length_identSlots (s : State) : s.identSlots.length = s.nst := by simp [State.identSlots, State.stations]

theorem State.nst_le (s : State) : s.nst ≤ 32 := Nat.min_le_left _ _

theorem State.length_identSlots_flatten (s : State) : s.identSlots.flatten.length = 16 * s.nst := by
  rw [List.length_flatten, State.identSlots, List.map_map]
  have hconst : (List.length ∘ fun i => laneSlot s.lane.cnt false s.laneTog i [] 9) = fun _ => 16 := by
    funext i
    simp [length_laneSlot]
  rw [hconst]
  simp [State.stations, Nat.mul_comm]

theorem exec_identPass_sends {s : State} (hc : s.coreRuns = true) (hs : s.laneStarts = true) (h0 : s.lane.step = 0)
    (ht : s.lane.turnNext = none) (hl : s.laneLoop = false) :
    ∃ t f, exec .identPass s = .next t ∧ t.out = s.out ++ [.lane false f (crc32 f)] ∧ f.length = 8 + 16 * s.nst ∧
      (LHdr.parse f).type = 2 ∧ (LHdr.parse f).nslot = s.nst ∧ (LHdr.parse f).hcrcOk = true ∧
      t.lane.pass.map (·.copies) = some 1 ∧ t.lane.cnt = s.lane.cnt + 1 := by
  have hone : s.twoCopies = false := by simp [State.twoCopies, State.laneStarts_start hs, ht]
  have hrun : s.identPass = s.lanePass 2 false s.laneTog fun l2 => if l2 then s.identSlots.reverse else s.identSlots :=
    if_neg (by simp [hs, h0])
  have hout := State.lanePass_out 2 false s.laneTog (fun l2 => if l2 then s.identSlots.reverse else s.identSlots) s hl
  obtain ⟨x, y, hlane⟩ := State.lanePass_lane 2 false s.laneTog (fun l2 => if l2 then s.identSlots.reverse else s.identSlots) s
  refine ⟨_, laneFrame 2 false false s.lane.cnt 0 s.identSlots, congrArg Host.Outcome.next ((State.when_true _ hc).trans hrun),
    ?_, ?_, parse_laneFrame_type 2 _ _ _ _ _ (by decide), ?_, parse_laneFrame_hcrcOk .., ?_, ?_⟩
  · rw [hout, if_neg (by simp [hone])]
    rfl
  · rw [length_laneFrame, s.length_identSlots_flatten]
  · have := s.nst_le
    rw [parse_laneFrame_nslot _ _ _ _ _ _ (by rw [s.length_identSlots]; omega), s.length_identSlots]
  · rw [hlane]
    simp [State.passSent, hone]
  · rw [hlane]

theorem exec_identPass_other {s : State} (h : s.laneStarts = false ∨ s.lane.step ≠ 0) : exec .identPass s = .next s := by
  have hsame : s.identPass = s := if_pos (by simpa using h)
  refine congrArg Host.Outcome.next (?_ : s.when s.coreRuns State.identPass = s)
  rw [State.when, hsame, ite_self]

/-! ### RANGE (11 R313, R323) -/

theorem vget_vset {α : Type} {n : Nat} (v : Vector α n) (i j : Fin n) (x : α) :
    (vset v i.val x).get j = if j = i then x else v.get j := by
  rw [vset, dif_pos i.isLt]
  exact Vector.get_set v i j x

theorem State.rangeCount_reported (rtt : Option Nat) (f : List Byte) (s : State) : s.Reported (s.rangeCount rtt f) :=
  .ite (State.laneRxCount_reported _ _ _) (State.count1_reported _ _ _)

theorem exec_rangePass_sends {st : Fin 32} {l2 : Bool} {rtt : Option Nat} {s : State} (hc : s.coreRuns = true)
    (hs : s.laneStarts = true) (h1 : s.lane.step = 1) (hst : st.val < s.nst) (hl : s.laneLoop = false) :
    ∃ t, exec (.rangePass st l2 rtt) s = .next t ∧
      t.out = s.out ++ [.lane l2 (laneFrame 3 l2 false s.lane.cnt (st.val + 1) [])
        (crc32 (laneFrame 3 l2 false s.lane.cnt (st.val + 1) []))] ∧
      t.lane.cnt = s.lane.cnt + 1 ∧ (if l2 = true then t.lane.rtt2.get st else t.lane.rtt1.get st) = rtt := by
  have hrep := State.rangeCount_reported rtt (laneFrame 3 l2 false s.lane.cnt (st.val + 1) [])
    (s.laneTx l2 (laneFrame 3 l2 false s.lane.cnt (st.val + 1) []))
  have hout := hrep.out.trans (State.laneTx_out l2 _ s hl)
  have hcnt : _ = s.lane := (congrArg State.lane hrep.eq).trans (State.laneTx_sent_lane l2 _ s)
  refine ⟨_, congrArg Host.Outcome.next ((State.when_true _ hc).trans (if_neg (by simp [hs, h1, hst]))), ?_⟩
  cases l2 with
  | true =>
    refine ⟨hout, congrArg (fun l : Lane => l.cnt + 1) hcnt, ?_⟩
    exact (vget_vset _ st st rtt).trans (if_pos rfl)
  | false =>
    refine ⟨hout, congrArg (fun l : Lane => l.cnt + 1) hcnt, ?_⟩
    exact (vget_vset _ st st rtt).trans (if_pos rfl)

theorem exec_rangePass_other {st : Fin 32} {l2 : Bool} {rtt : Option Nat} {s : State}
    (h : s.laneStarts = false ∨ s.lane.step ≠ 1 ∨ s.nst ≤ st.val) : exec (.rangePass st l2 rtt) s = .next s := by
  have hsame : s.rangePass st l2 rtt = s := if_pos (by simpa [or_assoc] using h)
  refine congrArg Host.Outcome.next (?_ : s.when s.coreRuns (State.rangePass st l2 rtt) = s)
  rw [State.when, hsame, ite_self]

/-! ### CONFIG (11 R323) -/

/-- The delay of one station is computed. -/
def State.rngSet (i : Nat) (t : State) : State := { t with lane.rng := vset t.lane.rng i (t.rngOf i) }

/-- Every station of a list gets its delay, and nothing else changes. -/
theorem State.rngSet_each (l : List Nat) (s : State) : ∃ r, s.each l State.rngSet = { s with lane.rng := r } ∧
    ∀ i : Fin 32, r.get i = if i.val ∈ l then s.rngOf i.val else s.lane.rng.get i := by
  induction l generalizing s with
  | nil => exact ⟨s.lane.rng, rfl, fun i => by simp⟩
  | cons k l ih =>
    obtain ⟨r, hr, hget⟩ := ih (s.rngSet k)
    refine ⟨r, hr, fun i => ?_⟩
    rw [hget i]
    by_cases hi : i.val ∈ l
    · rw [if_pos hi, if_pos (List.mem_cons_of_mem k hi)]
      rfl
    · rw [if_neg hi]
      by_cases hk : i.val = k
      · subst hk
        rw [if_pos (List.mem_cons_self ..)]
        exact (vget_vset _ i i _).trans (if_pos rfl)
      · rw [if_neg (by simp [hi, hk])]
        show (vset s.lane.rng k (s.rngOf k)).get i = s.lane.rng.get i
        unfold vset
        split
        · next hlt => exact (Vector.get_set s.lane.rng ⟨k, hlt⟩ i _).trans (if_neg fun e => hk (congrArg Fin.val e))
        · rfl

theorem State.configPass_eq {s : State} (hs : s.laneStarts = true) (h1 : s.lane.step = 1) :
    s.configPass = { (s.each s.stations State.rngSet).lanePass 4 false (s.each s.stations State.rngSet).laneTog fun _ =>
      (bitsOf (s.lane.accepted &&& s.inUse)).map fun i => laneSlot (s.each s.stations State.rngSet).lane.cnt false
        (s.each s.stations State.rngSet).laneTog i ((s.each s.stations State.rngSet).configBytes i) 0 with lane.step := 2 } := by
  refine (if_neg (by simp [hs, h1])).trans ?_
  rw [if_pos h1]
  rfl

theorem exec_configPass_sends {s : State} (hc : s.coreRuns = true) (hs : s.laneStarts = true) (h1 : s.lane.step = 1) :
    ∃ t, exec .configPass s = .next t ∧ t.lane.step = 2 ∧ t.lane.cnt = s.lane.cnt + 1 ∧
      ∀ i : Fin 32, t.lane.rng.get i = (if i.val < s.nst then s.rngOf i.val else s.lane.rng.get i) := by
  obtain ⟨r, hr, hget⟩ := s.rngSet_each s.stations
  refine ⟨_, congrArg Host.Outcome.next ((State.when_true _ hc).trans (State.configPass_eq hs h1)), rfl, ?_⟩
  rw [hr]
  obtain ⟨x, y, hlane⟩ := State.lanePass_lane 4 false ({ s with lane.rng := r } : State).laneTog (fun _ =>
    (bitsOf (s.lane.accepted &&& s.inUse)).map fun i => laneSlot s.lane.cnt false
      ({ s with lane.rng := r } : State).laneTog i (({ s with lane.rng := r } : State).configBytes i) 0) { s with lane.rng := r }
  refine ⟨congrArg Lane.cnt hlane, fun i => ?_⟩
  have hrng := congrArg (fun l : Lane => l.rng.get i) hlane
  refine Eq.trans hrng ((hget i).trans ?_)
  simp [State.stations]

theorem exec_configPass_other {s : State} (h : s.laneStarts = false ∨ s.lane.step = 0) : exec .configPass s = .next s := by
  have hsame : s.configPass = s := if_pos (by simpa using h)
  refine congrArg Host.Outcome.next (?_ : s.when s.coreRuns State.configPass = s)
  rw [State.when, hsame, ite_self]

/-- A delay is half of what the flat time leaves, to the nearest ns. -/
theorem dlyOf_some {r : Nat} {flat : Half} (h : flat.toNat ≤ r) (hr : r ≤ 131000) :
    2 * dlyOf (some r) flat = r - flat.toNat ∨ 2 * dlyOf (some r) flat = r - flat.toNat + 1 := by
  simp only [dlyOf]
  omega

/-! ### STARTT (11 R323; log 48) -/

theorem exec_startTimeout_fails {s : State} (hc : s.coreRuns = true) (hs : s.laneStarts = true) (h3 : s.lane.step ≠ 3)
    (h0 : s.lane.configured = 0) :
    ∃ t, exec .startTimeout s = .next t ∧ t.lane.state = .fail ∧ t.evt.raw.getLsbD 202 = true := by
  refine ⟨_, congrArg Host.Outcome.next ((State.when_true _ hc).trans ((if_neg (by simp [hs, h3])).trans (if_pos h0))), ?_,
    State.raise_raises _ (by decide)⟩
  rw [State.raise_lane, State.laneTo_lane]

theorem exec_startTimeout_some {s : State} (hc : s.coreRuns = true) (hs : s.laneStarts = true) (h3 : s.lane.step ≠ 3)
    (h0 : s.lane.configured ≠ 0) : exec .startTimeout s = .next { s with lane.step := 3 } :=
  congrArg Host.Outcome.next ((State.when_true _ hc).trans ((if_neg (by simp [hs, h3])).trans (if_neg h0)))

/-! ### LANE_SUBDONE (11 R318) -/

theorem exec_laneSubdone_idle {l : List Served} {s : State} (h : s.lane.subWait = false) : exec (.laneSubdone l) s = .next s := by
  have hsame : s.subDone State.serve l = s := if_neg (by simp [h])
  refine congrArg Host.Outcome.next (?_ : s.when s.coreRuns (State.subDone State.serve l) = s)
  rw [State.when, hsame, ite_self]

/-- A word written leaves every byte outside it. -/
theorem State.byte_pokeWord_of_not_mem {src : Byte} {a x : Nat} {v : Word} {s : State} (h : x < a ∨ a + 4 ≤ x) :
    (s.pokeWord src a v).byte x = s.byte x := by
  have hout : ¬(a ≤ x ∧ x < a + 4) := by omega
  rw [State.pokeWord, State.eccWrite, if_pos rfl]
  unfold State.eccFullWrite
  dsimp only
  split
  · exact (State.byte_putWord a x _ s).trans (if_neg hout)
  · exact (State.byte_putWord a x v s).trans (if_neg hout)

/-- The image released as it stands. -/
def State.subReleased (s : State) : State :=
  { s with
    lane.miss := s.missing
    lane.present := s.inUse &&& ~~~ s.missing
    lane.drop := s.lane.drop ||| (s.missing &&& s.lane.present)
    lane.released := true
    lane.subWait := false }

/-- It is counted, and the context block told. -/
def State.dropCounted (s : State) : State :=
  (s.subReleased.count 7 15 (bitsOf (s.missing &&& s.lane.present)).length).ctxPut 0x2C s.missing

theorem State.dropOut_eq (s : State) : s.dropOut = (if s.missing &&& s.lane.present ≠ 0 then
    ((s.dropCounted.raise 193).cause 0).drillFail else s.dropCounted).raiseIf
      (decide (s.inUse &&& ~~~ s.missing &&& s.lane.miss ≠ 0)) 194 := rfl

theorem State.dropCounted_lane (s : State) : s.dropCounted.lane = s.subReleased.lane :=
  congrArg SendCore.lane (State.Sent.eccWrite _ _ _ _ (State.Sent.count 7 15 _ (.refl s.subReleased)))

theorem State.dropCounted_ctl (s : State) : s.dropCounted.ctl = s.ctl :=
  congrArg SendCore.ctl (State.Sent.eccWrite _ _ _ _ (State.Sent.count 7 15 _ (.refl s.subReleased)))

theorem State.byte_dropCounted {x : Nat} (s : State) (h : x < 0x1007FF2C ∨ 0x1007FF30 ≤ x) : s.dropCounted.byte x = s.byte x :=
  (State.byte_pokeWord_of_not_mem (src := 7) (by simpa [ctxBase] using h)).trans (State.byte_of_mem (State.count_mem _ _ _ _) x)

theorem State.raiseIf_raised {n : Nat} (b : Bool) (m : Nat) {s : State} (h : s.evt.raw.getLsbD n = true) :
    (s.raiseIf b m).evt.raw.getLsbD n = true := (State.Steady.raiseIf b m (.refl s)).grows.raised h

theorem State.cause_raw (k : Nat) (s : State) : (s.cause k).evt = s.evt := by
  unfold State.cause
  split <;> rfl

theorem State.cause_lane (k : Nat) (s : State) : (s.cause k).lane = s.lane := by
  unfold State.cause
  split <;> rfl

theorem State.cause_mem (k : Nat) (s : State) : (s.cause k).mem = s.mem := by
  unfold State.cause
  split <;> rfl

theorem State.cause_running (k : Nat) (s : State) : (s.cause k).ctl.running = s.ctl.running := by
  unfold State.cause
  split <;> rfl

theorem State.raiseIf_keeps (b : Bool) (n : Nat) (s : State) :
    (s.raiseIf b n).lane = s.lane ∧ (s.raiseIf b n).mem = s.mem ∧ (s.raiseIf b n).ctl = s.ctl := by
  unfold State.raiseIf State.when
  split <;> simp

theorem State.dropOut_keeps (s : State) : s.dropOut.lane = s.subReleased.lane ∧ s.dropOut.mem = s.dropCounted.mem ∧
    s.dropOut.ctl.running = s.ctl.running := by
  obtain ⟨hlane, hmem, hctl⟩ := State.raiseIf_keeps (decide (s.inUse &&& ~~~ s.missing &&& s.lane.miss ≠ 0)) 194
    (if s.missing &&& s.lane.present ≠ 0 then ((s.dropCounted.raise 193).cause 0).drillFail else s.dropCounted)
  rw [State.dropOut_eq, hlane, hmem, hctl]
  split
  · refine ⟨?_, ?_, ?_⟩
    · exact (State.cause_lane _ _).trans ((State.raise_lane _ _).trans s.dropCounted_lane)
    · exact (State.cause_mem _ _).trans (State.raise_mem _ _)
    · exact (State.cause_running _ _).trans (congrArg Ctl.running ((State.raise_ctl _ _).trans s.dropCounted_ctl))
  · exact ⟨s.dropCounted_lane, rfl, congrArg Ctl.running s.dropCounted_ctl⟩

theorem State.dropOut_raises {s : State} (h : s.missing &&& s.lane.present ≠ 0) : s.dropOut.evt.raw.getLsbD 193 = true := by
  rw [State.dropOut_eq, if_pos h]
  refine State.raiseIf_raised _ _ ?_
  show ((s.dropCounted.raise 193).cause 0).evt.raw.getLsbD 193 = true
  rw [State.cause_raw]
  exact State.raise_raises _ (by decide)

theorem State.imageRelease_waiting {s : State} (h : s.lane.subWait = true) : s.imageRelease 0 = s.dropOut.dmaFire (.strobe 0) := by
  have hnone : bitsOf (0 &&& s.inUse) = [] := by
    simp [bitsOf]
  simp only [State.imageRelease, h, if_true, hnone]
  rfl

theorem exec_laneSubdone_releases {l : List Served} {s : State} (hc : s.coreRuns = true) (hw : s.lane.subWait = true)
    (hr : s.ctl.running = false) :
    ∃ t, exec (.laneSubdone l) s = .next t ∧ t.lane.miss = s.missing ∧ t.lane.released = true ∧ t.lane.subWait = false ∧
      t.lane.drop = s.lane.drop ||| (s.missing &&& s.lane.present) ∧
      (s.missing &&& s.lane.present ≠ 0 → t.evt.raw.getLsbD 193 = true) ∧
      ∀ a, a < 0x1007FF2C ∨ 0x1007FF30 ≤ a → t.byte a = s.byte a := by
  obtain ⟨hlane, hmem, hrun⟩ := s.dropOut_keeps
  have hpass : (s.dropOut.dmaFire (.strobe 0)).logicPass State.serve l = s.dropOut.dmaFire (.strobe 0) := if_pos (by
    rw [State.dmaFire_ctl, hrun, hr]
    rfl)
  have hdone : s.subDone State.serve l = s.dropOut.dmaFire (.strobe 0) := by
    rw [State.subDone, if_pos hw, State.imageRelease_waiting hw, hpass]
  refine ⟨_, congrArg Host.Outcome.next ((State.when_true _ hc).trans hdone), ?_⟩
  rw [State.dmaFire_lane, hlane]
  refine ⟨rfl, rfl, rfl, rfl, fun h => State.dropOut_raises h, fun a ha => ?_⟩
  exact (State.byte_of_mem hmem a).trans (s.byte_dropCounted ha)

/-- Settles O39. Disabling a unit without permission at once, or at once after the closing mark, is log 47; STARTT with some stations
configured is log 48. -/
theorem laneStates : Obligations.LaneStates := by
  unfold Obligations.LaneStates
  exact ⟨fun s => exec_laneEnable_misfit, fun s => exec_laneEnable_listens, fun s => exec_laneEnable_enabled,
    fun s he hp => exec_laneDisable_unpermitted he hp, fun s he hp hm => exec_laneDisable_unmarked he hp hm,
    fun s he hp hm => exec_laneDisable_marked he hp hm, fun fresh s h => State.lanePermit_fail fresh h,
    fun s => exec_forcestart_starts, fun s => exec_forcestart_misfit, fun s => exec_forcestart_other,
    fun s => exec_identPass_sends, fun s => exec_identPass_other, fun st l2 rtt s => exec_rangePass_sends,
    fun st l2 rtt s => exec_rangePass_other, fun s => exec_configPass_sends, fun s => exec_configPass_other,
    fun r flat => dlyOf_some, fun flat => rfl, fun s => exec_startTimeout_fails, fun s => exec_startTimeout_some,
    fun s => rfl, fun l s => exec_laneSubdone_idle, fun l s => exec_laneSubdone_releases⟩

end Sys2Proof.Machine
end

section

/-!
PROOF. The Lane's marks and the passes it sends (11 R305, R309, R310, R312 to R314, R319; 12 R335): loss of signal (log 189), the
marks in RUN and TURNED, the closing mark (log 194), and the collect and deliver passes.
-/

namespace Sys2Proof.Machine

/-! ### Reports and reads that change no byte (15 R406) -/

/-- From s to t nothing but reports was made, and no byte changed. -/
def State.Quiet (s t : State) : Prop := s.Reported t ∧ t.mem.cells = s.mem.cells

namespace State.Quiet
variable {s t u : State}

theorem refl (s : State) : s.Quiet s := ⟨.refl s, rfl⟩

theorem trans (h : s.Quiet t) (h' : t.Quiet u) : s.Quiet u := ⟨h.1.trans h'.1, h'.2.trans h.2⟩

theorem reported (h : s.Quiet t) : s.Reported t := h.1

theorem ite {c : Prop} [Decidable c] (ht : s.Quiet t) (hu : s.Quiet u) : s.Quiet (if c then t else u) := by
  split <;> assumption

theorem each {α : Type} {l : List α} {f : α → State → State} (hf : ∀ x ∈ l, ∀ t : State, t.Quiet (f x t)) (s : State) :
    s.Quiet (s.each l f) := by
  induction l generalizing s with
  | nil => exact .refl s
  | cons x l ih => exact (hf x List.mem_cons_self s).trans (ih (fun y hy => hf y (List.mem_cons_of_mem x hy)) (f x s))

theorem byte (h : s.Quiet t) (x : Nat) : t.byte x = s.byte x := congrArg (fun c => sget Memory.unlisted c x) h.2
theorem bytesAt (h : s.Quiet t) (a n : Nat) : t.bytesAt a n = s.bytesAt a n := by
  simp only [State.bytesAt, h.byte]

theorem lane (h : s.Quiet t) : t.lane = s.lane := (congrArg State.lane h.1.eq).trans rfl
theorem ctl (h : s.Quiet t) : t.ctl = s.ctl := (congrArg State.ctl h.1.eq).trans rfl
theorem wlv (h : s.Quiet t) : t.wlv = s.wlv := (congrArg State.wlv h.1.eq).trans rfl
theorem sys (h : s.Quiet t) : t.sys = s.sys := (congrArg State.sys h.1.eq).trans rfl
theorem regs (h : s.Quiet t) : t.regs = s.regs := (congrArg State.regs h.1.eq).trans rfl
theorem out (h : s.Quiet t) : t.out = s.out := h.1.out
theorem walk (h : s.Quiet t) : t.sp.walk = s.sp.walk := (congrArg (·.sp.walk) h.1.eq).trans rfl

theorem reg (h : s.Quiet t) (a : Nat) : t.reg a = s.reg a := by rw [State.reg, h.regs]; rfl
theorem laneLoop (h : s.Quiet t) : t.laneLoop = s.laneLoop := by simp only [State.laneLoop, State.regBit, h.reg, h.walk]
theorem laneTog (h : s.Quiet t) : t.laneTog = s.laneTog := by simp only [State.laneTog, h.lane]
theorem nst (h : s.Quiet t) : t.nst = s.nst := by simp only [State.nst, State.regFld, h.reg]

theorem twoCopies (h : s.Quiet t) : t.twoCopies = s.twoCopies := by simp only [State.twoCopies, h.laneLoop, h.lane]

theorem dataSlots (h : s.Quiet t) (tog : Bool) : t.dataSlots tog = s.dataSlots tog := by
  simp only [State.dataSlots, State.stations, h.nst, h.lane, State.regBit, State.olen, State.ilen, State.regFld, h.reg, h.bytesAt]

theorem raise (n : Nat) (s : State) : s.Quiet (s.raise n) := ⟨State.raise_reported n s, congrArg MemBlk.cells (State.raise_mem n s)⟩

theorem count (p i k : Nat) (s : State) : s.Quiet (s.count p i k) :=
  ⟨State.count_reported p i k s, congrArg MemBlk.cells (State.count_mem p i k s)⟩

theorem count1 (p i : Nat) (s : State) : s.Quiet (s.count1 p i) := count p i 1 s

theorem memLog (kind region : Nat) (src : Byte) (synd addr : Nat) (s : State) : s.Quiet (s.memLog kind region src synd addr) := by
  refine ⟨State.memLog_reported _ _ _ _ _ s, ?_⟩
  unfold State.memLog
  dsimp only
  split
  · rfl
  · rw [State.raise_mem]

theorem parityFound (src : Byte) (r : MRegion) (a : Nat) (s : State) : s.Quiet (s.parityFound src r a) := by
  have hlog := (memLog 5 r.code src (a % 4) a s).trans (raise 235 _)
  exact ite ((hlog.trans (count1 7 39 _)).trans (raise 205 _)) hlog

theorem parityFx (src : Byte) (r : MRegion) (a : Nat) (be : BitVec 4) (s : State) : s.Quiet (s.parityFx src r a be) := by
  unfold State.parityFx
  split
  · exact .refl s
  · exact parityFound _ _ _ s

end State.Quiet

/-- SECDED words lie below the registers. -/
theorem secded_below_registers {a : Nat} (h : memRegion? a = some .sram ∨ memRegion? a = some .inst) : a < 0x40000000 := by
  obtain ⟨r, hr, hkind⟩ : ∃ r, memRow? a = some r ∧ (r.2.2.1 = .sram ∨ r.2.2.1 = .inst) := by
    simpa only [memRegion?, Option.map_eq_some_iff, ← exists_or, ← and_or_left] using h
  have hin := List.find?_some hr
  have hmem := List.mem_of_find?_eq_some hr
  simp only [Bool.and_eq_true, decide_eq_true_eq] at hin
  have hbound : ∀ r ∈ memMap, r.2.2.1 = .sram ∨ r.2.2.1 = .inst → r.1 + r.2.1 ≤ 0x40000000 := by decide
  have := hbound r hmem hkind
  omega

theorem State.memReadFx_quiet {src : Byte} {a : Nat} {be : BitVec 4} (h : 0x40000000 ≤ a) (s : State) : s.Quiet (s.memReadFx src a be) := by
  unfold State.memReadFx
  split
  · next hr => exact absurd (secded_below_registers (.inl hr)) (by omega)
  · next hr => exact absurd (secded_below_registers (.inr hr)) (by omega)
  · exact State.Quiet.parityFx _ _ _ _ s
  · exact State.Quiet.parityFx _ _ _ _ s
  · exact State.Quiet.parityFx _ _ _ _ s
  · exact State.Quiet.parityFx _ _ _ _ s
  · exact .refl s

theorem State.wordReads_quiet {a : Nat} (n : Nat) (h : 0x40000000 ≤ a) (s : State) : s.Quiet (s.wordReads a n) := by
  refine .each (fun w hw t => State.memReadFx_quiet ?_ t) s
  obtain ⟨i, -, rfl⟩ := List.mem_map.mp (List.mem_of_mem_filter hw)
  omega

/-! ### Marks (11 R305, R309, R312) -/

theorem signalLost_iff (n : Nat) : signalLost n = true ↔ 1600 ≤ n := by simp [signalLost]

/-- With nothing decided on turnout a pass or a mark leaves the state of the Lane. -/
theorem State.laneTurn_none {s : State} (h : s.lane.turnNext = none) : s.laneTurn = s := by
  have hsame : ({ s with lane.turnNext := none } : State) = s := by
    rw [← h]
  unfold State.laneTurn
  rw [h]
  cases hst : s.lane.state <;> first | rfl | exact hsame

theorem State.laneDe_true {s : State} (h : s.laneDe = true) : s.lane.perm = true ∧ s.lane.enabled = true ∧
    s.regBit Reg.LANE_CTL 4 = false := by
  simp only [State.laneDe, Bool.and_eq_true, Bool.not_eq_true'] at h
  exact ⟨h.1.1.1, h.1.1.2, h.1.2⟩

theorem State.heardLate_driving {s : State} (h : ∀ p, s.lane.pass = some p → p.copies ≠ 0) : s.heardLate = s := by
  refine if_neg ?_
  cases hp : s.lane.pass with
  | none => simp
  | some p => simp [h p hp]

theorem State.driveStart_permitted {s : State} (h : s.lane.perm = true) : s.driveStart = s := if_pos (by simp [h])

theorem State.driveStart_released {s : State} (h : s.sys.ownOutN = true) : s.driveStart = s := if_pos (by simp [h])

theorem State.lanePermit_running {s : State} (h : s.lane.state = .run ∨ s.lane.state = .turned) (fresh : Bool) :
    s.lanePermit fresh = s := by
  rcases h with h | h <;> simp [State.lanePermit, h]

/-- The mark on L1, and on L2 where two copies go out. -/
def State.marksOut (s : State) : State :=
  let u := (s.emit (.laneMark false (applyBytes (!s.laneTog) false s.leadUs))).count1 7 13
  if s.twoCopies then (u.emit (.laneMark true (applyBytes (!s.laneTog) true s.leadUs))).count1 7 13 else u

/-- The mark goes out where the Lane drives. -/
def State.markSent (s : State) : State := if !s.laneDe then s else s.marksOut

/-- What a mark does once permission has been settled. -/
def State.markGo (fresh : Bool) (a : State) : State :=
  if !a.lane.enabled then a
  else
    let d := ((if a.lane.perm && !a.lane.stopping then a.lanePermit fresh else a).laneTurn).markSent
    if d.lane.stopping then d.laneClose else d

theorem State.applyMark_eq (s : State) : s.applyMark =
    let z := (s.heardLate).when (decide (s.wlv.state = .handoff)) State.handoffEnd
    ({ z.driveStart with lane.marked := true } : State).markGo (!z.lane.perm) := by
  unfold State.applyMark State.markGo State.markSent State.marksOut
  rfl

theorem State.marksOut_lane (s : State) : s.marksOut.lane = s.lane := by
  unfold State.marksOut
  dsimp only
  split <;> simp [State.count1, State.count_lane]

theorem State.markGo_driving {a : State} (fresh : Bool) (hde : a.laneDe = true) (hstop : a.lane.stopping = false)
    (hst : a.lane.state = .run ∨ a.lane.state = .turned) (ht : a.lane.turnNext = none) : a.markGo fresh = a.marksOut := by
  obtain ⟨-, hen, -⟩ := State.laneDe_true hde
  have hsent : a.markSent = a.marksOut := if_neg (by simp [hde])
  refine (if_neg (by simp [hen])).trans ?_
  dsimp only
  rw [State.lanePermit_running hst fresh, ite_self, State.laneTurn_none ht, hsent]
  exact if_neg (by simp [State.marksOut_lane, hstop])

/-- The mark of a unit that drives and goes on. -/
theorem State.applyMark_driving {s : State} (hde : s.laneDe = true) (hstop : s.lane.stopping = false)
    (hst : s.lane.state = .run ∨ s.lane.state = .turned) (ht : s.lane.turnNext = none) (hw : s.wlv.state ≠ .handoff)
    (hp : ∀ p, s.lane.pass = some p → p.copies ≠ 0) :
    s.applyMark = ({ s with lane.marked := true } : State).marksOut := by
  have hz : (s.heardLate).when (decide (s.wlv.state = .handoff)) State.handoffEnd = s := by
    rw [State.heardLate_driving hp, decide_eq_false hw]
    rfl
  rw [State.applyMark_eq, hz]
  dsimp only
  rw [State.driveStart_permitted (State.laneDe_true hde).1]
  exact State.markGo_driving _ hde hstop hst ht

section
variable {rest : Vector Nat 2} {s : State} (hc : s.coreRuns = true) (hde : s.laneDe = true) (hstop : s.lane.stopping = false)
  (ht : s.lane.turnNext = none) (hw : s.wlv.state ≠ .handoff) (hp : ∀ p, s.lane.pass = some p → p.copies ≠ 0)
include hc hde hstop ht hw hp

theorem exec_applyMark_driving (hst : s.lane.state = .run ∨ s.lane.state = .turned) :
    exec (.applyMark rest) s = .next ({ s.laneSense rest with lane.marked := true } : State).marksOut :=
  congrArg Host.Outcome.next ((State.when_true _ hc).trans (State.applyMark_driving (s := s.laneSense rest) hde hstop hst ht hw hp))

theorem exec_applyMark_run (hst : s.lane.state = .run) :
    exec (.applyMark rest) s = .next ((({ s.laneSense rest with lane.marked := true } : State).emit
      (.laneMark false (applyBytes (!s.laneTog) false s.leadUs))).count1 7 13) := by
  have hone : ({ s.laneSense rest with lane.marked := true } : State).twoCopies = false := by
    simp [State.twoCopies, State.laneSense, hst]
  rw [exec_applyMark_driving hc hde hstop ht hw hp (.inl hst), State.marksOut, hone]
  rfl

theorem exec_applyMark_turned (hst : s.lane.state = .turned) (hl : s.laneLoop = false) :
    ∃ t, exec (.applyMark rest) s = .next t ∧ t.out = s.out ++ [.laneMark false (applyBytes (!s.laneTog) false s.leadUs),
      .laneMark true (applyBytes (!s.laneTog) true s.leadUs)] := by
  have htwo : ({ s.laneSense rest with lane.marked := true } : State).twoCopies = true := by
    have hl' : ({ s.laneSense rest with lane.marked := true } : State).laneLoop = false := hl
    rw [State.twoCopies, hl']
    simp [State.laneSense, hst]
  refine ⟨_, exec_applyMark_driving hc hde hstop ht hw hp (.inr hst), ?_⟩
  rw [State.marksOut, htwo]
  simp only [if_true, State.count1, State.count_out, State.emit]
  simp [State.laneSense]
  exact ⟨rfl, rfl⟩

end

/-! ### The closing mark (11 R325; 12 Table 12.2; log 194) -/

theorem State.trackReads_quiet (s : State) : s.Quiet s.trackReads := by
  refine .each (fun i _ t => ?_) s
  exact ((State.wordReads_quiet 4 (by omega) t).trans (State.wordReads_quiet _ (by omega) _)).trans
    (State.wordReads_quiet _ (by omega) _)

/-- The comparison counts, reports and reads: the Lane and every byte stand. -/
theorem State.trackCompare_keeps (s : State) : s.trackCompare.lane = s.lane ∧ s.trackCompare.mem.cells = s.mem.cells := by
  have hr := s.trackReads_quiet
  have hraise : ∀ (m n : Nat) (c : Bool) (t : State), ((t.raise m).raiseIf c n).lane = t.lane ∧
      ((t.raise m).raiseIf c n).mem = t.mem := fun m n c t => by
    obtain ⟨hl, hm, -⟩ := State.raiseIf_keeps c n (t.raise m)
    exact ⟨hl.trans (State.raise_lane m t), hm.trans (State.raise_mem m t)⟩
  unfold State.trackCompare
  split
  · exact ⟨rfl, rfl⟩
  · dsimp only
    split
    · exact ⟨hr.lane, hr.2⟩
    · rw [(hraise _ _ _ _).1, (hraise _ _ _ _).2]
      exact ⟨hr.lane, hr.2⟩

theorem State.heardLate_lane (s : State) : s.heardLate.lane.enabled = s.lane.enabled ∧ s.heardLate.lane.stopping = s.lane.stopping ∧
    s.heardLate.lane.perm = s.lane.perm := by
  unfold State.heardLate State.when
  split
  · obtain ⟨hl, -⟩ := State.trackCompare_keeps { s with lane.delivered := true, lane.pass := none }
    rw [State.heardDelivered, hl]
    exact ⟨rfl, rfl, rfl⟩
  · exact ⟨rfl, rfl, rfl⟩

/-- An enabled Lane that stops, with permission or released: what the closing mark finds. -/
structure State.Closing (s : State) : Prop where
  enabled : s.lane.enabled = true
  stopping : s.lane.stopping = true
  drive : s.lane.perm = true ∨ (s.lane.perm = false ∧ s.sys.ownOutN = true ∧ s.evt.raw.getLsbD 211 = true)

theorem State.Closing.of_undriven {s t : State} (h : s.Closing) (hk : s.Grows t) (hen : t.lane.enabled = s.lane.enabled)
    (hstop : t.lane.stopping = s.lane.stopping) (hperm : t.lane.perm = s.lane.perm) (hown : t.sys.ownOutN = s.sys.ownOutN) :
    t.Closing where
  enabled := hen.trans h.enabled
  stopping := hstop.trans h.stopping
  drive := by
    rw [hperm, hown]
    exact h.drive.imp_right fun ⟨hp, ho, hr⟩ => ⟨hp, ho, hk.raised hr⟩

theorem State.handoffEnd_closing {s : State} (hen : s.lane.enabled = true) (hstop : s.lane.stopping = true)
    (hperm : s.lane.perm = true) : s.handoffEnd.Closing := by
  have hk := State.driveEnd_standsBy hperm (.inr hstop)
  obtain ⟨hen', hstop', hp, hown, -, h211⟩ := State.driveEnd_ends hperm
  exact ⟨(congrArg Lane.enabled hk.lane).trans (hen'.trans hen), (congrArg Lane.stopping hk.lane).trans (hstop'.trans hstop),
    .inr ⟨(congrArg Lane.perm hk.lane).trans hp, (congrArg Sys.ownOutN hk.sys).trans hown, hk.grows.raised h211⟩⟩

theorem State.laneTurn_undriven (s : State) : s.Undriven s.laneTurn ∧ s.laneTurn.lane.enabled = s.lane.enabled ∧
    s.laneTurn.lane.stopping = s.lane.stopping ∧ s.laneTurn.lane.perm = s.lane.perm ∧ s.laneTurn.sys = s.sys := by
  have hto : ∀ (x : LaneState) (n : Nat), s.Undriven ((({ s with lane.turnNext := none } : State).laneTo x).raise n) ∧
      ((({ s with lane.turnNext := none } : State).laneTo x).raise n).lane = { s.lane with turnNext := none, state := x } ∧
      ((({ s with lane.turnNext := none } : State).laneTo x).raise n).sys = s.sys := fun x n => by
    refine ⟨?_, ?_, ?_⟩
    · exact .raise n (.ite (.refl s) (.steady (s := { s with lane.turnNext := none, lane.state := x }) (.refl s) (.raise 192 (.refl _))))
    · rw [State.raise_lane, State.laneTo_lane]
    · rw [State.raise_sys, State.laneTo]
      split
      · rfl
      · rw [State.raise_sys]
  unfold State.laneTurn
  split
  · obtain ⟨hu, hl, hs⟩ := hto .turned 195
    exact ⟨hu, by rw [hl], by rw [hl], by rw [hl], hs⟩
  · obtain ⟨hu, hl, hs⟩ := hto .run 196
    exact ⟨hu, by rw [hl], by rw [hl], by rw [hl], hs⟩
  · exact ⟨.refl s, rfl, rfl, rfl, rfl⟩
  · exact ⟨.refl s, rfl, rfl, rfl, rfl⟩
  · exact ⟨.refl s, rfl, rfl, rfl, rfl⟩

theorem State.markSent_steady (s : State) : s.Steady s.markSent := by
  have hmark : ∀ (o : Output) {t : State}, s.Steady t → s.Steady ((t.emit o).count1 7 13) := fun o _ ht =>
    .count1 7 13 (State.Steady.trans ht ⟨rfl, (State.Steady.refl _).grows⟩)
  exact .ite (.refl s) (.ite (hmark _ (hmark _ (.refl s))) (hmark _ (.refl s)))

/-- What a closing mark leaves. -/
def State.Closed (t : State) : Prop :=
  t.lane.enabled = false ∧ t.lane.state = .off ∧ t.lane.pass = none ∧ t.lane.perm = false ∧ t.sys.ownOutN = true ∧
    t.evt.raw.getLsbD 211 = true

theorem State.Closing.laneClose {s : State} (h : s.Closing) : s.laneClose.Closed := by
  rcases h.drive with hp | ⟨hp, hown, h211⟩
  · exact State.laneClose_ends hp
  · have hl := s.laneOff_lane
    have hoff : s.laneClose = s.laneOff := if_pos (by simp [hl, hp])
    have hu : s.Undriven s.laneOff := .ite (.refl s)
      (.steady (s := { s with lane.enabled := false, lane.stopping := false, lane.pass := none, lane.turnNext := none,
                              lane.heardCfg := 0, lane.state := .off }) (.refl s) (.raise 192 (.refl _)))
    have hsys : s.laneOff.sys = s.sys := by
      unfold State.laneOff State.laneTo
      split
      · rfl
      · rw [State.raise_sys]
    rw [hoff, State.Closed, hl, hsys]
    exact ⟨rfl, rfl, rfl, hp, hown, hu.grows.raised h211⟩

theorem State.Closing.markGo {a : State} (fresh : Bool) (h : a.Closing) : (a.markGo fresh).Closed := by
  obtain ⟨hu, hen, hstop, hperm, hsys⟩ := a.laneTurn_undriven
  have hturn : a.laneTurn.Closing := h.of_undriven hu.grows hen hstop hperm (congrArg Sys.ownOutN hsys)
  have hk := a.laneTurn.markSent_steady
  have hsent : a.laneTurn.markSent.Closing := hturn.of_undriven hk.grows (congrArg Lane.enabled hk.lane)
    (congrArg Lane.stopping hk.lane) (congrArg Lane.perm hk.lane) (congrArg Sys.ownOutN hk.sys)
  have hgo : a.markGo fresh = a.laneTurn.markSent.laneClose := by
    refine (if_neg (by simp [h.enabled])).trans ?_
    dsimp only
    rw [if_neg (c := (a.lane.perm && !a.lane.stopping) = true) (by simp [h.stopping])]
    exact if_pos hsent.stopping
  rw [hgo]
  exact hsent.laneClose

theorem State.applyMark_closes {s : State} (hen : s.lane.enabled = true) (hstop : s.lane.stopping = true)
    (hperm : s.lane.perm = true) : s.applyMark.Closed := by
  obtain ⟨hen', hstop', hperm'⟩ := s.heardLate_lane
  have hz : ((s.heardLate).when (decide (s.wlv.state = .handoff)) State.handoffEnd).Closing := by
    unfold State.when
    split
    · exact State.handoffEnd_closing (hen'.trans hen) (hstop'.trans hstop) (hperm'.trans hperm)
    · exact ⟨hen'.trans hen, hstop'.trans hstop, .inl (hperm'.trans hperm)⟩
  rw [State.applyMark_eq]
  dsimp only
  generalize (s.heardLate).when (decide (s.wlv.state = .handoff)) State.handoffEnd = z at hz
  have hstart : z.driveStart = z := by
    rcases hz.drive with hp | ⟨-, hown, -⟩
    · exact State.driveStart_permitted hp
    · exact State.driveStart_released hown
  rw [hstart]
  exact State.Closing.markGo _ ⟨hz.enabled, hz.stopping, hz.drive⟩

theorem exec_applyMark_closes {rest : Vector Nat 2} {s : State} (hc : s.coreRuns = true) (hen : s.lane.enabled = true)
    (hstop : s.lane.stopping = true) (hperm : s.lane.perm = true) :
    ∃ t, exec (.applyMark rest) s = .next t ∧ t.Closed :=
  ⟨_, congrArg Host.Outcome.next (State.when_true _ hc), State.applyMark_closes (s := s.laneSense rest) hen hstop hperm⟩

/-! ### The collect and deliver passes (11 R310, R313, R314, R319) -/

theorem State.sentParity_quiet (s : State) : s.Quiet s.sentParity := .each (fun _ _ t => .parityFx _ _ _ _ t) s

/-- A DATA pass sent from the sent image. -/
def State.dataPass (deliver : Bool) (b : State) : State :=
  ((b.sentParity).lanePass 1 deliver b.laneTog fun _ => b.dataSlots b.laneTog).count 7 12
    (if b.twoCopies then 2 * (b.dataSlots b.laneTog).length else (b.dataSlots b.laneTog).length)

section
variable (deliver : Bool) (b : State)

theorem State.dataPass_lane : ∃ x y, (b.dataPass deliver).lane = { b.lane with
    pass := some (b.passSent 1 deliver b.laneTog), cnt := b.lane.cnt + 1, traceSlot := x, tracePhase := y } := by
  have hq := b.sentParity_quiet
  obtain ⟨x, y, h⟩ := State.lanePass_lane 1 deliver b.laneTog (fun _ => b.dataSlots b.laneTog) b.sentParity
  refine ⟨x, y, (State.count_lane _ _ _ _).trans (h.trans ?_)⟩
  simp only [State.passSent, hq.twoCopies, hq.lane]

theorem State.dataPass_out (hl : b.laneLoop = false) : (b.dataPass deliver).out =
    b.out ++ if b.twoCopies then
      [.lane false (laneFrame 1 false deliver b.lane.cnt 0 (b.dataSlots b.laneTog))
        (crc32 (laneFrame 1 false deliver b.lane.cnt 0 (b.dataSlots b.laneTog))),
        .lane true (laneFrame 1 true deliver b.lane.cnt 0 (b.dataSlots b.laneTog))
        (crc32 (laneFrame 1 true deliver b.lane.cnt 0 (b.dataSlots b.laneTog)))]
    else [.lane false (laneFrame 1 false deliver b.lane.cnt 0 (b.dataSlots b.laneTog))
      (crc32 (laneFrame 1 false deliver b.lane.cnt 0 (b.dataSlots b.laneTog)))] := by
  have hq := b.sentParity_quiet
  rw [State.dataPass, State.count_out, State.lanePass_out _ _ _ _ _ (hq.laneLoop.trans hl), hq.twoCopies, hq.out, hq.lane]
  split <;> rfl

theorem State.loopBack_open {s : State} (f : List Byte) (hl : s.laneLoop = false) : s.loopBack f = s := if_neg (by simp [hl])

end

theorem State.dataPass_laneLoop (deliver : Bool) (b : State) : (b.dataPass deliver).laneLoop = b.laneLoop := by
  have htrace : ∀ (n : Nat) (t : State), (t.laneTrace n).laneLoop = t.laneLoop := fun _ _ => rfl
  have hset : ∀ (p : Option LanePass) (c : Byte) (t : State), ({ t with lane.pass := p, lane.cnt := c } : State).laneLoop = t.laneLoop :=
    fun _ _ _ => rfl
  rw [State.dataPass, (State.Quiet.count _ _ _ _).laneLoop]
  unfold State.lanePass
  dsimp only
  rw [htrace, hset]
  split
  · rw [State.laneTx_laneLoop, State.laneTx_laneLoop, b.sentParity_quiet.laneLoop]
  · rw [State.laneTx_laneLoop, b.sentParity_quiet.laneLoop]

/-- Bit 6 of SYS_SPLIT_ACT is taken for the cycle (11 R318). -/
def State.handTaken (s : State) : State := { s with lane.subHand := s.sys.splitAct.getLsbD 6 }

theorem State.collectPass_eq {s : State} (hs : s.laneSends = true) : s.collectPass =
    let a := s.handTaken.laneTurn
    let b := if a.lane.state = .turned then a.count1 7 14 else a
    (b.dataPass false).loopBack (laneFrame 1 false false b.lane.cnt 0 (b.dataSlots b.laneTog)) := if_neg (by simp [hs])

section
variable {s : State} (hs : s.laneSends = true) (hl : s.laneLoop = false) (ht : s.lane.turnNext = none)
include hs hl ht

theorem State.collectPass_run (hst : s.lane.state = .run) : s.collectPass = s.handTaken.dataPass false := by
  have hturn : s.handTaken.laneTurn = s.handTaken := State.laneTurn_none ht
  rw [State.collectPass_eq hs, hturn]
  dsimp only
  rw [if_neg (c := s.handTaken.lane.state = .turned) (by simp [State.handTaken, hst])]
  exact State.loopBack_open _ ((State.dataPass_laneLoop _ _).trans hl)

theorem State.collectPass_turned (hst : s.lane.state = .turned) : s.collectPass = (s.handTaken.count1 7 14).dataPass false := by
  have hturn : s.handTaken.laneTurn = s.handTaken := State.laneTurn_none ht
  rw [State.collectPass_eq hs, hturn]
  dsimp only
  rw [if_pos (c := s.handTaken.lane.state = .turned) hst]
  exact State.loopBack_open _ ((State.dataPass_laneLoop _ _).trans (((State.Quiet.count1 7 14 _).laneLoop).trans hl))

variable (hc : s.coreRuns = true)
include hc

theorem exec_collectPass_run (hst : s.lane.state = .run) :
    ∃ t, exec .collectPass s = .next t ∧
      t.out = s.out ++ [.lane false (laneFrame 1 false false s.lane.cnt 0 (s.dataSlots s.laneTog))
        (crc32 (laneFrame 1 false false s.lane.cnt 0 (s.dataSlots s.laneTog)))] ∧
      t.lane.cnt = s.lane.cnt + 1 ∧ t.lane.subHand = s.sys.splitAct.getLsbD 6 ∧
      t.lane.pass = some ⟨false, s.laneTog, s.lane.cnt, 1, 1, [], 0⟩ := by
  refine ⟨_, congrArg Host.Outcome.next ((State.when_true _ hc).trans (State.collectPass_run hs hl ht hst)), ?_⟩
  have hone : s.handTaken.twoCopies = false := by simp [State.twoCopies, State.handTaken, hst]
  obtain ⟨x, y, hlane⟩ := State.dataPass_lane false s.handTaken
  rw [State.dataPass_out false s.handTaken hl, hone, hlane, State.passSent, hone]
  exact ⟨rfl, rfl, rfl, rfl⟩

theorem exec_collectPass_turned (hst : s.lane.state = .turned) :
    ∃ t, exec .collectPass s = .next t ∧
      t.out = s.out ++ [.lane false (laneFrame 1 false false s.lane.cnt 0 (s.dataSlots s.laneTog))
        (crc32 (laneFrame 1 false false s.lane.cnt 0 (s.dataSlots s.laneTog))),
        .lane true (laneFrame 1 true false s.lane.cnt 0 (s.dataSlots s.laneTog))
        (crc32 (laneFrame 1 true false s.lane.cnt 0 (s.dataSlots s.laneTog)))] ∧
      t.lane.pass = some ⟨false, s.laneTog, s.lane.cnt, 1, 2, [], 0⟩ := by
  refine ⟨_, congrArg Host.Outcome.next ((State.when_true _ hc).trans (State.collectPass_turned hs hl ht hst)), ?_⟩
  have hq := State.Quiet.count1 7 14 s.handTaken
  have htwo : (s.handTaken.count1 7 14).twoCopies = true := by
    have hl' : s.handTaken.laneLoop = false := hl
    rw [hq.twoCopies, State.twoCopies, hl']
    simp [State.handTaken, hst]
  obtain ⟨x, y, hlane⟩ := State.dataPass_lane false (s.handTaken.count1 7 14)
  rw [State.dataPass_out false _ (hq.laneLoop.trans hl), htwo, hlane, State.passSent, htwo, hq.out, hq.lane, hq.laneTog, hq.dataSlots]
  exact ⟨rfl, rfl⟩

end

theorem exec_collectPass_idle {s : State} (h : s.laneSends = false) : exec .collectPass s = .next s := by
  have hsame : s.collectPass = s := if_pos (by simp [h])
  refine congrArg Host.Outcome.next (?_ : s.when s.coreRuns State.collectPass = s)
  rw [State.when, hsame, ite_self]

/-! #### The deliver pass -/

theorem State.outTake_none {s : State} (h : s.lane.go = false) : s.outTake = { s with ctl.committed := false } := if_neg (by simp [h])

theorem exec_deliverPass_none {s : State} (hc : s.coreRuns = true) (hg : s.lane.go = false) (hs : s.laneSends = false) :
    exec .deliverPass s = .next { s with ctl.committed := false } := by
  refine congrArg Host.Outcome.next ((State.when_true _ hc).trans ?_)
  have hs' : State.laneSends { s with ctl.committed := false } = false := hs
  rw [State.deliverPass, State.outTake_none hg]
  exact if_pos (by simp [hs'])

/-- The sent image at a takes the bytes, and the commit is done. -/
def State.imageTo (a : Nat) (bs : List Byte) (s : State) : State :=
  { s.bufWrite a bs with lane.go := false, ctl.committed := true }

theorem State.outTake_commit {s : State} (h : s.lane.go = true) :
    s.outTake = (s.wordReads 0x400B8000 1024).imageTo 0x400B8400 (s.bytesAt 0x400B8000 1024) := if_pos h

theorem State.byte_bufWrite (a x : Nat) (bs : List Byte) (s : State) :
    (s.bufWrite a bs).byte x = if a ≤ x ∧ x < a + bs.length then bs.getD (x - a) 0 else s.byte x := State.byte_setBytes a x bs s

theorem State.length_bytesAt (s : State) (a n : Nat) : (s.bytesAt a n).length = n := by simp [State.bytesAt]

/-- Bytes written to a buffer are read back there. -/
theorem State.bytesAt_bufWrite {a n : Nat} {bs : List Byte} (hn : bs.length = n) (s : State) : (s.bufWrite a bs).bytesAt a n = bs := by
  subst hn
  refine State.bytesAt_eq fun i hi => ?_
  rw [State.byte_bufWrite, if_pos ⟨by omega, by omega⟩, Nat.add_sub_cancel_left]
  simp [hi]

theorem State.bufWrite_lane (a : Nat) (bs : List Byte) (s : State) : (s.bufWrite a bs).lane = s.lane := by
  unfold State.bufWrite
  dsimp only
  rw [State.setBytes_frame a bs s]
theorem State.bufWrite_regs (a : Nat) (bs : List Byte) (s : State) : (s.bufWrite a bs).regs = s.regs := by
  unfold State.bufWrite
  dsimp only
  rw [State.setBytes_frame a bs s]
theorem State.bufWrite_sp (a : Nat) (bs : List Byte) (s : State) : (s.bufWrite a bs).sp = s.sp := by
  unfold State.bufWrite
  dsimp only
  rw [State.setBytes_frame a bs s]

theorem State.imageTo_laneSends (a : Nat) (bs : List Byte) (s : State) : (s.imageTo a bs).laneSends = s.laneSends := by
  have hloop : (s.imageTo a bs).laneLoop = s.laneLoop := by
    show ((sget regReset (s.bufWrite a bs).regs Reg.LANE_CTL).getLsbD 4 || (s.bufWrite a bs).sp.walk) = _
    rw [State.bufWrite_regs, State.bufWrite_sp]
    rfl
  unfold State.laneSends
  rw [hloop]
  show ((s.bufWrite a bs).lane.enabled && (s.laneLoop || (s.bufWrite a bs).lane.perm &&
    (decide ((s.bufWrite a bs).lane.state = .run) || decide ((s.bufWrite a bs).lane.state = .turned)))) = _
  rw [State.bufWrite_lane]

theorem State.Quiet.laneSends {s t : State} (h : s.Quiet t) : t.laneSends = s.laneSends := by
  simp only [State.laneSends, h.laneLoop, h.lane]

theorem State.bytesAt_imageTo {a n : Nat} {bs : List Byte} (hn : bs.length = n) (s : State) : (s.imageTo a bs).bytesAt a n = bs :=
  State.bytesAt_bufWrite hn s

theorem State.byte_imageTo_of_not_mem {a n x : Nat} {bs : List Byte} (hn : bs.length = n) (hx : x < a ∨ a + n ≤ x) (s : State) :
    (s.imageTo a bs).byte x = s.byte x :=
  (State.byte_bufWrite a x bs s).trans (if_neg (by omega))

theorem State.imageTo_done (a : Nat) (bs : List Byte) (s : State) :
    (s.imageTo a bs).lane.go = false ∧ (s.imageTo a bs).ctl.committed = true := ⟨rfl, rfl⟩

theorem State.deliverPass_idle {s a : State} (h : s.outTake = a) (hs : a.laneSends = false) : s.deliverPass = a := by
  rw [State.deliverPass, h]
  exact if_pos (by simp [hs])

theorem exec_deliverPass_commits {s : State} (hc : s.coreRuns = true) (hg : s.lane.go = true) (hs : s.laneSends = false) :
    ∃ t, exec .deliverPass s = .next t ∧ t.bytesAt 0x400B8400 1024 = s.bytesAt 0x400B8000 1024 ∧ t.lane.go = false ∧
      t.ctl.committed = true ∧ ∀ a, a < 0x400B8400 ∨ 0x400B8800 ≤ a → t.byte a = s.byte a := by
  have hq := State.wordReads_quiet (a := 0x400B8000) 1024 (by omega) s
  have hidle := (State.imageTo_laneSends 0x400B8400 (s.bytesAt 0x400B8000 1024) (s.wordReads 0x400B8000 1024)).trans
    (hq.laneSends.trans hs)
  have hlen := s.length_bytesAt 0x400B8000 1024
  have hrun := State.deliverPass_idle (State.outTake_commit hg) hidle
  clear hidle
  generalize s.bytesAt 0x400B8000 1024 = bs at hrun hlen ⊢
  generalize s.wordReads 0x400B8000 1024 = r at hrun hq
  obtain ⟨hgo, hcom⟩ := State.imageTo_done 0x400B8400 bs r
  exact ⟨r.imageTo 0x400B8400 bs, congrArg Host.Outcome.next ((State.when_true _ hc).trans hrun), State.bytesAt_imageTo hlen r, hgo, hcom,
    fun x hx => (State.byte_imageTo_of_not_mem hlen hx r).trans (hq.byte x)⟩

theorem State.dmaFire_parts (t : TrigSource) (s : State) : (s.dmaFire t).out = s.out ∧ (s.dmaFire t).lane = s.lane ∧
    (s.dmaFire t).laneLoop = s.laneLoop := ⟨rfl, rfl, rfl⟩

theorem State.deliverPass_sends {s : State} (hg : s.lane.go = false) (hs : s.laneSends = true) (ht : s.lane.turnNext = none) :
    s.deliverPass = let b : State := { s with ctl.committed := false }
      (((b.dataPass true).dmaFire (.strobe 1))).loopBack (laneFrame 1 false true b.lane.cnt 0 (b.dataSlots b.laneTog)) := by
  rw [State.deliverPass, State.outTake_none hg]
  have hs' : State.laneSends { s with ctl.committed := false } = true := hs
  have hturn : State.laneTurn { s with ctl.committed := false } = { s with ctl.committed := false } :=
    State.laneTurn_none ht
  refine (if_neg (by simp [hs'])).trans ?_
  rw [hturn]
  rfl

theorem exec_deliverPass_run {s : State} (hc : s.coreRuns = true) (hg : s.lane.go = false) (hs : s.laneSends = true)
    (hl : s.laneLoop = false) (hst : s.lane.state = .run) (ht : s.lane.turnNext = none) :
    ∃ t, exec .deliverPass s = .next t ∧
      t.out = s.out ++ [.lane false (laneFrame 1 false true s.lane.cnt 0 (s.dataSlots s.laneTog))
        (crc32 (laneFrame 1 false true s.lane.cnt 0 (s.dataSlots s.laneTog)))] ∧
      t.lane.pass = some ⟨true, s.laneTog, s.lane.cnt, 1, 1, [], 0⟩ := by
  have hone : State.twoCopies { s with ctl.committed := false } = false := by simp [State.twoCopies, hst]
  have hout := State.dataPass_out true { s with ctl.committed := false } hl
  obtain ⟨x, y, hlane⟩ := State.dataPass_lane true { s with ctl.committed := false }
  obtain ⟨fout, flane, floop⟩ := State.dmaFire_parts (.strobe 1) (State.dataPass true { s with ctl.committed := false })
  refine ⟨_, congrArg Host.Outcome.next ((State.when_true _ hc).trans (State.deliverPass_sends hg hs ht)), ?_⟩
  dsimp only
  rw [State.loopBack_open _ (floop.trans ((State.dataPass_laneLoop _ _).trans hl)), fout, flane, hout, hlane, State.passSent, hone]
  exact ⟨rfl, rfl⟩

end Sys2Proof.Machine
end

section

/-!
PROOF. What a pass that comes back or is late does (11 R311, R312, R314, R315; 08 Table 8.1): the frame received, the slots of a
collect pass judged, and the deadlines.
-/

namespace Sys2Proof.Machine

/-! ### A frame received (11 Table 11.6; 08 Table 8.1) -/

namespace State.Quiet

theorem raiseIf (b : Bool) (n : Nat) (s : State) : s.Quiet (s.raiseIf b n) := by
  unfold State.raiseIf State.when
  exact .ite (.raise n s) (.refl s)

theorem laneRxCount (f : LaneRx) (h : LHdr) (s : State) : s.Quiet (s.laneRxCount f h) :=
  .ite (.count1 _ _ _) (.ite ((State.Quiet.count1 _ _ _).trans (.raise _ _))
    (((State.Quiet.count1 _ _ _).trans (.count _ _ _ _)).trans (.count1 _ _ _)))

end State.Quiet

/-- Storing a frame changes of the Lane that its port has a signal, and no register. -/
theorem State.laneStore_keeps (f : LaneRx) (s : State) :
    (∃ l, (s.laneStore f).lane = { s.lane with loss := l }) ∧ (s.laneStore f).regs = s.regs := by
  have hq : (s.bufWrite 0x400B8C00 (f.bytes.take 1024)).Quiet _ := .each (fun k _ t => .parityFound 7 .lane (0x400B8C00 + k) t)
    (l := f.bad.filter fun k => decide (k < min 1024 f.bytes.length)) _
  refine ⟨⟨vset s.lane.loss f.onL2.toNat false, ?_⟩, hq.regs.trans (State.bufWrite_regs _ _ s)⟩
  have hlane := hq.lane.trans (State.bufWrite_lane 0x400B8C00 (f.bytes.take 1024) s)
  rw [← hlane]
  rfl

/-- What a frame leaves of the Lane before its slots are looked at. -/
def State.Received (s t : State) : Prop :=
  (∃ l x y, t.lane = { s.lane with loss := l, traceSlot := x, tracePhase := y }) ∧ t.regs = s.regs

theorem State.laneStore_received (f : LaneRx) (h : LHdr) (n : Nat) (s : State) :
    s.Received (((s.laneStore f).laneRxCount f h).laneTrace n) := by
  obtain ⟨⟨l, hl⟩, hr⟩ := s.laneStore_keeps f
  have hq := State.Quiet.laneRxCount f h (s.laneStore f)
  obtain ⟨x, y, ht⟩ := State.laneTrace_keeps ((s.laneStore f).laneRxCount f h) n
  refine ⟨⟨l, x, y, ?_⟩, ?_⟩
  · rw [ht, hq.lane, hl]
  · exact hq.regs.trans hr

theorem State.laneTrace_received (n : Nat) (s : State) : s.Received (s.laneTrace n) := by
  obtain ⟨x, y, ht⟩ := State.laneTrace_keeps s n
  exact ⟨⟨s.lane.loss, x, y, ht⟩, rfl⟩

theorem State.rxSlots_of_regs {s t : State} (hr : t.regs = s.regs) (h : LHdr) (f : LaneRx) : t.rxSlots h f = s.rxSlots h f := by
  simp only [State.rxSlots, State.olen, State.regFld, State.reg, hr]

theorem State.nst_of_regs {s t : State} (hr : t.regs = s.regs) : t.nst = s.nst := by
  simp only [State.nst, State.regFld, State.reg, hr]

theorem State.laneRxCount_badCrc {f : LaneRx} {h : LHdr} {s : State} (hlen : h.hcrcOk = false ∨ h.len = f.bytes.length)
    (hcrc : f.crc ≠ crc32 f.bytes) : s.laneRxCount f h = (s.count1 7 34).raise 201 :=
  (if_neg (by rcases hlen with h | h <;> simp [h])).trans (if_pos hcrc)

/-! ### The slots of a collect pass (11 R311) -/

/-- A slot that R311 accepts. -/
theorem State.laneJudge_accepted_iff {s : State} {h : LHdr} {tog : Bool} {x : LSlot} (ht : h.type = 1) :
    s.laneJudge h tog x = .accepted ↔ x.par = false ∧ h.hcrcOk = true ∧ x.istat.getLsbD 7 = true ∧ x.pos < s.nst ∧
      x.icrcOk = true ∧ x.istat.getLsbD 6 = tog ∧ (s.lane.perm = true → s.lane.configured.getLsbD x.pos = true) := by
  unfold State.laneJudge
  split
  · next hc =>
    simp only [Bool.or_eq_true, Bool.not_eq_true', decide_eq_true_eq] at hc
    refine iff_of_false (by simp) fun ⟨hp, hh, hs, hn, _⟩ => ?_
    rcases hc with ((hc | hc) | hc) | hc
    · simp [hh] at hc
    · simp [hp] at hc
    · simp only [hs, Bool.true_eq_false] at hc
    · omega
  · next hc =>
    simp only [Bool.or_eq_true, Bool.not_eq_true', decide_eq_true_eq, not_or, Bool.not_eq_false, Bool.not_eq_true, not_le] at hc
    obtain ⟨⟨⟨hh, hp⟩, hs⟩, hn⟩ := hc
    simp only [hh, hp, hs, hn, true_and]
    split
    · next hi => exact iff_of_false (by simp) fun ⟨hi', _⟩ => by simp [hi'] at hi
    · next hi =>
      simp only [Bool.not_eq_true', Bool.not_eq_false] at hi
      simp only [hi, true_and]
      split
      · next htog => exact iff_of_false (by simp) fun ⟨htog', _⟩ => by simp only [htog', bne_self_eq_false, Bool.false_eq_true] at htog
      · next htog =>
        simp only [bne_iff_ne, ne_eq, not_not] at htog
        simp only [htog, true_and, ht, beq_self_eq_true, Bool.and_true, Bool.and_eq_true, Bool.not_eq_true']
        split
        · next hcfg => exact iff_of_false (by simp) fun hc => by simp [hc hcfg.1] at hcfg
        · next hcfg => simpa using hcfg

/-- What looking at slots leaves: the registers, who drives, the stations configured, the turnout decided, and the pass in hand but
for its accepted stations. -/
structure State.SlotsKept (s t : State) : Prop where
  regs : t.regs = s.regs
  perm : t.lane.perm = s.lane.perm
  configured : t.lane.configured = s.lane.configured
  turnNext : t.lane.turnNext = s.lane.turnNext
  pass : ∃ m : Word, t.lane.pass = s.lane.pass.map fun p => { p with accepted := m }

namespace State.SlotsKept
variable {s t u : State}

theorem of_lane (hr : t.regs = s.regs) (hl : t.lane = s.lane) (p : LanePass) (hp : s.lane.pass = some p) : s.SlotsKept t where
  regs := hr
  perm := by rw [hl]
  configured := by rw [hl]
  turnNext := by rw [hl]
  pass := ⟨p.accepted, by rw [hl, hp]; rfl⟩

theorem trans (h : s.SlotsKept t) (h' : t.SlotsKept u) : s.SlotsKept u where
  regs := h'.regs.trans h.regs
  perm := h'.perm.trans h.perm
  configured := h'.configured.trans h.configured
  turnNext := h'.turnNext.trans h.turnNext
  pass := by
    obtain ⟨m, hm⟩ := h.pass
    obtain ⟨m', hm'⟩ := h'.pass
    exact ⟨m', by rw [hm', hm, Option.map_map]; rfl⟩

theorem passOf (h : s.SlotsKept t) {p : LanePass} (hp : s.lane.pass = some p) :
    ∃ m : Word, t.lane.pass = some { p with accepted := m } := by
  obtain ⟨m, hm⟩ := h.pass
  exact ⟨m, by rw [hm, hp]; rfl⟩

theorem laneJudge (h : s.SlotsKept t) (hdr : LHdr) (tog : Bool) (x : LSlot) : t.laneJudge hdr tog x = s.laneJudge hdr tog x := by
  unfold State.laneJudge
  rw [State.nst_of_regs h.regs, h.perm, h.configured]

end State.SlotsKept

theorem State.laneJudged_quiet (h : LHdr) (v : LVerdict) (s : State) : s.Quiet (s.laneJudged h v) := by
  cases v with
  | accepted => exact .ite (.count1 _ _ _) (.refl s)
  | absent => exact .refl s
  | badCrc => exact (State.Quiet.count1 _ _ _).trans (.raise _ _)
  | toggle => exact (State.Quiet.count1 _ _ _).trans (.raise _ _)

theorem State.ocrcCheck_quiet (h : LHdr) (v : LVerdict) (x : LSlot) (s : State) : s.Quiet (s.ocrcCheck h v x) :=
  .ite ((State.Quiet.count1 _ _ _).trans (.raise _ _)) (.refl s)

theorem State.collectSlot_kept {s : State} {x : LSlot} {p : LanePass} (hp : s.lane.pass = some p) :
    s.SlotsKept (s.collectSlot x) ∧ (s.collectSlot x).lane.accepted = setBit s.lane.accepted x.pos := by
  have hq := State.Quiet.raiseIf (x.istat.getLsbD 5 || x.istat.getLsbD 4) 204
    ({ s with lane.accepted := setBit s.lane.accepted x.pos
              lane.inputs := if s.lane.accepted.getLsbD x.pos then s.lane.inputs else s.lane.inputs ++ [(x.pos, x.ins)] })
  have hlane : (s.collectSlot x).lane = _ := hq.lane
  refine ⟨⟨hq.regs, ?_, ?_, ?_, p.accepted, ?_⟩, ?_⟩
  all_goals rw [hlane]
  rw [hp]
  rfl

theorem State.passMark_kept (i : Nat) (s : State) {p : LanePass} (hp : s.lane.pass = some p) : s.SlotsKept (s.passMark i) :=
  ⟨rfl, rfl, rfl, rfl, setBit p.accepted i, by rw [State.passMark, hp]; rfl⟩

/-- One slot of a collect pass. -/
def State.collectOne (h : LHdr) (tog : Bool) (x : LSlot) (t : State) : State :=
  let v := t.laneJudge h tog x
  let u := (t.laneJudged h v).ocrcCheck h v x
  if v ≠ .accepted then u
  else
    let w := u.collectSlot x
    if x.istat.getLsbD 0 then w.passMark x.pos else w

theorem State.laneData_collect {h : LHdr} (hd : h.deliver = false) (tog : Bool) (slots : List LSlot) (s : State) :
    s.laneData h (fun _ => tog) slots = s.each slots (State.collectOne h tog) := by
  unfold State.laneData State.collectOne
  rw [hd]
  rfl

theorem State.collectOne_kept (h : LHdr) (tog : Bool) (x : LSlot) {s : State} {p : LanePass} (hp : s.lane.pass = some p) :
    s.SlotsKept (s.collectOne h tog x) ∧ (s.collectOne h tog x).lane.accepted =
      if s.laneJudge h tog x = .accepted then setBit s.lane.accepted x.pos else s.lane.accepted := by
  have hq := (State.laneJudged_quiet h (s.laneJudge h tog x) s).trans (State.ocrcCheck_quiet h (s.laneJudge h tog x) x _)
  have hu := State.SlotsKept.of_lane hq.regs hq.lane p hp
  have hpass := (congrArg Lane.pass hq.lane).trans hp
  unfold State.collectOne
  dsimp only
  by_cases hv : s.laneJudge h tog x = .accepted
  · obtain ⟨hw, hacc⟩ := State.collectSlot_kept (x := x) hpass
    obtain ⟨m, hm⟩ := hw.passOf hpass
    rw [if_neg (c := s.laneJudge h tog x ≠ .accepted) (by simp [hv]), if_pos hv, ← congrArg Lane.accepted hq.lane, ← hacc]
    split
    · exact ⟨(hu.trans hw).trans (State.passMark_kept _ _ hm), rfl⟩
    · exact ⟨hu.trans hw, rfl⟩
  · rw [if_pos (c := s.laneJudge h tog x ≠ .accepted) hv, if_neg hv]
    exact ⟨hu, congrArg Lane.accepted hq.lane⟩

theorem getLsbD_setBit_iff {w : Nat} (x : BitVec w) {i j : Nat} (hj : j < w) :
    (setBit x i).getLsbD j = true ↔ x.getLsbD j = true ∨ i = j := by
  by_cases hij : j = i
  · subst hij
    simp [getLsbD_setBit_self x hj]
  · simp [getLsbD_setBit_of_ne x hij, Ne.symm hij]

/-- Of a collect pass exactly the slots judged so are accepted. -/
theorem State.collectAll_kept (h : LHdr) (tog : Bool) (slots : List LSlot) {s : State} {p : LanePass} (hp : s.lane.pass = some p) :
    s.SlotsKept (s.each slots (State.collectOne h tog)) ∧ ∀ i < 32,
      (s.each slots (State.collectOne h tog)).lane.accepted.getLsbD i = true ↔ s.lane.accepted.getLsbD i = true ∨
        ∃ x ∈ slots, x.pos = i ∧ s.laneJudge h tog x = .accepted := by
  induction slots generalizing s p with
  | nil => exact ⟨.of_lane rfl rfl p hp, fun i _ => by simp [State.each]⟩
  | cons x xs ih =>
    obtain ⟨hone, hacc⟩ := State.collectOne_kept h tog x hp
    obtain ⟨m, hm⟩ := hone.passOf hp
    obtain ⟨hrest, hbits⟩ := ih hm
    refine ⟨hone.trans hrest, fun i hi => (hbits i hi).trans ?_⟩
    simp only [hone.laneJudge, List.mem_cons, exists_eq_or_imp, hacc, ← or_assoc]
    refine or_congr_left ?_
    by_cases hv : s.laneJudge h tog x = .accepted
    · simp [hv, getLsbD_setBit_iff _ hi]
    · simp [hv]

/-! ### A collect pass back -/

theorem State.inputsTake_lane (s : State) : s.inputsTake.lane = s.lane := by
  unfold State.inputsTake
  generalize s.lane.inputs.filter (fun x => decide (x.1 < s.nst)) = l
  induction l generalizing s with
  | nil => rfl
  | cons x l ih => exact (ih (s.inputRegion x.1 x.2)).trans ((State.bufWrite_lane _ _ _).trans (State.bufWrite_lane _ _ _))

theorem State.collectDone_lane (s : State) : ∃ a b, s.collectDone.lane = { s.lane with subWait := a, subWritten := b } := by
  unfold State.collectDone
  split
  · refine ⟨true, 0, (State.raise_lane _ _).trans ?_⟩
    show ({ s.inputsTake.lane with subWait := true, subWritten := 0 } : Lane) = _
    rw [State.inputsTake_lane]
  · exact ⟨s.lane.subWait, s.lane.subWritten, rfl⟩

/-- A frame that carries no pass in hand only counts. -/
theorem exec_lanePassReturn_other {f : LaneRx} {s : State} (hc : s.coreRuns = true) (hp : ∀ p, s.lane.pass = some p →
      p.copies = 0 ∨ (LHdr.parse f.bytes).cnt ≠ p.cnt ∨ (LHdr.parse f.bytes).type ≠ p.type.toNat) :
    exec (.lanePassReturn f) s = .next (if s.lane.enabled = true ∧ (s.lane.perm = true ∨ s.laneLoop = true) then
      (s.laneStore f).laneRxCount f (LHdr.parse f.bytes) else s) := by
  refine congrArg Host.Outcome.next ((State.when_true _ hc).trans ?_)
  have hcount : (if s.lane.enabled && (s.lane.perm || s.laneLoop) then (s.laneStore f).laneRxCount f (LHdr.parse f.bytes) else s) =
      (if s.lane.enabled = true ∧ (s.lane.perm = true ∨ s.laneLoop = true) then
        (s.laneStore f).laneRxCount f (LHdr.parse f.bytes) else s) := by
    simp only [Bool.and_eq_true, Bool.or_eq_true]
  rw [← hcount]
  unfold State.laneReturn
  dsimp only
  cases hpass : s.lane.pass with
  | none => rfl
  | some p => exact if_pos (hp p hpass)

/-- The state in which the slots of a pass that came back are looked at. -/
def State.passStored (f : LaneRx) (s : State) : State :=
  (if s.lane.enabled && (s.lane.perm || s.laneLoop) then (s.laneStore f).laneRxCount f (LHdr.parse f.bytes) else s).laneTrace
    (LHdr.parse f.bytes).nslot

theorem State.passStored_received (f : LaneRx) (s : State) : s.Received (s.passStored f) := by
  unfold State.passStored
  split
  · exact s.laneStore_received f _ _
  · exact s.laneTrace_received _

/-- The copies that came back, and whether the pass is over. -/
def State.passBack (h : LHdr) (f : LaneRx) (b : State) : State :=
  let c := b.laneWatch h.dir f.onL2
  match c.lane.pass with
  | some q => if q.copies ≤ q.back.length then c.passAllBack q else c
  | none => c

theorem State.laneReturn_data {f : LaneRx} {p : LanePass} {s : State} (hp : s.lane.pass = some p) (h0 : p.copies ≠ 0)
    (hcnt : (LHdr.parse f.bytes).cnt = p.cnt) (hpt : p.type = 1) (ht : (LHdr.parse f.bytes).type = 1) :
    s.laneReturn f = ((s.passStored f).laneData { LHdr.parse f.bytes with deliver := p.deliver } (fun _ => p.tog)
      ((s.passStored f).rxSlots (LHdr.parse f.bytes) f)).passBack (LHdr.parse f.bytes) f := by
  unfold State.laneReturn
  dsimp only
  rw [hp]
  refine (if_neg (by simp [h0, hcnt, hpt, ht])).trans ?_
  rw [ht]
  rfl

/-- One copy of a collect pass back. -/
theorem State.passBack_collect {h : LHdr} {f : LaneRx} {b : State} {q : LanePass} (hq : b.lane.pass = some q) (h1 : q.copies = 1)
    (hback : q.back = []) (hpt : q.type = 1) (hpd : q.deliver = false) (hdir : h.dir = false) :
    (b.passBack h f).lane.pass = none ∧ (b.passBack h f).lane.accepted = b.lane.accepted ∧
      (b.passBack h f).lane.turnNext = if f.onL2 = true then b.lane.turnNext else some true := by
  have hwatch : b.laneWatch h.dir f.onL2 = { b with
      lane.pass := some { q with back := [(false, f.onL2)] }
      lane.turnNext := if f.onL2 = true then b.lane.turnNext else some true } := by
    unfold State.laneWatch
    rw [hq]
    simp only [hback, h1, hdir, List.nil_append, if_true]
    cases f.onL2 <;> rfl
  have hall : b.passBack h f = ({ b with
      lane.pass := none
      lane.turnNext := if f.onL2 = true then b.lane.turnNext else some true } : State).collectDone := by
    unfold State.passBack
    rw [hwatch]
    dsimp only
    rw [if_pos (by simp [h1]), State.passAllBack]
    dsimp only
    rw [hpt, hpd]
    rfl
  obtain ⟨x, y, hlane⟩ := State.collectDone_lane ({ b with
      lane.pass := none
      lane.turnNext := if f.onL2 = true then b.lane.turnNext else some true } : State)
  rw [hall, hlane]
  exact ⟨rfl, rfl, rfl⟩

theorem exec_lanePassReturn_collect {f : LaneRx} {p : LanePass} {s : State} (hc : s.coreRuns = true) (hp : s.lane.pass = some p)
    (h1 : p.copies = 1) (hback : p.back = []) (hpd : p.deliver = false) (hpt : p.type = 1)
    (hcnt : (LHdr.parse f.bytes).cnt = p.cnt) (ht : (LHdr.parse f.bytes).type = 1) (hdir : (LHdr.parse f.bytes).dir = false) :
    ∃ t, exec (.lanePassReturn f) s = .next t ∧ t.lane.pass = none ∧
      t.lane.turnNext = (if f.onL2 = true then s.lane.turnNext else some true) ∧
      ∀ i < 32, t.lane.accepted.getLsbD i = true ↔ s.lane.accepted.getLsbD i = true ∨
        ∃ x ∈ s.rxSlots (LHdr.parse f.bytes) f, x.pos = i ∧ x.par = false ∧ (LHdr.parse f.bytes).hcrcOk = true ∧
          x.istat.getLsbD 7 = true ∧ x.pos < s.nst ∧ x.icrcOk = true ∧ x.istat.getLsbD 6 = p.tog ∧
          (s.lane.perm = true → s.lane.configured.getLsbD x.pos = true) := by
  obtain ⟨⟨l, x, y, hlane⟩, hregs⟩ := s.passStored_received f
  have hstored : s.SlotsKept (s.passStored f) :=
    ⟨hregs, by rw [hlane], by rw [hlane], by rw [hlane], p.accepted, by rw [hlane, hp]; rfl⟩
  have hpass : (s.passStored f).lane.pass = some p := by rw [hlane]; exact hp
  have hcoll := State.laneData_collect (h := { LHdr.parse f.bytes with deliver := p.deliver }) hpd p.tog
    ((s.passStored f).rxSlots (LHdr.parse f.bytes) f) (s.passStored f)
  obtain ⟨hkept, hbits⟩ := State.collectAll_kept { LHdr.parse f.bytes with deliver := p.deliver } p.tog
    ((s.passStored f).rxSlots (LHdr.parse f.bytes) f) hpass
  obtain ⟨m, hm⟩ := hkept.passOf hpass
  rw [← hcoll] at hkept hbits hm
  refine ⟨_, congrArg Host.Outcome.next ((State.when_true _ hc).trans (State.laneReturn_data hp (by omega) hcnt hpt ht)), ?_⟩
  obtain ⟨hnone, hacc, hturn⟩ := State.passBack_collect (h := LHdr.parse f.bytes) (f := f) hm h1 hback hpt hpd hdir
  refine ⟨hnone, by rw [hturn, hkept.turnNext, hstored.turnNext], fun i hi => ?_⟩
  rw [hacc, hbits i hi, hlane, State.rxSlots_of_regs hregs]
  simp only [hstored.laneJudge, State.laneJudge_accepted_iff (h := { LHdr.parse f.bytes with deliver := p.deliver }) ht]

/-! ### Deadlines (11 R312; 12 R344, Table 12.2) -/

theorem exec_lanePassLate_none {s : State} (hp : s.lane.pass = none) : exec .lanePassLate s = .next s := by
  have hsame : s.laneLate = s := by rw [State.laneLate, hp]
  refine congrArg Host.Outcome.next (?_ : s.when s.coreRuns State.laneLate = s)
  rw [State.when, hsame, ite_self]

/-- A pass that is late is dropped; one sent in one copy turns the Lane out. -/
def State.passDropped (p : LanePass) (s : State) : State :=
  let a := s.count 7 38 (p.copies - p.back.length)
  { a with lane.pass := none, lane.turnNext := if p.copies = 1 then some true else a.lane.turnNext }

theorem State.laneLate_data {p : LanePass} {s : State} (hp : s.lane.pass = some p) (h0 : p.copies ≠ 0) (hpt : p.type = 1) :
    s.laneLate = if p.deliver then ((s.passDropped p).raise 198).deliverDone false else ((s.passDropped p).raise 197).cause 3 := by
  rw [State.laneLate, hp]
  exact (if_neg h0).trans (if_neg (by simp [hpt]))

theorem exec_lanePassLate_collect {p : LanePass} {s : State} (hc : s.coreRuns = true) (hp : s.lane.pass = some p)
    (h0 : p.copies ≠ 0) (hpt : p.type = 1) (hpd : p.deliver = false) :
    ∃ t, exec .lanePassLate s = .next t ∧ t.lane.pass = none ∧ t.evt.raw.getLsbD 197 = true ∧
      t.ctl.pendcause = (if s.ctl.pstate = .run then setBit s.ctl.pendcause 3 else s.ctl.pendcause) ∧
      t.lane.turnNext = (if p.copies = 1 then some true else s.lane.turnNext) := by
  have hlate : s.laneLate = ((s.passDropped p).raise 197).cause 3 := (State.laneLate_data hp h0 hpt).trans (if_neg (by simp [hpd]))
  refine ⟨_, congrArg Host.Outcome.next ((State.when_true _ hc).trans hlate), ?_⟩
  have hlane := (State.cause_lane 3 ((s.passDropped p).raise 197)).trans (State.raise_lane 197 (s.passDropped p))
  have hctl : ((s.passDropped p).raise 197).ctl = s.ctl := (State.raise_ctl 197 _).trans (State.count_ctl _ _ _ _)
  have hpend : (((s.passDropped p).raise 197).cause 3).ctl.pendcause =
      if s.ctl.pstate = .run then setBit s.ctl.pendcause 3 else s.ctl.pendcause := by
    rw [← hctl]
    unfold State.cause
    split <;> rfl
  refine ⟨by rw [hlane]; rfl, ?_, hpend, ?_⟩
  · rw [State.cause_raw]
    exact State.raise_raises _ (by decide)
  · rw [hlane]
    exact ite_congr rfl (fun _ => rfl) (fun _ => congrArg Lane.turnNext (State.count_lane _ _ _ _))

/-- The deliver pass of the cycle is over and none is in hand. -/
def State.Delivered (s : State) : Prop := s.lane.delivered = true ∧ s.lane.pass = none

namespace State.Delivered
variable {s t : State}

theorem of_lane (hl : t.lane = s.lane) (h : s.Delivered) : t.Delivered := by
  rw [State.Delivered, hl]
  exact h

theorem ite {c : Prop} [Decidable c] {a b : State} (ha : a.Delivered) (hb : b.Delivered) : (if c then a else b).Delivered := by
  split <;> assumption

theorem laneOffDrive (h : s.Delivered) : s.laneOffDrive.Delivered := by
  unfold State.laneOffDrive
  split
  · rw [State.Delivered, State.laneTo_lane]
    exact ⟨h.1, rfl⟩
  · exact ⟨h.1, rfl⟩

theorem driveEnd (h : s.Delivered) : s.driveEnd.Delivered := by
  have hend : s.permEnd.Delivered := by
    rw [State.Delivered, s.permEnd_lane]
    exact h
  exact ite (hend.laneOffDrive) h

theorem wlvRun (h : s.Delivered) : s.wlvRun.Delivered :=
  ite (driveEnd (of_lane (State.raise_lane _ _) (ite (driveEnd (ite h h)) (ite h h)))) (ite (driveEnd (ite h h)) (ite h h))

theorem ownUpdate (h : s.Delivered) : s.ownUpdate.Delivered := .ite (.ite h (.ite h (.ite h h))) (.ite h h)

theorem wlvIdle (h : s.Delivered) : s.wlvIdle.Delivered := ite h.driveEnd h

theorem wlvSync (h : s.Delivered) : s.wlvSync.Delivered := by
  have hil := h.of_lane (State.Steady.lane (.ilCheck (.revCheck (.refl s))))
  have hdrive : State.Delivered (if (s.revCheck.ilCheck).able then (s.revCheck.ilCheck).wlvRun.ownUpdate
      else (s.revCheck.ilCheck).wlvIdle) := .ite hil.wlvRun.ownUpdate hil.wlvIdle
  exact ite h (hdrive.of_lane (State.Steady.lane (.wlvAsk (.peerLostCheck (.refl _)))))

theorem handoffEnd (h : s.Delivered) : s.handoffEnd.Delivered := by
  have hset : State.Delivered { s.driveEnd with wlv.state := s.driveEnd.standbyState } := h.driveEnd
  exact hset.wlvSync

end State.Delivered

theorem State.handoffEnd_grows (s : State) : s.Grows s.handoffEnd := by
  have hset : s.Undriven { s.driveEnd with wlv.state := s.driveEnd.standbyState } := (State.Undriven.refl s).driveEnd
  exact hset.wlvSync.grows

/-- A deliver pass that failed is over, with a handover where one waited for it. -/
theorem State.deliverDone_false (s : State) : (s.deliverDone false).Delivered ∧ s.Grows (s.deliverDone false) := by
  have hfail : s.deliverDone false = if s.wlv.state = .handoff then
      (State.drillFail { s with lane.delivered := true, lane.pass := none }).handoffEnd
    else State.drillFail { s with lane.delivered := true, lane.pass := none } := rfl
  have hdone : State.Delivered (State.drillFail { s with lane.delivered := true, lane.pass := none }) := ⟨rfl, rfl⟩
  rw [hfail]
  split
  · exact ⟨hdone.handoffEnd, State.handoffEnd_grows (State.drillFail { s with lane.delivered := true, lane.pass := none })⟩
  · exact ⟨hdone, (State.Steady.refl s).grows⟩

theorem exec_lanePassLate_deliver {p : LanePass} {s : State} (hc : s.coreRuns = true) (hp : s.lane.pass = some p)
    (h0 : p.copies ≠ 0) (hpt : p.type = 1) (hpd : p.deliver = true) :
    ∃ t, exec .lanePassLate s = .next t ∧ t.lane.pass = none ∧ t.evt.raw.getLsbD 198 = true ∧ t.lane.delivered = true := by
  have hlate : s.laneLate = ((s.passDropped p).raise 198).deliverDone false := (State.laneLate_data hp h0 hpt).trans (if_pos hpd)
  obtain ⟨⟨hdel, hnone⟩, hgrows⟩ := State.deliverDone_false ((s.passDropped p).raise 198)
  exact ⟨_, congrArg Host.Outcome.next ((State.when_true _ hc).trans hlate), hnone,
    hgrows.raised (State.raise_raises _ (by decide)), hdel⟩

end Sys2Proof.Machine
end

section

/-!
PROOF. What a unit that does not drive hears (11 R314, R321; log 107), and the Lane's cycle put together.
-/

namespace Sys2Proof.Machine

/-! ### A heard deliver pass -/

theorem exec_heardPass_deaf {f : LaneRx} {s : State} (h : s.lane.enabled = false ∨ s.lane.perm = true ∨ s.lane.state = .off) :
    exec (.heardPass f) s = .next s := by
  have hsame : s.heard f = s := if_pos (by rcases h with h | h | h <;> simp [h])
  refine congrArg Host.Outcome.next (?_ : (s.when s.coreRuns fun s => s.heard f) = s)
  rw [State.when, hsame, ite_self]

/-- The outputs of one slot with a valid OCRC are written to the heard image. -/
def State.heardOut1 (x : LSlot) (t : State) : State :=
  let u := t.bufWrite (0x400B9C00 + 32 * x.pos) x.out
  { u with lane.heardOut := setBit u.lane.heardOut x.pos }

theorem State.heardOuts_one {x : LSlot} {s : State} (ho : x.ocrcOk = true) (hp : x.par = false) (hn : x.pos < s.nst) :
    s.heardOuts [x] = s.heardOut1 x := by
  rw [State.heardOuts, List.filter_cons_of_pos (by simpa using hn)]
  exact (if_neg (by simp [ho])).trans (if_neg (by simp [hp]))

theorem State.heardOut1_lane (x : LSlot) (s : State) :
    (s.heardOut1 x).lane = { s.lane with heardOut := setBit s.lane.heardOut x.pos } := by
  have hl := State.bufWrite_lane (0x400B9C00 + 32 * x.pos) x.out s
  rw [← hl]
  rfl

theorem State.heardOut1_bytes (x : LSlot) (s : State) :
    (s.heardOut1 x).bytesAt (0x400B9C00 + 32 * x.pos) x.out.length = x.out := State.bytesAt_bufWrite rfl s

/-- The heard image holds the outputs of the slot. -/
def State.Hears (x : LSlot) (t : State) : Prop :=
  t.lane.heardOut.getLsbD x.pos = true ∧ t.bytesAt (0x400B9C00 + 32 * x.pos) x.out.length = x.out

theorem State.heardOut1_hears {x : LSlot} (hx : x.pos < 32) (s : State) : State.Hears x (s.heardOut1 x) :=
  ⟨by rw [State.heardOut1_lane]; exact getLsbD_setBit_self _ hx, s.heardOut1_bytes x⟩

theorem State.Hears.of_cells {x : LSlot} {s t : State} (h : s.Hears x) (hl : t.lane.heardOut = s.lane.heardOut)
    (hm : t.mem.cells = s.mem.cells) : t.Hears x := by
  refine ⟨by rw [hl]; exact h.1, ?_⟩
  have hbyte : ∀ a, t.byte a = s.byte a := fun a => congrArg (fun c => sget Memory.unlisted c a) hm
  exact (List.map_congr_left fun i _ => hbyte _).trans h.2

theorem State.laneWatch_some {s : State} {p : LanePass} (hp : s.lane.pass = some p) (dir onL2 : Bool) :
    (s.laneWatch dir onL2).lane.pass = some { p with back := p.back ++ [(dir, onL2)] } ∧
      (s.laneWatch dir onL2).lane.heardOut = s.lane.heardOut ∧ (s.laneWatch dir onL2).lane.delivered = s.lane.delivered ∧
        (s.laneWatch dir onL2).mem = s.mem := by
  unfold State.laneWatch
  rw [hp]
  exact ⟨rfl, rfl, rfl, rfl⟩

theorem State.heardDelivered_keeps (s : State) : s.heardDelivered.lane = { s.lane with delivered := true, pass := none } ∧
    s.heardDelivered.mem.cells = s.mem.cells :=
  State.trackCompare_keeps { s with lane.delivered := true, lane.pass := none }

/-- A copy of a heard deliver pass in hand, its outputs stored: the pass is over, or waits for its other copy. -/
def State.heardWatch (dir onL2 : Bool) (b : State) : State :=
  let c := b.laneWatch dir onL2
  if c.lane.pass.any LanePass.heardWhole then c.heardDelivered else c

section
variable {b : State} {p : LanePass} (hp : b.lane.pass = some p) (dir onL2 : Bool)
include hp

theorem State.heardWatch_cases : b.heardWatch dir onL2 =
    if ({ p with back := p.back ++ [(dir, onL2)] } : LanePass).heardWhole then (b.laneWatch dir onL2).heardDelivered
    else b.laneWatch dir onL2 := by
  obtain ⟨hpass, -⟩ := State.laneWatch_some hp dir onL2
  rw [State.heardWatch, hpass]
  rfl

theorem State.heardWatch_hears {x : LSlot} (h : b.Hears x) : (b.heardWatch dir onL2).Hears x := by
  obtain ⟨-, hout, -, hm⟩ := State.laneWatch_some hp dir onL2
  have hw : (b.laneWatch dir onL2).Hears x := h.of_cells hout (congrArg MemBlk.cells hm)
  obtain ⟨hl, hcells⟩ := (b.laneWatch dir onL2).heardDelivered_keeps
  rw [State.heardWatch_cases hp]
  split
  · exact hw.of_cells (by rw [hl]) hcells
  · exact hw

/-- The one copy has gone round to L2. -/
theorem State.heardWatch_whole : (b.heardWatch false true).lane.delivered = true := by
  obtain ⟨hl, -⟩ := (b.laneWatch false true).heardDelivered_keeps
  rw [State.heardWatch_cases hp, if_pos (by simp [LanePass.heardWhole]), hl]

/-- The first copy heard on L1 does not end the pass. -/
theorem State.heardWatch_first (hb : p.back = []) : (b.heardWatch dir false).lane.delivered = b.lane.delivered ∧
    (b.heardWatch dir false).lane.pass = some { p with back := [(dir, false)] } := by
  obtain ⟨hpass, -, hdel, -⟩ := State.laneWatch_some hp dir false
  rw [State.heardWatch_cases hp, if_neg (by simp [LanePass.heardWhole, hb]), hdel, hpass, hb]
  exact ⟨rfl, rfl⟩

end

/-- The frame stored and counted. -/
def State.heardStored (f : LaneRx) (s : State) : State :=
  ((s.laneStore f).laneRxCount f (LHdr.parse f.bytes)).laneTrace (LHdr.parse f.bytes).nslot

/-- The heard pass that the frame belongs to is in hand. -/
def State.heardBegun (f : LaneRx) (a : State) : State :=
  { a with
    lane.pass := some (a.heardPass (LHdr.parse f.bytes))
    lane.heardOut := if (a.heardPass (LHdr.parse f.bytes)).back = [] then 0 else a.lane.heardOut }

section
variable {f : LaneRx} {s : State} (he : s.lane.enabled = true) (hperm : s.lane.perm = false) (hl : s.laneLoop = false)
  (hst : s.lane.state ≠ .off) (ht : (LHdr.parse f.bytes).type = 1) (hd : (LHdr.parse f.bytes).deliver = true)
  (hh : (LHdr.parse f.bytes).hcrcOk = true)
include he hperm hl hst ht hd hh

theorem State.heard_deliver : s.heard f =
    let a := s.heardStored f
    let slots := a.rxSlots (LHdr.parse f.bytes) f
    if a.lane.delivered then a.heardOuts slots
    else ((a.heardBegun f).heardOuts slots).heardWatch (LHdr.parse f.bytes).dir f.onL2 := by
  unfold State.heard
  dsimp only
  rw [if_neg (by simp [he, hperm, hl, hst]), ht, hd]
  exact if_neg (by simp [hh])

variable {x : LSlot} (hx : s.rxSlots (LHdr.parse f.bytes) f = [x]) (ho : x.ocrcOk = true) (hpar : x.par = false) (hn : x.pos < s.nst)
include hx ho hpar hn

theorem State.heard_deliver_one : s.heard f =
    if s.lane.delivered then (s.heardStored f).heardOut1 x
    else (((s.heardStored f).heardBegun f).heardOut1 x).heardWatch (LHdr.parse f.bytes).dir f.onL2 := by
  obtain ⟨⟨l, y, z, hlane⟩, hregs⟩ : s.Received (s.heardStored f) := s.laneStore_received f _ _
  have hslots := (State.rxSlots_of_regs hregs (LHdr.parse f.bytes) f).trans hx
  have hn' : x.pos < (s.heardStored f).nst := by rwa [State.nst_of_regs hregs]
  have hbegun : x.pos < ((s.heardStored f).heardBegun f).nst := hn'
  rw [State.heard_deliver he hperm hl hst ht hd hh]
  dsimp only
  rw [hslots, State.heardOuts_one ho hpar hn', State.heardOuts_one ho hpar hbegun, hlane]

theorem exec_heardPass_deliver (hc : s.coreRuns = true) :
    ∃ t, exec (.heardPass f) s = .next t ∧ t.lane.heardOut.getLsbD x.pos = true ∧
      ((LHdr.parse f.bytes).dir = false → f.onL2 = true → t.lane.delivered = true) ∧
      (f.onL2 = false → s.lane.pass = none → s.lane.delivered = false → t.lane.delivered = false ∧
        t.lane.pass = some ⟨true, false, (LHdr.parse f.bytes).cnt, 1, 0, [((LHdr.parse f.bytes).dir, false)], 0⟩) ∧
      t.bytesAt (0x400B9C00 + 32 * x.pos) x.out.length = x.out := by
  obtain ⟨⟨l, y, z, hlane⟩, -⟩ : s.Received (s.heardStored f) := s.laneStore_received f _ _
  have h32 : x.pos < 32 := lt_of_lt_of_le hn s.nst_le
  have hrun : exec (.heardPass f) s = .next (s.heard f) := congrArg Host.Outcome.next (State.when_true _ hc)
  refine ⟨_, hrun, ?_⟩
  rw [State.heard_deliver_one he hperm hl hst ht hd hh hx ho hpar hn]
  by_cases hdel : s.lane.delivered = true
  · obtain ⟨hbit, hbytes⟩ := State.heardOut1_hears h32 (s.heardStored f)
    rw [if_pos hdel]
    refine ⟨hbit, fun _ _ => ?_, fun _ _ hdel' => by simp [hdel] at hdel', hbytes⟩
    rw [State.heardOut1_lane, hlane]
    exact hdel
  · have hlane1 := State.heardOut1_lane x ((s.heardStored f).heardBegun f)
    have hpass : (((s.heardStored f).heardBegun f).heardOut1 x).lane.pass =
        some ((s.heardStored f).heardPass (LHdr.parse f.bytes)) := by rw [hlane1]; rfl
    obtain ⟨hbit, hbytes⟩ := State.heardWatch_hears hpass (LHdr.parse f.bytes).dir f.onL2
      (State.heardOut1_hears h32 ((s.heardStored f).heardBegun f))
    rw [if_neg hdel]
    refine ⟨hbit, fun hdir hl2 => ?_, fun hl2 hnone hdel' => ?_, hbytes⟩
    · rw [hdir, hl2]
      exact State.heardWatch_whole hpass
    · have hfresh : (s.heardStored f).heardPass (LHdr.parse f.bytes) = ⟨true, false, (LHdr.parse f.bytes).cnt, 1, 0, [], 0⟩ := by
        have hnone' : (s.heardStored f).lane.pass = none := by rw [hlane]; exact hnone
        rw [State.heardPass, hnone', hd]
      obtain ⟨hdel1, hpass1⟩ := State.heardWatch_first hpass (LHdr.parse f.bytes).dir (by rw [hfresh])
      rw [hl2]
      refine ⟨hdel1.trans ?_, hpass1.trans (by rw [hfresh])⟩
      rw [hlane1]
      show (s.heardStored f).lane.delivered = false
      rw [hlane]
      exact hdel'

end

/-- Settles O38: the marks, the passes sent and those returned, late or heard, each from its own lemma. The loss of signal sampled
at APPLY_MARK is log 189, drive ending with the closing mark log 194, and the end of a heard pass log 107. -/
theorem lanePasses : Obligations.LanePasses := by
  unfold Obligations.LanePasses
  refine ⟨?_, fun _ _ => rfl, signalLost_iff, ?_, ?_, fun s => exec_collectPass_idle, ?_, ?_, ?_, ?_, ?_, ?_, ?_, ?_,
    fun s => exec_lanePassLate_none, ?_, ?_, fun f s => exec_heardPass_deaf, ?_⟩
  · exact fun rest s hc _ hde hstop hst ht hw hp => exec_applyMark_run hc hde hstop ht hw hp hst
  · exact fun rest s hc _ hde hstop hst ht hl hw hp => exec_applyMark_turned hc hde hstop ht hw hp hst hl
  · exact fun rest s hc hen hstop hperm => exec_applyMark_closes hc hen hstop hperm
  · exact fun s hc hs hl hst ht => exec_collectPass_run hs hl ht hc hst
  · exact fun s hc hs hl hst ht => exec_collectPass_turned hs hl ht hc hst
  · exact fun s hc hg hs => exec_deliverPass_commits hc hg hs
  · exact fun s hc hg hs => exec_deliverPass_none hc hg hs
  · exact fun s hc hg hs hl hst ht => exec_deliverPass_run hc hg hs hl hst ht
  · exact fun f s hc hp => exec_lanePassReturn_other hc hp
  · exact fun f h s hlen hcrc => State.laneRxCount_badCrc hlen hcrc
  · exact fun f p s hc hp h1 hb hpd hpt hcnt ht hdir => exec_lanePassReturn_collect hc hp h1 hb hpd hpt hcnt ht hdir
  · exact fun p s hc hp h0 hpt hpd => exec_lanePassLate_collect hc hp h0 hpt hpd
  · exact fun p s hc hp h0 hpt hpd => exec_lanePassLate_deliver hc hp h0 hpt hpd
  · exact fun f x s hc he hperm hl hst ht hd hh hx ho hpar hn _ =>
      exec_heardPass_deliver he hperm hl hst ht hd hh hx ho hpar hn hc

end Sys2Proof.Machine
end

section

/-!
PROOF. The beats of the DMA engine (13 R352, R353, R361, R365, R366, R368, R369, R371): one beat of a linear transfer, its size,
and the beats of a gap.
-/

namespace Sys2Proof.Machine

/-! ### The size and the lanes of a beat (13 R361) -/

theorem beatSize_auto (a : Word) {n : Nat} (hn : 0 < n) : beatSize 0 a n ≤ n ∧ a.toNat % beatSize 0 a n = 0 ∧
    ∀ k ∈ [1, 2, 4], k ≤ n → a.toNat % k = 0 → k ≤ beatSize 0 a n := by
  simp only [beatSize, ne_eq, not_true_eq_false, if_false, List.mem_cons, List.not_mem_nil, or_false]
  split
  · next h => exact ⟨h.2, h.1, by rintro k (rfl | rfl | rfl) <;> omega⟩
  · split
    · next h => exact ⟨h.2, h.1, by rintro k (rfl | rfl | rfl) <;> omega⟩
    · exact ⟨hn, Nat.mod_one _, by rintro k (rfl | rfl | rfl) <;> omega⟩

/-- The lanes of a beat are those of its bytes. -/
theorem getLsbD_beatBe {a : Word} {k i : Nat} (hi : i < 4) :
    (beatBe a k).getLsbD i = decide (a.toNat % 4 ≤ i ∧ i < a.toNat % 4 + k) := by
  rw [beatBe, BitVec.getLsbD_ofNat, Nat.testBit_mul_two_pow, Nat.testBit_two_pow_sub_one]
  by_cases h : a.toNat % 4 ≤ i
  · simp [h, hi, Nat.sub_lt_iff_lt_add h, Nat.add_comm]
  · simp [h]

/-- The word that a write beat drives. -/
def beatWord (a : Word) (bs : List Byte) : Word := (BitVec.ofNat 32 (ofLe bs)) <<< (8 * (a.toNat % 4))

/-- Its bytes are those of the beat, each in its lane. -/
theorem byte_beatWord {a : Word} {bs : List Byte} {i : Nat} (hi : i < 4) (ha : a.toNat % 4 ≤ i) :
    ((beatWord a bs) >>> (8 * i)).setWidth 8 = bs.getD (i - a.toNat % 4) 0 := by
  rw [← ofLe_byte, beatWord]
  generalize a.toNat % 4 = r at ha ⊢
  have h256 : (256 : Nat) ^ (i - r) = 2 ^ (8 * (i - r)) := by rw [Nat.pow_mul]
  refine BitVec.eq_of_getLsbD_eq fun j hj => ?_
  simp only [h256, BitVec.getLsbD_setWidth, BitVec.getLsbD_ushiftRight, BitVec.getLsbD_shiftLeft, BitVec.getLsbD_ofNat,
    Nat.testBit_div_two_pow]
  have h1 : 8 * i + j < 32 := by omega
  have h2 : ¬ 8 * i + j < 8 * r := by omega
  have h3 : 8 * i + j - 8 * r = j + 8 * (i - r) := by omega
  have h4 : j + 8 * (i - r) < 32 := by omega
  simp [hj, h1, h2, h3, h4]

/-! ### Triggers latched besides (13 R364) -/

/-- A channel but for its state and its trigger bits. -/
def DmaCh.Latched (c d : DmaCh) : Prop := ∃ st p o, d = { c with state := st, trigpend := p, trigovr := o }

/-- From s to t the channels at most latched triggers. -/
def State.Latched (s t : State) : Prop := ∀ n, (s.dch n).Latched (t.dch n)

theorem DmaCh.Latched.refl (c : DmaCh) : c.Latched c := ⟨c.state, c.trigpend, c.trigovr, rfl⟩

theorem DmaCh.Latched.trans {c d e : DmaCh} (h : c.Latched d) (h' : d.Latched e) : c.Latched e := by
  obtain ⟨st, p, o, rfl⟩ := h
  obtain ⟨st', p', o', rfl⟩ := h'
  exact ⟨st', p', o', rfl⟩

theorem DmaCh.trigger_latched (c : DmaCh) : c.Latched c.trigger := by
  unfold DmaCh.trigger
  split
  · exact ⟨.run, c.trigpend, c.trigovr, rfl⟩
  · split
    · exact ⟨c.state, c.trigpend, true, rfl⟩
    · exact ⟨c.state, true, c.trigovr, rfl⟩

namespace State.Latched
variable {s0 s t : State}

theorem refl (s : State) : s.Latched s := fun _ => .refl _

theorem trans (h : s0.Latched s) (h' : s.Latched t) : s0.Latched t := fun n => (h n).trans (h' n)

theorem of_dma (h : s0.Latched s) (hd : t.dma = s.dma) : s0.Latched t := fun n => by
  show (s0.dch n).Latched (t.dma.ch.get n)
  rw [hd]
  exact h n

theorem when {b : Bool} {f : State → State} (h : s0.Latched s) (hf : s0.Latched (f s)) : s0.Latched (s.when b f) := by
  unfold State.when
  split <;> assumption

theorem dmaFire (x : TrigSource) (h : s0.Latched s) : s0.Latched (s.dmaFire x) := by
  refine h.trans fun n => ?_
  have hfold : ∀ (l : List (Fin 32)) (v : Vector DmaCh 32), (v.get n).Latched ((l.foldl (fun (v : Vector DmaCh 32) (m : Fin 32) =>
      if trigSelects (s.chctl m) x then upd v m DmaCh.trigger else v) v).get n) := by
    intro l
    induction l with
    | nil => exact fun v => .refl _
    | cons m l ih =>
      intro v
      refine DmaCh.Latched.trans ?_ (ih _)
      dsimp only
      split
      · by_cases hm : m = n
        · subst hm
          have hset : (upd v m DmaCh.trigger).get m = (v.get m).trigger := Vector.getElem_set_self m.isLt
          rw [hset]
          exact DmaCh.trigger_latched _
        · have hne : m.val ≠ n.val := fun he => hm (Fin.ext he)
          have hset : (upd v m DmaCh.trigger).get n = v.get n := Vector.getElem_set_ne m.isLt n.isLt hne
          rw [hset]
          exact .refl _
      · exact .refl _
  exact hfold (fins 32) s.dma.ch

theorem raise (k : Nat) (h : s0.Latched s) : s0.Latched (s.raise k) := by
  unfold State.raise
  refine .dmaFire _ (.when (of_dma h rfl) (of_dma h ?_))
  rw [State.fbEvent_dma]

theorem raiseIf (b : Bool) (k : Nat) (h : s0.Latched s) : s0.Latched (s.raiseIf b k) := .when h (.raise k h)

theorem count (p i k : Nat) (h : s0.Latched s) : s0.Latched (s.count p i k) := by
  unfold State.count
  split
  · exact .raiseIf _ _ (.raiseIf _ _ (of_dma h rfl))
  · exact h

theorem memLog (kind region : Nat) (src : Byte) (synd addr : Nat) (h : s0.Latched s) :
    s0.Latched (s.memLog kind region src synd addr) := by
  unfold State.memLog
  dsimp only
  split
  · exact of_dma h rfl
  · exact .raise _ (of_dma h rfl)

theorem eccCe (kind : Nat) (src : Byte) (a : Nat) (e : WordErr) (h : s0.Latched s) : s0.Latched (s.eccCe kind src a e) :=
  .raise _ (.memLog _ _ _ _ _ (of_dma h rfl))

theorem eccUe (kind : Nat) (src : Byte) (a : Nat) (e : WordErr) (h : s0.Latched s) : s0.Latched (s.eccUe kind src a e) :=
  .raise _ (.memLog _ _ _ _ _ (of_dma h rfl))

theorem eccReadFx (src : Byte) (a : Nat) (h : s0.Latched s) : s0.Latched (s.eccReadFx src a) := by
  unfold State.eccReadFx
  split
  · exact h
  · split
    · exact .eccCe _ _ _ _ (of_dma h (by rw [State.setErr_dma, State.putWord_frame]))
    · exact .eccUe _ _ _ _ h

theorem parityFx (src : Byte) (r : MRegion) (a : Nat) (be : BitVec 4) (h : s0.Latched s) : s0.Latched (s.parityFx src r a be) := by
  have hfound : ∀ x, s0.Latched (s.parityFound src r x) := fun x => by
    have hlog : s0.Latched ((s.memLog 5 r.code src (x % 4) x).raise 235) := .raise _ (.memLog _ _ _ _ _ h)
    unfold State.parityFound
    dsimp only
    split
    · exact .raise _ (.count _ _ _ hlog)
    · exact hlog
  unfold State.parityFx
  split
  · exact h
  · exact hfound _

theorem memReadFx (src : Byte) (a : Nat) (be : BitVec 4) (h : s0.Latched s) : s0.Latched (s.memReadFx src a be) := by
  unfold State.memReadFx
  split
  · exact .eccReadFx _ _ h
  · exact .eccReadFx _ _ h
  · exact .parityFx _ _ _ _ h
  · exact .parityFx _ _ _ _ h
  · exact .parityFx _ _ _ _ h
  · exact .parityFx _ _ _ _ h
  · exact h

end State.Latched

/-! ### The grant (13 R353, R369, R370) -/

theorem State.dch_setDch_same (n : Fin 32) (c : DmaCh) (s : State) : (s.setDch n c).dch n = c :=
  Vector.getElem_set_self n.isLt

theorem State.setDch_dch (n : Fin 32) (s : State) : s.setDch n (s.dch n) = s := by
  have hch : s.dma.ch.set n (s.dch n) = s.dma.ch := by simp [State.dch, Vector.get]
  unfold State.setDch
  rw [hch]

/-- The grant of a priority is taken. -/
def State.granted (g : Vector (Option (Fin 32 × Bool)) 4) (s : State) : State := { s with dma.grant := g }

theorem exec_dmaBeat_idle {s : State} (hl : s.localPending = false) (h : s.dmaOn = false ∨ s.dmaGrant = none) :
    exec .dmaBeat s = .next s := by
  have hsame : s.dmaBeat = s := by
    rw [State.dmaBeat, if_neg (by simp [hl])]
    rcases h with h | h
    · exact if_pos (by simp [h])
    · rw [h, ite_self]
  refine congrArg Host.Outcome.next (?_ : s.when s.coreRuns State.dmaBeat = s)
  rw [State.when, hsame, ite_self]

theorem exec_dmaBeat_local {s : State} (hc : s.coreRuns = true) (hl : s.localPending = true) :
    exec .dmaBeat s = exec .localWriteResponse s := by
  have hb : s.dmaBeat = s.localResponse.txPosted .causeway := if_pos hl
  refine congrArg Host.Outcome.next ?_
  rw [State.when_true _ hc, State.when_true _ hc, hb]

theorem exec_dmaBeat_granted {p : Nat} {n : Fin 32} {s : State} (hc : s.coreRuns = true) (hl : s.localPending = false)
    (hon : s.dmaOn = true) (hg : s.dmaGrant = some (p, n)) : ∃ g, exec .dmaBeat s = .next ((s.granted g).dmaMakes fullBus n) := by
  refine ⟨vset s.dma.grant p (some (n, (s.dch n).lastBeat)), congrArg Host.Outcome.next ((State.when_true _ hc).trans ?_)⟩
  rw [State.dmaBeat, if_neg (by simp [hl]), if_neg (by simp [hon]), hg]
  rfl

/-! ### A beat of a linear transfer (13 R361, R365, R366) -/

theorem DmaCh.needsPair_linear {c : DmaCh} (h : c.type = 0) (dest : Bool) : c.needsPair dest = false := by
  simp [DmaCh.needsPair, DmaCh.listed, h]

theorem DmaSide.settled_linear {c : DmaCh} (h : c.type = 0) (x : DmaSide) (dest : Bool) : x.settled c dest = x := by
  simp [DmaSide.settled, h]

theorem State.dmaChBeat_read {b : Bus} {n : Fin 32} {s : State} (hst : (s.dch n).state = .run) (ht : (s.dch n).type = 0)
    (hch : (s.dch n).chunk ≠ 0) : s.dmaChBeat b n = s.dmaReadBeat b n := by
  have hadv : (s.dch n).advance = s.dch n := if_neg (by simp [hch])
  unfold State.dmaChBeat
  dsimp only
  rw [hst]
  dsimp only
  rw [hadv, State.setDch_dch, if_pos hch, DmaCh.needsPair_linear ht]
  rfl

theorem State.dmaChBeat_write {b : Bus} {n : Fin 32} {s : State} (hst : (s.dch n).state = .run) (ht : (s.dch n).type = 0)
    (hch : (s.dch n).chunk = 0) (hbuf : (s.dch n).buf ≠ []) : s.dmaChBeat b n = s.dmaWriteBeat b n := by
  have hadv : (s.dch n).advance = s.dch n := if_neg (by simp [hbuf])
  unfold State.dmaChBeat
  dsimp only
  rw [hst]
  dsimp only
  rw [hadv, State.setDch_dch, if_neg (by simp [hch]), DmaCh.needsPair_linear ht]
  rfl

/-- The channel after a read beat of k bytes bs of a linear transfer. -/
def DmaCh.readOn (c : DmaCh) (k : Nat) (bs : List Byte) : DmaCh :=
  { c with
    s := { c.s with addr := c.s.addr + BitVec.ofNat 32 k, left := c.s.left - k }
    buf := c.buf ++ bs
    shown := listPut c.shown c.buf.length bs
    chunk := c.chunk - k
    toRead := c.toRead - k
    src := c.s.addr + BitVec.ofNat 32 k }

theorem State.dmaReadBeat_linear {b : Bus} {n : Fin 32} {s : State} (ht : (s.dch n).type = 0) {k w : Nat} {be : BitVec 4}
    (hk : beatSize (s.dch n).asize (s.dch n).s.addr (min (s.dch n).s.left (s.dch n).chunk) = k)
    (hw : (s.dch n).s.addr.toNat / 4 * 4 = w) (hbe : beatBe (s.dch n).s.addr k = be) (he : b.readErr s (.dma n) w be = none) :
    s.dmaReadBeat b n = b.readFx (.dma n) w be
      (s.setDch n ((s.dch n).readOn k (beatBytes (s.dch n).s.addr k (b.read s (.dma n) w be)))) := by
  subst hk hw hbe
  unfold State.dmaReadBeat
  dsimp only
  rw [he]
  dsimp only
  rw [DmaSide.settled_linear ht]
  rfl

theorem State.readErr_granted (g : Vector (Option (Fin 32 × Bool)) 4) (m : Master) (a : Nat) (be : BitVec 4) (s : State) :
    (s.granted g).readErr m a be = s.readErr m a be := rfl

theorem State.busRead_granted (g : Vector (Option (Fin 32 × Bool)) 4) (m : Master) (a : Nat) (be : BitVec 4) (s : State)
    (h : (memRegion? a).isSome = true) : (s.granted g).busRead m a be = s.busRead m a be := by
  rw [State.busRead, State.busRead, if_pos h, if_pos h]
  rfl

theorem State.busReadFx_latched (m : Master) {a : Nat} (be : BitVec 4) (s : State) (h : (memRegion? a).isSome = true) :
    s.Latched (s.busReadFx m a be) := by
  rw [State.busReadFx, if_pos h]
  split
  · exact .memReadFx _ _ _ (.refl s)
  · exact .refl s

theorem State.dmaMakes_parts (b : Bus) (n m : Fin 32) (s : State) : (s.dmaMakes b n).dma.last = some n ∧
    (s.dmaMakes b n).dch m = (s.dmaChBeat b n).dch m ∧ (s.dmaMakes b n).mem = (s.dmaChBeat b n).mem ∧
      (s.dmaMakes b n).regs = (s.dmaChBeat b n).regs ∧ (s.dmaMakes b n).itn = (s.dmaChBeat b n).itn := ⟨rfl, rfl, rfl, rfl, rfl⟩

theorem exec_dmaBeat_reads {p : Nat} {n : Fin 32} {s : State} (hc : s.coreRuns = true) (hl : s.localPending = false)
    (hon : s.dmaOn = true) (hg : s.dmaGrant = some (p, n)) (hst : (s.dch n).state = .run) (ht : (s.dch n).type = 0)
    (hch : (s.dch n).chunk ≠ 0) {k w : Nat} {be : BitVec 4}
    (hk : beatSize (s.dch n).asize (s.dch n).s.addr (min (s.dch n).s.left (s.dch n).chunk) = k)
    (hw : (s.dch n).s.addr.toNat / 4 * 4 = w) (hbe : beatBe (s.dch n).s.addr k = be) (hm : (memRegion? w).isSome = true)
    (he : s.readErr (.dma n) w be = none) :
    ∃ t, exec .dmaBeat s = .next t ∧ t.dma.last = some n ∧
      ((s.dch n).readOn k (beatBytes (s.dch n).s.addr k (s.busRead (.dma n) w be))).Latched (t.dch n) := by
  obtain ⟨g, hrun⟩ := exec_dmaBeat_granted hc hl hon hg
  obtain ⟨hlast, hdch, -⟩ := State.dmaMakes_parts fullBus n n (s.granted g)
  refine ⟨_, hrun, hlast, ?_⟩
  have hread : (s.granted g).dmaChBeat fullBus n = ((s.granted g).setDch n ((s.dch n).readOn k
      (beatBytes (s.dch n).s.addr k ((s.granted g).busRead (.dma n) w be)))).busReadFx (.dma n) w be :=
    (State.dmaChBeat_read (s := s.granted g) hst ht hch).trans (State.dmaReadBeat_linear (s := s.granted g) ht hk hw hbe he)
  rw [hdch, hread, State.busRead_granted _ _ _ _ _ hm]
  have hlat := State.busReadFx_latched (.dma n) be ((s.granted g).setDch n ((s.dch n).readOn k
      (beatBytes (s.dch n).s.addr k (s.busRead (.dma n) w be)))) hm n
  rwa [State.dch_setDch_same] at hlat

end Sys2Proof.Machine
end

section

/-!
PROOF. The write beat of a linear transfer (13 R361, R366), the beats of a gap (13 R371; 10 R290), and one beat put together.
-/

namespace Sys2Proof.Machine

/-! ### A write beat -/

/-- The channel after a write beat of k bytes of a linear transfer. -/
def DmaCh.writeOn (c : DmaCh) (k : Nat) (wr : DmaWr) : DmaCh :=
  { c with
    d := { c.d with addr := c.d.addr + BitVec.ofNat 32 k, left := c.d.left - k }
    buf := c.buf.drop k
    outst := c.outst ++ [wr]
    dst := c.d.addr + BitVec.ofNat 32 k
    state := if c.buf.drop k = [] ∧ c.toRead = 0 then .wresp else .run }

theorem State.dmaWriteBeat_linear {b : Bus} {n : Fin 32} {s : State} {c : DmaCh} (hc : s.dch n = c) (ht : c.type = 0) {k : Nat}
    (hk : beatSize c.asize c.d.addr (min c.d.left c.buf.length) = k)
    (hf : b.writeFails s (.dma n) (c.d.addr.toNat / 4 * 4) (beatBe c.d.addr k) (beatWord c.d.addr (c.buf.take k)) = none) :
    ∃ old, s.dmaWriteBeat b n = b.write (.dma n) (c.d.addr.toNat / 4 * 4) (beatBe c.d.addr k) (beatWord c.d.addr (c.buf.take k))
      (s.setDch n (c.writeOn k ⟨c.d.addr, c.buf.take k, false, old⟩)) := by
  subst hk hc
  refine ⟨if (memRegion? ((s.dch n).d.addr.toNat / 4 * 4)).isSome then
    some (s.bytesAt (s.dch n).d.addr.toNat (beatSize (s.dch n).asize (s.dch n).d.addr (min (s.dch n).d.left (s.dch n).buf.length)))
    else none, ?_⟩
  rw [beatWord] at hf ⊢
  unfold State.dmaWriteBeat
  dsimp only
  rw [DmaSide.settled_linear ht, hf]
  rfl

/-- A beat written to a word stands at its address, and no other byte changes. -/
theorem State.byte_beatWritten {a : Word} {bs : List Byte} {k x : Nat} (hfit : a.toNat % 4 + k ≤ 4) (s : State) :
    (s.putWord (a.toNat / 4 * 4) (mergeLanes (s.wordAt (a.toNat / 4 * 4)) (beatBe a k) (beatWord a bs))).byte x =
      if a.toNat ≤ x ∧ x < a.toNat + k then bs.getD (x - a.toNat) 0 else s.byte x := by
  have hlane : (beatBe a k).getLsbD (x % 4) = true ↔ a.toNat % 4 ≤ x % 4 ∧ x % 4 < a.toNat % 4 + k := by
    rw [getLsbD_beatBe (Nat.mod_lt x (by decide)), decide_eq_true_eq]
  rw [State.byte_putWord_mergeLanes _ _ _ _ _ (Nat.mul_mod_left _ 4)]
  simp only [hlane]
  by_cases hx : a.toNat ≤ x ∧ x < a.toNat + k
  · rw [if_pos (by omega), if_pos hx, byte_beatWord (Nat.mod_lt x (by decide)) (by omega)]
    congr 1
    omega
  · rw [if_neg (by omega), if_neg hx]

theorem State.masterAllows_of_writeErr {m : Master} {a : Nat} {s : State} (h : s.writeErr m a = none)
    (hm : (memRegion? a).isSome = true) : s.masterAllows m true a = true := by
  by_contra hn
  rw [Bool.not_eq_true] at hn
  rw [State.writeErr, if_neg (by simp [Option.isSome_iff_ne_none.mp hm]), if_pos (by simp [hn])] at h
  cases h

/-- What the bus of the deep map does with a beat to SRAM without errors. -/
theorem State.write_sram_set {n : Fin 32} {a : Nat} {s : State} {g : Vector (Option (Fin 32 × Bool)) 4} (c : DmaCh) (be : BitVec 4)
    (v : Word) (h1 : 0x10000000 ≤ a) (h2 : a < 0x10100000) (htx : s.txSize = 0) (he : s.mem.errs = [])
    (hj : s.regBit Reg.MEM_INJECT 31 = false) (hm : s.masterAllows (.dma n) true a = true) :
    ((s.granted g).setDch n c).write (.dma n) a be v =
      ((s.granted g).setDch n c).putWord a (mergeLanes (((s.granted g).setDch n c).wordAt a) be v) :=
  State.write_sram (s := (s.granted g).setDch n c) be v h1 h2 htx he hj hm

theorem State.putWord_dch (a : Nat) (v : Word) (n : Fin 32) (s : State) : (s.putWord a v).dch n = s.dch n := by
  rw [State.putWord_frame]
  rfl

section
variable {p : Nat} {n : Fin 32} {s : State} (hc : s.coreRuns = true) (hl : s.localPending = false)
  (hon : s.dmaOn = true) (hg : s.dmaGrant = some (p, n)) (hst : (s.dch n).state = .run) (ht : (s.dch n).type = 0)
  (hch : (s.dch n).chunk = 0) {k : Nat}
  (hk : beatSize (s.dch n).asize (s.dch n).d.addr (min (s.dch n).d.left (s.dch n).buf.length) = k)
  (hfit : (s.dch n).d.addr.toNat % 4 + k ≤ 4) (h1 : 0x10000000 ≤ (s.dch n).d.addr.toNat)
  (h2 : (s.dch n).d.addr.toNat < 0x10100000) (hw : s.writeErr (.dma n) ((s.dch n).d.addr.toNat / 4 * 4) = none)
  (he : s.mem.errs = []) (hj : s.regBit Reg.MEM_INJECT 31 = false) (htx : s.txSize = 0) (hbuf : (s.dch n).buf ≠ [])
include hc hl hon hg hst ht hch hk hfit h1 h2 hw he hj htx hbuf

theorem exec_dmaBeat_writes :
    ∃ t old, exec .dmaBeat s = .next t ∧ t.dch n = (s.dch n).writeOn k ⟨(s.dch n).d.addr, (s.dch n).buf.take k, false, old⟩ ∧
      t.regs = s.regs ∧ ∀ x, t.byte x = if (s.dch n).d.addr.toNat ≤ x ∧ x < (s.dch n).d.addr.toNat + k then
        ((s.dch n).buf.take k).getD (x - (s.dch n).d.addr.toNat) 0 else s.byte x := by
  have hsram : (memRegion? ((s.dch n).d.addr.toNat / 4 * 4)).isSome = true := by
    rw [memRegion?_sram (by omega) (by omega)]
    rfl
  have hallow := State.masterAllows_of_writeErr hw hsram
  obtain ⟨g, hrun⟩ := exec_dmaBeat_granted hc hl hon hg
  obtain ⟨-, hdch, hmem, hregs, -⟩ := State.dmaMakes_parts fullBus n n (s.granted g)
  obtain ⟨old, hlin⟩ := State.dmaWriteBeat_linear (b := fullBus) (s := s.granted g) (n := n) (c := s.dch n) rfl ht hk
    (State.writeFails_sram (s := s.granted g) _ _ (by omega) (by omega) hallow)
  have hbeat := ((State.dmaChBeat_write (s := s.granted g) hst ht hch hbuf).trans hlin).trans
    (State.write_sram_set _ _ _ (by omega) (by omega) htx he hj hallow)
  refine ⟨_, old, hrun, ?_, ?_, fun x => ?_⟩
  · rw [hdch, hbeat, State.putWord_dch, State.dch_setDch_same]
  · rw [hregs, hbeat, State.putWord_regs]
    rfl
  · rw [State.byte, hmem, ← State.byte, hbeat]
    exact State.byte_beatWritten hfit _

end

/-! ### A gap between entries (13 R371; 10 R290) -/

theorem State.memLog_itn (kind region : Nat) (src : Byte) (synd addr : Nat) (s : State) :
    (s.memLog kind region src synd addr).itn = s.itn := congrArg SendCore.itn (State.Sent.memLog _ _ _ _ _ (.refl s))

theorem State.flashResult_itn (src : Byte) (a code : Nat) (s : State) : (s.flashResult src a code).itn = s.itn := by
  unfold State.flashResult
  dsimp only
  split
  · rfl
  · have hraise : ∀ (b : Bool) (n : Nat) (t : State), (t.raiseIf b n).itn = t.itn := fun b n t => by
      unfold State.raiseIf State.when
      split
      · exact State.raise_itn n t
      · rfl
    rw [hraise, State.raise_itn, State.memLog_itn]

theorem State.each_itn {α : Type} {f : α → State → State} (hf : ∀ x t, (f x t).itn = t.itn) (l : List α) (s : State) :
    (s.each l f).itn = s.itn := by
  induction l generalizing s with
  | nil => rfl
  | cons x l ih => exact (ih (f x s)).trans (hf x s)

theorem State.when_itn {f : State → State} (b : Bool) (s : State) (hf : (f s).itn = s.itn) : (s.when b f).itn = s.itn := by
  unfold State.when
  split
  · exact hf
  · rfl

theorem State.flashProgram_itn (m : Master) (a : Nat) (be : BitVec 4) (v : Word) (s : State) :
    (s.flashProgram m a be v).itn = s.itn := by
  have hand : (s.flashAnd (a / 4 * 4) be v).itn = s.itn := State.each_itn (fun i t => State.when_itn _ t rfl) _ s
  have htouched : ∀ (k : Nat) (t : State), (t.slotTouched k).itn = t.itn := fun k t => by
    unfold State.slotTouched
    dsimp only
    split
    · rfl
    · split <;> rfl
  unfold State.flashProgram
  dsimp only
  split
  · exact State.flashResult_itn _ _ _ s
  · rw [htouched, State.setFlashBusy_itn, State.flashResult_itn, hand]

theorem State.memWrite_itn (m : Master) (a : Nat) (be : BitVec 4) (v : Word) (s : State) : (s.memWrite m a be v).itn = s.itn := by
  have hbuf : (s.bufWriteLanes a be v).itn = s.itn := State.each_itn (fun i t => State.when_itn _ t (by
    unfold State.bufWrite
    dsimp only
    rw [State.setBytes_frame])) _ s
  have hecc : ∀ src, (s.eccWrite src a be v).itn = s.itn := fun src => congrArg SendCore.itn (State.Sent.eccWrite src a be v (.refl s))
  unfold State.memWrite
  split
  · rfl
  · exact State.flashProgram_itn m a be v s
  · exact hecc _
  · exact hecc _
  · split
    · dsimp only
      split <;> exact hbuf
    · rfl
  · split
    · exact hbuf
    · rfl

/-- A bus whose accesses leave the sequencer alone. -/
structure Bus.KeepsItn (b : Bus) : Prop where
  readFx : ∀ m a be s, (b.readFx m a be s).itn = s.itn
  write : ∀ m a be v s, (b.write m a be v s).itn = s.itn

theorem memBus_keepsItn : memBus.KeepsItn where
  readFx _ a be s := State.when_itn _ s (congrArg SendCore.itn (State.Sent.memReadFx _ a be (.refl s)))
  write m a be v s := State.when_itn _ s (State.memWrite_itn m a be v s)

theorem State.dmaFail_itn (n : Fin 32) (code : BitVec 3) (a : Word) (s : State) : (s.dmaFail n code a).itn = s.itn := by
  unfold State.dmaFail State.dmaSettle
  dsimp only
  split
  · exact State.raise_itn _ _
  · rfl

section
variable {b : Bus} (hb : b.KeepsItn) (n : Fin 32) (s : State)
include hb

theorem State.dmaReadBeat_itn : (s.dmaReadBeat b n).itn = s.itn := by
  unfold State.dmaReadBeat
  dsimp only
  split
  · rw [State.dmaFail_itn, hb.readFx]
  · exact hb.readFx _ _ _ _

theorem State.dmaPairBeat_itn (dest : Bool) : (s.dmaPairBeat b n dest).itn = s.itn := by
  unfold State.dmaPairBeat
  dsimp only
  generalize (if dest = true then (s.dch n).d else (s.dch n).s) = x
  generalize (if x.word0.isNone = true then x.list else x.list + 4) = a
  split
  · exact State.dmaFail_itn _ _ _ s
  · split
    · rw [State.dmaFail_itn, hb.readFx]
    · split
      · exact hb.readFx _ _ _ _
      · split
        · exact hb.readFx _ _ _ _
        · rw [State.dmaFail_itn, hb.readFx]

theorem State.dmaChBeat_itn : (s.dmaChBeat b n).itn = s.itn := by
  unfold State.dmaChBeat
  dsimp only
  split
  · split
    · rw [State.dmaFail_itn, hb.readFx]
    · exact hb.readFx _ _ _ _
  · split
    · split
      · exact State.dmaPairBeat_itn hb n _ false
      · exact State.dmaReadBeat_itn hb n _
    · split
      · exact State.dmaPairBeat_itn hb n _ true
      · exact hb.write _ _ _ _ _
  · rfl

end

theorem State.dmaGapBeat_idle {n : Fin 32} {s : State} (h : s.coreRuns = false ∨ s.dmaWaits n = false) : s.dmaGapBeat n = s :=
  if_neg (by rcases h with h | h <;> simp [h])

theorem State.dmaGapBeat_serves {n : Fin 32} {s : State} (hc : s.coreRuns = true) (hw : s.dmaWaits n = true) :
    (s.dmaGapBeat n).dma.last = some n ∧ (s.dmaGapBeat n).itn.passcyc = s.itn.passcyc + 2 := by
  have hgrant : (s.dmaGapGrant n).itn = s.itn := by
    unfold State.dmaGapGrant
    dsimp only
    split <;> split <;> rfl
  obtain ⟨hlast, -, -, -, hitn⟩ := State.dmaMakes_parts memBus n n (s.dmaGapGrant n)
  have hkeep := hitn.trans ((State.dmaChBeat_itn memBus_keepsItn n (s.dmaGapGrant n)).trans hgrant)
  have hbeat : s.dmaGapBeat n = { (s.dmaGapGrant n).dmaMakes memBus n with
      itn.passcyc := ((s.dmaGapGrant n).dmaMakes memBus n).itn.passcyc + 2 } := if_pos (by simp [hc, hw])
  rw [hbeat]
  exact ⟨hlast, congrArg (fun i : Itn => i.passcyc + 2) hkeep⟩

/-- Settles O43: the grant, the two beats of a linear transfer, each the whole channel it leaves, and the size of a beat. That a
read beat's size is bounded by what is left of the chunk is log 227. -/
theorem dmaCopies : Obligations.DmaCopies := by
  unfold Obligations.DmaCopies
  refine ⟨fun s hl h => exec_dmaBeat_idle hl h, fun s hc hl => exec_dmaBeat_local hc hl,
    fun n s => ⟨State.dmaGapBeat_idle, State.dmaGapBeat_serves⟩, ?_, ?_, fun a n => beatSize_auto a⟩
  · intro p n s hc hl hon hg c a k w hst ht hch hm he
    obtain ⟨t, hrun, hlast, st, pend, ovr, hdch⟩ := exec_dmaBeat_reads hc hl hon hg hst ht hch (k := k) rfl rfl rfl hm he
    refine ⟨t, hrun, ?_⟩
    rw [hdch]
    exact ⟨rfl, rfl, rfl, rfl, rfl, hlast, rfl, rfl⟩
  · intro p n s hc hl hon hg c a k hst ht hch hlen hfit h1 h2 hw he hj htx hbuf
    obtain ⟨t, old, hrun, hdch, hregs, hbyte⟩ := exec_dmaBeat_writes hc hl hon hg hst ht hch (k := k) rfl hfit h1 h2 hw he hj htx hbuf
    have htake : (c.buf.take k).length = k := by simp [hlen]
    replace hbyte : ∀ x, t.byte x = if a.toNat ≤ x ∧ x < a.toNat + k then (c.buf.take k).getD (x - a.toNat) 0 else s.byte x := hbyte
    refine ⟨t, hrun, ?_, fun x hx => (hbyte x).trans (if_neg (by omega)), ?_⟩
    · have hbytes : t.bytesAt a.toNat (c.buf.take k).length = c.buf.take k := State.bytesAt_eq fun i hi => by
        rw [hbyte, if_pos ⟨by omega, by omega⟩, Nat.add_sub_cancel_left]
        exact (List.getElem_eq_getD _).symm
      rwa [htake] at hbytes
    · rw [hdch]
      exact ⟨rfl, rfl, rfl, List.map_append, rfl, hregs⟩

end Sys2Proof.Machine
end

section

/-!
PROOF. The refutation of the statement on the Causeway (14 R390, R396): the field NOTAPP of a log entry holds 8 bits, and the
statement speaks of frames of any number of records.
-/

namespace Sys2Proof.Machine

/-- The entry that the end of a frame without DONE logs names the first record and counts the others not written. -/
theorem State.doneLate_log {w : Fin 16} {e : CwyEntry} {l : List CwyEntry} {s : State} (hf : (s.cwyWin w).flight = some (e :: l, true))
    (hw : s.cwy.waiting = none) (hlog : s.cwy.log = []) :
    (s.doneLate w).cwy.log.map CwyLog.w0 = [packW [(31, 1), (30, 1), (26, w.val), (20, e.nid.toNat), (8, 0x23), (0, l.length)]] := by
  have hadd : ∀ (t : State) (nid notapp fseq : Nat) (a d : Word), t.cwy.log = [] →
      (t.cwyLogAdd true w.val nid 0x23 notapp a d fseq).cwy.log.map CwyLog.w0 =
        [packW [(31, 1), (30, 1), (26, w.val), (20, nid), (8, 0x23), (0, notapp)]] := by
    intro t nid notapp fseq a d ht
    simp [State.cwyLogAdd, ht]
  have hwait : ∀ t : State, t.cwy.waiting = none → t.hostResume = t := fun t ht => by rw [State.hostResume, ht]
  unfold State.doneLate
  rw [hf]
  unfold State.cwyFlightEnd
  rw [hf]
  dsimp only
  rw [if_neg (by decide), List.getElem?_cons_zero]
  dsimp only
  rw [hwait]
  · exact hadd _ _ _ _ _ _ hlog
  · unfold State.cwyLogAdd
    dsimp only
    split
    · rw [State.raise_cwy]
      exact hw
    · rw [State.raise_cwy]
      exact hw

/-- A record of 0 at address 0 for node 0 through window 0. -/
def zeroRecord : CwyEntry := ⟨0, true, 0, 0, 0, 0, true⟩

/-- The node after reset, with a frame of 257 records in flight in window 0 whose transmit result has come. -/
def longFrame : State := State.reset.modWin 0 fun c => { c with flight := some (zeroRecord :: List.replicate 256 zeroRecord, true) }

theorem longFrame_flight : (longFrame.cwyWin 0).flight = some (zeroRecord :: List.replicate 256 zeroRecord, true) := rfl

/-- Refutes O44 in its clause on a frame without a DONE in time: of the frame of 257 records in flight in `longFrame`, 256 are
counted as not written, which the log entry's NOTAPP (bits 7 to 0) cannot hold, and the entry reads cause 0x24, not 0x23. No run
builds such a frame, for the buffer holds 32 entries (14 R384); the statement does not bound it. -/
theorem not_causewayServes : ¬ Obligations.CausewayServes := by
  unfold Obligations.CausewayServes
  rintro ⟨-, -, -, -, -, -, -, -, -, -, -, -, -, -, -, -, hdone, -⟩
  obtain ⟨t, ht, -, ⟨entry, hentry, hcause, -⟩, -⟩ := hdone 0 zeroRecord (List.replicate 256 zeroRecord) longFrame (by decide)
    longFrame_flight rfl (by decide)
  have hrun : longFrame.doneLate 0 = t := Host.Outcome.next.inj ht
  have hlog := State.doneLate_log (s := longFrame) longFrame_flight rfl rfl
  have hempty : longFrame.cwy.log = [] := rfl
  rw [hrun, hentry, hempty, List.length_replicate] at hlog
  have hw0 : entry.w0 = packW [(31, 1), (30, 1), (26, 0), (20, 0), (8, 0x23), (0, 256)] := List.head_eq_of_cons_eq hlog
  rw [hw0] at hcause
  exact absurd hcause (by decide)

end Sys2Proof.Machine
end
